-- ==== Sys2Proof/Word.lean ====
section
/-!
DEFINITION. Word.lean: the word types, and the plain data that commands carry (what the outside world determines at a
step: a received reply, a measured impedance, a written value). Every multi-byte value is little-endian (R6).
-/

namespace Sys2Proof

abbrev Byte := BitVec 8
abbrev Word := BitVec 32

/-- Outcome of an exchange, the field `OUTCOME` of the status words (R166). -/
inductive RxOutcome where
  | ok | none | crcErr | collision | codingErr | overload | tooLong | bufParity
  deriving DecidableEq, Repr

/-- The check a core applies to a reply (R165). -/
inductive RxCheck where
  | none | stp | crcA | crcB | v15693 | parityA | crcAParity
  deriving DecidableEq, Repr

/-- A protocol code of R257. -/
inductive Proto where
  | stp | typeA | typeB | vicinity
  deriving DecidableEq, Repr

/-- What the engine reads of one exchange: the two status words of R166 and the frame buffer after the check. -/
structure Reply where
  outcome  : RxOutcome
  data     : List Byte := []
  lastbits : Nat := 0
  timing   : Bool := false
  captured : Bool := false
  parityA  : Bool := false
  collPos  : Nat := 0xFFF
  delay    : Nat := 0xFFFF
  rssi     : Nat := 0
  suppr    : Nat := 0xFF
  deriving DecidableEq, Repr

/-- Modulation of a forward frame (R107, R108): depth in 0.5 % (200 is 100 %), fall and rise in 1/fc, edge shape (raised cosine, or
linear), and the length of a pause or symbol in 1/fc, 0 where the coding sets it. -/
structure Modulation where
  depth  : Nat := 40
  fall   : Nat := 4
  rise   : Nat := 4
  cosine : Bool := true
  pause  : Nat := 0
  deriving DecidableEq, Repr

/-- What follows a frame that an engine hands to a core within a write (R243): nothing of it, an ARM, or a COMMIT. -/
inductive ChainPart where
  | none | arm | commit
  deriving DecidableEq, Repr

/-- A forward frame as an engine hands it to a core (R157, R201, R254), its check included. `bits` are the valid bits of the last byte (0:
whole), `fwd` and `ret` the rate codes of the two directions (15693: `fwd` 1 is 1-of-256), `sub8`, `dual` and `high` the return subcarriers
and data rate (R158). `win` is the listen window and the protocol's reply window, open, close, first, last; `none` is that of R154. `least`
is the least gap after a reply, `timed` says that the frame must start inside the handle window (R208), `silent` that no reply is looked
for. `span` is the nominal duration of what must fit the window from its start on (R85, R243, R260), in 1/fc. With `skip` a closed window
leaves the frame out and the stitch goes on; with `tell` the stitch is told of a frame not sent instead of starting anew (R242, R281). -/
structure TxFrame where
  bytes  : List Byte
  bits   : Nat := 0
  split  : Bool := false
  proto  : Proto := .stp
  fwd    : Nat := 0
  ret    : Nat := 0
  sub8   : Bool := false
  dual   : Bool := false
  high   : Bool := true
  mod    : Modulation := {}
  check  : RxCheck := .stp
  win    : Option (Nat × Nat × Nat × Nat) := none
  least  : Nat := 0
  timed  : Bool := false
  silent : Bool := false
  chain  : ChainPart := .none
  span   : Nat := 0
  skip   : Bool := false
  tell   : Bool := false
  deriving DecidableEq, Repr

/-- The signal of a reply as the subcarrier demodulator finds it, in 0.1 µV at the port (R158, R160). `phase`: I and Q of each bit period
of a BPSK link, the 8 bit periods of preamble or leading subcarrier first. `chars`: the leading bit periods, then the ten bit periods of each
Type B character. `halves`: I and Q of both half-bits of each bit of an OOK Manchester link. `tones`: of each half-bit of an FSK link the
amplitude on fc/32 and on fc/28. -/
inductive RawSym where
  | phase (bits : List (Int × Int))
  | chars (lead : List (Int × Int)) (cs : List (List (Int × Int)))
  | halves (hs : List ((Int × Int) × (Int × Int)))
  | tones (ts : List ((Nat × Nat) × (Nat × Nat)))
  deriving DecidableEq, Repr

/-- A reply at the receiver: its signal, and the DC level left at the ADC over its first 8 bit periods, I and Q in the units of the
own-carrier coefficient (1/16 384), none where the reply is shorter (R147). -/
structure RawReply where
  sym : RawSym
  dc  : Option (Int × Int) := none
  deriving DecidableEq, Repr

/-- What is known of a Vorfin image when its last byte has been read (R56). Its format is not in the manual. `sigOk` is the outcome of
the signature check of an image over SPI; for one from flash SIGNATURE_VERIFIED brings it. -/
structure ImageReport where
  responds   : Bool := true
  headerOk   : Bool := true
  length     : Nat := 0
  digestOk   : Bool := true
  sigOk      : Bool := true
  keySlot    : Fin 4 := 0
  secVersion : BitVec 16 := 0
  fwVersion  : BitVec 32 := 0
  deriving DecidableEq, Repr

/-- A neighbour entry as burnish measures it (R124). -/
structure NbrEntry where
  gport : Nat := 0xFFFF
  kAtt  : Nat := 0xFF
  aAtt  : Nat := 0xFF
  aArg  : Nat := 0
  stale : Bool := false
  deriving DecidableEq, Repr

/-- One completed burnish estimate, waiting for the next slot boundary (R175, R180). `tune` holds the sums of arg Z in 0.1° and of |Z| in
0.1 Ω over n checks; coefficients are in 1/16 384, phases in 1/1024 cycle. `ownCarrier` is a measurement, `ownRefresh` the coefficient
increased by the mean residual (R186). `radioFreq` is twice the median offset in 0.01 ppm (R179). -/
inductive BurnResult where
  | tune (p : Fin 128) (alt : Bool) (theta : Int) (zMag n : Nat)
  | ownCarrier (p : Fin 128) (alt : Bool) (re im : Int)
  | ownRefresh (p : Fin 128) (alt : Bool) (re im : Int)
  | dcOffset (k : Fin 16) (i q : Int)
  | iqTrim (k : Fin 16) (gain phase : Int)
  | neighbours (p : Fin 128) (entries : List NbrEntry)
  | stalePair (p : Fin 128) (entry : NbrEntry)
  | coreChain (diffs : List Int)
  | radioFreq (twice : Int)
  | radioDc (i q : Int)
  | devicePhase (v : Int)
  deriving DecidableEq, Repr

/-- Who asks the field scheduler for a field (R13, R126). -/
inductive Owner where
  | ctx (e : Fin 24) (c : Fin 2)
  | lane (k : Fin 16)
  | burnish
  | retest
  deriving DecidableEq, Repr

/-- A probe of the watch sequencer: port, |Z| in 0.1 Ω, arg Z in 0.1° (R313). -/
structure Probe where
  port : Fin 128
  zMag : Nat
  zArg : Int
  deriving DecidableEq, Repr

/-- What a scrub pass found (R347–R349): single-bit and double-bit errors by cell, with the queue that holds the cell
(`none`: the free list) and the place of the word in it; link parity errors. -/
structure ScrubReport where
  singles : List (Nat × Option (Fin 32) × Nat) := []
  doubles : List (Nat × Option (Fin 32) × Nat) := []
  linkErrors : List (Option (Fin 32) × Nat) := []
  deriving DecidableEq, Repr

/-- Wired ports of the ledger arbiter (R366). -/
inductive Wired where
  | i2c | spi
  deriving DecidableEq, Repr

/-- Where a dictionary request comes from (R467). Queued requests are read at the head of their queue. -/
inductive DictArrival where
  | q18
  | q20
  | spi (bytes : List Byte) (dchk : Byte)
  | air (slot : Fin 256) (bytes : List Byte)
  | lace (dev : Fin 4)
  deriving DecidableEq, Repr

/-- An STP forward frame at the target: its first modulated interval in 1/fc, its depth in 0.1 %, its whole bytes and the bits after
them, and the level of its carrier in 0.1 dB (R198, R202, R211). -/
structure StpRx where
  first : Nat := 384
  depth : Nat := 200
  bytes : List Byte
  rest  : Nat := 0
  level : Int
  deriving DecidableEq, Repr

/-- Header of a valid frame at the target: port tag, claim flag, level of the frame in 0.1 dB (R201, R211). -/
structure StpHead where
  tag   : BitVec 7
  claim : Bool := false
  level : Int
  deriving DecidableEq, Repr

/-- Header of an SPI transaction (R483, R488): the `CMD` byte, `ADDR`, `LEN`, and the `HCHK` byte as received. -/
structure SpiHeader where
  cmd    : BitVec 8
  addr   : BitVec 16
  len    : BitVec 16
  hchk   : Byte := 0
  deriving DecidableEq, Repr

/-- A CAN frame as the controller sees it (R497): a CAN FD data frame with an 11-bit identifier, or another kind. -/
structure CanFrame where
  supported : Bool := true
  id        : BitVec 11
  data      : List Byte
  deriving DecidableEq, Repr

/-- One window of the chirp detector (R399): the peak shift, how far it lies above the mean bin power (0.1 dB), and
its absolute level (0.1 dBm). -/
structure ChirpPeak where
  shift : Nat
  above : Nat
  level : Int
  deriving DecidableEq, Repr

/-- A symbol pair seen by a demodulator at sync (R404): mean up-chirp shift and the two down-chirp shifts, in 0.01 chip. -/
structure SyncMeasure where
  up    : Int
  down1 : Int
  down2 : Int
  deriving DecidableEq, Repr

/-- What a demodulator measures with a frame (R403): RSSI in 0.1 dBm, SNR in 0.25 dB, and the preamble SNR of each branch, in 0.25 dB too
(R410). -/
structure RxMeta where
  rssi : Int := 0
  snr  : Int := 0
  preA : Int := 0
  preB : Int := 0
  deriving DecidableEq, Repr

/-- Which frame the transmitter sends next (R411): the n-th frame of the hold, an ACK, a call or a check-in. -/
inductive TxKind where
  | held (i : Nat)
  | ack
  | wake (n : Fin 256)
  | checkin
  deriving DecidableEq, Repr

/-- The two links of the lace port (R527). -/
inductive LaceLink where
  | a | b
  deriving DecidableEq, Repr

/-- Header fields of a lace frame (R531). -/
structure LaceHead where
  type  : BitVec 4
  src   : Fin 4
  dst   : Fin 4
  bcast : Bool := false
  eseq  : BitVec 16 := 0
  lseq  : BitVec 16 := 0
  len   : BitVec 16 := 0
  deriving DecidableEq, Repr

/-- A field change at an edge port of another device (R532, type FIELD). -/
structure EdgeField where
  gport : Fin 512
  isOn  : Bool
  code  : BitVec 10
  level : Nat
  sub8  : Bool
  iso   : Bool
  deriving DecidableEq, Repr

/-- Outcomes by protocol step of a 14443 or 15693 exchange are those of `Reply`; this names the STP field of a WRITE. -/
abbrev Bytes := List Byte

end Sys2Proof
end

