-- ==== Sys2Proof/Syntax.lean ====
section
/-!
DEFINITION. Syntax.lean: the commands of the DX8128, one constructor for each row of spec/opcode_table.json, in the
table's order. The operands are what the outside world determines at the step.
-/

namespace Sys2Proof

/-- The commands and events of the table of operations (spec/95_what_each_step_holds.md says what each step holds). -/
inductive Instr where
  | coldStart (refsel vddio33 : Bool)
  | rstNLow
  | resetCmd (value : BitVec 16)
  | mainSupplyLost
  | vtxLow
  | vtxRestored
  | vrfLow
  | vrfRestored
  | vaoLow
  | vaoRestored
  | clockMonitorWindow (cycles : Nat) (sleepLost : Bool)
  | sleepCrystalQualified
  | sleepCrystalTimeout
  | watchdogExpiry
  | controllerParityFault
  | controllerRestart
  | modeRequest (code : BitVec 8) (window : Option Byte)
  | modeTransitionComplete
  | drainLimitExpiry
  | targetFieldDetected (strength : Nat)
  | emulateHoldoffExpiry
  | rescueFieldAbsent
  | wakeNWake
  | wakeNRearm
  | alarmExpiry
  | canActivityWake
  | canWakeArm
  | wakeDuringBoot (source : Fin 6)
  | junctionTempSample (tj : Int)
  | referenceStable
  | pllLocked
  | imageReadComplete (img : ImageReport)
  | signatureVerified (good : Bool)
  | imageOverSpiPassed (img : ImageReport)
  | firmwareReady
  | phrefLevelChange (level : Bool)
  | phrefEdgeQualified
  | plausibilityWindowEnd
  | coastLimit
  | phaseSourceWrite (value : BitVec 8)
  | phaseOffsetWrite (value : BitVec 16)
  | nominalPeriodWrite (value : BitVec 32)
  | cycleBoundary
  | encoderTransition (a b : Bool)
  | encoderIndex
  | encoderStopped
  | aoPhaseCounterEdge
  | windowBoundary (win : Fin 64) (opens : Bool)
  | planSwitchRequest (target : BitVec 32)
  | planSwitchCancel
  | planWindowWrite (bank : Fin 2) (win : Fin 64) (w0 w1 w2 w3 : Word)
  | grantRequest (who : Owner) (port : Fin 128)
  | governorBinBoundary
  | reservation (who : Owner)
  | portSwitch (core : Fin 16) (otherOpen : Bool)
  | portCheck (core : Fin 16) (zMag : Nat) (zArg : Int)
  | fieldAt95 (core : Fin 16) (level : Nat)
  | driverTrip (core : Fin 16) (matrixOpen : Bool)
  | fieldOff (core : Fin 16)
  | fieldChange (core : Fin 16) (otherOpen : Bool)
  | gapHoldExpiry (core : Fin 16)
  | changeWaitExpiry (core : Fin 16)
  | portRetestTimer (port : Fin 128)
  | portEnableWrite (port : Fin 128) (value : Bool)
  | coreFault (core : Fin 16) (cause : Fin 7)
  | coreSelftestStart (core : Fin 16)
  | coreSelftestDone (core : Fin 16) (pass : Bool)
  | coreProbationEnd (core : Fin 16)
  | coreRelease (core : Fin 16) (value : BitVec 8)
  | coreEnableWrite (core : Fin 16) (value : Bool)
  | listenWindowOpen (core : Fin 16) (dcLevel : Nat)
  | replyStartDetected (core : Fin 16) (start amp noise : Nat)
  | adcOverload (core : Fin 16) (time samples : Nat) (raw : RawReply)
  | listenWindowClose (core : Fin 16)
  | replyEnd (core : Fin 16) (raw : RawReply)
  | frameStart (core : Fin 16) (elapsed : Nat)
  | noneWaitExpiry (port : Fin 128)
  | burnishStepComplete (results : List BurnResult) (stepEnds : Bool)
  | dcOffsetEstimate (core : Fin 16) (i q : Int)
  | dispatch
  | contextTake (e : Fin 24) (c : Fin 2)
  | steal (e : Fin 24) (c : Fin 2)
  | dequeDeadlineSweep
  | handleLostReacquire (e : Fin 24) (c : Fin 2)
  | runLimitExpiry (e : Fin 24) (c : Fin 2)
  | resultStallResume (e : Fin 24) (c : Fin 2)
  | stitchSeek (e : Fin 24) (c : Fin 2) (parityBad : Bool)
  | stitchSingleRead (e : Fin 24) (c : Fin 2) (parityBad : Bool)
  | stitchRead (e : Fin 24) (c : Fin 2) (parityBad : Bool)
  | stitchWrite (e : Fin 24) (c : Fin 2) (parityBad : Bool)
  | stitchQuiet (e : Fin 24) (c : Fin 2) (parityBad : Bool)
  | stitchRelease (e : Fin 24) (c : Fin 2) (parityBad : Bool)
  | stitchAuth (e : Fin 24) (c : Fin 2) (parityBad : Bool)
  | stitchIsoActivate (e : Fin 24) (c : Fin 2) (parityBad : Bool)
  | stitchIsoApdu (e : Fin 24) (c : Fin 2) (parityBad : Bool)
  | stitchVInventory (e : Fin 24) (c : Fin 2) (parityBad : Bool)
  | stitchVRead (e : Fin 24) (c : Fin 2) (parityBad : Bool)
  | stitchVWrite (e : Fin 24) (c : Fin 2) (parityBad : Bool)
  | stitchProbe (e : Fin 24) (c : Fin 2) (zMag : Nat) (zArg : Int) (level noise : Nat)
  | stitchRaw (e : Fin 24) (c : Fin 2) (parityBad : Bool)
  | isoIdleExpiry (port : Fin 128)
  | apduLimitExpiry (e : Fin 24) (c : Fin 2)
  | engineFault (e : Fin 24) (cause : Fin 5)
  | dequeMove (e : Fin 24)
  | engineSelftestStart (e : Fin 24)
  | engineSelftestDone (e : Fin 24) (pass : Bool)
  | engineProbationEnd (e : Fin 24)
  | engineRelease (e : Fin 24) (value : BitVec 8)
  | engineEnableWrite (e : Fin 24) (value : Bool)
  | surveyPassStart
  | laneVisit (lane : Fin 16) (parityBad : Bool)
  | laneStallResume (lane : Fin 16)
  | passEnd
  | watchSweepStart
  | watchProbeStep (pos : Fin 8) (probes : List Probe)
  | watchSweepEnd
  | queueFlush (q : Fin 32) (value : BitVec 8)
  | quotaWrite (q : Fin 32) (isMax : Bool) (value : BitVec 16)
  | consumerWrite (q : Fin 32) (value : BitVec 8)
  | producerStallResume (q : Fin 32)
  | scrubPass (report : ScrubReport)
  | ownerSweepDone
  | targetFieldLost (capAsDeclared : Bool)
  | tgtIsoReqa
  | tgtIsoWupa
  | tgtIsoAnticollision (nvb : BitVec 8) (bits : BitVec 32)
  | tgtIsoSelectL3 (uid : BitVec 32)
  | tgtIsoHlta
  | tgtIsoRats (param : Byte)
  | tgtIsoPps (pps0 pps1 : Byte)
  | tgtIsoDeselect
  | tgtIsoRBlock (nak : Bool) (blockNo : Bool)
  | tgtApduSelect (p1 p2 : Byte) (aid : List Byte)
  | tgtReadBinary (p1 p2 : Byte) (le : Nat)
  | tgtReadRecord (p1 p2 : Byte)
  | tgtAppendRecord (p1 p2 : Byte) (data : List Byte)
  | tgtUpdateRecord (p1 p2 : Byte) (data : List Byte)
  | tgtInternalAuth (p1 p2 : Byte) (ra : List Byte)
  | tgtExternalAuth (p1 p2 : Byte) (c2 : List Byte)
  | tgtRelease (p1 p2 : Byte)
  | tgtApduUnknown (cla ins p1 p2 : Byte)
  | releaseVoltageReached
  | releaseWaitTimeout
  | releasePulseEnd
  | targetAuthLockoutEnd
  | tgtStpSeek (f : StpRx)
  | tgtStpSingle (f : StpRx)
  | tgtStpSelect (f : StpRx)
  | tgtStpSetLink (f : StpRx)
  | tgtStpRead (f : StpRx)
  | tgtStpArm (f : StpRx)
  | tgtStpCommit (f : StpRx)
  | tgtStpQuiet (f : StpRx)
  | tgtStpRelease (f : StpRx)
  | tgtStpAuth1 (f : StpRx)
  | tgtStpAuth2 (f : StpRx)
  | tgtStpUnknownFrame (f : StpRx)
  | tgtStpHandleDrop
  | ledgerReadAudit (w : Wired) (slot : BitVec 16) (check : BitVec 16)
  | ledgerReadSetting (w : Wired) (record : BitVec 16) (check : BitVec 16)
  | ledgerAppendAudit (w : Wired) (stampLo : BitVec 16) (data : List Byte) (check : BitVec 16)
  | ledgerWriteSetting (w : Wired) (record : BitVec 16) (data : List Byte) (check : BitVec 16)
  | ledgerStatus (w : Wired) (check : BitVec 16)
  | ledgerLease (w : Wired) (seconds : BitVec 16) (check : BitVec 16)
  | leaseExpiry
  | ledgerAccessStart
  | ledgerWriteComplete
  | wiredAccessTimeout (w : Wired)
  | rssiGateUpdate (ch : Fin 64) (power : Int)
  | detectorWindow (ch : Fin 64) (order : Fin 7) (peak : Option ChirpPeak)
  | demodPreambleLost (d : Fin 8) (badSync : Bool)
  | demodSync (d : Fin 8) (m : SyncMeasure)
  | demodHeader (d : Fin 8) (symbols : List Nat)
  | demodPayloadEnd (d : Fin 8) (symbols : List Nat) (info : RxMeta)
  | feGainStep (branchB : Bool) (peak : Int) (clipped : Bool)
  | radioRetune (hz : Nat)
  | radioTxStart (kind : TxKind)
  | radioTxEnd
  | radioProfileWrite (value : BitVec 8)
  | channelTableWrite (ch : Fin 64) (w0 w1 : Word)
  | lbtMeasureEnd (powers : List Int)
  | backoffExpiry
  | txHoldRelease
  | ackSend
  | ackWaitExpiry
  | satCheckinDue
  | guardWindowOpen (n : Fin 256)
  | guardWindowClose (n : Fin 256)
  | callStart (n : Fin 256)
  | callRetryTimer (n : Fin 256)
  | satLostListen
  | awakeWindowExpiry
  | txRequest (second : Bool)
  | txFrameExpiry (i : Nat)
  | partnerKeyWrite (n : Fin 256) (key : BitVec 128)
  | keyErase (value : BitVec 8)
  | partnerStateWrite (n : Fin 256) (value : BitVec 8)
  | watchListenWindow
  | dictRead (src : DictArrival)
  | dictWrite (src : DictArrival)
  | dictSegRead (src : DictArrival)
  | dictSegWrite (src : DictArrival)
  | dictSegment (src : DictArrival)
  | dictAbort (src : DictArrival)
  | dictRoutedResponse (viaRadio : Bool) (bytes : List Byte)
  | routeTimeout (i : Nat)
  | transferIdleExpiry (i : Nat)
  | trackExpiry (i : Nat)
  | dx4032Read
  | dx4032Write
  | spiNop (h : SpiHeader)
  | spiReadWin (h : SpiHeader)
  | spiReadQ (h : SpiHeader) (shifted : Nat)
  | spiWriteQ (h : SpiHeader) (words : List Word) (dchk : Byte)
  | spiConsume (h : SpiHeader)
  | spiDictDefer (bytes : List Byte)
  | spiAbandon
  | spiWriteStallRelease
  | spiIdleReset
  | spiWidthWrite (value : BitVec 8)
  | canFrameRx (f : CanFrame)
  | canFrameTx
  | heartbeat
  | timeMarkRx (node : BitVec 7) (time : BitVec 64)
  | canBusOff
  | canRecoveryStart (value : BitVec 8)
  | canBusoffRecovered
  | canStuckDominant
  | canStuckRecovery
  | canNodeWrite (value : BitVec 8)
  | gpioEdge (pin : Fin 8) (falling : Bool)
  | cuConfigWrite (c : Fin 8) (sub : BitVec 8) (value : BitVec 32)
  | cuValueWrite (c : Fin 8) (value : BitVec 32)
  | e2eUnitChange (generate : Bool) (unit : Fin 8)
  | laceLinkTrained (link : LaceLink) (clean : BitVec 3) (latency : Nat)
  | laceLinkDown (link : LaceLink)
  | laceRetransmitTimeout (link : LaceLink)
  | laceLinkAck (link : LaceLink) (lseq : BitVec 16)
  | laceRetrainTimer (link : LaceLink)
  | laceFormingTimeout
  | laceChainTimeout
  | laceFrameForward (link : LaceLink) (words : List Word)
  | laceDiscover (link : LaceLink) (words : List Word) (latency : Nat)
  | laceTick (link : LaceLink) (words : List Word)
  | laceTickTimer
  | lacePhase (link : LaceLink) (words : List Word)
  | lacePhaseTimer
  | lacePhaseMissing
  | laceAlign (link : LaceLink) (words : List Word)
  | laceAlignBoundary
  | laceField (link : LaceLink) (words : List Word)
  | laceClaim (link : LaceLink) (words : List Word)
  | laceClaimAccept (dev : Fin 4)
  | laceAccept (link : LaceLink) (words : List Word)
  | laceDict (link : LaceLink) (words : List Word)
  | laceStitch (link : LaceLink) (words : List Word)
  | laceStitchRetry
  | laceResult (link : LaceLink) (words : List Word)
  | laceJournal (link : LaceLink) (words : List Word)
  | laceDeparture (dev : Fin 4)
  | counterClear (value : BitVec 16)
  | journalRatePeriod
  | schedulerFault (cause : Fin 3)
  | schedulerRebuildDone
  | radioFault (cause : Fin 3)
  | radioRecovered
  | radioRelease (value : BitVec 8)
  | unitProbationEnd (unit : BitVec 8)
  | laceStitchRefusal (link : LaceLink) (words : List Word)
  | laceFrameTx
  | carrierVcoRelock
  deriving DecidableEq, Repr

end Sys2Proof
end

