-- ==== Sys2Proof/Machine/Entries.lean ====
section
/-!
DEFINITION. Machine/Entries.lean: the object dictionary as the tables of the chapters list it (R445): for each entry its
type, access code, default, the modes in which it may be written, its range, whether it is persistent and whether only
the host may write it. A value is held as a natural number: its bits, a list of octets in little-endian order.
-/

namespace Sys2Proof.Machine

/-- Access codes of R447. -/
inductive Access where
  | ro | rw | rws | wo | konst
  deriving DecidableEq, Repr

/-- One row of a dictionary table, for the indexes `base` to `base + n - 1` and the subindexes `lo` to `hi`. `modes` has
bit i set when the entry may be written in mode i; `rng` lists the intervals a value must lie in (none: any value of the
type). -/
structure EntryRow where
  base     : Nat
  n        : Nat := 1
  lo       : Nat
  hi       : Nat
  size     : Nat
  signed   : Bool := false
  acc      : Access
  dflt     : Nat := 0
  modes    : Nat := 0
  rng      : List (Int × Int) := []
  persist  : Bool := false
  hostOnly : Bool := false
  deriving DecidableEq, Repr

/-- Entries 0x1000–0x10FF. -/
def rows10 : List EntryRow :=
  [ { base := 0x1000, lo := 0x01, hi := 0x01, size := 4, acc := .konst, dflt := 0x4b812801 },
    { base := 0x1000, lo := 0x02, hi := 0x02, size := 1, acc := .konst },
    { base := 0x1000, lo := 0x03, hi := 0x03, size := 8, acc := .konst },
    { base := 0x1000, lo := 0x04, hi := 0x04, size := 1, acc := .konst },
    { base := 0x1000, lo := 0x05, hi := 0x05, size := 4, acc := .ro } ]

/-- Entries 0x1100–0x11FF. A write of [1100:07] with bits 7:6 set is out of range (R64; log 40). -/
def rows11 : List EntryRow :=
  [ { base := 0x1100, lo := 0x01, hi := 0x01, size := 1, acc := .rw, modes := 0x3C },
    { base := 0x1100, lo := 0x02, hi := 0x02, size := 1, acc := .ro, dflt := 3 },
    { base := 0x1100, lo := 0x03, hi := 0x03, size := 2, acc := .wo, modes := 0xBC },
    { base := 0x1100, lo := 0x04, hi := 0x04, size := 4, acc := .ro },
    { base := 0x1100, lo := 0x05, hi := 0x05, size := 1, acc := .rw, dflt := 3, modes := 0x3C, rng := [(2, 4)], persist := true },
    { base := 0x1100, lo := 0x06, hi := 0x06, size := 2, acc := .rw, dflt := 500, modes := 0x3C, rng := [(20, 10000)] },
    { base := 0x1100, lo := 0x07, hi := 0x07, size := 1, acc := .rw, dflt := 51, modes := 0x3C, rng := [(0, 63)], persist := true },
    { base := 0x1100, lo := 0x08, hi := 0x08, size := 1, acc := .ro },
    { base := 0x1100, lo := 0x09, hi := 0x09, size := 4, acc := .rw, modes := 0x3C, rng := [(0, 86400)], persist := true },
    { base := 0x1100, lo := 0x0A, hi := 0x0A, size := 4, acc := .ro },
    { base := 0x1100, lo := 0x0B, hi := 0x0B, size := 1, acc := .ro, dflt := 1 },
    { base := 0x1100, lo := 0x0C, hi := 0x0C, size := 2, acc := .rw, dflt := 50, modes := 0x3C, rng := [(1, 1000)] },
    { base := 0x1100, lo := 0x20, hi := 0x20, size := 2, acc := .rw, dflt := 600, modes := 0x3C, rng := [(100, 960)] },
    { base := 0x1100, lo := 0x21, hi := 0x21, size := 2, acc := .konst, dflt := 1000 },
    { base := 0x1100, lo := 0x22, hi := 0x22, size := 2, acc := .ro },
    { base := 0x1100, lo := 0x23, hi := 0x23, size := 2, signed := true, acc := .ro },
    { base := 0x1100, lo := 0x24, hi := 0x24, size := 2, signed := true, acc := .rw, dflt := 1150, modes := 0x3C, rng := [(850, 1150)] },
    { base := 0x1100, lo := 0x25, hi := 0x25, size := 2, signed := true, acc := .konst, dflt := 1350 },
    { base := 0x1100, lo := 0x26, hi := 0x26, size := 4, acc := .ro } ]

/-- Entries 0x1200–0x12FF. A write of [1200:09] with bits 7:4 set is out of range (R65; log 40). -/
def rows12 : List EntryRow :=
  [ { base := 0x1200, lo := 0x01, hi := 0x01, size := 1, acc := .rws, dflt := 1, modes := 0x10, rng := [(0, 1)], persist := true },
    { base := 0x1200, lo := 0x02, hi := 0x02, size := 1, acc := .rws, dflt := 2, modes := 0x10, rng := [(0, 2)], persist := true },
    { base := 0x1200, lo := 0x03, hi := 0x03, size := 1, acc := .rws, dflt := 3, modes := 0x10, rng := [(2, 4)], persist := true },
    { base := 0x1200, lo := 0x04, hi := 0x04, size := 4, acc := .ro },
    { base := 0x1200, lo := 0x05, hi := 0x05, size := 2, acc := .rws, modes := 0x10, persist := true },
    { base := 0x1200, lo := 0x06, hi := 0x06, size := 1, acc := .ro, dflt := 1 },
    { base := 0x1200, lo := 0x07, hi := 0x07, size := 1, acc := .ro },
    { base := 0x1200, lo := 0x08, hi := 0x08, size := 4, acc := .ro },
    { base := 0x1200, lo := 0x09, hi := 0x09, size := 1, acc := .rws, modes := 0x10, rng := [(0, 15)], persist := true } ]

/-- Entries 0x1800–0x18FF. -/
def rows18 : List EntryRow :=
  [ { base := 0x1880, lo := 0x01, hi := 0x01, size := 2, acc := .rw, dflt := 1000, modes := 0x3C, rng := [(100, 60000)] },
    { base := 0x1880, lo := 0x02, hi := 0x02, size := 2, acc := .rw, dflt := 30, modes := 0x3C, rng := [(1, 3600)] },
    { base := 0x1880, lo := 0x03, hi := 0x03, size := 2, acc := .rw, dflt := 7200, modes := 0x3C },
    { base := 0x1880, lo := 0x04, hi := 0x04, size := 2, acc := .rw, dflt := 200, modes := 0x3C, rng := [(10, 10000)] },
    { base := 0x1880, lo := 0x05, hi := 0x05, size := 1, acc := .ro },
    { base := 0x1880, lo := 0x06, hi := 0x06, size := 1, acc := .ro },
    { base := 0x1880, lo := 0x10, hi := 0x10, size := 4, acc := .rw, dflt := 65535, modes := 0x3C, persist := true, hostOnly := true },
    { base := 0x1880, lo := 0x11, hi := 0x11, size := 4, acc := .rw, dflt := 16385, modes := 0x3C, persist := true, hostOnly := true },
    { base := 0x1881, lo := 0x01, hi := 0x7E, size := 4, acc := .rw, dflt := 65535, modes := 0x3C, hostOnly := true },
    { base := 0x1800, lo := 0x01, hi := 0x01, size := 1, acc := .rw, modes := 0xBC, rng := [(0, 1)] },
    { base := 0x1800, lo := 0x02, hi := 0x02, size := 2, acc := .konst, dflt := 10 },
    { base := 0x1810, lo := 0x01, hi := 0x01, size := 1, acc := .rw, dflt := 126, modes := 0x3C, rng := [(1, 126)], persist := true },
    { base := 0x1810, lo := 0x02, hi := 0x02, size := 1, acc := .rw, dflt := 3, modes := 0x3C, rng := [(0, 3)], persist := true },
    { base := 0x1810, lo := 0x03, hi := 0x03, size := 1, acc := .rw, dflt := 2, modes := 0x3C, rng := [(0, 4)], persist := true },
    { base := 0x1810, lo := 0x04, hi := 0x04, size := 1, acc := .rw, dflt := 1, modes := 0x3C, rng := [(0, 1)], persist := true },
    { base := 0x1810, lo := 0x05, hi := 0x05, size := 2, acc := .rw, dflt := 1000, modes := 0x3C, rng := [(0, 0), (100, 60000)] },
    { base := 0x1810, lo := 0x06, hi := 0x06, size := 4, acc := .rw, modes := 0x3C },
    { base := 0x1810, lo := 0x07, hi := 0x07, size := 1, acc := .rw, modes := 0x3C, rng := [(0, 126)] },
    { base := 0x1810, lo := 0x08, hi := 0x08, size := 1, acc := .rw, dflt := 1, modes := 0x3C, rng := [(0, 1)] },
    { base := 0x1810, lo := 0x09, hi := 0x09, size := 2, acc := .rw, dflt := 1000, modes := 0x3C, rng := [(100, 10000)] },
    { base := 0x1810, lo := 0x0A, hi := 0x0A, size := 1, acc := .ro },
    { base := 0x1810, lo := 0x0B, hi := 0x0B, size := 1, acc := .ro },
    { base := 0x1810, lo := 0x0C, hi := 0x0C, size := 1, acc := .ro },
    { base := 0x1810, lo := 0x0D, hi := 0x0D, size := 16, acc := .rw, dflt := 0xffffffffffffffffffffffffffffffff, modes := 0x3C, persist := true },
    { base := 0x1820, n := 8, lo := 0x01, hi := 0x01, size := 1, acc := .rw, modes := 0xBC, rng := [(0, 5)] },
    { base := 0x1820, n := 8, lo := 0x02, hi := 0x02, size := 1, acc := .rw, modes := 0xBC, rng := [(0, 1)] },
    { base := 0x1820, n := 8, lo := 0x03, hi := 0x03, size := 1, acc := .rw, modes := 0xBC } ]

/-- Entries 0x2000–0x20FF. -/
def rows20 : List EntryRow :=
  [ { base := 0x2000, lo := 0x01, hi := 0x01, size := 1, acc := .rws, dflt := 1, modes := 0x10, rng := [(0, 2)], persist := true },
    { base := 0x2000, lo := 0x02, hi := 0x02, size := 1, acc := .ro },
    { base := 0x2000, lo := 0x03, hi := 0x03, size := 1, acc := .rws, modes := 0x10, rng := [(0, 1)], persist := true },
    { base := 0x2000, lo := 0x04, hi := 0x04, size := 1, acc := .rws, dflt := 1, modes := 0x10, rng := [(1, 2)], persist := true },
    { base := 0x2000, lo := 0x05, hi := 0x05, size := 2, acc := .rw, modes := 0x3C },
    { base := 0x2000, lo := 0x06, hi := 0x06, size := 1, acc := .rw, dflt := 4, modes := 0x3C, rng := [(1, 2), (4, 4), (8, 8)] },
    { base := 0x2000, lo := 0x07, hi := 0x07, size := 2, acc := .rw, dflt := 256, modes := 0x3C, rng := [(0, 4096)] },
    { base := 0x2000, lo := 0x08, hi := 0x08, size := 2, acc := .rw, dflt := 100, modes := 0x3C, rng := [(0, 1000)] },
    { base := 0x2000, lo := 0x09, hi := 0x09, size := 1, acc := .rw, dflt := 32, modes := 0x3C },
    { base := 0x2000, lo := 0x0A, hi := 0x0A, size := 4, acc := .rw, dflt := 20000, modes := 0x3C, rng := [(7143, 25000)], persist := true },
    { base := 0x2000, lo := 0x0B, hi := 0x0B, size := 1, acc := .rw, dflt := 15, modes := 0x3C, rng := [(5, 25)] },
    { base := 0x2000, lo := 0x0C, hi := 0x0C, size := 1, acc := .rw, modes := 0x3C, rng := [(0, 1)] },
    { base := 0x2000, lo := 0x0D, hi := 0x0D, size := 4, acc := .ro },
    { base := 0x2000, lo := 0x0E, hi := 0x0E, size := 4, acc := .ro },
    { base := 0x2000, lo := 0x0F, hi := 0x0F, size := 2, acc := .ro },
    { base := 0x2000, lo := 0x10, hi := 0x10, size := 4, acc := .rws, dflt := 4096, modes := 0x10, rng := [(64, 1048576)], persist := true },
    { base := 0x2000, lo := 0x11, hi := 0x11, size := 2, acc := .rw, dflt := 4, modes := 0x3C, rng := [(0, 1024)] },
    { base := 0x2000, lo := 0x12, hi := 0x12, size := 1, acc := .rw, dflt := 10, modes := 0x3C },
    { base := 0x2000, lo := 0x13, hi := 0x13, size := 1, acc := .ro, dflt := 2 },
    { base := 0x2000, lo := 0x14, hi := 0x14, size := 1, acc := .rws, modes := 0x10, rng := [(0, 1)], persist := true },
    { base := 0x2010, lo := 0x01, hi := 0x01, size := 1, acc := .ro },
    { base := 0x2010, lo := 0x02, hi := 0x02, size := 4, acc := .wo, modes := 0x3C },
    { base := 0x2010, lo := 0x03, hi := 0x03, size := 1, acc := .ro, rng := [(0, 1)] },
    { base := 0x2010, lo := 0x04, hi := 0x04, size := 4, acc := .ro },
    { base := 0x2011, lo := 0x01, hi := 0x40, size := 16, acc := .rw, modes := 0x3C },
    { base := 0x2012, lo := 0x01, hi := 0x40, size := 16, acc := .rw, modes := 0x3C } ]

/-- Entries 0x2100–0x21FF. -/
def rows21 : List EntryRow :=
  [ { base := 0x2100, n := 16, lo := 0x01, hi := 0x01, size := 1, acc := .ro },
    { base := 0x2100, n := 16, lo := 0x02, hi := 0x02, size := 1, acc := .rw, dflt := 1, modes := 0x3C, rng := [(0, 1)] },
    { base := 0x2100, n := 16, lo := 0x03, hi := 0x03, size := 1, acc := .wo, modes := 0x3C },
    { base := 0x2100, n := 16, lo := 0x04, hi := 0x04, size := 1, acc := .rw, dflt := 120, modes := 0x3C, rng := [(28, 120)] },
    { base := 0x2100, n := 16, lo := 0x05, hi := 0x05, size := 1, acc := .ro, dflt := 255 },
    { base := 0x2100, n := 16, lo := 0x06, hi := 0x06, size := 2, acc := .ro },
    { base := 0x2100, n := 16, lo := 0x07, hi := 0x07, size := 2, signed := true, acc := .ro },
    { base := 0x2100, n := 16, lo := 0x08, hi := 0x08, size := 1, acc := .ro },
    { base := 0x2100, n := 16, lo := 0x09, hi := 0x09, size := 2, acc := .rw, dflt := 100, modes := 0x3C, rng := [(10, 10000)] },
    { base := 0x2100, n := 16, lo := 0x0A, hi := 0x0A, size := 1, acc := .ro },
    { base := 0x2100, n := 16, lo := 0x0B, hi := 0x0B, size := 4, acc := .ro },
    { base := 0x2100, n := 16, lo := 0x0C, hi := 0x0C, size := 4, acc := .ro } ]

/-- Entries 0x2200–0x22FF. -/
def rows22 : List EntryRow :=
  [ { base := 0x2200, n := 128, lo := 0x01, hi := 0x01, size := 1, acc := .ro },
    { base := 0x2200, n := 128, lo := 0x02, hi := 0x02, size := 1, acc := .rw, dflt := 1, modes := 0x3C, rng := [(0, 1)] },
    { base := 0x2200, n := 128, lo := 0x03, hi := 0x03, size := 1, acc := .rw, dflt := 100, modes := 0x3C, rng := [(28, 120)] },
    { base := 0x2200, n := 128, lo := 0x04, hi := 0x04, size := 1, acc := .rw, modes := 0x3C, rng := [(0, 2)] },
    { base := 0x2200, n := 128, lo := 0x05, hi := 0x05, size := 1, acc := .ro, dflt := 32 },
    { base := 0x2200, n := 128, lo := 0x06, hi := 0x06, size := 1, acc := .ro, dflt := 32 },
    { base := 0x2200, n := 128, lo := 0x07, hi := 0x07, size := 1, acc := .rw, dflt := 255, modes := 0x3C, rng := [(0, 63), (255, 255)] },
    { base := 0x2200, n := 128, lo := 0x08, hi := 0x08, size := 2, acc := .rw, dflt := 1000, modes := 0x3C, rng := [(200, 5000)] },
    { base := 0x2200, n := 128, lo := 0x09, hi := 0x09, size := 1, acc := .rw, dflt := 12, modes := 0x3C, rng := [(2, 40)] },
    { base := 0x2200, n := 128, lo := 0x0A, hi := 0x0A, size := 2, acc := .rw, dflt := 60, modes := 0x3C, rng := [(0, 3600)] },
    { base := 0x2200, n := 128, lo := 0x0B, hi := 0x0B, size := 2, acc := .ro },
    { base := 0x2200, n := 128, lo := 0x0C, hi := 0x0C, size := 2, signed := true, acc := .ro },
    { base := 0x2200, n := 128, lo := 0x0D, hi := 0x0D, size := 1, acc := .rw, dflt := 1, modes := 0x3C, rng := [(0, 1)] },
    { base := 0x2200, n := 128, lo := 0x0E, hi := 0x0E, size := 4, acc := .ro } ]

/-- Entries 0x2300–0x23FF. -/
def rows23 : List EntryRow :=
  [ { base := 0x2300, lo := 0x01, hi := 0x01, size := 1, acc := .rw, dflt := 1, modes := 0x3C, rng := [(0, 1)] },
    { base := 0x2300, lo := 0x02, hi := 0x02, size := 2, signed := true, acc := .rw, dflt := 64936, modes := 0x3C, rng := [(-800, -400)] },
    { base := 0x2300, lo := 0x03, hi := 0x03, size := 2, signed := true, acc := .rw, dflt := 65436, modes := 0x3C, rng := [(-200, 0)] },
    { base := 0x2300, lo := 0x04, hi := 0x04, size := 2, signed := true, acc := .rw, dflt := 65136, modes := 0x3C, rng := [(-600, -200)] },
    { base := 0x2300, lo := 0x05, hi := 0x05, size := 2, signed := true, acc := .rw, dflt := 65236, modes := 0x3C, rng := [(-600, -150)] },
    { base := 0x2300, lo := 0x06, hi := 0x06, size := 2, signed := true, acc := .rw, dflt := 65286, modes := 0x3C, rng := [(-400, -100)] },
    { base := 0x2300, lo := 0x07, hi := 0x07, size := 2, signed := true, acc := .rw, dflt := 65256, modes := 0x3C, rng := [(-400, -200)] },
    { base := 0x2300, lo := 0x08, hi := 0x08, size := 1, acc := .rw, dflt := 1, modes := 0x3C, rng := [(0, 1)] },
    { base := 0x2300, lo := 0x09, hi := 0x09, size := 1, acc := .ro },
    { base := 0x2300, lo := 0x0A, hi := 0x0A, size := 1, acc := .rw, dflt := 1, modes := 0x3C, rng := [(0, 1)] },
    { base := 0x2300, lo := 0x0B, hi := 0x0B, size := 1, acc := .rw, dflt := 30, modes := 0x3C, rng := [(20, 40)] },
    { base := 0x2300, lo := 0x0C, hi := 0x0C, size := 2, acc := .rw, dflt := 40, modes := 0x3C, rng := [(20, 100)] },
    { base := 0x2300, lo := 0x0D, hi := 0x0D, size := 1, acc := .rw, dflt := 1, modes := 0x3C, rng := [(0, 1)] },
    { base := 0x2300, lo := 0x0E, hi := 0x0E, size := 2, acc := .rw, dflt := 2000, modes := 0x3C, rng := [(100, 50000)] },
    { base := 0x2300, lo := 0x10, hi := 0x10, size := 2, acc := .rw, dflt := 1000, modes := 0x3C, rng := [(100, 50000)] },
    { base := 0x2300, lo := 0x11, hi := 0x11, size := 2, acc := .ro },
    { base := 0x2380, n := 128, lo := 0x01, hi := 0x08, size := 8, acc := .ro } ]

/-- Entries 0x2400–0x24FF. -/
def rows24 : List EntryRow :=
  [ { base := 0x2400, lo := 0x01, hi := 0x01, size := 1, acc := .rw, modes := 0x3C, rng := [(0, 7)] },
    { base := 0x2400, lo := 0x02, hi := 0x02, size := 1, acc := .rw, dflt := 6, modes := 0x3C, rng := [(0, 6)] },
    { base := 0x2400, lo := 0x03, hi := 0x03, size := 1, acc := .rw, dflt := 25, modes := 0x3C, rng := [(10, 60)] },
    { base := 0x2400, lo := 0x04, hi := 0x04, size := 1, acc := .rw, dflt := 30, modes := 0x3C, rng := [(10, 80)] },
    { base := 0x2400, lo := 0x05, hi := 0x05, size := 1, acc := .rw, dflt := 10, modes := 0x3C, rng := [(6, 20)] },
    { base := 0x2400, lo := 0x06, hi := 0x06, size := 1, acc := .rw, dflt := 54, modes := 0x3C, rng := [(0, 100)] },
    { base := 0x2400, lo := 0x08, hi := 0x08, size := 1, acc := .rw, dflt := 32, modes := 0x3C, rng := [(8, 128)] },
    { base := 0x2400, lo := 0x09, hi := 0x09, size := 1, acc := .rw, modes := 0x3C, rng := [(0, 1)] },
    { base := 0x2400, lo := 0x0B, hi := 0x0B, size := 1, acc := .rw, dflt := 4, modes := 0x3C, rng := [(2, 32)] },
    { base := 0x2410, n := 16, lo := 0x01, hi := 0x01, size := 1, acc := .ro, dflt := 255 },
    { base := 0x2410, n := 16, lo := 0x02, hi := 0x02, size := 2, signed := true, acc := .ro },
    { base := 0x2410, n := 16, lo := 0x03, hi := 0x03, size := 1, acc := .ro },
    { base := 0x2410, n := 16, lo := 0x04, hi := 0x04, size := 4, acc := .ro },
    { base := 0x2410, n := 16, lo := 0x05, hi := 0x05, size := 2, signed := true, acc := .ro },
    { base := 0x2410, n := 16, lo := 0x06, hi := 0x06, size := 2, signed := true, acc := .ro },
    { base := 0x2480, n := 128, lo := 0x01, hi := 0x01, size := 4, acc := .ro, dflt := 16384 },
    { base := 0x2480, n := 128, lo := 0x02, hi := 0x02, size := 4, acc := .ro, dflt := 16384 } ]

/-- Entries 0x2500–0x25FF. -/
def rows25 : List EntryRow :=
  [ { base := 0x2510, lo := 0x01, hi := 0x01, size := 1, acc := .rw, dflt := 40, modes := 0x3C, rng := [(36, 44)] },
    { base := 0x2510, lo := 0x02, hi := 0x02, size := 1, acc := .rw, dflt := 4, modes := 0x3C, rng := [(3, 7)] },
    { base := 0x2510, lo := 0x03, hi := 0x03, size := 1, acc := .rw, dflt := 4, modes := 0x3C, rng := [(3, 7)] },
    { base := 0x2510, lo := 0x04, hi := 0x04, size := 1, acc := .rw, dflt := 1, modes := 0x3C, rng := [(0, 1)] },
    { base := 0x2510, lo := 0x05, hi := 0x05, size := 2, acc := .rw, dflt := 150, modes := 0x3C, rng := [(100, 2000)] },
    { base := 0x2510, lo := 0x06, hi := 0x06, size := 1, acc := .rw, dflt := 1, modes := 0x3C, rng := [(0, 1)] },
    { base := 0x2510, lo := 0x07, hi := 0x07, size := 1, acc := .rw, dflt := 3, modes := 0x3C, rng := [(0, 3)] },
    { base := 0x2510, lo := 0x08, hi := 0x08, size := 2, acc := .rw, dflt := 272, modes := 0x3C, rng := [(272, 1000)] },
    { base := 0x2510, lo := 0x09, hi := 0x09, size := 2, acc := .rw, dflt := 1500, modes := 0x3C, rng := [(273, 1627)] },
    { base := 0x2510, lo := 0x0A, hi := 0x0A, size := 1, acc := .rw, dflt := 10, modes := 0x3C, rng := [(3, 20)] },
    { base := 0x2510, lo := 0x0B, hi := 0x0B, size := 1, acc := .rw, dflt := 2, modes := 0x3C, rng := [(1, 8)] },
    { base := 0x2510, lo := 0x0C, hi := 0x0C, size := 1, acc := .rw, dflt := 2, modes := 0x3C, rng := [(1, 4)] },
    { base := 0x2580, n := 128, lo := 0x01, hi := 0x01, size := 2, acc := .rw, modes := 0x3C, rng := [(0, 0)] },
    { base := 0x2500, lo := 0x01, hi := 0x01, size := 1, acc := .rw, dflt := 4, modes := 0x3C, rng := [(0, 8)] },
    { base := 0x2500, lo := 0x02, hi := 0x02, size := 1, acc := .rw, dflt := 6, modes := 0x3C, rng := [(1, 16)] },
    { base := 0x2500, lo := 0x03, hi := 0x03, size := 1, acc := .rw, dflt := 1, modes := 0x3C, rng := [(0, 1)] },
    { base := 0x2500, lo := 0x04, hi := 0x04, size := 1, acc := .rw, dflt := 2, modes := 0x3C, rng := [(1, 4)] },
    { base := 0x2500, lo := 0x05, hi := 0x05, size := 1, acc := .rw, dflt := 3, modes := 0x3C, rng := [(1, 8)] },
    { base := 0x2500, lo := 0x06, hi := 0x06, size := 1, acc := .rw, dflt := 6, modes := 0x3C, rng := [(1, 40)] },
    { base := 0x2500, lo := 0x07, hi := 0x07, size := 1, acc := .rw, dflt := 3, modes := 0x3C, rng := [(1, 4)] },
    { base := 0x2500, lo := 0x08, hi := 0x08, size := 1, acc := .rw, modes := 0x3C, rng := [(0, 1)] },
    { base := 0x2500, lo := 0x10, hi := 0x17, size := 16, acc := .wo, modes := 0x10, hostOnly := true },
    { base := 0x2500, lo := 0x18, hi := 0x18, size := 1, acc := .rw, modes := 0x10 },
    { base := 0x2500, lo := 0x19, hi := 0x19, size := 1, acc := .ro } ]

/-- Entries 0x2600–0x26FF. -/
def rows26 : List EntryRow :=
  [ { base := 0x2600, lo := 0x01, hi := 0x01, size := 1, acc := .rw, dflt := 7, modes := 0x3C, rng := [(0, 7)] },
    { base := 0x2600, lo := 0x02, hi := 0x02, size := 1, acc := .rw, dflt := 22, modes := 0x3C, rng := [(18, 26)] },
    { base := 0x2600, lo := 0x03, hi := 0x03, size := 1, acc := .rw, dflt := 3, modes := 0x3C, rng := [(0, 3)] },
    { base := 0x2600, lo := 0x04, hi := 0x04, size := 1, acc := .rw, dflt := 3, modes := 0x3C, rng := [(0, 3)] },
    { base := 0x2600, lo := 0x05, hi := 0x05, size := 2, acc := .rw, dflt := 256, modes := 0x3C, rng := [(16, 16), (24, 24), (32, 32), (40, 40), (48, 48), (64, 64), (96, 96), (128, 128), (256, 256)] },
    { base := 0x2600, lo := 0x06, hi := 0x06, size := 1, acc := .rw, dflt := 32, modes := 0x3C, rng := [(0, 128)] },
    { base := 0x2600, lo := 0x07, hi := 0x07, size := 4, acc := .rw, dflt := 49152, modes := 0x3C, rng := [(0, 262144)] },
    { base := 0x2600, lo := 0x08, hi := 0x08, size := 1, acc := .rw, dflt := 2, modes := 0x3C, rng := [(0, 4)] },
    { base := 0x2600, lo := 0x09, hi := 0x09, size := 2, acc := .rw, dflt := 5000, modes := 0x3C, rng := [(10, 30000)] },
    { base := 0x2600, lo := 0x0A, hi := 0x0A, size := 2, acc := .rw, dflt := 100, modes := 0x3C, rng := [(1, 10000)] },
    { base := 0x2600, lo := 0x0C, hi := 0x0C, size := 1, acc := .rw, dflt := 32, modes := 0x3C, rng := [(28, 40)] },
    { base := 0x2600, lo := 0x0D, hi := 0x0D, size := 1, acc := .rw, dflt := 2, modes := 0x3C, rng := [(1, 6)] },
    { base := 0x2600, lo := 0x10, hi := 0x10, size := 1, acc := .rw, modes := 0x3C, rng := [(0, 0), (22, 58)] },
    { base := 0x2600, lo := 0x11, hi := 0x11, size := 1, acc := .rw, dflt := 1, modes := 0x3C, rng := [(0, 1)] },
    { base := 0x2600, lo := 0x12, hi := 0x12, size := 1, acc := .rw, modes := 0x3C, rng := [(0, 1)] },
    { base := 0x2600, lo := 0x13, hi := 0x13, size := 1, acc := .rw, modes := 0x3C, rng := [(0, 1)] },
    { base := 0x2600, lo := 0x14, hi := 0x14, size := 4, acc := .rw, dflt := 271200, modes := 0x3C, rng := [(4384, 1356000)] },
    { base := 0x2600, lo := 0x15, hi := 0x15, size := 1, acc := .rw, modes := 0x3C, rng := [(0, 1)] },
    { base := 0x2680, n := 128, lo := 0x01, hi := 0x01, size := 2, acc := .rw, modes := 0x3C, rng := [(0, 0)] } ]

/-- Entries 0x2800–0x28FF. -/
def rows28 : List EntryRow :=
  [ { base := 0x2800, lo := 0x01, hi := 0x01, size := 1, acc := .rw, dflt := 1, modes := 0x3C, rng := [(0, 1)] },
    { base := 0x2800, lo := 0x02, hi := 0x02, size := 1, acc := .ro },
    { base := 0x2800, lo := 0x03, hi := 0x03, size := 1, acc := .ro },
    { base := 0x2800, lo := 0x04, hi := 0x04, size := 1, acc := .rw, dflt := 2, modes := 0x3C, rng := [(0, 20)] },
    { base := 0x2800, lo := 0x05, hi := 0x05, size := 1, acc := .rw, dflt := 16, modes := 0x3C, rng := [(4, 64)] },
    { base := 0x2800, lo := 0x06, hi := 0x06, size := 1, acc := .rw, dflt := 15, modes := 0x3C, rng := [(10, 40)] },
    { base := 0x2800, lo := 0x07, hi := 0x07, size := 1, acc := .rw, dflt := 128, modes := 0x3C },
    { base := 0x2800, lo := 0x08, hi := 0x08, size := 1, acc := .rw, dflt := 64, modes := 0x3C },
    { base := 0x2800, lo := 0x09, hi := 0x09, size := 1, acc := .rw, modes := 0x3C, rng := [(0, 1)] },
    { base := 0x2800, lo := 0x0A, hi := 0x0A, size := 1, acc := .rw, dflt := 1, modes := 0x3C, rng := [(0, 1)], persist := true },
    { base := 0x2800, lo := 0x0B, hi := 0x0B, size := 4, acc := .rws, dflt := 7340032, modes := 0x10, persist := true },
    { base := 0x2800, lo := 0x0C, hi := 0x0C, size := 1, acc := .ro, rng := [(0, 1)] },
    { base := 0x2800, lo := 0x0E, hi := 0x0E, size := 4, acc := .ro },
    { base := 0x2800, lo := 0x10, hi := 0x10, size := 1, acc := .rw, dflt := 80, modes := 0x3C, rng := [(28, 120)] },
    { base := 0x2810, n := 16, lo := 0x01, hi := 0x01, size := 1, signed := true, acc := .ro },
    { base := 0x2810, n := 16, lo := 0x02, hi := 0x02, size := 1, signed := true, acc := .ro },
    { base := 0x2810, n := 16, lo := 0x03, hi := 0x03, size := 1, signed := true, acc := .ro },
    { base := 0x2810, n := 16, lo := 0x04, hi := 0x04, size := 1, signed := true, acc := .ro },
    { base := 0x2820, lo := 0x01, hi := 0x01, size := 2, signed := true, acc := .ro },
    { base := 0x2820, lo := 0x02, hi := 0x02, size := 2, signed := true, acc := .ro },
    { base := 0x2820, lo := 0x03, hi := 0x03, size := 1, signed := true, acc := .ro },
    { base := 0x2820, lo := 0x04, hi := 0x04, size := 1, signed := true, acc := .ro },
    { base := 0x2820, lo := 0x05, hi := 0x05, size := 1, acc := .rw, dflt := 8, modes := 0x3C, rng := [(2, 32)] },
    { base := 0x2880, n := 128, lo := 0x01, hi := 0x01, size := 1, acc := .ro },
    { base := 0x2880, n := 128, lo := 0x02, hi := 0x02, size := 5, acc := .ro, dflt := 0x47000000 },
    { base := 0x2880, n := 128, lo := 0x03, hi := 0x03, size := 2, signed := true, acc := .ro } ]

/-- Entries 0x3000–0x30FF. -/
def rows30 : List EntryRow :=
  [ { base := 0x3000, n := 24, lo := 0x01, hi := 0x01, size := 1, acc := .ro },
    { base := 0x3000, n := 24, lo := 0x02, hi := 0x02, size := 1, acc := .rw, dflt := 1, modes := 0x3C, rng := [(0, 1)] },
    { base := 0x3000, n := 24, lo := 0x03, hi := 0x03, size := 1, acc := .wo, modes := 0x3C },
    { base := 0x3000, n := 24, lo := 0x04, hi := 0x04, size := 1, acc := .ro },
    { base := 0x3000, n := 24, lo := 0x05, hi := 0x05, size := 4, acc := .ro },
    { base := 0x3000, n := 24, lo := 0x06, hi := 0x06, size := 1, acc := .ro },
    { base := 0x3000, n := 24, lo := 0x07, hi := 0x07, size := 1, acc := .ro },
    { base := 0x3000, n := 24, lo := 0x08, hi := 0x08, size := 4, acc := .ro },
    { base := 0x3000, n := 24, lo := 0x09, hi := 0x09, size := 4, acc := .ro },
    { base := 0x3000, n := 24, lo := 0x0A, hi := 0x0A, size := 4, acc := .ro } ]

/-- Entries 0x3100–0x31FF. -/
def rows31 : List EntryRow :=
  [ { base := 0x3100, lo := 0x01, hi := 0x01, size := 1, acc := .rw, dflt := 1, modes := 0x3C, rng := [(0, 1)] },
    { base := 0x3100, lo := 0x02, hi := 0x02, size := 1, acc := .rw, dflt := 4, modes := 0x3C, rng := [(1, 32)] },
    { base := 0x3100, lo := 0x03, hi := 0x03, size := 1, acc := .rw, dflt := 1, modes := 0x3C, rng := [(0, 1)] },
    { base := 0x3100, lo := 0x04, hi := 0x04, size := 2, acc := .rw, dflt := 1000, modes := 0x3C, rng := [(10, 60000)] },
    { base := 0x3100, lo := 0x05, hi := 0x05, size := 2, acc := .rw, dflt := 100, modes := 0x3C, rng := [(10, 10000)] },
    { base := 0x3100, lo := 0x06, hi := 0x06, size := 1, acc := .ro, dflt := 24 },
    { base := 0x3100, lo := 0x07, hi := 0x07, size := 1, acc := .konst, dflt := 10 },
    { base := 0x3100, lo := 0x08, hi := 0x08, size := 1, acc := .ro, rng := [(0, 1)] } ]

/-- Entries 0x3200–0x32FF. -/
def rows32 : List EntryRow :=
  [ { base := 0x3200, lo := 0x01, hi := 0x01, size := 16, acc := .rw, dflt := 0xffffffffffffffffffffffffffffffff, modes := 0x3C },
    { base := 0x3200, lo := 0x02, hi := 0x02, size := 2, acc := .rw, dflt := 100, modes := 0x3C, rng := [(0, 60000)] },
    { base := 0x3200, lo := 0x03, hi := 0x03, size := 2, acc := .rw, modes := 0x3C },
    { base := 0x3200, lo := 0x04, hi := 0x04, size := 1, acc := .rw, dflt := 2, modes := 0x3C, rng := [(1, 3)] },
    { base := 0x3200, lo := 0x05, hi := 0x05, size := 1, acc := .rw, dflt := 1, modes := 0x3C, rng := [(0, 1)] },
    { base := 0x3200, lo := 0x06, hi := 0x06, size := 1, acc := .rw, dflt := 2, modes := 0x3C, rng := [(1, 16)] },
    { base := 0x3200, lo := 0x07, hi := 0x07, size := 1, acc := .rw, dflt := 1, modes := 0x3C, rng := [(0, 1)] },
    { base := 0x3200, lo := 0x08, hi := 0x08, size := 1, acc := .rw, modes := 0x3C, rng := [(0, 4)] },
    { base := 0x3200, lo := 0x09, hi := 0x09, size := 1, acc := .rw, dflt := 2, modes := 0x3C, rng := [(0, 63)] },
    { base := 0x3200, lo := 0x0A, hi := 0x0A, size := 16, acc := .rw, modes := 0x3C },
    { base := 0x3200, lo := 0x0B, hi := 0x0B, size := 4, acc := .ro },
    { base := 0x3200, lo := 0x0C, hi := 0x0C, size := 4, acc := .ro },
    { base := 0x3200, lo := 0x0D, hi := 0x0D, size := 1, acc := .ro },
    { base := 0x3210, lo := 0x01, hi := 0x01, size := 16, acc := .rw, dflt := 0xffffffffffffffffffffffffffffffff, modes := 0x3C },
    { base := 0x3210, lo := 0x02, hi := 0x02, size := 2, acc := .rw, dflt := 250, modes := 0x3C, rng := [(50, 10000)] },
    { base := 0x3210, lo := 0x03, hi := 0x03, size := 1, acc := .rw, dflt := 48, modes := 0x3C, rng := [(28, 72)] },
    { base := 0x3210, lo := 0x04, hi := 0x04, size := 1, acc := .rw, dflt := 5, modes := 0x3C, rng := [(1, 60)] },
    { base := 0x3210, lo := 0x05, hi := 0x05, size := 1, acc := .rw, dflt := 30, modes := 0x3C, rng := [(5, 200)] },
    { base := 0x3210, lo := 0x06, hi := 0x06, size := 1, acc := .rw, dflt := 2, modes := 0x3C, rng := [(0, 4)] },
    { base := 0x3210, lo := 0x07, hi := 0x07, size := 1, acc := .rw, dflt := 4, modes := 0x3C, rng := [(0, 8)] },
    { base := 0x3210, lo := 0x08, hi := 0x08, size := 1, acc := .rw, dflt := 2, modes := 0x3C, rng := [(1, 16)] },
    { base := 0x3210, lo := 0x09, hi := 0x09, size := 4, acc := .ro },
    { base := 0x3280, n := 128, lo := 0x01, hi := 0x01, size := 8, acc := .ro },
    { base := 0x3280, n := 128, lo := 0x02, hi := 0x02, size := 4, acc := .ro },
    { base := 0x3280, n := 128, lo := 0x03, hi := 0x03, size := 4, acc := .ro } ]

/-- Entries 0x3400–0x34FF. -/
def rows34 : List EntryRow :=
  [ { base := 0x3400, n := 32, lo := 0x01, hi := 0x01, size := 4, acc := .ro },
    { base := 0x3400, n := 32, lo := 0x02, hi := 0x02, size := 2, acc := .ro },
    { base := 0x3400, n := 32, lo := 0x03, hi := 0x03, size := 2, acc := .ro },
    { base := 0x3400, n := 32, lo := 0x04, hi := 0x04, size := 2, acc := .rw, modes := 0x3C },
    { base := 0x3400, n := 32, lo := 0x05, hi := 0x05, size := 2, acc := .rw, modes := 0x3C, rng := [(1, 16384)] },
    { base := 0x3400, n := 32, lo := 0x06, hi := 0x06, size := 1, acc := .rws, modes := 0x10, rng := [(0, 5)] },
    { base := 0x3400, n := 32, lo := 0x07, hi := 0x07, size := 1, acc := .wo, modes := 0xBC },
    { base := 0x3400, n := 32, lo := 0x08, hi := 0x08, size := 1, acc := .ro },
    { base := 0x3400, n := 32, lo := 0x09, hi := 0x09, size := 2, acc := .rw, modes := 0xBC, rng := [(0, 0)] },
    { base := 0x3400, n := 32, lo := 0x0A, hi := 0x0A, size := 4, acc := .ro },
    { base := 0x3400, n := 32, lo := 0x0B, hi := 0x0B, size := 4, acc := .ro },
    { base := 0x3400, n := 32, lo := 0x0C, hi := 0x0C, size := 4, acc := .ro },
    { base := 0x3400, n := 32, lo := 0x0D, hi := 0x0D, size := 5, acc := .ro },
    { base := 0x3400, n := 32, lo := 0x0E, hi := 0x0E, size := 1, acc := .ro },
    { base := 0x3480, lo := 0x01, hi := 0x01, size := 2, acc := .konst, dflt := 16384 },
    { base := 0x3480, lo := 0x02, hi := 0x02, size := 2, acc := .ro, dflt := 16384 },
    { base := 0x3480, lo := 0x03, hi := 0x03, size := 4, signed := true, acc := .ro, dflt := 12704 },
    { base := 0x3480, lo := 0x04, hi := 0x04, size := 2, acc := .ro },
    { base := 0x3480, lo := 0x05, hi := 0x05, size := 2, acc := .rw, dflt := 100, modes := 0x3C, rng := [(10, 10000)] },
    { base := 0x3480, lo := 0x06, hi := 0x06, size := 4, acc := .ro },
    { base := 0x3480, lo := 0x07, hi := 0x07, size := 2, acc := .ro, dflt := 3680 } ]

/-- Entries 0x4000–0x40FF. -/
def rows40 : List EntryRow :=
  [ { base := 0x4000, lo := 0x01, hi := 0x01, size := 1, acc := .rw, dflt := 1, modes := 0x3C, rng := [(0, 1)] },
    { base := 0x4000, lo := 0x02, hi := 0x02, size := 1, acc := .rws, modes := 0x10, rng := [(0, 2)], persist := true },
    { base := 0x4000, lo := 0x03, hi := 0x03, size := 1, acc := .rw, modes := 0x3C, persist := true },
    { base := 0x4000, lo := 0x04, hi := 0x04, size := 1, acc := .rw, dflt := 2, modes := 0x3C, rng := [(0, 2)] },
    { base := 0x4000, lo := 0x05, hi := 0x05, size := 1, acc := .rw, modes := 0x3C, rng := [(0, 1)] },
    { base := 0x4000, lo := 0x06, hi := 0x06, size := 1, acc := .rw, dflt := 6, modes := 0x3C, rng := [(3, 20)] },
    { base := 0x4000, lo := 0x07, hi := 0x07, size := 2, signed := true, acc := .rw, dflt := 64286, modes := 0x3C, rng := [(-1250, -600)] },
    { base := 0x4000, lo := 0x08, hi := 0x08, size := 1, acc := .konst, dflt := 5 },
    { base := 0x4000, lo := 0x09, hi := 0x09, size := 1, acc := .konst, dflt := 2 },
    { base := 0x4000, lo := 0x0A, hi := 0x0A, size := 1, acc := .rw, dflt := 100, modes := 0x3C, rng := [(60, 200)] },
    { base := 0x4000, lo := 0x0B, hi := 0x0B, size := 2, acc := .rw, dflt := 8, modes := 0x3C, rng := [(8, 65535)] },
    { base := 0x4000, lo := 0x0C, hi := 0x0C, size := 1, signed := true, acc := .rw, dflt := 14, modes := 0x3C, rng := [(-10, 27)] },
    { base := 0x4000, lo := 0x0D, hi := 0x0D, size := 2, acc := .ro },
    { base := 0x4010, lo := 0x01, hi := 0x40, size := 8, acc := .rw, modes := 0x3C },
    { base := 0x4020, lo := 0x01, hi := 0x01, size := 4, acc := .ro, dflt := 0x2e7ddb00 },
    { base := 0x4020, lo := 0x02, hi := 0x02, size := 4, acc := .ro, dflt := 0x3ccbf700 },
    { base := 0x4020, lo := 0x03, hi := 0x03, size := 1, signed := true, acc := .ro, dflt := 27 },
    { base := 0x4020, lo := 0x04, hi := 0x04, size := 1, acc := .ro, dflt := 1 },
    { base := 0x4080, n := 8, lo := 0x01, hi := 0x01, size := 1, acc := .ro },
    { base := 0x4080, n := 8, lo := 0x02, hi := 0x02, size := 1, acc := .ro },
    { base := 0x4080, n := 8, lo := 0x03, hi := 0x03, size := 1, acc := .ro },
    { base := 0x4080, n := 8, lo := 0x04, hi := 0x04, size := 2, signed := true, acc := .ro },
    { base := 0x4080, n := 8, lo := 0x05, hi := 0x05, size := 4, signed := true, acc := .ro } ]

/-- Entries 0x4100–0x41FF. -/
def rows41 : List EntryRow :=
  [ { base := 0x4100, lo := 0x01, hi := 0x01, size := 1, acc := .rws, modes := 0x10, rng := [(0, 1)], persist := true },
    { base := 0x4100, lo := 0x02, hi := 0x02, size := 4, acc := .rws, modes := 0x10, persist := true },
    { base := 0x4100, lo := 0x03, hi := 0x03, size := 1, acc := .rw, dflt := 5, modes := 0x3C, rng := [(5, 20)] },
    { base := 0x4100, lo := 0x04, hi := 0x04, size := 2, signed := true, acc := .rw, dflt := 64686, modes := 0x3C, rng := [(-1000, -600)] },
    { base := 0x4100, lo := 0x06, hi := 0x06, size := 1, acc := .rw, dflt := 8, modes := 0x3C, rng := [(1, 32)] },
    { base := 0x4100, lo := 0x07, hi := 0x07, size := 2, acc := .rw, dflt := 20, modes := 0x3C, rng := [(5, 1000)] },
    { base := 0x4100, lo := 0x08, hi := 0x08, size := 4, acc := .rw, dflt := 120000, modes := 0x3C, rng := [(1000, 600000)] },
    { base := 0x4100, lo := 0x09, hi := 0x09, size := 1, acc := .konst, dflt := 4 },
    { base := 0x4100, lo := 0x0A, hi := 0x0A, size := 2, acc := .konst, dflt := 10000 },
    { base := 0x4100, lo := 0x0B, hi := 0x0B, size := 1, acc := .rw, dflt := 10, modes := 0x3C, rng := [(8, 14)], persist := true },
    { base := 0x4100, lo := 0x0C, hi := 0x0C, size := 1, acc := .rw, modes := 0x3C, rng := [(0, 63)], persist := true },
    { base := 0x4100, lo := 0x0D, hi := 0x0D, size := 1, acc := .rw, dflt := 3, modes := 0x3C, rng := [(1, 10)] },
    { base := 0x4100, lo := 0x0E, hi := 0x0E, size := 2, acc := .rw, dflt := 3600, modes := 0x3C, rng := [(60, 65535)] },
    { base := 0x4100, lo := 0x0F, hi := 0x0F, size := 1, acc := .rw, dflt := 3, modes := 0x3C, rng := [(0, 7)] },
    { base := 0x4100, lo := 0x10, hi := 0x10, size := 2, acc := .rw, dflt := 2000, modes := 0x3C, rng := [(100, 30000)] },
    { base := 0x4100, lo := 0x11, hi := 0x11, size := 1, acc := .rw, dflt := 8, modes := 0x3C, rng := [(3, 20)] },
    { base := 0x4100, lo := 0x12, hi := 0x12, size := 1, acc := .rw, dflt := 1, modes := 0x3C, rng := [(0, 1)] },
    { base := 0x4100, lo := 0x13, hi := 0x13, size := 2, acc := .rw, modes := 0x3C, rng := [(0, 0), (100, 60000)] },
    { base := 0x4100, lo := 0x14, hi := 0x14, size := 2, acc := .rw, dflt := 50, modes := 0x3C, rng := [(10, 5000)] },
    { base := 0x4100, lo := 0x15, hi := 0x15, size := 1, acc := .ro },
    { base := 0x4100, lo := 0x17, hi := 0x17, size := 1, acc := .wo, modes := 0x10, hostOnly := true },
    { base := 0x4100, lo := 0x18, hi := 0x18, size := 4, acc := .ro },
    { base := 0x4110, lo := 0x01, hi := 0x08, size := 12, acc := .rw, modes := 0x10 },
    { base := 0x4110, lo := 0x09, hi := 0x09, size := 2, acc := .konst, dflt := 3600 },
    { base := 0x4110, lo := 0x11, hi := 0x18, size := 4, acc := .ro },
    { base := 0x4120, lo := 0x01, hi := 0x01, size := 2, acc := .ro } ]

/-- Entries 0x4200–0x42FF. -/
def rows42 : List EntryRow :=
  [ { base := 0x4200, n := 256, lo := 0x01, hi := 0x01, size := 1, acc := .rw, modes := 0x3C, rng := [(0, 3)] },
    { base := 0x4200, n := 256, lo := 0x02, hi := 0x02, size := 4, acc := .rw, modes := 0x3C },
    { base := 0x4200, n := 256, lo := 0x03, hi := 0x03, size := 16, acc := .wo, modes := 0x3C, hostOnly := true },
    { base := 0x4200, n := 256, lo := 0x04, hi := 0x04, size := 4, acc := .rw, dflt := 3600, modes := 0x3C, rng := [(1, 86400)] },
    { base := 0x4200, n := 256, lo := 0x05, hi := 0x05, size := 1, acc := .rw, modes := 0x3C, rng := [(0, 63)] },
    { base := 0x4200, n := 256, lo := 0x06, hi := 0x06, size := 1, acc := .rw, dflt := 255, modes := 0x3C, rng := [(0, 63), (255, 255)] },
    { base := 0x4200, n := 256, lo := 0x07, hi := 0x07, size := 1, signed := true, acc := .rw, dflt := 14, modes := 0x3C },
    { base := 0x4200, n := 256, lo := 0x08, hi := 0x08, size := 1, acc := .rw, dflt := 40, modes := 0x3C, rng := [(1, 200)] },
    { base := 0x4200, n := 256, lo := 0x09, hi := 0x09, size := 1, acc := .rw, dflt := 12, modes := 0x3C, rng := [(0, 31)] },
    { base := 0x4200, n := 256, lo := 0x0A, hi := 0x0A, size := 1, acc := .ro },
    { base := 0x4200, n := 256, lo := 0x0B, hi := 0x0B, size := 4, acc := .ro },
    { base := 0x4200, n := 256, lo := 0x0C, hi := 0x0C, size := 4, acc := .ro },
    { base := 0x4200, n := 256, lo := 0x0D, hi := 0x0D, size := 1, acc := .ro, dflt := 2 },
    { base := 0x4200, n := 256, lo := 0x0E, hi := 0x0E, size := 4, signed := true, acc := .ro },
    { base := 0x4200, n := 256, lo := 0x0F, hi := 0x0F, size := 4, acc := .ro },
    { base := 0x4200, n := 256, lo := 0x10, hi := 0x10, size := 4, acc := .ro },
    { base := 0x4200, n := 256, lo := 0x11, hi := 0x11, size := 2, signed := true, acc := .ro },
    { base := 0x4200, n := 256, lo := 0x12, hi := 0x12, size := 1, acc := .rw, modes := 0x3C } ]

/-- Entries 0x5000–0x50FF. -/
def rows50 : List EntryRow :=
  [ { base := 0x5010, lo := 0x01, hi := 0x01, size := 1, acc := .rws, modes := 0x10, rng := [(0, 1)], persist := true },
    { base := 0x5010, lo := 0x02, hi := 0x02, size := 1, acc := .rw, dflt := 3, modes := 0x3C, rng := [(1, 127)] },
    { base := 0x5010, lo := 0x03, hi := 0x03, size := 2, acc := .rw, modes := 0x3C, persist := true },
    { base := 0x5010, lo := 0x04, hi := 0x04, size := 1, acc := .rws, dflt := 6, modes := 0x10, rng := [(0, 7)] },
    { base := 0x5010, lo := 0x05, hi := 0x05, size := 1, acc := .rws, dflt := 7, modes := 0x10, rng := [(0, 7)] },
    { base := 0x5010, lo := 0x06, hi := 0x06, size := 2, acc := .rw, dflt := 10, modes := 0x3C, rng := [(1, 3600)] },
    { base := 0x5010, lo := 0x07, hi := 0x07, size := 1, acc := .ro },
    { base := 0x5000, n := 8, lo := 0x01, hi := 0x01, size := 1, acc := .rw, modes := 0x3C, rng := [(0, 5)] },
    { base := 0x5000, n := 8, lo := 0x02, hi := 0x02, size := 1, acc := .rw, dflt := 3, modes := 0x3C, rng := [(0, 3)] },
    { base := 0x5000, n := 8, lo := 0x03, hi := 0x03, size := 4, acc := .rw, modes := 0x3C },
    { base := 0x5000, n := 8, lo := 0x04, hi := 0x04, size := 4, acc := .rw, dflt := 0xffffffff, modes := 0x3C },
    { base := 0x5000, n := 8, lo := 0x05, hi := 0x05, size := 4, acc := .rw, modes := 0xBC },
    { base := 0x5000, n := 8, lo := 0x06, hi := 0x06, size := 4, acc := .ro },
    { base := 0x5000, n := 8, lo := 0x07, hi := 0x07, size := 1, acc := .rw, modes := 0x3C, rng := [(0, 1)] },
    { base := 0x5000, n := 8, lo := 0x08, hi := 0x08, size := 1, acc := .rw, dflt := 255, modes := 0x3C, rng := [(0, 31), (255, 255)] },
    { base := 0x5000, n := 8, lo := 0x09, hi := 0x09, size := 4, acc := .ro },
    { base := 0x5000, n := 8, lo := 0x0A, hi := 0x0A, size := 4, acc := .ro } ]

/-- Entries 0x6000–0x60FF. -/
def rows60 : List EntryRow :=
  [ { base := 0x6000, lo := 0x01, hi := 0x01, size := 1, acc := .rw, dflt := 3, modes := 0x3C, rng := [(0, 3)], persist := true },
    { base := 0x6000, lo := 0x02, hi := 0x02, size := 2, acc := .rw, dflt := 100, modes := 0x3C, rng := [(10, 47000)], persist := true },
    { base := 0x6000, lo := 0x03, hi := 0x03, size := 1, acc := .rw, modes := 0x3C, rng := [(0, 1)], persist := true },
    { base := 0x6000, lo := 0x04, hi := 0x04, size := 1, acc := .rw, modes := 0x3C, rng := [(0, 1)], persist := true },
    { base := 0x6000, lo := 0x05, hi := 0x05, size := 1, acc := .rw, dflt := 1, modes := 0x3C, rng := [(0, 3)], persist := true },
    { base := 0x6000, lo := 0x06, hi := 0x06, size := 2, acc := .rw, dflt := 200, modes := 0x3C, rng := [(10, 2000)], persist := true },
    { base := 0x6000, lo := 0x07, hi := 0x07, size := 2, acc := .rw, dflt := 3000, modes := 0x3C, rng := [(2100, 3300)], persist := true },
    { base := 0x6000, lo := 0x08, hi := 0x08, size := 1, acc := .rws, dflt := 92, modes := 0x10, rng := [(8, 119)], persist := true },
    { base := 0x6000, lo := 0x09, hi := 0x09, size := 8, acc := .konst },
    { base := 0x6000, lo := 0x0A, hi := 0x0A, size := 2, acc := .ro },
    { base := 0x6000, lo := 0x0B, hi := 0x0B, size := 4, acc := .ro },
    { base := 0x6000, lo := 0x0C, hi := 0x0C, size := 1, acc := .ro },
    { base := 0x6000, lo := 0x0D, hi := 0x0D, size := 16, acc := .wo, modes := 0x10, hostOnly := true },
    { base := 0x6000, lo := 0x0E, hi := 0x0E, size := 16, acc := .wo, modes := 0x10, hostOnly := true },
    { base := 0x6000, lo := 0x0F, hi := 0x0F, size := 1, acc := .ro },
    { base := 0x6000, lo := 0x10, hi := 0x10, size := 1, acc := .ro },
    { base := 0x6000, lo := 0x11, hi := 0x11, size := 4, acc := .rw, modes := 0x3C },
    { base := 0x6010, lo := 0x01, hi := 0x01, size := 1, acc := .rw, modes := 0xBC },
    { base := 0x6010, lo := 0x02, hi := 0x02, size := 1, acc := .ro } ]

/-- Entries 0x7100–0x71FF. -/
def rows71 : List EntryRow :=
  [ { base := 0x7100, lo := 0x01, hi := 0x01, size := 4, acc := .ro },
    { base := 0x7100, lo := 0x02, hi := 0x02, size := 2, acc := .rw, dflt := 4095, modes := 0x3C, rng := [(0, 4095)] },
    { base := 0x7100, lo := 0x03, hi := 0x03, size := 2, acc := .rw, dflt := 256, modes := 0x3C, rng := [(16, 4096)] },
    { base := 0x7100, lo := 0x04, hi := 0x04, size := 2, acc := .wo, modes := 0xBC },
    { base := 0x7100, lo := 0x05, hi := 0x05, size := 1, acc := .ro },
    { base := 0x7100, lo := 0x06, hi := 0x06, size := 2, acc := .konst, dflt := 1000 },
    { base := 0x7100, lo := 0x07, hi := 0x07, size := 1, acc := .konst, dflt := 3 },
    { base := 0x7100, lo := 0x08, hi := 0x08, size := 2, acc := .konst, dflt := 10000 },
    { base := 0x7100, lo := 0x09, hi := 0x09, size := 1, acc := .ro },
    { base := 0x7100, lo := 0x0A, hi := 0x0A, size := 1, acc := .wo, modes := 0x3C },
    { base := 0x7100, lo := 0x0B, hi := 0x0B, size := 1, acc := .ro },
    { base := 0x7100, lo := 0x0C, hi := 0x0C, size := 1, acc := .ro },
    { base := 0x7100, lo := 0x0D, hi := 0x0D, size := 1, acc := .ro },
    { base := 0x7100, lo := 0x0E, hi := 0x0E, size := 2, acc := .konst, dflt := 50 },
    { base := 0x7100, lo := 0x0F, hi := 0x0F, size := 4, acc := .ro },
    { base := 0x7100, lo := 0x10, hi := 0x10, size := 1, acc := .ro },
    { base := 0x7100, lo := 0x11, hi := 0x11, size := 4, acc := .ro } ]

/-- Entries 0x7800–0x78FF. -/
def rows78 : List EntryRow :=
  [ { base := 0x7800, lo := 0x01, hi := 0x01, size := 1, acc := .ro },
    { base := 0x7800, lo := 0x02, hi := 0x02, size := 1, acc := .ro },
    { base := 0x7800, lo := 0x03, hi := 0x03, size := 1, acc := .ro, dflt := 1 },
    { base := 0x7800, lo := 0x04, hi := 0x04, size := 1, acc := .rws, modes := 0x10, rng := [(0, 0), (2, 4)], persist := true },
    { base := 0x7800, lo := 0x05, hi := 0x05, size := 1, acc := .ro },
    { base := 0x7800, lo := 0x06, hi := 0x06, size := 1, acc := .rw, modes := 0x3C, rng := [(0, 2)], persist := true },
    { base := 0x7800, lo := 0x07, hi := 0x07, size := 1, acc := .rw, dflt := 1, modes := 0x3C, rng := [(0, 1)] },
    { base := 0x7800, lo := 0x08, hi := 0x08, size := 2, signed := true, acc := .ro },
    { base := 0x7800, lo := 0x09, hi := 0x09, size := 1, acc := .ro },
    { base := 0x7800, lo := 0x0A, hi := 0x0A, size := 1, acc := .ro },
    { base := 0x7800, lo := 0x0B, hi := 0x0B, size := 2, acc := .ro },
    { base := 0x7800, lo := 0x0C, hi := 0x0C, size := 2, acc := .ro },
    { base := 0x7800, lo := 0x0E, hi := 0x0E, size := 4, signed := true, acc := .ro },
    { base := 0x7800, lo := 0x0F, hi := 0x0F, size := 1, acc := .ro, dflt := 1 },
    { base := 0x7800, lo := 0x10, hi := 0x10, size := 2, acc := .rw, dflt := 100, modes := 0x3C, rng := [(10, 10000)] } ]

/-- The entries whose index lies in a page of 256. -/
def entryPage (page : Nat) : List EntryRow :=
  if page = 0x10 then rows10
  else if page = 0x11 then rows11
  else if page = 0x12 then rows12
  else if page = 0x18 then rows18
  else if page = 0x20 then rows20
  else if page = 0x21 then rows21
  else if page = 0x22 then rows22
  else if page = 0x23 then rows23
  else if page = 0x24 then rows24
  else if page = 0x25 then rows25
  else if page = 0x26 then rows26
  else if page = 0x28 then rows28
  else if page = 0x30 then rows30
  else if page = 0x31 then rows31
  else if page = 0x32 then rows32
  else if page = 0x34 then rows34
  else if page = 0x40 then rows40
  else if page = 0x41 then rows41
  else if page = 0x42 then rows42
  else if page = 0x50 then rows50
  else if page = 0x60 then rows60
  else if page = 0x71 then rows71
  else if page = 0x78 then rows78
  else []

/-- The counter indexes of 0x7000–0x70FF and how many subindexes each has. -/
def counterRows : List (Nat × Nat) :=
  [ (0x7000, 14), (0x7008, 10), (0x7010, 14), (0x7018, 4), (0x7020, 11), (0x7030, 11), (0x7040, 10), (0x7050, 10), (0x7060, 11), (0x7070, 7), (0x7080, 13), (0x7090, 10), (0x70A0, 13), (0x70B0, 12), (0x70C0, 12), (0x70D0, 11), (0x70E0, 14), (0x70F0, 16), (0x70F8, 15) ]

/-- The key of an entry: index × 256 + subindex. -/
def ekey (idx sub : Nat) : Nat := idx * 256 + sub

/-- The row of an entry. -/
def entryRow (idx sub : Nat) : Option EntryRow :=
  (entryPage (idx / 256)).find? fun r => r.base ≤ idx && idx < r.base + r.n && r.lo ≤ sub && sub ≤ r.hi

/-- Number of counters of an index of 0x7000–0x70FF; 0 where the index has none. -/
def counterSubs (idx : Nat) : Nat := ((counterRows.find? fun r => r.1 = idx).map (·.2)).getD 0

/-- The default of an entry that no table row makes special. -/
def entryDefault (idx sub : Nat) : Nat := ((entryRow idx sub).map (·.dflt)).getD 0

/-- A bit pattern of `bits` bits read as a two's complement number. -/
def toSigned (bits v : Nat) : Int := if v % 2 ^ bits < 2 ^ (bits - 1) then (v % 2 ^ bits : Nat) else (v % 2 ^ bits : Nat) - (2 ^ bits : Nat)

/-- The bit pattern of a number in two's complement. -/
def fromSigned (bits : Nat) (v : Int) : Nat := (v % (2 ^ bits : Nat)).toNat

/-- Whether a value lies in the range of an entry. -/
def EntryRow.inRange (r : EntryRow) (v : Nat) : Bool :=
  let x : Int := if r.signed then toSigned (8 * r.size) v else v
  r.rng.isEmpty || r.rng.any fun p => decide (p.1 ≤ x) && decide (x ≤ p.2)

end Sys2Proof.Machine
end

