-- ==== Sys2Proof/Machine/Operands.lean ====
section
/-!
DEFINITION. Machine/Operands.lean: the forms in which values appear in packets, frames and entries: bit fields, words and
bytes in little-endian order (R6), signed numbers, and the wrap of phase units (R70).
-/

namespace Sys2Proof.Machine

/-- Bits [lo + n - 1 : lo] of a number. -/
def field (v lo n : Nat) : Nat := v / 2 ^ lo % 2 ^ n

/-- One bit of a number. -/
def bitAt (v i : Nat) : Bool := v / 2 ^ i % 2 = 1

/-- A number placed at bit `lo`, cut to `n` bits. -/
def place (lo n v : Nat) : Nat := (v % 2 ^ n) * 2 ^ lo

def bitN (b : Bool) : Nat := if b then 1 else 0

/-- A word from a number. -/
def word (v : Nat) : Word := BitVec.ofNat 32 v

def byte (v : Nat) : Byte := BitVec.ofNat 8 v

/-- The `n` low bytes of a number, lowest first (R6). -/
def leBytes (n v : Nat) : List Byte := (List.range n).map fun i => byte (v / 2 ^ (8 * i))

/-- The number that a list of bytes holds, lowest byte first. -/
def leNat : List Byte → Nat
  | [] => 0
  | b :: bs => b.toNat + 256 * leNat bs

/-- The four bytes of a word. -/
def wordBytes (w : Word) : List Byte := leBytes 4 w.toNat

def wordsBytes (ws : List Word) : List Byte := ws.flatMap wordBytes

/-- Bytes packed into words, first byte in bits [7:0], the last word padded with zeros (R269). -/
def packWords : List Byte → List Word
  | a :: b :: c :: d :: rest => word (leNat [a, b, c, d]) :: packWords rest
  | [] => []
  | rest => [word (leNat rest)]

/-- A signed number in `n` bits of two's complement. -/
def signedField (n : Nat) (v : Int) : Nat := fromSigned n v

/-- The lesser and the greater bound applied. -/
def clampI (lo hi v : Int) : Int := max lo (min hi v)

def clampN (lo hi v : Nat) : Nat := max lo (min hi v)

/-- A phase difference as a signed number, −32 768 to 32 767 (R70). -/
def wrap16 (v : Int) : Int := toSigned 16 (fromSigned 16 v)

/-- Division rounded to the nearest, halves away from zero. -/
def roundDiv (a : Int) (b : Nat) : Int :=
  if b = 0 then 0
  else if 0 ≤ a then ((2 * a + b) / (2 * b) : Int) else -((2 * (-a) + b) / (2 * b) : Int)

/-- Lists of optional length, padded with zeros or cut. -/
def padTo (n : Nat) (bs : List Byte) : List Byte := bs.take n ++ List.replicate (n - bs.length) 0

/-- Element of a list, or a default. -/
def nth {α : Type} (l : List α) (i : Nat) (d : α) : α := (l[i]?).getD d

/-- A list in order, elements that compare equal in the order in which they stood. -/
def insertBy {α : Type} (le : α → α → Bool) (a : α) : List α → List α
  | [] => [a]
  | b :: rest => if le a b then a :: b :: rest else b :: insertBy le a rest

def sortBy {α : Type} (le : α → α → Bool) : List α → List α
  | [] => []
  | a :: rest => insertBy le a (sortBy le rest)

/-- Sparse maps: key and value, keys strictly rising. -/
def mapGet (k : Nat) : List (Nat × Nat) → Option Nat
  | [] => none
  | p :: rest => if p.1 = k then some p.2 else mapGet k rest

def mapSet (k v : Nat) : List (Nat × Nat) → List (Nat × Nat)
  | [] => [(k, v)]
  | p :: rest => if p.1 = k then (k, v) :: rest else if k < p.1 then (k, v) :: p :: rest else p :: mapSet k v rest

def mapDel (k : Nat) (l : List (Nat × Nat)) : List (Nat × Nat) := l.filter fun p => p.1 ≠ k

/-- Whether the keys of a sparse map rise strictly. -/
def mapSorted : List (Nat × Nat) → Bool
  | [] => true
  | [_] => true
  | a :: b :: rest => decide (a.1 < b.1) && mapSorted (b :: rest)

end Sys2Proof.Machine
end

