-- ==== Sys2Proof/Machine/Numerics.lean ====
section
/-!
DEFINITION. Machine/Numerics.lean: decibels, angles and complex figures as fixed-point numbers with 18 decimal places
(log 13: the spec gives the exact formulas; values closer to a threshold than this arithmetic resolves are decided by it).
-/

namespace Sys2Proof.Machine

/-- The unit of the fixed-point numbers, 10^18. -/
def fx : Nat := 1000000000000000000

/-- 10^(1/40), 10^(1/80) and 10^(1/100), π/180, π. -/
def ten40 : Nat := 1059253725177288879
def ten80 : Nat := 1029200527194428170
def ten100 : Nat := 1023292992280754131
def piFx : Int := 3141592653589793238

/-- `c^n` in fixed point. -/
def powFx (c : Nat) : Nat → Nat
  | 0 => fx
  | n + 1 => powFx c n * c / fx

/-- 10^(n/den), `c` being 10^(1/den). -/
def tenTo (c den : Nat) (n : Int) : Nat :=
  let q := n / (den : Int)
  let r := powFx c (n % (den : Int)).toNat
  if 0 ≤ q then r * 10 ^ q.toNat else r / 10 ^ (-q).toNat

/-- Power of a level code of 0.25 dBm, in nW: 10^(code/40) mW (R100). -/
def levelNw (code : Nat) : Nat := tenTo ten40 40 code * 1000000 / fx

/-- Amplitude ratio of n steps of 0.25 dB: 10^(n/80) (R129). -/
def amp80 (n : Int) : Nat := tenTo ten80 80 n

/-- Power ratio of n steps of 0.1 dB: 10^(n/100). -/
def pow100 (n : Int) : Nat := tenTo ten100 100 n

/-- A complex number in fixed point. -/
structure Cpx where
  re : Int
  im : Int
  deriving DecidableEq, Repr

def Cpx.add (a b : Cpx) : Cpx := ⟨a.re + b.re, a.im + b.im⟩
def Cpx.mul (a b : Cpx) : Cpx := ⟨(a.re * b.re - a.im * b.im) / (fx : Int), (a.re * b.im + a.im * b.re) / (fx : Int)⟩
/-- |z|², in fixed point. -/
def Cpx.norm (a : Cpx) : Nat := ((a.re * a.re + a.im * a.im) / (fx : Int)).toNat

def cpxPow (a : Cpx) : Nat → Cpx
  | 0 => ⟨(fx : Int), 0⟩
  | n + 1 => (cpxPow a n).mul a

/-- e^(j2π/1024) and e^(j2π·16/1024). -/
def unitFine : Cpx := ⟨999981175282601143, 6135884649154475⟩
def unitCoarse : Cpx := ⟨995184726672196886, 98017140329560602⟩

/-- e^(j2πn/1024): exact on the axes, by powers of the two steps within a quarter (R129). -/
def cis1024 (n : Int) : Cpx :=
  let k := (n % 1024).toNat
  let r := k % 256
  let z := (cpxPow unitCoarse (r / 16)).mul (cpxPow unitFine (r % 16))
  let z := if r = 0 then ⟨(fx : Int), 0⟩ else z
  match k / 256 with
  | 0 => z
  | 1 => ⟨-z.im, z.re⟩
  | 2 => ⟨-z.re, -z.im⟩
  | _ => ⟨z.im, -z.re⟩

/-- Terms of the sine and cosine series of `x` (fixed-point radians), from term `k` on. -/
def trigSeries (x2 : Int) : Nat → Nat → Int → Int
  | 0, _, _ => 0
  | n + 1, k, t => t + trigSeries x2 n (k + 2) (-(t * x2 / (fx : Int)) / (((k + 1) * (k + 2) : Nat) : Int))

/-- Sine and cosine of an angle in radians. -/
def sinFx (x : Int) : Int := trigSeries (x * x / (fx : Int)) 14 1 x
def cosFx (x : Int) : Int := trigSeries (x * x / (fx : Int)) 14 0 (fx : Int)

/-- Sine of an angle in milli-degrees. -/
def sinMilli (a : Int) : Int := sinFx (a * piFx / 180000)

/-- Δcode of R176 without rounding, for n checks whose arguments in 0.1° and magnitudes in 0.1 Ω add up to `theta` and `zMag`:
tan θ / (2π × 13.56 MHz × 0.75 pF × |Z|). -/
def tuneStepFx (theta : Int) (zMag n : Nat) : Int :=
  let x := theta * piFx / (1800 * (n : Int))
  -- 2π × 13.56e6 × 0.75e-12 = 2π × 1.017e-5 per Ω, × 0.1 Ω
  let den := 2 * piFx * 1017 * (zMag : Int) * cosFx x
  if den = 0 then 0 else sinFx x * (fx : Int) * 1000000000 * (fx : Int) * (n : Int) / den

/-- The number of steps n, −128 to 127, nearest to 100 × log10(num / den) (R177: ½ × 10 log10 in 0.05 dB). -/
def log100 (num den : Nat) : Int :=
  ((List.range 255).foldl (fun acc i => if tenTo 1011579454259898524 200 (2 * (i : Int) - 253) * den ≤ num * fx then acc + 1 else acc) (-127 : Int))

/-- arcsin(num / √(a b)) in 0.1°, within −128 to 127 (R177). -/
def arcsinTenths (num : Int) (a b : Nat) : Int :=
  let ge (i : Nat) : Bool :=
    -- whether num / √(ab) ≥ sin of (i − 126.5) tenths of a degree
    let s := sinMilli ((2 * (i : Int) - 253) * 50)
    if 0 ≤ num then decide (s < 0) || decide (s * s * ((a * b : Nat) : Int) ≤ num * num * ((fx * fx : Nat) : Int))
    else decide (s < 0) && decide (num * num * ((fx * fx : Nat) : Int) ≤ s * s * ((a * b : Nat) : Int))
  (List.range 255).foldl (fun acc i => if ge i then acc + 1 else acc) (-127 : Int)

/-- Integer square root, by halving an interval `fuel` times. -/
def isqrtIn (v : Nat) : Nat → Nat → Nat → Nat
  | 0, lo, _ => lo
  | n + 1, lo, hi => let mid := (lo + hi) / 2; if mid * mid ≤ v then isqrtIn v n mid hi else isqrtIn v n lo mid

def isqrt (v : Nat) : Nat := isqrtIn v 160 0 (v + 1)

end Sys2Proof.Machine
end

