-- ==== Sys2Proof/Machine/Crypto.lean ====
section
/-!
DEFINITION. Machine/Crypto.lean: the check codes and the block cipher the spec names: the CRCs of R513, R165, R200 and
R485, and AES-128 with CBC-MAC and CTR (R246, R247, R416, R417).
-/

namespace Sys2Proof.Machine

/-- The CRCs of the part. Codes 0–3 of R513, then CRC_A and CRC_B of ISO/IEC 14443-3 (R165). -/
inductive CrcKind where
  | crc8 | ccitt | crc32 | crc32c | crcA | crcB
  deriving DecidableEq, Repr

def CrcKind.ofCode (c : Nat) : CrcKind :=
  if c = 0 then .crc8 else if c = 1 then .ccitt else if c = 2 then .crc32 else .crc32c

def CrcKind.width : CrcKind → Nat
  | .crc8 => 8 | .ccitt => 16 | .crc32 => 32 | .crc32c => 32 | .crcA => 16 | .crcB => 16

/-- Polynomial; for a reflected CRC, its bits in reverse order (R513). -/
def CrcKind.poly : CrcKind → Nat
  | .crc8 => 0x2F | .ccitt => 0x1021 | .crc32 => 0xEDB88320 | .crc32c => 0x82F63B78 | .crcA => 0x8408 | .crcB => 0x8408

def CrcKind.init : CrcKind → Nat
  | .crc8 => 0xFF | .ccitt => 0xFFFF | .crc32 => 0xFFFFFFFF | .crc32c => 0xFFFFFFFF | .crcA => 0x6363 | .crcB => 0xFFFF

def CrcKind.reflected : CrcKind → Bool
  | .crc8 => false | .ccitt => false | _ => true

def CrcKind.xorOut : CrcKind → Nat
  | .crc32 => 0xFFFFFFFF | .crc32c => 0xFFFFFFFF | .crcB => 0xFFFF | _ => 0

/-- One bit of the CRC register. -/
def CrcKind.shift (k : CrcKind) (v : Nat) : Nat :=
  if k.reflected then (if v % 2 = 1 then (v / 2) ^^^ k.poly else v / 2)
  else if v / 2 ^ (k.width - 1) = 1 then ((v * 2) % 2 ^ k.width) ^^^ k.poly else (v * 2) % 2 ^ k.width

def CrcKind.shifts (k : CrcKind) : Nat → Nat → Nat
  | 0, v => v
  | n + 1, v => k.shifts n (k.shift v)

/-- The running value after one more byte (R514). -/
def CrcKind.byte (k : CrcKind) (v : Nat) (b : Byte) : Nat :=
  k.shifts 8 (if k.reflected then v ^^^ b.toNat else v ^^^ (b.toNat * 2 ^ (k.width - 8)))

/-- The running value after a run of bytes. -/
def CrcKind.run (k : CrcKind) (v : Nat) (bs : List Byte) : Nat := bs.foldl k.byte v

/-- The CRC of a run of bytes from the initial value, with the final XOR. -/
def CrcKind.of (k : CrcKind) (bs : List Byte) : Nat := k.run k.init bs ^^^ k.xorOut

/-- Rows of the AES S-box (FIPS 197). -/
def sboxA : List (List Nat) :=
  [[0x63, 0x7C, 0x77, 0x7B, 0xF2, 0x6B, 0x6F, 0xC5, 0x30, 0x01, 0x67, 0x2B, 0xFE, 0xD7, 0xAB, 0x76],
    [0xCA, 0x82, 0xC9, 0x7D, 0xFA, 0x59, 0x47, 0xF0, 0xAD, 0xD4, 0xA2, 0xAF, 0x9C, 0xA4, 0x72, 0xC0],
    [0xB7, 0xFD, 0x93, 0x26, 0x36, 0x3F, 0xF7, 0xCC, 0x34, 0xA5, 0xE5, 0xF1, 0x71, 0xD8, 0x31, 0x15],
    [0x04, 0xC7, 0x23, 0xC3, 0x18, 0x96, 0x05, 0x9A, 0x07, 0x12, 0x80, 0xE2, 0xEB, 0x27, 0xB2, 0x75],
    [0x09, 0x83, 0x2C, 0x1A, 0x1B, 0x6E, 0x5A, 0xA0, 0x52, 0x3B, 0xD6, 0xB3, 0x29, 0xE3, 0x2F, 0x84],
    [0x53, 0xD1, 0x00, 0xED, 0x20, 0xFC, 0xB1, 0x5B, 0x6A, 0xCB, 0xBE, 0x39, 0x4A, 0x4C, 0x58, 0xCF],
    [0xD0, 0xEF, 0xAA, 0xFB, 0x43, 0x4D, 0x33, 0x85, 0x45, 0xF9, 0x02, 0x7F, 0x50, 0x3C, 0x9F, 0xA8],
    [0x51, 0xA3, 0x40, 0x8F, 0x92, 0x9D, 0x38, 0xF5, 0xBC, 0xB6, 0xDA, 0x21, 0x10, 0xFF, 0xF3, 0xD2]]

def sboxB : List (List Nat) :=
  [[0xCD, 0x0C, 0x13, 0xEC, 0x5F, 0x97, 0x44, 0x17, 0xC4, 0xA7, 0x7E, 0x3D, 0x64, 0x5D, 0x19, 0x73],
    [0x60, 0x81, 0x4F, 0xDC, 0x22, 0x2A, 0x90, 0x88, 0x46, 0xEE, 0xB8, 0x14, 0xDE, 0x5E, 0x0B, 0xDB],
    [0xE0, 0x32, 0x3A, 0x0A, 0x49, 0x06, 0x24, 0x5C, 0xC2, 0xD3, 0xAC, 0x62, 0x91, 0x95, 0xE4, 0x79],
    [0xE7, 0xC8, 0x37, 0x6D, 0x8D, 0xD5, 0x4E, 0xA9, 0x6C, 0x56, 0xF4, 0xEA, 0x65, 0x7A, 0xAE, 0x08],
    [0xBA, 0x78, 0x25, 0x2E, 0x1C, 0xA6, 0xB4, 0xC6, 0xE8, 0xDD, 0x74, 0x1F, 0x4B, 0xBD, 0x8B, 0x8A],
    [0x70, 0x3E, 0xB5, 0x66, 0x48, 0x03, 0xF6, 0x0E, 0x61, 0x35, 0x57, 0xB9, 0x86, 0xC1, 0x1D, 0x9E],
    [0xE1, 0xF8, 0x98, 0x11, 0x69, 0xD9, 0x8E, 0x94, 0x9B, 0x1E, 0x87, 0xE9, 0xCE, 0x55, 0x28, 0xDF],
    [0x8C, 0xA1, 0x89, 0x0D, 0xBF, 0xE6, 0x42, 0x68, 0x41, 0x99, 0x2D, 0x0F, 0xB0, 0x54, 0xBB, 0x16]]

def aesSub (x : Nat) : Nat := (((sboxA ++ sboxB)[x / 16]?.getD [])[x % 16]?).getD 0

/-- Multiplication by 2 in GF(2^8). -/
def aesDouble (x : Nat) : Nat := if 128 ≤ x then (2 * x) ^^^ 0x11B else 2 * x

/-- The state after SubBytes and ShiftRows; byte r + 4c of the state is row r, column c. -/
def aesSubShift (s : List Nat) : List Nat :=
  [0, 5, 10, 15, 4, 9, 14, 3, 8, 13, 2, 7, 12, 1, 6, 11].map fun i => aesSub ((s[i]?).getD 0)

/-- MixColumns on one column after another. -/
def aesMix : List Nat → List Nat
  | a :: b :: c :: d :: rest =>
    (aesDouble a ^^^ (aesDouble b ^^^ b) ^^^ c ^^^ d) :: (a ^^^ aesDouble b ^^^ (aesDouble c ^^^ c) ^^^ d) ::
    (a ^^^ b ^^^ aesDouble c ^^^ (aesDouble d ^^^ d)) :: ((aesDouble a ^^^ a) ^^^ b ^^^ c ^^^ aesDouble d) :: aesMix rest
  | _ => []

def xorList (a b : List Nat) : List Nat := List.zipWith (· ^^^ ·) a b

/-- The next round key. -/
def aesNextKey (rcon : Nat) (k : List Nat) : List Nat :=
  let g := fun i => (k[i]?).getD 0
  let w0 := xorList (k.take 4) [aesSub (g 13) ^^^ rcon, aesSub (g 14), aesSub (g 15), aesSub (g 12)]
  let w1 := xorList (k.drop 4 |>.take 4) w0
  let w2 := xorList (k.drop 8 |>.take 4) w1
  w0 ++ w1 ++ w2 ++ xorList (k.drop 12) w2

/-- Rounds 1 to 10, given the round constants. -/
def aesRounds : List Nat → List Nat → List Nat → List Nat
  | [], _, s => s
  | [rc], k, s => xorList (aesSubShift s) (aesNextKey rc k)
  | rc :: rest, k, s => aesRounds rest (aesNextKey rc k) (xorList (aesMix (aesSubShift s)) (aesNextKey rc k))

/-- AES-128 of one block of 16 bytes (FIPS 197). -/
def aesBytes (key block : List Nat) : List Nat :=
  aesRounds [0x01, 0x02, 0x04, 0x08, 0x10, 0x20, 0x40, 0x80, 0x1B, 0x36] key (xorList block key)

/-- The 16 bytes of a 128-bit value, lowest address first (R6). -/
def blockBytes (v : BitVec 128) : List Byte := (List.range 16).map fun i => BitVec.ofNat 8 (v.toNat / 2 ^ (8 * i))

/-- AES-128 of a block, key given as its 16 octets in storage order. -/
def aes128 (key : BitVec 128) (block : List Byte) : List Byte :=
  (aesBytes ((blockBytes key).map (·.toNat)) (block.map (·.toNat))).map (BitVec.ofNat 8)

/-- The inverse of the S-box: the place of a value in it (FIPS 197). -/
def aesSubInv (y : Nat) : Nat := ((List.range 256).find? fun x => aesSub x == y).getD 0

/-- Multiplication in GF(2^8) by 9, 11, 13 and 14, from the doubles of a value. -/
def aesMul (n x : Nat) : Nat :=
  let x2 := aesDouble x
  let x4 := aesDouble x2
  let x8 := aesDouble x4
  (if n % 2 = 1 then x else 0) ^^^ (if n / 2 % 2 = 1 then x2 else 0) ^^^ (if n / 4 % 2 = 1 then x4 else 0) ^^^ (if n / 8 % 2 = 1 then x8 else 0)

/-- InvMixColumns on one column after another. -/
def aesMixInv : List Nat → List Nat
  | a :: b :: c :: d :: rest =>
    (aesMul 14 a ^^^ aesMul 11 b ^^^ aesMul 13 c ^^^ aesMul 9 d) :: (aesMul 9 a ^^^ aesMul 14 b ^^^ aesMul 11 c ^^^ aesMul 13 d) ::
    (aesMul 13 a ^^^ aesMul 9 b ^^^ aesMul 14 c ^^^ aesMul 11 d) :: (aesMul 11 a ^^^ aesMul 13 b ^^^ aesMul 9 c ^^^ aesMul 14 d) ::
    aesMixInv rest
  | _ => []

/-- The state before ShiftRows and SubBytes. -/
def aesSubShiftInv (s : List Nat) : List Nat :=
  [0, 13, 10, 7, 4, 1, 14, 11, 8, 5, 2, 15, 12, 9, 6, 3].map fun i => aesSubInv ((s[i]?).getD 0)

/-- The round keys, the cipher key first. -/
def aesKeys : List Nat → List Nat → List (List Nat)
  | [], k => [k]
  | rc :: rest, k => k :: aesKeys rest (aesNextKey rc k)

/-- Rounds back from the last, given the keys of rounds 10 to 0. -/
def aesBack : List (List Nat) → List Nat → List Nat
  | [], s => s
  | k10 :: rest, s => aesBack' rest (aesSubShiftInv (xorList s k10))
where
  /-- From round 9 on, InvMixColumns follows each key but that of round 0. -/
  aesBack' : List (List Nat) → List Nat → List Nat
    | [], s => s
    | [k0], s => xorList s k0
    | k :: rest, s => aesBack' rest (aesSubShiftInv (aesMixInv (xorList s k)))

/-- Decryption of one block by AES-128 (FIPS 197). -/
def aes128Inv (key : BitVec 128) (block : List Byte) : List Byte :=
  (aesBack (aesKeys [0x01, 0x02, 0x04, 0x08, 0x10, 0x20, 0x40, 0x80, 0x1B, 0x36] ((blockBytes key).map (·.toNat))).reverse
    (block.map (·.toNat))).map (BitVec.ofNat 8)

def xorBytes (a b : List Byte) : List Byte := List.zipWith (· ^^^ ·) a b

/-- A list of bytes in blocks of 16, the last one padded with zeros. -/
def blocks16 : Nat → List Byte → List (List Byte)
  | 0, _ => []
  | _, [] => []
  | n + 1, bs => (bs.take 16 ++ List.replicate (16 - bs.length) 0) :: blocks16 n (bs.drop 16)

/-- CBC-MAC over whole blocks, from a zero block. -/
def cbcMac (key : BitVec 128) (bs : List (List Byte)) : List Byte :=
  bs.foldl (fun acc b => aes128 key (xorBytes acc b)) (List.replicate 16 0)

end Sys2Proof.Machine
end

