-- ==== Sys2Proof/Config.lean ====
section
/-!
DEFINITION. Config.lean: what the spec leaves to the device, the firmware release or chance. Every constant here has no
body, so no proof can rest on its value.
-/

namespace Sys2Proof.Config

/-- A value the spec leaves open: the n-th random draw or undefined value. The step applies it to the model's own counter
`Main.freeCtr` and advances that counter. DESIGN CHOICE (log 1). -/
opaque free : Nat → BitVec 128

/-- [1000:02] silicon revision, CONST with no value given (R478). Log 5. -/
opaque dieRev : BitVec 8

/-- [1000:03] unique per device (R478). Log 5. -/
opaque uniqueId : BitVec 64

/-- [1000:04] grade: false IB, true XB (R3, R478). Log 5. -/
opaque gradeXB : Bool

/-- [1000:05] tag of the Colpol file of the release (R477). Log 5. -/
opaque colpolTag : BitVec 32

/-- [6000:09] STP target UID, unique per device (R385). Log 5. -/
opaque targetUid : BitVec 64

/-- Data byte `off` of settings record `rec` (0–11) when the persistent entries hold these values (key, value): the
layout is given in the Colpol file of the release (R363), which is not in the source. Log 6. -/
opaque settingsByte (rec off : Nat) (values : List (Nat × Nat)) : BitVec 8

end Sys2Proof.Config
end

