-- ==== Sys2Proof/Machine/State.lean ====
section
/-!
DEFINITION. Machine/State.lean: the state of the DX8128 as plain data, unit by unit, the faults and refusals of the
machine, and the state after reset. A dictionary entry whose value is a unit's own state is held with that unit; an
entry with no behaviour of its own is held in `Main.cfg` (Machine/Entries.lean has its default).
-/

namespace Sys2Proof.Machine

/-- Why a run of the machine could stop. No meaning of the table raises one on a well-formed command. -/
inductive Fault where
  /-- A command whose operands are outside what its row can carry (WellFormed.lean). Raised by nothing in `exec`;
  kept so that a caller can name the case. Safe. -/
  | illFormed
  deriving DecidableEq, Repr

/-- Why a command has no meaning. -/
inductive Refusal where
  /-- A row that has no meaning yet (Dispatch.lean alone raises it). Safe. -/
  | notModelled (mnemonic : String)
  deriving DecidableEq, Repr

/-- The eight modes (R31), in the order of their codes. -/
inductive Mode where
  | dormant | watch | survey | transact | calibrate | emulate | rescue | hold
  deriving DecidableEq, Repr

/-- Modes, supplies, clocks, boot (chapters 01 and 02). `strength` is the field at the target port in 0.1 A/m, `tj` in 0.1 °C;
`bootFailures` are the failures to be journalled once the firmware runs (R60), `loaded` the bytes of an image that the SPI loader has taken
out of Q28 (R57). -/
structure Power where
  mode       : Mode := .dormant
  pendMode   : Option Mode := none
  pendTrig   : Nat := 0
  lastReq    : Nat := 0
  returnMode : Mode := .transact
  transitions : Nat := 0
  modeRefused : Nat := 0
  governorHolds : Nat := 0
  bootStage  : Nat := 1
  booting    : Bool := false
  bootTarget : Mode := .transact
  bootTrig   : Nat := 0
  bootKind   : Nat := 0
  bootFromWatch : Bool := false
  bootAt     : Nat := 0
  bootTime   : Nat := 0
  bootFailures : List Nat := []
  loaded     : Nat := 0
  refOk      : Bool := false
  img        : Option ImageReport := none
  fwVersion  : Nat := 0
  keySlot    : Nat := 0
  fwRunning  : Bool := false
  fwStartAt  : Nat := 0
  ctlOn      : Bool := false
  rdy        : Bool := false
  aoUp       : Bool := true
  mainPresent : Bool := true
  vaoOk      : Bool := true
  onHarvest  : Bool := false
  vtxLow     : Bool := false
  vtxHold    : Bool := false
  vrfLow     : Bool := false
  follower   : Bool := false
  vddio33    : Bool := false
  rstHeld    : Bool := false
  badWindows : Nat := 0
  onBackup   : Bool := false
  sleepClock : Nat := 1
  sleepLost  : Bool := false
  wakeCause  : Nat := 0
  wakeNArmed : Bool := true
  canArmed   : Bool := false
  tj         : Int := 250
  derating   : Bool := false
  thermalAt  : Option Nat := none
  holdCause  : Nat := 0
  fieldOn    : Bool := false
  strength   : Nat := 0
  ctlDown    : Bool := false
  ctlCause   : Nat := 0
  ctlState   : Nat := 0
  aoSecBase  : Nat := 0
  aoSecAt    : Nat := 0
  deriving DecidableEq, Repr

/-- The always-on phase counter (R81): 1 LOCKED, its extended phase at a time, its measured period, the last edges seen in FREE. -/
structure AoPhase where
  st     : Nat := 0
  ext    : Nat := 0
  at_    : Nat := 0
  period : Nat := 8000000
  acq    : List Nat := []
  deriving DecidableEq, Repr

/-- Phase unit generator, encoder and always-on phase counter (chapter 03). Times are in SCLK periods; `frac` is the fraction of the
accumulator in 2⁻³² units, `encBins` the counts of the last milliseconds, newest first, by the number of the millisecond. -/
structure Phase where
  st        : Nat := 0
  base      : Nat := 0
  frac      : Nat := 0
  at_       : Nat := 0
  hold      : Nat := 0
  period    : Nat := 8000000
  slewE     : Int := 0
  slewEnd   : Nat := 0
  cycle     : Nat := 0
  intervals : List Nat := []
  acq       : List Nat := []
  lastEdge  : Option Nat := none
  spanned   : Nat := 0
  missed    : Nat := 0
  accepted  : Bool := false
  filt      : Option (Bool × Nat) := none
  level     : Bool := false
  rejects   : Nat := 0
  noisyAt   : Option Nat := none
  pendPeriod : Option Nat := none
  encCount  : Nat := 0
  encA      : Bool := false
  encB      : Bool := false
  encDir    : Nat := 2
  encFirst  : Bool := true
  encPassed : Bool := false
  encRevs   : Nat := 0
  encLostJ  : Bool := false
  encBins   : List (Nat × Nat) := []
  ao        : AoPhase := {}
  deriving DecidableEq, Repr

/-- A window of a slot plan, the four words of R82. -/
structure Window where
  w0 : Word := 0
  w1 : Word := 0x0000FFFF
  w2 : Word := 0x00FFFFFF
  w3 : Word := 0
  deriving DecidableEq, Repr

/-- Window 0 after every boot (R87): the whole cycle, every core, port and class. -/
def Window.whole : Window := { w0 := 0, w1 := 0x0000FFFF, w2 := 0x00FFFFFF, w3 := 0x1F }

/-- The slot plan banks (R82, R87, R88). -/
structure Plan where
  bank0   : Vector Window 64 := (Vector.replicate 64 {}).set 0 Window.whole
  bank1   : Vector Window 64 := (Vector.replicate 64 {}).set 0 Window.whole
  active  : Fin 2 := 0
  pending : Option Nat := none
  switches : Nat := 0
  opened  : Vector Bool 64 := (Vector.replicate 64 false).set 0 true
  deriving DecidableEq, Repr

/-- A grant of the field scheduler, or the field it became (R109, R117, R126). `idle`: held by an open ISO/IEC 14443-4
session with no stitch running (R259). The figures of each pair with a field of F and the thresholds [2300:04] and [2300:0B] are those in
force at the grant (R125, R141): `snap` lists, by the other field's global port, the figures from that field and to it; `coef` is the own-carrier coefficient at the switch close (R181). -/
structure FieldRec where
  owner  : Owner
  port   : Fin 128
  level  : Nat
  code   : Nat := 0
  sub8   : Bool := false
  proto  : Proto := .stp
  cls    : Nat := 2
  closed : Bool := false
  since  : Nat := 0
  at95   : Bool := false
  idle   : Bool := false
  snap   : List (Nat × Option NbrEntry × Option NbrEntry) := []
  holdAt : Int := -400
  staleAt : Nat := 30
  coef   : Int × Int := (16384, 0)
  deriving DecidableEq, Repr

/-- The settings of an exchange, in force from the start of its forward frame (R108, R153–R155, R171, R221): modulation; OPEN, CLOSE and the
protocol's reply window in 1/fc; gain mode and maximum, collision ratio and spread, detection margin, overload run, blanking, strict timing;
and `detect2`, the square of the detection level found at the start of the reply. -/
structure Exchange where
  mod     : Modulation := {}
  openAt  : Nat := 0
  closeAt : Nat := 0
  first   : Nat := 0
  last    : Nat := 0
  gainMode : Nat := 0
  gainMax : Nat := 6
  ratio   : Nat := 25
  spread  : Nat := 30
  margin  : Nat := 10
  run     : Nat := 4
  blank   : Nat := 32
  strict  : Bool := false
  detect2 : Nat := 0
  deriving DecidableEq, Repr

/-- From where the next forward frame's bounds count (R157, R203, R208, R210): the field at 95 %, the end of a reply, the end of a frame
that draws no reply, or CLOSE. -/
inductive GapFrom where
  | field | reply | frame | close
  deriving DecidableEq, Repr

/-- Where a core stands in a frame exchange (R133, R153). -/
inductive Exch where
  | gap | sending | listening | receiving
  deriving DecidableEq, Repr

/-- A field core and its receiver (chapters 04 and 06). `drivePhase` is the code in force, `applied` the code with the core's phase
correction, as loaded at the switch close (R109, R110). `next` is the frame that the engine has handed over (`noFit`: it does not fit the
window), `frame` the one of the present or last exchange with its settings `ex`; `since` is the time from the end of the fob's last reply to
the moment from which the next frame's bounds count (R208); `chain`: inside an ARM and its COMMITs (R243). `carI` and `carQ` are the
predicted carrier c × (1 + S) of the DAC load in force, in 1/16 384 (R144, R147). `trims` are the receive DC and I/Q trims in force (R181),
`brnLog` the intervals of burnish fields over the last second (R186). -/
structure Core where
  state      : Nat := 0
  disablePend : Bool := false
  holdoffDone : Bool := false
  portNow    : Option (Fin 128) := none
  drivePhase : Nat := 0
  applied    : Nat := 0
  phaseCal   : Int := 0
  levelNow   : Nat := 0
  faultCause : Nat := 0
  faults     : Nat := 0
  fieldTicks : Nat := 0
  fld        : Option FieldRec := none
  pendOff    : Bool := false
  pendChange : Option Nat := none
  changeHeld : Bool := false
  changeHold : Bool := false
  gapHold    : Bool := false
  exch       : Exch := .gap
  chain      : Bool := false
  next       : Option TxFrame := none
  noFit      : Bool := false
  frame      : Option TxFrame := none
  ex         : Exchange := {}
  gapFrom    : GapFrom := .field
  since      : Nat := 0
  bufHeld    : Bool := false
  timing     : Bool := false
  blind      : Bool := false
  w0         : Word := 0xFFF00000
  w1         : Word := 0xFF000000
  rxBuf      : List Byte := []
  txBuf      : List Byte := []
  lastSuppr  : Nat := 0xFF
  lastRssi   : Int := 0
  lastGain   : Nat := 0
  lastDelay  : Nat := 0
  dacI       : Int := 0
  dacQ       : Int := 0
  carI       : Int := 0
  carQ       : Int := 0
  dacPend    : Option (Int × Int × Int × Int) := none
  parityAt   : List Nat := []
  portFaultAt : List (Fin 128 × Nat) := []
  dcI        : Int := 0
  dcQ        : Int := 0
  iqGain     : Int := 0
  iqPhase    : Int := 0
  trims      : Int × Int × Int × Int := (0, 0, 0, 0)
  brnLog     : List (Nat × Nat) := []
  octants    : List Nat := [0, 0, 0, 0, 0, 0, 0, 0]
  sumII      : Nat := 0
  sumQQ      : Nat := 0
  sumIQ      : Int := 0
  deriving DecidableEq, Repr

/-- An open ISO/IEC 14443-4 session of a port (R255, R258, R259): the rates of the two directions, the SFGT still to wait in 1/fc, and
whether S(DESELECT) has been handed over to close it. -/
structure Session where
  proto   : Proto
  core    : Fin 16
  fsc     : Nat := 32
  fwi     : Nat := 4
  fwd     : Nat := 0
  ret     : Nat := 0
  sfgt    : Nat := 0
  blockNo : Bool := false
  closing : Bool := false
  uid     : List Byte := []
  deriving DecidableEq, Repr

/-- An antenna port: its network, burnish results, link caches and survey record (chapters 04 to 12). `array` is the code its tuning
array holds and `shorted` its park switch (R98, R99); `openLim`, `shortLim`, `retestEvery` and `parkShort` are the settings its last switch
close put in force (R120), `retestVia` the core through which its retest is owed (R114). -/
structure Port where
  state      : Nat := 0
  faulted    : Nat := 0
  disablePend : Bool := false
  retestDue  : Bool := false
  retestVia  : Option (Fin 16) := none
  array      : Nat := 32
  shorted    : Bool := true
  openLim    : Nat := 1000
  shortLim   : Nat := 12
  retestEvery : Nat := 60
  parkShort  : Bool := true
  tuneHome   : Nat := 32
  tuneAlt    : Nat := 32
  zMag       : Nat := 0
  zArg       : Int := 0
  faults     : Nat := 0
  nbr        : List NbrEntry := []
  nbrWritten : Bool := false
  cHome      : Int × Int := (16384, 0)
  cAlt       : Int × Int := (16384, 0)
  checksHome : List (Int × Nat) := []
  checksAlt  : List (Int × Nat) := []
  checks     : List Int := []
  supprs     : List Nat := []
  eyes       : List (Nat × Nat × Nat) := []
  residHome  : Nat × Int × Int := (0, 0, 0)
  residAlt   : Nat × Int × Int := (0, 0, 0)
  fast       : Nat := 0
  sLeak      : Nat := 0
  sEye       : Nat := 0
  sTune      : Nat := 0
  flags      : BitVec 8 := 0x47
  restored   : Bool := false
  tuneErr    : Int := 0
  linkCache  : BitVec 16 := 0
  isoCache   : BitVec 16 := 0
  session    : Option Session := none
  noneWait   : Bool := false
  lastUid    : Nat := 0
  svStatus   : Nat := 0
  svFobs     : Nat := 0
  svMisses   : Nat := 0
  seekSeen   : Bool := false
  baseMag    : Nat := 0
  baseArg    : Int := 0
  deriving DecidableEq, Repr

/-- A request held by the field scheduler (R126, R267). `stale` are the other ports of the pairs that a burnish request remeasures (R187). -/
structure Req where
  owner  : Owner
  port   : Fin 128
  cls    : Nat
  proto  : Proto := .stp
  made   : Nat
  pinned : Option (Fin 16) := none
  paused : Bool := false
  stale  : List Nat := []
  counted : List Nat := []
  reserved : Bool := false
  waitBin : Bool := false
  deriving DecidableEq, Repr

/-- Field scheduler and governor (chapters 04 and 05). Energy is in nW·SCLK periods per bin, newest bin
first; `binAt` is the time up to which it has been added. -/
structure Sched where
  reqs  : List Req := []
  state : Nat := 0
  bins  : List Nat := []
  binAt : Nat := 0
  deriving DecidableEq, Repr

/-- Results kept in a QSPI flash sector (R189); with each port's neighbour entries, whether burnish had written them (R125). -/
structure FlashRec where
  tunes  : List (Nat × Nat)
  coefs  : List ((Int × Int) × (Int × Int))
  nbrs   : List (Bool × List NbrEntry)
  trims  : List (Int × Int × Int × Int × Int)
  radio  : Int × Int × Int
  devId  : Nat
  sector : Nat := 0x700000
  crc    : Nat := 0
  deriving DecidableEq, Repr

/-- Burnish (chapter 07). `own` and `tuneTask` are the ports that owe a remeasurement (R186, R191), `coup` each port's coupled neighbours
as step 4 of the present full burnish found them, `iters` its tuning iterations (R183); `flash` are the result records by sector. -/
structure Burnish where
  full     : Nat := 0
  step     : Nat := 0
  startAt  : Nat := 0
  duration : Nat := 0
  restored : Bool := false
  waiting  : List BurnResult := []
  stepDone : Bool := false
  own      : List (Fin 128) := []
  tuneTask : List (Fin 128) := []
  rfTrim   : Int := 0
  rfResid  : Int := 0
  rfDcI    : Int := 0
  rfDcQ    : Int := 0
  flash    : List FlashRec := []
  iters    : List (Fin 128 × Bool) := []
  coup     : List (Fin 128 × List Nat) := []
  deriving DecidableEq, Repr

/-- A descriptor dealt to a deque or held by a context: its eight words, its payload, the job queue it came from, the
tick at which its packet closed, the payload cells detached, and the device it came from (R269, R279, R293). -/
structure Job where
  w0 : Word
  w1 : Word := 0
  w2 : Word := 0
  w3 : Word := 0
  w4 : Word := 0
  w5 : Word := 0
  w6 : Word := 0
  w7 : Word := 0
  payload  : List Word := []
  queue    : Fin 32 := 24
  closedAt : Nat := 0
  cells    : Nat := 0
  origin   : Fin 4 := 0
  bad      : Bool := false
  deriving DecidableEq, Repr

/-- States of a context (R267), in the order of the codes of [3000+n:06]. -/
inductive CtxState where
  | idle | wait | run | pause | result
  deriving DecidableEq, Repr

/-- What a started stitch or a survey visit has completed so far (R277, R290): the fob acquired, its handle and link, the words read, the
writes done, the fobs selected with the handles they drew, and the SEEK round it is in: `inRound` with the collisions of the round so far
(R233), `seeked` that SEEK rounds follow a SINGLE (R301). `fwd` is the forward rate in force, `fwdNext` the one that the fob's `LINKCAPS`
allow from the next command on (R217). -/
structure Progress where
  acquired : Bool := false
  uid      : Nat := 0
  caps     : Nat := 0
  rssi     : Nat := 0
  margin   : Nat := 0xFF
  bind     : Nat := 0
  notQuiet : Bool := false
  handle   : Nat := 0xFFFF
  handles  : List (Nat × Nat) := []
  fwd      : Nat := 0
  fwdNext  : Nat := 0
  inRound  : Bool := false
  coll     : Nat := 0
  seeked   : Bool := false
  released : Bool := false
  badEnd   : Bool := false
  recs     : List Word := []
  writes   : List Word := []
  fobs     : List (List Word) := []
  rate     : Nat := 0
  crcRun   : Nat := 0
  lastRssi : Nat := 0
  round    : Nat := 0
  seekQ    : Nat := 0
  deriving DecidableEq, Repr

/-- What a run of exchanges has met, in order: an exchange's end, a number that it drew or read from the device, a window that closed over
a frame it could leave out, a frame not sent. -/
inductive AirEv where
  | reply (r : Reply)
  | num (v : Nat)
  | closed
  | lost
  deriving DecidableEq, Repr

/-- Where a stitch or a visit stands in its exchanges: what it had completed when the present run began and has by now, what the run has met
since, the settings of its start (none: not started; R249, R264, R322), the subcarrier and level of its field, whether the run has begun on
the field, the frame it waits for, and an exchange's end not yet read from the buffer (R167). -/
structure Script where
  base  : Progress := {}
  prog  : Progress := {}
  log   : List AirEv := []
  cfg   : Option (List (Nat × Nat)) := none
  sub8  : Bool := false
  level : Nat := 0
  live  : Bool := false
  want  : Option TxFrame := none
  inbox : Option Reply := none
  deriving DecidableEq, Repr

/-- A run of exchanges begins anew with what is completed: every fob has dropped its handle and is on its default link (R213, R281, R290). -/
def Script.restart (s : Script) : Script :=
  { s with base := { s.prog with rate := 0, crcRun := 0 }, log := [], live := false, want := none, inbox := none }

/-- A context of an engine (R266, R267), with its claim record (R286). `lost`: a frame was not sent, `told`: the stitch is told of it;
`limit`: its run limit has passed (R267, R260); `lastAt` is the end of its last exchange (R274). -/
structure Ctx where
  st      : CtxState := .idle
  job     : Option Job := none
  core    : Option (Fin 16) := none
  startAt : Nat := 0
  started : Bool := false
  lost    : Bool := false
  told    : Bool := false
  limit   : Bool := false
  lastAt  : Nat := 0
  sc      : Script := {}
  out     : List Word := []
  outPkt  : Nat := 0
  stalled : Bool := false
  deriving DecidableEq, Repr

/-- A stitch engine (chapter 11). -/
structure Engine where
  state    : Nat := 0
  cause    : Nat := 0
  faults   : Nat := 0
  holdoffDone : Bool := false
  ctx0     : Ctx := {}
  ctx1     : Ctx := {}
  deque    : List Job := []
  done     : Nat := 0
  stole    : Nat := 0
  robbed   : Nat := 0
  deriving DecidableEq, Repr

/-- A result that the dispatcher writes itself and that waits for space (R338): its packet (0: not open yet), and the
payload cells of its job queue to be freed at the close (R337). -/
structure DispOut where
  q     : Fin 32
  words : List Word
  pkt   : Nat
  jobQ  : Fin 32
  cells : Nat
  deriving DecidableEq, Repr

/-- The dispatcher (R279, R288). -/
structure Disp where
  rr      : Nat := 0
  jobRr   : Nat := 0
  stalled : List DispOut := []
  deriving DecidableEq, Repr

/-- A survey lane in a pass (R299–R308), with the exchanges of its visit; `lost` and `told` as in a context. -/
structure Lane where
  todo    : List (Fin 128) := []
  sc      : Script := {}
  ended   : Option (Fin 128 × Nat) := none
  lost    : Bool := false
  told    : Bool := false
  stalled : Bool := false
  waiting : List (List Word) := []
  outPkt  : Nat := 0
  deriving DecidableEq, Repr

/-- The survey sequencer (chapter 12). `cfg` are the settings of the present pass (R322), `recOut` is a pass record that waits for space in Q8: its packet and the words left. -/
structure Survey where
  running  : Bool := false
  due      : Bool := false
  cfg      : List (Nat × Nat) := []
  stopped  : Bool := false
  count    : Nat := 0
  lastUs   : Nat := 0
  sinceEntry : Nat := 0
  lanes    : Vector Lane 16 := Vector.replicate 16 {}
  visited  : List (Fin 128) := []
  withFob  : Nat := 0
  events   : Nat := 0
  sawFree  : Bool := false
  sawStall : Bool := false
  firstAt  : Option Nat := none
  offAt    : Nat := 0
  recOut   : Option (Nat × List Word) := none
  deriving DecidableEq, Repr

/-- A port latched in the watch island (R318, R319): Δm in 0.25 dB, Δφ in 0.5°, or the port state that a probe fault gives. -/
structure Latched where
  port  : Fin 128
  fault : Bool
  dMag  : Int := 0
  dPhase : Int := 0
  st    : Nat := 0
  deriving DecidableEq, Repr

/-- A port as the watch sequencer sees it: |Z| in 0.1 Ω and arg Z in 0.1°, both × 65 536, of its baseline (while it settles, their
sums), the probe of the sweep and those of its repeats, and whether it exceeds so far (R314–R317). -/
structure WatchPort where
  port   : Fin 128
  settled : Nat := 0
  baseMag : Nat := 0
  baseArg : Int := 0
  probe  : Option (Nat × Int) := none
  conf   : List (Nat × Int) := []
  exceeds : Bool := false
  dead   : Bool := false
  deriving DecidableEq, Repr

/-- The watch sequencer (chapter 12). -/
structure Watch where
  active   : Bool := false
  entered  : Nat := 0
  sweeping : Bool := false
  sweeps   : Nat := 0
  ports    : List WatchPort := []
  latched  : List Latched := []
  noVtx    : Bool := false
  late     : Bool := false
  woke     : Bool := false
  firstTick : Nat := 0
  repeats  : Nat := 0
  splits   : List Bool := []
  planCopy : List Window := []
  tuneCopy : List (Nat × Nat) := []
  recOut   : Option (Nat × List Word) := none
  deriving DecidableEq, Repr

/-- A packet of a queue (R325, R326). `id` is the model's own name of a packet, so
that its producer finds it again; `rd` counts the words consumed, the length word included; `poison` the words (0 the length word) with their cells
that a double-bit error has struck (R346, R347), `worn` the cells it holds that are retired and still read well (R348). -/
structure Packet where
  id     : Nat := 0
  opened : Bool := false
  type   : Nat
  source : Nat
  words  : List Word := []
  reserve : Nat := 0
  rd     : Nat := 0
  poison : List (Nat × Nat) := []
  worn   : List Nat := []
  closedAt : Nat := 0
  origin : Option (Fin 4) := none
  deriving DecidableEq, Repr

/-- A queue of the pool (chapter 13). `sinks` are the open packets that a flush has put into the sink state;
`keepMark` is 1 after a READ_Q with `KEEP`, 2 once a flush has followed it (R489). -/
structure Queue where
  pkts      : List Packet := []
  sinks     : List Packet := []
  detached  : Nat := 0
  cmin      : Nat := 0
  cmax      : Nat := 2048
  consumer  : Nat := 0
  highWater : Nat := 0
  drops     : Nat := 0
  stalls    : Nat := 0
  sunk      : Nat := 0
  lastTrunc : List Byte := [0, 0, 0, 0, 0]
  keepMark : Nat := 0
  deriving DecidableEq, Repr

/-- Default consumers and quotas of the queues (R350). -/
def Queue.default (q : Nat) : Queue :=
  if q < 8 then { cmin := 128, cmax := 2048 }
  else if q = 8 then { cmin := 256, cmax := 2048 }
  else if q = 9 then { cmin := 32, cmax := 256 }
  else if q < 12 then { cmin := 64, cmax := 512 }
  else if q < 16 then { cmin := 128, cmax := 2048 }
  else if q < 18 then { cmin := 64, cmax := 1024, consumer := 4 }
  else if q = 18 then { cmin := 64, cmax := 1024, consumer := 2 }
  else if q = 19 then { cmin := 64, cmax := 1024 }
  else if q = 20 then { cmin := 128, cmax := 1024, consumer := 2 }
  else if q = 21 then { cmin := 64, cmax := 512, consumer := 3 }
  else if q = 22 then { cmin := 512, cmax := 2048 }
  else if q = 23 then { cmin := 256, cmax := 2048, consumer := 5 }
  else if q < 28 then { cmin := 128, cmax := 4096, consumer := 1 }
  else { cmin := 0, cmax := 2048 }

/-- The cell pool (chapter 13). -/
structure Pool where
  qs       : Vector Queue 32 := Vector.ofFn fun i => Queue.default i.val
  retired  : List Nat := []
  singles  : List (Nat × Nat) := []
  scrubs   : Nat := 0
  state    : Nat := 0
  faulted  : Bool := false
  sweepDue : Bool := false
  orphans  : Nat := 0
  returning : Nat := 0
  nextId   : Nat := 1
  deriving DecidableEq, Repr

/-- The target ISO/IEC 14443-A card (R376–R380). `st`: 0 IDLE, 1 READY, 2 ACTIVE, 3 HALT, 4 READY*, 5 ACTIVE*, 6 protocol
activated, 7 protocol past its first block. `chain` is what is still to be sent of a chained answer, `lastResp` the last block. -/
structure IsoTarget where
  st       : Nat := 0
  uid      : BitVec 32 := 0x08
  blockNo  : Bool := false
  rateRx   : Nat := 0
  rateTx   : Nat := 0
  fsd      : Nat := 256
  selected : Bool := false
  chain    : List Byte := []
  lastResp : List Byte := []
  deriving DecidableEq, Repr

/-- The STP target (R229–R241, R381, R382). `tagState`: 0 READY, 1 ARBITRATE, 2 REPLY, 3 BOUND, 4 OPEN, 5 QUIET. `bound` and `quiet` are
the retention cell, `lostAt` the time at which its field failed (R212), `heardAt` the end of the last frame, `reply` the start and end of
the reply to it (R207). -/
structure StpTarget where
  bound    : Option (Nat × Int) := none
  quiet    : Bool := false
  lostAt   : Option Nat := none
  tagState : Nat := 0
  handle   : Option (BitVec 16) := none
  former   : Option (BitVec 16) := none
  seen     : Bool := false
  counter  : Nat := 0
  rate     : Nat := 0
  sub8     : Bool := false
  shadow   : Option (Nat × List Byte × BitVec 16) := none
  lastTok  : Option (BitVec 16) := none
  lastGen  : Nat := 0
  heardAt  : Nat := 0
  reply    : Option (Nat × Nat) := none
  deriving DecidableEq, Repr

/-- Authentication at the target, of either protocol (R245, R380): the pending challenge and the keys opened. -/
structure TgtAuth where
  pending : Option (Nat × List Byte × List Byte) := none
  key0    : Bool := false
  key1    : Bool := false
  lockout : Bool := false
  deriving DecidableEq, Repr

/-- Which protocol the target session speaks (R355). -/
inductive TgtSession where
  | none | iso | stp
  deriving DecidableEq, Repr

/-- The target front end (chapter 14). `resp` is the last response sent to the reader. -/
structure Target where
  session : TgtSession := .none
  iso     : IsoTarget := {}
  stp     : StpTarget := {}
  auth    : TgtAuth := {}
  resp    : List Byte := []
  releaseWait : Bool := false
  releaseLow  : Bool := false
  vHarv   : Nat := 0
  i2cOut  : List Byte := []
  deriving DecidableEq, Repr

/-- A settings bank (R361, R363): its marker is valid when `valid`. `persist` holds records 0–11 (the persistent
dictionary entries), `host` the data of records 12–15. -/
structure Bank where
  valid   : Bool := false
  seq     : Nat := 0
  persist : List (Nat × Nat) := []
  host    : List (List Byte) := [List.replicate 20 0, List.replicate 20 0, List.replicate 20 0, List.replicate 20 0]
  deriving DecidableEq, Repr

/-- A selector copy (R363). -/
structure Selector where
  valid : Bool := false
  bankB : Bool := false
  seq   : Nat := 0
  deriving DecidableEq, Repr

/-- A slot of the audit ring (R362, R364). A record holds bytes 4–61 (58 bytes) under its `SEQ`; its CRC matches. -/
inductive Slot where
  | empty
  | torn
  | record (seq : Nat) (body : List Byte)
  deriving DecidableEq, Repr

/-- Who waits for the ledger (R366). -/
inductive LPort where
  | field | i2c | main
  deriving DecidableEq, Repr

/-- An access the arbiter holds: an audit append (bytes 4–61 to be written), a settings write of host record 12–15, or a wired read of a
slot, a record or the status, by the code of R383. -/
inductive LOp where
  | append (body : List Byte)
  | setting (rec : Nat) (data : List Byte)
  | read (code arg : Nat)
  deriving DecidableEq, Repr

/-- A ledger write between its request and its completion (R373): where the response goes is told by `port` and
`reply` (0 none, 1 APDU append, 2 APDU update, 3 STP COMMIT, 4 wired, 5 release record, 6 authentication record). -/
structure LAccess where
  port  : LPort
  op    : LOp
  reply : Nat
  started : Bool := false
  deriving DecidableEq, Repr

/-- The ledger, its controller and arbiter (chapter 14). It survives every reset and the loss of every supply. -/
structure Ledger where
  bankA   : Bank := { valid := true, seq := 1 }
  bankB   : Bank := {}
  sel0    : Selector := { valid := true, bankB := false, seq := 1 }
  sel1    : Selector := {}
  head0   : Nat := 0
  head1   : Nat := 0
  current : Bool := false
  noBank  : Bool := false
  ring    : Vector Slot 240 := Vector.replicate 240 .empty
  head    : Nat := 0
  key0    : Option (BitVec 128) := none
  key1    : Option (BitVec 128) := none
  waiting : List LAccess := []
  running : Option LAccess := none
  torn    : Nat := 0
  rolled  : Bool := false
  leaseBy : Option Wired := none
  leaseEnd : Nat := 0
  deriving DecidableEq, Repr

/-- The key store (R421): fob key slots, partner keys and the counter blocks reserved. -/
structure KeyStore where
  fobKeys  : Vector (Option (BitVec 128)) 8 := Vector.replicate 8 none
  partner  : Vector (Option (BitVec 128)) 256 := Vector.replicate 256 none
  reserved : Vector Nat 256 := Vector.replicate 256 0
  deriving DecidableEq, Repr

/-- A demodulator (R402): state 0 FREE, 1 PREAMBLE, 2 HEADER, 3 PAYLOAD; `bits` are the data bits decoded so far. -/
structure Demod where
  st      : Nat := 0
  channel : Nat := 0
  order   : Nat := 0
  track   : Nat := 0
  gain    : Nat := 0
  level   : Int := 0
  rssi    : Int := 0
  cfo     : Int := 0
  rotator : Int := 0
  length  : Nat := 0
  precomp : Bool := false
  space   : Option (Fin 32 × Nat) := none
  syncAt  : Nat := 0
  dropped : Bool := false
  bits    : List Bool := []
  deriving DecidableEq, Repr

/-- The qualifier of a channel and order (R399): 0 CLOSED, 1 HUNT, 2 QUALIFY. -/
structure Qualifier where
  ch    : Nat
  order : Nat
  count : Nat
  track : Nat
  deriving DecidableEq, Repr

/-- A frame in the transmit hold (R439). `dict` marks a routed or answering DICT frame (R467, R470). -/
structure Held where
  slot   : Fin 256
  ackReq : Bool
  now    : Bool
  htag   : Nat
  body   : List Byte
  made   : Nat
  expiry : Nat := 0
  dict   : Bool := false
  copies : Nat := 0
  lastCtr : Nat := 0
  deferred : Bool := false
  again  : Bool := false
  kAtt   : Nat := 3
  busy   : Nat := 0
  deriving DecidableEq, Repr

/-- What the transmitter is doing (R411, R422, R433). `access` is the transmission whose channel was found clear, `backoff` the milliseconds
drawn; `kAtt` and `busy` are those of a call or a check-in, `frames` how many frames a train has, `symbols` the shifts of the frame's sync and
data symbols (R392). -/
structure Tx where
  active  : Bool := false
  kind    : TxKind := .ack
  txen    : Bool := false
  frame   : List Byte := []
  symbols : List Nat := []
  hz      : Int := 0
  power   : Int := 0
  precomp : Bool := false
  ctr     : Nat := 0
  startAt : Nat := 0
  frames  : Nat := 1
  access  : Option TxKind := none
  backoff : Option Nat := none
  kAtt    : Nat := 3
  busy    : Nat := 0
  deriving DecidableEq, Repr

/-- An ACK that is due (R433): partner, channel, order, body. -/
structure AckOut where
  slot  : Fin 256
  ch    : Nat
  order : Nat
  body  : List Byte
  deriving DecidableEq, Repr

/-- The chirp radio, PHY and access (chapters 15 and 16). `offsets` are the last frames' partners and carrier offsets (R175). -/
structure Radio where
  chans   : Vector (Word × Word) 64 := Vector.replicate 64 (0, 0x1FC)
  profile : Nat := 0
  fLow    : Nat := 780000000
  fHigh   : Nat := 1020000000
  txMax   : Int := 27
  hopMin  : Nat := 1
  dwell   : Nat := 0
  fLO     : Nat := 780000000
  feA     : Nat := 0
  feB     : Nat := 0
  feAtA   : Option Nat := none
  feAtB   : Option Nat := none
  gates   : List Nat := []
  quals   : List Qualifier := []
  demods  : Vector Demod 8 := Vector.replicate 8 {}
  unit    : Nat := 0
  tx      : Tx := {}
  hold    : List Held := []
  ackDue  : Option AckOut := none
  ackWait : Option (TxKind × Nat) := none
  callDue : List (Fin 256) := []
  subbands : List (Nat × Nat × Nat) := [(780000000, 1020000000, 10000)]
  charges : List (Nat × Nat × Nat) := []
  guard   : List (Fin 256) := []
  satLost : Bool := false
  satMissed : Nat := 0
  satAwake : Bool := false
  satWake : Bool := false
  satDue  : Bool := false
  satCopies : Nat := 0
  listenUntil : Nat := 0
  kept    : List (Fin 32 × Nat × List Word) := []
  keptDict : List (Fin 256 × List Byte) := []
  offsets : List (Nat × Int) := []
  deriving DecidableEq, Repr

/-- A radio partner (R443) and its schedule (R426–R437). State 0 EMPTY, 1 ACTIVE, 2 LOST, 3 CALLING. Margins in `up` and `down` are in 0.01 dB;
`contactAt` and `awakeAt` are the times of the last contact and of the last frame in it. -/
structure Partner where
  state   : Nat := 0
  address : Nat := 0
  interval : Nat := 3600
  channel : Nat := 0
  wideCh  : Nat := 0xFF
  txPower : Int := 14
  drift   : Nat := 40
  rxQueue : Fin 32 := 12
  misses  : Nat := 0
  lastContact : Nat := 0
  contactAt : Nat := 0
  order   : Nat := 10
  wide    : Bool := false
  oldLink : Option (Nat × Bool) := none
  cfo     : Option Int := none
  txCtr   : Nat := 0
  rxCtr   : Nat := 0
  up      : List Int := []
  down    : List Int := []
  slotAtHub : Nat := 0
  rdv     : Nat := 0
  further : Nat := 0
  expected : Nat := 0
  window  : Bool := false
  contact : Bool := false
  awakeAt : Nat := 0
  calls   : Nat := 0
  deriving DecidableEq, Repr

/-- An alive-counter track (R464): class (0 HOST, 1 NET, 2 AIR, 3 LACE), who, `ORIGIN`. -/
structure Track where
  cls    : Nat
  who    : Nat
  origin : Nat
  alive  : Nat
  usedAt : Nat
  deriving DecidableEq, Repr

/-- A segmented transfer (R460–R462). -/
structure Transfer where
  cls    : Nat
  who    : Nat
  origin : Nat
  tid    : Nat
  index  : Nat
  sub    : Nat
  write  : Bool
  total  : Nat
  buf    : List Byte := []
  lastOff : Option Nat := none
  done   : Option Nat := none
  usedAt : Nat
  deriving DecidableEq, Repr

/-- A routing record (R471): the request's own message and where its response goes. -/
structure Route where
  cls    : Nat
  who    : Nat
  msg    : List Byte
  radio  : Bool
  acked  : Bool := false
  deriving DecidableEq, Repr

/-- The dictionary service (chapter 17). What waits in the radio and lace inputs and what was put off carries its time of arrival; `backAt` is
the end of the last restart of the controller, up to which requests are served in the order of their arrival (R30), and `ledgerAt` the request whose settings write waits, since when (R369). -/
structure Dict where
  tracks    : List Track := []
  transfers : List Transfer := []
  routes    : List Route := []
  deferred  : List (List Byte × Nat) := []
  netMasks  : Vector Nat 127 := Vector.replicate 127 0x0000FFFF
  airIn     : List (Fin 256 × List Byte × Nat) := []
  laceIn    : List (Fin 4 × List Byte × Nat) := []
  backAt    : Option Nat := none
  ledgerAt  : Option (List Byte × Nat) := none
  deriving DecidableEq, Repr

/-- The host SPI port (chapter 18). `status` is the last status block sent, `out` the last device data. -/
structure Spi where
  quad    : Bool := false
  quadNext : Bool := false
  prevHdr : Bool := false
  prevCrc : Bool := false
  prevAbandon : Bool := false
  openQ   : Option (Fin 32 × Nat) := none
  cont    : Bool := false
  badCrc  : Bool := false
  stalled : Option (Fin 32 × List Word × Bool × Bool) := none
  status  : List Byte := []
  out     : List Byte := []
  deriving DecidableEq, Repr

/-- The CAN FD controller (chapter 18). `sent` is the last frame sent: identifier and data. `nodeNext` is a node ID
that takes effect when a response in a packet numbered so or later has been sent (R501). -/
structure Can where
  state   : Nat := 0
  tec     : Nat := 0
  rec_    : Nat := 0
  recovering : Bool := false
  node    : Nat := 0x7E
  nodeNext : Option (Nat × Nat) := none
  markTick : Nat := 0
  sent    : Option (Nat × List Byte) := none
  deriving DecidableEq, Repr

/-- A GPIO pin (R510): mode, written level, parameter, input level. -/
structure Gpio where
  mode  : Nat := 0
  level : Bool := false
  param : Nat := 0
  input : Bool := false
  deriving DecidableEq, Repr

/-- A check unit (chapter 19). `frame` is the frame in progress: what it follows, bytes taken, first two words. -/
structure Cu where
  source  : Nat := 0
  crc     : Nat := 3
  filter  : Nat := 0
  init    : Nat := 0xFFFFFFFF
  value   : Nat := 0
  result  : Nat := 0
  framing : Nat := 0
  recQ    : Nat := 0xFF
  frames  : Nat := 0
  bytes   : Nat := 0
  inFrame : Bool := false
  taken   : Nat := 0
  missed  : Bool := false
  owned   : Bool := false
  follow  : Option Nat := none
  deriving DecidableEq, Repr

/-- A frame sent on a lace link and not yet acknowledged: its `LSEQ`, how often it was sent again, when it was sent last (R530). -/
structure SentFrame where
  lseq  : Nat
  tries : Nat := 0
  at_   : Nat
  words : List Word
  deriving DecidableEq, Repr

/-- A lace link (R529, R530): frames sent and not yet acknowledged, the `LSEQ` it acknowledged last, and the times of the CRC failures of
the last millisecond. -/
structure Link where
  up     : Bool := false
  rate   : Nat := 0
  latency : Nat := 0
  nextSeq : Nat := 0
  unacked : List SentFrame := []
  acked   : Option Nat := none
  failed  : List Nat := []
  training : Bool := false
  deriving DecidableEq, Repr

/-- The lace port (chapter 20). `sideB` marks the members that a chain reaches by link B, `tickFloor` is the count below which the tick counter
does not fall (R535). `claimed` is the request under CLAIM and the devices that have not yet accepted (R539). `foundA` and `foundB` are
the followers that DISCOVER has reached along each link of a lead, `pathLat` the latency of a follower's path in ticks (R534, R535). State 0 SINGLE, 1 FORMING, 2 RING, 3 CHAIN, 4 SPLIT. -/
structure Lace where
  role    : Nat := 0
  device  : Fin 4 := 0
  size    : Nat := 1
  state   : Nat := 0
  members : BitVec 4 := 1
  linkA   : Link := {}
  linkB   : Link := {}
  eseqOut : List Nat := [0, 0, 0, 0, 0]
  eseqIn  : List Nat := [0, 0, 0, 0, 0, 0, 0, 0]
  edge    : List EdgeField := []
  claims  : List (Fin 4 × EdgeField) := []
  holding : List (Fin 4 × EdgeField) := []
  claimed : Option (Owner × List (Fin 4)) := none
  retry   : List (Fin 32) := []
  away    : List (Fin 4 × Job) := []
  aligned : Bool := false
  alignAt : Option Nat := none
  numbered : Bool := false
  departed : BitVec 4 := 0
  tickOff : Int := 0
  tickNow : Int := 0
  tickFloor : Nat := 0
  sideB   : BitVec 4 := 0
  wasRing : Bool := false
  devPhase : Int := 0
  foundA  : Nat := 0
  foundB  : Nat := 0
  pathLat : Nat := 0
  deriving DecidableEq, Repr

/-- Counters, journal arbiter and fault logic (chapter 21). `ctr` lists the counters 0x7000–0x70FF that are not 0, by
key (index × 256 + subindex), strictly rising. -/
structure Faults where
  ctr      : List (Nat × Nat) := []
  jseq     : Nat := 0
  budget   : List Nat := [0, 0, 0, 0, 0, 0, 0, 0, 0, 0, 0, 0]
  supp     : List Bool := [false, false, false, false, false, false, false, false, false, false, false, false]
  lastAt   : List (Nat × Nat) := []
  recent   : List (Nat × Nat) := []
  lastFault : Nat × Nat × Nat := (0, 0, 0)
  deriving DecidableEq, Repr

/-- Everything but the ledger, the key store and the queue of commands. -/
structure Main where
  now     : Nat := 0
  freeCtr : Nat := 0
  pw      : Power := {}
  ph      : Phase := {}
  plan    : Plan := {}
  cores   : Vector Core 16 := Vector.replicate 16 {}
  ports   : Vector Port 128 := Vector.replicate 128 {}
  sch     : Sched := {}
  brn     : Burnish := {}
  engs    : Vector Engine 24 := Vector.replicate 24 {}
  disp    : Disp := {}
  sv      : Survey := {}
  wt      : Watch := {}
  pool    : Pool := {}
  tgt     : Target := {}
  rad     : Radio := {}
  pts     : Vector Partner 256 := Vector.ofFn fun i => { rxQueue := ⟨12 + i.val % 4, by omega⟩ }
  dict    : Dict := {}
  cfg     : List (Nat × Nat) := []
  spi     : Spi := {}
  can     : Can := {}
  gpio    : Vector Gpio 8 := Vector.replicate 8 {}
  cus     : Vector Cu 8 := ((Vector.replicate 8 {}).set 6 { owned := true }).set 7 { owned := true }
  lace    : Lace := {}
  flt     : Faults := {}
  deriving DecidableEq, Repr

/-- The state of the DX8128 and the queue of commands that wait, first in first out. -/
structure State where
  m       : Main := {}
  lgr     : Ledger := {}
  keys    : KeyStore := {}
  pending : List Instr := []
  deriving DecidableEq, Repr

/-- The machine right after reset: the state of R53 with the ledger as shipped (R361), before a COLD_START starts a boot
(log 7 says which values are the model's). -/
def State.reset : State := {}

end Sys2Proof.Machine
end

