-- ==== Sys2Proof/Machine/Ops.lean ====
section
/-!
DEFINITION. Machine/Ops.lean: the operations that every unit shares: access to the tables of cores, ports, engines,
queues and partners, the value in force of a dictionary entry, counters (R549), free values and times.
-/

namespace Sys2Proof.Machine

/-- The outcome of a command. -/
abbrev Out := Host.Outcome State Fault Refusal

/-- A command that touches neither the ledger, the key store nor the queue of commands. -/
def onMain (f : Main → Main) (s : State) : Out := .next { s with m := f s.m }

/-- A write of the dictionary: it waits while the controller restarts (R30), so that nothing of it happens then. -/
def onService (f : Main → Main) (s : State) : Out := onMain (fun m => if m.pw.ctlDown then m else f m) s
def onServiceAll (f : State → State) (s : State) : Out := .next (if s.m.pw.ctlDown then s else f s)

/-- Element `i` of a table, updated. -/
def updV {α : Type} {n : Nat} (v : Vector α n) (i : Fin n) (f : α → α) : Vector α n := v.set i (f v[i])

def modCore (m : Main) (k : Fin 16) (f : Core → Core) : Main := { m with cores := updV m.cores k f }
def modPort (m : Main) (p : Fin 128) (f : Port → Port) : Main := { m with ports := updV m.ports p f }
def modEng (m : Main) (e : Fin 24) (f : Engine → Engine) : Main := { m with engs := updV m.engs e f }
def modQ (m : Main) (q : Fin 32) (f : Queue → Queue) : Main := { m with pool := { m.pool with qs := updV m.pool.qs q f } }
def modPt (m : Main) (n : Fin 256) (f : Partner → Partner) : Main := { m with pts := updV m.pts n f }
def modCu (m : Main) (c : Fin 8) (f : Cu → Cu) : Main := { m with cus := updV m.cus c f }
def modLane (m : Main) (k : Fin 16) (f : Lane → Lane) : Main := { m with sv := { m.sv with lanes := updV m.sv.lanes k f } }
def modDemod (m : Main) (d : Fin 8) (f : Demod → Demod) : Main :=
  { m with rad := { m.rad with demods := updV m.rad.demods d f } }
def modGpio (m : Main) (g : Fin 8) (f : Gpio → Gpio) : Main := { m with gpio := updV m.gpio g f }
def modPw (m : Main) (f : Power → Power) : Main := { m with pw := f m.pw }
def modPh (m : Main) (f : Phase → Phase) : Main := { m with ph := f m.ph }
def modRad (m : Main) (f : Radio → Radio) : Main := { m with rad := f m.rad }
def modLace (m : Main) (f : Lace → Lace) : Main := { m with lace := f m.lace }
def modBrn (m : Main) (f : Burnish → Burnish) : Main := { m with brn := f m.brn }
def modSv (m : Main) (f : Survey → Survey) : Main := { m with sv := f m.sv }
def modSpi (m : Main) (f : Spi → Spi) : Main := { m with spi := f m.spi }
def modCan (m : Main) (f : Can → Can) : Main := { m with can := f m.can }
def modDict (m : Main) (f : Dict → Dict) : Main := { m with dict := f m.dict }
def modFlt (m : Main) (f : Faults → Faults) : Main := { m with flt := f m.flt }

/-- A context of an engine. -/
def Engine.ctx (g : Engine) (c : Fin 2) : Ctx := if c = 0 then g.ctx0 else g.ctx1

def Engine.setCtx (g : Engine) (c : Fin 2) (x : Ctx) : Engine := if c = 0 then { g with ctx0 := x } else { g with ctx1 := x }

def ctxOf (m : Main) (e : Fin 24) (c : Fin 2) : Ctx := m.engs[e].ctx c

def modCtx (m : Main) (e : Fin 24) (c : Fin 2) (f : Ctx → Ctx) : Main := modEng m e fun g => g.setCtx c (f (g.ctx c))

/-- The lowest numbers of a range, as members of a finite type. -/
def finOf (n : Nat) [NeZero n] (v : Nat) : Fin n := Fin.ofNat n v

/-- All members of a finite type, in rising order. -/
def allFin (n : Nat) : List (Fin n) := List.finRange n

/-- The next free value (log 1). -/
def draw (m : Main) : BitVec 128 × Main := (Config.free m.freeCtr, { m with freeCtr := m.freeCtr + 1 })

/-- SCLK periods of 2.5 ns in a microsecond, a millisecond and a second (R23). -/
def tickUs : Nat := 400
def tickMs : Nat := 400000
def tickS : Nat := 400000000

/-- Codes of the modes (R31). -/
def Mode.code : Mode → Nat
  | .dormant => 0 | .watch => 1 | .survey => 2 | .transact => 3 | .calibrate => 4 | .emulate => 5 | .rescue => 6 | .hold => 7

def Mode.ofCode (c : Nat) : Mode :=
  match c with
  | 0 => .dormant | 1 => .watch | 2 => .survey | 3 => .transact | 4 => .calibrate | 5 => .emulate | 6 => .rescue | _ => .hold

/-- The main modes of R38, codes 2 to 5. -/
def Mode.isMain : Mode → Bool
  | .survey => true | .transact => true | .calibrate => true | .emulate => true | _ => false

/-- Whether the `ENG`, `CORE` and `RADIO` islands are on in full (R28). -/
def engOn (m : Main) : Bool := m.pw.mode.isMain

/-- Whether `CTL` and `POOL` are powered (R28, R61). -/
def ctlOn (m : Main) : Bool := m.pw.ctlOn

/-- The value in force of a dictionary entry that is held as a setting. -/
def cfgN (m : Main) (idx sub : Nat) : Nat := (mapGet (ekey idx sub) m.cfg).getD (entryDefault idx sub)

/-- A signed setting of `bits` bits. -/
def cfgI (m : Main) (bits idx sub : Nat) : Int := toSigned bits (cfgN m idx sub)

def cfgB (m : Main) (idx sub : Nat) : Bool := cfgN m idx sub != 0

/-- A setting takes a value. -/
def cfgSet (m : Main) (idx sub v : Nat) : Main := { m with cfg := mapSet (ekey idx sub) v m.cfg }

/-- The value of a counter. -/
def counter (m : Main) (idx sub : Nat) : Nat := (mapGet (ekey idx sub) m.flt.ctr).getD 0

/-- A counter rises by `n` and stops at 0xFFFF_FFFF (R549). -/
def countN (m : Main) (idx sub n : Nat) : Main :=
  if n = 0 then m
  else { m with flt := { m.flt with ctr := mapSet (ekey idx sub) (min 0xFFFFFFFF (counter m idx sub + n)) m.flt.ctr } }

/-- A counter rises by one. -/
def count (m : Main) (idx sub : Nat) : Main := countN m idx sub 1

/-- A counter rises by one when a condition holds. -/
def countIf (b : Bool) (m : Main) (idx sub : Nat) : Main := if b then count m idx sub else m

/-- Up to 32 bits saturating increment of an entry held in a unit's state (R549 for counters, the width otherwise). -/
def sat32 (v : Nat) : Nat := min 0xFFFFFFFF v

/-- Home core of a port (R94) and its alternate (R96). -/
def homeCore (p : Fin 128) : Fin 16 := ⟨p.val / 8 % 16, by omega⟩
def altCore (p : Fin 128) : Fin 16 := ⟨(p.val / 8 + 15) % 16, by omega⟩

/-- Seconds counter of the always-on island [6000:11]. -/
def aoSeconds (m : Main) : Nat := (m.pw.aoSecBase + (m.now - m.pw.aoSecAt) / tickS) % 2 ^ 32

/-- Seconds since the firmware last started [7100:0F]. -/
def uptime (m : Main) : Nat := if m.pw.fwRunning then (m.now - m.pw.fwStartAt) / tickS else 0

/-- Apply an update once for each element of a list, first element first. -/
@[irreducible] def forEach {α : Type} (l : List α) (m : Main) (f : Main → α → Main) : Main := l.foldl f m

/-- A number from its bits, the first as bit 0. -/
def bitsNat (bs : List Bool) : Nat := bs.foldr (fun b v => bitN b + 2 * v) 0

end Sys2Proof.Machine
end

