-- ==== Sys2Proof/Machine/PhaseOps.lean ====
section
/-!
DEFINITION. Machine/PhaseOps.lean: the phase of the generator at a moment (R70, R77), and the windows of the active plan
that contain a phase (R82, R83).
-/

namespace Sys2Proof.Machine

/-- The phase source in force; 3 on a follower (R66, R90). -/
def phaseSource (m : Main) : Nat := if m.lace.role = 2 then 3 else cfgN m 0x2000 0x01

/-- Whether the phase follows the encoder's count: source 2 outside FREE (R77, R79). -/
def encFollows (m : Main) : Bool := decide (phaseSource m = 2) && (m.ph.st == 1 || m.ph.st == 2)

/-- What the accumulator adds from one time to a later one, as units × the period estimate: 65 536 per SCLK period, 65 536 − e while a slew
is in force, nothing while the phase is held (R70, R71). -/
def phaseSpan (ph : Phase) (a b : Nat) : Int :=
  let a := min b (max a ph.hold)
  ((b - a : Nat) : Int) * 65536 - ((min b ph.slewEnd - min a ph.slewEnd : Nat) : Int) * ph.slewE

/-- The accumulator at a time, in 2⁻³² units; a time before the last base point is reached backwards at the same rate (R67, R70). -/
def phaseFine (ph : Phase) (t : Nat) : Int :=
  ((ph.base * 2 ^ 32 + ph.frac : Nat) : Int) +
    (if ph.at_ ≤ t then phaseSpan ph ph.at_ t else -phaseSpan ph t ph.at_) * 2 ^ 32 / (ph.period : Int)

/-- Phase from the encoder's count (R77). -/
def encPhase (m : Main) : Nat :=
  (m.ph.encCount * 65536 / max 1 (cfgN m 0x2000 0x10) + cfgN m 0x2000 0x05) % 65536

/-- The generator's phase at a time, in phase units (R70, R77). -/
def phaseAt (m : Main) (t : Nat) : Nat :=
  if encFollows m then encPhase m else fromSigned 16 (phaseFine m.ph t / 2 ^ 32)

/-- The current phase [2000:0F]. -/
def phaseNow (m : Main) : Nat := phaseAt m m.now

/-- The extended phase, cycle count × 65 536 + phase (R79, R293). -/
def extPhase (m : Main) : Nat := m.ph.cycle * 65536 + phaseNow m

def Window.start (w : Window) : Nat := field w.w0.toNat 0 16
def Window.stop (w : Window) : Nat := field w.w0.toNat 16 16
def Window.coreMask (w : Window) : Nat := field w.w1.toNat 0 16
def Window.octets (w : Window) : Nat := field w.w2.toNat 0 16
def Window.positions (w : Window) : Nat := field w.w2.toNat 16 8
def Window.enabled (w : Window) : Bool := bitAt w.w3.toNat 0
def Window.classes (w : Window) : Nat := field w.w3.toNat 1 4

/-- Whether the reserved bits of a window are 0 (R82). -/
def Window.clean (w : Window) : Bool := w.w1.toNat < 2 ^ 16 && w.w2.toNat < 2 ^ 24 && w.w3.toNat < 2 ^ 5

/-- Whether a window contains a phase; `END` below `START` wraps, `END` = `START` is the whole cycle (R82). -/
def Window.contains (w : Window) (phase : Nat) : Bool :=
  if w.start = w.stop then true
  else if w.start < w.stop then decide (w.start ≤ phase) && decide (phase < w.stop)
  else decide (w.start ≤ phase) || decide (phase < w.stop)

/-- Whether a window allows a core, a port and an activity class: 1 survey, 2 transact, 3 watch probe, 4 calibrate. -/
def Window.allows (w : Window) (k : Fin 16) (p : Fin 128) (cls : Nat) : Bool :=
  w.enabled && bitAt w.coreMask k.val && bitAt w.octets (p.val / 8) && bitAt w.positions (p.val % 8) &&
  bitAt w.classes (cls - 1)

def Plan.bank (pl : Plan) (b : Fin 2) : Vector Window 64 := if b = 0 then pl.bank0 else pl.bank1

def activeWin (m : Main) (w : Fin 64) : Window := (m.plan.bank m.plan.active)[w]

/-- Whether window `w` of the active plan is open and allows core, port and class; in FREE with [2000:0C] = 1 only the
watch probe and calibrate classes are granted (R75). -/
def winAllows (m : Main) (w : Fin 64) (k : Fin 16) (p : Fin 128) (cls : Nat) : Bool :=
  m.plan.opened[w] && (activeWin m w).allows k p cls &&
  (decide (m.ph.st ≠ 0 ∨ cfgN m 0x2000 0x0C = 0) || decide (3 ≤ cls))

/-- Whether some open window of the active plan allows core, port and class (R83). -/
def planAllows (m : Main) (k : Fin 16) (p : Fin 128) (cls : Nat) : Bool := (allFin 64).any fun w => winAllows m w k p cls

/-- Counts of the last 10 ms, in bins of 1 ms (R85; log 35). -/
def encRate (m : Main) : Nat := ((m.ph.encBins.filter fun b => decide (m.now / tickMs < b.1 + 10)).map (·.2)).sum

/-- Time to move by `units` at the count rate of the last 10 ms; `none` when the rack stands (R80, R85). -/
def encTime (m : Main) (units : Nat) : Option Nat :=
  if m.ph.encDir = 2 || encRate m = 0 then none
  else some (units * cfgN m 0x2000 0x10 * 10 * tickMs / (65536 * encRate m))

/-- Time in SCLK periods from a phase to another, going forward, at the period estimate (R85). -/
def phaseTime (m : Main) (units : Nat) : Nat := units * m.ph.period / 65536

/-- Time until a window closes that is open at the present phase: at the period estimate, or for an encoder at its count rate and in its
direction; `none` for a stopped rack (R80, R85). -/
def windowTime (m : Main) (w : Window) : Option Nat :=
  if !encFollows m then some (phaseTime m (fromSigned 16 (w.stop - (phaseNow m : Int))))
  else if m.ph.encDir = 1 then encTime m (fromSigned 16 ((phaseNow m : Int) - w.start + 1))
  else encTime m (fromSigned 16 (w.stop - (phaseNow m : Int)))

/-- Time until the latest open window that allows core, port and class closes; `none` when it does not close: a window of
the whole cycle, or a stopped rack (R85). -/
def windowLeft (m : Main) (k : Fin 16) (p : Fin 128) (cls : Nat) : Option Nat :=
  let ws := ((allFin 64).filter fun w => winAllows m w k p cls).map (activeWin m)
  if ws.any fun w => w.start == w.stop then none
  else ws.foldl (fun acc w => match acc, windowTime m w with
    | some a, some b => some (max a b)
    | _, _ => none) (some 0)

/-- Nominal sleep-clock periods in a span of SCLK periods (R23). -/
def sleepPeriods (t : Nat) : Nat := t * 32768 / tickS

/-- The extended phase of the always-on counter: cycle count × 65 536 + coarse phase, from the sleep periods since its last edge against the
measured period (R81). -/
def aoExt (a : AoPhase) (now : Nat) : Nat := a.ext + sleepPeriods (now - a.at_) * 65536 * tickS / (32768 * max 1 a.period)

/-- What the always-on counter takes over when `ENG` is switched off: the cycle count, the phase, and the lock on `PHREF` (R81). -/
def aoTakes (m : Main) : AoPhase :=
  { st := if phaseSource m = 1 && (m.ph.st == 1 || m.ph.st == 2) then 1 else 0, ext := extPhase m, at_ := m.now,
    period := if phaseSource m = 2 then cfgN m 0x2000 0x0A * tickUs else m.ph.period }

/-- Whether the coarse phase lies in a window at least 2 sleep periods from its edges (R81). -/
def Window.containsWell (w : Window) (a : AoPhase) (now : Nat) : Bool :=
  let ph := aoExt a now % 65536
  let g := 2 * 65536 * tickS / (32768 * max 1 a.period) + 1
  w.start = w.stop ||
    (decide (g ≤ fromSigned 16 ((ph : Int) - w.start)) && decide (fromSigned 16 ((ph : Int) - w.start) + g < fromSigned 16 ((w.stop : Int) - w.start)))

end Sys2Proof.Machine
end

