-- ==== Sys2Proof/Machine/PoolOps.lean ====
section
/-!
DEFINITION. Machine/PoolOps.lean: the cell pool seen from its producers: counts and quotas (R332–R336), opening, filling and
closing a packet (R325), the space test (R341), the flush (R343), the check units that follow the pool write bus (R516,
R517), the event mirror (R503) and the journal arbiter (R552–R556).
-/

namespace Sys2Proof.Machine

/-- Cells of n words, the length word included (R324). -/
def cellsOfWords (n : Nat) : Nat := (n + 7) / 8

/-- Cells a packet holds: an open one all it has taken or reserved (R341), a closed one all but those consumed (R330). -/
def Packet.cells (p : Packet) : Nat :=
  if p.opened then max p.reserve (cellsOfWords (p.words.length + 1)) else cellsOfWords (p.words.length + 1) - p.rd / 8

/-- The counts of R332. -/
def Queue.cells (q : Queue) : Nat := (q.pkts.map Packet.cells).sum + q.detached
def Queue.packets (q : Queue) : Nat := (q.pkts.filter fun p => !p.opened).length
def Queue.wordsCount (q : Queue) : Nat := (q.pkts.map fun p => if p.opened then 0 else p.words.length + 1 - p.rd).sum
def Queue.openPkts (q : Queue) : Nat := (q.pkts.filter fun p => p.opened).length

/-- Cells in the pool [3480:01]. -/
def poolCells : Nat := 16384

/-- Cells held by all queues. -/
def cellsHeld (m : Main) : Nat := ((allFin 32).map fun q => (m.pool.qs[q]).cells).sum

/-- Retired cells that a packet still holds (R346, R348). -/
def retiredHeld (m : Main) : Nat :=
  ((allFin 32).map fun q =>
    ((m.pool.qs[q]).pkts.map fun p => (p.poison.filter fun x => m.pool.retired.contains x.2).length + p.worn.length).sum).sum

/-- Free cells [3480:02], retired cells, orphans and cells on their way back excluded (R335, R343, R348, R349). -/
def cellsFree (m : Main) : Nat :=
  poolCells + retiredHeld m - cellsHeld m - m.pool.retired.length - m.pool.returning - m.pool.orphans

/-- Σ of the reserved minimums [3480:07]. -/
def minSum (m : Main) : Nat := ((allFin 32).map fun q => (m.pool.qs[q]).cmin).sum

/-- The unreserved free count U (R335). -/
def unreserved (m : Main) : Int :=
  (cellsFree m : Int) - (((allFin 32).map fun q => (m.pool.qs[q]).cmin - (m.pool.qs[q]).cells).sum : Nat)

/-- How many further cells queue `q` may take: those below its minimum, then those below its maximum while U is above 0
(R335). -/
def takeable (m : Main) (q : Fin 32) : Nat :=
  let x := m.pool.qs[q]
  (x.cmin - x.cells) + min (x.cmax - max x.cells x.cmin) (unreserved m).toNat

/-- Whether the queue is at its cell limit (R333, R335). -/
def atLimit (m : Main) (q : Fin 32) : Bool := takeable m q == 0

/-- The space test of R341 for a packet of `n` words after its length word. -/
def spaceTest (m : Main) (q : Fin 32) (n : Nat) : Bool := decide (cellsOfWords (n + 1) ≤ takeable m q)

/-- [3400+q:09] follows the cells held. -/
def noteCells (q : Queue) : Queue := { q with highWater := max q.highWater q.cells }

/-- Work that the close or the drop of a packet brings with it. -/
inductive PoolWork where
  /-- A packet is to be written whole under the space test; `mir` marks a mirror copy, counted apart when dropped. -/
  | put (q : Fin 32) (type source : Nat) (words : List Word) (mir : Bool)
  /-- A check record of unit `c` (R519). -/
  | record (c : Fin 8) (key kind ref1 ref2 : Nat)
  /-- A journal entry. -/
  | journal (src code : Nat) (args : List Nat)
  deriving DecidableEq, Repr

/-- The initial running value of a unit: [5000+c:04] cut to the CRC's width; 0xFFFF_FFFF loads the value of R513. -/
def Cu.load (c : Cu) : Nat :=
  let k := CrcKind.ofCode c.crc
  if c.init = 0xFFFFFFFF then k.init else c.init % 2 ^ k.width

/-- A unit takes bytes of its stream (R514). -/
def Cu.take (c : Cu) (bs : List Byte) : Cu :=
  { c with value := (CrcKind.ofCode c.crc).run c.value bs, bytes := sat32 (c.bytes + bs.length), taken := c.taken + bs.length }

/-- A frame starts (R516). -/
def Cu.start (c : Cu) (id : Option Nat) : Cu := { c with value := c.load, inFrame := true, taken := 0, follow := id }

/-- A frame ends with a result (R516). -/
def Cu.finish (c : Cu) : Cu :=
  { c with result := c.value ^^^ (CrcKind.ofCode c.crc).xorOut, frames := sat32 (c.frames + 1), inFrame := false, follow := none }

/-- Whether a unit snoops queue `q` on the pool write bus (R515). -/
def Cu.onQueue (c : Cu) (q : Fin 32) : Bool := !c.owned && c.source == 1 && bitAt c.filter q.val

/-- A packet opens in queue `q`: an idle unit in frame mode follows it, a unit that follows another passes it over. -/
def cuOpen (m : Main) (q : Fin 32) (id : Nat) : Main :=
  forEach (allFin 8) m fun m c =>
    let u := m.cus[c]
    if u.onQueue q && u.framing == 1 then
      if u.inFrame then modCu (count m 0x7018 0x03) c fun u => { u with missed := true }
      else modCu m c fun u => u.start (some id)
    else m

/-- Body words enter the pool. -/
def cuWords (m : Main) (q : Fin 32) (id : Nat) (ws : List Word) : Main :=
  forEach (allFin 8) m fun m c =>
    let u := m.cus[c]
    if u.onQueue q && (u.framing == 0 || u.follow == some id) then modCu m c fun u => u.take (wordsBytes ws) else m

/-- A followed packet enters the sink state: its frame ends without a result (R517). -/
def cuSink (m : Main) (id : Nat) : Main :=
  forEach (allFin 8) m fun m c =>
    if (m.cus[c]).follow == some id then
      modCu (count m 0x7018 0x04) c fun u => { u with inFrame := false, follow := none, missed := true }
    else m

/-- A followed packet closes: the frame ends, and a unit with a record queue owes a check record. -/
def cuClose (m : Main) (q : Fin 32) (p : Packet) : Main × List PoolWork :=
  (allFin 8).foldl (fun acc c =>
    let u := acc.1.cus[c]
    if u.onQueue q && u.follow == some p.id then
      (modCu acc.1 c Cu.finish,
       if u.recQ < 32 then
         acc.2 ++ [.record c q.val p.type ((p.words.head?.map (·.toNat)).getD 0) (((p.words[1]?).map (·.toNat)).getD 0)]
       else acc.2)
    else acc) (m, [])

/-- Open a packet in queue `q` with `reserve` cells (at least the first), the next packet name given (R325). -/
def openPkt (m : Main) (q : Fin 32) (type source reserve : Nat) : Main × Nat :=
  let id := m.pool.nextId
  let m := { m with pool := { m.pool with nextId := id + 1 } }
  let m := modQ m q fun x => noteCells { x with pkts := x.pkts ++ [{ id := id, opened := true, type := type, source := source, reserve := reserve }] }
  (cuOpen m q id, id)

/-- The length word of a packet (R326). -/
def Packet.lengthWord (p : Packet) : Nat :=
  place 0 16 p.words.length + place 16 8 p.type + place 24 8 p.source

/-- An open packet enters the sink state (R343). In a sink, `rd` keeps the words written before the flush. -/
def Packet.toSink (p : Packet) : Packet := { p with rd := p.words.length, reserve := 0 }

/-- Packet `id` of queue `q` enters the sink state and its cells return (R328, R343). -/
def sinkPkt (m : Main) (q : Fin 32) (id : Nat) : Main :=
  let x := m.pool.qs[q]
  let gone := x.pkts.filter fun p => p.id == id
  let m := { m with pool := { m.pool with returning := m.pool.returning + (gone.map Packet.cells).sum } }
  cuSink (modQ m q fun x => { x with pkts := x.pkts.filter (fun p => p.id != id), sinks := x.sinks ++ gone.map Packet.toSink }) id

/-- Append words to packet `id`, whose cells are granted. A sink takes and discards them; a word beyond 65 535 puts the
packet into the sink state (R328, R343). -/
def appendPkt (m : Main) (q : Fin 32) (id : Nat) (ws : List Word) : Main :=
  let x := m.pool.qs[q]
  if x.sinks.any (fun p => p.id == id) then
    modQ m q fun x => { x with sinks := x.sinks.map fun p => if p.id = id then { p with words := p.words ++ ws } else p }
  else
    let room := ((x.pkts.find? fun p => p.id == id).map fun p => 65535 - p.words.length).getD 0
    let put := ws.take room
    let m := modQ m q fun x => noteCells { x with pkts := x.pkts.map fun p => if p.id = id then { p with words := p.words ++ put } else p }
    let m := cuWords m q id put
    if ws.length ≤ room then m
    else modQ (sinkPkt m q id) q fun x =>
      { x with sinks := x.sinks.map fun p => if p.id = id then { p with words := p.words ++ ws.drop room } else p }

/-- How many words packet `id` may take before it would stall (R339): the room in its cells and the cells its queue may
take; a sink takes all. -/
def roomOf (m : Main) (q : Fin 32) (id : Nat) (want : Nat) : Nat :=
  let x := m.pool.qs[q]
  match x.pkts.find? (fun p => p.id == id) with
  | some p => min want ((p.cells + takeable m q) * 8 - (p.words.length + 1))
  | none => want

/-- Bytes of the mirror frame of a packet (R503): queue, type, source, cut-short flag, length, 2 reserved bytes, and at
most 14 words. -/
def mirrorBytes (q : Fin 32) (p : Packet) : List Byte :=
  [byte q.val, byte p.type, byte p.source, byte (bitN (decide (14 < p.words.length)))] ++ leBytes 2 p.words.length ++ [0, 0] ++
  wordsBytes (p.words.take 14)

/-- The data lengths of CAN FD: the smallest that holds n bytes (R498). -/
def canLength (n : Nat) : Nat :=
  if n ≤ 8 then n else if n ≤ 12 then 12 else if n ≤ 16 then 16 else if n ≤ 20 then 20 else if n ≤ 24 then 24
  else if n ≤ 32 then 32 else if n ≤ 48 then 48 else 64

/-- The body of a Q20 or Q21 packet (R500): identifier and length, then the padded data. -/
def canPacket (id : Nat) (data : List Byte) : List Word :=
  word (place 0 11 id + place 16 7 (canLength data.length)) :: packWords (padTo (canLength data.length) data)

/-- `SOURCE` of what the management controller writes (R327). -/
def srcController : Nat := 0x05

/-- Close packet `id` of queue `q` (R325), or complete the close of a sink (R343). -/
def closeRaw (m : Main) (q : Fin 32) (id : Nat) : Main × List PoolWork :=
  let x := m.pool.qs[q]
  match x.sinks.find? (fun p => p.id == id) with
  | some p =>
    let m := modQ m q fun x =>
      { x with sinks := x.sinks.filter (fun p => p.id != id), sunk := sat32 (x.sunk + 1), lastTrunc := byte 0x8E :: leBytes 4 p.lengthWord }
    (countN (count m 0x70C0 0x02) 0x70C0 0x03 (p.words.length - p.rd), [])
  | none =>
    match x.pkts.find? (fun p => p.id == id && p.opened) with
    | none => (m, [])
    | some p =>
      let m := modQ m q fun x =>
        { x with pkts := x.pkts.map fun p => if p.id = id then { p with opened := false, reserve := 0, closedAt := m.now } else p }
      let r := cuClose m q p
      if bitAt (cfgN m 0x1810 0x06) q.val && x.consumer == 0 then
        (r.1, r.2 ++ [.put 21 0x28 srcController (canPacket (m.can.node * 16 + 4) (mirrorBytes q p)) true])
      else r

/-- A packet is dropped by a space test: counted and, but for Q22, journalled (R341, R553). -/
def dropRaw (m : Main) (q : Fin 32) (source : Nat) : Main × List PoolWork :=
  let m := count (modQ m q fun x => { x with drops := sat32 (x.drops + 1) }) 0x70C0 0x01
  (m, if q = 22 then [] else [.journal 0x30 0x5005 [q.val, source]])

/-- Open, fill and close a packet whose space has been tested (R341). -/
def putRaw (m : Main) (q : Fin 32) (type source : Nat) (ws : List Word) : Main × List PoolWork :=
  let r := openPkt m q type source (cellsOfWords (ws.length + 1))
  closeRaw (appendPkt r.1 q r.2 ws) q r.2

/-- The next journal sequence number; 0 is never assigned (R553). -/
def nextJseq (j : Nat) : Nat := if j = 0xFFFFFFFF then 1 else j + 1

/-- Whether class `c` is enabled; class 0 always is (R556). -/
def classOn (m : Main) (c : Nat) : Bool := c == 0 || bitAt (cfgN m 0x7100 0x02) c

/-- The body of a journal entry (R552). -/
def journalBody (seq code src dev merged supp : Nat) (args : List Nat) (cycle phase tick oseq : Nat) : List Word :=
  [word seq, word (place 0 16 code + place 16 8 src + place 24 2 dev + place 26 1 merged + place 27 1 supp + place 28 3 args.length),
   word cycle, word (phase % 65536), word tick, word (tick / 2 ^ 32), word oseq] ++ args.map word

/-- Device number shown in `DEV`; 0 outside a lace (R552). -/
def laceDev (m : Main) : Nat := if m.lace.role = 0 then 0 else m.lace.device.val

/-- Whether a device of the lace can be reached (R534). -/
def laceReach (m : Main) (d : Nat) : Bool := m.lace.role != 0 && m.lace.members.toNat.testBit d

/-- First header word of a frame (R531). -/
def laceHead (m : Main) (type : Nat) (dst : Option (Fin 4)) (payload : List Word) : Nat :=
  place 0 4 type + place 4 2 m.lace.device.val + place 6 2 ((dst.map (·.val)).getD 0) + place 8 1 (bitN dst.isNone) +
  place 16 16 (4 * payload.length)

/-- Whether this device's entries go to the lead (R544). -/
def journalMerges (m : Main) : Bool := m.lace.role == 2 && cfgB m 0x7800 0x07 && laceReach m 0

/-- The arbiter writes an accepted entry to Q22 or drops it (R553); a follower sends it to the lead through Q23 instead, and
its loss there makes no further entry (R542, R544). -/
def journalPut (m : Main) (body : List Word) : Main × List PoolWork :=
  if journalMerges m then
    let ws := word (laceHead m 0xA (some 0) body) :: body
    if spaceTest m 23 ws.length then putRaw m 23 0x2A 0x06 ws else ((dropRaw m 23 0x06).1, [])
  else if spaceTest m 22 body.length then
    let r := putRaw m 22 0x2B 0x06 body
    (count r.1 0x7008 0x01, r.2)
  else
    let r := dropRaw m 22 0x06
    (count r.1 0x7008 0x02, r.2)

/-- The SCLK tick count at a time, with the correction of a lace, which never makes it fall (R535, R554). -/
def tickAt (m : Main) (t : Nat) : Nat := max m.lace.tickFloor ((t : Int) + m.lace.tickNow).toNat

/-- An event reaches the arbiter: disabled classes get no number, the rate limit discards the excess (R556), the rest is
numbered and written (R553). Nothing is entered while `CTL` is off (R558). `at_` is the tick of the timestamp (R554). -/
def journalAt (m : Main) (at_ src code : Nat) (args : List Nat) : Main × List PoolWork :=
  let c := code / 0x1000
  if !ctlOn m || !classOn m c then (m, [])
  else if c != 0 && decide (cfgN m 0x7100 0x03 ≤ nth m.flt.budget c 0) then
    (count { m with flt := { m.flt with supp := m.flt.supp.set c true } } 0x7008 0x03, [])
  else
    let seq := nextJseq m.flt.jseq
    let body := journalBody seq code src (laceDev m) 0 (bitN (nth m.flt.supp c false)) args m.ph.cycle (phaseAt m at_) (tickAt m at_) 0
    journalPut { m with flt := { m.flt with jseq := seq, budget := m.flt.budget.set c (nth m.flt.budget c 0 + 1), supp := m.flt.supp.set c false } } body

/-- A check record (R519). -/
def recordRaw (m : Main) (c : Fin 8) (key kind ref1 ref2 : Nat) : Main × List PoolWork :=
  let u := m.cus[c]
  let q := finOf 32 u.recQ
  let body := [word (place 0 3 c.val + place 3 3 u.source + place 6 1 (bitN u.missed) + place 8 8 key + place 16 8 kind),
    word u.taken, word u.result, word ref1, word ref2]
  if spaceTest m q body.length then putRaw (modCu (count m 0x7018 0x01) c fun u => { u with missed := false }) q 0x29 srcController body
  else dropRaw (modCu (count m 0x7018 0x02) c fun u => { u with missed := true }) q srcController

/-- One piece of work. -/
def doWork (m : Main) : PoolWork → Main × List PoolWork
  | .put q type source ws mir =>
    if spaceTest m q ws.length then putRaw m q type source ws
    else dropRaw (countIf mir m 0x7000 0x0A) q source
  | .record c key kind ref1 ref2 => recordRaw m c key kind ref1 ref2
  | .journal src code args => journalAt m m.now src code args

/-- Work in its order, the work it brings after it. -/
def settleFuel : Nat → Main → List PoolWork → Main
  | 0, m, _ => m
  | _, m, [] => m
  | n + 1, m, w :: ws => let r := doWork m w; settleFuel n r.1 (ws ++ r.2)

/-- All the work that is owed. A check unit that records into a queue it follows itself ends at that queue's limit, which
the number of cells bounds (log 12). -/
@[irreducible] def settle (r : Main × List PoolWork) : Main := settleFuel 65536 r.1 r.2

/-- An event is journalled (R552). -/
def journal (m : Main) (src code : Nat) (args : List Nat) : Main := settle (journalAt m m.now src code args)

/-- A packet closes (R325). -/
def closePkt (m : Main) (q : Fin 32) (id : Nat) : Main := settle (closeRaw m q id)

/-- A packet whose space has been tested is written whole. -/
def putPkt (m : Main) (q : Fin 32) (type source : Nat) (ws : List Word) : Main := settle (putRaw m q type source ws)

/-- A packet is dropped by a space test. -/
def dropPkt (m : Main) (q : Fin 32) (source : Nat) : Main := settle (dropRaw m q source)

/-- A drop-on-shortage producer writes a packet or drops it (R341). -/
def offerPkt (m : Main) (q : Fin 32) (type source : Nat) (ws : List Word) : Main :=
  if spaceTest m q ws.length then putPkt m q type source ws else dropPkt m q source

/-- A stall of an internal producer is counted once (R339). -/
def countStall (m : Main) (q : Fin 32) : Main :=
  count (modQ m q fun x => { x with stalls := sat32 (x.stalls + 1) }) 0x70C0 0x08

/-- What a stalling producer has written: `none` when the packet closed, else its packet (0 when it could not open one) and
the words still to write. -/
abbrev Stall := Option (Nat × List Word)

/-- A stalling producer goes on with its packet: it appends what fits and closes it when nothing is left (R339). -/
def resumePkt (m : Main) (q : Fin 32) (id : Nat) (ws : List Word) : Main × Stall :=
  let n := roomOf m q id ws.length
  let m := appendPkt m q id (ws.take n)
  if ws.length ≤ n then (closePkt m q id, none) else (m, some (id, ws.drop n))

/-- A stalling producer opens its packet and writes it, or stops at its cell limit (R338, R339). A stall is counted. The packet is limited to
the queue's maximum (R342). -/
def stallPkt (m : Main) (q : Fin 32) (type source : Nat) (ws : List Word) : Main × Stall :=
  let ws := ws.take (8 * (m.pool.qs[q]).cmax - 1)
  if takeable m q = 0 then (countStall m q, some (0, ws))
  else
    let o := openPkt m q type source 1
    let r := resumePkt o.1 q o.2 ws
    (if r.2.isSome then countStall r.1 q else r.1, r.2)

/-- A stalled producer tries again: nothing changes while its queue may take no cell; a further stall after some words is a
stall of its own (R339). -/
def retryPkt (m : Main) (q : Fin 32) (type source : Nat) (st : Nat × List Word) : Main × Stall :=
  if st.1 = 0 then
    if takeable m q = 0 then (m, some st)
    else stallPkt m q type source st.2
  else if roomOf m q st.1 st.2.length = 0 && !st.2.isEmpty then (m, some st)
  else
    let r := resumePkt m q st.1 st.2
    (if r.2.isSome then countStall r.1 q else r.1, r.2)

/-- Flush of a queue (R343): closed packets are freed, open ones go to the sink state, their cells return. -/
def flushQ (m : Main) (q : Fin 32) : Main :=
  let x := m.pool.qs[q]
  let opens := x.pkts.filter fun p => p.opened
  let m := { m with pool := { m.pool with returning := m.pool.returning + (x.pkts.map Packet.cells).sum } }
  let m := modQ m q fun x => { x with pkts := [], sinks := x.sinks ++ opens.map Packet.toSink, keepMark := if x.keepMark = 0 then 0 else 2 }
  forEach opens m fun m p => cuSink m p.id

/-- An open packet is flushed and its producer closes it at once: its words are withdrawn (R18, R343). -/
def withdrawPkt (m : Main) (q : Fin 32) (id : Nat) : Main := closePkt (sinkPkt m q id) q id

end Sys2Proof.Machine
end

