-- ==== Sys2Proof/Machine/FieldOps.lean ====
section
/-!
DEFINITION. Machine/FieldOps.lean: the fields that are on or granted (the set F of R126), the coupling of two ports
(R122, R124), the predicted leak and the drive phase (R129, R130), the cancellation DACs (R144, R145), the energy account
(R117, R118), port and core states (R96, R112), and the frames of the lace port (R531).
-/

namespace Sys2Proof.Machine

/-- SCLK periods of n carrier periods: 339 carrier periods are 10 000 SCLK periods (R23, R537). -/
def fcTicks (n : Nat) : Nat := n * 10000 / 339

/-- Whether an event that is journalled at most once per second may be journalled now; `key` names the event. -/
def onceASecond (m : Main) (key : Nat) : Bool × Main :=
  match mapGet key m.flt.lastAt with
  | some t => if m.now < t + tickS then (false, m) else (true, modFlt m fun f => { f with lastAt := mapSet key m.now f.lastAt })
  | none => (true, modFlt m fun f => { f with lastAt := mapSet key m.now f.lastAt })

/-- The link on which a frame for a device leaves: outside a closed ring by the side on which the device stands, else link A when it
is up (log 14). -/
def laceVia (m : Main) (dst : Option (Fin 4)) : Option LaceLink :=
  let a := m.lace.linkA.up
  let b := m.lace.linkB.up
  let towardB := match dst with
    | some d => m.lace.state != 2 && m.lace.sideB.toNat.testBit d.val
    | none => false
  if towardB && b then some .b else if a then some .a else if b then some .b else none

/-- The frame with its CRC-32C (R531). -/
def laceSealed (ws : List Word) : List Word := ws ++ [word (CrcKind.crc32c.of (wordsBytes ws))]

/-- A frame goes out of a link and waits there for its acknowledgement (R530). -/
def linkSend (m : Main) (l : LaceLink) (w0 : Nat) (eseq : Nat) (payload : List Word) : Main :=
  let put (k : Link) : Link :=
    { k with nextSeq := (k.nextSeq + 1) % 65536,
             unacked := k.unacked ++ [{ lseq := k.nextSeq, at_ := m.now, words := laceSealed (word w0 :: word (eseq + k.nextSeq * 65536) :: payload) }] }
  let m := count m 0x70F8 0x01
  match l with
  | .a => modLace m fun x => { x with linkA := put x.linkA }
  | .b => modLace m fun x => { x with linkB := put x.linkB }

/-- The lace port sends a frame to a device, or to every other member; in a chain a broadcast leaves by both links
(R531, R533). Nothing is sent outside a lace. -/
def laceSend (m : Main) (type : Nat) (dst : Option (Fin 4)) (payload : List Word) : Main :=
  let i := (dst.map (·.val)).getD 4
  if m.lace.role = 0 || decide (m.lace.state < 2) then m
  else match laceVia m dst with
    | none => m
    | some l =>
      let es := (nth m.lace.eseqOut i 0 + 1) % 65536
      let m := modLace m fun x => { x with eseqOut := x.eseqOut.set i es }
      let w0 := laceHead m type dst payload
      let m := linkSend m l w0 es payload
      if dst.isNone && m.lace.state != 2 && m.lace.linkA.up && m.lace.linkB.up then linkSend m .b w0 es payload else m

/-- The global number of a local port (R12). -/
def gport (m : Main) (p : Fin 128) : Nat := laceDev m * 128 + p.val

/-- Whether a core is IN_SERVICE or in PROBATION (R96). -/
def serving (m : Main) (k : Fin 16) : Bool := (m.cores[k]).state == 0 || (m.cores[k]).state == 3

/-- The cores that [2200+p:04] allows for a port, home core first (R94, R96). -/
def allowedCores (m : Main) (p : Fin 128) : List (Fin 16) :=
  match cfgN m (0x2200 + p.val) 0x04 with
  | 1 => [homeCore p]
  | 2 => [altCore p]
  | _ => [homeCore p, altCore p]

/-- The allowed cores that serve (R96). -/
def servingCores (m : Main) (p : Fin 128) : List (Fin 16) := (allowedCores m p).filter (serving m)

/-- Level in force of a port on a core (R100). -/
def levelInForce (m : Main) (k : Fin 16) (p : Fin 128) : Nat := min (cfgN m (0x2200 + p.val) 0x03) (cfgN m (0x2100 + k.val) 0x04)

/-- A field as the scheduler sees it: of this device, or of an edge port of another (R126, R532). `live`: a field not yet granted, for
which the figures are those written now (R125). -/
structure FV where
  g     : Nat
  loc   : Option (Fin 128)
  core  : Option (Fin 16)
  level : Int
  code  : Int
  sub8  : Bool
  stp   : Bool
  live  : Bool := false
  snap  : List (Nat × Option NbrEntry × Option NbrEntry) := []
  holdAt : Option Int := none
  deriving DecidableEq, Repr

/-- The field or grant of a core. -/
def fieldView (m : Main) (k : Fin 16) : Option FV :=
  (m.cores[k]).fld.map fun f =>
    ⟨gport m f.port, some f.port, some k, f.level, f.code, f.sub8, f.proto == .stp, false, f.snap, some f.holdAt⟩

/-- A field of another device's edge port. -/
def EdgeField.view (f : EdgeField) : FV := ⟨f.gport.val, none, none, f.level, f.code.toNat, f.sub8, !f.iso, false, [], none⟩

/-- F: fields on or granted and awaiting switch close, with those of other devices' edge ports, the ones accepted under CLAIM included
(R126, R539). -/
def fieldsF (m : Main) : List FV :=
  (allFin 16).filterMap (fieldView m) ++ m.lace.edge.map EdgeField.view ++ m.lace.holding.map fun x => EdgeField.view x.2

/-- The entry of a port that names a neighbour (R124). -/
def nbrOf (m : Main) (p : Fin 128) (g : Nat) : Option NbrEntry := (m.ports[p]).nbr.find? fun e => e.gport == g && e.gport != 0xFFFF

/-- The figures from one port to another as written now: the port's own entry, or the other's where only that is held (R124). -/
def written (m : Main) (a b : FV) : Option NbrEntry :=
  (a.loc.bind fun p => nbrOf m p b.g).or (b.loc.bind fun q => nbrOf m q a.g)

/-- The figures held for a pair by the other field's global port. -/
def snapOf (g : Nat) (l : List (Nat × Option NbrEntry × Option NbrEntry)) : Option (Option NbrEntry × Option NbrEntry) :=
  (l.find? fun x => x.1 == g).map (·.2)

/-- The figures from one field's port to another's: those of the grant that brought the pair together, or, where one of the two is not
yet granted, those written now (R124, R125). -/
def figure (m : Main) (a b : FV) : Option NbrEntry :=
  if a.live || b.live then written m a b
  else match snapOf b.g a.snap, snapOf a.g b.snap with
    | some x, _ => x.2
    | none, some y => y.1
    | none, none => written m a b

/-- The greater coupling of a pair as −|k| in 0.5 dB; `none` when uncoupled (R122, R124). -/
def kAtt (m : Main) (a b : FV) : Option Nat :=
  match figure m a b, figure m b a with
  | some x, some y => some (min x.kAtt y.kAtt)
  | some x, none => some x.kAtt
  | none, some y => some y.kAtt
  | none, none => none

/-- Whether |k| of a pair is at or above a threshold in 0.1 dB (R122). -/
def kAtLeast (m : Main) (a b : FV) (thr : Int) : Bool :=
  match kAtt m a b with
  | some k => decide (thr ≤ -5 * (k : Int))
  | none => false

def coupled (m : Main) (a b : FV) : Bool := (kAtt m a b).isSome

/-- Whether a field must be in a gap before another changes: |k| at or above [2300:04] as it stood at the changing field's grant, or as it
stands for a field that is not of this device or not yet granted (R133, R141). -/
def gapsFor (m : Main) (q v : FV) : Bool := kAtLeast m q v (v.holdAt.getD (cfgI m 16 0x2300 0x04))

/-- The figures of a new field's pairs are those written now, and older ones of its port are dropped (R125). -/
def latchPairs (m : Main) (v : FV) : Main :=
  forEach (allFin 16) m fun m j =>
    match fieldView m j with
    | some q =>
      if q.g = v.g then m
      else modCore m j fun c =>
        { c with fld := c.fld.map fun f => { f with snap := (v.g, written m v q, written m q v) :: f.snap.filter fun x => x.1 != v.g } }
    | none => m

/-- Whether an entry of the pair is `STALE` (R124, R127). -/
def stalePair (m : Main) (a b : FV) : Bool :=
  (figure m a b).any (·.stale) || (figure m b a).any (·.stale)

/-- The contribution of one field to the leak at another (R129). -/
def leakTerm (m : Main) (p q : FV) : Cpx :=
  match figure m p q with
  | none => ⟨0, 0⟩
  | some e =>
    let mag : Int := amp80 (p.level - q.level - 2 * (e.aAtt : Int))
    let z := cis1024 ((e.aArg : Int) + p.code - q.code)
    ⟨mag * z.re / (fx : Int), mag * z.im / (fx : Int)⟩

/-- S_q, the predicted leak at the receiver of a field's port (R129). -/
def leakAt (m : Main) (F : List FV) (q : FV) : Cpx :=
  F.foldl (fun s p => if p.g = q.g then s else s.add (leakTerm m p q)) ⟨0, 0⟩

/-- J, the cost of a set of fields (R129). -/
def leakCost (m : Main) (F : List FV) : Nat := (F.map fun q => (leakAt m F q).norm).sum

/-- Σ |Re S_q| over the receivers of a set (R130), to six places fewer than the arithmetic carries (log 13). -/
def leakReal (m : Main) (F : List FV) : Nat := (F.map fun q => (leakAt m F q).re.natAbs).sum / 1000000

/-- Whether the leak at any receiver of a set exceeds [2300:07] (R126, R127). -/
def leakExceeds (m : Main) (F : List FV) : Bool :=
  F.any fun q => decide (pow100 (cfgI m 16 0x2300 0x07) < (leakAt m F q).norm)

/-- R130's comparison: lower J; within 0.1 dB of J, lower Re; then the lower code, which comes first. -/
def phaseBetter (j re bj bre : Nat) : Bool :=
  if j * ten100 < bj * fx then true
  else if bj * ten100 < j * fx then false
  else decide (re < bre)

/-- The drive phase code of a new field (R130): 64 coarse steps; 0 when [2300:08] is 0 or no field of F is coupled. -/
def choosePhase (m : Main) (F : List FV) (q : FV) : Nat :=
  if cfgN m 0x2300 0x08 = 0 || !F.any (fun p => coupled m p q) then 0
  else
    let near := F
    let at_ (i : Nat) : Nat × Nat :=
      let Fx := near ++ [{ q with code := 16 * (i : Int) }]
      (leakCost m Fx, leakReal m Fx)
    let s0 := at_ 0
    ((List.range 63).foldl (fun (b : Nat × Nat × Nat) i =>
      let s := at_ (i + 1)
      if phaseBetter s.1 s.2 b.1 b.2.1 then (s.1, s.2, i + 1) else b) (s0.1, s0.2, 0)).2.2 * 16

/-- The own-carrier coefficient in force for a port on a core (R144). -/
def ownCoeff (m : Main) (k : Fin 16) (p : Fin 128) : Int × Int :=
  if k = homeCore p then (m.ports[p]).cHome else (m.ports[p]).cAlt

/-- 409.6 × (one part of c × (1 + S)), rounded (R144). `c` is in 1/16 384, S in fixed point. -/
def dacCode (v : Int) : Int := roundDiv (v * 4096) (16384 * 10 * fx)

/-- Code for I or Q within −512 to 511 (R144). -/
def dacLimit (v : Int) : Int := clampI (-512) 511 v

/-- Whether a core's port is inside an exchange (R133): an ARM, its COMMITs and what lies between them are one (R243). -/
def Core.busy (c : Core) : Bool := c.exch != .gap || c.chain

/-- The receive trims as committed; they come into force when the core carries no field (R181). -/
def Core.trimsDue (c : Core) : Int × Int × Int × Int := (c.dcI, c.dcQ, c.iqGain, c.iqPhase)

/-- A core's DACs take new codes and the prediction they stand for (R144, R147). -/
def Core.setDac (c : Core) (d : Int × Int × Int × Int) : Core :=
  { c with dacI := d.1, dacQ := d.2.1, carI := d.2.2.1, carQ := d.2.2.2, dacPend := none }

/-- Load the cancellation DACs of a core with the present prediction: at once in a gap of its port, else when its gap begins
(R131, R145). Limited codes are counted (R146). -/
def loadDac (m : Main) (k : Fin 16) : Main :=
  match fieldView m k, (m.cores[k]).fld with
  | some q, some f =>
    let s := leakAt m (fieldsF m) q
    let c := if f.closed then f.coef else ownCoeff m k f.port
    let re := s.re + (fx : Int)
    let zi := c.1 * re - c.2 * s.im
    let zq := c.1 * s.im + c.2 * re
    let i := dacCode zi
    let qd := dacCode zq
    let m := countN m 0x7050 0x08 (bitN (dacLimit i != i) + bitN (dacLimit qd != qd))
    let d := (dacLimit i, dacLimit qd, roundDiv zi fx, roundDiv zq fx)
    modCore m k fun c => if c.busy then { c with dacPend := some d } else c.setDac d
  | _, _ => m

/-- Load the DACs of every receiver of F whose coupled set a change of field `v` has altered (R131). -/
def loadCoupled (m : Main) (v : FV) : Main :=
  forEach (allFin 16) m fun m k =>
    match fieldView m k with
    | some q => if q.g != v.g && coupled m v q then loadDac m k else m
    | none => m

/-- A deferred load is applied when the gap of its port begins (R145). -/
def applyDac (m : Main) (k : Fin 16) : Main :=
  match (m.cores[k]).dacPend with
  | some d => modCore m k fun c => c.setDac d
  | none => m

/-- Sum of the levels of all fields on or granted, in nW (R117). -/
def levelSum (m : Main) : Nat := ((allFin 16).map fun k => ((m.cores[k]).fld.map fun f => levelNw f.level).getD 0).sum

/-- The energy of the fields on is added to the newest bin (R117). -/
def accrue (m : Main) : Main :=
  let on := ((allFin 16).map fun k => ((m.cores[k]).fld.map fun f => if f.closed then levelNw f.level else 0).getD 0).sum
  let e := on * (m.now - m.sch.binAt)
  let bins := match m.sch.bins with
    | [] => [e]
    | b :: rest => (b + e) :: rest
  { m with sch := { m.sch with bins := bins, binAt := m.now } }

/-- Energy of the last 1 000 bins, the current bin so far included, in nW × SCLK periods (R118). -/
def energyWindow (m : Main) : Nat := (accrue m).sch.bins.sum

/-- The average limit in nW: [1100:20], lowered in a straight line above [1100:24] to 1.0 W at 125.0 °C (R63). -/
def limitNw (m : Main) : Int :=
  let full : Int := (cfgN m 0x1100 0x20 : Int) * 10000000
  let one : Int := 1000000000
  let t0 := cfgI m 16 0x1100 0x24
  if m.pw.tj ≤ t0 then full
  else if 1250 ≤ m.pw.tj then one
  else full - (full - one) * (m.pw.tj - t0) / (1250 - t0)

/-- The governor's answer to a grant of `p` nW: 0 admitted, 1 the sum limit, 2 the average limit (R117, R118). -/
def governor (m : Main) (p : Nat) : Nat :=
  let sum := levelSum m + p
  if 9600000000 < sum then 1
  else if limitNw m * (tickS : Int) < (energyWindow m : Int) + (sum * tickMs : Nat) then 2
  else 0

/-- Whether a port has a neighbour on another device (R539). -/
def edgePort (m : Main) (p : Fin 128) : Bool :=
  m.lace.role != 0 && (m.ports[p]).nbr.any fun e => e.gport < 512 && e.gport / 128 != m.lace.device.val

/-- The payload of FIELD and CLAIM frames (R532; layout log 14). -/
def edgeWords (g : Nat) (isOn : Bool) (code level : Nat) (sub8 iso : Bool) : List Word :=
  [word (place 0 9 g + place 9 1 (bitN isOn) + place 10 1 (bitN sub8) + place 11 1 (bitN iso)), word (place 0 10 code + place 16 8 level)]

/-- The field that such a payload names. -/
def edgeOf (ws : List Word) : EdgeField :=
  let w0 := (nth ws 0 0).toNat
  let w1 := (nth ws 1 0).toNat
  { gport := finOf 512 w0, isOn := bitAt w0 9, code := BitVec.ofNat 10 w1, level := field w1 16 8, sub8 := bitAt w0 10, iso := bitAt w0 11 }

/-- A FIELD frame tells the other devices of a field on, off or changed at an edge port (R532, R539). -/
def sendField (m : Main) (p : Fin 128) (isOn : Bool) (f : FieldRec) : Main :=
  if edgePort m p then laceSend m 0x4 none (edgeWords (gport m p) isOn f.code f.level f.sub8 (f.proto != .stp)) else m

/-- An open session of a port is closed by the loss of its field (R259). -/
def dropSession (m : Main) (p : Fin 128) : Main :=
  if (m.ports[p]).session.isSome then modPort (count m 0x7090 0x07) p fun x => { x with session := none } else m

/-- The state a port takes when its field is off (R112). -/
def Port.rest (x : Port) : Port := if x.state = 1 then { x with state := 0 } else x

/-- A port whose switch opens is parked: joined to its return, or open with its array at code 0 (R99). -/
def Port.park (x : Port) : Port := { x with shorted := x.parkShort, array := if x.parkShort then x.array else 0 }

/-- A port that no allowed core serves becomes UNREACHABLE; one that can be served again returns to IDLE, or to its faulted state with a
retest due (R96, R112; log 15). -/
def reachPort (m : Main) (p : Fin 128) : Main :=
  let x := m.ports[p]
  if (servingCores m p).isEmpty then
    if x.state = 0 || x.state = 2 || x.state = 3 then modPort m p fun x => { x with state := 4, faulted := x.state } else m
  else if x.state = 4 then modPort m p fun x => { x with state := x.faulted, retestDue := x.retestDue || x.faulted != 0, faulted := 0 }
  else m

/-- The service state of every port follows the cores that may serve it (R96, R112). -/
def updateReach (m : Main) : Main := forEach (allFin 128) m reachPort

/-- The ports that a core reaches and that carry no field are parked (R116). -/
def parkReached (m : Main) (k : Fin 16) : Main :=
  forEach (allFin 128) m fun m p =>
    if (homeCore p == k || altCore p == k) && !(allFin 16).any fun j => ((m.cores[j]).fld.map fun f => f.closed && f.port == p) == some true
    then modPort m p Port.park else m

/-- A core enters SELFTEST: its matrix is open and the ports it reaches are parked (R116). -/
def enterSelftest (m : Main) (k : Fin 16) : Main :=
  parkReached (modCore m k fun c => { c with state := 2, disablePend := false, holdoffDone := false, portNow := none }) k

/-- The field of a core goes off, or its grant is withdrawn before the switch closed (R99, R104, R112, R117, R131, R259). The switch opens
then and not at the next grant, and [2100+k:06] reads 0 with no field on (log 43). -/
def endField (m : Main) (k : Fin 16) : Main :=
  match fieldView m k, (m.cores[k]).fld with
  | some v, some f =>
    let m := accrue m
    let m := modCore m k fun c =>
      { c with fld := none, portNow := none, levelNow := 0, drivePhase := 0, applied := 0, pendOff := false, pendChange := none,
               changeHeld := false, changeHold := false, gapHold := false, exch := .gap, chain := false, next := none, noFit := false,
               frame := none, bufHeld := false, blind := false, dacPend := none, gapFrom := .field, since := 0,
               fieldTicks := c.fieldTicks + (if f.closed then m.now - f.since else 0), trims := c.trimsDue,
               brnLog := if f.owner == .burnish && f.closed then (f.since, m.now) :: c.brnLog.filter fun x => decide (m.now < x.2 + tickS)
                         else c.brnLog }
    let m := modPort m f.port fun x => if f.closed then x.rest.park else x.rest
    let m := reachPort m f.port
    let m := dropSession m f.port
    let m := if f.closed then sendField m f.port false f else m
    loadCoupled m v
  | _, _ => m

/-- Whether some other port coupled at [2300:04] or more is inside an exchange (R133). -/
def changeBlocked (m : Main) (v : FV) : Bool :=
  (allFin 16).any fun k =>
    match fieldView m k with
    | some q => q.g != v.g && (m.cores[k]).busy && gapsFor m q v
    | none => false

/-- A change of field that must wait is counted once (R133). -/
def holdChange (m : Main) (k : Fin 16) : Main :=
  if (m.cores[k]).changeHeld then m else modCore (count m 0x7040 0x06) k fun c => { c with changeHeld := true }

/-- Whether a port is held for a field claimed by another device (R539). -/
def claimHolds (m : Main) (q : FV) : Bool :=
  (m.lace.claims ++ m.lace.holding).any fun x => gapsFor m q (EdgeField.view x.2)

/-- The change of core `k` is complete: engines that held their next command for it go on (R134). -/
def releaseGaps (m : Main) : Main :=
  forEach (allFin 16) m fun m k =>
    match fieldView m k with
    | some q =>
      if (m.cores[k]).gapHold && !claimHolds m q && !((allFin 16).any fun j =>
          match fieldView m j with
          | some v => j != k && (m.cores[j]).pendChange.isSome && gapsFor m q v
          | none => false)
      then modCore m k fun c => { c with gapHold := false }
      else m
    | none => m

end Sys2Proof.Machine
end

