-- ==== Sys2Proof/Machine/Frames.lean ====
section
/-!
DEFINITION. Machine/Frames.lean: forward frames and their signals: the modulation settings of each protocol (R108, R196, R253), the
settings of an exchange (R154, R171), the frames of the Slot Tag Protocol (R200, R201, R223, R227), and nominal durations (R85, R198,
R205).
-/

namespace Sys2Proof.Machine

/-- Modulation of STP frames (R108, R196). -/
def stpMod (m : Main) : Modulation :=
  { depth := cfgN m 0x2510 0x01, fall := cfgN m 0x2510 0x02, rise := cfgN m 0x2510 0x03, cosine := cfgB m 0x2510 0x04 }

/-- Modulation of ISO/IEC frames under the settings of their stitch (R253): depth 200 stands for 100 %. The shape of the edges is given for
Type B alone, and is linear for the others too (log 22). -/
def isoMod (cfg : Nat → Nat) : Proto → Modulation
  | .typeB => { depth := clampN 18 26 (cfg 0x02), fall := 4, rise := 4, cosine := false }
  | .vicinity => { depth := if cfg 0x10 = 0 then 200 else clampN 22 58 (cfg 0x10), fall := 4, rise := 4, cosine := false, pause := 128 }
  | _ => { depth := 200, fall := cfg 0x0D, rise := 4, cosine := false, pause := cfg 0x0C }

/-- The settings of an exchange that starts now (R108, R153, R154, R171). The counter of exchange times has 28 bits (R151). -/
def exchangeOf (m : Main) (f : TxFrame) : Exchange :=
  let mg := cfgN m 0x2400 0x06
  let w := f.win.getD (543 - mg, 651 + mg, 543, 651)
  { mod := if f.proto == .stp then stpMod m else f.mod, openAt := min (2 ^ 28 - 1) w.1, closeAt := min (2 ^ 28 - 1) w.2.1,
    first := w.2.2.1, last := w.2.2.2, gainMode := cfgN m 0x2400 0x01, gainMax := cfgN m 0x2400 0x02, ratio := cfgN m 0x2400 0x03,
    spread := cfgN m 0x2400 0x04, margin := cfgN m 0x2400 0x05, run := cfgN m 0x2400 0x0B, blank := cfgN m 0x2400 0x08,
    strict := cfgB m 0x2400 0x09 }

/-- Bit period of a rate code on the 106 kbit/s grid, in 1/fc (R197, R204). -/
def bitFc (rate : Nat) : Nat := 128 / 2 ^ rate

/-- Duration of a forward frame in 1/fc, to the end that R151 defines: STP as R198 gives it, the others by the coding of their standards
(log 22). -/
def frameFc (f : TxFrame) : Nat :=
  let n := f.bytes.length
  match f.proto with
  | .stp => (3 + 8 * n) * bitFc f.fwd
  | .typeA => (1 + (if f.bits = 0 then 9 * n else 9 * (n - 1) + f.bits)) * bitFc f.fwd
  | .typeB => (12 + 10 * n + 10) * bitFc f.fwd
  | .vicinity => if n = 0 then 512 else 1024 + n * (if f.fwd = 0 then 4096 else 65536) + 512

/-- Nominal duration of a reply of n bytes on the return link of a frame, in 1/fc (R205; log 22). -/
def replyFc (f : TxFrame) (n : Nat) : Nat :=
  match f.proto with
  | .stp => (8 + 8 * n) * bitFc f.ret
  | .typeA => (2 + 9 * n) * bitFc f.ret
  | .typeB => 1280 + (22 + 10 * n) * bitFc f.ret
  | .vicinity => (8 + 8 * n) * ((if f.dual then 508 else 512) * (if f.high then 1 else 4))

/-- The check of an STP frame, low byte first (R200). -/
def stpCrc (bs : List Byte) : List Byte := leBytes 2 (CrcKind.ccitt.of bs)

/-- An STP forward frame (R201). -/
def stpBytes (tag : Nat) (claim : Bool) (code : Nat) (params : List Byte) : List Byte :=
  let b := byte (place 0 7 tag + place 7 1 (bitN claim)) :: byte code :: params
  b ++ stpCrc b

/-- A command of the engine (R223, R227). -/
inductive StpCmd where
  | seek (q : Nat) (next skip : Bool)
  | single
  | select (handle : Nat)
  | setLink (handle rate : Nat) (sub8 : Bool)
  | read (handle first count : Nat)
  | arm (handle uid rec_ : Nat) (data : List Byte)
  | commit (handle uid token : Nat)
  | quiet (handle : Nat)
  | releaseUid (uid : Nat)
  | releaseAll
  | auth1 (handle key : Nat) (ra : List Byte)
  | auth2 (handle : Nat) (c2 : List Byte)
  deriving DecidableEq, Repr

/-- Code and `PARAMS` of a command (R214, R223, R227). -/
def StpCmd.params : StpCmd → Nat × List Byte
  | .seek q next skip => (0x01, [byte (place 0 4 q + place 4 2 (bitN next) + place 6 1 (bitN skip))])
  | .single => (0x02, [])
  | .select h => (0x03, leBytes 2 h)
  | .setLink h r s => (0x04, leBytes 2 h ++ [byte (place 0 2 r + place 2 1 (bitN s))])
  | .read h f c => (0x05, leBytes 2 h ++ [byte f, byte c])
  | .arm h u r d => (0x06, leBytes 2 h ++ leBytes 4 u ++ [byte r] ++ d)
  | .commit h u t => (0x07, leBytes 2 h ++ leBytes 4 u ++ leBytes 2 t)
  | .quiet h => (0x08, leBytes 2 h)
  | .releaseUid u => (0x09, byte 1 :: leBytes 8 u)
  | .releaseAll => (0x09, [byte 2])
  | .auth1 h k ra => (0x0A, leBytes 2 h ++ [byte (k % 4)] ++ ra)
  | .auth2 h c2 => (0x0B, leBytes 2 h ++ c2)

/-- Bytes of the reply to a command when it succeeds, its check included (R206, R228). -/
def StpCmd.replyLen : StpCmd → Nat
  | .seek _ _ _ => 5
  | .single => 14
  | .select _ => 14
  | .read _ _ c => 3 + 16 * c
  | .arm _ _ _ _ => 6
  | .commit _ _ _ => 6
  | .auth1 _ _ _ => 19
  | _ => 3

/-- A command that draws no reply: the broadcast SET_LINK and RELEASE of every fob (R214, R223). -/
def StpCmd.silent : StpCmd → Bool
  | .setLink h _ _ => h == 0xFFFF
  | .releaseAll => true
  | _ => false

/-- Whether a command goes to a fob that holds a handle, within its window (R208). -/
def StpCmd.timed : StpCmd → Bool
  | .seek _ _ _ => false
  | .single => false
  | .setLink h _ _ => h != 0xFFFF
  | .releaseAll => false
  | _ => true

def StpCmd.chain : StpCmd → ChainPart
  | .arm _ _ _ _ => .arm
  | .commit _ _ _ => .commit
  | _ => .none

/-- Nominal duration of an exchange: the frame, the delay of R207 and the reply. -/
def exchangeFc (f : TxFrame) (reply : Nat) : Nat := frameFc f + (if f.silent then 0 else 597 + replyFc f reply)

end Sys2Proof.Machine
end

