-- ==== Sys2Proof/Machine/Demod.lean ====
section
/-!
DEFINITION. Machine/Demod.lean: what a receiver makes of a reply's signal: bits and characters (R158, R160, R161), collisions (R163), the
spread of the bit amplitudes (R164), the checks (R165), and the measurements of suppression and sideband (R147, R160).
-/

namespace Sys2Proof.Machine

/-- The square of an amplitude in I and Q. -/
def mag2 (z : Int × Int) : Nat := (z.1 * z.1 + z.2 * z.2).toNat

/-- The signal axis and reference phase: bit periods 3 to 8 of the preamble or leading subcarrier, added up (R160). -/
def axisOf (lead : List (Int × Int)) : Int × Int := (lead.drop 2 |>.take 6).foldl (fun a z => (a.1 + z.1, a.2 + z.2)) (0, 0)

/-- A bit's amplitude projected onto the axis, times the axis's length: positive at the reference phase (R160). -/
def projected (axis z : Int × Int) : Int := axis.1 * z.1 + axis.2 * z.2

/-- How the decoding of a reply ended (R161, R163). -/
inductive SeenEnd where
  | whole | coding | collided
  deriving DecidableEq, Repr

/-- A reply decoded to bits: the bits up to a coding error or the first collided bit, the projected amplitudes, the axis (none on links
that need no axis), and the mean square of the subcarrier amplitude (R160). -/
structure Seen where
  bits : List Bool := []
  stop : SeenEnd := .whole
  amps : List Nat := []
  axis : Option (Int × Int) := none
  iq   : List (Int × Int) := []
  pow  : Nat := 0
  deriving DecidableEq, Repr

/-- Bit periods of a BPSK link (R160, R205): a bit is 1 at the phase opposite to the reference. -/
def seenPhase (bits : List (Int × Int)) : Seen :=
  let axis := axisOf (bits.take 8)
  let data := bits.drop 8
  { bits := data.map fun z => decide (projected axis z < 0), amps := data.map fun z => (projected axis z).natAbs, axis := some axis, iq := data,
    pow := mag2 axis / 36 }

/-- The characters of a Type B reply: start bit 0, eight bits, stop bit 1 (R158, R161). -/
def seenChars (axis : Int × Int) : List (List (Int × Int)) → Seen
  | [] => { axis := some axis, pow := mag2 axis / 36 }
  | c :: rest =>
    let bs := c.map fun z => decide (projected axis z < 0)
    if c.length != 10 || nth bs 0 true || !nth bs 9 false then { axis := some axis, pow := mag2 axis / 36, stop := .coding }
    else
      let s := seenChars axis rest
      { s with bits := (bs.drop 1 |>.take 8) ++ s.bits, amps := (c.map fun z => (projected axis z).natAbs) ++ s.amps, iq := c ++ s.iq }

/-- Half-bits on a Manchester link, as squares of their amplitudes (R161, R163): no subcarrier in either is a coding error, and a bit
collides when the weaker reaches `ratio` % of the stronger. `first` is the value of a bit whose first half is the stronger. -/
def seenHalves (ratio detect2 : Nat) (first : Bool) : List (Nat × Nat) → Seen
  | [] => {}
  | h :: rest =>
    let hi := max h.1 h.2
    let lo := min h.1 h.2
    if hi < detect2 || hi = 0 then { stop := .coding }
    else if ratio * ratio * hi ≤ 10000 * lo then { stop := .collided }
    else
      let s := seenHalves ratio detect2 first rest
      { s with bits := (if h.2 < h.1 then first else !first) :: s.bits, amps := isqrt hi :: s.amps }

/-- A reply's signal decoded as its link asks (R158). On two subcarriers a half-bit is taken as strong as fc/32 in it and fc/28 in the
other half together (log 35). -/
def seenOf (proto : Proto) (ret : Nat) (dual : Bool) (ex : Exchange) (sym : RawSym) : Seen :=
  let withPow (s : Seen) (ps : List Nat) : Seen := { s with pow := if ps.isEmpty then 0 else ps.sum / ps.length }
  match sym with
  | .phase bits => if proto == .stp || (proto == .typeA && ret != 0) then seenPhase bits else { stop := .coding }
  | .chars lead cs => if proto == .typeB then seenChars (axisOf lead) cs else { stop := .coding }
  | .halves hs =>
    let ps := hs.map fun h => (mag2 h.1, mag2 h.2)
    if (proto == .typeA && ret == 0) || (proto == .vicinity && !dual) then
      withPow (seenHalves ex.ratio ex.detect2 (proto == .typeA) ps) (ps.map fun h => max h.1 h.2)
    else { stop := .coding }
  | .tones ts =>
    let ps := ts.map fun h => ((h.1.1 + h.2.2) * (h.1.1 + h.2.2), (h.1.2 + h.2.1) * (h.1.2 + h.2.1))
    if proto == .vicinity && dual then withPow (seenHalves ex.ratio ex.detect2 false ps) (ps.map fun h => max h.1 h.2)
    else { stop := .coding }

/-- Bits without the parity bit after each byte of a Type A reply, and whether every parity is odd (R165). `first` is the length of the
first group: less than 8 where the reply completes a byte begun by the reader, whose parity says nothing (log 22). -/
def splitParity (first : Nat) : Nat → List Bool → List Bool × Bool
  | 0, _ => ([], true)
  | n + 1, bits =>
    if bits.isEmpty then ([], true)
    else
      let g := bits.take first
      let odd := decide (g.length < 8) || (bits.drop first).isEmpty || decide (((g ++ (bits.drop first).take 1).countP id) % 2 = 1)
      let r := splitParity 8 n (bits.drop (first + 1))
      (g ++ r.1, odd && r.2)

/-- Bytes from bits, least significant first (R200). -/
def bitsBytes (bits : List Bool) : List Byte :=
  (List.range ((bits.length + 7) / 8)).map fun i =>
    byte (((bits.drop (8 * i)).take 8).foldr (fun b v => bitN b + 2 * v) 0)

/-- Whether the standard deviation of the amplitudes exceeds `pct` % of their mean (R164). -/
def spreadAbove (pct : Nat) (amps : List Nat) : Bool :=
  let s := amps.sum
  let q := (amps.map fun a => a * a).sum
  decide (pct * pct * s * s < 10000 * (amps.length * q - s * s))

/-- The CRC bytes a check takes off the end of a reply (R165). -/
def checkLen : RxCheck → Nat
  | .none => 0 | .parityA => 0 | _ => 2

/-- Whether the CRC of a reply matches; every check is sent low byte first (R165, R200). -/
def checkOk (c : RxCheck) (bs : List Byte) : Bool :=
  let body := bs.take (bs.length - 2)
  let sent := leNat (bs.drop (bs.length - 2))
  match c with
  | .none => true
  | .parityA => true
  | .stp => decide (2 ≤ bs.length) && CrcKind.ccitt.of body == sent
  | .crcA => decide (2 ≤ bs.length) && CrcKind.crcA.of body == sent
  | .crcAParity => decide (2 ≤ bs.length) && CrcKind.crcA.of body == sent
  | .crcB => decide (2 ≤ bs.length) && CrcKind.crcB.of body == sent
  | .v15693 => decide (2 ≤ bs.length) && CrcKind.crcB.of body == sent

def checkParity : RxCheck → Bool
  | .parityA => true | .crcAParity => true | _ => false

/-- The bytes of a decoded reply, and whether its parity fails: a Type A reply carries a parity bit after every byte (R165). -/
def seenBits (f : TxFrame) (s : Seen) : List Bool × Bool :=
  if f.proto == .typeA then
    let r := splitParity (if f.split && f.bits != 0 then 8 - f.bits else 8) (s.bits.length + 1) s.bits
    (r.1, !r.2)
  else (s.bits, false)

/-- A decoded reply judged by the check set for it, and the counters it raises (R161–R165). A partial byte before the 289th is judged
only when the reply is not too long (R162). -/
def judge (f : TxFrame) (ex : Exchange) (s : Seen) : Reply × List (Nat × Nat) :=
  let b := seenBits f s
  let bytes := (bitsBytes b.1).take 288
  let part := if b.1.length ≤ 2304 then b.1.length % 8 else 0
  if 2304 < b.1.length then ({ outcome := .tooLong, data := bytes }, [(0x7050, 0x09)])
  else match s.stop with
    | .coding => ({ outcome := .codingErr, data := bytes, lastbits := part }, [(0x7050, 0x0A)])
    | .collided => ({ outcome := .collision, data := bytes, lastbits := part, collPos := min 0xFFF b.1.length }, [(0x7050, 0x06)])
    | .whole =>
      if f.proto == .stp && part != 0 then ({ outcome := .codingErr, data := bytes, lastbits := part }, [(0x7050, 0x0A)])
      else
        let badPar := checkParity f.check && b.2
        let bad := !checkOk f.check bytes || badPar
        let spread := s.axis.isSome && spreadAbove ex.spread s.amps
        let data := bytes.take (bytes.length - checkLen f.check)
        if bad then
          let cs := (0x7050, 0x01) :: (if badPar then [(0x7050, 0x02)] else [])
          if spread then ({ outcome := .collision, data := data, lastbits := part, parityA := badPar }, cs ++ [(0x7050, 0x06)])
          else ({ outcome := .crcErr, data := data, lastbits := part, parityA := badPar }, cs)
        else ({ outcome := .ok, data := data, lastbits := part, captured := spread }, if spread then [(0x7050, 0x07)] else [])

/-- The greatest n of an interval for which a test holds that fails from some n on, halving the interval `fuel` times. -/
def lastHolding (p : Int → Bool) : Nat → Int → Int → Int
  | 0, lo, _ => lo
  | n + 1, lo, hi => let mid := (lo + hi + 1) / 2; if p mid then lastHolding p n mid hi else lastHolding p n lo (mid - 1)

/-- A ratio of powers in 0.1 dB, rounded to the nearest, within −200.0 to 50.0 dB (R160). -/
def tenthsDb (num den : Nat) : Int :=
  lastHolding (fun n => decide (tenTo 1011579454259898524 200 (2 * n - 1) * den ≤ num * fx)) 12 (-2000) 500

/-- The suppression in whole dB, 0 to 254 (R147): the predicted carrier against the DC level left at the ADC, cut to whole dB (log 35). -/
def supprDb (car dc : Int × Int) : Nat :=
  if mag2 dc = 0 then 254
  else (lastHolding (fun n => decide (pow100 (10 * n) * mag2 dc ≤ mag2 car * fx)) 8 0 254).toNat

/-- The square of the own carrier's peak amplitude at the port in 0.1 µV, from the level delivered in nW and the port's resistance in
0.1 Ω: V² = 2 P R (R160, R170). -/
def carrier2 (nw r : Nat) : Nat := 20000 * nw * r

/-- The detection level squared: the noise since OPEN raised by the margin in dB (R156). -/
def detect2 (noise margin : Nat) : Nat := noise * noise * pow100 (10 * (margin : Int)) / fx

/-- The octant of a signal axis (R177). -/
def octantOf (z : Int × Int) : Nat :=
  if 0 ≤ z.2 then (if 0 ≤ z.1 then (if z.2 < z.1 then 0 else 1) else (if -z.1 < z.2 then 2 else 3))
  else (if z.1 < 0 then (if -z.2 < -z.1 then 4 else 5) else (if z.1 < -z.2 then 6 else 7))

end Sys2Proof.Machine
end

