-- ==== Sys2Proof/Machine/EngineOps.lean ====
section
/-!
DEFINITION. Machine/EngineOps.lean: descriptors (R269–R273), deadlines (R292, R293), the results of stitches (R274–R277) and
their way into the result queue, or over the lace to the device that sent the descriptor (R280, R542).
-/

namespace Sys2Proof.Machine

def Job.opcode (j : Job) : Nat := field j.w0.toNat 0 4
def Job.proto (j : Job) : Nat := field j.w0.toNat 4 3
def Job.port (j : Job) : Fin 128 := ⟨field j.w0.toNat 8 7, Nat.mod_lt _ (by decide)⟩
def Job.dev (j : Job) : Nat := field j.w0.toNat 15 2
def Job.rqueue (j : Job) : Fin 32 := ⟨field j.w0.toNat 17 5, Nat.mod_lt _ (by decide)⟩
def Job.dlForm (j : Job) : Nat := field j.w0.toNat 22 2
def Job.close (j : Job) : Bool := bitAt j.w0.toNat 24
def Job.appendCrc (j : Job) : Bool := bitAt j.w0.toNat 25
def Job.req (j : Job) : Bool := bitAt j.w0.toNat 26
def Job.authFirst (j : Job) : Bool := bitAt j.w0.toNat 27
def Job.quietAfter (j : Job) : Bool := bitAt j.w0.toNat 28
def Job.noNegotiate (j : Job) : Bool := bitAt j.w0.toNat 29
def Job.tag (j : Job) : Nat := field j.w2.toNat 0 16
def Job.byteA (j : Job) : Nat := field j.w2.toNat 16 8
def Job.byteB (j : Job) : Nat := field j.w2.toNat 24 8

/-- The UID of words 3 and 4 (R271). -/
def Job.uid (j : Job) : Nat := j.w3.toNat + j.w4.toNat * 2 ^ 32

/-- Protocol codes 0 to 3 (R257). -/
def protoOf (v : Nat) : Proto := match v with | 0 => .stp | 1 => .typeA | 2 => .typeB | _ => .vicinity

/-- The protocol as a kind of session (R257); codes 4–7 never pass R279. -/
def Job.kind (j : Job) : Proto := protoOf j.proto

/-- Whether a descriptor's deadline has passed (R292, R293). -/
def deadlinePassed (m : Main) (j : Job) : Bool :=
  match j.dlForm with
  | 1 => decide (0 ≤ toSigned 32 (fromSigned 32 ((extPhase m : Int) - j.w1.toNat)))
  | 2 => decide (j.closedAt + j.w1.toNat * tickUs ≤ m.now)
  | _ => false

/-- The words of a result (R274). -/
def resultWords (m : Main) (j : Job) (engine ctx : Nat) (core : Option (Fin 16)) (status detail runUs : Nat) (part : Bool)
    (body : List Word) : List Word :=
  [word (place 0 8 status + place 8 4 j.opcode + place 12 3 j.proto + place 16 7 j.port.val + place 23 2 j.dev +
      place 25 5 engine + place 30 1 ctx + place 31 1 (bitN part)),
   word (j.tag + place 16 8 detail + place 24 4 ((core.map (·.val)).getD 0) + place 28 1 (bitN core.isSome)),
   word (phaseNow m + place 16 16 m.ph.cycle), word runUs] ++ body

/-- Results `DEADLINE_MISSED` and `ABORTED` are counted (R298). -/
def countStatus (m : Main) (status : Nat) : Main :=
  countIf (status == 0x0A) (countIf (status == 7) m 0x70A0 0x03) 0x70A0 0x04

/-- Where a result goes: the queue named, or Q23 with the header word of a RESULT frame (R280, R542; log 14). -/
def resultOut (m : Main) (j : Job) (ws : List Word) : Fin 32 × List Word :=
  if j.origin.val = laceDev m then (j.rqueue, ws) else (23, word (laceHead m 0x9 (some j.origin) ws) :: ws)

/-- Payload cells detached from a job queue return when the result is closed (R337). -/
def freePayload (m : Main) (q : Fin 32) (cells : Nat) : Main := modQ m q fun x => { x with detached := x.detached - cells }

/-- The result packet of a context has closed: the claim record is released and the context is idle (R267, R286). -/
def closeResult (m : Main) (e : Fin 24) (c : Fin 2) : Main :=
  let m := match (ctxOf m e c).job with
    | some j => freePayload m j.queue j.cells
    | none => m
  modEng (count m 0x70A0 0x02) e fun g => { g.setCtx c {} with done := sat32 (g.done + 1) }

/-- A context enters RESULT and writes its result, or stalls (R267, R338). -/
def writeResult (m : Main) (e : Fin 24) (c : Fin 2) (status detail : Nat) (part : Bool) (body : List Word) : Main :=
  match (ctxOf m e c).job with
  | none => modCtx m e c fun _ => {}
  | some j =>
    let x := ctxOf m e c
    let run := if x.started then (x.lastAt - x.startAt) / tickUs else 0
    let ws := resultWords m j e.val c.val (if x.started then x.core else none) status detail run part body
    let o := resultOut m j ws
    let r := stallPkt (countStatus m status) o.1 0x21 (0x40 + e.val) o.2
    match r.2 with
    | none => closeResult r.1 e c
    | some s =>
      modCtx (count r.1 0x70A0 0x07) e c fun x => { x with st := .result, out := s.2, outPkt := s.1, stalled := true }

/-- A result that the dispatcher writes, with `SOURCE` 0x3F (R274, R279, R288). -/
def dispResult (m : Main) (j : Job) (engine ctx : Nat) (core : Option (Fin 16)) (status detail : Nat) : Main :=
  let ws := resultWords m j engine ctx core status detail 0 false []
  let o := resultOut m j ws
  let r := stallPkt (countStatus m status) o.1 0x21 0x3F o.2
  match r.2 with
  | none => freePayload r.1 j.queue j.cells
  | some s => { r.1 with disp := { r.1.disp with stalled := r.1.disp.stalled ++ [⟨o.1, s.2, s.1, j.queue, j.cells⟩] } }

/-- A fob record (R276). -/
def fobRecord (uid caps rssi margin bind : Nat) (notQuiet : Bool) : List Word :=
  [word uid, word (uid / 2 ^ 32),
   word (place 0 8 caps + place 8 8 rssi + place 16 8 margin + place 24 2 bind + place 26 1 (bitN notQuiet))]

def Progress.record (p : Progress) : List Word := fobRecord p.uid p.caps p.rssi p.margin p.bind p.notQuiet

/-- What a stitch that ends short delivers (R276, R277). -/
def Progress.body (p : Progress) (op : Nat) : List Word :=
  if op = 0 then (if p.fobs.isEmpty then [] else word p.fobs.length :: p.fobs.flatten)
  else if op = 3 then (if p.acquired then p.record ++ p.writes else [])
  else if op = 1 || op = 2 then (if p.acquired then p.record ++ p.recs else [])
  else if op = 4 || op = 6 then (if p.acquired then p.record else [])
  else if op = 11 then p.writes
  else p.recs

/-- A started or waiting stitch is ended `ABORTED` by its engine: with what it has completed (R267, R277). -/
def abortCtx (m : Main) (e : Fin 24) (c : Fin 2) (detail : Nat) : Main :=
  let x := ctxOf m e c
  match x.job with
  | none => m
  | some j =>
    let body := if x.started then x.sc.prog.body j.opcode else []
    writeResult m e c 0x0A detail (!body.isEmpty) body

/-- All contexts, in engine order. -/
def allCtx : List (Fin 24 × Fin 2) := (allFin 24).flatMap fun e => [(e, 0), (e, 1)]

/-- Whether any context satisfies a test. -/
def anyCtx (m : Main) (f : Ctx → Bool) : Bool := allCtx.any fun x => f (ctxOf m x.1 x.2)

/-- Whether stitches are started and not ended (R40). -/
def startedLeft (m : Main) : Bool := anyCtx m fun x => x.st == .run || x.st == .pause

/-- The requests of an owner are withdrawn. -/
def withdraw (m : Main) (w : Owner) : Main := { m with sch := { m.sch with reqs := m.sch.reqs.filter fun r => r.owner != w } }

/-- Serving engines: IN_SERVICE or PROBATION (R279). -/
def engServing (m : Main) (e : Fin 24) : Bool := (m.engs[e]).state == 0 || (m.engs[e]).state == 3

/-- The next serving engine after the last one dealt to whose deque is shorter than a length (R279). -/
def nextEngine (m : Main) (depth : Nat) : Option (Fin 24) :=
  ((List.range 24).map fun i => finOf 24 (m.disp.rr + i)).find? fun e => engServing m e && decide ((m.engs[e]).deque.length < depth)

end Sys2Proof.Machine
end

