-- ==== Sys2Proof/Machine/SurveyOps.lean ====
section
/-!
DEFINITION. Machine/SurveyOps.lean: the port records and pass records of the survey sequencer (R305–R309).
-/

namespace Sys2Proof.Machine

/-- A survey setting as the present pass holds it (R322). -/
def svN (m : Main) (sub : Nat) : Nat := (mapGet (ekey 0x3200 sub) m.sv.cfg).getD (entryDefault 0x3200 sub)

/-- What a visit found: its status, the fobs with the records read, the value recorded in [3280+p:01], the core used. -/
structure VisitOut where
  status : Nat
  fobs   : List (List Word) := []
  value  : Nat := 0
  core   : Option (Fin 16) := none
  seeked : Bool := false
  part   : Bool := false
  deriving DecidableEq, Repr

/-- Statuses whose change is an event (R305). -/
def statusEvent (s : Nat) : Bool := s == 8 || s == 3 || s == 2 || s == 6

/-- The event of a visit: 0 none, 1 ARRIVED, 2 DEPARTED, 3 CHANGED, 4 STATUS (R305). -/
def surveyEvent (m : Main) (x : Port) (v : VisitOut) : Nat :=
  let n := v.fobs.length
  if x.svStatus != v.status && (statusEvent x.svStatus || statusEvent v.status) then 4
  else if n != 0 && x.svFobs == 0 then 1
  else if n != 0 && (n != x.svFobs || v.value != x.lastUid) then 3
  else if n == 0 && v.status == 1 && x.svFobs != 0 && decide (svN m 0x06 ≤ x.svMisses + 1) then 2
  else 0

/-- What a port remembers of a visit (R305). -/
def Port.surveyed (x : Port) (v : VisitOut) (event : Nat) : Port :=
  let n := v.fobs.length
  let x := { x with svStatus := v.status }
  if n != 0 then { x with lastUid := v.value, svFobs := min 255 n, svMisses := 0 }
  else if v.status == 1 && x.svFobs != 0 then
    let x := { x with svMisses := min 255 (x.svMisses + 1) }
    if event = 2 then { x with lastUid := 0, svFobs := 0 } else x
  else x

/-- The words of a port record (R306). -/
def portRecord (m : Main) (p : Fin 128) (v : VisitOut) (event misses uid : Nat) (seekPort : Bool) : List Word :=
  [word (place 0 8 v.status + place 8 7 p.val + place 15 2 (laceDev m) + place 17 3 event + place 20 4 ((v.core.map (·.val)).getD 0) +
      place 24 1 (bitN v.core.isSome) + place 25 1 (bitN v.seeked) + place 26 1 (bitN v.part)),
   word (place 0 16 (m.sv.count + 1) + place 16 8 (min 255 v.fobs.length) + place 24 8 misses),
   word (phaseNow m + place 16 16 m.ph.cycle)] ++
  (if event = 2 then (if seekPort then [] else fobRecord uid 0 0 0xFF 0 false) else v.fobs.flatten)

/-- A lane writes a record to Q8, or stalls with it (R308). -/
def laneOut (m : Main) (k : Fin 16) (ws : List Word) : Main :=
  if (m.sv.lanes[k]).stalled then modLane m k fun l => { l with waiting := l.waiting ++ [ws] }
  else
    let r := stallPkt m 8 0x22 (0x20 + k.val) ws
    match r.2 with
    | none => r.1
    | some s =>
      modLane (count { r.1 with sv := { r.1.sv with sawStall := true } } 0x70B0 0x07) k fun l =>
        { l with stalled := true, outPkt := s.1, waiting := [s.2] }

/-- A lane reports a port: it compares the visit with what is recorded, counts the event and writes the record that
[3200:05] asks for (R305, R306). -/
def reportPort (m : Main) (k : Fin 16) (p : Fin 128) (v : VisitOut) : Main :=
  let x := m.ports[p]
  let ev := surveyEvent m x v
  let m := countIf (ev == 1) m 0x70B0 0x03
  let m := countIf (ev == 2) m 0x70B0 0x04
  let m := countIf (ev == 3) m 0x70B0 0x05
  let y := x.surveyed v ev
  let m := modPort m p fun _ => y
  if ev != 0 || svN m 0x05 == 0 then
    laneOut { m with sv := { m.sv with events := m.sv.events + bitN (ev != 0) } } k
      (portRecord m p v ev y.svMisses x.lastUid (bitAt (svN m 0x0A) p.val))
  else m

/-- The UID of a fob record. -/
def recordUid (r : List Word) : Nat := (nth r 0 0).toNat + (nth r 1 0).toNat * 2 ^ 32

/-- The value recorded for a visit (R305): one fob's UID, or the CRC-32C of the UIDs in ascending order. -/
def visitValue (seekPort : Bool) (fobs : List (List Word)) : Nat :=
  let us := sortBy (fun a b => decide (a ≤ b)) (fobs.map recordUid)
  match us with
  | [] => 0
  | [u] => if seekPort then CrcKind.crc32c.of (leBytes 8 u) else u
  | us => CrcKind.crc32c.of (us.flatMap (leBytes 8))

/-- What a visit found (R301, R305, R306): a run that ended well, but for a check that failed in its last exchange, is `CRC_FAIL`. -/
def visitOut (m : Main) (k : Fin 16) (seekPort : Bool) (status : Nat) (p : Progress) : VisitOut :=
  let heads := if p.seeked then p.fobs else if p.acquired then [p.record] else []
  let status := if status != 0 then status else if p.badEnd then 3 else if heads.isEmpty then 1 else 0
  { status := status, fobs := if p.seeked || !p.acquired then heads else [p.record ++ p.recs], value := visitValue seekPort heads,
    core := some k, seeked := p.seeked, part := !p.seeked && p.acquired && decide (p.recs.length < 4 * svN m 0x08) }

/-- The visit that has ended on a lane is reported, its field being off (R301, R305, R308). -/
def reportVisit (m : Main) (k : Fin 16) : Main :=
  let l := m.sv.lanes[k]
  match l.ended with
  | some (p, status) =>
    let v := visitOut m k (bitAt (svN m 0x0A) p.val) status l.sc.prog
    let m := modLane m k fun l => { l with ended := none, sc := {} }
    reportPort (modSv m fun x => { x with withFob := x.withFob + bitN (!v.fobs.isEmpty), offAt := m.now }) k p v
  | none => m

/-- A port that is not visited is reported with `PORT_FAULT` (R300). -/
def reportFault (m : Main) (k : Fin 16) (p : Fin 128) : Main := reportPort m k p { status := 8 }

/-- The words of a pass record (R307). -/
def passRecord (m : Main) (incomplete : Bool) : List Word :=
  let map := (m.sv.visited.map fun p => 2 ^ p.val).sum
  let us := (m.sv.offAt - m.sv.firstAt.getD m.sv.offAt) / tickUs
  [word (m.sv.count + 1),
   word (place 0 8 m.sv.visited.length + place 8 8 m.sv.withFob + place 16 8 (min 255 m.sv.events) + place 24 1 (bitN incomplete) +
      place 25 1 (bitN m.sv.sawFree) + place 26 1 (bitN m.sv.sawStall)),
   word us, word (phaseNow m + place 16 16 m.ph.cycle)] ++
  (List.range 4).map fun i => word (map / 2 ^ (32 * i))

/-- The pass ends: its record goes to Q8 and it is counted (R307, R309). -/
def endPass (m : Main) (incomplete : Bool) : Main :=
  let ws := passRecord m incomplete
  let m := countIf incomplete (count m 0x70B0 0x01) 0x70B0 0x02
  let m := modSv m fun v =>
    { v with running := false, count := sat32 (v.count + 1), lastUs := (v.offAt - v.firstAt.getD v.offAt) / tickUs % 2 ^ 32,
             sinceEntry := v.sinceEntry + 1 }
  let r := stallPkt m 8 0x23 0x30 ws
  { r.1 with sv := { r.1.sv with recOut := r.2 } }

/-- A lane of a port: of its home core when that serves and is allowed, else of its alternate core (R300). -/
def laneOf (m : Main) (p : Fin 128) : Option (Fin 16) := (servingCores m p).head?

end Sys2Proof.Machine
end

