-- ==== Sys2Proof/Machine/SchedOps.lean ====
section
/-!
DEFINITION. Machine/SchedOps.lean: the field scheduler: requests, their evaluation against plan, pairing, subcarrier, phase,
leak and governor (R126–R130, R137), the commit of a grant, and what becomes of a field when its stitch ends, pauses or is
handed over (R267, R290, R291).
-/

namespace Sys2Proof.Machine

/-- The job of an owner that is a context. -/
def ownerJob (m : Main) : Owner → Option Job
  | .ctx e c => (ctxOf m e c).job
  | _ => none

/-- The level of a field before the core's limit: the port's, that of a PROBE, of burnish, of a retest (R100, R113, R175,
R273). -/
def ownerLevel (m : Main) (w : Owner) (k : Fin 16) (p : Fin 128) : Nat :=
  match w with
  | .burnish => cfgN m 0x2800 0x10
  | .retest => 28
  | w =>
    match ownerJob m w with
    | some j => if j.opcode = 12 && j.byteA != 0 then min j.byteA (cfgN m (0x2100 + k.val) 0x04) else levelInForce m k p
    | none => levelInForce m k p

/-- Whether a class of activity is granted in the present mode; no new work starts while a transition waits (R31, R38–R41,
R268; log 16). -/
def classOpen (m : Main) (r : Req) : Bool :=
  let settled := m.pw.pendMode.isNone
  m.pw.mode.isMain && (r.paused ||
    (match r.cls with
     | 1 => settled && m.pw.mode == .survey
     | 2 => (m.pw.mode == .transact || m.pw.mode == .emulate) && (settled || m.pw.pendMode == some .transact || m.pw.pendMode == some .emulate)
     | _ => settled))

/-- The cores that serve a request's port and start something new on it: all that serve for a stitch that was paused, else those whose
disable does not wait for the end of a present stitch (R96, R116). -/
def openCores (m : Main) (r : Req) : List (Fin 16) :=
  (servingCores m r.port).filter fun k => r.paused || !(m.cores[k]).disablePend

/-- The cores a request may use, in the order of R126. -/
def coresFor (m : Main) (r : Req) : List (Fin 16) :=
  let l := openCores m r
  match r.pinned with
  | some k => if l.contains k then [k] else []
  | none =>
    match r.owner with
    | .lane k => if l.contains k then [k] else []
    | _ => if cfgN m 0x2300 0x0D = 0 && (servingCores m r.port).contains (homeCore r.port) then l.filter (· == homeCore r.port) else l

/-- A request counted once for a cause (R127). -/
def noteCause (mr : Main × Req) (b : Bool) (sub : Nat) : Main × Req :=
  if b && !mr.2.counted.contains sub then (count mr.1 0x7040 sub, { mr.2 with counted := sub :: mr.2.counted }) else mr

/-- The field a request would become. -/
def Req.view (m : Main) (r : Req) (k : Fin 16) : FV :=
  ⟨gport m r.port, some r.port, some k, ownerLevel m r.owner k r.port, 0, bitAt r.port.val 3, r.proto == .stp, true, [], none⟩

def portWritten (m : Main) (v : FV) : Bool :=
  match v.loc with
  | some p => (m.ports[p]).nbrWritten
  | none => true

def poorPort (m : Main) (v : FV) : Bool :=
  match v.loc with
  | some p => (m.ports[p]).flags.toNat.testBit 7
  | none => false

/-- Pair coupling: [2300:03], [2300:01], neighbour entries not yet written, a shared port tag on two devices (R125, R127,
R540). -/
def pairClose (m : Main) (v f : FV) : Bool :=
  !portWritten m v || !portWritten m f || kAtLeast m v f (cfgI m 16 0x2300 0x03) ||
  (!cfgB m 0x2300 0x01 && coupled m v f) || (coupled m v f && v.loc.isSome != f.loc.isSome && v.g % 128 == f.g % 128)

/-- ISO/IEC separation (R127, R140). -/
def pairIso (m : Main) (v f : FV) : Bool := (!v.stp || !f.stp) && kAtLeast m v f (cfgI m 16 0x2300 0x05)

/-- A stale pair, but for the pairs that a burnish request remeasures (R127, R187). -/
def pairStale (m : Main) (exempt : List Nat) (v f : FV) : Bool := stalePair m v f && !exempt.contains f.g

/-- POOR ports alone (R191), and followers not yet aligned (R537). -/
def pairOther (m : Main) (v f : FV) : Bool :=
  (cfgB m 0x2800 0x09 && coupled m v f && (poorPort m v || poorPort m f)) ||
  (m.lace.role == 2 && !m.lace.aligned && v.loc.isSome != f.loc.isSome && coupled m v f)

/-- Whether pairing refuses a field beside another, the subcarrier apart (R127). -/
def pairRefused (m : Main) (exempt : List Nat) (v f : FV) : Bool :=
  pairClose m v f || pairIso m v f || pairStale m exempt v f || pairOther m v f

/-- The subcarrier a port would keep: that of its cached link, else of its port tag (R137, R219). -/
def cachedSub8 (m : Main) (p : Fin 128) : Bool :=
  let c := (m.ports[p]).linkCache.toNat
  if bitAt c 4 then bitAt c 2 else bitAt p.val 3

/-- The subcarrier of a grant, or none (R137). -/
def chooseSub (m : Main) (F : List FV) (v : FV) (p : Fin 128) : Option Bool :=
  if !v.stp then some false
  else
    let near := F.filter fun f => f.stp && kAtLeast m v f (cfgI m 16 0x2300 0x06)
    let pref := cachedSub8 m p
    if !near.any (fun f => f.sub8 == pref) then some pref
    else if !near.any (fun f => f.sub8 == !pref) then some !pref
    else none

/-- The field a request would become beside F, with the subcarrier and the drive phase it would be given (R130, R137). -/
def Req.placed (m : Main) (F : List FV) (r : Req) (k : Fin 16) : FV :=
  let v := r.view m k
  let v := { v with sub8 := (chooseSub m F v r.port).getD v.sub8 }
  { v with code := choosePhase m F v }

/-- Whether the pairing of an older request would refuse a new field: by a row of R127 for the pair, for want of a subcarrier, or by the
leak with both in place (R127, R128). -/
def wouldRefuse (m : Main) (F : List FV) (x : Req) (q v : FV) : Bool :=
  pairRefused m x.stale q v ||
  (q.stp && v.stp && kAtLeast m q v (cfgI m 16 0x2300 0x06) && (chooseSub m (F ++ [v]) q x.port).isNone) ||
  (coupled m q v &&
    let G := F ++ [v]
    let q := { q with sub8 := (chooseSub m G q x.port).getD q.sub8 }
    leakExceeds m (G ++ [{ q with code := choosePhase m G q }]))

/-- Whether a reservation of an earlier request stands against a field of this one: the earlier one's pairing would refuse it, or its
port or core would be taken (R128). -/
def reservedAgainst (m : Main) (r : Req) (k : Fin 16) (v : FV) : Bool :=
  let F := (fieldsF m).filter fun f => f.g != v.g
  let older := m.sch.reqs.takeWhile fun x => x.owner != r.owner
  older.any fun x => x.reserved && (x.port == r.port || (coresFor m x).contains k || wouldRefuse m F x (x.view m k) v)

/-- Unstarted work on a port coupled to a change that has waited too long (R135). -/
def changeHeldAgainst (m : Main) (v : FV) : Bool :=
  (allFin 16).any fun k =>
    match fieldView m k with
    | some f => (m.cores[k]).changeHold && f.g != v.g && gapsFor m v f
    | none => false

/-- Devices that own a neighbour of a port (R539). -/
def edgeOwners (m : Main) (p : Fin 128) : List (Fin 4) :=
  if m.lace.role = 0 then []
  else (allFin 4).filter fun d => d != m.lace.device && (m.ports[p]).nbr.any fun e => e.gport < 512 && e.gport / 128 == d.val

/-- The settings that hold for a stitch or a visit from its start on (R249, R264), with those of the pass for a visit (R322). -/
def startSettings (m : Main) : List (Nat × Nat) :=
  (m.cfg.filter fun x => x.1 / 256 == 0x2500 || x.1 / 256 == 0x2600) ++ m.sv.cfg

/-- A stitch is started, or resumes, on a core (R267, R290). -/
def Ctx.begin (m : Main) (k : Fin 16) (x : Ctx) : Ctx :=
  { x with st := .run, core := some k, lost := false, told := false, started := true, startAt := if x.started then x.startAt else m.now,
           lastAt := if x.started then x.lastAt else m.now, sc := { x.sc with cfg := some (x.sc.cfg.getD (startSettings m)) } }

/-- A grant is committed: the core, its code and subcarrier; a context is in RUN, and started (R17, R126, R267). -/
def commit (m : Main) (r : Req) (k : Fin 16) (code : Nat) (sub8 : Bool) : Main :=
  let v := r.view m k
  let m := countIf (k == altCore r.port && !serving m (homeCore r.port)) m 0x7030 0x0A
  let m := countIf (r.proto == .stp && sub8 != cachedSub8 m r.port) m 0x7040 0x03
  let m := { m with sch := { m.sch with reqs := m.sch.reqs.filter fun x => x.owner != r.owner } }
  let m := if (m.lace.claimed.map (·.1)) = some r.owner then modLace m fun l => { l with claimed := none } else m
  let m := modCore m k fun c =>
    { c with fld := some { owner := r.owner, port := r.port, level := ownerLevel m r.owner k r.port, code := code, sub8 := sub8,
                           proto := r.proto, cls := r.cls, since := m.now, holdAt := cfgI m 16 0x2300 0x04, staleAt := cfgN m 0x2300 0x0B,
                           snap := ((fieldsF m).filter fun f => f.loc.isNone).map fun f => (f.g, written m f v, written m v f) },
             pendChange := some m.now, pendOff := false, changeHeld := false, changeHold := false }
  let m := match r.owner with
    | .ctx e c => modCtx (countIf r.paused m 0x70A0 0x08) e c (Ctx.begin m k)
    | .lane l => modLane m l fun x => { x with lost := false, told := false, sc := { x.sc with cfg := some (x.sc.cfg.getD (startSettings m)) } }
    | _ => m
  loadCoupled (latchPairs m v) v

/-- The claims a grant on an edge port still lacks: `some []` when it may be made, `none` when it may not now (R539, R541). -/
def claimsLeft (m : Main) (r : Req) : Option (List (Fin 4)) :=
  let ds := edgeOwners m r.port
  if ds.any fun d => !laceReach m d.val && decide (d.val < m.lace.device.val) then none
  else
    let need := ds.filter fun d => laceReach m d.val
    if need.isEmpty then some []
    else match m.lace.claimed with
      | some (w, left) =>
        if w = r.owner then (if left.isEmpty then some [] else none)
        else if m.sch.reqs.any fun x => x.owner = w then none
        else some need
      | none => some need

/-- CLAIM frames go out for a request (R539). -/
def sendClaims (m : Main) (r : Req) (ds : List (Fin 4)) (v : FV) (code : Nat) (sub8 : Bool) : Main :=
  let m := modLace m fun l => { l with claimed := some (r.owner, ds) }
  forEach ds m fun m d => laceSend m 0x5 (some d) (edgeWords v.g true code v.level.toNat sub8 (!v.stp))

/-- Replace the request of an owner. -/
def putReq (m : Main) (r : Req) : Main :=
  { m with sch := { m.sch with reqs := m.sch.reqs.map fun x => if x.owner = r.owner then r else x } }

/-- The evaluation of one request against a core that is free and allowed (R126). -/
def evalCore (m : Main) (r : Req) (k : Fin 16) : Main :=
  let F := fieldsF m
  let v := r.view m k
  if reservedAgainst m r k (r.placed m F k) || (!r.paused && changeHeldAgainst m v) then m
  else
    let s := noteCause (noteCause (noteCause (m, r) (F.any (pairClose m v)) 1) (F.any (pairIso m v)) 2)
      (F.any (pairStale m r.stale v)) 5
    let m := putReq s.1 s.2
    let r := s.2
    if F.any (pairRefused m r.stale v) then m
    else match chooseSub m F v r.port with
      | none => let s := noteCause (m, r) true 3; putReq s.1 s.2
      | some sub8 =>
        let v := { v with sub8 := sub8 }
        let code := choosePhase m F v
        let v := { v with code := code }
        if leakExceeds m (F ++ [v]) then let s := noteCause (m, r) true 4; putReq s.1 s.2
        else match governor m (levelNw v.level.toNat) with
          | 1 => putReq (count m 0x7030 0x06) { r with waitBin := true }
          | 2 => putReq (modPw m fun p => { p with governorHolds := sat32 (p.governorHolds + 1), thermalAt := some m.now }) { r with waitBin := true }
          | _ =>
            match claimsLeft m r with
            | none => m
            | some [] => commit m r k code sub8
            | some ds => sendClaims m r ds v code sub8

/-- Time of burnish fields on a core over the last second (R186). -/
def burnishTime (m : Main) (k : Fin 16) : Nat := ((m.cores[k]).brnLog.map fun x => x.2 - max x.1 (m.now - tickS)).sum

/-- Whether the share of incremental burnish leaves room for a request on a core (R186): a field is granted while the share of the last
second is not used up (log 38). -/
def shareLeft (m : Main) (r : Req) (k : Fin 16) : Bool :=
  r.owner != .burnish || m.brn.full == 1 || decide (100 * burnishTime m k < cfgN m 0x2800 0x04 * tickS)

/-- The first free core of a request's cores inside the plan (R83, R126). -/
def freeCore (m : Main) (r : Req) : Option (Fin 16) :=
  (coresFor m r).find? fun k => (m.cores[k]).fld.isNone && planAllows m k r.port r.cls && shareLeft m r k

/-- A request is withdrawn and its stitch ends without a field (R96, R259, R294). -/
def refuseReq (m : Main) (r : Req) (status detail : Nat) : Main :=
  let m := withdraw m r.owner
  match r.owner with
  | .ctx e c => writeResult m e c status detail false []
  | .lane k =>
    let m := modLane m k fun l => { l with todo := l.todo.filter (fun q => q != r.port), sc := {} }
    reportFault m k r.port
  | _ => m

/-- The field of an open session passes to a stitch of its port (R259, R262, R273). -/
def takeSession (m : Main) (r : Req) (e : Fin 24) (c : Fin 2) (k : Fin 16) : Main :=
  let m := withdraw m r.owner
  let m := modCore m k fun x => { x with fld := x.fld.map fun f => { f with owner := r.owner, idle := false } }
  modCtx m e c (Ctx.begin m k)

/-- Whether a stitch may begin on a field that is on: no disable of its port or core waits, no change of field has waited too long beside
it, no reservation stands against it, and no row of R127 holds against a field of F (R112, R116, R127, R128, R132, R135). -/
def mayFollow (m : Main) (r : Req) (k : Fin 16) : Bool :=
  match fieldView m k with
  | none => false
  | some v =>
    let w := { v with live := true }
    let F := (fieldsF m).filter fun f => f.g != v.g
    !(m.ports[r.port]).disablePend && !(m.cores[k]).disablePend && !changeHeldAgainst m w && !reservedAgainst m r k w &&
    !F.any (fun f => pairRefused m r.stale w f || (w.stp && f.stp && kAtLeast m w f (cfgI m 16 0x2300 0x06) && f.sub8 == w.sub8)) &&
    !leakExceeds m (F ++ [w])

/-- The stitch of a request that meets an open session, or needs one (R259, R291). `none`: no session matters. -/
def sessionCase (m : Main) (r : Req) : Option Main :=
  match r.owner with
  | .ctx e c =>
    match (ctxOf m e c).job with
    | none => none
    | some j =>
      match (m.ports[r.port]).session with
      | none => if j.opcode = 8 then some (refuseReq m r 1 0) else none
      | some s =>
        if s.proto != j.kind then some (refuseReq m r 0x0B 0)
        else if j.opcode = 8 || j.opcode = 13 then
          some (if ((m.cores[s.core]).fld.map (·.idle)) = some true && !s.closing && classOpen m r && mayFollow m r s.core then takeSession m r e c s.core
                else m)
        else some m
  | _ => if (m.ports[r.port]).session.isSome then some m else none

/-- A request whose owner no longer waits for it. -/
def reqDead (m : Main) (r : Req) : Bool :=
  match r.owner with
  | .ctx e c => let s := (ctxOf m e c).st; s != .wait && s != .pause
  | .lane k => !((m.sv.lanes[k]).todo.contains r.port)
  | _ => false

/-- One request is evaluated (R126). -/
def evalReq (m : Main) (r : Req) : Main :=
  let st := (m.ports[r.port]).state
  if reqDead m r then withdraw m r.owner
  else if !r.paused && ((ownerJob m r.owner).map (deadlinePassed m)) = some true then refuseReq m r 7 3
  else if (r.owner == .burnish && decide (2 ≤ st)) || (r.owner == .retest && decide (4 ≤ st)) then withdraw m r.owner
  else if r.owner != .retest && decide (2 ≤ st) then refuseReq m r 8 st
  else if !m.pw.mode.isMain || m.sch.state == 1 || m.pw.vtxHold then m
  else match sessionCase m r with
    | some m => m
    | none =>
      if !classOpen m r || r.waitBin || (!r.paused && (m.ports[r.port]).disablePend) || (allFin 16).any (fun k => ((m.cores[k]).fld.map (·.port)) == some r.port) then m
      else match freeCore m r with
        | some k => evalCore m r k
        | none => m

/-- The scheduler evaluates its requests: pinned ones of paused stitches first, then by age (R126, R290). -/
@[irreducible] def evaluate (m : Main) : Main :=
  let ws := (m.sch.reqs.filter (·.paused)).map (·.owner) ++ (m.sch.reqs.filter fun r => !r.paused).map (·.owner)
  forEach ws m fun m w =>
    match m.sch.reqs.find? fun r => r.owner = w with
    | some r => evalReq m r
    | none => m

/-- A request arrives; an owner has one at a time. -/
def addReq (m : Main) (r : Req) : Main :=
  if m.sch.reqs.any fun x => x.owner = r.owner then m
  else
    let m := match r.owner with
      | .lane _ => modSv m fun v => { v with firstAt := some (v.firstAt.getD m.now) }
      | _ => m
    { m with sch := { m.sch with reqs := m.sch.reqs ++ [r] } }

/-- A core has no further frame to send for its engine: an ARM's chain ends (R243). -/
def Core.noNext (c : Core) : Core := { c with next := none, noFit := false, chain := false }

/-- The field of a core is ordered off (R106, R133). -/
def orderOff (m : Main) (k : Fin 16) : Main :=
  modCore m k fun c => if c.fld.isSome then { c.noNext with pendOff := true, pendChange := some (c.pendChange.getD m.now) } else c

/-- An idle session ends where the disable of its port or core waits: no stitch is present (R112, R116, R259). -/
def endIdleFields (m : Main) : Main :=
  forEach (allFin 16) m fun m k =>
    match (m.cores[k]).fld with
    | some f =>
      if f.idle && ((m.cores[k]).disablePend || (m.ports[f.port]).disablePend) then dropSession (orderOff m k) f.port else m
    | none => m

/-- A port whose disable waits for the end of its present stitch is DISABLED then (R112). -/
def restPorts (m : Main) : Main :=
  forEach (allFin 128) m fun m p =>
    let x := m.ports[p]
    if x.disablePend && x.state != 1 && !anyCtx m (fun c => (c.st == .run || c.st == .pause) && (c.job.map (·.port)) == some p) then
      modPort m p fun x => { x with state := 5, disablePend := false }
    else m

/-- A core whose disable waits for the end of its present stitch, one in PAUSE included, is DISABLED then (R116). -/
def coreRest (m : Main) (k : Fin 16) : Main :=
  let m := restPorts (endIdleFields m)
  let c := m.cores[k]
  if c.disablePend && c.fld.isNone && !anyCtx m (fun x => (x.st == .run || x.st == .pause) && x.core == some k) then
    updateReach (modCore m k fun c => { c with state := 5, disablePend := false })
  else m

/-- The field of a core is off: a visit that has ended on it is reported, and requests are evaluated (R126, R308). -/
def fieldOff (m : Main) (k : Fin 16) : Main := evaluate (reportVisit (coreRest (endField m k) k) k)

/-- Whether a core carries a field for an owner. -/
def carries (m : Main) (k : Fin 16) (w : Owner) : Bool := ((m.cores[k]).fld.map (·.owner)) == some w

/-- A field passes to the oldest waiting stitch of the same port, protocol and core (R291). -/
def handOver (m : Main) (k : Fin 16) (p : Fin 128) (pr : Proto) : Option Main :=
  if !(pr == .stp || pr == .vicinity) || ((m.cores[k]).fld.map (·.closed)) != some true || (m.cores[k]).pendOff then none
  else match m.sch.reqs.find? fun r => r.port == p with
    | none => none
    | some r =>
      match r.owner with
      | .ctx e c =>
        if r.proto == pr && !r.paused && !r.waitBin && (coresFor m r).contains k && planAllows m k p r.cls && classOpen m r && mayFollow m r k &&
            ((ctxOf m e c).job.map (deadlinePassed m)) == some false && ((ctxOf m e c).job.map (·.opcode)) != some 12 then
          let m := withdraw (count m 0x70A0 0x0A) r.owner
          let m := modCore m k fun x => { x.noNext with fld := x.fld.map fun f => { f with owner := r.owner } }
          some (modCtx m e c (Ctx.begin m k))
        else none
      | _ => none

/-- A stitch gives up its core: the session keeps the field, it is handed over, or it is ordered off (R259, R267, R291). -/
def releaseCore (m : Main) (e : Fin 24) (c : Fin 2) : Main :=
  let x := ctxOf m e c
  match x.core, x.job with
  | some k, some j =>
    if carries m k (.ctx e c) then
      if ((m.ports[j.port]).session.map (·.core)) = some k then
        modCore m k fun y => { y.noNext with fld := y.fld.map fun f => { f with idle := true } }
      else (handOver m k j.port j.kind).getD (orderOff m k)
    else m
  | _, _ => m

/-- A stitch ends with its result (R267). -/
def endStitch (m : Main) (e : Fin 24) (c : Fin 2) (status detail : Nat) (part : Bool) (body : List Word) : Main :=
  let core := (ctxOf m e c).core
  let m := writeResult (releaseCore (withdraw m (.ctx e c)) e c) e c status detail part body
  match core with
  | some k => coreRest m k
  | none => m

/-- A window closes between exchanges: the core is released, the stitch stays pinned and requests its core again at once; an
ISO_APDU ends `NO_TAG` with its session (R85, R259, R267, R290). -/
def pauseCtx (m : Main) (e : Fin 24) (c : Fin 2) : Main :=
  let x := ctxOf m e c
  match x.core, x.job with
  | some k, some j =>
    let m := if carries m k (.ctx e c) then orderOff m k else m
    let m := dropSession m j.port
    if j.opcode = 8 then writeResult m e c 1 0 false []
    else
      let m := modCtx m e c fun x => { x with st := .pause, lost := false, told := false, sc := x.sc.restart }
      addReq m { owner := .ctx e c, port := j.port, cls := 2, proto := j.kind, made := m.now, pinned := some k, paused := true }
  | _, _ => m

/-- A visit meets the end of its window: its field falls, and it goes on in the next window that allows it, on a new request (R302). -/
def pauseVisit (m : Main) (l : Fin 16) : Main :=
  let m := if carries m l (.lane l) then orderOff m l else m
  modLane m l fun x => { x with lost := false, told := false, sc := x.sc.restart }

/-- Whether a run of exchanges comes to its pause in its own turn: it still has a reply to read, or its next frame may be left out. -/
def Script.ownPause (s : Script) : Bool := s.inbox.isSome || (s.want.map (·.skip)) == some true

/-- A window has closed over a field in a gap: it goes off, a stitch or a visit is paused, an idle session ends (R85, R259, R267, R302). A
run that still has a reply to read, or whose next frame may be left out, comes to its pause when its engine takes it up. -/
def windowClosed (m : Main) (k : Fin 16) (f : FieldRec) : Main :=
  match f.owner with
  | .ctx e c =>
    let x := ctxOf m e c
    if f.idle then dropSession (orderOff m k) f.port
    else if x.st != .run then m
    else if x.sc.ownPause then orderOff m k
    else pauseCtx m e c
  | .lane l => if ((m.sv.lanes[l]).sc.ownPause) || (m.sv.lanes[l]).ended.isSome then orderOff m k else pauseVisit m l
  | _ => orderOff m k

/-- A stitch in a context ends `ABORTED` (R267): its request is withdrawn, its core released. -/
def abortStitch (m : Main) (e : Fin 24) (c : Fin 2) (detail : Nat) : Main :=
  let m := withdraw m (.ctx e c)
  let x := ctxOf m e c
  let m := match x.core with
    | some k => if carries m k (.ctx e c) then orderOff m k else m
    | none => m
  let m := abortCtx m e c detail
  match x.core with
  | some k => coreRest m k
  | none => m

/-- Whether acquiring commands of a port go out at 212 kbit/s (R217, R301). -/
def fastAcquire (m : Main) (p : Fin 128) : Bool :=
  let c := (m.ports[p]).linkCache.toNat
  cfgN m 0x2510 0x06 == 1 && bitAt c 3 && bitAt c 4

/-- The nominal duration of a slot in which no fob answers (R302): its frame, the listen window up to CLOSE, and the wait of R210. -/
def slotFc (m : Main) (frame : Nat) : Nat := frame + 651 + cfgN m 0x2400 0x06 + 1700

/-- The nominal duration of a SEEK round of a port at `q` (R302). -/
def roundFc (m : Main) (p : Fin 128) (q : Nat) : Nat := 2 ^ q * slotFc m ((3 + 8 * 5) * bitFc (bitN (fastAcquire m p)))

/-- The nominal duration of a visit in SCLK periods (R302): the power-up hold and one SINGLE exchange, or the first round. -/
def visitTicks (m : Main) (p : Fin 128) : Nat :=
  cfgN m 0x2510 0x05 * tickUs +
  (if bitAt (svN m 0x0A) p.val then fcTicks (roundFc m p (cfgN m 0x2500 0x01))
   else fcTicks ((3 + 8 * 4) * bitFc (bitN (fastAcquire m p)) + 597 + 15360))

/-- Whether the visit ends before the window closes (R302). -/
def visitFits (m : Main) (k : Fin 16) (p : Fin 128) : Bool :=
  match windowLeft m k p 1 with
  | some t => decide (visitTicks m p ≤ t)
  | none => true

/-- Whether incremental burnish runs (R186). -/
def incremental (m : Main) : Bool :=
  cfgB m 0x2800 0x01 && (m.pw.mode == .survey || m.pw.mode == .transact || m.pw.mode == .emulate)

/-- The other ports of a port's stale pairs, once both ports are in service (R182, R186). -/
def staleTasks (m : Main) (p : Fin 128) : List Nat :=
  let own := (((m.ports[p]).nbr.filter (·.stale)).map (·.gport)).filter fun g => g != 0xFFFF
  let named := ((allFin 128).filter fun q => (m.ports[q]).nbr.any fun e => e.stale && e.gport == gport m p).map (gport m)
  if 2 ≤ (m.ports[p]).state then []
  else (own ++ named).dedup.filter fun g => g / 128 != laceDev m || decide ((m.ports[finOf 128 g]).state < 2)

/-- Whether burnish owes work that takes a field on a port: a step of the full programme, or an active task (R183, R186, R191). -/
def burnishOwes (m : Main) (p : Fin 128) : Bool :=
  m.brn.full == 1 || (incremental m && (m.brn.own.contains p || m.brn.tuneTask.contains p || !(staleTasks m p).isEmpty))

/-- The request an owner makes for a port, when it has one to make (R126, R267, R299, R113, R186). -/
def requestOf (m : Main) (who : Owner) (port : Fin 128) : Option Req :=
  match who with
  | .ctx e c =>
    let x := ctxOf m e c
    match x.job with
    | some j =>
      if j.port != port then none
      else if x.st == .wait then some { owner := who, port := port, cls := 2, proto := j.kind, made := m.now }
      else if x.st == .pause then
        some { owner := who, port := port, cls := 2, proto := j.kind, made := m.now, pinned := x.core, paused := true }
      else none
    | none => none
  | .lane k =>
    let l := m.sv.lanes[k]
    if m.sv.running && m.pw.pendMode.isNone && !l.stalled && l.ended.isNone && !l.sc.live && l.todo.head? == some port && visitFits m k port then
      some { owner := who, port := port, cls := 1, made := m.now }
    else none
  | .burnish =>
    if burnishOwes m port then some { owner := who, port := port, cls := 4, made := m.now, stale := staleTasks m port } else none
  | .retest =>
    let x := m.ports[port]
    if x.retestDue || x.state == 2 || x.state == 3 then some { owner := who, port := port, cls := 4, made := m.now } else none

/-- The grant of a core is taken back before its switch closed: its owner asks again (R95); a stitch
asks as one in PAUSE, pinned to the same core (log 39). -/
def regrant (m : Main) (f : FieldRec) : Main :=
  match f.owner with
  | .ctx e c => pauseCtx m e c
  | _ => match requestOf m f.owner f.port with
    | some r => addReq m r
    | none => m

end Sys2Proof.Machine
end

