-- ==== Sys2Proof/Machine/Flags.lean ====
section
/-!
DEFINITION. Machine/Flags.lean: the flags and bitmaps the part computes from its state: the flag byte of a queue (R333), the
queue bitmap (R334), the status flags (R486), the mode word (R35), and the summary bytes of the chapters.
-/

namespace Sys2Proof.Machine

/-- The flag byte of a queue (R333). -/
def queueFlags (m : Main) (q : Fin 32) : Nat :=
  let x := m.pool.qs[q]
  bitN ((x.pkts.head?.map fun p => !p.opened) == some true) + place 1 1 (bitN (atLimit m q)) +
  place 2 1 (bitN (x.openPkts != 0)) + place 3 1 (bitN (!x.sinks.isEmpty))

/-- The queue bitmap (R334). -/
def queueBitmap (m : Main) : Nat := ((allFin 32).map fun q => if (m.pool.qs[q]).packets != 0 then 2 ^ q.val else 0).sum

/-- A transition is in progress (R35). -/
def busy (m : Main) : Bool := m.pw.pendMode.isSome || m.pw.booting

/-- FAULT: a core or engine FAULTED or RETIRED, a pool fault declared, or HOLD (R486). -/
def faultFlag (m : Main) : Bool :=
  (m.cores.toList.any fun c => c.state == 1 || c.state == 4) || (m.engs.toList.any fun g => g.state == 1 || g.state == 4) ||
  m.pool.faulted || m.pw.mode == .hold

/-- THERMAL: the governor derates, or has withheld a grant within the last second (R486). -/
def thermalFlag (m : Main) : Bool :=
  m.pw.derating || (m.pw.thermalAt.map fun t => decide (m.now < t + tickS)) == some true

/-- The pin `FAULT_N` (R32): driven low (`false`) in HOLD, released in every other mode, in reset and boot too. -/
def faultN (m : Main) : Bool := m.pw.mode != .hold

/-- The status flags (R486). `lease` tells whether a ledger lease is held. -/
def statusFlags (m : Main) (lease : Bool) : Nat :=
  m.pw.mode.code + place 3 1 (bitN (faultFlag m)) + place 4 1 (bitN ((m.pool.qs[(22 : Fin 32)]).packets != 0)) +
  place 5 1 (bitN lease) + place 6 1 (bitN (m.ph.st == 1)) + place 7 1 (bitN (m.ph.st == 2)) + place 8 1 (bitN (busy m)) +
  place 9 1 (bitN m.spi.openQ.isSome) + place 10 1 (bitN m.spi.prevHdr) + place 11 1 (bitN m.spi.prevCrc) +
  place 12 1 (bitN m.spi.prevAbandon) + place 13 1 (bitN (m.pw.bootStage != 0)) + place 14 2 m.can.state +
  place 16 1 (bitN (thermalFlag m)) + place 17 1 (bitN m.pw.sleepLost) + place 18 1 (bitN m.spi.quad) +
  place 19 1 (bitN m.pw.vtxLow)

/-- The mode word (R35). -/
def modeWord (m : Main) : Nat :=
  m.pw.mode.code + place 4 3 m.pw.lastReq + place 7 1 (bitN (busy m)) + place 8 8 m.pw.bootStage

/-- The state byte of a context (R296). -/
def CtxState.code : CtxState → Nat
  | .idle => 0 | .wait => 1 | .run => 2 | .pause => 3 | .result => 4

def ctxByte (g : Engine) : Nat := g.ctx0.st.code + place 4 3 g.ctx1.st.code

/-- [2880+p:01]: the least of the components measured; 0 with none (R190, R193). -/
def Port.fastness (x : Port) : Nat :=
  let part (bit v : Nat) : List Nat := if x.flags.toNat.testBit bit then [] else [v]
  match part 0 x.sLeak ++ part 1 x.sEye ++ part 2 x.sTune with
  | [] => 0
  | a :: rest => rest.foldl min a

/-- Entries with `STALE` set [2300:11]. -/
def staleCount (m : Main) : Nat := (m.ports.toList.map fun p => (p.nbr.filter (·.stale)).length).sum

/-- Distinct units with a fault in the last [7100:06] (R561, R568). -/
def recentUnits (m : Main) : List Nat :=
  ((m.flt.recent.filter fun r => decide (m.now < r.2 + cfgN m 0x7100 0x06 * tickMs)).map (·.1)).dedup

end Sys2Proof.Machine
end

