-- ==== Sys2Proof/Machine/BurnishOps.lean ====
section
/-!
DEFINITION. Machine/BurnishOps.lean: fastness (R190, R191), waiting results and their commit (R176–R180), the full programme
and its end (R183–R185), and the result record (R189).
-/

namespace Sys2Proof.Machine

/-- A flag of [2880+p:02] (R193). -/
def setFlag (f : BitVec 8) (bit : Nat) (b : Bool) : BitVec 8 := if b then f ||| (1#8 <<< bit) else f &&& ~~~(1#8 <<< bit)

def flagOn (x : Port) (bit : Nat) : Bool := x.flags.toNat.testBit bit

/-- A score from 0 to 255 (R190). -/
def score (num : Int) (den : Nat) : Nat := (clampI 0 255 (roundDiv num den)).toNat

def sumN (l : List Nat) : Nat := l.foldl (· + ·) 0
def sumI (l : List Int) : Int := l.foldl (· + ·) 0

/-- The eye score of the bit amplitudes of some replies, each given by their number, sum and sum of squares: 255 − 765 σ/|μ| rounded,
within 0 to 255 (R190). -/
def eyeScore (es : List (Nat × Nat × Nat)) : Nat :=
  let n := sumN (es.map (·.1))
  let s := sumN (es.map fun e => e.2.1)
  let v := n * sumN (es.map fun e => e.2.2) - s * s
  if s = 0 then 0 else (lastHolding (fun k => decide (1530 * 1530 * v ≤ ((511 - 2 * k.toNat) * s) ^ 2)) 9 0 255).toNat

/-- The components of a port from its last replies and checks (R190). -/
def Port.scores (x : Port) (checks : Nat) : Port :=
  let s := x.supprs.take 16
  let e := x.eyes.take 32
  let t := x.checks.take checks
  let x := if s.isEmpty then x else { x with sLeak := score (102 * ((sumN s : Int) - 25 * s.length)) (10 * s.length), flags := setFlag x.flags 0 false }
  let x := if e.isEmpty then x else { x with sEye := eyeScore e, flags := setFlag x.flags 1 false }
  let x := if t.isEmpty then x
    else { x with sTune := score (2550 * (t.length : Int) - 51 * ((sumI t).natAbs : Int)) (10 * t.length),
                  tuneErr := roundDiv (10 * sumI t) t.length, flags := setFlag x.flags 2 false }
  { x with flags := setFlag x.flags 6 (s.isEmpty && e.isEmpty && t.isEmpty && flagOn x 6) }

/-- OWN_STALE is set: counted, and a remeasure is owed (R186, R188). -/
def setOwnStale (m : Main) (p : Fin 128) : Main :=
  let m := modPort (count m 0x7060 0x06) p fun x => { x with flags := setFlag x.flags 4 true }
  modBrn m fun b => { b with own := if b.own.contains p then b.own else b.own ++ [p] }

/-- A port's fastness is recomputed, and `WEAK` and `POOR` follow it (R190, R191). -/
def updateFast (m : Main) (p : Fin 128) : Main :=
  let m := modPort m p fun x => x.scores (cfgN m 0x2800 0x05)
  let x := m.ports[p]
  let f := x.fastness
  if flagOn x 6 then m
  else
    let warn := cfgN m 0x2800 0x07
    let poor := cfgN m 0x2800 0x08
    let m :=
      if f < warn && !flagOn x 5 then
        journal (modPort (count m 0x7060 0x07) p fun x => { x with flags := setFlag x.flags 5 true }) 0x38 0x4003 [p.val, f]
      else if flagOn x 5 && decide (warn + 16 ≤ f) then modPort m p fun x => { x with flags := setFlag x.flags 5 false }
      else m
    if f < poor && !flagOn x 7 then
      let m := journal (modPort (count m 0x7060 0x08) p fun x => { x with flags := setFlag x.flags 7 true }) 0x38 0x4004 [p.val, f]
      modBrn m fun b => { b with own := if b.own.contains p then b.own else b.own ++ [p],
                                 tuneTask := if b.tuneTask.contains p then b.tuneTask else b.tuneTask ++ [p] }
    else if flagOn x 7 && decide (poor + 16 ≤ f) then modPort m p fun x => { x with flags := setFlag x.flags 7 false }
    else m

/-- Whether two results estimate the same quantity (R180). -/
def sameQuantity : BurnResult → BurnResult → Bool
  | .tune p a _ _ _, .tune q b _ _ _ => p == q && a == b
  | .ownCarrier p a _ _, .ownCarrier q b _ _ => p == q && a == b
  | .ownCarrier p a _ _, .ownRefresh q b _ _ => p == q && a == b
  | .ownRefresh p a _ _, .ownCarrier q b _ _ => p == q && a == b
  | .ownRefresh p a _ _, .ownRefresh q b _ _ => p == q && a == b
  | .dcOffset k _ _, .dcOffset j _ _ => k == j
  | .iqTrim k _ _, .iqTrim j _ _ => k == j
  | .neighbours p _, .neighbours q _ => p == q
  | .stalePair p e, .stalePair q f => p == q && e.gport == f.gport
  | .coreChain _, .coreChain _ => true
  | .radioFreq _, .radioFreq _ => true
  | .radioDc _ _, .radioDc _ _ => true
  | .devicePhase _, .devicePhase _ => true
  | _, _ => false

/-- Whether a core reaches a port (R94). -/
def reaches (k : Fin 16) (p : Fin 128) : Bool := homeCore p == k || altCore p == k

/-- Whether a core reaches the port of this device that an entry names. -/
def reachesG (m : Main) (k : Fin 16) (g : Nat) : Bool := decide (g < 512) && g / 128 == laceDev m && reaches k (finOf 128 g)

/-- Whether a measurement involves a core (R182): the one it was made with, or, for a coupling, every core that drove or listened. -/
def involves (m : Main) (k : Fin 16) : BurnResult → Bool
  | .tune p alt _ _ _ => (if alt then altCore p else homeCore p) == k
  | .ownCarrier p alt _ _ => (if alt then altCore p else homeCore p) == k
  | .ownRefresh p alt _ _ => (if alt then altCore p else homeCore p) == k
  | .dcOffset j _ _ => j == k
  | .iqTrim j _ _ => j == k
  | .neighbours p es => reaches k p || es.any fun e => reachesG m k e.gport
  | .stalePair p e => reaches k p || reachesG m k e.gport
  | .coreChain _ => true
  | _ => false

/-- An estimate is complete and waits for the next slot boundary (R180). -/
def addResult (m : Main) (r : BurnResult) : Main :=
  modBrn m fun b => { b with waiting := (b.waiting.filter fun x => !sameQuantity x r) ++ [r] }

/-- Measurements with a core that faults are discarded (R182). -/
def discardCore (m : Main) (k : Fin 16) : Main :=
  modBrn m fun b => { b with waiting := b.waiting.filter fun r => !involves m k r }

/-- The tuning step of R176 on a code: new code, whether the step is held at the limit. `none` below the deadband, which the step meets
without rounding. -/
def tuneStep (m : Main) (code : Nat) (theta : Int) (zMag n : Nat) : Option (Nat × Bool) :=
  let st := tuneStepFx theta zMag n
  if 20 * st.natAbs < cfgN m 0x2800 0x06 * fx then none
  else
    let d := clampI (-8) 8 (roundDiv st fx)
    let v := (code : Int) + d
    some ((clampI 0 63 v).toNat, decide (v < 0) || decide (63 < v))

/-- Entries by descending |k| (R124). -/
def byCoupling (es : List NbrEntry) : List NbrEntry := sortBy (fun a b : NbrEntry => decide (a.kAtt ≤ b.kAtt)) es

/-- Entries of a port in the order of R124: those above the floor, by descending |k|, at most eight. -/
def sortNbr (m : Main) (es : List NbrEntry) : List NbrEntry :=
  (byCoupling (es.filter fun e => e.gport != 0xFFFF && decide (cfgI m 16 0x2300 0x02 < -5 * (e.kAtt : Int)))).take 8

/-- Whether a global port is a local one that burnish leaves out: OPEN, SHORT, UNREACHABLE or DISABLED (R182). -/
def portOut (m : Main) (g : Nat) : Bool := g / 128 == laceDev m && g < 512 && decide (2 ≤ (m.ports[finOf 128 g]).state)

/-- A committed result of a port clears `RESTORED` (R194). -/
def portResult (m : Main) (p : Fin 128) (f : Port → Port) : Main := modPort m p fun x => { f x with restored := false }

/-- The fixed code [2200+p:07] of a port, if one is set. -/
def tuneFixed (m : Main) (p : Fin 128) : Bool := decide (cfgN m (0x2200 + p.val) 0x07 ≤ 63)

/-- A coefficient within the I16 of its entry (R173). -/
def coefI16 (re im : Int) : Int × Int := (clampI (-32768) 32767 re, clampI (-32768) 32767 im)

/-- The own-carrier coefficient of a port through a core is written (R173). -/
def Port.setCoef (x : Port) (alt : Bool) (c : Int × Int) : Port :=
  { x with cHome := if alt then x.cHome else c, cAlt := if alt then c else x.cAlt }

/-- Trims of a core are written; they come into force when it carries no field, and the I/Q statistics start anew with them (R177, R181). -/
def setTrims (m : Main) (k : Fin 16) (f : Core → Core) : Main :=
  modCore m k fun c =>
    let c := { f c with octants := [0, 0, 0, 0, 0, 0, 0, 0], sumII := 0, sumQQ := 0, sumIQ := 0 }
    { c with trims := if c.fld.isNone then c.trimsDue else c.trims }

/-- Coupled pairs of this device as step 4 found them (R183). -/
def chainCoupled (m : Main) (p q : Fin 128) : Bool :=
  m.brn.coup.any fun x => (x.1 == p && x.2.contains (gport m q)) || (x.1 == q && x.2.contains (gport m p))

/-- Whether the chain can be measured: each octet has a port with a coupled port that neither of its two cores reaches and that a third
one serves (R178). Ports out of service are neither driven nor listened on (R182). -/
def chainPossible (m : Main) : Bool :=
  (allFin 16).all fun k => (allFin 128).any fun p =>
    homeCore p == k && decide ((m.ports[p]).state < 2) && (allFin 128).any fun q =>
      chainCoupled m p q && decide ((m.ports[q]).state < 2) && !(servingCores m q).isEmpty && !reaches k q && !reaches (altCore p) q

/-- One result is written (R176–R179, R181, R182); an edge pair with a shared port tag is journalled (R540). -/
def applyResult (m : Main) : BurnResult → Main
  | .tune p alt theta z n =>
    let x := m.ports[p]
    let m := modBrn m fun b => { b with tuneTask := b.tuneTask.filter (· != p), iters := if b.full == 1 then (p, alt) :: b.iters else b.iters }
    if tuneFixed m p then portResult m p id
    else
      let code := if alt then x.tuneAlt else x.tuneHome
      match tuneStep m code theta z n with
      | none => portResult m p fun y => { y with flags := setFlag y.flags 3 false }
      | some (c, lim) =>
        let m := countIf lim (countIf (c != code) m 0x7060 0x04) 0x7060 0x05
        portResult m p fun y =>
          { y with tuneHome := if alt then y.tuneHome else c, tuneAlt := if alt then c else y.tuneAlt, flags := setFlag y.flags 3 lim }
  | .ownCarrier p alt re im =>
    let m := modBrn m fun b => { b with own := b.own.filter (· != p) }
    portResult m p fun y => { y.setCoef alt (coefI16 re im) with flags := setFlag y.flags 4 false }
  | .ownRefresh p alt re im => portResult m p fun y => y.setCoef alt (coefI16 re im)
  | .dcOffset k i q => setTrims m k fun c => { c with dcI := clampI (-128) 127 i, dcQ := clampI (-128) 127 q }
  | .iqTrim k g p =>
    setTrims m k fun c => { c with iqGain := clampI (-128) 127 (c.trims.2.2.1 + g), iqPhase := clampI (-128) 127 (c.trims.2.2.2 + p) }
  | .neighbours p es =>
    let new := es.filter fun e => !portOut m e.gport
    if portOut m (gport m p) then m
    else if m.brn.step ≤ 4 then
      modBrn m fun b => { b with coup := (p, (sortNbr m new).map (·.gport)) :: b.coup.filter fun x => x.1 != p }
    else
      let kept := ((m.ports[p]).nbr.filter fun e => portOut m e.gport).map fun e => { e with stale := true }
      let m := portResult m p fun y => { y with nbr := sortNbr m (new ++ kept), nbrWritten := true }
      forEach ((m.ports[p]).nbr.filter fun e => e.gport % 128 == p.val && e.gport / 128 != laceDev m) m fun m e =>
        journal m 0x38 0x4006 [gport m p, e.gport]
  | .stalePair p e =>
    if portOut m (gport m p) || portOut m e.gport then m
    else
      let clear (x : Port) : Port := { x with nbr := x.nbr.map fun f => if f.gport = gport m p then { f with stale := false } else f }
      let m := portResult m p fun y =>
        { y with nbr := byCoupling (y.nbr.map fun f => if f.gport = e.gport then { e with stale := false } else f) }
      if e.gport / 128 = laceDev m then modPort m (finOf 128 e.gport) clear else m
  | .coreChain ds =>
    let s := sumI (ds.take 16)
    if ds.length ≠ 16 || !chainPossible m || decide (2048 < s.natAbs * 360) then journal (count m 0x7060 0x09) 0x38 0x4005 []
    else forEach (allFin 16) m fun m k =>
      modCore m k fun c => { c with phaseCal := roundDiv (16 * sumI ((ds.take (k.val + 1)).drop 1) - k.val * s) 16 }
  | .radioFreq twice =>
    let old := m.brn.rfTrim
    let new := clampI (-32768) 32767 (old + roundDiv twice 2)
    let m := modBrn (count m 0x7060 0x0B) fun b => { b with rfTrim := new, rfResid := roundDiv (twice - 2 * (new - old)) 20 }
    { modRad m fun r => { r with offsets := [] } with pts := m.pts.map fun n => { n with cfo := n.cfo.map (· - (new - old)) } }
  | .radioDc i q => modBrn m fun b => { b with rfDcI := clampI (-128) 127 i, rfDcQ := clampI (-128) 127 q }
  | .devicePhase v => modLace m fun l => { l with devPhase := v }

/-- In a full burnish the entries of a port out of service, and those that name it, are kept `STALE` (R182). -/
def staleOut (m : Main) : Main :=
  { m with ports := Vector.ofFn fun p =>
      let x := m.ports[p]
      { x with nbr := x.nbr.map fun e => { e with stale := e.stale || decide (2 ≤ x.state) || portOut m e.gport } } }

def isRadio : BurnResult → Bool
  | .radioFreq _ => true
  | .radioDc _ _ => true
  | _ => false

/-- No demodulator is busy and the transmitter is off (R179). -/
def radioQuiet (m : Main) : Bool := m.rad.demods.toList.all (fun d => d.st == 0) && !m.rad.tx.active

/-- Whether a retest that is due may be asked for now: its port can be served, through the other core where the rule binds it to that
(R113, R114). -/
def retestReady (m : Main) (p : Fin 128) : Bool :=
  let x := m.ports[p]
  x.retestDue && decide (x.state < 4) && (match x.retestVia with
    | some k => (servingCores m p).contains k
    | none => true)

/-- The next retest that is due is requested (R113). -/
def pumpRetest (m : Main) : Main :=
  if (m.sch.reqs.any fun r => r.owner == .retest) || (allFin 16).any (fun k => carries m k .retest) then m
  else match (allFin 128).find? (retestReady m) with
    | some p => evaluate (addReq m { owner := .retest, port := p, cls := 4, made := m.now, pinned := (m.ports[p]).retestVia })
    | none => m

/-- At a slot boundary every waiting result is written in one step; radio trims wait for a quiet radio. The step of a full
burnish that has ended gives way to the next (R179, R180, R183). -/
def commitBurnish (m : Main) : Main :=
  let now := m.brn.waiting.filter fun r => radioQuiet m || !isRadio r
  let later := m.brn.waiting.filter fun r => !(radioQuiet m || !isRadio r)
  let m := if now.isEmpty then m else count (forEach now (modBrn m fun b => { b with waiting := later }) applyResult) 0x7060 0x01
  let m := if m.brn.full == 1 && m.brn.stepDone && later.isEmpty then
      let m := modBrn (if m.brn.step = 6 then staleOut m else m) fun b => { b with step := b.step + 1, stepDone := false }
      if m.brn.step = 8 then
        pumpRetest { m with ports := m.ports.map fun x => { x with retestDue := x.retestDue || x.state == 2 || x.state == 3 } }
      else m
    else m
  if now.any fun r => match r with | .neighbours _ _ => true | .stalePair _ _ => true | _ => false then evaluate m else m

/-- The full programme starts at step 1 (R183). -/
def startFull (m : Main) : Main :=
  modBrn m fun b => { b with full := 1, step := 1, startAt := m.now, stepDone := false, iters := [], coup := [] }

/-- Unapplied steps and burnish fields are given up (R41, R182). -/
def discardBurnish (m : Main) : Main :=
  let m := withdraw (modBrn m fun b => { b with waiting := [], stepDone := false }) .burnish
  forEach (allFin 16) m fun m k => if carries m k .burnish then orderOff m k else m

/-- CALIBRATE is left before step 8 ends (R185). -/
def abandonFull (m : Main) : Main :=
  if m.brn.full = 1 then
    let st := m.brn.step
    let m := discardBurnish (modBrn m fun b => { b with full := 3, step := 0 })
    journal (count m 0x7060 0x03) 0x38 0x4002 [st]
  else m

/-- The bytes of a result record that its CRC-32C covers, in the model's own order: the manual gives none (log 38). -/
def FlashRec.bytes (r : FlashRec) : List Byte :=
  let i16 (v : Int) : List Byte := leBytes 2 (fromSigned 16 v)
  leBytes 4 r.devId ++ (r.tunes.flatMap fun t => [byte t.1, byte t.2]) ++
  (r.coefs.flatMap fun c => i16 c.1.1 ++ i16 c.1.2 ++ i16 c.2.1 ++ i16 c.2.2) ++
  (r.nbrs.flatMap fun es => byte (es.2.length + place 7 1 (bitN es.1)) :: es.2.flatMap fun e =>
    leBytes 2 (e.gport + place 15 1 (bitN e.stale)) ++ [byte e.kAtt, byte e.aAtt] ++ leBytes 2 e.aArg) ++
  (r.trims.flatMap fun t => i16 t.1 ++ i16 t.2.1 ++ i16 t.2.2.1 ++ i16 t.2.2.2.1 ++ i16 t.2.2.2.2) ++
  i16 r.radio.1 ++ i16 r.radio.2.1 ++ i16 r.radio.2.2

/-- The record of R189, with its CRC-32C. -/
def flashRecord (m : Main) : FlashRec :=
  let r : FlashRec :=
    { tunes := m.ports.toList.map fun x => (x.tuneHome, x.tuneAlt), coefs := m.ports.toList.map fun x => (x.cHome, x.cAlt),
      nbrs := m.ports.toList.map fun x => (x.nbrWritten, x.nbr), trims := m.cores.toList.map fun c => (c.phaseCal, c.dcI, c.dcQ, c.iqGain, c.iqPhase),
      radio := (m.brn.rfTrim, m.brn.rfDcI, m.brn.rfDcQ), devId := entryDefault 0x1000 0x01,
      sector := cfgN m 0x2800 0x0B / 65536 * 65536 }
  { r with crc := CrcKind.crc32c.of r.bytes }

/-- Step 8 ends, once no retest is under way or may be made (R183, R184, R189). -/
def endFull (m : Main) : Main :=
  if (allFin 128).any (retestReady m) || (allFin 16).any (fun k => carries m k .retest) then m
  else
    let ms := (m.now - m.brn.startAt) / tickMs
    let m := forEach (allFin 128) m updateFast
    let m := modBrn (count m 0x7060 0x02) fun b => { b with full := 2, step := 0, stepDone := false, duration := ms }
    let m := journal m 0x38 0x4001 [ms]
    if cfgB m 0x2800 0x0A then
      let r := flashRecord m
      modBrn m fun b => { b with flash := r :: b.flash.filter fun x => x.sector != r.sector }
    else m

/-- The results of a record, or the reset values where there is none (R189). -/
def loadRecord (m : Main) (r : Option FlashRec) : Main :=
  let tunes := (r.map (·.tunes)).getD []
  let coefs := (r.map (·.coefs)).getD []
  let nbrs := (r.map (·.nbrs)).getD []
  let trims := (r.map (·.trims)).getD []
  let radio := (r.map (·.radio)).getD (0, 0, 0)
  let m := forEach (allFin 128) m fun m p =>
    modPort m p fun x =>
      { x with tuneHome := (nth tunes p.val (32, 32)).1, tuneAlt := (nth tunes p.val (32, 32)).2,
               cHome := (nth coefs p.val ((16384, 0), (16384, 0))).1, cAlt := (nth coefs p.val ((16384, 0), (16384, 0))).2,
               nbr := (nth nbrs p.val (false, [])).2, nbrWritten := (nth nbrs p.val (false, [])).1, restored := r.isSome }
  let m := forEach (allFin 16) m fun m k =>
    let t := nth trims k.val (0, 0, 0, 0, 0)
    setTrims m k fun c => { c with phaseCal := t.1, dcI := t.2.1, dcQ := t.2.2.1, iqGain := t.2.2.2.1, iqPhase := t.2.2.2.2 }
  modBrn m fun b => { b with restored := r.isSome, rfTrim := radio.1, rfDcI := radio.2.1, rfDcQ := radio.2.2 }

/-- The result record is restored at boot, or its lack counted (R189, R194). -/
def restoreBurnish (m : Main) : Main :=
  match m.brn.flash.find? fun r => r.sector == cfgN m 0x2800 0x0B / 65536 * 65536 with
  | some r => if r.crc == CrcKind.crc32c.of r.bytes && r.devId == entryDefault 0x1000 0x01 then loadRecord m (some r)
              else loadRecord (count m 0x7060 0x0A) none
  | none => loadRecord (count m 0x7060 0x0A) none

end Sys2Proof.Machine
end

