-- ==== Sys2Proof/Machine/FaultOps.lean ====
section
/-!
DEFINITION. Machine/FaultOps.lean: unit faults and their escalation (R560, R561), entry to HOLD (R38, R41, R562), core faults
(R114–R116), and the heartbeat that marks a change of mode (R502).
-/

namespace Sys2Proof.Machine

/-- A heartbeat in Q21 under the space test (R500, R502; log 17), and a time mark after it when the device is the time master (R502, R504). -/
def sendHeartbeat (m : Main) (lease : Bool) : Main :=
  if !ctlOn m || !m.pw.fwRunning then m
  else
    let bytes := [byte m.pw.mode.code, byte (statusFlags m lease)] ++ leBytes 2 m.flt.jseq ++ leBytes 4 (aoSeconds m)
    let m := offerPkt m 21 0x28 srcController (canPacket (m.can.node * 16 + 5) bytes)
    if cfgN m 0x1810 0x07 = m.can.node then
      offerPkt m 21 0x28 srcController (canPacket (m.can.node * 16 + 6) (leBytes 8 m.can.markTick))
    else m

/-- The journal source of a unit (R555, R560). -/
def unitSource (u : Nat) : Nat :=
  if u < 0x10 then 0x02 + u else if u < 0x28 then 0x18 + (u - 0x10) else if u = 0x28 then 0x38 else if u = 0x29 then 0x30
  else if u = 0x2A then 0x12 else 0x33

/-- The transmitter goes off at once; frames wait in the hold (R41, R48). -/
def txStop (m : Main) : Main := modRad m fun r => { r with tx := { r.tx with active := false, txen := false, access := none, backoff := none } }

/-- A reception ends: what it has written is withdrawn (R18, R402). -/
def demodFree (m : Main) (d : Fin 8) : Main :=
  let m := match (m.rad.demods[d]).space with
    | some x => withdrawPkt m x.1 x.2
    | none => m
  modDemod m d fun y => { y with st := 0, space := none, dropped := false }

/-- Every reception is abandoned; `counted`: by a transmission or a retune (R402, R409). The detector starts anew. -/
def dropReceptions (m : Main) (counted : Bool) : Main :=
  let m := forEach (allFin 8) m fun m d =>
    if (m.rad.demods[d]).st = 0 then m else demodFree (countIf counted m 0x70E0 0x0A) d
  modRad m fun r => { r with quals := [] }

/-- Every field of the device goes off at once (R33, R48). -/
def allFieldsOff (m : Main) : Main := forEach (allFin 16) m endField

/-- Contexts that wait return `ABORTED` from their claim records, written by the dispatcher (R267, R286). -/
def abortWaiting (m : Main) (detail : Nat) : Main :=
  forEach allCtx m fun m x =>
    let y := ctxOf m x.1 x.2
    match y.st, y.job with
    | .wait, some j => dispResult (modCtx (withdraw m (.ctx x.1 x.2)) x.1 x.2 fun _ => ({} : Ctx)) j x.1.val x.2.val none 0x0A detail
    | _, _ => m

/-- Started stitches return `ABORTED` (R38, R40, R48). -/
def abortStarted (m : Main) (detail : Nat) : Main :=
  forEach allCtx m fun m x =>
    let y := ctxOf m x.1 x.2
    if y.st == .run || y.st == .pause then abortStitch m x.1 x.2 detail else m

/-- A survey pass in progress ends incomplete (R309). -/
def cutPass (m : Main) : Main :=
  let m := forEach (allFin 16) m fun m k => modLane m k fun l => { l with todo := [], ended := none, sc := {}, lost := false, told := false }
  let m := { m with sch := { m.sch with reqs := m.sch.reqs.filter fun r => match r.owner with | .lane _ => false | _ => true } }
  let m := modSv m fun v => { v with due := false }
  if m.sv.running then endPass m true else m

/-- The mode changes: counted, journalled, told in a heartbeat (R38, R502, R557). -/
def setMode (m : Main) (dst : Mode) (trig : Nat) : Main :=
  let frm := m.pw.mode
  let m := modPw m fun p => { p with mode := dst, pendMode := none, transitions := sat32 (p.transitions + 1) }
  sendHeartbeat (journal m 0x38 0x1001 [frm.code, dst.code, trig]) false

/-- HOLD is entered from a main mode (R38, R41, R562). -/
def enterHold (m : Main) (cause : Nat) (units : List Nat) : Main :=
  if !m.pw.mode.isMain then m
  else
    let m := allFieldsOff m
    let m := abortStarted m 4
    let m := abortWaiting m 4
    let m := cutPass m
    let m := discardBurnish (abandonFull m)
    let m := dropReceptions (txStop m) false
    let m := { m with sch := { m.sch with reqs := [] } }
    let m := modPw (count m 0x7008 0x06) fun p => { p with holdCause := cause }
    let args := [cause, (units.take 3).foldr (fun u acc => u + 256 * acc) 0, fromSigned 16 m.pw.tj]
    let m := journal m 0x38 0x0004 args
    setMode m .hold (if cause = 1 then 0 else 3)

/-- A unit fault is counted and journalled, and the fault logic tests for escalation (R560, R561). A unit out of service takes
no part in that. -/
def unitFault (m : Main) (u cause : Nat) (nested out : Bool) : Main :=
  let m := countIf nested (count m 0x7008 0x04) 0x7008 0x05
  let m := journal m (unitSource u) (if nested then 0x0003 else 0x0001) [u, cause]
  let m := modFlt m fun f => { f with lastFault := (u, cause, f.jseq % 65536) }
  if out then m
  else
    let m := modFlt m fun f =>
      { f with recent := (f.recent.filter fun r => r.1 != u && decide (m.now < r.2 + cfgN m 0x7100 0x06 * tickMs)) ++ [(u, m.now)] }
    let us := recentUnits m
    if cfgN m 0x7100 0x07 ≤ us.length && m.pw.mode.isMain then enterHold (count m 0x7008 0x08) 3 us else m

/-- A unit changes its service state (R557). -/
def unitState (m : Main) (u st : Nat) : Main := journal m (unitSource u) 0x0002 [u, st]

/-- The controller, the pool and the field scheduler: a fault while recovering leads to HOLD with cause 5 (R560, R562). -/
def vitalFault (m : Main) (u cause : Nat) (nested : Bool) : Main :=
  let m := unitFault m u cause nested false
  if nested then enterHold m 5 [u] else m

/-- The pool declares a fault and goes on in PROBATION (R348, R349, R560). -/
def poolFault (m : Main) (cause : Nat) : Main :=
  let nested := m.pool.state == 3
  vitalFault { m with pool := { m.pool with state := 3, faulted := true } } 0x29 cause nested

/-- The field scheduler declares a fault and rebuilds its tables (R560). -/
def schedFault (m : Main) (cause : Nat) : Main :=
  let nested := m.sch.state != 0
  vitalFault { m with sch := { m.sch with state := 1 } } 0x2A cause nested

/-- The controller declares a fault and restarts (R30, R560). -/
def controllerFault (m : Main) (cause : Nat) : Main :=
  let nested := m.pw.ctlState == 3 || m.pw.ctlDown
  vitalFault (modPw m fun p => { p with ctlDown := true, ctlCause := cause }) 0x28 cause nested

/-- The lane whose field a faulting core carries reports `ABORTED`, and its port is visited again through its other lane
(R301). -/
def laneAborted (m : Main) (k : Fin 16) : Main :=
  match (m.cores[k]).fld with
  | some f =>
    match f.owner with
    | .lane l =>
      if (m.sv.lanes[l]).ended.isSome then reportVisit m l
      else
      let m := modLane m l fun x => { x with todo := x.todo.filter (· != f.port), sc := {}, lost := false, told := false }
      let m := reportPort m l f.port { status := 0x0A, core := some k }
      (match (servingCores m f.port).find? fun c => c != k with
       | some c => modLane m c fun x => { x with todo := x.todo ++ [f.port] }
       | none => { m with sv := { m.sv with visited := m.sv.visited ++ [f.port] } })
    | _ => m
  | none => m

/-- What a core fault does to the work on the core: its field goes off at once, its stitch returns `ABORTED` (R115, R182). -/
def coreDown (m : Main) (k : Fin 16) : Main :=
  let m := laneAborted m k
  let m := endField m k
  let m := forEach allCtx m fun m x =>
    let y := ctxOf m x.1 x.2
    if (y.st == .run || y.st == .pause) && y.core == some k then abortStitch m x.1 x.2 1 else m
  discardCore m k

/-- A core fault (R114–R116). A core that is RETIRED or DISABLED keeps its state and stays out of the escalation count; one
that is recovering is RETIRED. -/
def coreFault (m : Main) (k : Fin 16) (cause : Nat) : Main :=
  let st := (m.cores[k]).state
  let out := st == 4 || st == 5
  let nested := st == 1 || st == 2 || st == 3
  let m := modCore (count m 0x7030 0x04) k fun c =>
    { c with faultCause := cause, faults := sat32 (c.faults + 1), holdoffDone := false,
             state := if out then c.state else if nested then 4 else 1 }
  let m := coreDown m k
  let m := updateReach m
  evaluate (unitFault m k.val cause nested out)

end Sys2Proof.Machine
end

