-- ==== Sys2Proof/Machine/CheckOps.lean ====
section
/-!
DEFINITION. Machine/CheckOps.lean: the check units that follow a stream other than the pool write bus, SPI, CAN FD, radio
plaintext and the ledger write stream: a frame of those streams passes within one command (R515, R516).
-/

namespace Sys2Proof.Machine

/-- A whole frame passes the tap of a source: continuous units absorb it, units in frame mode form its result and, with a
record queue, write a check record (R516, R519). `pass` is the filter test of R515. -/
def cuFrame (m : Main) (source : Nat) (pass : Nat → Bool) (bs : List Byte) (key kind ref1 : Nat) : Main :=
  if !ctlOn m then m
  else forEach (allFin 8) m fun m c =>
    let u := m.cus[c]
    if u.owned || u.source != source || !pass u.filter then m
    else if u.framing == 0 then modCu m c fun u => u.take bs
    else
      let m := modCu m c fun u => ((u.start none).take bs).finish
      if u.recQ < 32 then settle (m, [.record c key kind ref1 0]) else m

/-- SPI: the data bytes of one transaction, host data or device data (R515). `head` is `CMD`, `ADDR` and the low byte of
`LEN`. -/
def cuSpi (m : Main) (device : Bool) (bs : List Byte) (head : Nat) : Main :=
  if bs.isEmpty then m else cuFrame m 2 (fun f => bitAt f (bitN device)) bs 0 0 head

/-- CAN FD: the data bytes of one frame (R515). -/
def cuCan (m : Main) (sent : Bool) (id : Nat) (bs : List Byte) : Main :=
  cuFrame m 3 (fun f => bitAt f (bitN sent) && (!bitAt f 27 || field f 16 11 == id)) bs 0 (bitN sent) id

/-- Radio: the plaintext of one frame (R515). -/
def cuRadio (m : Main) (sent : Bool) (slot fc ctr : Nat) (bs : List Byte) : Main :=
  cuFrame m 4 (fun f => bitAt f (bitN sent) && (!bitAt f 16 || field f 8 8 == slot)) bs slot fc ctr

/-- Ledger: bytes 0–61 of an audit record, or bytes 0–21 of the 16 records of a bank (R515). -/
def cuLedger (m : Main) (origin : Nat) (setting : Bool) (bs : List Byte) (ref : Nat) : Main :=
  cuFrame m 5 (fun f => bitAt f origin) bs origin (if setting then 2 else 1) ref

end Sys2Proof.Machine
end

