-- ==== Sys2Proof/Machine/LedgerOps.lean ====
section
/-!
DEFINITION. Machine/LedgerOps.lean: the ledger's contents as bytes (R361–R363), recovery (R364), the writes (R372, R373, R375),
the events they make (R384), and the settings writes that keep persistent entries (R46).
-/

namespace Sys2Proof.Machine

/-- The current settings bank. -/
def Ledger.cur (l : Ledger) : Bank := if l.current then l.bankB else l.bankA

/-- A counter of the target and the ledger counts while `CTL` is powered (R386). -/
def countAo (m : Main) (idx sub : Nat) : Main := if ctlOn m then count m idx sub else m

/-- The stamp word w2 of R306: phase and cycle. -/
def stampWord (m : Main) : Word := word (phaseNow m + place 16 16 m.ph.cycle)

/-- A target event (Q10) or a ledger event (Q11), while `CTL` and `POOL` are powered (R384). -/
def tgtEvent (m : Main) (ledger : Bool) (ev origin status key seq : Nat) : Main :=
  if !ctlOn m then m
  else offerPkt m (if ledger then 11 else 10) (if ledger then 0x26 else 0x25) 0x07
    [word (place 0 8 ev + place 8 8 origin + place 16 8 status + place 24 8 key), word seq, stampWord m]

/-- The 20 data bytes of a settings record (R363). -/
def Bank.data (b : Bank) (r : Nat) : List Byte :=
  if r < 12 then (List.range 20).map fun i => Config.settingsByte r i b.persist else nth b.host (r - 12) (List.replicate 20 0)

/-- Bytes 0–21 of a settings record. -/
def Bank.body (b : Bank) (r : Nat) : List Byte := b.data r ++ leBytes 2 b.seq

/-- The 24 bytes of a settings record. -/
def Bank.record (b : Bank) (r : Nat) : List Byte := b.body r ++ leBytes 2 (CrcKind.ccitt.of (b.body r))

/-- Bytes 0–61 of an audit record. -/
def auditHead (seq : Nat) (body : List Byte) : List Byte := leBytes 4 seq ++ body

/-- The 64 bytes of an audit record (R362). -/
def auditBytes (seq : Nat) (body : List Byte) : List Byte :=
  auditHead seq body ++ leBytes 2 (CrcKind.ccitt.of (auditHead seq body))

/-- Bytes 4–61 of a record to be appended; its flags and its time are set when it is written (R362). -/
def auditBody (type origin tag stampHi : Nat) (data : List Byte) : List Byte :=
  [byte type, byte origin, 0, 0] ++ leBytes 4 tag ++ leBytes 4 0 ++ leBytes 4 stampHi ++ padTo 42 data

/-- The flags and the low half of the stamp, as they are at the write (R362). -/
def stampBody (m : Main) (body : List Byte) : List Byte :=
  body.take 2 ++ [byte (bitN m.pw.onHarvest + place 1 1 (bitN (m.pw.mode == .rescue))), 0] ++ (body.drop 4).take 4 ++
  leBytes 4 (aoSeconds m) ++ body.drop 12

def bodyType (body : List Byte) : Nat := (nth body 0 0).toNat
def bodyOrigin (body : List Byte) : Nat := (nth body 1 0).toNat
def bodyTag (body : List Byte) : Nat := leNat ((body.drop 4).take 4)

/-- The slot of a sequence number (R362). -/
def slotOf (seq : Nat) : Fin 240 := ⟨(seq - 1) % 240, Nat.mod_lt _ (by decide)⟩

/-- The valid record with a sequence number, if the ring still holds it. -/
def Ledger.at_ (l : Ledger) (seq : Nat) : Option (List Byte) :=
  match l.ring[slotOf seq] with
  | .record s b => if s = seq ∧ seq ≠ 0 then some b else none
  | _ => none

/-- The newest valid record of an origin, as sequence number and body. -/
def Ledger.newestOf (l : Ledger) (origin : Nat) : Option (Nat × List Byte) :=
  l.ring.toList.foldl (fun acc x =>
    match x with
    | .record s b => if bodyOrigin b = origin && decide (((acc.map (·.1)).getD 0) < s) then some (s, b) else acc
    | _ => acc) none

/-- The oldest valid sequence number; 0 with none (R377). -/
def Ledger.oldest (l : Ledger) : Nat :=
  l.ring.toList.foldl (fun acc x =>
    match x with
    | .record s _ => if acc = 0 || decide (s < acc) then s else acc
    | _ => acc) 0

/-- The sequence number of the record that an append repeats (R375). -/
def Ledger.repeats (l : Ledger) (body : List Byte) : Option Nat :=
  match l.newestOf (bodyOrigin body) with
  | some (s, b) =>
    if bodyTag body != 0 && bodyTag b == bodyTag body && bodyType b == bodyType body && b.drop 16 == body.drop 16 then some s
    else none
  | none => none

/-- A selector copy names a bank; the older copy is written (R363, R373). -/
def Ledger.select (l : Ledger) (b : Bool) (seq : Nat) : Ledger :=
  let new : Selector := { valid := true, bankB := b, seq := seq }
  if l.sel1.valid && (!l.sel0.valid || decide (l.sel0.seq < l.sel1.seq)) then { l with sel0 := new } else { l with sel1 := new }

/-- The bank named by the newer valid selector copy. -/
def Ledger.named (l : Ledger) : Option Bool :=
  if l.sel0.valid && l.sel1.valid then some (if l.sel0.seq < l.sel1.seq then l.sel1.bankB else l.sel0.bankB)
  else if l.sel0.valid then some l.sel0.bankB
  else if l.sel1.valid then some l.sel1.bankB
  else none

/-- The settings bank that a write makes, before its marker is valid (R373). -/
def Ledger.nextBank (l : Ledger) (f : Bank → Bank) : Bank := { f l.cur with valid := true, seq := l.cur.seq + 1 }

/-- Shadow and commit marker of a settings write: the other bank is valid (R373). -/
def Ledger.markBank (l : Ledger) (f : Bank → Bank) : Ledger :=
  if l.current then { l with bankA := l.nextBank f } else { l with bankB := l.nextBank f }

/-- Pointer flip of a settings write (R373). -/
def Ledger.flip (l : Ledger) (seq : Nat) : Ledger := { l.select (!l.current) seq with current := !l.current }

/-- A settings write, whole. -/
def Ledger.setBank (l : Ledger) (f : Bank → Bank) : Ledger := (l.markBank f).flip (l.cur.seq + 1)

/-- An audit append, whole: slot, `SEQ`, ring head copy (R373). -/
def Ledger.append (l : Ledger) (body : List Byte) : Ledger :=
  let s := l.head + 1
  let l := { l with ring := updV l.ring (slotOf s) fun _ => .record s body, head := s }
  if l.head0 ≤ l.head1 then { l with head0 := s } else { l with head1 := s }

/-- Recovery at the start of the always-on island (R364). -/
def Ledger.recover (l : Ledger) : Ledger :=
  let none_ := !l.bankA.valid && !l.bankB.valid
  let b := l.bankB.valid && (!l.bankA.valid || decide (l.bankA.seq < l.bankB.seq))
  let l := { l with current := b, noBank := none_, rolled := false, waiting := [], running := none, leaseBy := none,
                    head := l.ring.toList.foldl (fun acc x => match x with | .record s _ => max acc s | _ => acc) 0,
                    torn := (l.ring.toList.filter fun x => x == .torn).length }
  if !none_ && l.named != some b then { l.select b l.cur.seq with rolled := true } else l

/-- A measurement of V_HARV, in mV: the source fixes only how the capacitor charges, so each measurement is a free value up to
3.30 V + 3 % (R358; log 18). -/
def senseHarv (m : Main) : Main :=
  let d := draw m
  { d.2 with tgt := { d.2.tgt with vHarv := d.1.toNat % 3400 } }

/-- The energy check of R372 for a write of e units of 0.1 µJ. -/
def energyOk (m : Main) (e : Nat) : Bool :=
  let v := m.tgt.vHarv
  decide (2100 ≤ v) && decide (6 * e * 100000 ≤ cfgN m 0x6000 0x02 * (v * v - 1620 * 1620))

/-- Whether a write may begin: on harvest V_HARV is measured and the check made (R372). -/
def energyCheck (m : Main) (e : Nat) : Bool × Main :=
  if m.pw.onHarvest then
    let m := senseHarv m
    if energyOk m e then (true, m) else (false, countAo m 0x70D0 0x03)
  else (true, m)

/-- Energies of the two kinds of write, in 0.1 µJ (R366). -/
def appendEnergy : Nat := 30
def settingEnergy : Nat := 120

/-- An append that passed its checks is written (R373 steps 4–6), with its event. -/
def writeAppend (s : State) (body : List Byte) : State :=
  let l := s.lgr.append body
  let m := countAo s.m 0x70D0 0x02
  let m := cuLedger m (bodyOrigin body) false (auditHead l.head body) l.head
  { s with m := tgtEvent m true 1 (bodyOrigin body) 0 0xFF l.head, lgr := l }

/-- A settings write that passed its checks is written, with its event. -/
def writeBank (s : State) (origin : Nat) (f : Bank → Bank) : State :=
  let l := s.lgr.setBank f
  let m := countAo s.m 0x70D0 0x02
  let m := cuLedger m origin true ((List.range 16).flatMap fun r => l.cur.body r) l.cur.seq
  { s with m := tgtEvent m true 2 origin 0 0xFF l.cur.seq, lgr := l }

/-- A refused write makes a ledger event (R384). -/
def writeRefused (m : Main) (origin status : Nat) : Main := tgtEvent m true 3 origin status 0xFF 0

/-- The DX8128 appends a record of its own, under a lease too (R362, R370). `none`: the energy check failed. -/
def ownRecord (s : State) (type : Nat) (data : List Byte) : Option Nat × State :=
  let body := stampBody s.m (auditBody type 0 0 0 data)
  let e := energyCheck s.m appendEnergy
  if e.1 then let s := writeAppend { s with m := e.2 } body; (some s.lgr.head, s)
  else (none, { s with m := writeRefused e.2 0 3 })

/-- Whether a wired port holds a lease (R370). -/
def leaseHeld (s : State) : Bool := s.lgr.leaseBy.isSome

/-- Whether a write holds the ledger, a settings write that a field access has interrupted included (R366, R367). -/
def Ledger.held (l : Ledger) : Bool := l.running.isSome || l.waiting.any (·.started)

/-- Whether the settings write that stores a value of a persistent entry waits for the ledger: an access runs, and there is something to
write that no lease forbids (R46, R366, R368, R375). -/
def ledgerWaits (s : State) (key v : Nat) : Bool :=
  s.lgr.held && s.lgr.leaseBy != some .i2c && (mapGet key s.lgr.cur.persist).getD (entryDefault (key / 256) (key % 256)) != v

/-- The settings write that stores a persistent entry (R46): it commits, or the entry keeps its value. A value equal to the stored one writes
nothing (R375). While an access runs it waits, and where it is asked to end all the same its 3 ms are over: it ends `BUSY` (R369). -/
def persist (s : State) (key v : Nat) : Option State × State :=
  let old := (mapGet key s.lgr.cur.persist).getD (entryDefault (key / 256) (key % 256))
  let busy (sub : Nat) : Option State × State := (none, { s with m := writeRefused (countAo s.m 0x70D0 sub) 4 1 })
  if old = v then (some s, s)
  else if s.lgr.leaseBy = some .i2c then busy 0x04
  else if s.lgr.held then busy 0x06
  else
    let e := energyCheck s.m settingEnergy
    if e.1 then (some (writeBank { s with m := e.2 } 4 fun b => { b with persist := mapSet key v b.persist }), s)
    else (none, { s with m := writeRefused e.2 4 3 })

/-- A write command of a persistent entry is served once the ledger is free for it (R46, R366). -/
def onLedger (idx sub v : Nat) (f : State → State) (s : State) : Out :=
  onServiceAll (fun s => if ledgerWaits s (ekey idx sub) v then s else f s) s

/-- The value in force of an entry is set; a persistent entry only when its settings write commits (R46). -/
def setEntry (s : State) (idx sub v : Nat) : Bool × State :=
  if ((entryRow idx sub).map (·.persist)) = some true then
    let r := persist s (ekey idx sub) v
    match r.1 with
    | some t => (true, { t with m := cfgSet t.m idx sub v })
    | none => (false, r.2)
  else (true, { s with m := cfgSet s.m idx sub v })

end Sys2Proof.Machine
end

