-- ==== Sys2Proof/Machine/PlanOps.lean ====
section
/-!
DEFINITION. Machine/PlanOps.lean: the windows that are open (R83, R86), what a change of them does to the fields (R85), the switch
of the plan (R88), and the correction of the generator's phase (R70, R71).
-/

namespace Sys2Proof.Machine

/-- Every window of the active plan is open when it is enabled and contains the present phase (R83, R86). -/
def refreshWindows (m : Main) : Main :=
  let ph := phaseNow m
  { m with plan := { m.plan with opened := Vector.ofFn fun w => (activeWin m w).enabled && (activeWin m w).contains ph } }

/-- What a change of the open windows does to fields (R83, R85, R267): one that no window allows any more is dropped, its exchange counted as
an overrun, or its grant taken back when the switch has not closed. `before` is the state before the change, `also` a further test by which a
field stays on. -/
def dropFields (before : Main) (also : Fin 16 → FieldRec → Bool) (m : Main) : Main :=
  forEach (allFin 16) m fun m k =>
    match (m.cores[k]).fld with
    | some f =>
      if planAllows before k f.port f.cls && !planAllows m k f.port f.cls && !also k f then
        if !f.closed then regrant (endField m k) f
        else if (m.cores[k]).exch == .gap && !(m.cores[k]).chain then windowClosed m k f else count m 0x7020 0x09
      else m
    | none => m

/-- Fields are reviewed after a change of the phase; waiting burnish results are written when it passed a window's edge or phase 0 (R180). -/
def fieldsReviewed (before : Main) (passed : Bool) (m : Main) : Main :=
  let m := dropFields before (fun _ _ => false) m
  evaluate (if passed || m.plan.opened != before.plan.opened then commitBurnish m else m)

/-- A slot boundary (R85, R180): fields are reviewed, waiting burnish results are written, and requests are evaluated. -/
def windowsChanged (before : Main) (also : Fin 16 → FieldRec → Bool) (m : Main) : Main := evaluate (commitBurnish (dropFields before also m))

/-- The inactive bank becomes the active one (R88): journalled and counted; only the new plan governs. -/
def switchPlan (m : Main) : Main :=
  let b : Fin 2 := if m.plan.active = 0 then 1 else 0
  let m := { m with plan := { m.plan with active := b, pending := none, switches := sat32 (m.plan.switches + 1) } }
  journal m 0x01 0x2007 [b.val, m.ph.cycle]

/-- A pending switch takes place at a passage of phase 0 once its target is reached or passed; at the first passage for target 0
(R88). `old` is the cycle count before the passage. -/
def maybeSwitch (m : Main) (old : Nat) : Main :=
  match m.plan.pending with
  | some t => if t = 0 || m.ph.cycle = t || decide (t ≤ old) then switchPlan m else m
  | none => m

/-- Phase 0 is passed forward: the cycle count rises (R71), a pending switch takes place, the count of rejected edges starts
anew (R68), and a new synthetic period takes effect (R73). -/
def passZero (m : Main) : Main :=
  let old := m.ph.cycle
  let m := modPh m fun p =>
    { p with cycle := (p.cycle + 1) % 2 ^ 32, rejects := 0,
             period := if p.st = 0 || p.st = 3 then p.pendPeriod.getD p.period else p.period, pendPeriod := none }
  maybeSwitch m old

/-- Windows that a forward jump from phase `a` by `d` units skips whole (R86). -/
def skipped (m : Main) (a d : Nat) : Nat :=
  ((allFin 64).filter fun w =>
    let x := activeWin m w
    let s := fromSigned 16 ((x.start : Int) - a)
    let len := fromSigned 16 ((x.stop : Int) - x.start)
    x.enabled && x.start != x.stop && decide (1 ≤ s) && decide (s + len ≤ d)).length

/-- The generator is based at its present phase, the accumulator's fraction with it, so that a new rate does not move it. -/
def rebase (m : Main) : Main :=
  let v := fromSigned 48 (if encFollows m then ((encPhase m * 2 ^ 32 : Nat) : Int) else phaseFine m.ph m.now)
  modPh m fun p => { p with base := v / 2 ^ 32, frac := v % 2 ^ 32, at_ := m.now }

/-- A step of the phase by −e (R71): ahead, it is held for e units; behind, it jumps, over phase 0 too, and the windows follow
(R86). With it, whether a window's edge or phase 0 was passed. -/
def stepPhase (m : Main) (e : Int) (period : Nat) : Main × Bool :=
  let a := phaseNow m
  let m := rebase m
  if 0 ≤ e then
    (modPh m fun p => { p with hold := m.now + e.toNat * period / 65536, slewE := 0, slewEnd := 0, period := period }, false)
  else
    let d := (-e).toNat
    let n := skipped m a d
    let m := countN m 0x7020 0x0A n
    let m := modPh m fun p => { p with base := (a + d) % 65536, hold := 0, slewE := 0, slewEnd := 0, period := period }
    let m := if 65536 ≤ a + d then passZero m else m
    (refreshWindows m, n != 0 || decide (65536 ≤ a + d))

/-- The correction of R70 at an accepted edge with error e. -/
def correctPhase (m : Main) (e : Int) (period : Nat) : Main :=
  if e.natAbs ≤ cfgN m 0x2000 0x07 then
    modPh (rebase m) fun p => { p with slewE := e, slewEnd := m.now + period, period := period, hold := 0 }
  else
    let r := stepPhase (count m 0x7020 0x03) e period
    fieldsReviewed m r.2 (journal r.1 0x01 0x2004 [fromSigned 32 e])

/-- The generator in FREE, or in INTERNAL: acquisition starts anew, on the synthetic cycle from the next boundary on (R73). -/
def toFree (m : Main) (st : Nat) : Main :=
  modPh (rebase m) fun p =>
    { p with st := st, acq := [], intervals := [], lastEdge := none, missed := 0, accepted := false,
             pendPeriod := some (cfgN m 0x2000 0x0A * tickUs) }

/-- FREE is entered; with [2000:0C] = 1 only probes and burnish are granted from then on (R75). -/
def enterFree (m : Main) (st : Nat) : Main := fieldsReviewed m false (toFree m st)

/-- COAST ends in FREE: counted and journalled (R73). -/
def coastEnds (m : Main) : Main := journal (count (enterFree m 0) 0x7020 0x05) 0x01 0x2003 []

/-- The plausibility window passes with no accepted edge, or a follower misses an update (R73, R90). -/
def missedEdge (m : Main) : Main :=
  let level := match m.ph.filt with
    | some f => f.1
    | none => m.ph.level
  if m.ph.st = 1 then
    let m := modPh m fun p => { p with st := 2, missed := p.missed + 1 }
    let m := journal (count m 0x7020 0x04) 0x01 0x2002 [bitN level]
    if cfgN m 0x2000 0x09 = 0 then coastEnds m else m
  else if m.ph.st = 2 then modPh m fun p => { p with missed := p.missed + 1 }
  else m

/-- The lead's PHASE broadcast (R536; layout log 14): stamp, cycle count, phase with state and boundary mark, period estimate. -/
def sendPhase (m : Main) (boundary : Bool) : Main :=
  if m.lace.role = 1 then
    let t := tickAt m m.now
    laceSend m 0x2 none [word t, word (t / 2 ^ 32), word m.ph.cycle,
      word (phaseNow m + place 16 2 m.ph.st + place 20 1 (bitN boundary)), word m.ph.period]
  else m

end Sys2Proof.Machine
end

