-- ==== Sys2Proof/Machine/Phase.lean ====
section
/-!
DEFINITION. Machine/Phase.lean: the meanings of the phase unit generator's steps (chapter 03).
-/

namespace Sys2Proof.Machine

/-- An edge is rejected (R67, R68): more than 8 within one cycle are journalled, at most once per second. -/
def rejectEdge (m : Main) : Main :=
  let m := modPh m fun p => { p with rejects := p.rejects + 1 }
  let due := (m.ph.noisyAt.map fun t => decide (t + tickS ≤ m.now)) != some false
  if 8 < m.ph.rejects && due then
    journal (modPh m fun p => { p with noisyAt := some m.now }) 0x01 0x2005 [m.ph.rejects]
  else m

/-- The level of `PHREF` changes: a change that ends before it is an edge is a glitch (R67). -/
def phrefLevel (m : Main) (level : Bool) : Main :=
  if !engOn m then m
  else match m.ph.filt with
    | some f =>
      if f.1 = level then m
      else
        let m := rejectEdge (count m 0x7020 0x01)
        modPh m fun p => { p with filt := if level = p.level then none else some (level, m.now) }
    | none => if level = m.ph.level then m else modPh m fun p => { p with filt := some (level, m.now) }

/-- PHREF_LEVEL_CHANGE. -/
def execPhrefLevelChange (level : Bool) (s : State) : Out := onMain (fun m => phrefLevel m level) s

/-- Whether an interval lies in the accepted rate: 40–70 Hz, or 80–140 Hz with two edges a cycle (R66). -/
def rateOk (m : Main) (i : Nat) : Bool :=
  let k := if cfgN m 0x2000 0x04 = 2 then 2 else 1
  decide (tickS ≤ i * 70 * k) && decide (i * 40 * k ≤ tickS)

/-- The three intervals of four edges, if they are consistent (R69). -/
def acquired (m : Main) (ts : List Nat) : Option (List Nat) :=
  match ts with
  | [a, b, c, d] =>
    let is := [b - a, c - b, d - c]
    let sum := d - a
    if is.all fun i => rateOk m i && decide (((3 * i : Nat) - (sum : Int)).natAbs * 50 ≤ sum) then some is else none
  | _ => none

/-- An edge in FREE (R69). -/
def acquireEdge (m : Main) (t : Nat) : Main :=
  let ts := m.ph.acq ++ [t]
  let ts := ts.drop (ts.length - 4)
  match acquired m ts with
  | none => modPh m fun p => { p with acq := ts }
  | some is =>
    let e := wrap16 ((phaseAt m t : Int) - cfgN m 0x2000 0x05)
    let before := m
    let m := modPh m fun p =>
      { p with st := 1, acq := [], intervals := is.reverse, lastEdge := some t, missed := 0, accepted := true, pendPeriod := none }
    let r := stepPhase m e (sumN is / 3)
    fieldsReviewed before r.2 (journal r.1 0x01 0x2001 [])

/-- An accepted edge (R70): the interval since the last one counts once for each cycle it spans; the period estimate is the mean
of the last [2000:06]; COAST gives way to LOCKED. -/
def acceptEdge (m : Main) (t : Nat) (e : Int) : Main :=
  let n := m.ph.missed + 1
  let is := match m.ph.lastEdge with
    | some l => List.replicate n ((t - l) / n) ++ m.ph.intervals
    | none => m.ph.intervals
  let is := is.take 8
  let used := is.take (cfgN m 0x2000 0x06)
  let period := if used.isEmpty then m.ph.period else max 1 (sumN used / used.length)
  correctPhase (modPh m fun p => { p with st := 1, intervals := is, lastEdge := some t, missed := 0, accepted := true }) e period

/-- Whether an edge lies within ±[2000:0B] % of the period estimate of the moment at which the phase reaches [2000:05] (R68): the phase a
window's length before it has not passed that offset, and a window's length after it has. -/
def edgePlausible (m : Main) (t : Nat) : Bool :=
  let w := cfgN m 0x2000 0x0B * m.ph.period / 100
  let e := toSigned 48 (fromSigned 48 (phaseFine m.ph t - ((cfgN m 0x2000 0x05 * 2 ^ 32 : Nat) : Int)))
  decide (e * m.ph.period ≤ phaseSpan m.ph (t - w) t * 2 ^ 32) && decide (-e * m.ph.period ≤ phaseSpan m.ph t (t + w) * 2 ^ 32)

/-- An edge of the selected polarity timed `t` (R68–R70). -/
def phrefEdge (m : Main) (t : Nat) : Main :=
  if phaseSource m != 1 then m
  else if m.ph.st = 0 then acquireEdge m t
  else if m.ph.st = 1 || m.ph.st = 2 then
    let e := wrap16 ((phaseAt m t : Int) - cfgN m 0x2000 0x05)
    if !m.ph.accepted && edgePlausible m t then acceptEdge m t e
    else rejectEdge (count m 0x7020 0x02)
  else m

/-- A level change has held for [2000:08] (R67). -/
def phrefQualified (m : Main) : Main :=
  match m.ph.filt with
  | some f =>
    let m := modPh m fun p => { p with level := f.1, filt := none }
    if f.1 = !cfgB m 0x2000 0x03 then phrefEdge m f.2 else m
  | none => m

/-- PHREF_EDGE_QUALIFIED. -/
def execPhrefEdgeQualified (s : State) : Out := onMain phrefQualified s

/-- The extended plausibility window ends (R68, R73). -/
def plausibilityEnd (m : Main) : Main :=
  if phaseSource m != 1 then m
  else if m.ph.accepted then modPh m fun p => { p with accepted := false }
  else missedEdge m

/-- PLAUSIBILITY_WINDOW_END. -/
def execPlausibilityWindowEnd (s : State) : Out := onMain plausibilityEnd s

/-- [2000:09] consecutive cycles have ended with no accepted edge (R73). -/
def coastLimit (m : Main) : Main := if m.ph.st = 2 && phaseSource m != 2 then coastEnds m else m

/-- COAST_LIMIT. -/
def execCoastLimit (s : State) : Out := onMain coastLimit s

/-- A write of [2000:01] in CALIBRATE (R73, R90, R91): a status of R456. -/
def sourceWrite (s : State) (v : Nat) : Nat × State :=
  if s.m.pw.mode != .calibrate then (5, s)
  else if 3 ≤ v then (6, s)
  else if s.m.lace.role = 2 then (8, s)
  else
    let fresh := modPh (toFree s.m (if v = 0 then 3 else 0)) fun p =>
      { p with encFirst := true, encPassed := false, encRevs := 0, encLostJ := false, encBins := [] }
    let r := setEntry { s with m := fresh } 0x2000 0x01 v
    if r.1 then (0, { r.2 with m := fieldsReviewed s.m false r.2.m }) else (8, { r.2 with m := { r.2.m with ph := s.m.ph } })

/-- PHASE_SOURCE_WRITE. -/
def execPhaseSourceWrite (value : BitVec 8) (s : State) : Out := onLedger 0x2000 0x01 value.toNat (fun s => (sourceWrite s value.toNat).2) s

/-- A write of [2000:05] (R72, R90, R91): a status of R456. -/
def offsetWrite (m : Main) (v : Nat) : Nat × Main :=
  if !m.pw.mode.isMain then (5, m)
  else if m.lace.role = 2 then (8, m)
  else (0, cfgSet m 0x2000 0x05 v)

/-- PHASE_OFFSET_WRITE. -/
def execPhaseOffsetWrite (value : BitVec 16) (s : State) : Out := onService (fun m => (offsetWrite m value.toNat).2) s

/-- A write of [2000:0A] (R73, R90, R91): a status of R456. -/
def nominalWrite (s : State) (v : Nat) : Nat × State :=
  if !s.m.pw.mode.isMain then (5, s)
  else if v < 7143 || 25000 < v then (6, s)
  else if s.m.lace.role = 2 then (8, s)
  else
    let r := setEntry s 0x2000 0x0A v
    if r.1 then
      (0, if r.2.m.ph.st == 0 || r.2.m.ph.st == 3 then { r.2 with m := modPh r.2.m fun p => { p with pendPeriod := some (v * tickUs) } }
          else r.2)
    else (8, r.2)

/-- NOMINAL_PERIOD_WRITE. -/
def execNominalPeriodWrite (value : BitVec 32) (s : State) : Out := onLedger 0x2000 0x0A value.toNat (fun s => (nominalWrite s value.toNat).2) s

/-- The phase passes 0, for every source but the encoder's count (R71, R73, R88, R180, R536). -/
def cycleBoundary (m : Main) : Main :=
  if !engOn m || encFollows m then m
  else
    let before := m
    let m := passZero (modPh m fun p => { p with base := 0, frac := 0, at_ := m.now })
    let m := if m.plan.active = before.plan.active then m else refreshWindows m
    sendPhase (windowsChanged before (fun _ _ => false) m) true

/-- CYCLE_BOUNDARY. -/
def execCycleBoundary (s : State) : Out := onMain cycleBoundary s

/-- The position in the four-phase cycle of the two encoder inputs: `ENC_A` leads on rising counts (R77). -/
def quadIndex (a b : Bool) : Nat := match a, b with | false, false => 0 | true, false => 1 | true, true => 2 | false, true => 3

/-- Distance of a count from 0, modulo [2000:10] (R78). -/
def countDistance (n counts : Nat) : Nat := min n (counts - n)

/-- A count is added to the bin of its millisecond; eleven bins are kept (R85; log 35). -/
def binCount (l : List (Nat × Nat)) (ms : Nat) : List (Nat × Nat) :=
  match l with
  | (n, c) :: rest => if n = ms then (n, c + 1) :: rest else ((ms, 1) :: l).take 11
  | [] => [(ms, 1)]

/-- The encoder's phase passes 0: the cycle count rises or falls, a pending switch takes place, and the passage is a slot boundary (R79, R88,
R180). -/
def turnZero (before m : Main) (up : Bool) : Main :=
  let old := m.ph.cycle
  let m := maybeSwitch (modPh m fun p => { p with cycle := (p.cycle + (if up then 1 else 2 ^ 32 - 1)) % 2 ^ 32 }) old
  windowsChanged before (fun _ _ => false) (if m.plan.active = before.plan.active then m else refreshWindows m)

/-- The count and its phase move; the cycle count follows a passage of phase 0 in either direction (R77, R79, R88). -/
def moveCount (m : Main) (up : Bool) : Main :=
  let n := max 1 (cfgN m 0x2000 0x10)
  let a := phaseNow m
  let c := if up then (m.ph.encCount + 1) % n else (m.ph.encCount + n - 1) % n
  let before := m
  let m := modPh m fun p => { p with encCount := c, encDir := bitN (!up), encBins := binCount p.encBins (m.now / tickMs) }
  let b := phaseNow m
  if !encFollows m then m
  else if up && decide (b < a) then turnZero before m true
  else if !up && decide (a < b) then turnZero before m false
  else m

/-- The count has passed [2000:11] beyond 0 without an index (R79): the first one is counted in [7020:06] with the entry to COAST, which
[7020:04] does not count; a revolution without one is counted towards [2000:09], at which the loss is journalled once (log 35). -/
def indexMissing (m : Main) : Main :=
  let tol := cfgN m 0x2000 0x11
  let n := max 1 (cfgN m 0x2000 0x10)
  let d := countDistance m.ph.encCount n
  if d ≤ tol then (if m.ph.encCount = 0 then modPh m fun p => { p with encPassed := true } else m)
  else if m.ph.encPassed && d = tol + 1 then
    let m := modPh m fun p => { p with encPassed := false, encRevs := p.encRevs + 1 }
    let m := if m.ph.st = 1 then modPh (count m 0x7020 0x06) fun p => { p with st := 2 } else m
    if m.ph.st = 2 && decide (cfgN m 0x2000 0x09 ≤ m.ph.encRevs) && !m.ph.encLostJ then
      journal (modPh m fun p => { p with encLostJ := true }) 0x01 0x2006 []
    else m
  else m

/-- Both inputs change at once (R77, R79); the entry to FREE from COAST that follows is not one of [7020:05] (log 35). -/
def quadError (m : Main) : Main :=
  let m := count m 0x7020 0x08
  if m.ph.st = 1 || m.ph.st = 2 then modPh (enterFree m 0) fun p => { p with encFirst := true, encPassed := false, encRevs := 0 } else m

/-- A filtered transition of the encoder inputs (R77, R79, R80). -/
def encoderMove (m : Main) (a b : Bool) : Main :=
  if !engOn m || phaseSource m != 2 then m
  else
    let d := (quadIndex a b + 4 - quadIndex m.ph.encA m.ph.encB) % 4
    let m := modPh m fun p => { p with encA := a, encB := b }
    if d = 0 then m
    else if d = 2 then quadError m
    else indexMissing (moveCount m ((d = 1) != cfgB m 0x2000 0x14))

/-- ENCODER_TRANSITION. -/
def execEncoderTransition (a b : Bool) (s : State) : Out := onMain (fun m => encoderMove m a b) s

/-- An index pulse (R78, R79). The first one after the source is selected is always accepted. -/
def encoderIndex (m : Main) : Main :=
  if !engOn m || phaseSource m != 2 then m
  else
    let n := max 1 (cfgN m 0x2000 0x10)
    let ok := m.ph.encFirst || m.ph.st == 0 || decide (countDistance m.ph.encCount n ≤ cfgN m 0x2000 0x11)
    if !ok then count m 0x7020 0x07
    else
      let was := m.ph.st
      let before := m
      let a := phaseNow m
      let near := decide (cfgN m 0x2000 0x10 < 2 * m.ph.encCount)
      let m := modPh m fun p =>
        { p with encCount := 0, encFirst := false, encPassed := false, encRevs := 0, encLostJ := false, st := 1, missed := 0 }
      let m := if was = 0 then journal m 0x01 0x2001 [] else m
      let b := phaseNow m
      if near && was != 0 && decide (b < a) then turnZero before (refreshWindows m) true
      else if !near && was != 0 && decide (a < b) then turnZero before (refreshWindows m) false
      else fieldsReviewed before false (refreshWindows m)

/-- ENCODER_INDEX. -/
def execEncoderIndex (s : State) : Out := onMain encoderIndex s

/-- No count for 100 ms (R80). -/
def encoderStopped (m : Main) : Main := if phaseSource m = 2 then modPh m fun p => { p with encDir := 2 } else m

/-- ENCODER_STOPPED. -/
def execEncoderStopped (s : State) : Out := onMain encoderStopped s

/-- The extended phase nearest to a value that has the phase of [2000:05] (R69, R81). -/
def aoSnap (m : Main) (ext : Nat) : Nat := ((ext : Int) - wrap16 ((ext % 65536 : Nat) - (cfgN m 0x2000 0x05 : Int))).toNat

/-- An edge of `PHREF` at the always-on counter: acquisition, plausibility and coasting as in R68, R69 and R73, at the resolution of the sleep
clock (R81). -/
def aoPhref (m : Main) : AoPhase × Bool :=
  let a := m.ph.ao
  let t := m.now
  let ext := aoExt a t
  let n := (ext - a.ext + 32768) / 65536
  let a := if a.st = 1 && decide (cfgN m 0x2000 0x09 + 1 < n) then { a with st := 0, acq := [] } else a
  if a.st = 1 then
    let e := (wrap16 ((ext % 65536 : Nat) - (cfgN m 0x2000 0x05 : Int))).natAbs
    if e * 100 ≤ cfgN m 0x2000 0x0B * 65536 then
      ({ a with ext := aoSnap m ext, at_ := t, period := if n = 0 then a.period else max 1 ((t - a.at_) / n) }, true)
    else (a, false)
  else
    let ts := a.acq ++ [t]
    let ts := ts.drop (ts.length - 4)
    match acquired m ts with
    | some is => ({ st := 1, ext := aoSnap m ext, at_ := t, period := max 1 (sumN is / 3) }, true)
    | none => ({ a with acq := ts }, true)

/-- The always-on counter counts from `PHREF` edges, or with the encoder from index pulses, while `ENG` is off (R81). An edge that is not
plausible is counted where the counters are kept, in WATCH. -/
def aoEdge (m : Main) : Main :=
  if engOn m || !m.pw.aoUp then m
  else match phaseSource m with
    | 1 =>
      let r := aoPhref m
      countIf (!r.2 && m.pw.mode == .watch) (modPh m fun p => { p with ao := r.1 }) 0x7020 0x02
    | 2 => modPh m fun p =>
        { p with ao := { p.ao with ext := (p.ao.ext / 65536 + 1) * 65536 + cfgN m 0x2000 0x05, at_ := m.now, period := max 1 (m.now - p.ao.at_) } }
    | _ => m

/-- AO_PHASE_COUNTER_EDGE. -/
def execAoPhaseCounterEdge (s : State) : Out := onMain aoEdge s

end Sys2Proof.Machine
end

