-- ==== Sys2Proof/Machine/Plan.lean ====
section
/-!
DEFINITION. Machine/Plan.lean: the meanings of the slot plan's steps (R82–R89).
-/

namespace Sys2Proof.Machine

/-- The phase at a window's boundary: its `END` on a forward passage, the unit before its `START` on a backward one (R80). -/
def boundaryPhase (m : Main) (w : Window) : Nat :=
  if encFollows m && m.ph.encDir == 1 then fromSigned 16 ((w.start : Int) - 1) else w.stop

/-- An enabled window of the active plan opens or closes (R83). At a close, a field stays on that another window without a gap
allows (R85). -/
def windowBoundary (m : Main) (w : Fin 64) (opens : Bool) : Main :=
  let x := activeWin m w
  if !engOn m || !x.enabled then m
  else
    let before := m
    let m := { m with plan := { m.plan with opened := m.plan.opened.set w opens } }
    let at_ := boundaryPhase m x
    windowsChanged before (fun k f => (allFin 64).any fun v =>
      v != w && (activeWin m v).allows k f.port f.cls && (activeWin m v).contains at_ &&
      (decide (m.ph.st ≠ 0 ∨ cfgN m 0x2000 0x0C = 0) || decide (3 ≤ f.cls))) m

/-- WINDOW_BOUNDARY. -/
def execWindowBoundary (win : Fin 64) (opens : Bool) (s : State) : Out := onMain (fun m => windowBoundary m win opens) s

/-- A target cycle count is written to [2010:02] (R88); refused while a window of the inactive bank has a reserved bit set
(R89). The answer is a status of R456. -/
def planRequest (m : Main) (target : Nat) : Nat × Main :=
  if !m.pw.mode.isMain then (5, m)
  else if target = 0xFFFFFFFF then (0, { m with plan := { m.plan with pending := none } })
  else
    let b : Fin 2 := if m.plan.active = 0 then 1 else 0
    if (m.plan.bank b).toList.all Window.clean then (0, { m with plan := { m.plan with pending := some target } })
    else (8, count m 0x7020 0x0B)

/-- PLAN_SWITCH_REQUEST. -/
def execPlanSwitchRequest (target : BitVec 32) (s : State) : Out := onService (fun m => (planRequest m target.toNat).2) s

/-- A pending switch is cancelled (R89). -/
def planCancel (m : Main) : Main :=
  if m.pw.mode.isMain then { m with plan := { m.plan with pending := none } } else m

/-- PLAN_SWITCH_CANCEL. -/
def execPlanSwitchCancel (s : State) : Out := onService planCancel s

/-- A window entry is written; refused for the active bank, and for the inactive one while a switch is pending (R89). The answer is a
status of R456. -/
def planWrite (m : Main) (b : Fin 2) (w : Fin 64) (x : Window) : Nat × Main :=
  if !m.pw.mode.isMain then (5, m)
  else if b = m.plan.active || m.plan.pending.isSome then (8, count m 0x7020 0x0B)
  else if b = 0 then (0, { m with plan := { m.plan with bank0 := m.plan.bank0.set w x } })
  else (0, { m with plan := { m.plan with bank1 := m.plan.bank1.set w x } })

/-- PLAN_WINDOW_WRITE. -/
def execPlanWindowWrite (bank : Fin 2) (win : Fin 64) (w0 w1 w2 w3 : Word) (s : State) : Out :=
  onService (fun m => (planWrite m bank win { w0 := w0, w1 := w1, w2 := w2, w3 := w3 }).2) s

end Sys2Proof.Machine
end

