-- ==== Sys2Proof/Machine/ReadOps.lean ====
section
/-!
DEFINITION. Machine/ReadOps.lean: the cell pool seen from its consumers: reading words with their tags (R329, R330), packets that
a double-bit error has struck (R346, R348), and whole packets for the internal consumers.
-/

namespace Sys2Proof.Machine

/-- A cell is retired (R348): journalled; the 256th retirement is a pool fault. -/
def retireCell (m : Main) (cell : Nat) : Main :=
  if m.pool.retired.contains cell then m
  else
    let m := { m with pool := { m.pool with retired := m.pool.retired ++ [cell], singles := mapDel cell m.pool.singles } }
    let m := journal m 0x30 0x5002 [cell]
    if m.pool.retired.length = 256 then poolFault m 1 else m

/-- A double-bit error is met at a read: counted, journalled, and its cell retired (R346, R348). -/
def doubleError (m : Main) (q : Fin 32) (cell : Nat) : Main :=
  retireCell (journal (count m 0x70C0 0x07) 0x30 0x5001 [q.val, cell]) cell

/-- The error that strikes a word of a packet, by its cell. -/
def Packet.struck (p : Packet) (place : Nat) : Option Nat := (p.poison.find? fun x => x.1 == place).map (·.2)

def dropHead (m : Main) (q : Fin 32) : Main := modQ m q fun x => { x with pkts := x.pkts.drop 1 }

/-- Packets at the head whose length word is struck are freed (R346); at most as many as the queue holds. -/
def clearHead : Nat → Main → Fin 32 → Main
  | 0, m, _ => m
  | n + 1, m, q =>
    match (m.pool.qs[q]).pkts with
    | p :: _ =>
      if p.opened then m
      else match p.struck 0 with
        | some c => if p.rd = 0 then clearHead n (doubleError (dropHead m q) q c) q else m
        | none => m
    | [] => m

/-- One word read from a queue with its tag (R329, R330, R346). -/
def readWord (m : Main) (q : Fin 32) : Nat × Word × Main :=
  let m := clearHead (m.pool.qs[q]).pkts.length m q
  match (m.pool.qs[q]).pkts with
  | [] => (0x00, 0, m)
  | p :: _ =>
    if p.opened then (0x00, 0, m)
    else
      let n := p.words.length
      match p.struck p.rd with
      | some c => (0x83, 0, doubleError (dropHead m q) q c)
      | none =>
        let w := if p.rd = 0 then word p.lengthWord else nth p.words (p.rd - 1) 0
        if p.rd = n then (0x83, w, dropHead m q)
        else
          (if p.rd = 0 then 0x81 else 0x82, w,
           modQ m q fun x => { x with pkts := x.pkts.map fun y => if y.id = p.id then { y with rd := y.rd + 1 } else y })

/-- n words read from a queue (R330). -/
def readWords : Nat → Main → Fin 32 → List (Nat × Word) × Main
  | 0, m, _ => ([], m)
  | n + 1, m, q =>
    let r := readWord m q
    let s := readWords n r.2.2 q
    ((r.1, r.2.1) :: s.1, s.2)

/-- The closed packet at the head of a queue, once headless packets are freed. -/
def peekPkt (m : Main) (q : Fin 32) : Option Packet :=
  match (m.pool.qs[q]).pkts with
  | p :: _ => if p.opened then none else some p
  | [] => none

/-- What an internal consumer finds at the head of a queue: nothing, a packet cut short, which it discards and counts
(R346), or a packet, which stays until it is dropped. -/
inductive Head where
  | nothing
  | short
  | packet (p : Packet)
  deriving DecidableEq, Repr

/-- An internal consumer reads the head of a queue. -/
def headOf (m : Main) (q : Fin 32) : Head × Main :=
  let m := clearHead (m.pool.qs[q]).pkts.length m q
  match peekPkt m q with
  | none => (.nothing, m)
  | some p =>
    match p.poison.foldl (fun (acc : Option (Nat × Nat)) x =>
        match acc with
        | some a => if x.1 < a.1 then some x else acc
        | none => some x) none with
    | some x => (.short, count (doubleError (dropHead m q) q x.2) 0x70C0 0x0C)
    | none => (.packet p, m)

end Sys2Proof.Machine
end

