-- ==== Sys2Proof/Machine/Sched.lean ====
section
/-!
DEFINITION. Machine/Sched.lean: the meanings of the field scheduler's own steps (chapters 04 and 05): a request arrives, a
governor bin ends, a request is reserved for.
-/

namespace Sys2Proof.Machine

/-- A request arrives at the scheduler, which evaluates its requests (R126). -/
def grantRequest (m : Main) (who : Owner) (port : Fin 128) : Main :=
  match requestOf m who port with
  | some r => evaluate (addReq m r)
  | none => evaluate m

/-- GRANT_REQUEST. -/
def execGrantRequest (who : Owner) (port : Fin 128) (s : State) : Out := onMain (fun m => grantRequest m who port) s

/-- A 1 ms bin ends: the energy window advances and refused grants are requested again (R118). -/
def governorBin (m : Main) : Main :=
  if !m.pw.mode.isMain then m
  else
    let m := accrue m
    evaluate { m with sch := { m.sch with bins := (0 :: m.sch.bins).take 1000, reqs := m.sch.reqs.map fun r => { r with waitBin := false } } }

/-- GOVERNOR_BIN_BOUNDARY. -/
def execGovernorBinBoundary (s : State) : Out := onMain governorBin s

/-- A request has waited longer than [2300:0E]: the scheduler reserves for it (R128). -/
def reserve (m : Main) (who : Owner) : Main :=
  match m.sch.reqs.find? fun r => r.owner == who with
  | some r => if r.reserved then m else putReq (count m 0x7040 0x0A) { r with reserved := true }
  | none => m

/-- RESERVATION. -/
def execReservation (who : Owner) (s : State) : Out := onMain (fun m => reserve m who) s

end Sys2Proof.Machine
end

