-- ==== Sys2Proof/Machine/Cores.lean ====
section
/-!
DEFINITION. Machine/Cores.lean: the meanings of the field cores' steps (chapter 04): switching, the port check, ramp, trips,
field off, and the service states of ports and cores.
-/

namespace Sys2Proof.Machine

/-- A close that the interlock refuses: counted, journalled as a fault of the scheduler (R95, R560). -/
def interlockRefusal (m : Main) (k : Fin 16) (f : FieldRec) : Main :=
  let m := journal (count m 0x7030 0x0B) 0x12 0x3004 [f.port.val, k.val]
  schedFault (regrant (endField m k) f) 1

/-- The array code of a port on a core: the fixed one, else burnish's for the path from that core (R98). -/
def tuneCode (m : Main) (k : Fin 16) (p : Fin 128) : Nat :=
  if tuneFixed m p then cfgN m (0x2200 + p.val) 0x07 else if k == homeCore p then (m.ports[p]).tuneHome else (m.ports[p]).tuneAlt

/-- The settings of a port in force from this switch close: its array is loaded, its park released (R98, R99, R105, R120). -/
def portClose (m : Main) (k : Fin 16) (p : Fin 128) : Main :=
  modPort m p fun x =>
    { x with array := tuneCode m k p, shorted := false, openLim := cfgN m (0x2200 + p.val) 0x08, shortLim := cfgN m (0x2200 + p.val) 0x09,
             retestEvery := cfgN m (0x2200 + p.val) 0x0A, parkShort := cfgN m (0x2200 + p.val) 0x0D != 0,
             state := if x.state = 0 then 1 else x.state }

/-- The switch closes on the new port: the level, drive phase and tuning in force, the phase corrections of the core and of the
device added, the own-carrier coefficient put in force, the core's own DACs loaded (R99, R100, R105, R109, R110, R112, R145, R181, R538). -/
def closeSwitch (m : Main) (k : Fin 16) (f : FieldRec) : Main :=
  let m := accrue m
  let m := modCore m k fun c =>
    { c with fld := some { f with closed := true, since := m.now, level := ownerLevel m f.owner k f.port, at95 := false,
                                    coef := ownCoeff m k f.port },
             portNow := some f.port, drivePhase := f.code, applied := (((f.code : Int) + c.phaseCal + m.lace.devPhase) % 1024).toNat, changeHeld := false }
  loadDac (portClose m k f.port) k

/-- A core moves to its granted port (R105), once every coupled port is in a gap (R133). -/
def portSwitch (m : Main) (k : Fin 16) (otherOpen : Bool) : Main :=
  match (m.cores[k]).fld, fieldView m k with
  | some f, some v =>
    if f.closed then m
    else if !planAllows m k f.port f.cls then evaluate (regrant (endField m k) f)
    else if !otherOpen then interlockRefusal m k f
    else if changeBlocked m v then holdChange m k
    else closeSwitch m k f
  | _, _ => m

/-- PORT_SWITCH. -/
def execPortSwitch (core : Fin 16) (otherOpen : Bool) (s : State) : Out := onMain (fun m => portSwitch m core otherOpen) s

/-- The state a measured impedance gives against the limits of SHORT and OPEN: 0 passed, 2 OPEN, 3 SHORT (R111). Where both hold, the port
is SHORT (log 43). -/
def zState (short open_ zMag : Nat) (zArg : Int) : Nat :=
  if zMag < 10 * short then 3
  else if 10 * open_ < zMag || decide (600 < zArg.natAbs) then 2
  else 0

/-- The check of a port (R111), by the limits in force since its switch close (R120). -/
def checkPort (m : Main) (p : Fin 128) (zMag : Nat) (zArg : Int) : Nat := zState (m.ports[p]).shortLim (m.ports[p]).openLim zMag zArg

/-- A check of a port is added to its sums; every [2800:05] checks through a core give a tuning estimate when incremental
burnish runs (R176, R186, R190). -/
def noteCheck (m : Main) (k : Fin 16) (p : Fin 128) (zMag : Nat) (zArg : Int) : Main :=
  let alt := k != homeCore p
  let m := modPort m p fun x =>
    { x with checks := (zArg :: x.checks).take 64,
             checksHome := if alt then x.checksHome else ((zArg, zMag) :: x.checksHome).take 64,
             checksAlt := if alt then ((zArg, zMag) :: x.checksAlt).take 64 else x.checksAlt }
  let l := if alt then (m.ports[p]).checksAlt else (m.ports[p]).checksHome
  let n := cfgN m 0x2800 0x05
  let m :=
    if incremental m && decide (n ≤ l.length) then
      let t := l.take n
      modPort (addResult m (.tune p alt (sumI (t.map (·.1))) (sumN (t.map (·.2))) n)) p fun x =>
        { x with checksHome := if alt then x.checksHome else [], checksAlt := if alt then [] else x.checksAlt }
    else m
  updateFast m p

/-- Ports whose faults a core fault of cause 0x05 withdraws: they return to IDLE and are retested through their other core (R114). -/
def withdrawFaults (m : Main) (k : Fin 16) : Main :=
  forEach (((m.cores[k]).portFaultAt.filter fun x => decide (m.now < x.2 + tickS)).map (·.1)) m fun m p =>
    modPort m p fun x => if x.state = 2 || x.state = 3 then { x with state := 0, retestDue := true, retestVia := some (if k == homeCore p then altCore p else homeCore p) } else x

/-- Core fault of a cause; 0x05 withdraws the port faults first (R114, R115). -/
def coreFaultBy (m : Main) (k : Fin 16) (cause : Nat) : Main :=
  if cause = 0 then m
  else if cause = 5 then pumpRetest (coreFault (modCore (withdrawFaults m k) k fun c => { c with portFaultAt := [] }) k 5)
  else coreFault m k cause

/-- The owner of a field whose port failed its check (R111, R301). -/
def ownerPortFault (m : Main) (k : Fin 16) (f : FieldRec) (st : Nat) : Main :=
  match f.owner with
  | .ctx e c =>
    let x := ctxOf m e c
    if x.st == .run && x.core == some k then
      let body := x.sc.prog.body ((x.job.map (·.opcode)).getD 0)
      endStitch m e c 8 st (!body.isEmpty) body
    else m
  | .lane l =>
    let m := modLane m l fun x => { x with todo := x.todo.filter (· != f.port), sc := {} }
    reportPort { m with sv := { m.sv with visited := m.sv.visited ++ [f.port] } } l f.port { status := 8, core := some k }
  | _ => m

/-- A failed check or a trip: the field ends, the port is OPEN or SHORT; three distinct ports within 1 s are a core fault
(R111, R112, R114). -/
def portFail (m : Main) (k : Fin 16) (f : FieldRec) (st : Nat) : Main :=
  let p := f.port
  let m := count m 0x7030 (if st = 3 then 0x02 else 0x01)
  let m := modPort m p fun x => { x with state := st, faults := sat32 (x.faults + 1) }
  let x := m.ports[p]
  let m := journal m (0x02 + k.val) 0x3001 [p.val, st, x.zMag, fromSigned 16 x.zArg]
  let m := modCore m k fun c =>
    { c with portFaultAt := (c.portFaultAt.filter fun y => y.1 != p && decide (m.now < y.2 + tickS)) ++ [(p, m.now)] }
  if 3 ≤ (m.cores[k]).portFaultAt.length then coreFaultBy m k 5
  else
    let m := ownerPortFault (coreRest (endField m k) k) k f st
    evaluate m

/-- The result of a retest (R112, R113). -/
def retestResult (m : Main) (k : Fin 16) (f : FieldRec) (st : Nat) : Main :=
  let p := f.port
  let was := (m.ports[p]).state
  let m := modPort m p fun x => { x with retestDue := false, retestVia := none }
  if st = 0 then
    let m := journal (count m 0x7030 0x08) (0x02 + k.val) 0x3002 [p.val]
    orderOff (modPort m p fun x => if x.state = 2 || x.state = 3 then { x with state := 0 } else x) k
  else
    let m := count m 0x7030 0x09
    if was = 2 || was = 3 then pumpRetest (fieldOff m k) else portFail m k f st

/-- The check 6 µs into the ramp (R111). -/
def portCheck (m : Main) (k : Fin 16) (zMag : Nat) (zArg : Int) : Main :=
  match (m.cores[k]).fld with
  | none => m
  | some f =>
    if !f.closed then m
    else
      let st := checkPort m f.port zMag zArg
      let m := modPort m f.port fun x => { x with zMag := zMag, zArg := zArg }
      if f.owner == .retest then retestResult m k f st
      else if st = 0 then noteCheck m k f.port zMag zArg
      else portFail m k f st

/-- PORT_CHECK. -/
def execPortCheck (core : Fin 16) (zMag : Nat) (zArg : Int) (s : State) : Out := onMain (fun m => portCheck m core zMag zArg) s

/-- The SINGLE probe of step 1 of a full burnish (R183). -/
def probeFrame (m : Main) (k : Fin 16) (f : FieldRec) : TxFrame :=
  let t : TxFrame := { bytes := stpBytes f.port.val false 0x02 [], sub8 := f.sub8, mod := stpMod m }
  { t with span := exchangeFc t (StpCmd.replyLen .single) }

/-- The field has reached 95 % of its level: the change is complete; a level clipped for want of VTX is counted (R101, R102,
R104, R134). -/
def fieldAt95 (m : Main) (k : Fin 16) (level : Nat) : Main :=
  match (m.cores[k]).fld with
  | none => m
  | some f =>
    if !f.closed || f.at95 then m
    else
      let lv := min level f.level
      let m := modCore m k fun c =>
        { c with fld := some { f with at95 := true }, levelNow := lv, pendChange := none, changeHold := false, gapFrom := .field,
                 next := if f.owner == .burnish && m.brn.full == 1 && m.brn.step == 1 then some (probeFrame m k f) else none }
      let m :=
        if lv < f.level then
          let o := onceASecond (count m 0x7030 0x05) 0x3003
          if o.1 then journal o.2 (0x02 + k.val) 0x3003 [f.port.val, lv] else o.2
        else m
      evaluate (releaseGaps (sendField m f.port true f))

/-- FIELD_AT_95. -/
def execFieldAt95 (core : Fin 16) (level : Nat) (s : State) : Out := onMain (fun m => fieldAt95 m core level) s

/-- The driver trips (R103): with the matrix open a core fault, else the port is SHORT (R111, R114). -/
def driverTrip (m : Main) (k : Fin 16) (matrixOpen : Bool) : Main :=
  let m := count m 0x7030 0x03
  if matrixOpen then coreFault m k 6
  else match (m.cores[k]).fld with
    | some f => if f.closed then (if f.owner == .retest then retestResult m k f 3 else portFail m k f 3) else m
    | none => m

/-- DRIVER_TRIP. -/
def execDriverTrip (core : Fin 16) (matrixOpen : Bool) (s : State) : Out := onMain (fun m => driverTrip m core matrixOpen) s

/-- Whether a field is ordered off: by its stitch, visit or window, or because what it served has ended (R106, R113). -/
def offOrdered (m : Main) (k : Fin 16) (f : FieldRec) : Bool :=
  (m.cores[k]).pendOff ||
  (match f.owner with
   | .burnish => true
   | .retest => true
   | .lane l => !((m.sv.lanes[l]).todo.contains f.port)
   | .ctx e c => !f.idle && !((ctxOf m e c).st == .run && (ctxOf m e c).core == some k))

/-- A field that is ordered off goes off at the end of its own frame, when every coupled port is in a gap (R106, R133). -/
def tryOff (m : Main) (k : Fin 16) : Main :=
  match (m.cores[k]).fld, fieldView m k with
  | some f, some v =>
    if !offOrdered m k f then m
    else if !f.closed then pumpRetest (fieldOff m k)
    else if (m.cores[k]).busy then orderOff m k
    else if changeBlocked m v then holdChange (orderOff m k) k
    else pumpRetest (releaseGaps (fieldOff m k))
  | _, _ => m

/-- FIELD_OFF. -/
def execFieldOff (core : Fin 16) (s : State) : Out := onMain (fun m => tryOff m core) s

/-- A pending change is made at the next moment at which all coupled ports are in a gap (R133, R134). -/
def fieldChange (m : Main) (k : Fin 16) (otherOpen : Bool) : Main :=
  if (m.cores[k]).pendOff then tryOff m k
  else match (m.cores[k]).fld with
    | some f => if f.closed then m else portSwitch m k otherOpen
    | none => m

/-- FIELD_CHANGE. -/
def execFieldChange (core : Fin 16) (otherOpen : Bool) (s : State) : Out := onMain (fun m => fieldChange m core otherOpen) s

/-- Whether a change of field that has waited too long stands beside a core's field, so that its engine holds for as long as the handle
window allows (R135). -/
def heldLong (m : Main) (k : Fin 16) : Bool := ((fieldView m k).map (changeHeldAgainst m)) == some true

/-- The hold of an engine has lasted [2300:0C]: it proceeds (R134), unless it holds to the end of the handle window (R135). -/
def gapHoldExpiry (m : Main) (k : Fin 16) : Main :=
  let c := m.cores[k]
  if !c.gapHold || (heldLong m k && (c.next.map (·.timed)) == some true) then m
  else modCore (count m 0x7040 0x07) k fun c => { c with gapHold := false }

/-- GAP_HOLD_EXPIRY. -/
def execGapHoldExpiry (core : Fin 16) (s : State) : Out := onMain (fun m => gapHoldExpiry m core) s

/-- A change has been pending for [2300:10]: no new stitch starts on ports coupled to it (R135). -/
def changeWaitExpiry (m : Main) (k : Fin 16) : Main :=
  if (m.cores[k]).pendChange.isSome then modCore m k fun c => { c with changeHold := true } else m

/-- CHANGE_WAIT_EXPIRY. -/
def execChangeWaitExpiry (core : Fin 16) (s : State) : Out := onMain (fun m => changeWaitExpiry m core) s

/-- The retest interval of a faulted port, as in force since its last switch close, elapses (R113, R120). -/
def retestTimer (m : Main) (p : Fin 128) : Main :=
  let x := m.ports[p]
  if (x.state == 2 || x.state == 3) && x.retestEvery != 0 then
    pumpRetest (modPort m p fun x => { x with retestDue := true })
  else m

/-- PORT_RETEST_TIMER. -/
def execPortRetestTimer (port : Fin 128) (s : State) : Out := onMain (fun m => retestTimer m port) s

/-- A write of [2200+p:02]: 1 starts a retest once (R112, R113); it takes back a disable that still waits (log 43). -/
def portEnable (m : Main) (p : Fin 128) (v : Bool) : Main :=
  if !m.pw.mode.isMain then m
  else
    let m := cfgSet m (0x2200 + p.val) 0x02 (bitN v)
    let x := m.ports[p]
    let used := x.state == 1 || anyCtx m fun c => (c.st == .run || c.st == .pause) && (c.job.map (·.port)) == some p
    if !v then
      if used then endIdleFields (modPort m p fun x => { x with disablePend := true })
      else evaluate (modPort m p fun x => { x with state := 5, disablePend := false })
    else
      let m := modPort m p fun x => { x with retestDue := true, disablePend := false, state := if x.state = 5 then 0 else x.state }
      pumpRetest (if x.state = 5 then evaluate (updateReach m) else m)

/-- PORT_ENABLE_WRITE. -/
def execPortEnableWrite (port : Fin 128) (value : Bool) (s : State) : Out := onService (fun m => portEnable m port value) s

/-- CORE_FAULT. -/
def execCoreFault (core : Fin 16) (cause : Fin 7) (s : State) : Out := onMain (fun m => coreFaultBy m core cause.val) s

/-- The holdoff of a FAULTED core has elapsed: SELFTEST, or at the next entry to a main mode (R116). -/
def coreSelftest (m : Main) (k : Fin 16) : Main :=
  if (m.cores[k]).state = 1 then
    if m.pw.mode.isMain then enterSelftest m k else modCore m k fun c => { c with holdoffDone := true }
  else m

/-- CORE_SELFTEST_START. -/
def execCoreSelftestStart (core : Fin 16) (s : State) : Out := onMain (fun m => coreSelftest m core) s

/-- The self-test ends: PROBATION or RETIRED, journalled (R116). -/
def coreSelftestDone (m : Main) (k : Fin 16) (pass : Bool) : Main :=
  if (m.cores[k]).state = 2 then
    let st := if pass then 3 else 4
    let m := unitState (modCore m k fun c => { c with state := st }) k.val st
    pumpRetest (evaluate (updateReach m))
  else m

/-- CORE_SELFTEST_DONE. -/
def execCoreSelftestDone (core : Fin 16) (pass : Bool) (s : State) : Out := onMain (fun m => coreSelftestDone m core pass) s

/-- 10 s in PROBATION without fault (R116). -/
def coreProbationEnd (m : Main) (k : Fin 16) : Main :=
  if (m.cores[k]).state = 3 then modCore m k fun c => { c with state := 0 } else m

/-- CORE_PROBATION_END. -/
def execCoreProbationEnd (core : Fin 16) (s : State) : Out := onMain (fun m => coreProbationEnd m core) s

/-- A RETIRED unit is released by the host: journalled and counted (R563). -/
def unitReleased (m : Main) (u : Nat) : Main := journal (count m 0x7008 0x09) (unitSource u) 0x0006 [u]

/-- 0x5A written to [2100+k:03] in a main mode releases a RETIRED core (R116, R119). -/
def coreRelease (m : Main) (k : Fin 16) (v : BitVec 8) : Main :=
  if v = 0x5A && m.pw.mode.isMain && (m.cores[k]).state = 4 then unitReleased (enterSelftest m k) k.val
  else m

/-- CORE_RELEASE. -/
def execCoreRelease (core : Fin 16) (value : BitVec 8) (s : State) : Out := onService (fun m => coreRelease m core value) s

/-- A write of [2100+k:02] in a main mode (R116, R119): 1 acts on a DISABLED core alone. -/
def coreEnable (m : Main) (k : Fin 16) (v : Bool) : Main :=
  if !m.pw.mode.isMain then m
  else
    let m := cfgSet m (0x2100 + k.val) 0x02 (bitN v)
    let c := m.cores[k]
    if v then (if c.state = 5 then enterSelftest m k else m)
    else if c.state = 4 then m
    else evaluate (coreRest (modCore m k fun c => { c with disablePend := true }) k)

/-- CORE_ENABLE_WRITE. -/
def execCoreEnableWrite (core : Fin 16) (value : Bool) (s : State) : Out := onService (fun m => coreEnable m core value) s

end Sys2Proof.Machine
end

