-- ==== Sys2Proof/Machine/Receive.lean ====
section
/-!
DEFINITION. Machine/Receive.lean: the meanings of the receiver's steps (chapter 06): the start of a forward frame, the listen window, the
start and end of a reply, and the hand-off to the engine.
-/

namespace Sys2Proof.Machine

/-- ADC full scale at each gain code, in µV at the port (R148). -/
def gainScale : List Nat := [800000, 401000, 201000, 101000, 50500, 25300, 12700]

/-- The gain code for a DC level in µV at the port, under the settings of the exchange (R149). -/
def gainCode (ex : Exchange) (dc : Nat) : Nat :=
  if ex.gainMode != 0 then ex.gainMode - 1
  else ((List.range (ex.gainMax + 1)).filter fun g => decide (4 * dc ≤ nth gainScale g 0)).getLast?.getD 0

/-- The listen window opens, unless the engine still holds the buffer; a frame that draws no reply opens none (R149, R152, R168). -/
def listenOpen (m : Main) (k : Fin 16) (dc : Nat) : Main :=
  let c := m.cores[k]
  if c.exch == .sending && !c.bufHeld && (c.frame.map (·.silent)) == some false then
    modCore m k fun c => { c with exch := .listening, lastGain := gainCode c.ex dc }
  else m

/-- LISTEN_WINDOW_OPEN. -/
def execListenWindowOpen (core : Fin 16) (dcLevel : Nat) (s : State) : Out := onMain (fun m => listenOpen m core dcLevel) s

/-- A reply starts (R152–R156): its subcarrier lies above the noise by the margin, its start inside the listen window and after the
blanking. A reply outside the protocol's window is discarded when that is asked for, and none is looked for after it. -/
def replyStart (m : Main) (k : Fin 16) (start amp noise : Nat) : Main :=
  let c := m.cores[k]
  let d2 := detect2 noise c.ex.margin
  if c.exch == .listening && !c.blind && decide (max c.ex.openAt c.ex.blank ≤ start) && decide (start < c.ex.closeAt) &&
      decide (d2 < amp * amp) then
    let late := decide (start < c.ex.first) || decide (c.ex.last < start)
    let m := countIf late m 0x7050 0x05
    if late && c.ex.strict then modCore m k fun c => { c with blind := true }
    else modCore m k fun c => { c with exch := .receiving, lastDelay := start, timing := late, ex := { c.ex with detect2 := d2 } }
  else m

/-- REPLY_START_DETECTED. -/
def execReplyStartDetected (core : Fin 16) (start amp noise : Nat) (s : State) : Out := onMain (fun m => replyStart m core start amp noise) s

/-- Codes of the outcomes (R166). -/
def outcomeCode : RxOutcome → Nat
  | .ok => 0 | .none => 1 | .crcErr => 2 | .collision => 3 | .codingErr => 4 | .overload => 5 | .tooLong => 6 | .bufParity => 7

/-- The status words of an exchange (R166). -/
def statusWords (r : Reply) : Word × Word :=
  (word (place 0 9 r.data.length + place 9 3 r.lastbits + place 12 3 (outcomeCode r.outcome) + place 15 1 (bitN r.timing) +
      place 16 1 (bitN r.captured) + place 17 1 (bitN r.parityA) + place 20 12 r.collPos),
   word (min 0xFFFF r.delay + place 16 8 r.rssi + place 24 8 r.suppr))

/-- A gap begins: a deferred DAC load is applied, the engine holds for a pending change of a coupled neighbour, and a closed window takes
the field (R85, R134, R145, R267). -/
def gapBegins (m : Main) (k : Fin 16) : Main :=
  let m := applyDac m k
  match fieldView m k, (m.cores[k]).fld with
  | some q, some f =>
    let hold := claimHolds m q || (allFin 16).any fun j =>
      match fieldView m j with
      | some v => j != k && (m.cores[j]).pendChange.isSome && gapsFor m q v
      | none => false
    let m := modCore m k fun c => { c with gapHold := hold }
    if planAllows m k f.port f.cls then m else windowClosed m k f
  | _, _ => m

/-- An idle session whose S(DESELECT) has been sent is closed with its exchange, and its field goes off (R259). -/
def endDeselect (m : Main) (k : Fin 16) : Main :=
  match (m.cores[k]).fld with
  | some f =>
    if f.idle && ((m.ports[f.port]).session.map (·.closing)) == some true then
      orderOff (modPort m f.port fun x => { x with session := none }) k
    else m
  | none => m

/-- An exchange ends; inside an ARM and its COMMITs no gap begins with it (R133, R243). -/
def exchangeEnd (m : Main) (k : Fin 16) : Main :=
  let m := modCore m k fun c => { c with exch := .gap, blind := false }
  if (m.cores[k]).chain then m else gapBegins (endDeselect m k) k

/-- The engine of a core's field is given the end of its exchange (R168, R274). -/
def deliver (m : Main) (k : Fin 16) (r : Reply) : Main :=
  match (m.cores[k]).fld with
  | some f =>
    if f.idle then m
    else match f.owner with
      | .ctx e c =>
        if (ctxOf m e c).st == .run && (ctxOf m e c).core == some k then
          modCtx m e c fun x => { x with lastAt := m.now, sc := { x.sc with inbox := some r } }
        else m
      | .lane l => modLane m l fun x => { x with sc := { x.sc with inbox := some r } }
      | _ => m
  | none => m

/-- The buffer and the status words are handed to the engine (R166–R168, R172). -/
def handOff (m : Main) (k : Fin 16) (r : Reply) : Main :=
  let w := statusWords r
  deliver (modCore m k fun c => { c with w0 := w.1, w1 := w.2, rxBuf := r.data, bufHeld := true, lastSuppr := r.suppr }) k r

/-- The exchange of a core is over and counts for the next frame's bounds from here on: `after` is the time since the start of its frame
(R157, R208). -/
def Core.gapAt (c : Core) (g : GapFrom) (after : Nat) : Core :=
  { c with gapFrom := g, since := if g == .reply then 0 else c.since + after }

/-- An exchange without a reply (R153, R166, R172, R210). -/
def endNone (m : Main) (k : Fin 16) (f : TxFrame) : Main :=
  let m := modCore (count m 0x7050 0x04) k fun c => { c.gapAt .close (frameFc f + c.ex.closeAt) with lastRssi := 0, lastDelay := 0xFFFF }
  let m := match (m.cores[k]).fld with
    | some x => if f.proto == .stp then modPort m x.port fun y => { y with noneWait := true } else m
    | none => m
  exchangeEnd (handOff m k { outcome := .none }) k

/-- A forward frame that draws no reply has ended: no window was open for it, and nothing is counted (R208, R214). -/
def endSilent (m : Main) (k : Fin 16) (f : TxFrame) : Main :=
  let m := modCore m k fun c => c.gapAt .frame (frameFc f)
  exchangeEnd (deliver m k { outcome := .none }) k

/-- CLOSE passes with no reply started, or a frame that draws none has ended (R153). -/
def listenClose (m : Main) (k : Fin 16) : Main :=
  let c := m.cores[k]
  match c.frame with
  | some f =>
    if c.exch == .listening then endNone m k f
    else if c.exch == .sending && f.silent then endSilent m k f
    else m
  | none => m

/-- LISTEN_WINDOW_CLOSE. -/
def execListenWindowClose (core : Fin 16) (s : State) : Out := onMain (fun m => listenClose m core) s

/-- The coupled neighbours of a port that carry fields (R132). -/
def coupledOn (m : Main) (k : Fin 16) : List FV :=
  match fieldView m k with
  | some q => (fieldsF m).filter fun v => v.g != q.g && coupled m v q
  | none => []

/-- Suppression below [2300:0B] (R132): the pairs with coupled neighbours in F are stale; without one, the port's own calibration is
(R186). -/
def lowSuppression (m : Main) (k : Fin 16) (p : Fin 128) : Main :=
  let vs := coupledOn m k
  if vs.isEmpty then (if flagOn (m.ports[p]) 4 || !incremental m then m else setOwnStale m p)
  else
    forEach vs (count m 0x7040 0x05) fun m v =>
      let mark (g : Nat) (x : Port) : Port := { x with nbr := x.nbr.map fun e => if e.gport = g then { e with stale := true } else e }
      let m := modPort m p (mark v.g)
      let m := match v.loc with
        | some q => modPort m q (mark (gport m p))
        | none => m
      journal m (0x02 + k.val) 0x3005 [p.val, v.g]

/-- Every 8 replies with no coupled neighbour in F the own-carrier coefficient is increased by the mean residual (R186). -/
def refreshOwn (m : Main) (k : Fin 16) (p : Fin 128) (dc : Int × Int) : Main :=
  if !(coupledOn m k).isEmpty || !incremental m then m
  else
    let alt := k != homeCore p
    let x := m.ports[p]
    let old := if alt then x.residAlt else x.residHome
    let n := (old.1 + 1, old.2.1 + dc.1, old.2.2 + dc.2)
    let put (n : Nat × Int × Int) (x : Port) : Port := if alt then { x with residAlt := n } else { x with residHome := n }
    if n.1 < 8 then modPort m p (put n)
    else
      let c := if alt then x.cAlt else x.cHome
      let z := coefI16 (c.1 + roundDiv n.2.1 8) (c.2 + roundDiv n.2.2 8)
      modPort (addResult m (.ownRefresh p alt z.1 z.2)) p (put (0, 0, 0))

/-- An `OK` reply that is not captured adds to the I/Q statistics of its core, before projection (R177). -/
def noteIq (m : Main) (k : Fin 16) (s : Seen) : Main :=
  match s.axis with
  | none => m
  | some z =>
    let o := octantOf z
    let m := modCore m k fun c =>
      { c with octants := c.octants.set o (nth c.octants o 0 + 1), sumII := c.sumII + (s.iq.map fun x => (x.1 * x.1).toNat).sum,
               sumQQ := c.sumQQ + (s.iq.map fun x => (x.2 * x.2).toNat).sum, sumIQ := c.sumIQ + (s.iq.map fun x => x.1 * x.2).sum }
    let c := m.cores[k]
    if c.octants.all (fun n => decide (16 ≤ n)) && decide (256 ≤ sumN c.octants) && (incremental m || (m.brn.full == 1 && m.brn.step == 1)) then
      let m := addResult m (.iqTrim k (log100 c.sumQQ c.sumII) (arcsinTenths c.sumIQ c.sumII c.sumQQ))
      modCore m k fun c => { c with octants := [0, 0, 0, 0, 0, 0, 0, 0], sumII := 0, sumQQ := 0, sumIQ := 0 }
    else m

/-- The bit amplitudes of an `OK` reply are kept for the eye of its port: their number, sum and sum of squares, each amplitude in 1/1024 of
0.1 µV (R190). -/
def noteEye (m : Main) (p : Fin 128) (s : Seen) : Main :=
  let len := (s.axis.map fun z => isqrt (mag2 z)).getD 1
  let as_ := s.amps.map fun a => a * 1024 / len
  modPort m p fun x => { x with eyes := ((as_.length, as_.sum, (as_.map fun a => a * a).sum) :: x.eyes).take 32 }

/-- Three frame buffer parity errors within 1 s are a core fault (R114). -/
def bufParity (m : Main) (k : Fin 16) : Main :=
  let m := modCore (count m 0x7030 0x07) k fun c => { c with parityAt := (c.parityAt.filter fun t => decide (m.now < t + tickS)) ++ [m.now] }
  if 3 ≤ (m.cores[k]).parityAt.length then coreFault (modCore m k fun c => { c with parityAt := [] }) k 4 else m

/-- What a reply tells of its port (R132, R147, R177, R186, R190). -/
def learn (m : Main) (k : Fin 16) (p : Fin 128) (dc : Option (Int × Int)) (s : Seen) (r : Reply) : Main :=
  let m := if r.outcome = .ok then noteEye m p s else m
  let m := match dc with
    | none => m
    | some z =>
      let m := modPort m p fun x => { x with supprs := (r.suppr :: x.supprs).take 16 }
      let m := if r.suppr < ((m.cores[k]).fld.map (·.staleAt)).getD 30 then lowSuppression m k p else m
      refreshOwn m k p z
  updateFast (if r.outcome = .ok && !r.captured then noteIq m k s else m) p

/-- A reply judged, or one cut off by an overload (R150, R161–R165), with its measurements, is handed over and learnt from (R147, R160). -/
def takeReply (m : Main) (k : Fin 16) (f : TxFrame) (fl : FieldRec) (raw : RawReply) (j : Seen → Reply × List (Nat × Nat)) : Main :=
  let c := m.cores[k]
  let s := seenOf f.proto f.ret f.dual c.ex raw.sym
  let y := j s
  let m := y.2.foldl (fun m x => count m x.1 x.2) m
  let rssi := tenthsDb s.pow (carrier2 (levelNw c.levelNow) (m.ports[fl.port]).zMag)
  let r : Reply :=
    { y.1 with timing := c.timing, delay := c.lastDelay, rssi := (clampI 0 255 (roundDiv (-rssi) 5)).toNat,
               suppr := (raw.dc.map (supprDb (c.carI, c.carQ))).getD 0xFF }
  let m := handOff (modCore m k fun c => { c.gapAt .reply 0 with lastRssi := rssi }) k r
  exchangeEnd (learn m k fl.port raw.dc s r) k

/-- A reply ends (R160–R168). -/
def replyEnd (m : Main) (k : Fin 16) (raw : RawReply) : Main :=
  let c := m.cores[k]
  match c.frame, c.fld with
  | some f, some fl => if c.exch == .receiving then takeReply m k f fl raw (judge f c.ex) else m
  | _, _ => m

/-- REPLY_END. -/
def execReplyEnd (core : Fin 16) (raw : RawReply) (s : State) : Out := onMain (fun m => replyEnd m core raw) s

/-- A reply that an overload ends: the bits decoded until then are kept (R150). -/
def cutOff (f : TxFrame) (s : Seen) : Reply × List (Nat × Nat) :=
  let b := seenBits f s
  ({ outcome := .overload, data := (bitsBytes b.1).take 288, lastbits := if b.1.length ≤ 2304 then b.1.length % 8 else 0 }, [(0x7050, 0x03)])

/-- ADC overload (R150, R152): a run of samples at full code after the blanking. During a reply it ends the decoding, before one it
prevents the detection. -/
def adcOverload (m : Main) (k : Fin 16) (time samples : Nat) (raw : RawReply) : Main :=
  let c := m.cores[k]
  if samples < c.ex.run || time < c.ex.blank then m
  else match c.frame, c.fld with
    | some f, some fl =>
      if c.exch == .receiving then takeReply m k f fl raw (cutOff f)
      else if c.exch == .listening || (c.exch == .sending && !f.silent) then modCore m k fun c => { c with blind := true }
      else m
    | _, _ => m

/-- ADC_OVERLOAD. -/
def execAdcOverload (core : Fin 16) (time samples : Nat) (raw : RawReply) (s : State) : Out :=
  onMain (fun m => adcOverload m core time samples raw) s

/-- The least time from the moment from which a frame's bounds count to its start, in 1/fc: the unmodulated hold after a field has come
on (R203), the command gap of STP (R208), the gaps of R254. -/
def earliestFc (m : Main) (c : Core) (f : TxFrame) : Nat :=
  match c.gapFrom with
  | .field => (cfgN m 0x2510 0x05 * 1356 + 99) / 100
  | .close => if f.proto == .vicinity && f.bytes.isEmpty then 32 else 0
  | _ => if f.proto == .stp then cfgN m 0x2510 0x08 else f.least

/-- Whether a frame must start within the handle window and that has passed, in 1/fc since the fob's last reply (R157, R208). -/
def lateFrame (m : Main) (c : Core) (f : TxFrame) (elapsed : Nat) : Bool :=
  f.timed && c.gapFrom != .field && decide (cfgN m 0x2510 0x09 < c.since + elapsed)

/-- Whether an engine holds its next frame for a change of field: to the last moment of its handle window under R135. -/
def heldFrame (m : Main) (k : Fin 16) (f : TxFrame) (elapsed : Nat) : Bool :=
  let c := m.cores[k]
  c.gapHold && !(f.timed && heldLong m k && decide (cfgN m 0x2510 0x09 ≤ c.since + elapsed))

/-- The owner of a core's field is told that its frame was not sent (R157). -/
def tellLost (m : Main) (k : Fin 16) (f : TxFrame) : Main :=
  let m := modCore (count m 0x7070 0x07) k fun c => { c with next := none }
  match (m.cores[k]).fld with
  | some fl =>
    match fl.owner with
    | .ctx e x => modCtx m e x fun y => { y with lost := true, told := f.tell }
    | .lane l => modLane m l fun y => { y with lost := true, told := f.tell }
    | _ => m
  | none => m

/-- Whether a frame with all that must go with it ends before the window closes; a COMMIT follows its ARM all the same (R85, R243). -/
def frameFits (m : Main) (k : Fin 16) (fl : FieldRec) (c : Core) (f : TxFrame) : Bool :=
  (c.chain && f.chain == .commit) ||
  (match windowLeft m k fl.port fl.cls with
   | some t => decide (fcTicks f.span ≤ t)
   | none => true)

/-- The frame goes out, under the settings of now (R108, R171). -/
def sendFrame (m : Main) (k : Fin 16) (f : TxFrame) (elapsed : Nat) : Main :=
  modCore m k fun c =>
    { c with exch := .sending, ex := exchangeOf m f, frame := some f, next := none, noFit := false, chain := f.chain != .none,
             since := c.since + elapsed, gapHold := false, txBuf := f.bytes, bufHeld := false, blind := false, timing := false }

/-- The next forward frame of a core, `elapsed` being the time in 1/fc since the moment from which its bounds count: not before its
earliest start, not after NONE has been waited out, held for a coupled change; not sent when its latest start has passed, and left with its
engine when it does not fit the window (R85, R134, R157, R203, R208, R210). -/
def frameStart (m : Main) (k : Fin 16) (elapsed : Nat) : Main :=
  let c := m.cores[k]
  match c.fld, c.next with
  | some fl, some f =>
    if !fl.closed || !fl.at95 || c.exch != .gap || c.pendOff || (f.proto == .stp && (m.ports[fl.port]).noneWait) ||
        decide (elapsed < earliestFc m c f) then m
    else if lateFrame m c f elapsed then tellLost m k f
    else if heldFrame m k f elapsed then m
    else if frameFits m k fl c f then sendFrame m k f elapsed
    else modCore m k fun c => { c with noFit := true }
  | _, _ => m

/-- FRAME_START. -/
def execFrameStart (core : Fin 16) (elapsed : Nat) (s : State) : Out := onMain (fun m => frameStart m core elapsed) s

/-- 1700/fc after CLOSE the engine may send to the port again (R210). -/
def noneWaitEnd (m : Main) (p : Fin 128) : Main := modPort m p fun x => { x with noneWait := false }

/-- NONE_WAIT_EXPIRY. -/
def execNoneWaitExpiry (port : Fin 128) (s : State) : Out := onMain (fun m => noneWaitEnd m port) s

end Sys2Proof.Machine
end

