-- ==== Sys2Proof/Machine/Engines.lean ====
section
/-!
DEFINITION. Machine/Engines.lean: the meanings of the dispatcher's and the engines' steps (chapter 11): dispatch, taking and
stealing descriptors, deadlines, the run limit, result stalls, and the service states of engines.
-/

namespace Sys2Proof.Machine

/-- The words of an internal packet of the lace port's queue: header of the frame, then its payload (R542; log 14). -/
def lacePacket (m : Main) (type : Nat) (dst : Fin 4) (payload : List Word) : List Word :=
  word (laceHead m type (some dst) payload) :: payload

/-- The descriptor words of a packet's body. -/
def jobOf (m : Main) (q : Fin 32) (ws : List Word) (closed : Nat) (origin : Fin 4) : Job :=
  let n := ws.length - 8
  { w0 := nth ws 0 0, w1 := nth ws 1 0, w2 := nth ws 2 0, w3 := nth ws 3 0, w4 := nth ws 4 0, w5 := nth ws 5 0, w6 := nth ws 6 0,
    w7 := nth ws 7 0, payload := ws.drop 8, queue := q, closedAt := closed, origin := if m.lace.role = 0 then 0 else origin,
    cells := if n = 0 then 0 else cellsOfWords (ws.length + 1) - 1 }

/-- Payload words that a descriptor's opcode requires (R273). -/
def Job.payloadWords (j : Job) : Nat :=
  if j.opcode = 3 then 4 * j.byteB
  else if j.opcode = 8 then (field j.w3.toNat 0 16 + 3) / 4
  else if j.opcode = 11 then (j.byteB * field j.w6.toNat 0 6 + 3) / 4
  else if j.opcode = 13 then (field j.w3.toNat 0 9 + 3) / 4
  else 0

/-- Whether the opcode belongs to the protocol (R257, R273). -/
def Job.protoOk (j : Job) : Bool :=
  if j.opcode ≤ 6 then j.proto == 0
  else if j.opcode ≤ 8 then j.proto == 1 || j.proto == 2
  else if j.opcode ≤ 11 then j.proto == 3
  else decide (j.proto ≤ 3)

/-- Whether every parameter is in its range (R273, R293). -/
def Job.paramsOk (j : Job) : Bool :=
  let a := j.byteA
  let b := j.byteB
  !(j.dlForm == 2 && j.w1 == 0) &&
  (if j.opcode = 0 then decide (a ≤ 8) || a == 0xFF
   else if j.opcode = 1 then decide (a ≤ 63) && decide (b ≤ 16)
   else if j.opcode = 2 || j.opcode = 3 then decide (a ≤ 63) && decide (1 ≤ b) && decide (b ≤ 16)
   else if j.opcode = 7 then j.proto != 2 || b == 1 || b == 2 || b == 4 || b == 8 || b == 16
   else if j.opcode = 8 then field j.w3.toNat 0 16 != 0
   else if j.opcode = 9 then field b 1 2 != 3 && decide (field j.w3.toNat 0 6 ≤ 60)
   else if j.opcode = 10 then decide (1 ≤ b) && decide (b ≤ 32)
   else if j.opcode = 11 then
     decide (1 ≤ b) && decide (b ≤ 32) && decide (1 ≤ field j.w6.toNat 0 6) && decide (field j.w6.toNat 0 6 ≤ 32)
   else if j.opcode = 12 then a == 0 || (decide (28 ≤ a) && decide (a ≤ 120))
   else if j.opcode = 13 then decide (1 ≤ field j.w3.toNat 0 9) && decide (field j.w3.toNat 0 9 ≤ 288)
   else true)

/-- The lowest descriptor error, 0x20 to 0x27 (R279). -/
def descError (m : Main) (j : Job) : Option Nat :=
  if 14 ≤ j.opcode then some 0x20
  else if !j.protoOk then some 0x21
  else if j.proto != 0 && !bitAt (cfgN m 0x2600 0x01) (j.proto - 1) then some 0x22
  else if !j.paramsOk then some 0x23
  else if j.payload.length != j.payloadWords then some 0x24
  else if j.dev != laceDev m && !laceReach m j.dev then some 0x25
  else if bitAt j.w0.toNat 7 || field j.w0.toNat 30 2 != 0 then some 0x26
  else if j.dlForm = 3 then some 0x27
  else none

/-- The job queues in the order in which the dispatcher looks at them (R279). A queue whose head waits for its retry over the
lace is passed over (R543). -/
def jobQueues (m : Main) : List (Fin 32) :=
  let qs := if cfgN m 0x3100 0x01 = 1 then [0, 1, 2, 3] else (List.range 4).map fun i => (m.disp.jobRr + i) % 4
  (qs.map fun i => finOf 32 (24 + i)).filter fun q => (m.pool.qs[q]).consumer == 1 && !m.lace.retry.contains q

/-- A descriptor is forwarded to its device through Q23 (R280, R543; payload layout log 14). -/
def forwardJob (m : Main) (q : Fin 32) (j : Job) (ws : List Word) : Main :=
  let dst : Fin 4 := finOf 4 j.dev
  let t := tickAt m j.closedAt
  let pl := [word (q.val - 24), word t, word (t / 2 ^ 32)] ++ ws
  let r := stallPkt (count m 0x70A0 0x0D) 23 0x2A 0x3F (lacePacket m 0x8 dst pl)
  let m := modLace r.1 fun l => { l with away := l.away ++ [(dst, j)] }
  match r.2 with
  | none => m
  | some s => { m with disp := { m.disp with stalled := m.disp.stalled ++ [⟨23, s.2, s.1, q, 0⟩] } }

/-- One packet of a job queue (R279). -/
def dispatchOne (m : Main) (q : Fin 32) (p : Packet) : Main :=
  let took (m : Main) : Main :=
    let m := dropHead m q
    { m with disp := { m.disp with jobRr := (q.val - 24 + 1) % 4 } }
  if p.type != 0x20 || decide (p.words.length < 8) then count (took m) 0x70A0 0x06
  else
    let j := jobOf m q p.words p.closedAt (p.origin.getD m.lace.device)
    let keep (m : Main) : Main := modQ (took m) q fun x => noteCells { x with detached := x.detached + j.cells }
    match descError m j with
    | some e => dispResult (count (took m) 0x70A0 0x06) { j with cells := 0 } 31 0 none 6 e
    | none =>
      if j.dev != laceDev m then forwardJob (took m) q j p.words
      else if deadlinePassed m j then dispResult (took m) { j with cells := 0 } 31 0 none 7 1
      else match nextEngine m (cfgN m 0x3100 0x02) with
        | none => m
        | some e =>
          let m := modEng (count (keep m) 0x70A0 0x01) e fun g => { g with deque := g.deque ++ [j] }
          { m with disp := { m.disp with rr := (e.val + 1) % 24 } }

/-- The dispatcher takes one packet (R279); stalled, it deals none (R338). -/
def dispatch (m : Main) : Main :=
  if !engOn m || !m.disp.stalled.isEmpty then m
  else match (jobQueues m).find? fun q => (peekPkt m q).isSome with
    | none => m
    | some q =>
      let h := headOf m q
      match h.1 with
      | .packet p => dispatchOne h.2 q p
      | _ => h.2

/-- DISPATCH. -/
def execDispatch (s : State) : Out := onMain dispatch s

/-- A deque entry with a parity error is discarded without a result (R287). -/
def discardEntry (m : Main) (e : Fin 24) (j : Job) : Main :=
  journal (freePayload (count m 0x70A0 0x0C) j.queue j.cells) 0x15 0x5004 [e.val, j.w0.toNat, j.tag]

/-- A descriptor enters an idle context: claim record, grant request (R267, R286). -/
def placeJob (m : Main) (e : Fin 24) (c : Fin 2) (j : Job) : Main :=
  grantRequest (modCtx m e c fun _ => { ({} : Ctx) with st := .wait, job := some j }) (.ctx e c) j.port

/-- Contexts leave IDLE in TRANSACT and EMULATE only (R267, R268). -/
def stitchesOn (m : Main) : Bool := m.pw.mode == .transact || m.pw.mode == .emulate

/-- An idle context takes the head of its own deque (R267). -/
def contextTake (m : Main) (e : Fin 24) (c : Fin 2) : Main :=
  if !stitchesOn m || !engServing m e || (ctxOf m e c).st != .idle then m
  else match (m.engs[e]).deque with
    | [] => m
    | j :: rest =>
      let m := modEng m e fun g => { g with deque := rest }
      if j.bad then discardEntry m e j else placeJob m e c j

/-- CONTEXT_TAKE. -/
def execContextTake (e : Fin 24) (c : Fin 2) (s : State) : Out := onMain (fun m => contextTake m e c) s

/-- The longest other deque, the lowest number on a tie (R284). -/
def victim (m : Main) (e : Fin 24) : Option (Fin 24) :=
  (allFin 24).foldl (fun (v : Option (Fin 24)) i =>
    let n := (m.engs[i]).deque.length
    if i = e || n = 0 then v
    else match v with
      | none => some i
      | some w => if (m.engs[w]).deque.length < n then some i else v) none

/-- An idle context of an engine with an empty deque takes the tail of the longest other deque (R284). -/
def steal (m : Main) (e : Fin 24) (c : Fin 2) : Main :=
  if !stitchesOn m || !cfgB m 0x3100 0x03 || !engServing m e || (ctxOf m e c).st != .idle || !(m.engs[e]).deque.isEmpty then m
  else match victim m e with
    | none => m
    | some v =>
      match (m.engs[v]).deque.getLast? with
      | none => m
      | some j =>
        let m := modEng m v fun g => { g with deque := g.deque.dropLast, robbed := sat32 (g.robbed + 1) }
        let m := modEng (count m 0x70A0 0x05) e fun g => { g with stole := sat32 (g.stole + 1) }
        if j.bad then discardEntry m v j else placeJob m e c j

/-- STEAL. -/
def execSteal (e : Fin 24) (c : Fin 2) (s : State) : Out := onMain (fun m => steal m e c) s

/-- The deques are swept: expired descriptors return `DEADLINE_MISSED`, in WAIT by the evaluation of requests (R294). -/
def dequeSweep (m : Main) : Main :=
  if !ctlOn m then m
  else
    let m := forEach (allFin 24) m fun m e =>
      let late := (m.engs[e]).deque.filter (deadlinePassed m)
      let m := modEng m e fun g => { g with deque := g.deque.filter fun j => !deadlinePassed m j }
      forEach late m fun m j => dispResult m j 31 0 none 7 2
    evaluate m

/-- DEQUE_DEADLINE_SWEEP. -/
def execDequeDeadlineSweep (s : State) : Out := onMain dequeSweep s

/-- A context stalled on its result queue goes on with its result (R267, R339). -/
def resultResume (m : Main) (e : Fin 24) (c : Fin 2) : Main :=
  let x := ctxOf m e c
  match x.job with
  | some j =>
    if x.st == .result && x.stalled then
      let q := (resultOut m j []).1
      let r := retryPkt m q 0x21 (0x40 + e.val) (x.outPkt, x.out)
      match r.2 with
      | none => closeResult r.1 e c
      | some s => modCtx r.1 e c fun x => { x with out := s.2, outPkt := s.1 }
    else m
  | none => m

/-- RESULT_STALL_RESUME. -/
def execResultStallResume (e : Fin 24) (c : Fin 2) (s : State) : Out := onMain (fun m => resultResume m e c) s

/-- The number of an engine as a unit (R560). -/
def engUnit (e : Fin 24) : Nat := 0x10 + e.val

/-- The work an engine holds ends (R288): its fields at their next frame end, or at once; `ABORTED` from the claim records of its
contexts, but for a result packet that is already open. -/
def engineDown (m : Main) (e : Fin 24) (atOnce : Bool) : Main :=
  forEach [(0 : Fin 2), 1] m fun m c =>
    let x := ctxOf m e c
    match x.job with
    | none => m
    | some j =>
      if x.st == .result && x.outPkt != 0 then m
      else
        let m := withdraw m (.ctx e c)
        let m := match x.core with
          | some k => if carries m k (.ctx e c) then (if atOnce then endField m k else orderOff m k) else m
          | none => m
        let m := dispResult (modCtx m e c fun _ => ({} : Ctx)) j e.val c.val (if x.started then x.core else none) 0x0A 2
        match x.core with
        | some k => coreRest m k
        | none => m

/-- An engine fault (R287–R289). -/
def engineFault (m : Main) (e : Fin 24) (cause : Nat) : Main :=
  if cause = 0 then m
  else
    let st := (m.engs[e]).state
    let out := st == 4 || st == 5
    let nested := st == 1 || st == 2 || st == 3
    let m := modEng (count m 0x70A0 0x0B) e fun g =>
      { g with cause := cause, faults := sat32 (g.faults + 1), holdoffDone := false,
               state := if out then g.state else if nested then 4 else 1 }
    let m := engineDown m e (cause == 4)
    evaluate (unitFault m (engUnit e) cause nested out)

/-- ENGINE_FAULT. -/
def execEngineFault (e : Fin 24) (cause : Fin 5) (s : State) : Out := onMain (fun m => engineFault m e cause.val) s

/-- With stealing off, the dispatcher moves the head of the deque of an engine out of service to a serving engine (R288). -/
def dequeMove (m : Main) (e : Fin 24) : Main :=
  if cfgB m 0x3100 0x03 || engServing m e || !ctlOn m then m
  else match (m.engs[e]).deque, nextEngine m (cfgN m 0x3100 0x02) with
    | j :: rest, some d =>
      let m := modEng m e fun g => { g with deque := rest }
      let m := modEng (count m 0x70A0 0x01) d fun g => { g with deque := g.deque ++ [j] }
      { m with disp := { m.disp with rr := (d.val + 1) % 24 } }
    | _, _ => m

/-- DEQUE_MOVE. -/
def execDequeMove (e : Fin 24) (s : State) : Out := onMain (fun m => dequeMove m e) s

/-- A FAULTED engine's holdoff has elapsed and its deque is empty (R289). -/
def engineSelftest (m : Main) (e : Fin 24) : Main :=
  if (m.engs[e]).state = 1 && (m.engs[e]).deque.isEmpty then
    modEng m e fun g => if m.pw.mode.isMain then { g with state := 2, holdoffDone := false } else { g with holdoffDone := true }
  else m

/-- ENGINE_SELFTEST_START. -/
def execEngineSelftestStart (e : Fin 24) (s : State) : Out := onMain (fun m => engineSelftest m e) s

/-- The self-test ends (R289). -/
def engineSelftestDone (m : Main) (e : Fin 24) (pass : Bool) : Main :=
  if (m.engs[e]).state = 2 then
    let st := if pass then 3 else 4
    unitState (modEng m e fun g => { g with state := st }) (engUnit e) st
  else m

/-- ENGINE_SELFTEST_DONE. -/
def execEngineSelftestDone (e : Fin 24) (pass : Bool) (s : State) : Out := onMain (fun m => engineSelftestDone m e pass) s

/-- 10 s in PROBATION without fault (R289). -/
def engineProbationEnd (m : Main) (e : Fin 24) : Main :=
  if (m.engs[e]).state = 3 then modEng m e fun g => { g with state := 0 } else m

/-- ENGINE_PROBATION_END. -/
def execEngineProbationEnd (e : Fin 24) (s : State) : Out := onMain (fun m => engineProbationEnd m e) s

/-- 0x5A written to [3000+n:03] in a main mode (R289, R563). -/
def engineRelease (m : Main) (e : Fin 24) (v : BitVec 8) : Main :=
  if v = 0x5A && m.pw.mode.isMain && (m.engs[e]).state = 4 then unitReleased (modEng m e fun g => { g with state := 2 }) (engUnit e)
  else m

/-- ENGINE_RELEASE. -/
def execEngineRelease (e : Fin 24) (value : BitVec 8) (s : State) : Out := onService (fun m => engineRelease m e value) s

/-- A write of [3000+n:02] in a main mode (R289). -/
def engineEnable (m : Main) (e : Fin 24) (v : Bool) : Main :=
  if !m.pw.mode.isMain then m
  else
    let m := cfgSet m (0x3000 + e.val) 0x02 (bitN v)
    modEng m e fun g =>
      if v then (if g.state = 5 then { g with state := 2 } else g)
      else if g.state = 4 then g else { g with state := 5 }

/-- ENGINE_ENABLE_WRITE. -/
def execEngineEnableWrite (e : Fin 24) (value : Bool) (s : State) : Out := onService (fun m => engineEnable m e value) s

end Sys2Proof.Machine
end

