-- ==== Sys2Proof/Machine/StitchOps.lean ====
section
/-!
DEFINITION. Machine/StitchOps.lean: the exchanges of an STP stitch or survey visit as the engine runs them (chapters 08, 09, 11): its
frames, the choice of link, SET_LINK and its fallback, acquisition, SEEK rounds, authentication, reads, and writes; and the turn in which an
engine reads the end of an exchange and hands over its next frame (R157, R283).

A run of exchanges is one program. It is run again from its start at every turn, on what the run has met so far: it takes the ends of its
exchanges and the numbers it drew from the device in their order, changes the device only once these are used up, and stops where it needs
the end of a frame that has not been sent.
-/

namespace Sys2Proof

open Sys2Proof.Machine

/-- Outcomes that are `CRC_FAIL` (R169). -/
def RxOutcome.failed : RxOutcome → Bool
  | .crcErr => true | .codingErr => true | .overload => true | .tooLong => true | .bufParity => true | _ => false

/-- Bytes of a reply after its check. -/
def Reply.at_ (r : Reply) (i : Nat) : Nat := (nth r.data i 0).toNat

/-- `RCODE` and `BIND` of an STP reply (R206). -/
def Reply.rcode (r : Reply) : Nat := r.at_ 0 % 16
def Reply.bind (r : Reply) : Nat := field (r.at_ 0) 4 2

end Sys2Proof

namespace Sys2Proof.Machine

/-- How a run of exchanges stops: it needs the end of a frame; a frame was left out; it ends with a status and `DETAIL` (R275). -/
inductive AirStop where
  | need (f : TxFrame)
  | skipped
  | ended (status detail : Nat)
  deriving DecidableEq, Repr

/-- A run of exchanges on a port: the device, what the run has met and not yet used up, what it has drawn since, the port, core, subcarrier
and level of its field, the keys, the settings of its start, whether it is a visit, whether a window has closed over a frame left out, whether
frames may be left out now, and what is completed. -/
structure Air where
  m     : Main
  log   : List AirEv
  new   : List AirEv := []
  port  : Fin 128
  core  : Fin 16
  sub8  : Bool
  level : Nat
  keys  : Vector (Option (BitVec 128)) 8
  cfg   : List (Nat × Nat)
  visit : Bool := false
  shut  : Bool := false
  soft  : Bool := false
  prog  : Progress
  deriving DecidableEq

/-- A step of a run of exchanges. -/
abbrev AirM (α : Type) := ExceptT AirStop (StateM Air) α

def endWith {α : Type} (status detail : Nat) : AirM α := throw (.ended status detail)

/-- The device changes, the first time that the run comes here. -/
def onDev (f : Main → Main) : AirM Unit := modify fun a => if a.log.isEmpty then { a with m := f a.m } else a

def onProg (f : Progress → Progress) : AirM Unit := modify fun a => { a with prog := f a.prog }

/-- A number that the device gives now, and gives again whenever the run is repeated. -/
def askNum (f : Main → Nat × Main) : AirM Nat := do
  let a ← get
  match a.log with
  | .num v :: rest => set { a with log := rest }; return v
  | _ =>
    let r := f a.m
    set { a with m := r.2, new := a.new ++ [AirEv.num r.1] }
    return r.1

def askDev (f : Main → Nat) : AirM Nat := askNum fun m => (f m, m)

/-- A setting: of the stitch as it stood at its start (R249, R264), any other as it stands when it is first used. -/
def cfgA (idx sub : Nat) : AirM Nat := do
  if idx = 0x2500 || idx = 0x2600 || idx = 0x3200 then
    return (mapGet (ekey idx sub) (← get).cfg).getD (entryDefault idx sub)
  else askDev fun m => cfgN m idx sub

/-- The exchange of a frame: its end, or, where the run has not met it yet, the need for it. -/
def xchg (f : TxFrame) : AirM Reply := do
  let a ← get
  let f := if a.soft then { f with skip := true, tell := true } else f
  if a.soft && a.shut then throw .skipped
  match a.log with
  | .reply r :: rest => set { a with log := rest }; return r
  | .closed :: rest => set { a with log := rest, shut := true }; throw .skipped
  | .lost :: rest => set { a with log := rest }; throw .skipped
  | _ => throw (.need f)

/-- A part of a run that may fail, or be left out for want of a window, without ending it (R242, R281 step 7). -/
def softly {α : Type} (p : AirM α) : AirM (Option α) := do
  let before := (← get).soft
  modify fun a => { a with soft := true }
  let r ← tryCatch (do let v ← p; return some v) fun s =>
    match s with
    | .need f => throw (.need f)
    | _ => return none
  modify fun a => { a with soft := before }
  return r

/-- The nominal span that must fit the window with a command: an ARM goes with every COMMIT that may follow it, the first frame of a round
of a visit with the whole round, in which no fob answers (R85, R243, R302). -/
def stpSpan (a : Air) (f : TxFrame) (c : StpCmd) : Nat :=
  let own := exchangeFc f c.replyLen
  match c with
  | .arm h u _ _ =>
    let g := { f with bytes := stpBytes 0 false 0x07 (leBytes 2 h ++ leBytes 4 u ++ [0, 0]) }
    let tries := (mapGet (ekey 0x2500 0x07) a.cfg).getD (entryDefault 0x2500 0x07)
    own + tries * (cfgN a.m 0x2510 0x08 + exchangeFc g 6)
  | .seek q false _ => if a.visit then 2 ^ q * slotFc a.m (frameFc f) else own
  | _ => own

/-- The frame of a command on the link in force (R137, R197, R201, R217): a broadcast SET_LINK goes at 106 kbit/s, and the reply to an
addressed one comes on the new link (R216). -/
def stpFrame (a : Air) (c : StpCmd) (claim : Bool) : TxFrame :=
  let p := c.params
  let f : TxFrame :=
    { bytes := stpBytes a.port.val claim p.1 p.2, sub8 := a.sub8, fwd := if c.silent && p.1 == 0x04 then 0 else a.prog.fwd,
      ret := (match c with | .setLink _ r _ => r | _ => a.prog.rate), timed := c.timed, silent := c.silent, chain := c.chain }
  { f with span := stpSpan a f c }

/-- The stitch status of an `RCODE` (R226). -/
def rcodeStatus (c : Nat) : Nat := match c with | 0 => 0 | 4 => 5 | 7 => 9 | 9 => 9 | _ => 6

/-- `DETAIL` of an `RCODE`: with `TAG_ERROR` and `AUTH_FAIL` (R275). -/
def rcodeDetail (c : Nat) : Nat := if c = 4 then 0 else c

/-- The status of an exchange that did not end `OK`, and its `DETAIL`; `none` is the status of no reply (R169, R275, R282). -/
def outcomeStatus (none : Nat) (o : RxOutcome) : Nat × Nat :=
  match o with
  | .ok => (0, 0)
  | .none => (none, if none = 1 then 1 else 0)
  | .collision => (2, 0)
  | o => (3, outcomeCode o)

/-- A stitch ends by an exchange without a good reply. -/
def endBy {α : Type} (none : Nat) (r : Reply) : AirM α :=
  let s := outcomeStatus none r.outcome
  endWith s.1 s.2

/-- What every STP exchange does beside its command: `BIND`, error replies and the run of failed checks on the return rate of its frame (R218,
R250). -/
def noteStp (rate : Nat) (r : Reply) : AirM Reply := do
  onProg fun p => { p with badEnd := r.outcome.failed, crcRun := if r.outcome.failed && rate != 0 then p.crcRun + 1 else 0 }
  if r.outcome = .ok then
    onProg fun p => { p with lastRssi := r.rssi }
    onDev fun m => countIf (decide (2 ≤ r.bind)) (countIf (r.bind == 1) m 0x7070 0x05) 0x7070 0x06
    onDev fun m => countIf (rcodeStatus r.rcode == 6) m 0x7080 0x0C
  return r

/-- The exchange of an STP command. -/
def stpX (c : StpCmd) (claim : Bool := false) : AirM Reply := do
  let f := stpFrame (← get) c claim
  noteStp f.ret (← xchg f)

/-- Sensitivity of a return rate on the carrier of a level, in 0.05 dB (R170): the mV figures hold below code 100 and rise in a
straight line by 2 dB to code 120. DEDUCED (log 20). -/
def sensitivity (rate level : Nat) : Int :=
  let s : Int := match rate with | 0 => -1770 | 1 => -1710 | 2 => -1648 | _ => -1588
  let d : Int := (level : Int) - 100
  s - 5 * d + (if 0 < d then 2 * d else 0)

/-- Whether the last sideband exceeds the sensitivity of a rate by [2510:0A] (R217, R258). -/
def rateHeard (m : Main) (rssi rate level : Nat) : Bool :=
  decide (sensitivity rate level + 20 * (cfgN m 0x2510 0x0A : Int) ≤ -10 * (rssi : Int))

/-- The highest rate that a port allows on a subcarrier: off its cached subcarrier no higher than the cached rate (R137). -/
def cachedCap (m : Main) (p : Fin 128) (sub8 : Bool) : Nat :=
  let c := (m.ports[p]).linkCache.toNat
  if bitAt c 4 && bitAt c 2 != sub8 then c % 4 else 3

/-- The target rate of R217. -/
def targetRate (a : Air) (m : Main) : Nat :=
  ([3, 2, 1].find? fun r =>
    decide (r ≤ cfgN m 0x2510 0x07) && decide (r ≤ cachedCap m a.port a.sub8) && bitAt a.prog.caps r && (decide (r < 3) || a.sub8) &&
    rateHeard m a.prog.lastRssi r a.level).getD 0

/-- The link in force is written to the cache (R219). -/
def cacheLink (p : Fin 128) (rate : Nat) (sub8 : Bool) (caps : Nat) (m : Main) : Main :=
  let fwd := bitAt caps 0 && cfgN m 0x2510 0x06 == 1
  modPort m p fun x =>
    { x with linkCache := BitVec.ofNat 16 (rate + place 2 1 (bitN sub8) + place 3 1 (bitN fwd) + 0x10 + place 8 8 caps) }

/-- The last `LINKCAPS` seen on a port (R219). -/
def noteCaps (p : Fin 128) (caps : Nat) (m : Main) : Main :=
  modPort m p fun x => { x with linkCache := BitVec.ofNat 16 (x.linkCache.toNat % 256 + place 8 8 caps) }

/-- The forward rate that a fob's `LINKCAPS` allow (R217). -/
def fwdFor (caps : Nat) : AirM Nat := do return bitN (bitAt caps 0 && (← cfgA 0x2510 0x06) == 1)

/-- A SINGLE or SELECT reply has shown the fob: its UID, handle, `LINKCAPS`, `RSSI`, `MARGIN` and `BIND` (R276). -/
def learnFob (uid handle caps rssi margin bind : Nat) : AirM Unit := do
  let f ← fwdFor caps
  onProg fun p =>
    let p := { p with handle := handle, caps := caps, fwdNext := f }
    if p.acquired then { p with margin := if margin = 0xFF then p.margin else margin }
    else { p with acquired := true, uid := uid, rssi := rssi, margin := margin, bind := bind }

/-- A reply too short for its command counts as a failed check. DESIGN CHOICE (log 20). -/
def needLength (n : Nat) (r : Reply) : AirM Unit := do
  if r.outcome = .ok && r.rcode == 0 && decide (r.data.length < n) then endWith 3 0

/-- The broadcast SET_LINK before the first reply on a subcarrier that is not the port's default (R217). -/
def announceLink : AirM Unit := do
  let a ← get
  if a.sub8 != bitAt a.port.val 3 then let _ ← stpX (.setLink 0xFFFF 0 a.sub8)

/-- A fob that has lost its handle is back on its default link; acquiring commands go out as the cache allows (R213, R217). -/
def dropLink : AirM Unit := do
  let p := (← get).port
  let fast ← askDev fun m => bitN (fastAcquire m p)
  onProg fun p => { p with rate := 0, crcRun := 0, fwd := fast }

/-- A run of exchanges begins on the field: steps 2 and 3 of R281. -/
def beginStp : AirM Unit := do
  dropLink
  announceLink

/-- One slot of a SEEK round whose reply was `OK`: SELECT, and the fob it finds. `none`: the slot counts as collided (R233). -/
def selectFob (slot : Reply) : AirM (Option (List Word)) := do
  if slot.rcode != 0 || decide (slot.data.length < 3) then return none
  let h := leNat (slot.data.drop 1 |>.take 2)
  let r ← stpX (.select h)
  if r.outcome != .ok || r.rcode != 0 || decide (r.data.length < 12) then return none
  let uid := leNat (r.data.drop 1 |>.take 8)
  let p := (← get).port
  onDev (noteCaps p (r.at_ 9))
  onProg fun p => { p with handles := (uid, h) :: p.handles.filter fun x => x.1 != uid }
  return some (fobRecord uid (r.at_ 9) slot.rssi (r.at_ 11) slot.bind false)

/-- The `LINKCAPS` of a fob record. -/
def recordCaps (r : List Word) : Nat := (nth r 2 0).toNat % 256

/-- A fob selected takes its place among those found; one found again keeps its place. -/
def putFob (r : List Word) (fs : List (List Word)) : List (List Word) :=
  if fs.any fun f => recordUid f == recordUid r then fs.map fun f => if recordUid f = recordUid r then r else f else fs ++ [r]

/-- QUIET to a fob by the handle that it drew, at the forward rate that its `LINKCAPS` allow (R217, R281 step 7). `heard`: it is the fob
heard last, whose handle window holds; the others' have long passed (R208). Whether the fob confirmed it. -/
def quietFobX (uid caps : Nat) (heard : Bool) : AirM Bool := do
  let a ← get
  let h := ((a.prog.handles.find? fun x => x.1 == uid).map (·.2)).getD a.prog.handle
  let w ← fwdFor caps
  let r ← softly do
    let f := stpFrame (← get) (.quiet h) false
    let f := { f with fwd := w, timed := heard }
    noteStp f.ret (← xchg { f with span := exchangeFc f (StpCmd.replyLen (.quiet h)) })
  return (r.map fun r => r.outcome == .ok && r.rcode == 0) == some true

/-- The slots of a SEEK round, slot `i` next. `stop` ends the round after a fob; `quiet` sends QUIET to each fob selected (R303). The
collisions are counted as R233 does; the result tells whether any slot drew a reply, and whether the round was stopped. -/
def seekSlots (quiet : Bool) (stop : List (List Word) → List Word → Bool) (q : Nat) (skip claim : Bool) :
    Nat → Nat → Bool → AirM (Bool × Bool)
  | 0, _, heard => return (heard, false)
  | n + 1, i, heard => do
    let r ← stpX (.seek q (i != 0) (skip && i == 0)) (claim && i == 0)
    if r.outcome = .ok then
      onProg fun p => { p with coll := p.coll + bitN r.captured }
      match ← selectFob r with
      | none =>
        onDev fun m => count m 0x7080 0x02
        onProg fun p => { p with coll := p.coll + 1 }
        seekSlots quiet stop q skip claim n (i + 1) true
      | some f =>
        onDev fun m => countIf r.captured m 0x7080 0x02
        onProg fun p => { p with fobs := putFob f p.fobs }
        if quiet then let _ ← quietFobX (recordUid f) (recordCaps f) true
        if stop (← get).prog.fobs f then return (true, true)
        seekSlots quiet stop q skip claim n (i + 1) true
    else if r.outcome = .none then seekSlots quiet stop q skip claim n (i + 1) heard
    else
      onDev fun m => count m 0x7080 0x02
      onProg fun p => { p with coll := p.coll + 1 }
      seekSlots quiet stop q skip claim n (i + 1) true

/-- One SEEK round (R233): whether any slot drew a reply, and whether it was stopped. -/
def seekRound (quiet : Bool) (stop : List (List Word) → List Word → Bool) (q : Nat) (skip claim : Bool) : AirM (Bool × Bool) := do
  onProg fun p => { p with inRound := true, coll := 0 }
  let r ← seekSlots quiet stop q skip claim (2 ^ q) 0 false
  onProg fun p => { p with inRound := false }
  onDev fun m => count m 0x7080 0x01
  return r

/-- ⌈log₂(2.39 n)⌉ limited to 0–8 (R233). -/
def seekNext (n : Nat) : Nat := ((List.range 9).find? fun k => decide (239 * n ≤ 100 * 2 ^ k)).getD 8

/-- A round that a field gap cut through counts as run, and is run again at the same `Q` (R233, R290). -/
def gapRound : AirM Unit := do
  if (← get).prog.inRound then
    onDev fun m => count m 0x7080 0x01
    onProg fun p => { p with inRound := false, round := p.round + 1 }

/-- SEEK rounds until one without collision (R233). A first round that no fob answers is repeated once with the claim flag
(R139; log 20). -/
def seekRounds (quiet : Bool) (stop : List (List Word) → List Word → Bool) : Nat → AirM Unit
  | 0 => do
    onDev fun m => count m 0x7080 0x03
    endWith 2 0
  | n + 1 => do
    let p := (← get).prog
    let r ← seekRound quiet stop p.seekQ (p.round != 0) false
    let again ← if p.round == 0 && !r.1 then cfgA 0x2300 0x0A else pure 0
    let r ← if again = 1 then do
        onDev fun m => count m 0x7040 0x08
        let r ← seekRound quiet stop p.seekQ false true
        let found := !(← get).prog.fobs.isEmpty
        onDev fun m => countIf found m 0x7040 0x09
        pure r
      else pure r
    let coll := (← get).prog.coll
    if r.2 || coll == 0 then return ()
    let q := if (← cfgA 0x2500 0x03) == 1 then seekNext coll else p.seekQ
    onProg fun p => { p with round := p.round + 1, seekQ := q }
    seekRounds quiet stop n

/-- One SEEK round for a fob of known UID after `COLLISION` (R281 step 3). -/
def seekFor (uid : Nat) : AirM Unit := do
  let before := (← get).prog
  onProg fun p => { p with fobs := [] }
  let _ ← seekRound false (fun _ f => recordUid f == uid) (← cfgA 0x2500 0x01) false false
  let after := (← get).prog
  onProg fun p => { p with fobs := before.fobs, inRound := before.inRound, coll := before.coll }
  match after.fobs.find? fun f => recordUid f == uid with
  | some f =>
    let w := (nth f 2 0).toNat
    let h := ((after.handles.find? fun x => x.1 == uid).map (·.2)).getD 0xFFFF
    learnFob uid h (field w 0 8) (field w 8 8) (field w 16 8) (field w 24 2)
  | none => endWith 1 (if after.fobs.isEmpty then 1 else 2)

/-- SINGLE, with the claim repeat of R139; the fob that a claim finds is counted, whichever it is. -/
def single : AirM Reply := do
  let r ← stpX .single
  let again ← if r.outcome = .none then cfgA 0x2300 0x0A else pure 0
  if again = 1 then
    onDev fun m => count m 0x7040 0x08
    let r ← stpX .single true
    onDev fun m => countIf (r.outcome == .ok && r.rcode == 0) m 0x7040 0x09
    return r
  return r

/-- Acquisition (R281 step 3); `uid` 0 stands for any single fob. -/
def acquire (uid : Nat) : AirM Unit := do
  let r ← single
  match r.outcome with
  | .ok =>
    if r.rcode != 0 then endWith (rcodeStatus r.rcode) (rcodeDetail r.rcode)
    needLength 12 r
    let got := leNat (r.data.drop 1 |>.take 8)
    let p := (← get).port
    onDev (noteCaps p (r.at_ 11))
    if uid != 0 && got != uid then endWith 1 2
    learnFob got (leNat (r.data.drop 9 |>.take 2)) (r.at_ 11) r.rssi 0xFF r.bind
  | .collision => if uid = 0 then endWith 2 0 else seekFor uid
  | _ => endBy 1 r

/-- Re-acquisition: step 3 with the UID already learnt (R281). -/
def acquireAgain : AirM Unit := do
  onDev fun m => count m 0x70A0 0x09
  acquire (← get).prog.uid

/-- Re-acquisition of a fob; one that has dropped its handle is on its default link (R209, R213). -/
def reacquire (dropped : Bool) : AirM Unit := do
  if dropped then beginStp
  acquireAgain
  onProg fun p => { p with fwd := p.fwdNext }

/-- The end of an addressed SET_LINK that was repeated or not (R218). -/
inductive LinkEnd where
  | ok | failed | silent
  deriving DecidableEq, Repr

/-- An addressed SET_LINK, repeated while its reply fails its check (R218). -/
def setLink (rate : Nat) : Nat → AirM LinkEnd
  | 0 => return .failed
  | n + 1 => do
    let a ← get
    let r ← stpX (.setLink a.prog.handle rate a.sub8)
    match r.outcome with
    | .ok =>
      if r.rcode != 0 then endWith (rcodeStatus r.rcode) (rcodeDetail r.rcode)
      onProg fun p => { p with rate := rate, fwd := p.fwdNext }
      onDev fun m => count (cacheLink a.port rate a.sub8 a.prog.caps m) 0x7070 0x01
      return .ok
    | .none => return .silent
    | _ => setLink rate n

/-- A SET_LINK without a reply: the fallback link by broadcast, and re-acquisition (R218). -/
def linkLost : AirM Unit := do
  onDev fun m => count m 0x7070 0x02
  let a ← get
  let _ ← stpX (.setLink 0xFFFF 0 a.sub8)
  dropLink
  acquireAgain
  onProg fun p => { p with fwd := p.fwdNext }

/-- The link is changed to a rate on the granted subcarrier, or falls back, under R218. -/
def changeLink (rate : Nat) : AirM Unit := do
  let n ← cfgA 0x2510 0x0C
  match ← setLink rate n with
  | .ok => return ()
  | .silent => linkLost
  | .failed =>
    match ← setLink 0 n with
    | .ok => return ()
    | .silent => linkLost
    | .failed =>
      onDev fun m => count m 0x7070 0x03
      endWith 0x0C 0

/-- The next lower rate that a fob declares; rate code 0 is every fob's (R215, R216, R218). -/
def lowerRate (caps rate : Nat) : Nat := (([2, 1].filter fun r => decide (r < rate)).find? fun r => bitAt caps r).getD 0

/-- The step down that a run of failed checks asks for, before a command (R218). -/
def stepDown : AirM Unit := do
  let p := (← get).prog
  if p.rate != 0 && decide ((← cfgA 0x2510 0x0B) ≤ p.crcRun) then
    onDev fun m => count m 0x7070 0x04
    onProg fun p => { p with crcRun := 0 }
    changeLink (lowerRate p.caps p.rate)

/-- One command to an acquired fob, by its handle, after the step down where one is due (R218). -/
def cmd (c : Nat → StpCmd) : AirM Reply := do
  stepDown
  stpX (c (← get).prog.handle)

/-- Negotiation (R217, R281 step 4): without a SET_LINK the forward rate of the fob holds from the next command on. -/
def negotiate : AirM Unit := do
  let a ← get
  let r ← askDev (targetRate a)
  if r != a.prog.rate then changeLink r else onProg fun p => { p with fwd := p.fwdNext }

/-- A command that is to be answered `OK` with `RCODE` 0; no reply is `TIMEOUT` (R226, R282). -/
def ask (n : Nat) (c : Nat → StpCmd) : AirM Reply := do
  let r ← cmd c
  if r.outcome != .ok then endBy 4 r
  if r.rcode != 0 then endWith (rcodeStatus r.rcode) (rcodeDetail r.rcode)
  needLength n r
  return r

/-- A command repeated after `CRC_FAIL`, in all `n` attempts (R282). -/
def askAgain (len : Nat) (c : Nat → StpCmd) : Nat → AirM Reply
  | 0 => ask len c
  | 1 => ask len c
  | n + 1 => do
    let r ← cmd c
    if r.outcome.failed then askAgain len c n
    else
      if r.outcome != .ok then endBy 4 r
      if r.rcode != 0 then endWith (rcodeStatus r.rcode) (rcodeDetail r.rcode)
      needLength len r
      return r

/-- A number that nothing determines (log 1). -/
def drawA : AirM (BitVec 128) := do return BitVec.ofNat 128 (← askNum fun m => ((draw m).1.toNat, (draw m).2))

/-- The key of a slot: AES-128 of `UID` ‖ `UID` under a master key when the slot is diversified (R246). A slot that holds no
key gives a free value (log 21). -/
def fobKey (slot : Nat) : AirM (BitVec 128) := do
  let key := (← get).keys[finOf 8 slot]
  let k ← match key with
    | some k => askDev fun _ => k.toNat
    | none => do pure (← drawA).toNat
  let k := BitVec.ofNat 128 k
  if bitAt (← cfgA 0x2500 0x18) slot then
    let u := leBytes 8 (← get).prog.uid
    return BitVec.ofNat 128 (leNat (aes128 k (u ++ u)))
  return k

/-- An authentication that fails (R245). -/
def authFail {α : Type} (detail : Nat) : AirM α := do
  onDev fun m => count m 0x7080 0x0B
  endWith 9 detail

/-- A reply of AUTH1 or AUTH2 (R245). -/
def askAuth (n : Nat) (c : Nat → StpCmd) : AirM Reply := do
  let r ← cmd c
  if r.outcome = .ok && rcodeStatus r.rcode == 9 then authFail r.rcode
  if r.outcome != .ok then endBy 4 r
  if r.rcode != 0 then endWith (rcodeStatus r.rcode) (rcodeDetail r.rcode)
  needLength n r
  return r

/-- Mutual authentication under a key slot and a fob key (R245, R281 step 5). -/
def authenticate (slot key : Nat) : AirM Unit := do
  let k ← fobKey slot
  let ra := leBytes 8 (← drawA).toNat
  let r ← askAuth 17 fun h => .auth1 h key ra
  let c1 := aes128Inv k (r.data.drop 1 |>.take 16)
  if c1.take 8 != ra then authFail 0
  let _ ← askAuth 1 fun h => .auth2 h (aes128 k (c1.drop 8 ++ ra))
  onDev fun m => count m 0x7080 0x0A

/-- READ of `count` records from `first` on, as many exchanges as the fob's reply size asks for (R281 step 6). -/
def readRecords : Nat → Nat → Nat → AirM Unit
  | 0, _, _ => return ()
  | fuel + 1, first, count => do
    if count = 0 then return ()
    let k := min count (field (← get).prog.caps 4 4 + 1)
    let r ← askAgain (1 + 16 * k) (fun h => .read h first k) (← cfgA 0x2500 0x04)
    onProg fun p => { p with recs := p.recs ++ packWords (r.data.drop 1 |>.take (16 * k)) }
    readRecords fuel (first + k) (count - k)

/-- Re-acquisition inside a write: it may fail, for want of a fob or of a window (R242). -/
def tryReacquire (dropped : Bool) : AirM Bool := do return (← softly (reacquire dropped)).isSome

/-- One record read back (R242). The second part tells that the fob did not answer at all, so that its handle is lost. -/
def readBack (rec_ : Nat) : AirM (Option (List Byte) × Bool) := do
  match ← softly (cmd fun h => .read h rec_ 1) with
  | some r =>
    return (if r.outcome == .ok && r.rcode == 0 && decide (17 ≤ r.data.length) then some (r.data.drop 1 |>.take 16) else none, false)
  | none => return (none, true)

/-- The record read back after an acknowledged COMMIT: a handle lost before the READ could be sent is re-acquired once (R242). -/
def readBackOk (rec_ : Nat) : AirM (Option (List Byte)) := do
  let r ← readBack rec_
  if r.2 then
    if ← tryReacquire true then return (← readBack rec_).1 else return none
  return r.1

/-- How a COMMIT and its repeats ended (R242). -/
inductive CommitEnd where
  | done (gen : Nat) (repeated : Bool)
  | refused (status detail : Nat)
  | doubt (last : Reply)
  deriving DecidableEq, Repr

/-- COMMIT, with the same token each time (R242). It belongs to its ARM's exchange: no step down comes between, and no window cuts it
(R243; log 20). -/
def commit1 (uid token : Nat) (first : Bool) : Nat → Reply → AirM CommitEnd
  | 0, last => return .doubt last
  | n + 1, _ => do
    let h := (← get).prog.handle
    let r := (← softly (stpX (.commit h uid token))).getD { outcome := .none }
    match r.outcome with
    | .none => return .doubt r
    | .ok =>
      if r.rcode = 0 && decide (4 ≤ r.data.length) then return .done (r.at_ 3) (bitAt (r.at_ 2) 0)
      if r.rcode = 4 then
        onDev fun m => count m 0x7080 0x06
        return .refused 5 0
      if r.rcode = 5 && first then return .refused 6 5
      return .doubt r
    | _ =>
      onDev fun m => count m 0x7080 0x07
      commit1 uid token false n r

/-- The end of the write of one record: status, `DETAIL`, `GEN`, `REPEAT`. -/
abbrev WriteEnd := Nat × Nat × Nat × Bool

def uncertain (rec gen : Nat) (rep : Bool) : AirM WriteEnd := do
  onDev fun m => count m 0x7080 0x09
  return (0x0D, rec, gen, rep)

/-- The end of a write whose COMMIT was acknowledged (R242). -/
def verified (rec_ : Nat) (data : List Byte) (gen : Nat) (rep : Bool) : AirM WriteEnd := do
  if (← cfgA 0x2500 0x08) == 1 then
    match ← readBackOk rec_ with
    | none => uncertain rec_ gen rep
    | some b =>
      if b = data then
        onDev fun m => count m 0x7080 0x04
        return (0, 0, gen, rep)
      onDev fun m => count m 0x7080 0x0D
      return (6, 0, gen, rep)
  else
    onDev fun m => count m 0x7080 0x04
    return (0, 0, gen, rep)

/-- The write of one record (R242), `last` being the status of the last exchange. -/
def writeRecord (rec_ : Nat) (data : List Byte) : Nat → Nat × Nat → AirM WriteEnd
  | 0, last => return (last.1, last.2, 0, false)
  | n + 1, _ => do
    let uid := (← get).prog.uid % 2 ^ 32
    let r ← cmd fun h => .arm h uid rec_ data
    let short := r.outcome = .ok && r.rcode == 0 && decide (r.data.length < 4)
    if r.outcome != .ok || short then
      let last := if short then (3, 0) else outcomeStatus 4 r.outcome
      if ← tryReacquire (r.outcome == .none) then writeRecord rec_ data n last else return (last.1, last.2, 0, false)
    else if r.rcode != 0 then return (rcodeStatus r.rcode, rcodeDetail r.rcode, 0, false)
    else
      onProg fun p => { p with margin := r.at_ 1 }
      if decide (r.at_ 1 < (← cfgA 0x2500 0x06)) then
        onDev fun m => count m 0x7080 0x05
        return (5, 0, 0, false)
      match ← commit1 uid (leNat (r.data.drop 2 |>.take 2)) true (← cfgA 0x2500 0x07) { outcome := .none } with
      | .refused st d => return (st, d, 0, false)
      | .done gen rep => verified rec_ data gen rep
      | .doubt k =>
        onDev fun m => count m 0x7080 0x08
        if !(← tryReacquire (k.outcome == .none)) then uncertain rec_ 0 false
        else
          match (← readBack rec_).1 with
          | none => uncertain rec_ 0 false
          | some b =>
            if b = data then
              onDev fun m => count m 0x7080 0x04
              return (0, 0, 0, false)
            let last := if k.outcome = .ok then (rcodeStatus k.rcode, rcodeDetail k.rcode) else outcomeStatus 4 k.outcome
            writeRecord rec_ data n last

/-- How a turn of a run of exchanges ended: it waits for the exchange of a frame, its window has closed, its limit has passed, or it ended. -/
inductive TurnEnd where
  | waits (f : TxFrame)
  | paused
  | limited
  | ended (status detail : Nat)
  deriving DecidableEq, Repr

/-- Who runs exchanges on a core's field, and what bounds them: the run limit has passed, and it is that of an ISO_APDU (R260, R267). -/
structure Turn where
  owner : Owner
  core  : Fin 16
  port  : Fin 128
  limit : Bool := false
  apdu  : Bool := false
  keys  : Vector (Option (BitVec 128)) 8

/-- A run of exchanges repeated on what it has met, up to the next frame it needs. -/
def runScript (t : Turn) (m : Main) (sc : Script) (prog : AirM Unit) : Main × Script × AirStop :=
  let a : Air :=
    { m := m, log := sc.log, port := t.port, core := t.core, sub8 := sc.sub8, level := sc.level, keys := t.keys, cfg := sc.cfg.getD [],
      visit := (match t.owner with | .lane _ => true | _ => false), prog := sc.base }
  let r := prog.run.run a
  let sc := { sc with log := sc.log ++ r.2.new, prog := r.2.prog, want := none, inbox := none }
  match r.1 with
  | .ok _ => (r.2.m, sc, .ended 0 0)
  | .error s => (r.2.m, sc, s)

/-- Whether no further exchange can start on a core's field: it is gone or ordered off, or its window has closed (R85). -/
def fieldOver (m : Main) (k : Fin 16) (w : Owner) : Bool :=
  match (m.cores[k]).fld with
  | none => true
  | some f => f.owner != w || (m.cores[k]).pendOff || !planAllows m k f.port f.cls

/-- One turn of an engine (R283): the run goes on with an event, and the frame it needs next is handed over, left out, or stops it. A frame
that may be left out does not stop it; a COMMIT follows its ARM whatever has come (R243). -/
def turn (t : Turn) (prog : AirM Unit) : Nat → Main → Script → List AirEv → Main × Script × TurnEnd
  | 0, m, sc, _ => (m, sc, .paused)
  | n + 1, m, sc, evs =>
    let r := runScript t m { sc with log := sc.log ++ evs } prog
    match r.2.2 with
    | .ended st d => (r.1, r.2.1, .ended st d)
    | .skipped => (r.1, r.2.1, .ended 4 0)
    | .need f =>
      if (r.1.cores[t.core]).chain && f.chain == .commit then (r.1, r.2.1, .waits f)
      else if fieldOver r.1 t.core t.owner then
        if f.skip then turn t prog n r.1 r.2.1 [.closed] else (r.1, r.2.1, .paused)
      else if t.limit then
        if t.apdu then (if f.skip then (r.1, r.2.1, .waits f) else turn t prog n r.1 r.2.1 [.lost])
        else if f.skip then turn t prog n r.1 r.2.1 [.closed] else (r.1, r.2.1, .limited)
      else (r.1, r.2.1, .waits f)

/-- The frame that a core sends next; the receive buffer is the core's again (R157, R168). -/
def handFrame (m : Main) (k : Fin 16) (f : TxFrame) : Main :=
  modCore m k fun c => { c with next := some f, noFit := false, bufHeld := false }

/-- An ARM and its COMMITs are over: a gap begins (R133, R243). -/
def endChain (m : Main) (k : Fin 16) : Main :=
  let c := m.cores[k]
  if c.chain && c.exch == .gap && c.fld.isSome then gapBegins (modCore m k fun c => { c with chain := false }) k else m

/-- What a core is given at the end of a turn: a frame that is not a COMMIT ends the chain before it, which may take the field. -/
def handNext (m : Main) (k : Fin 16) (w : Owner) (f : TxFrame) : Main :=
  let m := if f.chain == .commit then m else endChain m k
  if carries m k w && !(m.cores[k]).pendOff then handFrame m k f else m

/-- A reply as the engine reads it: a parity error in buffer or status words makes it `BUF_PARITY`, and nothing of it is used (R114, R167). -/
def readReply (parityBad : Bool) (r : Reply) : Reply :=
  if parityBad then { r with outcome := .bufParity, data := [], lastbits := 0, captured := false, parityA := false, collPos := 0xFFF } else r

/-- A parity error found by the engine reaches the status words of the core, and its fault logic (R114). -/
def noteParity (m : Main) (k : Fin 16) (r : Reply) : Main := bufParity (modCore m k fun c => { c with w0 := (statusWords r).1 }) k

/-- Whether the end of an exchange that waits to be read can have a parity error: that of a frame that draws no reply has no words. -/
def hasWords (m : Main) (k : Fin 16) : Bool := ((m.cores[k]).frame.map (·.silent)) == some false

/-- Whether a limit stops a run that waits for a frame; the S(DESELECT) after an APDU's limit still goes out (R260, R267). -/
def limitStops (t : Turn) (sc : Script) : Bool := t.limit && !(t.apdu && (sc.want.map (·.skip)) == some true)

/-- Whether a run of exchanges that has nothing to read must be taken up: the frame it waits for cannot go out (R85, R242, R267, R281). -/
def mustSettle (m : Main) (t : Turn) (sc : Script) : Bool :=
  let c := m.cores[t.core]
  (fieldOver m t.core t.owner || limitStops t sc || (c.noFit && (sc.want.map (·.skip)) == some true)) && (!carries m t.core t.owner || !c.busy)

/-- A run that waits for a frame that cannot go out: it goes on without the frame where that may be left out, or stops. -/
def settleRun (t : Turn) (prog : AirM Unit) (m : Main) (sc : Script) : Main × Script × TurnEnd :=
  let gone := fieldOver m t.core t.owner
  if (sc.want.map (·.skip)) == some true then turn t prog 3 m sc [.closed]
  else if gone then (m, { sc with want := none }, .paused)
  else if t.apdu then turn t prog 3 m sc [.lost]
  else (m, { sc with want := none }, .limited)

end Sys2Proof.Machine
end

