-- ==== Sys2Proof/Machine/Stitch.lean ====
section
/-!
DEFINITION. Machine/Stitch.lean: the meanings of the STP stitches and of PROBE (chapters 08, 09, 11). Each is one turn of the engine: it
begins the exchanges of its context on the field granted, or reads the end of the last one, and goes on to the next frame, to the end of
the stitch or to the close of its window.
-/

namespace Sys2Proof.Machine

/-- Steps 1 to 5 of R281 up to the operation; a fob already learnt is re-acquired (R281, R290). `more`: an exchange follows. -/
def startStp (j : Job) (more : Bool) : AirM Unit := do
  beginStp
  if (← get).prog.acquired then acquireAgain
  else
    acquire (if j.opcode = 1 then 0 else j.uid)
    onProg fun p => { p with notQuiet := j.quietAfter && decide (j.opcode ≤ 3) }
  if more && !j.noNegotiate then negotiate else onProg fun p => { p with fwd := p.fwdNext }
  if j.opcode = 6 || (j.authFirst && (j.opcode == 2 || j.opcode == 3)) then authenticate (field j.w5.toNat 0 3) (field j.w5.toNat 8 2)

/-- Step 7 of R281 for the fob of a READ or WRITE. -/
def quietFob (j : Job) : AirM Unit := do
  if j.quietAfter then
    let p := (← get).prog
    let ok ← quietFobX p.uid p.caps true
    onProg fun p => { p with notQuiet := !ok }

/-- A fob record with `NOT_QUIET` (R276). -/
def markNotQuiet (b : Bool) : List Word → List Word
  | [u, v, w] => [u, v, if b then w ||| 0x04000000 else w]
  | ws => ws

/-- Step 7 of R281 for the fobs of a SEEK, in the order in which they were found. -/
def quietFobs : List (List Word) → AirM (List (List Word))
  | [] => return []
  | f :: rest => do
    let ok ← quietFobX (recordUid f) (recordCaps f) false
    let fs ← quietFobs rest
    return markNotQuiet (!ok) f :: fs

/-- SEEK (R233, R281). -/
def runSeek (j : Job) : AirM Unit := do
  beginStp
  gapRound
  let q0 ← cfgA 0x2500 0x01
  let p := (← get).prog
  if p.round = 0 then onProg fun p => { p with seekQ := if j.byteA = 0xFF then q0 else j.byteA }
  let limit := j.byteB
  let full (fs : List (List Word)) : Bool := limit != 0 && decide (limit ≤ fs.length)
  if !full p.fobs then seekRounds false (fun fs _ => full fs) ((← cfgA 0x2500 0x02) - p.round)
  if j.quietAfter then
    let fs ← quietFobs (← get).prog.fobs
    onProg fun p => { p with fobs := fs }

/-- SINGLE_READ and READ (R281). -/
def runRead (j : Job) : AirM Unit := do
  startStp j (decide (0 < j.byteB) || j.quietAfter)
  let done := (← get).prog.recs.length / 4
  readRecords j.byteB (j.byteA + done) (j.byteB - done)
  quietFob j

/-- A record of a WRITE is attempted: its word is kept, also when a SET_LINK or a failed acquisition ends the stitch in it (R276, R277). -/
def attempt (rec_ : Nat) (p : AirM WriteEnd) : AirM Unit := do
  let note (w : WriteEnd) : AirM Unit :=
    onProg fun p => { p with writes := p.writes ++ [word (place 0 8 rec_ + place 8 8 w.1 + place 16 8 w.2.2.1 + place 24 1 (bitN w.2.2.2))] }
  let w ← tryCatch p fun s => do
    match s with
    | .ended st d =>
      note (st, d, 0, false)
      throw (.ended st d)
    | s => throw s
  note w
  if w.1 != 0 then endWith w.1 w.2.1

/-- The records of a WRITE not yet completed, in order (R242, R277). -/
def writeAll (j : Job) : List Nat → AirM Unit
  | [] => return ()
  | i :: rest => do
    let data := wordsBytes (j.payload.drop (4 * i) |>.take 4)
    let tries ← cfgA 0x2500 0x05
    attempt (j.byteA + i) (writeRecord (j.byteA + i) data tries (4, 0))
    writeAll j rest

/-- WRITE (R242, R281). -/
def runWrite (j : Job) : AirM Unit := do
  startStp j true
  let done := (← get).prog.writes.length
  writeAll j ((List.range j.byteB).drop done)
  quietFob j

/-- QUIET (R281). -/
def runQuiet (j : Job) : AirM Unit := do
  startStp j true
  let _ ← ask 1 StpCmd.quiet

/-- RELEASE (R281): by UID, after the fob is acquired; of every fob bound to the port by `SCOPE` 2, which draws no reply. -/
def runRelease (j : Job) : AirM Unit := do
  if j.uid = 0 then
    beginStp
    let _ ← stpX .releaseAll
  else
    startStp j true
    let uid := (← get).prog.uid
    let _ ← ask 1 fun _ => .releaseUid uid

/-- AUTH (R245, R281). -/
def runAuth (j : Job) : AirM Unit := startStp j true

/-- The body of a stitch that ends `OK` (R276). -/
def Progress.okBody (p : Progress) (op : Nat) : List Word :=
  if op = 0 then word p.fobs.length :: p.fobs.flatten else p.body op

/-- A stitch has ended: its result, and, when its core stays on after an ARM, the gap that begins (R133, R267, R277). -/
def finishStitch (m : Main) (e : Fin 24) (c : Fin 2) (status detail : Nat) : Main :=
  let x := ctxOf m e c
  match x.job, x.core with
  | some j, some k =>
    let body := if status = 0 then x.sc.prog.okBody j.opcode else x.sc.prog.body j.opcode
    let chained := (m.cores[k]).chain
    let m := endStitch m e c status detail (status != 0 && !body.isEmpty) body
    if chained && (m.cores[k]).fld.isSome && (m.cores[k]).exch == .gap && !(m.cores[k]).pendOff then gapBegins m k else m
  | _, _ => m

/-- What a turn makes of a stitch (R267). -/
def afterTurn (e : Fin 24) (c : Fin 2) (k : Fin 16) (r : Main × Script × TurnEnd) : Main :=
  let m := modCtx r.1 e c fun x => { x with sc := r.2.1 }
  match r.2.2 with
  | .waits f => handNext (modCtx m e c fun x => { x with sc := { x.sc with want := some f } }) k (.ctx e c) f
  | .paused => pauseCtx m e c
  | .limited => finishStitch m e c 4 0
  | .ended st d => finishStitch m e c st d

/-- The turn of a stitch in RUN (R267, R283): it reads the end of its exchange, begins on its field, or settles what has cut it short. -/
def serve (m : Main) (keys : Vector (Option (BitVec 128)) 8) (e : Fin 24) (c : Fin 2) (parityBad : Bool) (prog : Job → AirM Unit) : Main :=
  let x := ctxOf m e c
  match x.job, x.core with
  | some j, some k =>
    let t : Turn := { owner := .ctx e c, core := k, port := j.port, limit := x.limit, apdu := j.opcode == 8, keys := keys }
    if x.st != .run || x.lost then m
    else match x.sc.inbox, (m.cores[k]).fld with
      | some r, _ =>
        let bad := parityBad && hasWords m k
        let r := readReply bad r
        let m := if bad then noteParity m k r else m
        if (ctxOf m e c).st == .run && (ctxOf m e c).job == some j then
          afterTurn e c k (turn t (prog j) 3 m { x.sc with inbox := none } [.reply r])
        else m
      | none, fld =>
        if x.sc.live then (if mustSettle m t x.sc then afterTurn e c k (settleRun t (prog j) m x.sc) else m)
        else match fld with
          | some f =>
            if carries m k (.ctx e c) && f.at95 && !(m.cores[k]).busy then
              afterTurn e c k (turn t (prog j) 3 m { x.sc with live := true, sub8 := f.sub8, level := f.level } [])
            else m
          | none => m
  | _, _ => m

/-- The turn of a stitch of one opcode, as a command, with the fob keys. -/
def stitchCmd (e : Fin 24) (c : Fin 2) (parityBad : Bool) (op : Nat) (prog : Job → AirM Unit) (s : State) : Out :=
  .next { s with m := if ((ctxOf s.m e c).job.map (·.opcode)) = some op then serve s.m s.keys.fobKeys e c parityBad prog else s.m }

/-- STITCH_SEEK. -/
def execStitchSeek (e : Fin 24) (c : Fin 2) (parityBad : Bool) (s : State) : Out := stitchCmd e c parityBad 0 runSeek s

/-- STITCH_SINGLE_READ. -/
def execStitchSingleRead (e : Fin 24) (c : Fin 2) (parityBad : Bool) (s : State) : Out := stitchCmd e c parityBad 1 runRead s

/-- STITCH_READ. -/
def execStitchRead (e : Fin 24) (c : Fin 2) (parityBad : Bool) (s : State) : Out := stitchCmd e c parityBad 2 runRead s

/-- STITCH_WRITE. -/
def execStitchWrite (e : Fin 24) (c : Fin 2) (parityBad : Bool) (s : State) : Out := stitchCmd e c parityBad 3 runWrite s

/-- STITCH_QUIET. -/
def execStitchQuiet (e : Fin 24) (c : Fin 2) (parityBad : Bool) (s : State) : Out := stitchCmd e c parityBad 4 runQuiet s

/-- STITCH_RELEASE. -/
def execStitchRelease (e : Fin 24) (c : Fin 2) (parityBad : Bool) (s : State) : Out := stitchCmd e c parityBad 5 runRelease s

/-- STITCH_AUTH. -/
def execStitchAuth (e : Fin 24) (c : Fin 2) (parityBad : Bool) (s : State) : Out := stitchCmd e c parityBad 6 runAuth s

/-- The measurements of a PROBE (R273, R276). -/
def runProbe (zMag : Nat) (zArg : Int) (level noise : Nat) : AirM Unit :=
  onProg fun p => { p with recs := [word (place 0 16 zMag + place 16 16 (signedField 16 zArg)), word (place 0 8 level + place 8 8 noise)] }

/-- A PROBE ends its run with its measurements (R274). -/
def probe (m : Main) (e : Fin 24) (c : Fin 2) : Main :=
  match (ctxOf m e c).core with
  | some k => if carries m k (.ctx e c) && ((m.cores[k]).fld.map (·.at95)) == some true then modCtx m e c fun x => { x with lastAt := m.now } else m
  | none => m

/-- STITCH_PROBE. -/
def execStitchProbe (e : Fin 24) (c : Fin 2) (zMag : Nat) (zArg : Int) (level noise : Nat) (s : State) : Out :=
  if ((ctxOf s.m e c).job.map (·.opcode)) = some 12 then
    stitchCmd e c false 12 (fun _ => runProbe zMag zArg level noise) { s with m := probe s.m e c }
  else .next s

end Sys2Proof.Machine
end

