-- ==== Sys2Proof/Machine/IsoOps.lean ====
section
/-!
DEFINITION. Machine/IsoOps.lean: the exchanges of ISO/IEC 14443 activations and sessions and of ISO/IEC 15693 (chapter 10): their frames,
timed as R254 gives it, and what a stitch makes of the replies. The formats that chapter 10 takes from the standards are the standards'
(log 22).
-/

namespace Sys2Proof.Machine

/-- A setting of chapter 10 as it stood at the start of the stitch (R264). -/
def isoCfg (a : Air) (sub : Nat) : Nat := (mapGet (ekey 0x2600 sub) a.cfg).getD (entryDefault 0x2600 sub)

/-- The last bit of a Type A frame as sent: the parity of the last byte where that is whole (R254; log 22). -/
def lastBit (bytes : List Byte) (bits : Nat) : Bool :=
  let b := (bytes.getLast?.getD 0).toNat
  if bits = 0 then decide (((List.range 8).countP fun i => bitAt b i) % 2 = 0) else bitAt b (bits - 1)

/-- A frame with its windows: the protocol's reply window from `first` to `last`, widened by `below` and `above`; `reply` is the length of
the reply for which its span is reckoned (R85, R254). -/
def timedFrame (f : TxFrame) (first last below above reply : Nat) : TxFrame :=
  { f with win := some (first - below, last + above, first, last), span := frameFc f + first + replyFc f reply }

/-- A Type A frame before the card's activation (R254, row 1). -/
def frameA (a : Air) (bytes : List Byte) (bits : Nat) (split : Bool) (check : RxCheck) (reply : Nat) : TxFrame :=
  let lo := if lastBit bytes bits then 1236 else 1172
  timedFrame { bytes := bytes, bits := bits, split := split, proto := .typeA, mod := isoMod (isoCfg a) .typeA, check := check, least := 1172 }
    lo (lo + 64) (isoCfg a 0x06) (isoCfg a 0x06) reply

def withCrcA (bs : List Byte) : List Byte := bs ++ leBytes 2 (CrcKind.crcA.of bs)
def withCrcB (bs : List Byte) : List Byte := bs ++ leBytes 2 (CrcKind.crcB.of bs)

/-- A Type B frame before the card's activation (R254, row 3). -/
def frameB (a : Air) (bytes : List Byte) (reply : Nat) : TxFrame :=
  timedFrame { bytes := withCrcB bytes, proto := .typeB, mod := isoMod (isoCfg a) .typeB, check := .crcB, least := 1792 }
    1024 7680 (isoCfg a 0x06) (isoCfg a 0x06) reply

/-- A frame that draws no reply. -/
def mute (f : TxFrame) : TxFrame := { f with silent := true, span := frameFc f }

/-- The frame waiting time of an FWI, and with a WTXM (R255). -/
def fwtFc (fwi wtxm : Nat) : Nat := min 67108864 (4096 * 2 ^ fwi * wtxm)

/-- What a block of a session goes out with (R254, R258): protocol, rates, FWI, the wait that its card still asks for. -/
structure Link4 where
  proto : Proto
  fwd   : Nat := 0
  ret   : Nat := 0
  fwi   : Nat := 4
  sfgt  : Nat := 0
  deriving DecidableEq, Repr

/-- A block of a session, PPS or ATTRIB (R254, row 4), with the frame after it, and the longest reply at FWT′ (R260). -/
def frame4 (cfg : Nat → Nat) (l : Link4) (wtxm : Nat) (bytes : List Byte) (next : Nat) : TxFrame :=
  let typeA := l.proto == .typeA
  let f : TxFrame :=
    { bytes := if typeA then withCrcA bytes else withCrcB bytes, proto := l.proto, fwd := l.fwd, ret := l.ret, mod := isoMod cfg l.proto,
      check := if typeA then .crcAParity else .crcB, least := max (if typeA then 1172 else 1792) l.sfgt }
  let lo := if typeA then 1172 else 1024
  let f := timedFrame f lo (fwtFc l.fwi wtxm) (cfg 0x06) (cfg 0x07) 0
  { f with span := frameFc f + fwtFc l.fwi wtxm + replyFc f (cfg 0x05) + frameFc { f with bytes := List.replicate next 0 } }

/-- The data bits of a reply in their order, those before a collided bit (R163). -/
def replyBits (r : Reply) : List Bool :=
  let n := if r.lastbits = 0 then 8 * r.data.length else 8 * (r.data.length - 1) + r.lastbits
  let n := if r.outcome = .collision then min n r.collPos else n
  (List.range n).map fun i => bitAt (r.at_ (i / 8)) (i % 8)

/-- An exchange of an activation; the sideband of its reply is kept (R258). -/
def isoXchg (f : TxFrame) : AirM Reply := do
  let r ← xchg f
  if r.outcome = .ok then onProg fun p => { p with lastRssi := r.rssi }
  return r

/-- An activation that fails is counted (R258). -/
def activateFail {α : Type} (status detail : Nat) : AirM α := do
  onDev fun m => count m 0x7090 0x02
  endWith status detail

/-- A card that does not complete step 1 of R258: `NO_TAG` without a reply, else `COLLISION`. -/
def stepOneFail {α : Type} (r : Reply) : AirM α := if r.outcome = .none then activateFail 1 1 else activateFail 2 0

/-- The status of a failed exchange in a session (R256). -/
def blockStatus (r : Reply) : Nat × Nat :=
  match r.outcome with
  | .none => (4, 0)
  | .ok => (6, 0x11)
  | o => (3, outcomeCode o)

/-- What step 1 of R258 found: the UID, the SAK or ATQB, and whether another card answered. -/
structure CardFound where
  uid  : List Byte
  sak  : Nat := 0
  atqb : List Byte := []
  more : Bool := false
  deriving DecidableEq, Repr

/-- Step 3 of R258 fails with the status of R256, after HLTA, which draws no reply, or HLTB (R251). -/
def stepThreeFail {α : Type} (card : CardFound) (typeA : Bool) (r : Reply) : AirM α := do
  let a ← get
  let _ ← softly (xchg (if typeA then mute (frameA a (withCrcA [0x50, 0x00]) 0 false .none 0) else frameB a (0x50 :: card.uid) 3))
  activateFail (blockStatus r).1 (blockStatus r).2

/-- `SEL` of a cascade level. -/
def selByte (level : Nat) : Byte := byte (0x93 + 2 * level)

/-- Anticollision of one cascade level: the 40 bits of UID part and check byte; at a collided bit the value 1 is taken (R258). The frame
names the bits known so far. -/
def anticollision (level : Nat) : Nat → List Bool → Bool → AirM (List Byte × Bool)
  | 0, _, _ => activateFail 2 0
  | n + 1, known, more => do
    let a ← get
    let k := known.length
    let bytes := selByte level :: byte ((2 + k / 8) * 16 + k % 8) :: bitsBytes known
    let r ← xchg (frameA a bytes (k % 8) true .parityA (5 - k / 8))
    match r.outcome with
    | .ok =>
      let bs := leBytes 5 (bitsNat ((known ++ replyBits r).take 40))
      if decide ((known ++ replyBits r).length < 40) || bs.foldl (· ^^^ ·) 0 != (0 : Byte) then activateFail 2 0
      return (bs, more)
    | .collision =>
      if r.collPos = 0xFFF then activateFail 2 0
      anticollision level n (known ++ replyBits r ++ [true]) true
    | _ => stepOneFail r

/-- Cascade levels until the SAK says that the UID is complete (R258). -/
def cascade : Nat → List Byte → Bool → AirM CardFound
  | 0, uid, more => return { uid := uid, more := more }
  | n + 1, uid, more => do
    let level := 2 - n
    let c ← anticollision level 41 [] more
    let a ← get
    let r ← isoXchg (frameA a (withCrcA (selByte level :: 0x70 :: c.1)) 0 false .crcAParity 3)
    if r.outcome != .ok || r.data.isEmpty then stepOneFail r
    let sak := r.at_ 0
    if bitAt sak 2 && n != 0 then cascade n (uid ++ (c.1.drop 1 |>.take 3)) c.2
    else return { uid := uid ++ c.1.take 4, sak := sak, more := c.2 }

/-- Step 1 for Type A: WUPA, or REQA when the stitch asks for it, then the cascade (R258). -/
def activateA (j : Job) : AirM CardFound := do
  let a ← get
  let r ← xchg (frameA a [if j.req then 0x26 else 0x52] 7 false .parityA 2)
  match r.outcome with
  | .ok => cascade 3 [] false
  | .collision => cascade 3 [] true
  | _ => stepOneFail r

/-- The code of a number of slots in REQB and WUPB. -/
def slotCode (n : Nat) : Nat := ([0, 1, 2, 3, 4].find? fun c => decide (n ≤ 2 ^ c)).getD 4

/-- Step 1 for Type B: WUPB or REQB with AFI and N, then Slot-MARKERs until the first ATQB without collision (R258). -/
def activateB (j : Job) : Nat → Bool → AirM CardFound
  | 0, heard => if heard then activateFail 2 0 else activateFail 1 1
  | n + 1, heard => do
    let a ← get
    let slot := j.byteB - (n + 1)
    let bytes : List Byte :=
      if slot = 0 then [0x05, byte j.byteA, byte (slotCode j.byteB + place 3 1 (bitN (!j.req)))] else [byte (16 * slot + 5)]
    let r ← isoXchg (frameB a bytes 14)
    if r.outcome = .ok && decide (12 ≤ r.data.length) then
      return { uid := r.data.drop 1 |>.take 4, atqb := r.data, more := heard }
    else activateB j n (heard || r.outcome != .none)

/-- Frame sizes of the codes of ATS and ATQB (R252: above 256 is taken as 256), and the code of an FSD. -/
def frameSize (c : Nat) : Nat := match c with
  | 0 => 16 | 1 => 24 | 2 => 32 | 3 => 40 | 4 => 48 | 5 => 64 | 6 => 96 | 7 => 128 | _ => 256

def fsdCode (n : Nat) : Nat := ((List.range 9).find? fun c => decide (n ≤ frameSize c)).getD 8

/-- FWI in force: an absent or reserved one is 4 (R255). -/
def fwiOf (f : Option Nat) : Nat := match f with
  | some v => if v = 15 then 4 else v
  | none => 4

/-- SFGT of an SFGI from 1 to 14 (R255). -/
def sfgtOf (v : Nat) : Nat := if 1 ≤ v && v ≤ 14 then 4096 * 2 ^ v else 0

/-- The rates of a session: the highest that the card declares, within [2600:03] and [2600:04], the return rate as its last reply is heard
(R258). Sensitivity of the 14443 return rates above 106 kbit/s is that of STP at the same rate (R170). -/
def rateUse (a : Air) (m : Main) (declared rssi : Nat) : Nat × Nat :=
  let fwd (r : Nat) : Bool := (r == 0 || bitAt declared (r - 1)) && decide (r ≤ isoCfg a 0x03)
  let ret (r : Nat) : Bool := r == 0 || (bitAt declared (r + 3) && decide (r ≤ isoCfg a 0x04) && rateHeard m rssi r a.level)
  let best (f : Nat → Bool) : Nat := ([3, 2, 1].find? f).getD 0
  if bitAt declared 7 then let r := best fun r => fwd r && ret r; (r, r) else (best fwd, best ret)

/-- The rates, as the run keeps them. -/
def askRates (declared rssi : Nat) : AirM (Nat × Nat) := do
  let a ← get
  let v ← askDev fun m => let r := rateUse a m declared rssi; r.1 + 4 * r.2
  return (v % 4, v / 4)

/-- The interface bytes of an ATS: declared rates, FWI, SFGI, frame size (R252, R255). -/
def atsOf (ats : List Byte) : Nat × Option Nat × Nat × Nat :=
  let at_ (i : Nat) : Nat := (nth ats i 0).toNat
  if ats.length < 2 then (0, none, 0, 32)
  else
    let t0 := at_ 1
    let tb := at_ (2 + bitN (bitAt t0 4))
    (if bitAt t0 4 then at_ 2 else 0, if bitAt t0 5 then some (tb / 16) else none, if bitAt t0 5 then tb % 16 else 0, frameSize (t0 % 16))

/-- The session is open, with its rates, FWT and SFGT (R255, R258). -/
def openSession (j : Job) (uid : List Byte) (fsc : Nat) (l : Link4) : AirM Unit := do
  let k := (← get).core
  onDev fun m => modPort (count m 0x7090 0x01) j.port fun x =>
    { x with session := some { proto := j.kind, core := k, fsc := fsc, fwi := l.fwi, fwd := l.fwd, ret := l.ret, sfgt := l.sfgt, uid := uid } }

/-- The rates in force, as [2680+p:01] shows them (R258, R264). -/
def rateByte (j : Job) (r : Nat × Nat) : Nat := r.1 + place 2 2 r.2 + 0x10 + place 5 3 j.proto

/-- The body of ISO_ACTIVATE (R276); the entry [2680+p:01] takes the rates. -/
def activateBody (j : Job) (f : CardFound) (r : Nat × Nat) (layer4 : Bool) (payload : List Byte) : AirM Unit := do
  onDev fun m => modPort m j.port fun x => { x with isoCache := BitVec.ofNat 16 (rateByte j r) }
  onProg fun p =>
    { p with recs := [word (f.uid.length + place 8 8 f.sak + place 16 8 (rateByte j r) + place 24 1 (bitN f.more) + place 25 1 (bitN layer4))] ++
        packWords (padTo 12 f.uid) ++ [word payload.length] ++ packWords payload }

/-- RATS, with CID 0, and PPS (R252, R254, R258 step 3). -/
def layerFourA (j : Job) (f : CardFound) : AirM Unit := do
  let a ← get
  let rats : TxFrame :=
    { bytes := withCrcA [0xE0, byte (16 * fsdCode (isoCfg a 0x05))], proto := .typeA, mod := isoMod (isoCfg a) .typeA, check := .crcAParity,
      least := 1172 }
  let r ← isoXchg (timedFrame rats 1172 65536 (isoCfg a 0x06) (isoCfg a 0x07) 22)
  if r.outcome != .ok || r.data.isEmpty then stepThreeFail f true r
  let ats := atsOf r.data
  let sfgt := sfgtOf ats.2.2.1
  let want ← askRates ats.1 r.rssi
  let l : Link4 := { proto := .typeA, fwi := fwiOf ats.2.1, sfgt := sfgt }
  let l ← if want = (0, 0) then pure l
    else do
      let q ← xchg (frame4 (isoCfg (← get)) l 1 [0xD0, 0x11, byte (want.1 + 4 * want.2)] 0)
      if q.outcome = .ok && q.at_ 0 == 0xD0 then pure { l with fwd := want.1, ret := want.2, sfgt := 0 }
      else do
        onDev fun m => count m 0x7090 0x02
        pure { l with sfgt := 0 }
  openSession j f.uid ats.2.2.2 l
  activateBody j f (l.fwd, l.ret) true r.data

/-- ATTRIB, with the rates in its parameters (R258 step 3). -/
def layerFourB (j : Job) (f : CardFound) : AirM Unit := do
  let b (i : Nat) : Nat := (nth f.atqb i 0).toNat
  let want ← askRates (b 9) (← get).prog.lastRssi
  let a ← get
  let l : Link4 := { proto := .typeB, fwi := fwiOf (some (b 11 / 16)) }
  let r ← xchg (frame4 (isoCfg a) l 1 (0x1D :: f.uid ++ [0, byte (fsdCode (isoCfg a 0x05) + 16 * want.1 + 64 * want.2), 0x01, 0x00]) 0)
  if r.outcome != .ok then stepThreeFail f false r
  openSession j f.uid (frameSize (b 10 / 16)) { l with fwd := want.1, ret := want.2 }
  activateBody j f want true f.atqb

/-- ISO_ACTIVATE (R258). Layer 4 is what bit 5 of the SAK, or bit 0 of the ATQB's protocol type, says. -/
def runActivate (j : Job) : AirM Unit := do
  let f ← if j.proto = 1 then activateA j else activateB j j.byteB false
  if (if j.proto = 1 then bitAt f.sak 5 else bitAt (nth f.atqb 10 0).toNat 0) then
    if j.proto = 1 then layerFourA j f else layerFourB j f
  else activateBody j f (0, 0) false f.atqb

/-- The link of an open session (R254, R255). -/
def Session.link (s : Session) : Link4 := { proto := s.proto, fwd := s.fwd, ret := s.ret, fwi := s.fwi, sfgt := s.sfgt }

/-- The S(DESELECT) of a session (R259). -/
def deselectFrame (cfg : Nat → Nat) (l : Link4) : TxFrame := frame4 cfg l 1 [0xC2] 0

/-- A session is closed: S(DESELECT) once, its answer awaited, and the session is gone; where the window has closed over it, the field drop
closes it (R256, R259). -/
def closeSession (l : Link4) : AirM Unit := do
  let a ← get
  let r ← softly (xchg (deselectFrame (isoCfg a) l))
  if r.isSome then onDev fun m => modPort m a.port fun x => { x with session := none }

/-- An APDU under way (R256, R260): the link, the block number, the I-blocks still to go, the present one first (empty once the command is
through), retransmissions of the present block, the frame to send next (its bytes, the WTXM in force), whether response blocks are chained,
and the response so far. -/
structure Apdu where
  link  : Link4
  bn    : Bool
  parts : List (List Byte)
  send  : List Byte := []
  wtxm  : Nat := 1
  tries : Nat := 0
  inRx  : Bool := false
  resp  : List Byte := []
  deriving DecidableEq, Repr

/-- The I-block that is due. -/
def Apdu.iBlock (a : Apdu) : List Byte :=
  byte (0x02 + bitN a.bn + place 4 1 (bitN (1 < a.parts.length))) :: a.parts.headD []

/-- What a reply does to an APDU. -/
inductive BlockEnd where
  | next (a : Apdu)
  | done (a : Apdu)
  | wait (wtxm : Nat)
  | again
  | error
  deriving DecidableEq, Repr

/-- A block of the card, by the rules of ISO/IEC 14443-4 without CID and NAD (R252, R256): the last I-block of the command is answered by
an I-block, one before it by R(ACK); a chained response by R(ACK) of ours. -/
def takeBlock (a : Apdu) (r : Reply) : BlockEnd :=
  let pcb := r.at_ 0
  let bn := bitAt pcb 0
  if r.outcome != .ok || r.data.isEmpty then .error
  else if pcb &&& 0xEE = 0x02 then
    if decide (1 < a.parts.length) || bn != a.bn then .error
    else
      let b := { a with bn := !a.bn, parts := [], tries := 0, wtxm := 1, resp := a.resp ++ r.data.drop 1 }
      if bitAt pcb 4 then .next { b with inRx := true, send := [byte (0xA2 + bitN b.bn)] } else .done b
  else if pcb &&& 0xFE = 0xA2 then
    if a.inRx then .error
    else if bn != a.bn then .again
    else if 1 < a.parts.length then
      let b := { a with bn := !a.bn, parts := a.parts.drop 1, tries := 0, wtxm := 1 }
      .next { b with send := b.iBlock }
    else .error
  else if pcb = 0xF2 && decide (1 ≤ r.at_ 1 % 64) && decide (r.at_ 1 % 64 ≤ 59) then .wait (r.at_ 1 % 64)
  else .error

/-- What an ISO_APDU that ends short delivers (R277). -/
def respBody (resp : List Byte) : List Word := if resp.isEmpty then [] else word resp.length :: packWords resp

/-- A recovery frame of a session, or, when the retransmissions are used up, the end of the stitch and of its session (R256): a card that
chains its response is asked by R(ACK), any other by R(NAK), and the last I-block goes again where the card did not have it. -/
def retransmit (a : Apdu) (r : Reply) (send : List Byte) : AirM Apdu := do
  if (← cfgA 0x2600 0x08) ≤ a.tries then
    onProg fun p => { p with recs := respBody a.resp }
    closeSession a.link
    endWith (blockStatus r).1 (blockStatus r).2
  onDev fun m => count m 0x7090 0x05
  return { a with tries := a.tries + 1, wtxm := 1, send := send }

/-- The exchange of a block; `none` when the limit of the APDU has passed (R260). -/
def blockX (a : Apdu) : AirM (Option Reply) := do
  let f := frame4 (isoCfg (← get)) a.link a.wtxm a.send (3 + ((a.parts.drop 1).headD []).length)
  tryCatch (do return some (← xchg { f with tell := true })) fun s => match s with
    | .skipped => return none
    | s => throw s

/-- At its limit an APDU ends `TIMEOUT`, after S(DESELECT) (R260). -/
def limitApdu {α : Type} (a : Apdu) : AirM α := do
  onProg fun p => { p with recs := respBody a.resp }
  closeSession a.link
  endWith 4 0

/-- The blocks of an APDU until its response is whole (R256, R260). The wait that the ATS asked for is over with the first of them. -/
def runBlocks : Nat → Apdu → AirM Apdu
  | 0, a => limitApdu a
  | n + 1, a => do
    match ← blockX a with
    | none => limitApdu a
    | some r =>
      let a := { a with link := { a.link with sfgt := 0 } }
      let p := (← get).port
      onDev fun m => modPort m p fun x => { x with session := x.session.map fun s => { s with sfgt := 0 } }
      match takeBlock a r with
      | .done b => return b
      | .next b => runBlocks n b
      | .wait w =>
        onDev fun m => count m 0x7090 0x04
        runBlocks n { a with tries := 0, wtxm := w, send := [0xF2, byte w] }
      | .again => runBlocks n (← retransmit a r a.iBlock)
      | .error => runBlocks n (← retransmit a r [byte ((if a.inRx then 0xA2 else 0xB2) + bitN a.bn)])

/-- Bytes of response that a result packet can carry within the quota of its queue (R260). -/
def respRoom (m : Main) (j : Job) : Nat :=
  let q := (resultOut m j []).1
  4 * (8 * (m.pool.qs[q]).cmax - 6 - bitN (q == 23))

/-- An APDU cut into I-blocks of at most `per` bytes. -/
def chunks (per : Nat) : Nat → List Byte → List (List Byte)
  | 0, _ => []
  | n + 1, bs => if bs.length ≤ per || per = 0 then [bs] else bs.take per :: chunks per n (bs.drop per)

/-- ISO_APDU (R260). -/
def runApdu (j : Job) : AirM Unit := do
  match ((← get).m.ports[j.port]).session with
  | none => endWith 1 0
  | some s =>
    let apdu := (wordsBytes j.payload).take (field j.w3.toNat 0 16)
    let b : Apdu := { link := s.link, bn := s.blockNo, parts := chunks (s.fsc - 3) (apdu.length + 1) apdu }
    let a ← runBlocks ((← get).log.length + 2) { b with send := b.iBlock }
    let room ← askDev fun m => respRoom m j
    onProg fun p => { p with recs := word a.resp.length :: packWords (a.resp.take room) }
    if j.close then closeSession a.link
    onDev fun m => modPort (count m 0x7090 0x03) j.port fun x => { x with session := x.session.map fun s => { s with blockNo := a.bn } }
    if room < a.resp.length then endWith 6 0x12

/-- A 15693 frame on the link of [2600:11]–[2600:13] (R254, R261): `bytes` with its CRC, or an EOF. -/
def frameV (a : Air) (bytes : List Byte) (last reply : Nat) : TxFrame :=
  timedFrame { bytes := if bytes.isEmpty then [] else withCrcB bytes, proto := .vicinity, fwd := isoCfg a 0x13, dual := isoCfg a 0x12 == 1,
               high := isoCfg a 0x11 == 1, mod := isoMod (isoCfg a) .vicinity, check := .v15693, least := 4192 }
    4320 last (isoCfg a 0x06) (isoCfg a 0x06) reply

/-- The exchange of a 15693 command with option flag 0 that is no write (R254, row 5). -/
def vX (bytes : List Byte) (reply : Nat) : AirM Reply := do
  let a ← get
  xchg (frameV a bytes 4384 reply)

/-- The flags byte of a request: subcarriers, data rate, and what the kind of request adds. -/
def vFlags (a : Air) (more : Nat) : Byte := byte (bitN (isoCfg a 0x12 == 1) + place 1 1 (isoCfg a 0x11) + more)

/-- A request to one card: flags, code, its UID unless it has been selected, or none is given, and parameters (R251, R261). -/
def vRequest (a : Air) (j : Job) (sel opt : Bool) (code : Nat) (params : List Byte) : List Byte :=
  let addressed := !sel && j.uid != 0
  let flags := vFlags a (place 4 1 (bitN sel) + place 5 1 (bitN addressed) + place 6 1 (bitN opt))
  flags :: byte code :: (if addressed then leBytes 8 j.uid else []) ++ params

/-- The status of a 15693 exchange that is no answer without error: its status, `DETAIL` and the card's error code (R261, R275). -/
def vStatus (none : Nat) (r : Reply) : Option (Nat × Nat × Nat) :=
  if r.outcome = .ok then (if bitAt (r.at_ 0) 0 then some (6, 0x10, r.at_ 1) else Option.none)
  else let s := outcomeStatus none r.outcome; some (s.1, s.2, 0)

/-- A 16-slot or 1-slot inventory still to be run: slots, mask length and mask (R261). -/
structure Inventory where
  slots : Nat
  len   : Nat
  mask  : Nat
  deriving DecidableEq, Repr

/-- What the rounds of an inventory left open: rounds to come, and the outcome of the last slot that failed its check. -/
structure InvLeft where
  todo : List Inventory := []
  bad  : Option Reply := none
  stuck : Bool := false
  deriving DecidableEq, Repr

/-- The slots of one inventory round, from slot `i` on (R261). A collided slot brings a round with the mask lengthened by the
slot's nibble; from a round of one slot, a 16-slot round of the same mask (log 22). The first slot answers the request, an EOF opens each other. -/
def invSlots (j : Job) (v : Inventory) : Nat → Nat → InvLeft → AirM InvLeft
  | 0, _, l => return l
  | n + 1, i, l => do
    let a ← get
    let afi := bitAt j.byteB 0
    let start := vFlags a (0x04 + place 4 1 (bitN afi) + place 5 1 (bitN (v.slots == 1))) :: 0x01 ::
      (if afi then [byte j.byteA] else []) ++ byte v.len :: leBytes ((v.len + 7) / 8) v.mask
    let r ← vX (if i = 0 then start else []) 12
    if r.outcome = .collision then
      onDev fun m => count m 0x7090 0x09
      let more : List Inventory :=
        if v.slots = 1 then [⟨16, v.len, v.mask⟩] else if v.len + 4 ≤ 60 then [⟨16, v.len + 4, v.mask + i * 2 ^ v.len⟩] else []
      invSlots j v n (i + 1) { l with todo := l.todo ++ more, stuck := l.stuck || more.isEmpty }
    else if r.outcome = .ok && decide (10 ≤ r.data.length) && !bitAt (r.at_ 0) 0 then
      let uid := leNat (r.data.drop 2 |>.take 8)
      onProg fun p => { p with fobs := p.fobs ++ [[word uid, word (uid / 2 ^ 32), word (r.at_ 1)]] }
      invSlots j v n (i + 1) l
    else if r.outcome = .none then invSlots j v n (i + 1) l
    else invSlots j v n (i + 1) { l with bad := some r }

/-- Inventory rounds, at most [2500:02] in all (R261). -/
def invRounds (j : Job) : Nat → InvLeft → AirM InvLeft
  | 0, l => return l
  | n + 1, l =>
    match l.todo with
    | [] => return l
    | v :: rest => do
      onDev fun m => count m 0x7090 0x08
      invRounds j n (← invSlots j v v.slots 0 { l with todo := rest })

/-- V_INVENTORY (R261). -/
def runInventory (j : Job) : AirM Unit := do
  let one := field j.byteB 1 2 == 2 || (field j.byteB 1 2 == 0 && (← cfgA 0x2600 0x15) == 1)
  let len := field j.w3.toNat 0 6
  let mask := (j.w4.toNat + j.w5.toNat * 2 ^ 32) % 2 ^ len
  onProg fun p => { p with fobs := [] }
  let l ← invRounds j (← cfgA 0x2500 0x02) { todo := [⟨if one then 1 else 16, len, mask⟩] }
  onProg fun p => { p with recs := if p.fobs.isEmpty then [] else word p.fobs.length :: p.fobs.flatten }
  if !l.todo.isEmpty || l.stuck then endWith 2 0
  match l.bad with
  | some r => endWith 3 (outcomeCode r.outcome)
  | none => onProg fun p => { p with recs := word p.fobs.length :: p.fobs.flatten }

/-- Select mode: the stitch's own Select comes first (R261). A card that is silent here is `NO_TAG`. -/
def vSelect (j : Job) : AirM Bool := do
  if bitAt j.w5.toNat 0 then
    let a ← get
    let r ← vX (vFlags a 0x20 :: 0x25 :: leBytes 8 j.uid) 3
    match vStatus 1 r with
    | none => return true
    | some s => endWith s.1 s.2.1
  return false

/-- The first word of V_READ's body, and its blocks (R276). -/
def vReadBody (size count err : Nat) (bs : List Byte) : List Word := word (size + place 8 8 count + place 16 8 err) :: packWords bs

/-- The blocks of a V_READ, one Read single block each (R261; log 22). `bs` holds the blocks delivered. -/
def vReadBlocks (j : Job) (sel : Bool) (first : Bool) : Nat → Nat → Nat → List Byte → AirM Unit
  | 0, _, _, _ => return ()
  | n + 1, size, done, bs => do
    let a ← get
    let r ← vX (vRequest a j sel (bitAt j.w5.toNat 1) 0x20 [byte (j.byteA + done)]) 7
    match vStatus (if first && done == 0 then 1 else 4) r with
    | none =>
      let b := r.data.drop (1 + bitN (bitAt j.w5.toNat 1))
      let size := if done = 0 then b.length else size
      let bs := bs ++ padTo size b
      onProg fun p => { p with recs := vReadBody size (done + 1) 0 bs }
      vReadBlocks j sel first n size (done + 1) bs
    | some s =>
      onProg fun p => { p with recs := if done = 0 && s.2.2 == 0 then [] else vReadBody size done s.2.2 bs }
      endWith s.1 s.2.1

/-- The blocks that a paused V_READ has delivered: block size, number and bytes. -/
def vReadDone (ws : List Word) : Nat × Nat × List Byte :=
  let w := (nth ws 0 0).toNat
  (field w 0 8, field w 8 8, (wordsBytes (ws.drop 1)).take (field w 0 8 * field w 8 8))

/-- V_READ (R261, R290). -/
def runVRead (j : Job) : AirM Unit := do
  let d := vReadDone (← get).prog.recs
  let sel ← vSelect j
  vReadBlocks j sel (!sel) (j.byteB - d.2.1) d.1 d.2.1 d.2.2

/-- One block of a V_WRITE's body (R276). -/
def vWriteWord (block status err : Nat) : Word := word (place 0 8 block + place 8 8 status + place 16 8 err)

/-- Whether Get system information declares Write multiple blocks: the command list that its information flags announce (log 22). -/
def writesMultiple (r : Reply) : Bool :=
  let f := r.at_ 1
  let at_ := 10 + bitN (bitAt f 0) + bitN (bitAt f 1) + 2 * bitN (bitAt f 2) + bitN (bitAt f 3)
  r.outcome == .ok && !bitAt (r.at_ 0) 0 && bitAt f 5 && bitAt (r.at_ at_) 4

/-- The blocks of a write read back one by one after a lost reply (R242, R261): `none` when a read fails, with its block; else
whether all hold the new contents. -/
def vReadBack (j : Job) (sel : Bool) (size : Nat) : Nat → Nat → List Byte → AirM (Except Nat Bool)
  | 0, _, _ => return .ok true
  | n + 1, block, data => do
    let a ← get
    let r := (← softly (vX (vRequest a j sel false 0x20 [byte block]) 7)).getD { outcome := .none }
    if (vStatus 4 r).isSome then return .error block
    if r.data.drop (r.data.length - size) = data.take size then vReadBack j sel size n (block + 1) (data.drop size) else return .ok false

/-- The exchange of a write: with option flag 0 the card answers within [2600:14]; with option flag 1 it answers the EOF that is sent then
(R254, rows 6 and 7). -/
def vWriteX (j : Job) (sel : Bool) (size block : Nat) (data : List Byte) : AirM Reply := do
  let a ← get
  let wait := isoCfg a 0x14
  let params := if data.length ≤ size then byte block :: data else byte block :: byte (data.length / max 1 size - 1) :: data
  let bytes := vRequest a j sel (bitAt j.w5.toNat 1) (if data.length ≤ size then 0x21 else 0x24) params
  if bitAt j.w5.toNat 1 then
    let eof := { frameV a [] 4384 3 with least := wait }
    let f := mute (frameV a bytes 4384 3)
    let _ ← xchg { f with span := f.span + wait + eof.span }
    return (← softly (xchg eof)).getD { outcome := .none }
  else xchg (frameV a bytes wait 3)

/-- One write command and its resolution, in all `tries` attempts: status, `DETAIL` and error code (R242, R261). -/
def vWriteCmd (j : Job) (sel : Bool) (size count block : Nat) (data : List Byte) : Nat → Nat × Nat → AirM (Nat × Nat × Nat)
  | 0, last => return (last.1, last.2, 0)
  | n + 1, _ => do
    let r ← vWriteX j sel size block data
    if r.outcome = .ok then
      match vStatus 4 r with
      | none => return (0, 0, 0)
      | some s => return s
    else
      match ← vReadBack j sel size count block data with
      | .error b => return (0x0D, b, 0)
      | .ok true => return (0, 0, 0)
      | .ok false => vWriteCmd j sel size count block data n (outcomeStatus 4 r.outcome)

/-- The writes of a V_WRITE in groups of `per` blocks (R261, R277). -/
def vWriteGroups (j : Job) (sel : Bool) (size per : Nat) (bs : List Byte) : Nat → Nat → AirM Unit
  | 0, _ => return ()
  | fuel + 1, done => do
    if j.byteB ≤ done then return ()
    let n := min per (j.byteB - done)
    let data := (bs.drop (done * size)).take (n * size)
    let w ← vWriteCmd j sel size n (j.byteA + done) data (← cfgA 0x2500 0x05) (4, 0)
    onProg fun p => { p with writes := p.writes ++ (List.range n).map fun i => vWriteWord (j.byteA + done + i) w.1 w.2.2 }
    if w.1 != 0 then endWith w.1 w.2.1
    vWriteGroups j sel size per bs fuel (done + n)

/-- V_WRITE (R261, R290). Get system information is asked for when there is more than one block to write; a group holds the blocks
that a forward frame of 288 bytes can carry (log 22). -/
def runVWrite (j : Job) : AirM Unit := do
  let size := field j.w6.toNat 0 6
  let sel ← vSelect j
  let multi ← if 1 < j.byteB then do
      let a ← get
      let r ← vX (vRequest a j sel false 0x2B []) 17
      pure (writesMultiple r)
    else pure false
  let per := if multi then max 1 (min 32 (274 / max 1 size)) else 1
  vWriteGroups j sel size per (wordsBytes j.payload) j.byteB (← get).prog.writes.length

end Sys2Proof.Machine
end

