-- ==== Sys2Proof/Machine/Iso.lean ====
section
/-!
DEFINITION. Machine/Iso.lean: the meanings of the ISO/IEC 14443 and 15693 stitches and of RAW, of the limits and losses of a stitch of any
opcode, and of the ends of a session (chapters 10 and 11).
-/

namespace Sys2Proof.Machine

/-- STITCH_ISO_ACTIVATE. -/
def execStitchIsoActivate (e : Fin 24) (c : Fin 2) (parityBad : Bool) (s : State) : Out := stitchCmd e c parityBad 7 runActivate s

/-- STITCH_ISO_APDU. -/
def execStitchIsoApdu (e : Fin 24) (c : Fin 2) (parityBad : Bool) (s : State) : Out := stitchCmd e c parityBad 8 runApdu s

/-- STITCH_V_INVENTORY. -/
def execStitchVInventory (e : Fin 24) (c : Fin 2) (parityBad : Bool) (s : State) : Out := stitchCmd e c parityBad 9 runInventory s

/-- STITCH_V_READ. -/
def execStitchVRead (e : Fin 24) (c : Fin 2) (parityBad : Bool) (s : State) : Out := stitchCmd e c parityBad 10 runVRead s

/-- STITCH_V_WRITE. -/
def execStitchVWrite (e : Fin 24) (c : Fin 2) (parityBad : Bool) (s : State) : Out := stitchCmd e c parityBad 11 runVWrite s

/-- The bytes of a RAW frame, with the check of its protocol where that is asked for (R262; log 20 for STP). -/
def rawBytes (j : Job) : List Byte :=
  let bs := (wordsBytes j.payload).take (field j.w3.toNat 0 9)
  if !j.appendCrc then bs
  else match j.kind with
    | .stp => bs ++ stpCrc bs
    | .typeA => withCrcA bs
    | _ => withCrcB bs

/-- The frame of a RAW stitch (R262): on the link of an open session, in its timing; else at the rate in force on the port, in the window of
words 4 and 5, or that of R154 and of the first rows of R254. -/
def rawFrame (a : Air) (j : Job) (session : Option Link4) : TxFrame :=
  let bits := field j.w3.toNat 9 3
  let bs := rawBytes j
  let cfg := isoCfg a
  match session with
  | some l => { frame4 cfg l 1 [] 0 with bytes := bs, bits := bits, check := .none }
  | none =>
    let base : TxFrame :=
      match j.kind with
      | .stp =>
        timedFrame { bytes := bs, bits := bits, sub8 := a.sub8, ret := a.prog.rate, check := .none } 543 651 (cfgN a.m 0x2400 0x06)
          (cfgN a.m 0x2400 0x06) 0
      | .typeA => { frameA a bs bits (bits != 0) .none 0 with check := .none }
      | .typeB => { frameB a [] 0 with bytes := bs, bits := bits, check := .none }
      | .vicinity => { frameV a [] 4384 0 with bytes := bs, bits := bits, check := .none }
    let w := base.win.getD (543, 651, 543, 651)
    let open_ := if j.w4.toNat = 0 then w.1 else j.w4.toNat
    let close := if j.w5.toNat = 0 then w.2.1 else j.w5.toNat
    { base with win := some (open_, close, w.2.2), span := frameFc base + close }

/-- RAW (R262): the status words and the reply, whatever its content. Frames of protocols 1–3 are counted. -/
def runRaw (j : Job) : AirM Unit := do
  if j.kind = .stp then beginStp
  let a ← get
  let s := if j.kind = .stp then none else (a.m.ports[j.port]).session
  let open_ ← askDev fun m => bitN (j.kind != .stp && (m.ports[j.port]).session.isSome)
  let r ← xchg (rawFrame a j (s.map Session.link))
  onDev fun m => countIf (j.proto != 0) m 0x7090 0x0A
  let w := statusWords r
  onProg fun p => { p with recs := [w.1, w.2] ++ packWords r.data }
  if r.outcome != .ok then endBy (if open_ = 1 then 4 else 1) r

/-- STITCH_RAW. -/
def execStitchRaw (e : Fin 24) (c : Fin 2) (parityBad : Bool) (s : State) : Out := stitchCmd e c parityBad 13 runRaw s

/-- What a stitch runs, by its opcode; a PROBE sends no frame. -/
def progOf (j : Job) : AirM Unit :=
  match j.opcode with
  | 0 => runSeek j
  | 3 => runWrite j
  | 4 => runQuiet j
  | 5 => runRelease j
  | 6 => runAuth j
  | 7 => runActivate j
  | 8 => runApdu j
  | 9 => runInventory j
  | 10 => runVRead j
  | 11 => runVWrite j
  | 13 => runRaw j
  | _ => runRead j

/-- A stitch that has been told of a frame not sent goes on without it (R242, R281 step 7). -/
def withoutFrame (m : Main) (keys : Vector (Option (BitVec 128)) 8) (e : Fin 24) (c : Fin 2) : Main :=
  let x := ctxOf m e c
  match x.job, x.core with
  | some j, some k =>
    let t : Turn := { owner := .ctx e c, core := k, port := j.port, limit := x.limit, apdu := j.opcode == 8, keys := keys }
    afterTurn e c k (turn t (progOf j) 3 (modCtx m e c fun x => { x with lost := false, told := false }) x.sc [.lost])
  | _, _ => m

/-- A handle has been lost on the field: 1700/fc after the fob's last reply the context goes on by re-acquisition (R267, R283). -/
def handleLost (m : Main) (keys : Vector (Option (BitVec 128)) 8) (e : Fin 24) (c : Fin 2) : Main :=
  let x := ctxOf m e c
  if x.st != .run || !x.lost then m
  else if x.told then withoutFrame m keys e c
  else serve (modCtx m e c fun x => { x with lost := false, sc := x.sc.restart }) keys e c false progOf

/-- HANDLE_LOST_REACQUIRE. -/
def execHandleLostReacquire (e : Fin 24) (c : Fin 2) (s : State) : Out := .next { s with m := handleLost s.m s.keys.fobKeys e c }

/-- [3100:04] has passed since the start (R267): a stitch in PAUSE, or one that waits for its field or for a lost handle, ends `TIMEOUT` at
once; one in an exchange when that has ended. ISO_APDU is limited by [2600:09] instead (R290). -/
def runLimit (m : Main) (keys : Vector (Option (BitVec 128)) 8) (e : Fin 24) (c : Fin 2) : Main :=
  let x := ctxOf m e c
  if (x.job.map (·.opcode)) = some 8 then m
  else if x.st == .pause then finishStitch m e c 4 0
  else if x.st == .run then
    let m := modCtx m e c fun x => { x with limit := true }
    if x.lost then (if x.told then withoutFrame m keys e c else finishStitch m e c 4 0)
    else if x.sc.inbox.isSome then m
    else if x.sc.live then serve m keys e c false progOf
    else finishStitch m e c 4 0
  else m

/-- RUN_LIMIT_EXPIRY. -/
def execRunLimitExpiry (e : Fin 24) (c : Fin 2) (s : State) : Out := .next { s with m := runLimit s.m s.keys.fobKeys e c }

/-- [2600:0A] has passed after the last exchange of an open session with no stitch on it: S(DESELECT) goes out, and with its answer the
session is closed (R259). -/
def isoIdle (m : Main) (p : Fin 128) : Main :=
  match (m.ports[p]).session with
  | some s =>
    if ((m.cores[s.core]).fld.map fun f => f.idle && f.port == p) = some true && !s.closing then
      let m := modPort (count m 0x7090 0x06) p fun x => { x with session := some { s with closing := true } }
      handFrame m s.core (deselectFrame (cfgN m 0x2600) s.link)
    else m
  | none => m

/-- ISO_IDLE_EXPIRY. -/
def execIsoIdleExpiry (port : Fin 128) (s : State) : Out := onMain (fun m => isoIdle m port) s

/-- [2600:09] has passed in an ISO_APDU: the exchange in progress ends, S(DESELECT) is sent, the session is closed and the stitch
returns `TIMEOUT` (R260). -/
def apduLimit (m : Main) (keys : Vector (Option (BitVec 128)) 8) (e : Fin 24) (c : Fin 2) : Main :=
  let x := ctxOf m e c
  if x.st == .run && (x.job.map (·.opcode)) = some 8 then
    let m := modCtx m e c fun x => { x with limit := true }
    if x.sc.inbox.isSome then m else serve m keys e c false progOf
  else m

/-- APDU_LIMIT_EXPIRY. -/
def execApduLimitExpiry (e : Fin 24) (c : Fin 2) (s : State) : Out := .next { s with m := apduLimit s.m s.keys.fobKeys e c }

end Sys2Proof.Machine
end

