-- ==== Sys2Proof/Machine/WatchOps.lean ====
section
/-!
DEFINITION. Machine/WatchOps.lean: the watch sequencer: what it takes along on entry to WATCH (R312), the deviations (R314, R316),
the baselines (R315–R317), and the watch record (R319).
-/

namespace Sys2Proof.Machine

/-- 10^(1/160) and 10^(1/200), in fixed point. -/
def ten160 : Nat := 1014495208068736109
def ten200 : Nat := 1011579454259898524

/-- Whether 20 log₁₀(z / b) is `n` / 10 dB or more. -/
def ratioAtLeast (z b : Nat) (n : Int) : Bool := decide (b * tenTo ten200 200 n ≤ z * fx)

/-- Whether a probe exceeds its baseline (R316); `b` is the baseline, `z` the probe, × 65 536. -/
def probeExceeds (m : Main) (bm : Nat) (ba : Int) (zm : Nat) (za : Int) : Bool :=
  let t := cfgN m 0x3210 0x04
  ratioAtLeast zm bm t || ratioAtLeast bm zm t || decide (65536 * cfgN m 0x3210 0x05 ≤ (za - ba).natAbs)

/-- Δm in 0.25 dB to the nearest, limited to ±127 (R319). -/
def deltaMag (z b : Nat) : Int :=
  (List.range 254).foldl (fun acc i => if decide (b * tenTo ten160 160 (2 * (i : Int) - 253) ≤ z * fx) then acc + 1 else acc) (-127 : Int)

/-- Δφ in 0.5° to the nearest, limited to ±127 (R319). -/
def deltaPhase (z b : Int) : Int := clampI (-127) 127 (roundDiv (z - b) (5 * 65536))

/-- n square roots of a ratio in fixed point. -/
def rootFx : Nat → Nat → Nat
  | 0, r => r
  | n + 1, r => rootFx n (isqrt (r * fx))

/-- The baseline follows the probe: |Z| in dB and arg Z by 1/2^[3210:07] of their distance (R317). -/
def adaptBase (m : Main) (w : WatchPort) (zm : Nat) (za : Int) : WatchPort :=
  let n := cfgN m 0x3210 0x07
  if n = 0 then w
  else { w with baseMag := w.baseMag * rootFx n (zm * fx / max 1 w.baseMag) / fx, baseArg := w.baseArg + (za - w.baseArg) / 2 ^ n }

/-- Mean of a list of probes, × 65 536. -/
def meanProbe (l : List (Nat × Int)) : Nat × Int :=
  (65536 * sumN (l.map (·.1)) / max 1 l.length, 65536 * sumI (l.map (·.2)) / (max 1 l.length : Nat))

/-- The core that probes a port (R312). -/
def watchCore (m : Main) (p : Fin 128) : Option (Fin 16) := (servingCores m p).head?

/-- The steps that are split: a core probes both as home and as alternate core (R312). -/
def watchSplits (m : Main) (ps : List (Fin 128)) : List Bool :=
  (List.range 8).map fun i =>
    let step := ps.filter fun p => p.val % 8 = i
    (allFin 16).any fun k =>
      (step.any fun p => watchCore m p == some k && homeCore p == k) && (step.any fun p => watchCore m p == some k && homeCore p != k)

/-- The watch sequencer on entry to WATCH (R312). -/
def watchStart (m : Main) : Watch :=
  let ps := (allFin 128).filter fun p => bitAt (cfgN m 0x3210 0x01) p.val && (m.ports[p]).state == 0 && (watchCore m p).isSome
  { active := true, entered := m.now, ports := ps.map fun p => { port := p }, splits := watchSplits m ps,
    planCopy := ((allFin 64).map (activeWin m)).filter fun w => w.enabled && bitAt w.classes 2,
    tuneCopy := m.ports.toList.map fun x => (x.tuneHome, x.tuneAlt) }

/-- The words of a watch record (R319). -/
def watchRecord (w : Watch) : List Word :=
  let ls := sortBy (fun a b => decide (a.port ≤ b.port)) w.latched
  let faulted := (ls.filter (·.fault)).length
  [word w.sweeps,
   word (place 0 8 (ls.length - faulted) + place 8 8 faulted + place 16 1 (bitN w.noVtx) + place 17 1 (bitN w.late) + place 18 1 (bitN w.woke)),
   word w.firstTick] ++
  ls.map fun l => word (place 0 7 l.port.val + place 7 1 (bitN l.fault) + place 8 8 (signedField 8 l.dMag) + place 16 8 (signedField 8 l.dPhase))

/-- A port is latched once until the next wake; the first detection is timed by the sleep clock (R318, R319). -/
def latchPort (m : Main) (l : Latched) : Main :=
  let w := m.wt
  if w.latched.any fun x => x.port == l.port then m
  else
    let first := !l.fault && !(w.latched.any fun x => !x.fault)
    { m with wt := { w with latched := w.latched ++ [l],
                            firstTick := if first then (m.now - w.entered) * 32768 / tickS % 2 ^ 32 else w.firstTick } }

/-- A sweep without VTX drives no probe: it is counted, and told in the next record (R48, R318). A sweep that VTX leaves ends so. -/
def sweepDark (m : Main) : Main :=
  let clear (w : WatchPort) : WatchPort := { w with probe := none, conf := [], exceeds := false }
  let m := count m 0x70B0 0x0C
  { m with wt := { m.wt with noVtx := true, sweeping := false, repeats := 0, sweeps := sat32 (m.wt.sweeps + 1), ports := m.wt.ports.map clear } }

end Sys2Proof.Machine
end

