-- ==== Sys2Proof/Machine/ModeOps.lean ====
section
/-!
DEFINITION. Machine/ModeOps.lean: requests for a mode (R34–R37), the transitions and what they carry forward or abandon (R38–R41), the
power-down of the islands (R28, R29), and the start of a boot (R38, R44).
-/

namespace Sys2Proof.Machine

/-- A refused request for a mode is counted and journalled (R36). -/
def modeRefusal (m : Main) (code : Nat) : Main :=
  journal (modPw m fun p => { p with modeRefused := sat32 (p.modeRefused + 1) }) 0x38 0x1002 [code]

/-- A request for mode `code` (0–7): whether it is accepted (R36, R37). `trig` is the trigger that the journal will show. -/
def requestMode (m : Main) (code trig : Nat) : Bool × Main :=
  let dst := Mode.ofCode code
  if code = 5 || code = 6 || m.pw.mode == .hold || busy m || (code ≤ 1 && (m.pw.sleepLost || m.pw.mode == .emulate)) then
    (false, modeRefusal m code)
  else
    let m := modPw m fun p => { p with lastReq := code }
    if dst = m.pw.mode then (true, m)
    else if dst = .hold then
      (true, if m.pw.ctlDown then modPw m fun p => { p with pendMode := some .hold, pendTrig := trig } else enterHold m 1 [])
    else if m.pw.mode == .emulate then (true, modPw m fun p => { p with returnMode := dst })
    else (true, modPw m fun p => { p with pendMode := some dst, pendTrig := trig })

/-- Open packets are flushed; their producers lose their power and never close them (R343, R345). -/
def flushOpen (m : Main) : Main :=
  forEach (allFin 32) m fun m q =>
    let opens := (m.pool.qs[q]).pkts.filter fun p => p.opened
    let m := { m with pool := { m.pool with returning := m.pool.returning + (opens.map Packet.cells).sum } }
    modQ m q fun x => { x with pkts := x.pkts.filter (fun p => !p.opened), sinks := [], detached := 0 }

/-- What a port keeps without power: its fault state, and through WATCH its survey record and baseline (R305, R322). The results of
burnish come back with the next boot (R189). -/
def Port.unpowered (x : Port) (keep : Bool) : Port :=
  let y : Port := { state := if x.state = 5 || x.state = 1 then 0 else x.state, faulted := x.faulted, retestDue := x.state = 2 || x.state = 3 }
  if keep then
    { y with lastUid := x.lastUid, svStatus := x.svStatus, svFobs := x.svFobs, svMisses := x.svMisses, seekSeen := x.seekSeen, baseMag := x.baseMag, baseArg := x.baseArg,
             tuneHome := x.tuneHome, tuneAlt := x.tuneAlt }
  else y

/-- What a core or an engine keeps without power: its service state (log 23). -/
def Core.unpowered (c : Core) : Core :=
  { state := if c.state = 5 then 0 else c.state, faultCause := c.faultCause, faults := c.faults, holdoffDone := c.holdoffDone }

def Engine.unpowered (g : Engine) : Engine :=
  { state := if g.state = 5 then 0 else g.state, cause := g.cause, faults := g.faults, holdoffDone := g.holdoffDone }

/-- The islands of a mode without `CTL` are switched off (R28, R29). `keep`: WATCH, where `POOL` is retained, the radio listens and
the watch sequencer runs. -/
def powerDown (m : Main) (keep : Bool) : Main :=
  let base : Main :=
    { now := m.now, freeCtr := m.freeCtr, tgt := m.tgt, cfg := m.cfg,
      pw := { m.pw with ctlOn := false, rdy := false, fwRunning := false, booting := false, pendMode := none, lastReq := 0, ctlDown := false,
                        ctlState := 0, derating := false, badWindows := 0, onBackup := false, refOk := false, canArmed := false,
                        bootStage := 1 },
      ph := { ao := if m.pw.fwRunning then aoTakes m else m.ph.ao, level := m.ph.level, encA := m.ph.encA, encB := m.ph.encB },
      cores := m.cores.map Core.unpowered, ports := m.ports.map fun x => x.unpowered keep, engs := m.engs.map Engine.unpowered,
      brn := { flash := m.brn.flash }, lace := { device := m.lace.device, numbered := m.lace.numbered },
      gpio := m.gpio.map fun g => { input := g.input }, rad := { unit := m.rad.unit } }
  if keep then
    { base with pool := (flushOpen m).pool, wt := watchStart m, pts := m.pts,
                rad := { m.rad with demods := Vector.replicate 8 {}, quals := [], gates := [] },
                sv := { count := m.sv.count, lastUs := m.sv.lastUs },
                flt := { ctr := m.flt.ctr, jseq := m.flt.jseq } }
  else { base with sv := { count := m.sv.count, lastUs := m.sv.lastUs } }

/-- Deque entries return `ABORTED` on entry to WATCH (R41, R267). -/
def abortDeques (m : Main) : Main :=
  forEach (allFin 24) m fun m e =>
    let l := (m.engs[e]).deque
    forEach l (modEng m e fun g => { g with deque := [] }) fun m j => dispResult m j 31 0 none 0x0A 6

/-- WATCH or DORMANT is entered (R39–R41). -/
def enterLow (m : Main) (dst : Mode) (trig : Nat) : Main :=
  let m := allFieldsOff m
  let m := abortDeques (abortWaiting m 6)
  let m := if dst == .watch then cutPass m else m
  let m := discardBurnish (abandonFull m)
  let m := setMode m dst trig
  powerDown m (dst == .watch)

/-- Fields that idle sessions hold go off with a change of mode (R259). -/
def endIdle (m : Main) : Main :=
  forEach (allFin 16) m fun m k =>
    match (m.cores[k]).fld with
    | some f => if f.idle then dropSession (orderOff m k) f.port else m
    | none => m

/-- A main mode is entered from a main mode (R38, R41, R42). -/
def enterMain (m : Main) (dst : Mode) (trig : Nat) : Main :=
  let frm := m.pw.mode
  let m := if frm == .survey then cutPass m else m
  let m := if frm == .calibrate then abandonFull m else m
  let m := if dst == .transact || dst == .emulate then discardBurnish m else endIdle m
  let m := setMode m dst trig
  let m := if dst == .emulate then modPw m fun p => { p with returnMode := if frm == .emulate then p.returnMode else frm } else m
  let m := if dst == .survey then modSv m fun v => { v with sinceEntry := 0, stopped := false } else m
  let m := if dst == .calibrate then startFull m else m
  evaluate m

/-- Whether a pending transition may take effect (R39–R41): visits have ended, and, for a mode without stitches, the started ones;
before WATCH and DORMANT a transmission in progress has completed (log 41). -/
def transitionReady (m : Main) (dst : Mode) : Bool :=
  !m.pw.ctlDown && !m.pw.booting && !((allFin 16).any fun k => ((m.cores[k]).fld.map fun f => f.owner == .lane k) == some true) &&
  (dst == .transact || dst == .emulate || dst == .hold || !startedLeft m) && !((dst == .watch || dst == .dormant) && m.rad.tx.active)

/-- A pending transition takes effect at a slot boundary (R39). One into WATCH or DORMANT is refused when the sleep clock has been lost since
it was accepted (R26; log 41). -/
def completeTransition (m : Main) : Main :=
  match m.pw.pendMode with
  | none => m
  | some dst =>
    if !transitionReady m dst || !m.pw.mode.isMain then m
    else if m.pw.sleepLost && (dst = .watch || dst = .dormant) then modeRefusal (modPw m fun p => { p with pendMode := none }) dst.code
    else if dst = .hold then enterHold (modPw m fun p => { p with pendMode := none }) 1 []
    else if dst.isMain then enterMain m dst m.pw.pendTrig
    else enterLow m dst m.pw.pendTrig

/-- A boot begins (R38, R61): `kind` 0 after a cold start, 1 after a main-domain reset, 2 after a wake. -/
def beginBoot (m : Main) (target : Mode) (trig kind : Nat) : Main :=
  modPw m fun p =>
    { p with booting := true, bootStage := 2, bootTarget := target, bootTrig := trig, bootKind := kind, bootAt := m.now, img := none,
             bootFailures := [], loaded := 0, refOk := false, bootFromWatch := p.mode == .watch }

/-- An enabled wake source other than the target field acts in DORMANT or WATCH; during a boot it is recorded only (R44, R45). Without
the main supply nothing wakes and no cause is recorded (log 40). -/
def wake (m : Main) (src : Nat) : Main :=
  if !(m.pw.mode == .dormant || m.pw.mode == .watch) || !m.pw.aoUp || !m.pw.mainPresent || !bitAt (cfgN m 0x1100 0x07) src then m
  else
    let busy_ := m.pw.booting
    let m := modPw m fun p => { p with wakeCause := src }
    if busy_ then m else beginBoot m (Mode.ofCode (cfgN m 0x1100 0x05)) 1 2

end Sys2Proof.Machine
end

