-- ==== Sys2Proof/Machine/Survey.lean ====
section
/-!
DEFINITION. Machine/Survey.lean: the meanings of the survey sequencer's steps (R299–R310).
-/

namespace Sys2Proof.Machine

/-- Ports in the order in which a lane visits them (R300). -/
def visitOrder (ps : List (Fin 128)) : List (Fin 128) :=
  sortBy (fun a b => decide (a.val % 8 < b.val % 8) || (a.val % 8 == b.val % 8 && decide (a ≤ b))) ps

/-- A port that is not visited in a pass: awaiting its retest, or without a lane (R300). -/
def notVisited (m : Main) (p : Fin 128) : Bool := (m.ports[p]).state == 2 || (m.ports[p]).state == 3 || (laneOf m p).isNone

/-- A pass starts, with the survey settings of now (R300, R322). -/
def beginPass (m : Main) : Main :=
  let m := modSv m fun v => { v with cfg := m.cfg.filter fun x => x.1 / 256 == 0x3200 }
  let ps := (allFin 128).filter fun p => bitAt (svN m 0x01) p.val && (m.ports[p]).state != 5
  let go := visitOrder (ps.filter fun p => !notVisited m p)
  let m := modSv m fun v =>
    { v with running := true, due := false, visited := [], withFob := 0, events := 0, sawFree := m.ph.st == 0,
             sawStall := v.lanes.toList.any (·.stalled), firstAt := none, offAt := m.now }
  let m := forEach (allFin 16) m fun m k =>
    modLane m k fun l => { l with todo := go.filter fun p => laneOf m p == some k, sc := {}, ended := none, lost := false, told := false }
  forEach (ps.filter (notVisited m)) m fun m p => reportFault m ((laneOf m p).getD (homeCore p)) p

/-- A pass starts, or is due once the running one has ended (R300, R309, R310). -/
def surveyStart (m : Main) : Main :=
  if m.pw.mode != .survey || m.sv.stopped || m.pw.pendMode.isSome then m
  else if m.sv.running || m.sv.recOut.isSome then modSv m fun v => { v with due := true }
  else beginPass m

/-- SURVEY_PASS_START. -/
def execSurveyPassStart (s : State) : Out := onMain surveyStart s

/-- The link cache after a SINGLE reply with `OK` (R304). -/
def surveyCache (p : Fin 128) (sub8 : Bool) (uid caps : Nat) (m : Main) : Main :=
  modPort m p fun x =>
    let c := if uid = x.lastUid then x.linkCache.toNat else 0
    let low := if bitAt c 4 then c % 256 else 0x10 + place 2 1 (bitN sub8) + place 3 1 (bitN (bitAt caps 0))
    { x with linkCache := BitVec.ofNat 16 (low + place 8 8 caps) }

/-- The reads of a visit: negotiation, then [3200:08] records from [3200:09] (R301 step 3). -/
def visitReads : AirM Unit := do
  let n ← cfgA 0x3200 0x08
  if n != 0 then
    negotiate
    let done := (← get).prog.recs.length / 4
    readRecords n ((← cfgA 0x3200 0x09) + done) (n - done)

/-- RELEASE of every fob before the first SEEK round of a visit that is not the port's first of this kind (R303). -/
def visitRelease (p : Fin 128) : AirM Unit := do
  if !(← get).prog.released then
    let later ← askDev fun m => bitN (m.ports[p]).seekSeen
    onDev fun m => modPort m p fun x => { x with seekSeen := true }
    if later = 1 then let _ ← stpX .releaseAll
    onProg fun p => { p with released := true }

/-- SEEK rounds of a visit, QUIET to each fob selected as [3200:07] asks (R301 steps 4 and 5, R303). -/
def visitSeek (p : Fin 128) (seekPort : Bool) : AirM Unit := do
  let q ← cfgA 0x2500 0x01
  onProg fun x => { x with seeked := true, seekQ := if x.round = 0 then q else x.seekQ }
  let quiet := seekPort && (← cfgA 0x3200 0x07) == 1
  if quiet then visitRelease p
  seekRounds quiet (fun _ _ => false) ((← cfgA 0x2500 0x02) - (← get).prog.round)

/-- SINGLE of a visit: the fob and its reads, or SEEK rounds after `COLLISION` (R301 steps 2 and 3, R304). -/
def visitSingle (p : Fin 128) : AirM Unit := do
  let r ← single
  match r.outcome with
  | .ok =>
    if r.rcode != 0 then endWith (rcodeStatus r.rcode) (rcodeDetail r.rcode)
    needLength 12 r
    let uid := leNat (r.data.drop 1 |>.take 8)
    let sub8 := (← get).sub8
    onDev (surveyCache p sub8 uid (r.at_ 11))
    learnFob uid (leNat (r.data.drop 9 |>.take 2)) (r.at_ 11) r.rssi 0xFF r.bind
    visitReads
  | .collision =>
    onDev fun m => count m 0x70B0 0x06
    visitSeek p false
  | _ => endBy 1 r

/-- The exchanges of a visit on the field granted (R301, R302): one that a window cut goes on where it was. -/
def visitRun (p : Fin 128) : AirM Unit := do
  let seekPort := bitAt (← cfgA 0x3200 0x0A) p.val
  beginStp
  gapRound
  let x := (← get).prog
  if seekPort || x.seeked then visitSeek p seekPort
  else if x.acquired then
    acquireAgain
    visitReads
  else visitSingle p

/-- The visit is over: its field is ordered off, and the port is visited; it is reported with the field off (R301, R308). -/
def endVisit (m : Main) (k : Fin 16) (p : Fin 128) (status : Nat) : Main :=
  let on := carries m k (.lane k)
  let m := if on then orderOff m k else m
  let m := modLane m k fun l => { l with todo := l.todo.filter (· != p), ended := some (p, status), lost := false, told := false }
  let m := modSv m fun x => { x with visited := x.visited ++ [p], sawFree := x.sawFree || m.ph.st == 0 }
  if on then m else reportVisit m k

/-- What a turn makes of a visit (R301, R302). -/
def afterLane (m : Main) (k : Fin 16) (p : Fin 128) (r : Main × Script × TurnEnd) : Main :=
  let m := modLane r.1 k fun x => { x with sc := r.2.1 }
  match r.2.2 with
  | .waits f => handNext (modLane m k fun x => { x with sc := { x.sc with want := some f } }) k (.lane k) f
  | .ended st _ => endVisit m k p st
  | _ => pauseVisit m k

/-- The turn of a lane in a visit (R283, R299, R301): it reads the end of its exchange, begins on its field, settles what has cut it short,
or goes on without a frame that was not sent; a lost handle begins it anew. -/
def laneVisit (m : Main) (keys : Vector (Option (BitVec 128)) 8) (k : Fin 16) (parityBad : Bool) : Main :=
  let l := m.sv.lanes[k]
  match l.todo.head? with
  | none => m
  | some p =>
    let t : Turn := { owner := .lane k, core := k, port := p, keys := keys }
    let go (m : Main) (r : Main × Script × TurnEnd) : Main := afterLane m k p r
    if l.ended.isSome then m
    else match l.sc.inbox with
      | some r =>
        let bad := parityBad && hasWords m k
        let r := readReply bad r
        let m := if bad then noteParity m k r else m
        if (m.sv.lanes[k]).todo.head? == some p then go m (turn t (visitRun p) 3 m { l.sc with inbox := none } [.reply r]) else m
      | none =>
        if l.lost && l.told then
          let m := modLane m k fun x => { x with lost := false, told := false }
          go m (turn t (visitRun p) 3 m l.sc [.lost])
        else if l.sc.live && !l.lost then (if mustSettle m t l.sc then go m (settleRun t (visitRun p) m l.sc) else m)
        else match (m.cores[k]).fld with
          | some f =>
            if carries m k (.lane k) && f.port == p && f.at95 && !(m.cores[k]).busy then
              let sc := if l.lost then l.sc.restart else l.sc
              let m := modLane m k fun x => { x with lost := false, told := false }
              go m (turn t (visitRun p) 3 m { sc with live := true, sub8 := f.sub8, level := f.level } [])
            else m
          | none => m

/-- LANE_VISIT. -/
def execLaneVisit (lane : Fin 16) (parityBad : Bool) (s : State) : Out := .next { s with m := laneVisit s.m s.keys.fobKeys lane parityBad }

/-- The records a lane waits to write, one after another while Q8 takes them (R308). -/
def laneDrain : Nat → Main → Fin 16 → Main
  | 0, m, _ => m
  | n + 1, m, k =>
    let l := m.sv.lanes[k]
    match l.waiting with
    | [] => modLane m k fun l => { l with stalled := false, outPkt := 0 }
    | ws :: rest =>
      let r := retryPkt m 8 0x22 (0x20 + k.val) (l.outPkt, ws)
      match r.2 with
      | none => laneDrain n (modLane r.1 k fun l => { l with waiting := rest, outPkt := 0 }) k
      | some s => modLane r.1 k fun l => { l with waiting := s.2 :: rest, outPkt := s.1 }

/-- LANE_STALL_RESUME: a lane finds space in Q8. -/
def laneResume (m : Main) (k : Fin 16) : Main :=
  if (m.sv.lanes[k]).stalled then laneDrain ((m.sv.lanes[k]).waiting.length + 1) m k else m

/-- LANE_STALL_RESUME. -/
def execLaneStallResume (lane : Fin 16) (s : State) : Out := onMain (fun m => laneResume m lane) s

/-- The pass record, when it waits, is written on; else the pass ends when every lane has, and the change of mode of R310 follows. -/
def passEnd (m : Main) : Main :=
  match m.sv.recOut with
  | some o =>
    let r := retryPkt m 8 0x23 0x30 o
    let m := { r.1 with sv := { r.1.sv with recOut := r.2 } }
    if r.2.isNone && m.sv.due then surveyStart m else m
  | none =>
    if !m.sv.running || (allFin 16).any (fun k => !((m.sv.lanes[k]).todo.isEmpty) || (m.sv.lanes[k]).ended.isSome || (m.sv.lanes[k]).stalled) then m
    else
      let m := endPass m false
      let n := svN m 0x03
      let m :=
        if n = 0 || m.sv.sinceEntry != n then m
        else if svN m 0x04 = 2 then modSv m fun v => { v with stopped := true }
        else (requestMode m (svN m 0x04) 4).2
      if m.sv.due then surveyStart m else m

/-- PASS_END. -/
def execPassEnd (s : State) : Out := onMain passEnd s

end Sys2Proof.Machine
end

