-- ==== Sys2Proof/Machine/PoolCmds.lean ====
section
/-!
DEFINITION. Machine/PoolCmds.lean: the meanings of the pool's steps (chapter 13): flush, quotas, consumers, stalled producers, the
scrubber and the owner sweep.
-/

namespace Sys2Proof.Machine

/-- The dispatcher's packets that wait for space in a queue, in their order (R338, R339). -/
def dispResume (m : Main) (q : Fin 32) : Main :=
  let todo := m.disp.stalled
  forEach todo { m with disp := { m.disp with stalled := [] } } fun m o =>
    if o.q != q then { m with disp := { m.disp with stalled := m.disp.stalled ++ [o] } }
    else
      let r := retryPkt m q (if q = 23 then 0x2A else 0x21) 0x3F (o.pkt, o.words)
      match r.2 with
      | none => freePayload r.1 o.jobQ o.cells
      | some s => { r.1 with disp := { r.1.disp with stalled := r.1.disp.stalled ++ [{ o with pkt := s.1, words := s.2 }] } }

/-- Contexts whose results go to a queue (R267, R339). -/
def ctxResume (m : Main) (q : Fin 32) : Main :=
  forEach allCtx m fun m x =>
    match (ctxOf m x.1 x.2).job with
    | some j => if (resultOut m j []).1 = q then resultResume m x.1 x.2 else m
    | none => m

/-- A packet of the watch sequencer or the pass record that waits (R318, R338). -/
def watchResume (m : Main) : Main :=
  match m.wt.recOut with
  | some o =>
    let r := retryPkt m 9 0x24 0x31 o
    { r.1 with wt := { r.1.wt with recOut := r.2 } }
  | none => m

/-- Every internal producer that stalls on a queue goes on (R339). -/
def producersResume (m : Main) (q : Fin 32) : Main :=
  let m := ctxResume (dispResume m q) q
  let m := if q = 8 then forEach (allFin 16) m laneResume else m
  let m := if q = 8 && m.sv.recOut.isSome then passEnd m else m
  if q = 9 then watchResume m else m

/-- PRODUCER_STALL_RESUME. -/
def execProducerStallResume (q : Fin 32) (s : State) : Out := onMain (fun m => if ctlOn m then producersResume m q else m) s

/-- A flush: 0xF1 in a mode in which the entry is writable (R343, R351); stalled producers are released into the sink state (R344). -/
def queueFlush (m : Main) (q : Fin 32) (v : BitVec 8) : Main :=
  if v = 0xF1 && ctlOn m && (m.pw.mode.isMain || m.pw.mode == .hold) then producersResume (flushQ m q) q else m

/-- QUEUE_FLUSH. -/
def execQueueFlush (q : Fin 32) (value : BitVec 8) (s : State) : Out := onService (fun m => queueFlush m q value) s

/-- Whether a quota write is accepted (R336). -/
def quotaOk (m : Main) (q : Fin 32) (isMax : Bool) (v : Nat) : Bool :=
  let x := m.pool.qs[q]
  if isMax then decide (x.cmin ≤ v)
  else
    decide (v ≤ x.cmax) && decide (minSum m - x.cmin + v + 1024 ≤ poolCells - m.pool.retired.length) &&
    (decide (v ≤ x.cells) || decide ((v : Int) - x.cmin ≤ unreserved m))

/-- A quota write (R336): whether it is accepted, and what it does. A maximum outside 1–16 384 is out of range (R351). -/
def writeQuota (m : Main) (q : Fin 32) (isMax : Bool) (v : Nat) : Bool × Main :=
  if !m.pw.mode.isMain || (isMax && (v == 0 || decide (16384 < v))) then (false, m)
  else if quotaOk m q isMax v then (true, modQ m q fun x => if isMax then { x with cmax := v } else { x with cmin := v })
  else (false, count m 0x70C0 0x0A)

/-- QUOTA_WRITE. -/
def execQuotaWrite (q : Fin 32) (isMax : Bool) (value : BitVec 16) (s : State) : Out :=
  onService (fun m => (writeQuota m q isMax value.toNat).2) s

/-- A consumer write in CALIBRATE (R331): code 1 for Q24–Q27 only. -/
def writeConsumer (m : Main) (q : Fin 32) (v : Nat) : Bool × Main :=
  if m.pw.mode != .calibrate || decide (5 < v) then (false, m)
  else if v = 1 && decide (q.val < 24 ∨ 28 ≤ q.val) then (false, count m 0x70C0 0x0A)
  else (true, modQ m q fun x => { x with consumer := v })

/-- CONSUMER_WRITE. -/
def execConsumerWrite (q : Fin 32) (value : BitVec 8) (s : State) : Out := onService (fun m => (writeConsumer m q value.toNat).2) s

/-- The packet of a queue that holds a word, counted over all words of its packets from the head, and the word's place in it. -/
def locate : List Packet → Nat → Option (Nat × Nat)
  | [], _ => none
  | p :: rest, w => if w ≤ p.words.length then some (p.id, w) else locate rest (w - (p.words.length + 1))

/-- A double-bit error found by the scrubber: the word is poisoned where a queue holds it, and its cell retired (R347, R348). -/
def scrubDouble (m : Main) (d : Nat × Option (Fin 32) × Nat) : Main :=
  let m := match d.2.1 with
    | some q =>
      match locate (m.pool.qs[q]).pkts d.2.2 with
      | some x => modQ m q fun y => { y with pkts := y.pkts.map fun p => if p.id = x.1 then { p with poison := p.poison ++ [(x.2, d.1)] } else p }
      | none => m
    | none => m
  retireCell m d.1

/-- A cell that a queue holds is retired and still read well: it is free no more once its packet is gone (R348). -/
def wear (m : Main) (d : Nat × Option (Fin 32) × Nat) : Main :=
  match d.2.1 with
  | some q =>
    match locate (m.pool.qs[q]).pkts d.2.2 with
    | some x => modQ m q fun y => { y with pkts := y.pkts.map fun p => if p.id = x.1 then { p with worn := p.worn ++ [d.1] } else p }
    | none => m
  | none => m

/-- A single-bit error: corrected, counted, and the cell retired at the third pass in a row (R346–R348). -/
def scrubSingle (old : List (Nat × Nat)) (m : Main) (d : Nat × Option (Fin 32) × Nat) : Main :=
  let cell := d.1
  let n := (mapGet cell old).getD 0 + 1
  let m := count m 0x70C0 0x06
  if 3 ≤ n then retireCell (if m.pool.retired.contains cell then m else wear m d) cell else { m with pool := { m.pool with singles := mapSet cell n m.pool.singles } }

/-- A parity error of a link entry: the queue is cut at the packet that holds it, or the free list is rebuilt; a pool fault (R349). -/
def linkError (m : Main) (e : Option (Fin 32) × Nat) : Main :=
  let m := match e.1 with
    | some q =>
      match locate (m.pool.qs[q]).pkts e.2 with
      | some x =>
        let keep := (m.pool.qs[q]).pkts.takeWhile fun p => p.id != x.1
        let cut := (m.pool.qs[q]).pkts.dropWhile fun p => p.id != x.1
        let opens := cut.filter fun p => p.opened
        let m := { m with pool := { m.pool with orphans := m.pool.orphans + (cut.map Packet.cells).sum, sweepDue := true } }
        let m := modQ m q fun y => { y with pkts := keep, sinks := y.sinks ++ opens.map Packet.toSink }
        forEach opens m fun m p => cuSink m p.id
      | none => m
    | none => { m with pool := { m.pool with orphans := m.pool.orphans + cellsFree m, sweepDue := true } }
  let m := journal (count m 0x70C0 0x09) 0x30 0x5003 [(e.1.map (·.val)).getD 0xFF]
  poolFault m 2

/-- The scrubber completes a pass (R347–R349). -/
def scrubPass (m : Main) (r : ScrubReport) : Main :=
  if !ctlOn m then m
  else
    let old := m.pool.singles
    let m := { m with pool := { m.pool with scrubs := sat32 (m.pool.scrubs + 1), singles := [] } }
    let m := forEach r.singles m (scrubSingle old)
    let m := forEach r.doubles m scrubDouble
    forEach r.linkErrors m linkError

/-- SCRUB_PASS. -/
def execScrubPass (report : ScrubReport) (s : State) : Out := onMain (fun m => scrubPass m report) s

/-- The owner sweep has returned the orphaned cells (R349). -/
def ownerSweep (m : Main) : Main :=
  if m.pool.sweepDue then { m with pool := { m.pool with orphans := 0, sweepDue := false } } else m

/-- OWNER_SWEEP_DONE. -/
def execOwnerSweepDone (s : State) : Out := onMain ownerSweep s

end Sys2Proof.Machine
end

