-- ==== Sys2Proof/Machine/Coding.lean ====
section
/-!
DEFINITION. Machine/Coding.lean: the coding of the chirp radio: header (R394), whitening (R393), the extended Golay code (R395), blocks of
interleaved codewords (R396), and the shifts that carry them (R390, R392).
-/

namespace Sys2Proof.Machine

/-- The Gray code of a value, and the value of a Gray code of up to 16 bits (R390). -/
def grayOf (v : Nat) : Nat := v ^^^ (v / 2)
def grayInv (g : Nat) : Nat := [1, 2, 4, 8].foldl (fun v k => v ^^^ (v >>> k)) g

/-- The shift of a data symbol, and the value of the nominal shift nearest to a measured one, at order n (R390). -/
def shiftOf (v : Nat) : Nat := 4 * grayOf v + 2
def symbolValue (n s : Nat) : Nat := grayInv (s / 4 % 2 ^ (n - 2))

/-- The whitening sequence from a state of its register on (R393). -/
def whitening : Nat → Nat → List Bool
  | 0, _ => []
  | k + 1, r => bitAt r 0 :: whitening k (r / 2 + place 8 1 (bitN (bitAt r 0 != bitAt r 5)))

/-- Data bits whitened; the same step takes the whitening off (R393). -/
def whiten (bs : List Bool) : List Bool := (bs.zip (whitening bs.length 0x1FF)).map fun x => x.1 != x.2

/-- The low bits of a number. -/
def natBits (k v : Nat) : List Bool := (List.range k).map (bitAt v)

/-- Bits of bytes, least significant first (R393). -/
def byteBits (bs : List Byte) : List Bool := bs.flatMap fun b => natBits 8 b.toNat

/-- The remainder of a polynomial modulo g(x) of R395, from degree 11 + k down. -/
def golayMod : Nat → Nat → Nat
  | 0, v => if bitAt v 11 then v ^^^ 0xC75 else v
  | k + 1, v => golayMod k (if bitAt v (12 + k) then v ^^^ (0xC75 <<< (k + 1)) else v)

def parityOf (v : Nat) : Nat := ((natBits 24 v).countP id) % 2

/-- The 12 check bits of 12 data bits: the remainder of x^11 × m(x), and the bit that makes the weight even (R395). -/
def golayCheck (d : Nat) : Nat :=
  let r := golayMod 11 (d * 2 ^ 11)
  r + 2 ^ 11 * parityOf (d + 2 ^ 12 * r)

/-- The codeword of 12 data bits (R395). -/
def golayEncode (d : Nat) : Nat := d + 2 ^ 12 * golayCheck d

/-- Errors of up to three bits among the data bits. -/
def golayErrors : List Nat :=
  let one := (List.range 12).map fun i => 2 ^ i
  let two := one.flatMap fun a => (one.filter fun b => b < a).map fun b => a + b
  let three := one.flatMap fun a => (two.filter fun b => b < a).map fun b => a + b
  0 :: one ++ two ++ three

/-- The data bits of a received word, with up to 3 bit errors in the word corrected; `none` beyond that (R395). -/
def golayDecode (w : Nat) : Option Nat :=
  let d := w % 2 ^ 12
  let s := golayCheck d ^^^ (w / 2 ^ 12)
  (golayErrors.find? fun e => decide ((natBits 12 e).countP id + (natBits 12 (s ^^^ golayCheck e)).countP id ≤ 3)).map (d ^^^ ·)

/-- Groups of m, the last one as long as what is left. -/
def groupsOf (m : Nat) {α : Type} : Nat → List α → List (List α)
  | 0, _ => []
  | k + 1, l => if l.isEmpty then [] else l.take m :: groupsOf m k (l.drop m)

/-- The values of the 24 symbols of a block of codewords (R396). -/
def blockValues (cs : List Nat) : List Nat := (List.range 24).map fun j => bitsNat (cs.map fun c => bitAt c j)

/-- The m codewords of the 24 symbols of a block (R396). -/
def blockWords (m : Nat) (vs : List Nat) : List Nat := (List.range m).map fun i => bitsNat (vs.map fun v => bitAt v i)

/-- The header of a frame of L payload bytes (R394). -/
def radioHeader (L : Nat) (power : Int) (precomp : Bool) : List Byte :=
  let w := leBytes 2 (L % 256 + place 8 6 (clampI 0 37 (power + 10)).toNat + place 14 1 (bitN precomp))
  w ++ [byte (CrcKind.crc8.of w)]

/-- Blocks of a frame with L payload bytes at an order (R396). -/
def radioBlocks (n L : Nat) : Nat := (24 + 8 * (L + 2) + 12 * (n - 2) - 1) / (12 * (n - 2))

/-- The shifts of sync and data of a frame (R392, R393, R396). -/
def radioSymbols (n network : Nat) (power : Int) (precomp : Bool) (payload : List Byte) : List Nat :=
  let k := radioBlocks n payload.length
  let bits := byteBits (radioHeader payload.length power precomp ++ payload ++ leBytes 2 (CrcKind.ccitt.of payload))
  let all := whiten (bits ++ List.replicate (12 * (n - 2) * k - bits.length) false)
  let words := (groupsOf 12 ((n - 2) * k) all).map fun g => golayEncode (bitsNat g)
  [16 * (network % 16) + 8, 16 * (network / 16 % 16) + 8] ++
    ((groupsOf (n - 2) k words).flatMap blockValues).map shiftOf

/-- The codewords of a run of received symbols, block by block (R390, R396). -/
def heardWords (n : Nat) (symbols : List Nat) : List Nat :=
  (groupsOf 24 symbols.length symbols).flatMap fun g => blockWords (n - 2) (g.map (symbolValue n))

/-- The data bits of received codewords, whitened still; a codeword beyond correction gives its data bits as received (R402). -/
def heardBits (words : List Nat) : List Bool := words.flatMap fun w => natBits 12 ((golayDecode w).getD (w % 2 ^ 12))

end Sys2Proof.Machine
end

