-- ==== Sys2Proof/Machine/SpiOps.lean ====
section
/-!
DEFINITION. Machine/SpiOps.lean: the frame of an SPI transaction (R482–R486, R495): the status block, the check byte of what
the device sends, and the refusal of a header.
-/

namespace Sys2Proof.Machine

/-- The CRC-8 of an SPI phase (R485). -/
def spiCheck (bs : List Byte) : Byte := byte (CrcKind.crc8.of bs)

/-- The status block: queue bitmap and status flags, then `SCHK` (R483, R486). -/
def statusBlock (s : State) : List Byte :=
  let bs := leBytes 4 (queueBitmap s.m) ++ leBytes 4 (statusFlags s.m (leaseHeld s))
  bs ++ [spiCheck bs]

/-- Whether the port is ready: `CTL` powered and its boot step done (R53, R54). -/
def spiUp (m : Main) : Bool := ctlOn m && m.pw.rdy

/-- The SPI loader waits, and serves only NOP, READ_WIN and WRITE_Q to Q28 (R58, R488). -/
def loaderWaits (m : Main) : Bool := m.pw.bootStage == 0x06 || (decide (0xE1 ≤ m.pw.bootStage) && decide (m.pw.bootStage ≤ 0xE5))

/-- The waiting loader takes the packets that have closed in Q28 and streams them through the checks of R56 (R57); one that a double-bit
error cuts short is lost to it. -/
def loaderTakes : Nat → Main → Main
  | 0, m => m
  | n + 1, m =>
    match headOf m 28 with
    | (.packet p, m) => loaderTakes n (modPw (dropHead m 28) fun w => { w with loaded := w.loaded + 4 * p.words.length })
    | (.short, m) => loaderTakes n m
    | (.nothing, m) => m

def loaderDrain (m : Main) : Main := if loaderWaits m then loaderTakes (m.pool.qs[28]).pkts.length m else m

/-- A transaction begins: the status block goes out, the three `PREV_` flags have been told, a change of width takes effect (R486,
R495). -/
def spiBegin (s : State) : State :=
  let m := modSpi s.m fun p => { p with quad := p.quadNext }
  let b := statusBlock { s with m := m }
  { s with m := modSpi m fun p => { p with status := b, prevHdr := false, prevCrc := false, prevAbandon := false, out := [] } }

/-- Device data goes out with its check byte. -/
def spiSend (m : Main) (bs : List Byte) : Main := modSpi m fun p => { p with out := bs ++ [spiCheck bs] }

/-- A header is refused: nothing is done, 0xFF is driven, and it is counted (R484). -/
def spiRefuse (m : Main) : Main := count (modSpi m fun p => { p with prevHdr := true }) 0x7000 0x02

end Sys2Proof.Machine
end

