-- ==== Sys2Proof/Machine/TargetOps.lean ====
section
/-!
DEFINITION. Machine/TargetOps.lean: the target front end (chapter 14): sessions (R354, R355), the files and records it shows
(R377, R381), what it sends, the authentication both protocols share (R245, R380), the status of a ledger operation in each
interface (R371), and the arbiter's requests (R366–R375).
-/

namespace Sys2Proof.Machine

/-- Status codes of a ledger operation (R371). -/
inductive LStatus where
  | ok | busy | retry | lowEnergy | access | range | frame | memory
  deriving DecidableEq, Repr

def LStatus.code : LStatus → Nat
  | .ok => 0 | .busy => 1 | .retry => 2 | .lowEnergy => 3 | .access => 4 | .range => 5 | .frame => 6 | .memory => 7

/-- The ISO/IEC 14443-A status word of a code (R371). -/
def LStatus.sw : LStatus → Nat
  | .ok => 0x9000 | .busy => 0x6985 | .retry => 0x6400 | .lowEnergy => 0x6402 | .access => 0x6982 | .range => 0x6A83
  | .frame => 0x6700 | .memory => 0x6581

/-- The `RCODE` of a code (R371). No STP command writes settings, so `RETRY` has none. -/
def LStatus.rcode : LStatus → Nat
  | .ok => 0 | .busy => 3 | .retry => 3 | .lowEnergy => 4 | .access => 3 | .range => 2 | .frame => 1 | .memory => 8

def modTgt (m : Main) (f : Target → Target) : Main := { m with tgt := f m.tgt }
def modIso (m : Main) (f : IsoTarget → IsoTarget) : Main := modTgt m fun t => { t with iso := f t.iso }
def modStp (m : Main) (f : StpTarget → StpTarget) : Main := modTgt m fun t => { t with stp := f t.stp }
def modAuth (m : Main) (f : TgtAuth → TgtAuth) : Main := modTgt m fun t => { t with auth := f t.auth }

/-- Whether the target carries frames: its island powered, and a field of 1.5 to 7.5 A/m (R354). -/
def tgtCarries (m : Main) : Bool := m.pw.aoUp && m.pw.fieldOn && decide (15 ≤ m.pw.strength) && decide (m.pw.strength ≤ 75)

/-- Whether a protocol is enabled in [6000:01]: bit 0 ISO/IEC 14443-A, bit 1 STP (R354, R385). -/
def tgtEnabled (m : Main) (bit : Nat) : Bool := bitAt (cfgN m 0x6000 0x01) bit

/-- The `ORIGIN` of the session's protocol (R362). -/
def sessionOrigin (m : Main) : Nat := match m.tgt.session with | .stp => 2 | _ => 1

/-- A session begins (R355, R384, R386). -/
def beginSession (m : Main) (k : TgtSession) : Main :=
  let m := countAo (modTgt m fun t => { t with session := k, auth := { lockout := t.auth.lockout } }) 0x70D0 0x01
  tgtEvent m false 1 (sessionOrigin m) 0 0xFF 0

/-- The field is lost: the session ends with all of its state; the retention cell and the lockout stay (R212, R230, R247, R355). -/
def endSession (m : Main) : Main :=
  let open_ := m.tgt.session != .none
  let org := sessionOrigin m
  let m := modTgt m fun t =>
    { t with session := .none, resp := [], releaseWait := false, auth := { lockout := t.auth.lockout }, iso := { uid := t.iso.uid },
             stp := { bound := t.stp.bound, quiet := t.stp.quiet, lostAt := some (t.stp.lostAt.getD m.now) } }
  if open_ then tgtEvent m false 2 org 0 0xFF 0 else m

/-- The field appears: a retention cell younger than 2 s holds, one of 30 s has expired, and in between either may be (R212, R230). -/
def stpPowerUp (m : Main) : Main :=
  let dt := (m.tgt.stp.lostAt.map fun t => m.now - t).getD 0
  let d := if 2 * tickS ≤ dt && dt < 30 * tickS then draw m else (0, m)
  let kept := dt < 2 * tickS || (dt < 30 * tickS && d.1.toNat % 2 = 1)
  modStp d.2 fun s =>
    let b := if kept then s.bound else none
    let q := kept && s.quiet
    let tag := (b.map (·.1)).getD 0
    { bound := b, quiet := q, tagState := if q then 5 else 0, sub8 := bitAt tag 3 }

/-- What the card sends to the reader. -/
def tgtSend (m : Main) (bs : List Byte) : Main := modTgt m fun t => { t with resp := bs }

/-- What the card sends with CRC_A: all but the answers of the anticollision loop (R376; ISO/IEC 14443-3). -/
def sendA (m : Main) (bs : List Byte) : Main := tgtSend m (bs ++ leBytes 2 (CrcKind.crcA.of bs))

/-- A block of an answer, as long as the reader's frame takes it; the rest is chained (R376; ISO/IEC 14443-4). -/
def isoBlock (m : Main) (inf : List Byte) : Main :=
  let n := m.tgt.iso.fsd - 3
  let more := decide (n < inf.length)
  let blk := byte (0x02 + bitN m.tgt.iso.blockNo + place 4 1 (bitN more)) :: inf.take n
  sendA (modIso m fun i => { i with chain := inf.drop n, lastResp := blk }) blk

/-- An APDU is answered with data and a status word: the card's block number toggles as it receives the command (R376, R378). -/
def apduReply (m : Main) (data : List Byte) (sw : Nat) : Main :=
  isoBlock (modIso m fun i => { i with blockNo := !i.blockNo, st := 7 }) (data ++ [byte (sw / 256), byte sw])

/-- An STP reply: `RCODE`, `BIND`, body, check (R206). It starts 597/fc after the frame and lasts as long as its link takes (R204, R205,
R207). -/
def stpReply (m : Main) (rcode bind : Nat) (body : List Byte) : Main :=
  let bs := byte (rcode + place 4 2 bind) :: (if rcode = 0 then body else [])
  let t := m.tgt.stp
  let start := t.heardAt + fcTicks 597
  tgtSend (modStp m fun t => { t with reply := some (start, start + fcTicks ((8 + 8 * (bs.length + 2)) * bitFc t.rate)) })
    (bs ++ leBytes 2 (CrcKind.ccitt.of bs))

/-- The modes in the RELEASE setting: bit 0 RESCUE, bit 1 EMULATE (R385). -/
def releaseAllowed (m : Main) : Bool :=
  (m.pw.mode == .rescue && bitAt (cfgN m 0x6000 0x05) 0) || (m.pw.mode == .emulate && bitAt (cfgN m 0x6000 0x05) 1)

/-- EF.ID (R377). -/
def efId : List Byte :=
  leBytes 8 Config.targetUid.toNat ++ leBytes 4 (entryDefault 0x1000 0x01) ++ [byte (bitN Config.gradeXB), 0x01] ++ List.replicate 18 0

/-- EF.STATUS, with a measurement of V_HARV (R377). -/
def efStatus (s : State) : List Byte × State :=
  let m := senseHarv s.m
  let flags := bitN (leaseHeld s) + place 1 1 (bitN m.pw.onHarvest) + place 2 1 (bitN s.lgr.current)
  (leBytes 4 s.lgr.head ++ leBytes 4 s.lgr.oldest ++ leBytes 2 m.tgt.vHarv ++ [byte m.pw.mode.code, byte flags, 0, 0, 0, 0], { s with m := m })

/-- An audit record counted from the newest, 1 first (R377, R383): its 64 bytes, `RANGE` where there is none, `MEMORY` where its
slot holds no valid record. -/
def auditRead (s : State) (n : Nat) : LStatus × List Byte :=
  if n = 0 || decide (240 < n) || decide (s.lgr.head < n) then (.range, [])
  else
    let q := s.lgr.head + 1 - n
    match s.lgr.at_ q with
    | some b => (.ok, auditBytes q b)
    | none => (.memory, [])

/-- A settings record of the current bank, the 20 data bytes or all 24 (R363, R377, R383). -/
def settingRead (s : State) (r : Nat) (whole : Bool) : LStatus × List Byte :=
  if 15 < r then (.range, [])
  else if s.lgr.noBank then (.memory, [])
  else (.ok, if whole then s.lgr.cur.record r else s.lgr.cur.data r)

/-- A target key; one that is not loaded is a free value (R380; log 21). -/
def tgtKey (s : State) (k : Nat) : BitVec 128 × State :=
  match (if k = 0 then s.lgr.key0 else s.lgr.key1) with
  | some v => (v, s)
  | none => let d := draw s.m; (d.1, { s with m := d.2 })

/-- `C1` for a challenge, which leaves the authentication pending with its key, `RA` and RB (R245, R380). -/
def tgtChallenge (s : State) (k : Nat) (ra : List Byte) : List Byte × State :=
  let kv := tgtKey s k
  let d := draw kv.2.m
  let ra := padTo 8 ra
  let rb := leBytes 8 d.1.toNat
  (aes128 kv.1 (ra ++ rb), { kv.2 with m := modAuth d.2 fun a => { a with pending := some (k, ra, rb) } })

/-- `DATA` of a record that the DX8128 writes: key number, then the UID (R362). -/
def ownData (m : Main) (key : Nat) : List Byte :=
  byte key :: (match m.tgt.session with
    | .stp => leBytes 8 Config.targetUid.toNat
    | _ => leBytes 4 m.tgt.iso.uid.toNat)

/-- How an authentication ended. -/
inductive AuthEnd where
  | opened | failed | noEnergy
  deriving DecidableEq, Repr

/-- Whether the reader's answer is that to the pending challenge of the key it names (R245). -/
def answerGood (s : State) (key : Nat) (c2 : List Byte) : Bool × State :=
  match s.m.tgt.auth.pending with
  | some (k, ra, rb) => let kv := tgtKey s k; (k == key && aes128 kv.1 (rb ++ ra) == c2, kv.2)
  | none => (false, s)

/-- A failed answer is counted and locks the target for 100 ms (R247). -/
def lockOut (s : State) (good : Bool) : State :=
  if good then s else { s with m := modAuth (countAo s.m 0x70D0 0x07) fun a => { a with lockout := true } }

/-- What an authentication brings once its record has been tried: `seq` is the record, if it was written (R245, R380). -/
def authOutcome (s : State) (key org : Nat) (good : Bool) (seq : Option Nat) : AuthEnd × State :=
  match seq with
  | some q =>
    let m := tgtEvent s.m false (if good then 3 else 4) org (if good then 0 else LStatus.access.code) key q
    if good then
      (.opened, { s with m := modAuth m fun a => { a with key0 := a.key0 || key = 0, key1 := a.key1 || key = 1 } })
    else (.failed, { s with m := m })
  | none =>
    (.noEnergy, if good then s else { s with m := tgtEvent s.m false 4 org LStatus.lowEnergy.code key 0 })

/-- The reader's answer is checked, and an AUTH_OK or AUTH_FAIL record is committed before the answer (R245, R380). -/
def tgtVerify (s : State) (key : Nat) (c2 : List Byte) : AuthEnd × State :=
  let p := answerGood s key c2
  let s := lockOut { p.2 with m := modAuth p.2.m fun a => { a with pending := none } } p.1
  let r := ownRecord s (if p.1 then 1 else 2) (ownData s.m key)
  authOutcome r.2 key (sessionOrigin r.2.m) p.1 r.1

/-- The wired port of an access, as its `ORIGIN` and as a lease holder (R362, R366, R370). -/
def LAccess.origin (a : LAccess) : Nat :=
  match a.port with
  | .i2c => 3
  | .main => 4
  | .field => if a.reply = 3 then 2 else 1

def LAccess.isSetting (a : LAccess) : Bool := match a.op with | .setting _ _ => true | _ => false
def LAccess.isRead (a : LAccess) : Bool := match a.op with | .read _ _ => true | _ => false

/-- The code of a wired command (R383). -/
def LAccess.code (a : LAccess) : Nat := match a.op with | .append _ => 3 | .setting _ _ => 4 | .read c _ => c

/-- A wired port as the check units and answers name it. -/
def LPort.wired : LPort → Wired
  | .i2c => .i2c
  | _ => .spi

/-- An answer on the I²C port: status, data, CRC-16 over both (R383). -/
def i2cAnswer (m : Main) (st : LStatus) (data : List Byte) : Main :=
  let bs := byte st.code :: data
  modTgt m fun t => { t with i2cOut := bs ++ leBytes 2 (CrcKind.ccitt.of bs) }

/-- An answer on a wired port: SPI sends the same bytes with its own check byte, and its check units follow them (R492, R515). -/
def wiredAnswer (m : Main) (w : Wired) (head : Nat) (st : LStatus) (data : List Byte) : Main :=
  match w with
  | .i2c => i2cAnswer m st data
  | .spi => cuSpi (spiSend m (byte st.code :: data)) true (byte st.code :: data) head

/-- The response of an access (R371, R373, R382): nothing reaches a reader that is gone. -/
def lRespond (s : State) (a : LAccess) (st : LStatus) (seq : Nat) : State :=
  let m := s.m
  let q := if st = .ok then leBytes 4 seq else []
  match a.reply with
  | 1 => if m.tgt.session == .iso then { s with m := apduReply m q st.sw } else s
  | 2 => if m.tgt.session == .iso then { s with m := apduReply m [] st.sw } else s
  | 3 =>
    if m.tgt.session != .stp then s
    else if st = .ok then
      let m := modStp m fun t => { t with lastTok := t.shadow.map fun x => x.2.2, shadow := none, lastGen := seq % 256 }
      { s with m := stpReply m 0 0 [8, 0, byte seq] }
    else { s with m := stpReply m st.rcode 0 [] }
  | _ =>
    if a.port == .field then s
    else
      let data := if a.isSetting || a.isRead then [] else q
      { s with m := wiredAnswer m a.port.wired (place 0 8 0x07 + place 8 16 a.code) st data }

/-- An access is refused: its response, and the event of a write (R384). -/
def lRefuse (s : State) (a : LAccess) (st : LStatus) : State :=
  lRespond (if a.isRead then s else { s with m := writeRefused s.m a.origin st.code }) a st 0

/-- A wired read is carried out: the newest audit slots, a settings record of 24 bytes, EF.STATUS (R383). -/
def lRead (s : State) (w : Wired) (code arg : Nat) : State :=
  let r := match code with
    | 1 => (auditRead s arg, s)
    | 2 => (settingRead s arg true, s)
    | _ => let e := efStatus s; ((.ok, e.1), e.2)
  { r.2 with m := wiredAnswer r.2.m w (place 0 8 0x07 + place 8 16 code + place 24 8 2) r.1.1 (if r.1.1 = .ok then r.1.2 else []) }

/-- An access reaches the arbiter (R366). A settings write that meets another one ends `RETRY` (R368, R374). -/
def lRequest (s : State) (a : LAccess) : State :=
  let clash := a.isSetting && ((s.lgr.waiting.any LAccess.isSetting) || (s.lgr.running.map LAccess.isSetting) == some true)
  if clash then lRefuse { s with m := countAo s.m 0x70D0 0x05 } a .retry
  else { s with lgr := { s.lgr with waiting := s.lgr.waiting ++ [a] } }

/-- Whether a lease turns a write away (R370): from the field always, from a wired port when the other one holds it. -/
def leaseBlocks (l : Ledger) (a : LAccess) : Bool :=
  match l.leaseBy, a.port with
  | none, _ => false
  | some _, .field => true
  | some w, .i2c => w != .i2c
  | some w, .main => w != .spi

/-- A write that R375 finds to write nothing, with the `SEQ` it ends on. -/
def lUnchanged (l : Ledger) (a : LAccess) : Option Nat :=
  match a.op with
  | .append b => l.repeats b
  | .setting r d => if !l.noBank && nth l.cur.host (r - 12) [] == d then some 0 else none
  | .read _ _ => none

def LAccess.energy (a : LAccess) : Nat := if a.isSetting then settingEnergy else appendEnergy

/-- A waiting access is given the ledger: steps 2 and 3 of R373. -/
def lStart (s : State) (a : LAccess) : State :=
  match a.op with
  | .read c n => lRead s a.port.wired c n
  | _ =>
  if a.started then { s with lgr := { s.lgr with running := some a } }
  else if leaseBlocks s.lgr a then lRefuse { s with m := countAo s.m 0x70D0 0x04 } a .busy
  else match lUnchanged s.lgr a with
    | some q => lRespond s a .ok q
    | none =>
      let e := energyCheck s.m a.energy
      let s := { s with m := e.2 }
      if e.1 then { s with lgr := { s.lgr with running := some { a with started := true } } } else lRefuse s a .lowEnergy

/-- Steps 4 to 6 and 8 of R373 for an access. -/
def lWrite (s : State) (a : LAccess) : State :=
  match a.op with
  | .append b => writeAppend s (stampBody s.m b)
  | .setting r d => writeBank s a.origin fun b => { b with host := b.host.set (r - 12) d }
  | .read _ _ => s

/-- The access that the arbiter serves next: the field first, then a write it had interrupted, then the oldest (R367). -/
def lNext (l : Ledger) : Option LAccess :=
  (l.waiting.find? fun a => a.port == .field).or ((l.waiting.find? (·.started)).or l.waiting.head?)

def dropFirst (f : LAccess → Bool) : List LAccess → List LAccess
  | [] => []
  | a :: r => if f a then r else a :: dropFirst f r

end Sys2Proof.Machine
end

