-- ==== Sys2Proof/Machine/Ledger.lean ====
section
/-!
DEFINITION. Machine/Ledger.lean: the commands of the wired ledger ports (R383, R492), the lease (R370), and the arbiter at work
(R366–R369, R373).
-/

namespace Sys2Proof.Machine

/-- The running access ends its write: steps 4 to 8 of R373. -/
def finishRunning (s : State) : State :=
  match s.lgr.running with
  | none => s
  | some a =>
    let s := lWrite { s with lgr := { s.lgr with running := none } } a
    lRespond s a .ok s.lgr.head

/-- A field access waits for the audit append of a wired port that runs (R367). -/
def fieldFirst (s : State) : State :=
  match s.lgr.running with
  | some a => if a.port != .field && !a.isSetting then finishRunning s else s
  | none => s

/-- A lease is taken, renewed or ended; a field write past the arbiter ends first (R370, R374). -/
def setLease (s : State) (w : Wired) (seconds : Nat) : LStatus × State :=
  if 60 < seconds then (.range, s)
  else
    let s := if (s.lgr.running.map (·.port)) = some .field then finishRunning s else s
    if s.lgr.leaseBy.isSome && s.lgr.leaseBy != some w then (.busy, { s with m := countAo s.m 0x70D0 0x04 })
    else if seconds = 0 then (.ok, { s with lgr := { s.lgr with leaseBy := none, leaseEnd := 0 } })
    else (.ok, { s with lgr := { s.lgr with leaseBy := some w, leaseEnd := s.m.now + seconds * tickS } })

/-- The head of an SPI LEDGER transaction, as check units name it: `CMD`, `ADDR`, low byte of `LEN` (R515). -/
def ledgerHead (code : Nat) (host : List Byte) : Nat := place 0 8 0x07 + place 8 16 code + place 24 8 host.length

/-- The check of a wired command as received (R383, R492): over I²C the CRC-16 of the command byte, the argument and the data; over SPI the
`DCHK` of the host data. -/
def wiredGood (w : Wired) (code : Nat) (host : List Byte) (check : BitVec 16) : Bool :=
  match w with
  | .i2c => CrcKind.ccitt.of (byte code :: host) == check.toNat
  | .spi => (spiCheck host).toNat == check.toNat

/-- A wired ledger command arrives (R383, R488, R492): `host` is the argument with the data. A frame that fails its check ends
`FRAME`; a good one goes on to `f`. The I²C port answers whenever the always-on island is up, in DORMANT and WATCH too (R31; log 40). -/
def wiredCmd (s : State) (w : Wired) (code : Nat) (host : List Byte) (good write : Bool) (f : State → State) : State :=
  let frame (s : State) : State :=
    let s := if write then { s with m := writeRefused s.m (if w = .i2c then 3 else 4) LStatus.frame.code } else s
    { s with m := wiredAnswer s.m w (ledgerHead code host) .frame [] }
  match w with
  | .i2c =>
    if !s.m.pw.aoUp then s
    else if good then f s
    else frame { s with m := countAo s.m 0x70D0 0x0B }
  | .spi =>
    if !spiUp s.m then s
    else
      let s := spiBegin s
      if loaderWaits s.m then { s with m := spiRefuse s.m }
      else
        let s := { s with m := cuSpi (count s.m 0x7000 0x01) false host (ledgerHead code host) }
        if good then f s else frame { s with m := count (modSpi s.m fun p => { p with prevCrc := true }) 0x7000 0x03 }

def wiredPort : Wired → LPort
  | .i2c => .i2c
  | .spi => .main

/-- A wired read is served at once, or waits for the write that holds the ledger (R366, R367, R369). -/
def wiredRead (w : Wired) (code arg : Nat) (s : State) : State :=
  if s.lgr.held then lRequest s { port := wiredPort w, op := .read code arg, reply := 4 } else lRead s w code arg

/-- READ_AUDIT (R383): slot 1 is the newest. -/
def execLedgerReadAudit (w : Wired) (slot : BitVec 16) (check : BitVec 16) (s : State) : Out :=
  let host := leBytes 2 slot.toNat
  .next (wiredCmd s w 1 host (wiredGood w 1 host check) false (wiredRead w 1 slot.toNat))

/-- READ_SETTING (R383): the 24 bytes of a record of the current bank. -/
def execLedgerReadSetting (w : Wired) (record : BitVec 16) (check : BitVec 16) (s : State) : Out :=
  let host := leBytes 2 record.toNat
  .next (wiredCmd s w 2 host (wiredGood w 2 host check) false (wiredRead w 2 record.toNat))

/-- APPEND_AUDIT (R362, R383): the data are the high half of the stamp word, `TYPE`, `TAG` and 42 bytes. -/
def execLedgerAppendAudit (w : Wired) (stampLo : BitVec 16) (data : List Byte) (check : BitVec 16) (s : State) : Out :=
  let host := leBytes 2 stampLo.toNat ++ data
  let hi := stampLo.toNat + 65536 * leNat (data.take 2)
  let type := (nth data 2 0).toNat
  let a : LAccess :=
    { port := wiredPort w, reply := 4,
      op := .append (auditBody type (if w = .i2c then 3 else 4) (leNat ((data.drop 3).take 4)) hi (data.drop 7)) }
  .next (wiredCmd s w 3 host (wiredGood w 3 host check && data.length == 49) true fun s => if type < 0x20 then lRefuse s a .range else lRequest s a)

/-- WRITE_SETTING (R383): records 12–15, 20 bytes. -/
def execLedgerWriteSetting (w : Wired) (record : BitVec 16) (data : List Byte) (check : BitVec 16) (s : State) : Out :=
  let host := leBytes 2 record.toNat ++ data
  let a : LAccess := { port := wiredPort w, reply := 4, op := .setting record.toNat data }
  .next (wiredCmd s w 4 host (wiredGood w 4 host check && data.length == 20) true fun s =>
    if record.toNat < 12 || 15 < record.toNat then lRefuse s a .range else lRequest s a)

/-- STATUS (R383): EF.STATUS. -/
def execLedgerStatus (w : Wired) (check : BitVec 16) (s : State) : Out :=
  let host := leBytes 2 0
  .next (wiredCmd s w 5 host (wiredGood w 5 host check) false (wiredRead w 5 0))

/-- LEASE (R370, R383). -/
def execLedgerLease (w : Wired) (seconds : BitVec 16) (check : BitVec 16) (s : State) : Out :=
  let host := leBytes 2 seconds.toNat
  .next (wiredCmd s w 6 host (wiredGood w 6 host check) false fun s => let r := setLease s w seconds.toNat; { r.2 with m := wiredAnswer r.2.m w (ledgerHead 6 host) r.1 [] })

/-- A lease ends at its expiry (R370). -/
def execLeaseExpiry (s : State) : Out := .next { s with lgr := { s.lgr with leaseBy := none, leaseEnd := 0 } }

/-- The arbiter gives the ledger to a waiting access (R366, R367): one at a time, but a field access takes it from a wired
settings write at that write's next step boundary. -/
def execLedgerAccessStart (s : State) : Out :=
  match lNext s.lgr with
  | none => .next s
  | some a =>
    let rest := dropFirst (· == a) s.lgr.waiting
    match s.lgr.running with
    | none => .next (lStart { s with lgr := { s.lgr with waiting := rest } } a)
    | some r =>
      if a.port == .field && r.port != .field && r.isSetting then
        .next (lStart { s with lgr := { s.lgr with waiting := r :: rest, running := none } } a)
      else .next s

/-- A write finishes (R373). -/
def execLedgerWriteComplete (s : State) : Out := .next (finishRunning s)

/-- A wired access that still waits after 3 ms ends `BUSY` without effect (R369). One that has begun its shadow step completes. -/
def execWiredAccessTimeout (w : Wired) (s : State) : Out :=
  match s.lgr.waiting.find? fun a => a.port == wiredPort w && !a.started with
  | none => .next s
  | some a =>
    let s := { s with lgr := { s.lgr with waiting := dropFirst (· == a) s.lgr.waiting } }
    .next (lRefuse { s with m := countAo s.m 0x70D0 0x06 } a .busy)

end Sys2Proof.Machine
end

