-- ==== Sys2Proof/Machine/TargetIso.lean ====
section
/-!
DEFINITION. Machine/TargetIso.lean: the target as an ISO/IEC 14443-A card (R376), the APDUs of the ledger application (R377, R378),
authentication (R380) and the release (R379).
-/

namespace Sys2Proof.Machine

/-- Whether an ISO/IEC 14443-A frame reaches the card (R354, R355). -/
def isoHears (m : Main) : Bool := tgtCarries m && m.tgt.session == .iso

/-- A command the card's state does not take: it falls back to IDLE, or to HALT when it came from there (ISO/IEC 14443-3; log 26). -/
def isoFall (m : Main) : Main :=
  match m.tgt.iso.st with
  | 1 | 2 => modIso m fun i => { i with st := 0 }
  | 4 | 5 => modIso m fun i => { i with st := 3 }
  | _ => m

/-- REQA or WUPA. The first valid one opens the session (R355); a card in HALT answers WUPA only (R376). -/
def isoPoll (m : Main) (wake : Bool) : Main :=
  if !tgtCarries m || !tgtEnabled m 0 || m.tgt.session == .stp then m
  else
    let m := if m.tgt.session == .none then beginSession m .iso else m
    match m.tgt.iso.st with
    | 0 => tgtSend (modIso m fun i => { i with st := 1 }) [0x04, 0x00]
    | 3 => if wake then tgtSend (modIso m fun i => { i with st := 4 }) [0x04, 0x00] else m
    | _ => isoFall m

def execTgtIsoReqa (s : State) : Out := onMain (fun m => isoPoll m false) s

def execTgtIsoWupa (s : State) : Out := onMain (fun m => isoPoll m true) s

/-- Anticollision: the card whose first UID bits match answers with the rest and the check byte (R376; log 26). -/
def execTgtIsoAnticollision (nvb : BitVec 8) (bits : BitVec 32) (s : State) : Out := onMain (fun m =>
  if !isoHears m then m
  else if m.tgt.iso.st = 1 || m.tgt.iso.st = 4 then
    let n := (nvb.toNat / 16 - 2) * 8 + nvb.toNat % 16
    let uid := m.tgt.iso.uid.toNat
    let ub := leBytes 4 uid
    let all := uid + 2 ^ 32 * (ub.foldl (fun a b => a ^^^ b.toNat) 0)
    if n < 32 && uid % 2 ^ n = bits.toNat % 2 ^ n then tgtSend m (leBytes ((40 - n + 7) / 8) (all / 2 ^ n)) else isoFall m
  else isoFall m) s

/-- SELECT of the UID: SAK 0x20 (R376). -/
def execTgtIsoSelectL3 (uid : BitVec 32) (s : State) : Out := onMain (fun m =>
  if !isoHears m then m
  else if uid = m.tgt.iso.uid && m.tgt.iso.st = 1 then sendA (modIso m fun i => { i with st := 2 }) [0x20]
  else if uid = m.tgt.iso.uid && m.tgt.iso.st = 4 then sendA (modIso m fun i => { i with st := 5 }) [0x20]
  else isoFall m) s

/-- HLTA, which is not answered (R376). -/
def execTgtIsoHlta (s : State) : Out := onMain (fun m =>
  if !isoHears m then m
  else if m.tgt.iso.st = 2 || m.tgt.iso.st = 5 then modIso m fun i => { i with st := 3 }
  else isoFall m) s

/-- Frame sizes of ISO/IEC 14443-4. -/
def isoFsd (code : Nat) : Nat := nth [16, 24, 32, 40, 48, 64, 96, 128, 256] code 256

/-- RATS: the ATS of R376. -/
def execTgtIsoRats (param : Byte) (s : State) : Out := onMain (fun m =>
  if !isoHears m then m
  else if m.tgt.iso.st = 2 || m.tgt.iso.st = 5 then
    let ats : List Byte := [0x05, 0x78, 0x33, 0x40, 0x00]
    sendA (modIso m fun i =>
      { i with st := 6, blockNo := true, rateRx := 0, rateTx := 0, fsd := isoFsd (param.toNat / 16), chain := [], lastResp := ats }) ats
  else isoFall m) s

/-- PPS, as the first block after RATS: rates 106, 212 and 424 kbit/s in each direction (R376). -/
def execTgtIsoPps (pps0 pps1 : Byte) (s : State) : Out := onMain (fun m =>
  let dri := field pps1.toNat 0 2
  let dsi := field pps1.toNat 2 2
  if !isoHears m || m.tgt.iso.st != 6 then m
  else if !bitAt pps0.toNat 4 then sendA (modIso m fun i => { i with st := 7 }) [0xD0]
  else if dri = 3 || dsi = 3 then m
  else sendA (modIso m fun i => { i with st := 7, rateRx := dri, rateTx := dsi }) [0xD0]) s

/-- S(DESELECT): answered in kind; the card halts (R376). -/
def execTgtIsoDeselect (s : State) : Out := onMain (fun m =>
  if !isoHears m || m.tgt.iso.st < 6 then m
  else sendA (modIso m fun i => { i with st := 3, selected := false, chain := [], rateRx := 0, rateTx := 0 }) [0xC2]) s

/-- An R-block: the last block again, the next of a chain, or an acknowledgement (R376; ISO/IEC 14443-4). -/
def execTgtIsoRBlock (nak blockNo : Bool) (s : State) : Out := onMain (fun m =>
  let i := m.tgt.iso
  if !isoHears m || i.st < 6 then m
  else if blockNo == i.blockNo then sendA m i.lastResp
  else if nak then sendA (modIso m fun i => { i with st := 7 }) [byte (0xA2 + bitN i.blockNo)]
  else if i.chain.isEmpty then m
  else isoBlock (modIso m fun i => { i with blockNo := !i.blockNo }) i.chain) s

/-- Whether an APDU reaches the application sequencer: blocks are exchanged and no earlier command still waits. -/
def apduHears (s : State) : Bool :=
  isoHears s.m && decide (6 ≤ s.m.tgt.iso.st) && !s.m.tgt.releaseWait &&
  !(s.lgr.waiting.any fun a => a.port == .field) && (s.lgr.running.map (·.port)) != some .field

/-- A further command ends a pending INTERNAL AUTHENTICATE (R245). -/
def dropPending (m : Main) : Main := modAuth m fun a => { a with pending := none }

def apduEnd (s : State) (data : List Byte) (sw : Nat) : State := { s with m := apduReply s.m data sw }

/-- A command of the selected application: 0x6A82 without it, 0x6A86 with bad P1 or P2 (R378). -/
def apdu (s : State) (pOk : Bool) (f : State → State) : State :=
  if !apduHears s then s
  else if !s.m.tgt.iso.selected then apduEnd { s with m := dropPending s.m } [] 0x6A82
  else if !pOk then apduEnd { s with m := dropPending s.m } [] 0x6A86
  else f (fieldFirst s)

/-- The AID of the ledger application (R377). -/
def ledgerAid : List Byte := [0xF0, 0x4B, 0x4C, 0x44, 0x01]

/-- SELECT ends authentication (R378, R380). An unknown AID leaves no application selected (log 26). -/
def execTgtApduSelect (p1 p2 : Byte) (aid : List Byte) (s : State) : Out := .next (
  if !apduHears s then s
  else if p1 != 0x04 || p2 != 0x0C then apduEnd { s with m := dropPending s.m } [] 0x6A86
  else
    let ok := aid == ledgerAid
    let m := modIso (modAuth s.m fun a => { lockout := a.lockout }) fun i => { i with selected := ok }
    apduEnd { s with m := m } [] (if ok then 0x9000 else 0x6A82))

/-- READ BINARY of EF.ID or EF.STATUS (R377, R378): from the offset, `le` bytes or to the end of the file (log 26). -/
def execTgtReadBinary (p1 p2 : Byte) (le : Nat) (s : State) : Out :=
  let sfi := p1.toNat - 0x80
  let size := if sfi = 1 then 32 else 16
  .next (apdu s ((p1 == 0x81 || p1 == 0x82) && decide (p2.toNat < size)) fun s =>
    let s := { s with m := dropPending s.m }
    let f := if sfi = 1 then (efId, s) else efStatus s
    apduEnd f.2 ((f.1.drop p2.toNat).take le) 0x9000)

/-- READ RECORD of EF.AUDIT or EF.SETTINGS (R377, R378). -/
def execTgtReadRecord (p1 p2 : Byte) (s : State) : Out :=
  .next (apdu s (p2 == 0x1C || p2 == 0x24) fun s =>
    let s := { s with m := dropPending s.m }
    let audit := p2 == 0x1C
    let r := if !(s.m.tgt.auth.key0 || (audit && cfgB s.m 0x6000 0x03)) then (LStatus.access, [])
      else if audit then auditRead s p1.toNat
      else if p1 = 0 then (.range, []) else settingRead s (p1.toNat - 1) false
    apduEnd s r.2 r.1.sw)

/-- A write command of the application that fails before the arbiter: answer and event (R371, R384). -/
def apduRefuse (s : State) (st : LStatus) : State := apduEnd { s with m := writeRefused s.m 1 st.code } [] st.sw

/-- APPEND RECORD (R377, R378): the record goes to the arbiter. -/
def execTgtAppendRecord (p1 p2 : Byte) (data : List Byte) (s : State) : Out :=
  .next (apdu s (p1 == 0x00 && p2 == 0x18) fun s =>
    let s := { s with m := dropPending s.m }
    if data.length < 5 || 47 < data.length then apduRefuse s .frame
    else if !s.m.tgt.auth.key0 then apduRefuse s .access
    else if (nth data 0 0).toNat < 0x20 then apduRefuse s .range
    else
      lRequest s { port := .field, reply := 1, op := .append (auditBody (nth data 0 0).toNat 1 (leNat ((data.drop 1).take 4)) 0 (data.drop 5)) })

/-- UPDATE RECORD of records 13–16 (R377, R378): host records 12–15 go to the arbiter. -/
def execTgtUpdateRecord (p1 p2 : Byte) (data : List Byte) (s : State) : Out :=
  .next (apdu s (decide (13 ≤ p1.toNat) && decide (p1.toNat ≤ 16) && p2 == 0x24) fun s =>
    let s := { s with m := dropPending s.m }
    if data.length != 20 then apduRefuse s .frame
    else if !s.m.tgt.auth.key0 || !cfgB s.m 0x6000 0x04 then apduRefuse s .access
    else lRequest s { port := .field, reply := 2, op := .setting (p1.toNat - 1) data })

/-- INTERNAL AUTHENTICATE (R380): `C1`, or 0x6983 for 100 ms after a failure. -/
def execTgtInternalAuth (p1 p2 : Byte) (ra : List Byte) (s : State) : Out :=
  .next (apdu s (p1 == 0x00 && decide (p2.toNat ≤ 1)) fun s =>
    let s := { s with m := dropPending s.m }
    if ra.length != 8 then apduEnd s [] 0x6700
    else if s.m.tgt.auth.lockout then apduEnd s [] 0x6983
    else let r := tgtChallenge s p2.toNat ra; apduEnd r.2 r.1 0x9000)

/-- EXTERNAL AUTHENTICATE (R380): the record is committed before the answer. -/
def execTgtExternalAuth (p1 p2 : Byte) (c2 : List Byte) (s : State) : Out :=
  .next (apdu s (p1 == 0x00 && decide (p2.toNat ≤ 1)) fun s =>
    if c2.length != 16 then apduEnd { s with m := dropPending s.m } [] 0x6700
    else
      let r := tgtVerify s p2.toNat c2
      apduEnd r.2 [] (match r.1 with | .opened => 0x9000 | .failed => 0x6300 | .noEnergy => 0x6402))

/-- A release is refused: its event (R384), and the answer. -/
def releaseRefuse (s : State) (st : LStatus) (seq : Nat) : State :=
  apduEnd { s with m := tgtEvent s.m false 6 1 st.code 1 seq } [] st.sw

/-- RELEASE (R379): the record is appended and the wait for V_HARV begins. -/
def execTgtRelease (p1 p2 : Byte) (s : State) : Out :=
  .next (apdu s (p1 == 0x00 && p2 == 0x00) fun s =>
    let s := { s with m := dropPending s.m }
    if !s.m.tgt.auth.key1 || !releaseAllowed s.m then releaseRefuse s .access 0
    else if leaseHeld s then releaseRefuse { s with m := countAo s.m 0x70D0 0x04 } .busy 0
    else
      let r := ownRecord s 3 (ownData s.m 1)
      match r.1 with
      | some _ => { r.2 with m := modTgt r.2.m fun t => { t with releaseWait := true } }
      | none => releaseRefuse r.2 .lowEnergy 0)

/-- P1 and P2 of each command of R378. -/
def apduParams (cla ins p1 p2 : Byte) : Bool :=
  let v := cla.toNat * 256 + ins.toNat
  if v = 0x00A4 then p1 == 0x04 && p2 == 0x0C
  else if v = 0x00B0 then p1 == 0x81 || p1 == 0x82
  else if v = 0x00B2 then p2 == 0x1C || p2 == 0x24
  else if v = 0x00E2 then p1 == 0x00 && p2 == 0x18
  else if v = 0x00DC then decide (13 ≤ p1.toNat) && decide (p1.toNat ≤ 16) && p2 == 0x24
  else if v = 0x0088 || v = 0x0082 then p1 == 0x00 && decide (p2.toNat ≤ 1)
  else p1 == 0x00 && p2 == 0x00

/-- The instructions of the two classes (R378). -/
def apduKnown (cla ins : Byte) : Bool :=
  [0x00A4, 0x00B0, 0x00B2, 0x00E2, 0x00DC, 0x0088, 0x0082, 0x8010].contains (cla.toNat * 256 + ins.toNat)

/-- An unknown CLA, INS, P1 or P2 (R378). An APDU that the table has in full is one of the other commands, and changes nothing here
(log 3). -/
def execTgtApduUnknown (cla ins p1 p2 : Byte) (s : State) : Out := .next (
  if !apduHears s then s
  else
    let t := { s with m := dropPending s.m }
    if cla != 0x00 && cla != 0x80 then apduEnd t [] 0x6E00
    else if !apduKnown cla ins then apduEnd t [] 0x6D00
    else if ins != 0xA4 && !s.m.tgt.iso.selected then apduEnd t [] 0x6A82
    else if !apduParams cla ins p1 p2 then apduEnd t [] 0x6A86
    else s)

/-- The newest RELEASE record of the DX8128 (R362, R379). -/
def newestRelease (l : Ledger) : Option (Nat × List Byte) :=
  l.ring.toList.foldl (fun acc x =>
    match x with
    | .record q b => if bodyType b = 3 && bodyOrigin b = 0 && decide (((acc.map (·.1)).getD 0) < q) then some (q, b) else acc
    | _ => acc) none

/-- V_HARV has reached [6000:07]: `RELEASE_N` goes low and the answer is sent (R379). -/
def execReleaseVoltageReached (s : State) : Out := .next (
  if !s.m.tgt.releaseWait then s
  else
    let m := senseHarv s.m
    let m := modTgt m fun t => { t with vHarv := max t.vHarv (cfgN m 0x6000 0x07), releaseWait := false, releaseLow := true }
    let m := countAo m 0x70D0 0x08
    apduEnd { s with m := tgtEvent m false 5 1 0 1 (((newestRelease s.lgr).map (·.1)).getD 0) } [] 0x9000)

/-- The voltage was not reached within 1 s: byte 29 of the RELEASE record is set, and `RELEASE_N` stays high (R379). -/
def execReleaseWaitTimeout (s : State) : Out := .next (
  if !s.m.tgt.releaseWait then s
  else
    let s := { s with m := modTgt s.m fun t => { t with releaseWait := false } }
    match newestRelease s.lgr with
    | some (q, b) =>
      let l := { s.lgr with ring := updV s.lgr.ring (slotOf q) fun _ => .record q (b.set 25 0x01) }
      releaseRefuse { s with lgr := l } .lowEnergy q
    | none => releaseRefuse s .lowEnergy 0)

/-- [6000:06] has elapsed: `RELEASE_N` goes high (R379). -/
def execReleasePulseEnd (s : State) : Out := onMain (fun m => modTgt m fun t => { t with releaseLow := false }) s

/-- 100 ms after a failed authentication (R247, R380). -/
def execTargetAuthLockoutEnd (s : State) : Out := onMain (fun m => modAuth m fun a => { a with lockout := false }) s

end Sys2Proof.Machine
end

