-- ==== Sys2Proof/Machine/TargetStp.lean ====
section
/-!
DEFINITION. Machine/TargetStp.lean: the target as an STP fob (R381, R382): binding (R211), states (R230), commands (R223–R228, R237,
R239–R241), authentication (R245).
-/

namespace Sys2Proof

open Sys2Proof.Machine

/-- The forward rate that the first modulated interval of a frame tells (R198). -/
def rxRate (first : Nat) : Option Nat :=
  if 160 ≤ first && first ≤ 288 then some 1 else if 320 ≤ first && first ≤ 544 then some 0 else none

/-- Duration of a forward frame at a rate, in 1/fc (R198). -/
def StpRx.span (f : StpRx) (rate : Nat) : Nat := (3 + 8 * f.bytes.length + f.rest) * bitFc rate

/-- Whether a frame that is heard is valid: whole bytes, 4 to 40 of them, and its check (R202). -/
def StpRx.valid (f : StpRx) : Bool :=
  let n := f.bytes.length
  f.rest == 0 && decide (4 ≤ n) && decide (n ≤ 40) && f.bytes.drop (n - 2) == stpCrc (f.bytes.take (n - 2))

/-- `CMD` with its reserved bits (R201). -/
def StpRx.cmd (f : StpRx) : Nat := (nth f.bytes 1 0).toNat

/-- Byte, half word and the like of a frame, counted from `PORT_TAG` (R227). -/
def StpRx.byte_ (f : StpRx) (i : Nat) : Byte := nth f.bytes i 0
def StpRx.part (f : StpRx) (i n : Nat) : List Byte := (f.bytes.drop i).take n
def StpRx.handle (f : StpRx) : BitVec 16 := BitVec.ofNat 16 (leNat (f.part 2 2))

def StpRx.head (f : StpRx) : StpHead :=
  { tag := BitVec.ofNat 7 (nth f.bytes 0 0).toNat, claim := bitAt (nth f.bytes 0 0).toNat 7, level := f.level }

/-- The length of the frame of a command (R223); RELEASE by its `SCOPE`. `none`: no such command. -/
def StpRx.lengthOf (f : StpRx) : Option Nat :=
  match f.cmd with
  | 0x01 => some 5
  | 0x02 => some 4
  | 0x03 => some 6
  | 0x04 => some 7
  | 0x05 => some 8
  | 0x06 => some 27
  | 0x07 => some 12
  | 0x08 => some 6
  | 0x09 => some (match (nth f.bytes 2 0).toNat with | 0 => 7 | 1 => 13 | _ => 5)
  | 0x0A => some 15
  | 0x0B => some 22
  | _ => none

/-- A frame of one command, at its length (R223, R225). -/
def StpRx.is (f : StpRx) (code : Nat) : Bool := f.cmd == code && f.lengthOf == some f.bytes.length

/-- The handle that addresses a frame, as far as the frame holds one (R223, R227). -/
def StpRx.addressed (f : StpRx) : Option (BitVec 16) :=
  let at_ (i : Nat) : Option (BitVec 16) := if i + 4 ≤ f.bytes.length then some (BitVec.ofNat 16 (leNat (f.part i 2))) else none
  if f.cmd = 1 || f.cmd = 2 then none
  else if f.cmd = 9 then (if f.byte_ 2 = 0 then at_ 3 else none)
  else at_ 2

end Sys2Proof

namespace Sys2Proof.Machine

/-- `LINKCAPS` 0xF7 and `CAPS` 0x01 of the target (R381). -/
def tgtLinkcaps : Nat := 0xF7
def tgtCaps : Nat := 0x01

/-- A handle is dropped with what hangs on it (R230, R241, R247): shadow, token, AUTH1, OPEN. -/
def stpDrop (m : Main) : Main :=
  modAuth (modStp m fun t => { t with handle := none, former := none, counter := 0, shadow := none, lastTok := none }) fun a =>
    { lockout := a.lockout }

/-- The default link of a port tag (R213). -/
def stpLink (m : Main) (tag : Nat) : Main := modStp m fun t => { t with rate := 0, sub8 := bitAt tag 3 }

/-- Whether a level that is `d` above the stored one (0.1 dB) reaches a threshold that is compared to ±1 dB (R211). -/
def levelReaches (m : Main) (d thr : Int) : Bool × Main :=
  if thr + 10 ≤ d then (true, m)
  else if d < thr - 10 then (false, m)
  else let x := draw m; (x.1.toNat % 2 = 1, x.2)

/-- The binding rules for a valid frame (R211): `none` when the frame is not taken, else its `BIND`. -/
def stpBind (m : Main) (h : StpHead) (claims : Bool) : Option Nat × Main :=
  let tag := h.tag.toNat
  let bind (m : Main) := modStp m fun t => { t with bound := some (tag, h.level) }
  match m.tgt.stp.bound with
  | none => (some 1, bind (stpLink m tag))
  | some (t, l) =>
    if t = tag then (some 0, bind m)
    else
      let up := levelReaches m (h.level - l) 60
      let cl := if !up.1 && claims && h.claim then levelReaches up.2 (h.level - l) (-60) else (false, up.2)
      if up.1 || cl.1 then
        let m := stpLink (stpDrop (bind cl.2)) tag
        (some (if up.1 then 2 else 3), modStp m fun t => { t with quiet := false, tagState := 0 })
      else (none, cl.2)

/-- Whether the forward link is heard at a depth in 0.1 % (R202, R220): from 12 % on it is, below 6 % it is not, and between the two a fob
may respond in any way. -/
def depthHeard (m : Main) (d : Nat) : Bool × Main :=
  if 120 ≤ d then (true, m) else if d < 60 then (false, m) else let x := draw m; (x.1.toNat % 2 = 1, x.2)

/-- A frame that starts before the reply has started makes the fob abandon it, whether it is valid or not; one that starts during the reply
or within 256/fc after it is not decoded (R207, R209). Whether the frame is decoded. -/
def replyGives (m : Main) (start : Nat) : Bool × Main :=
  match m.tgt.stp.reply with
  | none => (true, m)
  | some (a, b) =>
    if start < a then (true, modStp (tgtSend m []) fun t => { t with reply := none })
    else (decide (b + fcTicks 256 ≤ start), m)

/-- An STP frame at the target: heard and decoded, and, when it is valid and `mine`, given to the binding rules; the first valid frame opens
the session, and a frame that is taken goes on with its `BIND` (R198, R202, R207, R211, R354, R355). -/
def tgtFrame (s : State) (f : StpRx) (mine : Bool) (claims : Bool) (go : Nat → State → State) : State :=
  let d := depthHeard s.m f.depth
  if !tgtCarries s.m || !tgtEnabled s.m 1 || s.m.tgt.session == .iso || s.m.tgt.releaseWait || !d.1 || !(mine || !f.valid) then s
  else match rxRate f.first with
    | none => { s with m := d.2 }
    | some rate =>
      let r := replyGives d.2 (s.m.now - fcTicks (f.span rate))
      if !r.1 || !f.valid then { s with m := r.2 }
      else
        let m := if r.2.tgt.session == .none then beginSession r.2 .stp else r.2
        let b := stpBind m f.head claims
        match b.1 with
        | none => { s with m := b.2 }
        | some n => go n <| fieldFirst { s with m := modStp b.2 fun t => { t with heardAt := s.m.now, reply := none } }

def stpEnd (s : State) (rcode bind : Nat) (body : List Byte) : State := { s with m := stpReply s.m rcode bind body }

/-- Whether a command addressed by a handle is the target's, in one of the states given (R224, R230). -/
def stpOwn (s : State) (handle : BitVec 16) (states : List Nat) : Bool :=
  s.m.tgt.stp.handle == some handle && states.contains s.m.tgt.stp.tagState

/-- A command executed ends a pending AUTH1 (R245). -/
def stpClear (s : State) : State := { s with m := dropPending s.m }

/-- A new handle: never 0xFFFF (R232). -/
def drawHandle (m : Main) : BitVec 16 × Main :=
  let d := draw m
  (BitVec.ofNat 16 (d.1.toNat % 65535), d.2)

/-- The target takes its SEEK slot: a new handle is drawn and sent (R228, R230). -/
def stpSlot (s : State) (bind : Nat) : State :=
  let d := drawHandle s.m
  stpEnd { s with m := modStp d.2 fun t => { t with tagState := 2, handle := some d.1, former := none } } 0 bind (leBytes 2 d.1.toNat)

/-- SEEK (R227, R230, R231): `SMODE` 0 starts a round, 1 is the next slot. Reserved values are not executed (R202). -/
def execTgtStpSeek (f : StpRx) (s : State) : Out :=
  let param := f.byte_ 2
  let q := param.toNat % 16
  let smode := field param.toNat 4 2
  let skip := bitAt param.toNat 6
  .next (tgtFrame s f (f.is 0x01) true fun bind s =>
    let t := s.m.tgt.stp
    if bitAt param.toNat 7 || 8 < q || 1 < smode || t.tagState = 5 then s
    else if smode = 0 then
      if skip && t.seen then s
      else
        let d := draw (stpDrop s.m)
        let c := d.1.toNat % 2 ^ q
        let s := { s with m := modStp d.2 fun t => { t with seen := t.seen && skip, tagState := 1, counter := c } }
        if c = 0 then stpSlot s bind else s
    else if t.tagState = 1 && t.counter != 0 then
      let s := { s with m := modStp s.m fun t => { t with counter := t.counter - 1 } }
      if t.counter = 1 then stpSlot s bind else s
    else if t.tagState = 2 then { s with m := modStp (stpDrop s.m) fun t => { t with tagState := 1 } }
    else s)

/-- SINGLE (R228, R230). -/
def execTgtStpSingle (f : StpRx) (s : State) : Out :=
  .next (tgtFrame s f (f.is 0x02) true fun bind s =>
    if s.m.tgt.stp.tagState = 5 then s
    else
      let d := drawHandle (stpDrop s.m)
      let m := modStp d.2 fun t => { t with tagState := 3, handle := some d.1, seen := true }
      stpEnd { s with m := m } 0 bind (leBytes 8 Config.targetUid.toNat ++ leBytes 2 d.1.toNat ++ [byte tgtLinkcaps]))

/-- The margin (R382): 254 while VAO supplies the island, else from V_HARV. -/
def tgtMargin (s : State) : Nat × State :=
  if s.m.pw.onHarvest then
    let m := senseHarv s.m
    (min 254 ((m.tgt.vHarv - 2050) / 50), { s with m := m })
  else (254, s)

/-- SELECT (R228, R230). -/
def execTgtStpSelect (f : StpRx) (s : State) : Out :=
  .next (tgtFrame s f (f.is 0x03) false fun bind s =>
    if !stpOwn s f.handle [2, 3, 4] then s
    else
      let s := stpClear s
      let s := if s.m.tgt.stp.tagState = 2 then { s with m := modStp s.m fun t => { t with tagState := 3, seen := true } } else s
      let g := tgtMargin s
      stpEnd g.2 0 bind (leBytes 8 Config.targetUid.toNat ++
        [byte tgtLinkcaps, byte (tgtCaps + place 1 1 (bitN (s.m.tgt.stp.tagState == 4))), byte g.1]))

/-- SET_LINK (R214, R216): addressed, or broadcast with 0xFFFF, which is not answered. -/
def execTgtStpSetLink (f : StpRx) (s : State) : Out :=
  let handle := f.handle
  let link := f.byte_ 4
  let rate := link.toNat % 4
  let take (s : State) : State := { s with m := modStp s.m fun t => { t with rate := rate, sub8 := bitAt link.toNat 2 } }
  .next (tgtFrame s f (f.is 0x04) false fun bind s =>
    if 8 ≤ link.toNat then s
    else if handle = 0xFFFF then (if rate < 3 then take (stpClear s) else s)
    else if !stpOwn s handle [3, 4] then s
    else if rate < 3 then stpEnd (take (stpClear s)) 0 bind [] else stpEnd (stpClear s) 6 bind [])

/-- The protection code of a record of the target (R381). -/
def tgtCode (m : Main) (n : Nat) : Nat := if n = 8 then 1 else if n < 16 then 3 else if cfgB m 0x6000 0x03 then 3 else 2

/-- The contents of a record (R235, R236, R381); `none` when a ring slot holds no valid record. A slot never written reads as
zero, as shipped (log 26). `status` is EF.STATUS. -/
def tgtRecord (s : State) (status : List Byte) (n : Nat) : Option (List Byte) :=
  if n = 0 then some (leBytes 8 Config.targetUid.toNat ++ [byte tgtLinkcaps, byte tgtCaps, 0x01, 0x00, 0x01, 0x03, 0, 0])
  else if n = 1 then some (leBytes 16 (((List.range 64).map fun i => tgtCode s.m i * 4 ^ i).sum))
  else if n = 2 then some status
  else if n < 16 then some (List.replicate 16 0)
  else
    let i := (n - 16) / 4
    if s.lgr.head ≤ i then some (List.replicate 16 0)
    else (s.lgr.at_ (s.lgr.head - i)).map fun b => ((auditBytes (s.lgr.head - i) b).drop (16 * ((n - 16) % 4))).take 16

/-- READ (R227, R237, R238). -/
def execTgtStpRead (f : StpRx) (s : State) : Out :=
  .next (tgtFrame s f (f.is 0x05) false fun bind s =>
    if !stpOwn s f.handle [3, 4] then s
    else
      let s := stpClear s
      let first := (f.byte_ 4).toNat
      let n := (f.byte_ 5).toNat
      let recs := (List.range n).map (first + ·)
      if n = 0 || 16 < n || 64 < first + n then stpEnd s 2 bind []
      else if s.m.tgt.stp.tagState != 4 && recs.any fun r => tgtCode s.m r == 2 then stpEnd s 3 bind []
      else
        let st := if recs.contains 2 then efStatus s else ([], s)
        let data := recs.map (tgtRecord s st.1)
        if data.any (·.isNone) then stpEnd st.2 8 bind [] else stpEnd st.2 0 bind ((data.map (·.getD [])).flatten))

/-- Whether the UID in a command is the target's (R224). -/
def uidLow (bs : List Byte) : Bool := leNat bs == Config.targetUid.toNat % 2 ^ 32

/-- ARM (R239, R382): record 8 only, in OPEN. The last committed token is lost at every ARM, one that is refused included (R241). -/
def execTgtStpArm (f : StpRx) (s : State) : Out :=
  .next (tgtFrame s f (f.is 0x06) false fun bind s =>
    if !stpOwn s f.handle [3, 4] || !uidLow (f.part 4 4) then s
    else
      let s := stpClear { s with m := modStp s.m fun t => { t with lastTok := none } }
      if f.byte_ 8 != 8 then stpEnd s 2 bind []
      else if s.m.tgt.stp.tagState != 4 then stpEnd s 3 bind []
      else
        let d := draw s.m
        let tok := d.1.setWidth 16
        let m := modStp d.2 fun t => { t with shadow := some (8, f.part 9 16, tok) }
        let g := tgtMargin { s with m := m }
        stpEnd g.2 0 bind (byte g.1 :: leBytes 2 tok.toNat))

/-- COMMIT (R239, R241, R382): a matching token sends the append to the arbiter, which answers. -/
def execTgtStpCommit (f : StpRx) (s : State) : Out :=
  let token := BitVec.ofNat 16 (leNat (f.part 8 2))
  .next (tgtFrame s f (f.is 0x07) false fun bind s =>
    if !stpOwn s f.handle [3, 4] || !uidLow (f.part 4 4) then s
    else
      let s := stpClear s
      match s.m.tgt.stp.shadow with
      | some (_, data, tok) =>
        let type := (nth data 0 0).toNat
        let a : LAccess := { port := .field, reply := 3, op := .append (auditBody type 2 (leNat ((data.drop 1).take 4)) 0 (data.drop 5)) }
        if tok != token then stpEnd s 5 bind []
        else if type < 0x20 then lRefuse s a .range
        else lRequest s a
      | none => if s.m.tgt.stp.lastTok = some token then stpEnd s 0 bind [8, 1, byte s.m.tgt.stp.lastGen] else stpEnd s 5 bind [])

/-- QUIET (R230): the former handle has the reply repeated. -/
def execTgtStpQuiet (f : StpRx) (s : State) : Out :=
  let handle := f.handle
  .next (tgtFrame s f (f.is 0x08) false fun bind s =>
    if stpOwn s handle [2, 3, 4] then
      let m := modStp (stpDrop s.m) fun t => { t with tagState := 5, quiet := true, former := some handle }
      stpEnd { s with m := m } 0 bind []
    else if s.m.tgt.stp.tagState = 5 && s.m.tgt.stp.former = some handle then stpEnd s 0 bind []
    else s)

/-- RELEASE by handle, by UID, or of every fob bound to the tag, which is not answered (R211, R230). -/
def execTgtStpRelease (f : StpRx) (s : State) : Out :=
  let scope := f.byte_ 2
  .next (tgtFrame s f (f.is 0x09) false fun bind s =>
    let mine := (scope == 0 && stpOwn s (BitVec.ofNat 16 (leNat (f.part 3 2))) [2, 3, 4]) ||
      (scope == 1 && leNat (f.part 3 8) == Config.targetUid.toNat) || scope == 2
    if !mine then s
    else
      let s := if scope = 2 then s else stpEnd s 0 bind []
      let m := stpLink (stpDrop s.m) f.head.tag.toNat
      { s with m := modStp m fun t => { t with bound := none, quiet := false, seen := false, tagState := 0 } })

/-- AUTH1 (R245, R247): keys 0 and 1 are present. A reserved bit is not executed (R202). -/
def execTgtStpAuth1 (f : StpRx) (s : State) : Out :=
  let key := f.byte_ 4
  .next (tgtFrame s f (f.is 0x0A) false fun bind s =>
    if 4 ≤ key.toNat || !stpOwn s f.handle [3, 4] then s
    else
      let s := stpClear s
      if s.m.tgt.auth.lockout then stpEnd s 9 bind []
      else if 2 ≤ key.toNat then stpEnd { s with m := modAuth s.m fun a => { a with lockout := true } } 7 bind []
      else let r := tgtChallenge s key.toNat (f.part 5 8); stpEnd r.2 0 bind r.1)

/-- AUTH2 (R245, R247, R380): OPEN on success, BOUND on failure. Access is not opened when the record cannot be written. -/
def execTgtStpAuth2 (f : StpRx) (s : State) : Out :=
  .next (tgtFrame s f (f.is 0x0B) false fun bind s =>
    if !stpOwn s f.handle [3, 4] then s
    else
      let key := (s.m.tgt.auth.pending.map (·.1)).getD 0xFF
      let r := tgtVerify s key (f.part 4 16)
      let to_ (n : Nat) : State := { r.2 with m := modStp r.2.m fun t => { t with tagState := n } }
      match r.1 with
      | .opened => stpEnd (to_ 4) 0 bind []
      | .failed => stpEnd (to_ 3) 7 bind []
      | .noEnergy => stpEnd (to_ 3) 4 bind [])

/-- A valid frame with an unknown `CMD` or a reserved bit beside it counts for binding only (R202); one whose length is not that of its
command is answered `BAD_FRAME` when it is addressed by the target's handle (R225). -/
def execTgtStpUnknownFrame (f : StpRx) (s : State) : Out :=
  let wrong := f.lengthOf != some f.bytes.length
  .next (tgtFrame s f wrong false fun bind s =>
    match f.lengthOf, f.addressed with
    | some _, some handle => if stpOwn s handle [2, 3, 4] then stpEnd (stpClear s) 1 bind [] else s
    | _, _ => s)

/-- No valid command of the bound port by 1700/fc: the handle is dropped, the former one forgotten (R209, R230). -/
def execTgtStpHandleDrop (s : State) : Out := onMain (fun m =>
  if m.tgt.session != .stp then m
  else if m.tgt.stp.handle.isSome then
    let m := stpLink (stpDrop m) ((m.tgt.stp.bound.map (·.1)).getD 0)
    modStp m fun t => { t with tagState := 0 }
  else modStp m fun t => { t with former := none }) s

end Sys2Proof.Machine
end

