-- ==== Sys2Proof/Machine/RadioOps.lean ====
section
/-!
DEFINITION. Machine/RadioOps.lean: what the radio computes: channels, times on air, sub-bands, hops and guards (R387, R396, R424,
R425, R428), the frames of the access layer and their protection (R415–R418), what it writes to its queues (R440), the hold
(R439), and link adaptation (R435, R436).
-/

namespace Sys2Proof.Machine

/-- A channel of the table (R387). -/
structure Chan where
  freq   : Nat
  en     : Bool
  wide   : Bool
  orders : Nat
  mgain  : Nat
  deriving DecidableEq, Repr

def chanOf (m : Main) (c : Nat) : Chan :=
  let e := m.rad.chans[finOf 64 c]
  let w := e.2.toNat
  ⟨e.1.toNat, bitAt w 0, bitAt w 1, field w 2 7, field w 10 6⟩

/-- Bandwidth in Hz. -/
def Chan.bw (c : Chan) : Nat := if c.wide then 400000 else 200000

/-- Whether the capture band takes a channel (R388). -/
def inBand (m : Main) (c : Chan) : Bool := decide (((c.freq : Int) - m.rad.fLO).natAbs + c.bw * 3 / 4 ≤ 1600000)

/-- Whether the radio is powered in full or for a window: main modes and WATCH, unless [4000:01] is 0 (R28, R441). -/
def radioOn (m : Main) : Bool := (m.pw.mode.isMain || m.pw.mode == .watch) && cfgB m 0x4000 0x01 && m.rad.unit != 1 && m.rad.unit != 4

/-- Whether the radio listens (R397, R409, R441): not while it sends; in WATCH in its windows only. -/
def radioListens (m : Main) : Bool :=
  radioOn m && !m.rad.tx.active &&
  (m.pw.mode.isMain || !m.rad.guard.isEmpty || decide (m.now < m.rad.listenUntil) || m.rad.ackWait.isSome || m.rad.satAwake)

/-- Whether a channel is hunted (R388, R397). -/
def hunted (m : Main) (ch : Nat) : Bool := let c := chanOf m ch; radioListens m && c.en && inBand m c

/-- Time on air in µs (R390, R396). -/
def airUs (wide : Bool) (n P L : Nat) : Nat := (P + 2 + 24 * radioBlocks n L) * 2 ^ n * 5 / (if wide then 2 else 1)

/-- A hop sequence step: the least integer at least max(1, id mod M) that is coprime to M (R425). -/
def hopStep (M id : Nat) : Nat :=
  ((List.range (M + 2)).map (· + max 1 (id % M))).find? (fun s => Nat.gcd s M == 1) |>.getD 1

/-- H[i] of R425. -/
def hopChan (m : Main) (i : Nat) : Nat :=
  let E := (List.range 64).filter fun c => (chanOf m c).en
  let M := E.length
  if M = 0 then 0 else nth E ((i % M) * hopStep M (cfgN m 0x4000 0x03) % M) 0

/-- The channel of partner n at rendezvous r, further frame j (R425). -/
def partnerChan (m : Main) (n : Fin 256) (r j : Nat) : Nat :=
  let p := m.pts[n]
  if m.rad.profile = 2 then hopChan m (n.val + r + j) else if p.wide && p.wideCh != 0xFF then p.wideCh else p.channel

/-- Satellite or hub (R414). -/
def isSat (m : Main) : Bool := cfgN m 0x4100 0x01 == 1

/-- [4100:02]; 0 stands for the low 4 bytes of the STP UID (R442). -/
def ownAddress (m : Main) : Nat :=
  let a := cfgN m 0x4100 0x02
  if a = 0 then Config.targetUid.toNat % 2 ^ 32 else a

/-- The `SLOT` of frames with a partner (R415). -/
def macSlot (m : Main) (n : Fin 256) : Nat := if isSat m then (m.pts[n]).slotAtHub else n.val

/-- The partner that a received frame names, ACTIVE, LOST or CALLING (R414, R420). -/
def partnerOf (m : Main) (src slot : Nat) : Option (Fin 256) :=
  let n : Option (Fin 256) := if isSat m then (if slot = (m.pts[(0 : Fin 256)]).slotAtHub then some 0 else none) else some (finOf 256 slot)
  n.bind fun n => if (m.pts[n]).state != 0 && (m.pts[n]).address == src then some n else none

/-- The nonce of R418. `up`: sent by a satellite. -/
def macNonce (head : List Byte) (up : Bool) : List Byte :=
  (head.drop 1).take 4 ++ (head.drop 6).take 4 ++ head.take 1 ++ (head.drop 5).take 1 ++ [if up then 0x03 else 0x00, 0, 0]

/-- A counter block of CCM with a 2-byte count (R417). -/
def ccmCtr (nonce : List Byte) (i : Nat) : List Byte := 0x01 :: nonce ++ [byte (i / 256), byte i]

/-- CTR of a text, from block 1 (R417). -/
def ccmCrypt (key : BitVec 128) (nonce bs : List Byte) : List Byte :=
  (((blocks16 16 bs).zipIdx.map fun x => xorBytes x.1 (aes128 key (ccmCtr nonce (x.2 + 1)))).flatten).take bs.length

/-- The 8-byte tag (R417). -/
def ccmMic (key : BitVec 128) (nonce head body : List Byte) : List Byte :=
  let b0 := 0x59 :: nonce ++ [byte (body.length / 256), byte body.length]
  let aad := [0x00, 0x0A] ++ head ++ List.replicate 4 0
  (xorBytes (cbcMac key ([b0, aad] ++ blocks16 16 body)) (aes128 key (ccmCtr nonce 0))).take 8

/-- A whole MAC frame (R415, R417). -/
def macFrame (key : BitVec 128) (head body : List Byte) (up : Bool) : List Byte :=
  let n := macNonce head up
  head ++ ccmCrypt key n body ++ ccmMic key n head body

/-- [4100:18]: the seconds counter as the radio sees it. -/
def rfSeconds (m : Main) : Nat := aoSeconds m

/-- A packet of the radio goes to a partner's receive queue under the space test; without `CTL` it waits in the radio (R440, R441). -/
def radioOut (m : Main) (n : Fin 256) (type : Nat) (ws : List Word) : Main :=
  let q := (m.pts[n]).rxQueue
  if ctlOn m then offerPkt m q type 0x03 ws else modRad m fun r => { r with kept := r.kept ++ [(q, type, ws)] }

/-- A partner event (R440). -/
def partnerEvent (m : Main) (n : Fin 256) (ev : Nat) : Main :=
  radioOut m n 0x33 [word (place 0 8 n.val + place 8 8 ev), word (rfSeconds m)]

/-- A transmit report (R440). Routed and answering DICT frames are the service's own and make none. -/
def txReport (m : Main) (h : Held) (status : Nat) : Main :=
  if h.dict then m
  else radioOut m h.slot 0x32 [word (place 0 8 h.slot.val + place 8 8 status + place 16 16 h.htag), word h.lastCtr, word (place 0 8 h.copies)]

/-- The frames that the hold takes (R439). -/
def holdSize : Nat := 32

/-- A frame enters the hold. -/
def holdPut (m : Main) (h : Held) : Main := modRad m fun r => { r with hold := r.hold ++ [h] }

/-- The i-th frame leaves the hold; what names later frames follows. -/
def holdDrop (m : Main) (i : Nat) : Main :=
  let fix (k : TxKind) : TxKind := match k with
    | .held j => .held (if i < j then j - 1 else j)
    | k => k
  modRad m fun r =>
    { r with hold := r.hold.eraseIdx i, ackWait := (r.ackWait.filter fun x => x.1 != .held i).map fun x => (fix x.1, x.2),
             tx := { r.tx with access := (r.tx.access.filter fun k => k != .held i).map fix, kind := fix r.tx.kind } }

def modHeld (m : Main) (i : Nat) (f : Held → Held) : Main := modRad m fun r => { r with hold := r.hold.modify i f }

/-- Whether frames wait for a partner. -/
def holdsFor (m : Main) (n : Fin 256) : Bool := m.rad.hold.any fun h => h.slot == n

/-- The margin of a reception in 0.01 dB: SNR in 0.25 dB less what its order needs (R435). -/
def rxMargin (snr : Int) (order : Nat) : Int := snr * 25 + 1000 + 250 * ((order : Int) - 8)

def meanOf (l : List Int) : Option Int := if l.isEmpty then none else some (roundDiv (l.foldl (· + ·) 0) l.length)

/-- The last four of a list with one more (R435). -/
def last4 (l : List Int) (v : Int) : List Int := (l ++ [v]).drop (l.length - 3)

/-- The link margin in 0.01 dB: the lower of the two means (R435). -/
def Partner.linkMargin (p : Partner) : Option Int :=
  match meanOf p.up, meanOf p.down with
  | some a, some b => some (min a b)
  | some a, none => some a
  | none, some b => some b
  | none, none => none

/-- The power limit in dBm (R411). -/
def powerLimit (m : Main) : Int := min (cfgI m 8 0x4000 0x0C) m.rad.txMax

/-- Whether a link keeps a CHECKIN and its ACK within [4120:01] (R425). -/
def dwellOk (m : Main) (wide : Bool) (order : Nat) : Bool :=
  m.rad.dwell == 0 ||
  (decide (airUs wide order (cfgN m 0x4000 0x0B) 20 ≤ m.rad.dwell * 1000) && decide (airUs wide order (cfgN m 0x4000 0x0B) 31 ≤ m.rad.dwell * 1000))

/-- One step of link adaptation (R436), within the dwell limit (R425). -/
def Partner.adapt (p : Partner) (mg t lim : Int) (ok : Bool → Nat → Bool) : Partner :=
  if mg < t then
    if p.txPower < lim then { p with txPower := min (p.txPower + 3) lim }
    else if p.order < 14 && ok p.wide (p.order + 1) then { p with order := p.order + 1 }
    else if p.wide && ok false p.order then { p with wide := false }
    else p
  else if t + 400 < mg then
    if 8 < p.order then { p with order := p.order - 1 }
    else if !p.wide && p.wideCh != 0xFF then { p with wide := true }
    else if -10 < p.txPower then { p with txPower := max (p.txPower - 3) (-10) }
    else p
  else p

/-- Width of a partner's next guard window in µs (R428). -/
def guardUs (m : Main) (n : Fin 256) : Nat :=
  let p := m.pts[n]
  let elapsed := (p.expected - p.contactAt) / tickUs
  min (min (cfgN m 0x4100 0x07 * 1000 + 2 ^ p.misses * 2 * p.drift * elapsed / 1000000) (cfgN m 0x4100 0x08 * 1000)) (p.interval * 1000000)

/-- The sub-band of a frequency (R424). -/
def subbandOf (m : Main) (hz : Nat) : Option Nat := m.rad.subbands.findIdx? fun b => decide (b.1 ≤ hz) && decide (hz < b.2.1)

/-- Time charged to a sub-band over the last [4110:09] seconds, in µs (R424). -/
def subbandUsed (m : Main) (i : Nat) : Nat :=
  ((m.rad.charges.filter fun c => c.1 == i && decide (m.now < c.2.1 + 3600 * tickS)).map (·.2.2)).sum

/-- Whether a transmission of `us` µs fits its sub-band's share (R424). -/
def dutyOk (m : Main) (hz us : Nat) : Bool :=
  match subbandOf m hz with
  | some i => decide ((subbandUsed m i + us) * 10000 ≤ ((m.rad.subbands[i]?).map (·.2.2)).getD 0 * 3600000000)
  | none => false

/-- A transmission is charged. -/
def dutyCharge (m : Main) (hz us : Nat) : Main :=
  match subbandOf m hz with
  | some i =>
    modRad m fun r => { r with charges := (r.charges.filter fun c => decide (m.now < c.2.1 + 3600 * tickS)) ++ [(i, m.now, us)] }
  | none => m

/-- The regional profile fills the channel table, the limits and the sub-band table (R389, R424, R425). -/
def fillProfile (m : Main) (v : Nat) : Main :=
  if v = 1 then
    modRad m fun r =>
      { r with profile := 1, fLow := 863000000, fHigh := 870000000, txMax := 14, hopMin := 1, dwell := 0,
               chans := Vector.ofFn fun i => if i.val < 35 then (word (863100000 + 200000 * i.val), 0x1FD) else (0, 0x1FC),
               subbands := [(863000000, 868600000, 100), (868600000, 869300000, 10), (869300000, 869700000, 1000), (869700000, 870000000, 100)] }
  else if v = 2 then
    modRad m fun r =>
      { r with profile := 2, fLow := 902000000, fHigh := 928000000, txMax := 27, hopMin := 50, dwell := 400,
               chans := Vector.ofFn fun i => (word (902200000 + 400000 * i.val), 0x1FF),
               subbands := [(902000000, 928000000, 10000)] }
  else
    modRad m fun r =>
      { r with profile := 0, fLow := 780000000, fHigh := 1020000000, txMax := 27, hopMin := 1, dwell := 0,
               subbands := [(780000000, 1020000000, 10000)] }

end Sys2Proof.Machine
end

