-- ==== Sys2Proof/Machine/DictOps.lean ====
section
/-!
DEFINITION. Machine/DictOps.lean: the messages of the dictionary service (R453, R458, R463), the units that check and form them
(R521), its outputs (R467) and its routing records (R471).
-/

namespace Sys2Proof.Machine

/-- The header of a native message (R453). -/
structure Msg where
  op     : Nat
  resp   : Bool
  dev    : Nat
  radio  : Bool
  alive  : Nat
  tid    : Nat
  len    : Nat
  index  : Nat
  sub    : Nat
  status : Nat
  peer   : Nat
  origin : Nat
  offset : Nat
  data   : List Byte
  deriving DecidableEq, Repr

/-- A message read from its bytes; the data are cut to `LEN`. -/
def msgOf (bs : List Byte) : Msg :=
  let b (i : Nat) : Nat := (nth bs i 0).toNat
  { op := b 0 % 16, resp := bitAt (b 0) 4, dev := field (b 0) 5 2, radio := bitAt (b 0) 7, alive := b 1, tid := b 2, len := b 3,
    index := b 4 + 256 * b 5, sub := b 6, status := b 7, peer := b 8, origin := b 9, offset := b 10 + 256 * b 11,
    data := (bs.drop 12).take (b 3) }

/-- Whether the carrier delivered enough bytes to hold the message (R454). -/
def msgWhole (bs : List Byte) : Bool :=
  decide (16 ≤ bs.length) && decide ((msgOf bs).len ≤ 48) && decide (16 + (msgOf bs).len ≤ bs.length)

/-- The message itself, without what the carrier added. -/
def msgCut (bs : List Byte) : List Byte := bs.take (16 + (msgOf bs).len)

/-- What the CRC of a message covers: the data ID, then bytes 0 to 11 + `LEN` (R463). -/
def msgCovered (m : Main) (bs : List Byte) : List Byte := leBytes 2 (cfgN m 0x5010 0x03) ++ bs.take (12 + (msgOf bs).len)

def msgCrcOk (m : Main) (bs : List Byte) : Bool :=
  CrcKind.crc32c.of (msgCovered m bs) == leNat ((bs.drop (12 + (msgOf bs).len)).take 4)

/-- The service feeds a message to one of its units (R521). -/
def cuService (m : Main) (sub : Nat) (init : Nat) (k : CrcKind) (bs : List Byte) : Main :=
  modCu m (finOf 8 (cfgN m 0x5010 sub)) fun u =>
    let v := k.run init bs
    { u with value := v, result := v ^^^ k.xorOut, bytes := sat32 (u.bytes + bs.length), frames := sat32 (u.frames + 1) }

/-- A response to a request: its fields, `RESP`, the status and the data, then the CRC (R453, R458). -/
def respond (m : Main) (req : List Byte) (status : Nat) (data : List Byte) : List Byte :=
  let q := msgOf req
  let head := [byte (q.op + 0x10 + place 5 2 q.dev + place 7 1 (bitN q.radio)), byte q.alive, byte q.tid, byte data.length] ++
    leBytes 2 q.index ++ [byte q.sub, byte status, byte q.peer, byte q.origin] ++ leBytes 2 (if q.op = 5 then q.offset else 0) ++ data
  head ++ leBytes 4 (CrcKind.crc32c.of (leBytes 2 (cfgN m 0x5010 0x03) ++ head))

/-- Requester classes, in the order of R464. -/
def clsHost : Nat := 0
def clsNet : Nat := 1
def clsAir : Nat := 2
def clsLace : Nat := 3

/-- The CAN function of a response (R498). -/
def canRespFn (op : Nat) : Nat := if op = 1 || op = 2 then 2 else 3

/-- A whole message leaves for its requester: Q19, Q21, the transmit hold or Q23 (R467). `fn` is the CAN function of a response. -/
def dictOut (m : Main) (cls who fn : Nat) (bs : List Byte) : Main :=
  if cls = 0 then offerPkt m 19 0x27 srcController (packWords bs)
  else if cls = 1 then offerPkt m 21 0x28 srcController (canPacket (m.can.node * 16 + fn) bs)
  else if cls = 2 then holdPut m { slot := finOf 256 who, ackReq := true, now := true, htag := 0, body := bs, made := m.now, dict := true }
  else
    let ws := packWords bs
    offerPkt m 23 0x2A srcController (word (laceHead m 0x7 (some (finOf 4 who)) ws) :: ws)

/-- A response is formed: the generating unit takes it, and a status other than `OK` is counted (R463, R481). -/
def dictResp (m : Main) (req : List Byte) (status : Nat) (data : List Byte) : List Byte × Main :=
  let bs := respond m req status data
  (bs, cuService (countIf (status != 0) m 0x7010 0x07) 0x05 0xFFFFFFFF .crc32c (msgCovered m bs))

/-- A response to a request whose path is a routing record's. -/
def dictReply (m : Main) (cls who : Nat) (req : List Byte) (status : Nat) (data : List Byte) : Main :=
  let r := dictResp m req status data
  dictOut r.2 cls who (canRespFn (msgOf req).op) r.1

/-- Element i leaves the routing records with a route error (R471). -/
def routeError (m : Main) (i : Nat) (status : Nat) : Main :=
  match m.dict.routes[i]? with
  | some r => dictReply (modDict m fun d => { d with routes := d.routes.eraseIdx i }) r.cls r.who r.msg status []
  | none => m

/-- The transmit report of a DICT frame (R471): ACKED is noted in its record, anything else gives `UNREACHED`. -/
def routeReport (m : Main) (h : Held) (status : Nat) : Main :=
  if !h.dict then m
  else match m.dict.routes.findIdx? fun r => r.radio && r.msg == h.body with
    | none => m
    | some i =>
      if status = 0 || status = 1 then modDict m fun d => { d with routes := d.routes.modify i fun r => { r with acked := true } }
      else routeError (count m 0x7010 0x09) i 0x0D

end Sys2Proof.Machine
end

