-- ==== Sys2Proof/Machine/RadioPhy.lean ====
section
/-!
DEFINITION. Machine/RadioPhy.lean: the meanings of the receiver's steps: gate, detector, demodulators up to the header, gains, retunes
(R388, R397–R410), and the writes of the profile and of the channel table (R389).
-/

namespace Sys2Proof.Machine

/-- The RSSI gate of a channel (R398); a gate that closes ends its qualifiers (R399). -/
def gateUpdate (m : Main) (ch : Fin 64) (power : Int) : Main :=
  let thr := cfgI m 16 0x4000 0x07
  if !hunted m ch.val then m
  else if m.rad.gates.contains ch.val then
    if power < thr - 30 then
      modRad m fun r => { r with gates := r.gates.filter (· != ch.val), quals := r.quals.filter fun q => q.ch != ch.val }
    else m
  else if thr ≤ power then modRad m fun r => { r with gates := r.gates ++ [ch.val] }
  else m

/-- RSSI_GATE_UPDATE. -/
def execRssiGateUpdate (ch : Fin 64) (power : Int) (s : State) : Out := onMain (fun m => gateUpdate m ch power) s

/-- Whether two shifts of an order lie within ±2 chips, modulo the symbol (R399). -/
def onTrack (n a b : Nat) : Bool :=
  let N := 2 ^ n
  let d := (a % N + N - b % N) % N
  decide (d ≤ 2) || decide (N ≤ d + 2)

/-- A demodulator takes a detection (R401): the gain of the channel is latched, fixed or that of the fast AGC, which only its
power gives (log 29). -/
def demodTake (m : Main) (d : Fin 8) (ch n track : Nat) (level : Int) : Main :=
  let g := (chanOf m ch).mgain
  let x := if g = 0 then draw m else (0, m)
  modDemod (count x.2 0x70E0 0x01) d fun y =>
    { y with st := 1, channel := ch, order := n, track := track, gain := if g = 0 then x.1.toNat % 256 else g - 1, level := level,
             space := none, dropped := false, precomp := false, length := 0, bits := [] }

/-- DETECT (R401, R408). -/
def detect (m : Main) (ch n shift : Nat) (level : Int) : Main :=
  let l := allFin 8
  if l.any fun d => let y := m.rad.demods[d]; y.st == 1 && y.channel == ch && y.order == n && onTrack n y.track shift then m
  else
    let free := l.find? fun d => (m.rad.demods[d]).st == 0
    let weaker := l.find? fun d =>
      let y := m.rad.demods[d]
      (y.st == 2 || y.st == 3) && y.channel == ch && y.order == n && decide (y.level + 10 * cfgN m 0x4000 0x06 ≤ level)
    match weaker with
    | some d =>
      if cfgN m 0x4000 0x05 = 1 then demodTake (demodFree (count m 0x70E0 0x08) d) d ch n shift level
      else match free with
        | some f => demodTake m f ch n shift level
        | none => count m 0x70E0 0x09
    | none =>
      match free with
      | some f => demodTake m f ch n shift level
      | none => count m 0x70E0 0x07

def qualPut (m : Main) (ch n count track : Nat) : Main :=
  modRad m fun r => { r with quals := (r.quals.filter fun q => !(q.ch == ch && q.order == n)) ++ [⟨ch, n, count, track⟩] }

def qualDrop (m : Main) (ch n : Nat) : Main := modRad m fun r => { r with quals := r.quals.filter fun q => !(q.ch == ch && q.order == n) }

/-- A window of the detector (R399): HUNT is the absence of a qualifier. -/
def detectorWindow (m : Main) (ch : Fin 64) (order : Fin 7) (peak : Option ChirpPeak) : Main :=
  let n := 8 + order.val
  if !hunted m ch.val || !m.rad.gates.contains ch.val || !bitAt (chanOf m ch.val).orders order.val then m
  else
    let q := m.rad.quals.find? fun q => q.ch == ch.val && q.order == n
    match peak with
    | none => qualDrop m ch.val n
    | some p =>
      if p.above < cfgN m 0x4000 0x0A then qualDrop m ch.val n
      else match q with
        | none => qualPut m ch.val n 1 p.shift
        | some q =>
          if !onTrack n q.track p.shift then qualPut m ch.val n 1 p.shift
          else if q.count < 4 then qualPut m ch.val n (q.count + 1) p.shift
          else detect (qualDrop m ch.val n) ch.val n p.shift p.level

/-- DETECTOR_WINDOW. -/
def execDetectorWindow (ch : Fin 64) (order : Fin 7) (peak : Option ChirpPeak) (s : State) : Out :=
  onMain (fun m => detectorWindow m ch order peak) s

/-- DEMOD_PREAMBLE_LOST (R402): a false detection, or symbols that are neither. -/
def execDemodPreambleLost (d : Fin 8) (badSync : Bool) (s : State) : Out := onMain (fun m =>
  if (m.rad.demods[d]).st = 1 then demodFree (count m 0x70E0 (if badSync then 0x03 else 0x02)) d else m) s

/-- A value in 0.01 chip wrapped to ±N/2 chips (R404, where it is 2ν). -/
def wrapChips (n : Nat) (v : Int) : Int :=
  let N : Int := 100 * 2 ^ n
  (v + N / 2) % N - N / 2

/-- Four times the offset in 0.01 bin, from the two sync symbols; `none` when they lie more than 1 bin apart (R404). -/
def syncOffset (n id : Nat) (x : SyncMeasure) : Option Int :=
  let a := wrapChips n (x.up - (x.down1 - 100 * (16 * (id % 16) + 8)))
  let b := wrapChips n (x.up - (x.down2 - 100 * (16 * (id / 16) + 8)))
  let d := wrapChips n (b - a)
  if d.natAbs ≤ 200 then some (2 * wrapChips n (a + d / 2) + d % 2) else none

/-- DEMOD_SYNC (R402, R404, R405): the rotator takes −ν × B/N in steps of 0.5 Hz. -/
def demodSync (m : Main) (d : Fin 8) (x : SyncMeasure) : Main :=
  let y := m.rad.demods[d]
  if y.st != 1 then m
  else match syncOffset y.order (cfgN m 0x4000 0x03) x with
    | none => demodFree (count m 0x70E0 0x03) d
    | some v =>
      let c := chanOf m y.channel
      let N := 2 ^ y.order
      modDemod m d fun y =>
        { y with st := 2, syncAt := m.now, rotator := -roundDiv (v * 2 * c.bw) (400 * N),
                 cfo := roundDiv (v * c.bw * 100000000) (400 * N * max 1 c.freq) }

def execDemodSync (d : Fin 8) (x : SyncMeasure) (s : State) : Out := onMain (fun m => demodSync m d x) s

/-- The space test of a received frame (R18): only a DATA frame of a known partner goes to a queue, and only while `CTL` runs (R441). -/
def frameSpace (m : Main) (d : Fin 8) (length : Nat) (macHead : List Byte) : Main :=
  let b (i : Nat) : Nat := (nth macHead i 0).toNat
  match partnerOf m (leNat ((macHead.drop 1).take 4)) (b 5) with
  | none => m
  | some n =>
    if b 0 % 8 != 0 || length < 18 || !ctlOn m then m
    else
      let q := (m.pts[n]).rxQueue
      let words := 5 + (length - 18 + 3) / 4
      if spaceTest m q words then
        let o := openPkt m q 0x30 0x03 (cellsOfWords (words + 1))
        modDemod o.1 d fun y => { y with space := some (q, o.2) }
      else modDemod (dropPkt m q 0x03) d fun y => { y with dropped := true }

/-- The first block of a frame is decoded (R390, R393–R396, R402): the header must be within correction, its check match and its length not
be 0; what the block holds of the payload goes to the MAC parser. -/
def demodHeader (m : Main) (d : Fin 8) (symbols : List Nat) : Main :=
  let y := m.rad.demods[d]
  if y.st != 2 || symbols.length != 24 then m
  else
    let words := heardWords y.order symbols
    let bits := heardBits words
    let plain := whiten bits
    let h := bitsNat (plain.take 24)
    if (words.take 2).any (fun w => (golayDecode w).isNone) || h % 256 = 0 || CrcKind.crc8.of (leBytes 2 h) != h / 65536 then
      demodFree (count m 0x70E0 0x04) d
    else
      let m := modDemod m d fun y => { y with st := 3, length := h % 256, precomp := bitAt h 14, bits := bits }
      frameSpace m d (h % 256) (leBytes 6 (bitsNat (plain.drop 24 |>.take 48)))

/-- DEMOD_HEADER. -/
def execDemodHeader (d : Fin 8) (symbols : List Nat) (s : State) : Out := onMain (fun m => demodHeader m d symbols) s

/-- One step of a front-end gain of 2 dB for a wideband peak in 0.1 dBFS, which it holds between −18 and −6 dBFS (R400); none when it lies
there, or when the gain stands at an end of its 31 steps (log 29). -/
def feStep (gain : Nat) (peak : Int) : Option Nat :=
  if -60 < peak then (if gain = 0 then none else some (gain - 1))
  else if peak < -180 then (if gain < 30 then some (gain + 1) else none)
  else none

/-- FE_GAIN_STEP (R400): a branch takes one step, at most once in 100 µs; a clipped sample during a reception is counted. -/
def execFeGainStep (branchB : Bool) (peak : Int) (clipped : Bool) (s : State) : Out := onMain (fun m =>
  if !radioListens m then m
  else
    let m := countIf (clipped && m.rad.demods.toList.any fun y => y.st != 0) m 0x70E0 0x0C
    let recent := match (if branchB then m.rad.feAtB else m.rad.feAtA) with
      | some t => decide (m.now < t + 40000)
      | none   => false
    match (if recent then none else feStep (if branchB then m.rad.feB else m.rad.feA) peak) with
    | none   => m
    | some g =>
      count (modRad m fun r => if branchB then { r with feB := g, feAtB := some m.now } else { r with feA := g, feAtA := some m.now }) 0x70E0 0x0D) s

/-- RADIO_RETUNE (R388, R409): the receptions in progress are abandoned. -/
def execRadioRetune (hz : Nat) (s : State) : Out := onMain (fun m =>
  if radioOn m && decide (780000000 ≤ hz) && decide (hz ≤ 1020000000) then
    modRad (dropReceptions m true) fun r => { r with fLO := hz, gates := [] }
  else m) s

/-- A write of [4000:02], in CALIBRATE (R389, R412). -/
def profileWrite (s : State) (v : Nat) : Bool × State :=
  let r := setEntry s 0x4000 0x02 v
  if r.1 then (true, { r.2 with m := fillProfile r.2.m v }) else r

/-- RADIO_PROFILE_WRITE. -/
def execRadioProfileWrite (value : BitVec 8) (s : State) : Out :=
  onLedger 0x4000 0x02 value.toNat (fun s => (if s.m.pw.mode == .calibrate && decide (value.toNat ≤ 2) then (profileWrite s value.toNat).2 else s)) s

/-- A write of a channel table entry (R387, R389): whether it is accepted. -/
def channelWrite (m : Main) (ch : Fin 64) (w0 w1 : Word) : Bool × Main :=
  let w1 := w1 &&& 0x0000FDFF
  let old := m.rad.chans[ch]
  let f := w0.toNat
  let fixed := m.rad.profile != 0 && (w0 != old.1 || bitAt w1.toNat 1 != bitAt old.2.toNat 1)
  let enabled := ((allFin 64).filter fun c => c != ch && (chanOf m c.val).en).length + bitN (bitAt w1.toNat 0)
  if fixed || enabled < m.rad.hopMin || f < m.rad.fLow || m.rad.fHigh < f || 61 < field w1.toNat 10 6 then (false, count m 0x70E0 0x0E)
  else (true, modRad m fun r => { r with chans := updV r.chans ch fun _ => (w0, w1) })

/-- CHANNEL_TABLE_WRITE. -/
def execChannelTableWrite (ch : Fin 64) (w0 w1 : Word) (s : State) : Out :=
  onService (fun m => if m.pw.mode.isMain then (channelWrite m ch w0 w1).2 else m) s

end Sys2Proof.Machine
end

