-- ==== Sys2Proof/Machine/RadioMac.lean ====
section
/-!
DEFINITION. Machine/RadioMac.lean: the access layer of the chirp radio (chapter 16): requests and the hold, listen-before-talk,
transmissions and their acknowledgement, received frames, rendezvous, calls, keys and partner states.
-/

namespace Sys2Proof.Machine

/-- A transmission as it will be sent. -/
structure TxPlan where
  slot   : Fin 256
  type   : Nat
  body   : List Byte
  ackReq : Bool
  ch     : Nat
  order  : Nat
  pre    : Nat
  deriving DecidableEq, Repr

/-- Preamble of a call: a listen window anywhere in it lies wholly within it (R432). -/
def wakePreamble (m : Main) (ch n : Nat) : Nat :=
  let sym := 2 ^ n * 5 / (if (chanOf m ch).wide then 2 else 1)
  (cfgN m 0x4100 0x0A * 1000 + sym - 1) / sym + 9

/-- A satellite's margin on its hub's last frame, in dB; −128 when none (R416). -/
def satMargin (p : Partner) : Nat :=
  match p.up.getLast? with
  | some v => signedField 8 (clampI (-127) 127 (roundDiv v 100))
  | none => 0x80

/-- What a transmission consists of. -/
def txPlan (m : Main) (k : TxKind) : Option TxPlan :=
  match k with
  | .held i => (m.rad.hold[i]?).map fun h =>
      let p := m.pts[h.slot]
      ⟨h.slot, if h.dict then 2 else 0, h.body, h.ackReq, partnerChan m h.slot p.rdv p.further, p.order, cfgN m 0x4000 0x0B⟩
  | .ack => m.rad.ackDue.map fun a => ⟨a.slot, 1, a.body, false, a.ch, a.order, cfgN m 0x4000 0x0B⟩
  | .wake n =>
      let ch := cfgN m 0x4100 0x0C
      let o := cfgN m 0x4100 0x0B
      some ⟨n, 3, [], false, ch, o, wakePreamble m ch o⟩
  | .checkin =>
      let p := m.pts[(0 : Fin 256)]
      let body := [byte (satMargin p), byte (bitN (holdsFor m 0))]
      some (if m.rad.satWake then ⟨0, 4, body, true, cfgN m 0x4100 0x0C, cfgN m 0x4100 0x0B, cfgN m 0x4000 0x0B⟩
            else ⟨0, 4, body, true, partnerChan m 0 p.rdv p.further, p.order, cfgN m 0x4000 0x0B⟩)

/-- A transmission other than an ACK waits for receptions past their header and for guard windows on its channel (R423). -/
def txBlocked (m : Main) (ch : Nat) : Bool :=
  (m.rad.demods.toList.any fun y => y.st == 2 || y.st == 3) ||
  m.rad.guard.any fun n => partnerChan m n (m.pts[n]).rdv (m.pts[n]).further == ch

/-- Whether a partner may be listening: in the contact of a rendezvous (R426). -/
def contactOpen (m : Main) (n : Fin 256) : Bool :=
  let p := m.pts[n]
  p.contact && (isSat m || decide (m.now ≤ p.awakeAt + cfgN m 0x4100 0x10 * tickMs))

/-- Whether a held frame may go (R439). -/
def Held.ready (m : Main) (h : Held) : Bool := h.again || (h.now && !h.deferred) || contactOpen m h.slot

/-- The first held frame that may go; frames for one partner keep their order (R439). -/
def nextHeld (m : Main) : Option Nat :=
  (List.range m.rad.hold.length).find? fun i =>
    match m.rad.hold[i]? with
    | some h => h.ready m && !((m.rad.hold.take i).any fun g => g.slot == h.slot)
    | none => false

/-- The transmission that seeks access next. -/
def nextTx (m : Main) : Option TxKind :=
  if m.rad.satDue then some .checkin
  else match m.rad.callDue with
    | n :: _ => some (.wake n)
    | [] => (nextHeld m).map .held

/-- A held frame is given up with a report (R438–R440, R471). -/
def giveUp (m : Main) (i : Nat) (status : Nat) : Main :=
  match m.rad.hold[i]? with
  | some h => routeReport (txReport (holdDrop m i) h status) h status
  | none => m

/-- A rendezvous of a satellite ends without an ACK: after [4100:09] it is lost (R430). -/
def satMiss (m : Main) : Main :=
  let m := modPt m 0 fun p => { p with rdv := p.rdv + 1, further := 0 }
  modRad m fun r =>
    { r with satMissed := r.satMissed + 1, satDue := false, satCopies := 0, satWake := false,
             satLost := r.satLost || decide (cfgN m 0x4100 0x09 ≤ r.satMissed + 1) }

/-- The next transmit counter; the key store reserves blocks of 256 (R419). -/
def nextCounter (s : State) (n : Fin 256) (frames : Nat) : Nat × State :=
  let c := (s.m.pts[n]).txCtr
  let last := min 0xFFFFFFFE (c + frames - 1)
  let keys := if s.keys.reserved[n] ≤ last then { s.keys with reserved := s.keys.reserved.set n (last / 256 * 256 + 256) } else s.keys
  let m := modPt s.m n fun p => { p with txCtr := last + 1 }
  (last, { s with keys := keys, m := if last + 1 = 0xFFFFFFFF then partnerEvent (count m 0x70F0 0x0E) n 5 else m })

/-- A transmission that cannot be sent. `status` is what a held frame's report tells; `keep`: a held frame stays, deferred. -/
def txFail (m : Main) (k : TxKind) (status : Nat) (keep : Bool) : Main :=
  let m := modRad m fun r => { r with tx := { r.tx with access := none, kAtt := 3, busy := 0 } }
  match k with
  | .held i => if keep then modHeld m i fun h => { h with deferred := true, again := false, kAtt := 3, busy := 0 } else giveUp m i status
  | .ack => modRad m fun r => { r with ackDue := none }
  | .wake n => if keep then m else modRad m fun r => { r with callDue := r.callDue.filter (· != n) }
  | .checkin => satMiss m

/-- A transmission starts (R409, R411, R419, R424, R425). Under profile 2 a call is a train of WAKE frames for twice [4100:0A] (R432). -/
def txStart (s : State) (k : TxKind) (p : TxPlan) : State :=
  match s.keys.partner[p.slot] with
  | none => { s with m := txFail s.m k 4 false }
  | some key =>
    let m := s.m
    if (m.pts[p.slot]).state = 0 then { s with m := txFail m k 4 false }
    else if (m.pts[p.slot]).txCtr = 0xFFFFFFFF then { s with m := txFail m k 5 false }
    else
      let c := chanOf m p.ch
      let train := p.type == 3 && m.rad.dwell != 0
      let fit := (m.rad.dwell * 1000 / (airUs c.wide p.order 0 18 / (2 + 24 * radioBlocks p.order 18))) - (2 + 24 * radioBlocks p.order 18)
      let pre := if train then max 8 (min p.pre fit) else p.pre
      let one := airUs c.wide p.order pre (18 + p.body.length)
      let frames := if train then (2 * cfgN m 0x4100 0x0A * 1000 + one - 1) / max 1 one else 1
      if m.rad.dwell != 0 && m.rad.dwell * 1000 < one then { s with m := txFail m k 4 false }
      else if !dutyOk m c.freq (one * frames) then { s with m := txFail (count m 0x70F0 0x0C) k 4 true }
      else
        let n := nextCounter s p.slot frames
        let m := n.2.m
        let more := (m.rad.hold.filter fun h => h.slot == p.slot).length > (match k with | .held _ => 1 | _ => 0)
        let fc := p.type + place 3 1 (bitN p.ackReq) + place 4 1 (bitN more)
        let head := byte fc :: leBytes 4 (ownAddress m) ++ [byte (macSlot m p.slot)] ++ leBytes 4 n.1
        let m := cuRadio m true p.slot.val fc n.1 p.body
        let m := countIf (p.type == 3) (dutyCharge (dropReceptions m true) c.freq (one * frames)) 0x70F0 0x0C
        let m := match k with
          | .held i => modHeld m i fun h => { h with copies := h.copies + 1, lastCtr := n.1, again := false, kAtt := 3, busy := 0 }
          | .ack => modRad m fun r => { r with ackDue := none }
          | _ => m
        let off := (m.pts[p.slot]).cfo
        let hz : Int := c.freq + roundDiv (c.freq * off.getD 0) 100000000
        let frame := macFrame key head p.body (isSat m)
        let power := max (-10) (min (m.pts[p.slot]).txPower (powerLimit m))
        { n.2 with
          m := modRad m fun r =>
            { r with tx := { active := true, kind := k, txen := true, frame := frame, hz := hz, power := power, precomp := off.isSome, ctr := n.1,
                             symbols := radioSymbols p.order (cfgN m 0x4000 0x03) power off.isSome frame,
                             startAt := m.now, frames := frames } } }

/-- A transmission whose access has been won begins unless something holds it (R48, R423). -/
def txTry (s : State) (k : TxKind) : State :=
  let m := s.m
  if !radioOn m || m.pw.vrfLow || m.rad.tx.active then s
  else match txPlan m k with
    | none => s
    | some p => if k != .ack && (m.rad.tx.access != some k || m.rad.ackWait.isSome || txBlocked m p.ch) then s else txStart s k p

/-- RADIO_TX_START. -/
def execRadioTxStart (kind : TxKind) (s : State) : Out := .next (txTry s kind)

/-- TX_HOLD_RELEASE (R423): the transmission that waited may go. -/
def execTxHoldRelease (s : State) : Out :=
  .next (match s.m.rad.tx.access with
    | some k => txTry s k
    | none => s)

/-- ACK_SEND (R433). -/
def execAckSend (s : State) : Out := .next (txTry s .ack)

/-- RADIO_TX_END (R411): the frame is sent; one that asks for an ACK, and a call, wait for it (R432, R433). -/
def txEnd (m : Main) : Main :=
  let t := m.rad.tx
  if !t.active then m
  else
    let m := countN (modRad m fun r => { r with tx := { r.tx with active := false, txen := false, access := none, kAtt := 3, busy := 0 } }) 0x70F0 0x03 t.frames
    match t.kind with
    | .held i =>
      match m.rad.hold[i]? with
      | none => m
      | some h =>
        if h.ackReq then modRad m fun r => { r with ackWait := some (.held i, t.ctr) }
        else modPt (giveUp m i 0) h.slot fun p => { p with further := p.further + 1 }
    | .ack => m
    | .wake n => modRad m fun r => { r with callDue := r.callDue.filter (· != n), ackWait := some (.wake n, t.ctr) }
    | .checkin => modRad m fun r => { r with satDue := false, ackWait := some (.checkin, t.ctr) }

def execRadioTxEnd (s : State) : Out := onMain txEnd s

/-- LBT_MEASURE_END (R422): by the updates of the channel power in 0.1 dBm, clear, busy with a backoff drawn, or deferred. -/
def lbtEnd (m : Main) (powers : List Int) : Main :=
  let busy := powers.any fun p => decide (cfgI m 16 0x4100 0x04 ≤ p)
  let t := m.rad.tx
  if !radioOn m || t.active || t.access.isSome || t.backoff.isSome || m.rad.ackWait.isSome then m
  else match nextTx m with
    | none => m
    | some k =>
      if !busy then modRad m fun r => { r with tx := { r.tx with access := some k } }
      else
        let m := count m 0x70F0 0x01
        let kb : Nat × Nat := match k with
          | .held i => ((m.rad.hold[i]?).map fun h => (h.kAtt, h.busy)).getD (3, 0)
          | _ => (t.kAtt, t.busy)
        if cfgN m 0x4100 0x06 ≤ kb.2 + 1 then txFail (count m 0x70F0 0x02) k 4 true
        else
          let d := draw m
          let m := modRad d.2 fun r => { r with tx := { r.tx with backoff := some (d.1.toNat % 2 ^ kb.1) } }
          match k with
          | .held i => modHeld m i fun h => { h with kAtt := min 7 (kb.1 + 1), busy := kb.2 + 1 }
          | _ => modRad m fun r => { r with tx := { r.tx with kAtt := min 7 (kb.1 + 1), busy := kb.2 + 1 } }

def execLbtMeasureEnd (powers : List Int) (s : State) : Out := onMain (fun m => lbtEnd m powers) s

/-- BACKOFF_EXPIRY (R422): a new measurement starts. -/
def execBackoffExpiry (s : State) : Out := onMain (fun m => modRad m fun r => { r with tx := { r.tx with backoff := none } }) s

/-- A call ends without a CHECKIN (R432). -/
def callFailed (m : Main) (n : Fin 256) : Main :=
  if (m.pts[n]).state != 3 then m
  else
    let c := (m.pts[n]).calls + 1
    if c < cfgN m 0x4100 0x0D then modRad (modPt m n fun p => { p with calls := c }) fun r => { r with callDue := r.callDue ++ [n] }
    else partnerEvent (modPt m n fun p => { p with state := 2, calls := 0 }) n 3

/-- ACK_WAIT_EXPIRY (R433): the frame is repeated up to [4100:0F] times, or given up. -/
def ackExpiry (m : Main) : Main :=
  match m.rad.ackWait with
  | none => m
  | some (k, _) =>
    let m := modRad m fun r => { r with ackWait := none }
    match k with
    | .held i =>
      match m.rad.hold[i]? with
      | none => m
      | some h =>
        if h.copies ≤ cfgN m 0x4100 0x0F then modHeld (count m 0x70F0 0x04) i fun h => { h with again := true, kAtt := 3, busy := 0 }
        else modPt (giveUp m i 2) h.slot fun p => { p with further := p.further + 1 }
    | .checkin =>
      if m.rad.satCopies < cfgN m 0x4100 0x0F then
        modRad (count m 0x70F0 0x04) fun r => { r with satDue := true, satCopies := r.satCopies + 1 }
      else satMiss m
    | .wake n => callFailed m n
    | .ack => m

def execAckWaitExpiry (s : State) : Out := onMain ackExpiry s

/-- The acknowledgement of a received frame; that of a CHECKIN names the schedule (R416, R426, R433, R437). -/
def ackFor (m : Main) (n : Fin 256) (y : Demod) (ctr : Nat) (snr : Int) (sched : Bool) : AckOut :=
  let p := m.pts[n]
  let mg := signedField 8 (clampI (-127) 127 (roundDiv (rxMargin snr y.order) 100))
  let fl := bitN (holdsFor m n) + place 1 1 (bitN sched)
  let link := [byte (partnerChan m n p.rdv 0), byte (p.order - 8 + place 3 1 (bitN p.wide)), byte (signedField 8 p.txPower)]
  { slot := n, ch := y.channel, order := y.order,
    body := leBytes 4 ctr ++ [byte mg, byte fl] ++ (if sched then leBytes 4 p.interval ++ link else []) }

/-- Start of a received frame: its sync time less preamble and sync (R403, R426). -/
def frameStartOf (m : Main) (y : Demod) : Nat :=
  y.syncAt - (cfgN m 0x4000 0x0B + 2) * 2 ^ y.order * 5 * tickUs / (if (chanOf m y.channel).wide then 2 else 1)

/-- A contact adapts the link by one step (R435–R437). -/
def linkAdapt (m : Main) (n : Fin 256) : Main :=
  let p := m.pts[n]
  match p.linkMargin with
  | none => m
  | some mg =>
    if !cfgB m 0x4100 0x12 then m
    else
      let q := p.adapt mg (100 * cfgN m 0x4100 0x11) (powerLimit m) (dwellOk m)
      if q = p then m
      else
        let m := modPt (count m 0x70F0 0x0F) n fun _ =>
          if q.order = p.order && q.wide == p.wide then q else { q with oldLink := some (p.order, p.wide) }
        partnerEvent m n 6

/-- A CHECKIN is a contact (R427–R432, R437). -/
def contact (m : Main) (n : Fin 256) (y : Demod) (body : List Byte) : Main :=
  let p := m.pts[n]
  let m := if m.rad.guard.contains n then m else partnerEvent (count m 0x70F0 0x08) n 4
  let onOld := match p.oldLink with
    | some (o, w) => y.order == o && (m.rad.profile == 2 || (chanOf m y.channel).wide == w) && y.order != p.order
    | none => false
  let start := frameStartOf m y
  let dn := toSigned 8 (nth body 0 0x80).toNat
  let lost := p.state == 2 || p.state == 3
  let m := modPt (count m 0x70F0 0x09) n fun p =>
    { p with state := 1, misses := 0, calls := 0, lastContact := rfSeconds m, contactAt := start, expected := start + p.interval * tickS,
             rdv := p.rdv + bitN p.window, further := 0, window := false, contact := true, awakeAt := m.now,
             order := (if onOld then (p.oldLink.map (·.1)).getD p.order else p.order),
             wide := (if onOld then (p.oldLink.map (·.2)).getD p.wide else p.wide), oldLink := none,
             down := if dn = -128 then p.down else last4 p.down (100 * dn) }
  let m := modRad m fun r =>
    { r with callDue := r.callDue.filter (· != n), ackWait := r.ackWait.filter fun x => x.1 != .wake n,
             hold := r.hold.map fun h => if h.slot = n then { h with deferred := false } else h }
  let m := if lost then partnerEvent (count m 0x70F0 0x0D) n 2 else m
  linkAdapt m n

/-- An ACK arrives (R416, R426, R433): it ends the wait it belongs to, and gives a satellite its schedule. -/
def rxAck (m : Main) (n : Fin 256) (body : List Byte) : Main :=
  match m.rad.ackWait with
  | none => m
  | some (k, ctr) =>
    let mine := match k with
      | .held i => ((m.rad.hold[i]?).map (·.slot)) == some n
      | .checkin => n == 0
      | _ => false
    if !mine || leNat (body.take 4) != ctr then m
    else
      let m := modRad m fun r => { r with ackWait := none }
      match k with
      | .held i => modPt (giveUp m i 1) n fun p => { p with further := p.further + 1, awakeAt := m.now }
      | .checkin =>
        let fl := (nth body 5 0).toNat
        let ch := (nth body 10 0).toNat
        let lk := (nth body 11 0).toNat
        let m := modRad m fun r =>
          { r with satMissed := 0, satCopies := 0, satLost := false, satWake := false, satAwake := bitAt fl 0 || holdsFor m 0,
                   hold := r.hold.map fun h => if h.slot = n then { h with deferred := false } else h }
        modPt m 0 fun p =>
          let p := { p with misses := 0, lastContact := rfSeconds m, contactAt := m.rad.tx.startAt, rdv := p.rdv + 1, further := 0,
                            contact := true, awakeAt := m.now }
          if bitAt fl 1 then
            let iv := leNat ((body.drop 6).take 4)
            let w := bitAt lk 3
            { p with interval := iv, expected := m.rad.tx.startAt + iv * tickS, order := 8 + lk % 8, wide := w,
                     channel := (if w then p.channel else ch), wideCh := (if w then ch else p.wideCh),
                     txPower := toSigned 8 (nth body 12 0).toNat }
          else { p with expected := m.rad.tx.startAt + p.interval * tickS }
      | _ => m

/-- The branches a demodulator used (R410): the one selected, or with both those whose preamble is not 10 dB or more below the other's. -/
def branchesOf (m : Main) (info : RxMeta) : Nat :=
  match cfgN m 0x4000 0x04 with
  | 0 => 1
  | 1 => 2
  | _ => if info.preB + 40 ≤ info.preA then 1 else if info.preA + 40 ≤ info.preB then 2 else 3

/-- The carrier offset of a frame adds to the statistics of the radio trim: with the 32nd, from at least [2820:05] partners, twice their median
is an estimate (R175, R179). -/
def noteOffset (m : Main) (n : Fin 256) (cfo : Int) : Main :=
  if !incremental m then m
  else
    let l := (m.rad.offsets ++ [(n.val, cfo)]).drop (m.rad.offsets.length + 1 - 32)
    if l.length < 32 || ((l.map (·.1)).dedup).length < cfgN m 0x2820 0x05 then modRad m fun r => { r with offsets := l }
    else
      let v := sortBy (fun a b => decide (a ≤ b)) (l.map (·.2))
      addResult (modRad m fun r => { r with offsets := [] }) (.radioFreq (nth v 15 0 + nth v 16 0))

/-- The words of a received DATA frame (R440). -/
def rxWords (m : Main) (n : Fin 256) (d : Fin 8) (y : Demod) (fc ctr : Nat) (info : RxMeta) (body : List Byte) : List Word :=
  [word (place 0 8 n.val + place 8 8 fc + place 16 4 y.order + place 20 1 (bitN (chanOf m y.channel).wide) + place 21 2 (branchesOf m info) +
      place 23 3 d.val),
   word ctr, word (signedField 16 info.rssi + place 16 8 (signedField 8 info.snr) + place 24 8 y.channel), word (tickAt m y.syncAt),
   word (place 0 8 body.length)] ++ packWords body

/-- A DATA frame is delivered, or kept in the radio through WATCH, which it wakes (R18, R440, R441). One whose header was heard in WATCH and
which ends once `CTL` runs is put to the space test at its end. -/
def rxData (m : Main) (n : Fin 256) (y : Demod) (ws : List Word) : Main :=
  match y.space with
  | some x => closePkt (appendPkt m x.1 x.2 ws) x.1 x.2
  | none => if ctlOn m then offerPkt m (m.pts[n]).rxQueue 0x30 0x03 ws else wake (modRad m fun r => { r with kept := r.kept ++ [((m.pts[n]).rxQueue, 0x30, ws)] }) 5

/-- A DICT frame goes to the dictionary service, or is kept through WATCH (R441, R467). -/
def rxDict (m : Main) (n : Fin 256) (body : List Byte) : Main :=
  if ctlOn m then modDict m fun d => { d with airIn := d.airIn ++ [(n, body, m.now)] }
  else wake (modRad m fun r => { r with keptDict := r.keptDict ++ [(n, body)] }) 5

/-- A frame that passed its MIC (R416, R420). -/
def rxFrame (m : Main) (n : Fin 256) (d : Fin 8) (y : Demod) (fc ctr : Nat) (info : RxMeta) (body : List Byte) : Main :=
  let type := fc % 8
  let m := modPt m n fun p =>
    { p with cfo := some y.cfo, rxCtr := ctr, awakeAt := m.now,
             up := if isSat m || type = 0 || type = 4 then last4 p.up (rxMargin info.snr y.order) else p.up }
  let m := noteOffset m n y.cfo
  if 5 ≤ type then count m 0x70F0 0x06
  else
    let m := match type with
      | 0 => rxData m n y (rxWords m n d y fc ctr info body)
      | 1 => rxAck m n body
      | 2 => rxDict m n body
      | 3 => if isSat m && m.rad.satLost then
               modRad m fun r => { r with satLost := false, satMissed := 0, satDue := true, satWake := true, satCopies := 0 }
             else m
      | _ => if isSat m then m else contact m n y body
    if bitAt fc 3 then modRad m fun r => { r with ackDue := some (ackFor m n y ctr info.snr (type == 4 && !isSat m)) } else m

/-- The payload of a frame whose last block is decoded, without its check, and whether that matches (R393, R402). -/
def heardPayload (y : Demod) (symbols : List Nat) : List Byte × Bool :=
  let plain := whiten (y.bits ++ heardBits (heardWords y.order symbols))
  let bs := leBytes (y.length + 2) (bitsNat (plain.drop 24 |>.take (8 * (y.length + 2))))
  let payload := bs.take y.length
  (payload, bs.drop y.length == leBytes 2 (CrcKind.ccitt.of payload))

/-- DEMOD_PAYLOAD_END (R402, R403, R417, R420): CRC, partner, MIC decide what becomes of the frame. -/
def demodPayloadEnd (s : State) (d : Fin 8) (symbols : List Nat) (info : RxMeta) : State :=
  let m := s.m
  let y := m.rad.demods[d]
  let r := heardPayload y symbols
  let payload := r.1
  let L := y.length
  if y.st != 3 || symbols.length + 24 != 24 * radioBlocks y.order L then s
  else if !r.2 then { s with m := demodFree (count m 0x70E0 0x05) d }
  else
    let m := modDemod (count m 0x70E0 0x06) d fun y => { y with rssi := info.rssi }
    let head := payload.take 10
    let slot := (nth head 5 0).toNat
    match (if L < 18 then none else partnerOf m (leNat ((head.drop 1).take 4)) slot) with
    | none => { s with m := demodFree (count m 0x70F0 0x06) d }
    | some n =>
      if y.dropped then { s with m := demodFree m d }
      else
        let fc := (nth head 0 0).toNat
        let ctr := leNat (head.drop 6)
        let nonce := macNonce head (!isSat m)
        let key := (s.keys.partner[n]).getD 0
        let body := ccmCrypt key nonce ((payload.drop 10).take (L - 18))
        let ok := (s.keys.partner[n]).isSome && ccmMic key nonce head body == payload.drop (L - 8)
        let m := cuRadio m false n.val fc ctr body
        if !ok then { s with m := demodFree (count m 0x70F0 0x05) d }
        else { s with m := rxFrame (modDemod m d fun y => { y with st := 0, space := none }) n d y fc ctr info body }

/-- DEMOD_PAYLOAD_END. -/
def execDemodPayloadEnd (d : Fin 8) (symbols : List Nat) (info : RxMeta) (s : State) : Out := .next (demodPayloadEnd s d symbols info)

/-- SAT_CHECKIN_DUE (R426, R430). -/
def execSatCheckinDue (s : State) : Out := onMain (fun m =>
  if !isSat m || (m.pts[(0 : Fin 256)]).state = 0 || m.rad.satLost || !radioOn m then m
  else if cfgN m 0x4100 0x09 ≤ m.rad.satMissed then modRad m fun r => { r with satLost := true }
  else modRad m fun r => { r with satDue := true, satCopies := 0, tx := { r.tx with kAtt := 3, busy := 0 } }) s

/-- GUARD_WINDOW_OPEN (R428). -/
def execGuardWindowOpen (n : Fin 256) (s : State) : Out := onMain (fun m =>
  if isSat m || !radioOn m || (m.pts[n]).state != 1 || m.rad.guard.contains n then m
  else modRad (modPt m n fun p => { p with window := true }) fun r => { r with guard := r.guard ++ [n] }) s

/-- GUARD_WINDOW_CLOSE (R429): a window without a contact is a miss; after [4100:09] the partner is LOST. -/
def guardClose (m : Main) (n : Fin 256) : Main :=
  if !m.rad.guard.contains n then m
  else
    let m := modRad m fun r => { r with guard := r.guard.filter (· != n) }
    let p := m.pts[n]
    if !p.window then m
    else
      let lost := cfgN m 0x4100 0x09 ≤ p.misses + 1
      let m := modPt (count m 0x70F0 0x0A) n fun p =>
        { p with window := false, contact := false, misses := min 255 (p.misses + 1), rdv := p.rdv + 1, further := 0,
                 expected := p.expected + p.interval * tickS, state := if lost then 2 else p.state }
      if lost then partnerEvent (count m 0x70F0 0x0B) n 1 else m

def execGuardWindowClose (n : Fin 256) (s : State) : Out := onMain (fun m => guardClose m n) s

/-- A call begins (R432). -/
def callBegin (m : Main) (n : Fin 256) : Main :=
  modRad (modPt m n fun p => { p with state := 3, calls := 0 }) fun r => { r with callDue := r.callDue.filter (· != n) ++ [n] }

/-- CALL_START: to a LOST partner (R429, R432). -/
def execCallStart (n : Fin 256) (s : State) : Out :=
  onMain (fun m => if !isSat m && (m.pts[n]).state = 2 then callBegin m n else m) s

/-- CALL_RETRY_TIMER: [4100:0E] after a call that failed (R432). -/
def execCallRetryTimer (n : Fin 256) (s : State) : Out :=
  onMain (fun m => if !isSat m && (m.pts[n]).state = 2 then callBegin m n else m) s

/-- The channels that a lost satellite listens to: the wake channel, or under profile 2 the wake group, the enabled channels from it upward, at
most 8, that lie in one capture band (R388, R430, R432). -/
def wakeGroup (m : Main) : List Nat :=
  let c0 := cfgN m 0x4100 0x0C
  if m.rad.profile != 2 then [c0]
  else
    let fits (c : Nat) : Bool :=
      let a := chanOf m c0
      let b := chanOf m c
      decide (b.freq - a.freq + (a.bw + b.bw) * 3 / 4 ≤ 3200000)
    (((List.range 64).filter fun c => decide (c0 ≤ c) && (chanOf m c).en).takeWhile fits).take 8

/-- The middle of the band that a group of channels takes. -/
def groupCentre (m : Main) (g : List Nat) : Nat :=
  ((chanOf m (g.headD 0)).freq + (chanOf m (g.getLastD 0)).freq) / 2

/-- A lost satellite listens for 8 symbols of the wake order; the capture band moves where the wake channels lie outside it (R430, R432). A
preamble heard is taken by the detector, and its reception goes on past the window. -/
def satListen (m : Main) : Main :=
  if !isSat m || !m.rad.satLost || !radioOn m || m.rad.tx.active then m
  else
    let g := wakeGroup m
    let m := if g.all fun c => inBand m (chanOf m c) then m else modRad (dropReceptions m true) fun r => { r with fLO := groupCentre m g, gates := [] }
    let sym := 2 ^ cfgN m 0x4100 0x0B * 5 / (if (chanOf m (g.headD 0)).wide then 2 else 1)
    modRad m fun r => { r with listenUntil := max r.listenUntil (m.now + 8 * sym * tickUs) }

/-- SAT_LOST_LISTEN. -/
def execSatLostListen (s : State) : Out := onMain satListen s

/-- AWAKE_WINDOW_EXPIRY (R426). -/
def execAwakeWindowExpiry (s : State) : Out := onMain (fun m =>
  if isSat m then modPt (modRad m fun r => { r with satAwake := false }) 0 fun p => { p with contact := false } else m) s

/-- TX_REQUEST (R438, R439): a host request enters the hold, or is refused. -/
def txRequest (m : Main) (q : Fin 32) : Main :=
  if !ctlOn m || holdSize ≤ m.rad.hold.length || (m.pool.qs[q]).consumer != 4 then m
  else
    let r := headOf m q
    match r.1 with
    | .packet p =>
      let m := dropHead r.2 q
      let w0 := (nth p.words 0 0).toNat
      let w1 := (nth p.words 1 0).toNat
      let n := finOf 256 (w0 % 256)
      let len := w1 % 256
      let h : Held :=
        { slot := n, ackReq := bitAt w0 8, now := bitAt w0 9, htag := field w0 16 16, body := (wordsBytes (p.words.drop 2)).take len,
          made := m.now, expiry := field w1 16 16 }
      if p.type != 0x31 || 237 < len || p.words.length != 2 + (len + 3) / 4 || (m.pts[n]).state = 0 || (isSat m && n != 0) then txReport m h 4
      else holdPut m h
    | _ => r.2

def execTxRequest (second : Bool) (s : State) : Out := onMain (fun m => txRequest m (if second then 17 else 16)) s

/-- TX_FRAME_EXPIRY (R439). -/
def execTxFrameExpiry (i : Nat) (s : State) : Out := onMain (fun m =>
  match m.rad.hold[i]? with
  | some h => if h.expiry = 0 then m else giveUp (count m 0x70F0 0x10) i 3
  | none => m) s

/-- A partner key is stored; both counters of the partner start again (R419, R421). -/
def keyWrite (s : State) (n : Fin 256) (key : BitVec 128) : State :=
  { s with keys := { s.keys with partner := s.keys.partner.set n (some key), reserved := s.keys.reserved.set n 0 },
           m := modPt s.m n fun p => { p with txCtr := 0, rxCtr := 0 } }

/-- PARTNER_KEY_WRITE, in a main mode (R443). -/
def execPartnerKeyWrite (n : Fin 256) (key : BitVec 128) (s : State) : Out :=
  onServiceAll (fun s => (if s.m.pw.mode.isMain then keyWrite s n key else s)) s

/-- A partner becomes EMPTY. -/
def partnerEmpty (m : Main) (n : Fin 256) : Main :=
  modRad (modPt m n fun p => { p with state := 0, misses := 0, calls := 0, window := false, contact := false, oldLink := none }) fun r =>
    { r with guard := r.guard.filter (· != n), callDue := r.callDue.filter (· != n) }

/-- The key store is erased (R421). -/
def eraseKeys (s : State) : State := { s with keys := {}, m := forEach (allFin 256) s.m partnerEmpty }

/-- KEY_ERASE, in CALIBRATE: 0xE5 only (R421, R442). -/
def execKeyErase (value : BitVec 8) (s : State) : Out :=
  onServiceAll (fun s => (if s.m.pw.mode == .calibrate && value = 0xE5 then eraseKeys s else s)) s

/-- A write of [4200+n:01] (R443): whether it is accepted. -/
def partnerWrite (s : State) (n : Fin 256) (v : Nat) : Bool × State :=
  let st := (s.m.pts[n]).state
  if v = 0 then (true, { s with m := partnerEmpty s.m n })
  else if v = 1 then
    if (s.keys.partner[n]).isNone then (false, s)
    else (true, { s with m := modRad (modPt s.m n fun p => { p with state := 1, misses := 0, calls := 0 }) fun r =>
                    { r with callDue := r.callDue.filter (· != n) } })
  else if v = 3 then (if st = 0 || isSat s.m then (false, s) else (true, { s with m := callBegin s.m n }))
  else (false, s)

/-- PARTNER_STATE_WRITE, in a main mode. -/
def execPartnerStateWrite (n : Fin 256) (value : BitVec 8) (s : State) : Out :=
  onServiceAll (fun s => (if s.m.pw.mode.isMain then (partnerWrite s n value.toNat).2 else s)) s

/-- WATCH_LISTEN_WINDOW (R441). -/
def execWatchListenWindow (s : State) : Out := onMain (fun m =>
  if m.pw.mode == .watch && cfgN m 0x4100 0x13 != 0 then modRad m fun r => { r with listenUntil := m.now + cfgN m 0x4100 0x14 * tickMs }
  else m) s

end Sys2Proof.Machine
end

