-- ==== Sys2Proof/Machine/LaceOps.lean ====
section
/-!
DEFINITION. Machine/LaceOps.lean: the lace port: arrival of frames (R530–R533), formation and loss of members (R534, R545, R546), ticks,
carrier alignment (R535, R537), claims (R539) and the merged journal (R544). What the frames of chapter 20 carry beyond its tables is the
model's (log 14).
-/

namespace Sys2Proof.Machine

/-- Whether the `LACE` island is powered (R28, R546). -/
def laceOn (m : Main) : Bool := m.pw.fwRunning && (m.pw.mode.isMain || m.pw.mode == .hold)

def linkOf (m : Main) : LaceLink → Link
  | .a => m.lace.linkA
  | .b => m.lace.linkB

def modLink (m : Main) (l : LaceLink) (f : Link → Link) : Main :=
  match l with
  | .a => modLace m fun x => { x with linkA := f x.linkA }
  | .b => modLace m fun x => { x with linkB := f x.linkB }

def otherLink : LaceLink → LaceLink
  | .a => .b
  | .b => .a

/-- The journal source of the lace port. -/
def srcLace : Nat := 0x34

def laceHas (m : Main) (d : Nat) : Bool := m.lace.members.toNat.testBit d

/-- The members that a set names. -/
def membersIn (s : BitVec 4) : List (Fin 4) := (allFin 4).filter fun d => s.toNat.testBit d.val

/-- A set of devices. -/
def deviceSet (ds : List Nat) : BitVec 4 := ds.foldl (fun s d => s ||| BitVec.ofNat 4 (2 ^ d)) 0

/-- Every member found at formation can be reached. -/
def allReached (l : Lace) : Bool := decide (l.size ≤ (membersIn l.members).length)

/-- The head of a frame, and its payload: what lies between the head and the CRC-32C (R531). -/
def laceHeadOf (ws : List Word) : LaceHead :=
  let w0 := (nth ws 0 0).toNat
  let w1 := (nth ws 1 0).toNat
  { type := BitVec.ofNat 4 w0, src := finOf 4 (field w0 4 2), dst := finOf 4 (field w0 6 2), bcast := bitAt w0 8,
    eseq := BitVec.ofNat 16 w1, lseq := BitVec.ofNat 16 (field w1 16 16), len := BitVec.ofNat 16 (field w0 16 16) }

def lacePayload (ws : List Word) : List Word := (ws.drop 2).dropLast

/-- Whether a frame is whole: its `LENGTH` and its CRC-32C agree with its words (R531). -/
def laceWhole (ws : List Word) : Bool :=
  decide (3 ≤ ws.length) && decide ((laceHeadOf ws).len.toNat = 4 * (ws.length - 3)) && ws == laceSealed ws.dropLast

/-- A frame has come from a device: it can be reached (R534). -/
def markReach (m : Main) (d : Fin 4) : Main :=
  modLace m fun l =>
    let l := { l with members := l.members ||| deviceSet [d.val], departed := l.departed &&& ~~~(deviceSet [d.val]) }
    if l.state = 4 && allReached l then { l with state := 3 } else l

/-- DISCOVER goes out of a link that is up, with its count of hops and, in bit 8, whether the lead sent it (R534; layout log 14). -/
def passDiscover (m : Main) (l : LaceLink) (hops : Nat) (byLead : Bool) : Main :=
  let ws := [word (place 0 8 hops + place 8 1 (bitN byLead))]
  if (linkOf m l).up then linkSend m l (laceHead m 0 none ws) 0 ws else m

/-- The device's own DISCOVER (R534). -/
def sendDiscover (m : Main) (l : LaceLink) : Main := passDiscover m l 1 (m.lace.role == 1)

/-- Formation starts (R534): FORMING, DISCOVER out of both links. -/
def laceForm (m : Main) : Main :=
  let m := modLace m fun l =>
    { l with state := 1, role := if m.pw.follower then 2 else 1, size := 1, device := if m.pw.follower then l.device else 0,
             members := deviceSet [if m.pw.follower then l.device.val else 0], sideB := 0, aligned := false, alignAt := none, wasRing := false, foundA := 0, foundB := 0,
             departed := 0, eseqOut := [0, 0, 0, 0, 0], eseqIn := [0, 0, 0, 0, 0, 0, 0, 0] }
  sendDiscover (sendDiscover m .a) .b

/-- The lead's TICK (R535). -/
def sendTick (m : Main) : Main :=
  if m.lace.role = 1 then let t := tickAt m m.now; laceSend m 0x1 none [word t, word (t / 2 ^ 32)] else m

/-- The lead's ALIGN names a boundary of 25 µs to come (R537); which one is open (log 1). -/
def sendAlign (m : Main) : Main :=
  if m.lace.role = 1 then
    let d := draw m
    let t := (tickAt m m.now / 10000 + 1 + d.1.toNat % 1000) * 10000
    laceSend d.2 0x3 none [word t, word (t / 2 ^ 32)]
  else m

/-- The lace has formed or grown: journalled, and a size that differs from [7800:04] too; the lead sends TICK and ALIGN (R534, R535,
R537). -/
def laceFormed (m : Main) (st : Nat) (members : BitVec 4) : Main :=
  let n := (membersIn members).length
  let m := modLace m fun l => { l with state := st, members := members, size := max l.size n, wasRing := l.wasRing || st == 2 }
  let m := journal m srcLace 0x9001 [st, members.toNat]
  let m := if cfgN m 0x7800 0x04 != 0 && cfgN m 0x7800 0x04 != m.lace.size then journal m srcLace 0x9005 [m.lace.size] else m
  sendAlign (sendTick m)

/-- The number that a position gives: along link A of the lead the hops, along its link B the expected size less the hops (R534). -/
def positionNumber (m : Main) (alongA : Bool) (hops : Nat) : Option Nat :=
  let e := cfgN m 0x7800 0x04
  let n := if alongA then hops else if e = 0 then 0 else e - hops
  if 1 ≤ n && n ≤ 3 then some n else none

/-- Members can no longer be reached (R541, R543, R545): stitches they hold are lost, and nothing is awaited of their fields. -/
def laceLose (m : Main) (gone : List (Fin 4)) : Main :=
  let lost (d : Fin 4) : Bool := gone.contains d
  let m := countN m 0x70F8 0x0C (m.lace.away.filter fun x => lost x.1).length
  let m := modLace m fun l =>
    { l with members := l.members &&& ~~~(deviceSet (gone.map (·.val))), away := l.away.filter fun x => !lost x.1,
             edge := l.edge.filter fun f => !lost (finOf 4 (f.gport.val / 128)), claims := l.claims.filter fun x => !lost x.1,
             holding := l.holding.filter fun x => !lost x.1,
             claimed := l.claimed.filter fun x => !(x.2.any lost) }
  evaluate (releaseGaps m)

/-- Frames that a failed link had not delivered go out by the other one (R534). -/
def reroute (m : Main) (l : LaceLink) : Main :=
  let fs := (linkOf m l).unacked
  let m := modLink m l fun k => { k with up := false, unacked := [] }
  if (linkOf m (otherLink l)).up then
    forEach fs m fun m f =>
      linkSend m (otherLink l) (nth f.words 0 0).toNat ((nth f.words 1 0).toNat % 65536) (lacePayload f.words)
  else m

/-- Members on the side of a link; all of them when the other link is down too. -/
def sideOf (m : Main) (l : LaceLink) : List (Fin 4) :=
  (membersIn m.lace.members).filter fun d =>
    d != m.lace.device && (!(linkOf m (otherLink l)).up || ((l == .b) == m.lace.sideB.toNat.testBit d.val))

/-- Members are cut off: SPLIT (R534, R545). -/
def laceSplit (m : Main) (gone : List (Fin 4)) : Main :=
  if gone.isEmpty then m
  else
    let m := laceLose (modLace m fun l => { l with state := 4 }) gone
    journal m srcLace 0x9004 [m.lace.members.toNat]

/-- A link goes DOWN (R530, R534). -/
def linkFall (m : Main) (l : LaceLink) : Main :=
  if !(linkOf m l).up then m
  else
    let m := reroute (count m 0x70F8 0x05) l
    if m.lace.state = 2 then
      let m := modLace (count m 0x70F8 0x06) fun x =>
        { x with state := 3, sideB := if l == .a then ~~~(deviceSet [x.device.val]) else 0 }
      journal m srcLace 0x9002 [bitN (l == .b)]
    else if m.lace.state = 3 || m.lace.state = 4 then laceSplit m (sideOf m l)
    else m

/-- A frame comes in over a link: whether its CRC-32C passes. A good one is acknowledged; more than 16 failures within 1 ms take the link
down (R530). -/
def hearFrame (m : Main) (l : LaceLink) (ws : List Word) : Bool × Main :=
  if !laceOn m || !(linkOf m l).up then (false, m)
  else if laceWhole ws then
    (true, modLink (count m 0x70F8 0x02) l fun k => { k with acked := some (laceHeadOf ws).lseq.toNat })
  else
    let m := modLink (count m 0x70F8 0x03) l fun k =>
      { k with failed := (k.failed.filter fun t => decide (m.now < t + tickMs)) ++ [m.now] }
    (false, if 16 < (linkOf m l).failed.length then linkFall m l else m)

/-- A frame arrives at the row that serves it (R530–R533): whether it is taken. A failed CRC, a reserved type, a frame of its own, and a
sequence number at or behind the last one drop it; a good frame that another row serves is not this row's event (log 3). -/
def laceArrive (m : Main) (l : LaceLink) (ws : List Word) (mine : Bool) : Bool × Main :=
  let h := laceHeadOf ws
  let drop := decide (0xB ≤ h.type.toNat) || h.src == m.lace.device
  if laceWhole ws && !drop && !(mine && (h.bcast || h.dst == m.lace.device)) then (false, m)
  else
    let r := hearFrame m l ws
    let m := r.2
    if !r.1 || drop || decide (m.lace.state < 2) then (false, m)
    else
      let i := h.src.val + 4 * bitN h.bcast
      let d := toSigned 16 (fromSigned 16 ((h.eseq.toNat : Int) - nth m.lace.eseqIn i 0))
      if d ≤ 0 then (false, count m 0x70F8 0x0D)
      else
        let m := countIf (decide (1 < d)) m 0x70F8 0x0C
        (true, markReach (modLace m fun l => { l with eseqIn := l.eseqIn.set i h.eseq.toNat }) h.src)

/-- Whether a frame is of a type (R532). -/
def isLace (ws : List Word) (type : Nat) : Bool := (laceHeadOf ws).type.toNat == type

/-- Two payload words from a place as one count, low word first. -/
def payload64 (ws : List Word) (i : Nat) : Nat :=
  (nth (lacePayload ws) i 0).toNat + 2 ^ 32 * (nth (lacePayload ws) (i + 1) 0).toNat

/-- Hops from this device to another along link A of a ring of four places. -/
def hopsA (m : Main) (n : Nat) (d : Fin 4) : Nat := (d.val + n - m.lace.device.val) % n

/-- A member departs (R546): its links count as DOWN without a link fault in the journal; a ring becomes a chain without it, and members
beyond it in a chain are cut off. -/
def laceDepart (m : Main) (d : Fin 4) : Main :=
  if !laceOn m || m.lace.state < 2 || d == m.lace.device || !laceHas m d.val then m
  else
    let ring := m.lace.state == 2
    let n := max 2 m.lace.size
    let k := hopsA m n d
    let onB := if ring then decide (k = n - 1) && decide (k ≠ 1) else m.lace.sideB.toNat.testBit d.val
    let far := (membersIn m.lace.members).filter fun x =>
      x != m.lace.device && x != d && !ring && (m.lace.sideB.toNat.testBit x.val == onB) &&
      (if onB then decide (hopsA m n x < k) else decide (k < hopsA m n x))
    let m := modLace m fun l => { l with departed := l.departed ||| deviceSet [d.val] }
    let m := if k = 1 && (ring || !onB) then reroute m .a else m
    let m := if k = n - 1 && (ring || onB) then reroute m .b else m
    if ring then
      let m := modLace (count m 0x70F8 0x06) fun l =>
        { l with state := 3, sideB := deviceSet (((membersIn l.members).filter fun x => decide (k < hopsA m n x)).map (·.val)) }
      laceLose m [d]
    else if far.isEmpty then laceLose m [d]
    else laceSplit m (d :: far)

/-- A claim of another device is answered (R539). -/
def answerClaim (m : Main) (d : Fin 4) (ok : Bool) : Main := laceSend m 0x6 (some d) [word (bitN ok)]

/-- A claim is accepted: the coupled ports, all in a gap, are held for it. -/
def acceptClaim (m : Main) (d : Fin 4) (f : EdgeField) : Main :=
  let v := EdgeField.view f
  let m := modLace m fun l => { l with claims := l.claims.filter fun x => !(x.1 == d && x.2 == f), holding := l.holding ++ [(d, f)] }
  let m := forEach (allFin 16) m fun m k =>
    match fieldView m k with
    | some q => if gapsFor m q v then modCore m k fun c => { c with gapHold := true } else m
    | none => m
  answerClaim (latchPairs m v) d true

/-- Whether R127 refuses a claimed field beside this device's own (R539). -/
def claimRefused (m : Main) (f : EdgeField) : Bool :=
  let v := EdgeField.view f
  let own := (allFin 16).filterMap (fieldView m)
  own.any (pairRefused m [] v) ||
  (v.stp && own.any fun q => q.stp && q.sub8 == v.sub8 && kAtLeast m q v (cfgI m 16 0x2300 0x06)) ||
  (own.any fun q => decide (pow100 (cfgI m 16 0x2300 0x07) < (leakAt m (fieldsF m ++ [v]) q).norm))

/-- A CLAIM is served (R539). Of two devices that claim at once, the higher-numbered one is refused. -/
def takeClaim (m : Main) (d : Fin 4) (f : EdgeField) : Main :=
  let clash := (m.lace.claimed.map fun x => x.2.contains d) == some true && decide (m.lace.device.val < d.val)
  if clash || claimRefused m f then answerClaim (count m 0x70F8 0x09) d false
  else if changeBlocked m (EdgeField.view f) then modLace m fun l => { l with claims := l.claims ++ [(d, f)] }
  else acceptClaim m d f

/-- A claim made that cannot be used is given up: the devices that accepted it are told of a field off. -/
def dropClaim (m : Main) (w : Owner) : Main :=
  match m.lace.claimed, m.sch.reqs.find? fun r => r.owner = w with
  | some (o, []), some r =>
    if o = w then laceSend (modLace m fun l => { l with claimed := none }) 0x4 none (edgeWords (gport m r.port) false 0 0 false (r.proto != .stp))
    else m
  | _, _ => m

/-- A follower's entry is entered by the lead (R544, R552). -/
def journalMerge (m : Main) (src : Fin 4) (e : List Word) : Main :=
  let w1 := (nth e 1 0).toNat
  let code := field w1 0 16
  let c := code / 0x1000
  if !ctlOn m || decide (e.length < 7) || decide (12 ≤ c) || !classOn m c then m
  else if c != 0 && decide (cfgN m 0x7100 0x03 ≤ nth m.flt.budget c 0) then
    count (modFlt m fun f => { f with supp := f.supp.set c true }) 0x7008 0x03
  else
    let seq := nextJseq m.flt.jseq
    let body := [word seq, word (code + place 16 8 srcLace + place 24 2 src.val + place 26 1 1 + place 27 1 (bitN (nth m.flt.supp c false)) +
        place 28 3 (field w1 28 3))] ++ (e.drop 2).take 4 ++ [nth e 0 0] ++ e.drop 7
    let m := modFlt m fun f => { f with jseq := seq, budget := f.budget.set c (nth f.budget c 0 + 1), supp := f.supp.set c false }
    settle (journalPut (count m 0x70F8 0x0E) body)

/-- A packet that the lace port has received is written into a job queue with the moment of its close and its origin (R543). -/
def putStitch (m : Main) (q : Fin 32) (ws : List Word) (closed : Nat) (src : Fin 4) : Main :=
  let o := openPkt m q 0x20 0x04 (cellsOfWords (ws.length + 1))
  let m := modQ (closePkt (appendPkt o.1 q o.2 ws) q o.2) q fun x =>
    { x with pkts := x.pkts.map fun p => if p.id = o.2 then { p with closedAt := closed, origin := some src } else p }
  m

/-- The local time of a tick count of the lace. -/
def timeOfTick (m : Main) (t : Nat) : Nat := ((t : Int) - m.lace.tickNow).toNat

/-- The words of a lace frame of STITCH type: job queue and, in a refusal, bit 31, then the tick of the close and the descriptor (log 14). -/
def stitchWords (q : Nat) (refused : Bool) (t : Nat) (ws : List Word) : List Word :=
  [word (q + place 31 1 (bitN refused)), word t, word (t / 2 ^ 32)] ++ ws

/-- The job queue that a STITCH frame names, and whether it is a refusal (log 14). -/
def stitchOf (ws : List Word) : Nat × Bool :=
  let w := (nth (lacePayload ws) 0 0).toNat
  (field w 0 2, bitAt w 31)

/-- A frame of Q23 leaves, or what cannot leave is dropped: a stitch for a device that cannot be reached is lost (R542, R543). -/
def laceDispatch (m : Main) (w0 : Nat) (payload : List Word) : Main :=
  let type := field w0 0 4
  let dst := finOf 4 (field w0 6 2)
  if type = 7 && dst == m.lace.device then
    modDict m fun d => { d with laceIn := d.laceIn ++ [(finOf 4 (field w0 4 2), wordsBytes payload, m.now)] }
  else if laceReach m dst.val then laceSend m type (some dst) payload
  else if type = 8 then
    let hit := m.lace.away.filter fun x => x.1 == dst
    match hit with
    | x :: _ => modLace (count m 0x70F8 0x0C) fun l => { l with away := l.away.erase x }
    | [] => m
  else m

end Sys2Proof.Machine
end

