-- ==== Sys2Proof/Machine/Lace.lean ====
section
/-!
DEFINITION. Machine/Lace.lean: the meanings of the lace port's steps (chapter 20).
-/

namespace Sys2Proof.Machine

/-- Training ends (R529, R534): from the rate of [7800:06] down, the first at which no symbol error was seen is taken, and the lace forms or
grows; without one the link stays DOWN. -/
def linkTrained (m : Main) (l : LaceLink) (clean : BitVec 3) (latency : Nat) : Main :=
  if !laceOn m || (linkOf m l).up then m
  else
    let top := cfgN m 0x7800 0x06
    match (List.range 3).find? fun r => decide (top ≤ r) && clean.toNat.testBit r with
    | none => modLink (countN m 0x70F8 0x0F (2 - top)) l fun k => { k with training := false }
    | some r =>
        let m := modLink (countN m 0x70F8 0x0F (r - top)) l fun _ => { up := true, rate := r, latency := latency % 65536 }
        if m.lace.state = 0 then laceForm m
        else if m.lace.state = 1 then sendDiscover m l
        else sendDiscover (sendDiscover m .a) .b

/-- LACE_LINK_TRAINED. -/
def execLaceLinkTrained (link : LaceLink) (clean : BitVec 3) (latency : Nat) (s : State) : Out :=
  onMain (fun m => linkTrained m link clean latency) s

/-- LACE_LINK_DOWN (R530, R534, R545). -/
def execLaceLinkDown (link : LaceLink) (s : State) : Out := onMain (fun m => linkFall m link) s

/-- The frame that has waited longest for its acknowledgement is sent again, up to three times; after that the link goes DOWN (R530). -/
def linkRetransmit (m : Main) (l : LaceLink) : Main :=
  let fs := (linkOf m l).unacked
  match fs.findIdx? fun f => fs.all fun g => decide (f.at_ ≤ g.at_) with
  | some i =>
    if ((fs[i]?).map (·.tries)).getD 0 < 3 then
      modLink (count m 0x70F8 0x04) l fun k => { k with unacked := k.unacked.modify i fun f => { f with tries := f.tries + 1, at_ := m.now } }
    else linkFall m l
  | none => m

/-- LACE_RETRANSMIT_TIMEOUT. -/
def execLaceRetransmitTimeout (link : LaceLink) (s : State) : Out := onMain (fun m => linkRetransmit m link) s

/-- LACE_LINK_ACK (R530). -/
def execLaceLinkAck (link : LaceLink) (lseq : BitVec 16) (s : State) : Out :=
  onMain (fun m => modLink m link fun k => { k with unacked := k.unacked.filter fun f => f.lseq != lseq.toNat }) s

/-- A DOWN link trains again (R530). -/
def execLaceRetrainTimer (link : LaceLink) (s : State) : Out :=
  onMain (fun m => if laceOn m && !(linkOf m link).up then modLink m link fun k => { k with training := true } else m) s

/-- No link has trained within 5 ms: the device works alone (R534). -/
def formingTimeout (m : Main) : Main :=
  if m.lace.state = 1 && !m.lace.linkA.up && !m.lace.linkB.up then
    let m := modLace m fun l => { l with state := 0, role := 0, size := 1, members := 1, numbered := false, device := 0 }
    if 2 ≤ cfgN m 0x7800 0x04 then journal m srcLace 0x9005 [1] else m
  else m

/-- LACE_FORMING_TIMEOUT. -/
def execLaceFormingTimeout (s : State) : Out := onMain formingTimeout s

/-- 20 ms have passed without a return of DISCOVER at the lead: a chain of the devices reached (R534). -/
def chainTimeout (m : Main) : Main :=
  if !laceOn m || m.lace.state != 1 || m.lace.role != 1 || !(m.lace.linkA.up || m.lace.linkB.up) then m
  else
    let as := (List.range (min m.lace.foundA 3)).map (· + 1)
    let hops := (List.range m.lace.foundB).map (· + 1)
    let ok (h : Nat) : Bool := match positionNumber m false h with
      | some n => !as.contains n
      | none => false
    let bs := (hops.filter ok).filterMap (positionNumber m false)
    let m := forEach (hops.filter fun h => !ok h) m fun m h => journal m srcLace 0x9006 [h]
    laceFormed (modLace m fun l => { l with sideB := deviceSet bs }) 3 (deviceSet (0 :: as ++ bs))

/-- LACE_CHAIN_TIMEOUT. -/
def execLaceChainTimeout (s : State) : Out := onMain chainTimeout s

/-- A frame for another device is passed on by the other link, unchanged but for a new `LSEQ`; a broadcast is passed on too, and is counted
where it is taken (R532, R533). DISCOVER is passed on by its own row, which counts its hops. -/
def forwardFrame (m : Main) (l : LaceLink) (ws : List Word) : Main :=
  let h := laceHeadOf ws
  let whole := laceWhole ws
  if decide (m.lace.state < 2) || (whole && (h.type == 0 || (!h.bcast && h.dst == m.lace.device))) then m
  else
    let r := if whole && h.bcast then (laceOn m && (linkOf m l).up, m) else hearFrame m l ws
    let m := r.2
    if !r.1 || decide (0xB ≤ h.type.toNat) || h.src == m.lace.device || !(linkOf m (otherLink l)).up then m
    else linkSend m (otherLink l) (nth ws 0 0).toNat h.eseq.toNat (lacePayload ws)

/-- LACE_FRAME_FORWARD. -/
def execLaceFrameForward (link : LaceLink) (words : List Word) (s : State) : Out := onMain (fun m => forwardFrame m link words) s

/-- The lead receives DISCOVER (R534): its own, returned through link B, closes the ring; one of a follower shows how far the followers of
that link reach while the lace forms, and admits the follower to a chain. -/
def leadDiscover (m : Main) (l : LaceLink) (hops : Nat) (returned : Bool) : Main :=
  let st := m.lace.state
  if returned then
    if l == .a || hops < 2 || 4 < hops then m
    else
      let all := deviceSet (List.range hops)
      if st = 1 then laceFormed m 2 all
      else if st = 3 && m.lace.wasRing then
        let m := modLace (count m 0x70F8 0x07) fun x => { x with state := 2, members := x.members ||| all }
        sendAlign (sendTick (journal m srcLace 0x9003 []))
      else if st = 3 then laceFormed m 2 (m.lace.members ||| all)
      else if st = 4 then
        evaluate (sendAlign (sendTick (modLace m fun x => { x with state := 2, members := x.members ||| all })))
      else m
  else if st = 1 then
    modLace m fun x => if l == .a then { x with foundA := max x.foundA hops } else { x with foundB := max x.foundB hops }
  else if st = 3 || st = 4 then
    match positionNumber m (l == .a) hops with
    | none => journal m srcLace 0x9006 [hops]
    | some n =>
      if laceHas m n then m
      else
        let m := modLace m fun x => { x with sideB := if l == .b then x.sideB ||| deviceSet [n] else x.sideB &&& ~~~(deviceSet [n]) }
        laceFormed m (if st = 4 && decide (m.lace.size ≤ (membersIn m.lace.members).length + 1) then 3 else st) (m.lace.members ||| deviceSet [n])
  else m

/-- A follower receives DISCOVER of the lead (R534): the first numbers it by its position; one by the other link shows that the ring is
closed. -/
def followerDiscover (m : Main) (l : LaceLink) (hops : Nat) : Main :=
  let lk := m.lace
  if lk.state = 1 then
    match (if lk.numbered then some lk.device.val else positionNumber m (l == .b) hops) with
    | none => m
    | some n =>
      let mem := if l == .b then List.range (n + 1) else [0, n]
      let m := modLace m fun x =>
        { x with device := finOf 4 n, numbered := true, sideB := if l == .b then deviceSet (List.range n) else 0 }
      laceFormed m 3 (deviceSet mem)
  else if lk.state = 3 || lk.state = 4 then
    let n := lk.device.val
    if (l == .b) == lk.sideB.toNat.testBit 0 && laceHas m 0 then m
    else if !laceHas m 0 then
      modLace (markReach m 0) fun x => { x with sideB := if l == .b then x.sideB ||| 1 else x.sideB &&& ~~~1 }
    else
      let total := if l == .a then n + hops else lk.size
      let all := lk.members ||| deviceSet (List.range (min 4 total))
      if lk.wasRing then journal (modLace (count m 0x70F8 0x07) fun x => { x with state := 2, members := all }) srcLace 0x9003 []
      else laceFormed m 2 all
  else m

/-- A follower passes each DISCOVER on with one hop more, answers the lead's, and keeps the latency of the path that half the round trip
gives (R534, R535). -/
def discoverAt (m : Main) (l : LaceLink) (hops : Nat) (byLead : Bool) (latency : Nat) : Main :=
  let m := passDiscover m (otherLink l) (hops + 1) byLead
  if byLead then
    let m := passDiscover m l 1 false
    modLace (followerDiscover m l hops) fun x => if x.numbered then { x with pathLat := latency } else x
  else m

/-- LACE_DISCOVER. -/
def execLaceDiscover (link : LaceLink) (words : List Word) (latency : Nat) (s : State) : Out :=
  onMain (fun m =>
    let w := (nth (lacePayload words) 0 0).toNat
    if laceWhole words && !isLace words 0 then m
    else
      let r := hearFrame m link words
      if !r.1 || r.2.lace.state = 0 then r.2
      else if r.2.lace.role = 1 then leadDiscover r.2 link (field w 0 8) (bitAt w 8)
      else discoverAt r.2 link (field w 0 8) (bitAt w 8) latency) s

/-- TICK (R535): the counter takes the lead's count plus the latency of the path, both in ticks; it is held rather than moved back. -/
def takeTick (m : Main) (count_ : Nat) : Main :=
  let cur := tickAt m m.now
  let goal := count_ + m.lace.pathLat
  modLace m fun l => { l with tickOff := (goal : Int) - cur, tickNow := (goal : Int) - m.now, tickFloor := cur }

/-- LACE_TICK. -/
def execLaceTick (link : LaceLink) (words : List Word) (s : State) : Out :=
  onMain (fun m =>
    let r := laceArrive m link words (isLace words 0x1)
    if r.1 && r.2.lace.role == 2 && (laceHeadOf words).src == 0 then takeTick r.2 (payload64 words 0) else r.2) s

/-- LACE_TICK_TIMER (R535). -/
def execLaceTickTimer (s : State) : Out := onMain (fun m => if laceOn m then sendTick m else m) s

/-- PHASE (R90, R536): the follower's generator has the lead's phase at the stamped tick, its cycle count, period estimate and state; a
passage of phase 0 that shows first here moves the plan (R88). -/
def takePhase (m : Main) (stamp cycle phase period st : Nat) : Main :=
  let before := m
  let old := m.ph.cycle
  let m := modPh m fun p =>
    { p with base := phase, at_ := min m.now (timeOfTick m stamp), hold := 0, slewE := 0, slewEnd := 0, period := max 1 period, cycle := cycle,
             st := st, missed := 0, accepted := true, pendPeriod := none }
  let m := if cycle = old then m else maybeSwitch m old
  windowsChanged before (fun _ _ => false) (refreshWindows m)

/-- LACE_PHASE. -/
def execLacePhase (link : LaceLink) (words : List Word) (s : State) : Out :=
  onMain (fun m =>
    let r := laceArrive m link words (isLace words 0x2)
    let ws := lacePayload words
    let w3 := (nth ws 3 0).toNat
    if r.1 && r.2.lace.role == 2 && (laceHeadOf words).src == 0 && engOn m then
      takePhase r.2 (payload64 words 0) (nth ws 2 0).toNat (if bitAt w3 20 then 0 else field w3 0 16) (nth ws 4 0).toNat (field w3 16 2)
    else r.2) s

/-- Under the encoder source the lead sends PHASE every 100 µs (R536). -/
def execLacePhaseTimer (s : State) : Out :=
  onMain (fun m => if laceOn m && engOn m && phaseSource m = 2 then sendPhase m false else m) s

/-- A boundary PHASE is missing at a follower (R73, R90, R536). -/
def execLacePhaseMissing (s : State) : Out :=
  onMain (fun m => if laceOn m && engOn m && m.lace.role = 2 && decide (2 ≤ m.lace.state) then missedEdge (count m 0x70F8 0x08) else m) s

/-- ALIGN (R537). -/
def execLaceAlign (link : LaceLink) (words : List Word) (s : State) : Out :=
  onMain (fun m =>
    let r := laceArrive m link words (isLace words 0x3)
    if r.1 && r.2.lace.role == 2 && (laceHeadOf words).src == 0 then modLace r.2 fun l => { l with alignAt := some (payload64 words 0) }
    else r.2) s

/-- The boundary that ALIGN named (R537): the carrier dividers of a follower are in step with the lead. -/
def alignBoundary (m : Main) : Main :=
  match m.lace.alignAt with
  | some t =>
    if decide (t ≤ tickAt m m.now) && m.lace.role == 2 then evaluate (modLace m fun l => { l with aligned := true, alignAt := none }) else m
  | none => m

/-- LACE_ALIGN_BOUNDARY. -/
def execLaceAlignBoundary (s : State) : Out := onMain alignBoundary s

/-- The carrier VCO has locked again (R537): a follower is no longer aligned; the lead sends ALIGN. -/
def execCarrierVcoRelock (s : State) : Out :=
  onMain (fun m =>
    if m.lace.role = 2 then modLace m fun l => { l with aligned := false, alignAt := none }
    else if laceOn m then sendAlign m
    else m) s

/-- FIELD (R532, R539): the field of another device's edge port is on, off or changed; a hold for its claim ends once the DACs follow. -/
def takeField (m : Main) (f : EdgeField) : Main :=
  let m := if (fieldsF m).any fun v => v.g == f.gport.val then m else latchPairs m (EdgeField.view f)
  let m := modLace m fun l =>
    { l with edge := (l.edge.filter fun x => x.gport != f.gport) ++ (if f.isOn then [f] else []),
             holding := l.holding.filter fun x => x.2.gport != f.gport, claims := l.claims.filter fun x => x.2.gport != f.gport }
  evaluate (releaseGaps (loadCoupled m (EdgeField.view f)))

/-- LACE_FIELD. -/
def execLaceField (link : LaceLink) (words : List Word) (s : State) : Out :=
  onMain (fun m =>
    let r := laceArrive m link words (isLace words 0x4)
    let f := edgeOf (lacePayload words)
    if r.1 && f.gport.val / 128 == (laceHeadOf words).src.val then takeField r.2 f else r.2) s

/-- LACE_CLAIM (R539). -/
def execLaceClaim (link : LaceLink) (words : List Word) (s : State) : Out :=
  onMain (fun m =>
    let r := laceArrive m link words (isLace words 0x5)
    let f := edgeOf (lacePayload words)
    let src := (laceHeadOf words).src
    if r.1 && f.gport.val / 128 == src.val then takeClaim r.2 src f else r.2) s

/-- The coupled ports are in a gap: a waiting claim is accepted (R539). -/
def claimGap (m : Main) (d : Fin 4) : Main :=
  match m.lace.claims.find? fun x => x.1 == d && !changeBlocked m (EdgeField.view x.2) with
  | some x => acceptClaim m d x.2
  | none => m

/-- LACE_CLAIM_ACCEPT. -/
def execLaceClaimAccept (dev : Fin 4) (s : State) : Out := onMain (fun m => claimGap m dev) s

/-- The answer to a claim (R539): with the last acceptance the grant is made; after a refusal the request is evaluated afresh. -/
def claimAnswer (m : Main) (d : Fin 4) (ok : Bool) : Main :=
  match m.lace.claimed with
  | some (w, left) =>
    if !left.contains d then m
    else if !ok then evaluate (modLace m fun l => { l with claimed := none })
    else
      let left := left.filter (· != d)
      let m := modLace m fun l => { l with claimed := some (w, left) }
      if left.isEmpty then dropClaim (evaluate m) w else m
  | none => m

/-- LACE_ACCEPT. -/
def execLaceAccept (link : LaceLink) (words : List Word) (s : State) : Out :=
  onMain (fun m =>
    let r := laceArrive m link words (isLace words 0x6)
    if r.1 then claimAnswer r.2 (laceHeadOf words).src (bitAt (nth (lacePayload words) 0 0).toNat 0) else r.2) s

/-- A DICT frame for the device is written into Q23 (R542). -/
def execLaceDict (link : LaceLink) (words : List Word) (s : State) : Out :=
  onMain (fun m =>
    let r := laceArrive m link words (isLace words 0x7)
    let payload := lacePayload words
    if r.1 && ctlOn m then
      let w0 := 0x7 + place 4 2 (laceHeadOf words).src.val + place 6 2 m.lace.device.val + place 16 16 (4 * payload.length)
      offerPkt r.2 23 0x2A 0x04 (word w0 :: payload)
    else r.2) s

/-- A STITCH for the device is written into its job queue, or refused for want of space (R543). -/
def execLaceStitch (link : LaceLink) (words : List Word) (s : State) : Out :=
  onMain (fun m =>
    let w := stitchOf words
    let r := laceArrive m link words (isLace words 0x8 && !w.2)
    let src := (laceHeadOf words).src
    let d := (lacePayload words).drop 3
    if !r.1 || !ctlOn m then r.2
    else if spaceTest r.2 (finOf 32 (24 + w.1)) d.length then putStitch r.2 (finOf 32 (24 + w.1)) d (timeOfTick r.2 (payload64 words 1)) src
    else
      let ws := stitchWords w.1 true (payload64 words 1) d
      offerPkt r.2 23 0x2A 0x04 (word (laceHead r.2 0x8 (some src) ws) :: ws)) s

/-- The stitch that a frame of another device answers: forwarded there with the same tag. -/
def awayJob (m : Main) (d : Fin 4) (tag : Nat) : Option (Fin 4 × Job) := m.lace.away.find? fun x => x.1 == d && x.2.tag == tag

def dropAway (m : Main) (x : Fin 4 × Job) : Main := modLace m fun l => { l with away := l.away.erase x }

/-- A refused descriptor goes back to the head of its job queue, to be tried again after 10 µs (R543). -/
def stitchRefused (m : Main) (d : Fin 4) (q : Fin 32) (closed : Nat) (ws : List Word) : Main :=
  match awayJob m d (field (nth ws 2 0).toNat 0 16) with
  | none => m
  | some x =>
    let m := dropAway (count m 0x70F8 0x0A) x
    let o := x.2.origin
    let p : Packet := { id := m.pool.nextId, type := 0x20, source := 0x04, words := ws, closedAt := closed, origin := some o }
    let m := { m with pool := { m.pool with nextId := m.pool.nextId + 1 } }
    modLace (modQ m q fun y => noteCells { y with pkts := p :: y.pkts }) fun l => { l with retry := l.retry ++ [q] }

/-- LACE_STITCH_REFUSAL. -/
def execLaceStitchRefusal (link : LaceLink) (words : List Word) (s : State) : Out :=
  onMain (fun m =>
    let w := stitchOf words
    let r := laceArrive m link words (isLace words 0x8 && w.2)
    if r.1 && ctlOn m then
      stitchRefused r.2 (laceHeadOf words).src (finOf 32 (24 + w.1)) (timeOfTick r.2 (payload64 words 1)) ((lacePayload words).drop 3)
    else r.2) s

/-- LACE_STITCH_RETRY (R543). -/
def execLaceStitchRetry (s : State) : Out :=
  onMain (fun m => if m.lace.retry.isEmpty then m else dispatch (modLace m fun l => { l with retry := l.retry.drop 1 })) s

/-- A result of a forwarded stitch is written into its result queue, or dropped and counted (R280, R543). -/
def takeResult (m : Main) (d : Fin 4) (ws : List Word) : Main :=
  match awayJob m d (field (nth ws 1 0).toNat 0 16) with
  | none => m
  | some x =>
    let m := dropAway m x
    if spaceTest m x.2.rqueue ws.length then putPkt m x.2.rqueue 0x21 0x04 ws else count (dropPkt m x.2.rqueue 0x04) 0x70F8 0x0B

/-- LACE_RESULT. -/
def execLaceResult (link : LaceLink) (words : List Word) (s : State) : Out :=
  onMain (fun m =>
    let r := laceArrive m link words (isLace words 0x9)
    if r.1 && ctlOn m then takeResult r.2 (laceHeadOf words).src (lacePayload words) else r.2) s

/-- LACE_JOURNAL (R544). -/
def execLaceJournal (link : LaceLink) (words : List Word) (s : State) : Out :=
  onMain (fun m =>
    let r := laceArrive m link words (isLace words 0xA)
    if r.1 && r.2.lace.role == 1 then journalMerge r.2 (laceHeadOf words).src (lacePayload words) else r.2) s

/-- LACE_DEPARTURE (R546). -/
def execLaceDeparture (dev : Fin 4) (s : State) : Out := onMain (fun m => laceDepart m dev) s

/-- The lace port takes the next packet of Q23 (R346, R542). -/
def laceFrameTx (m : Main) : Main :=
  if !laceOn m || !ctlOn m || (m.pool.qs[(23 : Fin 32)]).consumer != 5 then m
  else
    let h := headOf m 23
    match h.1 with
    | .packet p =>
      let m := dropHead h.2 23
      match p.type, p.words with
      | 0x2A, w0 :: ws => laceDispatch m w0.toNat ws
      | _, _ => m
    | _ => h.2

/-- LACE_FRAME_TX. -/
def execLaceFrameTx (s : State) : Out := onMain laceFrameTx s

end Sys2Proof.Machine
end

