-- ==== Sys2Proof/Machine/HostPorts.lean ====
section
/-!
DEFINITION. Machine/HostPorts.lean: the meanings of the steps of the host SPI port, the CAN FD controller and the GPIO pins
(chapter 18).
-/

namespace Sys2Proof.Machine

/-- `HCHK` is the check of the five bytes before it (R483, R485). -/
def headerHolds (h : SpiHeader) : Bool := spiCheck (byte h.cmd.toNat :: leBytes 2 h.addr.toNat ++ leBytes 2 h.len.toNat) == h.hchk

/-- Whether a header is well formed: its check, bit 7 clear, the command of the row, and `FLAG` clear where the command has none (R484,
R488). -/
def headerOk (h : SpiHeader) (code : Nat) (flag : Bool) : Bool :=
  headerHolds h && field h.cmd.toNat 0 6 == code && !bitAt h.cmd.toNat 7 && (flag || !bitAt h.cmd.toNat 6)

/-- `FLAG` of a header: `KEEP` or `CONT`. -/
def headerFlag (h : SpiHeader) : Bool := bitAt h.cmd.toNat 6

/-- The queue that `ADDR` names for READ_Q, WRITE_Q and CONSUME (R488). -/
def queueOf (h : SpiHeader) : Option (Fin 32) :=
  let a := h.addr.toNat
  if 0x200 ≤ a && a < 0x280 && a % 4 = 0 then some (finOf 32 ((a - 0x200) / 4)) else none

/-- `LEN` counts words, 1–4096. -/
def wordCountOk (h : SpiHeader) : Bool := decide (1 ≤ h.len.toNat) && decide (h.len.toNat ≤ 4096)

/-- A transaction: nothing while the port is not ready or a write is stalled; the status block goes out; a header that is not valid is
refused, and a valid one is counted and acted on (R483, R484, R493). -/
def spiTransaction (s : State) (valid : Main → Bool) (f : State → State) : State :=
  if !spiUp s.m || s.m.spi.stalled.isSome then s
  else
    let b := spiBegin s
    if valid s.m then f { b with m := count b.m 0x7000 0x01 } else { b with m := spiRefuse b.m }

/-- SPI_NOP (R483, R488). -/
def execSpiNop (h : SpiHeader) (s : State) : Out :=
  .next (spiTransaction s (fun _ => headerOk h 0x00 false && h.addr.toNat == 0 && h.len.toNat == 0) fun s => s)

/-- A word of the direct window (R332, R487). -/
def winWord (m : Main) (lease : Bool) (off : Nat) : Nat :=
  if off = 0x000 then entryDefault 0x1000 0x01
  else if off = 0x004 then statusFlags m lease
  else if off = 0x008 then modeWord m
  else if off = 0x00C then m.flt.jseq
  else if off = 0x010 then queueBitmap m
  else if 0x100 ≤ off && off < 0x200 then
    let q := finOf 32 ((off - 0x100) / 8)
    let x := m.pool.qs[q]
    if off % 8 = 0 then min 0xFFFF x.wordsCount + place 16 16 x.packets
    else min 0xFFFF x.cells + place 16 8 (queueFlags m q)
  else 0

/-- What names a transaction in the records of the check units (R515). -/
def spiHead (h : SpiHeader) : Nat := h.cmd.toNat + place 8 16 h.addr.toNat + place 24 8 h.len.toNat

/-- Device data of a transaction. -/
def spiData (m : Main) (h : SpiHeader) (bs : List Byte) : Main := cuSpi (spiSend m bs) true bs (spiHead h)

/-- SPI_READ_WIN (R487, R488). The `PREV_` flags read are those of the transaction before. -/
def execSpiReadWin (h : SpiHeader) (s : State) : Out :=
  let a := h.addr.toNat
  let n := h.len.toNat
  let words := (List.range (n / 4)).map fun i => word (winWord (modSpi s.m fun p => { p with quad := p.quadNext }) (leaseHeld s) (a + 4 * i))
  .next (spiTransaction s
    (fun _ => headerOk h 0x01 false && a % 4 == 0 && decide (a < 0x280) && n % 4 == 0 && decide (4 ≤ n) && decide (n ≤ 640))
    fun s => { s with m := spiData s.m h (wordsBytes words) })

/-- The bytes of tagged words (R329). -/
def tagBytes (ws : List (Nat × Word)) : List Byte := ws.flatMap fun x => byte x.1 :: wordBytes x.2

/-- READ_Q (R331, R489): with `KEEP` nothing is consumed; the words that have been shifted out whole are. -/
def readQ (m : Main) (h : SpiHeader) (q : Fin 32) (shifted : Nat) : Main :=
  let n := min shifted h.len.toNat
  if (m.pool.qs[q]).consumer != 0 then
    spiData (count m 0x70C0 0x0B) h (tagBytes (List.replicate n (0x00, 0)))
  else
    let r := readWords n m q
    if (headerFlag h) then spiData (modQ m q fun x => { x with keepMark := 1 }) h (tagBytes r.1)
    else spiData r.2 h (tagBytes r.1)

/-- SPI_READ_Q. -/
def execSpiReadQ (h : SpiHeader) (shifted : Nat) (s : State) : Out :=
  .next (spiTransaction s (fun m => headerOk h 0x03 true && (queueOf h).isSome && wordCountOk h && !loaderWaits m)
    fun s => { s with m := match queueOf h with | some q => readQ s.m h q shifted | none => s.m })

/-- CONSUME (R489): up to `LEN` words from the head. -/
def consumeQ (m : Main) (h : SpiHeader) (q : Fin 32) : Main :=
  if (m.pool.qs[q]).consumer != 0 then spiData (count m 0x70C0 0x0B) h [0]
  else
    let r := readWords h.len.toNat m q
    spiData r.2 h [byte (min 255 (r.1.filter fun x => x.1 != 0).length)]

/-- SPI_CONSUME. -/
def execSpiConsume (h : SpiHeader) (s : State) : Out :=
  .next (spiTransaction s
    (fun m => headerOk h 0x05 false && wordCountOk h && !loaderWaits m &&
      (match queueOf h with | some q => (m.pool.qs[q]).keepMark != 2 | none => false))
    fun s => { s with m := match queueOf h with | some q => consumeQ s.m h q | none => s.m })

/-- The host packet is discarded as flushed, its producer already closed (R340). -/
def hostDiscard (m : Main) : Main :=
  match m.spi.openQ with
  | none => m
  | some (q, id) =>
    let x := m.pool.qs[q]
    let p := (x.pkts ++ x.sinks).find? fun p => p.id == id
    let len := (p.map Packet.lengthWord).getD 0
    let m := { m with pool := { m.pool with returning := m.pool.returning + ((x.pkts.filter fun p => p.id == id).map Packet.cells).sum } }
    let m := cuSink m id
    let m := modQ m q fun x =>
      { x with pkts := x.pkts.filter (fun p => p.id != id), sinks := x.sinks.filter (fun p => p.id != id), sunk := sat32 (x.sunk + 1),
               lastTrunc := byte 0x8E :: leBytes 4 len }
    modSpi m fun p => { p with openQ := none }

/-- The host abandons its write (R340): counted, and told in the next status block. -/
def hostAbandon (m : Main) : Main :=
  let m := if m.spi.openQ.isSome then count (hostDiscard m) 0x70C0 0x04 else m
  modSpi m fun p => { p with prevAbandon := true, stalled := none }

/-- A WRITE_Q ends (R340, R490): with `CONT` the packet stays open, else it closes; a failed `DCHK` discards it. -/
def hostEnd (m : Main) (cont ok : Bool) : Main :=
  if !ok then
    let m := modSpi (count m 0x7000 0x03) fun p => { p with prevCrc := true }
    if m.spi.openQ.isSome then count (hostDiscard m) 0x70C0 0x05 else m
  else if cont then m
  else match m.spi.openQ with
    | some (q, id) => loaderDrain (closePkt (modSpi m fun p => { p with openQ := none }) q id)
    | none => m

/-- Words of a WRITE_Q go into the pool as far as the queue takes cells; the rest stalls (R340, R490). The first word of a packet gives its
`TYPE` (R327). -/
def hostWrite (m : Main) (q : Fin 32) (ws : List Word) (cont ok : Bool) : Main :=
  let o : Main × List Word :=
    match m.spi.openQ, ws with
    | none, w :: rest =>
      if takeable m q = 0 then (m, ws)
      else
        let o := openPkt m q (field w.toNat 16 8) 0x01 1
        (modSpi o.1 fun p => { p with openQ := some (q, o.2) }, rest)
    | _, _ => (m, ws)
  match o.1.spi.openQ with
  | none => modSpi o.1 fun p => { p with stalled := some (q, o.2, cont, ok) }
  | some (_, id) =>
    let n := roomOf o.1 q id o.2.length
    let m := appendPkt o.1 q id (o.2.take n)
    if o.2.length ≤ n then hostEnd (modSpi m fun p => { p with stalled := none }) cont ok
    else modSpi m fun p => { p with stalled := some (q, o.2.drop n, cont, ok) }

/-- WRITE_Q (R488, R490); a transaction that ends before all words have come is abandoned. -/
def writeQ (m : Main) (h : SpiHeader) (q : Fin 32) (words : List Word) (dchk : Byte) : Main :=
  let ws := words.take h.len.toNat
  let m := cuSpi m false (wordsBytes ws) (spiHead h)
  if ws.length < h.len.toNat then hostAbandon (if ws.isEmpty then m else hostWrite m q ws true true)
  else hostWrite m q ws (headerFlag h) (spiCheck (wordsBytes ws) == dchk)

/-- Whether WRITE_Q may write a queue (R58, R488, R490). -/
def writeQOk (m : Main) (h : SpiHeader) : Bool :=
  headerOk h 0x04 true && wordCountOk h &&
  (match queueOf h with
   | some q => (!loaderWaits m || q == 28) && (m.spi.openQ.isNone || (m.spi.openQ.map (·.1)) == some q)
   | none => false)

/-- SPI_WRITE_Q. -/
def execSpiWriteQ (h : SpiHeader) (words : List Word) (dchk : Byte) (s : State) : Out :=
  .next (spiTransaction s (fun m => writeQOk m h)
    fun s => { s with m := match queueOf h with | some q => writeQ s.m h q words dchk | none => s.m })

/-- SPI_DICT_DEFER (R491): no response within 3 ms; the request is served later, to Q19. -/
def execSpiDictDefer (bytes : List Byte) (s : State) : Out :=
  .next (spiTransaction s (fun m => !loaderWaits m && decide (16 ≤ bytes.length) && decide (bytes.length ≤ 64)) fun s =>
    let h : SpiHeader := { cmd := 0x06, addr := 0, len := BitVec.ofNat 16 bytes.length }
    let m := cuSpi (count s.m 0x7000 0x04) false bytes (spiHead h)
    { s with m := spiData (modDict m fun d => { d with deferred := d.deferred ++ [(bytes, m.now)] }) h [0x01] })

/-- `CS_N` rises before a write is complete (R340). -/
def execSpiAbandon (s : State) : Out :=
  onMain (fun m => if spiUp m && (m.spi.stalled.isSome || m.spi.openQ.isSome) then hostAbandon m else m) s

/-- The cell a stalled host write needs is granted, or the flush has released it (R340, R344). -/
def stallRelease (m : Main) : Main :=
  match m.spi.stalled with
  | none => m
  | some (q, ws, cont, ok) =>
    match m.spi.openQ with
    | none => if takeable m q = 0 then m else hostWrite m q ws cont ok
    | some (_, id) => if roomOf m q id ws.length = 0 then m else hostWrite m q ws cont ok

/-- SPI_WRITE_STALL_RELEASE. -/
def execSpiWriteStallRelease (s : State) : Out := onMain (fun m => if spiUp m then stallRelease m else m) s

/-- The SPI state machine resets (R340, R494): single I/O; a host packet is discarded. -/
def spiIdleReset (m : Main) : Main :=
  if !spiUp m || m.spi.stalled.isSome then m
  else
    let m := if m.spi.openQ.isSome then hostAbandon m else m
    let m := count (modSpi m fun p => { p with quad := false, quadNext := false }) 0x7000 0x05
    journal m 0x31 0x6001 []

/-- SPI_IDLE_RESET. -/
def execSpiIdleReset (s : State) : Out := onMain spiIdleReset s

/-- A write of [1800:01] in modes 2–5 and 7 (R495, R511). -/
def widthWrite (m : Main) (v : Nat) : Bool × Main :=
  if ctlOn m && (m.pw.mode.isMain || m.pw.mode == .hold) && decide (v ≤ 1) then (true, modSpi m fun p => { p with quadNext := v == 1 })
  else (false, m)

/-- SPI_WIDTH_WRITE. -/
def execSpiWidthWrite (value : BitVec 8) (s : State) : Out := onService (fun m => (widthWrite m value.toNat).2) s

/-- Whether the CAN FD controller is on the bus (R28, R505, R506, R511). -/
def canOn (m : Main) : Bool := ctlOn m && m.pw.fwRunning && cfgB m 0x1810 0x04

/-- A frame with this device's own node ID (R499): counted, and journalled at most once per second. -/
def nodeConflict (m : Main) : Main :=
  let o := onceASecond (count m 0x7000 0x0B) 0x6004
  if o.1 then journal o.2 0x32 0x6004 [] else o.2

/-- An accepted frame goes to Q20 under the space test (R19, R499, R500). -/
def canAccept (m : Main) (f : CanFrame) : Main :=
  let m := cuCan (count m 0x7000 0x06) false f.id.toNat f.data
  let ws := canPacket f.id.toNat f.data
  if spaceTest m 20 ws.length then putPkt m 20 0x28 0x02 ws else count (dropPkt m 20 0x02) 0x7000 0x07

/-- A received frame (R497–R499). A time mark of the master is TIME_MARK_RX. -/
def canFrameRx (m : Main) (f : CanFrame) : Main :=
  if !canOn m || decide (2 ≤ m.can.state) then m
  else if !f.supported then count m 0x7000 0x08
  else
    let node := f.id.toNat / 16
    let fn := f.id.toNat % 16
    if node = m.can.node then nodeConflict m
    else if (fn = 1 || fn = 3) && bitAt (cfgN m 0x1810 0x0D) node then canAccept m f
    else m

/-- CAN_FRAME_RX. -/
def execCanFrameRx (f : CanFrame) (s : State) : Out := onMain (fun m => canFrameRx m f) s

/-- The controller sends the next packet of Q21 (R500); a new node ID waits for the response that accepts it (R501); the tick of a time
mark's start of frame is kept (R504). -/
def canFrameTx (m : Main) : Main :=
  if !canOn m || decide (2 ≤ m.can.state) || (m.pool.qs[(21 : Fin 32)]).consumer != 3 then m
  else
    let h := headOf m 21
    match h.1 with
    | .packet p =>
      let m := dropHead h.2 21
      let w0 := (nth p.words 0 0).toNat
      let id := field w0 0 11
      let bs := (wordsBytes (p.words.drop 1)).take (field w0 16 7)
      let m := cuCan (count m 0x7000 0x0E) true id bs
      let resp := id % 16 = 2 || id % 16 = 3
      modCan m fun c =>
        let c := { c with sent := some (id, bs), markTick := if id % 16 = 6 then tickAt m m.now else c.markTick }
        match c.nodeNext with
        | some (n, k) => if resp && decide (k ≤ p.id) then { c with node := n, nodeNext := none } else c
        | none => c
    | _ => h.2

/-- CAN_FRAME_TX. -/
def execCanFrameTx (s : State) : Out := onMain canFrameTx s

/-- HEARTBEAT (R502, R504): each period of [1810:05], unless it is 0. -/
def execHeartbeat (s : State) : Out :=
  onMain (fun m => if m.pw.fwRunning && cfgB m 0x1810 0x05 then sendHeartbeat m (leaseHeld s) else m) s

/-- A time mark arrives (R499, R504): from the node in [1810:07] it is latched into a journal entry, and the frame goes to Q20 like every
frame accepted. -/
def timeMark (m : Main) (node : Nat) (t : Nat) : Main :=
  if !canOn m || decide (2 ≤ m.can.state) then m
  else if node = m.can.node then nodeConflict m
  else if node != 0 && node == cfgN m 0x1810 0x07 then
    let m := journal (count m 0x7000 0x0C) 0x32 0xA002 [t % 2 ^ 32, t / 2 ^ 32]
    canAccept m { id := BitVec.ofNat 11 (node * 16 + 6), data := leBytes 8 t }
  else m

/-- TIME_MARK_RX. -/
def execTimeMarkRx (node : BitVec 7) (time : BitVec 64) (s : State) : Out := onMain (fun m => timeMark m node.toNat time.toNat) s

/-- The controller goes bus-off (R505); with [1810:08] = 1 recovery starts at once. -/
def busOff (m : Main) : Main :=
  if !canOn m || m.can.state = 2 then m
  else
    let m := modCan m fun c => { c with state := 2, tec := 255, recovering := cfgB m 0x1810 0x08 }
    journal (count m 0x7000 0x09) 0x32 0x6002 []

/-- CAN_BUS_OFF. -/
def execCanBusOff (s : State) : Out := onMain busOff s

/-- A write of [1810:08] (R505): in bus-off a 1 starts recovery. -/
def busoffWrite (m : Main) (v : Nat) : Bool × Main :=
  if m.pw.mode.isMain && decide (v ≤ 1) then
    (true, modCan (cfgSet m 0x1810 0x08 v) fun c => if v = 1 && c.state = 2 then { c with recovering := true } else c)
  else (false, m)

/-- CAN_RECOVERY_START. -/
def execCanRecoveryStart (value : BitVec 8) (s : State) : Out := onService (fun m => (busoffWrite m value.toNat).2) s

/-- 128 occurrences of 11 recessive bits: the controller rejoins the bus (R505, R506). -/
def execCanBusoffRecovered (s : State) : Out :=
  onMain (fun m => if m.can.recovering then modCan m fun c => { c with state := 0, tec := 0, rec_ := 0, recovering := false } else m) s

/-- The bus is stuck dominant (R506). -/
def canStuck (m : Main) : Main :=
  if !canOn m || m.can.state = 3 then m
  else journal (count (modCan m fun c => { c with state := 3, recovering := false }) 0x7000 0x0D) 0x32 0x6003 []

/-- CAN_STUCK_DOMINANT. -/
def execCanStuckDominant (s : State) : Out := onMain canStuck s

/-- The bus has been recessive for 11 bit times: recovery runs, whatever [1810:08] holds (R506). -/
def execCanStuckRecovery (s : State) : Out :=
  onMain (fun m => if m.can.state = 3 then modCan m fun c => { c with recovering := true } else m) s

/-- A write of [1810:01] (R501): accepted in the main modes for 1–126; the caller says when it takes effect. -/
def nodeWrite (s : State) (v : Nat) : Bool × State :=
  if s.m.pw.mode.isMain && decide (1 ≤ v) && decide (v ≤ 126) then setEntry s 0x1810 0x01 v else (false, s)

/-- CAN_NODE_WRITE: the accepting response has been sent under the old ID. -/
def execCanNodeWrite (value : BitVec 8) (s : State) : Out :=
  onServiceAll (fun s =>
    let r := nodeWrite s value.toNat
    if r.1 then { r.2 with m := modCan r.2.m fun c => { c with node := value.toNat, nodeNext := none } } else r.2) s

/-- What a GPIO pin drives (R510): nothing in the input modes, and wherever `CTL` is off (R53). -/
def gpioOut (m : Main) (g : Fin 8) : Option Bool :=
  let x := m.gpio[g]
  if !ctlOn m then none
  else if x.mode = 2 then some x.level
  else if x.mode = 4 then some (x.param < 64 && m.plan.opened[finOf 64 x.param])
  else if x.mode = 5 then some ((allFin 16).any fun k => ((m.cores[k]).fld.map (·.closed)) == some true)
  else none

/-- GPIO_EDGE (R510, R554): an edge selected at an event input is journalled. -/
def gpioEdge (m : Main) (g : Fin 8) (falling : Bool) : Main :=
  let m := modGpio m g fun x => { x with input := !falling }
  let x := m.gpio[g]
  if ctlOn m && x.mode = 3 && bitAt x.param (bitN falling) then journal m 0x37 0xA001 [g.val, bitN falling] else m

/-- GPIO_EDGE. -/
def execGpioEdge (pin : Fin 8) (falling : Bool) (s : State) : Out := onMain (fun m => gpioEdge m pin falling) s

end Sys2Proof.Machine
end

