-- ==== Sys2Proof/Machine/Check.lean ====
section
/-!
DEFINITION. Machine/Check.lean: the meanings of the writes to the check units and to the E2E units (R518, R520, R521). Each write
answers with a status of R456: 0 `OK`, 5 `MODE`, 6 `RANGE`, 8 `REFUSED`.
-/

namespace Sys2Proof.Machine

/-- The filter bits that a source has (R515); source 0 has no filter. -/
def cuFilterBits (source : Nat) : Nat :=
  match source with
  | 2 => 0x3 | 3 => 0x0FFF0003 | 4 => 0x1FF03 | 5 => 0x1F | _ => 0xFFFFFFFF

/-- Whether a value is in the range of [5000+c:sub] (R518, R525). -/
def cuRange (u : Cu) (sub v : Nat) : Bool :=
  match sub with
  | 1 => decide (v ≤ 5)
  | 2 => decide (v ≤ 3)
  | 3 => Nat.land v (cuFilterBits u.source) == v
  | 5 => decide (v < 2 ^ (CrcKind.ofCode u.crc).width)
  | 7 => decide (v ≤ 1)
  | 8 => decide (v ≤ 31) || v == 0xFF
  | _ => true

/-- A configuration write takes effect (R520, R525): a frame in progress is abandoned, and the running value is loaded. -/
def Cu.config (u : Cu) (sub v : Nat) : Cu :=
  let u := { u with inFrame := false, follow := none, missed := u.missed || u.inFrame }
  let u := match sub with
    | 1 => { u with source := v, bytes := 0 }
    | 2 => { u with crc := v }
    | 3 => { u with filter := v }
    | 4 => { u with init := v }
    | 7 => { u with framing := v }
    | _ => { u with recQ := v }
  { u with value := u.load }

/-- A write of [5000+c:01]–[5000+c:04], [5000+c:07] or [5000+c:08] (R520, R521). -/
def cuConfig (m : Main) (c : Fin 8) (sub v : Nat) : Nat × Main :=
  let u := m.cus[c]
  if !([1, 2, 3, 4, 7, 8] : List Nat).contains sub then (2, m)
  else if !m.pw.mode.isMain then (5, m)
  else if !cuRange u sub v then (6, m)
  else if u.owned then (8, m)
  else (0, modCu (countIf u.inFrame m 0x7018 0x04) c fun u => u.config sub v)

/-- CU_CONFIG_WRITE. -/
def execCuConfigWrite (c : Fin 8) (sub : BitVec 8) (value : BitVec 32) (s : State) : Out :=
  onService (fun m => (cuConfig m c sub.toNat value.toNat).2) s

/-- A write of [5000+c:05] (R518, R521): the running value is loaded; a frame in progress goes on from it. -/
def cuValue (m : Main) (c : Fin 8) (v : Nat) : Nat × Main :=
  let u := m.cus[c]
  if !(ctlOn m && (m.pw.mode.isMain || m.pw.mode == .hold)) then (5, m)
  else if !cuRange u 5 v then (6, m)
  else if u.owned then (8, m)
  else (0, modCu m c fun u => { u with value := v })

/-- CU_VALUE_WRITE. -/
def execCuValueWrite (c : Fin 8) (value : BitVec 32) (s : State) : Out := onService (fun m => (cuValue m c value.toNat).2) s

/-- A write of [5010:04] or [5010:05] in CALIBRATE (R480, R521): the unit released returns to source 0, the unit taken is reset. -/
def e2eWrite (m : Main) (generate : Bool) (v : Nat) : Nat × Main :=
  let sub := if generate then 0x05 else 0x04
  let old := cfgN m 0x5010 sub
  if m.pw.mode != .calibrate then (5, m)
  else if 7 < v || v = cfgN m 0x5010 (if generate then 0x04 else 0x05) then (6, m)
  else if v = old then (0, m)
  else
    let m := modCu m (finOf 8 old) fun u => { u with owned := false, source := 0 }
    (0, cfgSet (modCu m (finOf 8 v) fun _ => { owned := true }) 0x5010 sub v)

/-- E2E_UNIT_CHANGE. -/
def execE2eUnitChange (generate : Bool) (unit : Fin 8) (s : State) : Out := onService (fun m => (e2eWrite m generate unit.val).2) s

end Sys2Proof.Machine
end

