-- ==== Sys2Proof/Machine/Faults.lean ====
section
/-!
DEFINITION. Machine/Faults.lean: the meanings of the steps of chapter 21: counter clears (R550), the journal's rate limit (R556), the
faults of the field scheduler and the radio, the end of PROBATION (R560) and the release of the radio (R563).
-/

namespace Sys2Proof.Machine

/-- Whether an index of 0x7000–0x70FF holds counters. -/
def isCounterIndex (v : Nat) : Bool := decide (0x7000 ≤ v) && decide (v ≤ 0x70FF) && counterSubs v != 0

/-- A write of [7100:04] in modes 2–5 and 7 (R550): the counters of an index, or all of them, become 0; then the clear is counted and
journalled. The answer is a status of R456. -/
def counterClear (m : Main) (v : Nat) : Nat × Main :=
  if !(ctlOn m && (m.pw.mode.isMain || m.pw.mode == .hold)) then (5, m)
  else if v != 0xFFFF && !isCounterIndex v then (6, m)
  else
    let m := modFlt m fun f => { f with ctr := f.ctr.filter fun x => v != 0xFFFF && x.1 / 256 != v }
    (0, journal (count m 0x7008 0x0A) 0x38 0xB001 [v])

/-- COUNTER_CLEAR. -/
def execCounterClear (value : BitVec 16) (s : State) : Out := onService (fun m => (counterClear m value.toNat).2) s

/-- A second of [7100:0F] has passed: every class may have [7100:03] entries again (R556). -/
def execJournalRatePeriod (s : State) : Out :=
  onMain (fun m => if ctlOn m then modFlt m fun f => { f with budget := [0, 0, 0, 0, 0, 0, 0, 0, 0, 0, 0, 0] } else m) s

/-- SCHEDULER_FAULT (R560): cause 1 an interlock refusal, 2 a parity error in its tables. -/
def execSchedulerFault (cause : Fin 3) (s : State) : Out :=
  onMain (fun m => if engOn m && cause.val != 0 then schedFault m cause.val else m) s

/-- The tables are rebuilt: PROBATION, and grants go on (R560). -/
def execSchedulerRebuildDone (s : State) : Out :=
  onMain (fun m =>
    if m.sch.state = 1 then evaluate (unitState { m with sch := { m.sch with state := 3 } } 0x2A 3) else m) s

/-- A radio fault (R560): receptions are abandoned, a frame in transmission is sent again as after a failed ACK wait; while recovering, the
radio is RETIRED. -/
def radioFault (m : Main) (cause : Nat) : Main :=
  let st := m.rad.unit
  let nested := st == 1 || st == 3
  let t := m.rad.tx
  let m := dropReceptions (txStop m) true
  let m := if t.active then ackExpiry (modRad m fun r => { r with ackWait := some (t.kind, t.ctr) }) else m
  let m := modRad m fun r => { r with unit := if st = 4 then 4 else if nested then 4 else 1 }
  unitFault m 0x2B cause nested (st == 4)

/-- RADIO_FAULT: cause 1 synthesiser out of lock, 2 AES self-check mismatch. -/
def execRadioFault (cause : Fin 3) (s : State) : Out :=
  onMain (fun m => if engOn m && cause.val != 0 then radioFault m cause.val else m) s

/-- The radio is in service again, in PROBATION (R560). -/
def execRadioRecovered (s : State) : Out :=
  onMain (fun m => if m.rad.unit = 1 then unitState (modRad m fun r => { r with unit := 3 }) 0x2B 3 else m) s

/-- A write of [7100:0A] in a main mode (R560, R563, R568): 0x5A releases a RETIRED radio, which recovers as after a fault. -/
def radioRelease (m : Main) (v : Nat) : Nat × Main :=
  if !m.pw.mode.isMain then (5, m)
  else if v != 0x5A then (6, m)
  else if m.rad.unit != 4 then (8, m)
  else (0, unitReleased (modRad m fun r => { r with unit := 1 }) 0x2B)

/-- RADIO_RELEASE. -/
def execRadioRelease (value : BitVec 8) (s : State) : Out := onService (fun m => (radioRelease m value.toNat).2) s

/-- The controller, the pool, the field scheduler or the radio has been in PROBATION for [7100:08] without a fault (R560). -/
def probationEnd (m : Main) (u : Nat) : Main :=
  if u = 0x28 then modPw m fun p => if p.ctlState = 3 then { p with ctlState := 0 } else p
  else if u = 0x29 then { m with pool := { m.pool with state := if m.pool.state = 3 then 0 else m.pool.state } }
  else if u = 0x2A then { m with sch := { m.sch with state := if m.sch.state = 3 then 0 else m.sch.state } }
  else if u = 0x2B then modRad m fun r => if r.unit = 3 then { r with unit := 0 } else r
  else m

/-- UNIT_PROBATION_END. -/
def execUnitProbationEnd (unit : BitVec 8) (s : State) : Out := onMain (fun m => probationEnd m unit.toNat) s

end Sys2Proof.Machine
end

