-- ==== Sys2Proof/Machine/PowerOps.lean ====
section
/-!
DEFINITION. Machine/PowerOps.lean: the start of the always-on island and the cold start (R47, R51, R53, R61, R364), the loss of power
(R29, R38, R50, R360), and the field at the target port as it bears on modes (R38, R44, R356).
-/

namespace Sys2Proof.Machine

/-- The persistent entries as the ledger's current bank holds them; every other entry is at its default (R53, R364, R591). -/
def cfgBoot (l : Ledger) : List (Nat × Nat) := if l.noBank then [] else l.cur.persist

/-- The mode is left without the management controller: the transition is counted (R38). -/
def leaveMode (m : Main) (dst : Mode) : Main :=
  if m.pw.mode == dst then m
  else modPw m fun p => { p with mode := dst, pendMode := none, transitions := sat32 (p.transitions + 1) }

/-- Whether the field powers the island from the harvest rail (R27, R354). -/
def harvestField (m : Main) : Bool := m.pw.fieldOn && decide (15 ≤ m.pw.strength)

/-- What is left when every island is off or in reset: time, what the part senses of its surroundings, the straps sampled, the flash
sector and the retention cell of the STP target (R51, R53, R212). -/
def darkMain (m : Main) (l : Ledger) : Main :=
  { now := m.now, freeCtr := m.freeCtr, cfg := cfgBoot l, brn := { flash := m.brn.flash },
    pw := { aoUp := false, mainPresent := m.pw.mainPresent, vaoOk := m.pw.vaoOk, vtxLow := m.pw.vtxLow, vtxHold := m.pw.vtxHold,
            vrfLow := m.pw.vrfLow, follower := m.pw.follower, vddio33 := m.pw.vddio33, rstHeld := m.pw.rstHeld, tj := m.pw.tj,
            fieldOn := m.pw.fieldOn, strength := m.pw.strength },
    ph := { level := m.ph.level, encA := m.ph.encA, encB := m.ph.encB },
    gpio := m.gpio.map fun g => { input := g.input },
    tgt := { vHarv := m.tgt.vHarv, iso := { uid := m.tgt.iso.uid },
             stp := { bound := m.tgt.stp.bound, quiet := m.tgt.stp.quiet, lostAt := some (m.tgt.stp.lostAt.getD m.now) } } }

/-- The newest time that the audit ring holds [6000:11] (R362, R385). -/
def ringSeconds (l : Ledger) : Nat := ((l.at_ l.head).map fun b => leNat ((b.drop 8).take 4)).getD 0

/-- A start of the always-on island (R61 steps 1–3, R364, R376): the ledger recovers, the UID is drawn, the island runs on its internal
oscillator. `keep`: VAO has stayed in range through a loss of the main supply, and the phase counter, the wake logic and the seconds
counter go on (R51). -/
def islandStart (s : State) (keep : Bool) : State :=
  let l := s.lgr.recover
  let o := s.m
  let d := draw o
  let m := darkMain d.2 l
  let m := modPw m fun p =>
    { p with aoUp := true, onHarvest := !p.vaoOk,
             sleepClock := if keep && !o.pw.sleepLost then o.pw.sleepClock else 1,
             aoSecBase := if keep then o.pw.aoSecBase else ringSeconds l, aoSecAt := if keep then o.pw.aoSecAt else o.now,
             wakeNArmed := if keep then o.pw.wakeNArmed else true, canArmed := keep && o.pw.canArmed,
             wakeCause := if keep then o.pw.wakeCause else 0 }
  let m := if keep then modPh m fun p => { p with ao := o.ph.ao } else m
  let m := modTgt m fun t => { t with iso := { uid := BitVec.ofNat 32 (0x08 + 256 * (d.1.toNat % 2 ^ 24)) } }
  { s with m := if m.pw.fieldOn then stpPowerUp m else m, lgr := l }

/-- The start of the boot that [1200:01] asks for (R38, R61). -/
def autoStart (s : State) (kind : Nat) : State :=
  if cfgB s.m 0x1200 0x01 then { s with m := beginBoot s.m (Mode.ofCode (cfgN s.m 0x1200 0x03)) 0 kind } else s

/-- A settings write that a field write had interrupted takes the ledger again (R367); at most one write is in that state. -/
def resumeStarted (s : State) : State :=
  match s.lgr.waiting.find? (·.started) with
  | none => s
  | some a => { s with lgr := { s.lgr with waiting := dropFirst (· == a) s.lgr.waiting, running := some a } }

/-- Every write that has begun its shadow step completes (R50, R52, R373). -/
def finishStarted (s : State) : State := finishRunning (resumeStarted (finishRunning s))

/-- A cold start (R38, R47, R51–R53): any ledger write in progress finishes first (R52). -/
def coldStart (s : State) (keep : Bool) : State := autoStart (islandStart (finishStarted s) keep) (bitN keep)

/-- The main supplies are in range and `RST_N` is high (R24, R47, R49). In RESCUE the device goes on until the field has gone (R38). -/
def suppliesUp (s : State) (refsel vddio33 : Bool) : State :=
  let o := s.m.pw
  let s := { s with m := modPw s.m fun p => { p with mainPresent := true, rstHeld := false, follower := refsel, vddio33 := vddio33 } }
  if (o.aoUp && o.mode == .rescue) || !(o.vaoOk || harvestField s.m) then s
  else coldStart s (o.aoUp && o.vaoOk && !o.mainPresent && !o.rstHeld)

/-- `RST_N` is low: every island is in reset (R51, R52). -/
def resetHeld (s : State) : State :=
  let s := finishStarted s
  let l := s.lgr.recover
  { s with m := modPw (darkMain s.m l) fun p => { p with rstHeld := true }, lgr := l }

/-- A write that power interrupts with too small a capacitor (R373, R374): its shadow may be torn, or its commit marker may be written and
its pointer not flipped; which of the two is a free value (log 1). -/
def interruptRunning (s : State) : State :=
  match s.lgr.running with
  | none => s
  | some a =>
    let d := draw s.m
    let l := { s.lgr with running := none }
    let marked := d.1.toNat % 2 = 1
    let l := match a.op with
      | .append b =>
        { l with ring := updV l.ring (slotOf (l.head + 1)) fun _ => if marked then .record (l.head + 1) (stampBody s.m b) else .torn,
                 head := if marked then l.head + 1 else l.head }
      | .setting r data =>
        if marked then l.markBank fun b => { b with host := b.host.set (r - 12) data }
        else if l.current then { l with bankA := { l.bankA with valid := false } } else { l with bankB := { l.bankB with valid := false } }
      | .read _ _ => l
    { s with m := d.2, lgr := l }

/-- Every island loses its power (R38, R360). -/
def unpowered (s : State) : State :=
  let s := interruptRunning (resumeStarted (interruptRunning s))
  let l := { s.lgr with waiting := [], leaseBy := none, leaseEnd := 0 }
  { s with m := darkMain s.m l, lgr := l }

/-- The main supply is lost (R29, R38, R48, R50, R51): a ledger write in progress completes, an SPI lease ends, and what waits at port MAIN
is lost. -/
def mainLost (s : State) : State :=
  let o := s.m.pw
  let s := { s with m := modPw s.m fun p => { p with mainPresent := false } }
  if !o.aoUp || o.mode == .rescue then s
  else
    let s := finishStarted s
    let l := { s.lgr with waiting := s.lgr.waiting.filter fun a => a.port != .main,
                          leaseBy := if s.lgr.leaseBy == some .spi then none else s.lgr.leaseBy }
    let m := leaveMode { powerDown s.m false with cfg := cfgBoot l } .dormant
    let s := { s with m := m, lgr := l }
    if m.pw.vaoOk || harvestField m then (if m.pw.fieldOn then { s with m := leaveMode m .rescue } else s) else unpowered s

/-- VAO falls (R27, R48). -/
def vaoFall (s : State) : State :=
  let s := { s with m := modPw s.m fun p => { p with vaoOk := false } }
  if !s.m.pw.aoUp then s
  else if harvestField s.m then { s with m := modPw s.m fun p => { p with onHarvest := true } }
  else unpowered s

/-- The island starts without the main supply: DORMANT, or RESCUE with a field (R38, R356). -/
def islandAlone (s : State) : State :=
  let s := islandStart s false
  if s.m.pw.fieldOn then { s with m := leaveMode s.m .rescue } else s

/-- VAO returns (R27): no reset where the island has run on. -/
def vaoRise (s : State) : State :=
  let s := { s with m := modPw s.m fun p => { p with vaoOk := true, onHarvest := false } }
  if s.m.pw.aoUp || s.m.pw.rstHeld || s.m.pw.mainPresent then s else islandAlone s

/-- A field at the target port in DORMANT or WATCH (R38, R44, R45). -/
def fieldWakes (m : Main) : Main :=
  let on := bitAt (cfgN m 0x1100 0x07) 1
  if m.pw.booting then (if on then modPw m fun p => { p with wakeCause := 1 } else m)
  else if !m.pw.mainPresent then leaveMode m .rescue
  else if on then
    beginBoot (modPw m fun p => { p with wakeCause := 1, returnMode := Mode.ofCode (cfgN m 0x1100 0x05) }) .emulate 2 2
  else m

/-- What a detected field does to the mode (R38); a field that returns while EMULATE is about to end keeps EMULATE, and one that
arrives while a transition other than to HOLD waits takes its place (log 19). -/
def fieldMode (m : Main) : Main :=
  match m.pw.mode with
  | .dormant => fieldWakes m
  | .watch => fieldWakes m
  | .emulate => modPw m fun p => if p.pendTrig = 2 then { p with pendMode := none } else p
  | .rescue => m
  | .hold => m
  | _ => if m.pw.pendMode = some .hold then m else modPw m fun p => { p with pendMode := some .emulate, pendTrig := 2 }

/-- The target front end detects a field of `strength` in 0.1 A/m (R38, R354, R356). -/
def fieldDetected (s : State) (strength : Nat) : State :=
  let p := s.m.pw
  if strength < 8 || ((p.onHarvest || !p.aoUp) && strength < 15) then s
  else
    let s := { s with m := modPw s.m fun p => { p with fieldOn := true, strength := strength } }
    if p.rstHeld then s
    else if !p.aoUp then (if p.mainPresent then s else islandAlone s)
    else { s with m := fieldMode (if p.fieldOn then s.m else stpPowerUp s.m) }

/-- The field is lost (R355, R360, R373): what had not begun is not written; on the harvest rail the island powers down once a write in
progress has ended. -/
def fieldLost (s : State) (asDeclared : Bool) : State :=
  let up := s.m.pw.aoUp
  let s := { s with m := modPw s.m fun p => { p with fieldOn := false, strength := 0 } }
  if !up then s
  else
    let s := { s with m := endSession s.m, lgr := { s.lgr with waiting := s.lgr.waiting.filter fun a => a.port != .field || a.started } }
    if s.m.pw.onHarvest then unpowered (if asDeclared then finishStarted s else s) else s

/-- No field for 20 ms in RESCUE (R38): DORMANT; with the main supply present, as after a cold start. -/
def rescueEnds (s : State) : State :=
  if s.m.pw.mode != .rescue || s.m.pw.fieldOn then s
  else
    let s := { s with m := leaveMode s.m .dormant }
    if s.m.pw.mainPresent then coldStart s true else s

end Sys2Proof.Machine
end

