-- ==== Sys2Proof/Machine/Power.lean ====
section
/-!
DEFINITION. Machine/Power.lean: the meanings of the steps of supplies, resets, clocks, the controller, modes, wakes and temperature
(chapters 01 and 02), and of a field that is found or lost (R38, R355).
-/

namespace Sys2Proof.Machine

/-- COLD_START. -/
def execColdStart (refsel vddio33 : Bool) (s : State) : Out := .next (suppliesUp s refsel vddio33)

/-- RST_N_LOW. -/
def execRstNLow (s : State) : Out := .next (resetHeld s)

/-- A write of [1100:03] (R52, R64): a status of R456. -/
def resetWrite (s : State) (v : Nat) : Nat × State :=
  if !(ctlOn s.m && s.m.pw.fwRunning && (s.m.pw.mode.isMain || s.m.pw.mode == .hold)) then (5, s)
  else if v != 0xA5C3 then (6, s)
  else (0, coldStart s false)

/-- RESET_CMD. -/
def execResetCmd (value : BitVec 16) (s : State) : Out := onServiceAll (fun s => (resetWrite s value.toNat).2) s

/-- MAIN_SUPPLY_LOST. -/
def execMainSupplyLost (s : State) : Out := .next (mainLost s)

/-- VTX is low (R48): every field off, started stitches `ABORTED` with `DETAIL` 5, journalled; a sweep of WATCH in progress ends. -/
def vtxFall (m : Main) : Main :=
  let m := modPw m fun p => { p with vtxLow := true, vtxHold := true }
  if m.pw.mode.isMain then journal (abortStarted (allFieldsOff m) 5) 0x00 0x3006 []
  else if m.wt.active && m.wt.sweeping then sweepDark m
  else m

/-- VTX_LOW. -/
def execVtxLow (s : State) : Out := onMain vtxFall s

/-- VTX_RESTORED (R48). -/
def execVtxRestored (s : State) : Out :=
  onMain (fun m => let m := modPw m fun p => { p with vtxLow := false, vtxHold := false }; evaluate m) s

/-- VRF_LOW (R48). -/
def execVrfLow (s : State) : Out := onMain (fun m => txStop (modPw m fun p => { p with vrfLow := true })) s

/-- VRF_RESTORED (R48). -/
def execVrfRestored (s : State) : Out := onMain (fun m => modPw m fun p => { p with vrfLow := false }) s

/-- VAO_LOW. -/
def execVaoLow (s : State) : Out := .next (vaoFall s)

/-- VAO_RESTORED. -/
def execVaoRestored (s : State) : Out := .next (vaoRise s)

/-- The sleep clock is lost (R26, R62). -/
def sleepLoss (m : Main) : Main :=
  if m.pw.sleepLost then m else journal (modPw m fun p => { p with sleepLost := true, sleepClock := 2 }) 0x00 0x0008 []

/-- A window of 32 sleep periods is bad when its count lies more than 0.5 % below 39 062 or above 39 063 (R25; log 40). -/
def windowBad (cycles : Nat) : Bool := decide (cycles * 1000 < 39062 * 995) || decide (39063 * 1005 < cycles * 1000)

/-- A reference fault (R25): the radio transmitter and the cores go off, SCLK moves to the backup oscillator, HOLD. -/
def referenceFault (m : Main) : Main :=
  let m := modPw (txStop (allFieldsOff m)) fun p => { p with onBackup := true, badWindows := 0 }
  enterHold (journal m 0x00 0x0007 []) 2 []

/-- The clock monitor ends a window while the reference runs (R25, R26). -/
def monitorWindow (m : Main) (cycles : Nat) (lost : Bool) : Main :=
  if !ctlOn m || m.pw.onBackup then m
  else if lost then sleepLoss (modPw m fun p => { p with badWindows := 0 })
  else if !windowBad cycles then modPw m fun p => { p with badWindows := 0 }
  else if m.pw.badWindows = 0 then modPw m fun p => { p with badWindows := 1 }
  else referenceFault m

/-- CLOCK_MONITOR_WINDOW. -/
def execClockMonitorWindow (cycles : Nat) (sleepLost : Bool) (s : State) : Out := onMain (fun m => monitorWindow m cycles sleepLost) s

/-- The island changes over to the crystal, and a loss is over (R26, R62). -/
def crystalGood (m : Main) : Main :=
  if !m.pw.aoUp then m
  else
    let was := m.pw.sleepLost
    let m := modPw m fun p => { p with sleepClock := 0, sleepLost := false }
    if was then journal m 0x00 0x000A [] else m

/-- SLEEP_CRYSTAL_QUALIFIED. -/
def execSleepCrystalQualified (s : State) : Out := onMain crystalGood s

/-- SLEEP_CRYSTAL_TIMEOUT (R62). -/
def execSleepCrystalTimeout (s : State) : Out := onMain (fun m => if m.pw.aoUp && m.pw.sleepClock == 1 then sleepLoss m else m) s

/-- The controller faults and restarts (R30, R560): burnish results that wait are discarded, to be measured again. -/
def controllerFails (m : Main) (cause : Nat) : Main :=
  if !ctlOn m || !m.pw.fwRunning then m
  else controllerFault (modBrn m fun b => { b with waiting := [], stepDone := false }) cause

/-- WATCHDOG_EXPIRY (R560, cause 0x01). -/
def execWatchdogExpiry (s : State) : Out := onMain (fun m => controllerFails m 1) s

/-- CONTROLLER_PARITY_FAULT (R560, cause 0x02). -/
def execControllerParityFault (s : State) : Out := onMain (fun m => controllerFails m 2) s

/-- The controller is back, in PROBATION (R30, R560, R564); requests that waited are served in the order of their arrival. -/
def controllerBack (m : Main) : Main :=
  if !m.pw.ctlDown then m
  else
    let m := modDict (modPw m fun p => { p with ctlDown := false, ctlState := 3 }) fun d => { d with backAt := some m.now }
    journal (count m 0x7008 0x07) 0x38 0x0005 [m.pw.ctlCause]

/-- CONTROLLER_RESTART. -/
def execControllerRestart (s : State) : Out := onMain controllerBack s

/-- A write of the mode word through the direct window (R34–R36, R487): a transaction of four bytes; bits [6:4] hold the
request. One whose `DCHK` fails is not acted on (log 30). -/
def modeByWindow (s : State) (code : Nat) (dchk : Byte) : State :=
  if !spiUp s.m || s.m.spi.stalled.isSome then s
  else
    let b := spiBegin s
    if loaderWaits s.m then { b with m := spiRefuse b.m }
    else
      let h : SpiHeader := { cmd := 0x02, addr := 0x008, len := 4 }
      let bs := leBytes 4 (place 4 3 code)
      let m := cuSpi (count b.m 0x7000 0x01) false bs (spiHead h)
      { b with m := if spiCheck bs == dchk then (requestMode m (code % 8) 0).2 else count (modSpi m fun p => { p with prevCrc := true }) 0x7000 0x03 }

/-- A write of [1100:01] (R34, R36, R64): a status of R456. In HOLD the service answers `MODE`, and the refusal is counted and journalled
(log 41). -/
def modeWrite (m : Main) (code : Nat) : Nat × Main :=
  if !m.pw.mode.isMain then (5, if m.pw.mode == .hold && decide (code ≤ 7) then modeRefusal m code else m)
  else if 7 < code then (6, m)
  else let r := requestMode m code 0; (if r.1 then 0 else 8, r.2)

/-- MODE_REQUEST. -/
def execModeRequest (code : BitVec 8) (window : Option Byte) (s : State) : Out :=
  match window with
  | some dchk => .next (modeByWindow s code.toNat dchk)
  | none => onMain (fun m => if m.pw.ctlDown then m else (modeWrite m code.toNat).2) s

/-- MODE_TRANSITION_COMPLETE (R39). -/
def execModeTransitionComplete (s : State) : Out := onMain completeTransition s

/-- The wait for started stitches has lasted [1100:0C] (R40). -/
def execDrainLimitExpiry (s : State) : Out :=
  onMain (fun m => if m.pw.pendMode.isSome && !transitionReady m (m.pw.pendMode.getD .hold) then abortStarted m 3 else m) s

/-- TARGET_FIELD_DETECTED. -/
def execTargetFieldDetected (strength : Nat) (s : State) : Out := .next (fieldDetected s strength)

/-- TARGET_FIELD_LOST. -/
def execTargetFieldLost (capAsDeclared : Bool) (s : State) : Out := .next (fieldLost s capAsDeclared)

/-- No field for [1100:06] in EMULATE (R38): the return mode follows at a slot boundary. -/
def execEmulateHoldoffExpiry (s : State) : Out :=
  onMain (fun m =>
    if m.pw.mode == .emulate && !m.pw.fieldOn && m.pw.pendMode.isNone then
      modPw m fun p => { p with pendMode := some p.returnMode, pendTrig := 2 }
    else m) s

/-- RESCUE_FIELD_ABSENT. -/
def execRescueFieldAbsent (s : State) : Out := .next (rescueEnds s)

/-- Modes in which the wake logic works (R44). -/
def sleeping (m : Main) : Bool := m.pw.aoUp && (m.pw.mode == .dormant || m.pw.mode == .watch)

/-- WAKE_N_WAKE (R44, R45): it acts once until it has been high again. -/
def execWakeNWake (s : State) : Out :=
  onMain (fun m => if sleeping m && m.pw.wakeNArmed then wake (modPw m fun p => { p with wakeNArmed := false }) 0 else m) s

/-- WAKE_N_REARM (R45). -/
def execWakeNRearm (s : State) : Out := onMain (fun m => modPw m fun p => { p with wakeNArmed := true }) s

/-- ALARM_EXPIRY (R44): [1100:09] of 0 is off. -/
def execAlarmExpiry (s : State) : Out := onMain (fun m => if cfgB m 0x1100 0x09 then wake m 2 else m) s

/-- CAN_ACTIVITY_WAKE (R44, R507). -/
def execCanActivityWake (s : State) : Out := onMain (fun m => if m.pw.canArmed then wake m 3 else m) s

/-- CAN_WAKE_ARM (R507). -/
def execCanWakeArm (s : State) : Out := onMain (fun m => if sleeping m then modPw m fun p => { p with canArmed := true } else m) s

/-- WAKE_DURING_BOOT (R45). -/
def execWakeDuringBoot (source : Fin 6) (s : State) : Out :=
  onMain (fun m =>
    if m.pw.booting && bitAt (cfgN m 0x1100 0x07) source.val then modPw m fun p => { p with wakeCause := source.val } else m) s

/-- The governor derates above [1100:24], and HOLD follows at [1100:25] (R63). -/
def junctionTemp (m : Main) (tj : Int) : Main :=
  let m := modPw m fun p => { p with tj := tj }
  if !ctlOn m then m
  else
    let on := decide (cfgI m 16 0x1100 0x24 < tj)
    let was := m.pw.derating
    let m := modPw m fun p => { p with derating := on }
    let m := if on != was then journal m 0x38 0x1004 [fromSigned 16 tj] else m
    if decide (cfgI m 16 0x1100 0x25 ≤ tj) then enterHold m 4 [] else m

/-- JUNCTION_TEMP_SAMPLE. -/
def execJunctionTempSample (tj : Int) (s : State) : Out := onMain (fun m => junctionTemp m tj) s

end Sys2Proof.Machine
end

