-- ==== Sys2Proof/Machine/Boot.lean ====
section
/-!
DEFINITION. Machine/Boot.lean: the boot (R54–R61): reference, PLL, image checks, the SPI loader, and the start of the firmware with
the dictionary at its defaults (R53, R591).
-/

namespace Sys2Proof.Machine

/-- REFERENCE_STABLE (R61 step 4). -/
def execReferenceStable (s : State) : Out :=
  onMain (fun m => if m.pw.booting && m.pw.bootStage == 2 then modPw m fun p => { p with refOk := true } else m) s

/-- The PLL locks (R61 steps 5 and 6): `CTL` and `POOL` are powered and the SPI port is ready; the pool is initialised empty, but kept out
of WATCH with its counters (R29, R549). -/
def pllLocked (m : Main) : Main :=
  if !m.pw.booting || m.pw.bootStage != 2 || !m.pw.refOk then m
  else
    let m := if m.pw.bootFromWatch then m else { m with pool := {}, flt := {} }
    loaderDrain (modPw { m with spi := {} } fun p =>
      { p with ctlOn := true, rdy := true, bootStage := if cfgN m 0x1200 0x02 = 1 then 6 else 3 })

/-- PLL_LOCKED. -/
def execPllLocked (s : State) : Out := onMain pllLocked s

/-- Whether the key slot of an image is revoked in [1200:09] (R56). -/
def slotRevoked (m : Main) (img : ImageReport) : Bool := bitAt (cfgN m 0x1200 0x09) img.keySlot.val

/-- The checks on header, length and digest (R56, R60): a failure code, or 0. -/
def imageCheck (img : ImageReport) : Nat :=
  if !img.headerOk || decide (384 * 1024 < img.length) then 0xE1 else if !img.digestOk then 0xE2 else 0

/-- The checks on signature, key slot and security version (R56, R60). -/
def signCheck (m : Main) (img : ImageReport) (good : Bool) : Nat :=
  if !good || slotRevoked m img then 0xE3 else if img.secVersion.toNat < cfgN m 0x1200 0x05 then 0xE4 else 0

/-- An image from flash fails (R57, R58): the SPI loader waits, or HOLD with cause 6, where the radio goes off at once (R41). -/
def bootFail (m : Main) (code : Nat) : Main :=
  let m := modPw m fun p => { p with bootFailures := p.bootFailures ++ [code] }
  if cfgN m 0x1200 0x02 = 2 then loaderDrain (modPw m fun p => { p with bootStage := 6 })
  else
    let m := count { m with wt := { m.wt with active := false, sweeping := false } } 0x7008 0x06
    let m := modPw m fun p => { p with holdCause := 6, bootStage := code, booting := false }
    let m := dropReceptions (txStop m) false
    loaderDrain (setMode (journal m 0x38 0x0004 [6, 0, fromSigned 16 m.pw.tj]) .hold 3)

/-- An image is run (R56, R61): firmware initialisation. -/
def imageRuns (m : Main) (img : ImageReport) : Main :=
  modPw m fun p => { p with booting := true, bootStage := 5, fwVersion := img.fwVersion.toNat, keySlot := img.keySlot.val }

/-- The flash image has been read (R56, R61 step 7). -/
def imageRead (m : Main) (img : ImageReport) : Main :=
  if !m.pw.booting || m.pw.bootStage != 3 then m
  else
    let e := if img.responds then imageCheck img else 0xE5
    if e = 0 then modPw m fun p => { p with bootStage := 4, img := some img } else bootFail m e

/-- IMAGE_READ_COMPLETE. -/
def execImageReadComplete (img : ImageReport) (s : State) : Out := onMain (fun m => imageRead m img) s

/-- The signature has been checked (R56, R61 step 8). -/
def signatureVerified (m : Main) (good : Bool) : Main :=
  match m.pw.img with
  | some img =>
    if !m.pw.booting || m.pw.bootStage != 4 then m
    else let e := signCheck m img good; if e = 0 then imageRuns m img else bootFail m e
  | none => m

/-- SIGNATURE_VERIFIED. -/
def execSignatureVerified (good : Bool) (s : State) : Out := onMain (fun m => signatureVerified m good) s

/-- The loader has taken an image out of Q28 (R57, R58): one that fails leaves its code in `BOOT_STAGE`; one that passes is started, out of
HOLD for the mode in [1200:03]. The image ends within what has been written to Q28; one refused by its header ends there. -/
def imageOverSpi (m : Main) (img : ImageReport) : Main :=
  if !ctlOn m || !loaderWaits m || m.pw.loaded = 0 || (decide (m.pw.loaded < img.length) && imageCheck img != 0xE1) then m
  else
    let m := modPw m fun p => { p with loaded := 0 }
    let e := imageCheck img
    let e := if e = 0 then signCheck m img img.sigOk else e
    if e != 0 then modPw m fun p => { p with bootStage := e, bootFailures := p.bootFailures ++ [e] }
    else
      let hold := m.pw.mode == .hold
      modPw (imageRuns m img) fun p =>
        { p with bootTarget := if hold then Mode.ofCode (cfgN m 0x1200 0x03) else p.bootTarget, bootTrig := if hold then 0 else p.bootTrig }

/-- IMAGE_OVER_SPI_PASSED. -/
def execImageOverSpiPassed (img : ImageReport) (s : State) : Out := onMain (fun m => imageOverSpi m img) s

/-- A partner after a boot (R419, R443, R591): settings at their defaults, the transmit counter at the end of the last block reserved; after a
wake from WATCH, what the radio knows of it. -/
def bootPartner (keys : KeyStore) (keep : Bool) (n : Fin 256) (x : Partner) : Partner :=
  let q : Fin 32 := ⟨12 + n.val % 4, by omega⟩
  if keep then
    { rxQueue := q, misses := x.misses, lastContact := x.lastContact, contactAt := x.contactAt, order := x.order, wide := x.wide, cfo := x.cfo,
      txCtr := x.txCtr, rxCtr := x.rxCtr, up := x.up, down := x.down }
  else { rxQueue := q, txCtr := keys.reserved[n] }

/-- The radio after a boot: its settings at their defaults and filled by the profile; through WATCH it keeps frames held, the accounting, a
satellite's lost state and what it has received (R389, R424, R439, R441, R591). -/
def bootRadio (m : Main) (keep : Bool) : Main :=
  let o := m.rad
  let r : Radio := { fLO := o.fLO, unit := o.unit }
  let r := if keep then
      { r with hold := o.hold, charges := o.charges, satLost := o.satLost, satMissed := o.satMissed, satDue := o.satDue, satWake := o.satWake,
               ackDue := o.ackDue, kept := o.kept, keptDict := o.keptDict }
    else r
  fillProfile { m with rad := r } (cfgN m 0x4000 0x02)

/-- Every unit starts with its settings at their defaults (R53, R591). -/
def bootSettings (s : State) : Main :=
  let o := s.m
  let keep := o.pw.bootFromWatch
  let m := { o with cfg := cfgBoot s.lgr, plan := {}, sch := {}, disp := {}, dict := { deferred := o.dict.deferred, airIn := o.dict.airIn, laceIn := o.dict.laceIn }, spi := { o.spi with quadNext := false },
                    brn := { flash := o.brn.flash },
                    sv := { count := o.sv.count },
                    pw := { o.pw with returnMode := .transact, modeRefused := 0, governorHolds := 0 },
                    pool := { o.pool with qs := Vector.ofFn fun i =>
                      let x := o.pool.qs[i]
                      { x with cmin := (Queue.default i.val).cmin, cmax := (Queue.default i.val).cmax, consumer := (Queue.default i.val).consumer } },
                    pts := Vector.ofFn fun n => bootPartner s.keys keep n o.pts[n],
                    gpio := o.gpio.map fun g => { input := g.input },
                    cus := ((Vector.replicate 8 {}).set 6 { owned := true }).set 7 { owned := true } }
  let m := bootRadio m keep
  let m := { m with dict := { m.dict with netMasks := Vector.replicate 127 (cfgN m 0x1880 0x10) } }
  { m with can := { node := cfgN m 0x1810 0x01, markTick := 0 } }

/-- The generator starts on the synthetic cycle and takes over the cycle count of the always-on counter (R73, R81). -/
def bootPhase (m : Main) : Main :=
  modPh m fun p =>
    { st := if phaseSource m = 0 then 3 else 0, at_ := m.now, period := cfgN m 0x2000 0x0A * tickUs, cycle := aoExt p.ao m.now / 65536 % 2 ^ 32,
      level := p.level, encA := p.encA, encB := p.encB, ao := p.ao }

/-- A probe fault of WATCH becomes the state of its port (R112, R314). -/
def watchFault (m : Main) (l : Latched) : Main :=
  if !l.fault then m
  else
    let m := count m 0x7030 (if l.st = 3 then 0x02 else 0x01)
    let m := modPort m l.port fun x => { x with state := l.st, faults := sat32 (x.faults + 1) }
    let x := m.ports[l.port]
    journal m (0x02 + ((watchCore m l.port).getD (homeCore l.port)).val) 0x3001 [l.port.val, l.st, x.zMag, fromSigned 16 x.zArg]

/-- The sweeps stop: probe faults reach their ports, baselines that have settled are told in the port entries, and the watch record goes
to Q9 (R314, R318, R319). `n`: the sweeps of R315. -/
def bootWatch (m : Main) (n : Nat) : Main :=
  if !m.pw.bootFromWatch then m
  else
    let w := m.wt
    let m := forEach w.ports { m with wt := { sweeps := w.sweeps } } fun m x =>
      if x.settled < n then m else modPort m x.port fun y => { y with baseMag := x.baseMag / 65536, baseArg := x.baseArg / 65536 }
    if w.latched.isEmpty then m
    else
      let m := forEach w.latched m watchFault
      let r := stallPkt m 9 0x24 0x31 (watchRecord w)
      { r.1 with wt := { r.1.wt with recOut := r.2 } }

/-- What the radio received in WATCH reaches the pool and the service (R440, R441). -/
def bootKept (m : Main) : Main :=
  let k := m.rad.kept
  let d := m.rad.keptDict
  let m := modRad m fun r => { r with kept := [], keptDict := [] }
  let m := forEach k m fun m x => offerPkt m x.1 x.2.1 0x03 x.2.2
  modDict m fun y => { y with airIn := y.airIn ++ d.map fun x => (x.1, x.2, m.now) }

/-- What recovery found in the ledger is journalled and counted (R364, R557). -/
def bootLedger (m : Main) (l : Ledger) : Main :=
  let m := if l.noBank then journal m 0x35 0x8002 [] else m
  let m := if l.rolled then journal (count m 0x70D0 0x0A) 0x35 0x8001 [bitN l.current] else m
  if l.torn = 0 then m else journal (countN m 0x70D0 0x09 l.torn) 0x35 0x8003 [l.torn]

/-- What entering the start mode brings with it: survey counting, full burnish, the return mode, self-tests that wait (R41, R116, R183,
R289, R310). -/
def bootMode (m : Main) : Main :=
  let m := match m.pw.mode with
    | .calibrate => startFull m
    | .emulate => modPw m fun p => { p with returnMode := Mode.ofCode (cfgN m 0x1100 0x05) }
    | _ => m
  let m := forEach (allFin 16) m fun m k => if (m.cores[k]).holdoffDone then coreSelftest m k else m
  let m := forEach (allFin 24) m fun m e => if (m.engs[e]).holdoffDone then engineSelftest m e else m
  evaluate (pumpRetest (updateReach m))

/-- The firmware runs (R61 step 9): 0x1003 is the first entry (R558), then, in the order of their sources (R16, R555), the probe faults of WATCH,
the ledger's recovery, the transition and the boot failures (R58, R60); the heartbeat of the start follows that of the mode (R502). -/
def firmwareReady (s : State) : State :=
  if !s.m.pw.booting || s.m.pw.bootStage != 5 then s
  else
    let m := bootSettings s
    let m := modPw m fun p => { p with fwRunning := true, fwStartAt := m.now, booting := false, bootStage := 0,
                                       bootTime := (m.now - p.bootAt) / tickUs % 2 ^ 32 }
    let m := bootPhase (laceForm m)
    let m := journal m 0x38 0x1003 [m.pw.bootKind, m.pw.wakeCause]
    let m := bootWatch (restoreBurnish m) (cfgN s.m 0x3210 0x08)
    let m := bootLedger m s.lgr
    let m := setMode m m.pw.bootTarget m.pw.bootTrig
    let m := forEach m.pw.bootFailures m fun m c => journal m 0x38 0x0009 [c]
    let m := bootMode (bootKept m)
    let m := modPw (sendHeartbeat m (leaseHeld s)) fun p => { p with bootFailures := [], bootFromWatch := false }
    { s with m := m, lgr := { s.lgr with torn := 0, rolled := false } }

/-- FIRMWARE_READY. -/
def execFirmwareReady (s : State) : Out := .next (firmwareReady s)

end Sys2Proof.Machine
end

