-- ==== Sys2Proof/Machine/Burnish.lean ====
section
/-!
DEFINITION. Machine/Burnish.lean: the meanings of burnish's steps (chapter 07).
-/

namespace Sys2Proof.Machine

/-- Whether a result belongs to the step of the full programme in progress (R176, R183). The offset of the device is measured in step 5 (R538). -/
def ofStep (m : Main) : BurnResult → Bool
  | .dcOffset _ _ _ => m.brn.step == 1
  | .tune p alt _ _ _ => m.brn.step == 2 && decide ((m.brn.iters.filter (· == (p, alt))).length < 3)
  | .ownCarrier _ _ _ _ => m.brn.step == 3
  | .neighbours _ _ => m.brn.step == 4 || m.brn.step == 6
  | .coreChain _ => m.brn.step == 5
  | .devicePhase _ => m.brn.step == 5
  | .radioDc _ _ => m.brn.step == 7
  | _ => false

/-- Whether a result is one of incremental burnish (R186): an active task that is owed, the DC offset, the radio's DC. What the part
gathers from its own checks, replies and frames never comes from outside. -/
def ofTask (m : Main) : BurnResult → Bool
  | .dcOffset _ _ _ => true
  | .tune p _ _ _ _ => m.brn.tuneTask.contains p
  | .ownCarrier p _ _ _ => m.brn.own.contains p
  | .stalePair p e => (staleTasks m p).contains e.gport
  | .radioDc _ _ => true
  | _ => false

/-- The port of a result, if it has one. -/
def resultPort : BurnResult → Option (Fin 128)
  | .tune p _ _ _ _ => some p
  | .ownCarrier p _ _ _ => some p
  | .neighbours p _ => some p
  | .stalePair p _ => some p
  | _ => none

/-- Whether a completed estimate is taken: by the step of the programme, or incrementally, with cores that serve and a port that burnish
works on (R182, R183, R186). -/
def takesResult (m : Main) (r : BurnResult) : Bool :=
  (if m.brn.full == 1 then ofStep m r && !m.brn.stepDone else incremental m && ofTask m r) &&
  !((allFin 16).any fun k => !serving m k && (match r with | .coreChain _ => false | r => involves m k r)) &&
  ((resultPort r).map fun p => decide (2 ≤ (m.ports[p]).state)) != some true

/-- A burnish measurement completes (R180); with `stepEnds` the step of the full programme ends (R183, R184). -/
def burnishStep (m : Main) (rs : List BurnResult) (stepEnds : Bool) : Main :=
  let m := forEach rs m fun m r => if takesResult m r then addResult m r else m
  if stepEnds && m.brn.full == 1 then
    if m.brn.step = 8 then endFull m else modBrn m fun b => { b with stepDone := true }
  else m

/-- BURNISH_STEP_COMPLETE. -/
def execBurnishStepComplete (results : List BurnResult) (stepEnds : Bool) (s : State) : Out :=
  onService (fun m => burnishStep m results stepEnds) s

/-- 1 ms of accumulated time without a field on a core (R175, R186). -/
def dcEstimate (m : Main) (k : Fin 16) (i q : Int) : Main :=
  if (m.cores[k]).fld.isNone && takesResult m (.dcOffset k i q) then addResult m (.dcOffset k i q) else m

/-- DC_OFFSET_ESTIMATE. -/
def execDcOffsetEstimate (core : Fin 16) (i1 q : Int) (s : State) : Out := onMain (fun m => dcEstimate m core i1 q) s

end Sys2Proof.Machine
end

