-- ==== Sys2Proof/Machine/DictRead.lean ====
section
/-!
DEFINITION. Machine/DictRead.lean: what each entry of the object dictionary reads as (the entry tables of the chapters): a setting reads
as its value in force, every other entry as the state of its unit.
-/

namespace Sys2Proof.Machine

/-- A pair of I16 values in OCTETS(4). -/
def pairI16 (a b : Int) : Nat := fromSigned 16 a + place 16 16 (fromSigned 16 b)

/-- A neighbour entry as [2380+p:01]–[2380+p:08] read it (R124). -/
def nbrBits (e : NbrEntry) : Nat :=
  place 0 16 e.gport + place 16 8 e.kAtt + place 24 8 e.aAtt + place 32 10 e.aArg + place 48 1 (bitN e.stale)

/-- Numbers of two flags as bits 0 and 1. -/
def twoBits (a b : Bool) : Nat := bitN a + place 1 1 (bitN b)

/-- Identity entries (R478). -/
def read10 (sub : Nat) : Option Nat :=
  if sub = 0x02 then some Config.dieRev.toNat
  else if sub = 0x03 then some Config.uniqueId.toNat
  else if sub = 0x04 then some (bitN Config.gradeXB)
  else if sub = 0x05 then some Config.colpolTag.toNat
  else none

/-- Mode, power and thermal entries (R64). -/
def read11 (m : Main) (sub : Nat) : Option Nat :=
  let p := m.pw
  if sub = 0x01 then some p.mode.code
  else if sub = 0x02 then some p.returnMode.code
  else if sub = 0x04 then some p.transitions
  else if sub = 0x08 then some p.wakeCause
  else if sub = 0x0A then some p.modeRefused
  else if sub = 0x0B then some p.sleepClock
  else if sub = 0x22 then some (energyWindow m / (tickS * 10000000))
  else if sub = 0x23 then some (fromSigned 16 p.tj)
  else if sub = 0x26 then some p.governorHolds
  else none

/-- Boot and firmware entries (R65). -/
def read12 (m : Main) (sub : Nat) : Option Nat :=
  let p := m.pw
  if sub = 0x04 then some p.fwVersion
  else if sub = 0x06 then some p.bootStage
  else if sub = 0x07 then some p.keySlot
  else if sub = 0x08 then some p.bootTime
  else none

/-- Host port and service entries (R479, R511). -/
def read18 (m : Main) (idx sub : Nat) : Option Nat :=
  if idx = 0x1800 then (if sub = 0x01 then some (bitN m.spi.quadNext) else none)
  else if idx = 0x1810 then
    if sub = 0x0A then some m.can.state
    else if sub = 0x0B then some (min 255 m.can.tec)
    else if sub = 0x0C then some (min 255 m.can.rec_)
    else none
  else if 0x1820 ≤ idx && idx < 0x1828 then
    let x := m.gpio[finOf 8 (idx - 0x1820)]
    some (if sub = 0x01 then x.mode else if sub = 0x02 then bitN (if x.mode = 2 then x.level else x.input) else x.param)
  else if idx = 0x1880 then
    if sub = 0x05 then some m.dict.transfers.length else if sub = 0x06 then some m.dict.routes.length else none
  else if idx = 0x1881 then some m.dict.netMasks[finOf 127 sub]
  else none

/-- A window as it is read: its reserved bits read as 0 (R8, R82), whatever was written to them. -/
def Window.shown (w : Window) : List Word := [w.w0, w.w1 &&& 0xFFFF, w.w2 &&& 0xFFFFFF, w.w3 &&& 0x1F]

/-- Phase and plan entries (R91, R92). -/
def read20 (m : Main) (idx sub : Nat) : Option Nat :=
  if idx = 0x2000 then
    if sub = 0x01 then some (phaseSource m)
    else if sub = 0x02 then some m.ph.st
    else if sub = 0x0D then some m.ph.period
    else if sub = 0x0E then some (m.ph.cycle % 2 ^ 32)
    else if sub = 0x0F then some (phaseNow m)
    else if sub = 0x13 then some m.ph.encDir
    else none
  else if idx = 0x2010 then
    if sub = 0x01 then some m.plan.active.val
    else if sub = 0x03 then some (bitN m.plan.pending.isSome)
    else if sub = 0x04 then some m.plan.switches
    else none
  else
    some (leNat (wordsBytes ((m.plan.bank (if idx = 0x2011 then 0 else 1))[finOf 64 (sub - 1)]).shown))

/-- Core entries (R119); [2100+k:0C] wraps after 2^32 ms (log 43). -/
def read21 (m : Main) (idx sub : Nat) : Option Nat :=
  let c := m.cores[finOf 16 (idx - 0x2100)]
  if sub = 0x01 then some c.state
  else if sub = 0x05 then some ((c.portNow.map (·.val)).getD 0xFF)
  else if sub = 0x06 then some c.drivePhase
  else if sub = 0x07 then some (fromSigned 16 c.phaseCal)
  else if sub = 0x08 then some c.levelNow
  else if sub = 0x0A then some c.faultCause
  else if sub = 0x0B then some c.faults
  else if sub = 0x0C then
    let on := (c.fld.map fun f => if f.closed then m.now - f.since else 0).getD 0
    some ((c.fieldTicks + on) / tickMs % 2 ^ 32)
  else none

/-- Antenna port entries (R120). -/
def read22 (m : Main) (idx sub : Nat) : Option Nat :=
  let x := m.ports[finOf 128 (idx - 0x2200)]
  if sub = 0x01 then some x.state
  else if sub = 0x05 then some x.tuneHome
  else if sub = 0x06 then some x.tuneAlt
  else if sub = 0x0B then some x.zMag
  else if sub = 0x0C then some (fromSigned 16 x.zArg)
  else if sub = 0x0E then some x.faults
  else none

/-- Concurrency entries (R141). -/
def read23 (m : Main) (idx sub : Nat) : Option Nat :=
  if 0x2380 ≤ idx then some (nbrBits (nth (m.ports[finOf 128 (idx - 0x2380)]).nbr (sub - 1) {}))
  else if sub = 0x09 then some (fieldsF m).length
  else if sub = 0x11 then some (staleCount m)
  else none

/-- Receive chain entries (R171–R173). -/
def read24 (m : Main) (idx sub : Nat) : Option Nat :=
  if 0x2410 ≤ idx && idx < 0x2420 then
    let c := m.cores[finOf 16 (idx - 0x2410)]
    some (if sub = 0x01 then c.lastSuppr else if sub = 0x02 then fromSigned 16 c.lastRssi else if sub = 0x03 then c.lastGain
      else if sub = 0x04 then c.lastDelay else fromSigned 16 (if sub = 0x05 then c.dacI else c.dacQ))
  else if 0x2480 ≤ idx then
    let x := m.ports[finOf 128 (idx - 0x2480)]
    let c := if sub = 0x01 then x.cHome else x.cAlt
    some (pairI16 c.1 c.2)
  else none

/-- STP entries (R221, R249). -/
def read25 (s : State) (idx sub : Nat) : Option Nat :=
  if idx = 0x2500 && sub = 0x19 then some ((allFin 8).map fun i => if (s.keys.fobKeys[i]).isSome then 2 ^ i.val else 0).sum
  else if 0x2580 ≤ idx then some (s.m.ports[finOf 128 (idx - 0x2580)]).linkCache.toNat
  else none

/-- Burnish entries (R192–R194). -/
def read28 (m : Main) (idx sub : Nat) : Option Nat :=
  if idx = 0x2800 then
    if sub = 0x02 then some m.brn.full
    else if sub = 0x03 then some m.brn.step
    else if sub = 0x0C then some (bitN m.brn.restored)
    else if sub = 0x0E then some m.brn.duration
    else none
  else if 0x2810 ≤ idx && idx < 0x2820 then
    let c := m.cores[finOf 16 (idx - 0x2810)]
    some (fromSigned 8 (if sub = 0x01 then c.dcI else if sub = 0x02 then c.dcQ else if sub = 0x03 then c.iqGain else c.iqPhase))
  else if idx = 0x2820 then
    if sub = 0x01 then some (fromSigned 16 m.brn.rfTrim)
    else if sub = 0x02 then some (fromSigned 16 m.brn.rfResid)
    else if sub = 0x03 then some (fromSigned 8 m.brn.rfDcI)
    else if sub = 0x04 then some (fromSigned 8 m.brn.rfDcQ)
    else none
  else
    let x := m.ports[finOf 128 (idx - 0x2880)]
    some (if sub = 0x01 then x.fastness
      else if sub = 0x02 then leNat [byte x.sLeak, byte x.sEye, byte x.sTune, x.flags, byte (bitN x.restored)]
      else fromSigned 16 x.tuneErr)

/-- Engine entries (R296, R297). -/
def read30 (m : Main) (idx sub : Nat) : Option Nat :=
  if idx = 0x3100 then
    if sub = 0x06 then some (m.engs.toList.filter fun g => g.state == 0 || g.state == 3).length
    else if sub = 0x08 then some (bitN (m.pw.mode == .survey || m.pw.mode == .calibrate))
    else none
  else
    let g := m.engs[finOf 24 (idx - 0x3000)]
    if sub = 0x01 then some g.state
    else if sub = 0x04 then some g.cause
    else if sub = 0x05 then some g.faults
    else if sub = 0x06 then some (ctxByte g)
    else if sub = 0x07 then some g.deque.length
    else if sub = 0x08 then some g.done
    else if sub = 0x09 then some g.stole
    else if sub = 0x0A then some g.robbed
    else none

/-- State of the survey [3200:0D] (R322). -/
def surveyState (m : Main) : Nat :=
  if m.sv.running then (if m.sv.lanes.toList.any (·.stalled) then 3 else 1)
  else if m.pw.mode == .survey && !m.sv.stopped then 2 else 0

/-- Survey and watch entries (R322). -/
def read32 (m : Main) (idx sub : Nat) : Option Nat :=
  if idx = 0x3200 then
    if sub = 0x0B then some m.sv.count else if sub = 0x0C then some m.sv.lastUs else if sub = 0x0D then some (surveyState m) else none
  else if idx = 0x3210 then (if sub = 0x09 then some m.wt.sweeps else none)
  else
    let x := m.ports[finOf 128 (idx - 0x3280)]
    some (if sub = 0x01 then x.lastUid
      else if sub = 0x02 then place 0 8 x.svStatus + place 8 8 x.svFobs + place 16 8 x.svMisses
      else place 0 16 x.baseMag + place 16 16 (fromSigned 16 x.baseArg))

/-- Queue and pool entries (R351, R352). -/
def read34 (m : Main) (idx sub : Nat) : Option Nat :=
  if idx = 0x3480 then
    if sub = 0x02 then some (cellsFree m)
    else if sub = 0x03 then some (fromSigned 32 (unreserved m))
    else if sub = 0x04 then some m.pool.retired.length
    else if sub = 0x06 then some m.pool.scrubs
    else if sub = 0x07 then some (minSum m)
    else none
  else
    let q := finOf 32 (idx - 0x3400)
    let x := m.pool.qs[q]
    if sub = 0x01 then some x.wordsCount
    else if sub = 0x02 then some x.packets
    else if sub = 0x03 then some x.cells
    else if sub = 0x04 then some x.cmin
    else if sub = 0x05 then some x.cmax
    else if sub = 0x06 then some x.consumer
    else if sub = 0x08 then some (queueFlags m q)
    else if sub = 0x09 then some x.highWater
    else if sub = 0x0A then some x.drops
    else if sub = 0x0B then some x.stalls
    else if sub = 0x0C then some x.sunk
    else if sub = 0x0D then some (leNat x.lastTrunc)
    else if sub = 0x0E then some x.openPkts
    else none

/-- Radio PHY entries (R412). -/
def read40 (m : Main) (idx sub : Nat) : Option Nat :=
  let r := m.rad
  if idx = 0x4000 then (if sub = 0x0D then some (place 0 8 r.feA + place 8 8 r.feB) else none)
  else if idx = 0x4010 then
    let c := r.chans[finOf 64 (sub - 1)]
    some (leNat (wordsBytes [c.1, c.2]))
  else if idx = 0x4020 then
    some (if sub = 0x01 then r.fLow else if sub = 0x02 then r.fHigh else if sub = 0x03 then fromSigned 8 r.txMax else r.hopMin)
  else
    let d := r.demods[finOf 8 (idx - 0x4080)]
    some (if sub = 0x01 then d.st else if sub = 0x02 then d.channel else if sub = 0x03 then d.order
      else if sub = 0x04 then fromSigned 16 d.rssi else fromSigned 32 d.cfo)

/-- Radio access entries (R442). -/
def read41 (m : Main) (idx sub : Nat) : Option Nat :=
  if idx = 0x4100 then (if sub = 0x15 then some m.rad.hold.length else if sub = 0x18 then some (rfSeconds m) else none)
  else if idx = 0x4110 then
    if 0x01 ≤ sub && sub ≤ 0x08 then
      let b := nth m.rad.subbands (sub - 1) (0, 0, 0)
      some (place 0 32 b.1 + place 32 32 b.2.1 + place 64 16 b.2.2)
    else if 0x11 ≤ sub then some (subbandUsed m (sub - 0x11) / 1000)
    else none
  else some m.rad.dwell

/-- Partner entries (R443). -/
def read42 (m : Main) (idx sub : Nat) : Option Nat :=
  let n := finOf 256 (idx - 0x4200)
  let p := m.pts[n]
  if sub = 0x01 then some p.state
  else if sub = 0x02 then some p.address
  else if sub = 0x04 then some p.interval
  else if sub = 0x05 then some p.channel
  else if sub = 0x06 then some p.wideCh
  else if sub = 0x07 then some (fromSigned 8 p.txPower)
  else if sub = 0x08 then some p.drift
  else if sub = 0x09 then some p.rxQueue.val
  else if sub = 0x0A then some p.misses
  else if sub = 0x0B then some p.lastContact
  else if sub = 0x0C then some (guardUs m n / 1000)
  else if sub = 0x0D then some (place 0 3 (p.order - 8) + place 3 1 (bitN p.wide))
  else if sub = 0x0E then some (fromSigned 32 (p.cfo.getD 0))
  else if sub = 0x0F then some p.txCtr
  else if sub = 0x10 then some p.rxCtr
  else if sub = 0x11 then some (fromSigned 16 (roundDiv (p.linkMargin.getD 0) 10))
  else some p.slotAtHub

/-- Check unit and E2E entries (R480, R525). -/
def read50 (m : Main) (idx sub : Nat) : Option Nat :=
  if idx = 0x5010 then (if sub = 0x07 then some m.dict.tracks.length else none)
  else
    let u := m.cus[finOf 8 (idx - 0x5000)]
    some (if sub = 0x01 then (if u.owned then 6 else u.source) else if sub = 0x02 then u.crc else if sub = 0x03 then u.filter
      else if sub = 0x04 then u.init else if sub = 0x05 then u.value else if sub = 0x06 then u.result else if sub = 0x07 then u.framing
      else if sub = 0x08 then u.recQ else if sub = 0x09 then u.frames else u.bytes)

/-- Target and ledger entries but [6000:0A] (R385). -/
def read60 (s : State) (idx sub : Nat) : Option Nat :=
  if idx = 0x6010 then
    if sub = 0x01 then some (if leaseHeld s then (s.lgr.leaseEnd - s.m.now + (tickS - 1)) / tickS else 0)
    else some (match s.lgr.leaseBy with | none => 0 | some .spi => 1 | some .i2c => 2)
  else if sub = 0x09 then some Config.targetUid.toNat
  else if sub = 0x0B then some s.lgr.head
  else if sub = 0x0C then some (bitN s.lgr.current)
  else if sub = 0x0F then some (twoBits s.lgr.key0.isSome s.lgr.key1.isSome)
  else if sub = 0x10 then some (bitN s.m.pw.onHarvest)
  else if sub = 0x11 then some (aoSeconds s.m)
  else none

/-- Fault, journal and availability entries (R568). -/
def read71 (m : Main) (sub : Nat) : Option Nat :=
  let f := m.flt.lastFault
  if sub = 0x01 then some m.flt.jseq
  else if sub = 0x05 then some m.pw.holdCause
  else if sub = 0x09 then some m.rad.unit
  else if sub = 0x0B then some m.sch.state
  else if sub = 0x0C then some m.pool.state
  else if sub = 0x0D then some m.pw.ctlState
  else if sub = 0x0F then some (uptime m)
  else if sub = 0x10 then some (recentUnits m).length
  else if sub = 0x11 then some (place 0 8 f.1 + place 8 8 f.2.1 + place 16 16 f.2.2)
  else none

/-- Rate and state of a link as [7800:09] reads them. -/
def Link.bits (l : Link) : Nat := place 0 2 l.rate + place 2 1 (bitN l.up)

/-- Lace entries (R547). -/
def read78 (m : Main) (sub : Nat) : Option Nat :=
  let l := m.lace
  if sub = 0x01 then some l.role
  else if sub = 0x02 then some l.device.val
  else if sub = 0x03 then some l.size
  else if sub = 0x05 then some l.state
  else if sub = 0x08 then some (fromSigned 16 l.devPhase)
  else if sub = 0x09 then some l.linkA.bits
  else if sub = 0x0A then some l.linkB.bits
  else if sub = 0x0B then some l.linkA.latency
  else if sub = 0x0C then some l.linkB.latency
  else if sub = 0x0E then some (fromSigned 32 l.tickOff)
  else if sub = 0x0F then some l.members.toNat
  else none

/-- The entries that the state of a unit answers; `none` for a setting. -/
def readUnit (s : State) (idx sub : Nat) : Option Nat :=
  let m := s.m
  let page := idx / 256
  if page = 0x10 then read10 sub
  else if page = 0x11 then read11 m sub
  else if page = 0x12 then read12 m sub
  else if page = 0x18 then read18 m idx sub
  else if page = 0x20 then read20 m idx sub
  else if page = 0x21 then read21 m idx sub
  else if page = 0x22 then read22 m idx sub
  else if page = 0x23 then read23 m idx sub
  else if page = 0x24 then read24 m idx sub
  else if page = 0x25 then read25 s idx sub
  else if page = 0x26 then (if 0x2680 ≤ idx then some (m.ports[finOf 128 (idx - 0x2680)]).isoCache.toNat else none)
  else if page = 0x28 then read28 m idx sub
  else if page = 0x30 || page = 0x31 then read30 m idx sub
  else if page = 0x32 then read32 m idx sub
  else if page = 0x34 then read34 m idx sub
  else if page = 0x40 then read40 m idx sub
  else if page = 0x41 then read41 m idx sub
  else if page = 0x42 then read42 m idx sub
  else if page = 0x50 then read50 m idx sub
  else if page = 0x60 then read60 s idx sub
  else if page = 0x71 then read71 m sub
  else if page = 0x78 then read78 m sub
  else none

/-- Whether an index is one of the counter indexes 0x7000–0x70FF. -/
def counterPage (idx : Nat) : Bool := idx / 256 == 0x70

/-- The highest subindex below 0xF0 that an index holds; 0 for an index that holds none (R448). -/
def highestSub (idx : Nat) : Nat :=
  if counterPage idx then counterSubs idx
  else ((entryPage (idx / 256)).filter fun r => r.base ≤ idx && idx < r.base + r.n).foldl (fun h r => max h r.hi) 0

/-- The snapshot of a counter index (R459, R551): its counters in subindex order, then the journal sequence in force. -/
def counterSnapshot (m : Main) (idx : Nat) : Nat :=
  leNat (((List.range (counterSubs idx)).flatMap fun i => leBytes 4 (counter m idx (i + 1))) ++ leBytes 4 m.flt.jseq)

/-- The entry that an index and subindex name, with its subindex 0x00 and the service's 0xFE (R447–R449, R459); `none` gives
`NO_ENTRY`. -/
def entryInfo (idx sub : Nat) : Option EntryRow :=
  let ro (n : Nat) : EntryRow := { base := idx, lo := sub, hi := sub, size := n, acc := .ro }
  if sub = 0 then (if highestSub idx = 0 then none else some (ro 1))
  else if counterPage idx then
    if counterSubs idx = 0 then none
    else if sub ≤ counterSubs idx then some (ro 4)
    else if sub = 0xFE then some (ro (4 * counterSubs idx + 4))
    else none
  else if 0xF0 ≤ sub then none
  else entryRow idx sub

/-- The value an entry reads as. [6000:0A] is sensed at the read (log 18). -/
def readValue (s : State) (idx sub : Nat) : Nat × State :=
  if sub = 0 then (highestSub idx, s)
  else if counterPage idx then (if sub = 0xFE then counterSnapshot s.m idx else counter s.m idx sub, s)
  else if idx = 0x6000 && sub = 0x0A then
    let t := { s with m := senseHarv s.m }
    (t.m.tgt.vHarv, t)
  else ((readUnit s idx sub).getD (cfgN s.m idx sub), s)

end Sys2Proof.Machine
end

