-- ==== Sys2Proof/Machine/DictWrite.lean ====
section
/-!
DEFINITION. Machine/DictWrite.lean: the checks of R452 on a request, and what a write of each entry does. An entry with no behaviour of
its own takes its value; every other write is the operation of its unit, the one that the unit's own command runs.
-/

namespace Sys2Proof.Machine

/-- The originator of a request: its class, the node, partner or device it came from, and its `ORIGIN` (R450, R464). -/
structure Requester where
  cls    : Nat
  who    : Nat
  origin : Nat
  deriving DecidableEq, Repr

/-- The rights group of an index (R449). -/
def groupOf (idx : Nat) : Nat :=
  let p := idx / 256
  if p = 0x10 then 0
  else if p = 0x11 then 1
  else if p = 0x12 then 2
  else if p = 0x18 then 3
  else if p = 0x20 then 4
  else if p < 0x25 || p = 0x28 then 5
  else if p < 0x28 then 6
  else if p < 0x32 then 7
  else if p = 0x32 then 8
  else if p = 0x34 then 9
  else if p < 0x42 then 10
  else if p = 0x42 then 11
  else if p = 0x50 then 12
  else if p = 0x60 then 13
  else if p < 0x72 then 14
  else 15

/-- Whether a requester's class may read or write a group (R450, R501). -/
def mayUse (m : Main) (r : Requester) (write : Bool) (g : Nat) : Bool :=
  let bit := if write then 16 + g else g
  if r.cls = clsNet then
    if m.can.node = 0x7E then g == 0 || g == 3 else bitAt m.dict.netMasks[finOf 127 r.who] bit
  else if r.cls = clsAir then bitAt (cfgN m 0x1880 0x11) bit
  else true

/-- Whether a HOST-only entry may be written by a requester (R451). -/
def mayWriteHostOnly (r : Requester) : Bool := r.cls = clsHost || (r.cls = clsLace && r.origin = 0)

/-- Steps 2 to 4 of R452: 0 when they pass. -/
def checkAccess (m : Main) (r : Requester) (write : Bool) (idx sub : Nat) : Nat :=
  match entryInfo idx sub with
  | none => 1
  | some e =>
    if write && (e.acc == .ro || e.acc == .konst) then 2
    else if !write && e.acc == .wo then 3
    else if !mayUse m r write (groupOf idx) || (write && e.hostOnly && !mayWriteHostOnly r) then 4
    else 0

/-- Steps 2 to 6 of R452 for a write of `len` bytes. -/
def checkWrite (m : Main) (r : Requester) (idx sub len : Nat) : Nat :=
  let a := checkAccess m r true idx sub
  if a != 0 then a
  else match entryInfo idx sub with
    | none => 1
    | some e => if !bitAt e.modes m.pw.mode.code then 5 else if len != e.size then 7 else 0

/-- The value that a WO command entry takes; every other is out of range. -/
def commandCode (idx sub : Nat) : Option Nat :=
  if (0x2100 ≤ idx && idx < 0x2110 || 0x3000 ≤ idx && idx < 0x3018) && sub = 0x03 then some 0x5A
  else if idx = 0x7100 && sub = 0x0A then some 0x5A
  else if idx = 0x1100 && sub = 0x03 then some 0xA5C3
  else if 0x3400 ≤ idx && idx < 0x3420 && sub = 0x07 then some 0xF1
  else if idx = 0x4100 && sub = 0x17 then some 0xE5
  else none

/-- Ranges that depend on another entry, or on the value in force (R59, R192, R221, R480, R525, R550). -/
def rangeRule (m : Main) (idx sub v : Nat) : Bool :=
  if idx = 0x1200 && sub = 0x05 then decide (cfgN m 0x1200 0x05 ≤ v)
  else if idx = 0x1200 && sub = 0x09 then Nat.land v (cfgN m 0x1200 0x09) == cfgN m 0x1200 0x09
  else if idx = 0x2510 && sub = 0x08 then decide (v < cfgN m 0x2510 0x09)
  else if idx = 0x2510 && sub = 0x09 then decide (cfgN m 0x2510 0x08 < v)
  else if idx = 0x2800 && sub = 0x07 then decide (cfgN m 0x2800 0x08 < v)
  else if idx = 0x2800 && sub = 0x08 then decide (v < cfgN m 0x2800 0x07)
  else if idx = 0x2800 && sub = 0x0B then v % 65536 == 0
  else if idx = 0x5010 && sub = 0x04 then v != cfgN m 0x5010 0x05
  else if idx = 0x5010 && sub = 0x05 then v != cfgN m 0x5010 0x04
  else if 0x5000 ≤ idx && idx < 0x5008 then cuRange m.cus[finOf 8 (idx - 0x5000)] sub v
  else if idx = 0x6010 && sub = 0x01 then decide (v ≤ 60)
  else if idx = 0x7100 && sub = 0x04 then v == 0xFFFF || isCounterIndex v
  else if idx = 0x4010 then decide (field v 42 6 ≤ 61)
  else true

/-- Step 7 of R452. -/
def inRange (m : Main) (idx sub v : Nat) : Bool :=
  ((entryInfo idx sub).map fun e => e.inRange v) == some true && (commandCode idx sub).all (· == v) && rangeRule m idx sub v

/-- Status of a unit's answer. -/
def okOr (b : Bool) : Nat := if b then 0 else 8

/-- A unit that touches only `Main` answers a write. -/
def inMain (s : State) (r : Nat × Main) : Nat × State := (r.1, { s with m := r.2 })

/-- A unit that touches only `Main` and takes every value of the range. -/
def taken (s : State) (m : Main) : Nat × State := (0, { s with m := m })

/-- A setting with no behaviour of its own (R46). -/
def plainWrite (s : State) (idx sub v : Nat) : Nat × State :=
  let r := setEntry s idx sub v
  (okOr r.1, r.2)

/-- Host port and service entries (R451, R495, R501, R503, R505, R510). A node ID written over CAN FD takes effect when the response,
the next packet of the pool, has been sent (R501). -/
def write18 (s : State) (viaCan : Bool) (idx sub v : Nat) : Nat × State :=
  let m := s.m
  if idx = 0x1800 then taken s (widthWrite m v).2
  else if idx = 0x1810 && sub = 0x01 then
    let r := nodeWrite s v
    if !r.1 then (8, r.2)
    else taken r.2 (modCan r.2.m fun c => if viaCan then { c with nodeNext := some (v, m.pool.nextId) } else { c with node := v, nodeNext := none })
  else if idx = 0x1810 && sub = 0x06 then
    if (allFin 32).any fun q => bitAt v q.val && (m.pool.qs[q]).consumer != 0 then (8, s) else plainWrite s idx sub v
  else if idx = 0x1810 && sub = 0x08 then taken s (busoffWrite m v).2
  else if 0x1820 ≤ idx && idx < 0x1828 then
    taken s (modGpio m (finOf 8 (idx - 0x1820)) fun x =>
      if sub = 0x01 then { x with mode := v } else if sub = 0x02 then { x with level := v == 1 } else { x with param := v })
  else if idx = 0x1881 then taken s (modDict m fun d => { d with netMasks := d.netMasks.set (finOf 127 sub) v })
  else plainWrite s idx sub v

/-- Phase and plan entries (R73, R75, R88–R90). -/
def write20 (s : State) (idx sub v : Nat) : Nat × State :=
  if idx = 0x2000 then
    if sub = 0x01 then sourceWrite s v
    else if s.m.lace.role = 2 then (8, s)
    else if sub = 0x05 then inMain s (offsetWrite s.m v)
    else if sub = 0x0A then nominalWrite s v
    else if sub = 0x0C then
      let r := plainWrite s idx sub v
      (r.1, { r.2 with m := fieldsReviewed s.m false r.2.m })
    else plainWrite s idx sub v
  else if idx = 0x2010 then inMain s (planRequest s.m v)
  else
    inMain s (planWrite s.m (if idx = 0x2011 then 0 else 1) (finOf 64 (sub - 1))
      { w0 := word v, w1 := word (v / 2 ^ 32), w2 := word (v / 2 ^ 64), w3 := word (v / 2 ^ 96) })

/-- Core entries (R116, R119). -/
def write21 (s : State) (idx sub v : Nat) : Nat × State :=
  let k := finOf 16 (idx - 0x2100)
  if sub = 0x02 then taken s (coreEnable s.m k (v == 1))
  else if sub = 0x03 then
    if (s.m.cores[k]).state != 4 then (8, s) else taken s (coreRelease s.m k (BitVec.ofNat 8 v))
  else plainWrite s idx sub v

/-- Antenna port entries (R96, R112). -/
def write22 (s : State) (idx sub v : Nat) : Nat × State :=
  if sub = 0x02 then taken s (portEnable s.m (finOf 128 (idx - 0x2200)) (v == 1))
  else if sub = 0x04 then
    let r := plainWrite s idx sub v
    (r.1, { r.2 with m := updateReach r.2.m })
  else plainWrite s idx sub v

/-- STP and ISO/IEC entries (R219, R246, R264). -/
def write25 (s : State) (idx sub v : Nat) : Nat × State :=
  if idx = 0x2500 && 0x10 ≤ sub && sub ≤ 0x17 then
    (0, { s with keys := { s.keys with fobKeys := s.keys.fobKeys.set (finOf 8 (sub - 0x10)) (some (BitVec.ofNat 128 v)) } })
  else if 0x2580 ≤ idx && idx < 0x2600 then taken s (modPort s.m (finOf 128 (idx - 0x2580)) fun x => { x with linkCache := 0 })
  else if 0x2680 ≤ idx then taken s (modPort s.m (finOf 128 (idx - 0x2680)) fun x => { x with isoCache := 0 })
  else plainWrite s idx sub v

/-- Engine entries (R289, R563). -/
def write30 (s : State) (idx sub v : Nat) : Nat × State :=
  let e := finOf 24 (idx - 0x3000)
  if 0x3100 ≤ idx then plainWrite s idx sub v
  else if sub = 0x02 then taken s (engineEnable s.m e (v == 1))
  else if (s.m.engs[e]).state != 4 then (8, s)
  else taken s (engineRelease s.m e (BitVec.ofNat 8 v))

/-- Queue and pool entries (R331, R336, R343, R351). -/
def write34 (s : State) (idx sub v : Nat) : Nat × State :=
  let q := finOf 32 (idx - 0x3400)
  if idx = 0x3480 then plainWrite s idx sub v
  else if sub = 0x04 || sub = 0x05 then
    let r := writeQuota s.m q (sub == 0x05) v
    inMain s (okOr r.1, r.2)
  else if sub = 0x06 then
    let r := writeConsumer s.m q v
    inMain s (okOr r.1, r.2)
  else if sub = 0x07 then taken s (queueFlush s.m q (BitVec.ofNat 8 v))
  else taken s (modQ s.m q fun x => { x with highWater := 0 })

/-- Radio PHY entries (R387, R389, R412). -/
def write40 (s : State) (idx sub v : Nat) : Nat × State :=
  if idx = 0x4010 then
    let r := channelWrite s.m (finOf 64 (sub - 1)) (word v) (word (v / 2 ^ 32))
    inMain s (okOr r.1, r.2)
  else if sub = 0x02 then
    let r := profileWrite s v
    (okOr r.1, r.2)
  else if sub = 0x01 then
    let m := cfgSet s.m 0x4000 0x01 v
    taken s (if v = 0 then dropReceptions (txStop m) false else m)
  else plainWrite s idx sub v

/-- Radio access entries (R421, R442). -/
def write41 (s : State) (idx sub v : Nat) : Nat × State :=
  if idx = 0x4100 && sub = 0x17 then (0, eraseKeys s)
  else if idx = 0x4110 then
    if s.m.rad.profile != 0 then (8, s)
    else taken s (modRad s.m fun r =>
      let l := r.subbands ++ List.replicate (8 - r.subbands.length) (0, 0, 0)
      { r with subbands := l.set (sub - 1) (field v 0 32, field v 32 32, field v 64 16) })
  else plainWrite s idx sub v

/-- Partner entries (R443). -/
def write42 (s : State) (idx sub v : Nat) : Nat × State :=
  let n := finOf 256 (idx - 0x4200)
  let put (f : Partner → Partner) : Nat × State := taken s (modPt s.m n f)
  if sub = 0x01 then
    let r := partnerWrite s n v
    (okOr r.1, r.2)
  else if sub = 0x03 then (0, keyWrite s n (BitVec.ofNat 128 v))
  else if sub = 0x02 then put fun p => { p with address := v }
  else if sub = 0x04 then put fun p => { p with interval := v }
  else if sub = 0x05 then put fun p => { p with channel := v }
  else if sub = 0x06 then put fun p => { p with wideCh := v }
  else if sub = 0x07 then put fun p => { p with txPower := toSigned 8 v }
  else if sub = 0x08 then put fun p => { p with drift := v }
  else if sub = 0x09 then put fun p => { p with rxQueue := finOf 32 v }
  else put fun p => { p with slotAtHub := v }

/-- Check unit and E2E entries (R480, R520, R521, R525). -/
def write50 (s : State) (idx sub v : Nat) : Nat × State :=
  if idx = 0x5010 then
    if sub = 0x04 then inMain s (e2eWrite s.m false v)
    else if sub = 0x05 then inMain s (e2eWrite s.m true v)
    else plainWrite s idx sub v
  else if sub = 0x05 then inMain s (cuValue s.m (finOf 8 (idx - 0x5000)) v)
  else inMain s (cuConfig s.m (finOf 8 (idx - 0x5000)) sub v)

/-- Target and ledger entries (R370, R380, R385). -/
def write60 (s : State) (idx sub v : Nat) : Nat × State :=
  if idx = 0x6010 then
    let r := setLease s .spi v
    (match r.1 with | .ok => 0 | .range => 6 | _ => 8, r.2)
  else if sub = 0x0D then (0, { s with lgr := { s.lgr with key0 := some (BitVec.ofNat 128 v) } })
  else if sub = 0x0E then (0, { s with lgr := { s.lgr with key1 := some (BitVec.ofNat 128 v) } })
  else if sub = 0x11 then taken s (modPw s.m fun p => { p with aoSecBase := v, aoSecAt := s.m.now })
  else plainWrite s idx sub v

/-- Fault and journal entries (R550, R556, R560, R568). Class 0 stays enabled. -/
def write71 (s : State) (sub v : Nat) : Nat × State :=
  if sub = 0x04 then inMain s (counterClear s.m v)
  else if sub = 0x0A then inMain s (radioRelease s.m v)
  else if sub = 0x02 then plainWrite s 0x7100 0x02 (Nat.lor v 1)
  else plainWrite s 0x7100 sub v

/-- A write that has passed steps 1 to 7 of R452: step 8 and the effect. -/
def applyWrite (s : State) (viaCan : Bool) (idx sub v : Nat) : Nat × State :=
  let page := idx / 256
  if page = 0x11 then
    if sub = 0x01 then inMain s (modeWrite s.m v)
    else if sub = 0x03 then resetWrite s v
    else plainWrite s idx sub v
  else if page = 0x18 then write18 s viaCan idx sub v
  else if page = 0x20 then write20 s idx sub v
  else if page = 0x21 then write21 s idx sub v
  else if page = 0x22 then write22 s idx sub v
  else if page = 0x25 || page = 0x26 then write25 s idx sub v
  else if page = 0x30 || page = 0x31 then write30 s idx sub v
  else if page = 0x34 then write34 s idx sub v
  else if page = 0x40 then write40 s idx sub v
  else if page = 0x41 then write41 s idx sub v
  else if page = 0x42 then write42 s idx sub v
  else if page = 0x50 then write50 s idx sub v
  else if page = 0x60 then write60 s idx sub v
  else if page = 0x71 then write71 s sub v
  else plainWrite s idx sub v

/-- A whole write under R452, steps 2 to 8: its status, and the machine after it. A mode request that HOLD turns away is a refused mode request
as well (R36; log 41). -/
def writeEntry (s : State) (r : Requester) (idx sub : Nat) (data : List Byte) : Nat × State :=
  let c := checkWrite s.m r idx sub data.length
  if c != 0 then
    (c, if c = 5 && idx = 0x1100 && sub = 0x01 && data.length = 1 && decide (leNat data ≤ 7) then { s with m := (modeWrite s.m (leNat data)).2 } else s)
  else if !inRange s.m idx sub (leNat data) then (6, s)
  else applyWrite s (r.cls == clsNet) idx sub (leNat data)

/-- A whole read under R452, steps 2 to 4: its status and bytes. -/
def readEntry (s : State) (r : Requester) (idx sub : Nat) : Nat × List Byte × State :=
  let c := checkAccess s.m r false idx sub
  if c != 0 then (c, [], s)
  else
    let v := readValue s idx sub
    (0, leBytes (((entryInfo idx sub).map (·.size)).getD 0) v.1, v.2)

end Sys2Proof.Machine
end

