-- ==== Sys2Proof/Machine/DictSvc.lean ====
section
/-!
DEFINITION. Machine/DictSvc.lean: the dictionary service on one message: end-to-end check, track, format, routing, and the service of a
request (R452–R472).
-/

namespace Sys2Proof.Machine

/-- A message as its carrier delivers it: class and number of the sender, the CAN function (0 elsewhere), whether the carrier goes on
beyond the message's padding (R454), and the bytes. -/
structure Carrier where
  cls   : Nat
  who   : Nat
  fn    : Nat := 0
  excess : Bool := false
  bytes : List Byte
  deriving DecidableEq, Repr

/-- What the service does with a message: the status and data of a response, or no response from here. -/
abbrev Answer := Option (Nat × List Byte)

/-- The service runs (R467, R472). -/
def serviceUp (m : Main) : Bool := ctlOn m && m.pw.fwRunning && m.pw.bootStage == 0 && !m.pw.ctlDown

/-- When the messages that wait at the inputs came: those of each queue, the deferred ones, and the radio and lace inputs. -/
def arrivals (m : Main) : List Nat :=
  let q (i : Fin 32) : List Nat := if (m.pool.qs[i]).consumer = 2 then ((m.pool.qs[i]).pkts.filter fun p => !p.opened).map (·.closedAt) else []
  q 18 ++ q 20 ++ m.dict.deferred.map (·.2) ++ m.dict.airIn.map (·.2.2) ++ m.dict.laceIn.map (·.2.2)

/-- Whether a message that came at a time is to be served now: what waited through a restart of the controller goes in the order of its
arrival, before what has come since (R30). -/
def inTurn (m : Main) (t : Nat) : Bool :=
  match m.dict.backAt with
  | none => true
  | some b => (arrivals m).all fun x => decide (b < x ∨ t ≤ x)

/-- The operations of R455. -/
def knownOp (op : Nat) : Bool := decide (1 ≤ op) && decide (op ≤ 6)

/-- Whether the row of an operation serves a message: its own, and one from which no operation can be taken. -/
def rowTakes (m : Main) (op : Nat) (bs : List Byte) : Bool :=
  !msgWhole bs || !msgCrcOk m bs || (msgOf bs).op == op || !knownOp (msgOf bs).op

/-- A message goes through the track table (R464, R465): whether it is accepted. -/
def takeTrack (m : Main) (r : Requester) (alive : Nat) : Bool × Main :=
  let same (t : Track) : Bool := t.cls == r.cls && t.who == r.who && t.origin == r.origin
  match m.dict.tracks.find? same with
  | none =>
    let new : Track := { cls := r.cls, who := r.who, origin := r.origin, alive := alive, usedAt := m.now }
    if m.dict.tracks.length < 64 then (true, modDict m fun d => { d with tracks := d.tracks ++ [new] })
    else
      let old := (sortBy (fun (a b : Track) => decide (a.usedAt ≤ b.usedAt)) m.dict.tracks).head?
      let rest := match old with | some o => m.dict.tracks.erase o | none => m.dict.tracks
      (true, count (modDict m fun d => { d with tracks := rest ++ [new] }) 0x7010 0x0C)
  | some t =>
    let d := (alive + 256 - t.alive) % 256
    if d = 0 then (false, count m 0x7010 0x03)
    else if 128 ≤ d then (false, count m 0x7010 0x05)
    else
      let m := modDict m fun y =>
        { y with tracks := y.tracks.map fun x => if same x then { x with alive := alive, usedAt := m.now } else x }
      (true, countIf (decide (cfgN m 0x5010 0x02 < d)) m 0x7010 0x04)

/-- Step 1 of R452 (R453–R456, R499). -/
def formatBad (c : Carrier) (q : Msg) : Bool :=
  c.excess || !knownOp q.op || q.status != 0 || (!q.radio && q.peer != 0) || (q.op != 5 && q.offset != 0) ||
  ((q.op == 1 || q.op == 3 || q.op == 6) && q.len != 0) || (q.op == 4 && q.len != 4) ||
  (c.fn == 1 && 2 < q.op) || (c.fn == 3 && q.op < 3)

/-- Whether an operation writes (R455). A SEGMENT and an ABORT name a transfer that was checked when it opened. -/
def opWrites (op : Nat) : Bool := op == 2 || op == 4

/-- Steps 2 to 4 of R452 at the device of entry of a routed request (R469). -/
def checkRouted (m : Main) (r : Requester) (q : Msg) : Nat :=
  if q.op = 5 || q.op = 6 then (if (entryInfo q.index q.sub).isNone then 1 else 0)
  else checkAccess m r (opWrites q.op) q.index q.sub

/-- A routing record is opened (R471). -/
def openRoute (m : Main) (r : Requester) (msg : List Byte) (radio : Bool) : Main :=
  modDict m fun d => { d with routes := d.routes ++ [{ cls := r.cls, who := r.who, msg := msg, radio := radio }] }

/-- A request for another device of the lace (R469, R471). -/
def forwardLace (m : Main) (r : Requester) (q : Msg) (msg : List Byte) : Answer × Main :=
  let a := checkRouted m r q
  if a != 0 then (some (a, []), m)
  else if q.radio && !mayUse m r true 11 then (some (4, []), m)
  else if !laceReach m q.dev then (some (0x0C, []), m)
  else if 32 ≤ m.dict.routes.length then (some (9, []), m)
  else
    let ws := packWords msg
    (none, offerPkt (count (openRoute m r msg false) 0x7010 0x0A) 23 0x2A srcController
      (word (laceHead m 0x7 (some (finOf 4 q.dev)) ws) :: ws))

/-- A request for a radio partner (R470, R471). -/
def forwardRadio (m : Main) (r : Requester) (q : Msg) (msg : List Byte) : Answer × Main :=
  let n := finOf 256 q.peer
  if r.cls = clsAir then (some (0x0C, []), m)
  else if !mayUse m r true 11 then (some (4, []), m)
  else if (m.pts[n]).state = 0 || !radioOn m || (isSat m && n != 0) then (some (0x0C, []), m)
  else if 32 ≤ m.dict.routes.length then (some (9, []), m)
  else
    (none, holdPut (count (openRoute m r msg true) 0x7010 0x0B)
      { slot := n, ackReq := true, now := isSat m, htag := 0, body := msg, made := m.now, expiry := cfgN m 0x1880 0x03, dict := true })

/-- Whether a transfer is the one that a message names (R462). -/
def Transfer.is (t : Transfer) (r : Requester) (q : Msg) : Bool :=
  t.cls == r.cls && t.who == r.who && t.origin == r.origin && t.tid == q.tid && t.index == q.index && t.sub == q.sub

/-- The transfer that a message names. -/
def transferOf (m : Main) (r : Requester) (q : Msg) : Option Transfer := m.dict.transfers.find? fun t => t.is r q

/-- The transfer that a message names is closed. -/
def closeTransfer (m : Main) (r : Requester) (q : Msg) : Main := modDict m fun d => { d with transfers := d.transfers.filter fun t => !t.is r q }

/-- The transfer that a message names changes. -/
def modTransfer (m : Main) (r : Requester) (q : Msg) (f : Transfer → Transfer) : Main :=
  modDict m fun d => { d with transfers := d.transfers.map fun t => if t.is r q then f t else t }

/-- A transfer is opened in place of one of the same name (R462): `BUSY` with eight others open. -/
def openTransfer (m : Main) (r : Requester) (q : Msg) (write : Bool) (total : Nat) (buf : List Byte) : Bool × Main :=
  let m := closeTransfer m r q
  if 8 ≤ m.dict.transfers.length then (false, m)
  else (true, modDict m fun d => { d with transfers := d.transfers ++
    [{ cls := r.cls, who := r.who, origin := r.origin, tid := q.tid, index := q.index, sub := q.sub, write := write, total := total,
       buf := buf, usedAt := m.now }] })

/-- READ (R457). -/
def serveRead (s : State) (r : Requester) (q : Msg) : (Nat × List Byte) × State :=
  let e := readEntry s r q.index q.sub
  if e.1 != 0 then ((e.1, []), s)
  else if 48 < e.2.1.length then ((7, []), s)
  else ((0, e.2.1), e.2.2)

/-- WRITE (R457, R472). -/
def serveWrite (s : State) (r : Requester) (q : Msg) : (Nat × List Byte) × State :=
  let e := writeEntry s r q.index q.sub q.data
  ((e.1, []), e.2)

/-- SEG_READ (R459, R460, R462): the value is captured. -/
def serveSegRead (s : State) (r : Requester) (q : Msg) : (Nat × List Byte) × State :=
  let e := readEntry s r q.index q.sub
  if e.1 != 0 then ((e.1, []), s)
  else
    let t := openTransfer e.2.2.m r q false e.2.1.length e.2.1
    if t.1 then ((0, leBytes 4 e.2.1.length), { e.2.2 with m := t.2 }) else ((9, []), s)

/-- SEG_WRITE (R461, R462): steps 1 to 6 with the stated length. -/
def serveSegWrite (s : State) (r : Requester) (q : Msg) : (Nat × List Byte) × State :=
  let n := leNat q.data
  let c := checkWrite s.m r q.index q.sub n
  if c != 0 then ((c, []), s)
  else
    let t := openTransfer s.m r q true n []
    if t.1 then ((0, []), { s with m := t.2 }) else ((9, []), s)

/-- A transfer ends with `SEGMENT` (R460–R462). -/
def segmentError (s : State) (r : Requester) (q : Msg) : (Nat × List Byte) × State :=
  ((0x0A, []), { s with m := countIf (transferOf s.m r q).isSome (closeTransfer s.m r q) 0x7010 0x08 })

/-- A SEGMENT of a read transfer (R460). -/
def segmentOut (s : State) (r : Requester) (q : Msg) (t : Transfer) : (Nat × List Byte) × State :=
  if q.len != 0 then ((0x0E, []), s)
  else if q.offset % 48 = 0 && q.offset < t.total then
    ((0, (t.buf.drop q.offset).take 48), { s with m := modTransfer s.m r q fun x => { x with usedAt := s.m.now } })
  else segmentError s r q

/-- A SEGMENT of a write transfer (R461): the one that completes the length is checked in full and applied. -/
def segmentIn (s : State) (r : Requester) (q : Msg) (t : Transfer) : (Nat × List Byte) × State :=
  let used (f : Transfer → Transfer) (s : State) : State := { s with m := modTransfer s.m r q fun x => f { x with usedAt := s.m.now } }
  if t.lastOff = some q.offset then ((t.done.getD 0, []), used id s)
  else if t.done.isSome || q.offset != t.buf.length then segmentError s r q
  else if q.len != min 48 (t.total - t.buf.length) then ((0x0E, []), s)
  else
    let buf := t.buf ++ q.data
    if buf.length < t.total then ((0, []), used (fun x => { x with buf := buf, lastOff := some q.offset }) s)
    else
      let e := writeEntry s r q.index q.sub buf
      ((e.1, []), used (fun x => { x with buf := buf, lastOff := some q.offset, done := some e.1 }) e.2)

/-- SEGMENT (R460, R461). -/
def serveSegment (s : State) (r : Requester) (q : Msg) : (Nat × List Byte) × State :=
  match transferOf s.m r q with
  | none => ((0x0A, []), s)
  | some t => if t.write then segmentIn s r q t else segmentOut s r q t

/-- ABORT (R462). -/
def serveAbort (s : State) (r : Requester) (q : Msg) : (Nat × List Byte) × State := ((0, []), { s with m := closeTransfer s.m r q })

/-- A request for this device (R455). -/
def serveLocal (s : State) (r : Requester) (q : Msg) : (Nat × List Byte) × State :=
  if q.op = 1 then serveRead s r q
  else if q.op = 2 then serveWrite s r q
  else if q.op = 3 then serveSegRead s r q
  else if q.op = 4 then serveSegWrite s r q
  else if q.op = 5 then serveSegment s r q
  else serveAbort s r q

/-- A request that its track has accepted (R452, R469, R470). -/
def serveMsg (s : State) (c : Carrier) (r : Requester) (q : Msg) : Answer × State :=
  if formatBad c q then (some (0x0E, []), s)
  else if q.radio && r.cls == clsAir then (some (0x0C, []), s)
  else if q.dev != laceDev s.m then
    let f := forwardLace s.m r q (msgCut c.bytes)
    (f.1, { s with m := f.2 })
  else if q.radio then
    let f := forwardRadio s.m r q (msgCut c.bytes)
    (f.1, { s with m := f.2 })
  else
    let f := serveLocal s r q
    (some f.1, f.2)

/-- Why the service drops a message without a response: the counter of 0x7010 (R454, R463, R468, R469, R471). -/
def dropCause (m : Main) (c : Carrier) : Option Nat :=
  let q := msgOf c.bytes
  if !msgWhole c.bytes || !msgCrcOk m c.bytes then some 0x02
  else if (c.cls == clsHost && q.origin != 0) || (c.cls == clsNet && q.origin != c.who) then some 0x06
  else if q.resp || (c.cls == clsLace && q.dev != laceDev m) then some 0x0D
  else none

/-- The check unit takes a message that can be found (R454, R463, R521). -/
def checkMsg (m : Main) (bs : List Byte) : Main :=
  if msgWhole bs then cuService m 0x04 0xFFFFFFFF .crc32c (msgCovered m bs) else m

/-- The service takes a message: the response, if one is formed here, and the machine after it. -/
def handle (s : State) (c : Carrier) : Option (List Byte) × State :=
  let m := checkMsg s.m c.bytes
  match dropCause s.m c with
  | some sub => (none, { s with m := count m 0x7010 sub })
  | none =>
    let q := msgOf c.bytes
    let r : Requester := { cls := c.cls, who := c.who, origin := q.origin }
    let t := takeTrack m r q.alive
    if !t.1 then (none, { s with m := t.2 })
    else
      let a := serveMsg { s with m := t.2 } c r q
      match a.1 with
      | none => (none, a.2)
      | some x =>
        if !ctlOn a.2.m then (none, a.2)
        else
          let o := dictResp (count a.2.m 0x7010 0x01) c.bytes x.1 x.2
          (some o.1, { a.2 with m := o.2 })

/-- The output of a class takes the largest response (R338). -/
def outRoom (m : Main) (cls : Nat) : Bool :=
  if cls = clsHost then decide (3 ≤ takeable m 19)
  else if cls = clsNet then decide (3 ≤ takeable m 21)
  else if cls = clsAir then decide (m.rad.hold.length < holdSize)
  else decide (3 ≤ takeable m 23)

/-- The entry and the value that a request for this device is about to write (R457, R461). -/
def writesNow (s : State) (r : Requester) (q : Msg) : Option (Nat × Nat × List Byte) :=
  if q.radio || q.dev != laceDev s.m then none
  else if q.op = 2 then some (q.index, q.sub, q.data)
  else if q.op != 5 then none
  else match transferOf s.m r q with
    | some t => if t.write && t.done.isNone && t.total == t.buf.length + q.len then some (q.index, q.sub, t.buf ++ q.data) else none
    | none => none

/-- Whether the write of an entry must wait for the ledger, within the 3 ms of R369 since it was first served (R46). -/
def entryWaits (s : State) (r : Requester) (bs : List Byte) (w : Nat × Nat × List Byte) : Bool :=
  let v := leNat w.2.2
  ((entryRow w.1 w.2.1).map (·.persist)) == some true && checkWrite s.m r w.1 w.2.1 w.2.2.length == 0 && inRange s.m w.1 w.2.1 v &&
  ledgerWaits s (ekey w.1 w.2.1) v &&
  (match s.m.dict.ledgerAt with
   | some x => x.1 != bs || decide (s.m.now < x.2 + 3 * tickMs)
   | none => true)

/-- Whether a message must wait for the ledger. -/
def msgWaits (s : State) (c : Carrier) : Bool :=
  let q := msgOf c.bytes
  let r : Requester := { cls := c.cls, who := c.who, origin := q.origin }
  (dropCause s.m c).isNone && !formatBad c q && ((writesNow s r q).map fun w => entryWaits s r c.bytes w) == some true

/-- A request stays where it is until the ledger is free; a settings write that it meets is a conflict, repeated (R368). -/
def waitLedger (s : State) (bs : List Byte) : State :=
  if (s.m.dict.ledgerAt.map (·.1)) == some bs then s
  else
    let m := if (s.lgr.running.map (·.isSetting)) == some true || s.lgr.waiting.any (·.started) then countAo s.m 0x70D0 0x05 else s.m
    { s with m := modDict m fun d => { d with ledgerAt := some (bs, s.m.now) } }

/-- A message is served and its response leaves by the path of its class (R467). `s` has it taken out of its input, `back` still has it
there: a request that must wait for the ledger is left to be served later. -/
def serveOut (back s : State) (c : Carrier) : State :=
  if msgWaits s c then waitLedger back c.bytes
  else
    let h := handle s c
    match h.1 with
    | none => h.2
    | some bs => { h.2 with m := dictOut h.2.m c.cls c.who (if c.fn = 3 then 3 else if c.fn = 1 then 2 else 0) bs }

/-- Whether a carrier of whole words holds more than the message and its padding (R454). -/
def overWords (bs : List Byte) : Bool := decide ((16 + (msgOf bs).len + 3) / 4 * 4 < bs.length)

/-- Whether a carrier of bytes holds more than the message. -/
def overBytes (bs : List Byte) : Bool := decide (16 + (msgOf bs).len < bs.length)

/-- A request that goes on to another device or a partner, which needs room in the hold for the partner's frame (R439, R470). -/
def routeRoom (m : Main) (bs : List Byte) : Bool := !(msgOf bs).radio || decide (m.rad.hold.length < holdSize)

/-- The next message of Q18 (R454, R467). -/
def serveQ18 (s : State) (op : Nat) : State :=
  if (s.m.pool.qs[(18 : Fin 32)]).consumer != 2 || !outRoom s.m clsHost then s
  else
    let h := headOf s.m 18
    match h.1 with
    | .nothing => s
    | .short => { s with m := h.2 }
    | .packet p =>
      let bs := wordsBytes p.words
      if !inTurn s.m p.closedAt then s
      else if p.type != 0x27 then { s with m := count (dropHead h.2 18) 0x7010 0x02 }
      else if rowTakes h.2 op bs && routeRoom h.2 bs then
        serveOut { s with m := h.2 } { s with m := dropHead h.2 18 } { cls := clsHost, who := 0, excess := overWords bs, bytes := bs }
      else s

/-- A frame in Q20: node, function and data (R500). -/
def canParts (p : Packet) : Nat × Nat × List Byte :=
  let w0 := (nth p.words 0 0).toNat
  (field w0 4 7, field w0 0 4, (wordsBytes (p.words.drop 1)).take (field w0 16 7))

/-- The next frame of Q20 in native mode (R454, R467). A time mark has been latched when it came and is taken without effect (R504). -/
def serveQ20 (s : State) (op : Nat) : State :=
  if (s.m.pool.qs[(20 : Fin 32)]).consumer != 2 || !outRoom s.m clsNet || cfgB s.m 0x5010 0x01 then s
  else
    let h := headOf s.m 20
    match h.1 with
    | .nothing => s
    | .short => { s with m := h.2 }
    | .packet p =>
      let x := canParts p
      if !inTurn s.m p.closedAt then s
      else if x.2.1 = 6 then { s with m := dropHead h.2 20 }
      else if rowTakes h.2 op x.2.2 && routeRoom h.2 x.2.2 then
        serveOut { s with m := h.2 } { s with m := dropHead h.2 20 } { cls := clsNet, who := x.1, fn := x.2.1, bytes := x.2.2 }
      else s

/-- The next DICT frame of a partner (R467); a frame of an EMPTY partner is dropped. -/
def serveAir (s : State) (op : Nat) (n : Fin 256) (bs : List Byte) : State :=
  match s.m.dict.airIn.find? fun x => x.1 == n with
  | none => s
  | some x =>
    if x.2.1 != bs || (msgWhole bs && (msgOf bs).resp) || !inTurn s.m x.2.2 then s
    else
      let t := { s with m := modDict s.m fun d => { d with airIn := d.airIn.erase x } }
      if (s.m.pts[n]).state = 0 then t
      else if outRoom s.m clsAir && rowTakes s.m op bs then serveOut s t { cls := clsAir, who := n.val, excess := overBytes bs, bytes := bs }
      else s

/-- The next frame of a device of the lace (R467, R469). -/
def serveLace (s : State) (op : Nat) (d : Fin 4) : State :=
  match s.m.dict.laceIn.find? fun x => x.1 == d with
  | none => s
  | some x =>
    let bs := x.2.1
    if (msgWhole bs && (msgOf bs).resp) || !outRoom s.m clsLace || !rowTakes s.m op bs || !routeRoom s.m bs || !inTurn s.m x.2.2 then s
    else
      serveOut s { s with m := modDict s.m fun y => { y with laceIn := y.laceIn.erase x } }
        { cls := clsLace, who := d.val, excess := overWords bs, bytes := bs }

/-- Whether a request goes on to another device or a partner, so that its response always comes in Q19 (R491). -/
def spiRouted (m : Main) (bs : List Byte) : Bool := (msgOf bs).radio || (msgOf bs).dev != laceDev m

/-- The reply of a DICT command whose response is not formed in it (R491). -/
def spiDefer (m : Main) (h : SpiHeader) : Main := spiData (count m 0x7000 0x04) h [0x01]

/-- A DICT command of the SPI port (R488, R491), or one that was put off before and is
served now, to Q19; one whose `DCHK` fails is dropped like one that fails its E2E check (log 30). -/
def serveSpi (s : State) (op : Nat) (bs : List Byte) (dchk : Byte) : State :=
  let c : Carrier := { cls := clsHost, who := 0, excess := overBytes bs, bytes := bs }
  if s.m.dict.deferred.head?.map (·.1) = some bs then
    if serviceUp s.m && inTurn s.m ((s.m.dict.deferred.head?.map (·.2)).getD 0) && outRoom s.m clsHost && rowTakes s.m op bs && routeRoom s.m bs then
      serveOut s { s with m := modDict s.m fun d => { d with deferred := d.deferred.drop 1 } } c
    else s
  else if !rowTakes s.m op bs then s
  else if spiCheck bs == dchk && spiUp s.m && serviceUp s.m && s.m.dict.deferred.isEmpty && msgWaits s c then waitLedger s bs
  else spiTransaction s (fun m => !loaderWaits m && decide (16 ≤ bs.length) && decide (bs.length ≤ 64)) fun s =>
    let h : SpiHeader := { cmd := 0x06, addr := 0, len := BitVec.ofNat 16 bs.length }
    let s := { s with m := cuSpi s.m false bs (spiHead h) }
    if spiCheck bs != dchk then
      { s with m := spiData (count (modSpi s.m fun p => { p with prevCrc := true }) 0x7000 0x03) h [0x02] }
    else if !serviceUp s.m || !s.m.dict.deferred.isEmpty || !inTurn s.m (s.m.now + 1) || (spiRouted s.m bs && !(outRoom s.m clsHost && routeRoom s.m bs)) then
      { s with m := spiDefer (modDict s.m fun d => { d with deferred := d.deferred ++ [(bs, s.m.now)] }) h }
    else if spiRouted s.m bs then
      let t := serveOut s s c
      { t with m := spiDefer t.m h }
    else
      let r := handle s c
      if !ctlOn r.2.m then r.2
      else { r.2 with m := spiData r.2.m h (match r.1 with | some bs => 0x00 :: bs | none => [0x02]) }

/-- The next message of an input, when the row of its operation is commanded (R467). -/
def serveFrom (s : State) (op : Nat) : DictArrival → State
  | .spi bs dchk => serveSpi s op bs dchk
  | .q18 => if serviceUp s.m then serveQ18 s op else s
  | .q20 => if serviceUp s.m then serveQ20 s op else s
  | .air n bs => if serviceUp s.m then serveAir s op n bs else s
  | .lace d => if serviceUp s.m then serveLace s op d else s

end Sys2Proof.Machine
end

