-- ==== Sys2Proof/Machine/Dict.lean ====
section
/-!
DEFINITION. Machine/Dict.lean: the meanings of the steps of the dictionary service (chapter 17): the operations, routed responses, the
time limits, and the DX4032 compatibility mode.
-/

namespace Sys2Proof.Machine

/-- DICT_READ (R457). -/
def execDictRead (src : DictArrival) (s : State) : Out := .next (serveFrom s 1 src)

/-- DICT_WRITE (R457, R472). -/
def execDictWrite (src : DictArrival) (s : State) : Out := .next (serveFrom s 2 src)

/-- DICT_SEG_READ (R460). -/
def execDictSegRead (src : DictArrival) (s : State) : Out := .next (serveFrom s 3 src)

/-- DICT_SEG_WRITE (R461). -/
def execDictSegWrite (src : DictArrival) (s : State) : Out := .next (serveFrom s 4 src)

/-- DICT_SEGMENT (R460, R461). -/
def execDictSegment (src : DictArrival) (s : State) : Out := .next (serveFrom s 5 src)

/-- DICT_ABORT (R462). -/
def execDictAbort (src : DictArrival) (s : State) : Out := .next (serveFrom s 6 src)

/-- Whether a response answers the request of a routing record, given where it came from (R458, R471). -/
def Route.answeredBy (r : Route) (viaRadio : Bool) (who : Nat) (a : Msg) : Bool :=
  let q := msgOf r.msg
  r.radio == viaRadio && who == (if viaRadio then q.peer else q.dev) && q.op == a.op && q.alive == a.alive && q.tid == a.tid &&
  q.dev == a.dev && q.radio == a.radio && q.peer == a.peer && q.origin == a.origin && q.index == a.index && q.sub == a.sub

/-- The sender of a message that waits in the AIR or the LACE input, and its arrival. -/
def waitingFrom (m : Main) (viaRadio : Bool) (bs : List Byte) : Option (Nat × Nat) :=
  if viaRadio then (m.dict.airIn.find? fun x => x.2.1 == bs).map fun x => (x.1.val, x.2.2)
  else (m.dict.laceIn.find? fun x => x.2.1 == bs).map fun x => (x.1.val, x.2.2)

/-- A message leaves the AIR or the LACE input. -/
def takeWaiting (m : Main) (viaRadio : Bool) (who : Nat) (bs : List Byte) (at_ : Nat) : Main :=
  modDict m fun d =>
    if viaRadio then { d with airIn := d.airIn.erase (finOf 256 who, bs, at_) } else { d with laceIn := d.laceIn.erase (finOf 4 who, bs, at_) }

/-- A response that waits in the AIR or the LACE input is passed on to the originator, or dropped (R463, R471). It waits while the
output has no room. -/
def routedResponse (m : Main) (viaRadio : Bool) (bs : List Byte) : Main :=
  match waitingFrom m viaRadio bs with
  | none => m
  | some (who, at_) =>
    let a := msgOf bs
    if !serviceUp m || !msgWhole bs || !a.resp || !inTurn m at_ then m
    else
      let t := checkMsg (takeWaiting m viaRadio who bs at_) bs
      if !msgCrcOk m bs then count t 0x7010 0x02
      else match m.dict.routes.findIdx? fun r => r.answeredBy viaRadio who a with
        | none => count t 0x7010 0x0D
        | some i =>
          match m.dict.routes[i]? with
          | none => count t 0x7010 0x0D
          | some r =>
            if !outRoom m r.cls then m
            else dictOut (modDict t fun d => { d with routes := d.routes.eraseIdx i }) r.cls r.who (canRespFn a.op) (msgCut bs)

/-- DICT_ROUTED_RESPONSE. -/
def execDictRoutedResponse (viaRadio : Bool) (bytes : List Byte) (s : State) : Out := onMain (fun m => routedResponse m viaRadio bytes) s

/-- A routed request has had no response in [1880:02] after its DICT frame was acknowledged, or in [1880:04] on the lace (R471). -/
def routeTimeout (m : Main) (i : Nat) : Main :=
  match m.dict.routes[i]? with
  | some r => if serviceUp m && (!r.radio || r.acked) then routeError m i 0x0B else m
  | none => m

/-- ROUTE_TIMEOUT. -/
def execRouteTimeout (i : Nat) (s : State) : Out := onMain (fun m => routeTimeout m i) s

/-- TRANSFER_IDLE_EXPIRY (R462, R481). -/
def execTransferIdleExpiry (i : Nat) (s : State) : Out :=
  onMain (fun m =>
    if i < m.dict.transfers.length then count (modDict m fun d => { d with transfers := d.transfers.eraseIdx i }) 0x7010 0x08 else m) s

/-- TRACK_EXPIRY (R464). -/
def execTrackExpiry (i : Nat) (s : State) : Out := onMain (fun m => modDict m fun d => { d with tracks := d.tracks.eraseIdx i }) s

/-- The initial value of the CRC of a DX4032 message (R475). -/
def compatInit (idx node : Nat) : Nat := (0xFFFF ^^^ idx) ^^^ (node * 512 % 65536)

/-- A DX4032 message from its bytes: operation, status, index, subindex, value, CRC (R474). -/
structure Compat where
  op     : Nat
  status : Nat
  index  : Nat
  sub    : Nat
  data   : Nat
  crc    : Nat
  deriving DecidableEq, Repr

def compatOf (bs : List Byte) : Compat :=
  let b (i n : Nat) : Nat := leNat ((bs.drop i).take n)
  { op := b 0 1 % 16, status := b 0 1 / 16, index := b 1 2, sub := b 3 1, data := b 4 4, crc := b 8 2 }

/-- Whether the CRC of a DX4032 request passes (R475). -/
def compatCrcOk (node : Nat) (bs : List Byte) : Bool :=
  CrcKind.ccitt.run (compatInit (compatOf bs).index node) (bs.take 8) == (compatOf bs).crc

/-- A DX4032 response of the device at `node` (R474, R475). -/
def compatResponse (node : Nat) (q : Compat) (status data : Nat) : List Byte :=
  let head := [byte (q.op + 16 * status)] ++ leBytes 2 q.index ++ [byte q.sub] ++ leBytes 4 data
  head ++ leBytes 2 (CrcKind.ccitt.run (compatInit q.index node) head) ++ [0, 0]

/-- Size of an entry in bytes. -/
def entrySize (idx sub : Nat) : Nat := ((entryInfo idx sub).map (·.size)).getD 0

/-- A DX4032 request is served under the checks of R452 (R474, R476): status and value. -/
def serveCompat (s : State) (node : Nat) (q : Compat) : (Nat × Nat) × State :=
  let r : Requester := { cls := clsNet, who := node, origin := node }
  let n := entrySize q.index q.sub
  if (q.op != 1 && q.op != 2) || q.status != 0 then ((0x0E, 0), s)
  else if q.op = 1 then
    let a := checkAccess s.m r false q.index q.sub
    if a != 0 then ((a, 0), s)
    else if 4 < n then ((0x0F, 0), s)
    else
      let v := readValue s q.index q.sub
      ((0, v.1), v.2)
  else
    let a := checkWrite s.m r q.index q.sub n
    if a != 0 then ((a, 0), s)
    else if 4 < n then ((0x0F, 0), s)
    else if 2 ^ (8 * n) ≤ q.data then ((6, 0), s)
    else
      let w := writeEntry s r q.index q.sub (leBytes n q.data)
      ((w.1, 0), w.2)

/-- Whether the row of a DX4032 operation serves a frame: its own, and one with another operation, a wrong length or a wrong CRC. -/
def compatTakes (op node : Nat) (bs : List Byte) : Bool :=
  let o := (compatOf bs).op
  bs.length != 12 || !compatCrcOk node bs || o == op || (o != 1 && o != 2)

/-- Whether a DX4032 write must wait for the ledger (R46). -/
def compatWaits (s : State) (node : Nat) (bs : List Byte) : Bool :=
  let q := compatOf bs
  let n := entrySize q.index q.sub
  bs.length == 12 && compatCrcOk node bs && q.op == 2 && q.status == 0 && decide (n ≤ 4) && decide (q.data < 2 ^ (8 * n)) &&
  entryWaits s { cls := clsNet, who := node, origin := node } bs (q.index, q.sub, leBytes n q.data)

/-- A DX4032 frame of a node, taken from Q20 (R474–R476, R521). -/
def compatFrame (s : State) (node : Nat) (bs : List Byte) : State :=
  if bs.length != 12 then { s with m := count s.m 0x7010 0x0E }
  else
    let q := compatOf bs
    let m := cuService s.m 0x04 (compatInit q.index node) .ccitt (bs.take 8)
    if !compatCrcOk node bs then { s with m := count m 0x7010 0x02 }
    else
      let a := serveCompat { s with m := m } node q
      if !ctlOn a.2.m then a.2
      else
        let own := a.2.m.can.node
        let out := compatResponse own q a.1.1 a.1.2
        let m := countIf (a.1.1 != 0) (count a.2.m 0x7010 0x01) 0x7010 0x07
        let m := cuService m 0x05 (compatInit q.index own) .ccitt (out.take 8)
        { a.2 with m := dictOut m clsNet node 2 out }

/-- The next frame of Q20 in DX4032 compatibility mode (R474, R476). -/
def serveCompatQ20 (s : State) (op : Nat) : State :=
  if !serviceUp s.m || (s.m.pool.qs[(20 : Fin 32)]).consumer != 2 || !outRoom s.m clsNet || !cfgB s.m 0x5010 0x01 then s
  else
    let h := headOf s.m 20
    match h.1 with
    | .nothing => s
    | .short => { s with m := h.2 }
    | .packet p =>
      let x := canParts p
      if !inTurn s.m p.closedAt then s
      else if x.2.1 = 6 then { s with m := dropHead h.2 20 }
      else if compatTakes op x.1 x.2.2 && compatWaits s x.1 x.2.2 then waitLedger { s with m := h.2 } x.2.2
      else if compatTakes op x.1 x.2.2 then compatFrame { s with m := dropHead h.2 20 } x.1 x.2.2
      else s

/-- DX4032_READ. -/
def execDx4032Read (s : State) : Out := .next (serveCompatQ20 s 1)

/-- DX4032_WRITE. -/
def execDx4032Write (s : State) : Out := .next (serveCompatQ20 s 2)

end Sys2Proof.Machine
end

