-- ==== Sys2Proof/Machine/Idle.lean ====
section
/-!
DEFINITION. Machine/Idle.lean: what the block does when no command waits: one SCLK period passes (log 2), and one flushed
cell returns to the free list (R343).
-/

namespace Sys2Proof.Machine

/-- One SCLK period passes. -/
def idle (s : State) : Out :=
  onMain (fun m => { m with now := m.now + 1, pool := { m.pool with returning := m.pool.returning - 1 } }) s

end Sys2Proof.Machine
end

