-- ==== Sys2Proof/Machine/WatchSweep.lean ====
section
/-!
DEFINITION. Machine/WatchSweep.lean: the meanings of the watch sequencer's steps (R312–R318).
-/

namespace Sys2Proof.Machine

/-- A watch event wakes the DX8128 when bit 4 of [1100:07] is set (R318). -/
def watchEvent (m : Main) : Main :=
  if m.pw.mode == .watch && !m.pw.booting && bitAt (cfgN m 0x1100 0x07) 4 then
    wake { m with wt := { m.wt with woke := true } } 4
  else m

/-- A sweep starts, is late, or finds VTX below 4.5 V and probes nothing (R312, R318). -/
def sweepStart (m : Main) : Main :=
  if !m.wt.active then m
  else if m.wt.sweeping then { count m 0x70B0 0x08 with wt := { m.wt with late := true } }
  else if m.pw.vtxLow || m.pw.vtxHold then sweepDark m
  else { m with wt := { m.wt with sweeping := true, repeats := 0 } }

/-- WATCH_SWEEP_START. -/
def execWatchSweepStart (s : State) : Out := onMain sweepStart s

/-- Whether the plan's copy lets a port be probed now: a window of the watch probe class that allows it, with room to its edges (R81, R83, R84,
R312). -/
def probePlaced (m : Main) (p : Fin 128) : Bool :=
  m.wt.planCopy.any fun w => w.allows ((watchCore m p).getD (homeCore p)) p 3 && w.containsWell m.ph.ao m.now

/-- One probe of a step, where the sequencer may place it: a probe fault (R314), or the probe of the sweep or of a repeat. -/
def takeProbe (m : Main) (x : Probe) : Main :=
  match m.wt.ports.find? fun w => w.port == x.port && !w.dead && probePlaced m w.port with
  | none => m
  | some _ =>
    let st := zState (cfgN m (0x2200 + x.port.val) 0x09) (cfgN m (0x2200 + x.port.val) 0x08) x.zMag x.zArg
    let put (f : WatchPort → WatchPort) : Watch := { m.wt with ports := m.wt.ports.map fun w => if w.port = x.port then f w else w }
    if st != 0 then
      let m := latchPort (count { m with wt := put fun w => { w with dead := true } } 0x70B0 0x0B) { port := x.port, fault := true, st := st }
      watchEvent m
    else if m.wt.repeats = 0 then { m with wt := put fun w => { w with probe := some (x.zMag, x.zArg) } }
    else { m with wt := put fun w => { w with conf := w.conf ++ [(x.zMag, x.zArg)] } }

/-- A probe step: the ports of its position (R312, R313). -/
def probeStep (m : Main) (pos : Fin 8) (ps : List Probe) : Main :=
  if !m.wt.sweeping then m else forEach (ps.filter fun x => x.port.val % 8 = pos.val) m takeProbe

/-- WATCH_PROBE_STEP. -/
def execWatchProbeStep (pos : Fin 8) (probes : List Probe) (s : State) : Out := onMain (fun m => probeStep m pos probes) s

/-- A settling port adds its probe, and has its baseline after [3210:08] sweeps (R315). -/
def settlePort (n : Nat) (w : WatchPort) (z : Nat × Int) : WatchPort :=
  let w := { w with settled := w.settled + 1, baseMag := w.baseMag + 65536 * z.1, baseArg := w.baseArg + 65536 * z.2 }
  if w.settled = n then { w with baseMag := w.baseMag / n, baseArg := w.baseArg / (n : Nat) } else w

/-- A probe against a port's baseline. -/
def beyond (m : Main) (w : WatchPort) (z : Nat × Int) : Bool := probeExceeds m w.baseMag w.baseArg (65536 * z.1) (65536 * z.2)

/-- The sweep is judged after its first run, or after a repeat (R315, R316): the port, and whether it failed to confirm. -/
def judgePort (m : Main) (w : WatchPort) : WatchPort × Bool :=
  match w.probe with
  | none => (w, false)
  | some z =>
    if w.dead || w.settled < cfgN m 0x3210 0x08 then (w, false)
    else if m.wt.repeats = 0 then ({ w with exceeds := beyond m w z }, false)
    else if w.exceeds then
      let ok := (w.conf[m.wt.repeats - 1]?).any (beyond m w)
      ({ w with exceeds := ok }, !ok)
    else (w, false)

/-- What a sweep leaves of a port: settling, detection with its new baseline, or a baseline that follows (R315–R317). -/
def finishPort (m : Main) (w : WatchPort) : WatchPort × Option Latched :=
  let n := cfgN m 0x3210 0x08
  let clear (w : WatchPort) : WatchPort := { w with probe := none, conf := [], exceeds := false }
  match w.probe with
  | none => (clear w, none)
  | some z =>
    if w.dead then (clear w, none)
    else if w.settled < n then (clear (settlePort n w z), none)
    else if w.exceeds then
      let cs := if w.conf.isEmpty then [z] else w.conf
      let f := (cs.head?).getD z
      let b := meanProbe cs
      (clear { w with baseMag := b.1, baseArg := b.2 },
       some { port := w.port, fault := false, dMag := deltaMag (65536 * f.1) w.baseMag, dPhase := deltaPhase (65536 * f.2) w.baseArg })
    else (clear (adaptBase m w (65536 * z.1) (65536 * z.2)), none)

/-- A sweep, or one of its repeats, has run all its steps (R316). -/
def sweepEnd (m : Main) : Main :=
  if !m.wt.sweeping then m
  else
    let js := m.wt.ports.map (judgePort m)
    let m := countN m 0x70B0 0x0A (js.filter (·.2)).length
    let m := { m with wt := { m.wt with ports := js.map (·.1) } }
    if m.wt.ports.any (·.exceeds) && decide (m.wt.repeats < cfgN m 0x3210 0x06) then
      { m with wt := { m.wt with repeats := m.wt.repeats + 1 } }
    else
      let fs := m.wt.ports.map (finishPort m)
      let found := fs.filterMap (·.2)
      let m := { m with wt := { m.wt with ports := fs.map (·.1), sweeping := false, repeats := 0, sweeps := sat32 (m.wt.sweeps + 1) } }
      let m := countN m 0x70B0 0x09 found.length
      let m := forEach found m latchPort
      if found.isEmpty then m else watchEvent m

/-- WATCH_SWEEP_END. -/
def execWatchSweepEnd (s : State) : Out := onMain sweepEnd s

end Sys2Proof.Machine
end

