-- ==== Sys2Proof/Machine/Dispatch.lean ====
section
/-!
DEFINITION. Machine/Dispatch.lean: the meaning of each command of the table, one arm per constructor.
-/

namespace Sys2Proof.Machine

def exec (i : Instr) (s : State) : Host.Outcome State Fault Refusal :=
  match i with
  | .coldStart refsel vddio33 => Sys2Proof.Machine.execColdStart refsel vddio33 s
  | .rstNLow => Sys2Proof.Machine.execRstNLow s
  | .resetCmd value => Sys2Proof.Machine.execResetCmd value s
  | .mainSupplyLost => Sys2Proof.Machine.execMainSupplyLost s
  | .vtxLow => Sys2Proof.Machine.execVtxLow s
  | .vtxRestored => Sys2Proof.Machine.execVtxRestored s
  | .vrfLow => Sys2Proof.Machine.execVrfLow s
  | .vrfRestored => Sys2Proof.Machine.execVrfRestored s
  | .vaoLow => Sys2Proof.Machine.execVaoLow s
  | .vaoRestored => Sys2Proof.Machine.execVaoRestored s
  | .clockMonitorWindow cycles sleepLost => Sys2Proof.Machine.execClockMonitorWindow cycles sleepLost s
  | .sleepCrystalQualified => Sys2Proof.Machine.execSleepCrystalQualified s
  | .sleepCrystalTimeout => Sys2Proof.Machine.execSleepCrystalTimeout s
  | .watchdogExpiry => Sys2Proof.Machine.execWatchdogExpiry s
  | .controllerParityFault => Sys2Proof.Machine.execControllerParityFault s
  | .controllerRestart => Sys2Proof.Machine.execControllerRestart s
  | .modeRequest code window => Sys2Proof.Machine.execModeRequest code window s
  | .modeTransitionComplete => Sys2Proof.Machine.execModeTransitionComplete s
  | .drainLimitExpiry => Sys2Proof.Machine.execDrainLimitExpiry s
  | .targetFieldDetected strength => Sys2Proof.Machine.execTargetFieldDetected strength s
  | .emulateHoldoffExpiry => Sys2Proof.Machine.execEmulateHoldoffExpiry s
  | .rescueFieldAbsent => Sys2Proof.Machine.execRescueFieldAbsent s
  | .wakeNWake => Sys2Proof.Machine.execWakeNWake s
  | .wakeNRearm => Sys2Proof.Machine.execWakeNRearm s
  | .alarmExpiry => Sys2Proof.Machine.execAlarmExpiry s
  | .canActivityWake => Sys2Proof.Machine.execCanActivityWake s
  | .canWakeArm => Sys2Proof.Machine.execCanWakeArm s
  | .wakeDuringBoot source => Sys2Proof.Machine.execWakeDuringBoot source s
  | .junctionTempSample tj => Sys2Proof.Machine.execJunctionTempSample tj s
  | .referenceStable => Sys2Proof.Machine.execReferenceStable s
  | .pllLocked => Sys2Proof.Machine.execPllLocked s
  | .imageReadComplete img => Sys2Proof.Machine.execImageReadComplete img s
  | .signatureVerified good => Sys2Proof.Machine.execSignatureVerified good s
  | .imageOverSpiPassed img => Sys2Proof.Machine.execImageOverSpiPassed img s
  | .firmwareReady => Sys2Proof.Machine.execFirmwareReady s
  | .phrefLevelChange level => Sys2Proof.Machine.execPhrefLevelChange level s
  | .phrefEdgeQualified => Sys2Proof.Machine.execPhrefEdgeQualified s
  | .plausibilityWindowEnd => Sys2Proof.Machine.execPlausibilityWindowEnd s
  | .coastLimit => Sys2Proof.Machine.execCoastLimit s
  | .phaseSourceWrite value => Sys2Proof.Machine.execPhaseSourceWrite value s
  | .phaseOffsetWrite value => Sys2Proof.Machine.execPhaseOffsetWrite value s
  | .nominalPeriodWrite value => Sys2Proof.Machine.execNominalPeriodWrite value s
  | .cycleBoundary => Sys2Proof.Machine.execCycleBoundary s
  | .encoderTransition a b => Sys2Proof.Machine.execEncoderTransition a b s
  | .encoderIndex => Sys2Proof.Machine.execEncoderIndex s
  | .encoderStopped => Sys2Proof.Machine.execEncoderStopped s
  | .aoPhaseCounterEdge => Sys2Proof.Machine.execAoPhaseCounterEdge s
  | .windowBoundary win opens => Sys2Proof.Machine.execWindowBoundary win opens s
  | .planSwitchRequest target => Sys2Proof.Machine.execPlanSwitchRequest target s
  | .planSwitchCancel => Sys2Proof.Machine.execPlanSwitchCancel s
  | .planWindowWrite bank win w0 w1 w2 w3 => Sys2Proof.Machine.execPlanWindowWrite bank win w0 w1 w2 w3 s
  | .grantRequest who port => Sys2Proof.Machine.execGrantRequest who port s
  | .governorBinBoundary => Sys2Proof.Machine.execGovernorBinBoundary s
  | .reservation who => Sys2Proof.Machine.execReservation who s
  | .portSwitch core otherOpen => Sys2Proof.Machine.execPortSwitch core otherOpen s
  | .portCheck core zMag zArg => Sys2Proof.Machine.execPortCheck core zMag zArg s
  | .fieldAt95 core level => Sys2Proof.Machine.execFieldAt95 core level s
  | .driverTrip core matrixOpen => Sys2Proof.Machine.execDriverTrip core matrixOpen s
  | .fieldOff core => Sys2Proof.Machine.execFieldOff core s
  | .fieldChange core otherOpen => Sys2Proof.Machine.execFieldChange core otherOpen s
  | .gapHoldExpiry core => Sys2Proof.Machine.execGapHoldExpiry core s
  | .changeWaitExpiry core => Sys2Proof.Machine.execChangeWaitExpiry core s
  | .portRetestTimer port => Sys2Proof.Machine.execPortRetestTimer port s
  | .portEnableWrite port value => Sys2Proof.Machine.execPortEnableWrite port value s
  | .coreFault core cause => Sys2Proof.Machine.execCoreFault core cause s
  | .coreSelftestStart core => Sys2Proof.Machine.execCoreSelftestStart core s
  | .coreSelftestDone core pass => Sys2Proof.Machine.execCoreSelftestDone core pass s
  | .coreProbationEnd core => Sys2Proof.Machine.execCoreProbationEnd core s
  | .coreRelease core value => Sys2Proof.Machine.execCoreRelease core value s
  | .coreEnableWrite core value => Sys2Proof.Machine.execCoreEnableWrite core value s
  | .listenWindowOpen core dcLevel => Sys2Proof.Machine.execListenWindowOpen core dcLevel s
  | .replyStartDetected core start amp noise => Sys2Proof.Machine.execReplyStartDetected core start amp noise s
  | .adcOverload core time samples raw => Sys2Proof.Machine.execAdcOverload core time samples raw s
  | .listenWindowClose core => Sys2Proof.Machine.execListenWindowClose core s
  | .replyEnd core raw => Sys2Proof.Machine.execReplyEnd core raw s
  | .frameStart core elapsed => Sys2Proof.Machine.execFrameStart core elapsed s
  | .noneWaitExpiry port => Sys2Proof.Machine.execNoneWaitExpiry port s
  | .burnishStepComplete results stepEnds => Sys2Proof.Machine.execBurnishStepComplete results stepEnds s
  | .dcOffsetEstimate core i1 q => Sys2Proof.Machine.execDcOffsetEstimate core i1 q s
  | .dispatch => Sys2Proof.Machine.execDispatch s
  | .contextTake e c => Sys2Proof.Machine.execContextTake e c s
  | .steal e c => Sys2Proof.Machine.execSteal e c s
  | .dequeDeadlineSweep => Sys2Proof.Machine.execDequeDeadlineSweep s
  | .handleLostReacquire e c => Sys2Proof.Machine.execHandleLostReacquire e c s
  | .runLimitExpiry e c => Sys2Proof.Machine.execRunLimitExpiry e c s
  | .resultStallResume e c => Sys2Proof.Machine.execResultStallResume e c s
  | .stitchSeek e c parityBad => Sys2Proof.Machine.execStitchSeek e c parityBad s
  | .stitchSingleRead e c parityBad => Sys2Proof.Machine.execStitchSingleRead e c parityBad s
  | .stitchRead e c parityBad => Sys2Proof.Machine.execStitchRead e c parityBad s
  | .stitchWrite e c parityBad => Sys2Proof.Machine.execStitchWrite e c parityBad s
  | .stitchQuiet e c parityBad => Sys2Proof.Machine.execStitchQuiet e c parityBad s
  | .stitchRelease e c parityBad => Sys2Proof.Machine.execStitchRelease e c parityBad s
  | .stitchAuth e c parityBad => Sys2Proof.Machine.execStitchAuth e c parityBad s
  | .stitchIsoActivate e c parityBad => Sys2Proof.Machine.execStitchIsoActivate e c parityBad s
  | .stitchIsoApdu e c parityBad => Sys2Proof.Machine.execStitchIsoApdu e c parityBad s
  | .stitchVInventory e c parityBad => Sys2Proof.Machine.execStitchVInventory e c parityBad s
  | .stitchVRead e c parityBad => Sys2Proof.Machine.execStitchVRead e c parityBad s
  | .stitchVWrite e c parityBad => Sys2Proof.Machine.execStitchVWrite e c parityBad s
  | .stitchProbe e c zMag zArg level noise => Sys2Proof.Machine.execStitchProbe e c zMag zArg level noise s
  | .stitchRaw e c parityBad => Sys2Proof.Machine.execStitchRaw e c parityBad s
  | .isoIdleExpiry port => Sys2Proof.Machine.execIsoIdleExpiry port s
  | .apduLimitExpiry e c => Sys2Proof.Machine.execApduLimitExpiry e c s
  | .engineFault e cause => Sys2Proof.Machine.execEngineFault e cause s
  | .dequeMove e => Sys2Proof.Machine.execDequeMove e s
  | .engineSelftestStart e => Sys2Proof.Machine.execEngineSelftestStart e s
  | .engineSelftestDone e pass => Sys2Proof.Machine.execEngineSelftestDone e pass s
  | .engineProbationEnd e => Sys2Proof.Machine.execEngineProbationEnd e s
  | .engineRelease e value => Sys2Proof.Machine.execEngineRelease e value s
  | .engineEnableWrite e value => Sys2Proof.Machine.execEngineEnableWrite e value s
  | .surveyPassStart => Sys2Proof.Machine.execSurveyPassStart s
  | .laneVisit lane parityBad => Sys2Proof.Machine.execLaneVisit lane parityBad s
  | .laneStallResume lane => Sys2Proof.Machine.execLaneStallResume lane s
  | .passEnd => Sys2Proof.Machine.execPassEnd s
  | .watchSweepStart => Sys2Proof.Machine.execWatchSweepStart s
  | .watchProbeStep pos probes => Sys2Proof.Machine.execWatchProbeStep pos probes s
  | .watchSweepEnd => Sys2Proof.Machine.execWatchSweepEnd s
  | .queueFlush q value => Sys2Proof.Machine.execQueueFlush q value s
  | .quotaWrite q isMax value => Sys2Proof.Machine.execQuotaWrite q isMax value s
  | .consumerWrite q value => Sys2Proof.Machine.execConsumerWrite q value s
  | .producerStallResume q => Sys2Proof.Machine.execProducerStallResume q s
  | .scrubPass report => Sys2Proof.Machine.execScrubPass report s
  | .ownerSweepDone => Sys2Proof.Machine.execOwnerSweepDone s
  | .targetFieldLost capAsDeclared => Sys2Proof.Machine.execTargetFieldLost capAsDeclared s
  | .tgtIsoReqa => Sys2Proof.Machine.execTgtIsoReqa s
  | .tgtIsoWupa => Sys2Proof.Machine.execTgtIsoWupa s
  | .tgtIsoAnticollision nvb bits => Sys2Proof.Machine.execTgtIsoAnticollision nvb bits s
  | .tgtIsoSelectL3 uid => Sys2Proof.Machine.execTgtIsoSelectL3 uid s
  | .tgtIsoHlta => Sys2Proof.Machine.execTgtIsoHlta s
  | .tgtIsoRats param => Sys2Proof.Machine.execTgtIsoRats param s
  | .tgtIsoPps pps0 pps1 => Sys2Proof.Machine.execTgtIsoPps pps0 pps1 s
  | .tgtIsoDeselect => Sys2Proof.Machine.execTgtIsoDeselect s
  | .tgtIsoRBlock nak blockNo => Sys2Proof.Machine.execTgtIsoRBlock nak blockNo s
  | .tgtApduSelect p1 p2 aid => Sys2Proof.Machine.execTgtApduSelect p1 p2 aid s
  | .tgtReadBinary p1 p2 le => Sys2Proof.Machine.execTgtReadBinary p1 p2 le s
  | .tgtReadRecord p1 p2 => Sys2Proof.Machine.execTgtReadRecord p1 p2 s
  | .tgtAppendRecord p1 p2 data => Sys2Proof.Machine.execTgtAppendRecord p1 p2 data s
  | .tgtUpdateRecord p1 p2 data => Sys2Proof.Machine.execTgtUpdateRecord p1 p2 data s
  | .tgtInternalAuth p1 p2 ra => Sys2Proof.Machine.execTgtInternalAuth p1 p2 ra s
  | .tgtExternalAuth p1 p2 c2 => Sys2Proof.Machine.execTgtExternalAuth p1 p2 c2 s
  | .tgtRelease p1 p2 => Sys2Proof.Machine.execTgtRelease p1 p2 s
  | .tgtApduUnknown cla ins p1 p2 => Sys2Proof.Machine.execTgtApduUnknown cla ins p1 p2 s
  | .releaseVoltageReached => Sys2Proof.Machine.execReleaseVoltageReached s
  | .releaseWaitTimeout => Sys2Proof.Machine.execReleaseWaitTimeout s
  | .releasePulseEnd => Sys2Proof.Machine.execReleasePulseEnd s
  | .targetAuthLockoutEnd => Sys2Proof.Machine.execTargetAuthLockoutEnd s
  | .tgtStpSeek f => Sys2Proof.Machine.execTgtStpSeek f s
  | .tgtStpSingle f => Sys2Proof.Machine.execTgtStpSingle f s
  | .tgtStpSelect f => Sys2Proof.Machine.execTgtStpSelect f s
  | .tgtStpSetLink f => Sys2Proof.Machine.execTgtStpSetLink f s
  | .tgtStpRead f => Sys2Proof.Machine.execTgtStpRead f s
  | .tgtStpArm f => Sys2Proof.Machine.execTgtStpArm f s
  | .tgtStpCommit f => Sys2Proof.Machine.execTgtStpCommit f s
  | .tgtStpQuiet f => Sys2Proof.Machine.execTgtStpQuiet f s
  | .tgtStpRelease f => Sys2Proof.Machine.execTgtStpRelease f s
  | .tgtStpAuth1 f => Sys2Proof.Machine.execTgtStpAuth1 f s
  | .tgtStpAuth2 f => Sys2Proof.Machine.execTgtStpAuth2 f s
  | .tgtStpUnknownFrame f => Sys2Proof.Machine.execTgtStpUnknownFrame f s
  | .tgtStpHandleDrop => Sys2Proof.Machine.execTgtStpHandleDrop s
  | .ledgerReadAudit w slot check => Sys2Proof.Machine.execLedgerReadAudit w slot check s
  | .ledgerReadSetting w record check => Sys2Proof.Machine.execLedgerReadSetting w record check s
  | .ledgerAppendAudit w stampLo data check => Sys2Proof.Machine.execLedgerAppendAudit w stampLo data check s
  | .ledgerWriteSetting w record data check => Sys2Proof.Machine.execLedgerWriteSetting w record data check s
  | .ledgerStatus w check => Sys2Proof.Machine.execLedgerStatus w check s
  | .ledgerLease w seconds check => Sys2Proof.Machine.execLedgerLease w seconds check s
  | .leaseExpiry => Sys2Proof.Machine.execLeaseExpiry s
  | .ledgerAccessStart => Sys2Proof.Machine.execLedgerAccessStart s
  | .ledgerWriteComplete => Sys2Proof.Machine.execLedgerWriteComplete s
  | .wiredAccessTimeout w => Sys2Proof.Machine.execWiredAccessTimeout w s
  | .rssiGateUpdate ch power => Sys2Proof.Machine.execRssiGateUpdate ch power s
  | .detectorWindow ch order peak => Sys2Proof.Machine.execDetectorWindow ch order peak s
  | .demodPreambleLost d badSync => Sys2Proof.Machine.execDemodPreambleLost d badSync s
  | .demodSync d m => Sys2Proof.Machine.execDemodSync d m s
  | .demodHeader d symbols => Sys2Proof.Machine.execDemodHeader d symbols s
  | .demodPayloadEnd d symbols info => Sys2Proof.Machine.execDemodPayloadEnd d symbols info s
  | .feGainStep branchB peak clipped => Sys2Proof.Machine.execFeGainStep branchB peak clipped s
  | .radioRetune hz => Sys2Proof.Machine.execRadioRetune hz s
  | .radioTxStart kind => Sys2Proof.Machine.execRadioTxStart kind s
  | .radioTxEnd => Sys2Proof.Machine.execRadioTxEnd s
  | .radioProfileWrite value => Sys2Proof.Machine.execRadioProfileWrite value s
  | .channelTableWrite ch w0 w1 => Sys2Proof.Machine.execChannelTableWrite ch w0 w1 s
  | .lbtMeasureEnd powers => Sys2Proof.Machine.execLbtMeasureEnd powers s
  | .backoffExpiry => Sys2Proof.Machine.execBackoffExpiry s
  | .txHoldRelease => Sys2Proof.Machine.execTxHoldRelease s
  | .ackSend => Sys2Proof.Machine.execAckSend s
  | .ackWaitExpiry => Sys2Proof.Machine.execAckWaitExpiry s
  | .satCheckinDue => Sys2Proof.Machine.execSatCheckinDue s
  | .guardWindowOpen n => Sys2Proof.Machine.execGuardWindowOpen n s
  | .guardWindowClose n => Sys2Proof.Machine.execGuardWindowClose n s
  | .callStart n => Sys2Proof.Machine.execCallStart n s
  | .callRetryTimer n => Sys2Proof.Machine.execCallRetryTimer n s
  | .satLostListen => Sys2Proof.Machine.execSatLostListen s
  | .awakeWindowExpiry => Sys2Proof.Machine.execAwakeWindowExpiry s
  | .txRequest second => Sys2Proof.Machine.execTxRequest second s
  | .txFrameExpiry i1 => Sys2Proof.Machine.execTxFrameExpiry i1 s
  | .partnerKeyWrite n key => Sys2Proof.Machine.execPartnerKeyWrite n key s
  | .keyErase value => Sys2Proof.Machine.execKeyErase value s
  | .partnerStateWrite n value => Sys2Proof.Machine.execPartnerStateWrite n value s
  | .watchListenWindow => Sys2Proof.Machine.execWatchListenWindow s
  | .dictRead src => Sys2Proof.Machine.execDictRead src s
  | .dictWrite src => Sys2Proof.Machine.execDictWrite src s
  | .dictSegRead src => Sys2Proof.Machine.execDictSegRead src s
  | .dictSegWrite src => Sys2Proof.Machine.execDictSegWrite src s
  | .dictSegment src => Sys2Proof.Machine.execDictSegment src s
  | .dictAbort src => Sys2Proof.Machine.execDictAbort src s
  | .dictRoutedResponse viaRadio bytes => Sys2Proof.Machine.execDictRoutedResponse viaRadio bytes s
  | .routeTimeout i1 => Sys2Proof.Machine.execRouteTimeout i1 s
  | .transferIdleExpiry i1 => Sys2Proof.Machine.execTransferIdleExpiry i1 s
  | .trackExpiry i1 => Sys2Proof.Machine.execTrackExpiry i1 s
  | .dx4032Read => Sys2Proof.Machine.execDx4032Read s
  | .dx4032Write => Sys2Proof.Machine.execDx4032Write s
  | .spiNop h => Sys2Proof.Machine.execSpiNop h s
  | .spiReadWin h => Sys2Proof.Machine.execSpiReadWin h s
  | .spiReadQ h shifted => Sys2Proof.Machine.execSpiReadQ h shifted s
  | .spiWriteQ h words dchk => Sys2Proof.Machine.execSpiWriteQ h words dchk s
  | .spiConsume h => Sys2Proof.Machine.execSpiConsume h s
  | .spiDictDefer bytes => Sys2Proof.Machine.execSpiDictDefer bytes s
  | .spiAbandon => Sys2Proof.Machine.execSpiAbandon s
  | .spiWriteStallRelease => Sys2Proof.Machine.execSpiWriteStallRelease s
  | .spiIdleReset => Sys2Proof.Machine.execSpiIdleReset s
  | .spiWidthWrite value => Sys2Proof.Machine.execSpiWidthWrite value s
  | .canFrameRx f => Sys2Proof.Machine.execCanFrameRx f s
  | .canFrameTx => Sys2Proof.Machine.execCanFrameTx s
  | .heartbeat => Sys2Proof.Machine.execHeartbeat s
  | .timeMarkRx node time => Sys2Proof.Machine.execTimeMarkRx node time s
  | .canBusOff => Sys2Proof.Machine.execCanBusOff s
  | .canRecoveryStart value => Sys2Proof.Machine.execCanRecoveryStart value s
  | .canBusoffRecovered => Sys2Proof.Machine.execCanBusoffRecovered s
  | .canStuckDominant => Sys2Proof.Machine.execCanStuckDominant s
  | .canStuckRecovery => Sys2Proof.Machine.execCanStuckRecovery s
  | .canNodeWrite value => Sys2Proof.Machine.execCanNodeWrite value s
  | .gpioEdge pin falling => Sys2Proof.Machine.execGpioEdge pin falling s
  | .cuConfigWrite c sub value => Sys2Proof.Machine.execCuConfigWrite c sub value s
  | .cuValueWrite c value => Sys2Proof.Machine.execCuValueWrite c value s
  | .e2eUnitChange generate unit => Sys2Proof.Machine.execE2eUnitChange generate unit s
  | .laceLinkTrained link clean latency => Sys2Proof.Machine.execLaceLinkTrained link clean latency s
  | .laceLinkDown link => Sys2Proof.Machine.execLaceLinkDown link s
  | .laceRetransmitTimeout link => Sys2Proof.Machine.execLaceRetransmitTimeout link s
  | .laceLinkAck link lseq => Sys2Proof.Machine.execLaceLinkAck link lseq s
  | .laceRetrainTimer link => Sys2Proof.Machine.execLaceRetrainTimer link s
  | .laceFormingTimeout => Sys2Proof.Machine.execLaceFormingTimeout s
  | .laceChainTimeout => Sys2Proof.Machine.execLaceChainTimeout s
  | .laceFrameForward link words => Sys2Proof.Machine.execLaceFrameForward link words s
  | .laceDiscover link words latency => Sys2Proof.Machine.execLaceDiscover link words latency s
  | .laceTick link words => Sys2Proof.Machine.execLaceTick link words s
  | .laceTickTimer => Sys2Proof.Machine.execLaceTickTimer s
  | .lacePhase link words => Sys2Proof.Machine.execLacePhase link words s
  | .lacePhaseTimer => Sys2Proof.Machine.execLacePhaseTimer s
  | .lacePhaseMissing => Sys2Proof.Machine.execLacePhaseMissing s
  | .laceAlign link words => Sys2Proof.Machine.execLaceAlign link words s
  | .laceAlignBoundary => Sys2Proof.Machine.execLaceAlignBoundary s
  | .laceField link words => Sys2Proof.Machine.execLaceField link words s
  | .laceClaim link words => Sys2Proof.Machine.execLaceClaim link words s
  | .laceClaimAccept dev => Sys2Proof.Machine.execLaceClaimAccept dev s
  | .laceAccept link words => Sys2Proof.Machine.execLaceAccept link words s
  | .laceDict link words => Sys2Proof.Machine.execLaceDict link words s
  | .laceStitch link words => Sys2Proof.Machine.execLaceStitch link words s
  | .laceStitchRetry => Sys2Proof.Machine.execLaceStitchRetry s
  | .laceResult link words => Sys2Proof.Machine.execLaceResult link words s
  | .laceJournal link words => Sys2Proof.Machine.execLaceJournal link words s
  | .laceDeparture dev => Sys2Proof.Machine.execLaceDeparture dev s
  | .counterClear value => Sys2Proof.Machine.execCounterClear value s
  | .journalRatePeriod => Sys2Proof.Machine.execJournalRatePeriod s
  | .schedulerFault cause => Sys2Proof.Machine.execSchedulerFault cause s
  | .schedulerRebuildDone => Sys2Proof.Machine.execSchedulerRebuildDone s
  | .radioFault cause => Sys2Proof.Machine.execRadioFault cause s
  | .radioRecovered => Sys2Proof.Machine.execRadioRecovered s
  | .radioRelease value => Sys2Proof.Machine.execRadioRelease value s
  | .unitProbationEnd unit => Sys2Proof.Machine.execUnitProbationEnd unit s
  | .laceStitchRefusal link words => Sys2Proof.Machine.execLaceStitchRefusal link words s
  | .laceFrameTx => Sys2Proof.Machine.execLaceFrameTx s
  | .carrierVcoRelock => Sys2Proof.Machine.execCarrierVcoRelock s

end Sys2Proof.Machine
end

