-- ==== Sys2Proof/Safety.lean ====
section
/-!
DEFINITION. Safety.lean: what counts as a safe outcome and what a command leaves alone, in the terms that the statements use.
-/

namespace Sys2Proof.Machine

/-- The outcome is a next state. -/
def completes (o : Out) : Prop := ∃ t, o = .next t

/-- The command answers a next state, of which `P` holds. -/
def answers (c : Instr) (s : State) (P : State → Prop) : Prop := ∃ t, exec c s = .next t ∧ P t

/-- Nothing but the pool, the check units that follow its writes, and the counters and journal arbiter has changed. -/
def poolOnly (a b : Main) : Prop := b = { a with pool := b.pool, cus := b.cus, flt := b.flt }

/-- Nothing but the reader has changed: cores, ports, scheduler, engines, dispatcher, survey, with the pool, the check units and counters that
their records reach, the lace frames they send, and the governor's own two entries. -/
def readerOnly (a b : Main) : Prop :=
  b = { a with cores := b.cores, ports := b.ports, sch := b.sch, engs := b.engs, disp := b.disp, sv := b.sv, pool := b.pool,
               cus := b.cus, flt := b.flt, lace := b.lace,
               pw := { a.pw with governorHolds := b.pw.governorHolds, thermalAt := b.pw.thermalAt } }

/-- Nothing but the reader and what an entry to HOLD reaches has changed: burnish, the radio, the mode and its count. -/
def holdOnly (a b : Main) : Prop :=
  b = { a with cores := b.cores, ports := b.ports, sch := b.sch, engs := b.engs, disp := b.disp, sv := b.sv, pool := b.pool,
               cus := b.cus, flt := b.flt, lace := b.lace, brn := b.brn, rad := b.rad,
               pw := { a.pw with governorHolds := b.pw.governorHolds, thermalAt := b.pw.thermalAt, mode := b.pw.mode,
                                 pendMode := b.pw.pendMode, transitions := b.pw.transitions, holdCause := b.pw.holdCause } }

/-- Nothing but the target front end and its surroundings has changed: the target, the SPI port's answer, the pool with what follows its
writes, and the count of free values drawn. -/
def ledgerMain (a b : Main) : Prop :=
  b = { a with tgt := b.tgt, spi := b.spi, pool := b.pool, cus := b.cus, flt := b.flt, freeCtr := b.freeCtr }

/-- Nothing but the target front end and the ledger has changed. -/
structure ledgerOnly (s t : State) : Prop where
  keys  : t.keys = s.keys
  queue : t.pending = s.pending
  main  : ledgerMain s.m t.m

/-- No core carries a field or a grant. -/
def noFields (m : Main) : Prop := ∀ k : Fin 16, (m.cores[k]).fld = none

/-- Nothing outside `Main` has changed: the ledger, the key store and the queue of commands. -/
def mainOnly (s t : State) : Prop := t.lgr = s.lgr ∧ t.keys = s.keys ∧ t.pending = s.pending

/-- A stitch runs and has done nothing yet: its context is in RUN on core `k`, whose field is its own, closed and at 95 % of its level. -/
structure stitchRuns (m : Main) (e : Fin 24) (c : Fin 2) (j : Job) (k : Fin 16) (f : FieldRec) : Prop where
  st      : (ctxOf m e c).st = .run
  job     : (ctxOf m e c).job = some j
  core    : (ctxOf m e c).core = some k
  started : (ctxOf m e c).started = true
  lost    : (ctxOf m e c).lost = false
  limit   : (ctxOf m e c).limit = false
  prog    : (ctxOf m e c).sc = { cfg := (ctxOf m e c).sc.cfg }
  fld     : (m.cores[k]).fld = some f
  owner   : f.owner = .ctx e c
  level   : f.at95 = true
  gap     : (m.cores[k]).exch = .gap
  chain   : (m.cores[k]).chain = false

/-- A stitch of core `k` has the end of its last exchange to read (R157, R167); since it began on the field, and with nothing completed
before, it has met the events `log`. -/
structure stitchReads (m : Main) (e : Fin 24) (c : Fin 2) (j : Job) (k : Fin 16) (log : List AirEv) (r : Reply) : Prop where
  st      : (ctxOf m e c).st = .run
  job     : (ctxOf m e c).job = some j
  core    : (ctxOf m e c).core = some k
  started : (ctxOf m e c).started = true
  lost    : (ctxOf m e c).lost = false
  base    : (ctxOf m e c).sc.base = {}
  live    : (ctxOf m e c).sc.live = true
  met     : (ctxOf m e c).sc.log = log
  inbox   : (ctxOf m e c).sc.inbox = some r

/-- A field is the stitch's own, in its window and not ordered off, and no limit has passed: its next frame can go out (R85, R267). -/
structure mayGoOn (m : Main) (e : Fin 24) (c : Fin 2) (k : Fin 16) (f : FieldRec) : Prop where
  fld    : (m.cores[k]).fld = some f
  owner  : f.owner = .ctx e c
  stays  : (m.cores[k]).pendOff = false
  window : planAllows m k f.port f.cls = true
  limit  : (ctxOf m e c).limit = false

/-- A setting of a stitch, as it stood at its start (R249, R264). -/
def atStart (m : Main) (e : Fin 24) (c : Fin 2) (idx sub : Nat) : Nat :=
  (mapGet (ekey idx sub) ((ctxOf m e c).sc.cfg.getD [])).getD (entryDefault idx sub)

/-- What an STP run meets first: whether acquiring frames go fast, and, on a subcarrier other than the port's default, the end of the
broadcast SET_LINK (R217). -/
def begun (sc : Script) (p : Fin 128) (a : Nat) (r : Reply) : List AirEv := .num a :: if sc.sub8 = bitAt p.val 3 then [] else [.reply r]

/-- A lane in a visit of port `p` has the end of its last exchange to read (R157, R301); it has met `log` since it began. -/
structure laneReads (m : Main) (k : Fin 16) (p : Fin 128) (log : List AirEv) (r : Reply) : Prop where
  next    : (m.sv.lanes[k]).todo.head? = some p
  ended   : (m.sv.lanes[k]).ended = none
  base    : (m.sv.lanes[k]).sc.base = {}
  live    : (m.sv.lanes[k]).sc.live = true
  met     : (m.sv.lanes[k]).sc.log = log
  inbox   : (m.sv.lanes[k]).sc.inbox = some r
  carries : carries m k (.lane k) = true

/-- A survey setting of a visit, as it stood at its start (R322). -/
def visitCfg (m : Main) (k : Fin 16) (sub : Nat) : Nat :=
  (mapGet (ekey 0x3200 sub) ((m.sv.lanes[k]).sc.cfg.getD [])).getD (entryDefault 0x3200 sub)

/-- Nothing that a stitch may add to its operation is asked for (R270). -/
structure plainJob (m : Main) (j : Job) : Prop where
  origin  : j.origin.val = laceDev m
  noNeg   : j.noNegotiate = true
  noAuth  : j.authFirst = false
  noQuiet : j.quietAfter = false

/-- No core, and not this port, waits for the end of a stitch to be disabled (R112, R116). -/
def noDisable (m : Main) (p : Fin 128) : Prop := (∀ k : Fin 16, (m.cores[k]).disablePend = false) ∧ (m.ports[p]).disablePend = false

/-- The command that takes the turn of a stitch of an opcode. -/
def stitchCommand (op : Nat) (e : Fin 24) (c : Fin 2) (parityBad : Bool) : Instr :=
  match op with
  | 0 => .stitchSeek e c parityBad
  | 1 => .stitchSingleRead e c parityBad
  | 2 => .stitchRead e c parityBad
  | 3 => .stitchWrite e c parityBad
  | 4 => .stitchQuiet e c parityBad
  | 5 => .stitchRelease e c parityBad
  | 6 => .stitchAuth e c parityBad
  | 7 => .stitchIsoActivate e c parityBad
  | 8 => .stitchIsoApdu e c parityBad
  | 9 => .stitchVInventory e c parityBad
  | 10 => .stitchVRead e c parityBad
  | 11 => .stitchVWrite e c parityBad
  | _ => .stitchRaw e c parityBad

/-- A core has been handed a frame with these bytes. -/
def handed (t : Main) (k : Fin 16) (bytes : List Byte) : Prop := (t.cores[k]).next.map (·.bytes) = some bytes

/-- A queue has room for a packet of `n` words, and packet names are fresh: what a producer needs that is not to stall (R341). -/
structure roomFor (m : Main) (q : Fin 32) (n : Nat) : Prop where
  space : spaceTest m q n = true
  quota : n < 8 * (m.pool.qs[q]).cmax
  size  : n ≤ 65535
  names : ∀ r : Fin 32, ∀ p ∈ (m.pool.qs[r]).pkts ++ (m.pool.qs[r]).sinks, p.id < m.pool.nextId

/-- A closed packet of a type, source and body stands in a queue. -/
def delivered (m : Main) (q : Fin 32) (type source : Nat) (ws : List Word) : Prop :=
  ∃ p ∈ (m.pool.qs[q]).pkts, p.opened = false ∧ p.type = type ∧ p.source = source ∧ p.words = ws

/-- The result of a started stitch that ends now (R274). -/
def stitchResult (m : Main) (e : Fin 24) (c : Fin 2) (j : Job) (k : Fin 16) (status detail : Nat) (part : Bool) (body : List Word) : List Word :=
  resultWords m j e.val c.val (some k) status detail (((ctxOf m e c).lastAt - (ctxOf m e c).startAt) / tickUs) part body

/-- The words of a result stand in the result queue, and the context is idle. -/
def resultOf (s t : State) (e : Fin 24) (c : Fin 2) (j : Job) (k : Fin 16) (status detail : Nat) (part : Bool) (body : List Word) : Prop :=
  delivered t.m j.rqueue 0x21 (0x40 + e.val) (stitchResult s.m e c j k status detail part body) ∧ ctxOf t.m e c = {} ∧ mainOnly s t

/-- A good STP reply of at least `n` bytes, its `RCODE` 0 (R206, R228). -/
def goodReply (r : Reply) (n : Nat) : Prop := r.outcome = .ok ∧ r.rcode = 0 ∧ n ≤ r.data.length

/-- The UID of a SINGLE or SELECT reply. -/
def replyUid (r : Reply) : Nat := leNat ((r.data.drop 1).take 8)

/-- Nothing but the reader and the count of free values drawn has changed. -/
def airOnly (a b : Main) : Prop := readerOnly { a with freeCtr := b.freeCtr } b

/-- The card answers an APDU with data and a status word (R378): its block number toggles, and an answer that fits the reader's frame is one block. -/
def apduAnswered (s t : State) (data : List Byte) (sw : Nat) : Prop :=
  t.m.tgt.iso.blockNo = !s.m.tgt.iso.blockNo ∧
  (data.length + 5 ≤ s.m.tgt.iso.fsd →
    t.m.tgt.resp = withCrcA (byte (if s.m.tgt.iso.blockNo then 2 else 3) :: (data ++ [byte (sw / 256), byte sw])))

/-- No audit append of a wired port runs, which an access of the field would wait for (R367). -/
def noAppendRuns (l : Ledger) : Prop := ∀ a, l.running = some a → a.port = .field ∨ a.isSetting = true

/-- An APDU reaches the selected ledger application. -/
def applicationHears (s : State) : Prop := apduHears s = true ∧ s.m.tgt.iso.selected = true ∧ noAppendRuns s.lgr

/-- A frame as a reader modulates it (R200–R202, R220): whole, at a depth that every fob hears, with its port tag, its code, its `PARAMS` and a
good check. -/
def spoken (f : StpRx) (tag : BitVec 7) (claim : Bool) (code : Nat) (params : List Byte) : Prop :=
  f.rest = 0 ∧ 120 ≤ f.depth ∧ params.length ≤ 36 ∧ f.bytes = stpBytes tag.toNat claim code params

/-- When a frame that ends now has started (R198). -/
def frameFrom (s : State) (f : StpRx) (rate : Nat) : Nat := s.m.now - fcTicks (f.span rate)

/-- STP frames reach the target (R354, R355), and nothing in the ledger makes it wait. -/
structure fobOpen (s : State) : Prop where
  carries : tgtCarries s.m = true
  enabled : tgtEnabled s.m 1 = true
  session : s.m.tgt.session = .stp
  free    : s.m.tgt.releaseWait = false
  ledger  : noAppendRuns s.lgr

/-- The target decodes a frame: its rate is one of the two, and it starts at least 256/fc after the last reply (R198, R207). -/
def fobDecodes (s : State) (f : StpRx) : Prop :=
  fobOpen s ∧ ∃ rate, rxRate f.first = some rate ∧
    ∀ a b, s.m.tgt.stp.reply = some (a, b) → a ≤ frameFrom s f rate ∧ b + fcTicks 256 ≤ frameFrom s f rate

/-- A frame of the port tag that the target is bound to reaches it (R211). -/
def fobHears (s : State) (f : StpRx) (code : Nat) (params : List Byte) : Prop :=
  fobDecodes s f ∧ ∃ tag claim l, s.m.tgt.stp.bound = some (tag.toNat, l) ∧ spoken f tag claim code params

/-- The target replies with `RCODE`, `BIND` 0 and a body, and the check over them (R206). -/
def fobReplied (t : State) (rcode : Nat) (body : List Byte) : Prop :=
  t.m.tgt.resp = (byte rcode :: body) ++ leBytes 2 (CrcKind.ccitt.of (byte rcode :: body))

/-- Nothing but the target and what it reaches has changed; the ledger is as it was. -/
def targetOnly (s t : State) : Prop := t.lgr = s.lgr ∧ ledgerOnly s t

/-- A wired ledger port takes commands (R383, R488). -/
def wiredReady (s : State) (w : Wired) : Prop :=
  match w with
  | .i2c => s.m.pw.aoUp = true
  | .spi => spiUp s.m = true ∧ loaderWaits s.m = false

/-- A wired ledger port answers with a status, data and its check (R383, R492). -/
def wiredAnswered (t : State) (w : Wired) (status : Nat) (data : List Byte) : Prop :=
  match w with
  | .i2c => t.m.tgt.i2cOut = (byte status :: data) ++ leBytes 2 (CrcKind.ccitt.of (byte status :: data))
  | .spi => t.m.spi.out = (byte status :: data) ++ [spiCheck (byte status :: data)]

/-- The audit ring is well kept: a valid record stands in the slot of its sequence number, which is from 1 to the newest one. -/
def ringKept (l : Ledger) : Prop :=
  ∀ i : Fin 240, ∀ (q : Nat) (b : List Byte), l.ring[i] = .record q b → slotOf q = i ∧ 1 ≤ q ∧ q ≤ l.head

/-- Nothing but the chirp radio has changed: its PHY and access, its partners, and the pool, the check units, the counters, the routing records
of the dictionary and the free values that it reaches. -/
def chirpOnly (a b : Main) : Prop :=
  b = { a with rad := b.rad, pts := b.pts, pool := b.pool, cus := b.cus, flt := b.flt, dict := b.dict, freeCtr := b.freeCtr }

/-- Nothing but the chirp radio has changed, and burnish where the frame was the last that its estimate of the crystal needs (R175). -/
def frameOnly (a b : Main) : Prop := chirpOnly { a with brn := b.brn } b ∧ (a.rad.offsets.length < 31 → b.brn = a.brn)

/-- The qualifier of a channel and order (R399); none in HUNT and CLOSED. -/
def qualOf (m : Main) (ch n : Nat) : Option Qualifier := m.rad.quals.find? fun q => q.ch == ch && q.order == n

/-- The detector looks at an order of a channel (R397, R399). -/
structure detects (m : Main) (ch : Fin 64) (order : Fin 7) : Prop where
  hunted : hunted m ch.val = true
  gate   : ch.val ∈ m.rad.gates
  order  : bitAt (chanOf m ch.val).orders order.val = true

/-- No demodulator is on an order of a channel. -/
def noDemodOn (m : Main) (ch n : Nat) : Prop := ∀ i : Fin 8, (m.rad.demods[i]).st = 0 ∨ (m.rad.demods[i]).channel ≠ ch ∨ (m.rad.demods[i]).order ≠ n

/-- A transmission consists of `p`, its channel is won, nothing holds it, its partner is not EMPTY and has a key and a counter left, and its time on
air fits the share of its sub-band; no dwell limit applies (R411, R419, R422–R424). -/
structure txGoes (s : State) (k : TxKind) (p : TxPlan) (key : BitVec 128) : Prop where
  on      : radioOn s.m = true
  supply  : s.m.pw.vrfLow = false
  idle    : s.m.rad.tx.active = false
  plan    : txPlan s.m k = some p
  access  : k = .ack ∨ (s.m.rad.tx.access = some k ∧ s.m.rad.ackWait = none ∧ txBlocked s.m p.ch = false)
  key     : s.keys.partner[p.slot] = some key
  partner : (s.m.pts[p.slot]).state ≠ 0
  counter : (s.m.pts[p.slot]).txCtr < 0xFFFFFFFF
  dwell   : s.m.rad.dwell = 0
  duty    : dutyOk s.m (chanOf s.m p.ch).freq (airUs (chanOf s.m p.ch).wide p.order p.pre (18 + p.body.length)) = true

/-- The transmission is on the air (R391–R396, R411, R415, R417, R419): its frame under the partner's key and counter, which rises, at its frequency and
power, as symbols; nothing is received. -/
def txOnAir (s t : State) (k : TxKind) (p : TxPlan) (key : BitVec 128) : Prop :=
  t.m.rad.tx.active = true ∧ t.m.rad.tx.kind = k ∧ t.m.rad.tx.txen = true ∧ t.m.rad.tx.ctr = (s.m.pts[p.slot]).txCtr ∧
  t.m.rad.tx.power = max (-10) (min (s.m.pts[p.slot]).txPower (powerLimit s.m)) ∧ t.m.rad.tx.precomp = (s.m.pts[p.slot]).cfo.isSome ∧
  t.m.rad.tx.hz = (chanOf s.m p.ch).freq + roundDiv ((chanOf s.m p.ch).freq * (s.m.pts[p.slot]).cfo.getD 0) 100000000 ∧
  t.m.rad.tx.symbols = radioSymbols p.order (cfgN s.m 0x4000 0x03) t.m.rad.tx.power t.m.rad.tx.precomp t.m.rad.tx.frame ∧
  (∃ fc : Nat, fc % 8 = p.type % 8 ∧ bitAt fc 3 = p.ackReq ∧
    t.m.rad.tx.frame = macFrame key (byte fc :: leBytes 4 (ownAddress s.m) ++ [byte (macSlot s.m p.slot)] ++ leBytes 4 (s.m.pts[p.slot]).txCtr)
      p.body (isSat s.m)) ∧
  (t.m.pts[p.slot]).txCtr = (s.m.pts[p.slot]).txCtr + 1 ∧ (s.m.pts[p.slot]).txCtr < t.keys.reserved[p.slot] ∧
  (∀ d : Fin 8, (t.m.rad.demods[d]).st = 0) ∧ t.keys.partner = s.keys.partner ∧ t.lgr = s.lgr ∧ t.pending = s.pending ∧ chirpOnly s.m t.m

/-- The plaintext of a received frame (R417). -/
def macText (key : BitVec 128) (up : Bool) (payload : List Byte) : List Byte :=
  ccmCrypt key (macNonce (payload.take 10) up) ((payload.drop 10).take (payload.length - 18))

/-- The frame counter of a received frame (R415). -/
def macCtr (payload : List Byte) : Nat := leNat ((payload.take 10).drop 6)

/-- The data bits of the block that a demodulator hears first, without whitening (R393, R396). -/
def firstBits (m : Main) (d : Fin 8) (symbols : List Nat) : List Bool := whiten (heardBits (heardWords (m.rad.demods[d]).order symbols))

/-- The header in that block (R394). -/
def headerOf (m : Main) (d : Fin 8) (symbols : List Nat) : Nat := bitsNat ((firstBits m d symbols).take 24)

/-- The header is taken: its two codewords are within correction, its check matches, its length is not 0 (R394, R395, R402). -/
def headerGood (m : Main) (d : Fin 8) (symbols : List Nat) : Prop :=
  (∀ w ∈ (heardWords (m.rad.demods[d]).order symbols).take 2, (golayDecode w).isSome = true) ∧ headerOf m d symbols % 256 ≠ 0 ∧
  CrcKind.crc8.of (leBytes 2 (headerOf m d symbols)) = headerOf m d symbols / 65536

/-- A front-end gain of branch B or A may take a step: none in the last 100 µs (R400). -/
def feRested (m : Main) (at_ : Option Nat) : Prop := ∀ t, at_ = some t → t + 40000 ≤ m.now

/-- Demodulator `d` ends the blocks of a frame: its payload, and whether the CRC-16 matches (R396, R402). -/
structure blocksEnd (m : Main) (d : Fin 8) (symbols : List Nat) (payload : List Byte) (good : Bool) : Prop where
  st     : (m.rad.demods[d]).st = 3
  blocks : symbols.length + 24 = 24 * radioBlocks (m.rad.demods[d]).order (m.rad.demods[d]).length
  heard  : heardPayload m.rad.demods[d] symbols = (payload, good)
  length : payload.length = (m.rad.demods[d]).length

/-- Demodulator `d` ends a frame whose CRC matches and whose partner `n` has this key, not dropped by the space test (R417, R420). -/
structure macHeard (s : State) (d : Fin 8) (symbols : List Nat) (payload : List Byte) (n : Fin 256) (key : BitVec 128) : Prop where
  blocks  : blocksEnd s.m d symbols payload true
  length  : 18 ≤ payload.length
  partner : partnerOf s.m (leNat (((payload.take 10).drop 1).take 4)) (nth (payload.take 10) 5 0).toNat = some n
  space   : (s.m.rad.demods[d]).dropped = false
  key     : s.keys.partner[n] = some key

/-- Its `MIC` matches (R417). -/
def macGood (s : State) (payload : List Byte) (key : BitVec 128) : Prop :=
  payload.drop (payload.length - 8) = ccmMic key (macNonce (payload.take 10) (!isSat s.m)) (payload.take 10) (macText key (!isSat s.m) payload)

/-- The frame that a TX_FRAME request makes (R438). -/
def requested (m : Main) (n : Fin 256) (w0 w1 : Word) (ws : List Word) : Held :=
  { slot := n, ackReq := bitAt w0.toNat 8, now := bitAt w0.toNat 9, htag := field w0.toNat 16 16,
    body := (wordsBytes ws).take (w1.toNat % 256), made := m.now, expiry := field w1.toNat 16 16 }

/-- The host asks over SPI for an operation on this device's own dictionary (R453, R463, R464, R488, R491): a whole message with a good check, from
an originator whose track does not exist yet, while the service runs and no older request waits. -/
structure spiAsks (s : State) (bs : List Byte) (op : Nat) : Prop where
  service : serviceUp s.m = true
  port    : spiUp s.m = true
  free    : s.m.spi.stalled = none
  first   : s.m.dict.deferred = []
  turn    : s.m.dict.backAt = none
  length  : bs.length = 16 + (msgOf bs).len
  short   : (msgOf bs).len ≤ 48
  crc     : msgCrcOk s.m bs = true
  opcode  : (msgOf bs).op = op
  request : (msgOf bs).resp = false
  origin  : (msgOf bs).origin = 0
  dev     : (msgOf bs).dev = laceDev s.m
  wired   : (msgOf bs).radio = false
  peer    : (msgOf bs).peer = 0
  status  : (msgOf bs).status = 0
  offset  : op = 5 ∨ (msgOf bs).offset = 0
  size    : (op = 1 ∨ op = 3 ∨ op = 6 → (msgOf bs).len = 0) ∧ (op = 4 → (msgOf bs).len = 4)
  tracks  : s.m.dict.tracks.length < 64
  fresh   : ∀ t ∈ s.m.dict.tracks, ¬ (t.cls = 0 ∧ t.who = 0 ∧ t.origin = 0)

/-- The host, as the originator of a request (R450). -/
def hostReq : Requester := { cls := 0, who := 0, origin := 0 }

/-- The SPI port answers a request with a response (R453, R463, R491). -/
def dictAnswered (t : State) (bs : List Byte) (status : Nat) (data : List Byte) : Prop :=
  t.m.spi.out = (0x00 :: respond t.m bs status data) ++ [spiCheck (0x00 :: respond t.m bs status data)]

/-- Nothing but the dictionary service, the SPI port, the check units, the pool and the counters has changed. -/
def dictMain (a b : Main) : Prop := b = { a with spi := b.spi, dict := b.dict, pool := b.pool, cus := b.cus, flt := b.flt }

/-- Nothing but those and a setting has changed. -/
def settingMain (a b : Main) : Prop := dictMain { a with cfg := b.cfg } b

/-- A setting takes a value; the others keep theirs. -/
def settingTaken (a b : Main) (idx sub v : Nat) : Prop :=
  cfgN b idx sub = v ∧ ∀ i j : Nat, j < 256 → (i, j) ≠ (idx, sub) → cfgN b i j = cfgN a i j

/-- The transfer that a host request opens (R460, R461). -/
def hostTransfer (s : State) (bs : List Byte) (write : Bool) (total : Nat) (buf : List Byte) : Transfer :=
  { cls := 0, who := 0, origin := 0, tid := (msgOf bs).tid, index := (msgOf bs).index, sub := (msgOf bs).sub, write := write, total := total,
    buf := buf, usedAt := s.m.now }

/-- The transfers that a host request does not name (R462). -/
def otherTransfers (s : State) (bs : List Byte) : List Transfer := s.m.dict.transfers.filter fun t => !t.is hostReq (msgOf bs)

/-- The next CAN FD frame in Q20 is a DX4032 request (R474, R476, R500), and there is room for its response. -/
structure compatAsks (s : State) (p : Packet) (rest : List Packet) (node fn : Nat) (bs : List Byte) (op : Nat) : Prop where
  service : serviceUp s.m = true
  mode    : cfgB s.m 0x5010 0x01 = true
  turn    : s.m.dict.backAt = none
  queue   : (s.m.pool.qs[(20 : Fin 32)]).consumer = 2
  head    : (s.m.pool.qs[(20 : Fin 32)]).pkts = p :: rest
  closed  : p.opened = false
  sound   : p.poison = []
  parts   : canParts p = (node, fn, bs)
  frame   : fn ≠ 6
  length  : bs.length = 12
  crc     : compatCrcOk node bs = true
  opcode  : (compatOf bs).op = op
  status  : (compatOf bs).status = 0
  out     : outRoom s.m 1 = true
  room    : roomFor (dropHead s.m 20) 21 4

/-- The SPI port takes a transaction (R483, R488, R493), and no check unit follows it. -/
structure spiReady (s : State) : Prop where
  port    : spiUp s.m = true
  free    : s.m.spi.stalled = none
  loaded  : loaderWaits s.m = false
  unseen  : ∀ c : Fin 8, (s.m.cus[c]).owned = true ∨ (s.m.cus[c]).source ≠ 2

/-- Nothing but the SPI port, the pool, the check units and the counters has changed. -/
def spiMain (a b : Main) : Prop := b = { a with spi := b.spi, pool := b.pool, cus := b.cus, flt := b.flt }

/-- What the device has sent, with its check (R485). -/
def spiSent (t : State) (bs : List Byte) : Prop := t.m.spi.out = bs ++ [spiCheck bs]

/-- A closed packet of one word, whole and sound, stands at the head of a queue that the host reads (R329, R330). -/
structure headWord (m : Main) (q : Fin 32) (p : Packet) (rest : List Packet) (w : Word) : Prop where
  host   : (m.pool.qs[q]).consumer = 0
  head   : (m.pool.qs[q]).pkts = p :: rest
  closed : p.opened = false
  sound  : p.poison = []
  words  : p.words = [w]
  fresh  : p.rd = 0
  names  : ∀ r ∈ rest, r.id ≠ p.id

/-- The CAN FD controller is on the bus, and no check unit follows it (R499, R505). -/
structure canReady (m : Main) : Prop where
  on     : canOn m = true
  active : m.can.state < 2
  unseen : ∀ c : Fin 8, (m.cus[c]).owned = true ∨ (m.cus[c]).source ≠ 3

/-- Nothing but the CAN FD controller, the pool, the check units and the counters has changed. -/
def canMain (a b : Main) : Prop := b = { a with can := b.can, pool := b.pool, cus := b.cus, flt := b.flt }

/-- The device is in a ring whose link A is up, so that its frames leave there (R531, R533, R534). -/
structure inRing (m : Main) : Prop where
  on    : laceOn m = true
  ring  : m.lace.state = 2
  role  : m.lace.role ≠ 0
  linkA : m.lace.linkA.up = true

/-- A frame of this type, destination and payload has left by link A, with its sequence numbers, and waits for its acknowledgement (R530, R531). -/
def sentByA (a b : Main) (type : Nat) (dst : Option (Fin 4)) (ws : List Word) : Prop :=
  b.lace.linkA.unacked = a.lace.linkA.unacked ++ [{
    lseq := a.lace.linkA.nextSeq, at_ := a.now, words := laceSealed (word (laceHead a type dst ws) ::
      word ((nth a.lace.eseqOut ((dst.map (·.val)).getD 4) 0 + 1) % 65536 + a.lace.linkA.nextSeq * 65536) :: ws) }]

/-- A frame of another device of the lace arrives whole by link `l`, for this device, with the next sequence number (R530–R533). -/
structure laceHears (m : Main) (l : LaceLink) (ws : List Word) (type : Nat) : Prop where
  on     : laceOn m = true
  link   : (linkOf m l).up = true
  formed : 2 ≤ m.lace.state
  whole  : laceWhole ws = true
  kind   : (laceHeadOf ws).type.toNat = type
  other  : (laceHeadOf ws).src ≠ m.lace.device
  forUs  : (laceHeadOf ws).bcast = true ∨ (laceHeadOf ws).dst = m.lace.device
  seqs   : m.lace.eseqIn.length = 8
  seq    : (nth m.lace.eseqIn ((laceHeadOf ws).src.val + 4 * bitN (laceHeadOf ws).bcast) 0 + 1) % 65536 = (laceHeadOf ws).eseq.toNat

/-- Nothing but the lace port, the reader, the dictionary service's inputs and the phase and plan it brings has changed. -/
def laceMain (a b : Main) : Prop := airOnly { a with dict := b.dict, ph := b.ph, plan := b.plan, brn := b.brn } b

end Sys2Proof.Machine
end

