-- ==== Sys2Proof/Certificates/Slice0/Obligations.lean ====
section
/-!
DEFINITION. Certificates/Slice0/Obligations.lean: the statements for the provers. Unless a docstring says otherwise a statement is about every
state, reachable or not. `answers c s P` says that command `c` completes in state `s` with a next state of which `P` holds.
-/

section
open Sys2Proof Sys2Proof.Machine


/-- A step takes the command at the front of the queue and executes it with the rest of the queue waiting. -/
def Obligations.StepRunsTheFrontCommand : Prop :=
  ∀ (c : Instr) (rest : List Instr) (s : State), s.pending = c :: rest → step s = exec c { s with pending := rest }

/-- With an empty queue one SCLK period passes, and one flushed cell returns to the free list; nothing else changes (log 2).
Model choices it rests on: log 2. -/
def Obligations.IdleLetsOnePeriodPass : Prop :=
  ∀ s : State, s.pending = [] →
    step s = .next { s with m := { s.m with now := s.m.now + 1, pool := { s.m.pool with returning := s.m.pool.returning - 1 } } }

/-- Every command completes in every state, and leaves the queue of waiting commands alone.
Model choices it rests on: log 3. -/
def Obligations.EveryCommandCompletes : Prop :=
  ∀ (c : Instr) (s : State), answers c s fun t => t.pending = s.pending

/-- Reset (R53, R591 and log 7): the mode, the supplies, the status registers, the pool, the queues, the fobs' and partners' keys and the
ledger as they stand before a COLD_START begins a boot.
Model choices it rests on: logs 7 and 8. -/
def Obligations.ResetState : Prop :=
  State.reset.m.pw.mode = .dormant ∧ State.reset.m.pw.booting = false ∧ State.reset.m.pw.bootStage = 1 ∧
  State.reset.m.pw.pendMode = none ∧ State.reset.m.pw.fwRunning = false ∧ State.reset.m.cfg = [] ∧ State.reset.m.flt.ctr = [] ∧
  State.reset.m.flt.jseq = 0 ∧ cellsFree State.reset.m = poolCells ∧ noFields State.reset.m ∧ State.reset.lgr.head = 0 ∧
  State.reset.lgr.running = none ∧ State.reset.keys = {} ∧ State.reset.pending = []

/-- `FAULT_N` is low in HOLD and released in every other mode (R32). -/
def Obligations.FaultPin : Prop := ∀ m : Main, faultN m = false ↔ m.pw.mode = .hold

/-- The supplies, `RST_N` and the reset command (R38, R47, R51, R52, R64). COLD_START starts the always-on island, in DORMANT, and the boot that
[1200:01] asks for; RST_N low puts every island into reset; the reset command acts on 0xA5C3 alone; the loss of the main supply switches all
islands but the always-on one off.
Model choices it rests on: logs 3, 7 and 33. -/
def Obligations.StartAndReset : Prop :=
  (∀ (s : State) (refsel v33 : Bool), s.m.pw.vaoOk = true → ¬(s.m.pw.aoUp = true ∧ s.m.pw.mode = .rescue) →
    answers (.coldStart refsel v33) s fun t =>
      t.m.pw.mode = .dormant ∧ t.m.pw.aoUp = true ∧ t.m.pw.mainPresent = true ∧ t.m.pw.rstHeld = false ∧ t.m.pw.ctlOn = false ∧
      t.m.pw.follower = refsel ∧ t.m.pw.vddio33 = v33 ∧ t.m.pw.booting = cfgB t.m 0x1200 0x01 ∧ t.keys = s.keys ∧ t.pending = s.pending) ∧
  (∀ s : State, answers .rstNLow s fun t =>
      t.m.pw.mode = .dormant ∧ t.m.pw.aoUp = false ∧ t.m.pw.rstHeld = true ∧ t.m.pw.ctlOn = false ∧ t.m.pw.booting = false ∧
      noFields t.m ∧ t.keys = s.keys ∧ t.pending = s.pending) ∧
  (∀ (s : State) (v : BitVec 16), v ≠ 0xA5C3#16 → exec (.resetCmd v) s = .next s) ∧
  (∀ s : State, s.m.pw.ctlOn = true → s.m.pw.fwRunning = true → s.m.pw.ctlDown = false → s.m.pw.mode.isMain = true ∨ s.m.pw.mode = .hold →
    answers (.resetCmd 0xA5C3#16) s fun t =>
      t.m.pw.mode = .dormant ∧ t.m.pw.aoUp = true ∧ t.m.pw.ctlOn = false ∧ t.m.pw.fwRunning = false ∧
      t.m.pw.booting = cfgB t.m 0x1200 0x01 ∧ noFields t.m ∧ t.keys = s.keys ∧ t.pending = s.pending) ∧
  (∀ s : State, s.m.pw.aoUp = true → s.m.pw.mode ≠ .rescue → s.m.pw.vaoOk = true → s.m.pw.fieldOn = false →
    answers .mainSupplyLost s fun t =>
      t.m.pw.mode = .dormant ∧ t.m.pw.aoUp = true ∧ t.m.pw.mainPresent = false ∧ t.m.pw.ctlOn = false ∧ t.m.pw.booting = false ∧
      noFields t.m ∧ (∀ a ∈ t.lgr.waiting, a.port ≠ .main) ∧ t.keys = s.keys ∧ t.pending = s.pending)

/-- The supply monitors (R27, R48). VTX low puts every field off at once in a main mode and stops grants; VRF low stops the transmitter; VAO
takes the always-on island with it unless the field at the target port keeps it on the harvest rail.
The clocks and the junction temperature (R25, R26, R62, R63). Two bad windows in succession are a reference fault and lead from a main mode to
HOLD with cause 2; a lost sleep clock leaves the island on its backup until the crystal qualifies; at [1100:25] the device enters HOLD with cause 4.
Model choices it rests on: logs 3 and 40. -/
def Obligations.SuppliesClocksTemperature : Prop :=
  ((∀ s : State, answers .vtxLow s fun t =>
      t.m.pw.vtxLow = true ∧ t.m.pw.vtxHold = true ∧ (s.m.pw.mode.isMain = true → noFields t.m) ∧ mainOnly s t ∧
      (s.m.pw.mode.isMain = true ∨ s.m.wt.active = false → readerOnly (modPw s.m fun p => { p with vtxLow := true, vtxHold := true }) t.m)) ∧
  (∀ s : State, answers .vtxRestored s fun t =>
      t.m.pw.vtxLow = false ∧ t.m.pw.vtxHold = false ∧ mainOnly s t ∧
      readerOnly (modPw s.m fun p => { p with vtxLow := false, vtxHold := false }) t.m) ∧
  (∀ s : State, exec .vrfLow s = .next { s with m := { s.m with
      pw := { s.m.pw with vrfLow := true },
      rad := { s.m.rad with tx := { s.m.rad.tx with active := false, txen := false, access := none, backoff := none } } } }) ∧
  (∀ s : State, exec .vrfRestored s = .next { s with m := { s.m with pw := { s.m.pw with vrfLow := false } } }) ∧
  (∀ s : State, s.m.pw.aoUp = true → s.m.pw.fieldOn = true → 15 ≤ s.m.pw.strength →
    exec .vaoLow s = .next { s with m := { s.m with pw := { s.m.pw with vaoOk := false, onHarvest := true } } }) ∧
  (∀ s : State, s.m.pw.aoUp = true → s.m.pw.fieldOn = false → answers .vaoLow s fun t =>
      t.m.pw.vaoOk = false ∧ t.m.pw.aoUp = false ∧ t.m.pw.mode = .dormant ∧ t.m.pw.ctlOn = false ∧ noFields t.m ∧
      t.lgr.running = none ∧ t.lgr.waiting = [] ∧ t.lgr.leaseBy = none ∧ t.keys = s.keys ∧ t.pending = s.pending) ∧
  (∀ s : State, s.m.pw.aoUp = true →
    exec .vaoRestored s = .next { s with m := { s.m with pw := { s.m.pw with vaoOk := true, onHarvest := false } } })) ∧
  ((∀ (s : State) (n : Nat), s.m.pw.ctlOn = true → s.m.pw.onBackup = false → windowBad n = false →
    exec (.clockMonitorWindow n false) s = .next { s with m := { s.m with pw := { s.m.pw with badWindows := 0 } } }) ∧
  (∀ (s : State) (n : Nat), s.m.pw.ctlOn = true → s.m.pw.onBackup = false → windowBad n = true → s.m.pw.badWindows = 0 →
    exec (.clockMonitorWindow n false) s = .next { s with m := { s.m with pw := { s.m.pw with badWindows := 1 } } }) ∧
  (∀ (s : State) (n : Nat), s.m.pw.ctlOn = true → s.m.pw.onBackup = false → windowBad n = true → s.m.pw.badWindows ≠ 0 →
    s.m.pw.mode.isMain = true → answers (.clockMonitorWindow n false) s fun t =>
      t.m.pw.mode = .hold ∧ t.m.pw.holdCause = 2 ∧ t.m.pw.onBackup = true ∧ t.m.rad.tx.active = false ∧ noFields t.m ∧ mainOnly s t) ∧
  (∀ (s : State) (n : Nat), s.m.pw.ctlOn = true → s.m.pw.onBackup = false → s.m.pw.sleepLost = false →
    answers (.clockMonitorWindow n true) s fun t =>
      t.m.pw.sleepLost = true ∧ t.m.pw.sleepClock = 2 ∧ mainOnly s t ∧
      poolOnly (modPw s.m fun p => { p with badWindows := 0, sleepLost := true, sleepClock := 2 }) t.m) ∧
  (∀ s : State, s.m.pw.aoUp = true → answers .sleepCrystalQualified s fun t =>
      t.m.pw.sleepClock = 0 ∧ t.m.pw.sleepLost = false ∧ mainOnly s t ∧
      poolOnly (modPw s.m fun p => { p with sleepClock := 0, sleepLost := false }) t.m) ∧
  (∀ s : State, s.m.pw.aoUp = true → s.m.pw.sleepClock = 1 → s.m.pw.sleepLost = false → answers .sleepCrystalTimeout s fun t =>
      t.m.pw.sleepLost = true ∧ t.m.pw.sleepClock = 2 ∧ mainOnly s t ∧
      poolOnly (modPw s.m fun p => { p with sleepLost := true, sleepClock := 2 }) t.m) ∧
  (∀ (s : State) (tj : Int), s.m.pw.ctlOn = true → answers (.junctionTempSample tj) s fun t =>
      t.m.pw.tj = tj ∧ t.m.pw.derating = decide (cfgI s.m 16 0x1100 0x24 < tj) ∧ mainOnly s t ∧
      (s.m.pw.mode.isMain = true → cfgI s.m 16 0x1100 0x25 ≤ tj → t.m.pw.mode = .hold ∧ t.m.pw.holdCause = 4 ∧ noFields t.m) ∧
      (tj < cfgI s.m 16 0x1100 0x25 → t.m.pw.mode = s.m.pw.mode ∧
        poolOnly (modPw s.m fun p => { p with tj := tj, derating := decide (cfgI s.m 16 0x1100 0x24 < tj) }) t.m)))

/-- The management controller (R30, R560, R564): the watchdog and a parity error take it out with their cause; it comes back in PROBATION with the
mode, the counters' owner and the queues as they were.
Model choices it rests on: logs 3 and 32. -/
def Obligations.ControllerFaults : Prop :=
  (∀ s : State, s.m.pw.ctlOn = true → s.m.pw.fwRunning = true → answers .watchdogExpiry s fun t =>
      t.m.pw.ctlDown = true ∧ t.m.pw.ctlCause = 1 ∧ mainOnly s t ∧ t.m.tgt = s.m.tgt ∧ t.m.cfg = s.m.cfg ∧ t.m.dict = s.m.dict ∧
      t.m.ph = s.m.ph ∧ t.m.plan = s.m.plan ∧ t.m.pts = s.m.pts) ∧
  (∀ s : State, s.m.pw.ctlOn = true → s.m.pw.fwRunning = true → answers .controllerParityFault s fun t =>
      t.m.pw.ctlDown = true ∧ t.m.pw.ctlCause = 2 ∧ mainOnly s t ∧ t.m.tgt = s.m.tgt ∧ t.m.cfg = s.m.cfg ∧ t.m.dict = s.m.dict ∧
      t.m.ph = s.m.ph ∧ t.m.plan = s.m.plan ∧ t.m.pts = s.m.pts) ∧
  (∀ s : State, s.m.pw.ctlOn = true → s.m.pw.fwRunning = true → s.m.pw.ctlDown = true → s.m.pw.mode.isMain = true →
    answers .watchdogExpiry s fun t => t.m.pw.mode = .hold ∧ noFields t.m) ∧
  (∀ s : State, s.m.pw.ctlDown = true → answers .controllerRestart s fun t =>
      t.m.pw.ctlDown = false ∧ t.m.pw.ctlState = 3 ∧ t.m.pw.mode = s.m.pw.mode ∧ t.m.pw.transitions = s.m.pw.transitions ∧ mainOnly s t ∧
      poolOnly (modDict (modPw s.m fun p => { p with ctlDown := false, ctlState := 3 }) fun d => { d with backAt := some s.m.now }) t.m) ∧
  (∀ s : State, s.m.pw.ctlDown = false → exec .controllerRestart s = .next s)

/-- Requests for a mode (R34–R37), their completion (R39) and the drain limit (R40). An accepted request waits as the pending mode; in EMULATE it changes
the return mode alone; a request for EMULATE or RESCUE is refused and counted. The direct window carries the same request; one whose `DCHK` fails is not acted on (log 30). A pending transition that is
ready takes effect at the slot boundary; at the limit every stitch of a context that still runs or is paused ends, and the mode waits on.
Model choices it rests on: logs 3, 16, 30 and 41. -/
def Obligations.ModeRequests : Prop :=
  ((∀ (s : State) (code : BitVec 8), s.m.pw.ctlDown = false → s.m.pw.mode.isMain = true → s.m.pw.mode ≠ .emulate → busy s.m = false →
    s.m.pw.sleepLost = false → code.toNat ≤ 4 → Mode.ofCode code.toNat ≠ s.m.pw.mode →
    exec (.modeRequest code none) s = .next { s with m := { s.m with pw := { s.m.pw with
      lastReq := code.toNat, pendMode := some (Mode.ofCode code.toNat), pendTrig := 0 } } }) ∧
  (∀ (s : State) (code : BitVec 8), s.m.pw.ctlDown = false → s.m.pw.mode = .emulate → busy s.m = false → 2 ≤ code.toNat → code.toNat ≤ 4 →
    exec (.modeRequest code none) s = .next { s with m := { s.m with pw := { s.m.pw with
      lastReq := code.toNat, returnMode := Mode.ofCode code.toNat } } }) ∧
  (∀ s : State, s.m.pw.ctlDown = false → s.m.pw.mode.isMain = true → busy s.m = false → answers (.modeRequest 7#8 none) s fun t =>
      t.m.pw.mode = .hold ∧ t.m.pw.holdCause = 1 ∧ noFields t.m ∧ mainOnly s t) ∧
  (∀ (s : State) (code : BitVec 8), s.m.pw.ctlDown = false → s.m.pw.mode.isMain = true → code = 5#8 ∨ code = 6#8 →
    answers (.modeRequest code none) s fun t =>
      t.m.pw.modeRefused = sat32 (s.m.pw.modeRefused + 1) ∧ t.m.pw.mode = s.m.pw.mode ∧ t.m.pw.pendMode = s.m.pw.pendMode ∧ mainOnly s t ∧
      poolOnly (modPw s.m fun p => { p with modeRefused := sat32 (p.modeRefused + 1) }) t.m) ∧
  (∀ (s : State) (code : BitVec 8) (dchk : Byte), spiCheck (leBytes 4 (place 4 3 code.toNat)) = dchk → spiUp s.m = true →
    s.m.spi.stalled = none → loaderWaits s.m = false → s.m.pw.mode.isMain = true →
    s.m.pw.mode ≠ .emulate → busy s.m = false → s.m.pw.sleepLost = false → code.toNat ≤ 4 → Mode.ofCode code.toNat ≠ s.m.pw.mode →
    answers (.modeRequest code (some dchk)) s fun t =>
      t.m.pw = { s.m.pw with lastReq := code.toNat, pendMode := some (Mode.ofCode code.toNat), pendTrig := 0 } ∧
      t.m.spi.prevHdr = false ∧ t.m.spi.status = statusBlock { s with m := { s.m with spi := { s.m.spi with quad := s.m.spi.quadNext } } } ∧
      mainOnly s t) ∧
  (∀ (s : State) (code : BitVec 8) (dchk : Byte), spiCheck (leBytes 4 (place 4 3 code.toNat)) ≠ dchk → spiUp s.m = true →
    s.m.spi.stalled = none → loaderWaits s.m = false → answers (.modeRequest code (some dchk)) s fun t =>
      t.m.pw = s.m.pw ∧ t.m.spi.prevCrc = true ∧ mainOnly s t) ∧
  (∀ (s : State) (dst : Mode), s.m.pw.pendMode = some dst → dst = .watch ∨ dst = .dormant → s.m.pw.mode.isMain = true →
    transitionReady s.m dst = true → s.m.pw.sleepLost = true → answers .modeTransitionComplete s fun t =>
      t.m.pw = { s.m.pw with pendMode := none, modeRefused := sat32 (s.m.pw.modeRefused + 1) } ∧ mainOnly s t) ∧
  (∀ (s : State) (dst : Mode), s.m.pw.pendMode = some dst → s.m.pw.mode.isMain = true → transitionReady s.m dst = true →
    s.m.pw.sleepLost = false →
    answers .modeTransitionComplete s fun t => t.m.pw.mode = dst ∧ t.m.pw.pendMode = none ∧ mainOnly s t) ∧
  (∀ s : State, s.m.pw.pendMode = none → exec .modeTransitionComplete s = .next s)) ∧
  (∀ (s : State) (dst : Mode), s.m.pw.pendMode = some dst → transitionReady s.m dst = false →
    (∀ (e : Fin 24) (c : Fin 2), (ctxOf s.m e c).st = .run ∨ (ctxOf s.m e c).st = .pause → (ctxOf s.m e c).job ≠ none) →
    answers .drainLimitExpiry s fun t => startedLeft t.m = false ∧ t.m.pw.pendMode = some dst ∧ mainOnly s t ∧ readerOnly s.m t.m)

/-- The field at the target port and the modes (R38, R44, R355, R356, R360).
Model choices it rests on: logs 3, 19 and 40. -/
def Obligations.FieldAndModes : Prop :=
  (∀ (s : State) (h : Nat), h < 8 → exec (.targetFieldDetected h) s = .next s) ∧
  (∀ (s : State) (h : Nat), 15 ≤ h → s.m.pw.aoUp = true → s.m.pw.rstHeld = false → answers (.targetFieldDetected h) s fun t =>
      t.m.pw.fieldOn = true ∧ t.m.pw.strength = h ∧ t.lgr = s.lgr ∧ t.keys = s.keys ∧ t.pending = s.pending ∧
      (s.m.pw.mode = .transact ∨ s.m.pw.mode = .survey ∨ s.m.pw.mode = .calibrate → s.m.pw.pendMode ≠ some .hold →
        t.m.pw.pendMode = some .emulate ∧ t.m.pw.mode = s.m.pw.mode) ∧
      (s.m.pw.mode = .dormant → s.m.pw.booting = false → s.m.pw.mainPresent = false → t.m.pw.mode = .rescue) ∧
      (s.m.pw.mode = .dormant → s.m.pw.booting = false → s.m.pw.mainPresent = true → bitAt (cfgN s.m 0x1100 0x07) 1 = true →
        t.m.pw.booting = true ∧ t.m.pw.bootTarget = .emulate ∧ t.m.pw.wakeCause = 1)) ∧
  (∀ (s : State) (b : Bool), s.m.pw.aoUp = true → s.m.pw.onHarvest = false → answers (.targetFieldLost b) s fun t =>
      t.m.pw = { s.m.pw with fieldOn := false, strength := 0 } ∧ t.m.tgt.session = .none ∧ t.m.tgt.auth.key0 = false ∧
      t.m.tgt.auth.key1 = false ∧ t.m.tgt.stp.bound = s.m.tgt.stp.bound ∧ (∀ a ∈ t.lgr.waiting, a.port = .field → a.started = true) ∧
      t.lgr.ring = s.lgr.ring ∧ t.keys = s.keys ∧ t.pending = s.pending) ∧
  (∀ (s : State) (b : Bool), s.m.pw.aoUp = true → s.m.pw.onHarvest = true → answers (.targetFieldLost b) s fun t =>
      t.m.pw.aoUp = false ∧ t.m.pw.mode = .dormant ∧ t.m.pw.fieldOn = false ∧ t.lgr.running = none ∧ noFields t.m ∧ t.keys = s.keys ∧
      t.pending = s.pending) ∧
  (∀ s : State, s.m.pw.mode = .emulate → s.m.pw.fieldOn = false → s.m.pw.pendMode = none →
    exec .emulateHoldoffExpiry s = .next { s with m := { s.m with pw := { s.m.pw with pendMode := some s.m.pw.returnMode, pendTrig := 2 } } }) ∧
  (∀ s : State, s.m.pw.mode = .rescue → s.m.pw.fieldOn = false → s.m.pw.mainPresent = false →
    exec .rescueFieldAbsent s = .next { s with m := { s.m with pw := { s.m.pw with
      mode := .dormant, pendMode := none, transitions := sat32 (s.m.pw.transitions + 1) } } }) ∧
  (∀ s : State, s.m.pw.mode = .rescue → s.m.pw.fieldOn = false → s.m.pw.mainPresent = true → answers .rescueFieldAbsent s fun t =>
      t.m.pw.mode = .dormant ∧ t.m.pw.booting = cfgB t.m 0x1200 0x01 ∧ noFields t.m ∧ t.keys = s.keys ∧ t.pending = s.pending)

/-- The wake sources (R44, R45, R507): in DORMANT and WATCH an enabled source is recorded and starts a boot into [1100:05]; a boot in progress
only records it; a disabled source does nothing.
Model choices it rests on: logs 3, 33 and 40. -/
def Obligations.WakeSources : Prop :=
  (∀ s : State, sleeping s.m = true → s.m.pw.wakeNArmed = true → s.m.pw.mainPresent = true → s.m.pw.booting = false →
    bitAt (cfgN s.m 0x1100 0x07) 0 = true → answers .wakeNWake s fun t =>
      t.m.pw.wakeCause = 0 ∧ t.m.pw.booting = true ∧ t.m.pw.wakeNArmed = false ∧
      t.m.pw.bootTarget = Mode.ofCode (cfgN s.m 0x1100 0x05) ∧ t = { s with m := { s.m with pw := t.m.pw } }) ∧
  (∀ s : State, s.m.pw.wakeNArmed = false → exec .wakeNWake s = .next s) ∧
  (∀ s : State, exec .wakeNRearm s = .next { s with m := { s.m with pw := { s.m.pw with wakeNArmed := true } } }) ∧
  (∀ s : State, sleeping s.m = true → s.m.pw.mainPresent = true → s.m.pw.booting = false → cfgN s.m 0x1100 0x09 ≠ 0 →
    bitAt (cfgN s.m 0x1100 0x07) 2 = true → answers .alarmExpiry s fun t =>
      t.m.pw.wakeCause = 2 ∧ t.m.pw.booting = true ∧ t.m.pw.bootTarget = Mode.ofCode (cfgN s.m 0x1100 0x05) ∧
      t = { s with m := { s.m with pw := t.m.pw } }) ∧
  (∀ s : State, sleeping s.m = true → s.m.pw.mainPresent = true → s.m.pw.booting = false → s.m.pw.canArmed = true →
    bitAt (cfgN s.m 0x1100 0x07) 3 = true → answers .canActivityWake s fun t =>
      t.m.pw.wakeCause = 3 ∧ t.m.pw.booting = true ∧ t.m.pw.bootTarget = Mode.ofCode (cfgN s.m 0x1100 0x05) ∧
      t = { s with m := { s.m with pw := t.m.pw } }) ∧
  (∀ s : State, s.m.pw.canArmed = false → exec .canActivityWake s = .next s) ∧
  (∀ s : State, sleeping s.m = true → exec .canWakeArm s = .next { s with m := { s.m with pw := { s.m.pw with canArmed := true } } }) ∧
  (∀ (s : State) (src : Fin 6), s.m.pw.booting = true → bitAt (cfgN s.m 0x1100 0x07) src.val = true →
    exec (.wakeDuringBoot src) s = .next { s with m := { s.m with pw := { s.m.pw with wakeCause := src.val } } })

/-- The boot (R55–R61): its stages in order, an image that fails its checks leaves its code, and the firmware starts in the mode the boot was for.
Model choices it rests on: logs 3 and 33. -/
def Obligations.BootStages : Prop :=
  (∀ s : State, s.m.pw.booting = true → s.m.pw.bootStage = 2 →
    exec .referenceStable s = .next { s with m := { s.m with pw := { s.m.pw with refOk := true } } }) ∧
  (∀ s : State, s.m.pw.booting = true → s.m.pw.bootStage = 2 → s.m.pw.refOk = true → answers .pllLocked s fun t =>
      t.m.pw = { s.m.pw with ctlOn := true, rdy := true, bootStage := if cfgN s.m 0x1200 0x02 = 1 then 6 else 3 } ∧ t.m.spi = {} ∧
      (s.m.pw.bootFromWatch = false → t.m.pool = {} ∧ t.m.flt = {}) ∧
      (s.m.pw.bootFromWatch = true → t.m.pool = s.m.pool ∧ t.m.flt = s.m.flt) ∧ mainOnly s t) ∧
  (∀ (s : State) (img : ImageReport), s.m.pw.booting = true → s.m.pw.bootStage = 3 → img.responds = true → imageCheck img = 0 →
    exec (.imageReadComplete img) s = .next { s with m := { s.m with pw := { s.m.pw with bootStage := 4, img := some img } } }) ∧
  (∀ (s : State) (img : ImageReport), s.m.pw.booting = true → s.m.pw.bootStage = 3 → img.responds = true → imageCheck img ≠ 0 →
    cfgN s.m 0x1200 0x02 = 2 → answers (.imageReadComplete img) s fun t =>
      t.m.pw = { s.m.pw with
        bootStage := 6, bootFailures := s.m.pw.bootFailures ++ [imageCheck img], loaded := t.m.pw.loaded } ∧ mainOnly s t) ∧
  (∀ (s : State) (img : ImageReport), s.m.pw.booting = true → s.m.pw.bootStage = 3 → img.responds = false → cfgN s.m 0x1200 0x02 ≠ 2 →
    answers (.imageReadComplete img) s fun t =>
      t.m.pw.mode = .hold ∧ t.m.pw.holdCause = 6 ∧ t.m.pw.bootStage = 0xE5 ∧ t.m.pw.booting = false ∧ mainOnly s t) ∧
  (∀ (s : State) (img : ImageReport) (good : Bool), s.m.pw.booting = true → s.m.pw.bootStage = 4 → s.m.pw.img = some img →
    signCheck s.m img good = 0 → exec (.signatureVerified good) s = .next { s with m := { s.m with pw := { s.m.pw with
      bootStage := 5, fwVersion := img.fwVersion.toNat, keySlot := img.keySlot.val } } }) ∧
  (∀ (s : State) (img : ImageReport), s.m.pw.ctlOn = true → s.m.pw.bootStage = 6 → s.m.pw.mode = .dormant → s.m.pw.loaded ≠ 0 →
    img.length ≤ s.m.pw.loaded → imageCheck img = 0 → signCheck s.m img img.sigOk = 0 → answers (.imageOverSpiPassed img) s fun t =>
      t.m.pw = { s.m.pw with
        booting := true, bootStage := 5, fwVersion := img.fwVersion.toNat, keySlot := img.keySlot.val, loaded := 0 } ∧ mainOnly s t) ∧
  (∀ s : State, s.m.pw.booting = true → s.m.pw.bootStage = 5 → answers .firmwareReady s fun t =>
      t.m.pw.fwRunning = true ∧ t.m.pw.booting = false ∧ t.m.pw.bootStage = 0 ∧ t.m.pw.mode = s.m.pw.bootTarget ∧
      t.m.pw.bootFailures = [] ∧ t.lgr = { s.lgr with torn := 0, rolled := false } ∧ t.keys = s.keys ∧ t.pending = s.pending)

/-- The inputs of the phase unit (R67–R70, R73): a level change starts the filter, and one that ends early is a counted glitch; a qualified change of
the other polarity is no edge; an edge inside the plausibility window is accepted and locks; a window that passes without one leads from LOCKED
to COAST, and the limit of COAST to FREE.
Model choices it rests on: logs 3 and 35. -/
def Obligations.PhaseInputs : Prop :=
  (∀ (s : State) (b : Bool), engOn s.m = true → s.m.ph.filt = none → s.m.ph.level ≠ b →
    exec (.phrefLevelChange b) s = .next { s with m := { s.m with ph := { s.m.ph with filt := some (b, s.m.now) } } }) ∧
  (∀ (s : State) (b : Bool) (t0 : Nat), engOn s.m = true → s.m.ph.filt = some (!b, t0) → s.m.ph.level = b →
    answers (.phrefLevelChange b) s fun t =>
      t.m.ph.filt = none ∧ t.m.ph.rejects = s.m.ph.rejects + 1 ∧ t.m.ph.level = s.m.ph.level ∧ t.m.ph.st = s.m.ph.st ∧ mainOnly s t ∧
      t.m.pw = s.m.pw ∧ t.m.plan = s.m.plan ∧ t.m.cores = s.m.cores) ∧
  (∀ (s : State) (b : Bool) (t0 : Nat), s.m.ph.filt = some (b, t0) → phaseSource s.m ≠ 1 →
    exec .phrefEdgeQualified s = .next { s with m := { s.m with ph := { s.m.ph with level := b, filt := none } } }) ∧
  (∀ (s : State) (b : Bool) (t0 : Nat), s.m.ph.filt = some (b, t0) → b ≠ !cfgB s.m 0x2000 0x03 →
    exec .phrefEdgeQualified s = .next { s with m := { s.m with ph := { s.m.ph with level := b, filt := none } } }) ∧
  (∀ (s : State) (b : Bool) (t0 : Nat), s.m.ph.filt = some (b, t0) → b = !cfgB s.m 0x2000 0x03 → phaseSource s.m = 1 →
    s.m.ph.st = 1 ∨ s.m.ph.st = 2 → s.m.ph.accepted = false →
    edgePlausible s.m t0 = true → answers .phrefEdgeQualified s fun t =>
      t.m.ph.st = 1 ∧ t.m.ph.accepted = true ∧ t.m.ph.missed = 0 ∧ t.m.ph.lastEdge = some t0 ∧ t.m.ph.level = b ∧ t.m.ph.filt = none ∧
      mainOnly s t) ∧
  (∀ (s : State) (b : Bool) (t0 : Nat), s.m.ph.filt = some (b, t0) → b = !cfgB s.m 0x2000 0x03 → phaseSource s.m = 1 →
    s.m.ph.st = 1 ∨ s.m.ph.st = 2 → s.m.ph.accepted = true ∨ edgePlausible s.m t0 = false →
    answers .phrefEdgeQualified s fun t =>
      t.m.ph.st = s.m.ph.st ∧ t.m.ph.rejects = s.m.ph.rejects + 1 ∧ t.m.ph.lastEdge = s.m.ph.lastEdge ∧ t.m.ph.period = s.m.ph.period ∧
      t.m.ph.base = s.m.ph.base ∧ t.m.ph.level = b ∧ t.m.ph.filt = none ∧ mainOnly s t ∧ t.m.pw = s.m.pw ∧ t.m.cores = s.m.cores) ∧
  (∀ s : State, phaseSource s.m = 1 → s.m.ph.accepted = true →
    exec .plausibilityWindowEnd s = .next { s with m := { s.m with ph := { s.m.ph with accepted := false } } }) ∧
  (∀ s : State, phaseSource s.m = 1 → s.m.ph.accepted = false → s.m.ph.st = 1 → cfgN s.m 0x2000 0x09 ≠ 0 →
    answers .plausibilityWindowEnd s fun t => t.m.ph = { s.m.ph with st := 2, missed := s.m.ph.missed + 1 } ∧ mainOnly s t ∧
      poolOnly { s.m with ph := { s.m.ph with st := 2, missed := s.m.ph.missed + 1 } } t.m) ∧
  (∀ s : State, phaseSource s.m ≠ 2 → s.m.ph.st = 2 → answers .coastLimit s fun t =>
      t.m.ph.st = 0 ∧ t.m.ph.acq = [] ∧ t.m.ph.lastEdge = none ∧ t.m.ph.base = phaseNow s.m ∧ t.m.ph.at_ = s.m.now ∧
      t.m.ph.cycle = s.m.ph.cycle ∧ mainOnly s t ∧ t.m.plan = s.m.plan ∧ t.m.pw.mode = s.m.pw.mode)

/-- The settings of the phase unit (R72, R73, R90, R91): written in the modes that allow it and off a follower, refused without effect otherwise.
Model choices it rests on: logs 3 and 35. -/
def Obligations.PhaseSettings : Prop :=
  (∀ (s : State) (v : BitVec 8), s.m.pw.mode ≠ .calibrate → exec (.phaseSourceWrite v) s = .next s) ∧
  (∀ (s : State) (v : BitVec 8), s.m.pw.mode = .calibrate → s.m.pw.ctlDown = false → s.lgr.held = false → v.toNat < 3 → s.m.lace.role ≠ 2 →
    s.lgr.leaseBy = none → s.m.pw.onHarvest = false →
    answers (.phaseSourceWrite v) s fun t =>
      cfgN t.m 0x2000 0x01 = v.toNat ∧ t.m.ph.st = (if v.toNat = 0 then 3 else 0) ∧ t.m.ph.encFirst = true ∧ t.m.ph.acq = [] ∧
      t.m.ph.cycle = s.m.ph.cycle ∧ t.keys = s.keys ∧ t.pending = s.pending ∧ t.lgr.ring = s.lgr.ring) ∧
  (∀ (s : State) (v : BitVec 16), s.m.pw.mode.isMain = true → s.m.pw.ctlDown = false → s.m.lace.role ≠ 2 → answers (.phaseOffsetWrite v) s fun t =>
      cfgN t.m 0x2000 0x05 = v.toNat ∧ t = { s with m := { s.m with cfg := t.m.cfg } } ∧
      ∀ idx sub : Nat, sub < 256 → (idx, sub) ≠ (0x2000, 0x05) → cfgN t.m idx sub = cfgN s.m idx sub) ∧
  (∀ (s : State) (v : BitVec 16), s.m.lace.role = 2 → exec (.phaseOffsetWrite v) s = .next s) ∧
  (∀ (s : State) (v : BitVec 32), s.m.pw.mode.isMain = true → s.m.pw.ctlDown = false → s.lgr.held = false → 7143 ≤ v.toNat → v.toNat ≤ 25000 →
    s.m.lace.role ≠ 2 → s.lgr.leaseBy = none → s.m.pw.onHarvest = false → answers (.nominalPeriodWrite v) s fun t =>
      cfgN t.m 0x2000 0x0A = v.toNat ∧ (s.m.ph.st = 0 ∨ s.m.ph.st = 3 → t.m.ph.pendPeriod = some (v.toNat * tickUs)) ∧
      (s.m.ph.st = 1 ∨ s.m.ph.st = 2 → t.m.ph = s.m.ph) ∧ t.m.ph.period = s.m.ph.period ∧ t.lgr.ring = s.lgr.ring ∧ t.keys = s.keys ∧
      t.pending = s.pending) ∧
  (∀ (s : State) (v : BitVec 32), v.toNat < 7143 ∨ 25000 < v.toNat → exec (.nominalPeriodWrite v) s = .next s)

/-- Cycles and the encoder (R71, R77–R81): a boundary bases the phase at 0 and raises the cycle count; a transition moves the count by one in its
direction, two inputs at once are an error and lead to FREE; an index zeroes the count and locks; the always-on counter counts index pulses, or follows the `PHREF` edges that are plausible, while `ENG` is off.
Model choices it rests on: logs 3 and 35. -/
def Obligations.CyclesAndEncoder : Prop :=
  (∀ s : State, engOn s.m = true → encFollows s.m = false → answers .cycleBoundary s fun t =>
      t.m.ph.cycle = (s.m.ph.cycle + 1) % 2 ^ 32 ∧ t.m.ph.base = 0 ∧ t.m.ph.at_ = s.m.now ∧ t.m.ph.rejects = 0 ∧ t.m.ph.st = s.m.ph.st ∧
      mainOnly s t) ∧
  (∀ s : State, engOn s.m = false → exec .cycleBoundary s = .next s) ∧
  (∀ (s : State) (a b : Bool), engOn s.m = true → phaseSource s.m = 2 → s.m.ph.encA ≠ a → s.m.ph.encB ≠ b →
    s.m.ph.st = 1 ∨ s.m.ph.st = 2 → answers (.encoderTransition a b) s fun t =>
      t.m.ph.encA = a ∧ t.m.ph.encB = b ∧ t.m.ph.st = 0 ∧ t.m.ph.encFirst = true ∧ t.m.ph.encCount = s.m.ph.encCount ∧
      counter t.m 0x7020 0x08 = sat32 (counter s.m 0x7020 0x08 + 1) ∧ mainOnly s t) ∧
  (∀ (s : State) (a b : Bool), engOn s.m = true → phaseSource s.m = 2 → cfgB s.m 0x2000 0x14 = false →
    (quadIndex a b + 4 - quadIndex s.m.ph.encA s.m.ph.encB) % 4 = 1 → answers (.encoderTransition a b) s fun t =>
      t.m.ph.encA = a ∧ t.m.ph.encB = b ∧ t.m.ph.encCount = (s.m.ph.encCount + 1) % max 1 (cfgN s.m 0x2000 0x10) ∧ t.m.ph.encDir = 0 ∧ mainOnly s t) ∧
  (∀ (s : State) (a b : Bool), engOn s.m = true → phaseSource s.m = 2 → cfgB s.m 0x2000 0x14 = false →
    (quadIndex a b + 4 - quadIndex s.m.ph.encA s.m.ph.encB) % 4 = 3 → answers (.encoderTransition a b) s fun t =>
      t.m.ph.encCount = (s.m.ph.encCount + max 1 (cfgN s.m 0x2000 0x10) - 1) % max 1 (cfgN s.m 0x2000 0x10) ∧ t.m.ph.encDir = 1 ∧
      mainOnly s t) ∧
  (∀ s : State, engOn s.m = true → phaseSource s.m = 2 → s.m.ph.encFirst = true → answers .encoderIndex s fun t =>
      t.m.ph.encCount = 0 ∧ t.m.ph.encFirst = false ∧ t.m.ph.st = 1 ∧ mainOnly s t) ∧
  (∀ s : State, phaseSource s.m = 2 → exec .encoderStopped s = .next { s with m := { s.m with ph := { s.m.ph with encDir := 2 } } }) ∧
  (∀ s : State, engOn s.m = false → s.m.pw.aoUp = true → phaseSource s.m = 2 →
    exec .aoPhaseCounterEdge s = .next { s with m := { s.m with ph := { s.m.ph with ao := { s.m.ph.ao with
      ext := (s.m.ph.ao.ext / 65536 + 1) * 65536 + cfgN s.m 0x2000 0x05, at_ := s.m.now,
      period := max 1 (s.m.now - s.m.ph.ao.at_) } } } }) ∧
  (∀ s : State, engOn s.m = false → s.m.pw.aoUp = true → phaseSource s.m = 1 → s.m.ph.ao.st = 1 →
    (aoExt s.m.ph.ao s.m.now - s.m.ph.ao.ext + 32768) / 65536 ≤ cfgN s.m 0x2000 0x09 + 1 →
    (wrap16 ((aoExt s.m.ph.ao s.m.now % 65536 : Nat) - (cfgN s.m 0x2000 0x05 : Int))).natAbs * 100 ≤ cfgN s.m 0x2000 0x0B * 65536 →
    answers .aoPhaseCounterEdge s fun t =>
      t.m.ph.ao.st = 1 ∧ t.m.ph.ao.ext = aoSnap s.m (aoExt s.m.ph.ao s.m.now) ∧ t.m.ph.ao.at_ = s.m.now ∧
      t = { s with m := { s.m with ph := { s.m.ph with ao := t.m.ph.ao } } }) ∧
  (∀ s : State, engOn s.m = true ∨ s.m.pw.aoUp = false ∨ phaseSource s.m = 0 ∨ phaseSource s.m = 3 →
    exec .aoPhaseCounterEdge s = .next s)

/-- The slot plan (R83, R88, R89): an enabled window opens and closes, a switch waits for its target or is cancelled, and a window is written in the
inactive bank alone.
Model choices it rests on: logs 3 and 35. -/
def Obligations.SlotPlan : Prop :=
  (∀ (s : State) (w : Fin 64) (b : Bool), engOn s.m = true → (activeWin s.m w).enabled = true → answers (.windowBoundary w b) s fun t =>
      t.m.plan = { s.m.plan with opened := s.m.plan.opened.set w b } ∧ mainOnly s t ∧ t.m.ph = s.m.ph ∧ t.m.tgt = s.m.tgt ∧ t.m.rad = s.m.rad) ∧
  (∀ (s : State) (w : Fin 64) (b : Bool), (activeWin s.m w).enabled = false → exec (.windowBoundary w b) s = .next s) ∧
  (∀ (s : State) (v : BitVec 32), s.m.pw.mode.isMain = true → s.m.pw.ctlDown = false → v ≠ 0xFFFFFFFF#32 →
    (s.m.plan.bank (if s.m.plan.active = 0 then 1 else 0)).toList.all Window.clean = true →
    exec (.planSwitchRequest v) s = .next { s with m := { s.m with plan := { s.m.plan with pending := some v.toNat } } }) ∧
  (∀ s : State, s.m.pw.mode.isMain = true → s.m.pw.ctlDown = false →
    exec .planSwitchCancel s = .next { s with m := { s.m with plan := { s.m.plan with pending := none } } }) ∧
  (∀ (s : State) (w : Fin 64) (w0 w1 w2 w3 : Word), s.m.pw.mode.isMain = true → s.m.pw.ctlDown = false → s.m.plan.active = 1 → s.m.plan.pending = none →
    exec (.planWindowWrite 0 w w0 w1 w2 w3) s = .next { s with m := { s.m with plan := { s.m.plan with
      bank0 := s.m.plan.bank0.set w { w0 := w0, w1 := w1, w2 := w2, w3 := w3 } } } }) ∧
  (∀ (s : State) (w : Fin 64) (w0 w1 w2 w3 : Word), s.m.pw.mode.isMain = true → s.m.pw.ctlDown = false → s.m.plan.active = 0 → s.m.plan.pending = none →
    exec (.planWindowWrite 1 w w0 w1 w2 w3) s = .next { s with m := { s.m with plan := { s.m.plan with
      bank1 := s.m.plan.bank1.set w { w0 := w0, w1 := w1, w2 := w2, w3 := w3 } } } })

/-- R89: a write to a window of the active bank, a write to the inactive bank while a switch is pending, and a switch request while a window of the
inactive bank has a reserved bit set are refused, and each refusal is counted in [7020:0B]; a write of 0xFFFF_FFFF cancels a pending switch. -/
def Obligations.PlanRefusals : Prop :=
  (∀ (s : State) (b : Fin 2) (w : Fin 64) (w0 w1 w2 w3 : Word), s.m.pw.mode.isMain = true → s.m.pw.ctlDown = false →
    b = s.m.plan.active ∨ s.m.plan.pending ≠ none →
    exec (.planWindowWrite b w w0 w1 w2 w3) s = .next { s with m := count s.m 0x7020 0x0B }) ∧
  (∀ (s : State) (v : BitVec 32), s.m.pw.mode.isMain = true → s.m.pw.ctlDown = false → v ≠ 0xFFFFFFFF#32 →
    (∃ w : Fin 64, ((s.m.plan.bank (if s.m.plan.active = 0 then 1 else 0))[w]).clean = false) →
    exec (.planSwitchRequest v) s = .next { s with m := count s.m 0x7020 0x0B }) ∧
  (∀ s : State, counter (count s.m 0x7020 0x0B) 0x7020 0x0B = min 0xFFFFFFFF (counter s.m 0x7020 0x0B + 1)) ∧
  (∀ s : State, s.m.pw.mode.isMain = true → s.m.pw.ctlDown = false →
    exec (.planSwitchRequest 0xFFFFFFFF#32) s = .next { s with m := { s.m with plan := { s.m.plan with pending := none } } })

/-- The scheduler grants what nothing stands against (R126–R130, R137): with no field on, no lace, no other request, burnish running its programme in
CALIBRATE, the plan open for its class and the governor satisfied, its request for a port that is IDLE becomes a field granted on the port's home core, with
drive phase 0. -/
def Obligations.AFreeReaderGrants : Prop :=
  ∀ (s : State) (p : Fin 128), s.m.sch.reqs = [] → s.m.sch.state ≠ 1 → noFields s.m → s.m.lace.role = 0 → s.m.lace.edge = [] →
    s.m.lace.holding = [] → s.m.lace.claimed = none → s.m.pw.mode = .calibrate → s.m.pw.pendMode = none → s.m.pw.vtxHold = false → s.m.brn.full = 1 →
    (s.m.ports[p]).state < 2 → (s.m.ports[p]).disablePend = false → (s.m.ports[p]).session = none → (s.m.cores[homeCore p]).state = 0 →
    (s.m.cores[homeCore p]).disablePend = false → cfgN s.m (0x2200 + p.val) 0x04 = 1 →
    planAllows s.m (homeCore p) p 4 = true → governor s.m (levelNw (cfgN s.m 0x2800 0x10)) = 0 →
    answers (.grantRequest .burnish p) s fun t =>
      (∃ f, (t.m.cores[homeCore p]).fld = some f ∧ f.owner = .burnish ∧ f.port = p ∧ f.level = cfgN s.m 0x2800 0x10 ∧ f.code = 0 ∧ f.cls = 4 ∧
        f.closed = false) ∧ t.m.sch.reqs = [] ∧ mainOnly s t ∧ readerOnly s.m t.m

/-- The scheduler's other commands (R118, R126, R128): whatever a request leads to, nothing outside the reader changes; a request that cannot be granted yet waits; a
bin of the governor ends; a request that has waited is reserved for, once.
Model choices it rests on: log 39. -/
def Obligations.SchedulerCommands : Prop :=
  (∀ (s : State) (w : Owner) (p : Fin 128), answers (.grantRequest w p) s fun t => mainOnly s t ∧ readerOnly s.m t.m) ∧
  (∀ (s : State) (p : Fin 128), s.m.sch.reqs = [] → s.m.pw.vtxHold = true → s.m.brn.full = 1 → (s.m.ports[p]).state < 2 →
    answers (.grantRequest .burnish p) s fun t =>
      t.m.sch.reqs.map (fun r => (r.owner, r.port, r.cls, r.made)) = [(.burnish, p, 4, s.m.now)] ∧
      t = { s with m := { s.m with sch := t.m.sch } }) ∧
  (∀ s : State, s.m.pw.mode.isMain = true → answers .governorBinBoundary s fun t =>
      t.m.sch.bins = (0 :: (accrue s.m).sch.bins).take 1000 ∧ t.m.sch.binAt = s.m.now ∧ mainOnly s t ∧ readerOnly s.m t.m) ∧
  (∀ (s : State) (w : Owner) (r : Req), s.m.sch.reqs.find? (fun x => x.owner == w) = some r → r.reserved = false →
    answers (.reservation w) s fun t =>
      t.m.sch.reqs = s.m.sch.reqs.map (fun x => if x.owner = r.owner then { r with reserved := true } else x) ∧
      counter t.m 0x7040 0x0A = sat32 (counter s.m 0x7040 0x0A + 1) ∧ mainOnly s t ∧ readerOnly s.m t.m)

/-- R94: the home core of port p is FC(p ÷ 8), its alternate core FC((p ÷ 8 − 1) mod 16); core k reaches its home ports 8k to 8k + 7 and, as alternate core, the ports of
k + 1 modulo 16; FC15 is the alternate core of AP0 to AP7. -/
def Obligations.HomeAndAlternateCores : Prop :=
  (∀ p : Fin 128, (homeCore p).val = p.val / 8 ∧ (altCore p).val = (p.val / 8 + 16 - 1) % 16) ∧
  (∀ (k : Fin 16) (p : Fin 128), homeCore p = k ↔ 8 * k.val ≤ p.val ∧ p.val ≤ 8 * k.val + 7) ∧
  (∀ (k : Fin 16) (p : Fin 128), altCore p = k ↔ 8 * ((k.val + 1) % 16) ≤ p.val ∧ p.val ≤ 8 * ((k.val + 1) % 16) + 7) ∧
  (∀ p : Fin 128, p.val ≤ 7 → altCore p = 15)

/-- A field from its switch to its end (R103–R106, R111, R133–R135).
Model choices it rests on: logs 3, 39 and 43. -/
def Obligations.FieldCourse : Prop :=
  (∀ (s : State) (k : Fin 16) (f : FieldRec) (v : FV), (s.m.cores[k]).fld = some f → fieldView s.m k = some v → f.closed = false →
    planAllows s.m k f.port f.cls = true → changeBlocked s.m v = false → answers (.portSwitch k true) s fun t =>
      (∃ g, (t.m.cores[k]).fld = some g ∧ g.closed = true ∧ g.port = f.port ∧ g.owner = f.owner ∧ g.since = s.m.now) ∧
      (t.m.cores[k]).portNow = some f.port ∧ (t.m.cores[k]).drivePhase = f.code ∧
      (t.m.cores[k]).applied = (((f.code : Int) + (s.m.cores[k]).phaseCal + s.m.lace.devPhase) % 1024).toNat ∧
      (t.m.ports[f.port]).array = tuneCode s.m k f.port ∧ (t.m.ports[f.port]).shorted = false ∧
      ((s.m.ports[f.port]).state = 0 → (t.m.ports[f.port]).state = 1) ∧ mainOnly s t ∧ readerOnly s.m t.m) ∧
  (∀ (s : State) (k : Fin 16) (f : FieldRec) (v : FV), (s.m.cores[k]).fld = some f → fieldView s.m k = some v → f.closed = false →
    planAllows s.m k f.port f.cls = true → changeBlocked s.m v = true → (s.m.cores[k]).changeHeld = false →
    exec (.portSwitch k true) s = .next { s with m := modCore (count s.m 0x7040 0x06) k fun c => { c with changeHeld := true } }) ∧
  (∀ (s : State) (k : Fin 16) (f : FieldRec) (b : Bool), (s.m.cores[k]).fld = some f → f.closed = false → planAllows s.m k f.port f.cls = false →
    answers (.portSwitch k b) s fun t => mainOnly s t ∧ readerOnly s.m t.m ∧ (t.m.cores[k]).portNow = none) ∧
  (∀ (s : State) (k : Fin 16) (f : FieldRec), (s.m.cores[k]).fld = some f → f.closed = false → planAllows s.m k f.port f.cls = true →
    answers (.portSwitch k false) s fun t =>
      (t.m.cores[k]).fld = none ∧ t.m.sch.state = 1 ∧ mainOnly s t) ∧
  (∀ (s : State) (k : Fin 16) (f : FieldRec) (z : Nat) (a : Int), (s.m.cores[k]).fld = some f → f.closed = true → f.owner ≠ .retest →
    checkPort s.m f.port z a = 0 → answers (.portCheck k z a) s fun t =>
      (t.m.ports[f.port]).zMag = z ∧ (t.m.ports[f.port]).zArg = a ∧ t.m.cores = s.m.cores ∧ t.m.sch = s.m.sch ∧ mainOnly s t) ∧
  (∀ (s : State) (k : Fin 16) (f : FieldRec) (z : Nat) (a : Int), (s.m.cores[k]).fld = some f → f.closed = true → f.owner = .burnish →
    s.m.sch.reqs = [] → (s.m.ports[f.port]).disablePend = false → (s.m.cores[k]).disablePend = false → (s.m.cores[k]).portFaultAt = [] →
    (servingCores s.m f.port).isEmpty = false → checkPort s.m f.port z a ≠ 0 →
    answers (.portCheck k z a) s fun t =>
      (t.m.ports[f.port]).state = checkPort s.m f.port z a ∧ (t.m.ports[f.port]).faults = sat32 ((s.m.ports[f.port]).faults + 1) ∧
      (t.m.cores[k]).fld = none ∧ mainOnly s t) ∧
  (∀ (s : State) (k : Fin 16) (f : FieldRec) (lv : Nat), (s.m.cores[k]).fld = some f → f.closed = true → f.at95 = false →
    answers (.fieldAt95 k lv) s fun t => (t.m.cores[k]).levelNow = min lv f.level ∧ mainOnly s t ∧ readerOnly s.m t.m) ∧
  (∀ (s : State) (k : Fin 16), (s.m.cores[k]).state = 0 → (s.m.cores[k]).disablePend = false → answers (.driverTrip k true) s fun t =>
      (t.m.cores[k]).state = 1 ∧ (t.m.cores[k]).faultCause = 6 ∧ (t.m.cores[k]).faults = sat32 ((s.m.cores[k]).faults + 1) ∧ mainOnly s t) ∧
  (∀ (s : State) (k : Fin 16) (f : FieldRec) (v : FV), (s.m.cores[k]).fld = some f → fieldView s.m k = some v → f.closed = true →
    (s.m.cores[k]).pendOff = true → (s.m.cores[k]).busy = false → changeBlocked s.m v = false → (s.m.cores[k]).disablePend = false →
    answers (.fieldOff k) s fun t =>
      (t.m.cores[k]).portNow = none ∧ (t.m.cores[k]).levelNow = 0 ∧
      (t.m.cores[k]).fieldTicks = (s.m.cores[k]).fieldTicks + (s.m.now - f.since) ∧ mainOnly s t ∧ readerOnly s.m t.m) ∧
  (∀ (s : State) (k : Fin 16) (f : FieldRec) (v : FV) (b : Bool), (s.m.cores[k]).fld = some f → fieldView s.m k = some v → f.closed = true →
    (s.m.cores[k]).pendOff = true → (s.m.cores[k]).busy = false → changeBlocked s.m v = false → (s.m.cores[k]).disablePend = false →
    answers (.fieldChange k b) s fun t =>
      (t.m.cores[k]).portNow = none ∧ (t.m.cores[k]).levelNow = 0 ∧ mainOnly s t ∧ readerOnly s.m t.m) ∧
  (∀ (s : State) (k : Fin 16) (f : FieldRec) (b : Bool), (s.m.cores[k]).fld = some f → f.closed = true → (s.m.cores[k]).pendOff = false →
    exec (.fieldChange k b) s = .next s) ∧
  (∀ (s : State) (k : Fin 16), (s.m.cores[k]).gapHold = true →
    heldLong s.m k = false ∨ ((s.m.cores[k]).next.map (·.timed)) ≠ some true →
    exec (.gapHoldExpiry k) s = .next { s with m := modCore (count s.m 0x7040 0x07) k fun c => { c with gapHold := false } }) ∧
  (∀ (s : State) (k : Fin 16), heldLong s.m k = true → ((s.m.cores[k]).next.map (·.timed)) = some true → exec (.gapHoldExpiry k) s = .next s) ∧
  (∀ (s : State) (k : Fin 16), (s.m.cores[k]).pendChange ≠ none →
    exec (.changeWaitExpiry k) s = .next { s with m := modCore s.m k fun c => { c with changeHold := true } })

/-- Service of ports and cores (R112, R113, R116, R563).
Model choices it rests on: logs 3, 15 and 43. -/
def Obligations.PortAndCoreService : Prop :=
  (∀ (s : State) (p : Fin 128), (s.m.ports[p]).state = 2 ∨ (s.m.ports[p]).state = 3 → (s.m.ports[p]).retestEvery ≠ 0 →
    answers (.portRetestTimer p) s fun t =>
      (t.m.ports[p]).retestDue = true ∧ (t.m.ports[p]).state = (s.m.ports[p]).state ∧ mainOnly s t ∧ readerOnly s.m t.m) ∧
  (∀ (s : State) (p : Fin 128), s.m.pw.mode.isMain = true → s.m.pw.ctlDown = false → (s.m.ports[p]).state = 0 →
    anyCtx s.m (fun c => (c.st == .run || c.st == .pause) && (c.job.map (·.port)) == some p) = false →
    answers (.portEnableWrite p false) s fun t =>
      (t.m.ports[p]).state = 5 ∧ cfgN t.m (0x2200 + p.val) 0x02 = 0 ∧ mainOnly s t ∧ t.m.pw.mode = s.m.pw.mode) ∧
  (∀ (s : State) (p : Fin 128), s.m.pw.mode.isMain = true → s.m.pw.ctlDown = false → (s.m.ports[p]).state = 1 →
    answers (.portEnableWrite p false) s fun t =>
      (t.m.ports[p]).disablePend = true ∧ (t.m.ports[p]).state = 1 ∧ cfgN t.m (0x2200 + p.val) 0x02 = 0 ∧ mainOnly s t ∧ t.m.pw = s.m.pw) ∧
  (∀ (s : State) (p : Fin 128), s.m.pw.mode.isMain = true → s.m.pw.ctlDown = false → (s.m.ports[p]).state = 1 →
    (∀ k : Fin 16, ((s.m.cores[k]).fld.map (·.idle)) ≠ some true) →
    exec (.portEnableWrite p false) s = .next { s with m := modPort (cfgSet s.m (0x2200 + p.val) 0x02 0) p fun x => { x with disablePend := true } }) ∧
  (∀ (s : State) (p : Fin 128), s.m.pw.mode.isMain = false → exec (.portEnableWrite p false) s = .next s) ∧
  (∀ (s : State) (k : Fin 16) (c : Fin 7), c.val ≠ 0 → (s.m.cores[k]).state = 0 → (s.m.cores[k]).disablePend = false →
    answers (.coreFault k c) s fun t =>
      (t.m.cores[k]).state = 1 ∧ (t.m.cores[k]).faultCause = c.val ∧ (t.m.cores[k]).faults = sat32 ((s.m.cores[k]).faults + 1) ∧ mainOnly s t) ∧
  (∀ (s : State) (k : Fin 16) (c : Fin 7), c.val ≠ 0 → (s.m.cores[k]).state = 3 → (s.m.cores[k]).disablePend = false →
    answers (.coreFault k c) s fun t => (t.m.cores[k]).state = 4) ∧
  (∀ (s : State) (k : Fin 16), s.m.pw.mode.isMain = true → (s.m.cores[k]).state = 1 →
    exec (.coreSelftestStart k) s = .next { s with m := enterSelftest s.m k } ∧ ((enterSelftest s.m k).cores[k]).state = 2 ∧
      ((enterSelftest s.m k).cores[k]).portNow = none ∧ ((enterSelftest s.m k).cores[k]).holdoffDone = false) ∧
  (∀ (s : State) (k : Fin 16), s.m.pw.mode.isMain = false → (s.m.cores[k]).state = 1 →
    exec (.coreSelftestStart k) s = .next { s with m := modCore s.m k fun c => { c with holdoffDone := true } }) ∧
  (∀ (s : State) (k : Fin 16) (pass : Bool), (s.m.cores[k]).state = 2 → (s.m.cores[k]).disablePend = false →
    answers (.coreSelftestDone k pass) s fun t =>
      (t.m.cores[k]).state = (if pass then 3 else 4) ∧ mainOnly s t ∧ readerOnly s.m t.m) ∧
  (∀ (s : State) (k : Fin 16), (s.m.cores[k]).state = 3 →
    exec (.coreProbationEnd k) s = .next { s with m := modCore s.m k fun c => { c with state := 0 } }) ∧
  (∀ (s : State) (k : Fin 16), s.m.pw.mode.isMain = true → s.m.pw.ctlDown = false → (s.m.cores[k]).state = 4 → answers (.coreRelease k 0x5A#8) s fun t =>
      (t.m.cores[k]).state = 2 ∧ mainOnly s t ∧ poolOnly (enterSelftest s.m k) t.m) ∧
  (∀ (s : State) (k : Fin 16) (v : BitVec 8), v ≠ 0x5A#8 → exec (.coreRelease k v) s = .next s) ∧
  (∀ (s : State) (k : Fin 16), s.m.pw.mode.isMain = true → s.m.pw.ctlDown = false → (s.m.cores[k]).state = 5 →
    exec (.coreEnableWrite k true) s = .next { s with m := enterSelftest (cfgSet s.m (0x2100 + k.val) 0x02 1) k }) ∧
  (∀ (s : State) (k : Fin 16), s.m.pw.mode.isMain = true → s.m.pw.ctlDown = false → (s.m.cores[k]).state ≠ 5 →
    exec (.coreEnableWrite k true) s = .next { s with m := cfgSet s.m (0x2100 + k.val) 0x02 1 }) ∧
  (∀ (s : State) (k : Fin 16), s.m.pw.mode.isMain = true → s.m.pw.ctlDown = false → (s.m.cores[k]).state = 0 → (s.m.cores[k]).fld = none →
    anyCtx s.m (fun x => (x.st == .run || x.st == .pause) && x.core == some k) = false → answers (.coreEnableWrite k false) s fun t =>
      (t.m.cores[k]).state = 5 ∧ cfgN t.m (0x2100 + k.val) 0x02 = 0 ∧ mainOnly s t ∧ t.m.pw.mode = s.m.pw.mode)

/-- A frame exchange on a core (R85, R149–R157, R166–R168, R203, R208, R210). The next frame goes out between its bounds, when it fits its window; the
listen window opens on a free buffer; a reply is taken from the blanking to CLOSE when it stands above the noise; the end of a reply, an
overload in it and CLOSE without one end the exchange with their outcome.
Model choices it rests on: logs 3, 13 and 35. -/
def Obligations.FrameExchange : Prop :=
  (∀ (s : State) (k : Fin 16) (f : TxFrame) (fl : FieldRec) (n : Nat), (s.m.cores[k]).fld = some fl → (s.m.cores[k]).next = some f →
    fl.closed = true → fl.at95 = true → (s.m.cores[k]).exch = .gap → (s.m.cores[k]).pendOff = false →
    f.proto ≠ .stp ∨ (s.m.ports[fl.port]).noneWait = false → earliestFc s.m (s.m.cores[k]) f ≤ n →
    lateFrame s.m (s.m.cores[k]) f n = false → heldFrame s.m k f n = false → frameFits s.m k fl (s.m.cores[k]) f = true →
    exec (.frameStart k n) s = .next { s with m := modCore s.m k fun c =>
      { c with exch := .sending, ex := exchangeOf s.m f, frame := some f, next := none, noFit := false, chain := f.chain != .none,
               since := c.since + n, gapHold := false, txBuf := f.bytes, bufHeld := false, blind := false, timing := false } }) ∧
  (∀ (s : State) (k : Fin 16) (f : TxFrame) (n : Nat), (s.m.cores[k]).next = some f → n < earliestFc s.m (s.m.cores[k]) f →
    exec (.frameStart k n) s = .next s) ∧
  (∀ (s : State) (k : Fin 16) (f : TxFrame) (fl : FieldRec) (n : Nat), (s.m.cores[k]).fld = some fl → (s.m.cores[k]).next = some f →
    f.proto = .stp → (s.m.ports[fl.port]).noneWait = true → exec (.frameStart k n) s = .next s) ∧
  (∀ (s : State) (k : Fin 16) (f : TxFrame) (fl : FieldRec) (n : Nat), (s.m.cores[k]).fld = some fl → (s.m.cores[k]).next = some f →
    fl.closed = true → fl.at95 = true → (s.m.cores[k]).exch = .gap → (s.m.cores[k]).pendOff = false →
    f.proto ≠ .stp ∨ (s.m.ports[fl.port]).noneWait = false → earliestFc s.m (s.m.cores[k]) f ≤ n →
    lateFrame s.m (s.m.cores[k]) f n = true → answers (.frameStart k n) s fun t =>
      (t.m.cores[k]).next = none ∧ (t.m.cores[k]).exch = .gap ∧ counter t.m 0x7070 0x07 = sat32 (counter s.m 0x7070 0x07 + 1) ∧
      mainOnly s t ∧ readerOnly s.m t.m) ∧
  (∀ (s : State) (k : Fin 16) (dc : Nat) (f : TxFrame), (s.m.cores[k]).exch = .sending → (s.m.cores[k]).bufHeld = false →
    (s.m.cores[k]).frame = some f → f.silent = false →
    exec (.listenWindowOpen k dc) s = .next { s with m := modCore s.m k fun c =>
      { c with exch := .listening, lastGain := gainCode c.ex dc } }) ∧
  (∀ (s : State) (k : Fin 16) (dc : Nat), (s.m.cores[k]).bufHeld = true → exec (.listenWindowOpen k dc) s = .next s) ∧
  (∀ (s : State) (k : Fin 16) (st amp noise : Nat), (s.m.cores[k]).exch = .listening → (s.m.cores[k]).blind = false →
    (s.m.cores[k]).ex.openAt ≤ st → (s.m.cores[k]).ex.blank ≤ st → st < (s.m.cores[k]).ex.closeAt →
    detect2 noise (s.m.cores[k]).ex.margin < amp * amp → (s.m.cores[k]).ex.first ≤ st → st ≤ (s.m.cores[k]).ex.last →
    exec (.replyStartDetected k st amp noise) s = .next { s with m := modCore s.m k fun c =>
      { c with exch := .receiving, lastDelay := st, timing := false, ex := { c.ex with detect2 := detect2 noise c.ex.margin } } }) ∧
  (∀ (s : State) (k : Fin 16) (st amp noise : Nat),
    st < (s.m.cores[k]).ex.openAt ∨ st < (s.m.cores[k]).ex.blank ∨ (s.m.cores[k]).ex.closeAt ≤ st ∨
      amp * amp ≤ detect2 noise (s.m.cores[k]).ex.margin →
    exec (.replyStartDetected k st amp noise) s = .next s) ∧
  (∀ (s : State) (k : Fin 16) (st amp noise : Nat), (s.m.cores[k]).exch = .listening → (s.m.cores[k]).blind = false →
    (s.m.cores[k]).ex.openAt ≤ st → (s.m.cores[k]).ex.blank ≤ st → st < (s.m.cores[k]).ex.closeAt →
    detect2 noise (s.m.cores[k]).ex.margin < amp * amp → st < (s.m.cores[k]).ex.first ∨ (s.m.cores[k]).ex.last < st →
    (s.m.cores[k]).ex.strict = true → exec (.replyStartDetected k st amp noise) s = .next { s with
      m := modCore (count s.m 0x7050 0x05) k fun c => { c with blind := true } }) ∧
  (∀ (s : State) (k : Fin 16) (time n : Nat) (raw : RawReply), n < (s.m.cores[k]).ex.run ∨ time < (s.m.cores[k]).ex.blank →
    exec (.adcOverload k time n raw) s = .next s) ∧
  (∀ (s : State) (k : Fin 16) (f : TxFrame) (fl : FieldRec) (time n : Nat) (raw : RawReply), (s.m.cores[k]).exch = .listening →
    (s.m.cores[k]).frame = some f → (s.m.cores[k]).fld = some fl → (s.m.cores[k]).ex.run ≤ n → (s.m.cores[k]).ex.blank ≤ time →
    exec (.adcOverload k time n raw) s = .next { s with m := modCore s.m k fun c => { c with blind := true } }) ∧
  (∀ (s : State) (k : Fin 16) (f : TxFrame) (fl : FieldRec) (time n : Nat) (raw : RawReply), (s.m.cores[k]).exch = .receiving →
    (s.m.cores[k]).frame = some f → (s.m.cores[k]).fld = some fl → (s.m.cores[k]).ex.run ≤ n → (s.m.cores[k]).ex.blank ≤ time →
    answers (.adcOverload k time n raw) s fun t =>
      (t.m.cores[k]).exch = .gap ∧ (t.m.cores[k]).bufHeld = true ∧ (t.m.cores[k]).w0.toNat / 2 ^ 12 % 8 = 5 ∧ mainOnly s t ∧
      counter t.m 0x7050 0x03 = sat32 (counter s.m 0x7050 0x03 + 1)) ∧
  (∀ (s : State) (k : Fin 16) (f : TxFrame) (fl : FieldRec), (s.m.cores[k]).exch = .listening → (s.m.cores[k]).frame = some f →
    (s.m.cores[k]).fld = some fl → answers (.listenWindowClose k) s fun t =>
      (t.m.cores[k]).exch = .gap ∧ (t.m.cores[k]).bufHeld = true ∧ (f.proto = .stp → (t.m.ports[fl.port]).noneWait = true) ∧
      (t.m.cores[k]).w0.toNat / 2 ^ 12 % 8 = 1 ∧ (t.m.cores[k]).rxBuf = [] ∧ (t.m.cores[k]).lastDelay = 0xFFFF ∧ mainOnly s t ∧
      counter t.m 0x7050 0x04 = sat32 (counter s.m 0x7050 0x04 + 1)) ∧
  (∀ (s : State) (k : Fin 16) (f : TxFrame), (s.m.cores[k]).exch = .sending → (s.m.cores[k]).frame = some f → f.silent = true →
    answers (.listenWindowClose k) s fun t =>
      (t.m.cores[k]).exch = .gap ∧ (t.m.cores[k]).w0 = (s.m.cores[k]).w0 ∧ (t.m.cores[k]).rxBuf = (s.m.cores[k]).rxBuf ∧
      counter t.m 0x7050 0x04 = counter s.m 0x7050 0x04 ∧ mainOnly s t) ∧
  (∀ (s : State) (k : Fin 16) (f : TxFrame) (fl : FieldRec) (raw : RawReply) (ex : Exchange) (r : Reply), (s.m.cores[k]).frame = some f →
    (s.m.cores[k]).fld = some fl → (s.m.cores[k]).exch = .receiving → (s.m.cores[k]).ex = ex →
    r = (judge f ex (seenOf f.proto f.ret f.dual ex raw.sym)).1 → answers (.replyEnd k raw) s fun t =>
      (t.m.cores[k]).exch = .gap ∧ (t.m.cores[k]).bufHeld = true ∧ (t.m.cores[k]).rxBuf = r.data ∧
      (t.m.cores[k]).w0.toNat / 2 ^ 12 % 8 = outcomeCode r.outcome ∧ (t.m.cores[k]).lastDelay = (s.m.cores[k]).lastDelay ∧ mainOnly s t) ∧
  (∀ (s : State) (p : Fin 128), exec (.noneWaitExpiry p) s = .next { s with m := modPort s.m p fun x => { x with noneWait := false } })

/-- Burnish takes the estimates it may (R175, R180, R182–R184, R186) and waits with them for the next slot boundary.
Model choices it rests on: logs 3, 13 and 38. -/
def Obligations.BurnishEstimates : Prop :=
  (∀ (s : State) (r : BurnResult), s.m.pw.ctlDown = false → takesResult s.m r = true → exec (.burnishStepComplete [r] false) s = .next { s with m := { s.m with
    brn := { s.m.brn with waiting := (s.m.brn.waiting.filter fun x => !sameQuantity x r) ++ [r] } } }) ∧
  (∀ (s : State) (r : BurnResult), takesResult s.m r = false → exec (.burnishStepComplete [r] false) s = .next s) ∧
  (∀ s : State, s.m.pw.ctlDown = false → s.m.brn.full = 1 → s.m.brn.step ≠ 8 →
    exec (.burnishStepComplete [] true) s = .next { s with m := { s.m with brn := { s.m.brn with stepDone := true } } }) ∧
  (∀ s : State, s.m.pw.ctlDown = false → s.m.brn.full = 1 → s.m.brn.step = 8 → (allFin 128).any (retestReady s.m) = false →
    (allFin 16).any (fun k => carries s.m k .retest) = false → answers (.burnishStepComplete [] true) s fun t =>
      t.m.brn.full = 2 ∧ t.m.brn.step = 0 ∧ t.m.brn.duration = (s.m.now - s.m.brn.startAt) / tickMs ∧ mainOnly s t) ∧
  (∀ (s : State) (k : Fin 16) (i q : Int), (s.m.cores[k]).fld = none → takesResult s.m (.dcOffset k i q) = true →
    exec (.dcOffsetEstimate k i q) s = .next { s with m := { s.m with brn := { s.m.brn with
      waiting := (s.m.brn.waiting.filter fun x => !sameQuantity x (.dcOffset k i q)) ++ [.dcOffset k i q] } } }) ∧
  (∀ (s : State) (k : Fin 16) (i q : Int), (s.m.cores[k]).fld ≠ none → exec (.dcOffsetEstimate k i q) s = .next s)

/-- The dispatcher (R279, R288): a good descriptor at the head of a job queue goes to the deque of the next serving engine; a packet that is no
descriptor is discarded and counted; with stealing off the head of the deque of an engine out of service moves to a serving one.
It deals to a serving engine alone, the first after the last one dealt to that is IN_SERVICE or in PROBATION
with a deque shorter than [3100:02] (R279).
Model choices it rests on: log 38. -/
def Obligations.DispatchDeals : Prop :=
  ((∀ (s : State) (q : Fin 32) (p : Packet) (rest : List Packet) (j : Job) (e : Fin 24), engOn s.m = true → s.m.disp.stalled = [] →
    (jobQueues s.m).find? (fun x => (peekPkt s.m x).isSome) = some q → (s.m.pool.qs[q]).pkts = p :: rest → p.opened = false → p.poison = [] →
    p.type = 0x20 → 8 ≤ p.words.length → j = jobOf s.m q p.words p.closedAt (p.origin.getD s.m.lace.device) → descError s.m j = none →
    j.dev = laceDev s.m → deadlinePassed s.m j = false → nextEngine s.m (cfgN s.m 0x3100 0x02) = some e →
    answers .dispatch s fun t =>
      (t.m.engs[e]).deque = (s.m.engs[e]).deque ++ [j] ∧ (∀ i : Fin 24, i ≠ e → t.m.engs[i] = s.m.engs[i]) ∧
      (t.m.pool.qs[q]).pkts = rest ∧ (t.m.pool.qs[q]).detached = (s.m.pool.qs[q]).detached + j.cells ∧
      t.m.disp.rr = (e.val + 1) % 24 ∧ t.m.disp.jobRr = (q.val - 24 + 1) % 4 ∧
      counter t.m 0x70A0 0x01 = sat32 (counter s.m 0x70A0 0x01 + 1) ∧ mainOnly s t ∧ readerOnly s.m t.m) ∧
  (∀ (s : State) (q : Fin 32) (p : Packet) (rest : List Packet), engOn s.m = true → s.m.disp.stalled = [] →
    (jobQueues s.m).find? (fun x => (peekPkt s.m x).isSome) = some q → (s.m.pool.qs[q]).pkts = p :: rest → p.opened = false → p.poison = [] →
    p.type ≠ 0x20 ∨ p.words.length < 8 → answers .dispatch s fun t =>
      (t.m.pool.qs[q]).pkts = rest ∧ t.m.engs = s.m.engs ∧ counter t.m 0x70A0 0x06 = sat32 (counter s.m 0x70A0 0x06 + 1) ∧
      mainOnly s t ∧ readerOnly s.m t.m) ∧
  (∀ s : State, engOn s.m = false → exec .dispatch s = .next s) ∧
  (∀ (s : State) (e d : Fin 24) (j : Job) (rest : List Job), cfgN s.m 0x3100 0x03 = 0 → engServing s.m e = false → ctlOn s.m = true →
    (s.m.engs[e]).deque = j :: rest → nextEngine s.m (cfgN s.m 0x3100 0x02) = some d → answers (.dequeMove e) s fun t =>
      (t.m.engs[e]).deque = rest ∧ (t.m.engs[d]).deque = (s.m.engs[d]).deque ++ [j] ∧
      counter t.m 0x70A0 0x01 = sat32 (counter s.m 0x70A0 0x01 + 1) ∧ t.m.disp.rr = (d.val + 1) % 24 ∧ mainOnly s t ∧ readerOnly s.m t.m)) ∧
  (∀ (m : Main) (depth : Nat) (e : Fin 24), nextEngine m depth = some e →
    ((m.engs[e]).state = 0 ∨ (m.engs[e]).state = 3) ∧ (m.engs[e]).deque.length < depth ∧
    ∀ (i : Nat) (d : Fin 24), i < 24 → d.val = (m.disp.rr + i) % 24 → engServing m d = true → (m.engs[d]).deque.length < depth →
      (e.val + 24 - m.disp.rr % 24) % 24 ≤ i)

/-- The states of an engine (R287–R289, R563).
Model choices it rests on: logs 3 and 38. -/
def Obligations.EngineService : Prop :=
  (∀ (s : State) (e : Fin 24) (c : Fin 5), c.val ≠ 0 → (s.m.engs[e]).state = 0 → answers (.engineFault e c) s fun t =>
      (t.m.engs[e]).state = 1 ∧ (t.m.engs[e]).cause = c.val ∧ (t.m.engs[e]).faults = sat32 ((s.m.engs[e]).faults + 1) ∧ mainOnly s t) ∧
  (∀ (s : State) (e : Fin 24) (c : Fin 5), c.val ≠ 0 → (s.m.engs[e]).state = 3 → answers (.engineFault e c) s fun t =>
      (t.m.engs[e]).state = 4 ∧ (t.m.engs[e]).cause = c.val ∧ mainOnly s t) ∧
  (∀ (s : State) (e : Fin 24), s.m.pw.mode.isMain = true → (s.m.engs[e]).state = 1 → (s.m.engs[e]).deque = [] →
    exec (.engineSelftestStart e) s = .next { s with m := modEng s.m e fun g => { g with state := 2, holdoffDone := false } }) ∧
  (∀ (s : State) (e : Fin 24), (s.m.engs[e]).deque ≠ [] → exec (.engineSelftestStart e) s = .next s) ∧
  (∀ (s : State) (e : Fin 24) (pass : Bool), (s.m.engs[e]).state = 2 → answers (.engineSelftestDone e pass) s fun t =>
      (t.m.engs[e]).state = (if pass then 3 else 4) ∧ mainOnly s t ∧
      poolOnly (modEng s.m e fun g => { g with state := if pass then 3 else 4 }) t.m) ∧
  (∀ (s : State) (e : Fin 24), (s.m.engs[e]).state = 3 →
    exec (.engineProbationEnd e) s = .next { s with m := modEng s.m e fun g => { g with state := 0 } }) ∧
  (∀ (s : State) (e : Fin 24), s.m.pw.ctlDown = false → s.m.pw.mode.isMain = true → (s.m.engs[e]).state = 4 → answers (.engineRelease e 0x5A#8) s fun t =>
      (t.m.engs[e]).state = 2 ∧ mainOnly s t ∧ poolOnly (modEng s.m e fun g => { g with state := 2 }) t.m) ∧
  (∀ (s : State) (e : Fin 24) (v : BitVec 8), v ≠ 0x5A#8 ∨ (s.m.engs[e]).state ≠ 4 → exec (.engineRelease e v) s = .next s) ∧
  (∀ (s : State) (e : Fin 24), s.m.pw.ctlDown = false → s.m.pw.mode.isMain = true → (s.m.engs[e]).state ≠ 4 →
    exec (.engineEnableWrite e false) s = .next { s with m := modEng (cfgSet s.m (0x3000 + e.val) 0x02 0) e fun g => { g with state := 5 } }) ∧
  (∀ (s : State) (e : Fin 24), s.m.pw.ctlDown = false → s.m.pw.mode.isMain = true → (s.m.engs[e]).state = 5 →
    exec (.engineEnableWrite e true) s = .next { s with m := modEng (cfgSet s.m (0x3000 + e.val) 0x02 1) e fun g => { g with state := 2 } }) ∧
  (∀ (s : State) (e : Fin 24) (v : Bool), s.m.pw.mode.isMain = false ∨ s.m.pw.ctlDown = true → exec (.engineEnableWrite e v) s = .next s)

/-- The work of contexts (R267, R284, R294, R339): a descriptor is taken from the head of the own deque or stolen from the tail of the longest
other one, and waits for its grant; a sweep removes expired descriptors; the run limit ends a stitch, at once or after the exchange in progress; a stalled result goes on.
Model choices it rests on: logs 3 and 38. -/
def Obligations.EngineWork : Prop :=
  (∀ (s : State) (e : Fin 24) (c : Fin 2) (j : Job) (rest : List Job), s.m.pw.mode = .transact ∨ s.m.pw.mode = .emulate →
    engServing s.m e = true → (ctxOf s.m e c).st = .idle → (s.m.engs[e]).deque = j :: rest → j.bad = false → s.m.sch.reqs = [] →
    s.m.pw.vtxHold = true → (s.m.ports[j.port]).state < 2 → deadlinePassed s.m j = false → answers (.contextTake e c) s fun t =>
      (ctxOf t.m e c).st = .wait ∧ (ctxOf t.m e c).job = some j ∧ (t.m.engs[e]).deque = rest ∧
      t.m.sch.reqs.map (fun r => (r.owner, r.port, r.cls, r.made)) = [(.ctx e c, j.port, 2, s.m.now)] ∧ mainOnly s t ∧ readerOnly s.m t.m) ∧
  (∀ (s : State) (e : Fin 24) (c : Fin 2), (s.m.engs[e]).deque = [] ∨ (s.m.pw.mode ≠ .transact ∧ s.m.pw.mode ≠ .emulate) →
    exec (.contextTake e c) s = .next s) ∧
  (∀ (s : State) (e v : Fin 24) (c : Fin 2) (j : Job), s.m.pw.mode = .transact ∨ s.m.pw.mode = .emulate → cfgN s.m 0x3100 0x03 ≠ 0 →
    engServing s.m e = true → (ctxOf s.m e c).st = .idle → (s.m.engs[e]).deque = [] → v ≠ e →
    (∀ w : Fin 24, w ≠ e → w ≠ v → (s.m.engs[w]).deque.length < (s.m.engs[v]).deque.length ∨
      ((s.m.engs[w]).deque.length = (s.m.engs[v]).deque.length ∧ v.val < w.val)) →
    (s.m.engs[v]).deque.getLast? = some j → j.bad = false → s.m.sch.reqs = [] → s.m.pw.vtxHold = true → (s.m.ports[j.port]).state < 2 →
    deadlinePassed s.m j = false → answers (.steal e c) s fun t =>
      (ctxOf t.m e c).st = .wait ∧ (ctxOf t.m e c).job = some j ∧ (t.m.engs[v]).deque = (s.m.engs[v]).deque.dropLast ∧
      (t.m.engs[v]).robbed = sat32 ((s.m.engs[v]).robbed + 1) ∧ (t.m.engs[e]).stole = sat32 ((s.m.engs[e]).stole + 1) ∧
      mainOnly s t ∧ readerOnly s.m t.m) ∧
  (∀ s : State, ctlOn s.m = true → answers .dequeDeadlineSweep s fun t =>
      (∀ e : Fin 24, (t.m.engs[e]).deque = (s.m.engs[e]).deque.filter fun j => !deadlinePassed s.m j) ∧ mainOnly s t ∧ readerOnly s.m t.m) ∧
  (∀ (s : State) (e : Fin 24) (c : Fin 2) (j : Job) (k : Fin 16), (ctxOf s.m e c).job = some j → (ctxOf s.m e c).core = some k →
    j.opcode ≠ 8 → (ctxOf s.m e c).st = .pause ∨ ((ctxOf s.m e c).st = .run ∧ (ctxOf s.m e c).told = false ∧ ((ctxOf s.m e c).lost = true ∨
      ((ctxOf s.m e c).sc.inbox = none ∧ (ctxOf s.m e c).sc.live = false))) → answers (.runLimitExpiry e c) s fun t =>
      ((ctxOf t.m e c).st = .idle ∨ (ctxOf t.m e c).st = .result) ∧ (∀ r ∈ t.m.sch.reqs, r.owner ≠ .ctx e c) ∧ mainOnly s t ∧
      readerOnly s.m t.m) ∧
  (∀ (s : State) (e : Fin 24) (c : Fin 2) (j : Job) (k : Fin 16) (f : FieldRec) (g : TxFrame), (ctxOf s.m e c).job = some j →
    (ctxOf s.m e c).core = some k → j.opcode ≠ 8 → (ctxOf s.m e c).st = .run → (ctxOf s.m e c).lost = false → (ctxOf s.m e c).sc.live = true →
    (ctxOf s.m e c).sc.inbox = none → (ctxOf s.m e c).sc.want = some g → g.skip = false → (s.m.cores[k]).fld = some f → f.owner = .ctx e c →
    (s.m.cores[k]).pendOff = false → planAllows s.m k f.port f.cls = true →
    if (s.m.cores[k]).exch = .gap ∧ (s.m.cores[k]).chain = false then answers (.runLimitExpiry e c) s fun t =>
      ((ctxOf t.m e c).st = .idle ∨ (ctxOf t.m e c).st = .result) ∧ (∀ r ∈ t.m.sch.reqs, r.owner ≠ .ctx e c) ∧ mainOnly s t ∧ readerOnly s.m t.m
    else exec (.runLimitExpiry e c) s = .next { s with m := modCtx s.m e c fun x => { x with limit := true } }) ∧
  (∀ (s : State) (e : Fin 24) (c : Fin 2) (j : Job), (ctxOf s.m e c).job = some j → j.opcode = 8 → exec (.runLimitExpiry e c) s = .next s) ∧
  (∀ (s : State) (e : Fin 24) (c : Fin 2) (j : Job), (ctxOf s.m e c).st = .result → (ctxOf s.m e c).stalled = true →
    (ctxOf s.m e c).job = some j → (ctxOf s.m e c).outPkt ≠ 0 → (ctxOf s.m e c).out ≠ [] →
    (ctxOf s.m e c).out.length ≤ roomOf s.m (resultOut s.m j []).1 (ctxOf s.m e c).outPkt (ctxOf s.m e c).out.length →
    answers (.resultStallResume e c) s fun t =>
      ctxOf t.m e c = {} ∧ (t.m.engs[e]).done = sat32 ((s.m.engs[e]).done + 1) ∧ mainOnly s t ∧ readerOnly s.m t.m)

/-- The result of a stitch (R274, R276): a PROBE that runs writes a packet of type 0x21 and source 0x40 + n whose first four words have the layout of
R274 and whose body holds its two words of measurements.
Model choices it rests on: logs 13 and 38. -/
def Obligations.ResultLayout : Prop :=
  ∀ (s : State) (e : Fin 24) (c : Fin 2) (j : Job) (k : Fin 16) (f : FieldRec) (zMag : Nat) (zArg : Int) (level noise : Nat),
    stitchRuns s.m e c j k f → (s.m.cores[k]).exch = .gap → (s.m.cores[k]).chain = false → j.opcode = 12 → j.origin.val = laceDev s.m → roomFor s.m j.rqueue 6 →
    answers (.stitchProbe e c zMag zArg level noise) s fun t =>
      delivered t.m j.rqueue 0x21 (0x40 + e.val)
        [BitVec.ofNat 32 (12 * 2 ^ 8 + j.proto * 2 ^ 12 + j.port.val * 2 ^ 16 + j.dev * 2 ^ 23 + e.val * 2 ^ 25 + c.val * 2 ^ 30),
         BitVec.ofNat 32 (j.tag + k.val * 2 ^ 24 + 2 ^ 28), BitVec.ofNat 32 (phaseNow s.m + s.m.ph.cycle % 2 ^ 16 * 2 ^ 16),
         BitVec.ofNat 32 ((s.m.now - (ctxOf s.m e c).startAt) / 400), BitVec.ofNat 32 (zMag % 2 ^ 16 + (zArg % 65536).toNat * 2 ^ 16),
         BitVec.ofNat 32 (level % 2 ^ 8 + noise % 2 ^ 8 * 2 ^ 8)] ∧
      ctxOf t.m e c = {} ∧ (t.m.engs[e]).done = sat32 ((s.m.engs[e]).done + 1) ∧ mainOnly s t ∧ readerOnly s.m t.m

/-- The first frame of an STP stitch (R201, R217, R223, R233, R281): SINGLE, or SEEK with its `Q`, or RELEASE of every fob; off the port's
default subcarrier the broadcast SET_LINK goes first. The frame that follows a reply: READ of as many records as the fob's reply holds, COMMIT
with the token of ARM, AUTH1 with a free `RA`, AUTH2 with AES(RB ‖ RA).
Model choices it rests on: logs 1 and 20. -/
def Obligations.StpFrames : Prop :=
  (∀ (s : State) (e : Fin 24) (c : Fin 2) (j : Job) (k : Fin 16) (f : FieldRec), stitchRuns s.m e c j k f → mayGoOn s.m e c k f →
    j.opcode ≤ 6 → answers (stitchCommand j.opcode e c false) s fun t =>
      handed t.m k (
        if f.sub8 ≠ bitAt j.port.val 3 then stpBytes j.port.val false 0x04 [0xFF, 0xFF, if f.sub8 then 4 else 0]
        else if j.opcode = 0 then stpBytes j.port.val false 0x01 [byte ((if j.byteA = 0xFF then atStart s.m e c 0x2500 0x01 else j.byteA) % 16)]
        else if j.opcode = 5 ∧ j.uid = 0 then stpBytes j.port.val false 0x09 [2]
        else stpBytes j.port.val false 0x02 []) ∧
      (ctxOf t.m e c).st = .run ∧ mainOnly s t ∧ readerOnly s.m t.m) ∧
  (∀ (s : State) (e : Fin 24) (c : Fin 2) (j : Job) (k : Fin 16) (f : FieldRec) (a : Nat) (r₀ r : Reply),
    stitchReads s.m e c j k (begun (ctxOf s.m e c).sc j.port a r₀) r → mayGoOn s.m e c k f → (s.m.cores[k]).chain = false → plainJob s.m j →
    j.opcode = 2 → 1 ≤ j.byteB → goodReply r 12 → j.uid = 0 ∨ j.uid = replyUid r → answers (.stitchRead e c false) s fun t =>
      handed t.m k (stpBytes j.port.val false 0x05
        ((r.data.drop 9).take 2 ++ [byte j.byteA, byte (min j.byteB (field (r.at_ 11) 4 4 + 1))])) ∧
      (ctxOf t.m e c).st = .run ∧ mainOnly s t ∧ readerOnly s.m t.m) ∧
  (∀ (s : State) (e : Fin 24) (c : Fin 2) (j : Job) (k : Fin 16) (f : FieldRec) (a b d : Nat) (r₀ r₁ r₂ : Reply),
    stitchReads s.m e c j k (begun (ctxOf s.m e c).sc j.port a r₀ ++ [.reply r₁, .num b, .num d]) r₂ → mayGoOn s.m e c k f → (s.m.cores[k]).chain = true →
    plainJob s.m j → j.opcode = 3 → 1 ≤ j.byteB → atStart s.m e c 0x2500 0x05 ≠ 0 → atStart s.m e c 0x2500 0x07 ≠ 0 → goodReply r₁ 12 →
    j.uid = 0 ∨ j.uid = replyUid r₁ → goodReply r₂ 4 → atStart s.m e c 0x2500 0x06 ≤ r₂.at_ 1 → answers (.stitchWrite e c false) s fun t =>
      handed t.m k (stpBytes j.port.val false 0x07
        ((r₁.data.drop 9).take 2 ++ (r₁.data.drop 1).take 4 ++ (r₂.data.drop 2).take 2)) ∧
      (ctxOf t.m e c).st = .run ∧ mainOnly s t ∧ readerOnly s.m t.m) ∧
  (∀ (s : State) (e : Fin 24) (c : Fin 2) (j : Job) (k : Fin 16) (f : FieldRec) (a : Nat) (r₀ r : Reply) (key : BitVec 128),
    stitchReads s.m e c j k (begun (ctxOf s.m e c).sc j.port a r₀) r → mayGoOn s.m e c k f → (s.m.cores[k]).chain = false → plainJob s.m j →
    j.opcode = 6 → goodReply r 12 → j.uid = 0 ∨ j.uid = replyUid r → s.keys.fobKeys[finOf 8 (field j.w5.toNat 0 3)] = some key →
    answers (.stitchAuth e c false) s fun t =>
      handed t.m k (stpBytes j.port.val false 0x0A
        ((r.data.drop 9).take 2 ++ [byte (field j.w5.toNat 8 2)] ++ leBytes 8 (Config.free s.m.freeCtr).toNat)) ∧
      (ctxOf t.m e c).st = .run ∧ mainOnly s t ∧ airOnly s.m t.m) ∧
  (∀ (s : State) (e : Fin 24) (c : Fin 2) (j : Job) (k : Fin 16) (f : FieldRec) (a b d ra : Nat) (r₀ r₁ r₂ : Reply) (key : BitVec 128),
    stitchReads s.m e c j k (begun (ctxOf s.m e c).sc j.port a r₀ ++ [.reply r₁, .num b, .num key.toNat, .num ra, .num d]) r₂ → mayGoOn s.m e c k f →
    (s.m.cores[k]).chain = false → plainJob s.m j → j.opcode = 6 → goodReply r₁ 12 → j.uid = 0 ∨ j.uid = replyUid r₁ →
    s.keys.fobKeys[finOf 8 (field j.w5.toNat 0 3)] = some key → bitAt (atStart s.m e c 0x2500 0x18) (field j.w5.toNat 0 3) = false →
    goodReply r₂ 17 → (aes128Inv key ((r₂.data.drop 1).take 16)).take 8 = leBytes 8 ra → answers (.stitchAuth e c false) s fun t =>
      handed t.m k (stpBytes j.port.val false 0x0B
        ((r₁.data.drop 9).take 2 ++ aes128 key ((aes128Inv key ((r₂.data.drop 1).take 16)).drop 8 ++ leBytes 8 ra))) ∧
      (ctxOf t.m e c).st = .run ∧ mainOnly s t ∧ readerOnly s.m t.m)

/-- STP stitches whose exchanges all succeed end `OK`, with the bodies of R276 (R273, R281). SEEK with one slot and one fob; SINGLE_READ and READ of
records that one exchange carries; WRITE of one record without read-back; QUIET, RELEASE and AUTH of the fob acquired; RAW.
Model choices it rests on: log 20. -/
def Obligations.StpStitches : Prop :=
  ∀ (s : State) (e : Fin 24) (c : Fin 2) (j : Job) (k : Fin 16) (a b d : Nat) (r₀ : Reply), plainJob s.m j →
  (∀ r₁ r₂ : Reply, j.opcode = 0 → j.byteA = 0 → stitchReads s.m e c j k (begun (ctxOf s.m e c).sc j.port a r₀ ++ [.reply r₁]) r₂ →
    atStart s.m e c 0x2500 0x02 ≠ 0 → goodReply r₁ 3 → r₁.captured = false → goodReply r₂ 12 →
    roomFor s.m j.rqueue 8 → answers (.stitchSeek e c false) s fun t =>
      resultOf s t e c j k 0 0 false (BitVec.ofNat 32 1 :: fobRecord (replyUid r₂) (r₂.at_ 9) r₁.rssi (r₂.at_ 11) r₁.bind false) ∧
      readerOnly s.m t.m) ∧
  (∀ r₁ r₂ : Reply, j.opcode = 1 → stitchReads s.m e c j k (begun (ctxOf s.m e c).sc j.port a r₀ ++ [.reply r₁, .num b, .num d]) r₂ → 1 ≤ j.byteB →
    goodReply r₁ 12 → j.byteB ≤ field (r₁.at_ 11) 4 4 + 1 → goodReply r₂ (1 + 16 * j.byteB) →
    roomFor s.m j.rqueue (7 + (packWords ((r₂.data.drop 1).take (16 * j.byteB))).length) →
    answers (.stitchSingleRead e c false) s fun t =>
      resultOf s t e c j k 0 0 false
        (fobRecord (replyUid r₁) (r₁.at_ 11) r₁.rssi 0xFF r₁.bind false ++ packWords ((r₂.data.drop 1).take (16 * j.byteB))) ∧
      readerOnly s.m t.m) ∧
  (∀ r₁ r₂ : Reply, j.opcode = 2 → stitchReads s.m e c j k (begun (ctxOf s.m e c).sc j.port a r₀ ++ [.reply r₁, .num b, .num d]) r₂ → 1 ≤ j.byteB →
    goodReply r₁ 12 → j.uid = 0 ∨ j.uid = replyUid r₁ → j.byteB ≤ field (r₁.at_ 11) 4 4 + 1 → goodReply r₂ (1 + 16 * j.byteB) →
    roomFor s.m j.rqueue (7 + (packWords ((r₂.data.drop 1).take (16 * j.byteB))).length) →
    answers (.stitchRead e c false) s fun t =>
      resultOf s t e c j k 0 0 false
        (fobRecord (replyUid r₁) (r₁.at_ 11) r₁.rssi 0xFF r₁.bind false ++ packWords ((r₂.data.drop 1).take (16 * j.byteB))) ∧
      readerOnly s.m t.m) ∧
  (∀ r₁ r₂ r₃ : Reply, j.opcode = 3 → j.byteB = 1 →
    stitchReads s.m e c j k (begun (ctxOf s.m e c).sc j.port a r₀ ++ [.reply r₁, .num b, .num d, .reply r₂]) r₃ → atStart s.m e c 0x2500 0x05 ≠ 0 →
    atStart s.m e c 0x2500 0x07 ≠ 0 → atStart s.m e c 0x2500 0x08 ≠ 1 → goodReply r₁ 12 → j.uid = 0 ∨ j.uid = replyUid r₁ →
    goodReply r₂ 4 → atStart s.m e c 0x2500 0x06 ≤ r₂.at_ 1 → goodReply r₃ 4 → (s.m.cores[k]).chain = false →
    roomFor s.m j.rqueue 8 → answers (.stitchWrite e c false) s fun t =>
      resultOf s t e c j k 0 0 false
        (fobRecord (replyUid r₁) (r₁.at_ 11) r₁.rssi (r₂.at_ 1) r₁.bind false ++
          [BitVec.ofNat 32 (j.byteA % 2 ^ 8 + r₃.at_ 3 % 2 ^ 8 * 2 ^ 16 + if bitAt (r₃.at_ 2) 0 then 2 ^ 24 else 0)]) ∧
      counter t.m 0x7080 0x04 = sat32 (counter s.m 0x7080 0x04 + 1) ∧ readerOnly s.m t.m) ∧
  (∀ r₁ r₂ : Reply, j.opcode = 4 → stitchReads s.m e c j k (begun (ctxOf s.m e c).sc j.port a r₀ ++ [.reply r₁, .num b, .num d]) r₂ → goodReply r₁ 12 →
    j.uid = 0 ∨ j.uid = replyUid r₁ → goodReply r₂ 1 → roomFor s.m j.rqueue 7 → answers (.stitchQuiet e c false) s fun t =>
      resultOf s t e c j k 0 0 false (fobRecord (replyUid r₁) (r₁.at_ 11) r₁.rssi 0xFF r₁.bind false) ∧ readerOnly s.m t.m) ∧
  (∀ r : Reply, j.opcode = 5 → stitchReads s.m e c j k (begun (ctxOf s.m e c).sc j.port a r₀) r → j.uid = 0 → roomFor s.m j.rqueue 4 →
    answers (.stitchRelease e c false) s fun t => resultOf s t e c j k 0 0 false [] ∧ readerOnly s.m t.m) ∧
  (∀ r₁ r₂ : Reply, j.opcode = 5 → stitchReads s.m e c j k (begun (ctxOf s.m e c).sc j.port a r₀ ++ [.reply r₁, .num b, .num d]) r₂ → j.uid ≠ 0 →
    goodReply r₁ 12 → j.uid = replyUid r₁ → goodReply r₂ 1 → roomFor s.m j.rqueue 4 →
    answers (.stitchRelease e c false) s fun t => resultOf s t e c j k 0 0 false [] ∧ readerOnly s.m t.m) ∧
  (∀ (r₁ r₂ r₃ : Reply) (key : BitVec 128) (d₂ ra : Nat), j.opcode = 6 →
    stitchReads s.m e c j k (begun (ctxOf s.m e c).sc j.port a r₀ ++ [.reply r₁, .num b, .num key.toNat, .num ra, .num d, .reply r₂, .num d₂]) r₃ →
    goodReply r₁ 12 → j.uid = 0 ∨ j.uid = replyUid r₁ → s.keys.fobKeys[finOf 8 (field j.w5.toNat 0 3)] = some key →
    bitAt (atStart s.m e c 0x2500 0x18) (field j.w5.toNat 0 3) = false → goodReply r₂ 17 →
    (aes128Inv key ((r₂.data.drop 1).take 16)).take 8 = leBytes 8 ra → goodReply r₃ 1 →
    roomFor s.m j.rqueue 7 → answers (.stitchAuth e c false) s fun t =>
      resultOf s t e c j k 0 0 false (fobRecord (replyUid r₁) (r₁.at_ 11) r₁.rssi 0xFF r₁.bind false) ∧
      counter t.m 0x7080 0x0A = sat32 (counter s.m 0x7080 0x0A + 1) ∧ readerOnly s.m t.m) ∧
  (∀ r : Reply, j.opcode = 13 → stitchReads s.m e c j k (if j.kind = .stp then begun (ctxOf s.m e c).sc j.port a r₀ ++ [.num b] else [.num b]) r →
    r.outcome = .ok → roomFor s.m j.rqueue (6 + (packWords r.data).length) → answers (.stitchRaw e c false) s fun t =>
      resultOf s t e c j k 0 0 false ((statusWords r).1 :: (statusWords r).2 :: packWords r.data) ∧
      counter t.m 0x7090 0x0A = (if j.proto = 0 then counter s.m 0x7090 0x0A else sat32 (counter s.m 0x7090 0x0A + 1)) ∧
      readerOnly s.m t.m)

/-- A fob that does not answer (R139, R167, R275, R281): without a reply to the acquiring exchange, and without the claim repeat of [2300:0A], a
QUIET ends `NO_TAG`, `DETAIL` 1; with it the SINGLE goes again with its claim flag set; a fob that answers with another UID gives `DETAIL` 2;
one that stops answering gives `TIMEOUT`; a parity error in the words that the engine reads gives `CRC_FAIL`, `DETAIL` 7.
A window that closes between exchanges pauses the stitch (R85, R267, R290): it keeps its engine, its context and its core and asks for
that core again; a fob whose handle was lost is acquired again on the same field (R283).
Model choices it rests on: log 20. -/
def Obligations.FobsThatFailAndPauses : Prop :=
  (∀ (s : State) (e : Fin 24) (c : Fin 2) (j : Job) (k : Fin 16) (a b d : Nat) (r₀ : Reply), plainJob s.m j → j.opcode = 4 →
    roomFor s.m j.rqueue 7 →
  (∀ r : Reply, stitchReads s.m e c j k (begun (ctxOf s.m e c).sc j.port a r₀) r → r.outcome = .none → cfgN s.m 0x2300 0x0A ≠ 1 →
    answers (.stitchQuiet e c false) s fun t => resultOf s t e c j k 1 1 false [] ∧ readerOnly s.m t.m) ∧
  (∀ (f : FieldRec) (r : Reply), stitchReads s.m e c j k (begun (ctxOf s.m e c).sc j.port a r₀) r → mayGoOn s.m e c k f → (s.m.cores[k]).chain = false →
    r.outcome = .none → cfgN s.m 0x2300 0x0A = 1 → answers (.stitchQuiet e c false) s fun t =>
      handed t.m k (stpBytes j.port.val true 0x02 []) ∧ counter t.m 0x7040 0x08 = sat32 (counter s.m 0x7040 0x08 + 1) ∧ mainOnly s t ∧
      readerOnly s.m t.m) ∧
  (∀ r : Reply, stitchReads s.m e c j k (begun (ctxOf s.m e c).sc j.port a r₀) r → goodReply r 12 → j.uid ≠ 0 → j.uid ≠ replyUid r →
    answers (.stitchQuiet e c false) s fun t => resultOf s t e c j k 1 2 false [] ∧ readerOnly s.m t.m) ∧
  (∀ r₁ r₂ : Reply, stitchReads s.m e c j k (begun (ctxOf s.m e c).sc j.port a r₀ ++ [.reply r₁, .num b, .num d]) r₂ → goodReply r₁ 12 →
    j.uid = 0 ∨ j.uid = replyUid r₁ → r₂.outcome = .none → answers (.stitchQuiet e c false) s fun t =>
      resultOf s t e c j k 4 0 true (fobRecord (replyUid r₁) (r₁.at_ 11) r₁.rssi 0xFF r₁.bind false) ∧ readerOnly s.m t.m) ∧
  (∀ (r₁ r₂ : Reply) (g : TxFrame), stitchReads s.m e c j k (begun (ctxOf s.m e c).sc j.port a r₀ ++ [.reply r₁, .num b, .num d]) r₂ → goodReply r₁ 12 →
    j.uid = 0 ∨ j.uid = replyUid r₁ → (s.m.cores[k]).frame = some g → g.silent = false → (s.m.cores[k]).parityAt = [] →
    answers (.stitchQuiet e c true) s fun t =>
      resultOf s t e c j k 3 7 true (fobRecord (replyUid r₁) (r₁.at_ 11) r₁.rssi 0xFF r₁.bind false) ∧
      (t.m.cores[k]).parityAt = [s.m.now] ∧ readerOnly s.m t.m)) ∧
  (∀ (s : State) (e : Fin 24) (c : Fin 2) (j : Job) (k : Fin 16) (f : FieldRec) (g : TxFrame) (b : Bool), (ctxOf s.m e c).st = .run →
    (ctxOf s.m e c).job = some j → (ctxOf s.m e c).core = some k → (ctxOf s.m e c).lost = false → (ctxOf s.m e c).sc.live = true →
    (ctxOf s.m e c).sc.inbox = none → (ctxOf s.m e c).sc.want = some g → g.skip = false → (s.m.cores[k]).fld = some f → f.owner = .ctx e c →
    (s.m.cores[k]).exch = .gap → (s.m.cores[k]).chain = false → planAllows s.m k f.port f.cls = false →
    j.opcode ≤ 13 → j.opcode ≠ 8 → j.opcode ≠ 12 → (s.m.ports[j.port]).session = none → (∀ r ∈ s.m.sch.reqs, r.owner ≠ .ctx e c) →
    answers (stitchCommand j.opcode e c b) s fun t =>
      (ctxOf t.m e c).st = .pause ∧ (ctxOf t.m e c).job = some j ∧ (ctxOf t.m e c).core = some k ∧
      (ctxOf t.m e c).sc.base.acquired = (ctxOf s.m e c).sc.prog.acquired ∧ (ctxOf t.m e c).sc.base.recs = (ctxOf s.m e c).sc.prog.recs ∧
      (∃ r ∈ t.m.sch.reqs, r.owner = .ctx e c ∧ r.pinned = some k ∧ r.paused = true ∧ r.port = j.port ∧ r.made = s.m.now) ∧
      (t.m.cores[k]).pendOff = true ∧ mainOnly s t ∧ readerOnly s.m t.m) ∧
  (∀ (s : State) (e : Fin 24) (c : Fin 2) (j : Job) (k : Fin 16) (f : FieldRec),
    (ctxOf s.m e c).st = .run → (ctxOf s.m e c).job = some j → (ctxOf s.m e c).core = some k → (ctxOf s.m e c).lost = true →
    (ctxOf s.m e c).told = false → (ctxOf s.m e c).sc.prog.acquired = true → mayGoOn s.m e c k f → f.at95 = true →
    f.sub8 = bitAt j.port.val 3 → (s.m.cores[k]).exch = .gap → (s.m.cores[k]).chain = false → j.opcode = 2 ∨ j.opcode = 3 ∨ j.opcode = 4 →
    answers (.handleLostReacquire e c) s fun t =>
      (ctxOf t.m e c).st = .run ∧ (ctxOf t.m e c).lost = false ∧ handed t.m k (stpBytes j.port.val false 0x02 []) ∧
      counter t.m 0x70A0 0x09 = sat32 (counter s.m 0x70A0 0x09 + 1) ∧ mainOnly s t ∧ readerOnly s.m t.m) ∧
  (∀ (s : State) (e : Fin 24) (c : Fin 2), (ctxOf s.m e c).st ≠ .run ∨ (ctxOf s.m e c).lost = false →
    exec (.handleLostReacquire e c) s = .next s)

/-- ISO/IEC 14443 and 15693 stitches and the ends of a session (R251, R255, R256, R258–R261, R276).
Model choices it rests on: log 22. -/
def Obligations.IsoStitches : Prop :=
  (∀ (s : State) (e : Fin 24) (c : Fin 2) (j : Job) (k : Fin 16), j.origin.val = laceDev s.m →
    (∀ (r₁ r₂ : Reply) (v : Nat), noDisable s.m j.port → j.opcode = 7 → j.proto = 2 → j.byteB ≠ 0 → stitchReads s.m e c j k [.reply r₁, .num v] r₂ →
      r₁.outcome = .ok → 12 ≤ r₁.data.length → bitAt (r₁.at_ 10) 0 = true → r₂.outcome = .ok →
      roomFor s.m j.rqueue (9 + (packWords r₁.data).length) → answers (.stitchIsoActivate e c false) s fun t =>
        (∃ x, (t.m.ports[j.port]).session = some x ∧ x.proto = .typeB ∧ x.core = k ∧ x.uid = (r₁.data.drop 1).take 4 ∧ x.blockNo = false ∧
          x.fwd = v % 4 ∧ x.ret = v / 4 ∧ x.fsc = frameSize (r₁.at_ 10 / 16) ∧ x.fwi = fwiOf (some (r₁.at_ 11 / 16))) ∧
        counter t.m 0x7090 0x01 = sat32 (counter s.m 0x7090 0x01 + 1) ∧ ctxOf t.m e c = {} ∧ mainOnly s t ∧ readerOnly s.m t.m) ∧
    (∀ r₀ r₁ r₂ : Reply, noDisable s.m j.port → j.opcode = 7 → j.proto = 1 → stitchReads s.m e c j k [.reply r₀, .reply r₁] r₂ → r₀.outcome = .ok →
      r₁.outcome = .ok → r₁.data.length = 5 → r₁.lastbits = 0 → r₁.data.foldl (· ^^^ ·) 0 = (0 : Byte) → r₂.outcome = .ok → r₂.data ≠ [] →
      bitAt (r₂.at_ 0) 2 = false → bitAt (r₂.at_ 0) 5 = false → roomFor s.m j.rqueue 9 → answers (.stitchIsoActivate e c false) s fun t =>
        resultOf s t e c j k 0 0 false
          ([BitVec.ofNat 32 (4 + r₂.at_ 0 * 2 ^ 8 + 0x30 * 2 ^ 16)] ++ packWords (r₁.data.take 4) ++ [0, 0, 0]) ∧
        (t.m.ports[j.port]).session = (s.m.ports[j.port]).session ∧ readerOnly s.m t.m) ∧
    (∀ r : Reply, noDisable s.m j.port → j.opcode = 7 → j.proto = 1 ∨ (j.proto = 2 ∧ j.byteB = 1) → stitchReads s.m e c j k [] r → r.outcome = .none →
      roomFor s.m j.rqueue 4 → answers (.stitchIsoActivate e c false) s fun t =>
        resultOf s t e c j k 1 1 false [] ∧ counter t.m 0x7090 0x02 = sat32 (counter s.m 0x7090 0x02 + 1) ∧
        (t.m.ports[j.port]).session = (s.m.ports[j.port]).session ∧ readerOnly s.m t.m) ∧
    (∀ (x : Session) (r : Reply), noDisable s.m j.port → j.opcode = 8 → (s.m.ports[j.port]).session = some x → j.close = false → stitchReads s.m e c j k [] r →
      4 ≤ x.fsc → 1 ≤ field j.w3.toNat 0 16 → field j.w3.toNat 0 16 ≤ x.fsc - 3 → r.outcome = .ok → r.data ≠ [] →
      r.at_ 0 = (if x.blockNo then 3 else 2) → r.data.length - 1 ≤ respRoom s.m j →
      roomFor s.m j.rqueue (5 + (packWords (r.data.drop 1)).length) → answers (.stitchIsoApdu e c false) s fun t =>
        resultOf s t e c j k 0 0 false (BitVec.ofNat 32 (r.data.length - 1) :: packWords (r.data.drop 1)) ∧
        (t.m.ports[j.port]).session = some { x with blockNo := !x.blockNo, sfgt := 0 } ∧ readerOnly s.m t.m) ∧
    (∀ (x : Session) (r : Reply), j.opcode = 8 → (s.m.ports[j.port]).session = some x → stitchReads s.m e c j k [.lost] r →
      roomFor s.m j.rqueue 4 → answers (.stitchIsoApdu e c false) s fun t =>
        resultOf s t e c j k 4 0 false [] ∧ (t.m.ports[j.port]).session = none ∧ readerOnly s.m t.m) ∧
    (∀ r : Reply, j.opcode = 9 → field j.byteB 1 2 = 2 → stitchReads s.m e c j k [] r → atStart s.m e c 0x2500 0x02 ≠ 0 → r.outcome = .ok →
      10 ≤ r.data.length → bitAt (r.at_ 0) 0 = false → roomFor s.m j.rqueue 8 → answers (.stitchVInventory e c false) s fun t =>
        resultOf s t e c j k 0 0 false
          [BitVec.ofNat 32 1, BitVec.ofNat 32 (leNat ((r.data.drop 2).take 8)), BitVec.ofNat 32 (leNat ((r.data.drop 2).take 8) / 2 ^ 32),
           BitVec.ofNat 32 (r.at_ 1)] ∧ readerOnly s.m t.m) ∧
    (∀ r : Reply, j.opcode = 10 → j.byteB = 1 → bitAt j.w5.toNat 0 = false → bitAt j.w5.toNat 1 = false → stitchReads s.m e c j k [] r →
      r.outcome = .ok → bitAt (r.at_ 0) 0 = false → r.data.length ≤ 256 →
      roomFor s.m j.rqueue (5 + (packWords (r.data.drop 1)).length) → answers (.stitchVRead e c false) s fun t =>
        resultOf s t e c j k 0 0 false (BitVec.ofNat 32 (r.data.length - 1 + 2 ^ 8) :: packWords (r.data.drop 1)) ∧ readerOnly s.m t.m) ∧
    (∀ r : Reply, j.opcode = 10 → j.byteB ≠ 0 → bitAt j.w5.toNat 0 = false → stitchReads s.m e c j k [] r →
      r.outcome = .ok → bitAt (r.at_ 0) 0 = true → r.at_ 1 ≠ 0 → roomFor s.m j.rqueue 5 → answers (.stitchVRead e c false) s fun t =>
        resultOf s t e c j k 6 0x10 true [BitVec.ofNat 32 (r.at_ 1 * 2 ^ 16)] ∧ readerOnly s.m t.m) ∧
    (∀ r : Reply, j.opcode = 11 → j.byteB = 1 → bitAt j.w5.toNat 0 = false → bitAt j.w5.toNat 1 = false → stitchReads s.m e c j k [] r →
      atStart s.m e c 0x2500 0x05 ≠ 0 → r.outcome = .ok → bitAt (r.at_ 0) 0 = false → roomFor s.m j.rqueue 5 →
      answers (.stitchVWrite e c false) s fun t =>
        resultOf s t e c j k 0 0 false [BitVec.ofNat 32 (j.byteA % 2 ^ 8)] ∧ readerOnly s.m t.m)) ∧
  (∀ (s : State) (e : Fin 24) (c : Fin 2) (j : Job) (k : Fin 16) (f : FieldRec), stitchRuns s.m e c j k f → mayGoOn s.m e c k f →
    j.opcode = 7 → j.proto = 1 → answers (.stitchIsoActivate e c false) s fun t =>
      handed t.m k [if j.req then 0x26 else 0x52] ∧ (∃ g, (t.m.cores[k]).next = some g ∧ g.bits = 7 ∧ g.proto = .typeA) ∧ mainOnly s t ∧
      readerOnly s.m t.m) ∧
  (∀ (s : State) (p : Fin 128) (x : Session) (f : FieldRec), (s.m.ports[p]).session = some x → (s.m.cores[x.core]).fld = some f →
    f.idle = true → f.port = p → x.closing = false → answers (.isoIdleExpiry p) s fun t =>
      (t.m.ports[p]).session = some { x with closing := true } ∧
      handed t.m x.core (if x.proto = .typeA then withCrcA [0xC2] else withCrcB [0xC2]) ∧
      counter t.m 0x7090 0x06 = sat32 (counter s.m 0x7090 0x06 + 1) ∧ mainOnly s t ∧ readerOnly s.m t.m) ∧
  (∀ (s : State) (p : Fin 128), (s.m.ports[p]).session = none → exec (.isoIdleExpiry p) s = .next s) ∧
  (∀ (s : State) (e : Fin 24) (c : Fin 2) (j : Job) (k : Fin 16) (f : FieldRec) (x : Session) (g : TxFrame), (ctxOf s.m e c).st = .run →
    (ctxOf s.m e c).job = some j → j.opcode = 8 → (ctxOf s.m e c).core = some k → (ctxOf s.m e c).lost = false →
    (ctxOf s.m e c).sc.live = true → (ctxOf s.m e c).sc.inbox = none → (ctxOf s.m e c).sc.log = [] → (ctxOf s.m e c).sc.want = some g →
    g.skip = false → (s.m.cores[k]).fld = some f → f.owner = .ctx e c → (s.m.cores[k]).pendOff = false →
    planAllows s.m k f.port f.cls = true → (s.m.cores[k]).chain = false → (s.m.ports[j.port]).session = some x →
    if (s.m.cores[k]).exch = .gap then answers (.apduLimitExpiry e c) s fun t =>
      handed t.m k (if x.proto = .typeA then withCrcA [0xC2] else withCrcB [0xC2]) ∧ (ctxOf t.m e c).st = .run ∧
      (ctxOf t.m e c).limit = true ∧ mainOnly s t ∧ readerOnly s.m t.m
    else exec (.apduLimitExpiry e c) s = .next { s with m := modCtx s.m e c fun x => { x with limit := true } })

/-- The survey (R299–R301, R305, R308–R310, R322). A pass takes the settings of its start and gives each lane the enabled ports of its core that can
be visited; a visit sends SINGLE on its field; one fob's reply ends it, and so does the lack of a reply; with its field off the port is
reported and remembered; a stalled lane goes on; the pass ends when every lane has, and the survey with the last pass asked for.
Model choices it rests on: logs 3 and 25. -/
def Obligations.SurveyPasses : Prop :=
  (∀ s : State, s.m.pw.mode = .survey → s.m.sv.running = false → s.m.sv.stopped = false → s.m.pw.pendMode = none → s.m.sv.recOut = none →
    answers .surveyPassStart s fun t =>
      t.m.sv.running = true ∧ t.m.sv.due = false ∧ t.m.sv.visited = [] ∧ t.m.sv.withFob = 0 ∧ t.m.sv.firstAt = none ∧
      t.m.sv.cfg = s.m.cfg.filter (fun x => x.1 / 256 == 0x3200) ∧
      (∀ (k : Fin 16) (p : Fin 128), p ∈ (t.m.sv.lanes[k]).todo ↔
        bitAt (cfgN s.m 0x3200 0x01) p.val = true ∧ (s.m.ports[p]).state ≠ 5 ∧ (s.m.ports[p]).state ≠ 2 ∧ (s.m.ports[p]).state ≠ 3 ∧
        laneOf s.m p = some k) ∧ mainOnly s t ∧ readerOnly s.m t.m) ∧
  (∀ s : State, s.m.pw.mode = .survey → s.m.sv.stopped = false → s.m.pw.pendMode = none → s.m.sv.running = true →
    exec .surveyPassStart s = .next { s with m := { s.m with sv := { s.m.sv with due := true } } }) ∧
  (∀ s : State, s.m.pw.mode ≠ .survey ∨ s.m.sv.stopped = true → exec .surveyPassStart s = .next s) ∧
  (∀ (s : State) (k : Fin 16) (p : Fin 128) (f : FieldRec) (b : Bool), (s.m.cores[k]).fld = some f → f.owner = .lane k → f.at95 = true →
    f.port = p → f.sub8 = bitAt p.val 3 → (s.m.cores[k]).pendOff = false → planAllows s.m k f.port f.cls = true →
    (s.m.cores[k]).exch = .gap → (s.m.cores[k]).chain = false → (s.m.sv.lanes[k]).todo.head? = some p → (s.m.sv.lanes[k]).ended = none →
    (s.m.sv.lanes[k]).lost = false → (s.m.sv.lanes[k]).sc.live = false → (s.m.sv.lanes[k]).sc.inbox = none →
    (s.m.sv.lanes[k]).sc.log = [] → (s.m.sv.lanes[k]).sc.base = {} → bitAt (visitCfg s.m k 0x0A) p.val = false →
    answers (.laneVisit k b) s fun t =>
      handed t.m k (stpBytes p.val false 0x02 []) ∧ (t.m.sv.lanes[k]).sc.live = true ∧ mainOnly s t ∧ readerOnly s.m t.m) ∧
  (∀ (s : State) (k : Fin 16) (p : Fin 128) (a : Nat) (r₀ r : Reply), laneReads s.m k p (begun (s.m.sv.lanes[k]).sc p a r₀) r →
    bitAt (visitCfg s.m k 0x0A) p.val = false → visitCfg s.m k 0x08 = 0 → goodReply r 12 → answers (.laneVisit k false) s fun t =>
      (t.m.sv.lanes[k]).ended = some (p, 0) ∧ (t.m.sv.lanes[k]).sc.prog.uid = replyUid r ∧ (t.m.sv.lanes[k]).sc.prog.acquired = true ∧
      p ∉ (t.m.sv.lanes[k]).todo ∧ t.m.sv.visited = s.m.sv.visited ++ [p] ∧ (t.m.cores[k]).pendOff = true ∧ mainOnly s t ∧
      readerOnly s.m t.m) ∧
  (∀ (s : State) (k : Fin 16) (p : Fin 128) (a : Nat) (r₀ r : Reply), laneReads s.m k p (begun (s.m.sv.lanes[k]).sc p a r₀) r →
    bitAt (visitCfg s.m k 0x0A) p.val = false → r.outcome = .none → cfgN s.m 0x2300 0x0A ≠ 1 → answers (.laneVisit k false) s fun t =>
      (t.m.sv.lanes[k]).ended = some (p, 1) ∧ (t.m.sv.lanes[k]).sc.prog.acquired = false ∧ p ∉ (t.m.sv.lanes[k]).todo ∧
      t.m.sv.visited = s.m.sv.visited ++ [p] ∧ (t.m.cores[k]).pendOff = true ∧ mainOnly s t ∧ readerOnly s.m t.m) ∧
  (∀ (s : State) (k : Fin 16) (p : Fin 128) (f : FieldRec) (v : FV), (s.m.cores[k]).fld = some f → (s.m.cores[k]).pendOff = true →
    f.owner = .lane k → fieldView s.m k = some v → f.closed = false ∨ ((s.m.cores[k]).busy = false ∧ changeBlocked s.m v = false) → (s.m.sv.lanes[k]).ended = some (p, 0) → (s.m.sv.lanes[k]).sc.prog.acquired = true →
    (s.m.sv.lanes[k]).sc.prog.seeked = false → (s.m.sv.lanes[k]).sc.prog.badEnd = false → bitAt (svN s.m 0x0A) p.val = false →
    answers (.fieldOff k) s fun t =>
      (t.m.sv.lanes[k]).ended = none ∧ (t.m.ports[p]).svStatus = 0 ∧ (t.m.ports[p]).svFobs = 1 ∧ (t.m.ports[p]).svMisses = 0 ∧
      (t.m.ports[p]).lastUid = recordUid (s.m.sv.lanes[k]).sc.prog.record ∧ t.m.sv.withFob = s.m.sv.withFob + 1 ∧
      t.m.sv.offAt = s.m.now ∧ mainOnly s t) ∧
  (∀ (s : State) (k : Fin 16) (ws : List Word), (s.m.sv.lanes[k]).stalled = true → (s.m.sv.lanes[k]).waiting = [ws] → ws ≠ [] →
    (s.m.sv.lanes[k]).outPkt ≠ 0 → ws.length ≤ roomOf s.m 8 (s.m.sv.lanes[k]).outPkt ws.length → answers (.laneStallResume k) s fun t =>
      (t.m.sv.lanes[k]).stalled = false ∧ (t.m.sv.lanes[k]).waiting = [] ∧ mainOnly s t ∧ readerOnly s.m t.m) ∧
  (∀ (s : State) (k : Fin 16), (s.m.sv.lanes[k]).stalled = false → exec (.laneStallResume k) s = .next s) ∧
  (∀ s : State, s.m.sv.recOut = none → s.m.sv.running = true → s.m.sv.due = false →
    (∀ k : Fin 16, (s.m.sv.lanes[k]).todo = [] ∧ (s.m.sv.lanes[k]).ended = none ∧ (s.m.sv.lanes[k]).stalled = false) →
    svN s.m 0x03 = 0 ∨ (svN s.m 0x03 = s.m.sv.sinceEntry + 1 ∧ svN s.m 0x04 = 2) → answers .passEnd s fun t =>
      t.m.sv.running = false ∧ t.m.sv.count = sat32 (s.m.sv.count + 1) ∧ t.m.sv.sinceEntry = s.m.sv.sinceEntry + 1 ∧
      t.m.sv.stopped = (s.m.sv.stopped || svN s.m 0x03 != 0) ∧ counter t.m 0x70B0 0x01 = sat32 (counter s.m 0x70B0 0x01 + 1) ∧
      mainOnly s t ∧ readerOnly s.m t.m) ∧
  (∀ (s : State) (k : Fin 16), s.m.sv.recOut = none → (s.m.sv.lanes[k]).todo ≠ [] → exec .passEnd s = .next s)

/-- The watch sequencer (R312–R318): a sweep starts, is late, or finds VTX low and probes nothing; a probe is taken where the plan's copy has room
for it, or latches its port as faulted; a sweep without deviation settles, one with a deviation is repeated or detects the port, which wakes the
DX8128.
Model choices it rests on: logs 3 and 24. -/
def Obligations.WatchSweeps : Prop :=
  (∀ s : State, s.m.wt.active = true → s.m.wt.sweeping = false → s.m.pw.vtxLow = false → s.m.pw.vtxHold = false →
    exec .watchSweepStart s = .next { s with m := { s.m with wt := { s.m.wt with sweeping := true, repeats := 0 } } }) ∧
  (∀ s : State, s.m.wt.active = true → s.m.wt.sweeping = true →
    exec .watchSweepStart s = .next { s with m := { count s.m 0x70B0 0x08 with wt := { s.m.wt with late := true } } }) ∧
  (∀ s : State, s.m.wt.active = true → s.m.wt.sweeping = false → s.m.pw.vtxLow = true ∨ s.m.pw.vtxHold = true →
    exec .watchSweepStart s = .next { s with m := { count s.m 0x70B0 0x0C with wt := { s.m.wt with
      noVtx := true, sweeping := false, repeats := 0, sweeps := sat32 (s.m.wt.sweeps + 1),
      ports := s.m.wt.ports.map fun w => { w with probe := none, conf := [], exceeds := false } } } }) ∧
  (∀ s : State, s.m.wt.active = false → exec .watchSweepStart s = .next s) ∧
  (∀ (s : State) (x : Probe) (pos : Fin 8) (w : WatchPort), s.m.wt.sweeping = true → x.port.val % 8 = pos.val → s.m.wt.repeats = 0 →
    s.m.wt.ports.find? (fun w => w.port == x.port && !w.dead && probePlaced s.m w.port) = some w →
    zState (cfgN s.m (0x2200 + x.port.val) 0x09) (cfgN s.m (0x2200 + x.port.val) 0x08) x.zMag x.zArg = 0 →
    exec (.watchProbeStep pos [x]) s = .next { s with m := { s.m with wt := { s.m.wt with
      ports := s.m.wt.ports.map fun w => if w.port = x.port then { w with probe := some (x.zMag, x.zArg) } else w } } }) ∧
  (∀ (s : State) (x : Probe) (pos : Fin 8) (w : WatchPort), s.m.wt.sweeping = true → x.port.val % 8 = pos.val →
    s.m.wt.ports.find? (fun w => w.port == x.port && !w.dead && probePlaced s.m w.port) = some w →
    zState (cfgN s.m (0x2200 + x.port.val) 0x09) (cfgN s.m (0x2200 + x.port.val) 0x08) x.zMag x.zArg ≠ 0 →
    (∀ l ∈ s.m.wt.latched, l.port ≠ x.port) → s.m.pw.mode = .watch → s.m.pw.booting = false → s.m.pw.aoUp = true →
    s.m.pw.mainPresent = true → bitAt (cfgN s.m 0x1100 0x07) 4 = true → answers (.watchProbeStep pos [x]) s fun t =>
      t.m.wt.latched = s.m.wt.latched ++ [⟨x.port, true, 0, 0,
        zState (cfgN s.m (0x2200 + x.port.val) 0x09) (cfgN s.m (0x2200 + x.port.val) 0x08) x.zMag x.zArg⟩] ∧
      t.m.pw.booting = true ∧ t.m.pw.wakeCause = 4 ∧ t.m.pw.bootTarget = Mode.ofCode (cfgN s.m 0x1100 0x05) ∧
      t = { s with m := { s.m with wt := t.m.wt, pw := t.m.pw, flt := t.m.flt } }) ∧
  (∀ (s : State) (x : Probe) (pos : Fin 8), x.port.val % 8 ≠ pos.val ∨ probePlaced s.m x.port = false →
    exec (.watchProbeStep pos [x]) s = .next s) ∧
  (∀ (s : State) (w : WatchPort) (z : Nat × Int), s.m.wt.sweeping = true → s.m.wt.ports = [w] → w.probe = some z → w.dead = false →
    w.exceeds = false → w.settled + 1 < cfgN s.m 0x3210 0x08 → answers .watchSweepEnd s fun t =>
      t.m.wt.ports = [{ w with settled := w.settled + 1, baseMag := w.baseMag + 65536 * z.1, baseArg := w.baseArg + 65536 * z.2,
                               probe := none, conf := [], exceeds := false }] ∧
      t.m.wt.sweeping = false ∧ t.m.wt.sweeps = sat32 (s.m.wt.sweeps + 1) ∧ t.m.wt.latched = s.m.wt.latched ∧ mainOnly s t ∧ t.m.pw = s.m.pw) ∧
  (∀ (s : State) (w : WatchPort) (z : Nat × Int), s.m.wt.sweeping = true → s.m.wt.ports = [w] → w.probe = some z → w.dead = false →
    cfgN s.m 0x3210 0x08 ≤ w.settled → s.m.wt.repeats = 0 → cfgN s.m 0x3210 0x06 ≠ 0 →
    probeExceeds s.m w.baseMag w.baseArg (65536 * z.1) (65536 * z.2) = true → answers .watchSweepEnd s fun t =>
      t.m.wt.repeats = 1 ∧ t.m.wt.sweeping = true ∧ t.m.wt.ports = [{ w with exceeds := true }] ∧ t.m.wt.sweeps = s.m.wt.sweeps ∧
      mainOnly s t ∧ t.m.pw = s.m.pw) ∧
  (∀ (s : State) (w : WatchPort) (z : Nat × Int), s.m.wt.sweeping = true → s.m.wt.ports = [w] → w.probe = some z → w.dead = false →
    w.conf = [] → cfgN s.m 0x3210 0x08 ≤ w.settled → s.m.wt.repeats = 0 → cfgN s.m 0x3210 0x06 = 0 →
    probeExceeds s.m w.baseMag w.baseArg (65536 * z.1) (65536 * z.2) = true → (∀ l ∈ s.m.wt.latched, l.port ≠ w.port) →
    answers .watchSweepEnd s fun t =>
      (∃ l, t.m.wt.latched = s.m.wt.latched ++ [l] ∧ l.port = w.port ∧ l.fault = false) ∧ t.m.wt.sweeping = false ∧
      (∃ x, t.m.wt.ports = [x] ∧ x.baseMag = 65536 * z.1 ∧ x.baseArg = 65536 * z.2) ∧
      counter t.m 0x70B0 0x09 = sat32 (counter s.m 0x70B0 0x09 + 1) ∧ mainOnly s t) ∧
  (∀ s : State, s.m.wt.sweeping = false → exec .watchSweepEnd s = .next s)

/-- The host's writes to the queues (R331, R336, R343). A flush empties a queue and puts its open packets into the sink state; a quota that keeps
the bounds of R336 is taken, another is refused and counted; a consumer is written in CALIBRATE, code 1 for Q24 to Q27 alone.
Model choices it rests on: log 34. -/
def Obligations.QueueWrites : Prop :=
  (∀ (s : State) (q : Fin 32), ctlOn s.m = true → s.m.pw.ctlDown = false → s.m.pw.mode.isMain = true ∨ s.m.pw.mode = .hold → s.m.disp.stalled = [] →
    (∀ (e : Fin 24) (c : Fin 2), (ctxOf s.m e c).stalled = false) → (∀ k : Fin 16, (s.m.sv.lanes[k]).stalled = false) →
    s.m.sv.recOut = none → s.m.wt.recOut = none → answers (.queueFlush q 0xF1#8) s fun t =>
      (t.m.pool.qs[q]).pkts = [] ∧ (t.m.pool.qs[q]).detached = (s.m.pool.qs[q]).detached ∧
      (t.m.pool.qs[q]).sinks.map (·.id) = (s.m.pool.qs[q]).sinks.map (·.id) ++ ((s.m.pool.qs[q]).pkts.filter (·.opened)).map (·.id) ∧
      t.m.pool.returning = s.m.pool.returning + ((s.m.pool.qs[q]).pkts.map Packet.cells).sum ∧
      (∀ r : Fin 32, r ≠ q → t.m.pool.qs[r] = s.m.pool.qs[r]) ∧ mainOnly s t ∧ poolOnly s.m t.m) ∧
  (∀ (s : State) (q : Fin 32) (v : BitVec 8), v ≠ 0xF1#8 ∨ s.m.pw.ctlDown = true → exec (.queueFlush q v) s = .next s) ∧
  (∀ (s : State) (q : Fin 32) (v : BitVec 16), s.m.pw.ctlDown = false → s.m.pw.mode.isMain = true → 1 ≤ v.toNat → v.toNat ≤ 16384 → (s.m.pool.qs[q]).cmin ≤ v.toNat →
    exec (.quotaWrite q true v) s = .next { s with m := modQ s.m q fun x => { x with cmax := v.toNat } }) ∧
  (∀ (s : State) (q : Fin 32) (v : BitVec 16), s.m.pw.ctlDown = false → s.m.pw.mode.isMain = true → 1 ≤ v.toNat → v.toNat ≤ 16384 → v.toNat < (s.m.pool.qs[q]).cmin →
    exec (.quotaWrite q true v) s = .next { s with m := count s.m 0x70C0 0x0A }) ∧
  (∀ (s : State) (q : Fin 32) (v : BitVec 16), s.m.pw.ctlDown = false → s.m.pw.mode.isMain = true → v.toNat ≤ (s.m.pool.qs[q]).cmax →
    (((allFin 32).filter (· ≠ q)).map fun r => (s.m.pool.qs[r]).cmin).sum + v.toNat ≤ poolCells - s.m.pool.retired.length - 1024 →
    s.m.pool.retired.length ≤ 15360 → v.toNat ≤ (s.m.pool.qs[q]).cells →
    exec (.quotaWrite q false v) s = .next { s with m := modQ s.m q fun x => { x with cmin := v.toNat } }) ∧
  (∀ (s : State) (q : Fin 32) (v : BitVec 16), s.m.pw.ctlDown = false → s.m.pw.mode.isMain = true → (s.m.pool.qs[q]).cmax < v.toNat →
    exec (.quotaWrite q false v) s = .next { s with m := count s.m 0x70C0 0x0A }) ∧
  (∀ (s : State) (q : Fin 32) (v : BitVec 8), s.m.pw.ctlDown = false → s.m.pw.mode = .calibrate → v.toNat ≤ 5 → v.toNat ≠ 1 ∨ (24 ≤ q.val ∧ q.val < 28) →
    exec (.consumerWrite q v) s = .next { s with m := modQ s.m q fun x => { x with consumer := v.toNat } }) ∧
  (∀ (s : State) (q : Fin 32), s.m.pw.ctlDown = false → s.m.pw.mode = .calibrate → q.val < 24 ∨ 28 ≤ q.val →
    exec (.consumerWrite q 1#8) s = .next { s with m := count s.m 0x70C0 0x0A }) ∧
  (∀ (s : State) (q : Fin 32) (v : BitVec 8), s.m.pw.mode ≠ .calibrate ∨ s.m.pw.ctlDown = true → exec (.consumerWrite q v) s = .next s)

/-- The pool on its own (R338, R339, R346–R349): a stalled packet of the dispatcher goes on; the scrubber counts its passes, retires a cell at the third single-bit
error in a row or at a double-bit error, whose word it marks in the packet that holds it; a link error of the free list is a pool fault, and the owner sweep returns the orphaned cells.
A packet that fits is written (R325, R326, R341): it stands closed in its queue with its type, source and words, and the packets that were there
stay; a packet that does not fit is dropped and counted. The queue bitmap of the status block (R334): bit q is 1 exactly when queue q holds a closed packet.
Model choices it rests on: logs 3 and 34. -/
def Obligations.PoolService : Prop :=
  ((∀ (s : State) (o : DispOut), ctlOn s.m = true → s.m.disp.stalled = [o] → o.pkt ≠ 0 → o.words ≠ [] →
    o.words.length ≤ roomOf s.m o.q o.pkt o.words.length → answers (.producerStallResume o.q) s fun t =>
      t.m.disp.stalled = [] ∧ mainOnly s t ∧ t.m.pw = s.m.pw ∧ t.m.tgt = s.m.tgt ∧ t.m.rad = s.m.rad ∧ t.m.cfg = s.m.cfg) ∧
  (∀ s : State, ctlOn s.m = true → exec (.scrubPass {}) s = .next { s with m := { s.m with pool := { s.m.pool with
      scrubs := sat32 (s.m.pool.scrubs + 1), singles := [] } } }) ∧
  (∀ (s : State) (cell : Nat), ctlOn s.m = true → (mapGet cell s.m.pool.singles).getD 0 < 2 →
    answers (.scrubPass { singles := [(cell, none, 0)] }) s fun t =>
      t.m.pool.singles = [(cell, (mapGet cell s.m.pool.singles).getD 0 + 1)] ∧ t.m.pool.retired = s.m.pool.retired ∧
      counter t.m 0x70C0 0x06 = sat32 (counter s.m 0x70C0 0x06 + 1) ∧ mainOnly s t) ∧
  (∀ (s : State) (cell : Nat), ctlOn s.m = true → 2 ≤ (mapGet cell s.m.pool.singles).getD 0 → cell ∉ s.m.pool.retired →
    answers (.scrubPass { singles := [(cell, none, 0)] }) s fun t => t.m.pool.retired = s.m.pool.retired ++ [cell] ∧ mainOnly s t) ∧
  (∀ (s : State) (cell : Nat), ctlOn s.m = true → cell ∉ s.m.pool.retired → answers (.scrubPass { doubles := [(cell, none, 0)] }) s fun t =>
      t.m.pool.retired = s.m.pool.retired ++ [cell] ∧ mainOnly s t) ∧
  (∀ (s : State) (cell : Nat) (q : Fin 32) (p : Packet) (rest : List Packet) (i : Nat), ctlOn s.m = true → cell ∉ s.m.pool.retired →
    (s.m.pool.qs[q]).pkts = p :: rest → i ≤ p.words.length → (∀ r ∈ rest, r.id ≠ p.id) →
    answers (.scrubPass { doubles := [(cell, some q, i)] }) s fun t =>
      (t.m.pool.qs[q]).pkts = { p with poison := p.poison ++ [(i, cell)] } :: rest ∧ t.m.pool.retired = s.m.pool.retired ++ [cell] ∧
      mainOnly s t) ∧
  (∀ (s : State) (cell : Nat) (q : Fin 32) (p : Packet) (rest : List Packet) (i : Nat), ctlOn s.m = true → cell ∉ s.m.pool.retired →
    2 ≤ (mapGet cell s.m.pool.singles).getD 0 → (s.m.pool.qs[q]).pkts = p :: rest → i ≤ p.words.length → (∀ r ∈ rest, r.id ≠ p.id) →
    answers (.scrubPass { singles := [(cell, some q, i)] }) s fun t =>
      (t.m.pool.qs[q]).pkts = { p with worn := p.worn ++ [cell] } :: rest ∧ t.m.pool.retired = s.m.pool.retired ++ [cell] ∧ mainOnly s t) ∧
  (∀ (s : State) (i : Nat), ctlOn s.m = true → answers (.scrubPass { linkErrors := [(none, i)] }) s fun t =>
      t.m.pool.state = 3 ∧ t.m.pool.faulted = true ∧ t.m.pool.sweepDue = true ∧ t.m.pool.orphans = s.m.pool.orphans + cellsFree s.m ∧
      mainOnly s t) ∧
  (∀ s : State, s.m.pool.sweepDue = true →
    exec .ownerSweepDone s = .next { s with m := { s.m with pool := { s.m.pool with orphans := 0, sweepDue := false } } }) ∧
  (∀ s : State, s.m.pool.sweepDue = false → exec .ownerSweepDone s = .next s)) ∧
  (((∀ (m : Main) (q : Fin 32) (type source : Nat) (ws : List Word), roomFor m q ws.length →
    delivered (offerPkt m q type source ws) q type source ws ∧ poolOnly m (offerPkt m q type source ws) ∧
    ∀ r : Fin 32, ∀ p ∈ (m.pool.qs[r]).pkts, p ∈ ((offerPkt m q type source ws).pool.qs[r]).pkts) ∧
  (∀ (m : Main) (q : Fin 32) (type source : Nat) (ws : List Word), spaceTest m q ws.length = false →
    sat32 ((m.pool.qs[q]).drops + 1) ≤ ((offerPkt m q type source ws).pool.qs[q]).drops ∧ poolOnly m (offerPkt m q type source ws))) ∧
  (∀ (m : Main) (q : Fin 32), bitAt (queueBitmap m) q.val = (m.pool.qs[q]).pkts.any fun p => !p.opened))

/-- The target as an ISO/IEC 14443-A card up to its activation (R354, R355, R376).
Model choices it rests on: logs 3 and 26. -/
def Obligations.TargetCard : Prop :=
  (∀ s : State, tgtCarries s.m = true → tgtEnabled s.m 0 = true → s.m.tgt.session = .iso → s.m.tgt.iso.st = 0 →
    exec .tgtIsoReqa s = .next { s with m := { s.m with tgt := { s.m.tgt with iso := { s.m.tgt.iso with st := 1 }, resp := [0x04, 0x00] } } }) ∧
  (∀ s : State, tgtCarries s.m = true → tgtEnabled s.m 0 = true → s.m.tgt.session = .none → s.m.tgt.iso.st = 0 →
    answers .tgtIsoReqa s fun t =>
      t.m.tgt.session = .iso ∧ t.m.tgt.iso.st = 1 ∧ t.m.tgt.resp = [0x04, 0x00] ∧ t.m.tgt.auth.key0 = false ∧ t.m.tgt.auth.key1 = false ∧
      t.m.tgt.auth.pending = none ∧ targetOnly s t) ∧
  (∀ s : State, s.m.tgt.session = .stp → exec .tgtIsoReqa s = .next s ∧ exec .tgtIsoWupa s = .next s) ∧
  (∀ s : State, s.m.tgt.session = .iso → s.m.tgt.iso.st = 3 → exec .tgtIsoReqa s = .next s) ∧
  (∀ s : State, tgtCarries s.m = true → tgtEnabled s.m 0 = true → s.m.tgt.session = .iso → s.m.tgt.iso.st = 3 →
    exec .tgtIsoWupa s = .next { s with m := { s.m with tgt := { s.m.tgt with iso := { s.m.tgt.iso with st := 4 }, resp := [0x04, 0x00] } } }) ∧
  (∀ (s : State) (bits : BitVec 32), isoHears s.m = true → s.m.tgt.iso.st = 1 ∨ s.m.tgt.iso.st = 4 →
    answers (.tgtIsoAnticollision 0x20#8 bits) s fun t =>
      t.m.tgt.resp.length = 5 ∧ t.m.tgt.resp.take 4 = leBytes 4 s.m.tgt.iso.uid.toNat ∧ t.m.tgt.resp.foldl (· ^^^ ·) 0 = 0 ∧
      t = { s with m := { s.m with tgt := { s.m.tgt with resp := t.m.tgt.resp } } }) ∧
  (∀ s : State, isoHears s.m = true → s.m.tgt.iso.st = 1 → exec (.tgtIsoSelectL3 s.m.tgt.iso.uid) s =
    .next { s with m := { s.m with tgt := { s.m.tgt with iso := { s.m.tgt.iso with st := 2 }, resp := withCrcA [0x20] } } }) ∧
  (∀ s : State, isoHears s.m = true → s.m.tgt.iso.st = 4 → exec (.tgtIsoSelectL3 s.m.tgt.iso.uid) s =
    .next { s with m := { s.m with tgt := { s.m.tgt with iso := { s.m.tgt.iso with st := 5 }, resp := withCrcA [0x20] } } }) ∧
  (∀ (s : State) (uid : BitVec 32), isoHears s.m = true → uid ≠ s.m.tgt.iso.uid → s.m.tgt.iso.st = 1 → exec (.tgtIsoSelectL3 uid) s =
    .next { s with m := { s.m with tgt := { s.m.tgt with iso := { s.m.tgt.iso with st := 0 } } } }) ∧
  (∀ s : State, isoHears s.m = true → s.m.tgt.iso.st = 2 ∨ s.m.tgt.iso.st = 5 →
    exec .tgtIsoHlta s = .next { s with m := { s.m with tgt := { s.m.tgt with iso := { s.m.tgt.iso with st := 3 } } } }) ∧
  (∀ (s : State) (param : Byte), isoHears s.m = true → s.m.tgt.iso.st = 2 ∨ s.m.tgt.iso.st = 5 → answers (.tgtIsoRats param) s fun t =>
      t.m.tgt.iso.st = 6 ∧ t.m.tgt.resp = withCrcA [0x05, 0x78, 0x33, 0x40, 0x00] ∧ t.m.tgt.iso.blockNo = true ∧ t.m.tgt.iso.rateRx = 0 ∧
      t.m.tgt.iso.rateTx = 0 ∧ t.m.tgt.iso.selected = s.m.tgt.iso.selected ∧ t = { s with m := { s.m with tgt := t.m.tgt } }) ∧
  (∀ (s : State) (pps0 pps1 : Byte), isoHears s.m = true → s.m.tgt.iso.st = 6 → bitAt pps0.toNat 4 = true → field pps1.toNat 0 2 ≠ 3 →
    field pps1.toNat 2 2 ≠ 3 → exec (.tgtIsoPps pps0 pps1) s = .next { s with m := { s.m with tgt := { s.m.tgt with
      iso := { s.m.tgt.iso with st := 7, rateRx := field pps1.toNat 0 2, rateTx := field pps1.toNat 2 2 }, resp := withCrcA [0xD0] } } }) ∧
  (∀ s : State, isoHears s.m = true → 6 ≤ s.m.tgt.iso.st → exec .tgtIsoDeselect s = .next { s with m := { s.m with tgt := { s.m.tgt with
      iso := { s.m.tgt.iso with st := 3, selected := false, chain := [], rateRx := 0, rateTx := 0 }, resp := withCrcA [0xC2] } } }) ∧
  (∀ (s : State) (nak : Bool), isoHears s.m = true → 6 ≤ s.m.tgt.iso.st → exec (.tgtIsoRBlock nak s.m.tgt.iso.blockNo) s =
    .next { s with m := { s.m with tgt := { s.m.tgt with resp := withCrcA s.m.tgt.iso.lastResp } } })

/-- The ledger application (R371, R377, R378): selecting it, reading its files and records, and the commands it does not know.
Model choices it rests on: log 26. -/
def Obligations.LedgerApplication : Prop :=
  (∀ s : State, apduHears s = true → answers (.tgtApduSelect 0x04#8 0x0C#8 [0xF0, 0x4B, 0x4C, 0x44, 0x01]) s fun t =>
      apduAnswered s t [] 0x9000 ∧ t.m.tgt.iso.selected = true ∧ t.m.tgt.auth.key0 = false ∧ t.m.tgt.auth.key1 = false ∧
      t.m.tgt.auth.pending = none ∧ t.m.tgt.auth.lockout = s.m.tgt.auth.lockout ∧ targetOnly s t) ∧
  (∀ (s : State) (aid : List Byte), apduHears s = true → aid ≠ [0xF0, 0x4B, 0x4C, 0x44, 0x01] →
    answers (.tgtApduSelect 0x04#8 0x0C#8 aid) s fun t => apduAnswered s t [] 0x6A82 ∧ targetOnly s t) ∧
  (∀ (s : State) (p2 : Byte) (le : Nat), applicationHears s → p2.toNat < 32 → answers (.tgtReadBinary 0x81#8 p2 le) s fun t =>
      apduAnswered s t ((efId.drop p2.toNat).take le) 0x9000 ∧ t.m.tgt.auth.pending = none ∧ targetOnly s t) ∧
  (∀ s : State, applicationHears s → answers (.tgtReadBinary 0x82#8 0x00#8 4) s fun t =>
      apduAnswered s t (leBytes 4 s.lgr.head) 0x9000 ∧ targetOnly s t) ∧
  (∀ (s : State) (p1 p2 : Byte) (le : Nat), apduHears s = true → s.m.tgt.iso.selected = false → answers (.tgtReadBinary p1 p2 le) s fun t =>
      apduAnswered s t [] 0x6A82 ∧ targetOnly s t) ∧
  (∀ (s : State) (n : Byte) (b : List Byte), applicationHears s → s.m.tgt.auth.key0 = true ∨ cfgN s.m 0x6000 0x03 ≠ 0 → 1 ≤ n.toNat →
    n.toNat ≤ 240 → n.toNat ≤ s.lgr.head → s.lgr.at_ (s.lgr.head + 1 - n.toNat) = some b → answers (.tgtReadRecord n 0x1C#8) s fun t =>
      apduAnswered s t (auditBytes (s.lgr.head + 1 - n.toNat) b) 0x9000 ∧ targetOnly s t) ∧
  (∀ (s : State) (n : Byte), applicationHears s → s.m.tgt.auth.key0 = false → cfgN s.m 0x6000 0x03 = 0 →
    answers (.tgtReadRecord n 0x1C#8) s fun t => apduAnswered s t [] 0x6982 ∧ targetOnly s t) ∧
  (∀ (s : State) (n : Byte), applicationHears s → s.m.tgt.auth.key0 = true → s.lgr.noBank = false → 1 ≤ n.toNat → n.toNat ≤ 16 →
    answers (.tgtReadRecord n 0x24#8) s fun t => apduAnswered s t (s.lgr.cur.data (n.toNat - 1)) 0x9000 ∧ targetOnly s t) ∧
  (∀ (s : State) (cla ins p1 p2 : Byte), apduHears s = true → cla ≠ 0x00#8 → cla ≠ 0x80#8 → answers (.tgtApduUnknown cla ins p1 p2) s fun t =>
      apduAnswered s t [] 0x6E00 ∧ targetOnly s t) ∧
  (∀ (s : State) (ins p1 p2 : Byte), apduHears s = true → apduKnown 0x00#8 ins = false → answers (.tgtApduUnknown 0x00#8 ins p1 p2) s fun t =>
      apduAnswered s t [] 0x6D00 ∧ targetOnly s t) ∧
  (∀ (s : State) (p1 p2 : Byte) (data : List Byte), applicationHears s → p1 = 0x00#8 → p2 = 0x18#8 → 5 ≤ data.length → data.length ≤ 47 →
    s.m.tgt.auth.key0 = true → 0x20 ≤ (nth data 0 0).toNat → answers (.tgtAppendRecord p1 p2 data) s fun t =>
      t.lgr = { s.lgr with waiting := s.lgr.waiting ++
        [LAccess.mk .field (.append (auditBody (nth data 0 0).toNat 1 (leNat ((data.drop 1).take 4)) 0 (data.drop 5))) 1 false] } ∧
      t.m.tgt.resp = s.m.tgt.resp ∧ ledgerOnly s t) ∧
  (∀ (s : State) (data : List Byte), applicationHears s → 5 ≤ data.length → data.length ≤ 47 → s.m.tgt.auth.key0 = false →
    answers (.tgtAppendRecord 0x00#8 0x18#8 data) s fun t => apduAnswered s t [] 0x6982 ∧ targetOnly s t) ∧
  (∀ (s : State) (p1 : Byte) (data : List Byte), applicationHears s → 13 ≤ p1.toNat → p1.toNat ≤ 16 → data.length = 20 →
    s.m.tgt.auth.key0 = true → cfgN s.m 0x6000 0x04 ≠ 0 → (∀ a ∈ s.lgr.waiting, a.isSetting = false) →
    (∀ a, s.lgr.running = some a → a.isSetting = false) → answers (.tgtUpdateRecord p1 0x24#8 data) s fun t =>
      t.lgr = { s.lgr with waiting := s.lgr.waiting ++ [LAccess.mk .field (.setting (p1.toNat - 1) data) 2 false] } ∧
      t.m.tgt.resp = s.m.tgt.resp ∧ ledgerOnly s t) ∧
  (∀ (s : State) (p1 : Byte) (data : List Byte), applicationHears s → 13 ≤ p1.toNat → p1.toNat ≤ 16 → data.length = 20 →
    s.m.tgt.auth.key0 = true → cfgN s.m 0x6000 0x04 ≠ 0 → (∃ a ∈ s.lgr.waiting, a.isSetting = true) →
    answers (.tgtUpdateRecord p1 0x24#8 data) s fun t => apduAnswered s t [] 0x6400 ∧ targetOnly s t)

/-- Authentication at the target, and the release (R245, R247, R379, R380).
Model choices it rests on: logs 21 and 26. -/
def Obligations.TargetAuthAndRelease : Prop :=
  (∀ (s : State) (ra : List Byte) (key : BitVec 128), applicationHears s → ra.length = 8 → s.m.tgt.auth.lockout = false →
    s.lgr.key0 = some key → answers (.tgtInternalAuth 0x00#8 0x00#8 ra) s fun t =>
      t.m.tgt.auth.pending = some (0, ra, leBytes 8 (Config.free s.m.freeCtr).toNat) ∧
      apduAnswered s t (aes128 key (ra ++ leBytes 8 (Config.free s.m.freeCtr).toNat)) 0x9000 ∧ targetOnly s t) ∧
  (∀ (s : State) (ra : List Byte), applicationHears s → ra.length = 8 → s.m.tgt.auth.lockout = true →
    answers (.tgtInternalAuth 0x00#8 0x00#8 ra) s fun t => apduAnswered s t [] 0x6983 ∧ t.m.tgt.auth.pending = none ∧ targetOnly s t) ∧
  (∀ (s : State) (ra rb : List Byte) (key : BitVec 128), applicationHears s → s.m.pw.onHarvest = false → s.lgr.key1 = some key →
    s.m.tgt.auth.pending = some (1, ra, rb) → (aes128 key (rb ++ ra)).length = 16 →
    answers (.tgtExternalAuth 0x00#8 0x01#8 (aes128 key (rb ++ ra))) s fun t =>
      apduAnswered s t [] 0x9000 ∧ t.m.tgt.auth.key1 = true ∧ t.m.tgt.auth.key0 = s.m.tgt.auth.key0 ∧ t.m.tgt.auth.pending = none ∧
      t.m.tgt.auth.lockout = s.m.tgt.auth.lockout ∧ t.lgr.head = s.lgr.head + 1 ∧
      (∃ b, t.lgr.ring[slotOf (s.lgr.head + 1)] = .record (s.lgr.head + 1) b ∧ bodyType b = 1 ∧ bodyOrigin b = 0) ∧
      (∀ i : Fin 240, i ≠ slotOf (s.lgr.head + 1) → t.lgr.ring[i] = s.lgr.ring[i]) ∧ ledgerOnly s t) ∧
  (∀ (s : State) (c2 : List Byte), applicationHears s → s.m.pw.onHarvest = false → s.m.tgt.auth.pending = none → c2.length = 16 →
    answers (.tgtExternalAuth 0x00#8 0x01#8 c2) s fun t =>
      apduAnswered s t [] 0x6300 ∧ t.m.tgt.auth.key1 = s.m.tgt.auth.key1 ∧ t.m.tgt.auth.lockout = true ∧ t.lgr.head = s.lgr.head + 1 ∧
      (∃ b, t.lgr.ring[slotOf (s.lgr.head + 1)] = .record (s.lgr.head + 1) b ∧ bodyType b = 2 ∧ bodyOrigin b = 0) ∧ ledgerOnly s t) ∧
  (∀ s : State, applicationHears s → s.m.tgt.auth.key1 = true → releaseAllowed s.m = true → s.lgr.leaseBy = none → s.m.pw.onHarvest = false →
    answers (.tgtRelease 0x00#8 0x00#8) s fun t =>
      t.m.tgt.releaseWait = true ∧ t.m.tgt.releaseLow = s.m.tgt.releaseLow ∧ t.m.tgt.resp = s.m.tgt.resp ∧ t.lgr.head = s.lgr.head + 1 ∧
      (∃ b, t.lgr.ring[slotOf (s.lgr.head + 1)] = .record (s.lgr.head + 1) b ∧ bodyType b = 3 ∧ bodyOrigin b = 0) ∧ ledgerOnly s t) ∧
  (∀ s : State, applicationHears s → s.m.tgt.auth.key1 = false → answers (.tgtRelease 0x00#8 0x00#8) s fun t =>
      apduAnswered s t [] 0x6982 ∧ t.m.tgt.releaseWait = s.m.tgt.releaseWait ∧ targetOnly s t) ∧
  (∀ s : State, s.m.tgt.releaseWait = true → answers .releaseVoltageReached s fun t =>
      t.m.tgt.releaseWait = false ∧ t.m.tgt.releaseLow = true ∧ cfgN s.m 0x6000 0x07 ≤ t.m.tgt.vHarv ∧ apduAnswered s t [] 0x9000 ∧
      targetOnly s t) ∧
  (∀ s : State, s.m.tgt.releaseWait = false → exec .releaseVoltageReached s = .next s ∧ exec .releaseWaitTimeout s = .next s) ∧
  (∀ (s : State) (q : Nat) (b : List Byte), s.m.tgt.releaseWait = true → newestRelease s.lgr = some (q, b) →
    answers .releaseWaitTimeout s fun t =>
      t.m.tgt.releaseWait = false ∧ t.m.tgt.releaseLow = s.m.tgt.releaseLow ∧ t.lgr.ring[slotOf q] = .record q (b.set 25 0x01) ∧
      t.lgr.head = s.lgr.head ∧ apduAnswered s t [] 0x6402 ∧ ledgerOnly s t) ∧
  (∀ s : State, exec .releasePulseEnd s = .next { s with m := { s.m with tgt := { s.m.tgt with releaseLow := false } } }) ∧
  (∀ s : State, exec .targetAuthLockoutEnd s = .next { s with m := { s.m with tgt := { s.m.tgt with
      auth := { s.m.tgt.auth with lockout := false } } } })

/-- The target as an STP fob (R198, R207, R209, R211, R214, R216, R223, R225, R227, R228, R230, R237–R241, R245, R381, R382): the frame of each
command, as its bytes, and its reply.
The binding rules (R211): a frame of another port tag is taken when its level is clearly 6 dB above the stored one, and is not when it is clearly
below that and claims nothing; an unbound target is bound by the first frame it takes. A frame that starts before a reply has started has it
abandoned; one that starts during the reply is not decoded (R207, R209).
Model choices it rests on: log 27. -/
def Obligations.TargetFob : Prop :=
  ((∀ (s : State) (f : StpRx), fobHears s f 0x01 [0x00] → s.m.tgt.stp.tagState ≠ 5 → answers (.tgtStpSeek f) s fun t =>
      t.m.tgt.stp.tagState = 2 ∧ (∃ x, t.m.tgt.stp.handle = some x ∧ x ≠ 0xFFFF#16 ∧ fobReplied t 0 (leBytes 2 x.toNat)) ∧ targetOnly s t) ∧
  (∀ (s : State) (f : StpRx) (q : Fin 9), fobHears s f 0x01 [byte q.val] → s.m.tgt.stp.tagState ≠ 5 → answers (.tgtStpSeek f) s fun t =>
      ((t.m.tgt.stp.tagState = 2 ∧ t.m.tgt.stp.counter = 0 ∧ ∃ x, t.m.tgt.stp.handle = some x ∧ fobReplied t 0 (leBytes 2 x.toNat)) ∨
       (t.m.tgt.stp.tagState = 1 ∧ 0 < t.m.tgt.stp.counter ∧ t.m.tgt.stp.counter < 2 ^ q.val ∧ t.m.tgt.stp.handle = none ∧
        t.m.tgt.resp = s.m.tgt.resp)) ∧ t.m.tgt.stp.shadow = none ∧ targetOnly s t) ∧
  (∀ (s : State) (f : StpRx), fobHears s f 0x01 [0x10] → s.m.tgt.stp.tagState = 1 → s.m.tgt.stp.counter = 1 → answers (.tgtStpSeek f) s fun t =>
      t.m.tgt.stp.tagState = 2 ∧ (∃ x, t.m.tgt.stp.handle = some x ∧ x ≠ 0xFFFF#16 ∧ fobReplied t 0 (leBytes 2 x.toNat)) ∧ targetOnly s t) ∧
  (∀ (s : State) (f : StpRx), fobHears s f 0x01 [0x10] → s.m.tgt.stp.tagState = 1 → 1 < s.m.tgt.stp.counter → answers (.tgtStpSeek f) s fun t =>
      t.m.tgt.stp.tagState = 1 ∧ t.m.tgt.stp.counter + 1 = s.m.tgt.stp.counter ∧ t.m.tgt.resp = s.m.tgt.resp ∧ targetOnly s t) ∧
  (∀ (s : State) (f : StpRx), fobHears s f 0x01 [0x10] → s.m.tgt.stp.tagState = 2 → answers (.tgtStpSeek f) s fun t =>
      t.m.tgt.stp.tagState = 1 ∧ t.m.tgt.stp.handle = none ∧ t.m.tgt.resp = s.m.tgt.resp ∧ targetOnly s t) ∧
  (∀ (s : State) (f : StpRx), fobHears s f 0x01 [0x40] → s.m.tgt.stp.tagState ≠ 5 → s.m.tgt.stp.seen = true → answers (.tgtStpSeek f) s fun t =>
      t.m.tgt.stp.tagState = s.m.tgt.stp.tagState ∧ t.m.tgt.stp.handle = s.m.tgt.stp.handle ∧ t.m.tgt.resp = s.m.tgt.resp ∧ targetOnly s t) ∧
  (∀ (s : State) (f : StpRx), fobHears s f 0x02 [] → s.m.tgt.stp.tagState ≠ 5 → answers (.tgtStpSingle f) s fun t =>
      t.m.tgt.stp.tagState = 3 ∧ t.m.tgt.stp.seen = true ∧ (∃ x, t.m.tgt.stp.handle = some x ∧ x ≠ 0xFFFF#16 ∧
        fobReplied t 0 (leBytes 8 Config.targetUid.toNat ++ leBytes 2 x.toNat ++ [0xF7])) ∧ targetOnly s t) ∧
  (∀ (s : State) (f : StpRx), fobHears s f 0x02 [] → s.m.tgt.stp.tagState = 5 → answers (.tgtStpSingle f) s fun t =>
      t.m.tgt.resp = s.m.tgt.resp ∧ t.m.tgt.stp.tagState = 5 ∧ targetOnly s t) ∧
  (∀ (s : State) (f : StpRx) (x : BitVec 16), fobHears s f 0x03 (leBytes 2 x.toNat) → s.m.tgt.stp.handle = some x →
    s.m.tgt.stp.tagState = 2 ∨ s.m.tgt.stp.tagState = 3 → s.m.pw.onHarvest = false → answers (.tgtStpSelect f) s fun t =>
      t.m.tgt.stp.tagState = 3 ∧ (s.m.tgt.stp.tagState = 2 → t.m.tgt.stp.seen = true) ∧
      fobReplied t 0 (leBytes 8 Config.targetUid.toNat ++ [0xF7, 0x01, 254]) ∧ targetOnly s t) ∧
  (∀ (s : State) (f : StpRx) (x : BitVec 16) (link : Byte), fobHears s f 0x04 (leBytes 2 x.toNat ++ [link]) → s.m.tgt.stp.handle = some x →
    s.m.tgt.stp.tagState = 3 → x ≠ 0xFFFF#16 → link.toNat < 8 → link.toNat % 4 < 3 → answers (.tgtStpSetLink f) s fun t =>
      t.m.tgt.stp.rate = link.toNat % 4 ∧ t.m.tgt.stp.sub8 = bitAt link.toNat 2 ∧ fobReplied t 0 [] ∧ targetOnly s t) ∧
  (∀ (s : State) (f : StpRx) (x : BitVec 16) (link : Byte), fobHears s f 0x04 (leBytes 2 x.toNat ++ [link]) → s.m.tgt.stp.handle = some x →
    s.m.tgt.stp.tagState = 3 → x ≠ 0xFFFF#16 → link = 3#8 ∨ link = 7#8 → answers (.tgtStpSetLink f) s fun t =>
      t.m.tgt.stp.rate = s.m.tgt.stp.rate ∧ fobReplied t 6 [] ∧ targetOnly s t) ∧
  (∀ (s : State) (f : StpRx) (link : Byte), fobHears s f 0x04 [0xFF, 0xFF, link] → link.toNat < 8 → link.toNat % 4 < 3 →
    answers (.tgtStpSetLink f) s fun t => t.m.tgt.stp.rate = link.toNat % 4 ∧ t.m.tgt.stp.sub8 = bitAt link.toNat 2 ∧
      t.m.tgt.resp = s.m.tgt.resp ∧ targetOnly s t) ∧
  (∀ (s : State) (f : StpRx) (x : BitVec 16), fobHears s f 0x05 (leBytes 2 x.toNat ++ [8, 1]) → s.m.tgt.stp.handle = some x →
    s.m.tgt.stp.tagState = 3 → answers (.tgtStpRead f) s fun t => fobReplied t 0 (List.replicate 16 0) ∧ targetOnly s t) ∧
  (∀ (s : State) (f : StpRx) (x : BitVec 16), fobHears s f 0x05 (leBytes 2 x.toNat ++ [16, 1]) → s.m.tgt.stp.handle = some x →
    s.m.tgt.stp.tagState = 3 → cfgN s.m 0x6000 0x03 = 0 → answers (.tgtStpRead f) s fun t => fobReplied t 3 [] ∧ targetOnly s t) ∧
  (∀ (s : State) (f : StpRx) (x : BitVec 16) (first n : Byte), fobHears s f 0x05 (leBytes 2 x.toNat ++ [first, n]) → s.m.tgt.stp.handle = some x →
    s.m.tgt.stp.tagState = 3 ∨ s.m.tgt.stp.tagState = 4 → n = 0#8 ∨ 16 < n.toNat ∨ 64 < first.toNat + n.toNat →
    answers (.tgtStpRead f) s fun t => fobReplied t 2 [] ∧ targetOnly s t)) ∧
  ((∀ (s : State) (f : StpRx) (x : BitVec 16) (data : List Byte),
    fobHears s f 0x06 (leBytes 2 x.toNat ++ leBytes 4 Config.targetUid.toNat ++ [8] ++ data) → s.m.tgt.stp.handle = some x →
    s.m.tgt.stp.tagState = 4 → s.m.pw.onHarvest = false → data.length = 16 → answers (.tgtStpArm f) s fun t =>
      (∃ tok : BitVec 16, t.m.tgt.stp.shadow = some (8, data, tok) ∧ fobReplied t 0 (254 :: leBytes 2 tok.toNat)) ∧
      t.m.tgt.stp.lastTok = none ∧ targetOnly s t) ∧
  (∀ (s : State) (f : StpRx) (x : BitVec 16) (data : List Byte),
    fobHears s f 0x06 (leBytes 2 x.toNat ++ leBytes 4 Config.targetUid.toNat ++ [8] ++ data) → s.m.tgt.stp.handle = some x →
    s.m.tgt.stp.tagState = 3 → data.length = 16 → answers (.tgtStpArm f) s fun t =>
      fobReplied t 3 [] ∧ t.m.tgt.stp.shadow = s.m.tgt.stp.shadow ∧ t.m.tgt.stp.lastTok = none ∧ targetOnly s t) ∧
  (∀ (s : State) (f : StpRx) (x tok : BitVec 16) (r : Nat) (data : List Byte),
    fobHears s f 0x07 (leBytes 2 x.toNat ++ leBytes 4 Config.targetUid.toNat ++ leBytes 2 tok.toNat) → s.m.tgt.stp.handle = some x →
    s.m.tgt.stp.tagState = 3 ∨ s.m.tgt.stp.tagState = 4 → s.m.tgt.stp.shadow = some (r, data, tok) → 0x20 ≤ (nth data 0 0).toNat →
    answers (.tgtStpCommit f) s fun t =>
      t.lgr = { s.lgr with waiting := s.lgr.waiting ++
        [LAccess.mk .field (.append (auditBody (nth data 0 0).toNat 2 (leNat ((data.drop 1).take 4)) 0 (data.drop 5))) 3 false] } ∧
      t.m.tgt.resp = s.m.tgt.resp ∧ ledgerOnly s t) ∧
  (∀ (s : State) (f : StpRx) (x tok tok' : BitVec 16) (r : Nat) (data : List Byte),
    fobHears s f 0x07 (leBytes 2 x.toNat ++ leBytes 4 Config.targetUid.toNat ++ leBytes 2 tok'.toNat) → s.m.tgt.stp.handle = some x →
    s.m.tgt.stp.tagState = 3 ∨ s.m.tgt.stp.tagState = 4 → s.m.tgt.stp.shadow = some (r, data, tok) → tok' ≠ tok →
    answers (.tgtStpCommit f) s fun t => fobReplied t 5 [] ∧ t.m.tgt.stp.shadow = s.m.tgt.stp.shadow ∧ targetOnly s t) ∧
  (∀ (s : State) (f : StpRx) (x tok : BitVec 16),
    fobHears s f 0x07 (leBytes 2 x.toNat ++ leBytes 4 Config.targetUid.toNat ++ leBytes 2 tok.toNat) → s.m.tgt.stp.handle = some x →
    s.m.tgt.stp.tagState = 3 ∨ s.m.tgt.stp.tagState = 4 → s.m.tgt.stp.shadow = none → s.m.tgt.stp.lastTok = some tok →
    answers (.tgtStpCommit f) s fun t => fobReplied t 0 [8, 1, byte s.m.tgt.stp.lastGen] ∧ targetOnly s t) ∧
  (∀ (s : State) (f : StpRx) (x : BitVec 16), fobHears s f 0x08 (leBytes 2 x.toNat) → s.m.tgt.stp.handle = some x → s.m.tgt.stp.tagState = 3 →
    answers (.tgtStpQuiet f) s fun t =>
      t.m.tgt.stp.tagState = 5 ∧ t.m.tgt.stp.quiet = true ∧ t.m.tgt.stp.handle = none ∧ t.m.tgt.stp.former = some x ∧ fobReplied t 0 [] ∧
      targetOnly s t) ∧
  (∀ (s : State) (f : StpRx) (x : BitVec 16), fobHears s f 0x08 (leBytes 2 x.toNat) → s.m.tgt.stp.tagState = 5 →
    s.m.tgt.stp.former = some x → answers (.tgtStpQuiet f) s fun t => fobReplied t 0 [] ∧ t.m.tgt.stp.tagState = 5 ∧ targetOnly s t) ∧
  (∀ (s : State) (f : StpRx) (x : BitVec 16), fobHears s f 0x09 (0 :: leBytes 2 x.toNat) → s.m.tgt.stp.handle = some x →
    s.m.tgt.stp.tagState = 3 → answers (.tgtStpRelease f) s fun t =>
      t.m.tgt.stp.bound = none ∧ t.m.tgt.stp.tagState = 0 ∧ t.m.tgt.stp.handle = none ∧ t.m.tgt.stp.quiet = false ∧ fobReplied t 0 [] ∧
      targetOnly s t) ∧
  (∀ (s : State) (f : StpRx), fobHears s f 0x09 (1 :: leBytes 8 Config.targetUid.toNat) → answers (.tgtStpRelease f) s fun t =>
      t.m.tgt.stp.bound = none ∧ t.m.tgt.stp.tagState = 0 ∧ t.m.tgt.stp.quiet = false ∧ fobReplied t 0 [] ∧ targetOnly s t) ∧
  (∀ (s : State) (f : StpRx), fobHears s f 0x09 [2] → answers (.tgtStpRelease f) s fun t =>
      t.m.tgt.stp.bound = none ∧ t.m.tgt.stp.tagState = 0 ∧ t.m.tgt.resp = s.m.tgt.resp ∧ targetOnly s t) ∧
  (∀ (s : State) (f : StpRx) (x : BitVec 16) (ra : List Byte) (key : BitVec 128), fobHears s f 0x0A (leBytes 2 x.toNat ++ [0] ++ ra) →
    s.m.tgt.stp.handle = some x → s.m.tgt.stp.tagState = 3 → s.m.tgt.auth.lockout = false → s.lgr.key0 = some key → ra.length = 8 →
    answers (.tgtStpAuth1 f) s fun t =>
      t.m.tgt.auth.pending = some (0, ra, leBytes 8 (Config.free s.m.freeCtr).toNat) ∧
      fobReplied t 0 (aes128 key (ra ++ leBytes 8 (Config.free s.m.freeCtr).toNat)) ∧ targetOnly s t) ∧
  (∀ (s : State) (f : StpRx) (x : BitVec 16) (ra : List Byte), fobHears s f 0x0A (leBytes 2 x.toNat ++ [0] ++ ra) → ra.length = 8 →
    s.m.tgt.stp.handle = some x → s.m.tgt.stp.tagState = 3 → s.m.tgt.auth.lockout = true → answers (.tgtStpAuth1 f) s fun t =>
      fobReplied t 9 [] ∧ t.m.tgt.auth.pending = none ∧ targetOnly s t) ∧
  (∀ (s : State) (f : StpRx) (x : BitVec 16) (ra rb : List Byte) (key : BitVec 128),
    fobHears s f 0x0B (leBytes 2 x.toNat ++ aes128 key (rb ++ ra)) → (aes128 key (rb ++ ra)).length = 16 → s.m.tgt.stp.handle = some x →
    s.m.tgt.stp.tagState = 3 → s.m.pw.onHarvest = false → s.lgr.key0 = some key → s.m.tgt.auth.pending = some (0, ra, rb) →
    answers (.tgtStpAuth2 f) s fun t =>
      t.m.tgt.stp.tagState = 4 ∧ t.m.tgt.auth.key0 = true ∧ fobReplied t 0 [] ∧ t.lgr.head = s.lgr.head + 1 ∧ ledgerOnly s t)) ∧
  ((∀ (s : State) (f : StpRx) (code : Fin 11) (x : BitVec 16) (rest : List Byte), fobHears s f code.val (leBytes 2 x.toNat ++ rest) →
    3 ≤ code.val → code.val ≠ 9 → f.lengthOf ≠ some f.bytes.length → s.m.tgt.stp.handle = some x → s.m.tgt.stp.tagState = 3 →
    answers (.tgtStpUnknownFrame f) s fun t => fobReplied t 1 [] ∧ t.m.tgt.auth.pending = none ∧ targetOnly s t) ∧
  (∀ (s : State) (f : StpRx) (code : BitVec 8) (ps : List Byte), fobHears s f code.toNat ps → code = 0#8 ∨ 11 < code.toNat →
    answers (.tgtStpUnknownFrame f) s fun t => t = { s with m := { s.m with tgt := { s.m.tgt with
      stp := { s.m.tgt.stp with bound := some ((nth f.bytes 0 0).toNat % 128, f.level), heardAt := s.m.now, reply := none } } } }) ∧
  (∀ (s : State) (x : BitVec 16), s.m.tgt.session = .stp → s.m.tgt.stp.handle = some x → answers .tgtStpHandleDrop s fun t =>
      t.m.tgt.stp.handle = none ∧ t.m.tgt.stp.tagState = 0 ∧ t.m.tgt.stp.shadow = none ∧ t.m.tgt.stp.bound = s.m.tgt.stp.bound ∧
      t.m.tgt.auth.key0 = false ∧ t.m.tgt.auth.key1 = false ∧ t = { s with m := { s.m with tgt := t.m.tgt } }) ∧
  (∀ (s : State) (f : StpRx) (claim : Bool) (tag tag' : BitVec 7) (l : Int), fobDecodes s f → spoken f tag claim 0x02 [] →
    s.m.tgt.stp.bound = some (tag'.toNat, l) → tag' ≠ tag → f.level - l < 50 → claim = false → exec (.tgtStpSingle f) s = .next s) ∧
  (∀ (s : State) (f : StpRx) (claim : Bool) (tag tag' : BitVec 7) (l : Int), fobDecodes s f → spoken f tag claim 0x02 [] →
    s.m.tgt.stp.bound = some (tag'.toNat, l) → tag' ≠ tag → 70 ≤ f.level - l → answers (.tgtStpSingle f) s fun t =>
      t.m.tgt.stp.bound = some (tag.toNat, f.level) ∧ t.m.tgt.stp.tagState = 3 ∧ t.m.tgt.stp.quiet = false ∧
      t.m.tgt.resp.head? = some 0x20 ∧ targetOnly s t) ∧
  (∀ (s : State) (f : StpRx) (claim : Bool) (tag : BitVec 7), fobDecodes s f → spoken f tag claim 0x02 [] →
    s.m.tgt.stp.bound = none → s.m.tgt.stp.tagState = 0 → answers (.tgtStpSingle f) s fun t =>
      t.m.tgt.stp.bound = some (tag.toNat, f.level) ∧ t.m.tgt.stp.tagState = 3 ∧ t.m.tgt.resp.head? = some 0x10 ∧ targetOnly s t) ∧
  (∀ (s : State) (f : StpRx) (rate a b : Nat), fobOpen s → 120 ≤ f.depth → f.valid = false → rxRate f.first = some rate →
    s.m.tgt.stp.reply = some (a, b) → frameFrom s f rate < a → answers (.tgtStpUnknownFrame f) s fun t =>
      t.m.tgt.resp = [] ∧ t.m.tgt.stp.reply = none ∧ t.m.tgt.stp.handle = s.m.tgt.stp.handle ∧ targetOnly s t) ∧
  (∀ (s : State) (f : StpRx) (rate a b : Nat), fobOpen s → 120 ≤ f.depth → rxRate f.first = some rate → s.m.tgt.stp.reply = some (a, b) →
    a ≤ frameFrom s f rate → frameFrom s f rate < b + fcTicks 256 → exec (.tgtStpSingle f) s = .next s) ∧
  (∀ (s : State) (f : StpRx), 120 ≤ f.depth → rxRate f.first = none → exec (.tgtStpSingle f) s = .next s))

/-- The wired ledger ports (R366, R370, R371, R383, R492): the answers of reads, of STATUS and of LEASE, the writes that go to the arbiter, and those
that are refused, for commands with a good check; one with a bad check ends `FRAME`. A read waits while a write holds the ledger.
Model choices it rests on: log 28. -/
def Obligations.LedgerPorts : Prop :=
  (∀ (s : State) (w : Wired) (n check : BitVec 16) (b : List Byte), wiredReady s w → s.lgr.held = false →
    wiredGood w 1 (leBytes 2 n.toNat) check = true → 1 ≤ n.toNat → n.toNat ≤ 240 → n.toNat ≤ s.lgr.head →
    s.lgr.at_ (s.lgr.head + 1 - n.toNat) = some b → answers (.ledgerReadAudit w n check) s fun t =>
      wiredAnswered t w 0 (auditBytes (s.lgr.head + 1 - n.toNat) b) ∧ targetOnly s t) ∧
  (∀ (s : State) (w : Wired) (n check : BitVec 16), wiredReady s w → wiredGood w 1 (leBytes 2 n.toNat) check = false →
    answers (.ledgerReadAudit w n check) s fun t => wiredAnswered t w 6 [] ∧ targetOnly s t) ∧
  (∀ (s : State) (w : Wired) (n check : BitVec 16), wiredReady s w → s.lgr.held = false → wiredGood w 1 (leBytes 2 n.toNat) check = true →
    n.toNat = 0 ∨ 240 < n.toNat ∨ s.lgr.head < n.toNat → answers (.ledgerReadAudit w n check) s fun t =>
      wiredAnswered t w 5 [] ∧ targetOnly s t) ∧
  (∀ (s : State) (w : Wired) (n check : BitVec 16), wiredReady s w → s.lgr.held = true → wiredGood w 1 (leBytes 2 n.toNat) check = true →
    answers (.ledgerReadAudit w n check) s fun t =>
      t.lgr = { s.lgr with waiting := s.lgr.waiting ++ [LAccess.mk (wiredPort w) (.read 1 n.toNat) 4 false] } ∧ ledgerOnly s t) ∧
  (∀ (s : State) (w : Wired) (r check : BitVec 16), wiredReady s w → s.lgr.held = false → wiredGood w 2 (leBytes 2 r.toNat) check = true →
    s.lgr.noBank = false → r.toNat ≤ 15 → answers (.ledgerReadSetting w r check) s fun t =>
      wiredAnswered t w 0 (s.lgr.cur.record r.toNat) ∧ targetOnly s t) ∧
  (∀ (s : State) (w : Wired) (lo check : BitVec 16) (data : List Byte), wiredReady s w →
    wiredGood w 3 (leBytes 2 lo.toNat ++ data) check = true → data.length = 49 → 0x20 ≤ (nth data 2 0).toNat →
    answers (.ledgerAppendAudit w lo data check) s fun t =>
      t.lgr = { s.lgr with waiting := s.lgr.waiting ++ [LAccess.mk (wiredPort w) (.append (auditBody (nth data 2 0).toNat
        (if w = .i2c then 3 else 4) (leNat ((data.drop 3).take 4)) (lo.toNat + 65536 * leNat (data.take 2)) (data.drop 7))) 4 false] } ∧
      ledgerOnly s t) ∧
  (∀ (s : State) (w : Wired) (lo check : BitVec 16) (data : List Byte), wiredReady s w →
    wiredGood w 3 (leBytes 2 lo.toNat ++ data) check = true → data.length = 49 → (nth data 2 0).toNat < 0x20 →
    answers (.ledgerAppendAudit w lo data check) s fun t => wiredAnswered t w 5 [] ∧ targetOnly s t) ∧
  (∀ (s : State) (w : Wired) (r check : BitVec 16) (data : List Byte), wiredReady s w →
    wiredGood w 4 (leBytes 2 r.toNat ++ data) check = true → data.length = 20 → 12 ≤ r.toNat → r.toNat ≤ 15 →
    (∀ a ∈ s.lgr.waiting, a.isSetting = false) → (∀ a, s.lgr.running = some a → a.isSetting = false) →
    answers (.ledgerWriteSetting w r data check) s fun t =>
      t.lgr = { s.lgr with waiting := s.lgr.waiting ++ [LAccess.mk (wiredPort w) (.setting r.toNat data) 4 false] } ∧ ledgerOnly s t) ∧
  (∀ (s : State) (w : Wired) (r check : BitVec 16) (data : List Byte), wiredReady s w →
    wiredGood w 4 (leBytes 2 r.toNat ++ data) check = true → data.length = 20 → 12 ≤ r.toNat → r.toNat ≤ 15 →
    (∃ a ∈ s.lgr.waiting, a.isSetting = true) → answers (.ledgerWriteSetting w r data check) s fun t =>
      wiredAnswered t w 2 [] ∧ targetOnly s t) ∧
  (∀ (s : State) (w : Wired) (check : BitVec 16), wiredReady s w → s.lgr.held = false → wiredGood w 5 [0, 0] check = true →
    answers (.ledgerStatus w check) s fun t =>
      (∃ data, wiredAnswered t w 0 data ∧ data.length = 16 ∧ data.take 8 = leBytes 4 s.lgr.head ++ leBytes 4 s.lgr.oldest) ∧ targetOnly s t) ∧
  (∀ (s : State) (w : Wired) (n check : BitVec 16), wiredReady s w → wiredGood w 6 (leBytes 2 n.toNat) check = true → 1 ≤ n.toNat →
    n.toNat ≤ 60 → s.lgr.leaseBy = none ∨ s.lgr.leaseBy = some w → (∀ a, s.lgr.running = some a → a.port ≠ .field) →
    answers (.ledgerLease w n check) s fun t =>
      t.lgr = { s.lgr with leaseBy := some w, leaseEnd := s.m.now + n.toNat * 400000000 } ∧ wiredAnswered t w 0 [] ∧ ledgerOnly s t) ∧
  (∀ (s : State) (w : Wired) (check : BitVec 16), wiredReady s w → wiredGood w 6 [0, 0] check = true → s.lgr.leaseBy = some w →
    (∀ a, s.lgr.running = some a → a.port ≠ .field) → answers (.ledgerLease w 0#16 check) s fun t =>
      t.lgr = { s.lgr with leaseBy := none, leaseEnd := 0 } ∧ wiredAnswered t w 0 [] ∧ ledgerOnly s t) ∧
  (∀ (s : State) (w w' : Wired) (n check : BitVec 16), wiredReady s w → wiredGood w 6 (leBytes 2 n.toNat) check = true → n.toNat ≤ 60 →
    s.lgr.leaseBy = some w' → w' ≠ w → (∀ a, s.lgr.running = some a → a.port ≠ .field) → answers (.ledgerLease w n check) s fun t =>
      wiredAnswered t w 1 [] ∧ targetOnly s t) ∧
  (∀ (s : State) (w : Wired) (n check : BitVec 16), wiredReady s w → wiredGood w 6 (leBytes 2 n.toNat) check = true → 60 < n.toNat →
    answers (.ledgerLease w n check) s fun t => wiredAnswered t w 5 [] ∧ targetOnly s t) ∧
  (∀ s : State, exec .leaseExpiry s = .next { s with lgr := { s.lgr with leaseBy := none, leaseEnd := 0 } })

/-- The arbiter (R366, R367, R369, R370, R373, R375): a waiting access is given the free ledger; a lease turns the field away; a repeated append writes
nothing; a write that completes stands in the ring or in the current bank; an access of the field has a wired append finish first; a wired access that has waited 3 ms ends `BUSY`.
Model choices it rests on: logs 3, 28 and 36. -/
def Obligations.LedgerArbiter : Prop :=
  (∀ (s : State) (a : LAccess), s.lgr.waiting = [a] → s.lgr.running = none → a.isRead = false → a.started = false → s.lgr.leaseBy = none →
    lUnchanged s.lgr a = none → s.m.pw.onHarvest = false →
    exec .ledgerAccessStart s = .next { s with lgr := { s.lgr with waiting := [], running := some { a with started := true } } }) ∧
  (∀ (s : State) (a : LAccess) (w : Wired), s.lgr.waiting = [a] → s.lgr.running = none → a.isRead = false → a.started = false → a.port = .field →
    s.lgr.leaseBy = some w → answers .ledgerAccessStart s fun t => t.lgr = { s.lgr with waiting := [] } ∧ ledgerOnly s t) ∧
  (∀ (s : State) (a : LAccess) (q : Nat), s.lgr.waiting = [a] → s.lgr.running = none → a.started = false → s.lgr.leaseBy = none →
    lUnchanged s.lgr a = some q → answers .ledgerAccessStart s fun t => t.lgr = { s.lgr with waiting := [] } ∧ ledgerOnly s t) ∧
  (∀ (s : State) (w : Wired) (n : Nat) (b : List Byte), s.lgr.waiting = [LAccess.mk (wiredPort w) (.read 1 n) 4 false] → s.lgr.running = none →
    1 ≤ n → n ≤ 240 → n ≤ s.lgr.head → s.lgr.at_ (s.lgr.head + 1 - n) = some b → answers .ledgerAccessStart s fun t =>
      t.lgr = { s.lgr with waiting := [] } ∧ wiredAnswered t w 0 (auditBytes (s.lgr.head + 1 - n) b) ∧ ledgerOnly s t) ∧
  (∀ s : State, s.lgr.waiting = [] → exec .ledgerAccessStart s = .next s) ∧
  (∀ (s : State) (body : List Byte), s.lgr.running = some (LAccess.mk .i2c (.append body) 4 true) → answers .ledgerWriteComplete s fun t =>
      t.lgr.head = s.lgr.head + 1 ∧ t.lgr.ring[slotOf (s.lgr.head + 1)] = .record (s.lgr.head + 1) (stampBody s.m body) ∧
      (∀ i : Fin 240, i ≠ slotOf (s.lgr.head + 1) → t.lgr.ring[i] = s.lgr.ring[i]) ∧ t.lgr.running = none ∧
      wiredAnswered t .i2c 0 (leBytes 4 (s.lgr.head + 1)) ∧ ledgerOnly s t) ∧
  (∀ (s : State) (body : List Byte), s.lgr.running = some (LAccess.mk .field (.append body) 1 true) → s.m.tgt.session = .iso →
    answers .ledgerWriteComplete s fun t =>
      t.lgr.head = s.lgr.head + 1 ∧ t.lgr.ring[slotOf (s.lgr.head + 1)] = .record (s.lgr.head + 1) (stampBody s.m body) ∧
      t.lgr.running = none ∧ apduAnswered s t (leBytes 4 (s.lgr.head + 1)) 0x9000 ∧ ledgerOnly s t) ∧
  (∀ (s : State) (r : Nat) (data : List Byte), s.lgr.running = some (LAccess.mk .i2c (.setting r data) 4 true) → 12 ≤ r → r ≤ 15 →
    s.lgr.cur.host.length = 4 → answers .ledgerWriteComplete s fun t =>
      t.lgr.cur.host = s.lgr.cur.host.set (r - 12) data ∧ t.lgr.cur.persist = s.lgr.cur.persist ∧ t.lgr.cur.valid = true ∧
      t.lgr.cur.seq = s.lgr.cur.seq + 1 ∧ t.lgr.current = !s.lgr.current ∧ t.lgr.ring = s.lgr.ring ∧ t.lgr.running = none ∧
      wiredAnswered t .i2c 0 [] ∧ ledgerOnly s t) ∧
  (∀ s : State, s.lgr.running = none → exec .ledgerWriteComplete s = .next s) ∧
  (∀ (s : State) (body : List Byte), apduHears s = true → s.m.tgt.iso.selected = true →
    s.lgr.running = some (LAccess.mk .i2c (.append body) 4 true) → answers (.tgtReadBinary 0x82#8 0x00#8 4) s fun t =>
      apduAnswered s t (leBytes 4 (s.lgr.head + 1)) 0x9000 ∧ t.lgr.running = none ∧
      t.lgr.ring[slotOf (s.lgr.head + 1)] = .record (s.lgr.head + 1) (stampBody s.m body) ∧
      wiredAnswered t .i2c 0 (leBytes 4 (s.lgr.head + 1)) ∧ ledgerOnly s t) ∧
  (∀ (s : State) (w : Wired) (a : LAccess), s.lgr.waiting = [a] → a.port = wiredPort w → a.started = false → a.reply = 4 →
    answers (.wiredAccessTimeout w) s fun t => t.lgr = { s.lgr with waiting := [] } ∧ wiredAnswered t w 1 [] ∧ ledgerOnly s t) ∧
  (∀ (s : State) (w : Wired), (∀ a ∈ s.lgr.waiting, a.port ≠ wiredPort w) → exec (.wiredAccessTimeout w) s = .next s)

/-- Every step keeps the audit ring (R362, R364, R373): each valid record stands in the slot of its sequence number, and none is newer than the newest. -/
def Obligations.EveryStepKeepsTheRing : Prop :=
  ∀ s t : State, ringKept s.lgr → step s = .next t → ringKept t.lgr

/-- The audit ring is well kept at reset. -/
def Obligations.RingAtReset : Prop := ringKept State.reset.lgr

/-- The receiver up to the header (R398–R402, R404, R409, R410): gate and hysteresis, the qualifier, the detection that takes the lowest free demodulator,
the demodulator's steps, the gain steps and the retune.
Model choices it rests on: logs 3 and 29. -/
def Obligations.RadioReceiver : Prop :=
  (∀ (s : State) (ch : Fin 64) (power : Int), hunted s.m ch.val = true → ch.val ∉ s.m.rad.gates → cfgI s.m 16 0x4000 0x07 ≤ power →
    exec (.rssiGateUpdate ch power) s = .next { s with m := modRad s.m fun r => { r with gates := r.gates ++ [ch.val] } }) ∧
  (∀ (s : State) (ch : Fin 64) (power : Int), hunted s.m ch.val = true → ch.val ∈ s.m.rad.gates → power < cfgI s.m 16 0x4000 0x07 - 30 →
    answers (.rssiGateUpdate ch power) s fun t => ch.val ∉ t.m.rad.gates ∧ (∀ c, c ≠ ch.val → (c ∈ t.m.rad.gates ↔ c ∈ s.m.rad.gates)) ∧
      (∀ q ∈ t.m.rad.quals, q.ch ≠ ch.val) ∧ mainOnly s t ∧ chirpOnly s.m t.m) ∧
  (∀ (s : State) (ch : Fin 64) (power : Int), ch.val ∈ s.m.rad.gates → cfgI s.m 16 0x4000 0x07 - 30 ≤ power →
    exec (.rssiGateUpdate ch power) s = .next s) ∧
  (∀ (s : State) (ch : Fin 64) (o : Fin 7) (p : Option ChirpPeak), detects s.m ch o → (∀ x, p = some x → x.above < cfgN s.m 0x4000 0x0A) →
    answers (.detectorWindow ch o p) s fun t => qualOf t.m ch.val (8 + o.val) = none ∧
      (∀ c n, (c, n) ≠ (ch.val, 8 + o.val) → qualOf t.m c n = qualOf s.m c n) ∧ mainOnly s t ∧ chirpOnly s.m t.m) ∧
  (∀ (s : State) (ch : Fin 64) (o : Fin 7) (p : ChirpPeak), detects s.m ch o → cfgN s.m 0x4000 0x0A ≤ p.above →
    (∀ q, qualOf s.m ch.val (8 + o.val) = some q → onTrack (8 + o.val) q.track p.shift = false ∨ q.count < 4) →
    answers (.detectorWindow ch o (some p)) s fun t => (∃ c, qualOf t.m ch.val (8 + o.val) = some ⟨ch.val, 8 + o.val, c, p.shift⟩ ∧
        (qualOf s.m ch.val (8 + o.val) = none → c = 1) ∧
        ∀ q, qualOf s.m ch.val (8 + o.val) = some q → c = if onTrack (8 + o.val) q.track p.shift then q.count + 1 else 1) ∧
      (∀ c n, (c, n) ≠ (ch.val, 8 + o.val) → qualOf t.m c n = qualOf s.m c n) ∧ mainOnly s t ∧ chirpOnly s.m t.m) ∧
  (∀ (s : State) (ch : Fin 64) (o : Fin 7) (p : ChirpPeak) (q : Qualifier) (d : Fin 8), detects s.m ch o → cfgN s.m 0x4000 0x0A ≤ p.above →
    qualOf s.m ch.val (8 + o.val) = some q → q.count = 4 → onTrack (8 + o.val) q.track p.shift = true → noDemodOn s.m ch.val (8 + o.val) →
    (s.m.rad.demods[d]).st = 0 → (∀ i : Fin 8, i.val < d.val → (s.m.rad.demods[i]).st ≠ 0) →
    answers (.detectorWindow ch o (some p)) s fun t => (t.m.rad.demods[d]).st = 1 ∧ (t.m.rad.demods[d]).channel = ch.val ∧
      (t.m.rad.demods[d]).order = 8 + o.val ∧ (t.m.rad.demods[d]).track = p.shift ∧ (t.m.rad.demods[d]).level = p.level ∧
      (∀ i : Fin 8, i ≠ d → t.m.rad.demods[i] = s.m.rad.demods[i]) ∧ qualOf t.m ch.val (8 + o.val) = none ∧
      counter t.m 0x70E0 0x01 = sat32 (counter s.m 0x70E0 0x01 + 1) ∧ mainOnly s t ∧ chirpOnly s.m t.m) ∧
  (∀ (s : State) (ch : Fin 64) (o : Fin 7) (p : ChirpPeak) (q : Qualifier), detects s.m ch o → cfgN s.m 0x4000 0x0A ≤ p.above →
    qualOf s.m ch.val (8 + o.val) = some q → q.count = 4 → onTrack (8 + o.val) q.track p.shift = true → noDemodOn s.m ch.val (8 + o.val) →
    (∀ i : Fin 8, (s.m.rad.demods[i]).st ≠ 0) → answers (.detectorWindow ch o (some p)) s fun t =>
      t.m.rad.demods = s.m.rad.demods ∧ qualOf t.m ch.val (8 + o.val) = none ∧
      counter t.m 0x70E0 0x07 = sat32 (counter s.m 0x70E0 0x07 + 1) ∧ mainOnly s t ∧ chirpOnly s.m t.m) ∧
  (∀ (s : State) (d : Fin 8) (bad : Bool), (s.m.rad.demods[d]).st = 1 → (s.m.rad.demods[d]).space = none →
    exec (.demodPreambleLost d bad) s = .next { s with
      m := modDemod (count s.m 0x70E0 (if bad then 0x03 else 0x02)) d fun y => { y with st := 0, space := none, dropped := false } }) ∧
  (∀ (s : State) (d : Fin 8) (bad : Bool), (s.m.rad.demods[d]).st ≠ 1 → exec (.demodPreambleLost d bad) s = .next s) ∧
  (∀ (s : State) (d : Fin 8) (x : SyncMeasure) (v : Int), (s.m.rad.demods[d]).st = 1 →
    syncOffset (s.m.rad.demods[d]).order (cfgN s.m 0x4000 0x03) x = some v → answers (.demodSync d x) s fun t =>
      (t.m.rad.demods[d]).st = 2 ∧ (t.m.rad.demods[d]).syncAt = s.m.now ∧
      (t.m.rad.demods[d]).rotator = -roundDiv (v * 2 * (chanOf s.m (s.m.rad.demods[d]).channel).bw) (400 * 2 ^ (s.m.rad.demods[d]).order) ∧
      (∀ i : Fin 8, i ≠ d → t.m.rad.demods[i] = s.m.rad.demods[i]) ∧ mainOnly s t ∧ chirpOnly s.m t.m) ∧
  (∀ (s : State) (d : Fin 8) (x : SyncMeasure), (s.m.rad.demods[d]).st = 1 → (s.m.rad.demods[d]).space = none →
    syncOffset (s.m.rad.demods[d]).order (cfgN s.m 0x4000 0x03) x = none →
    exec (.demodSync d x) s = .next { s with m := modDemod (count s.m 0x70E0 0x03) d fun y => { y with st := 0, space := none, dropped := false } }) ∧
  (∀ (s : State) (d : Fin 8) (symbols : List Nat), (s.m.rad.demods[d]).st = 2 → symbols.length = 24 → headerGood s.m d symbols →
    answers (.demodHeader d symbols) s fun t =>
      (t.m.rad.demods[d]).st = 3 ∧ (t.m.rad.demods[d]).length = headerOf s.m d symbols % 256 ∧
      (t.m.rad.demods[d]).precomp = bitAt (headerOf s.m d symbols) 14 ∧
      (t.m.rad.demods[d]).bits = heardBits (heardWords (s.m.rad.demods[d]).order symbols) ∧
      (∀ i : Fin 8, i ≠ d → t.m.rad.demods[i] = s.m.rad.demods[i]) ∧ mainOnly s t ∧ chirpOnly s.m t.m) ∧
  (∀ (s : State) (d : Fin 8) (symbols : List Nat), (s.m.rad.demods[d]).st = 2 → (s.m.rad.demods[d]).space = none → symbols.length = 24 →
    ¬ headerGood s.m d symbols → exec (.demodHeader d symbols) s = .next { s with
      m := modDemod (count s.m 0x70E0 0x04) d fun y => { y with st := 0, space := none, dropped := false } }) ∧
  (∀ (s : State) (d : Fin 8) (symbols : List Nat), (s.m.rad.demods[d]).st ≠ 2 ∨ symbols.length ≠ 24 →
    exec (.demodHeader d symbols) s = .next s) ∧
  (∀ (s : State) (peak : Int), radioListens s.m = true → feRested s.m s.m.rad.feAtA → -60 < peak → 0 < s.m.rad.feA →
    exec (.feGainStep false peak false) s = .next { s with
      m := count (modRad s.m fun r => { r with feA := r.feA - 1, feAtA := some s.m.now }) 0x70E0 0x0D }) ∧
  (∀ (s : State) (peak : Int), radioListens s.m = true → feRested s.m s.m.rad.feAtA → peak < -180 → s.m.rad.feA < 30 →
    exec (.feGainStep false peak false) s = .next { s with
      m := count (modRad s.m fun r => { r with feA := r.feA + 1, feAtA := some s.m.now }) 0x70E0 0x0D }) ∧
  (∀ (s : State) (peak : Int), radioListens s.m = true → feRested s.m s.m.rad.feAtB → -60 < peak → 0 < s.m.rad.feB →
    exec (.feGainStep true peak false) s = .next { s with
      m := count (modRad s.m fun r => { r with feB := r.feB - 1, feAtB := some s.m.now }) 0x70E0 0x0D }) ∧
  (∀ (s : State) (peak : Int), radioListens s.m = true → feRested s.m s.m.rad.feAtB → peak < -180 → s.m.rad.feB < 30 →
    exec (.feGainStep true peak false) s = .next { s with
      m := count (modRad s.m fun r => { r with feB := r.feB + 1, feAtB := some s.m.now }) 0x70E0 0x0D }) ∧
  (∀ (s : State) (b : Bool) (peak : Int), (-180 ≤ peak ∧ peak ≤ -60) ∨ ¬ feRested s.m (if b then s.m.rad.feAtB else s.m.rad.feAtA) →
    exec (.feGainStep b peak false) s = .next s) ∧
  (∀ (s : State) (b : Bool) (d : Fin 8) (peak : Int), radioListens s.m = true → (s.m.rad.demods[d]).st ≠ 0 → -180 ≤ peak → peak ≤ -60 →
    exec (.feGainStep b peak true) s = .next { s with m := count s.m 0x70E0 0x0C }) ∧
  (∀ (s : State) (hz : Nat), radioOn s.m = true → 780000000 ≤ hz → hz ≤ 1020000000 → answers (.radioRetune hz) s fun t =>
      t.m.rad.fLO = hz ∧ t.m.rad.gates = [] ∧ t.m.rad.quals = [] ∧ (∀ d : Fin 8, (t.m.rad.demods[d]).st = 0) ∧ t.m.rad.chans = s.m.rad.chans ∧
      t.m.rad.hold = s.m.rad.hold ∧ t.m.pts = s.m.pts ∧ mainOnly s t ∧ chirpOnly s.m t.m) ∧
  (∀ (s : State) (hz : Nat), radioOn s.m = false ∨ hz < 780000000 ∨ 1020000000 < hz → exec (.radioRetune hz) s = .next s)

/-- The regional profile and the channel table (R387, R389): a profile written in CALIBRATE fills the table and the limits; an entry is taken or
refused and counted.
Partner keys and states (R419, R421, R442, R443): a key is written in a main mode and starts both counters again; 0xE5 in CALIBRATE erases the
key store and empties every partner; a partner becomes ACTIVE only with a key.
Model choices it rests on: logs 3 and 29. -/
def Obligations.RadioProfileAndKeys : Prop :=
  ((∀ s : State, s.m.pw.mode = .calibrate → s.m.pw.onHarvest = false → s.lgr.leaseBy ≠ some .i2c →
    s.m.pw.ctlDown = false → s.lgr.held = false → answers (.radioProfileWrite 1#8) s fun t =>
      t.m.rad.profile = 1 ∧ t.m.rad.fLow = 863000000 ∧ t.m.rad.fHigh = 870000000 ∧ t.m.rad.txMax = 14 ∧ t.m.rad.hopMin = 1 ∧
      (∀ c : Fin 64, c.val < 35 → t.m.rad.chans[c] = (word (863100000 + 200000 * c.val), 0x1FD#32)) ∧
      (∀ c : Fin 64, 35 ≤ c.val → (chanOf t.m c.val).en = false) ∧ cfgN t.m 0x4000 0x02 = 1 ∧ t.keys = s.keys ∧ t.pending = s.pending) ∧
  (∀ s : State, s.m.pw.mode = .calibrate → s.m.pw.onHarvest = false → s.lgr.leaseBy ≠ some .i2c →
    s.m.pw.ctlDown = false → s.lgr.held = false → answers (.radioProfileWrite 2#8) s fun t =>
      t.m.rad.profile = 2 ∧ t.m.rad.fLow = 902000000 ∧ t.m.rad.fHigh = 928000000 ∧ t.m.rad.txMax = 27 ∧ t.m.rad.hopMin = 50 ∧
      (∀ c : Fin 64, t.m.rad.chans[c] = (word (902200000 + 400000 * c.val), 0x1FF#32)) ∧ cfgN t.m 0x4000 0x02 = 2 ∧
      t.keys = s.keys ∧ t.pending = s.pending) ∧
  (∀ s : State, s.m.pw.mode = .calibrate → s.m.pw.onHarvest = false → s.lgr.leaseBy ≠ some .i2c →
    s.m.pw.ctlDown = false → s.lgr.held = false → answers (.radioProfileWrite 0#8) s fun t =>
      t.m.rad.profile = 0 ∧ t.m.rad.fLow = 780000000 ∧ t.m.rad.fHigh = 1020000000 ∧ t.m.rad.txMax = 27 ∧ t.m.rad.hopMin = 1 ∧
      t.m.rad.chans = s.m.rad.chans ∧ t.keys = s.keys ∧ t.pending = s.pending) ∧
  (∀ (s : State) (v : BitVec 8), s.m.pw.mode ≠ .calibrate ∨ 2 < v.toNat → exec (.radioProfileWrite v) s = .next s) ∧
  (∀ (s : State) (ch : Fin 64) (w0 w1 : Word), s.m.pw.mode.isMain = true → s.m.pw.ctlDown = false → s.m.rad.profile = 0 → s.m.rad.fLow ≤ w0.toNat → w0.toNat ≤ s.m.rad.fHigh →
    s.m.rad.hopMin ≤ 1 → bitAt w1.toNat 0 = true → field w1.toNat 10 6 ≤ 61 → exec (.channelTableWrite ch w0 w1) s = .next { s with
      m := modRad s.m fun r => { r with chans := updV r.chans ch fun _ => (w0, w1 &&& 0x0000FDFF#32) } }) ∧
  (∀ (s : State) (ch : Fin 64) (w0 w1 : Word), s.m.pw.mode.isMain = true → s.m.pw.ctlDown = false → w0.toNat < s.m.rad.fLow ∨ s.m.rad.fHigh < w0.toNat →
    exec (.channelTableWrite ch w0 w1) s = .next { s with m := count s.m 0x70E0 0x0E }) ∧
  (∀ (s : State) (ch : Fin 64) (w0 w1 : Word), s.m.pw.mode.isMain = true → s.m.pw.ctlDown = false → s.m.rad.profile ≠ 0 → w0 ≠ (s.m.rad.chans[ch]).1 →
    exec (.channelTableWrite ch w0 w1) s = .next { s with m := count s.m 0x70E0 0x0E }) ∧
  (∀ (s : State) (ch : Fin 64) (w0 w1 : Word), s.m.pw.mode.isMain = false → exec (.channelTableWrite ch w0 w1) s = .next s)) ∧
  ((∀ (s : State) (n : Fin 256) (key : BitVec 128), s.m.pw.mode.isMain = true → s.m.pw.ctlDown = false → answers (.partnerKeyWrite n key) s fun t =>
      t.keys.partner[n] = some key ∧ (∀ i : Fin 256, i ≠ n → t.keys.partner[i] = s.keys.partner[i]) ∧ t.keys.fobKeys = s.keys.fobKeys ∧
      (t.m.pts[n]).txCtr = 0 ∧ (t.m.pts[n]).rxCtr = 0 ∧ (∀ i : Fin 256, i ≠ n → t.m.pts[i] = s.m.pts[i]) ∧
      t.lgr = s.lgr ∧ t.pending = s.pending ∧ chirpOnly s.m t.m) ∧
  (∀ (s : State) (n : Fin 256) (key : BitVec 128), s.m.pw.mode.isMain = false → exec (.partnerKeyWrite n key) s = .next s) ∧
  (∀ s : State, s.m.pw.mode = .calibrate → s.m.pw.ctlDown = false → answers (.keyErase 0xE5#8) s fun t =>
      (∀ n : Fin 256, t.keys.partner[n] = none ∧ (t.m.pts[n]).state = 0) ∧ t.keys.fobKeys = State.reset.keys.fobKeys ∧ t.m.rad.guard = [] ∧
      t.m.rad.callDue = [] ∧ t.lgr = s.lgr ∧ t.pending = s.pending ∧ chirpOnly s.m t.m) ∧
  (∀ (s : State) (v : BitVec 8), s.m.pw.mode ≠ .calibrate ∨ v ≠ 0xE5#8 → exec (.keyErase v) s = .next s) ∧
  (∀ (s : State) (n : Fin 256), s.m.pw.mode.isMain = true → s.m.pw.ctlDown = false → answers (.partnerStateWrite n 0#8) s fun t =>
      (t.m.pts[n]).state = 0 ∧ n ∉ t.m.rad.guard ∧ n ∉ t.m.rad.callDue ∧ (∀ i : Fin 256, i ≠ n → t.m.pts[i] = s.m.pts[i]) ∧
      mainOnly s t ∧ chirpOnly s.m t.m) ∧
  (∀ (s : State) (n : Fin 256) (key : BitVec 128), s.m.pw.mode.isMain = true → s.m.pw.ctlDown = false → s.keys.partner[n] = some key →
    answers (.partnerStateWrite n 1#8) s fun t => (t.m.pts[n]).state = 1 ∧ (t.m.pts[n]).misses = 0 ∧ n ∉ t.m.rad.callDue ∧
      (∀ i : Fin 256, i ≠ n → t.m.pts[i] = s.m.pts[i]) ∧ mainOnly s t ∧ chirpOnly s.m t.m) ∧
  (∀ (s : State) (n : Fin 256), s.keys.partner[n] = none → exec (.partnerStateWrite n 1#8) s = .next s) ∧
  (∀ (s : State) (n : Fin 256), s.m.pw.mode.isMain = true → s.m.pw.ctlDown = false → (s.m.pts[n]).state ≠ 0 → isSat s.m = false →
    answers (.partnerStateWrite n 3#8) s fun t => (t.m.pts[n]).state = 3 ∧ (t.m.pts[n]).calls = 0 ∧ n ∈ t.m.rad.callDue ∧
      (∀ i : Fin 256, i ≠ n → t.m.pts[i] = s.m.pts[i]) ∧ mainOnly s t ∧ chirpOnly s.m t.m) ∧
  (∀ (s : State) (n : Fin 256) (v : BitVec 8), s.m.pw.mode.isMain = false ∨ v = 2#8 ∨ 3 < v.toNat → exec (.partnerStateWrite n v) s = .next s))

/-- Channel access and transmission (R411, R419, R422–R424, R433, R438–R440).
Model choices it rests on: logs 3 and 29. -/
def Obligations.RadioTransmit : Prop :=
  (∀ (s : State) (k : TxKind) (powers : List Int), (∀ p ∈ powers, p < cfgI s.m 16 0x4100 0x04) → radioOn s.m = true → s.m.rad.tx.active = false → s.m.rad.tx.access = none → s.m.rad.tx.backoff = none →
    s.m.rad.ackWait = none → nextTx s.m = some k →
    exec (.lbtMeasureEnd powers) s = .next { s with m := modRad s.m fun r => { r with tx := { r.tx with access := some k } } }) ∧
  (∀ (s : State) (i : Nat) (h : Held) (powers : List Int), (∃ p ∈ powers, cfgI s.m 16 0x4100 0x04 ≤ p) → radioOn s.m = true →
    s.m.rad.tx.active = false → s.m.rad.tx.access = none → s.m.rad.tx.backoff = none →
    s.m.rad.ackWait = none → nextTx s.m = some (.held i) → s.m.rad.hold[i]? = some h → h.busy + 1 < cfgN s.m 0x4100 0x06 →
    answers (.lbtMeasureEnd powers) s fun t => (∃ b, t.m.rad.tx.backoff = some b ∧ b < 2 ^ h.kAtt) ∧ t.m.rad.tx.access = none ∧
      t.m.rad.hold = s.m.rad.hold.set i { h with kAtt := min 7 (h.kAtt + 1), busy := h.busy + 1 } ∧
      counter t.m 0x70F0 0x01 = sat32 (counter s.m 0x70F0 0x01 + 1) ∧ mainOnly s t ∧ chirpOnly s.m t.m) ∧
  (∀ (s : State) (i : Nat) (h : Held) (powers : List Int), (∃ p ∈ powers, cfgI s.m 16 0x4100 0x04 ≤ p) → radioOn s.m = true →
    s.m.rad.tx.active = false → s.m.rad.tx.access = none → s.m.rad.tx.backoff = none →
    s.m.rad.ackWait = none → nextTx s.m = some (.held i) → s.m.rad.hold[i]? = some h → cfgN s.m 0x4100 0x06 ≤ h.busy + 1 →
    answers (.lbtMeasureEnd powers) s fun t => t.m.rad.tx.backoff = none ∧ t.m.rad.tx.access = none ∧
      t.m.rad.hold = s.m.rad.hold.set i { h with deferred := true, again := false, kAtt := 3, busy := 0 } ∧
      counter t.m 0x70F0 0x02 = sat32 (counter s.m 0x70F0 0x02 + 1) ∧ mainOnly s t ∧ chirpOnly s.m t.m) ∧
  (∀ (s : State) (powers : List Int), nextTx s.m = none → exec (.lbtMeasureEnd powers) s = .next s) ∧
  (∀ s : State, exec .backoffExpiry s = .next { s with m := modRad s.m fun r => { r with tx := { r.tx with backoff := none } } }) ∧
  (∀ (s : State) (k : TxKind) (p : TxPlan) (key : BitVec 128), txGoes s k p key → answers (.radioTxStart k) s fun t => txOnAir s t k p key) ∧
  (∀ (s : State) (k : TxKind) (p : TxPlan) (key : BitVec 128), txGoes s k p key → s.m.rad.tx.access = some k →
    answers .txHoldRelease s fun t => txOnAir s t k p key) ∧
  (∀ (s : State) (p : TxPlan) (key : BitVec 128), txGoes s .ack p key → answers .ackSend s fun t =>
      txOnAir s t .ack p key ∧ t.m.rad.ackDue = none) ∧
  (∀ (s : State) (k : TxKind), radioOn s.m = false ∨ s.m.pw.vrfLow = true ∨ s.m.rad.tx.active = true → exec (.radioTxStart k) s = .next s) ∧
  (∀ s : State, s.m.rad.tx.active = true → s.m.rad.tx.kind = .ack → answers .radioTxEnd s fun t =>
      t.m.rad.tx.active = false ∧ t.m.rad.tx.txen = false ∧ t.m.rad.tx.access = none ∧ t.m.rad.ackWait = s.m.rad.ackWait ∧
      t.m.rad.hold = s.m.rad.hold ∧ mainOnly s t ∧ chirpOnly s.m t.m) ∧
  (∀ (s : State) (i : Nat) (h : Held), s.m.rad.tx.active = true → s.m.rad.tx.kind = .held i → s.m.rad.hold[i]? = some h → h.ackReq = true →
    answers .radioTxEnd s fun t => t.m.rad.tx.active = false ∧ t.m.rad.tx.txen = false ∧ t.m.rad.ackWait = some (.held i, s.m.rad.tx.ctr) ∧
      t.m.rad.hold = s.m.rad.hold ∧ mainOnly s t ∧ chirpOnly s.m t.m) ∧
  (∀ (s : State) (i : Nat) (h : Held), s.m.rad.tx.active = true → s.m.rad.tx.kind = .held i → s.m.rad.hold[i]? = some h → h.ackReq = false →
    h.dict = false → ctlOn s.m = true → roomFor s.m (s.m.pts[h.slot]).rxQueue 3 → answers .radioTxEnd s fun t =>
      t.m.rad.tx.active = false ∧ t.m.rad.tx.txen = false ∧ t.m.rad.hold = s.m.rad.hold.eraseIdx i ∧
      delivered t.m (s.m.pts[h.slot]).rxQueue 0x32 0x03 [word (place 0 8 h.slot.val + place 16 16 h.htag), word h.lastCtr, word (place 0 8 h.copies)] ∧
      mainOnly s t ∧ chirpOnly s.m t.m) ∧
  (∀ s : State, s.m.rad.tx.active = false → exec .radioTxEnd s = .next s) ∧
  (∀ (s : State) (i c : Nat) (h : Held), s.m.rad.ackWait = some (.held i, c) → s.m.rad.hold[i]? = some h → h.copies ≤ cfgN s.m 0x4100 0x0F →
    answers .ackWaitExpiry s fun t => t.m.rad.ackWait = none ∧
      t.m.rad.hold = s.m.rad.hold.set i { h with again := true, kAtt := 3, busy := 0 } ∧
      counter t.m 0x70F0 0x04 = sat32 (counter s.m 0x70F0 0x04 + 1) ∧ mainOnly s t ∧ chirpOnly s.m t.m) ∧
  (∀ (s : State) (i c : Nat) (h : Held), s.m.rad.ackWait = some (.held i, c) → s.m.rad.hold[i]? = some h → cfgN s.m 0x4100 0x0F < h.copies →
    h.dict = false → ctlOn s.m = true → roomFor s.m (s.m.pts[h.slot]).rxQueue 3 → answers .ackWaitExpiry s fun t =>
      t.m.rad.ackWait = none ∧ t.m.rad.hold = s.m.rad.hold.eraseIdx i ∧
      delivered t.m (s.m.pts[h.slot]).rxQueue 0x32 0x03
        [word (place 0 8 h.slot.val + place 8 8 2 + place 16 16 h.htag), word h.lastCtr, word (place 0 8 h.copies)] ∧
      mainOnly s t ∧ chirpOnly s.m t.m) ∧
  (∀ s : State, s.m.rad.ackWait = none → exec .ackWaitExpiry s = .next s) ∧
  (∀ (s : State) (i : Nat) (h : Held), s.m.rad.hold[i]? = some h → h.expiry ≠ 0 → h.dict = false → ctlOn s.m = true →
    roomFor s.m (s.m.pts[h.slot]).rxQueue 3 → answers (.txFrameExpiry i) s fun t =>
      t.m.rad.hold = s.m.rad.hold.eraseIdx i ∧ counter t.m 0x70F0 0x10 = sat32 (counter s.m 0x70F0 0x10 + 1) ∧
      delivered t.m (s.m.pts[h.slot]).rxQueue 0x32 0x03
        [word (place 0 8 h.slot.val + place 8 8 3 + place 16 16 h.htag), word h.lastCtr, word (place 0 8 h.copies)] ∧
      mainOnly s t ∧ chirpOnly s.m t.m) ∧
  (∀ (s : State) (i : Nat), (∀ h, s.m.rad.hold[i]? = some h → h.expiry = 0) → exec (.txFrameExpiry i) s = .next s)

/-- Requests and received frames (R403, R415–R420, R433, R438–R440).
Model choices it rests on: log 29. -/
def Obligations.RadioFrames : Prop :=
  (∀ (s : State) (second : Bool) (q : Fin 32) (p : Packet) (rest : List Packet) (n : Fin 256) (w0 w1 : Word) (ws : List Word),
    q = (if second then 17 else 16) → ctlOn s.m = true → s.m.rad.hold.length < 32 → (s.m.pool.qs[q]).consumer = 4 →
    (s.m.pool.qs[q]).pkts = p :: rest → p.opened = false → p.poison = [] → p.type = 0x31 → p.words = w0 :: w1 :: ws → w1.toNat % 256 ≤ 237 →
    ws.length = (w1.toNat % 256 + 3) / 4 → n.val = w0.toNat % 256 → (s.m.pts[n]).state ≠ 0 → isSat s.m = false ∨ n = 0 →
    answers (.txRequest second) s fun t =>
      t.m.rad.hold = s.m.rad.hold ++ [requested s.m n w0 w1 ws] ∧
      (t.m.pool.qs[q]).pkts = rest ∧ (∀ r : Fin 32, r ≠ q → t.m.pool.qs[r] = s.m.pool.qs[r]) ∧ mainOnly s t ∧ chirpOnly s.m t.m) ∧
  (∀ (s : State) (second : Bool) (q : Fin 32) (p : Packet) (rest : List Packet), q = (if second then 17 else 16) → ctlOn s.m = true →
    s.m.rad.hold.length < 32 → (s.m.pool.qs[q]).consumer = 4 → (s.m.pool.qs[q]).pkts = p :: rest → p.opened = false → p.poison = [] →
    p.type ≠ 0x31 → answers (.txRequest second) s fun t => t.m.rad.hold = s.m.rad.hold ∧ t.m.pts = s.m.pts ∧ mainOnly s t ∧ chirpOnly s.m t.m) ∧
  (∀ (s : State) (second : Bool), 32 ≤ s.m.rad.hold.length → exec (.txRequest second) s = .next s) ∧
  (∀ (s : State) (d : Fin 8) (symbols : List Nat) (info : RxMeta), (s.m.rad.demods[d]).st ≠ 3 ∨
    symbols.length + 24 ≠ 24 * radioBlocks (s.m.rad.demods[d]).order (s.m.rad.demods[d]).length →
    exec (.demodPayloadEnd d symbols info) s = .next s) ∧
  (∀ (s : State) (d : Fin 8) (symbols : List Nat) (payload : List Byte) (info : RxMeta), blocksEnd s.m d symbols payload false →
    (s.m.rad.demods[d]).space = none → exec (.demodPayloadEnd d symbols info) s = .next { s with
      m := modDemod (count s.m 0x70E0 0x05) d fun y => { y with st := 0, space := none, dropped := false } }) ∧
  (∀ (s : State) (d : Fin 8) (symbols : List Nat) (payload : List Byte) (info : RxMeta), blocksEnd s.m d symbols payload true →
    (s.m.rad.demods[d]).space = none → payload.length < 18 → answers (.demodPayloadEnd d symbols info) s fun t =>
      (t.m.rad.demods[d]).st = 0 ∧ counter t.m 0x70E0 0x06 = sat32 (counter s.m 0x70E0 0x06 + 1) ∧
      counter t.m 0x70F0 0x06 = sat32 (counter s.m 0x70F0 0x06 + 1) ∧ t.m.pts = s.m.pts ∧ t.m.pool = s.m.pool ∧ mainOnly s t ∧
      chirpOnly s.m t.m) ∧
  (∀ (s : State) (d : Fin 8) (symbols : List Nat) (payload : List Byte) (info : RxMeta) (n : Fin 256) (key : BitVec 128), macHeard s d symbols payload n key →
    ¬ macGood s payload key → answers (.demodPayloadEnd d symbols info) s fun t =>
      (t.m.rad.demods[d]).st = 0 ∧ t.m.pts = s.m.pts ∧ t.m.rad.ackDue = s.m.rad.ackDue ∧ t.m.rad.kept = s.m.rad.kept ∧
      t.m.dict = s.m.dict ∧ mainOnly s t ∧ chirpOnly s.m t.m) ∧
  (∀ (s : State) (d : Fin 8) (symbols : List Nat) (payload : List Byte) (info : RxMeta) (n : Fin 256) (key : BitVec 128) (q : Fin 32) (pk : Packet),
    macHeard s d symbols payload n key → macGood s payload key → ctlOn s.m = true → (nth payload 0 0).toNat % 8 = 0 →
    (s.m.rad.demods[d]).space = some (q, pk.id) → pk ∈ (s.m.pool.qs[q]).pkts → pk.opened = true → pk.words = [] → pk.type = 0x30 → pk.source = 0x03 →
    payload.length ≤ 255 → (∀ x ∈ (s.m.pool.qs[q]).sinks, x.id ≠ pk.id) →
    (∀ r : Fin 32, ∀ x ∈ (s.m.pool.qs[r]).pkts ++ (s.m.pool.qs[r]).sinks, x.id < s.m.pool.nextId ∧ (x.id = pk.id → r = q ∧ x = pk)) →
    answers (.demodPayloadEnd d symbols info) s fun t =>
      delivered t.m q 0x30 0x03 (rxWords s.m n d (s.m.rad.demods[d]) (nth payload 0 0).toNat (macCtr payload) info (macText key (!isSat s.m) payload)) ∧
      (t.m.pts[n]).rxCtr = macCtr payload ∧ (t.m.pts[n]).awakeAt = s.m.now ∧ (∀ i : Fin 256, i ≠ n → t.m.pts[i] = s.m.pts[i]) ∧
      (t.m.rad.demods[d]).st = 0 ∧
      (bitAt (nth payload 0 0).toNat 3 = true → ∃ a, t.m.rad.ackDue = some a ∧ a.slot = n ∧ a.body.take 4 = leBytes 4 (macCtr payload)) ∧
      mainOnly s t ∧ frameOnly s.m t.m) ∧
  (∀ (s : State) (d : Fin 8) (symbols : List Nat) (payload : List Byte) (info : RxMeta) (n : Fin 256) (key : BitVec 128),
    macHeard s d symbols payload n key → macGood s payload key → ctlOn s.m = true → (nth payload 0 0).toNat % 8 = 2 →
    (s.m.rad.demods[d]).space = none → answers (.demodPayloadEnd d symbols info) s fun t =>
      t.m.dict.airIn = s.m.dict.airIn ++ [(n, macText key (!isSat s.m) payload, s.m.now)] ∧ (t.m.pts[n]).rxCtr = macCtr payload ∧
      (t.m.rad.demods[d]).st = 0 ∧ mainOnly s t ∧ frameOnly s.m t.m) ∧
  (∀ (s : State) (d : Fin 8) (symbols : List Nat) (payload : List Byte) (info : RxMeta) (n : Fin 256) (key : BitVec 128) (i : Nat) (h : Held),
    macHeard s d symbols payload n key → macGood s payload key → (nth payload 0 0).toNat % 16 = 1 → (s.m.rad.demods[d]).space = none →
    s.m.rad.hold[i]? = some h → h.slot = n → h.dict = false →
    s.m.rad.ackWait = some (.held i, leNat ((macText key (!isSat s.m) payload).take 4)) →
    answers (.demodPayloadEnd d symbols info) s fun t =>
      t.m.rad.ackWait = none ∧ t.m.rad.hold = s.m.rad.hold.eraseIdx i ∧ (t.m.rad.demods[d]).st = 0 ∧ mainOnly s t ∧ frameOnly s.m t.m)

/-- The coding of the chirp radio (R390, R393–R396): a measured shift gives back its symbol when it lies within half a data step; whitening is taken
off by whitening; a codeword is decoded with up to 3 of its 24 bits in error; a block gives back its codewords; and the symbols of a frame give back
its header and its payload with a good check.
Model choices it rests on: log 29. -/
def Obligations.RadioCoding : Prop :=
  (∀ n v k : Nat, 8 ≤ n → n ≤ 14 → v < 2 ^ (n - 2) → k < 4 → symbolValue n (4 * grayOf v + k) = v) ∧
  (∀ bs : List Bool, whiten (whiten bs) = bs) ∧
  (∀ d : Nat, d < 4096 → (golayEncode d) % 4096 = d ∧ (golayEncode d) < 2 ^ 24 ∧ parityOf (golayEncode d) = 0) ∧
  (∀ d e : Nat, d < 4096 → e < 2 ^ 24 → (natBits 24 e).countP id ≤ 3 → golayDecode (golayEncode d ^^^ e) = some d) ∧
  (∀ cs : List Nat, (∀ c ∈ cs, c < 2 ^ 24) → blockWords cs.length (blockValues cs) = cs) ∧
  (∀ (n network : Nat) (power : Int) (precomp : Bool) (payload : List Byte) (data : List Nat) (first : List Bool), 8 ≤ n → n ≤ 14 → -10 ≤ power → power ≤ 27 →
    1 ≤ payload.length → payload.length ≤ 255 → data = (radioSymbols n network power precomp payload).drop 2 →
    first = heardBits (heardWords n (data.take 24)) →
    data.length = 24 * radioBlocks n payload.length ∧
    leBytes 3 (bitsNat ((whiten first).take 24)) = radioHeader payload.length power precomp ∧
    heardPayload { order := n, length := payload.length, bits := first } (data.drop 24) = (payload, true))

/-- Sleeping partners (R426–R432, R435–R437, R441): check-ins of a satellite, guard windows and contacts of a hub, misses, calls, and the windows in
which a radio that sleeps listens.
Model choices it rests on: logs 3 and 29. -/
def Obligations.SleepingPartners : Prop :=
  (∀ s : State, isSat s.m = true → (s.m.pts[(0 : Fin 256)]).state ≠ 0 → s.m.rad.satLost = false → radioOn s.m = true →
    s.m.rad.satMissed < cfgN s.m 0x4100 0x09 → exec .satCheckinDue s = .next { s with
      m := modRad s.m fun r => { r with satDue := true, satCopies := 0, tx := { r.tx with kAtt := 3, busy := 0 } } }) ∧
  (∀ s : State, isSat s.m = true → (s.m.pts[(0 : Fin 256)]).state ≠ 0 → s.m.rad.satLost = false → radioOn s.m = true →
    cfgN s.m 0x4100 0x09 ≤ s.m.rad.satMissed → exec .satCheckinDue s = .next { s with m := modRad s.m fun r => { r with satLost := true } }) ∧
  (∀ s : State, isSat s.m = false → exec .satCheckinDue s = .next s) ∧
  (∀ (s : State) (n : Fin 256), isSat s.m = false → radioOn s.m = true → (s.m.pts[n]).state = 1 → n ∉ s.m.rad.guard →
    exec (.guardWindowOpen n) s = .next { s with
      m := modRad (modPt s.m n fun p => { p with window := true }) fun r => { r with guard := r.guard ++ [n] } }) ∧
  (∀ (s : State) (n : Fin 256), isSat s.m = true ∨ radioOn s.m = false ∨ (s.m.pts[n]).state ≠ 1 → exec (.guardWindowOpen n) s = .next s) ∧
  (∀ (s : State) (n : Fin 256), n ∈ s.m.rad.guard → (s.m.pts[n]).window = true → (s.m.pts[n]).misses + 1 < cfgN s.m 0x4100 0x09 →
    answers (.guardWindowClose n) s fun t => n ∉ t.m.rad.guard ∧ (t.m.pts[n]).misses = min 255 ((s.m.pts[n]).misses + 1) ∧
      (t.m.pts[n]).state = (s.m.pts[n]).state ∧ (t.m.pts[n]).rdv = (s.m.pts[n]).rdv + 1 ∧
      (t.m.pts[n]).expected = (s.m.pts[n]).expected + (s.m.pts[n]).interval * tickS ∧ (∀ i : Fin 256, i ≠ n → t.m.pts[i] = s.m.pts[i]) ∧
      counter t.m 0x70F0 0x0A = sat32 (counter s.m 0x70F0 0x0A + 1) ∧ mainOnly s t ∧ chirpOnly s.m t.m) ∧
  (∀ (s : State) (n : Fin 256), n ∈ s.m.rad.guard → (s.m.pts[n]).window = true → cfgN s.m 0x4100 0x09 ≤ (s.m.pts[n]).misses + 1 →
    ctlOn s.m = true → roomFor s.m (s.m.pts[n]).rxQueue 2 → answers (.guardWindowClose n) s fun t =>
      n ∉ t.m.rad.guard ∧ (t.m.pts[n]).state = 2 ∧ (∀ i : Fin 256, i ≠ n → t.m.pts[i] = s.m.pts[i]) ∧
      counter t.m 0x70F0 0x0B = sat32 (counter s.m 0x70F0 0x0B + 1) ∧
      delivered t.m (s.m.pts[n]).rxQueue 0x33 0x03 [word (place 0 8 n.val + place 8 8 1), word (rfSeconds s.m)] ∧ mainOnly s t ∧ chirpOnly s.m t.m) ∧
  (∀ (s : State) (n : Fin 256), (s.m.pts[n]).window = false →
    exec (.guardWindowClose n) s = .next { s with m := modRad s.m fun r => { r with guard := r.guard.filter (· != n) } }) ∧
  (∀ (s : State) (n : Fin 256), isSat s.m = false → (s.m.pts[n]).state = 2 → exec (.callStart n) s = .next { s with
      m := modRad (modPt s.m n fun p => { p with state := 3, calls := 0 }) fun r => { r with callDue := r.callDue.filter (· != n) ++ [n] } }) ∧
  (∀ (s : State) (n : Fin 256), isSat s.m = false → (s.m.pts[n]).state = 2 → exec (.callRetryTimer n) s = .next { s with
      m := modRad (modPt s.m n fun p => { p with state := 3, calls := 0 }) fun r => { r with callDue := r.callDue.filter (· != n) ++ [n] } }) ∧
  (∀ (s : State) (n : Fin 256), isSat s.m = true ∨ (s.m.pts[n]).state ≠ 2 →
    exec (.callStart n) s = .next s ∧ exec (.callRetryTimer n) s = .next s) ∧
  (∀ (s : State) (n : Fin 256) (c : Nat), s.m.rad.ackWait = some (.wake n, c) → (s.m.pts[n]).state = 3 →
    (s.m.pts[n]).calls + 1 < cfgN s.m 0x4100 0x0D → exec .ackWaitExpiry s = .next { s with
      m := modRad (modPt s.m n fun p => { p with calls := p.calls + 1 }) fun r => { r with ackWait := none, callDue := r.callDue ++ [n] } }) ∧
  (∀ (s : State) (n : Fin 256) (c : Nat), s.m.rad.ackWait = some (.wake n, c) → (s.m.pts[n]).state = 3 →
    cfgN s.m 0x4100 0x0D ≤ (s.m.pts[n]).calls + 1 → answers .ackWaitExpiry s fun t =>
      t.m.rad.ackWait = none ∧ (t.m.pts[n]).state = 2 ∧ (t.m.pts[n]).calls = 0 ∧ mainOnly s t ∧ chirpOnly s.m t.m) ∧
  (∀ (s : State) (ch u : Nat), isSat s.m = true → s.m.rad.satLost = true → radioOn s.m = true → s.m.rad.tx.active = false → s.m.rad.profile ≠ 2 →
    ch = cfgN s.m 0x4100 0x0C →
    u = max s.m.rad.listenUntil (s.m.now + 8 * (2 ^ cfgN s.m 0x4100 0x0B * 5 / (if (chanOf s.m ch).wide then 2 else 1)) * tickUs) →
    inBand s.m (chanOf s.m ch) = true → exec .satLostListen s = .next { s with
      m := modRad s.m fun r => { r with listenUntil := u } }) ∧
  (∀ (s : State) (ch u : Nat), isSat s.m = true → s.m.rad.satLost = true → radioOn s.m = true → s.m.rad.tx.active = false → s.m.rad.profile ≠ 2 →
    ch = cfgN s.m 0x4100 0x0C →
    u = max s.m.rad.listenUntil (s.m.now + 8 * (2 ^ cfgN s.m 0x4100 0x0B * 5 / (if (chanOf s.m ch).wide then 2 else 1)) * tickUs) →
    inBand s.m (chanOf s.m ch) = false → answers .satLostListen s fun t =>
      t.m.rad.fLO = (chanOf s.m ch).freq ∧ t.m.rad.gates = [] ∧ (∀ i : Fin 8, (t.m.rad.demods[i]).st = 0) ∧
      t.m.rad.listenUntil = u ∧ mainOnly s t ∧ chirpOnly s.m t.m) ∧
  (∀ s : State, isSat s.m = true → s.m.rad.satLost = true → radioOn s.m = true → s.m.rad.tx.active = false → s.m.rad.profile = 2 →
    (∃ c ∈ wakeGroup s.m, inBand s.m (chanOf s.m c) = false) → answers .satLostListen s fun t =>
      t.m.rad.fLO = groupCentre s.m (wakeGroup s.m) ∧ (∀ i : Fin 8, (t.m.rad.demods[i]).st = 0) ∧ s.m.now < t.m.rad.listenUntil ∧
      mainOnly s t ∧ chirpOnly s.m t.m) ∧
  (∀ s : State, s.m.rad.satLost = false → exec .satLostListen s = .next s) ∧
  (∀ s : State, isSat s.m = true → exec .awakeWindowExpiry s = .next { s with
      m := modPt (modRad s.m fun r => { r with satAwake := false }) 0 fun p => { p with contact := false } }) ∧
  (∀ s : State, isSat s.m = false → exec .awakeWindowExpiry s = .next s) ∧
  (∀ s : State, s.m.pw.mode = .watch → cfgN s.m 0x4100 0x13 ≠ 0 → exec .watchListenWindow s = .next { s with
      m := modRad s.m fun r => { r with listenUntil := s.m.now + cfgN s.m 0x4100 0x14 * tickMs } }) ∧
  (∀ s : State, s.m.pw.mode ≠ .watch → exec .watchListenWindow s = .next s) ∧
  (∀ (s : State) (d : Fin 8) (symbols : List Nat) (payload : List Byte) (info : RxMeta) (n : Fin 256) (key : BitVec 128), macHeard s d symbols payload n key →
    macGood s payload key → (nth payload 0 0).toNat % 8 = 4 → isSat s.m = false → answers (.demodPayloadEnd d symbols info) s fun t =>
      (t.m.pts[n]).state = 1 ∧ (t.m.pts[n]).misses = 0 ∧ (t.m.pts[n]).calls = 0 ∧ (t.m.pts[n]).lastContact = rfSeconds s.m ∧
      (t.m.pts[n]).rxCtr = macCtr payload ∧ n ∉ t.m.rad.callDue ∧ (∀ i : Fin 256, i ≠ n → t.m.pts[i] = s.m.pts[i]) ∧
      counter t.m 0x70F0 0x09 = sat32 (counter s.m 0x70F0 0x09 + 1) ∧ mainOnly s t ∧ frameOnly s.m t.m) ∧
  (∀ (s : State) (d : Fin 8) (symbols : List Nat) (payload : List Byte) (info : RxMeta) (n : Fin 256) (key : BitVec 128), macHeard s d symbols payload n key →
    macGood s payload key → (nth payload 0 0).toNat % 16 = 3 → isSat s.m = true → s.m.rad.satLost = true →
    answers (.demodPayloadEnd d symbols info) s fun t => t.m.rad.satLost = false ∧ t.m.rad.satMissed = 0 ∧ t.m.rad.satDue = true ∧
      t.m.rad.satWake = true ∧ mainOnly s t ∧ frameOnly s.m t.m)

/-- Requests of the host (R452, R455–R462, R491): a read answers the value of the entry, a write of a setting puts it into force, a persistent one only
with its settings write (R46), and a check that fails answers its status and changes nothing; segmented transfers open, give their bytes, and close.
Model choices it rests on: logs 36 and 37. -/
def Obligations.DictRequests : Prop :=
  (∀ (s : State) (bs : List Byte) (e : EntryRow) (idx sub : Nat), spiAsks s bs 1 → (idx, sub) = ((msgOf bs).index, (msgOf bs).sub) →
    idx / 256 ∈ [0x11, 0x21, 0x22, 0x24] → checkAccess s.m hostReq false idx sub = 0 → entryInfo idx sub = some e → e.size ≤ 48 →
    answers (.dictRead (.spi bs (spiCheck bs))) s fun t => dictAnswered t bs 0 (leBytes e.size (readValue s idx sub).1) ∧ dictMain s.m t.m ∧ mainOnly s t) ∧
  (∀ (s : State) (bs : List Byte) (c : Nat), spiAsks s bs 1 → c = checkAccess s.m hostReq false (msgOf bs).index (msgOf bs).sub → c ≠ 0 →
    answers (.dictRead (.spi bs (spiCheck bs))) s fun t => dictAnswered t bs c [] ∧ dictMain s.m t.m ∧ mainOnly s t) ∧
  (∀ (s : State) (bs : List Byte) (e : EntryRow) (idx sub : Nat), spiAsks s bs 2 → (idx, sub) = ((msgOf bs).index, (msgOf bs).sub) →
    idx / 256 ∈ [0x23, 0x24, 0x28, 0x32] → entryInfo idx sub = some e → e.persist = false → checkWrite s.m hostReq idx sub (msgOf bs).len = 0 →
    inRange s.m idx sub (leNat (msgOf bs).data) = true → answers (.dictWrite (.spi bs (spiCheck bs))) s fun t =>
      dictAnswered t bs 0 [] ∧ settingTaken s.m t.m idx sub (leNat (msgOf bs).data) ∧ settingMain s.m t.m ∧ mainOnly s t) ∧
  (∀ (s : State) (bs : List Byte) (e : EntryRow) (idx sub : Nat), spiAsks s bs 2 → (idx, sub) = ((msgOf bs).index, (msgOf bs).sub) →
    idx / 256 ∈ [0x23, 0x24, 0x28, 0x32] → entryInfo idx sub = some e → e.persist = true → checkWrite s.m hostReq idx sub (msgOf bs).len = 0 →
    inRange s.m idx sub (leNat (msgOf bs).data) = true → s.lgr.leaseBy ≠ some .i2c → s.m.pw.onHarvest = false → s.lgr.held = false →
    answers (.dictWrite (.spi bs (spiCheck bs))) s fun t => dictAnswered t bs 0 [] ∧ settingTaken s.m t.m idx sub (leNat (msgOf bs).data) ∧
      (mapGet (ekey idx sub) t.lgr.cur.persist).getD (entryDefault idx sub) = leNat (msgOf bs).data ∧ settingMain s.m t.m ∧
      t.keys = s.keys ∧ t.pending = s.pending) ∧
  (∀ (s : State) (bs : List Byte) (e : EntryRow) (idx sub : Nat), spiAsks s bs 2 → (idx, sub) = ((msgOf bs).index, (msgOf bs).sub) →
    idx / 256 ∈ [0x23, 0x24, 0x28, 0x32] → entryInfo idx sub = some e → e.persist = true → checkWrite s.m hostReq idx sub (msgOf bs).len = 0 →
    inRange s.m idx sub (leNat (msgOf bs).data) = true → s.lgr.leaseBy = some .i2c →
    (mapGet (ekey idx sub) s.lgr.cur.persist).getD (entryDefault idx sub) ≠ leNat (msgOf bs).data →
    answers (.dictWrite (.spi bs (spiCheck bs))) s fun t => dictAnswered t bs 8 [] ∧ dictMain s.m t.m ∧ mainOnly s t) ∧
  (∀ (s : State) (bs : List Byte) (c : Nat), spiAsks s bs 2 → c = checkWrite s.m hostReq (msgOf bs).index (msgOf bs).sub (msgOf bs).len → c ≠ 0 →
    c ≠ 5 ∨ ((msgOf bs).index, (msgOf bs).sub) ≠ (0x1100, 0x01) →
    answers (.dictWrite (.spi bs (spiCheck bs))) s fun t => dictAnswered t bs c [] ∧ dictMain s.m t.m ∧ mainOnly s t) ∧
  (∀ (s : State) (bs : List Byte), spiAsks s bs 2 → s.m.pw.mode = .hold → (msgOf bs).index = 0x1100 → (msgOf bs).sub = 0x01 →
    (msgOf bs).len = 1 → leNat (msgOf bs).data ≤ 7 → answers (.dictWrite (.spi bs (spiCheck bs))) s fun t =>
      dictAnswered t bs 5 [] ∧ t.m.pw = { s.m.pw with modeRefused := sat32 (s.m.pw.modeRefused + 1) } ∧ mainOnly s t) ∧
  (∀ (s : State) (bs : List Byte) (e : EntryRow) (idx sub : Nat), spiAsks s bs 3 → (idx, sub) = ((msgOf bs).index, (msgOf bs).sub) →
    idx / 256 ∈ [0x11, 0x21, 0x22, 0x24] → checkAccess s.m hostReq false idx sub = 0 → entryInfo idx sub = some e →
    (otherTransfers s bs).length < 8 → answers (.dictSegRead (.spi bs (spiCheck bs))) s fun t =>
      dictAnswered t bs 0 (leBytes 4 e.size) ∧
      t.m.dict.transfers = otherTransfers s bs ++ [hostTransfer s bs false e.size (leBytes e.size (readValue s idx sub).1)] ∧
      dictMain s.m t.m ∧ mainOnly s t) ∧
  (∀ (s : State) (bs : List Byte), spiAsks s bs 4 →
    checkWrite s.m hostReq (msgOf bs).index (msgOf bs).sub (leNat (msgOf bs).data) = 0 → (otherTransfers s bs).length < 8 →
    answers (.dictSegWrite (.spi bs (spiCheck bs))) s fun t => dictAnswered t bs 0 [] ∧
      t.m.dict.transfers = otherTransfers s bs ++ [hostTransfer s bs true (leNat (msgOf bs).data) []] ∧ dictMain s.m t.m ∧ mainOnly s t) ∧
  (∀ (s : State) (bs : List Byte), spiAsks s bs 4 →
    checkWrite s.m hostReq (msgOf bs).index (msgOf bs).sub (leNat (msgOf bs).data) = 0 → 8 ≤ (otherTransfers s bs).length →
    answers (.dictSegWrite (.spi bs (spiCheck bs))) s fun t => dictAnswered t bs 9 [] ∧ t.m.dict.transfers = s.m.dict.transfers ∧ dictMain s.m t.m ∧
      mainOnly s t) ∧
  (∀ (s : State) (bs : List Byte) (x : Transfer), spiAsks s bs 5 → transferOf s.m hostReq (msgOf bs) = some x → x.write = false →
    (msgOf bs).len = 0 → (msgOf bs).offset % 48 = 0 → (msgOf bs).offset < x.total → answers (.dictSegment (.spi bs (spiCheck bs))) s fun t =>
      dictAnswered t bs 0 ((x.buf.drop (msgOf bs).offset).take 48) ∧ t.m.dict.transfers.length = s.m.dict.transfers.length ∧
      dictMain s.m t.m ∧ mainOnly s t) ∧
  (∀ (s : State) (bs : List Byte) (x : Transfer), spiAsks s bs 5 → transferOf s.m hostReq (msgOf bs) = some x → x.write = true → x.done = none →
    x.lastOff ≠ some (msgOf bs).offset → (msgOf bs).offset = x.buf.length → (msgOf bs).len = 48 → x.buf.length + 48 < x.total →
    answers (.dictSegment (.spi bs (spiCheck bs))) s fun t => dictAnswered t bs 0 [] ∧
      (∃ y, transferOf t.m hostReq (msgOf bs) = some y ∧ y.buf = x.buf ++ (msgOf bs).data ∧ y.lastOff = some (msgOf bs).offset ∧ y.done = none) ∧
      dictMain s.m t.m ∧ mainOnly s t) ∧
  (∀ (s : State) (bs : List Byte) (x : Transfer), spiAsks s bs 5 → transferOf s.m hostReq (msgOf bs) = some x → x.write = true →
    x.lastOff ≠ some (msgOf bs).offset → (msgOf bs).offset ≠ x.buf.length → answers (.dictSegment (.spi bs (spiCheck bs))) s fun t =>
      dictAnswered t bs 0x0A [] ∧ t.m.dict.transfers = otherTransfers s bs ∧ dictMain s.m t.m ∧ mainOnly s t) ∧
  (∀ (s : State) (bs : List Byte), spiAsks s bs 5 → transferOf s.m hostReq (msgOf bs) = none → answers (.dictSegment (.spi bs (spiCheck bs))) s fun t =>
      dictAnswered t bs 0x0A [] ∧ t.m.dict.transfers = s.m.dict.transfers ∧ dictMain s.m t.m ∧ mainOnly s t) ∧
  (∀ (s : State) (bs : List Byte), spiAsks s bs 6 → answers (.dictAbort (.spi bs (spiCheck bs))) s fun t =>
      dictAnswered t bs 0 [] ∧ t.m.dict.transfers = otherTransfers s bs ∧ dictMain s.m t.m ∧ mainOnly s t)

/-- The service around its requests (R454, R463, R464, R467, R471, R474–R476, R481): messages that are dropped, routed responses, the time limits, and
the DX4032 mode.
Model choices it rests on: logs 3 and 37. -/
def Obligations.DictService : Prop :=
  (∀ (s : State) (bs : List Byte), serviceUp s.m = true → spiUp s.m = true → s.m.spi.stalled = none → s.m.dict.deferred = [] →
    s.m.dict.backAt = none → msgWhole bs = true → bs.length ≤ 64 → msgCrcOk s.m bs = false → (msgOf bs).radio = false → (msgOf bs).dev = laceDev s.m →
    answers (.dictRead (.spi bs (spiCheck bs))) s fun t => t.m.spi.out = [0x02, spiCheck [0x02]] ∧
      counter t.m 0x7010 0x02 = sat32 (counter s.m 0x7010 0x02 + 1) ∧ t.m.dict = s.m.dict ∧ dictMain s.m t.m ∧ mainOnly s t) ∧
  (∀ (s : State) (bs : List Byte) (dchk : Byte), serviceUp s.m = true → spiUp s.m = true → s.m.spi.stalled = none → s.m.dict.deferred = [] →
    rowTakes s.m 1 bs = true → 16 ≤ bs.length → bs.length ≤ 64 → spiCheck bs ≠ dchk → answers (.dictRead (.spi bs dchk)) s fun t =>
      t.m.spi.out = [0x02, spiCheck [0x02]] ∧ t.m.spi.prevCrc = true ∧ counter t.m 0x7000 0x03 = sat32 (counter s.m 0x7000 0x03 + 1) ∧
      t.m.dict = s.m.dict ∧ dictMain s.m t.m ∧ mainOnly s t) ∧
  (∀ (s : State) (src : DictArrival), serviceUp s.m = false → src = .q18 ∨ src = .q20 ∨ (∃ n bs, src = .air n bs) ∨ (∃ d, src = .lace d) →
    exec (.dictRead src) s = .next s ∧ exec (.dictWrite src) s = .next s ∧ exec (.dictSegRead src) s = .next s ∧
    exec (.dictSegWrite src) s = .next s ∧ exec (.dictSegment src) s = .next s ∧ exec (.dictAbort src) s = .next s) ∧
  (∀ (s : State) (bs : List Byte) (who : Fin 256) (at_ : Nat) (r : Route), serviceUp s.m = true → s.m.dict.backAt = none →
    s.m.dict.airIn = [(who, bs, at_)] → msgWhole bs = true →
    (msgOf bs).resp = true → msgCrcOk s.m bs = true → s.m.dict.routes = [r] → r.answeredBy true who.val (msgOf bs) = true → r.cls = 0 →
    outRoom s.m 0 = true → roomFor s.m 19 (packWords (msgCut bs)).length → answers (.dictRoutedResponse true bs) s fun t =>
      t.m.dict.routes = [] ∧ t.m.dict.airIn = [] ∧ delivered t.m 19 0x27 0x05 (packWords (msgCut bs)) ∧ dictMain s.m t.m ∧ mainOnly s t) ∧
  (∀ (s : State) (bs : List Byte) (who : Fin 256) (at_ : Nat), serviceUp s.m = true → s.m.dict.backAt = none → s.m.dict.airIn = [(who, bs, at_)] → msgWhole bs = true →
    (msgOf bs).resp = true → msgCrcOk s.m bs = true → (∀ r ∈ s.m.dict.routes, r.answeredBy true who.val (msgOf bs) = false) →
    answers (.dictRoutedResponse true bs) s fun t => t.m.dict.routes = s.m.dict.routes ∧ t.m.dict.airIn = [] ∧
      counter t.m 0x7010 0x0D = sat32 (counter s.m 0x7010 0x0D + 1) ∧ dictMain s.m t.m ∧ mainOnly s t) ∧
  (∀ (s : State) (i : Nat) (r : Route), serviceUp s.m = true → s.m.dict.routes[i]? = some r → r.radio = false ∨ r.acked = true → r.cls = 0 →
    roomFor s.m 19 4 → answers (.routeTimeout i) s fun t =>
      t.m.dict.routes = s.m.dict.routes.eraseIdx i ∧ delivered t.m 19 0x27 0x05 (packWords (respond s.m r.msg 0x0B [])) ∧ dictMain s.m t.m ∧
      mainOnly s t) ∧
  (∀ (s : State) (i : Nat), s.m.dict.routes.length ≤ i → exec (.routeTimeout i) s = .next s) ∧
  (∀ (s : State) (i : Nat), i < s.m.dict.transfers.length → exec (.transferIdleExpiry i) s = .next { s with
      m := count (modDict s.m fun d => { d with transfers := d.transfers.eraseIdx i }) 0x7010 0x08 }) ∧
  (∀ (s : State) (i : Nat), exec (.trackExpiry i) s = .next { s with m := modDict s.m fun d => { d with tracks := d.tracks.eraseIdx i } }) ∧
  (∀ (s : State) (p : Packet) (rest : List Packet) (node fn : Nat) (bs : List Byte) (e : EntryRow) (idx sub : Nat),
    compatAsks s p rest node fn bs 1 → (idx, sub) = ((compatOf bs).index, (compatOf bs).sub) → idx / 256 ∈ [0x11, 0x21, 0x22, 0x24] →
    checkAccess s.m { cls := 1, who := node, origin := node } false idx sub = 0 → entryInfo idx sub = some e → e.size ≤ 4 →
    answers .dx4032Read s fun t => (∃ more, (t.m.pool.qs[(20 : Fin 32)]).pkts = rest ++ more) ∧
      delivered t.m 21 0x28 0x05 (canPacket (s.m.can.node * 16 + 2) (compatResponse s.m.can.node (compatOf bs) 0 (readValue s idx sub).1)) ∧
      dictMain s.m t.m ∧ mainOnly s t) ∧
  (∀ (s : State) (p : Packet) (rest : List Packet) (node fn : Nat) (bs : List Byte) (e : EntryRow) (idx sub : Nat),
    compatAsks s p rest node fn bs 2 → (idx, sub) = ((compatOf bs).index, (compatOf bs).sub) → idx / 256 ∈ [0x23, 0x24, 0x28, 0x32] →
    entryInfo idx sub = some e → e.persist = false → e.size ≤ 4 →
    checkWrite s.m { cls := 1, who := node, origin := node } idx sub e.size = 0 → (compatOf bs).data < 2 ^ (8 * e.size) →
    inRange s.m idx sub (compatOf bs).data = true → answers .dx4032Write s fun t =>
      (∃ more, (t.m.pool.qs[(20 : Fin 32)]).pkts = rest ++ more) ∧ settingTaken s.m t.m idx sub (compatOf bs).data ∧
      delivered t.m 21 0x28 0x05 (canPacket (s.m.can.node * 16 + 2) (compatResponse s.m.can.node (compatOf bs) 0 0)) ∧
      settingMain s.m t.m ∧ mainOnly s t) ∧
  (∀ s : State, cfgB s.m 0x5010 0x01 = false → exec .dx4032Read s = .next s ∧ exec .dx4032Write s = .next s)

/-- The SPI port (R329–R331, R340, R483–R495): the status block, refused headers, reads of the window and of queues, `KEEP` and CONSUME, writes of packets,
and what ends a write early.
Model choices it rests on: logs 3 and 30. -/
def Obligations.SpiPort : Prop :=
  (∀ (s : State) (h : SpiHeader), spiUp s.m = true → s.m.spi.stalled = none → headerOk h 0x00 false = true → h.addr = 0 → h.len = 0 →
    answers (.spiNop h) s fun t => t.m.spi.quad = s.m.spi.quadNext ∧ t.m.spi.prevHdr = false ∧ t.m.spi.prevCrc = false ∧ t.m.spi.prevAbandon = false ∧
      t.m.spi.out = [] ∧ t.m.spi.status.length = 9 ∧ t.m.spi.status.take 4 = leBytes 4 (queueBitmap s.m) ∧
      t.m.spi.status.drop 8 = [spiCheck (t.m.spi.status.take 8)] ∧ t.m.pool = s.m.pool ∧
      counter t.m 0x7000 0x01 = sat32 (counter s.m 0x7000 0x01 + 1) ∧ spiMain s.m t.m ∧ mainOnly s t) ∧
  (∀ (s : State) (h : SpiHeader) (n : Nat) (ws : List Word) (dchk : Byte) (c : Instr), spiUp s.m = true → s.m.spi.stalled = none → headerHolds h = false →
    c ∈ [.spiNop h, .spiReadWin h, .spiReadQ h n, .spiWriteQ h ws dchk, .spiConsume h] → answers c s fun t =>
      t.m.spi.prevHdr = true ∧ t.m.spi.out = [] ∧ t.m.pool = s.m.pool ∧ t.m.spi.openQ = s.m.spi.openQ ∧
      counter t.m 0x7000 0x02 = sat32 (counter s.m 0x7000 0x02 + 1) ∧ spiMain s.m t.m ∧ mainOnly s t) ∧
  (∀ (s : State) (h : SpiHeader) (n : Nat) (ws : List Word) (dchk : Byte) (bs : List Byte) (c : Instr), spiUp s.m = false →
    c ∈ [.spiNop h, .spiReadWin h, .spiReadQ h n, .spiWriteQ h ws dchk, .spiConsume h, .spiDictDefer bs, .spiAbandon, .spiWriteStallRelease, .spiIdleReset] →
    exec c s = .next s) ∧
  (∀ (s : State) (h : SpiHeader), spiUp s.m = true → s.m.spi.stalled = none → headerOk h 0x01 false = true → h.addr = 0x00C → h.len = 8 →
    answers (.spiReadWin h) s fun t => spiSent t (leBytes 4 s.m.flt.jseq ++ leBytes 4 (queueBitmap s.m)) ∧ spiMain s.m t.m ∧ mainOnly s t) ∧
  (∀ (s : State) (h : SpiHeader) (q : Fin 32), spiUp s.m = true → s.m.spi.stalled = none → headerOk h 0x01 false = true → h.len = 4 →
    h.addr.toNat = 0x100 + 8 * q.val → answers (.spiReadWin h) s fun t =>
      spiSent t (leBytes 4 (min 0xFFFF (s.m.pool.qs[q]).wordsCount + place 16 16 (s.m.pool.qs[q]).packets)) ∧ spiMain s.m t.m ∧ mainOnly s t) ∧
  (∀ (s : State) (h : SpiHeader) (q : Fin 32) (p : Packet) (rest : List Packet) (w : Word), spiReady s → headerOk h 0x03 true = true →
    headerFlag h = false → queueOf h = some q → 2 ≤ h.len.toNat → h.len.toNat ≤ 4096 → headWord s.m q p rest w → answers (.spiReadQ h 2) s fun t =>
      spiSent t (tagBytes [(0x81, word p.lengthWord), (0x83, w)]) ∧ (t.m.pool.qs[q]).pkts = rest ∧
      (∀ r : Fin 32, r ≠ q → t.m.pool.qs[r] = s.m.pool.qs[r]) ∧ spiMain s.m t.m ∧ mainOnly s t) ∧
  (∀ (s : State) (h : SpiHeader) (q : Fin 32) (p : Packet) (rest : List Packet) (w : Word), spiReady s → headerOk h 0x03 true = true →
    headerFlag h = true → queueOf h = some q → 2 ≤ h.len.toNat → h.len.toNat ≤ 4096 → headWord s.m q p rest w → answers (.spiReadQ h 2) s fun t =>
      spiSent t (tagBytes [(0x81, word p.lengthWord), (0x83, w)]) ∧ (t.m.pool.qs[q]).pkts = p :: rest ∧ (t.m.pool.qs[q]).keepMark = 1 ∧
      spiMain s.m t.m ∧ mainOnly s t) ∧
  (∀ (s : State) (h : SpiHeader) (q : Fin 32) (p : Packet) (rest : List Packet) (w : Word), spiReady s → headerOk h 0x05 false = true →
    queueOf h = some q → h.len = 2 → (s.m.pool.qs[q]).keepMark ≠ 2 → headWord s.m q p rest w → answers (.spiConsume h) s fun t =>
      spiSent t [2] ∧ (t.m.pool.qs[q]).pkts = rest ∧ (∀ r : Fin 32, r ≠ q → t.m.pool.qs[r] = s.m.pool.qs[r]) ∧ spiMain s.m t.m ∧ mainOnly s t) ∧
  (∀ (s : State) (h : SpiHeader) (q : Fin 32), spiReady s → headerOk h 0x05 false = true → queueOf h = some q → h.len = 2 →
    (s.m.pool.qs[q]).keepMark ≠ 2 → (s.m.pool.qs[q]).consumer ≠ 0 → answers (.spiConsume h) s fun t =>
      spiSent t [0] ∧ t.m.pool.qs = s.m.pool.qs ∧ counter t.m 0x70C0 0x0B = sat32 (counter s.m 0x70C0 0x0B + 1) ∧ spiMain s.m t.m ∧ mainOnly s t) ∧
  (∀ (s : State) (h : SpiHeader) (q : Fin 32) (w : Word) (ws : List Word), spiReady s → headerOk h 0x04 true = true → headerFlag h = false →
    queueOf h = some q → h.len.toNat = ws.length + 1 → h.len.toNat ≤ 4096 → s.m.spi.openQ = none → roomFor s.m q ws.length →
    answers (.spiWriteQ h (w :: ws) (spiCheck (wordsBytes (w :: ws)))) s fun t =>
      delivered t.m q (field w.toNat 16 8) 0x01 ws ∧ t.m.spi.openQ = none ∧ t.m.spi.stalled = none ∧ spiMain s.m t.m ∧ mainOnly s t) ∧
  (∀ (s : State) (h : SpiHeader) (q : Fin 32) (w : Word) (ws : List Word) (dchk : Byte), spiReady s → dchk ≠ spiCheck (wordsBytes (w :: ws)) →
    headerOk h 0x04 true = true → queueOf h = some q →
    h.len.toNat = ws.length + 1 → h.len.toNat ≤ 4096 → s.m.spi.openQ = none → roomFor s.m q ws.length →
    answers (.spiWriteQ h (w :: ws) dchk) s fun t =>
      (t.m.pool.qs[q]).pkts = (s.m.pool.qs[q]).pkts ∧ t.m.spi.openQ = none ∧ t.m.spi.prevCrc = true ∧
      counter t.m 0x7000 0x03 = sat32 (counter s.m 0x7000 0x03 + 1) ∧ counter t.m 0x70C0 0x05 = sat32 (counter s.m 0x70C0 0x05 + 1) ∧
      spiMain s.m t.m ∧ mainOnly s t) ∧
  (∀ (s : State) (bs : List Byte), spiUp s.m = true → s.m.spi.stalled = none → loaderWaits s.m = false → 16 ≤ bs.length → bs.length ≤ 64 →
    answers (.spiDictDefer bs) s fun t => spiSent t [0x01] ∧ t.m.dict = { s.m.dict with deferred := s.m.dict.deferred ++ [(bs, s.m.now)] } ∧
      counter t.m 0x7000 0x04 = sat32 (counter s.m 0x7000 0x04 + 1) ∧ dictMain s.m t.m ∧ mainOnly s t) ∧
  (∀ (s : State) (q : Fin 32) (id : Nat), spiUp s.m = true → s.m.spi.openQ = some (q, id) → answers .spiAbandon s fun t =>
      t.m.spi.openQ = none ∧ t.m.spi.stalled = none ∧ t.m.spi.prevAbandon = true ∧
      (t.m.pool.qs[q]).pkts = (s.m.pool.qs[q]).pkts.filter (fun p => p.id != id) ∧
      counter t.m 0x70C0 0x04 = sat32 (counter s.m 0x70C0 0x04 + 1) ∧ spiMain s.m t.m ∧ mainOnly s t) ∧
  (∀ s : State, s.m.spi.openQ = none → s.m.spi.stalled = none → exec .spiAbandon s = .next s) ∧
  (∀ (s : State) (q r : Fin 32) (id : Nat) (ws : List Word) (p : Packet), spiUp s.m = true → s.m.spi.stalled = some (q, ws, true, true) →
    s.m.spi.openQ = some (r, id) → ws ≠ [] → roomOf s.m q id ws.length = ws.length → p ∈ (s.m.pool.qs[q]).pkts → p.id = id → p.opened = true →
    p.words.length + ws.length ≤ 65535 → (∀ x ∈ (s.m.pool.qs[q]).sinks, x.id ≠ id) → (∀ x ∈ (s.m.pool.qs[q]).pkts, x.id = id → x = p) →
    answers .spiWriteStallRelease s fun t => t.m.spi.stalled = none ∧ t.m.spi.openQ = some (r, id) ∧
      (∃ x ∈ (t.m.pool.qs[q]).pkts, x.id = id ∧ x.opened = true ∧ x.words = p.words ++ ws) ∧ spiMain s.m t.m ∧ mainOnly s t) ∧
  (∀ s : State, s.m.spi.stalled = none → exec .spiWriteStallRelease s = .next s) ∧
  (∀ s : State, spiUp s.m = true → s.m.spi.stalled = none → answers .spiIdleReset s fun t =>
      t.m.spi.quad = false ∧ t.m.spi.quadNext = false ∧ t.m.spi.openQ = none ∧ (s.m.spi.openQ.isSome = true → t.m.spi.prevAbandon = true) ∧
      counter t.m 0x7000 0x05 = sat32 (counter s.m 0x7000 0x05 + 1) ∧ spiMain s.m t.m ∧ mainOnly s t) ∧
  (∀ (s : State) (v : BitVec 8), ctlOn s.m = true → s.m.pw.ctlDown = false → s.m.pw.mode.isMain = true ∨ s.m.pw.mode = .hold → v.toNat ≤ 1 →
    exec (.spiWidthWrite v) s = .next { s with m := modSpi s.m fun p => { p with quadNext := v.toNat == 1 } }) ∧
  (∀ (s : State) (v : BitVec 8), 1 < v.toNat → exec (.spiWidthWrite v) s = .next s)

/-- The CAN FD controller and the pins (R497–R506, R510): frames accepted into Q20, ignored, refused and sent from Q21, heartbeats, time marks, bus-off, a stuck
bus, the node ID, and edges at the GPIO pins.
Model choices it rests on: logs 3 and 30. -/
def Obligations.CanAndPins : Prop :=
  (∀ (s : State) (f : CanFrame), canReady s.m → f.supported = true → f.id.toNat / 16 ≠ s.m.can.node → f.id.toNat % 16 = 1 ∨ f.id.toNat % 16 = 3 →
    bitAt (cfgN s.m 0x1810 0x0D) (f.id.toNat / 16) = true → roomFor s.m 20 (canPacket f.id.toNat f.data).length → answers (.canFrameRx f) s fun t =>
      delivered t.m 20 0x28 0x02 (canPacket f.id.toNat f.data) ∧ counter t.m 0x7000 0x06 = sat32 (counter s.m 0x7000 0x06 + 1) ∧
      canMain s.m t.m ∧ mainOnly s t) ∧
  (∀ (s : State) (f : CanFrame), canReady s.m → f.supported = true → f.id.toNat / 16 ≠ s.m.can.node → f.id.toNat % 16 = 1 ∨ f.id.toNat % 16 = 3 →
    bitAt (cfgN s.m 0x1810 0x0D) (f.id.toNat / 16) = true → spaceTest s.m 20 (canPacket f.id.toNat f.data).length = false →
    answers (.canFrameRx f) s fun t => counter t.m 0x7000 0x07 = sat32 (counter s.m 0x7000 0x07 + 1) ∧ canMain s.m t.m ∧ mainOnly s t) ∧
  (∀ (s : State) (f : CanFrame), canReady s.m → f.supported = false → exec (.canFrameRx f) s = .next { s with m := count s.m 0x7000 0x08 }) ∧
  (∀ (s : State) (f : CanFrame), canReady s.m → f.supported = true → f.id.toNat / 16 = s.m.can.node → answers (.canFrameRx f) s fun t =>
      counter t.m 0x7000 0x0B = sat32 (counter s.m 0x7000 0x0B + 1) ∧ canMain s.m t.m ∧ mainOnly s t) ∧
  (∀ (s : State) (f : CanFrame), f.supported = true → f.id.toNat / 16 ≠ s.m.can.node →
    (f.id.toNat % 16 ≠ 1 ∧ f.id.toNat % 16 ≠ 3) ∨ bitAt (cfgN s.m 0x1810 0x0D) (f.id.toNat / 16) = false → exec (.canFrameRx f) s = .next s) ∧
  (∀ (s : State) (p : Packet) (rest : List Packet) (w : Word) (ws : List Word), canReady s.m → (s.m.pool.qs[(21 : Fin 32)]).consumer = 3 →
    (s.m.pool.qs[(21 : Fin 32)]).pkts = p :: rest → p.opened = false → p.poison = [] → p.words = w :: ws → answers .canFrameTx s fun t =>
      t.m.can.sent = some (field w.toNat 0 11, (wordsBytes ws).take (field w.toNat 16 7)) ∧ (t.m.pool.qs[(21 : Fin 32)]).pkts = rest ∧
      (s.m.can.nodeNext = none → t.m.can.node = s.m.can.node) ∧
      (∀ n k, s.m.can.nodeNext = some (n, k) → k ≤ p.id → field w.toNat 0 11 % 16 = 2 → t.m.can.node = n ∧ t.m.can.nodeNext = none) ∧
      counter t.m 0x7000 0x0E = sat32 (counter s.m 0x7000 0x0E + 1) ∧ canMain s.m t.m ∧ mainOnly s t) ∧
  (∀ s : State, 2 ≤ s.m.can.state → exec .canFrameTx s = .next s) ∧
  (∀ s : State, ctlOn s.m = true → s.m.pw.fwRunning = true → cfgB s.m 0x1810 0x05 = true → cfgN s.m 0x1810 0x07 ≠ s.m.can.node →
    roomFor s.m 21 3 → answers .heartbeat s fun t => delivered t.m 21 0x28 0x05 (canPacket (s.m.can.node * 16 + 5)
        ([byte s.m.pw.mode.code, byte (statusFlags s.m (leaseHeld s))] ++ leBytes 2 s.m.flt.jseq ++ leBytes 4 (aoSeconds s.m))) ∧
      canMain s.m t.m ∧ mainOnly s t) ∧
  (∀ s : State, cfgB s.m 0x1810 0x05 = false → exec .heartbeat s = .next s) ∧
  (∀ (s : State) (n : BitVec 7) (x : BitVec 64), canReady s.m → n.toNat ≠ s.m.can.node → n.toNat ≠ 0 → n.toNat = cfgN s.m 0x1810 0x07 →
    answers (.timeMarkRx n x) s fun t => counter t.m 0x7000 0x0C = sat32 (counter s.m 0x7000 0x0C + 1) ∧
      counter t.m 0x7000 0x06 = sat32 (counter s.m 0x7000 0x06 + 1) ∧ canMain s.m t.m ∧ mainOnly s t) ∧
  (∀ (s : State) (n : BitVec 7) (x : BitVec 64), n.toNat ≠ s.m.can.node → n.toNat ≠ cfgN s.m 0x1810 0x07 → exec (.timeMarkRx n x) s = .next s) ∧
  (∀ s : State, canOn s.m = true → s.m.can.state ≠ 2 → answers .canBusOff s fun t =>
      t.m.can = { s.m.can with state := 2, tec := 255, recovering := cfgB s.m 0x1810 0x08 } ∧
      counter t.m 0x7000 0x09 = sat32 (counter s.m 0x7000 0x09 + 1) ∧ canMain s.m t.m ∧ mainOnly s t) ∧
  (∀ s : State, canOn s.m = false ∨ s.m.can.state = 2 → exec .canBusOff s = .next s) ∧
  (∀ s : State, s.m.pw.mode.isMain = true → s.m.pw.ctlDown = false → s.m.can.state = 2 → exec (.canRecoveryStart 1#8) s = .next { s with
      m := modCan (cfgSet s.m 0x1810 0x08 1) fun c => { c with recovering := true } }) ∧
  (∀ (s : State) (v : BitVec 8), s.m.pw.mode.isMain = true → s.m.pw.ctlDown = false → v.toNat ≤ 1 → v = 0#8 ∨ s.m.can.state ≠ 2 →
    exec (.canRecoveryStart v) s = .next { s with m := cfgSet s.m 0x1810 0x08 v.toNat }) ∧
  (∀ (s : State) (v : BitVec 8), s.m.pw.mode.isMain = false ∨ 1 < v.toNat → exec (.canRecoveryStart v) s = .next s) ∧
  (∀ s : State, s.m.can.recovering = true → exec .canBusoffRecovered s = .next { s with
      m := modCan s.m fun c => { c with state := 0, tec := 0, rec_ := 0, recovering := false } }) ∧
  (∀ s : State, s.m.can.recovering = false → exec .canBusoffRecovered s = .next s) ∧
  (∀ s : State, canOn s.m = true → s.m.can.state ≠ 3 → answers .canStuckDominant s fun t =>
      t.m.can = { s.m.can with state := 3, recovering := false } ∧
      counter t.m 0x7000 0x0D = sat32 (counter s.m 0x7000 0x0D + 1) ∧ canMain s.m t.m ∧ mainOnly s t) ∧
  (∀ s : State, s.m.can.state = 3 → exec .canStuckRecovery s = .next { s with m := modCan s.m fun c => { c with recovering := true } }) ∧
  (∀ s : State, s.m.can.state ≠ 3 → exec .canStuckRecovery s = .next s) ∧
  (∀ (s : State) (v : BitVec 8), s.m.pw.mode.isMain = true → s.m.pw.ctlDown = false → 1 ≤ v.toNat → v.toNat ≤ 126 → s.lgr.leaseBy ≠ some .i2c →
    s.lgr.held = false → s.m.pw.onHarvest = false → answers (.canNodeWrite v) s fun t => t.m.can.node = v.toNat ∧ t.m.can.nodeNext = none ∧ settingTaken s.m t.m 0x1810 0x01 v.toNat ∧
      (mapGet (ekey 0x1810 0x01) t.lgr.cur.persist).getD (entryDefault 0x1810 0x01) = v.toNat ∧ t.keys = s.keys ∧ t.pending = s.pending) ∧
  (∀ (s : State) (v : BitVec 8), s.m.pw.mode.isMain = false ∨ v.toNat = 0 ∨ 126 < v.toNat → exec (.canNodeWrite v) s = .next s) ∧
  (∀ (s : State) (g : Fin 8) (falling : Bool), (s.m.gpio[g]).mode ≠ 3 → exec (.gpioEdge g falling) s = .next { s with
      m := modGpio s.m g fun x => { x with input := !falling } }) ∧
  (∀ (s : State) (g : Fin 8) (falling : Bool), answers (.gpioEdge g falling) s fun t =>
      t.m.gpio = (modGpio s.m g fun x => { x with input := !falling }).gpio ∧ mainOnly s t ∧
      poolOnly { s.m with gpio := t.m.gpio } t.m)

/-- The check units (R515, R518, R520, R521): a configuration write takes effect at once, abandons a frame in progress, counts it and loads the running
value; a unit of the end-to-end protection takes none; a change of that unit frees the old one and resets the new.
Model choices it rests on: log 31. -/
def Obligations.CheckUnits : Prop :=
  (∀ (s : State) (c : Fin 8) (sub : BitVec 8) (v : BitVec 32), s.m.pw.mode.isMain = true → s.m.pw.ctlDown = false → sub.toNat ∈ [1, 2, 3, 4, 7, 8] →
    cuRange s.m.cus[c] sub.toNat v.toNat = true → (s.m.cus[c]).owned = false → answers (.cuConfigWrite c sub v) s fun t =>
      (sub = 1#8 → (t.m.cus[c]).source = v.toNat ∧ (t.m.cus[c]).bytes = 0) ∧ (sub = 2#8 → (t.m.cus[c]).crc = v.toNat) ∧
      (sub = 3#8 → (t.m.cus[c]).filter = v.toNat) ∧ (sub = 4#8 → (t.m.cus[c]).init = v.toNat) ∧ (sub = 7#8 → (t.m.cus[c]).framing = v.toNat) ∧
      (sub = 8#8 → (t.m.cus[c]).recQ = v.toNat) ∧
      (t.m.cus[c]).value = (t.m.cus[c]).load ∧ (t.m.cus[c]).inFrame = false ∧ (t.m.cus[c]).result = (s.m.cus[c]).result ∧
      counter t.m 0x7018 0x04 = (if (s.m.cus[c]).inFrame then sat32 (counter s.m 0x7018 0x04 + 1) else counter s.m 0x7018 0x04) ∧
      (∀ i : Fin 8, i ≠ c → t.m.cus[i] = s.m.cus[i]) ∧ t.m.pool = s.m.pool ∧ poolOnly s.m t.m ∧ mainOnly s t) ∧
  (∀ (s : State) (c : Fin 8) (sub : BitVec 8) (v : BitVec 32), s.m.pw.mode.isMain = false ∨ (s.m.cus[c]).owned = true ∨
    cuRange s.m.cus[c] sub.toNat v.toNat = false ∨ sub.toNat ∉ [1, 2, 3, 4, 7, 8] → exec (.cuConfigWrite c sub v) s = .next s) ∧
  (∀ (s : State) (c : Fin 8) (v : BitVec 32), ctlOn s.m = true → s.m.pw.ctlDown = false → s.m.pw.mode.isMain = true ∨ s.m.pw.mode = .hold →
    v.toNat < 2 ^ (CrcKind.ofCode (s.m.cus[c]).crc).width → (s.m.cus[c]).owned = false →
    exec (.cuValueWrite c v) s = .next { s with m := modCu s.m c fun u => { u with value := v.toNat } }) ∧
  (∀ (s : State) (c : Fin 8) (v : BitVec 32), (s.m.cus[c]).owned = true ∨ 2 ^ (CrcKind.ofCode (s.m.cus[c]).crc).width ≤ v.toNat →
    exec (.cuValueWrite c v) s = .next s) ∧
  (∀ (s : State) (old new : Fin 8), s.m.pw.mode = .calibrate → s.m.pw.ctlDown = false → cfgN s.m 0x5010 0x04 = old.val → new.val ≠ cfgN s.m 0x5010 0x05 → new ≠ old →
    answers (.e2eUnitChange false new) s fun t => (t.m.cus[new]).owned = true ∧ (t.m.cus[new]).frames = 0 ∧ (t.m.cus[new]).bytes = 0 ∧
      (t.m.cus[old]).owned = false ∧ (t.m.cus[old]).source = 0 ∧ (∀ i : Fin 8, i ≠ old → i ≠ new → t.m.cus[i] = s.m.cus[i]) ∧
      settingTaken s.m t.m 0x5010 0x04 new.val ∧ t.m = { s.m with cus := t.m.cus, cfg := t.m.cfg } ∧ mainOnly s t) ∧
  (∀ (s : State) (g : Bool) (c : Fin 8), s.m.pw.mode ≠ .calibrate ∨ c.val = cfgN s.m 0x5010 (if g then 0x04 else 0x05) ∨
    c.val = cfgN s.m 0x5010 (if g then 0x05 else 0x04) → exec (.e2eUnitChange g c) s = .next s)

/-- Links and formation of the lace (R529, R530, R534, R545, R546): training, loss and retransmission of links, formation as a ring or a chain, and
departure.
Model choices it rests on: logs 3 and 14. -/
def Obligations.LaceFormation : Prop :=
  (∀ (s : State) (l : LaceLink) (clean : BitVec 3) (lat : Nat) (r : Fin 3), laceOn s.m = true → (linkOf s.m l).up = false →
    cfgN s.m 0x7800 0x06 ≤ r.val → clean.toNat.testBit r.val = true →
    (∀ k : Fin 3, cfgN s.m 0x7800 0x06 ≤ k.val → k.val < r.val → clean.toNat.testBit k.val = false) →
    answers (.laceLinkTrained l clean lat) s fun t => (linkOf t.m l).up = true ∧ (linkOf t.m l).rate = r.val ∧
      (linkOf t.m l).latency = lat % 65536 ∧ t.m.lace.state = (if s.m.lace.state = 0 then 1 else s.m.lace.state) ∧
      (s.m.lace.state = 0 → t.m.lace.role = if s.m.pw.follower then 2 else 1) ∧ laceMain s.m t.m ∧ mainOnly s t) ∧
  (∀ (s : State) (l : LaceLink) (clean : BitVec 3) (lat : Nat), laceOn s.m = true → (linkOf s.m l).up = false →
    (∀ k : Fin 3, cfgN s.m 0x7800 0x06 ≤ k.val → clean.toNat.testBit k.val = false) → answers (.laceLinkTrained l clean lat) s fun t =>
      (linkOf t.m l).up = false ∧ (linkOf t.m l).training = false ∧ t.m.lace.state = s.m.lace.state ∧ laceMain s.m t.m ∧ mainOnly s t) ∧
  (∀ (s : State) (l : LaceLink) (lat : Nat), laceOn s.m = true → (linkOf s.m l).up = false → cfgN s.m 0x7800 0x06 = 0 →
    answers (.laceLinkTrained l 2 lat) s fun t => counter t.m 0x70F8 0x0F = sat32 (counter s.m 0x70F8 0x0F + 1) ∧ mainOnly s t) ∧
  (∀ (s : State) (l : LaceLink) (clean : BitVec 3) (lat : Nat), laceOn s.m = false ∨ (linkOf s.m l).up = true →
    exec (.laceLinkTrained l clean lat) s = .next s) ∧
  (∀ (s : State) (l : LaceLink), (linkOf s.m l).up = true → s.m.lace.state = 2 → answers (.laceLinkDown l) s fun t =>
      (linkOf t.m l).up = false ∧ (linkOf t.m l).unacked = [] ∧ t.m.lace.state = 3 ∧ t.m.lace.members = s.m.lace.members ∧
      (linkOf t.m (otherLink l)).unacked.length = (linkOf s.m (otherLink l)).unacked.length +
        (if (linkOf s.m (otherLink l)).up then (linkOf s.m l).unacked.length else 0) ∧
      counter t.m 0x70F8 0x05 = sat32 (counter s.m 0x70F8 0x05 + 1) ∧ counter t.m 0x70F8 0x06 = sat32 (counter s.m 0x70F8 0x06 + 1) ∧
      laceMain s.m t.m ∧ mainOnly s t) ∧
  (∀ (s : State) (l : LaceLink), (linkOf s.m l).up = true → (linkOf s.m (otherLink l)).up = false → s.m.lace.state = 3 → s.m.sch.reqs = [] →
    (∃ d : Fin 4, d ≠ s.m.lace.device ∧ laceHas s.m d.val = true) → answers (.laceLinkDown l) s fun t =>
      (linkOf t.m l).up = false ∧ t.m.lace.state = 4 ∧ (∀ d : Fin 4, d ≠ s.m.lace.device → laceHas t.m d.val = false) ∧ laceMain s.m t.m ∧
      mainOnly s t) ∧
  (∀ (s : State) (l : LaceLink), (linkOf s.m l).up = false → exec (.laceLinkDown l) s = .next s) ∧
  (∀ (s : State) (l : LaceLink) (f : SentFrame) (fs : List SentFrame), (linkOf s.m l).unacked = f :: fs → (∀ g ∈ fs, f.at_ ≤ g.at_) → f.tries < 3 →
    exec (.laceRetransmitTimeout l) s = .next { s with m := modLink (count s.m 0x70F8 0x04) l fun k =>
      { k with unacked := { f with tries := f.tries + 1, at_ := s.m.now } :: fs } }) ∧
  (∀ (s : State) (l : LaceLink) (f : SentFrame) (fs : List SentFrame), (linkOf s.m l).unacked = f :: fs → (∀ g ∈ fs, f.at_ ≤ g.at_) → 3 ≤ f.tries →
    exec (.laceRetransmitTimeout l) s = exec (.laceLinkDown l) s) ∧
  (∀ (s : State) (l : LaceLink), (linkOf s.m l).unacked = [] → exec (.laceRetransmitTimeout l) s = .next s) ∧
  (∀ (s : State) (l : LaceLink) (q : BitVec 16), exec (.laceLinkAck l q) s = .next { s with
      m := modLink s.m l fun k => { k with unacked := k.unacked.filter fun f => f.lseq != q.toNat } }) ∧
  (∀ (s : State) (l : LaceLink), laceOn s.m = true → (linkOf s.m l).up = false → exec (.laceRetrainTimer l) s = .next { s with
      m := modLink s.m l fun k => { k with training := true } }) ∧
  (∀ (s : State) (l : LaceLink), (linkOf s.m l).up = true → exec (.laceRetrainTimer l) s = .next s) ∧
  (∀ s : State, s.m.lace.state = 1 → s.m.lace.linkA.up = false → s.m.lace.linkB.up = false → answers .laceFormingTimeout s fun t =>
      t.m.lace.state = 0 ∧ t.m.lace.role = 0 ∧ t.m.lace.size = 1 ∧ t.m.lace.device = 0 ∧ laceMain s.m t.m ∧ mainOnly s t) ∧
  (∀ s : State, s.m.lace.state ≠ 1 → exec .laceFormingTimeout s = .next s) ∧
  (∀ (s : State) (e : Nat), laceOn s.m = true → s.m.lace.state = 1 → s.m.lace.role = 1 → s.m.lace.linkA.up = true →
    cfgN s.m 0x7800 0x04 = e → s.m.lace.foundA ≤ 3 → s.m.lace.foundB = 0 ∨ (s.m.lace.foundA + s.m.lace.foundB + 1 ≤ e ∧ e ≤ 4) →
    answers .laceChainTimeout s fun t => t.m.lace.state = 3 ∧
      (∀ d : Fin 4, laceHas t.m d.val = true ↔ d.val ≤ s.m.lace.foundA ∨ (e ≤ d.val + s.m.lace.foundB ∧ d.val < e)) ∧
      s.m.lace.foundA + 1 ≤ t.m.lace.size ∧ laceMain s.m t.m ∧ mainOnly s t) ∧
  (∀ s : State, s.m.lace.state ≠ 1 ∨ s.m.lace.role ≠ 1 → exec .laceChainTimeout s = .next s) ∧
  (∀ (s : State) (ws : List Word) (lat : Nat), laceOn s.m = true → s.m.lace.linkB.up = true → laceWhole ws = true → isLace ws 0 = true →
    s.m.lace.state = 1 → s.m.lace.role = 1 → bitAt (nth (lacePayload ws) 0 0).toNat 8 = true →
    2 ≤ field (nth (lacePayload ws) 0 0).toNat 0 8 → field (nth (lacePayload ws) 0 0).toNat 0 8 ≤ 4 →
    answers (.laceDiscover .b ws lat) s fun t => t.m.lace.state = 2 ∧
      (∀ d : Fin 4, laceHas t.m d.val = true ↔ d.val < field (nth (lacePayload ws) 0 0).toNat 0 8) ∧
      t.m.lace.wasRing = true ∧ laceMain s.m t.m ∧ mainOnly s t) ∧
  (∀ (s : State) (ws : List Word) (lat : Nat), laceOn s.m = true → s.m.lace.linkB.up = true → laceWhole ws = true → isLace ws 0 = true →
    s.m.lace.state = 1 → s.m.lace.role = 2 → s.m.lace.numbered = false → bitAt (nth (lacePayload ws) 0 0).toNat 8 = true →
    1 ≤ field (nth (lacePayload ws) 0 0).toNat 0 8 → field (nth (lacePayload ws) 0 0).toNat 0 8 ≤ 3 →
    answers (.laceDiscover .b ws lat) s fun t => t.m.lace.device.val = field (nth (lacePayload ws) 0 0).toNat 0 8 ∧ t.m.lace.numbered = true ∧
      t.m.lace.state = 3 ∧ t.m.lace.pathLat = lat ∧ laceMain s.m t.m ∧ mainOnly s t) ∧
  (∀ (s : State) (l : LaceLink) (ws : List Word) (lat : Nat), laceOn s.m = false ∨ (linkOf s.m l).up = false →
    exec (.laceDiscover l ws lat) s = .next s) ∧
  (∀ (s : State) (d : Fin 4), laceOn s.m = true → s.m.lace.state = 2 → d ≠ s.m.lace.device → laceHas s.m d.val = true → s.m.sch.reqs = [] →
    answers (.laceDeparture d) s fun t => t.m.lace.state = 3 ∧ laceHas t.m d.val = false ∧ t.m.lace.departed.toNat.testBit d.val = true ∧
      counter t.m 0x70F8 0x06 = sat32 (counter s.m 0x70F8 0x06 + 1) ∧ laceMain s.m t.m ∧ mainOnly s t) ∧
  (∀ (s : State) (d : Fin 4), laceHas s.m d.val = false → exec (.laceDeparture d) s = .next s)

/-- What the device sends (R532–R537, R542): ticks, phases and alignments of the lead, frames passed on, the packets of Q23; and what a follower does of its
own accord.
Model choices it rests on: logs 3 and 14. -/
def Obligations.LaceSends : Prop :=
  (∀ s : State, inRing s.m → s.m.lace.role = 1 → answers .laceTickTimer s fun t =>
      sentByA s.m t.m 1 none [word (tickAt s.m s.m.now), word (tickAt s.m s.m.now / 2 ^ 32)] ∧
      counter t.m 0x70F8 0x01 = sat32 (counter s.m 0x70F8 0x01 + 1) ∧ laceMain s.m t.m ∧ mainOnly s t) ∧
  (∀ s : State, s.m.lace.role ≠ 1 → exec .laceTickTimer s = .next s) ∧
  (∀ s : State, inRing s.m → s.m.lace.role = 1 → engOn s.m = true → phaseSource s.m = 2 → answers .lacePhaseTimer s fun t =>
      sentByA s.m t.m 2 none [word (tickAt s.m s.m.now), word (tickAt s.m s.m.now / 2 ^ 32), word s.m.ph.cycle,
        word (phaseNow s.m + place 16 2 s.m.ph.st), word s.m.ph.period] ∧ laceMain s.m t.m ∧ mainOnly s t) ∧
  (∀ s : State, s.m.lace.role ≠ 1 ∨ phaseSource s.m ≠ 2 → exec .lacePhaseTimer s = .next s) ∧
  (∀ s : State, inRing s.m → s.m.lace.role = 2 → engOn s.m = true → s.m.ph.st = 2 → answers .lacePhaseMissing s fun t =>
      t.m.ph = { s.m.ph with missed := s.m.ph.missed + 1 } ∧ counter t.m 0x70F8 0x08 = sat32 (counter s.m 0x70F8 0x08 + 1) ∧
      laceMain s.m t.m ∧ mainOnly s t) ∧
  (∀ s : State, s.m.lace.role ≠ 2 → exec .lacePhaseMissing s = .next s) ∧
  (∀ (s : State) (x : Nat), s.m.lace.role = 2 → s.m.lace.alignAt = some x → x ≤ tickAt s.m s.m.now → answers .laceAlignBoundary s fun t =>
      t.m.lace.aligned = true ∧ t.m.lace.alignAt = none ∧ laceMain s.m t.m ∧ mainOnly s t) ∧
  (∀ s : State, s.m.lace.alignAt = none → exec .laceAlignBoundary s = .next s) ∧
  (∀ s : State, s.m.lace.role = 2 → exec .carrierVcoRelock s = .next { s with
      m := modLace s.m fun l => { l with aligned := false, alignAt := none } }) ∧
  (∀ s : State, inRing s.m → s.m.lace.role = 1 → answers .carrierVcoRelock s fun t =>
      (∃ b, b % 10000 = 0 ∧ tickAt s.m s.m.now < b ∧ sentByA s.m t.m 3 none [word b, word (b / 2 ^ 32)]) ∧ laceMain s.m t.m ∧ mainOnly s t) ∧
  (∀ (s : State) (ws : List Word), laceOn s.m = true → 2 ≤ s.m.lace.state → s.m.lace.linkB.up = true → s.m.lace.linkA.up = true →
    laceWhole ws = true → (laceHeadOf ws).bcast = true ∨ (laceHeadOf ws).dst ≠ s.m.lace.device → (laceHeadOf ws).src ≠ s.m.lace.device →
    (laceHeadOf ws).type ≠ 0 → (laceHeadOf ws).type.toNat < 0xB → answers (.laceFrameForward .b ws) s fun t =>
      t.m.lace.linkA.unacked = s.m.lace.linkA.unacked ++ [{
        lseq := s.m.lace.linkA.nextSeq, at_ := s.m.now, words := laceSealed (nth ws 0 0 ::
          word ((laceHeadOf ws).eseq.toNat + s.m.lace.linkA.nextSeq * 65536) :: lacePayload ws) }] ∧
      counter t.m 0x70F8 0x01 = sat32 (counter s.m 0x70F8 0x01 + 1) ∧
      counter t.m 0x70F8 0x02 = (if (laceHeadOf ws).bcast then counter s.m 0x70F8 0x02 else sat32 (counter s.m 0x70F8 0x02 + 1)) ∧
      laceMain s.m t.m ∧ mainOnly s t) ∧
  (∀ (s : State) (l : LaceLink) (ws : List Word), laceWhole ws = true → (laceHeadOf ws).bcast = false → (laceHeadOf ws).dst = s.m.lace.device →
    exec (.laceFrameForward l ws) s = .next s) ∧
  (∀ (s : State) (p : Packet) (rest : List Packet) (w : Word) (ws : List Word) (d : Fin 4), inRing s.m → ctlOn s.m = true →
    (s.m.pool.qs[(23 : Fin 32)]).consumer = 5 → (s.m.pool.qs[(23 : Fin 32)]).pkts = p :: rest → p.opened = false → p.poison = [] → p.type = 0x2A →
    p.words = w :: ws → d.val = field w.toNat 6 2 → d ≠ s.m.lace.device → laceReach s.m d.val = true → answers .laceFrameTx s fun t =>
      (t.m.pool.qs[(23 : Fin 32)]).pkts = rest ∧ sentByA s.m t.m (field w.toNat 0 4) (some d) ws ∧ laceMain s.m t.m ∧ mainOnly s t) ∧
  (∀ (s : State) (p : Packet) (rest : List Packet) (w : Word) (ws : List Word), laceOn s.m = true → ctlOn s.m = true →
    (s.m.pool.qs[(23 : Fin 32)]).consumer = 5 → (s.m.pool.qs[(23 : Fin 32)]).pkts = p :: rest → p.opened = false → p.poison = [] → p.type = 0x2A →
    p.words = w :: ws → field w.toNat 0 4 = 7 → field w.toNat 6 2 = s.m.lace.device.val → answers .laceFrameTx s fun t =>
      (t.m.pool.qs[(23 : Fin 32)]).pkts = rest ∧ t.m.dict.laceIn = s.m.dict.laceIn ++ [(finOf 4 (field w.toNat 4 2), wordsBytes ws, s.m.now)] ∧
      laceMain s.m t.m ∧ mainOnly s t) ∧
  (∀ s : State, laceOn s.m = false → exec .laceFrameTx s = .next s)

/-- Frames of other devices (R530, R532, R533, R535–R537, R539, R542–R544): each that arrives whole has its effect once; a damaged one is counted,
and the seventeenth within 1 ms takes the link down; a repeated one is counted and has no other effect.
Model choices it rests on: logs 3 and 14. -/
def Obligations.LaceFrames : Prop :=
  (∀ (s t : State) (l : LaceLink) (ws : List Word) (lat : Nat), laceOn s.m = true → (linkOf s.m l).up = true → 2 ≤ s.m.lace.state →
    laceWhole ws = false → ((linkOf s.m l).failed.filter fun x => decide (s.m.now < x + tickMs)).length < 16 →
    t = { s with m := modLink (count s.m 0x70F8 0x03) l fun k =>
      { k with failed := (k.failed.filter fun x => decide (s.m.now < x + tickMs)) ++ [s.m.now] } } →
    exec (.laceTick l ws) s = .next t ∧ exec (.lacePhase l ws) s = .next t ∧ exec (.laceAlign l ws) s = .next t ∧
    exec (.laceField l ws) s = .next t ∧ exec (.laceClaim l ws) s = .next t ∧ exec (.laceAccept l ws) s = .next t ∧
    exec (.laceDict l ws) s = .next t ∧ exec (.laceStitch l ws) s = .next t ∧ exec (.laceStitchRefusal l ws) s = .next t ∧
    exec (.laceResult l ws) s = .next t ∧ exec (.laceJournal l ws) s = .next t ∧ exec (.laceFrameForward l ws) s = .next t ∧
    exec (.laceDiscover l ws lat) s = .next t) ∧
  (∀ (s : State) (l : LaceLink) (ws : List Word), laceOn s.m = true → (linkOf s.m l).up = true → laceWhole ws = false →
    16 ≤ ((linkOf s.m l).failed.filter fun x => decide (s.m.now < x + tickMs)).length → answers (.laceTick l ws) s fun t =>
      (linkOf t.m l).up = false ∧ counter t.m 0x70F8 0x03 = sat32 (counter s.m 0x70F8 0x03 + 1) ∧
      counter t.m 0x70F8 0x05 = sat32 (counter s.m 0x70F8 0x05 + 1) ∧ mainOnly s t) ∧
  (∀ (s t : State) (l : LaceLink) (ws : List Word), laceOn s.m = true → (linkOf s.m l).up = true → 2 ≤ s.m.lace.state →
    laceWhole ws = true → (laceHeadOf ws).src ≠ s.m.lace.device →
    (laceHeadOf ws).bcast = true ∨ (laceHeadOf ws).dst = s.m.lace.device →
    (laceHeadOf ws).eseq.toNat ≤ nth s.m.lace.eseqIn ((laceHeadOf ws).src.val + 4 * bitN (laceHeadOf ws).bcast) 0 →
    nth s.m.lace.eseqIn ((laceHeadOf ws).src.val + 4 * bitN (laceHeadOf ws).bcast) 0 < (laceHeadOf ws).eseq.toNat + 32768 →
    t = { s with m := modLink (count (count s.m 0x70F8 0x02) 0x70F8 0x0D) l fun k => { k with acked := some (laceHeadOf ws).lseq.toNat } } →
    (isLace ws 1 = true → exec (.laceTick l ws) s = .next t) ∧
    (isLace ws 2 = true → exec (.lacePhase l ws) s = .next t) ∧
    (isLace ws 3 = true → exec (.laceAlign l ws) s = .next t) ∧
    (isLace ws 4 = true → exec (.laceField l ws) s = .next t) ∧
    (isLace ws 5 = true → exec (.laceClaim l ws) s = .next t) ∧
    (isLace ws 6 = true → exec (.laceAccept l ws) s = .next t) ∧
    (isLace ws 7 = true → exec (.laceDict l ws) s = .next t) ∧
    (isLace ws 9 = true → exec (.laceResult l ws) s = .next t) ∧
    (isLace ws 10 = true → exec (.laceJournal l ws) s = .next t) ∧
    (isLace ws 8 = true → (stitchOf ws).2 = false → exec (.laceStitch l ws) s = .next t) ∧
    (isLace ws 8 = true → (stitchOf ws).2 = true → exec (.laceStitchRefusal l ws) s = .next t)) ∧
  (∀ (s : State) (l : LaceLink) (ws : List Word), laceHears s.m l ws 1 → s.m.lace.role = 2 → (laceHeadOf ws).src = 0 →
    answers (.laceTick l ws) s fun t => tickAt t.m s.m.now = max (tickAt s.m s.m.now) (payload64 ws 0 + s.m.lace.pathLat) ∧
      t.m.lace.tickOff = (payload64 ws 0 : Int) + s.m.lace.pathLat - tickAt s.m s.m.now ∧
      (∀ u, tickAt s.m s.m.now ≤ tickAt t.m u) ∧ laceHas t.m 0 = true ∧ (linkOf t.m l).acked = some (laceHeadOf ws).lseq.toNat ∧
      laceMain s.m t.m ∧ mainOnly s t) ∧
  (∀ (s : State) (l : LaceLink) (ws : List Word), laceHears s.m l ws 2 → s.m.lace.role = 2 → (laceHeadOf ws).src = 0 → engOn s.m = true →
    s.m.plan.pending = none → answers (.lacePhase l ws) s fun t =>
      t.m.ph.cycle = (nth (lacePayload ws) 2 0).toNat ∧ t.m.ph.period = max 1 (nth (lacePayload ws) 4 0).toNat ∧
      t.m.ph.st = field (nth (lacePayload ws) 3 0).toNat 16 2 ∧
      t.m.ph.base = (if bitAt (nth (lacePayload ws) 3 0).toNat 20 then 0 else field (nth (lacePayload ws) 3 0).toNat 0 16) ∧
      t.m.ph.missed = 0 ∧ mainOnly s t) ∧
  (∀ (s : State) (l : LaceLink) (ws : List Word), laceHears s.m l ws 3 → s.m.lace.role = 2 → (laceHeadOf ws).src = 0 →
    answers (.laceAlign l ws) s fun t => t.m.lace.alignAt = some (payload64 ws 0) ∧ laceMain s.m t.m ∧ mainOnly s t) ∧
  (∀ (s : State) (l : LaceLink) (ws : List Word) (f : EdgeField), laceHears s.m l ws 4 → f = edgeOf (lacePayload ws) →
    f.gport.val / 128 = (laceHeadOf ws).src.val → s.m.sch.reqs = [] → answers (.laceField l ws) s fun t =>
      t.m.lace.edge = (s.m.lace.edge.filter fun x => x.gport != f.gport) ++ (if f.isOn then [f] else []) ∧
      t.m.lace.holding = s.m.lace.holding.filter (fun x => x.2.gport != f.gport) ∧ laceMain s.m t.m ∧ mainOnly s t) ∧
  (∀ (s : State) (l : LaceLink) (ws : List Word) (f : EdgeField), laceHears s.m l ws 5 → f = edgeOf (lacePayload ws) → inRing s.m →
    f.gport.val / 128 = (laceHeadOf ws).src.val → laceHas s.m (laceHeadOf ws).src.val = true →
    noFields s.m → s.m.lace.claimed = none → answers (.laceClaim l ws) s fun t =>
      t.m.lace.holding = s.m.lace.holding ++ [((laceHeadOf ws).src, f)] ∧ sentByA s.m t.m 6 (some (laceHeadOf ws).src) [word 1] ∧
      laceMain s.m t.m ∧ mainOnly s t) ∧
  (∀ (s : State) (l : LaceLink) (ws : List Word) (f : EdgeField), laceHears s.m l ws 5 → f = edgeOf (lacePayload ws) → inRing s.m →
    f.gport.val / 128 = (laceHeadOf ws).src.val → laceHas s.m (laceHeadOf ws).src.val = true → claimRefused s.m f = true →
    answers (.laceClaim l ws) s fun t => t.m.lace.holding = s.m.lace.holding ∧ t.m.lace.claims = s.m.lace.claims ∧
      sentByA s.m t.m 6 (some (laceHeadOf ws).src) [word 0] ∧ counter t.m 0x70F8 0x09 = sat32 (counter s.m 0x70F8 0x09 + 1) ∧
      laceMain s.m t.m ∧ mainOnly s t) ∧
  (∀ (s : State) (d : Fin 4) (f : EdgeField), inRing s.m → s.m.lace.claims = [(d, f)] → noFields s.m → answers (.laceClaimAccept d) s fun t =>
      t.m.lace.claims = [] ∧ t.m.lace.holding = s.m.lace.holding ++ [(d, f)] ∧ sentByA s.m t.m 6 (some d) [word 1] ∧ laceMain s.m t.m ∧ mainOnly s t) ∧
  (∀ (s : State) (d : Fin 4), (∀ x ∈ s.m.lace.claims, x.1 ≠ d) → exec (.laceClaimAccept d) s = .next s) ∧
  (∀ (s : State) (l : LaceLink) (ws : List Word) (w : Owner) (e : Fin 4), laceHears s.m l ws 6 → bitAt (nth (lacePayload ws) 0 0).toNat 0 = true →
    s.m.lace.claimed = some (w, [(laceHeadOf ws).src, e]) → e ≠ (laceHeadOf ws).src →
    answers (.laceAccept l ws) s fun t => t.m.lace.claimed = some (w, [e]) ∧ laceMain s.m t.m ∧ mainOnly s t) ∧
  (∀ (s : State) (l : LaceLink) (ws : List Word) (w : Owner) (ds : List (Fin 4)), laceHears s.m l ws 6 →
    bitAt (nth (lacePayload ws) 0 0).toNat 0 = false → s.m.lace.claimed = some (w, ds) → (laceHeadOf ws).src ∈ ds → s.m.sch.reqs = [] →
    answers (.laceAccept l ws) s fun t => t.m.lace.claimed = none ∧ laceMain s.m t.m ∧ mainOnly s t) ∧
  (∀ (s : State) (l : LaceLink) (ws : List Word), laceHears s.m l ws 7 → ctlOn s.m = true → roomFor s.m 23 ((lacePayload ws).length + 1) →
    answers (.laceDict l ws) s fun t =>
      delivered t.m 23 0x2A 0x04 (word (0x7 + place 4 2 (laceHeadOf ws).src.val + place 6 2 s.m.lace.device.val +
        place 16 16 (4 * (lacePayload ws).length)) :: lacePayload ws) ∧ laceMain s.m t.m ∧ mainOnly s t) ∧
  (∀ (s : State) (l : LaceLink) (ws : List Word) (q : Fin 32), laceHears s.m l ws 8 → (stitchOf ws).2 = false → q.val = 24 + (stitchOf ws).1 →
    ctlOn s.m = true → roomFor s.m q ((lacePayload ws).drop 3).length → answers (.laceStitch l ws) s fun t =>
      (∃ p ∈ (t.m.pool.qs[q]).pkts, p.opened = false ∧ p.type = 0x20 ∧ p.words = (lacePayload ws).drop 3 ∧
        p.origin = some (laceHeadOf ws).src ∧ p.closedAt = timeOfTick s.m (payload64 ws 1)) ∧ laceMain s.m t.m ∧ mainOnly s t) ∧
  (∀ (s : State) (l : LaceLink) (ws : List Word) (q : Fin 32) (a : Fin 4 × Job), laceHears s.m l ws 8 → (stitchOf ws).2 = true →
    q.val = 24 + (stitchOf ws).1 → ctlOn s.m = true →
    awayJob s.m (laceHeadOf ws).src (field (nth ((lacePayload ws).drop 3) 2 0).toNat 0 16) = some a → answers (.laceStitchRefusal l ws) s fun t =>
      t.m.lace.away = s.m.lace.away.erase a ∧ t.m.lace.retry = s.m.lace.retry ++ [q] ∧
      counter t.m 0x70F8 0x0A = sat32 (counter s.m 0x70F8 0x0A + 1) ∧
      (∃ p, (t.m.pool.qs[q]).pkts = p :: (s.m.pool.qs[q]).pkts ∧ p.opened = false ∧ p.type = 0x20 ∧
        p.words = (lacePayload ws).drop 3) ∧ laceMain s.m t.m ∧ mainOnly s t) ∧
  (∀ s t : State, s.m.lace.retry ≠ [] → t = { s with m := modLace s.m fun l => { l with retry := l.retry.drop 1 } } →
    exec .laceStitchRetry s = exec .dispatch t ∧ answers .laceStitchRetry s fun u => mainOnly s u) ∧
  (∀ s : State, s.m.lace.retry = [] → exec .laceStitchRetry s = .next s) ∧
  (∀ (s : State) (l : LaceLink) (ws : List Word) (a : Fin 4 × Job), laceHears s.m l ws 9 → ctlOn s.m = true →
    awayJob s.m (laceHeadOf ws).src (field (nth (lacePayload ws) 1 0).toNat 0 16) = some a → roomFor s.m a.2.rqueue (lacePayload ws).length →
    answers (.laceResult l ws) s fun t =>
      delivered t.m a.2.rqueue 0x21 0x04 (lacePayload ws) ∧ t.m.lace.away = s.m.lace.away.erase a ∧ laceMain s.m t.m ∧ mainOnly s t) ∧
  (∀ (s : State) (l : LaceLink) (ws : List Word), laceHears s.m l ws 0xA → s.m.lace.role = 1 → ctlOn s.m = true → 7 ≤ (lacePayload ws).length →
    field (nth (lacePayload ws) 1 0).toNat 0 16 < 0x1000 → roomFor s.m 22 (lacePayload ws).length → answers (.laceJournal l ws) s fun t =>
      (∃ b, delivered t.m 22 0x2B 0x06 b ∧ b.length = (lacePayload ws).length ∧ b.head? = some (word (nextJseq s.m.flt.jseq)) ∧
        b.drop 7 = (lacePayload ws).drop 7) ∧
      counter t.m 0x70F8 0x0E = sat32 (counter s.m 0x70F8 0x0E + 1) ∧ laceMain s.m t.m ∧ mainOnly s t)

/-- Counters, journal and fault logic (R550, R556, R560, R562, R563): a clear empties the counters of one index, the journal's rate limit starts anew, a unit
fault takes its unit out of service and a second one while it recovers leads on, and units come back by recovery, release and the end of PROBATION.
Model choices it rests on: logs 3 and 32. -/
def Obligations.FaultsAndRecovery : Prop :=
  (∀ (s : State) (v : BitVec 16), ctlOn s.m = true → s.m.pw.ctlDown = false → s.m.pw.mode.isMain = true ∨ s.m.pw.mode = .hold → isCounterIndex v.toNat = true →
    v.toNat ∉ [0x7000, 0x7008, 0x7018, 0x70C0] → answers (.counterClear v) s fun t => (∀ sub, sub < 256 → counter t.m v.toNat sub = 0) ∧
      (∀ i sub, sub < 256 → i ∉ [v.toNat, 0x7000, 0x7008, 0x7018, 0x70C0] → counter t.m i sub = counter s.m i sub) ∧
      counter t.m 0x7008 0x0A = sat32 (counter s.m 0x7008 0x0A + 1) ∧ poolOnly s.m t.m ∧ mainOnly s t) ∧
  (∀ (s : State) (v : BitVec 16), s.m.pw.ctlDown = true → exec (.counterClear v) s = .next s) ∧
  (∀ (s : State) (v : BitVec 16), v ≠ 0xFFFF#16 → isCounterIndex v.toNat = false → exec (.counterClear v) s = .next s) ∧
  (∀ (s : State) (v : BitVec 16), s.m.pw.mode.isMain = false → s.m.pw.mode ≠ .hold → exec (.counterClear v) s = .next s) ∧
  (∀ s : State, ctlOn s.m = true → exec .journalRatePeriod s = .next { s with
      m := modFlt s.m fun f => { f with budget := [0, 0, 0, 0, 0, 0, 0, 0, 0, 0, 0, 0] } }) ∧
  (∀ s : State, ctlOn s.m = false → exec .journalRatePeriod s = .next s) ∧
  (∀ (s : State) (c : Fin 3), engOn s.m = true → c.val ≠ 0 → s.m.sch.state = 0 → s.m.flt.recent = [] → 1 < cfgN s.m 0x7100 0x07 →
    answers (.schedulerFault c) s fun t => t.m.sch.state = 1 ∧ t.m.pw.mode = s.m.pw.mode ∧ t.m.flt.recent = [(0x2A, s.m.now)] ∧
      counter t.m 0x7008 0x04 = sat32 (counter s.m 0x7008 0x04 + 1) ∧ poolOnly { s.m with sch := t.m.sch } t.m ∧ mainOnly s t) ∧
  (∀ (s : State) (c : Fin 3), engOn s.m = true → c.val ≠ 0 → s.m.sch.state ≠ 0 → answers (.schedulerFault c) s fun t =>
      t.m.pw.mode = .hold ∧ t.m.sch.state = 1 ∧ t.m.sch.reqs = [] ∧ mainOnly s t) ∧
  (∀ (s : State) (c : Fin 3), engOn s.m = false ∨ c.val = 0 → exec (.schedulerFault c) s = .next s) ∧
  (∀ s : State, s.m.sch.state = 1 → answers .schedulerRebuildDone s fun t => t.m.sch.state = 3 ∧ mainOnly s t ∧ readerOnly s.m t.m) ∧
  (∀ s : State, s.m.sch.state ≠ 1 → exec .schedulerRebuildDone s = .next s) ∧
  (∀ (s : State) (c : Fin 3), engOn s.m = true → c.val ≠ 0 → s.m.rad.unit = 0 → s.m.rad.tx.active = false → s.m.flt.recent = [] →
    1 < cfgN s.m 0x7100 0x07 → answers (.radioFault c) s fun t => t.m.rad.unit = 1 ∧ t.m.rad.tx.txen = false ∧
      (∀ d : Fin 8, (t.m.rad.demods[d]).st = 0) ∧ t.m.rad.hold = s.m.rad.hold ∧ t.m.pts = s.m.pts ∧ t.m.pw.mode = s.m.pw.mode ∧
      chirpOnly s.m t.m ∧ mainOnly s t) ∧
  (∀ (s : State) (c : Fin 3), engOn s.m = true → c.val ≠ 0 → s.m.rad.unit = 3 → answers (.radioFault c) s fun t =>
      t.m.rad.unit = 4 ∧ t.m.rad.tx.active = false ∧ t.m.rad.tx.txen = false ∧ (∀ d : Fin 8, (t.m.rad.demods[d]).st = 0) ∧ mainOnly s t) ∧
  (∀ (s : State) (c : Fin 3), engOn s.m = false ∨ c.val = 0 → exec (.radioFault c) s = .next s) ∧
  (∀ s : State, s.m.rad.unit = 1 → answers .radioRecovered s fun t => t.m.rad = { s.m.rad with unit := 3 } ∧ mainOnly s t ∧
      poolOnly { s.m with rad := t.m.rad } t.m) ∧
  (∀ s : State, s.m.rad.unit ≠ 1 → exec .radioRecovered s = .next s) ∧
  (∀ s : State, s.m.pw.mode.isMain = true → s.m.pw.ctlDown = false → s.m.rad.unit = 4 → answers (.radioRelease 0x5A#8) s fun t => t.m.rad = { s.m.rad with unit := 1 } ∧
      counter t.m 0x7008 0x09 = sat32 (counter s.m 0x7008 0x09 + 1) ∧ mainOnly s t ∧ poolOnly { s.m with rad := t.m.rad } t.m) ∧
  (∀ (s : State) (v : BitVec 8), v ≠ 0x5A#8 ∨ s.m.rad.unit ≠ 4 ∨ s.m.pw.mode.isMain = false → exec (.radioRelease v) s = .next s) ∧
  (∀ s : State, s.m.pw.ctlState = 3 → exec (.unitProbationEnd 0x28#8) s = .next { s with m := modPw s.m fun p => { p with ctlState := 0 } }) ∧
  (∀ s : State, s.m.pool.state = 3 → exec (.unitProbationEnd 0x29#8) s = .next { s with m := { s.m with pool := { s.m.pool with state := 0 } } }) ∧
  (∀ s : State, s.m.sch.state = 3 → exec (.unitProbationEnd 0x2A#8) s = .next { s with m := { s.m with sch := { s.m.sch with state := 0 } } }) ∧
  (∀ s : State, s.m.rad.unit = 3 → exec (.unitProbationEnd 0x2B#8) s = .next { s with m := modRad s.m fun r => { r with unit := 0 } }) ∧
  (∀ s : State, s.m.pw.ctlState ≠ 3 → s.m.pool.state ≠ 3 → s.m.sch.state ≠ 3 → s.m.rad.unit ≠ 3 →
    ∀ u : BitVec 8, exec (.unitProbationEnd u) s = .next s)

/-- The keys stay where they are (R246, R380, R421): only a dictionary write, the last segment of a segmented one, a DX4032 write (which can reach the
erase entry), a partner key write and a key erase can change a fob key or a partner key, and only the first two a target key; fob and target keys
change only in CALIBRATE, partner keys only in a main mode. -/
def Obligations.KeysStayPut : Prop :=
  ∀ (c : Instr) (s t : State), exec c s = .next t →
    ((∀ src, c ≠ .dictWrite src) → (∀ src, c ≠ .dictSegment src) → t.lgr.key0 = s.lgr.key0 ∧ t.lgr.key1 = s.lgr.key1) ∧
    ((∀ src, c ≠ .dictWrite src) → (∀ src, c ≠ .dictSegment src) → (∀ v, c ≠ .keyErase v) → c ≠ .dx4032Write →
      t.keys.fobKeys = s.keys.fobKeys ∧ ((∀ n k, c ≠ .partnerKeyWrite n k) → t.keys.partner = s.keys.partner)) ∧
    (s.m.pw.mode ≠ .calibrate → t.keys.fobKeys = s.keys.fobKeys ∧ t.lgr.key0 = s.lgr.key0 ∧ t.lgr.key1 = s.lgr.key1) ∧
    (s.m.pw.mode.isMain = false → t.keys.partner = s.keys.partner)

end
end

