-- ==== Sys2Proof/Laws/Crypto.lean ====
section
/-!
SUPPORT. Laws/Crypto.lean: decryption undoes encryption.
-/

namespace Sys2Proof.Machine

/-- A block as the cipher holds it: 16 values of a byte. -/
def isBlock (s : List Nat) : Prop := s.length = 16 ∧ ∀ x ∈ s, x < 256

theorem aesDouble_lt : ∀ x, x < 256 → aesDouble x < 256 := by decide +kernel
theorem aesSub_lt : ∀ x, x < 256 → aesSub x < 256 := by decide +kernel
/-- The inverse of the substitution, one byte for each value. -/
def aesSubBack (y : Nat) : Nat :=
  0x7D0C2155631469E126D677BA7E042B17619953833CBBEBC8B0F52AAE4D3BE0A0EF9CC9939F7AE52D0D4AB519A97F51605FEC8027591012B131C7078833A8DD1FF45ACD78FEC0DB9A2079D2C64B3E56FC1BBE18AA0E62B76F89C5291D711AF1476EDF751CE837F9E28535ADE72274AC9673E6B4F0CECFF297EADC674F4111913A6B8A130103BDAFC1020F3FCA8F1E2CD00645B3B80558E4F70AD3BC8C00ABD890849D8DA75746155EDAB9EDFD5048706C92B6655DCC5CA4D41698688664F6F87225D18B6D49A25B76B224D92866A12E084EC3FA420B954CEE3D23C2A632947B54CBE9DEC444438E3487FF2F9B8239E37CFBD7F3819EA340BF38A53630D56A0952 / 256 ^ y % 256
theorem aesSubBack_aesSub : ∀ x, x < 256 → aesSubBack (aesSub x) = x := by decide +kernel
theorem aesSubInv_aesSub (x : Nat) (hx : x < 256) : aesSubInv (aesSub x) = x := by
  unfold aesSubInv
  cases h : (List.range 256).find? fun z => aesSub z == aesSub x with
  | none => exact absurd (List.find?_eq_none.1 h x (List.mem_range.2 hx)) (by simp)
  | some z =>
    have hz := List.mem_range.1 (List.mem_of_find?_eq_some h)
    have e : aesSub z = aesSub x := by simpa using List.find?_some h
    rw [Option.getD_some, ← aesSubBack_aesSub z hz, e, aesSubBack_aesSub x hx]
theorem aesDouble_eq : ∀ x, x < 256 → aesDouble x = (x <<< 1) ^^^ (x >>> 7) * 0x11B := by decide +kernel
theorem aesDouble_xor (x : Nat) (hx : x < 256) (y : Nat) (hy : y < 256) : aesDouble (x ^^^ y) = aesDouble x ^^^ aesDouble y := by
  have hm : ∀ a, a < 2 → ∀ b, b < 2 → (a ^^^ b) * 0x11B = a * 0x11B ^^^ b * 0x11B := by decide
  rw [aesDouble_eq x hx, aesDouble_eq y hy, aesDouble_eq _ (Nat.xor_lt_two_pow (n := 8) hx hy), Nat.shiftLeft_xor_distrib,
    Nat.shiftRight_xor_distrib, hm _ (by omega) _ (by omega)]
  ac_rfl

theorem byte_xor_lt {x y : Nat} (hx : x < 256) (hy : y < 256) : x ^^^ y < 256 := Nat.xor_lt_two_pow (n := 8) hx hy

theorem aesMul_xor (n : Nat) {x y : Nat} (hx : x < 256) (hy : y < 256) : aesMul n (x ^^^ y) = aesMul n x ^^^ aesMul n y := by
  have h2 := aesDouble_xor x hx y hy
  have h4 := aesDouble_xor _ (aesDouble_lt x hx) _ (aesDouble_lt y hy)
  have h8 := aesDouble_xor _ (aesDouble_lt _ (aesDouble_lt x hx)) _ (aesDouble_lt _ (aesDouble_lt y hy))
  simp only [aesMul, h2, h4, h8]
  split <;> split <;> split <;> split <;> (try simp only [Nat.zero_xor, Nat.xor_zero]) <;> ac_rfl

/-- The columns of InvMixColumns after MixColumns: one gives the value back, the others nothing. -/
theorem aesMix_same : ∀ x, x < 256 → aesMul 14 (aesDouble x) ^^^ (aesMul 11 x ^^^ (aesMul 13 x ^^^ (aesMul 9 (aesDouble x) ^^^ aesMul 9 x))) = x := by
  decide +kernel
theorem aesMix_next : ∀ x, x < 256 → aesMul 14 (aesDouble x) ^^^ (aesMul 14 x ^^^ (aesMul 11 (aesDouble x) ^^^ (aesMul 13 x ^^^ aesMul 9 x))) = 0 := by
  decide +kernel
theorem aesMix_across : ∀ x, x < 256 → aesMul 14 x ^^^ (aesMul 11 (aesDouble x) ^^^ (aesMul 11 x ^^^ (aesMul 13 (aesDouble x) ^^^ aesMul 9 x))) = 0 := by
  decide +kernel
theorem aesMix_before : ∀ x, x < 256 → aesMul 14 x ^^^ (aesMul 11 x ^^^ (aesMul 13 (aesDouble x) ^^^ (aesMul 13 x ^^^ aesMul 9 (aesDouble x)))) = 0 := by
  decide +kernel

/-- One row of InvMixColumns after MixColumns on a column (a, b, c, d). -/
theorem aesMix_row {a b c d : Nat} (ha : a < 256) (hb : b < 256) (hc : c < 256) (hd : d < 256) :
    aesMul 14 (aesDouble a ^^^ (aesDouble b ^^^ b) ^^^ c ^^^ d) ^^^ aesMul 11 (a ^^^ aesDouble b ^^^ (aesDouble c ^^^ c) ^^^ d) ^^^
    aesMul 13 (a ^^^ b ^^^ aesDouble c ^^^ (aesDouble d ^^^ d)) ^^^ aesMul 9 ((aesDouble a ^^^ a) ^^^ b ^^^ c ^^^ aesDouble d) = a := by
  have da := aesDouble_lt a ha
  have db := aesDouble_lt b hb
  have dc := aesDouble_lt c hc
  have dd := aesDouble_lt d hd
  have e := fun (x y : Nat) (hx : x < 256) (hy : y < 256) => byte_xor_lt hx hy
  have h := congrArg₂ (· ^^^ ·) (congrArg₂ (· ^^^ ·) (aesMix_same a ha) (aesMix_next b hb)) (congrArg₂ (· ^^^ ·) (aesMix_across c hc) (aesMix_before d hd))
  simp only [Nat.xor_zero] at h
  rw [aesMul_xor 14 (e _ _ (e _ _ da (e _ _ db hb)) hc) hd, aesMul_xor 14 (e _ _ da (e _ _ db hb)) hc, aesMul_xor 14 da (e _ _ db hb), aesMul_xor 14 db hb,
    aesMul_xor 11 (e _ _ (e _ _ ha db) (e _ _ dc hc)) hd, aesMul_xor 11 (e _ _ ha db) (e _ _ dc hc), aesMul_xor 11 ha db, aesMul_xor 11 dc hc,
    aesMul_xor 13 (e _ _ (e _ _ ha hb) dc) (e _ _ dd hd), aesMul_xor 13 (e _ _ ha hb) dc, aesMul_xor 13 ha hb, aesMul_xor 13 dd hd,
    aesMul_xor 9 (e _ _ (e _ _ (e _ _ da ha) hb) hc) dd, aesMul_xor 9 (e _ _ (e _ _ da ha) hb) hc, aesMul_xor 9 (e _ _ da ha) hb, aesMul_xor 9 da ha]
  refine Eq.trans ?_ h
  ac_rfl

theorem aesMixInv_aesMix4 {a b c d : Nat} (r : List Nat) (ha : a < 256) (hb : b < 256) (hc : c < 256) (hd : d < 256) :
    aesMixInv (aesMix (a :: b :: c :: d :: r)) = a :: b :: c :: d :: aesMixInv (aesMix r) := by
  have h1 := aesMix_row ha hb hc hd
  have h2 := aesMix_row hb hc hd ha
  have h3 := aesMix_row hc hd ha hb
  have h4 := aesMix_row hd ha hb hc
  simp only [aesMix, aesMixInv, List.cons.injEq, and_true]
  refine ⟨h1, Eq.trans ?_ h2, Eq.trans ?_ h3, Eq.trans ?_ h4⟩ <;> ac_nf

theorem xorList_xorList : ∀ (s k : List Nat), s.length = k.length → xorList (xorList s k) k = s
  | [], _, _ => rfl
  | _ :: _, [], h => by simp at h
  | x :: s, y :: k, h => by
    have e := xorList_xorList s k (by simpa using h)
    simp only [xorList] at e
    simp [xorList, e]

theorem isBlock_xorList {s k : List Nat} (hs : isBlock s) (hk : isBlock k) : isBlock (xorList s k) := by
  refine ⟨by simp [xorList, hs.1, hk.1], fun x hx => ?_⟩
  obtain ⟨i, hi, rfl⟩ := List.getElem_of_mem hx
  simp only [xorList, List.getElem_zipWith]
  exact byte_xor_lt (hs.2 _ (List.getElem_mem _)) (hk.2 _ (List.getElem_mem _))

/-- A block written out. -/
theorem isBlock_cases {s : List Nat} (h : isBlock s) : ∃ a b c d e f g i j k l m n o p q : Nat, s = [a, b, c, d, e, f, g, i, j, k, l, m, n, o, p, q] ∧
    a < 256 ∧ b < 256 ∧ c < 256 ∧ d < 256 ∧ e < 256 ∧ f < 256 ∧ g < 256 ∧ i < 256 ∧ j < 256 ∧ k < 256 ∧ l < 256 ∧ m < 256 ∧ n < 256 ∧ o < 256 ∧ p < 256 ∧
    q < 256 := by
  obtain ⟨hl, hx⟩ := h
  match s, hl with
  | [a, b, c, d, e, f, g, i, j, k, l, m, n, o, p, q], _ => exact ⟨a, b, c, d, e, f, g, i, j, k, l, m, n, o, p, q, rfl, by simpa using hx⟩

theorem isBlock_aesSubShift {s : List Nat} (h : isBlock s) : isBlock (aesSubShift s) := by
  obtain ⟨a, b, c, d, e, f, g, i, j, k, l, m, n, o, p, q, rfl, ha, hb, hc, hd, he, hf, hg, hi, hj, hk, hl, hm, hn, ho, hp, hq⟩ := isBlock_cases h
  refine ⟨rfl, ?_⟩
  simp [aesSubShift, aesSub_lt, *]

theorem aesSubShiftInv_aesSubShift {s : List Nat} (h : isBlock s) : aesSubShiftInv (aesSubShift s) = s := by
  obtain ⟨a, b, c, d, e, f, g, i, j, k, l, m, n, o, p, q, rfl, ha, hb, hc, hd, he, hf, hg, hi, hj, hk, hl, hm, hn, ho, hp, hq⟩ := isBlock_cases h
  simp [aesSubShift, aesSubShiftInv, aesSubInv_aesSub, *]

theorem isBlock_aesMix {s : List Nat} (h : isBlock s) : isBlock (aesMix s) := by
  obtain ⟨a, b, c, d, e, f, g, i, j, k, l, m, n, o, p, q, rfl, ha, hb, hc, hd, he, hf, hg, hi, hj, hk, hl, hm, hn, ho, hp, hq⟩ := isBlock_cases h
  refine ⟨rfl, ?_⟩
  simp only [aesMix, List.forall_mem_cons]
  and_intros <;> first | exact List.forall_mem_nil _ | (repeat' (first | assumption | apply byte_xor_lt | apply aesDouble_lt))

theorem aesMixInv_aesMix {s : List Nat} (h : isBlock s) : aesMixInv (aesMix s) = s := by
  obtain ⟨a, b, c, d, e, f, g, i, j, k, l, m, n, o, p, q, rfl, ha, hb, hc, hd, he, hf, hg, hi, hj, hk, hl, hm, hn, ho, hp, hq⟩ := isBlock_cases h
  rw [aesMixInv_aesMix4 _ ha hb hc hd, aesMixInv_aesMix4 _ he hf hg hi, aesMixInv_aesMix4 _ hj hk hl hm, aesMixInv_aesMix4 _ hn ho hp hq]
  rfl

theorem isBlock_aesNextKey {k : List Nat} (rc : Nat) (hr : rc < 256) (h : isBlock k) : isBlock (aesNextKey rc k) := by
  obtain ⟨a, b, c, d, e, f, g, i, j, k, l, m, n, o, p, q, rfl, ha, hb, hc, hd, he, hf, hg, hi, hj, hk, hl, hm, hn, ho, hp, hq⟩ := isBlock_cases h
  refine ⟨rfl, ?_⟩
  simp only [aesNextKey, xorList, List.take, List.drop, List.zipWith, List.cons_append, List.nil_append, List.getElem?_cons_succ, List.getElem?_cons_zero,
    Option.getD_some, List.forall_mem_cons]
  and_intros <;> first | exact List.forall_mem_nil _ | (repeat' (first | assumption | apply byte_xor_lt | apply aesSub_lt))

/-- One round back. -/
theorem aesBack_round {k k' : List Nat} {t : List Nat} (ks : List (List Nat)) (ht : isBlock t) (hk : isBlock k) :
    aesBack.aesBack' (k :: k' :: ks) (xorList (aesMix (aesSubShift t)) k) = aesBack.aesBack' (k' :: ks) t := by
  have hb := isBlock_aesSubShift ht
  have hm := isBlock_aesMix hb
  rw [aesBack.aesBack', xorList_xorList _ _ (hm.1.trans hk.1.symm), aesMixInv_aesMix hb, aesSubShiftInv_aesSubShift ht]
  simp

/-- The last round back. -/
theorem aesBack_last {k : List Nat} {t : List Nat} (ks : List (List Nat)) (ht : isBlock t) (hk : isBlock k) :
    aesBack (k :: ks) (xorList (aesSubShift t) k) = aesBack.aesBack' ks t := by
  rw [aesBack, xorList_xorList _ _ ((isBlock_aesSubShift ht).1.trans hk.1.symm), aesSubShiftInv_aesSubShift ht]

/-- Rounds forward from key `k` and block `t`, then back over the keys, lead to `t` as it was before them. -/
theorem aesBack_aesRounds : ∀ (rcs : List Nat) (k t : List Nat) (ks : List (List Nat)), rcs ≠ [] → (∀ r ∈ rcs, r < 256) → isBlock k → isBlock t →
    aesBack ((aesKeys rcs k).reverse ++ ks) (aesRounds rcs k t) = aesBack.aesBack' (k :: ks) t := by
  intro rcs
  induction rcs with
  | nil => intro _ _ _ h; exact absurd rfl h
  | cons rc rest ih =>
    intro k t ks _ hr hk ht
    have hk' := isBlock_aesNextKey rc (hr rc (by simp)) hk
    cases rest with
    | nil => simpa [aesKeys, aesRounds] using aesBack_last (k :: ks) ht hk'
    | cons r2 rest =>
      have ht' := isBlock_xorList (isBlock_aesMix (isBlock_aesSubShift ht)) hk'
      have e := ih (aesNextKey rc k) _ (k :: ks) (by simp) (fun r h => hr r (by simp [h])) hk' ht'
      rw [aesBack_round ks ht hk'] at e
      simpa [aesKeys, aesRounds] using e

theorem isBlock_aesRounds : ∀ (rcs : List Nat) (k t : List Nat), (∀ r ∈ rcs, r < 256) → isBlock k → isBlock t → isBlock (aesRounds rcs k t)
  | [], _, _, _, _, ht => by simpa [aesRounds] using ht
  | [rc], k, t, hr, hk, ht => by
    simpa [aesRounds] using isBlock_xorList (isBlock_aesSubShift ht) (isBlock_aesNextKey rc (hr rc (by simp)) hk)
  | rc :: r2 :: rest, k, t, hr, hk, ht => by
    have hk' := isBlock_aesNextKey rc (hr rc (by simp)) hk
    simpa [aesRounds] using isBlock_aesRounds (r2 :: rest) _ _ (fun r h => hr r (by simp [h])) hk'
      (isBlock_xorList (isBlock_aesMix (isBlock_aesSubShift ht)) hk')

theorem isBlock_bytes {b : List Byte} (h : b.length = 16) : isBlock (b.map (·.toNat)) := by
  refine ⟨by simpa using h, fun x hx => ?_⟩
  obtain ⟨y, _, rfl⟩ := List.mem_map.1 hx
  exact y.isLt

theorem bytes_of_toNat {l : List Nat} (h : ∀ x ∈ l, x < 256) : (l.map (BitVec.ofNat 8)).map (·.toNat) = l := by
  induction l with
  | nil => rfl
  | cons x l ih =>
    simp only [List.mem_cons, forall_eq_or_imp] at h
    have hx : x % 256 = x := Nat.mod_eq_of_lt h.1
    simp only [List.map_cons, BitVec.toNat_ofNat, Nat.reducePow, hx, ih h.2]

/-- Decryption undoes encryption (R245, FIPS 197). -/
theorem aes128Inv_aes128 (key : BitVec 128) (b : List Byte) (h : b.length = 16) : aes128Inv key (aes128 key b) = b := by
  have hk : isBlock ((blockBytes key).map (·.toNat)) := isBlock_bytes (by simp [blockBytes])
  have hb := isBlock_bytes h
  have ht := isBlock_xorList hb hk
  have hr : ∀ r ∈ [0x01, 0x02, 0x04, 0x08, 0x10, 0x20, 0x40, 0x80, 0x1B, 0x36], r < 256 := by decide
  have e := aesBack_aesRounds [0x01, 0x02, 0x04, 0x08, 0x10, 0x20, 0x40, 0x80, 0x1B, 0x36] _ _ [] (by simp) hr hk ht
  rw [List.append_nil, aesBack.aesBack', xorList_xorList _ _ (hb.1.trans hk.1.symm)] at e
  unfold aes128Inv aes128 aesBytes
  rw [bytes_of_toNat (isBlock_aesRounds _ _ _ hr hk ht).2, e, List.map_map]
  exact (List.map_congr_left fun x _ => BitVec.ofNat_toNat 8 x |>.trans (BitVec.setWidth_eq x)).trans (List.map_id b)

theorem aes128_length (key : BitVec 128) (b : List Byte) (h : b.length = 16) : (aes128 key b).length = 16 := by
  have hk : isBlock ((blockBytes key).map (·.toNat)) := isBlock_bytes (by simp [blockBytes])
  have hr : ∀ r ∈ [0x01, 0x02, 0x04, 0x08, 0x10, 0x20, 0x40, 0x80, 0x1B, 0x36], r < 256 := by decide
  simpa [aes128, aesBytes] using (isBlock_aesRounds _ _ _ hr hk (isBlock_xorList (isBlock_bytes h) hk)).1

end Sys2Proof.Machine
end

