-- ==== Sys2Proof/Laws/State.lean ====
section
/-!
SUPPORT. Laws/State.lean: what each update of the state leaves as it was, one lemma for each field and update, so that no proof unfolds a
record update.
-/

namespace Sys2Proof.Machine

variable (m : Main)

@[simp] theorem modCore_now (k : Fin 16) (f : Core → Core) : (modCore m k f).now = m.now := rfl
@[simp] theorem modCore_freeCtr (k : Fin 16) (f : Core → Core) : (modCore m k f).freeCtr = m.freeCtr := rfl
@[simp] theorem modCore_pw (k : Fin 16) (f : Core → Core) : (modCore m k f).pw = m.pw := rfl
@[simp] theorem modCore_ph (k : Fin 16) (f : Core → Core) : (modCore m k f).ph = m.ph := rfl
@[simp] theorem modCore_plan (k : Fin 16) (f : Core → Core) : (modCore m k f).plan = m.plan := rfl
@[simp] theorem modCore_ports (k : Fin 16) (f : Core → Core) : (modCore m k f).ports = m.ports := rfl
@[simp] theorem modCore_sch (k : Fin 16) (f : Core → Core) : (modCore m k f).sch = m.sch := rfl
@[simp] theorem modCore_brn (k : Fin 16) (f : Core → Core) : (modCore m k f).brn = m.brn := rfl
@[simp] theorem modCore_engs (k : Fin 16) (f : Core → Core) : (modCore m k f).engs = m.engs := rfl
@[simp] theorem modCore_disp (k : Fin 16) (f : Core → Core) : (modCore m k f).disp = m.disp := rfl
@[simp] theorem modCore_sv (k : Fin 16) (f : Core → Core) : (modCore m k f).sv = m.sv := rfl
@[simp] theorem modCore_wt (k : Fin 16) (f : Core → Core) : (modCore m k f).wt = m.wt := rfl
@[simp] theorem modCore_pool (k : Fin 16) (f : Core → Core) : (modCore m k f).pool = m.pool := rfl
@[simp] theorem modCore_tgt (k : Fin 16) (f : Core → Core) : (modCore m k f).tgt = m.tgt := rfl
@[simp] theorem modCore_rad (k : Fin 16) (f : Core → Core) : (modCore m k f).rad = m.rad := rfl
@[simp] theorem modCore_pts (k : Fin 16) (f : Core → Core) : (modCore m k f).pts = m.pts := rfl
@[simp] theorem modCore_dict (k : Fin 16) (f : Core → Core) : (modCore m k f).dict = m.dict := rfl
@[simp] theorem modCore_cfg (k : Fin 16) (f : Core → Core) : (modCore m k f).cfg = m.cfg := rfl
@[simp] theorem modCore_spi (k : Fin 16) (f : Core → Core) : (modCore m k f).spi = m.spi := rfl
@[simp] theorem modCore_can (k : Fin 16) (f : Core → Core) : (modCore m k f).can = m.can := rfl
@[simp] theorem modCore_gpio (k : Fin 16) (f : Core → Core) : (modCore m k f).gpio = m.gpio := rfl
@[simp] theorem modCore_cus (k : Fin 16) (f : Core → Core) : (modCore m k f).cus = m.cus := rfl
@[simp] theorem modCore_lace (k : Fin 16) (f : Core → Core) : (modCore m k f).lace = m.lace := rfl
@[simp] theorem modCore_flt (k : Fin 16) (f : Core → Core) : (modCore m k f).flt = m.flt := rfl

@[simp] theorem modPort_now (p : Fin 128) (f : Port → Port) : (modPort m p f).now = m.now := rfl
@[simp] theorem modPort_freeCtr (p : Fin 128) (f : Port → Port) : (modPort m p f).freeCtr = m.freeCtr := rfl
@[simp] theorem modPort_pw (p : Fin 128) (f : Port → Port) : (modPort m p f).pw = m.pw := rfl
@[simp] theorem modPort_ph (p : Fin 128) (f : Port → Port) : (modPort m p f).ph = m.ph := rfl
@[simp] theorem modPort_plan (p : Fin 128) (f : Port → Port) : (modPort m p f).plan = m.plan := rfl
@[simp] theorem modPort_cores (p : Fin 128) (f : Port → Port) : (modPort m p f).cores = m.cores := rfl
@[simp] theorem modPort_sch (p : Fin 128) (f : Port → Port) : (modPort m p f).sch = m.sch := rfl
@[simp] theorem modPort_brn (p : Fin 128) (f : Port → Port) : (modPort m p f).brn = m.brn := rfl
@[simp] theorem modPort_engs (p : Fin 128) (f : Port → Port) : (modPort m p f).engs = m.engs := rfl
@[simp] theorem modPort_disp (p : Fin 128) (f : Port → Port) : (modPort m p f).disp = m.disp := rfl
@[simp] theorem modPort_sv (p : Fin 128) (f : Port → Port) : (modPort m p f).sv = m.sv := rfl
@[simp] theorem modPort_wt (p : Fin 128) (f : Port → Port) : (modPort m p f).wt = m.wt := rfl
@[simp] theorem modPort_pool (p : Fin 128) (f : Port → Port) : (modPort m p f).pool = m.pool := rfl
@[simp] theorem modPort_tgt (p : Fin 128) (f : Port → Port) : (modPort m p f).tgt = m.tgt := rfl
@[simp] theorem modPort_rad (p : Fin 128) (f : Port → Port) : (modPort m p f).rad = m.rad := rfl
@[simp] theorem modPort_pts (p : Fin 128) (f : Port → Port) : (modPort m p f).pts = m.pts := rfl
@[simp] theorem modPort_dict (p : Fin 128) (f : Port → Port) : (modPort m p f).dict = m.dict := rfl
@[simp] theorem modPort_cfg (p : Fin 128) (f : Port → Port) : (modPort m p f).cfg = m.cfg := rfl
@[simp] theorem modPort_spi (p : Fin 128) (f : Port → Port) : (modPort m p f).spi = m.spi := rfl
@[simp] theorem modPort_can (p : Fin 128) (f : Port → Port) : (modPort m p f).can = m.can := rfl
@[simp] theorem modPort_gpio (p : Fin 128) (f : Port → Port) : (modPort m p f).gpio = m.gpio := rfl
@[simp] theorem modPort_cus (p : Fin 128) (f : Port → Port) : (modPort m p f).cus = m.cus := rfl
@[simp] theorem modPort_lace (p : Fin 128) (f : Port → Port) : (modPort m p f).lace = m.lace := rfl
@[simp] theorem modPort_flt (p : Fin 128) (f : Port → Port) : (modPort m p f).flt = m.flt := rfl

@[simp] theorem modEng_now (e : Fin 24) (f : Engine → Engine) : (modEng m e f).now = m.now := rfl
@[simp] theorem modEng_freeCtr (e : Fin 24) (f : Engine → Engine) : (modEng m e f).freeCtr = m.freeCtr := rfl
@[simp] theorem modEng_pw (e : Fin 24) (f : Engine → Engine) : (modEng m e f).pw = m.pw := rfl
@[simp] theorem modEng_ph (e : Fin 24) (f : Engine → Engine) : (modEng m e f).ph = m.ph := rfl
@[simp] theorem modEng_plan (e : Fin 24) (f : Engine → Engine) : (modEng m e f).plan = m.plan := rfl
@[simp] theorem modEng_cores (e : Fin 24) (f : Engine → Engine) : (modEng m e f).cores = m.cores := rfl
@[simp] theorem modEng_ports (e : Fin 24) (f : Engine → Engine) : (modEng m e f).ports = m.ports := rfl
@[simp] theorem modEng_sch (e : Fin 24) (f : Engine → Engine) : (modEng m e f).sch = m.sch := rfl
@[simp] theorem modEng_brn (e : Fin 24) (f : Engine → Engine) : (modEng m e f).brn = m.brn := rfl
@[simp] theorem modEng_disp (e : Fin 24) (f : Engine → Engine) : (modEng m e f).disp = m.disp := rfl
@[simp] theorem modEng_sv (e : Fin 24) (f : Engine → Engine) : (modEng m e f).sv = m.sv := rfl
@[simp] theorem modEng_wt (e : Fin 24) (f : Engine → Engine) : (modEng m e f).wt = m.wt := rfl
@[simp] theorem modEng_pool (e : Fin 24) (f : Engine → Engine) : (modEng m e f).pool = m.pool := rfl
@[simp] theorem modEng_tgt (e : Fin 24) (f : Engine → Engine) : (modEng m e f).tgt = m.tgt := rfl
@[simp] theorem modEng_rad (e : Fin 24) (f : Engine → Engine) : (modEng m e f).rad = m.rad := rfl
@[simp] theorem modEng_pts (e : Fin 24) (f : Engine → Engine) : (modEng m e f).pts = m.pts := rfl
@[simp] theorem modEng_dict (e : Fin 24) (f : Engine → Engine) : (modEng m e f).dict = m.dict := rfl
@[simp] theorem modEng_cfg (e : Fin 24) (f : Engine → Engine) : (modEng m e f).cfg = m.cfg := rfl
@[simp] theorem modEng_spi (e : Fin 24) (f : Engine → Engine) : (modEng m e f).spi = m.spi := rfl
@[simp] theorem modEng_can (e : Fin 24) (f : Engine → Engine) : (modEng m e f).can = m.can := rfl
@[simp] theorem modEng_gpio (e : Fin 24) (f : Engine → Engine) : (modEng m e f).gpio = m.gpio := rfl
@[simp] theorem modEng_cus (e : Fin 24) (f : Engine → Engine) : (modEng m e f).cus = m.cus := rfl
@[simp] theorem modEng_lace (e : Fin 24) (f : Engine → Engine) : (modEng m e f).lace = m.lace := rfl
@[simp] theorem modEng_flt (e : Fin 24) (f : Engine → Engine) : (modEng m e f).flt = m.flt := rfl

@[simp] theorem modCtx_now (e : Fin 24) (c : Fin 2) (f : Ctx → Ctx) : (modCtx m e c f).now = m.now := rfl
@[simp] theorem modCtx_freeCtr (e : Fin 24) (c : Fin 2) (f : Ctx → Ctx) : (modCtx m e c f).freeCtr = m.freeCtr := rfl
@[simp] theorem modCtx_pw (e : Fin 24) (c : Fin 2) (f : Ctx → Ctx) : (modCtx m e c f).pw = m.pw := rfl
@[simp] theorem modCtx_ph (e : Fin 24) (c : Fin 2) (f : Ctx → Ctx) : (modCtx m e c f).ph = m.ph := rfl
@[simp] theorem modCtx_plan (e : Fin 24) (c : Fin 2) (f : Ctx → Ctx) : (modCtx m e c f).plan = m.plan := rfl
@[simp] theorem modCtx_cores (e : Fin 24) (c : Fin 2) (f : Ctx → Ctx) : (modCtx m e c f).cores = m.cores := rfl
@[simp] theorem modCtx_ports (e : Fin 24) (c : Fin 2) (f : Ctx → Ctx) : (modCtx m e c f).ports = m.ports := rfl
@[simp] theorem modCtx_sch (e : Fin 24) (c : Fin 2) (f : Ctx → Ctx) : (modCtx m e c f).sch = m.sch := rfl
@[simp] theorem modCtx_brn (e : Fin 24) (c : Fin 2) (f : Ctx → Ctx) : (modCtx m e c f).brn = m.brn := rfl
@[simp] theorem modCtx_disp (e : Fin 24) (c : Fin 2) (f : Ctx → Ctx) : (modCtx m e c f).disp = m.disp := rfl
@[simp] theorem modCtx_sv (e : Fin 24) (c : Fin 2) (f : Ctx → Ctx) : (modCtx m e c f).sv = m.sv := rfl
@[simp] theorem modCtx_wt (e : Fin 24) (c : Fin 2) (f : Ctx → Ctx) : (modCtx m e c f).wt = m.wt := rfl
@[simp] theorem modCtx_pool (e : Fin 24) (c : Fin 2) (f : Ctx → Ctx) : (modCtx m e c f).pool = m.pool := rfl
@[simp] theorem modCtx_tgt (e : Fin 24) (c : Fin 2) (f : Ctx → Ctx) : (modCtx m e c f).tgt = m.tgt := rfl
@[simp] theorem modCtx_rad (e : Fin 24) (c : Fin 2) (f : Ctx → Ctx) : (modCtx m e c f).rad = m.rad := rfl
@[simp] theorem modCtx_pts (e : Fin 24) (c : Fin 2) (f : Ctx → Ctx) : (modCtx m e c f).pts = m.pts := rfl
@[simp] theorem modCtx_dict (e : Fin 24) (c : Fin 2) (f : Ctx → Ctx) : (modCtx m e c f).dict = m.dict := rfl
@[simp] theorem modCtx_cfg (e : Fin 24) (c : Fin 2) (f : Ctx → Ctx) : (modCtx m e c f).cfg = m.cfg := rfl
@[simp] theorem modCtx_spi (e : Fin 24) (c : Fin 2) (f : Ctx → Ctx) : (modCtx m e c f).spi = m.spi := rfl
@[simp] theorem modCtx_can (e : Fin 24) (c : Fin 2) (f : Ctx → Ctx) : (modCtx m e c f).can = m.can := rfl
@[simp] theorem modCtx_gpio (e : Fin 24) (c : Fin 2) (f : Ctx → Ctx) : (modCtx m e c f).gpio = m.gpio := rfl
@[simp] theorem modCtx_cus (e : Fin 24) (c : Fin 2) (f : Ctx → Ctx) : (modCtx m e c f).cus = m.cus := rfl
@[simp] theorem modCtx_lace (e : Fin 24) (c : Fin 2) (f : Ctx → Ctx) : (modCtx m e c f).lace = m.lace := rfl
@[simp] theorem modCtx_flt (e : Fin 24) (c : Fin 2) (f : Ctx → Ctx) : (modCtx m e c f).flt = m.flt := rfl

@[simp] theorem modQ_now (q : Fin 32) (f : Queue → Queue) : (modQ m q f).now = m.now := rfl
@[simp] theorem modQ_freeCtr (q : Fin 32) (f : Queue → Queue) : (modQ m q f).freeCtr = m.freeCtr := rfl
@[simp] theorem modQ_pw (q : Fin 32) (f : Queue → Queue) : (modQ m q f).pw = m.pw := rfl
@[simp] theorem modQ_ph (q : Fin 32) (f : Queue → Queue) : (modQ m q f).ph = m.ph := rfl
@[simp] theorem modQ_plan (q : Fin 32) (f : Queue → Queue) : (modQ m q f).plan = m.plan := rfl
@[simp] theorem modQ_cores (q : Fin 32) (f : Queue → Queue) : (modQ m q f).cores = m.cores := rfl
@[simp] theorem modQ_ports (q : Fin 32) (f : Queue → Queue) : (modQ m q f).ports = m.ports := rfl
@[simp] theorem modQ_sch (q : Fin 32) (f : Queue → Queue) : (modQ m q f).sch = m.sch := rfl
@[simp] theorem modQ_brn (q : Fin 32) (f : Queue → Queue) : (modQ m q f).brn = m.brn := rfl
@[simp] theorem modQ_engs (q : Fin 32) (f : Queue → Queue) : (modQ m q f).engs = m.engs := rfl
@[simp] theorem modQ_disp (q : Fin 32) (f : Queue → Queue) : (modQ m q f).disp = m.disp := rfl
@[simp] theorem modQ_sv (q : Fin 32) (f : Queue → Queue) : (modQ m q f).sv = m.sv := rfl
@[simp] theorem modQ_wt (q : Fin 32) (f : Queue → Queue) : (modQ m q f).wt = m.wt := rfl
@[simp] theorem modQ_tgt (q : Fin 32) (f : Queue → Queue) : (modQ m q f).tgt = m.tgt := rfl
@[simp] theorem modQ_rad (q : Fin 32) (f : Queue → Queue) : (modQ m q f).rad = m.rad := rfl
@[simp] theorem modQ_pts (q : Fin 32) (f : Queue → Queue) : (modQ m q f).pts = m.pts := rfl
@[simp] theorem modQ_dict (q : Fin 32) (f : Queue → Queue) : (modQ m q f).dict = m.dict := rfl
@[simp] theorem modQ_cfg (q : Fin 32) (f : Queue → Queue) : (modQ m q f).cfg = m.cfg := rfl
@[simp] theorem modQ_spi (q : Fin 32) (f : Queue → Queue) : (modQ m q f).spi = m.spi := rfl
@[simp] theorem modQ_can (q : Fin 32) (f : Queue → Queue) : (modQ m q f).can = m.can := rfl
@[simp] theorem modQ_gpio (q : Fin 32) (f : Queue → Queue) : (modQ m q f).gpio = m.gpio := rfl
@[simp] theorem modQ_cus (q : Fin 32) (f : Queue → Queue) : (modQ m q f).cus = m.cus := rfl
@[simp] theorem modQ_lace (q : Fin 32) (f : Queue → Queue) : (modQ m q f).lace = m.lace := rfl
@[simp] theorem modQ_flt (q : Fin 32) (f : Queue → Queue) : (modQ m q f).flt = m.flt := rfl

@[simp] theorem modPt_now (n : Fin 256) (f : Partner → Partner) : (modPt m n f).now = m.now := rfl
@[simp] theorem modPt_freeCtr (n : Fin 256) (f : Partner → Partner) : (modPt m n f).freeCtr = m.freeCtr := rfl
@[simp] theorem modPt_pw (n : Fin 256) (f : Partner → Partner) : (modPt m n f).pw = m.pw := rfl
@[simp] theorem modPt_ph (n : Fin 256) (f : Partner → Partner) : (modPt m n f).ph = m.ph := rfl
@[simp] theorem modPt_plan (n : Fin 256) (f : Partner → Partner) : (modPt m n f).plan = m.plan := rfl
@[simp] theorem modPt_cores (n : Fin 256) (f : Partner → Partner) : (modPt m n f).cores = m.cores := rfl
@[simp] theorem modPt_ports (n : Fin 256) (f : Partner → Partner) : (modPt m n f).ports = m.ports := rfl
@[simp] theorem modPt_sch (n : Fin 256) (f : Partner → Partner) : (modPt m n f).sch = m.sch := rfl
@[simp] theorem modPt_brn (n : Fin 256) (f : Partner → Partner) : (modPt m n f).brn = m.brn := rfl
@[simp] theorem modPt_engs (n : Fin 256) (f : Partner → Partner) : (modPt m n f).engs = m.engs := rfl
@[simp] theorem modPt_disp (n : Fin 256) (f : Partner → Partner) : (modPt m n f).disp = m.disp := rfl
@[simp] theorem modPt_sv (n : Fin 256) (f : Partner → Partner) : (modPt m n f).sv = m.sv := rfl
@[simp] theorem modPt_wt (n : Fin 256) (f : Partner → Partner) : (modPt m n f).wt = m.wt := rfl
@[simp] theorem modPt_pool (n : Fin 256) (f : Partner → Partner) : (modPt m n f).pool = m.pool := rfl
@[simp] theorem modPt_tgt (n : Fin 256) (f : Partner → Partner) : (modPt m n f).tgt = m.tgt := rfl
@[simp] theorem modPt_rad (n : Fin 256) (f : Partner → Partner) : (modPt m n f).rad = m.rad := rfl
@[simp] theorem modPt_dict (n : Fin 256) (f : Partner → Partner) : (modPt m n f).dict = m.dict := rfl
@[simp] theorem modPt_cfg (n : Fin 256) (f : Partner → Partner) : (modPt m n f).cfg = m.cfg := rfl
@[simp] theorem modPt_spi (n : Fin 256) (f : Partner → Partner) : (modPt m n f).spi = m.spi := rfl
@[simp] theorem modPt_can (n : Fin 256) (f : Partner → Partner) : (modPt m n f).can = m.can := rfl
@[simp] theorem modPt_gpio (n : Fin 256) (f : Partner → Partner) : (modPt m n f).gpio = m.gpio := rfl
@[simp] theorem modPt_cus (n : Fin 256) (f : Partner → Partner) : (modPt m n f).cus = m.cus := rfl
@[simp] theorem modPt_lace (n : Fin 256) (f : Partner → Partner) : (modPt m n f).lace = m.lace := rfl
@[simp] theorem modPt_flt (n : Fin 256) (f : Partner → Partner) : (modPt m n f).flt = m.flt := rfl

@[simp] theorem modCu_now (c : Fin 8) (f : Cu → Cu) : (modCu m c f).now = m.now := rfl
@[simp] theorem modCu_freeCtr (c : Fin 8) (f : Cu → Cu) : (modCu m c f).freeCtr = m.freeCtr := rfl
@[simp] theorem modCu_pw (c : Fin 8) (f : Cu → Cu) : (modCu m c f).pw = m.pw := rfl
@[simp] theorem modCu_ph (c : Fin 8) (f : Cu → Cu) : (modCu m c f).ph = m.ph := rfl
@[simp] theorem modCu_plan (c : Fin 8) (f : Cu → Cu) : (modCu m c f).plan = m.plan := rfl
@[simp] theorem modCu_cores (c : Fin 8) (f : Cu → Cu) : (modCu m c f).cores = m.cores := rfl
@[simp] theorem modCu_ports (c : Fin 8) (f : Cu → Cu) : (modCu m c f).ports = m.ports := rfl
@[simp] theorem modCu_sch (c : Fin 8) (f : Cu → Cu) : (modCu m c f).sch = m.sch := rfl
@[simp] theorem modCu_brn (c : Fin 8) (f : Cu → Cu) : (modCu m c f).brn = m.brn := rfl
@[simp] theorem modCu_engs (c : Fin 8) (f : Cu → Cu) : (modCu m c f).engs = m.engs := rfl
@[simp] theorem modCu_disp (c : Fin 8) (f : Cu → Cu) : (modCu m c f).disp = m.disp := rfl
@[simp] theorem modCu_sv (c : Fin 8) (f : Cu → Cu) : (modCu m c f).sv = m.sv := rfl
@[simp] theorem modCu_wt (c : Fin 8) (f : Cu → Cu) : (modCu m c f).wt = m.wt := rfl
@[simp] theorem modCu_pool (c : Fin 8) (f : Cu → Cu) : (modCu m c f).pool = m.pool := rfl
@[simp] theorem modCu_tgt (c : Fin 8) (f : Cu → Cu) : (modCu m c f).tgt = m.tgt := rfl
@[simp] theorem modCu_rad (c : Fin 8) (f : Cu → Cu) : (modCu m c f).rad = m.rad := rfl
@[simp] theorem modCu_pts (c : Fin 8) (f : Cu → Cu) : (modCu m c f).pts = m.pts := rfl
@[simp] theorem modCu_dict (c : Fin 8) (f : Cu → Cu) : (modCu m c f).dict = m.dict := rfl
@[simp] theorem modCu_cfg (c : Fin 8) (f : Cu → Cu) : (modCu m c f).cfg = m.cfg := rfl
@[simp] theorem modCu_spi (c : Fin 8) (f : Cu → Cu) : (modCu m c f).spi = m.spi := rfl
@[simp] theorem modCu_can (c : Fin 8) (f : Cu → Cu) : (modCu m c f).can = m.can := rfl
@[simp] theorem modCu_gpio (c : Fin 8) (f : Cu → Cu) : (modCu m c f).gpio = m.gpio := rfl
@[simp] theorem modCu_lace (c : Fin 8) (f : Cu → Cu) : (modCu m c f).lace = m.lace := rfl
@[simp] theorem modCu_flt (c : Fin 8) (f : Cu → Cu) : (modCu m c f).flt = m.flt := rfl

@[simp] theorem modLane_now (k : Fin 16) (f : Lane → Lane) : (modLane m k f).now = m.now := rfl
@[simp] theorem modLane_freeCtr (k : Fin 16) (f : Lane → Lane) : (modLane m k f).freeCtr = m.freeCtr := rfl
@[simp] theorem modLane_pw (k : Fin 16) (f : Lane → Lane) : (modLane m k f).pw = m.pw := rfl
@[simp] theorem modLane_ph (k : Fin 16) (f : Lane → Lane) : (modLane m k f).ph = m.ph := rfl
@[simp] theorem modLane_plan (k : Fin 16) (f : Lane → Lane) : (modLane m k f).plan = m.plan := rfl
@[simp] theorem modLane_cores (k : Fin 16) (f : Lane → Lane) : (modLane m k f).cores = m.cores := rfl
@[simp] theorem modLane_ports (k : Fin 16) (f : Lane → Lane) : (modLane m k f).ports = m.ports := rfl
@[simp] theorem modLane_sch (k : Fin 16) (f : Lane → Lane) : (modLane m k f).sch = m.sch := rfl
@[simp] theorem modLane_brn (k : Fin 16) (f : Lane → Lane) : (modLane m k f).brn = m.brn := rfl
@[simp] theorem modLane_engs (k : Fin 16) (f : Lane → Lane) : (modLane m k f).engs = m.engs := rfl
@[simp] theorem modLane_disp (k : Fin 16) (f : Lane → Lane) : (modLane m k f).disp = m.disp := rfl
@[simp] theorem modLane_wt (k : Fin 16) (f : Lane → Lane) : (modLane m k f).wt = m.wt := rfl
@[simp] theorem modLane_pool (k : Fin 16) (f : Lane → Lane) : (modLane m k f).pool = m.pool := rfl
@[simp] theorem modLane_tgt (k : Fin 16) (f : Lane → Lane) : (modLane m k f).tgt = m.tgt := rfl
@[simp] theorem modLane_rad (k : Fin 16) (f : Lane → Lane) : (modLane m k f).rad = m.rad := rfl
@[simp] theorem modLane_pts (k : Fin 16) (f : Lane → Lane) : (modLane m k f).pts = m.pts := rfl
@[simp] theorem modLane_dict (k : Fin 16) (f : Lane → Lane) : (modLane m k f).dict = m.dict := rfl
@[simp] theorem modLane_cfg (k : Fin 16) (f : Lane → Lane) : (modLane m k f).cfg = m.cfg := rfl
@[simp] theorem modLane_spi (k : Fin 16) (f : Lane → Lane) : (modLane m k f).spi = m.spi := rfl
@[simp] theorem modLane_can (k : Fin 16) (f : Lane → Lane) : (modLane m k f).can = m.can := rfl
@[simp] theorem modLane_gpio (k : Fin 16) (f : Lane → Lane) : (modLane m k f).gpio = m.gpio := rfl
@[simp] theorem modLane_cus (k : Fin 16) (f : Lane → Lane) : (modLane m k f).cus = m.cus := rfl
@[simp] theorem modLane_lace (k : Fin 16) (f : Lane → Lane) : (modLane m k f).lace = m.lace := rfl
@[simp] theorem modLane_flt (k : Fin 16) (f : Lane → Lane) : (modLane m k f).flt = m.flt := rfl

@[simp] theorem modDemod_now (d : Fin 8) (f : Demod → Demod) : (modDemod m d f).now = m.now := rfl
@[simp] theorem modDemod_freeCtr (d : Fin 8) (f : Demod → Demod) : (modDemod m d f).freeCtr = m.freeCtr := rfl
@[simp] theorem modDemod_pw (d : Fin 8) (f : Demod → Demod) : (modDemod m d f).pw = m.pw := rfl
@[simp] theorem modDemod_ph (d : Fin 8) (f : Demod → Demod) : (modDemod m d f).ph = m.ph := rfl
@[simp] theorem modDemod_plan (d : Fin 8) (f : Demod → Demod) : (modDemod m d f).plan = m.plan := rfl
@[simp] theorem modDemod_cores (d : Fin 8) (f : Demod → Demod) : (modDemod m d f).cores = m.cores := rfl
@[simp] theorem modDemod_ports (d : Fin 8) (f : Demod → Demod) : (modDemod m d f).ports = m.ports := rfl
@[simp] theorem modDemod_sch (d : Fin 8) (f : Demod → Demod) : (modDemod m d f).sch = m.sch := rfl
@[simp] theorem modDemod_brn (d : Fin 8) (f : Demod → Demod) : (modDemod m d f).brn = m.brn := rfl
@[simp] theorem modDemod_engs (d : Fin 8) (f : Demod → Demod) : (modDemod m d f).engs = m.engs := rfl
@[simp] theorem modDemod_disp (d : Fin 8) (f : Demod → Demod) : (modDemod m d f).disp = m.disp := rfl
@[simp] theorem modDemod_sv (d : Fin 8) (f : Demod → Demod) : (modDemod m d f).sv = m.sv := rfl
@[simp] theorem modDemod_wt (d : Fin 8) (f : Demod → Demod) : (modDemod m d f).wt = m.wt := rfl
@[simp] theorem modDemod_pool (d : Fin 8) (f : Demod → Demod) : (modDemod m d f).pool = m.pool := rfl
@[simp] theorem modDemod_tgt (d : Fin 8) (f : Demod → Demod) : (modDemod m d f).tgt = m.tgt := rfl
@[simp] theorem modDemod_pts (d : Fin 8) (f : Demod → Demod) : (modDemod m d f).pts = m.pts := rfl
@[simp] theorem modDemod_dict (d : Fin 8) (f : Demod → Demod) : (modDemod m d f).dict = m.dict := rfl
@[simp] theorem modDemod_cfg (d : Fin 8) (f : Demod → Demod) : (modDemod m d f).cfg = m.cfg := rfl
@[simp] theorem modDemod_spi (d : Fin 8) (f : Demod → Demod) : (modDemod m d f).spi = m.spi := rfl
@[simp] theorem modDemod_can (d : Fin 8) (f : Demod → Demod) : (modDemod m d f).can = m.can := rfl
@[simp] theorem modDemod_gpio (d : Fin 8) (f : Demod → Demod) : (modDemod m d f).gpio = m.gpio := rfl
@[simp] theorem modDemod_cus (d : Fin 8) (f : Demod → Demod) : (modDemod m d f).cus = m.cus := rfl
@[simp] theorem modDemod_lace (d : Fin 8) (f : Demod → Demod) : (modDemod m d f).lace = m.lace := rfl
@[simp] theorem modDemod_flt (d : Fin 8) (f : Demod → Demod) : (modDemod m d f).flt = m.flt := rfl

@[simp] theorem modGpio_now (g : Fin 8) (f : Gpio → Gpio) : (modGpio m g f).now = m.now := rfl
@[simp] theorem modGpio_freeCtr (g : Fin 8) (f : Gpio → Gpio) : (modGpio m g f).freeCtr = m.freeCtr := rfl
@[simp] theorem modGpio_pw (g : Fin 8) (f : Gpio → Gpio) : (modGpio m g f).pw = m.pw := rfl
@[simp] theorem modGpio_ph (g : Fin 8) (f : Gpio → Gpio) : (modGpio m g f).ph = m.ph := rfl
@[simp] theorem modGpio_plan (g : Fin 8) (f : Gpio → Gpio) : (modGpio m g f).plan = m.plan := rfl
@[simp] theorem modGpio_cores (g : Fin 8) (f : Gpio → Gpio) : (modGpio m g f).cores = m.cores := rfl
@[simp] theorem modGpio_ports (g : Fin 8) (f : Gpio → Gpio) : (modGpio m g f).ports = m.ports := rfl
@[simp] theorem modGpio_sch (g : Fin 8) (f : Gpio → Gpio) : (modGpio m g f).sch = m.sch := rfl
@[simp] theorem modGpio_brn (g : Fin 8) (f : Gpio → Gpio) : (modGpio m g f).brn = m.brn := rfl
@[simp] theorem modGpio_engs (g : Fin 8) (f : Gpio → Gpio) : (modGpio m g f).engs = m.engs := rfl
@[simp] theorem modGpio_disp (g : Fin 8) (f : Gpio → Gpio) : (modGpio m g f).disp = m.disp := rfl
@[simp] theorem modGpio_sv (g : Fin 8) (f : Gpio → Gpio) : (modGpio m g f).sv = m.sv := rfl
@[simp] theorem modGpio_wt (g : Fin 8) (f : Gpio → Gpio) : (modGpio m g f).wt = m.wt := rfl
@[simp] theorem modGpio_pool (g : Fin 8) (f : Gpio → Gpio) : (modGpio m g f).pool = m.pool := rfl
@[simp] theorem modGpio_tgt (g : Fin 8) (f : Gpio → Gpio) : (modGpio m g f).tgt = m.tgt := rfl
@[simp] theorem modGpio_rad (g : Fin 8) (f : Gpio → Gpio) : (modGpio m g f).rad = m.rad := rfl
@[simp] theorem modGpio_pts (g : Fin 8) (f : Gpio → Gpio) : (modGpio m g f).pts = m.pts := rfl
@[simp] theorem modGpio_dict (g : Fin 8) (f : Gpio → Gpio) : (modGpio m g f).dict = m.dict := rfl
@[simp] theorem modGpio_cfg (g : Fin 8) (f : Gpio → Gpio) : (modGpio m g f).cfg = m.cfg := rfl
@[simp] theorem modGpio_spi (g : Fin 8) (f : Gpio → Gpio) : (modGpio m g f).spi = m.spi := rfl
@[simp] theorem modGpio_can (g : Fin 8) (f : Gpio → Gpio) : (modGpio m g f).can = m.can := rfl
@[simp] theorem modGpio_cus (g : Fin 8) (f : Gpio → Gpio) : (modGpio m g f).cus = m.cus := rfl
@[simp] theorem modGpio_lace (g : Fin 8) (f : Gpio → Gpio) : (modGpio m g f).lace = m.lace := rfl
@[simp] theorem modGpio_flt (g : Fin 8) (f : Gpio → Gpio) : (modGpio m g f).flt = m.flt := rfl

@[simp] theorem modPw_now (f : Power → Power) : (modPw m f).now = m.now := rfl
@[simp] theorem modPw_freeCtr (f : Power → Power) : (modPw m f).freeCtr = m.freeCtr := rfl
@[simp] theorem modPw_ph (f : Power → Power) : (modPw m f).ph = m.ph := rfl
@[simp] theorem modPw_plan (f : Power → Power) : (modPw m f).plan = m.plan := rfl
@[simp] theorem modPw_cores (f : Power → Power) : (modPw m f).cores = m.cores := rfl
@[simp] theorem modPw_ports (f : Power → Power) : (modPw m f).ports = m.ports := rfl
@[simp] theorem modPw_sch (f : Power → Power) : (modPw m f).sch = m.sch := rfl
@[simp] theorem modPw_brn (f : Power → Power) : (modPw m f).brn = m.brn := rfl
@[simp] theorem modPw_engs (f : Power → Power) : (modPw m f).engs = m.engs := rfl
@[simp] theorem modPw_disp (f : Power → Power) : (modPw m f).disp = m.disp := rfl
@[simp] theorem modPw_sv (f : Power → Power) : (modPw m f).sv = m.sv := rfl
@[simp] theorem modPw_wt (f : Power → Power) : (modPw m f).wt = m.wt := rfl
@[simp] theorem modPw_pool (f : Power → Power) : (modPw m f).pool = m.pool := rfl
@[simp] theorem modPw_tgt (f : Power → Power) : (modPw m f).tgt = m.tgt := rfl
@[simp] theorem modPw_rad (f : Power → Power) : (modPw m f).rad = m.rad := rfl
@[simp] theorem modPw_pts (f : Power → Power) : (modPw m f).pts = m.pts := rfl
@[simp] theorem modPw_dict (f : Power → Power) : (modPw m f).dict = m.dict := rfl
@[simp] theorem modPw_cfg (f : Power → Power) : (modPw m f).cfg = m.cfg := rfl
@[simp] theorem modPw_spi (f : Power → Power) : (modPw m f).spi = m.spi := rfl
@[simp] theorem modPw_can (f : Power → Power) : (modPw m f).can = m.can := rfl
@[simp] theorem modPw_gpio (f : Power → Power) : (modPw m f).gpio = m.gpio := rfl
@[simp] theorem modPw_cus (f : Power → Power) : (modPw m f).cus = m.cus := rfl
@[simp] theorem modPw_lace (f : Power → Power) : (modPw m f).lace = m.lace := rfl
@[simp] theorem modPw_flt (f : Power → Power) : (modPw m f).flt = m.flt := rfl

@[simp] theorem modPh_now (f : Phase → Phase) : (modPh m f).now = m.now := rfl
@[simp] theorem modPh_freeCtr (f : Phase → Phase) : (modPh m f).freeCtr = m.freeCtr := rfl
@[simp] theorem modPh_pw (f : Phase → Phase) : (modPh m f).pw = m.pw := rfl
@[simp] theorem modPh_plan (f : Phase → Phase) : (modPh m f).plan = m.plan := rfl
@[simp] theorem modPh_cores (f : Phase → Phase) : (modPh m f).cores = m.cores := rfl
@[simp] theorem modPh_ports (f : Phase → Phase) : (modPh m f).ports = m.ports := rfl
@[simp] theorem modPh_sch (f : Phase → Phase) : (modPh m f).sch = m.sch := rfl
@[simp] theorem modPh_brn (f : Phase → Phase) : (modPh m f).brn = m.brn := rfl
@[simp] theorem modPh_engs (f : Phase → Phase) : (modPh m f).engs = m.engs := rfl
@[simp] theorem modPh_disp (f : Phase → Phase) : (modPh m f).disp = m.disp := rfl
@[simp] theorem modPh_sv (f : Phase → Phase) : (modPh m f).sv = m.sv := rfl
@[simp] theorem modPh_wt (f : Phase → Phase) : (modPh m f).wt = m.wt := rfl
@[simp] theorem modPh_pool (f : Phase → Phase) : (modPh m f).pool = m.pool := rfl
@[simp] theorem modPh_tgt (f : Phase → Phase) : (modPh m f).tgt = m.tgt := rfl
@[simp] theorem modPh_rad (f : Phase → Phase) : (modPh m f).rad = m.rad := rfl
@[simp] theorem modPh_pts (f : Phase → Phase) : (modPh m f).pts = m.pts := rfl
@[simp] theorem modPh_dict (f : Phase → Phase) : (modPh m f).dict = m.dict := rfl
@[simp] theorem modPh_cfg (f : Phase → Phase) : (modPh m f).cfg = m.cfg := rfl
@[simp] theorem modPh_spi (f : Phase → Phase) : (modPh m f).spi = m.spi := rfl
@[simp] theorem modPh_can (f : Phase → Phase) : (modPh m f).can = m.can := rfl
@[simp] theorem modPh_gpio (f : Phase → Phase) : (modPh m f).gpio = m.gpio := rfl
@[simp] theorem modPh_cus (f : Phase → Phase) : (modPh m f).cus = m.cus := rfl
@[simp] theorem modPh_lace (f : Phase → Phase) : (modPh m f).lace = m.lace := rfl
@[simp] theorem modPh_flt (f : Phase → Phase) : (modPh m f).flt = m.flt := rfl

@[simp] theorem modRad_now (f : Radio → Radio) : (modRad m f).now = m.now := rfl
@[simp] theorem modRad_freeCtr (f : Radio → Radio) : (modRad m f).freeCtr = m.freeCtr := rfl
@[simp] theorem modRad_pw (f : Radio → Radio) : (modRad m f).pw = m.pw := rfl
@[simp] theorem modRad_ph (f : Radio → Radio) : (modRad m f).ph = m.ph := rfl
@[simp] theorem modRad_plan (f : Radio → Radio) : (modRad m f).plan = m.plan := rfl
@[simp] theorem modRad_cores (f : Radio → Radio) : (modRad m f).cores = m.cores := rfl
@[simp] theorem modRad_ports (f : Radio → Radio) : (modRad m f).ports = m.ports := rfl
@[simp] theorem modRad_sch (f : Radio → Radio) : (modRad m f).sch = m.sch := rfl
@[simp] theorem modRad_brn (f : Radio → Radio) : (modRad m f).brn = m.brn := rfl
@[simp] theorem modRad_engs (f : Radio → Radio) : (modRad m f).engs = m.engs := rfl
@[simp] theorem modRad_disp (f : Radio → Radio) : (modRad m f).disp = m.disp := rfl
@[simp] theorem modRad_sv (f : Radio → Radio) : (modRad m f).sv = m.sv := rfl
@[simp] theorem modRad_wt (f : Radio → Radio) : (modRad m f).wt = m.wt := rfl
@[simp] theorem modRad_pool (f : Radio → Radio) : (modRad m f).pool = m.pool := rfl
@[simp] theorem modRad_tgt (f : Radio → Radio) : (modRad m f).tgt = m.tgt := rfl
@[simp] theorem modRad_pts (f : Radio → Radio) : (modRad m f).pts = m.pts := rfl
@[simp] theorem modRad_dict (f : Radio → Radio) : (modRad m f).dict = m.dict := rfl
@[simp] theorem modRad_cfg (f : Radio → Radio) : (modRad m f).cfg = m.cfg := rfl
@[simp] theorem modRad_spi (f : Radio → Radio) : (modRad m f).spi = m.spi := rfl
@[simp] theorem modRad_can (f : Radio → Radio) : (modRad m f).can = m.can := rfl
@[simp] theorem modRad_gpio (f : Radio → Radio) : (modRad m f).gpio = m.gpio := rfl
@[simp] theorem modRad_cus (f : Radio → Radio) : (modRad m f).cus = m.cus := rfl
@[simp] theorem modRad_lace (f : Radio → Radio) : (modRad m f).lace = m.lace := rfl
@[simp] theorem modRad_flt (f : Radio → Radio) : (modRad m f).flt = m.flt := rfl

@[simp] theorem modLace_now (f : Lace → Lace) : (modLace m f).now = m.now := rfl
@[simp] theorem modLace_freeCtr (f : Lace → Lace) : (modLace m f).freeCtr = m.freeCtr := rfl
@[simp] theorem modLace_pw (f : Lace → Lace) : (modLace m f).pw = m.pw := rfl
@[simp] theorem modLace_ph (f : Lace → Lace) : (modLace m f).ph = m.ph := rfl
@[simp] theorem modLace_plan (f : Lace → Lace) : (modLace m f).plan = m.plan := rfl
@[simp] theorem modLace_cores (f : Lace → Lace) : (modLace m f).cores = m.cores := rfl
@[simp] theorem modLace_ports (f : Lace → Lace) : (modLace m f).ports = m.ports := rfl
@[simp] theorem modLace_sch (f : Lace → Lace) : (modLace m f).sch = m.sch := rfl
@[simp] theorem modLace_brn (f : Lace → Lace) : (modLace m f).brn = m.brn := rfl
@[simp] theorem modLace_engs (f : Lace → Lace) : (modLace m f).engs = m.engs := rfl
@[simp] theorem modLace_disp (f : Lace → Lace) : (modLace m f).disp = m.disp := rfl
@[simp] theorem modLace_sv (f : Lace → Lace) : (modLace m f).sv = m.sv := rfl
@[simp] theorem modLace_wt (f : Lace → Lace) : (modLace m f).wt = m.wt := rfl
@[simp] theorem modLace_pool (f : Lace → Lace) : (modLace m f).pool = m.pool := rfl
@[simp] theorem modLace_tgt (f : Lace → Lace) : (modLace m f).tgt = m.tgt := rfl
@[simp] theorem modLace_rad (f : Lace → Lace) : (modLace m f).rad = m.rad := rfl
@[simp] theorem modLace_pts (f : Lace → Lace) : (modLace m f).pts = m.pts := rfl
@[simp] theorem modLace_dict (f : Lace → Lace) : (modLace m f).dict = m.dict := rfl
@[simp] theorem modLace_cfg (f : Lace → Lace) : (modLace m f).cfg = m.cfg := rfl
@[simp] theorem modLace_spi (f : Lace → Lace) : (modLace m f).spi = m.spi := rfl
@[simp] theorem modLace_can (f : Lace → Lace) : (modLace m f).can = m.can := rfl
@[simp] theorem modLace_gpio (f : Lace → Lace) : (modLace m f).gpio = m.gpio := rfl
@[simp] theorem modLace_cus (f : Lace → Lace) : (modLace m f).cus = m.cus := rfl
@[simp] theorem modLace_flt (f : Lace → Lace) : (modLace m f).flt = m.flt := rfl

@[simp] theorem modBrn_now (f : Burnish → Burnish) : (modBrn m f).now = m.now := rfl
@[simp] theorem modBrn_freeCtr (f : Burnish → Burnish) : (modBrn m f).freeCtr = m.freeCtr := rfl
@[simp] theorem modBrn_pw (f : Burnish → Burnish) : (modBrn m f).pw = m.pw := rfl
@[simp] theorem modBrn_ph (f : Burnish → Burnish) : (modBrn m f).ph = m.ph := rfl
@[simp] theorem modBrn_plan (f : Burnish → Burnish) : (modBrn m f).plan = m.plan := rfl
@[simp] theorem modBrn_cores (f : Burnish → Burnish) : (modBrn m f).cores = m.cores := rfl
@[simp] theorem modBrn_ports (f : Burnish → Burnish) : (modBrn m f).ports = m.ports := rfl
@[simp] theorem modBrn_sch (f : Burnish → Burnish) : (modBrn m f).sch = m.sch := rfl
@[simp] theorem modBrn_engs (f : Burnish → Burnish) : (modBrn m f).engs = m.engs := rfl
@[simp] theorem modBrn_disp (f : Burnish → Burnish) : (modBrn m f).disp = m.disp := rfl
@[simp] theorem modBrn_sv (f : Burnish → Burnish) : (modBrn m f).sv = m.sv := rfl
@[simp] theorem modBrn_wt (f : Burnish → Burnish) : (modBrn m f).wt = m.wt := rfl
@[simp] theorem modBrn_pool (f : Burnish → Burnish) : (modBrn m f).pool = m.pool := rfl
@[simp] theorem modBrn_tgt (f : Burnish → Burnish) : (modBrn m f).tgt = m.tgt := rfl
@[simp] theorem modBrn_rad (f : Burnish → Burnish) : (modBrn m f).rad = m.rad := rfl
@[simp] theorem modBrn_pts (f : Burnish → Burnish) : (modBrn m f).pts = m.pts := rfl
@[simp] theorem modBrn_dict (f : Burnish → Burnish) : (modBrn m f).dict = m.dict := rfl
@[simp] theorem modBrn_cfg (f : Burnish → Burnish) : (modBrn m f).cfg = m.cfg := rfl
@[simp] theorem modBrn_spi (f : Burnish → Burnish) : (modBrn m f).spi = m.spi := rfl
@[simp] theorem modBrn_can (f : Burnish → Burnish) : (modBrn m f).can = m.can := rfl
@[simp] theorem modBrn_gpio (f : Burnish → Burnish) : (modBrn m f).gpio = m.gpio := rfl
@[simp] theorem modBrn_cus (f : Burnish → Burnish) : (modBrn m f).cus = m.cus := rfl
@[simp] theorem modBrn_lace (f : Burnish → Burnish) : (modBrn m f).lace = m.lace := rfl
@[simp] theorem modBrn_flt (f : Burnish → Burnish) : (modBrn m f).flt = m.flt := rfl

@[simp] theorem modSv_now (f : Survey → Survey) : (modSv m f).now = m.now := rfl
@[simp] theorem modSv_freeCtr (f : Survey → Survey) : (modSv m f).freeCtr = m.freeCtr := rfl
@[simp] theorem modSv_pw (f : Survey → Survey) : (modSv m f).pw = m.pw := rfl
@[simp] theorem modSv_ph (f : Survey → Survey) : (modSv m f).ph = m.ph := rfl
@[simp] theorem modSv_plan (f : Survey → Survey) : (modSv m f).plan = m.plan := rfl
@[simp] theorem modSv_cores (f : Survey → Survey) : (modSv m f).cores = m.cores := rfl
@[simp] theorem modSv_ports (f : Survey → Survey) : (modSv m f).ports = m.ports := rfl
@[simp] theorem modSv_sch (f : Survey → Survey) : (modSv m f).sch = m.sch := rfl
@[simp] theorem modSv_brn (f : Survey → Survey) : (modSv m f).brn = m.brn := rfl
@[simp] theorem modSv_engs (f : Survey → Survey) : (modSv m f).engs = m.engs := rfl
@[simp] theorem modSv_disp (f : Survey → Survey) : (modSv m f).disp = m.disp := rfl
@[simp] theorem modSv_wt (f : Survey → Survey) : (modSv m f).wt = m.wt := rfl
@[simp] theorem modSv_pool (f : Survey → Survey) : (modSv m f).pool = m.pool := rfl
@[simp] theorem modSv_tgt (f : Survey → Survey) : (modSv m f).tgt = m.tgt := rfl
@[simp] theorem modSv_rad (f : Survey → Survey) : (modSv m f).rad = m.rad := rfl
@[simp] theorem modSv_pts (f : Survey → Survey) : (modSv m f).pts = m.pts := rfl
@[simp] theorem modSv_dict (f : Survey → Survey) : (modSv m f).dict = m.dict := rfl
@[simp] theorem modSv_cfg (f : Survey → Survey) : (modSv m f).cfg = m.cfg := rfl
@[simp] theorem modSv_spi (f : Survey → Survey) : (modSv m f).spi = m.spi := rfl
@[simp] theorem modSv_can (f : Survey → Survey) : (modSv m f).can = m.can := rfl
@[simp] theorem modSv_gpio (f : Survey → Survey) : (modSv m f).gpio = m.gpio := rfl
@[simp] theorem modSv_cus (f : Survey → Survey) : (modSv m f).cus = m.cus := rfl
@[simp] theorem modSv_lace (f : Survey → Survey) : (modSv m f).lace = m.lace := rfl
@[simp] theorem modSv_flt (f : Survey → Survey) : (modSv m f).flt = m.flt := rfl

@[simp] theorem modSpi_now (f : Spi → Spi) : (modSpi m f).now = m.now := rfl
@[simp] theorem modSpi_freeCtr (f : Spi → Spi) : (modSpi m f).freeCtr = m.freeCtr := rfl
@[simp] theorem modSpi_pw (f : Spi → Spi) : (modSpi m f).pw = m.pw := rfl
@[simp] theorem modSpi_ph (f : Spi → Spi) : (modSpi m f).ph = m.ph := rfl
@[simp] theorem modSpi_plan (f : Spi → Spi) : (modSpi m f).plan = m.plan := rfl
@[simp] theorem modSpi_cores (f : Spi → Spi) : (modSpi m f).cores = m.cores := rfl
@[simp] theorem modSpi_ports (f : Spi → Spi) : (modSpi m f).ports = m.ports := rfl
@[simp] theorem modSpi_sch (f : Spi → Spi) : (modSpi m f).sch = m.sch := rfl
@[simp] theorem modSpi_brn (f : Spi → Spi) : (modSpi m f).brn = m.brn := rfl
@[simp] theorem modSpi_engs (f : Spi → Spi) : (modSpi m f).engs = m.engs := rfl
@[simp] theorem modSpi_disp (f : Spi → Spi) : (modSpi m f).disp = m.disp := rfl
@[simp] theorem modSpi_sv (f : Spi → Spi) : (modSpi m f).sv = m.sv := rfl
@[simp] theorem modSpi_wt (f : Spi → Spi) : (modSpi m f).wt = m.wt := rfl
@[simp] theorem modSpi_pool (f : Spi → Spi) : (modSpi m f).pool = m.pool := rfl
@[simp] theorem modSpi_tgt (f : Spi → Spi) : (modSpi m f).tgt = m.tgt := rfl
@[simp] theorem modSpi_rad (f : Spi → Spi) : (modSpi m f).rad = m.rad := rfl
@[simp] theorem modSpi_pts (f : Spi → Spi) : (modSpi m f).pts = m.pts := rfl
@[simp] theorem modSpi_dict (f : Spi → Spi) : (modSpi m f).dict = m.dict := rfl
@[simp] theorem modSpi_cfg (f : Spi → Spi) : (modSpi m f).cfg = m.cfg := rfl
@[simp] theorem modSpi_can (f : Spi → Spi) : (modSpi m f).can = m.can := rfl
@[simp] theorem modSpi_gpio (f : Spi → Spi) : (modSpi m f).gpio = m.gpio := rfl
@[simp] theorem modSpi_cus (f : Spi → Spi) : (modSpi m f).cus = m.cus := rfl
@[simp] theorem modSpi_lace (f : Spi → Spi) : (modSpi m f).lace = m.lace := rfl
@[simp] theorem modSpi_flt (f : Spi → Spi) : (modSpi m f).flt = m.flt := rfl

@[simp] theorem modCan_now (f : Can → Can) : (modCan m f).now = m.now := rfl
@[simp] theorem modCan_freeCtr (f : Can → Can) : (modCan m f).freeCtr = m.freeCtr := rfl
@[simp] theorem modCan_pw (f : Can → Can) : (modCan m f).pw = m.pw := rfl
@[simp] theorem modCan_ph (f : Can → Can) : (modCan m f).ph = m.ph := rfl
@[simp] theorem modCan_plan (f : Can → Can) : (modCan m f).plan = m.plan := rfl
@[simp] theorem modCan_cores (f : Can → Can) : (modCan m f).cores = m.cores := rfl
@[simp] theorem modCan_ports (f : Can → Can) : (modCan m f).ports = m.ports := rfl
@[simp] theorem modCan_sch (f : Can → Can) : (modCan m f).sch = m.sch := rfl
@[simp] theorem modCan_brn (f : Can → Can) : (modCan m f).brn = m.brn := rfl
@[simp] theorem modCan_engs (f : Can → Can) : (modCan m f).engs = m.engs := rfl
@[simp] theorem modCan_disp (f : Can → Can) : (modCan m f).disp = m.disp := rfl
@[simp] theorem modCan_sv (f : Can → Can) : (modCan m f).sv = m.sv := rfl
@[simp] theorem modCan_wt (f : Can → Can) : (modCan m f).wt = m.wt := rfl
@[simp] theorem modCan_pool (f : Can → Can) : (modCan m f).pool = m.pool := rfl
@[simp] theorem modCan_tgt (f : Can → Can) : (modCan m f).tgt = m.tgt := rfl
@[simp] theorem modCan_rad (f : Can → Can) : (modCan m f).rad = m.rad := rfl
@[simp] theorem modCan_pts (f : Can → Can) : (modCan m f).pts = m.pts := rfl
@[simp] theorem modCan_dict (f : Can → Can) : (modCan m f).dict = m.dict := rfl
@[simp] theorem modCan_cfg (f : Can → Can) : (modCan m f).cfg = m.cfg := rfl
@[simp] theorem modCan_spi (f : Can → Can) : (modCan m f).spi = m.spi := rfl
@[simp] theorem modCan_gpio (f : Can → Can) : (modCan m f).gpio = m.gpio := rfl
@[simp] theorem modCan_cus (f : Can → Can) : (modCan m f).cus = m.cus := rfl
@[simp] theorem modCan_lace (f : Can → Can) : (modCan m f).lace = m.lace := rfl
@[simp] theorem modCan_flt (f : Can → Can) : (modCan m f).flt = m.flt := rfl

@[simp] theorem modDict_now (f : Dict → Dict) : (modDict m f).now = m.now := rfl
@[simp] theorem modDict_freeCtr (f : Dict → Dict) : (modDict m f).freeCtr = m.freeCtr := rfl
@[simp] theorem modDict_pw (f : Dict → Dict) : (modDict m f).pw = m.pw := rfl
@[simp] theorem modDict_ph (f : Dict → Dict) : (modDict m f).ph = m.ph := rfl
@[simp] theorem modDict_plan (f : Dict → Dict) : (modDict m f).plan = m.plan := rfl
@[simp] theorem modDict_cores (f : Dict → Dict) : (modDict m f).cores = m.cores := rfl
@[simp] theorem modDict_ports (f : Dict → Dict) : (modDict m f).ports = m.ports := rfl
@[simp] theorem modDict_sch (f : Dict → Dict) : (modDict m f).sch = m.sch := rfl
@[simp] theorem modDict_brn (f : Dict → Dict) : (modDict m f).brn = m.brn := rfl
@[simp] theorem modDict_engs (f : Dict → Dict) : (modDict m f).engs = m.engs := rfl
@[simp] theorem modDict_disp (f : Dict → Dict) : (modDict m f).disp = m.disp := rfl
@[simp] theorem modDict_sv (f : Dict → Dict) : (modDict m f).sv = m.sv := rfl
@[simp] theorem modDict_wt (f : Dict → Dict) : (modDict m f).wt = m.wt := rfl
@[simp] theorem modDict_pool (f : Dict → Dict) : (modDict m f).pool = m.pool := rfl
@[simp] theorem modDict_tgt (f : Dict → Dict) : (modDict m f).tgt = m.tgt := rfl
@[simp] theorem modDict_rad (f : Dict → Dict) : (modDict m f).rad = m.rad := rfl
@[simp] theorem modDict_pts (f : Dict → Dict) : (modDict m f).pts = m.pts := rfl
@[simp] theorem modDict_cfg (f : Dict → Dict) : (modDict m f).cfg = m.cfg := rfl
@[simp] theorem modDict_spi (f : Dict → Dict) : (modDict m f).spi = m.spi := rfl
@[simp] theorem modDict_can (f : Dict → Dict) : (modDict m f).can = m.can := rfl
@[simp] theorem modDict_gpio (f : Dict → Dict) : (modDict m f).gpio = m.gpio := rfl
@[simp] theorem modDict_cus (f : Dict → Dict) : (modDict m f).cus = m.cus := rfl
@[simp] theorem modDict_lace (f : Dict → Dict) : (modDict m f).lace = m.lace := rfl
@[simp] theorem modDict_flt (f : Dict → Dict) : (modDict m f).flt = m.flt := rfl

@[simp] theorem modFlt_now (f : Faults → Faults) : (modFlt m f).now = m.now := rfl
@[simp] theorem modFlt_freeCtr (f : Faults → Faults) : (modFlt m f).freeCtr = m.freeCtr := rfl
@[simp] theorem modFlt_pw (f : Faults → Faults) : (modFlt m f).pw = m.pw := rfl
@[simp] theorem modFlt_ph (f : Faults → Faults) : (modFlt m f).ph = m.ph := rfl
@[simp] theorem modFlt_plan (f : Faults → Faults) : (modFlt m f).plan = m.plan := rfl
@[simp] theorem modFlt_cores (f : Faults → Faults) : (modFlt m f).cores = m.cores := rfl
@[simp] theorem modFlt_ports (f : Faults → Faults) : (modFlt m f).ports = m.ports := rfl
@[simp] theorem modFlt_sch (f : Faults → Faults) : (modFlt m f).sch = m.sch := rfl
@[simp] theorem modFlt_brn (f : Faults → Faults) : (modFlt m f).brn = m.brn := rfl
@[simp] theorem modFlt_engs (f : Faults → Faults) : (modFlt m f).engs = m.engs := rfl
@[simp] theorem modFlt_disp (f : Faults → Faults) : (modFlt m f).disp = m.disp := rfl
@[simp] theorem modFlt_sv (f : Faults → Faults) : (modFlt m f).sv = m.sv := rfl
@[simp] theorem modFlt_wt (f : Faults → Faults) : (modFlt m f).wt = m.wt := rfl
@[simp] theorem modFlt_pool (f : Faults → Faults) : (modFlt m f).pool = m.pool := rfl
@[simp] theorem modFlt_tgt (f : Faults → Faults) : (modFlt m f).tgt = m.tgt := rfl
@[simp] theorem modFlt_rad (f : Faults → Faults) : (modFlt m f).rad = m.rad := rfl
@[simp] theorem modFlt_pts (f : Faults → Faults) : (modFlt m f).pts = m.pts := rfl
@[simp] theorem modFlt_dict (f : Faults → Faults) : (modFlt m f).dict = m.dict := rfl
@[simp] theorem modFlt_cfg (f : Faults → Faults) : (modFlt m f).cfg = m.cfg := rfl
@[simp] theorem modFlt_spi (f : Faults → Faults) : (modFlt m f).spi = m.spi := rfl
@[simp] theorem modFlt_can (f : Faults → Faults) : (modFlt m f).can = m.can := rfl
@[simp] theorem modFlt_gpio (f : Faults → Faults) : (modFlt m f).gpio = m.gpio := rfl
@[simp] theorem modFlt_cus (f : Faults → Faults) : (modFlt m f).cus = m.cus := rfl
@[simp] theorem modFlt_lace (f : Faults → Faults) : (modFlt m f).lace = m.lace := rfl

@[simp] theorem cfgSet_now (idx sub v : Nat) : (cfgSet m idx sub v).now = m.now := rfl
@[simp] theorem cfgSet_freeCtr (idx sub v : Nat) : (cfgSet m idx sub v).freeCtr = m.freeCtr := rfl
@[simp] theorem cfgSet_pw (idx sub v : Nat) : (cfgSet m idx sub v).pw = m.pw := rfl
@[simp] theorem cfgSet_ph (idx sub v : Nat) : (cfgSet m idx sub v).ph = m.ph := rfl
@[simp] theorem cfgSet_plan (idx sub v : Nat) : (cfgSet m idx sub v).plan = m.plan := rfl
@[simp] theorem cfgSet_cores (idx sub v : Nat) : (cfgSet m idx sub v).cores = m.cores := rfl
@[simp] theorem cfgSet_ports (idx sub v : Nat) : (cfgSet m idx sub v).ports = m.ports := rfl
@[simp] theorem cfgSet_sch (idx sub v : Nat) : (cfgSet m idx sub v).sch = m.sch := rfl
@[simp] theorem cfgSet_brn (idx sub v : Nat) : (cfgSet m idx sub v).brn = m.brn := rfl
@[simp] theorem cfgSet_engs (idx sub v : Nat) : (cfgSet m idx sub v).engs = m.engs := rfl
@[simp] theorem cfgSet_disp (idx sub v : Nat) : (cfgSet m idx sub v).disp = m.disp := rfl
@[simp] theorem cfgSet_sv (idx sub v : Nat) : (cfgSet m idx sub v).sv = m.sv := rfl
@[simp] theorem cfgSet_wt (idx sub v : Nat) : (cfgSet m idx sub v).wt = m.wt := rfl
@[simp] theorem cfgSet_pool (idx sub v : Nat) : (cfgSet m idx sub v).pool = m.pool := rfl
@[simp] theorem cfgSet_tgt (idx sub v : Nat) : (cfgSet m idx sub v).tgt = m.tgt := rfl
@[simp] theorem cfgSet_rad (idx sub v : Nat) : (cfgSet m idx sub v).rad = m.rad := rfl
@[simp] theorem cfgSet_pts (idx sub v : Nat) : (cfgSet m idx sub v).pts = m.pts := rfl
@[simp] theorem cfgSet_dict (idx sub v : Nat) : (cfgSet m idx sub v).dict = m.dict := rfl
@[simp] theorem cfgSet_spi (idx sub v : Nat) : (cfgSet m idx sub v).spi = m.spi := rfl
@[simp] theorem cfgSet_can (idx sub v : Nat) : (cfgSet m idx sub v).can = m.can := rfl
@[simp] theorem cfgSet_gpio (idx sub v : Nat) : (cfgSet m idx sub v).gpio = m.gpio := rfl
@[simp] theorem cfgSet_cus (idx sub v : Nat) : (cfgSet m idx sub v).cus = m.cus := rfl
@[simp] theorem cfgSet_lace (idx sub v : Nat) : (cfgSet m idx sub v).lace = m.lace := rfl
@[simp] theorem cfgSet_flt (idx sub v : Nat) : (cfgSet m idx sub v).flt = m.flt := rfl

@[simp] theorem modPw_pw (f : Power → Power) : (modPw m f).pw = f m.pw := rfl
@[simp] theorem modPh_ph (f : Phase → Phase) : (modPh m f).ph = f m.ph := rfl
@[simp] theorem modRad_rad (f : Radio → Radio) : (modRad m f).rad = f m.rad := rfl
@[simp] theorem modLace_lace (f : Lace → Lace) : (modLace m f).lace = f m.lace := rfl
@[simp] theorem modBrn_brn (f : Burnish → Burnish) : (modBrn m f).brn = f m.brn := rfl
@[simp] theorem modSv_sv (f : Survey → Survey) : (modSv m f).sv = f m.sv := rfl
@[simp] theorem modSpi_spi (f : Spi → Spi) : (modSpi m f).spi = f m.spi := rfl
@[simp] theorem modCan_can (f : Can → Can) : (modCan m f).can = f m.can := rfl
@[simp] theorem modDict_dict (f : Dict → Dict) : (modDict m f).dict = f m.dict := rfl
@[simp] theorem modFlt_flt (f : Faults → Faults) : (modFlt m f).flt = f m.flt := rfl

/-- Element `i` of an updated table. -/
theorem updV_get {α : Type} {n : Nat} (v : Vector α n) (i j : Fin n) (f : α → α) :
    (updV v i f)[j] = if j = i then f v[i] else v[j] := by
  unfold updV
  by_cases h : j = i
  · subst h; simp
  · have h2 : i.val ≠ j.val := fun e => h (Fin.ext e.symm)
    simp [h, h2]

theorem modCore_get (k j : Fin 16) (g : Core → Core) : (modCore m k g).cores[j] = if j = k then g m.cores[k] else m.cores[j] := updV_get _ _ _ _
theorem modPort_get (k j : Fin 128) (g : Port → Port) : (modPort m k g).ports[j] = if j = k then g m.ports[k] else m.ports[j] := updV_get _ _ _ _
theorem modEng_get (k j : Fin 24) (g : Engine → Engine) : (modEng m k g).engs[j] = if j = k then g m.engs[k] else m.engs[j] := updV_get _ _ _ _
theorem modPt_get (k j : Fin 256) (g : Partner → Partner) : (modPt m k g).pts[j] = if j = k then g m.pts[k] else m.pts[j] := updV_get _ _ _ _
theorem modCu_get (k j : Fin 8) (g : Cu → Cu) : (modCu m k g).cus[j] = if j = k then g m.cus[k] else m.cus[j] := updV_get _ _ _ _
theorem modGpio_get (k j : Fin 8) (g : Gpio → Gpio) : (modGpio m k g).gpio[j] = if j = k then g m.gpio[k] else m.gpio[j] := updV_get _ _ _ _

theorem modQ_get (q j : Fin 32) (g : Queue → Queue) :
    (modQ m q g).pool.qs[j] = if j = q then g m.pool.qs[q] else m.pool.qs[j] := updV_get _ _ _ _

@[simp] theorem countN_now (idx sub n : Nat) : (countN m idx sub n).now = m.now := by unfold countN; split <;> rfl
@[simp] theorem countN_freeCtr (idx sub n : Nat) : (countN m idx sub n).freeCtr = m.freeCtr := by unfold countN; split <;> rfl
@[simp] theorem countN_pw (idx sub n : Nat) : (countN m idx sub n).pw = m.pw := by unfold countN; split <;> rfl
@[simp] theorem countN_ph (idx sub n : Nat) : (countN m idx sub n).ph = m.ph := by unfold countN; split <;> rfl
@[simp] theorem countN_plan (idx sub n : Nat) : (countN m idx sub n).plan = m.plan := by unfold countN; split <;> rfl
@[simp] theorem countN_cores (idx sub n : Nat) : (countN m idx sub n).cores = m.cores := by unfold countN; split <;> rfl
@[simp] theorem countN_ports (idx sub n : Nat) : (countN m idx sub n).ports = m.ports := by unfold countN; split <;> rfl
@[simp] theorem countN_sch (idx sub n : Nat) : (countN m idx sub n).sch = m.sch := by unfold countN; split <;> rfl
@[simp] theorem countN_brn (idx sub n : Nat) : (countN m idx sub n).brn = m.brn := by unfold countN; split <;> rfl
@[simp] theorem countN_engs (idx sub n : Nat) : (countN m idx sub n).engs = m.engs := by unfold countN; split <;> rfl
@[simp] theorem countN_disp (idx sub n : Nat) : (countN m idx sub n).disp = m.disp := by unfold countN; split <;> rfl
@[simp] theorem countN_sv (idx sub n : Nat) : (countN m idx sub n).sv = m.sv := by unfold countN; split <;> rfl
@[simp] theorem countN_wt (idx sub n : Nat) : (countN m idx sub n).wt = m.wt := by unfold countN; split <;> rfl
@[simp] theorem countN_pool (idx sub n : Nat) : (countN m idx sub n).pool = m.pool := by unfold countN; split <;> rfl
@[simp] theorem countN_tgt (idx sub n : Nat) : (countN m idx sub n).tgt = m.tgt := by unfold countN; split <;> rfl
@[simp] theorem countN_rad (idx sub n : Nat) : (countN m idx sub n).rad = m.rad := by unfold countN; split <;> rfl
@[simp] theorem countN_pts (idx sub n : Nat) : (countN m idx sub n).pts = m.pts := by unfold countN; split <;> rfl
@[simp] theorem countN_dict (idx sub n : Nat) : (countN m idx sub n).dict = m.dict := by unfold countN; split <;> rfl
@[simp] theorem countN_cfg (idx sub n : Nat) : (countN m idx sub n).cfg = m.cfg := by unfold countN; split <;> rfl
@[simp] theorem countN_spi (idx sub n : Nat) : (countN m idx sub n).spi = m.spi := by unfold countN; split <;> rfl
@[simp] theorem countN_can (idx sub n : Nat) : (countN m idx sub n).can = m.can := by unfold countN; split <;> rfl
@[simp] theorem countN_gpio (idx sub n : Nat) : (countN m idx sub n).gpio = m.gpio := by unfold countN; split <;> rfl
@[simp] theorem countN_cus (idx sub n : Nat) : (countN m idx sub n).cus = m.cus := by unfold countN; split <;> rfl
@[simp] theorem countN_lace (idx sub n : Nat) : (countN m idx sub n).lace = m.lace := by unfold countN; split <;> rfl

@[simp] theorem count_now (idx sub : Nat) : (count m idx sub).now = m.now := countN_now m idx sub 1
@[simp] theorem count_freeCtr (idx sub : Nat) : (count m idx sub).freeCtr = m.freeCtr := countN_freeCtr m idx sub 1
@[simp] theorem count_pw (idx sub : Nat) : (count m idx sub).pw = m.pw := countN_pw m idx sub 1
@[simp] theorem count_ph (idx sub : Nat) : (count m idx sub).ph = m.ph := countN_ph m idx sub 1
@[simp] theorem count_plan (idx sub : Nat) : (count m idx sub).plan = m.plan := countN_plan m idx sub 1
@[simp] theorem count_cores (idx sub : Nat) : (count m idx sub).cores = m.cores := countN_cores m idx sub 1
@[simp] theorem count_ports (idx sub : Nat) : (count m idx sub).ports = m.ports := countN_ports m idx sub 1
@[simp] theorem count_sch (idx sub : Nat) : (count m idx sub).sch = m.sch := countN_sch m idx sub 1
@[simp] theorem count_brn (idx sub : Nat) : (count m idx sub).brn = m.brn := countN_brn m idx sub 1
@[simp] theorem count_engs (idx sub : Nat) : (count m idx sub).engs = m.engs := countN_engs m idx sub 1
@[simp] theorem count_disp (idx sub : Nat) : (count m idx sub).disp = m.disp := countN_disp m idx sub 1
@[simp] theorem count_sv (idx sub : Nat) : (count m idx sub).sv = m.sv := countN_sv m idx sub 1
@[simp] theorem count_wt (idx sub : Nat) : (count m idx sub).wt = m.wt := countN_wt m idx sub 1
@[simp] theorem count_pool (idx sub : Nat) : (count m idx sub).pool = m.pool := countN_pool m idx sub 1
@[simp] theorem count_tgt (idx sub : Nat) : (count m idx sub).tgt = m.tgt := countN_tgt m idx sub 1
@[simp] theorem count_rad (idx sub : Nat) : (count m idx sub).rad = m.rad := countN_rad m idx sub 1
@[simp] theorem count_pts (idx sub : Nat) : (count m idx sub).pts = m.pts := countN_pts m idx sub 1
@[simp] theorem count_dict (idx sub : Nat) : (count m idx sub).dict = m.dict := countN_dict m idx sub 1
@[simp] theorem count_cfg (idx sub : Nat) : (count m idx sub).cfg = m.cfg := countN_cfg m idx sub 1
@[simp] theorem count_spi (idx sub : Nat) : (count m idx sub).spi = m.spi := countN_spi m idx sub 1
@[simp] theorem count_can (idx sub : Nat) : (count m idx sub).can = m.can := countN_can m idx sub 1
@[simp] theorem count_gpio (idx sub : Nat) : (count m idx sub).gpio = m.gpio := countN_gpio m idx sub 1
@[simp] theorem count_cus (idx sub : Nat) : (count m idx sub).cus = m.cus := countN_cus m idx sub 1
@[simp] theorem count_lace (idx sub : Nat) : (count m idx sub).lace = m.lace := countN_lace m idx sub 1

@[simp] theorem countIf_now (b : Bool) (idx sub : Nat) : (countIf b m idx sub).now = m.now := by cases b <;> simp [countIf]
@[simp] theorem countIf_freeCtr (b : Bool) (idx sub : Nat) : (countIf b m idx sub).freeCtr = m.freeCtr := by cases b <;> simp [countIf]
@[simp] theorem countIf_pw (b : Bool) (idx sub : Nat) : (countIf b m idx sub).pw = m.pw := by cases b <;> simp [countIf]
@[simp] theorem countIf_ph (b : Bool) (idx sub : Nat) : (countIf b m idx sub).ph = m.ph := by cases b <;> simp [countIf]
@[simp] theorem countIf_plan (b : Bool) (idx sub : Nat) : (countIf b m idx sub).plan = m.plan := by cases b <;> simp [countIf]
@[simp] theorem countIf_cores (b : Bool) (idx sub : Nat) : (countIf b m idx sub).cores = m.cores := by cases b <;> simp [countIf]
@[simp] theorem countIf_ports (b : Bool) (idx sub : Nat) : (countIf b m idx sub).ports = m.ports := by cases b <;> simp [countIf]
@[simp] theorem countIf_sch (b : Bool) (idx sub : Nat) : (countIf b m idx sub).sch = m.sch := by cases b <;> simp [countIf]
@[simp] theorem countIf_brn (b : Bool) (idx sub : Nat) : (countIf b m idx sub).brn = m.brn := by cases b <;> simp [countIf]
@[simp] theorem countIf_engs (b : Bool) (idx sub : Nat) : (countIf b m idx sub).engs = m.engs := by cases b <;> simp [countIf]
@[simp] theorem countIf_disp (b : Bool) (idx sub : Nat) : (countIf b m idx sub).disp = m.disp := by cases b <;> simp [countIf]
@[simp] theorem countIf_sv (b : Bool) (idx sub : Nat) : (countIf b m idx sub).sv = m.sv := by cases b <;> simp [countIf]
@[simp] theorem countIf_wt (b : Bool) (idx sub : Nat) : (countIf b m idx sub).wt = m.wt := by cases b <;> simp [countIf]
@[simp] theorem countIf_pool (b : Bool) (idx sub : Nat) : (countIf b m idx sub).pool = m.pool := by cases b <;> simp [countIf]
@[simp] theorem countIf_tgt (b : Bool) (idx sub : Nat) : (countIf b m idx sub).tgt = m.tgt := by cases b <;> simp [countIf]
@[simp] theorem countIf_rad (b : Bool) (idx sub : Nat) : (countIf b m idx sub).rad = m.rad := by cases b <;> simp [countIf]
@[simp] theorem countIf_pts (b : Bool) (idx sub : Nat) : (countIf b m idx sub).pts = m.pts := by cases b <;> simp [countIf]
@[simp] theorem countIf_dict (b : Bool) (idx sub : Nat) : (countIf b m idx sub).dict = m.dict := by cases b <;> simp [countIf]
@[simp] theorem countIf_cfg (b : Bool) (idx sub : Nat) : (countIf b m idx sub).cfg = m.cfg := by cases b <;> simp [countIf]
@[simp] theorem countIf_spi (b : Bool) (idx sub : Nat) : (countIf b m idx sub).spi = m.spi := by cases b <;> simp [countIf]
@[simp] theorem countIf_can (b : Bool) (idx sub : Nat) : (countIf b m idx sub).can = m.can := by cases b <;> simp [countIf]
@[simp] theorem countIf_gpio (b : Bool) (idx sub : Nat) : (countIf b m idx sub).gpio = m.gpio := by cases b <;> simp [countIf]
@[simp] theorem countIf_cus (b : Bool) (idx sub : Nat) : (countIf b m idx sub).cus = m.cus := by cases b <;> simp [countIf]
@[simp] theorem countIf_lace (b : Bool) (idx sub : Nat) : (countIf b m idx sub).lace = m.lace := by cases b <;> simp [countIf]

@[simp] theorem draw_now : (draw m).2.now = m.now := rfl
@[simp] theorem draw_pw : (draw m).2.pw = m.pw := rfl
@[simp] theorem draw_ph : (draw m).2.ph = m.ph := rfl
@[simp] theorem draw_plan : (draw m).2.plan = m.plan := rfl
@[simp] theorem draw_cores : (draw m).2.cores = m.cores := rfl
@[simp] theorem draw_ports : (draw m).2.ports = m.ports := rfl
@[simp] theorem draw_sch : (draw m).2.sch = m.sch := rfl
@[simp] theorem draw_brn : (draw m).2.brn = m.brn := rfl
@[simp] theorem draw_engs : (draw m).2.engs = m.engs := rfl
@[simp] theorem draw_disp : (draw m).2.disp = m.disp := rfl
@[simp] theorem draw_sv : (draw m).2.sv = m.sv := rfl
@[simp] theorem draw_wt : (draw m).2.wt = m.wt := rfl
@[simp] theorem draw_pool : (draw m).2.pool = m.pool := rfl
@[simp] theorem draw_tgt : (draw m).2.tgt = m.tgt := rfl
@[simp] theorem draw_rad : (draw m).2.rad = m.rad := rfl
@[simp] theorem draw_pts : (draw m).2.pts = m.pts := rfl
@[simp] theorem draw_dict : (draw m).2.dict = m.dict := rfl
@[simp] theorem draw_cfg : (draw m).2.cfg = m.cfg := rfl
@[simp] theorem draw_spi : (draw m).2.spi = m.spi := rfl
@[simp] theorem draw_can : (draw m).2.can = m.can := rfl
@[simp] theorem draw_gpio : (draw m).2.gpio = m.gpio := rfl
@[simp] theorem draw_cus : (draw m).2.cus = m.cus := rfl
@[simp] theorem draw_lace : (draw m).2.lace = m.lace := rfl
@[simp] theorem draw_flt : (draw m).2.flt = m.flt := rfl

end Sys2Proof.Machine
end

