-- ==== Sys2Proof/Laws/Pool.lean ====
section
/-!
SUPPORT. Laws/Pool.lean: what the operations of the cell pool and the journal leave alone: everything but the pool, the check units and the
counters. One lemma for each operation, and from it one for each field.
-/

namespace Sys2Proof.Machine

theorem poolOnly_refl (a : Main) : poolOnly a a := rfl

theorem poolOnly_trans {a b c : Main} (h : poolOnly a b) (g : poolOnly b c) : poolOnly a c := by
  unfold poolOnly at *
  rw [g, h]

theorem poolOnly_modQ (m : Main) (q : Fin 32) (f : Queue → Queue) : poolOnly m (modQ m q f) := rfl
theorem poolOnly_pool (m : Main) (p : Pool) : poolOnly m { m with pool := p } := rfl
theorem poolOnly_modCu (m : Main) (c : Fin 8) (f : Cu → Cu) : poolOnly m (modCu m c f) := rfl
theorem poolOnly_flt (m : Main) (f : Faults) : poolOnly m { m with flt := f } := rfl
theorem poolOnly_countN (m : Main) (idx sub n : Nat) : poolOnly m (countN m idx sub n) := by
  unfold countN; split <;> rfl
theorem poolOnly_count (m : Main) (idx sub : Nat) : poolOnly m (count m idx sub) := poolOnly_countN m idx sub 1
theorem poolOnly_countIf (b : Bool) (m : Main) (idx sub : Nat) : poolOnly m (countIf b m idx sub) := by
  cases b
  · rfl
  · exact poolOnly_count m idx sub

@[simp] theorem forEach_nil {α : Type} (m : Main) (f : Main → α → Main) : forEach [] m f = m := by
  unfold forEach; rfl

@[simp] theorem forEach_cons {α : Type} (a : α) (l : List α) (m : Main) (f : Main → α → Main) :
    forEach (a :: l) m f = forEach l (f m a) f := by
  unfold forEach; rfl

/-- A fold of such updates is one. -/
theorem poolOnly_forEach {α : Type} (l : List α) (m : Main) (f : Main → α → Main) (h : ∀ x a, poolOnly x (f x a)) :
    poolOnly m (forEach l m f) := by
  unfold forEach
  induction l generalizing m with
  | nil => rfl
  | cons a rest ih => exact poolOnly_trans (h m a) (ih (f m a))

theorem poolOnly_cuOpen (m : Main) (q : Fin 32) (id : Nat) : poolOnly m (cuOpen m q id) := by
  unfold cuOpen
  refine poolOnly_forEach _ _ _ fun x c => ?_
  dsimp only
  split
  · split
    · exact poolOnly_trans (poolOnly_count _ _ _) (poolOnly_modCu _ _ _)
    · exact poolOnly_modCu _ _ _
  · rfl

theorem poolOnly_cuWords (m : Main) (q : Fin 32) (id : Nat) (ws : List Word) : poolOnly m (cuWords m q id ws) := by
  unfold cuWords
  refine poolOnly_forEach _ _ _ fun x c => ?_
  dsimp only
  split
  · exact poolOnly_modCu _ _ _
  · rfl

theorem poolOnly_cuSink (m : Main) (id : Nat) : poolOnly m (cuSink m id) := by
  unfold cuSink
  refine poolOnly_forEach _ _ _ fun x c => ?_
  split
  · exact poolOnly_trans (poolOnly_count _ _ _) (poolOnly_modCu _ _ _)
  · exact poolOnly_refl _

/-- The same for a fold that gathers work beside the machine. -/
theorem poolOnly_foldl {α β : Type} (l : List α) (f : Main × β → α → Main × β) (h : ∀ x a, poolOnly x.1 (f x a).1) (acc : Main × β) :
    poolOnly acc.1 (l.foldl f acc).1 := by
  induction l generalizing acc with
  | nil => exact poolOnly_refl _
  | cons a rest ih => exact poolOnly_trans (h acc a) (ih (f acc a))

theorem poolOnly_cuClose (m : Main) (q : Fin 32) (p : Packet) : poolOnly m (cuClose m q p).1 := by
  unfold cuClose
  refine poolOnly_foldl _ _ (fun x c => ?_) (m, [])
  dsimp only
  split
  · exact poolOnly_modCu _ _ _
  · exact poolOnly_refl _

theorem poolOnly_openPkt (m : Main) (q : Fin 32) (type source reserve : Nat) : poolOnly m (openPkt m q type source reserve).1 := by
  unfold openPkt
  dsimp only
  exact poolOnly_trans (poolOnly_trans (poolOnly_pool m _) (poolOnly_modQ _ q _)) (poolOnly_cuOpen _ q _)

theorem poolOnly_sinkPkt (m : Main) (q : Fin 32) (id : Nat) : poolOnly m (sinkPkt m q id) := by
  unfold sinkPkt
  dsimp only
  exact poolOnly_trans (poolOnly_trans (poolOnly_pool m _) (poolOnly_modQ _ q _)) (poolOnly_cuSink _ id)

theorem poolOnly_appendPkt (m : Main) (q : Fin 32) (id : Nat) (ws : List Word) : poolOnly m (appendPkt m q id ws) := by
  unfold appendPkt
  dsimp only
  split
  · exact poolOnly_modQ m q _
  · have put (f : Queue → Queue) (vs : List Word) : poolOnly m (cuWords (modQ m q f) q id vs) :=
      poolOnly_trans (poolOnly_modQ m q _) (poolOnly_cuWords _ q id vs)
    split
    · exact put _ _
    · exact poolOnly_trans (put _ _) (poolOnly_trans (poolOnly_sinkPkt _ q id) (poolOnly_modQ _ q _))

theorem poolOnly_closeRaw (m : Main) (q : Fin 32) (id : Nat) : poolOnly m (closeRaw m q id).1 := by
  unfold closeRaw
  dsimp only
  split
  · have two (x : Main) (n : Nat) : poolOnly x (countN (count x 0x70C0 0x02) 0x70C0 0x03 n) :=
      poolOnly_trans (poolOnly_count x _ _) (poolOnly_countN _ _ _ _)
    exact poolOnly_trans (poolOnly_modQ m q _) (two _ _)
  · split
    · exact poolOnly_refl _
    · split
      · dsimp only
        exact poolOnly_trans (poolOnly_modQ m q _) (poolOnly_cuClose _ q _)
      · exact poolOnly_trans (poolOnly_modQ m q _) (poolOnly_cuClose _ q _)

theorem poolOnly_dropRaw (m : Main) (q : Fin 32) (source : Nat) : poolOnly m (dropRaw m q source).1 := by
  unfold dropRaw
  exact poolOnly_trans (poolOnly_modQ m q _) (poolOnly_count _ _ _)

theorem poolOnly_putRaw (m : Main) (q : Fin 32) (type source : Nat) (ws : List Word) : poolOnly m (putRaw m q type source ws).1 := by
  unfold putRaw
  dsimp only
  exact poolOnly_trans (poolOnly_trans (poolOnly_openPkt m q _ _ _) (poolOnly_appendPkt _ q _ _)) (poolOnly_closeRaw _ q _)

theorem poolOnly_journalPut (m : Main) (body : List Word) : poolOnly m (journalPut m body).1 := by
  unfold journalPut
  dsimp only
  split
  · split
    · exact poolOnly_putRaw m _ _ _ _
    · exact poolOnly_dropRaw m 23 0x06
  · split
    · exact poolOnly_trans (poolOnly_putRaw m _ _ _ _) (poolOnly_count _ _ _)
    · exact poolOnly_trans (poolOnly_dropRaw m 22 0x06) (poolOnly_count _ _ _)

theorem poolOnly_journalAt (m : Main) (t src code : Nat) (args : List Nat) : poolOnly m (journalAt m t src code args).1 := by
  unfold journalAt
  dsimp only
  split
  · exact poolOnly_refl _
  · split
    · exact poolOnly_trans (poolOnly_flt m _) (poolOnly_count _ _ _)
    · exact poolOnly_trans (poolOnly_flt m _) (poolOnly_journalPut _ _)

theorem poolOnly_recordRaw (m : Main) (c : Fin 8) (key kind ref1 ref2 : Nat) : poolOnly m (recordRaw m c key kind ref1 ref2).1 := by
  unfold recordRaw
  dsimp only
  split
  · exact poolOnly_trans (poolOnly_trans (poolOnly_count m _ _) (poolOnly_modCu _ c _)) (poolOnly_putRaw _ _ _ _ _)
  · exact poolOnly_trans (poolOnly_trans (poolOnly_count m _ _) (poolOnly_modCu _ c _)) (poolOnly_dropRaw _ _ _)

theorem poolOnly_doWork (m : Main) (w : PoolWork) : poolOnly m (doWork m w).1 := by
  cases w with
  | put q type source ws mir =>
    simp only [doWork]
    split
    · exact poolOnly_putRaw _ _ _ _ _
    · exact poolOnly_trans (poolOnly_countIf _ _ _ _) (poolOnly_dropRaw _ _ _)
  | record c key kind ref1 ref2 => exact poolOnly_recordRaw _ _ _ _ _ _
  | journal src code args => exact poolOnly_journalAt _ _ _ _ _

theorem poolOnly_settleFuel (n : Nat) : ∀ (m : Main) (l : List PoolWork), poolOnly m (settleFuel n m l) := by
  induction n with
  | zero => intro m l; cases l <;> exact poolOnly_refl _
  | succ n ih =>
    intro m l
    cases l with
    | nil => exact poolOnly_refl _
    | cons w ws => exact poolOnly_trans (poolOnly_doWork m w) (ih _ _)

/-- All that settling the pool's work can do. -/
theorem poolOnly_settle (r : Main × List PoolWork) : poolOnly r.1 (settle r) := by
  unfold settle; exact poolOnly_settleFuel _ _ _

/-- All that journalling an event can do. -/
theorem poolOnly_journal (m : Main) (src code : Nat) (args : List Nat) : poolOnly m (journal m src code args) :=
  poolOnly_trans (poolOnly_journalAt m m.now src code args) (poolOnly_settle _)

theorem poolOnly_closePkt (m : Main) (q : Fin 32) (id : Nat) : poolOnly m (closePkt m q id) :=
  poolOnly_trans (poolOnly_closeRaw m q id) (poolOnly_settle _)

theorem poolOnly_putPkt (m : Main) (q : Fin 32) (type source : Nat) (ws : List Word) : poolOnly m (putPkt m q type source ws) :=
  poolOnly_trans (poolOnly_putRaw m q type source ws) (poolOnly_settle _)

theorem poolOnly_dropPkt (m : Main) (q : Fin 32) (source : Nat) : poolOnly m (dropPkt m q source) :=
  poolOnly_trans (poolOnly_dropRaw m q source) (poolOnly_settle _)

theorem poolOnly_offerPkt (m : Main) (q : Fin 32) (type source : Nat) (ws : List Word) : poolOnly m (offerPkt m q type source ws) := by
  unfold offerPkt
  split
  · exact poolOnly_putPkt _ _ _ _ _
  · exact poolOnly_dropPkt _ _ _

/-! One lemma for each field that `poolOnly` keeps. -/

theorem poolOnly_now_eq {a b : Main} (h : poolOnly a b) : b.now = a.now := by rw [h]
theorem poolOnly_freeCtr_eq {a b : Main} (h : poolOnly a b) : b.freeCtr = a.freeCtr := by rw [h]
theorem poolOnly_pw_eq {a b : Main} (h : poolOnly a b) : b.pw = a.pw := by rw [h]
theorem poolOnly_ph_eq {a b : Main} (h : poolOnly a b) : b.ph = a.ph := by rw [h]
theorem poolOnly_plan_eq {a b : Main} (h : poolOnly a b) : b.plan = a.plan := by rw [h]
theorem poolOnly_cores_eq {a b : Main} (h : poolOnly a b) : b.cores = a.cores := by rw [h]
theorem poolOnly_ports_eq {a b : Main} (h : poolOnly a b) : b.ports = a.ports := by rw [h]
theorem poolOnly_sch_eq {a b : Main} (h : poolOnly a b) : b.sch = a.sch := by rw [h]
theorem poolOnly_brn_eq {a b : Main} (h : poolOnly a b) : b.brn = a.brn := by rw [h]
theorem poolOnly_engs_eq {a b : Main} (h : poolOnly a b) : b.engs = a.engs := by rw [h]
theorem poolOnly_disp_eq {a b : Main} (h : poolOnly a b) : b.disp = a.disp := by rw [h]
theorem poolOnly_sv_eq {a b : Main} (h : poolOnly a b) : b.sv = a.sv := by rw [h]
theorem poolOnly_wt_eq {a b : Main} (h : poolOnly a b) : b.wt = a.wt := by rw [h]
theorem poolOnly_tgt_eq {a b : Main} (h : poolOnly a b) : b.tgt = a.tgt := by rw [h]
theorem poolOnly_rad_eq {a b : Main} (h : poolOnly a b) : b.rad = a.rad := by rw [h]
theorem poolOnly_pts_eq {a b : Main} (h : poolOnly a b) : b.pts = a.pts := by rw [h]
theorem poolOnly_dict_eq {a b : Main} (h : poolOnly a b) : b.dict = a.dict := by rw [h]
theorem poolOnly_cfg_eq {a b : Main} (h : poolOnly a b) : b.cfg = a.cfg := by rw [h]
theorem poolOnly_spi_eq {a b : Main} (h : poolOnly a b) : b.spi = a.spi := by rw [h]
theorem poolOnly_can_eq {a b : Main} (h : poolOnly a b) : b.can = a.can := by rw [h]
theorem poolOnly_gpio_eq {a b : Main} (h : poolOnly a b) : b.gpio = a.gpio := by rw [h]
theorem poolOnly_lace_eq {a b : Main} (h : poolOnly a b) : b.lace = a.lace := by rw [h]

@[simp] theorem journal_now (m : Main) (src code : Nat) (args : List Nat) : (journal m src code args).now = m.now := poolOnly_now_eq (poolOnly_journal m src code args)
@[simp] theorem journal_freeCtr (m : Main) (src code : Nat) (args : List Nat) : (journal m src code args).freeCtr = m.freeCtr := poolOnly_freeCtr_eq (poolOnly_journal m src code args)
@[simp] theorem journal_pw (m : Main) (src code : Nat) (args : List Nat) : (journal m src code args).pw = m.pw := poolOnly_pw_eq (poolOnly_journal m src code args)
@[simp] theorem journal_ph (m : Main) (src code : Nat) (args : List Nat) : (journal m src code args).ph = m.ph := poolOnly_ph_eq (poolOnly_journal m src code args)
@[simp] theorem journal_plan (m : Main) (src code : Nat) (args : List Nat) : (journal m src code args).plan = m.plan := poolOnly_plan_eq (poolOnly_journal m src code args)
@[simp] theorem journal_cores (m : Main) (src code : Nat) (args : List Nat) : (journal m src code args).cores = m.cores := poolOnly_cores_eq (poolOnly_journal m src code args)
@[simp] theorem journal_ports (m : Main) (src code : Nat) (args : List Nat) : (journal m src code args).ports = m.ports := poolOnly_ports_eq (poolOnly_journal m src code args)
@[simp] theorem journal_sch (m : Main) (src code : Nat) (args : List Nat) : (journal m src code args).sch = m.sch := poolOnly_sch_eq (poolOnly_journal m src code args)
@[simp] theorem journal_brn (m : Main) (src code : Nat) (args : List Nat) : (journal m src code args).brn = m.brn := poolOnly_brn_eq (poolOnly_journal m src code args)
@[simp] theorem journal_engs (m : Main) (src code : Nat) (args : List Nat) : (journal m src code args).engs = m.engs := poolOnly_engs_eq (poolOnly_journal m src code args)
@[simp] theorem journal_disp (m : Main) (src code : Nat) (args : List Nat) : (journal m src code args).disp = m.disp := poolOnly_disp_eq (poolOnly_journal m src code args)
@[simp] theorem journal_sv (m : Main) (src code : Nat) (args : List Nat) : (journal m src code args).sv = m.sv := poolOnly_sv_eq (poolOnly_journal m src code args)
@[simp] theorem journal_wt (m : Main) (src code : Nat) (args : List Nat) : (journal m src code args).wt = m.wt := poolOnly_wt_eq (poolOnly_journal m src code args)
@[simp] theorem journal_tgt (m : Main) (src code : Nat) (args : List Nat) : (journal m src code args).tgt = m.tgt := poolOnly_tgt_eq (poolOnly_journal m src code args)
@[simp] theorem journal_rad (m : Main) (src code : Nat) (args : List Nat) : (journal m src code args).rad = m.rad := poolOnly_rad_eq (poolOnly_journal m src code args)
@[simp] theorem journal_pts (m : Main) (src code : Nat) (args : List Nat) : (journal m src code args).pts = m.pts := poolOnly_pts_eq (poolOnly_journal m src code args)
@[simp] theorem journal_dict (m : Main) (src code : Nat) (args : List Nat) : (journal m src code args).dict = m.dict := poolOnly_dict_eq (poolOnly_journal m src code args)
@[simp] theorem journal_cfg (m : Main) (src code : Nat) (args : List Nat) : (journal m src code args).cfg = m.cfg := poolOnly_cfg_eq (poolOnly_journal m src code args)
@[simp] theorem journal_spi (m : Main) (src code : Nat) (args : List Nat) : (journal m src code args).spi = m.spi := poolOnly_spi_eq (poolOnly_journal m src code args)
@[simp] theorem journal_can (m : Main) (src code : Nat) (args : List Nat) : (journal m src code args).can = m.can := poolOnly_can_eq (poolOnly_journal m src code args)
@[simp] theorem journal_gpio (m : Main) (src code : Nat) (args : List Nat) : (journal m src code args).gpio = m.gpio := poolOnly_gpio_eq (poolOnly_journal m src code args)
@[simp] theorem journal_lace (m : Main) (src code : Nat) (args : List Nat) : (journal m src code args).lace = m.lace := poolOnly_lace_eq (poolOnly_journal m src code args)

@[simp] theorem closePkt_now (m : Main) (q : Fin 32) (id : Nat) : (closePkt m q id).now = m.now := poolOnly_now_eq (poolOnly_closePkt m q id)
@[simp] theorem closePkt_freeCtr (m : Main) (q : Fin 32) (id : Nat) : (closePkt m q id).freeCtr = m.freeCtr := poolOnly_freeCtr_eq (poolOnly_closePkt m q id)
@[simp] theorem closePkt_pw (m : Main) (q : Fin 32) (id : Nat) : (closePkt m q id).pw = m.pw := poolOnly_pw_eq (poolOnly_closePkt m q id)
@[simp] theorem closePkt_ph (m : Main) (q : Fin 32) (id : Nat) : (closePkt m q id).ph = m.ph := poolOnly_ph_eq (poolOnly_closePkt m q id)
@[simp] theorem closePkt_plan (m : Main) (q : Fin 32) (id : Nat) : (closePkt m q id).plan = m.plan := poolOnly_plan_eq (poolOnly_closePkt m q id)
@[simp] theorem closePkt_cores (m : Main) (q : Fin 32) (id : Nat) : (closePkt m q id).cores = m.cores := poolOnly_cores_eq (poolOnly_closePkt m q id)
@[simp] theorem closePkt_ports (m : Main) (q : Fin 32) (id : Nat) : (closePkt m q id).ports = m.ports := poolOnly_ports_eq (poolOnly_closePkt m q id)
@[simp] theorem closePkt_sch (m : Main) (q : Fin 32) (id : Nat) : (closePkt m q id).sch = m.sch := poolOnly_sch_eq (poolOnly_closePkt m q id)
@[simp] theorem closePkt_brn (m : Main) (q : Fin 32) (id : Nat) : (closePkt m q id).brn = m.brn := poolOnly_brn_eq (poolOnly_closePkt m q id)
@[simp] theorem closePkt_engs (m : Main) (q : Fin 32) (id : Nat) : (closePkt m q id).engs = m.engs := poolOnly_engs_eq (poolOnly_closePkt m q id)
@[simp] theorem closePkt_disp (m : Main) (q : Fin 32) (id : Nat) : (closePkt m q id).disp = m.disp := poolOnly_disp_eq (poolOnly_closePkt m q id)
@[simp] theorem closePkt_sv (m : Main) (q : Fin 32) (id : Nat) : (closePkt m q id).sv = m.sv := poolOnly_sv_eq (poolOnly_closePkt m q id)
@[simp] theorem closePkt_wt (m : Main) (q : Fin 32) (id : Nat) : (closePkt m q id).wt = m.wt := poolOnly_wt_eq (poolOnly_closePkt m q id)
@[simp] theorem closePkt_tgt (m : Main) (q : Fin 32) (id : Nat) : (closePkt m q id).tgt = m.tgt := poolOnly_tgt_eq (poolOnly_closePkt m q id)
@[simp] theorem closePkt_rad (m : Main) (q : Fin 32) (id : Nat) : (closePkt m q id).rad = m.rad := poolOnly_rad_eq (poolOnly_closePkt m q id)
@[simp] theorem closePkt_pts (m : Main) (q : Fin 32) (id : Nat) : (closePkt m q id).pts = m.pts := poolOnly_pts_eq (poolOnly_closePkt m q id)
@[simp] theorem closePkt_dict (m : Main) (q : Fin 32) (id : Nat) : (closePkt m q id).dict = m.dict := poolOnly_dict_eq (poolOnly_closePkt m q id)
@[simp] theorem closePkt_cfg (m : Main) (q : Fin 32) (id : Nat) : (closePkt m q id).cfg = m.cfg := poolOnly_cfg_eq (poolOnly_closePkt m q id)
@[simp] theorem closePkt_spi (m : Main) (q : Fin 32) (id : Nat) : (closePkt m q id).spi = m.spi := poolOnly_spi_eq (poolOnly_closePkt m q id)
@[simp] theorem closePkt_can (m : Main) (q : Fin 32) (id : Nat) : (closePkt m q id).can = m.can := poolOnly_can_eq (poolOnly_closePkt m q id)
@[simp] theorem closePkt_gpio (m : Main) (q : Fin 32) (id : Nat) : (closePkt m q id).gpio = m.gpio := poolOnly_gpio_eq (poolOnly_closePkt m q id)
@[simp] theorem closePkt_lace (m : Main) (q : Fin 32) (id : Nat) : (closePkt m q id).lace = m.lace := poolOnly_lace_eq (poolOnly_closePkt m q id)

@[simp] theorem putPkt_now (m : Main) (q : Fin 32) (type source : Nat) (ws : List Word) : (putPkt m q type source ws).now = m.now := poolOnly_now_eq (poolOnly_putPkt m q type source ws)
@[simp] theorem putPkt_freeCtr (m : Main) (q : Fin 32) (type source : Nat) (ws : List Word) : (putPkt m q type source ws).freeCtr = m.freeCtr := poolOnly_freeCtr_eq (poolOnly_putPkt m q type source ws)
@[simp] theorem putPkt_pw (m : Main) (q : Fin 32) (type source : Nat) (ws : List Word) : (putPkt m q type source ws).pw = m.pw := poolOnly_pw_eq (poolOnly_putPkt m q type source ws)
@[simp] theorem putPkt_ph (m : Main) (q : Fin 32) (type source : Nat) (ws : List Word) : (putPkt m q type source ws).ph = m.ph := poolOnly_ph_eq (poolOnly_putPkt m q type source ws)
@[simp] theorem putPkt_plan (m : Main) (q : Fin 32) (type source : Nat) (ws : List Word) : (putPkt m q type source ws).plan = m.plan := poolOnly_plan_eq (poolOnly_putPkt m q type source ws)
@[simp] theorem putPkt_cores (m : Main) (q : Fin 32) (type source : Nat) (ws : List Word) : (putPkt m q type source ws).cores = m.cores := poolOnly_cores_eq (poolOnly_putPkt m q type source ws)
@[simp] theorem putPkt_ports (m : Main) (q : Fin 32) (type source : Nat) (ws : List Word) : (putPkt m q type source ws).ports = m.ports := poolOnly_ports_eq (poolOnly_putPkt m q type source ws)
@[simp] theorem putPkt_sch (m : Main) (q : Fin 32) (type source : Nat) (ws : List Word) : (putPkt m q type source ws).sch = m.sch := poolOnly_sch_eq (poolOnly_putPkt m q type source ws)
@[simp] theorem putPkt_brn (m : Main) (q : Fin 32) (type source : Nat) (ws : List Word) : (putPkt m q type source ws).brn = m.brn := poolOnly_brn_eq (poolOnly_putPkt m q type source ws)
@[simp] theorem putPkt_engs (m : Main) (q : Fin 32) (type source : Nat) (ws : List Word) : (putPkt m q type source ws).engs = m.engs := poolOnly_engs_eq (poolOnly_putPkt m q type source ws)
@[simp] theorem putPkt_disp (m : Main) (q : Fin 32) (type source : Nat) (ws : List Word) : (putPkt m q type source ws).disp = m.disp := poolOnly_disp_eq (poolOnly_putPkt m q type source ws)
@[simp] theorem putPkt_sv (m : Main) (q : Fin 32) (type source : Nat) (ws : List Word) : (putPkt m q type source ws).sv = m.sv := poolOnly_sv_eq (poolOnly_putPkt m q type source ws)
@[simp] theorem putPkt_wt (m : Main) (q : Fin 32) (type source : Nat) (ws : List Word) : (putPkt m q type source ws).wt = m.wt := poolOnly_wt_eq (poolOnly_putPkt m q type source ws)
@[simp] theorem putPkt_tgt (m : Main) (q : Fin 32) (type source : Nat) (ws : List Word) : (putPkt m q type source ws).tgt = m.tgt := poolOnly_tgt_eq (poolOnly_putPkt m q type source ws)
@[simp] theorem putPkt_rad (m : Main) (q : Fin 32) (type source : Nat) (ws : List Word) : (putPkt m q type source ws).rad = m.rad := poolOnly_rad_eq (poolOnly_putPkt m q type source ws)
@[simp] theorem putPkt_pts (m : Main) (q : Fin 32) (type source : Nat) (ws : List Word) : (putPkt m q type source ws).pts = m.pts := poolOnly_pts_eq (poolOnly_putPkt m q type source ws)
@[simp] theorem putPkt_dict (m : Main) (q : Fin 32) (type source : Nat) (ws : List Word) : (putPkt m q type source ws).dict = m.dict := poolOnly_dict_eq (poolOnly_putPkt m q type source ws)
@[simp] theorem putPkt_cfg (m : Main) (q : Fin 32) (type source : Nat) (ws : List Word) : (putPkt m q type source ws).cfg = m.cfg := poolOnly_cfg_eq (poolOnly_putPkt m q type source ws)
@[simp] theorem putPkt_spi (m : Main) (q : Fin 32) (type source : Nat) (ws : List Word) : (putPkt m q type source ws).spi = m.spi := poolOnly_spi_eq (poolOnly_putPkt m q type source ws)
@[simp] theorem putPkt_can (m : Main) (q : Fin 32) (type source : Nat) (ws : List Word) : (putPkt m q type source ws).can = m.can := poolOnly_can_eq (poolOnly_putPkt m q type source ws)
@[simp] theorem putPkt_gpio (m : Main) (q : Fin 32) (type source : Nat) (ws : List Word) : (putPkt m q type source ws).gpio = m.gpio := poolOnly_gpio_eq (poolOnly_putPkt m q type source ws)
@[simp] theorem putPkt_lace (m : Main) (q : Fin 32) (type source : Nat) (ws : List Word) : (putPkt m q type source ws).lace = m.lace := poolOnly_lace_eq (poolOnly_putPkt m q type source ws)

@[simp] theorem dropPkt_now (m : Main) (q : Fin 32) (source : Nat) : (dropPkt m q source).now = m.now := poolOnly_now_eq (poolOnly_dropPkt m q source)
@[simp] theorem dropPkt_freeCtr (m : Main) (q : Fin 32) (source : Nat) : (dropPkt m q source).freeCtr = m.freeCtr := poolOnly_freeCtr_eq (poolOnly_dropPkt m q source)
@[simp] theorem dropPkt_pw (m : Main) (q : Fin 32) (source : Nat) : (dropPkt m q source).pw = m.pw := poolOnly_pw_eq (poolOnly_dropPkt m q source)
@[simp] theorem dropPkt_ph (m : Main) (q : Fin 32) (source : Nat) : (dropPkt m q source).ph = m.ph := poolOnly_ph_eq (poolOnly_dropPkt m q source)
@[simp] theorem dropPkt_plan (m : Main) (q : Fin 32) (source : Nat) : (dropPkt m q source).plan = m.plan := poolOnly_plan_eq (poolOnly_dropPkt m q source)
@[simp] theorem dropPkt_cores (m : Main) (q : Fin 32) (source : Nat) : (dropPkt m q source).cores = m.cores := poolOnly_cores_eq (poolOnly_dropPkt m q source)
@[simp] theorem dropPkt_ports (m : Main) (q : Fin 32) (source : Nat) : (dropPkt m q source).ports = m.ports := poolOnly_ports_eq (poolOnly_dropPkt m q source)
@[simp] theorem dropPkt_sch (m : Main) (q : Fin 32) (source : Nat) : (dropPkt m q source).sch = m.sch := poolOnly_sch_eq (poolOnly_dropPkt m q source)
@[simp] theorem dropPkt_brn (m : Main) (q : Fin 32) (source : Nat) : (dropPkt m q source).brn = m.brn := poolOnly_brn_eq (poolOnly_dropPkt m q source)
@[simp] theorem dropPkt_engs (m : Main) (q : Fin 32) (source : Nat) : (dropPkt m q source).engs = m.engs := poolOnly_engs_eq (poolOnly_dropPkt m q source)
@[simp] theorem dropPkt_disp (m : Main) (q : Fin 32) (source : Nat) : (dropPkt m q source).disp = m.disp := poolOnly_disp_eq (poolOnly_dropPkt m q source)
@[simp] theorem dropPkt_sv (m : Main) (q : Fin 32) (source : Nat) : (dropPkt m q source).sv = m.sv := poolOnly_sv_eq (poolOnly_dropPkt m q source)
@[simp] theorem dropPkt_wt (m : Main) (q : Fin 32) (source : Nat) : (dropPkt m q source).wt = m.wt := poolOnly_wt_eq (poolOnly_dropPkt m q source)
@[simp] theorem dropPkt_tgt (m : Main) (q : Fin 32) (source : Nat) : (dropPkt m q source).tgt = m.tgt := poolOnly_tgt_eq (poolOnly_dropPkt m q source)
@[simp] theorem dropPkt_rad (m : Main) (q : Fin 32) (source : Nat) : (dropPkt m q source).rad = m.rad := poolOnly_rad_eq (poolOnly_dropPkt m q source)
@[simp] theorem dropPkt_pts (m : Main) (q : Fin 32) (source : Nat) : (dropPkt m q source).pts = m.pts := poolOnly_pts_eq (poolOnly_dropPkt m q source)
@[simp] theorem dropPkt_dict (m : Main) (q : Fin 32) (source : Nat) : (dropPkt m q source).dict = m.dict := poolOnly_dict_eq (poolOnly_dropPkt m q source)
@[simp] theorem dropPkt_cfg (m : Main) (q : Fin 32) (source : Nat) : (dropPkt m q source).cfg = m.cfg := poolOnly_cfg_eq (poolOnly_dropPkt m q source)
@[simp] theorem dropPkt_spi (m : Main) (q : Fin 32) (source : Nat) : (dropPkt m q source).spi = m.spi := poolOnly_spi_eq (poolOnly_dropPkt m q source)
@[simp] theorem dropPkt_can (m : Main) (q : Fin 32) (source : Nat) : (dropPkt m q source).can = m.can := poolOnly_can_eq (poolOnly_dropPkt m q source)
@[simp] theorem dropPkt_gpio (m : Main) (q : Fin 32) (source : Nat) : (dropPkt m q source).gpio = m.gpio := poolOnly_gpio_eq (poolOnly_dropPkt m q source)
@[simp] theorem dropPkt_lace (m : Main) (q : Fin 32) (source : Nat) : (dropPkt m q source).lace = m.lace := poolOnly_lace_eq (poolOnly_dropPkt m q source)

@[simp] theorem offerPkt_now (m : Main) (q : Fin 32) (type source : Nat) (ws : List Word) : (offerPkt m q type source ws).now = m.now := poolOnly_now_eq (poolOnly_offerPkt m q type source ws)
@[simp] theorem offerPkt_freeCtr (m : Main) (q : Fin 32) (type source : Nat) (ws : List Word) : (offerPkt m q type source ws).freeCtr = m.freeCtr := poolOnly_freeCtr_eq (poolOnly_offerPkt m q type source ws)
@[simp] theorem offerPkt_pw (m : Main) (q : Fin 32) (type source : Nat) (ws : List Word) : (offerPkt m q type source ws).pw = m.pw := poolOnly_pw_eq (poolOnly_offerPkt m q type source ws)
@[simp] theorem offerPkt_ph (m : Main) (q : Fin 32) (type source : Nat) (ws : List Word) : (offerPkt m q type source ws).ph = m.ph := poolOnly_ph_eq (poolOnly_offerPkt m q type source ws)
@[simp] theorem offerPkt_plan (m : Main) (q : Fin 32) (type source : Nat) (ws : List Word) : (offerPkt m q type source ws).plan = m.plan := poolOnly_plan_eq (poolOnly_offerPkt m q type source ws)
@[simp] theorem offerPkt_cores (m : Main) (q : Fin 32) (type source : Nat) (ws : List Word) : (offerPkt m q type source ws).cores = m.cores := poolOnly_cores_eq (poolOnly_offerPkt m q type source ws)
@[simp] theorem offerPkt_ports (m : Main) (q : Fin 32) (type source : Nat) (ws : List Word) : (offerPkt m q type source ws).ports = m.ports := poolOnly_ports_eq (poolOnly_offerPkt m q type source ws)
@[simp] theorem offerPkt_sch (m : Main) (q : Fin 32) (type source : Nat) (ws : List Word) : (offerPkt m q type source ws).sch = m.sch := poolOnly_sch_eq (poolOnly_offerPkt m q type source ws)
@[simp] theorem offerPkt_brn (m : Main) (q : Fin 32) (type source : Nat) (ws : List Word) : (offerPkt m q type source ws).brn = m.brn := poolOnly_brn_eq (poolOnly_offerPkt m q type source ws)
@[simp] theorem offerPkt_engs (m : Main) (q : Fin 32) (type source : Nat) (ws : List Word) : (offerPkt m q type source ws).engs = m.engs := poolOnly_engs_eq (poolOnly_offerPkt m q type source ws)
@[simp] theorem offerPkt_disp (m : Main) (q : Fin 32) (type source : Nat) (ws : List Word) : (offerPkt m q type source ws).disp = m.disp := poolOnly_disp_eq (poolOnly_offerPkt m q type source ws)
@[simp] theorem offerPkt_sv (m : Main) (q : Fin 32) (type source : Nat) (ws : List Word) : (offerPkt m q type source ws).sv = m.sv := poolOnly_sv_eq (poolOnly_offerPkt m q type source ws)
@[simp] theorem offerPkt_wt (m : Main) (q : Fin 32) (type source : Nat) (ws : List Word) : (offerPkt m q type source ws).wt = m.wt := poolOnly_wt_eq (poolOnly_offerPkt m q type source ws)
@[simp] theorem offerPkt_tgt (m : Main) (q : Fin 32) (type source : Nat) (ws : List Word) : (offerPkt m q type source ws).tgt = m.tgt := poolOnly_tgt_eq (poolOnly_offerPkt m q type source ws)
@[simp] theorem offerPkt_rad (m : Main) (q : Fin 32) (type source : Nat) (ws : List Word) : (offerPkt m q type source ws).rad = m.rad := poolOnly_rad_eq (poolOnly_offerPkt m q type source ws)
@[simp] theorem offerPkt_pts (m : Main) (q : Fin 32) (type source : Nat) (ws : List Word) : (offerPkt m q type source ws).pts = m.pts := poolOnly_pts_eq (poolOnly_offerPkt m q type source ws)
@[simp] theorem offerPkt_dict (m : Main) (q : Fin 32) (type source : Nat) (ws : List Word) : (offerPkt m q type source ws).dict = m.dict := poolOnly_dict_eq (poolOnly_offerPkt m q type source ws)
@[simp] theorem offerPkt_cfg (m : Main) (q : Fin 32) (type source : Nat) (ws : List Word) : (offerPkt m q type source ws).cfg = m.cfg := poolOnly_cfg_eq (poolOnly_offerPkt m q type source ws)
@[simp] theorem offerPkt_spi (m : Main) (q : Fin 32) (type source : Nat) (ws : List Word) : (offerPkt m q type source ws).spi = m.spi := poolOnly_spi_eq (poolOnly_offerPkt m q type source ws)
@[simp] theorem offerPkt_can (m : Main) (q : Fin 32) (type source : Nat) (ws : List Word) : (offerPkt m q type source ws).can = m.can := poolOnly_can_eq (poolOnly_offerPkt m q type source ws)
@[simp] theorem offerPkt_gpio (m : Main) (q : Fin 32) (type source : Nat) (ws : List Word) : (offerPkt m q type source ws).gpio = m.gpio := poolOnly_gpio_eq (poolOnly_offerPkt m q type source ws)
@[simp] theorem offerPkt_lace (m : Main) (q : Fin 32) (type source : Nat) (ws : List Word) : (offerPkt m q type source ws).lace = m.lace := poolOnly_lace_eq (poolOnly_offerPkt m q type source ws)

end Sys2Proof.Machine
end

