-- ==== Sys2Proof/Laws/Reader.lean ====
section
/-!
SUPPORT. Laws/Reader.lean: what the field scheduler, the stitch engines and the survey lanes leave alone: everything outside `readerOnly`.
-/

namespace Sys2Proof.Machine

theorem readerOnly_refl (a : Main) : readerOnly a a := rfl

theorem readerOnly_trans {a b c : Main} (h : readerOnly a b) (g : readerOnly b c) : readerOnly a c := by
  unfold readerOnly at *
  rw [g, h]

theorem readerOnly_of_pool {a b : Main} (h : poolOnly a b) : readerOnly a b := by
  unfold readerOnly; rw [h]

theorem readerOnly_modCore (m : Main) (k : Fin 16) (f : Core → Core) : readerOnly m (modCore m k f) := rfl
theorem readerOnly_modPort (m : Main) (p : Fin 128) (f : Port → Port) : readerOnly m (modPort m p f) := rfl
theorem readerOnly_modEng (m : Main) (e : Fin 24) (f : Engine → Engine) : readerOnly m (modEng m e f) := rfl
theorem readerOnly_modCtx (m : Main) (e : Fin 24) (c : Fin 2) (f : Ctx → Ctx) : readerOnly m (modCtx m e c f) := rfl
theorem readerOnly_modLane (m : Main) (k : Fin 16) (f : Lane → Lane) : readerOnly m (modLane m k f) := rfl
theorem readerOnly_modSv (m : Main) (f : Survey → Survey) : readerOnly m (modSv m f) := rfl
theorem readerOnly_modLace (m : Main) (f : Lace → Lace) : readerOnly m (modLace m f) := rfl
theorem readerOnly_modQ (m : Main) (q : Fin 32) (f : Queue → Queue) : readerOnly m (modQ m q f) := rfl
theorem readerOnly_sch (m : Main) (x : Sched) : readerOnly m { m with sch := x } := rfl
theorem readerOnly_disp (m : Main) (x : Disp) : readerOnly m { m with disp := x } := rfl
theorem readerOnly_sv (m : Main) (x : Survey) : readerOnly m { m with sv := x } := rfl
theorem readerOnly_countN (m : Main) (idx sub n : Nat) : readerOnly m (countN m idx sub n) := readerOnly_of_pool (poolOnly_countN ..)
theorem readerOnly_count (m : Main) (idx sub : Nat) : readerOnly m (count m idx sub) := readerOnly_of_pool (poolOnly_count ..)
theorem readerOnly_countIf (b : Bool) (m : Main) (idx sub : Nat) : readerOnly m (countIf b m idx sub) :=
  readerOnly_of_pool (poolOnly_countIf ..)
theorem readerOnly_journal (m : Main) (src code : Nat) (args : List Nat) : readerOnly m (journal m src code args) :=
  readerOnly_of_pool (poolOnly_journal ..)

/-- A fold of such updates is one. -/
theorem readerOnly_forEach {α : Type} (l : List α) (m : Main) (f : Main → α → Main) (h : ∀ x a, readerOnly x (f x a)) :
    readerOnly m (forEach l m f) := by
  unfold forEach
  induction l generalizing m with
  | nil => rfl
  | cons a rest ih => exact readerOnly_trans (h m a) (ih (f m a))

theorem poolOnly_countStall (m : Main) (q : Fin 32) : poolOnly m (countStall m q) :=
  poolOnly_trans (poolOnly_modQ m q _) (poolOnly_count _ _ _)

theorem poolOnly_resumePkt (m : Main) (q : Fin 32) (id : Nat) (ws : List Word) : poolOnly m (resumePkt m q id ws).1 := by
  unfold resumePkt
  dsimp only
  split
  · exact poolOnly_trans (poolOnly_appendPkt ..) (poolOnly_closePkt ..)
  · exact poolOnly_appendPkt ..

theorem poolOnly_stallPkt (m : Main) (q : Fin 32) (type source : Nat) (ws : List Word) : poolOnly m (stallPkt m q type source ws).1 := by
  unfold stallPkt
  dsimp only
  split
  · exact poolOnly_countStall m q
  · split
    · exact poolOnly_trans (poolOnly_trans (poolOnly_openPkt ..) (poolOnly_resumePkt ..)) (poolOnly_countStall ..)
    · exact poolOnly_trans (poolOnly_openPkt ..) (poolOnly_resumePkt ..)

theorem poolOnly_retryPkt (m : Main) (q : Fin 32) (type source : Nat) (st : Nat × List Word) :
    poolOnly m (retryPkt m q type source st).1 := by
  unfold retryPkt
  dsimp only
  split
  · split
    · exact poolOnly_refl _
    · exact poolOnly_stallPkt ..
  · split
    · exact poolOnly_refl _
    · split
      · exact poolOnly_trans (poolOnly_resumePkt ..) (poolOnly_countStall ..)
      · exact poolOnly_resumePkt ..

theorem readerOnly_stallPkt (m : Main) (q : Fin 32) (type source : Nat) (ws : List Word) : readerOnly m (stallPkt m q type source ws).1 :=
  readerOnly_of_pool (poolOnly_stallPkt ..)

theorem readerOnly_linkSend (m : Main) (l : LaceLink) (w0 eseq : Nat) (payload : List Word) : readerOnly m (linkSend m l w0 eseq payload) := by
  unfold linkSend
  cases l <;> exact readerOnly_trans (readerOnly_count m _ _) (readerOnly_modLace _ _)

theorem readerOnly_laceSend (m : Main) (type : Nat) (dst : Option (Fin 4)) (payload : List Word) : readerOnly m (laceSend m type dst payload) := by
  unfold laceSend
  dsimp only
  split
  · rfl
  · split
    · rfl
    · split
      · exact readerOnly_trans (readerOnly_trans (readerOnly_modLace m _) (readerOnly_linkSend ..)) (readerOnly_linkSend ..)
      · exact readerOnly_trans (readerOnly_modLace m _) (readerOnly_linkSend ..)

theorem readerOnly_sendField (m : Main) (p : Fin 128) (isOn : Bool) (f : FieldRec) : readerOnly m (sendField m p isOn f) := by
  unfold sendField
  split
  · exact readerOnly_laceSend ..
  · rfl

theorem readerOnly_loadDac (m : Main) (k : Fin 16) : readerOnly m (loadDac m k) := by
  unfold loadDac
  split
  · dsimp only
    split
    · exact readerOnly_trans (readerOnly_countN ..) (readerOnly_modCore ..)
    · exact readerOnly_trans (readerOnly_countN ..) (readerOnly_modCore ..)
  · rfl

theorem readerOnly_loadCoupled (m : Main) (v : FV) : readerOnly m (loadCoupled m v) := by
  unfold loadCoupled
  refine readerOnly_forEach _ _ _ fun x k => ?_
  split
  · split
    · exact readerOnly_loadDac ..
    · rfl
  · rfl

theorem readerOnly_applyDac (m : Main) (k : Fin 16) : readerOnly m (applyDac m k) := by
  unfold applyDac
  split
  · exact readerOnly_modCore ..
  · rfl

theorem readerOnly_dropSession (m : Main) (p : Fin 128) : readerOnly m (dropSession m p) := by
  unfold dropSession
  split
  · exact readerOnly_trans (readerOnly_count ..) (readerOnly_modPort ..)
  · rfl

theorem readerOnly_reachPort (m : Main) (p : Fin 128) : readerOnly m (reachPort m p) := by
  unfold reachPort
  dsimp only
  split
  · split
    · exact readerOnly_modPort ..
    · rfl
  · split
    · exact readerOnly_modPort ..
    · rfl

theorem readerOnly_updateReach (m : Main) : readerOnly m (updateReach m) := readerOnly_forEach _ _ _ readerOnly_reachPort

/-- All that the end of a field can do. -/
theorem readerOnly_endField (m : Main) (k : Fin 16) : readerOnly m (endField m k) := by
  unfold endField
  split
  · dsimp only
    refine readerOnly_trans ?_ (readerOnly_loadCoupled ..)
    have h (x : Main) (p : Fin 128) : readerOnly x (dropSession (reachPort x p) p) :=
      readerOnly_trans (readerOnly_reachPort ..) (readerOnly_dropSession ..)
    split
    · exact readerOnly_trans (readerOnly_trans (by rfl) (h _ _)) (readerOnly_sendField ..)
    · exact readerOnly_trans (by rfl) (h _ _)
  · rfl

theorem readerOnly_holdChange (m : Main) (k : Fin 16) : readerOnly m (holdChange m k) := by
  unfold holdChange
  split
  · rfl
  · exact readerOnly_trans (readerOnly_count ..) (readerOnly_modCore ..)

theorem readerOnly_releaseGaps (m : Main) : readerOnly m (releaseGaps m) := by
  unfold releaseGaps
  refine readerOnly_forEach _ _ _ fun x k => ?_
  split
  · split
    · exact readerOnly_modCore ..
    · rfl
  · rfl

theorem readerOnly_countStatus (m : Main) (status : Nat) : readerOnly m (countStatus m status) := by
  unfold countStatus
  exact readerOnly_trans (readerOnly_countIf ..) (readerOnly_countIf ..)

theorem readerOnly_closeResult (m : Main) (e : Fin 24) (c : Fin 2) : readerOnly m (closeResult m e c) := by
  unfold closeResult
  dsimp only
  split
  · exact readerOnly_trans (readerOnly_trans (readerOnly_modQ ..) (readerOnly_count ..)) (readerOnly_modEng ..)
  · exact readerOnly_trans (readerOnly_count ..) (readerOnly_modEng ..)

/-- All that a context's result can do. -/
theorem readerOnly_writeResult (m : Main) (e : Fin 24) (c : Fin 2) (status detail : Nat) (part : Bool) (body : List Word) :
    readerOnly m (writeResult m e c status detail part body) := by
  unfold writeResult
  split
  · exact readerOnly_modCtx ..
  · dsimp only
    split
    · exact readerOnly_trans (readerOnly_trans (readerOnly_countStatus ..) (readerOnly_stallPkt ..)) (readerOnly_closeResult ..)
    · exact readerOnly_trans (readerOnly_trans (readerOnly_trans (readerOnly_countStatus ..) (readerOnly_stallPkt ..)) (readerOnly_count ..))
        (readerOnly_modCtx ..)

/-- All that a result of the dispatcher can do. -/
theorem readerOnly_dispResult (m : Main) (j : Job) (engine ctx : Nat) (core : Option (Fin 16)) (status detail : Nat) :
    readerOnly m (dispResult m j engine ctx core status detail) := by
  unfold dispResult
  dsimp only
  split
  · exact readerOnly_trans (readerOnly_trans (readerOnly_countStatus ..) (readerOnly_stallPkt ..)) (readerOnly_modQ ..)
  · exact readerOnly_trans (readerOnly_trans (readerOnly_countStatus ..) (readerOnly_stallPkt ..)) (readerOnly_disp ..)

theorem readerOnly_abortCtx (m : Main) (e : Fin 24) (c : Fin 2) (detail : Nat) : readerOnly m (abortCtx m e c detail) := by
  unfold abortCtx
  dsimp only
  split
  · rfl
  · exact readerOnly_writeResult ..

theorem readerOnly_withdraw (m : Main) (w : Owner) : readerOnly m (withdraw m w) := rfl

theorem readerOnly_laneOut (m : Main) (k : Fin 16) (ws : List Word) : readerOnly m (laneOut m k ws) := by
  unfold laneOut
  split
  · exact readerOnly_modLane ..
  · dsimp only
    split
    · exact readerOnly_stallPkt ..
    · exact readerOnly_trans (readerOnly_trans (readerOnly_trans (readerOnly_stallPkt ..) (readerOnly_sv ..)) (readerOnly_count ..))
        (readerOnly_modLane ..)

theorem readerOnly_reportPort (m : Main) (k : Fin 16) (p : Fin 128) (v : VisitOut) : readerOnly m (reportPort m k p v) := by
  unfold reportPort
  dsimp only
  have h (a b c : Bool) (y : Port) : readerOnly m
      (modPort (countIf c (countIf b (countIf a m 0x70B0 0x03) 0x70B0 0x04) 0x70B0 0x05) p fun _ => y) :=
    readerOnly_trans (readerOnly_trans (readerOnly_trans (readerOnly_countIf ..) (readerOnly_countIf ..)) (readerOnly_countIf ..))
      (readerOnly_modPort ..)
  split
  · exact readerOnly_trans (readerOnly_trans (h ..) (readerOnly_sv ..)) (readerOnly_laneOut ..)
  · exact h ..

theorem readerOnly_endPass (m : Main) (b : Bool) : readerOnly m (endPass m b) := by
  unfold endPass
  dsimp only
  exact readerOnly_trans (readerOnly_trans (readerOnly_trans (readerOnly_trans (readerOnly_count ..) (readerOnly_countIf ..))
    (readerOnly_modSv ..)) (readerOnly_stallPkt ..)) (readerOnly_sv ..)

theorem readerOnly_noteCause (mr : Main × Req) (b : Bool) (sub : Nat) : readerOnly mr.1 (noteCause mr b sub).1 := by
  unfold noteCause
  split
  · exact readerOnly_count ..
  · rfl

theorem readerOnly_putReq (m : Main) (r : Req) : readerOnly m (putReq m r) := rfl

theorem readerOnly_latchPairs (m : Main) (v : FV) : readerOnly m (latchPairs m v) := by
  unfold latchPairs
  refine readerOnly_forEach _ _ _ fun x k => ?_
  split
  · split
    · rfl
    · exact readerOnly_modCore ..
  · rfl

theorem readerOnly_commit (m : Main) (r : Req) (k : Fin 16) (code : Nat) (sub8 : Bool) : readerOnly m (commit m r k code sub8) := by
  unfold commit
  dsimp only
  refine readerOnly_trans ?_ (readerOnly_loadCoupled ..)
  refine readerOnly_trans ?_ (readerOnly_latchPairs ..)
  have h1 (a b : Bool) : readerOnly m (countIf b (countIf a m 0x7030 0x0A) 0x7040 0x03) :=
    readerOnly_trans (readerOnly_countIf ..) (readerOnly_countIf ..)
  have h2 (x : Main) (w : Owner) (f : Core → Core) (o : Option Owner) (g : Lace → Lace) (y : Sched) :
      readerOnly x (modCore (if o = some w then modLace { x with sch := y } g else { x with sch := y }) k f) := by
    split <;> rfl
  split
  · exact readerOnly_trans (readerOnly_trans (readerOnly_trans (h1 ..) (h2 ..)) (readerOnly_countIf ..)) (readerOnly_modCtx ..)
  · exact readerOnly_trans (readerOnly_trans (h1 ..) (h2 ..)) (readerOnly_modLane ..)
  · exact readerOnly_trans (h1 ..) (h2 ..)

theorem readerOnly_sendClaims (m : Main) (r : Req) (ds : List (Fin 4)) (v : FV) (code : Nat) (sub8 : Bool) :
    readerOnly m (sendClaims m r ds v code sub8) := by
  unfold sendClaims
  dsimp only
  exact readerOnly_trans (readerOnly_modLace ..) (readerOnly_forEach _ _ _ fun x d => readerOnly_laceSend ..)

theorem readerOnly_evalCore (m : Main) (r : Req) (k : Fin 16) : readerOnly m (evalCore m r k) := by
  unfold evalCore
  dsimp only
  split
  · rfl
  · generalize hs : noteCause (noteCause (noteCause (m, r) _ 1) _ 2) _ 5 = s
    have h : readerOnly m (putReq s.1 s.2) := by
      rw [← hs]
      exact readerOnly_trans (readerOnly_trans (readerOnly_noteCause (m, r) _ 1) (readerOnly_trans (readerOnly_noteCause _ _ 2)
        (readerOnly_noteCause _ _ 5))) (readerOnly_putReq ..)
    split
    · exact h
    · refine readerOnly_trans h ?_
      split
      · exact readerOnly_trans (readerOnly_noteCause (_, _) _ _) (readerOnly_putReq ..)
      · split
        · exact readerOnly_trans (readerOnly_noteCause (_, _) _ _) (readerOnly_putReq ..)
        · split
          · exact readerOnly_trans (readerOnly_count ..) (readerOnly_putReq ..)
          · rfl
          · split
            · rfl
            · exact readerOnly_commit ..
            · exact readerOnly_sendClaims ..

theorem readerOnly_refuseReq (m : Main) (r : Req) (status detail : Nat) : readerOnly m (refuseReq m r status detail) := by
  unfold refuseReq
  dsimp only
  split
  · exact readerOnly_trans (readerOnly_withdraw ..) (readerOnly_writeResult ..)
  · exact readerOnly_trans (readerOnly_trans (readerOnly_withdraw ..) (readerOnly_modLane ..)) (readerOnly_reportPort ..)
  · rfl

theorem readerOnly_takeSession (m : Main) (r : Req) (e : Fin 24) (c : Fin 2) (k : Fin 16) : readerOnly m (takeSession m r e c k) := rfl

theorem readerOnly_sessionCase (m : Main) (r : Req) {x : Main} (h : sessionCase m r = some x) : readerOnly m x := by
  unfold sessionCase at h
  split at h
  · split at h
    · cases h
    · split at h
      · split at h
        · cases h; exact readerOnly_refuseReq ..
        · cases h
      · split at h
        · cases h; exact readerOnly_refuseReq ..
        · split at h
          · cases h
            split <;> rfl
          · cases h; rfl
  · split at h
    · cases h; rfl
    · cases h

/-- All that the evaluation of one request can do. -/
theorem readerOnly_evalReq (m : Main) (r : Req) : readerOnly m (evalReq m r) := by
  unfold evalReq
  dsimp only
  repeat' split
  all_goals first
    | rfl
    | exact readerOnly_refuseReq ..
    | exact readerOnly_sessionCase m r (by assumption)
    | exact readerOnly_evalCore ..

/-- All that an evaluation of the requests can do. -/
theorem readerOnly_evaluate (m : Main) : readerOnly m (evaluate m) := by
  unfold evaluate
  dsimp only
  refine readerOnly_forEach _ _ _ fun x w => ?_
  split
  · exact readerOnly_evalReq ..
  · rfl

theorem readerOnly_addReq (m : Main) (r : Req) : readerOnly m (addReq m r) := by
  unfold addReq
  split
  · rfl
  · dsimp only
    split <;> rfl

theorem readerOnly_orderOff (m : Main) (k : Fin 16) : readerOnly m (orderOff m k) := rfl

theorem readerOnly_restPorts (m : Main) : readerOnly m (restPorts m) := by
  unfold restPorts
  refine readerOnly_forEach _ _ _ fun x p => ?_
  dsimp only
  split <;> rfl

theorem readerOnly_endIdleFields (m : Main) : readerOnly m (endIdleFields m) := by
  unfold endIdleFields
  refine readerOnly_forEach _ _ _ fun x k => ?_
  split
  · split
    · exact readerOnly_trans (readerOnly_orderOff ..) (readerOnly_dropSession ..)
    · rfl
  · rfl

theorem readerOnly_coreRest (m : Main) (k : Fin 16) : readerOnly m (coreRest m k) := by
  unfold coreRest
  dsimp only
  have h := readerOnly_trans (readerOnly_endIdleFields m) (readerOnly_restPorts _)
  split
  · exact readerOnly_trans (readerOnly_trans h (readerOnly_modCore ..)) (readerOnly_updateReach _)
  · exact h

theorem readerOnly_reportVisit (m : Main) (k : Fin 16) : readerOnly m (reportVisit m k) := by
  unfold reportVisit
  dsimp only
  split
  · exact readerOnly_trans (readerOnly_trans (readerOnly_modLane ..) (readerOnly_modSv ..)) (readerOnly_reportPort ..)
  · rfl

/-- All that a field that goes off can do. -/
theorem readerOnly_fieldOff (m : Main) (k : Fin 16) : readerOnly m (fieldOff m k) :=
  readerOnly_trans (readerOnly_trans (readerOnly_trans (readerOnly_endField ..) (readerOnly_coreRest ..)) (readerOnly_reportVisit ..))
    (readerOnly_evaluate _)

theorem readerOnly_handOver (m : Main) (k : Fin 16) (p : Fin 128) (pr : Proto) {x : Main} (h : handOver m k p pr = some x) :
    readerOnly m x := by
  unfold handOver at h
  split at h
  · cases h
  · split at h
    · cases h
    · split at h
      · split at h
        · cases h
          exact readerOnly_trans (readerOnly_count m 0x70A0 0x0A) (readerOnly_trans (readerOnly_withdraw ..)
            (readerOnly_trans (readerOnly_modCore ..) (readerOnly_modCtx ..)))
        · cases h
      · cases h

theorem readerOnly_releaseCore (m : Main) (e : Fin 24) (c : Fin 2) : readerOnly m (releaseCore m e c) := by
  unfold releaseCore
  dsimp only
  split
  · split
    · split
      · rfl
      · cases h : handOver m _ _ _ with
        | none => exact readerOnly_orderOff ..
        | some x => exact readerOnly_handOver _ _ _ _ h
    · rfl
  · rfl

/-- All that the end of a stitch can do. -/
theorem readerOnly_endStitch (m : Main) (e : Fin 24) (c : Fin 2) (status detail : Nat) (part : Bool) (body : List Word) :
    readerOnly m (endStitch m e c status detail part body) := by
  unfold endStitch
  dsimp only
  have h := readerOnly_trans (readerOnly_trans (readerOnly_withdraw m (.ctx e c)) (readerOnly_releaseCore _ e c))
    (readerOnly_writeResult _ e c status detail part body)
  split
  · exact readerOnly_trans h (readerOnly_coreRest ..)
  · exact h

theorem readerOnly_pauseCtx (m : Main) (e : Fin 24) (c : Fin 2) : readerOnly m (pauseCtx m e c) := by
  unfold pauseCtx
  dsimp only
  split
  · have h (b : Bool) (k : Fin 16) : readerOnly m (if b = true then orderOff m k else m) := by
      split <;> rfl
    split
    · exact readerOnly_trans (readerOnly_trans (h ..) (readerOnly_dropSession ..)) (readerOnly_writeResult ..)
    · exact readerOnly_trans (readerOnly_trans (readerOnly_trans (h ..) (readerOnly_dropSession ..)) (readerOnly_modCtx ..))
        (readerOnly_addReq ..)
  · rfl

theorem readerOnly_pauseVisit (m : Main) (l : Fin 16) : readerOnly m (pauseVisit m l) := by
  unfold pauseVisit
  dsimp only
  split <;> rfl

theorem readerOnly_windowClosed (m : Main) (k : Fin 16) (f : FieldRec) : readerOnly m (windowClosed m k f) := by
  unfold windowClosed
  split
  · dsimp only
    split
    · exact readerOnly_trans (readerOnly_orderOff ..) (readerOnly_dropSession ..)
    · split
      · rfl
      · split
        · exact readerOnly_orderOff ..
        · exact readerOnly_pauseCtx ..
  · split
    · exact readerOnly_orderOff ..
    · exact readerOnly_pauseVisit ..
  · exact readerOnly_orderOff ..

/-- All that the abort of a stitch can do. -/
theorem readerOnly_abortStitch (m : Main) (e : Fin 24) (c : Fin 2) (detail : Nat) : readerOnly m (abortStitch m e c detail) := by
  unfold abortStitch
  have h := readerOnly_withdraw m (.ctx e c)
  generalize withdraw m (.ctx e c) = w at h
  dsimp only
  cases (ctxOf w e c).core with
  | none => exact readerOnly_trans h (readerOnly_abortCtx ..)
  | some k =>
    dsimp only
    split
    · exact readerOnly_trans (readerOnly_trans (readerOnly_trans h (readerOnly_orderOff ..)) (readerOnly_abortCtx ..)) (readerOnly_coreRest ..)
    · exact readerOnly_trans (readerOnly_trans h (readerOnly_abortCtx ..)) (readerOnly_coreRest ..)

theorem readerOnly_allFieldsOff (m : Main) : readerOnly m (allFieldsOff m) := readerOnly_forEach _ _ _ fun _ _ => readerOnly_endField ..

theorem readerOnly_abortWaiting (m : Main) (detail : Nat) : readerOnly m (abortWaiting m detail) := by
  unfold abortWaiting
  refine readerOnly_forEach _ _ _ fun x a => ?_
  dsimp only
  split
  · exact readerOnly_trans (readerOnly_trans (readerOnly_withdraw ..) (readerOnly_modCtx ..)) (readerOnly_dispResult ..)
  · rfl

theorem readerOnly_abortStarted (m : Main) (detail : Nat) : readerOnly m (abortStarted m detail) := by
  unfold abortStarted
  refine readerOnly_forEach _ _ _ fun x a => ?_
  dsimp only
  split
  · exact readerOnly_abortStitch ..
  · rfl

theorem readerOnly_cutPass (m : Main) : readerOnly m (cutPass m) := by
  unfold cutPass
  dsimp only
  have h (g : Main → Fin 16 → Lane → Lane) (y : Main → Sched) (v : Survey → Survey) :
      readerOnly m (let x := forEach (allFin 16) m fun m k => modLane m k (g m k); modSv { x with sch := y x } v) :=
    readerOnly_trans (readerOnly_forEach (allFin 16) m (fun m k => modLane m k (g m k)) fun _ _ => readerOnly_modLane ..) (by rfl)
  split
  · exact readerOnly_trans (h _ (fun _ => _) _) (readerOnly_endPass ..)
  · exact h _ (fun _ => _) _

/-! One lemma for each field that `readerOnly` keeps. -/

theorem readerOnly_now_eq {a b : Main} (h : readerOnly a b) : b.now = a.now := by rw [h]
theorem readerOnly_freeCtr_eq {a b : Main} (h : readerOnly a b) : b.freeCtr = a.freeCtr := by rw [h]
theorem readerOnly_ph_eq {a b : Main} (h : readerOnly a b) : b.ph = a.ph := by rw [h]
theorem readerOnly_plan_eq {a b : Main} (h : readerOnly a b) : b.plan = a.plan := by rw [h]
theorem readerOnly_brn_eq {a b : Main} (h : readerOnly a b) : b.brn = a.brn := by rw [h]
theorem readerOnly_wt_eq {a b : Main} (h : readerOnly a b) : b.wt = a.wt := by rw [h]
theorem readerOnly_tgt_eq {a b : Main} (h : readerOnly a b) : b.tgt = a.tgt := by rw [h]
theorem readerOnly_rad_eq {a b : Main} (h : readerOnly a b) : b.rad = a.rad := by rw [h]
theorem readerOnly_pts_eq {a b : Main} (h : readerOnly a b) : b.pts = a.pts := by rw [h]
theorem readerOnly_dict_eq {a b : Main} (h : readerOnly a b) : b.dict = a.dict := by rw [h]
theorem readerOnly_cfg_eq {a b : Main} (h : readerOnly a b) : b.cfg = a.cfg := by rw [h]
theorem readerOnly_spi_eq {a b : Main} (h : readerOnly a b) : b.spi = a.spi := by rw [h]
theorem readerOnly_can_eq {a b : Main} (h : readerOnly a b) : b.can = a.can := by rw [h]
theorem readerOnly_gpio_eq {a b : Main} (h : readerOnly a b) : b.gpio = a.gpio := by rw [h]
theorem readerOnly_pw_eq {a b : Main} (h : readerOnly a b) :
    b.pw = { a.pw with governorHolds := b.pw.governorHolds, thermalAt := b.pw.thermalAt } := by
  exact congrArg Main.pw h
theorem readerOnly_mode_eq {a b : Main} (h : readerOnly a b) : b.pw.mode = a.pw.mode := by rw [h]

@[simp] theorem evaluate_now (m : Main) : (evaluate m).now = m.now := readerOnly_now_eq (readerOnly_evaluate ..)
@[simp] theorem evaluate_freeCtr (m : Main) : (evaluate m).freeCtr = m.freeCtr := readerOnly_freeCtr_eq (readerOnly_evaluate ..)
@[simp] theorem evaluate_ph (m : Main) : (evaluate m).ph = m.ph := readerOnly_ph_eq (readerOnly_evaluate ..)
@[simp] theorem evaluate_plan (m : Main) : (evaluate m).plan = m.plan := readerOnly_plan_eq (readerOnly_evaluate ..)
@[simp] theorem evaluate_brn (m : Main) : (evaluate m).brn = m.brn := readerOnly_brn_eq (readerOnly_evaluate ..)
@[simp] theorem evaluate_wt (m : Main) : (evaluate m).wt = m.wt := readerOnly_wt_eq (readerOnly_evaluate ..)
@[simp] theorem evaluate_tgt (m : Main) : (evaluate m).tgt = m.tgt := readerOnly_tgt_eq (readerOnly_evaluate ..)
@[simp] theorem evaluate_rad (m : Main) : (evaluate m).rad = m.rad := readerOnly_rad_eq (readerOnly_evaluate ..)
@[simp] theorem evaluate_pts (m : Main) : (evaluate m).pts = m.pts := readerOnly_pts_eq (readerOnly_evaluate ..)
@[simp] theorem evaluate_dict (m : Main) : (evaluate m).dict = m.dict := readerOnly_dict_eq (readerOnly_evaluate ..)
@[simp] theorem evaluate_cfg (m : Main) : (evaluate m).cfg = m.cfg := readerOnly_cfg_eq (readerOnly_evaluate ..)
@[simp] theorem evaluate_spi (m : Main) : (evaluate m).spi = m.spi := readerOnly_spi_eq (readerOnly_evaluate ..)
@[simp] theorem evaluate_can (m : Main) : (evaluate m).can = m.can := readerOnly_can_eq (readerOnly_evaluate ..)
@[simp] theorem evaluate_gpio (m : Main) : (evaluate m).gpio = m.gpio := readerOnly_gpio_eq (readerOnly_evaluate ..)
@[simp] theorem evaluate_mode (m : Main) : (evaluate m).pw.mode = m.pw.mode := readerOnly_mode_eq (readerOnly_evaluate ..)

@[simp] theorem fieldOff_now (m : Main) (k : Fin 16) : (fieldOff m k).now = m.now := readerOnly_now_eq (readerOnly_fieldOff ..)
@[simp] theorem fieldOff_freeCtr (m : Main) (k : Fin 16) : (fieldOff m k).freeCtr = m.freeCtr := readerOnly_freeCtr_eq (readerOnly_fieldOff ..)
@[simp] theorem fieldOff_ph (m : Main) (k : Fin 16) : (fieldOff m k).ph = m.ph := readerOnly_ph_eq (readerOnly_fieldOff ..)
@[simp] theorem fieldOff_plan (m : Main) (k : Fin 16) : (fieldOff m k).plan = m.plan := readerOnly_plan_eq (readerOnly_fieldOff ..)
@[simp] theorem fieldOff_brn (m : Main) (k : Fin 16) : (fieldOff m k).brn = m.brn := readerOnly_brn_eq (readerOnly_fieldOff ..)
@[simp] theorem fieldOff_wt (m : Main) (k : Fin 16) : (fieldOff m k).wt = m.wt := readerOnly_wt_eq (readerOnly_fieldOff ..)
@[simp] theorem fieldOff_tgt (m : Main) (k : Fin 16) : (fieldOff m k).tgt = m.tgt := readerOnly_tgt_eq (readerOnly_fieldOff ..)
@[simp] theorem fieldOff_rad (m : Main) (k : Fin 16) : (fieldOff m k).rad = m.rad := readerOnly_rad_eq (readerOnly_fieldOff ..)
@[simp] theorem fieldOff_pts (m : Main) (k : Fin 16) : (fieldOff m k).pts = m.pts := readerOnly_pts_eq (readerOnly_fieldOff ..)
@[simp] theorem fieldOff_dict (m : Main) (k : Fin 16) : (fieldOff m k).dict = m.dict := readerOnly_dict_eq (readerOnly_fieldOff ..)
@[simp] theorem fieldOff_cfg (m : Main) (k : Fin 16) : (fieldOff m k).cfg = m.cfg := readerOnly_cfg_eq (readerOnly_fieldOff ..)
@[simp] theorem fieldOff_spi (m : Main) (k : Fin 16) : (fieldOff m k).spi = m.spi := readerOnly_spi_eq (readerOnly_fieldOff ..)
@[simp] theorem fieldOff_can (m : Main) (k : Fin 16) : (fieldOff m k).can = m.can := readerOnly_can_eq (readerOnly_fieldOff ..)
@[simp] theorem fieldOff_gpio (m : Main) (k : Fin 16) : (fieldOff m k).gpio = m.gpio := readerOnly_gpio_eq (readerOnly_fieldOff ..)
@[simp] theorem fieldOff_mode (m : Main) (k : Fin 16) : (fieldOff m k).pw.mode = m.pw.mode := readerOnly_mode_eq (readerOnly_fieldOff ..)

@[simp] theorem endStitch_now (m : Main) (e : Fin 24) (c : Fin 2) (status detail : Nat) (part : Bool) (body : List Word) : (endStitch m e c status detail part body).now = m.now := readerOnly_now_eq (readerOnly_endStitch ..)
@[simp] theorem endStitch_freeCtr (m : Main) (e : Fin 24) (c : Fin 2) (status detail : Nat) (part : Bool) (body : List Word) : (endStitch m e c status detail part body).freeCtr = m.freeCtr := readerOnly_freeCtr_eq (readerOnly_endStitch ..)
@[simp] theorem endStitch_ph (m : Main) (e : Fin 24) (c : Fin 2) (status detail : Nat) (part : Bool) (body : List Word) : (endStitch m e c status detail part body).ph = m.ph := readerOnly_ph_eq (readerOnly_endStitch ..)
@[simp] theorem endStitch_plan (m : Main) (e : Fin 24) (c : Fin 2) (status detail : Nat) (part : Bool) (body : List Word) : (endStitch m e c status detail part body).plan = m.plan := readerOnly_plan_eq (readerOnly_endStitch ..)
@[simp] theorem endStitch_brn (m : Main) (e : Fin 24) (c : Fin 2) (status detail : Nat) (part : Bool) (body : List Word) : (endStitch m e c status detail part body).brn = m.brn := readerOnly_brn_eq (readerOnly_endStitch ..)
@[simp] theorem endStitch_wt (m : Main) (e : Fin 24) (c : Fin 2) (status detail : Nat) (part : Bool) (body : List Word) : (endStitch m e c status detail part body).wt = m.wt := readerOnly_wt_eq (readerOnly_endStitch ..)
@[simp] theorem endStitch_tgt (m : Main) (e : Fin 24) (c : Fin 2) (status detail : Nat) (part : Bool) (body : List Word) : (endStitch m e c status detail part body).tgt = m.tgt := readerOnly_tgt_eq (readerOnly_endStitch ..)
@[simp] theorem endStitch_rad (m : Main) (e : Fin 24) (c : Fin 2) (status detail : Nat) (part : Bool) (body : List Word) : (endStitch m e c status detail part body).rad = m.rad := readerOnly_rad_eq (readerOnly_endStitch ..)
@[simp] theorem endStitch_pts (m : Main) (e : Fin 24) (c : Fin 2) (status detail : Nat) (part : Bool) (body : List Word) : (endStitch m e c status detail part body).pts = m.pts := readerOnly_pts_eq (readerOnly_endStitch ..)
@[simp] theorem endStitch_dict (m : Main) (e : Fin 24) (c : Fin 2) (status detail : Nat) (part : Bool) (body : List Word) : (endStitch m e c status detail part body).dict = m.dict := readerOnly_dict_eq (readerOnly_endStitch ..)
@[simp] theorem endStitch_cfg (m : Main) (e : Fin 24) (c : Fin 2) (status detail : Nat) (part : Bool) (body : List Word) : (endStitch m e c status detail part body).cfg = m.cfg := readerOnly_cfg_eq (readerOnly_endStitch ..)
@[simp] theorem endStitch_spi (m : Main) (e : Fin 24) (c : Fin 2) (status detail : Nat) (part : Bool) (body : List Word) : (endStitch m e c status detail part body).spi = m.spi := readerOnly_spi_eq (readerOnly_endStitch ..)
@[simp] theorem endStitch_can (m : Main) (e : Fin 24) (c : Fin 2) (status detail : Nat) (part : Bool) (body : List Word) : (endStitch m e c status detail part body).can = m.can := readerOnly_can_eq (readerOnly_endStitch ..)
@[simp] theorem endStitch_gpio (m : Main) (e : Fin 24) (c : Fin 2) (status detail : Nat) (part : Bool) (body : List Word) : (endStitch m e c status detail part body).gpio = m.gpio := readerOnly_gpio_eq (readerOnly_endStitch ..)
@[simp] theorem endStitch_mode (m : Main) (e : Fin 24) (c : Fin 2) (status detail : Nat) (part : Bool) (body : List Word) : (endStitch m e c status detail part body).pw.mode = m.pw.mode := readerOnly_mode_eq (readerOnly_endStitch ..)

@[simp] theorem abortStitch_now (m : Main) (e : Fin 24) (c : Fin 2) (detail : Nat) : (abortStitch m e c detail).now = m.now := readerOnly_now_eq (readerOnly_abortStitch ..)
@[simp] theorem abortStitch_freeCtr (m : Main) (e : Fin 24) (c : Fin 2) (detail : Nat) : (abortStitch m e c detail).freeCtr = m.freeCtr := readerOnly_freeCtr_eq (readerOnly_abortStitch ..)
@[simp] theorem abortStitch_ph (m : Main) (e : Fin 24) (c : Fin 2) (detail : Nat) : (abortStitch m e c detail).ph = m.ph := readerOnly_ph_eq (readerOnly_abortStitch ..)
@[simp] theorem abortStitch_plan (m : Main) (e : Fin 24) (c : Fin 2) (detail : Nat) : (abortStitch m e c detail).plan = m.plan := readerOnly_plan_eq (readerOnly_abortStitch ..)
@[simp] theorem abortStitch_brn (m : Main) (e : Fin 24) (c : Fin 2) (detail : Nat) : (abortStitch m e c detail).brn = m.brn := readerOnly_brn_eq (readerOnly_abortStitch ..)
@[simp] theorem abortStitch_wt (m : Main) (e : Fin 24) (c : Fin 2) (detail : Nat) : (abortStitch m e c detail).wt = m.wt := readerOnly_wt_eq (readerOnly_abortStitch ..)
@[simp] theorem abortStitch_tgt (m : Main) (e : Fin 24) (c : Fin 2) (detail : Nat) : (abortStitch m e c detail).tgt = m.tgt := readerOnly_tgt_eq (readerOnly_abortStitch ..)
@[simp] theorem abortStitch_rad (m : Main) (e : Fin 24) (c : Fin 2) (detail : Nat) : (abortStitch m e c detail).rad = m.rad := readerOnly_rad_eq (readerOnly_abortStitch ..)
@[simp] theorem abortStitch_pts (m : Main) (e : Fin 24) (c : Fin 2) (detail : Nat) : (abortStitch m e c detail).pts = m.pts := readerOnly_pts_eq (readerOnly_abortStitch ..)
@[simp] theorem abortStitch_dict (m : Main) (e : Fin 24) (c : Fin 2) (detail : Nat) : (abortStitch m e c detail).dict = m.dict := readerOnly_dict_eq (readerOnly_abortStitch ..)
@[simp] theorem abortStitch_cfg (m : Main) (e : Fin 24) (c : Fin 2) (detail : Nat) : (abortStitch m e c detail).cfg = m.cfg := readerOnly_cfg_eq (readerOnly_abortStitch ..)
@[simp] theorem abortStitch_spi (m : Main) (e : Fin 24) (c : Fin 2) (detail : Nat) : (abortStitch m e c detail).spi = m.spi := readerOnly_spi_eq (readerOnly_abortStitch ..)
@[simp] theorem abortStitch_can (m : Main) (e : Fin 24) (c : Fin 2) (detail : Nat) : (abortStitch m e c detail).can = m.can := readerOnly_can_eq (readerOnly_abortStitch ..)
@[simp] theorem abortStitch_gpio (m : Main) (e : Fin 24) (c : Fin 2) (detail : Nat) : (abortStitch m e c detail).gpio = m.gpio := readerOnly_gpio_eq (readerOnly_abortStitch ..)
@[simp] theorem abortStitch_mode (m : Main) (e : Fin 24) (c : Fin 2) (detail : Nat) : (abortStitch m e c detail).pw.mode = m.pw.mode := readerOnly_mode_eq (readerOnly_abortStitch ..)

end Sys2Proof.Machine
end

