-- ==== Sys2Proof/Laws/Fields.lean ====
section
/-!
SUPPORT. Laws/Fields.lean: a core without a field stays without one under every operation that grants none, and the end of all fields leaves
none.
-/

namespace Sys2Proof.Machine

/-- A core without a field in the one has none in the other. -/
structure fieldsShrink (a b : Main) : Prop where
  keep : ∀ k : Fin 16, (a.cores[k]).fld = none → (b.cores[k]).fld = none

theorem fieldsShrink_refl (a : Main) : fieldsShrink a a := ⟨fun _ h => h⟩

theorem fieldsShrink_trans {a b c : Main} (h : fieldsShrink a b) (g : fieldsShrink b c) : fieldsShrink a c :=
  ⟨fun k x => g.keep k (h.keep k x)⟩

theorem fieldsShrink_of_cores {a b : Main} (h : b.cores = a.cores) : fieldsShrink a b := ⟨fun k x => by rw [h]; exact x⟩

theorem fieldsShrink_of_pool {a b : Main} (h : poolOnly a b) : fieldsShrink a b := fieldsShrink_of_cores (poolOnly_cores_eq h)

theorem noFields_of_shrink {a b : Main} (h : fieldsShrink a b) (g : noFields a) : noFields b := fun k => h.keep k (g k)

/-- An update of one core that keeps it without a field. -/
theorem fieldsShrink_modCore (m : Main) (k : Fin 16) (f : Core → Core) (h : ∀ c, c.fld = none → (f c).fld = none) :
    fieldsShrink m (modCore m k f) := by
  constructor
  intro j x
  simp only [modCore, updV]
  by_cases e : k = j
  · subst e; simpa using h _ x
  · have : (k : Nat) ≠ j := fun q => e (Fin.ext q)
    simpa [Vector.getElem_set, this] using x

theorem fieldsShrink_forEach {α : Type} (l : List α) (m : Main) (f : Main → α → Main) (h : ∀ x a, fieldsShrink x (f x a)) :
    fieldsShrink m (forEach l m f) := by
  unfold forEach
  induction l generalizing m with
  | nil => exact fieldsShrink_refl _
  | cons a rest ih => exact fieldsShrink_trans (h m a) (ih (f m a))

theorem fieldsShrink_countN (m : Main) (idx sub n : Nat) : fieldsShrink m (countN m idx sub n) :=
  fieldsShrink_of_pool (poolOnly_countN m idx sub n)
theorem fieldsShrink_count (m : Main) (idx sub : Nat) : fieldsShrink m (count m idx sub) := fieldsShrink_of_pool (poolOnly_count m idx sub)
theorem fieldsShrink_countIf (b : Bool) (m : Main) (idx sub : Nat) : fieldsShrink m (countIf b m idx sub) :=
  fieldsShrink_of_pool (poolOnly_countIf b m idx sub)
theorem fieldsShrink_journal (m : Main) (src code : Nat) (args : List Nat) : fieldsShrink m (journal m src code args) :=
  fieldsShrink_of_pool (poolOnly_journal m src code args)
theorem fieldsShrink_stallPkt (m : Main) (q : Fin 32) (type source : Nat) (ws : List Word) :
    fieldsShrink m (stallPkt m q type source ws).1 := fieldsShrink_of_pool (poolOnly_stallPkt m q type source ws)
theorem fieldsShrink_modCtx (m : Main) (e : Fin 24) (c : Fin 2) (f : Ctx → Ctx) : fieldsShrink m (modCtx m e c f) :=
  fieldsShrink_of_cores rfl
theorem fieldsShrink_modEng (m : Main) (e : Fin 24) (f : Engine → Engine) : fieldsShrink m (modEng m e f) := fieldsShrink_of_cores rfl
theorem fieldsShrink_modQ (m : Main) (q : Fin 32) (f : Queue → Queue) : fieldsShrink m (modQ m q f) := fieldsShrink_of_cores rfl
theorem fieldsShrink_modBrn (m : Main) (f : Burnish → Burnish) : fieldsShrink m (modBrn m f) := fieldsShrink_of_cores rfl
theorem fieldsShrink_modRad (m : Main) (f : Radio → Radio) : fieldsShrink m (modRad m f) := fieldsShrink_of_cores rfl
theorem fieldsShrink_modPw (m : Main) (f : Power → Power) : fieldsShrink m (modPw m f) := fieldsShrink_of_cores rfl
theorem fieldsShrink_disp (m : Main) (x : Disp) : fieldsShrink m { m with disp := x } := fieldsShrink_of_cores rfl
theorem fieldsShrink_sv (m : Main) (x : Survey) : fieldsShrink m { m with sv := x } := fieldsShrink_of_cores rfl
theorem fieldsShrink_sch (m : Main) (x : Sched) : fieldsShrink m { m with sch := x } := fieldsShrink_of_cores rfl
theorem fieldsShrink_withdraw (m : Main) (w : Owner) : fieldsShrink m (withdraw m w) := fieldsShrink_of_cores rfl

theorem linkSend_cores (m : Main) (l : LaceLink) (w0 eseq : Nat) (payload : List Word) : (linkSend m l w0 eseq payload).cores = m.cores := by
  unfold linkSend; cases l <;> simp

@[simp] theorem laceSend_cores (m : Main) (type : Nat) (dst : Option (Fin 4)) (payload : List Word) :
    (laceSend m type dst payload).cores = m.cores := by
  unfold laceSend
  dsimp only
  split
  · rfl
  · split
    · rfl
    · split <;> simp [linkSend_cores]

@[simp] theorem sendField_cores (m : Main) (p : Fin 128) (isOn : Bool) (f : FieldRec) : (sendField m p isOn f).cores = m.cores := by
  unfold sendField; split <;> simp

@[simp] theorem dropSession_cores (m : Main) (p : Fin 128) : (dropSession m p).cores = m.cores := by
  unfold dropSession; split <;> simp

theorem fieldsShrink_loadDac (m : Main) (k : Fin 16) : fieldsShrink m (loadDac m k) := by
  unfold loadDac
  split
  · dsimp only
    refine fieldsShrink_trans (fieldsShrink_countN ..) (fieldsShrink_modCore _ _ _ fun c h => ?_)
    split
    · exact h
    · exact h
  · exact fieldsShrink_refl _

theorem fieldsShrink_loadCoupled (m : Main) (v : FV) : fieldsShrink m (loadCoupled m v) := by
  unfold loadCoupled
  refine fieldsShrink_forEach _ _ _ fun x k => ?_
  split
  · split
    · exact fieldsShrink_loadDac ..
    · exact fieldsShrink_refl _
  · exact fieldsShrink_refl _

theorem fieldsShrink_accrue (m : Main) : fieldsShrink m (accrue m) := fieldsShrink_of_cores rfl
theorem fieldsShrink_modPort (m : Main) (p : Fin 128) (f : Port → Port) : fieldsShrink m (modPort m p f) := fieldsShrink_of_cores rfl
theorem fieldsShrink_dropSession (m : Main) (p : Fin 128) : fieldsShrink m (dropSession m p) := fieldsShrink_of_cores (by simp)
theorem fieldsShrink_sendField (m : Main) (p : Fin 128) (isOn : Bool) (f : FieldRec) : fieldsShrink m (sendField m p isOn f) :=
  fieldsShrink_of_cores (by simp)

@[simp] theorem reachPort_cores (m : Main) (p : Fin 128) : (reachPort m p).cores = m.cores := by
  unfold reachPort
  dsimp only
  split
  · split <;> rfl
  · split <;> rfl

theorem fieldsShrink_endField (m : Main) (k : Fin 16) : fieldsShrink m (endField m k) := by
  unfold endField
  split
  · dsimp only
    refine fieldsShrink_trans ?_ (fieldsShrink_loadCoupled ..)
    have h (x : Main) (f : Core → Core) (g : Port → Port) (p : Fin 128) (hf : ∀ c, (f c).fld = none) :
        fieldsShrink x (dropSession (reachPort (modPort (modCore x k f) p g) p) p) :=
      fieldsShrink_trans (fieldsShrink_modCore x k f fun c _ => hf c) (fieldsShrink_of_cores (by simp))
    split
    · exact fieldsShrink_trans (fieldsShrink_trans (fieldsShrink_accrue m) (h _ _ _ _ fun _ => rfl)) (fieldsShrink_sendField ..)
    · exact fieldsShrink_trans (fieldsShrink_accrue m) (h _ _ _ _ fun _ => rfl)
  · exact fieldsShrink_refl _

/-- A field that ends is gone. -/
theorem endField_fld (m : Main) (k : Fin 16) : ((endField m k).cores[k]).fld = none := by
  unfold endField
  split
  · dsimp only
    apply (fieldsShrink_loadCoupled _ _).keep
    split <;> simp [modCore, updV]
  · rename_i h
    cases g : (m.cores[k]).fld with
    | none => rfl
    | some f => exact (h _ f (by simp only [fieldView, g, Option.map_some]; rfl) g).elim

/-- No field is left when every field has been ended. -/
theorem noFields_allFieldsOff (m : Main) : noFields (allFieldsOff m) := by
  have aux : ∀ (l : List (Fin 16)) (x : Main) (k : Fin 16), k ∈ l → ((forEach l x endField).cores[k]).fld = none := by
    intro l
    induction l with
    | nil => intro x k h; cases h
    | cons a rest ih =>
      intro x k h
      rcases List.mem_cons.mp h with e | e
      · subst e
        rw [forEach_cons]
        exact fieldsShrink_forEach rest (endField x k) endField fieldsShrink_endField |>.keep k (endField_fld x k)
      · rw [forEach_cons]
        exact ih (endField x a) k e
  intro k
  exact aux _ m k (List.mem_finRange k)

theorem fieldsShrink_countStatus (m : Main) (status : Nat) : fieldsShrink m (countStatus m status) := by
  unfold countStatus
  exact fieldsShrink_trans (fieldsShrink_countIf ..) (fieldsShrink_countIf ..)

theorem fieldsShrink_closeResult (m : Main) (e : Fin 24) (c : Fin 2) : fieldsShrink m (closeResult m e c) := by
  unfold closeResult
  dsimp only
  apply fieldsShrink_of_cores
  split <;> rfl

theorem fieldsShrink_writeResult (m : Main) (e : Fin 24) (c : Fin 2) (status detail : Nat) (part : Bool) (body : List Word) :
    fieldsShrink m (writeResult m e c status detail part body) := by
  unfold writeResult
  split
  · exact fieldsShrink_modCtx ..
  · dsimp only
    split
    · exact fieldsShrink_trans (fieldsShrink_trans (fieldsShrink_countStatus ..) (fieldsShrink_stallPkt ..)) (fieldsShrink_closeResult ..)
    · exact fieldsShrink_trans (fieldsShrink_trans (fieldsShrink_trans (fieldsShrink_countStatus ..) (fieldsShrink_stallPkt ..))
        (fieldsShrink_count ..)) (fieldsShrink_modCtx ..)

theorem fieldsShrink_dispResult (m : Main) (j : Job) (engine ctx : Nat) (core : Option (Fin 16)) (status detail : Nat) :
    fieldsShrink m (dispResult m j engine ctx core status detail) := by
  unfold dispResult
  dsimp only
  split
  · exact fieldsShrink_trans (fieldsShrink_trans (fieldsShrink_countStatus ..) (fieldsShrink_stallPkt ..)) (fieldsShrink_modQ ..)
  · exact fieldsShrink_trans (fieldsShrink_trans (fieldsShrink_countStatus ..) (fieldsShrink_stallPkt ..)) (fieldsShrink_disp ..)

theorem fieldsShrink_updateReach (m : Main) : fieldsShrink m (updateReach m) :=
  fieldsShrink_forEach _ _ _ fun x p => fieldsShrink_of_cores (by simp)

theorem fieldsShrink_orderOff (m : Main) (k : Fin 16) : fieldsShrink m (orderOff m k) := by
  unfold orderOff
  refine fieldsShrink_modCore _ _ _ fun c h => ?_
  simp [h]

theorem fieldsShrink_endIdleFields (m : Main) : fieldsShrink m (endIdleFields m) := by
  unfold endIdleFields
  refine fieldsShrink_forEach _ _ _ fun x k => ?_
  split
  · split
    · exact fieldsShrink_trans (fieldsShrink_orderOff ..) (fieldsShrink_dropSession ..)
    · exact fieldsShrink_refl _
  · exact fieldsShrink_refl _

theorem fieldsShrink_restPorts (m : Main) : fieldsShrink m (restPorts m) := by
  unfold restPorts
  refine fieldsShrink_forEach _ _ _ fun x p => fieldsShrink_of_cores ?_
  dsimp only
  split <;> rfl

theorem fieldsShrink_coreRest (m : Main) (k : Fin 16) : fieldsShrink m (coreRest m k) := by
  have h := fieldsShrink_trans (fieldsShrink_endIdleFields m) (fieldsShrink_restPorts _)
  unfold coreRest
  generalize restPorts (endIdleFields m) = w at h
  dsimp only
  split
  · refine fieldsShrink_trans ?_ (fieldsShrink_updateReach _)
    exact fieldsShrink_trans h (fieldsShrink_modCore _ _ _ fun _ x => x)
  · exact h

theorem fieldsShrink_abortStitch (m : Main) (e : Fin 24) (c : Fin 2) (detail : Nat) : fieldsShrink m (abortStitch m e c detail) := by
  unfold abortStitch
  have h := fieldsShrink_withdraw m (.ctx e c)
  generalize withdraw m (.ctx e c) = w at h
  have g (x : Main) : fieldsShrink x (abortCtx x e c detail) := by
    unfold abortCtx
    dsimp only
    split
    · exact fieldsShrink_refl _
    · exact fieldsShrink_writeResult ..
  dsimp only
  cases (ctxOf w e c).core with
  | none => exact fieldsShrink_trans h (g _)
  | some k =>
    dsimp only
    split
    · exact fieldsShrink_trans (fieldsShrink_trans (fieldsShrink_trans h (fieldsShrink_orderOff ..)) (g _)) (fieldsShrink_coreRest ..)
    · exact fieldsShrink_trans (fieldsShrink_trans h (g _)) (fieldsShrink_coreRest ..)

theorem fieldsShrink_abortStarted (m : Main) (detail : Nat) : fieldsShrink m (abortStarted m detail) := by
  unfold abortStarted
  refine fieldsShrink_forEach _ _ _ fun x a => ?_
  dsimp only
  split
  · exact fieldsShrink_abortStitch ..
  · exact fieldsShrink_refl _

theorem fieldsShrink_abortWaiting (m : Main) (detail : Nat) : fieldsShrink m (abortWaiting m detail) := by
  unfold abortWaiting
  refine fieldsShrink_forEach _ _ _ fun x a => ?_
  dsimp only
  split
  · exact fieldsShrink_trans (fieldsShrink_trans (fieldsShrink_withdraw ..) (fieldsShrink_modCtx ..)) (fieldsShrink_dispResult ..)
  · exact fieldsShrink_refl _

theorem fieldsShrink_modSv (m : Main) (f : Survey → Survey) : fieldsShrink m (modSv m f) := fieldsShrink_of_cores rfl

theorem fieldsShrink_endPass (m : Main) (b : Bool) : fieldsShrink m (endPass m b) := by
  unfold endPass
  dsimp only
  exact fieldsShrink_trans (fieldsShrink_trans (fieldsShrink_trans (fieldsShrink_trans (fieldsShrink_count ..) (fieldsShrink_countIf ..))
    (fieldsShrink_modSv ..)) (fieldsShrink_stallPkt ..)) (fieldsShrink_sv ..)

theorem fieldsShrink_cutPass (m : Main) : fieldsShrink m (cutPass m) := by
  unfold cutPass
  dsimp only
  have h (g : Main → Fin 16 → Lane → Lane) (y : Main → Sched) (v : Survey → Survey) :
      fieldsShrink m (let x := forEach (allFin 16) m fun m k => modLane m k (g m k); modSv { x with sch := y x } v) :=
    fieldsShrink_trans (fieldsShrink_forEach (allFin 16) m (fun m k => modLane m k (g m k)) fun _ _ => fieldsShrink_of_cores rfl)
      (fieldsShrink_of_cores rfl)
  split
  · exact fieldsShrink_trans (h _ (fun _ => _) _) (fieldsShrink_endPass ..)
  · exact h _ (fun _ => _) _

theorem fieldsShrink_discardBurnish (m : Main) : fieldsShrink m (discardBurnish m) := by
  unfold discardBurnish
  dsimp only
  refine fieldsShrink_trans (fieldsShrink_trans (fieldsShrink_modBrn ..) (fieldsShrink_withdraw ..)) (fieldsShrink_forEach _ _ _ fun x k => ?_)
  split
  · exact fieldsShrink_orderOff ..
  · exact fieldsShrink_refl _

theorem fieldsShrink_abandonFull (m : Main) : fieldsShrink m (abandonFull m) := by
  unfold abandonFull
  split
  · dsimp only
    exact fieldsShrink_trans (fieldsShrink_trans (fieldsShrink_trans (fieldsShrink_modBrn ..) (fieldsShrink_discardBurnish _))
      (fieldsShrink_count ..)) (fieldsShrink_journal ..)
  · exact fieldsShrink_refl _

@[simp] theorem demodFree_cores (m : Main) (d : Fin 8) : (demodFree m d).cores = m.cores := by
  unfold demodFree
  dsimp only
  split
  · simp [withdrawPkt, poolOnly_cores_eq (poolOnly_sinkPkt _ _ _)]
  · rfl

theorem fieldsShrink_dropReceptions (m : Main) (counted : Bool) : fieldsShrink m (dropReceptions m counted) := by
  unfold dropReceptions
  dsimp only
  refine fieldsShrink_trans (fieldsShrink_forEach (allFin 8) m _ fun x d => ?_) (fieldsShrink_modRad ..)
  split
  · exact fieldsShrink_refl _
  · exact fieldsShrink_of_cores (by simp)

end Sys2Proof.Machine
end

