-- ==== Sys2Proof/Laws/Modes.lean ====
section
/-!
SUPPORT. Laws/Modes.lean: what a change of mode, an entry to HOLD and a unit fault do and leave alone.
-/

namespace Sys2Proof.Machine

theorem poolOnly_sendHeartbeat (m : Main) (lease : Bool) : poolOnly m (sendHeartbeat m lease) := by
  unfold sendHeartbeat
  split
  · exact poolOnly_refl _
  · dsimp only
    split
    · exact poolOnly_trans (poolOnly_offerPkt ..) (poolOnly_offerPkt ..)
    · exact poolOnly_offerPkt ..

/-- All that a change of mode does: the mode, its count, and what is told of it. -/
theorem poolOnly_setMode (m : Main) (dst : Mode) (trig : Nat) :
    poolOnly (modPw m fun p => { p with mode := dst, pendMode := none, transitions := sat32 (p.transitions + 1) }) (setMode m dst trig) := by
  unfold setMode
  exact poolOnly_trans (poolOnly_journal ..) (poolOnly_sendHeartbeat ..)

@[simp] theorem setMode_pw (m : Main) (dst : Mode) (trig : Nat) :
    (setMode m dst trig).pw = { m.pw with mode := dst, pendMode := none, transitions := sat32 (m.pw.transitions + 1) } :=
  poolOnly_pw_eq (poolOnly_setMode m dst trig)

theorem setMode_cores (m : Main) (dst : Mode) (trig : Nat) : (setMode m dst trig).cores = m.cores := by
  rw [poolOnly_cores_eq (poolOnly_setMode m dst trig)]; rfl

theorem holdOnly_refl (a : Main) : holdOnly a a := rfl

theorem holdOnly_trans {a b c : Main} (h : holdOnly a b) (g : holdOnly b c) : holdOnly a c := by
  unfold holdOnly at *
  rw [g, h]

theorem holdOnly_of_reader {a b : Main} (h : readerOnly a b) : holdOnly a b := by
  unfold holdOnly; rw [h]

theorem holdOnly_of_pool {a b : Main} (h : poolOnly a b) : holdOnly a b := holdOnly_of_reader (readerOnly_of_pool h)

theorem holdOnly_modBrn (m : Main) (f : Burnish → Burnish) : holdOnly m (modBrn m f) := rfl
theorem holdOnly_modRad (m : Main) (f : Radio → Radio) : holdOnly m (modRad m f) := rfl
theorem holdOnly_withdraw (m : Main) (w : Owner) : holdOnly m (withdraw m w) := rfl
theorem holdOnly_sch (m : Main) (x : Sched) : holdOnly m { m with sch := x } := rfl
theorem holdOnly_holdCause (m : Main) (c : Nat) : holdOnly m (modPw m fun p => { p with holdCause := c }) := rfl
theorem holdOnly_modeSet (m : Main) (dst : Mode) :
    holdOnly m (modPw m fun p => { p with mode := dst, pendMode := none, transitions := sat32 (p.transitions + 1) }) := rfl
theorem holdOnly_count (m : Main) (idx sub : Nat) : holdOnly m (count m idx sub) := holdOnly_of_pool (poolOnly_count m idx sub)
theorem holdOnly_countIf (b : Bool) (m : Main) (idx sub : Nat) : holdOnly m (countIf b m idx sub) :=
  holdOnly_of_pool (poolOnly_countIf b m idx sub)
theorem holdOnly_journal (m : Main) (src code : Nat) (args : List Nat) : holdOnly m (journal m src code args) :=
  holdOnly_of_pool (poolOnly_journal m src code args)
theorem holdOnly_modFlt (m : Main) (f : Faults → Faults) : holdOnly m (modFlt m f) := rfl
theorem holdOnly_modCore (m : Main) (k : Fin 16) (f : Core → Core) : holdOnly m (modCore m k f) := rfl
theorem holdOnly_modLane (m : Main) (k : Fin 16) (f : Lane → Lane) : holdOnly m (modLane m k f) := rfl
theorem holdOnly_modDemod (m : Main) (d : Fin 8) (f : Demod → Demod) : holdOnly m (modDemod m d f) := rfl

theorem holdOnly_forEach {α : Type} (l : List α) (m : Main) (f : Main → α → Main) (h : ∀ x a, holdOnly x (f x a)) :
    holdOnly m (forEach l m f) := by
  unfold forEach
  induction l generalizing m with
  | nil => rfl
  | cons a rest ih => exact holdOnly_trans (h m a) (ih (f m a))

theorem holdOnly_setMode (m : Main) (dst : Mode) (trig : Nat) : holdOnly m (setMode m dst trig) :=
  holdOnly_trans (holdOnly_modeSet m dst) (holdOnly_of_pool (poolOnly_setMode m dst trig))

theorem holdOnly_discardBurnish (m : Main) : holdOnly m (discardBurnish m) := by
  unfold discardBurnish
  dsimp only
  refine holdOnly_trans (holdOnly_trans (holdOnly_modBrn ..) (holdOnly_withdraw ..)) (holdOnly_forEach _ _ _ fun x k => ?_)
  split <;> rfl

theorem holdOnly_abandonFull (m : Main) : holdOnly m (abandonFull m) := by
  unfold abandonFull
  split
  · dsimp only
    exact holdOnly_trans (holdOnly_trans (holdOnly_trans (holdOnly_modBrn ..) (holdOnly_discardBurnish ..)) (holdOnly_count ..))
      (holdOnly_journal ..)
  · rfl

theorem holdOnly_demodFree (m : Main) (d : Fin 8) : holdOnly m (demodFree m d) := by
  unfold demodFree
  dsimp only
  split
  · exact holdOnly_trans (holdOnly_of_pool (poolOnly_trans (poolOnly_sinkPkt ..) (poolOnly_closePkt ..))) (holdOnly_modDemod ..)
  · rfl

theorem holdOnly_dropReceptions (m : Main) (counted : Bool) : holdOnly m (dropReceptions m counted) := by
  unfold dropReceptions
  dsimp only
  refine holdOnly_trans (holdOnly_forEach _ _ _ fun x d => ?_) (holdOnly_modRad ..)
  split
  · rfl
  · exact holdOnly_trans (holdOnly_countIf ..) (holdOnly_demodFree ..)

theorem demodFree_tx (m : Main) (d : Fin 8) : (demodFree m d).rad.tx = m.rad.tx := by
  unfold demodFree
  dsimp only
  split
  · rename_i x _
    have h : (withdrawPkt m x.1 x.2).rad = m.rad := poolOnly_rad_eq (poolOnly_trans (poolOnly_sinkPkt ..) (poolOnly_closePkt ..))
    show (withdrawPkt m x.1 x.2).rad.tx = m.rad.tx
    rw [h]
  · rfl

/-- The transmitter goes on as it was when receptions are abandoned. -/
theorem dropReceptions_tx (m : Main) (counted : Bool) : (dropReceptions m counted).rad.tx = m.rad.tx := by
  unfold dropReceptions
  have aux : ∀ (l : List (Fin 8)) (x : Main),
      (forEach l x fun m d => if (m.rad.demods[d]).st = 0 then m else demodFree (countIf counted m 0x70E0 0x0A) d).rad.tx = x.rad.tx := by
    intro l
    induction l with
    | nil => intro x; rw [forEach_nil]
    | cons d rest ih =>
      intro x
      rw [forEach_cons, ih]
      split
      · rfl
      · rw [demodFree_tx]; simp
  exact aux _ m

theorem holdOnly_allFieldsOff (m : Main) : holdOnly m (allFieldsOff m) := holdOnly_of_reader (readerOnly_allFieldsOff m)
theorem holdOnly_abortStarted (m : Main) (detail : Nat) : holdOnly m (abortStarted m detail) :=
  holdOnly_of_reader (readerOnly_abortStarted m detail)
theorem holdOnly_abortWaiting (m : Main) (detail : Nat) : holdOnly m (abortWaiting m detail) :=
  holdOnly_of_reader (readerOnly_abortWaiting m detail)
theorem holdOnly_cutPass (m : Main) : holdOnly m (cutPass m) := holdOnly_of_reader (readerOnly_cutPass m)
theorem holdOnly_evaluate (m : Main) : holdOnly m (evaluate m) := holdOnly_of_reader (readerOnly_evaluate m)

/-- Outside the main modes nothing is entered. -/
theorem enterHold_other (m : Main) (cause : Nat) (units : List Nat) (h : m.pw.mode.isMain = false) : enterHold m cause units = m := by
  simp [enterHold, h]

/-- What stands before the mode is set on the way to HOLD. -/
theorem enterHold_main (m : Main) (cause : Nat) (units : List Nat) (h : m.pw.mode.isMain = true) :
    ∃ x, holdOnly m x ∧ noFields x ∧ x.pw.holdCause = cause ∧ x.rad.tx.active = false ∧
      enterHold m cause units = setMode x .hold (if cause = 1 then 0 else 3) := by
  unfold enterHold
  simp only [h, Bool.not_true, Bool.false_eq_true, if_false]
  refine ⟨_, ?_, ?_, ?_, ?_, rfl⟩
  · exact holdOnly_trans (holdOnly_trans (holdOnly_trans (holdOnly_trans (holdOnly_trans (holdOnly_trans (holdOnly_trans (holdOnly_trans
      (holdOnly_trans (holdOnly_trans (holdOnly_trans (holdOnly_allFieldsOff m) (holdOnly_abortStarted ..)) (holdOnly_abortWaiting ..))
      (holdOnly_cutPass _)) (holdOnly_abandonFull _)) (holdOnly_discardBurnish _)) (holdOnly_modRad ..)) (holdOnly_dropReceptions ..))
      (holdOnly_sch ..)) (holdOnly_count ..)) (holdOnly_holdCause ..)) (holdOnly_journal ..)
  · refine noFields_of_shrink ?_ (noFields_allFieldsOff m)
    exact fieldsShrink_trans (fieldsShrink_trans (fieldsShrink_trans (fieldsShrink_trans (fieldsShrink_trans (fieldsShrink_trans
      (fieldsShrink_trans (fieldsShrink_trans (fieldsShrink_trans (fieldsShrink_trans (fieldsShrink_abortStarted ..) (fieldsShrink_abortWaiting ..))
      (fieldsShrink_cutPass _)) (fieldsShrink_abandonFull _)) (fieldsShrink_discardBurnish _)) (fieldsShrink_modRad ..))
      (fieldsShrink_dropReceptions ..)) (fieldsShrink_sch ..)) (fieldsShrink_count ..)) (fieldsShrink_modPw ..)) (fieldsShrink_journal ..)
  · rw [poolOnly_pw_eq (poolOnly_journal ..)]; rfl
  · rw [journal_rad]
    show (dropReceptions (txStop _) false).rad.tx.active = false
    rw [dropReceptions_tx]; rfl

/-- HOLD is entered from a main mode, with its cause, and no field is left (R33, R41, R562). -/
theorem enterHold_enters (m : Main) (cause : Nat) (units : List Nat) (h : m.pw.mode.isMain = true) :
    (enterHold m cause units).pw.mode = .hold ∧ (enterHold m cause units).pw.holdCause = cause ∧
    (enterHold m cause units).pw.pendMode = none ∧ noFields (enterHold m cause units) ∧
    (enterHold m cause units).rad.tx.active = false := by
  obtain ⟨x, -, hf, hc, ht, e⟩ := enterHold_main m cause units h
  rw [e]
  refine ⟨by simp, by simp [hc], by simp, fun k => ?_, ?_⟩
  · rw [setMode_cores]
    exact hf k
  · rw [poolOnly_rad_eq (poolOnly_setMode x .hold _)]; exact ht

/-- All that an entry to HOLD can do. -/
theorem holdOnly_enterHold (m : Main) (cause : Nat) (units : List Nat) : holdOnly m (enterHold m cause units) := by
  cases h : m.pw.mode.isMain with
  | false => rw [enterHold_other m cause units h]; rfl
  | true =>
    obtain ⟨x, hx, -, -, -, e⟩ := enterHold_main m cause units h
    rw [e]
    exact holdOnly_trans hx (holdOnly_setMode ..)

/-- All that a unit fault can do. -/
theorem holdOnly_unitFault (m : Main) (u cause : Nat) (nested out : Bool) : holdOnly m (unitFault m u cause nested out) := by
  unfold unitFault
  dsimp only
  have h : holdOnly m (journal (countIf nested (count m 0x7008 0x04) 0x7008 0x05) (unitSource u) (if nested then 0x0003 else 0x0001) [u, cause]) :=
    holdOnly_trans (holdOnly_trans (holdOnly_count ..) (holdOnly_countIf ..)) (holdOnly_journal ..)
  generalize journal (countIf nested (count m 0x7008 0x04) 0x7008 0x05) (unitSource u) (if nested then 0x0003 else 0x0001) [u, cause] = x at h ⊢
  have g := holdOnly_trans h (holdOnly_modFlt x fun f => { f with lastFault := (u, cause, f.jseq % 65536) })
  split
  · exact g
  · split
    · exact holdOnly_trans (holdOnly_trans (holdOnly_trans g (holdOnly_modFlt ..)) (holdOnly_count ..)) (holdOnly_enterHold ..)
    · exact holdOnly_trans g (holdOnly_modFlt ..)

theorem holdOnly_vitalFault (m : Main) (u cause : Nat) (nested : Bool) : holdOnly m (vitalFault m u cause nested) := by
  unfold vitalFault
  dsimp only
  split
  · exact holdOnly_trans (holdOnly_unitFault ..) (holdOnly_enterHold ..)
  · exact holdOnly_unitFault ..

theorem holdOnly_pw_eq {a b : Main} (h : holdOnly a b) :
    b.pw = { a.pw with governorHolds := b.pw.governorHolds, thermalAt := b.pw.thermalAt, mode := b.pw.mode,
                       pendMode := b.pw.pendMode, transitions := b.pw.transitions, holdCause := b.pw.holdCause } := congrArg Main.pw h

end Sys2Proof.Machine
end

