-- ==== Sys2Proof/Laws/Ledger.lean ====
section
/-!
SUPPORT. Laws/Ledger.lean: what the operations of the target front end, the ledger and its arbiter leave alone.
-/

namespace Sys2Proof.Machine

theorem ledgerMain_refl (a : Main) : ledgerMain a a := rfl

theorem ledgerMain_trans {a b c : Main} (h : ledgerMain a b) (g : ledgerMain b c) : ledgerMain a c := by
  unfold ledgerMain at *
  rw [g, h]

theorem ledgerMain_of_pool {a b : Main} (h : poolOnly a b) : ledgerMain a b := by
  unfold ledgerMain; rw [h]

theorem ledgerMain_pw_eq {a b : Main} (h : ledgerMain a b) : b.pw = a.pw := by rw [h]

theorem ledgerMain_modTgt (m : Main) (f : Target → Target) : ledgerMain m (modTgt m f) := rfl
theorem ledgerMain_modIso (m : Main) (f : IsoTarget → IsoTarget) : ledgerMain m (modIso m f) := rfl
theorem ledgerMain_modStp (m : Main) (f : StpTarget → StpTarget) : ledgerMain m (modStp m f) := rfl
theorem ledgerMain_modAuth (m : Main) (f : TgtAuth → TgtAuth) : ledgerMain m (modAuth m f) := rfl
theorem ledgerMain_modSpi (m : Main) (f : Spi → Spi) : ledgerMain m (modSpi m f) := rfl
theorem ledgerMain_draw (m : Main) : ledgerMain m (draw m).2 := rfl
theorem ledgerMain_count (m : Main) (idx sub : Nat) : ledgerMain m (count m idx sub) := ledgerMain_of_pool (poolOnly_count m idx sub)
theorem ledgerMain_countIf (b : Bool) (m : Main) (idx sub : Nat) : ledgerMain m (countIf b m idx sub) :=
  ledgerMain_of_pool (poolOnly_countIf b m idx sub)

theorem ledgerMain_countAo (m : Main) (idx sub : Nat) : ledgerMain m (countAo m idx sub) := by
  unfold countAo
  split
  · exact ledgerMain_count ..
  · exact ledgerMain_refl _

theorem ledgerMain_tgtEvent (m : Main) (ledger : Bool) (ev origin status key seq : Nat) :
    ledgerMain m (tgtEvent m ledger ev origin status key seq) := by
  unfold tgtEvent
  split
  · exact ledgerMain_refl _
  · exact ledgerMain_of_pool (poolOnly_offerPkt ..)

theorem ledgerMain_writeRefused (m : Main) (origin status : Nat) : ledgerMain m (writeRefused m origin status) := ledgerMain_tgtEvent ..

theorem poolOnly_cuFrame (m : Main) (source : Nat) (pass : Nat → Bool) (bs : List Byte) (key kind ref1 : Nat) :
    poolOnly m (cuFrame m source pass bs key kind ref1) := by
  unfold cuFrame
  split
  · exact poolOnly_refl _
  · refine poolOnly_forEach _ _ _ fun x c => ?_
    dsimp only
    split
    · exact poolOnly_refl _
    · split
      · exact poolOnly_modCu ..
      · split
        · exact poolOnly_trans (poolOnly_modCu ..) (poolOnly_settle (_, _))
        · exact poolOnly_modCu ..

theorem poolOnly_cuSpi (m : Main) (device : Bool) (bs : List Byte) (head : Nat) : poolOnly m (cuSpi m device bs head) := by
  unfold cuSpi
  split
  · exact poolOnly_refl _
  · exact poolOnly_cuFrame ..

theorem poolOnly_cuCan (m : Main) (sent : Bool) (id : Nat) (bs : List Byte) : poolOnly m (cuCan m sent id bs) := poolOnly_cuFrame ..

theorem poolOnly_cuRadio (m : Main) (sent : Bool) (slot fc ctr : Nat) (bs : List Byte) : poolOnly m (cuRadio m sent slot fc ctr bs) :=
  poolOnly_cuFrame ..

theorem ledgerMain_cuLedger (m : Main) (origin : Nat) (setting : Bool) (bs : List Byte) (ref : Nat) :
    ledgerMain m (cuLedger m origin setting bs ref) := ledgerMain_of_pool (poolOnly_cuFrame ..)

theorem ledgerMain_senseHarv (m : Main) : ledgerMain m (senseHarv m) := rfl

theorem ledgerMain_energyCheck (m : Main) (e : Nat) : ledgerMain m (energyCheck m e).2 := by
  unfold energyCheck
  split
  · dsimp only
    split
    · exact ledgerMain_senseHarv m
    · exact ledgerMain_trans (ledgerMain_senseHarv m) (ledgerMain_countAo ..)
  · exact ledgerMain_refl _

theorem ledgerOnly_refl (s : State) : ledgerOnly s s := ⟨rfl, rfl, rfl⟩

theorem ledgerOnly_trans {a b c : State} (h : ledgerOnly a b) (g : ledgerOnly b c) : ledgerOnly a c :=
  ⟨g.keys.trans h.keys, g.queue.trans h.queue, ledgerMain_trans h.main g.main⟩

/-- A change of the main part alone. -/
theorem ledgerOnly_m {s : State} {m : Main} (h : ledgerMain s.m m) : ledgerOnly s { s with m := m } := ⟨rfl, rfl, h⟩

theorem ledgerOnly_lgr (s : State) (l : Ledger) : ledgerOnly s { s with lgr := l } := ⟨rfl, rfl, rfl⟩

theorem ledgerOnly_writeAppend (s : State) (body : List Byte) : ledgerOnly s (writeAppend s body) :=
  ⟨rfl, rfl, ledgerMain_trans (ledgerMain_trans (ledgerMain_countAo ..) (ledgerMain_cuLedger ..)) (ledgerMain_tgtEvent ..)⟩

theorem ledgerOnly_writeBank (s : State) (origin : Nat) (f : Bank → Bank) : ledgerOnly s (writeBank s origin f) :=
  ⟨rfl, rfl, ledgerMain_trans (ledgerMain_trans (ledgerMain_countAo ..) (ledgerMain_cuLedger ..)) (ledgerMain_tgtEvent ..)⟩

theorem ledgerOnly_ownRecord (s : State) (type : Nat) (data : List Byte) : ledgerOnly s (ownRecord s type data).2 := by
  unfold ownRecord
  dsimp only
  split
  · exact ledgerOnly_trans (ledgerOnly_m (ledgerMain_energyCheck ..)) (ledgerOnly_writeAppend ..)
  · exact ledgerOnly_m (ledgerMain_trans (ledgerMain_energyCheck ..) (ledgerMain_writeRefused ..))

theorem ledgerMain_isoBlock (m : Main) (inf : List Byte) : ledgerMain m (isoBlock m inf) := rfl
theorem ledgerMain_apduReply (m : Main) (data : List Byte) (sw : Nat) : ledgerMain m (apduReply m data sw) := rfl
theorem ledgerMain_stpReply (m : Main) (rcode bind : Nat) (body : List Byte) : ledgerMain m (stpReply m rcode bind body) := rfl
theorem ledgerMain_i2cAnswer (m : Main) (st : LStatus) (data : List Byte) : ledgerMain m (i2cAnswer m st data) := rfl

theorem ledgerMain_wiredAnswer (m : Main) (w : Wired) (head : Nat) (st : LStatus) (data : List Byte) :
    ledgerMain m (wiredAnswer m w head st data) := by
  cases w with
  | i2c => exact ledgerMain_i2cAnswer ..
  | spi => exact ledgerMain_trans (ledgerMain_modSpi m _) (ledgerMain_of_pool (poolOnly_cuSpi ..))

/-- All that the response of an access can do. -/
theorem ledgerOnly_lRespond (s : State) (a : LAccess) (st : LStatus) (seq : Nat) : ledgerOnly s (lRespond s a st seq) := by
  unfold lRespond
  dsimp only
  split
  · split
    · exact ledgerOnly_m (ledgerMain_apduReply ..)
    · exact ledgerOnly_refl _
  · split
    · exact ledgerOnly_m (ledgerMain_apduReply ..)
    · exact ledgerOnly_refl _
  · split
    · exact ledgerOnly_refl _
    · split
      · exact ledgerOnly_m (ledgerMain_trans (ledgerMain_modStp ..) (ledgerMain_stpReply ..))
      · exact ledgerOnly_m (ledgerMain_stpReply ..)
  · split
    · exact ledgerOnly_refl _
    · exact ledgerOnly_m (ledgerMain_wiredAnswer ..)

theorem ledgerOnly_lRefuse (s : State) (a : LAccess) (st : LStatus) : ledgerOnly s (lRefuse s a st) := by
  unfold lRefuse
  split
  · exact ledgerOnly_lRespond ..
  · exact ledgerOnly_trans (ledgerOnly_m (ledgerMain_writeRefused ..)) (ledgerOnly_lRespond ..)

theorem ledgerOnly_efStatus (s : State) : ledgerOnly s (efStatus s).2 := ledgerOnly_m (ledgerMain_senseHarv _)

/-- All that a wired read can do. -/
theorem ledgerOnly_lRead (s : State) (w : Wired) (code arg : Nat) : ledgerOnly s (lRead s w code arg) := by
  unfold lRead
  dsimp only
  split
  · exact ledgerOnly_m (ledgerMain_wiredAnswer ..)
  · exact ledgerOnly_m (ledgerMain_wiredAnswer ..)
  · exact ledgerOnly_trans (ledgerOnly_efStatus s) (ledgerOnly_m (ledgerMain_wiredAnswer ..))

theorem ledgerOnly_lRequest (s : State) (a : LAccess) : ledgerOnly s (lRequest s a) := by
  unfold lRequest
  dsimp only
  split
  · exact ledgerOnly_trans (ledgerOnly_m (ledgerMain_countAo ..)) (ledgerOnly_lRefuse ..)
  · exact ledgerOnly_lgr ..

theorem ledgerOnly_lStart (s : State) (a : LAccess) : ledgerOnly s (lStart s a) := by
  unfold lStart
  split
  · exact ledgerOnly_lRead ..
  · split
    · exact ledgerOnly_lgr ..
    · split
      · exact ledgerOnly_trans (ledgerOnly_m (ledgerMain_countAo ..)) (ledgerOnly_lRefuse ..)
      · split
        · exact ledgerOnly_lRespond ..
        · dsimp only
          split
          · exact ledgerOnly_trans (ledgerOnly_m (ledgerMain_energyCheck ..)) (ledgerOnly_lgr ..)
          · exact ledgerOnly_trans (ledgerOnly_m (ledgerMain_energyCheck ..)) (ledgerOnly_lRefuse ..)

theorem ledgerOnly_lWrite (s : State) (a : LAccess) : ledgerOnly s (lWrite s a) := by
  unfold lWrite
  split
  · exact ledgerOnly_writeAppend ..
  · exact ledgerOnly_writeBank ..
  · exact ledgerOnly_refl _

/-- All that the end of a write can do. -/
theorem ledgerOnly_finishRunning (s : State) : ledgerOnly s (finishRunning s) := by
  unfold finishRunning
  split
  · exact ledgerOnly_refl _
  · exact ledgerOnly_trans (ledgerOnly_trans (ledgerOnly_lgr ..) (ledgerOnly_lWrite ..)) (ledgerOnly_lRespond ..)

theorem ledgerOnly_resumeStarted (s : State) : ledgerOnly s (resumeStarted s) := by
  unfold resumeStarted
  split
  · exact ledgerOnly_refl _
  · exact ledgerOnly_lgr ..

theorem ledgerOnly_finishStarted (s : State) : ledgerOnly s (finishStarted s) :=
  ledgerOnly_trans (ledgerOnly_trans (ledgerOnly_finishRunning s) (ledgerOnly_resumeStarted _)) (ledgerOnly_finishRunning _)

theorem ledgerOnly_setLease (s : State) (w : Wired) (seconds : Nat) : ledgerOnly s (setLease s w seconds).2 := by
  unfold setLease
  split
  · exact ledgerOnly_refl _
  · have h : ledgerOnly s (if (s.lgr.running.map (·.port)) = some .field then finishRunning s else s) := by
      split
      · exact ledgerOnly_finishRunning s
      · exact ledgerOnly_refl _
    generalize (if (s.lgr.running.map (·.port)) = some .field then finishRunning s else s) = x at h
    dsimp only
    split
    · exact ledgerOnly_trans h (ledgerOnly_m (ledgerMain_countAo ..))
    · split <;> exact ledgerOnly_trans h (ledgerOnly_lgr ..)

theorem ledgerOnly_spiBegin (s : State) : ledgerOnly s (spiBegin s) := ledgerOnly_m (ledgerMain_trans (ledgerMain_modSpi ..) (ledgerMain_modSpi ..))

theorem ledgerMain_spiRefuse (m : Main) : ledgerMain m (spiRefuse m) := ledgerMain_trans (ledgerMain_modSpi ..) (ledgerMain_count ..)

/-- All that a wired command can do beside what its good frame does. -/
theorem ledgerOnly_wiredCmd (s : State) (w : Wired) (code : Nat) (host : List Byte) (good write : Bool) (f : State → State)
    (h : ∀ x, ledgerOnly x (f x)) : ledgerOnly s (wiredCmd s w code host good write f) := by
  have fr (x : State) (b : Bool) : ledgerOnly x
      (let y := if b then { x with m := writeRefused x.m (if w = .i2c then 3 else 4) LStatus.frame.code } else x
       { y with m := wiredAnswer y.m w (ledgerHead code host) .frame [] }) := by
    cases b
    · exact ledgerOnly_m (ledgerMain_wiredAnswer ..)
    · exact ledgerOnly_m (ledgerMain_trans (ledgerMain_writeRefused ..) (ledgerMain_wiredAnswer ..))
  unfold wiredCmd
  cases w with
  | i2c =>
    dsimp only
    split
    · exact ledgerOnly_refl _
    · split
      · exact h s
      · exact ledgerOnly_trans (ledgerOnly_m (ledgerMain_countAo ..)) (fr ..)
  | spi =>
    dsimp only
    split
    · exact ledgerOnly_refl _
    · have hb := ledgerOnly_spiBegin s
      generalize spiBegin s = x at hb
      split
      · exact ledgerOnly_trans hb (ledgerOnly_m (ledgerMain_spiRefuse _))
      · have hc : ledgerOnly x { x with m := cuSpi (count x.m 0x7000 0x01) false host (ledgerHead code host) } :=
          ledgerOnly_m (ledgerMain_trans (ledgerMain_count ..) (ledgerMain_of_pool (poolOnly_cuSpi ..)))
        split
        · exact ledgerOnly_trans (ledgerOnly_trans hb hc) (h _)
        · exact ledgerOnly_trans (ledgerOnly_trans (ledgerOnly_trans hb hc)
            (ledgerOnly_m (ledgerMain_trans (ledgerMain_modSpi ..) (ledgerMain_count ..)))) (fr ..)

theorem ledgerOnly_tgtKey (s : State) (k : Nat) : ledgerOnly s (tgtKey s k).2 := by
  unfold tgtKey
  dsimp only
  split
  · exact ledgerOnly_refl _
  · exact ledgerOnly_m (ledgerMain_draw _)

theorem ledgerOnly_tgtChallenge (s : State) (k : Nat) (ra : List Byte) : ledgerOnly s (tgtChallenge s k ra).2 := by
  unfold tgtChallenge
  dsimp only
  exact ledgerOnly_trans (ledgerOnly_tgtKey s k) (ledgerOnly_m (ledgerMain_trans (ledgerMain_draw _) (ledgerMain_modAuth ..)))

theorem ledgerMain_beginSession (m : Main) (k : TgtSession) : ledgerMain m (beginSession m k) :=
  ledgerMain_trans (ledgerMain_trans (ledgerMain_modTgt ..) (ledgerMain_countAo ..)) (ledgerMain_tgtEvent ..)

theorem ledgerMain_endSession (m : Main) : ledgerMain m (endSession m) := by
  unfold endSession
  dsimp only
  split
  · exact ledgerMain_trans (ledgerMain_modTgt ..) (ledgerMain_tgtEvent ..)
  · exact ledgerMain_modTgt ..

theorem ledgerMain_stpPowerUp (m : Main) : ledgerMain m (stpPowerUp m) := by
  unfold stpPowerUp
  dsimp only
  split <;> rfl

theorem ledgerOnly_answerGood (s : State) (key : Nat) (c2 : List Byte) : ledgerOnly s (answerGood s key c2).2 := by
  unfold answerGood
  split
  · exact ledgerOnly_tgtKey ..
  · exact ledgerOnly_refl _

theorem ledgerOnly_lockOut (s : State) (good : Bool) : ledgerOnly s (lockOut s good) := by
  unfold lockOut
  split
  · exact ledgerOnly_refl _
  · exact ledgerOnly_m (ledgerMain_trans (ledgerMain_countAo ..) (ledgerMain_modAuth ..))

theorem ledgerOnly_authOutcome (s : State) (key org : Nat) (good : Bool) (seq : Option Nat) :
    ledgerOnly s (authOutcome s key org good seq).2 := by
  unfold authOutcome
  cases seq with
  | some q =>
    cases good
    · exact ledgerOnly_m (ledgerMain_tgtEvent ..)
    · exact ledgerOnly_m (ledgerMain_trans (ledgerMain_tgtEvent ..) (ledgerMain_modAuth ..))
  | none =>
    cases good
    · exact ledgerOnly_m (ledgerMain_tgtEvent ..)
    · exact ledgerOnly_refl _

/-- All that the check of a reader's answer can do. -/
theorem ledgerOnly_tgtVerify (s : State) (key : Nat) (c2 : List Byte) : ledgerOnly s (tgtVerify s key c2).2 :=
  ledgerOnly_trans (ledgerOnly_trans (ledgerOnly_trans (ledgerOnly_trans (ledgerOnly_answerGood s key c2) (ledgerOnly_m (ledgerMain_modAuth ..)))
    (ledgerOnly_lockOut ..)) (ledgerOnly_ownRecord ..)) (ledgerOnly_authOutcome ..)

end Sys2Proof.Machine
end

