-- ==== Sys2Proof/Laws/Power.lean ====
section
/-!
SUPPORT. Laws/Power.lean: what a start of the always-on island, a cold start and the loss of power leave.
-/

namespace Sys2Proof.Machine

theorem noFields_darkMain (m : Main) (l : Ledger) : noFields (darkMain m l) := by
  intro k; simp [darkMain]

theorem finishStarted_pw (s : State) : (finishStarted s).m.pw = s.m.pw := ledgerMain_pw_eq (ledgerOnly_finishStarted s).main

/-- What every start of the always-on island leaves: DORMANT, the controller off, no field; keys and queue as they were. -/
theorem islandStart_facts (s : State) (keep : Bool) :
    (islandStart s keep).m.pw.mode = .dormant ∧ (islandStart s keep).m.pw.aoUp = true ∧ (islandStart s keep).m.pw.ctlOn = false ∧
    (islandStart s keep).m.pw.fwRunning = false ∧ (islandStart s keep).m.pw.booting = false ∧
    (islandStart s keep).m.pw.mainPresent = s.m.pw.mainPresent ∧ (islandStart s keep).m.pw.rstHeld = s.m.pw.rstHeld ∧
    (islandStart s keep).m.pw.follower = s.m.pw.follower ∧ (islandStart s keep).m.pw.vddio33 = s.m.pw.vddio33 ∧
    noFields (islandStart s keep).m ∧ (islandStart s keep).keys = s.keys ∧ (islandStart s keep).pending = s.pending := by
  unfold islandStart
  dsimp only
  generalize hx : modTgt (if keep = true then _ else _) _ = x
  have hp : x.pw.mode = .dormant ∧ x.pw.aoUp = true ∧ x.pw.ctlOn = false ∧ x.pw.fwRunning = false ∧ x.pw.booting = false ∧
      x.pw.mainPresent = s.m.pw.mainPresent ∧ x.pw.rstHeld = s.m.pw.rstHeld ∧ x.pw.follower = s.m.pw.follower ∧
      x.pw.vddio33 = s.m.pw.vddio33 ∧ noFields x := by
    rw [← hx]
    cases keep <;> exact ⟨rfl, rfl, rfl, rfl, rfl, rfl, rfl, rfl, rfl, noFields_darkMain (draw s.m).2 s.lgr.recover⟩
  obtain ⟨h1, h2, h3, h4, h5, h6, h7, h8, h9, h10⟩ := hp
  split
  · have e : (stpPowerUp x).pw = x.pw := ledgerMain_pw_eq (ledgerMain_stpPowerUp x)
    have c : (stpPowerUp x).cores = x.cores := by rw [ledgerMain_stpPowerUp x]
    exact ⟨(congrArg Power.mode e).trans h1, (congrArg Power.aoUp e).trans h2, (congrArg Power.ctlOn e).trans h3,
      (congrArg Power.fwRunning e).trans h4, (congrArg Power.booting e).trans h5, (congrArg Power.mainPresent e).trans h6,
      (congrArg Power.rstHeld e).trans h7, (congrArg Power.follower e).trans h8, (congrArg Power.vddio33 e).trans h9,
      fun k => (by rw [c]; exact h10 k : ((stpPowerUp x).cores[k]).fld = none), rfl, rfl⟩
  · exact ⟨h1, h2, h3, h4, h5, h6, h7, h8, h9, h10, rfl, rfl⟩

/-- What a cold start leaves: the boot that [1200:01] asks for has begun. -/
theorem coldStart_facts (s : State) (keep : Bool) :
    (coldStart s keep).m.pw.mode = .dormant ∧ (coldStart s keep).m.pw.aoUp = true ∧ (coldStart s keep).m.pw.ctlOn = false ∧
    (coldStart s keep).m.pw.fwRunning = false ∧ (coldStart s keep).m.pw.booting = cfgB (coldStart s keep).m 0x1200 0x01 ∧
    (coldStart s keep).m.pw.mainPresent = s.m.pw.mainPresent ∧ (coldStart s keep).m.pw.rstHeld = s.m.pw.rstHeld ∧
    (coldStart s keep).m.pw.follower = s.m.pw.follower ∧ (coldStart s keep).m.pw.vddio33 = s.m.pw.vddio33 ∧
    noFields (coldStart s keep).m ∧ (coldStart s keep).keys = s.keys ∧ (coldStart s keep).pending = s.pending := by
  have f := islandStart_facts (finishStarted s) keep
  have k := ledgerOnly_finishStarted s
  rw [finishStarted_pw, k.keys, k.queue] at f
  unfold coldStart
  generalize islandStart (finishStarted s) keep = x at f
  obtain ⟨h1, h2, h3, h4, h5, h6, h7, h8, h9, h10, h11, h12⟩ := f
  unfold autoStart
  split
  · rename_i h
    refine ⟨h1, h2, h3, h4, ?_, h6, h7, h8, h9, h10, h11, h12⟩
    exact h.symm
  · rename_i h
    refine ⟨h1, h2, h3, h4, ?_, h6, h7, h8, h9, h10, h11, h12⟩
    rw [h5]; simpa using h

/-- What the loss of every supply leaves. -/
theorem unpowered_facts (s : State) :
    (unpowered s).m.pw.mode = .dormant ∧ (unpowered s).m.pw.aoUp = false ∧ (unpowered s).m.pw.ctlOn = false ∧
    (unpowered s).m.pw.vaoOk = s.m.pw.vaoOk ∧ (unpowered s).lgr.waiting = [] ∧ (unpowered s).lgr.leaseBy = none ∧
    (unpowered s).lgr.running = none ∧ noFields (unpowered s).m ∧ (unpowered s).keys = s.keys ∧ (unpowered s).pending = s.pending := by
  have i (x : State) : (interruptRunning x).m.pw = x.m.pw ∧ (interruptRunning x).keys = x.keys ∧ (interruptRunning x).pending = x.pending ∧
      (interruptRunning x).lgr.running = none := by
    unfold interruptRunning
    split
    · rename_i h; exact ⟨rfl, rfl, rfl, h⟩
    · refine ⟨rfl, rfl, rfl, ?_⟩
      dsimp only
      split
      · rfl
      · split
        · simp only [Ledger.markBank]; split <;> rfl
        · split <;> rfl
      · rfl
  have r := ledgerOnly_resumeStarted (interruptRunning s)
  have a := i s
  have b := i (resumeStarted (interruptRunning s))
  unfold unpowered
  refine ⟨rfl, rfl, rfl, ?_, rfl, rfl, b.2.2.2, noFields_darkMain _ _, ?_, ?_⟩
  · show (interruptRunning (resumeStarted (interruptRunning s))).m.pw.vaoOk = _
    rw [b.1, ledgerMain_pw_eq r.main, a.1]
  · exact b.2.1.trans (r.keys.trans a.2.1)
  · exact b.2.2.1.trans (r.queue.trans a.2.2.1)

theorem noFields_unpowered (c : Vector Core 16) : ∀ k : Fin 16, ((c.map Core.unpowered)[k]).fld = none := by
  intro k; simp [Core.unpowered]

/-- The power-down of the islands leaves no field and no controller. -/
theorem powerDown_facts (m : Main) (keep : Bool) :
    (powerDown m keep).pw.ctlOn = false ∧ (powerDown m keep).pw.booting = false ∧ (powerDown m keep).pw.fwRunning = false ∧
    (powerDown m keep).pw.mode = m.pw.mode ∧ (powerDown m keep).pw.pendMode = none ∧ (powerDown m keep).pw.aoUp = m.pw.aoUp ∧
    (powerDown m keep).pw.vaoOk = m.pw.vaoOk ∧ (powerDown m keep).pw.fieldOn = m.pw.fieldOn ∧
    (powerDown m keep).pw.mainPresent = m.pw.mainPresent ∧ noFields (powerDown m keep) := by
  unfold powerDown
  cases keep <;> exact ⟨rfl, rfl, rfl, rfl, rfl, rfl, rfl, rfl, rfl, noFields_unpowered _⟩

end Sys2Proof.Machine
end

