-- ==== Sys2Proof/WellFormed.lean ====
section
/-!
DEFINITION. WellFormed.lean: the operands that a command can carry: what its packet, frame, register or measurement has room for. The
types bound the rest.
-/

namespace Sys2Proof

/-- A value that an I8 or an I16 entry holds. -/
def fitsI8 (v : Int) : Bool := decide (-128 ≤ v) && decide (v ≤ 127)
def fitsI16 (v : Int) : Bool := decide (-32768 ≤ v) && decide (v ≤ 32767)

/-- A measured impedance: U16 in 0.1 Ω, and an angle of at most 180° in 0.1° (R111, R120). -/
def fitsZ (zMag : Nat) (zArg : Int) : Bool := decide (zMag < 65536) && decide (-1800 ≤ zArg) && decide (zArg ≤ 1800)

/-- An amplitude in 0.1 µV at the port: the peak of a carrier into 200 Ω at 1 W is 20 V (R97, R100). -/
def ampOk (v : Int) : Bool := decide (v.natAbs ≤ 200000000)
def iqOk (z : Int × Int) : Bool := ampOk z.1 && ampOk z.2

/-- A reply's signal lies within the receiver's range; a Type B character has ten bit periods (R158). -/
def rawOk (r : RawReply) : Bool :=
  (match r.sym with
   | .phase bits => bits.all iqOk
   | .chars lead cs => lead.all iqOk && cs.all fun c => decide (c.length = 10) && c.all iqOk
   | .halves hs => hs.all fun h => iqOk h.1 && iqOk h.2
   | .tones ts => ts.all fun h => ampOk h.1.1 && ampOk h.1.2 && ampOk h.2.1 && ampOk h.2.2) &&
  r.dc.all iqOk

/-- A forward frame at the target: whole bytes, and up to seven bits more (R198, R202). -/
def stpRxOk (f : StpRx) : Bool := decide (f.rest < 8) && decide (f.depth ≤ 1000) && decide (f.bytes.length ≤ 512)

/-- Symbols of an order lie among its chips (R390). -/
def symbolsOk (ss : List Nat) (n : Nat) : Bool := decide (ss.length ≤ n) && ss.all fun s => decide (s < 2 ^ 14)

/-- A neighbour entry names a global port, or none (R124). -/
def nbrOk (e : NbrEntry) : Bool := (decide (e.gport < 512) || e.gport == 0xFFFF) && decide (e.kAtt < 256) && decide (e.aAtt < 256) && decide (e.aArg < 1024)

/-- A burnish result fits its entries (R192). -/
def burnOk : BurnResult → Bool
  | .tune _ _ theta zMag n => decide (1 ≤ n) && decide (n ≤ 64) && decide (theta.natAbs ≤ 1800 * n) && decide (zMag < 65536 * n)
  | .ownCarrier _ _ re im => fitsI16 re && fitsI16 im
  | .ownRefresh _ _ re im => fitsI16 re && fitsI16 im
  | .dcOffset _ i q => fitsI8 i && fitsI8 q
  | .iqTrim _ g p => fitsI8 g && fitsI8 p
  | .neighbours _ es => decide (es.length ≤ 511) && es.all nbrOk
  | .stalePair _ e => nbrOk e
  | .coreChain ds => decide (ds.length ≤ 16) && ds.all fitsI16
  | .radioFreq o => decide (o.natAbs ≤ 65536)
  | .radioDc i q => fitsI8 i && fitsI8 q
  | .devicePhase v => fitsI16 v

/-- Cells are numbered 0 to 16 383 (R324). -/
def scrubOk (r : ScrubReport) : Bool := r.singles.all (fun d => decide (d.1 < 16384)) && r.doubles.all fun d => decide (d.1 < 16384)

/-- A peak lies among the chips of its order (R390, R399). -/
def peakOk (order : Fin 7) (p : Option ChirpPeak) : Bool := p.all fun x => decide (x.shift < 2 ^ (8 + order.val)) && fitsI16 x.level

/-- The hold has 32 places (R439). -/
def txKindOk : TxKind → Bool
  | .held i => decide (i < 32)
  | .ack => true
  | .wake _ => true
  | .checkin => true

/-- Data lengths of CAN FD frames (R497). -/
def canLengths : List Nat := [0, 1, 2, 3, 4, 5, 6, 7, 8, 12, 16, 20, 24, 32, 48, 64]

/-- An SPI DICT command carries 16 to 64 bytes (R488), a DICT frame at most 237 (R415). -/
def arrivalOk : DictArrival → Bool
  | .q18 => true
  | .q20 => true
  | .spi bs _ => decide (16 ≤ bs.length) && decide (bs.length ≤ 64)
  | .air _ bs => decide (bs.length ≤ 237)
  | .lace _ => true

/-- The operands of a command are ones that it can carry. -/
def Instr.wf : Instr → Bool
  | .coldStart _ _ => true
  | .rstNLow => true
  | .resetCmd _ => true
  | .mainSupplyLost => true
  | .vtxLow => true
  | .vtxRestored => true
  | .vrfLow => true
  | .vrfRestored => true
  | .vaoLow => true
  | .vaoRestored => true
  | .clockMonitorWindow cycles _ => decide (cycles < 2 ^ 32)
  | .sleepCrystalQualified => true
  | .sleepCrystalTimeout => true
  | .watchdogExpiry => true
  | .controllerParityFault => true
  | .controllerRestart => true
  | .modeRequest _ _ => true
  | .modeTransitionComplete => true
  | .drainLimitExpiry => true
  | .targetFieldDetected strength => decide (strength < 65536)
  | .emulateHoldoffExpiry => true
  | .rescueFieldAbsent => true
  | .wakeNWake => true
  | .wakeNRearm => true
  | .alarmExpiry => true
  | .canActivityWake => true
  | .canWakeArm => true
  | .wakeDuringBoot _ => true
  | .junctionTempSample tj => fitsI16 tj
  | .referenceStable => true
  | .pllLocked => true
  | .imageReadComplete img => decide (img.length < 2 ^ 32)
  | .signatureVerified _ => true
  | .imageOverSpiPassed img => decide (img.length < 2 ^ 32)
  | .firmwareReady => true
  | .phrefLevelChange _ => true
  | .phrefEdgeQualified => true
  | .plausibilityWindowEnd => true
  | .coastLimit => true
  | .phaseSourceWrite _ => true
  | .phaseOffsetWrite _ => true
  | .nominalPeriodWrite _ => true
  | .cycleBoundary => true
  | .encoderTransition _ _ => true
  | .encoderIndex => true
  | .encoderStopped => true
  | .aoPhaseCounterEdge => true
  | .windowBoundary _ _ => true
  | .planSwitchRequest _ => true
  | .planSwitchCancel => true
  | .planWindowWrite _ _ _ _ _ _ => true
  | .grantRequest _ _ => true
  | .governorBinBoundary => true
  | .reservation _ => true
  | .portSwitch _ _ => true
  | .portCheck _ zMag zArg => fitsZ zMag zArg
  | .fieldAt95 _ level => decide (level < 256)
  | .driverTrip _ _ => true
  | .fieldOff _ => true
  | .fieldChange _ _ => true
  | .gapHoldExpiry _ => true
  | .changeWaitExpiry _ => true
  | .portRetestTimer _ => true
  | .portEnableWrite _ _ => true
  | .coreFault _ _ => true
  | .coreSelftestStart _ => true
  | .coreSelftestDone _ _ => true
  | .coreProbationEnd _ => true
  | .coreRelease _ _ => true
  | .coreEnableWrite _ _ => true
  | .listenWindowOpen _ _ => true
  | .replyStartDetected _ _ _ _ => true
  | .adcOverload _ _ _ raw => rawOk raw
  | .listenWindowClose _ => true
  | .replyEnd _ raw => rawOk raw
  | .frameStart _ _ => true
  | .noneWaitExpiry _ => true
  | .burnishStepComplete results _ => results.all burnOk
  | .dcOffsetEstimate _ i q => fitsI8 i && fitsI8 q
  | .dispatch => true
  | .contextTake _ _ => true
  | .steal _ _ => true
  | .dequeDeadlineSweep => true
  | .handleLostReacquire _ _ => true
  | .runLimitExpiry _ _ => true
  | .resultStallResume _ _ => true
  | .stitchSeek _ _ _ => true
  | .stitchSingleRead _ _ _ => true
  | .stitchRead _ _ _ => true
  | .stitchWrite _ _ _ => true
  | .stitchQuiet _ _ _ => true
  | .stitchRelease _ _ _ => true
  | .stitchAuth _ _ _ => true
  | .stitchIsoActivate _ _ _ => true
  | .stitchIsoApdu _ _ _ => true
  | .stitchVInventory _ _ _ => true
  | .stitchVRead _ _ _ => true
  | .stitchVWrite _ _ _ => true
  | .stitchProbe _ _ zMag zArg level noise => fitsZ zMag zArg && decide (level < 256) && decide (noise < 256)
  | .stitchRaw _ _ _ => true
  | .isoIdleExpiry _ => true
  | .apduLimitExpiry _ _ => true
  | .engineFault _ _ => true
  | .dequeMove _ => true
  | .engineSelftestStart _ => true
  | .engineSelftestDone _ _ => true
  | .engineProbationEnd _ => true
  | .engineRelease _ _ => true
  | .engineEnableWrite _ _ => true
  | .surveyPassStart => true
  | .laneVisit _ _ => true
  | .laneStallResume _ => true
  | .passEnd => true
  | .watchSweepStart => true
  | .watchProbeStep _ probes => decide (probes.length ≤ 16) && probes.all fun x => fitsZ x.zMag x.zArg
  | .watchSweepEnd => true
  | .queueFlush _ _ => true
  | .quotaWrite _ _ _ => true
  | .consumerWrite _ _ => true
  | .producerStallResume _ => true
  | .scrubPass report => scrubOk report
  | .ownerSweepDone => true
  | .targetFieldLost _ => true
  | .tgtIsoReqa => true
  | .tgtIsoWupa => true
  | .tgtIsoAnticollision _ _ => true
  | .tgtIsoSelectL3 _ => true
  | .tgtIsoHlta => true
  | .tgtIsoRats _ => true
  | .tgtIsoPps _ _ => true
  | .tgtIsoDeselect => true
  | .tgtIsoRBlock _ _ => true
  | .tgtApduSelect _ _ aid => decide (aid.length ≤ 255)
  | .tgtReadBinary _ _ le => decide (le ≤ 256)
  | .tgtReadRecord _ _ => true
  | .tgtAppendRecord _ _ data => decide (data.length ≤ 255)
  | .tgtUpdateRecord _ _ data => decide (data.length ≤ 255)
  | .tgtInternalAuth _ _ ra => decide (ra.length ≤ 255)
  | .tgtExternalAuth _ _ c2 => decide (c2.length ≤ 255)
  | .tgtRelease _ _ => true
  | .tgtApduUnknown _ _ _ _ => true
  | .releaseVoltageReached => true
  | .releaseWaitTimeout => true
  | .releasePulseEnd => true
  | .targetAuthLockoutEnd => true
  | .tgtStpSeek f => stpRxOk f
  | .tgtStpSingle f => stpRxOk f
  | .tgtStpSelect f => stpRxOk f
  | .tgtStpSetLink f => stpRxOk f
  | .tgtStpRead f => stpRxOk f
  | .tgtStpArm f => stpRxOk f
  | .tgtStpCommit f => stpRxOk f
  | .tgtStpQuiet f => stpRxOk f
  | .tgtStpRelease f => stpRxOk f
  | .tgtStpAuth1 f => stpRxOk f
  | .tgtStpAuth2 f => stpRxOk f
  | .tgtStpUnknownFrame f => stpRxOk f
  | .tgtStpHandleDrop => true
  | .ledgerReadAudit _ _ _ => true
  | .ledgerReadSetting _ _ _ => true
  | .ledgerAppendAudit _ _ data _ => decide (data.length ≤ 64)
  | .ledgerWriteSetting _ _ data _ => decide (data.length ≤ 64)
  | .ledgerStatus _ _ => true
  | .ledgerLease _ _ _ => true
  | .leaseExpiry => true
  | .ledgerAccessStart => true
  | .ledgerWriteComplete => true
  | .wiredAccessTimeout _ => true
  | .rssiGateUpdate _ power => fitsI16 power
  | .detectorWindow _ order peak => peakOk order peak
  | .demodPreambleLost _ _ => true
  | .demodSync _ _ => true
  | .demodHeader _ symbols => symbolsOk symbols 24
  | .demodPayloadEnd _ symbols _ => symbolsOk symbols 672
  | .feGainStep _ _ _ => true
  | .radioRetune hz => decide (780000000 ≤ hz) && decide (hz ≤ 1020000000)
  | .radioTxStart kind => txKindOk kind
  | .radioTxEnd => true
  | .radioProfileWrite _ => true
  | .channelTableWrite _ _ _ => true
  | .lbtMeasureEnd powers => decide (powers.length ≤ 64)
  | .backoffExpiry => true
  | .txHoldRelease => true
  | .ackSend => true
  | .ackWaitExpiry => true
  | .satCheckinDue => true
  | .guardWindowOpen _ => true
  | .guardWindowClose _ => true
  | .callStart _ => true
  | .callRetryTimer _ => true
  | .satLostListen => true
  | .awakeWindowExpiry => true
  | .txRequest _ => true
  | .txFrameExpiry i => decide (i < 32)
  | .partnerKeyWrite _ _ => true
  | .keyErase _ => true
  | .partnerStateWrite _ _ => true
  | .watchListenWindow => true
  | .dictRead src => arrivalOk src
  | .dictWrite src => arrivalOk src
  | .dictSegRead src => arrivalOk src
  | .dictSegWrite src => arrivalOk src
  | .dictSegment src => arrivalOk src
  | .dictAbort src => arrivalOk src
  | .dictRoutedResponse _ bytes => decide (bytes.length ≤ 237)
  | .routeTimeout i => decide (i < 32)
  | .transferIdleExpiry i => decide (i < 8)
  | .trackExpiry i => decide (i < 64)
  | .dx4032Read => true
  | .dx4032Write => true
  | .spiNop _ => true
  | .spiReadWin _ => true
  | .spiReadQ _ shifted => decide (shifted ≤ 4096)
  | .spiWriteQ _ words _ => decide (words.length ≤ 4096)
  | .spiConsume _ => true
  | .spiDictDefer bytes => decide (bytes.length ≤ 64)
  | .spiAbandon => true
  | .spiWriteStallRelease => true
  | .spiIdleReset => true
  | .spiWidthWrite _ => true
  | .canFrameRx f => canLengths.contains f.data.length
  | .canFrameTx => true
  | .heartbeat => true
  | .timeMarkRx _ _ => true
  | .canBusOff => true
  | .canRecoveryStart _ => true
  | .canBusoffRecovered => true
  | .canStuckDominant => true
  | .canStuckRecovery => true
  | .canNodeWrite _ => true
  | .gpioEdge _ _ => true
  | .cuConfigWrite _ _ _ => true
  | .cuValueWrite _ _ => true
  | .e2eUnitChange _ _ => true
  | .laceLinkTrained _ _ latency => decide (latency < 65536)
  | .laceLinkDown _ => true
  | .laceRetransmitTimeout _ => true
  | .laceLinkAck _ _ => true
  | .laceRetrainTimer _ => true
  | .laceFormingTimeout => true
  | .laceChainTimeout => true
  | .laceFrameForward _ words => decide (words.length ≤ 259)
  | .laceDiscover _ words latency => decide (words.length ≤ 259) && decide (latency < 65536)
  | .laceTick _ words => decide (words.length ≤ 259)
  | .laceTickTimer => true
  | .lacePhase _ words => decide (words.length ≤ 259)
  | .lacePhaseTimer => true
  | .lacePhaseMissing => true
  | .laceAlign _ words => decide (words.length ≤ 259)
  | .laceAlignBoundary => true
  | .laceField _ words => decide (words.length ≤ 259)
  | .laceClaim _ words => decide (words.length ≤ 259)
  | .laceClaimAccept _ => true
  | .laceAccept _ words => decide (words.length ≤ 259)
  | .laceDict _ words => decide (words.length ≤ 259)
  | .laceStitch _ words => decide (words.length ≤ 259)
  | .laceStitchRetry => true
  | .laceResult _ words => decide (words.length ≤ 259)
  | .laceJournal _ words => decide (words.length ≤ 259)
  | .laceDeparture _ => true
  | .counterClear _ => true
  | .journalRatePeriod => true
  | .schedulerFault _ => true
  | .schedulerRebuildDone => true
  | .radioFault _ => true
  | .radioRecovered => true
  | .radioRelease _ => true
  | .unitProbationEnd _ => true
  | .laceStitchRefusal _ words => decide (words.length ≤ 259)
  | .laceFrameTx => true
  | .carrierVcoRelock => true

end Sys2Proof
end

