-- ==== Sys2Proof/Tests/Slice0.lean ====
section
/-!
SUPPORT. Tests/Slice0.lean: ill-formed commands that the checks refuse, values that the spec works out, and for every statement with
hypotheses a state and operands that meet them.
-/

namespace Sys2Proof.Tests

open Sys2Proof Sys2Proof.Machine

set_option Elab.async false
set_option linter.unusedTactic false
set_option linter.unreachableTactic false
set_option linter.unnecessarySeqFocus false

/-! ### States -/

/-- A state of the block with nothing else in it. -/
def st (m : Main) : State := { m := m }

/-- The firmware runs in a mode; everything else is as after reset. -/
def inMode (d : Mode) : Main :=
  modPw State.reset.m fun p => { p with mode := d, ctlOn := true, fwRunning := true, rdy := true, bootStage := 0, vddio33 := true }

/-- TRANSACT, with lace role `r`, state `n` and members `b`, links up. -/
def inLace (r n : Nat) (b : BitVec 4) : Main :=
  modLace (inMode .transact) fun l => { l with role := r, state := n, members := b, linkA := { up := true }, linkB := { up := true } }

/-- TRANSACT with core 0 holding a field. -/
def withFld (f : FieldRec) : Main := modCore (inMode .transact) 0 fun c => { c with fld := some f }

/-- The same with a context on it: descriptor `j` runs in context 0 of engine 0. -/
def running (j : Job) : Main :=
  modEng (withFld { owner := .ctx 0 0, port := 0, level := 40, closed := true, at95 := true }) 0 fun g =>
    { g with ctx0 := { st := .run, job := some j, core := some 0, started := true } }

/-- A queue of the pool holds one packet. -/
def withPkt (m : Main) (q : Fin 32) (p : Packet) : Main := modQ m q fun x => { x with pkts := [p] }

/-- The card of the target front end in a field, in state `n`, with the ledger application selected. -/
def card (n : Nat) : Main :=
  { modPw (inMode .emulate) (fun p => { p with fieldOn := true, strength := 15 }) with
    tgt := { session := .iso, iso := { st := n, selected := true } } }

/-- The fob of the target front end in a field, bound to tag 1 with handle 5, in state `n`. -/
def fob (n : Nat) : Main :=
  { modPw (inMode .emulate) (fun p => { p with fieldOn := true, strength := 15 }) with
    tgt := { session := .stp, stp := { bound := some (1, 200), tagState := n, handle := some 5 } } }

/-- A frame of the reader of tag 1: its code and `PARAMS`. -/
def fr (code : Nat) (params : List Byte) : StpRx := { bytes := stpBytes 1 false code params, level := 200 }

/-- Partner 1 of a hub is ACTIVE; the radio listens, channel 0 is enabled. -/
def hub : Main :=
  modPt (modRad (inMode .transact) fun r => { r with chans := r.chans.set 0 (780000000, 0x1FD) }) 1 fun p => { p with state := 1, address := 9 }

/-- The satellite whose hub is ACTIVE. -/
def sat : Main := modPt (cfgSet hub 0x4100 0x01 1) 0 fun p => { p with state := 1, address := 9, slotAtHub := 1 }

/-- A frame in the hold for partner 1. -/
def held1 : Held := { slot := 1, ackReq := true, now := true, htag := 7, body := [1, 2], made := 0 }

/-- The same state with a key for partners 0 and 1. -/
def keyed (m : Main) : State := { m := m, keys := { partner := (Vector.replicate 256 none).set 0 (some 5) |>.set 1 (some 5) } }

/-- A frame for demodulator 0, which is in PAYLOAD, from address 9 as partner `n` with counter 3 under key 5: its `FC`, its body. -/
def air (up : Bool) (fc : Byte) (n : Byte) (body : List Byte) : List Byte := macFrame 5 ([fc, 9, 0, 0, 0, n, 3, 0, 0, 0]) body up

/-- A native request of the host: operation, length, index, subindex, offset, data. -/
def msg (op len idx sub off : Nat) (data : List Byte) : List Byte :=
  let h : List Byte := [byte op, 0, 0, byte len] ++ leBytes 2 idx ++ [byte sub, 0, 0, 0] ++ leBytes 2 off ++ data
  h ++ leBytes 4 (CrcKind.crc32c.of (leBytes 2 (cfgN State.reset.m 0x5010 0x03) ++ h))

/-- A DX4032 request of node 1, as its packet in Q20. -/
def dx (op idx sub v : Nat) : List Byte :=
  let h : List Byte := [byte op] ++ leBytes 2 idx ++ [byte sub] ++ leBytes 4 v
  h ++ leBytes 2 (CrcKind.ccitt.run (compatInit idx 1) h) ++ [0, 0]

def dxPkt (bs : List Byte) : Packet := { type := 0x28, source := 2, words := canPacket 0x11 bs }

/-- A lace frame with its check. -/
def lf (type src dst eseq : Nat) (ws : List Word) : List Word :=
  laceSealed (word (type + place 4 2 src + place 6 2 dst + place 16 16 (4 * ws.length)) :: word eseq :: ws)
def from1 (type : Nat) (ws : List Word) : List Word := lf type 1 0 1 ws
def fromLead (type : Nat) (ws : List Word) : List Word := lf type 0 1 1 ws

/-- A descriptor for port 0 with `NO_NEG`: opcode, bytes A and B of word 2. -/
def job (op a b : Nat) : Job := { w0 := BitVec.ofNat 32 (op + 2 ^ 29), w2 := BitVec.ofNat 32 (a * 2 ^ 16 + b * 2 ^ 24) }

/-- A good reply of `n` zero bytes. -/
def good (n : Nat) : Reply := { outcome := .ok, data := List.replicate n 0 }

/-- A record body of type 0x20. -/
def body58 : List Byte := List.replicate 58 0

/-- The next packet of the pool has the name `n`. -/
def nextIs (n : Nat) (m : Main) : Main := { m with pool := { m.pool with nextId := n } }


/-- A stitch of core 0 that has met `log` and has `r` to read. -/
def reads (j : Job) (log : List AirEv) (r : Reply) : Main :=
  modEng (running j) 0 fun g => { g with ctx0 := { g.ctx0 with sc := { live := true, log := log, inbox := some r } } }

/-- The same on a host's last exchange, sent by core 0, in an ARM's chain. -/
def inChain (m : Main) : Main := modCore m 0 fun c => { c with chain := true }

/-- The check of a wired ledger command. -/
def wchk (w : Wired) (code : Nat) (host : List Byte) : BitVec 16 :=
  match w with
  | .i2c => BitVec.ofNat 16 (CrcKind.ccitt.of (byte code :: host))
  | .spi => (spiCheck host).setWidth 16

/-- The data symbols of a frame at order 10. -/
def syms (pl : List Byte) : List Nat := (radioSymbols 10 0 14 false pl).drop 2

/-- Demodulator 0 has heard the first block of a frame. -/
def hearing (m : Main) (pl : List Byte) : Main :=
  modDemod m 0 fun y => { y with st := 3, order := 10, length := pl.length, bits := heardBits (heardWords 10 ((syms pl).take 24)) }

/-- The rest of its symbols. -/
def rest (pl : List Byte) : List Nat := (syms pl).drop 24

/-- A header with its check. -/
def hdr (cmd : BitVec 8) (addr len : BitVec 16) : SpiHeader :=
  { cmd := cmd, addr := addr, len := len, hchk := spiCheck (byte cmd.toNat :: leBytes 2 addr.toNat ++ leBytes 2 len.toNat) }

/-! ### Ill-formed commands, one for each check of WellFormed.lean -/

def refuses (l : List Instr) : Bool := l.all fun i => !i.wf

theorem test_wf_power : refuses
    [.clockMonitorWindow (2 ^ 32) false, .targetFieldDetected 65536, .junctionTempSample 32768, .junctionTempSample (-32769),
     .imageReadComplete { length := 2 ^ 32 }, .imageOverSpiPassed { length := 2 ^ 32 }] = true := by decide +kernel

theorem test_wf_fields : refuses
    [.portCheck 0 65536 0, .portCheck 0 0 1801, .portCheck 0 0 (-1801), .fieldAt95 0 256,
     .replyEnd 0 { sym := .phase [(200000001, 0)] }, .replyEnd 0 { sym := .chars [] [[(0, 0)]] },
     .replyEnd 0 { sym := .halves [((0, -200000001), (0, 0))] }, .adcOverload 0 0 0 { sym := .tones [((0, 0), (0, 200000001))] },
     .replyEnd 0 { sym := .halves [], dc := some (200000001, 0) }, .dcOffsetEstimate 0 128 0, .dcOffsetEstimate 0 0 (-129)] = true := by
  decide +kernel

theorem test_wf_burnish : refuses ([
    .tune 0 false 0 0 0, .tune 0 false 0 0 65, .tune 0 false 1801 0 1, .tune 0 false 0 65536 1, .ownCarrier 0 false 32768 0,
    .ownCarrier 0 false 0 (-32769), .ownRefresh 0 false 32768 0, .dcOffset 0 128 0, .dcOffset 0 0 128, .iqTrim 0 128 0, .iqTrim 0 0 128,
    .neighbours 0 (List.replicate 512 {}), .neighbours 0 [{ gport := 512 }], .stalePair 0 { gport := 0, kAtt := 256 },
    .stalePair 0 { gport := 0, aAtt := 256 }, .stalePair 0 { gport := 0, aArg := 1024 }, .coreChain (List.replicate 17 0), .coreChain [32768],
    .radioFreq 65537, .radioDc 128 0, .radioDc 0 128, .devicePhase 32768].map fun r => .burnishStepComplete [r] false) = true := by
  decide +kernel

theorem test_wf_measurements :
    refuses [.stitchProbe 0 0 65536 0 0 0, .stitchProbe 0 0 0 1801 0 0, .stitchProbe 0 0 0 0 256 0, .stitchProbe 0 0 0 0 0 256,
      .watchProbeStep 0 (List.replicate 17 { port := 0, zMag := 0, zArg := 0 }),
      .watchProbeStep 0 [{ port := 0, zMag := 65536, zArg := 0 }]] = true := by decide +kernel

theorem test_wf_pool_target_ledger : refuses
    [.scrubPass { singles := [(16384, none, 0)] }, .scrubPass { doubles := [(16384, none, 0)] }, .tgtApduSelect 0 0 (List.replicate 256 0),
     .tgtReadBinary 0 0 257, .tgtAppendRecord 0 0 (List.replicate 256 0), .tgtUpdateRecord 0 0 (List.replicate 256 0),
     .tgtInternalAuth 0 0 (List.replicate 256 0), .tgtExternalAuth 0 0 (List.replicate 256 0), .tgtStpArm { fr 6 [] with rest := 8 },
     .tgtStpAuth1 { fr 10 [] with depth := 1001 }, .ledgerAppendAudit .i2c 0 (List.replicate 65 0) 0,
     .ledgerWriteSetting .i2c 0 (List.replicate 65 0) 0] = true := by decide +kernel

theorem test_wf_radio : refuses
    [.rssiGateUpdate 0 32768, .detectorWindow 0 0 (some ⟨256, 0, 0⟩), .detectorWindow 0 6 (some ⟨0, 0, 32768⟩),
     .demodHeader 0 (List.replicate 25 0), .demodHeader 0 [2 ^ 14], .demodPayloadEnd 0 (List.replicate 673 0) {}, .radioRetune 779999999,
     .radioRetune 1020000001, .radioTxStart (.held 32), .txFrameExpiry 32, .lbtMeasureEnd (List.replicate 65 0)] = true := by
  decide +kernel

theorem test_wf_dictionary : refuses ([
    .spi (List.replicate 15 0) 0, .spi (List.replicate 65 0) 0, .air 0 (List.replicate 238 0)].flatMap fun s =>
      [.dictRead s, .dictWrite s, .dictSegRead s, .dictSegWrite s, .dictSegment s, .dictAbort s]) = true ∧
    refuses [.dictRoutedResponse false (List.replicate 238 0), .routeTimeout 32, .transferIdleExpiry 8, .trackExpiry 64] = true := by
  decide +kernel

theorem test_wf_ports : refuses
    [.spiReadQ (hdr 0 0 0) 4097, .spiWriteQ (hdr 0 0 0) (List.replicate 4097 0) 0, .spiDictDefer (List.replicate 65 0),
     .canFrameRx { id := 0, data := List.replicate 9 0 }] = true := by decide +kernel

theorem test_wf_lace :
    let p : List Word := List.replicate 260 0
    refuses [.laceLinkTrained .a 0 65536, .laceFrameForward .a p, .laceDiscover .a p 0, .laceDiscover .a [] 65536, .laceTick .a p, .lacePhase .a p,
      .laceAlign .a p, .laceField .a p, .laceClaim .a p, .laceAccept .a p, .laceDict .a p, .laceStitch .a p, .laceResult .a p, .laceJournal .a p,
      .laceStitchRefusal .a p] = true := by decide +kernel

/-- The checks leave ordinary commands alone. -/
theorem test_wf_accepts : [Instr.rstNLow, .junctionTempSample (-32768), .portCheck 0 65535 (-1800), .targetFieldDetected 65535,
    .scrubPass { singles := [(16383, none, 0)] }, .detectorWindow 0 0 (some ⟨255, 0, 0⟩), .radioRetune 780000000, .radioRetune 1020000000,
    .dictRead (.spi (List.replicate 16 0) 0), .canFrameRx { id := 0, data := List.replicate 12 0 }, .trackExpiry 63].all (·.wf) = true := by
  decide +kernel

/-! ### Values that the spec works out -/

/-- Source: the table of R513, over "123456789". -/
theorem test_crc_check_values : [CrcKind.crc8, .ccitt, .crc32, .crc32c].map (fun k => k.of ((List.range 9).map fun i => byte (0x31 + i))) =
    [0x20, 0x29B1, 0xCBF43926, 0xE3069283] := by decide +kernel

/-- Source: FIPS 197, appendix C.1 (the AES of R245 and R422). -/
theorem test_aes128 : aes128 0x0F0E0D0C0B0A09080706050403020100 ((List.range 16).map fun i => byte (0x11 * i)) =
    [0x69, 0xC4, 0xE0, 0xD8, 0x6A, 0x7B, 0x04, 0x30, 0xD8, 0xCD, 0xB7, 0x80, 0x70, 0xB4, 0xC5, 0x5A] := by decide +kernel

/-- Source: the worked example of chapter 02 on derating: 3.5 W at 120.0 °C. -/
theorem test_derating : limitNw (modPw State.reset.m fun p => { p with tj := 1200 }) = 3500000000 := by decide +kernel

/-- Source: the worked example of chapter 04 on the fault of `FC5`. -/
theorem test_cores_after_fault :
    let m := modCore (inMode .transact) 5 fun c => { c with state := 1 }
    servingCores m 40 = [4] ∧ servingCores m 48 = [6] ∧ servingCores m 36 = [4, 3] := by decide +kernel

/-- Fifteen fields at code 112. -/
def fifteen : Main := (List.range 15).foldl (fun m k => modCore m (finOf 16 k) fun c =>
  { c with fld := some { owner := .ctx 0 0, port := finOf 128 (8 * k), level := 112, closed := true } }) (inMode .transact)

/-- Source: the worked example of chapter 04 on the governor: the sixteenth field is refused by the sum; one field alone is admitted, and
no field when the window holds its 6.0 J. -/
theorem test_governor : governor fifteen (levelNw 112) = 1 ∧ governor (inMode .transact) (levelNw 112) = 0 ∧
    governor { inMode .transact with sch := { bins := [6000000000 * tickS] } } (levelNw 112) = 2 := by decide +kernel

/-- The couplings of the worked examples of chapter 05: −16 dB, with leaks of −38, −50 and −58 dB at 90°. -/
def wallNbrs (i : Nat) : List NbrEntry := ([0, 1, 2, 3].filter (· != i)).map fun j =>
  { gport := 35 + 8 * j, kAtt := 32, aAtt := nth [0, 76, 100, 116] ((i : Int) - j).natAbs 0, aArg := 256 }
def wall (n : Nat) : Main :=
  (List.range n).foldl (fun m i => modPort m (finOf 128 (35 + 8 * i)) fun x => { x with nbr := wallNbrs i }) (inMode .transact)

def wallField (i : Nat) (code : Int) : FV := { g := 35 + 8 * i, loc := some (finOf 128 (35 + 8 * i)), core := none, level := 100, code := code, sub8 := false, stp := true }

/-- Source: the worked examples of chapter 05: codes 0, 0, 512, 512. -/
theorem test_drive_phase_1 : choosePhase (wall 4) [] (wallField 0 0) = 0 ∧ choosePhase (wall 4) [wallField 0 0] (wallField 1 0) = 0 := by
  decide +kernel
theorem test_drive_phase_2 : choosePhase (wall 4) [wallField 0 0, wallField 1 0] (wallField 2 0) = 512 := by decide +kernel
theorem test_drive_phase_3 : choosePhase (wall 4) [wallField 0 0, wallField 1 0, wallField 2 512] (wallField 3 0) = 512 := by decide +kernel

/-- Source: the worked example of chapter 06: the codes 394 and 111 for c = 0.9659 + j0.2588 and a leak of −38 dB at 90°. -/
theorem test_dac_codes :
    let c : Core := (loadDac (modPort (modCore (modCore (wall 2) 4 fun c =>
        { c with fld := some { owner := .ctx 0 0, port := 35, level := 100, closed := true, coef := (15825, 4240) } }) 5 fun c =>
        { c with fld := some { owner := .ctx 0 1, port := 43, level := 100, closed := true } }) 35 fun x =>
        { x with cHome := (15825, 4240) }) 4).cores[(4 : Fin 16)]
    (c.dacI, c.dacQ) = (394, 111) := by decide +kernel

/-- Source: the worked example of chapter 07: scores 214, 209 and 199, fastness 199, code 34 → 37. -/
theorem test_fastness :
    let x := ({ supprs := List.replicate 16 46, eyes := List.replicate 32 (2, 200, 20072), checks := List.replicate 16 11 } : Port).scores 16
    (x.sLeak, x.sEye, x.sTune, x.fastness) = (214, 209, 199, 199) ∧ tuneStep State.reset.m 34 11 1000 1 = some (37, false) := by decide +kernel

/-- Source: the windows of the carousel example of chapter 03: window 0 is 64 990 to 546. -/
theorem test_window_wraps :
    let w : Window := { w0 := word (64990 + 546 * 65536) }
    [w.contains 64990, w.contains 65535, w.contains 0, w.contains 545, w.contains 546, w.contains 64989] =
      [true, true, true, true, false, false] := by decide +kernel

/-- Source: the worked example of chapter 13: after the flush of an open packet of 5 words and 10 more, [3400:0D] reads 8E 0F 00 21 43. -/
theorem test_flush_example :
    let m := (openPkt (inMode .transact) 0 0x21 0x43 0).1
    let m := appendPkt m 0 1 (List.replicate 5 0)
    let m := (closePkt (appendPkt (flushQ m 0) 0 1 (List.replicate 10 0)) 0 1)
    (m.pool.qs[(0 : Fin 32)]).lastTrunc = [0x8E, 0x0F, 0x00, 0x21, 0x43] ∧ counter m 0x70C0 0x03 = 10 := by decide +kernel

/-- Source: the worked example of chapter 14: the floor of 2.10 V for an append and 2.43 V for a settings write at 22 µF. -/
theorem test_energy_check :
    let at_ (v : Nat) : Main := { cfgSet State.reset.m 0x6000 0x02 22 with tgt := { vHarv := v } }
    [energyOk (at_ 2099) appendEnergy, energyOk (at_ 2100) appendEnergy, energyOk (at_ 2428) settingEnergy, energyOk (at_ 2429) settingEnergy] =
      [false, true, false, true] := by decide +kernel

/-- Source: the worked example of chapter 15: 4 blocks, 542.72 ms, and ν = 82.24 bins for the network 0x5A (the model carries 4ν). -/
theorem test_chirp_frame : radioBlocks 10 32 = 4 ∧ airUs false 10 8 32 = 542720 ∧
    syncOffset 10 0x5A ⟨39324, 22876 + 16800, 22876 + 8800⟩ = some (2 * 16448) := by decide +kernel

/-- Source: the worked example of chapter 16: guard windows of 308, 1172, 3476 and 9236 ms. -/
theorem test_guard_windows :
    let g (i : Nat) : Nat := guardUs (modPt (cfgSet hub 0x4100 0x08 60000) 1 fun p =>
      { p with misses := i, drift := 40, interval := 3600, contactAt := 0, expected := 3600 * (i + 1) * tickS }) 1
    [g 0, g 1, g 2, g 3] = [308000, 1172000, 3476000, 9236000] := by decide +kernel

/-- Source: the worked example of chapter 19: the header of WRITE_Q to Q24 addresses 0x0260; R485's check of the status block is a CRC-8. -/
theorem test_status_block : (statusBlock State.reset).length = 9 ∧
    statusBlock State.reset = (statusBlock State.reset).take 8 ++ [spiCheck ((statusBlock State.reset).take 8)] := by decide +kernel

/-- Source: the trace of chapter 21: the third distinct unit within a second puts the device in HOLD. -/
theorem test_third_fault :
    let m := unitFault (unitFault (inMode .transact) 0x05 4 false false) 0x1E 1 false false
    m.pw.mode = .transact ∧ (unitFault m 0x28 1 false false).pw.mode = .hold := by decide +kernel

/-- An empty queue idles: time passes, and no command is taken. -/
theorem test_idle : step State.reset = .next { State.reset with m := { State.reset.m with now := 1 } } := rfl
theorem test_step_takes_front : step { State.reset with pending := [.rstNLow, .dispatch] } = exec .rstNLow { State.reset with pending := [.dispatch] } := rfl
theorem test_no_bits : decodeTableWord 8 0 = none ∧ State.withFetchWord State.reset 8 0 = State.reset := ⟨rfl, rfl⟩

/-! ### The hypotheses of the statements can be met -/


/-! ### Premises of the statements, from facts that can be decided -/

theorem runsNone {l : Ledger} (h : l.running = none) : noAppendRuns l := fun a ha => by rw [h] at ha; cases ha

theorem fobOpen_of {s : State} (h : tgtCarries s.m = true ∧ tgtEnabled s.m 1 = true ∧ s.m.tgt.session = .stp ∧ s.m.tgt.releaseWait = false ∧
    s.lgr.running = none) : fobOpen s := ⟨h.1, h.2.1, h.2.2.1, h.2.2.2.1, runsNone h.2.2.2.2⟩

/-- The premise of fobDecodes, as a test. -/
def decodesB (s : State) (f : StpRx) : Bool :=
  decide (tgtCarries s.m = true ∧ tgtEnabled s.m 1 = true ∧ s.m.tgt.session = .stp ∧ s.m.tgt.releaseWait = false ∧ s.lgr.running = none) &&
  match rxRate f.first with
  | none => false
  | some r => s.m.tgt.stp.reply.all fun x => decide (x.1 ≤ frameFrom s f r ∧ x.2 + fcTicks 256 ≤ frameFrom s f r)

theorem rate_of {s : State} {f : StpRx} (h : decodesB s f = true) : ∃ rate, rxRate f.first = some rate ∧
    ∀ a b, s.m.tgt.stp.reply = some (a, b) → a ≤ frameFrom s f rate ∧ b + fcTicks 256 ≤ frameFrom s f rate := by
  obtain ⟨_, h₂⟩ := Bool.and_eq_true _ _ ▸ h
  cases hr : rxRate f.first with
  | none => simp [hr] at h₂
  | some r => exact ⟨r, rfl, fun a b hab => by simpa [hr, hab] using h₂⟩

/-- The binding in the premise of fobHears, as a test. -/
def hearsB (s : State) (f : StpRx) (code : Nat) (params : List Byte) (claim : Bool) : Bool :=
  s.m.tgt.stp.bound.any fun x => decide (x.1 < 128 ∧ f.rest = 0 ∧ 120 ≤ f.depth ∧ params.length ≤ 36 ∧ f.bytes = stpBytes x.1 claim code params)

theorem tag_of {s : State} {f : StpRx} {code : Nat} {params : List Byte} (claim : Bool) (h : hearsB s f code params claim = true) :
    ∃ tag claim l, s.m.tgt.stp.bound = some (BitVec.toNat tag, l) ∧ spoken f tag claim code params := by
  cases hb : s.m.tgt.stp.bound with
  | none => simp [hearsB, hb] at h
  | some x =>
    simp only [hearsB, hb, Option.any_some, decide_eq_true_eq] at h
    have ht : (BitVec.ofNat 7 x.1).toNat = x.1 := by simp; omega
    exact ⟨BitVec.ofNat 7 x.1, claim, x.2, by rw [ht], h.2.1, h.2.2.1, h.2.2.2.1, by rw [ht]; exact h.2.2.2.2⟩

theorem feRested_of {m : Main} {at_ : Option Nat} (h : at_ = none) : feRested m at_ := fun t ht => by rw [h] at ht; cases ht

/-- States and operands that meet the hypotheses of clauses of StepRunsTheFrontCommand. -/
theorem test_meets_stepRunsTheFrontCommand :
    (∃ (c : Instr) (rest : List Instr) (s : State), s.pending = c :: rest) := by
  refine ⟨.alarmExpiry, [.alarmExpiry], { State.reset with pending := [.alarmExpiry, .alarmExpiry] }, ?_⟩ <;>
    and_intros <;> decide +kernel

/-- States and operands that meet the hypotheses of clauses of IdleLetsOnePeriodPass. -/
theorem test_meets_idleLetsOnePeriodPass :
    (∃ (s : State), s.pending = []) := by
  refine ⟨State.reset, ?_⟩ <;>
    and_intros <;> decide +kernel

/-- States and operands that meet the hypotheses of clauses of StartAndReset. -/
theorem test_meets_startAndReset :
    (∃ (s : State), s.m.pw.vaoOk = true ∧ (¬(s.m.pw.aoUp = true ∧ s.m.pw.mode = .rescue))) ∧
    (∃ (v : BitVec 16), v ≠ 0xA5C3#16) ∧
    (∃ (s : State), s.m.pw.ctlOn = true ∧ s.m.pw.fwRunning = true ∧ s.m.pw.ctlDown = false ∧ (s.m.pw.mode.isMain = true ∨ s.m.pw.mode = .hold)) ∧
    (∃ (s : State), s.m.pw.aoUp = true ∧ s.m.pw.mode ≠ .rescue ∧ s.m.pw.vaoOk = true ∧ s.m.pw.fieldOn = false) := by
  refine ⟨⟨State.reset, ?_⟩,
    ⟨0x0000#16, ?_⟩,
    ⟨st (inMode .transact), ?_⟩,
    ⟨State.reset, ?_⟩⟩ <;>
    and_intros <;> decide +kernel

/-- States and operands that meet the hypotheses of clauses of SuppliesClocksTemperature. -/
theorem test_meets_suppliesClocksTemperature :
    (∃ (s : State), s.m.pw.aoUp = true ∧ s.m.pw.fieldOn = true ∧ 15 ≤ s.m.pw.strength) ∧
    (∃ (s : State), s.m.pw.aoUp = true ∧ s.m.pw.fieldOn = false) ∧
    (∃ (s : State), s.m.pw.aoUp = true) ∧
    (∃ (s : State) (n : Nat), s.m.pw.ctlOn = true ∧ s.m.pw.onBackup = false ∧ windowBad n = false) ∧
    (∃ (s : State) (n : Nat), s.m.pw.ctlOn = true ∧ s.m.pw.onBackup = false ∧ windowBad n = true ∧ s.m.pw.badWindows = 0) ∧
    (∃ (s : State) (n : Nat), s.m.pw.ctlOn = true ∧ s.m.pw.onBackup = false ∧ windowBad n = true ∧ s.m.pw.badWindows ≠ 0 ∧ s.m.pw.mode.isMain = true) ∧
    (∃ (s : State), s.m.pw.ctlOn = true ∧ s.m.pw.onBackup = false ∧ s.m.pw.sleepLost = false) ∧
    (∃ (s : State), s.m.pw.aoUp = true ∧ s.m.pw.sleepClock = 1 ∧ s.m.pw.sleepLost = false) ∧
    (∃ (s : State), s.m.pw.ctlOn = true) := by
  refine ⟨⟨st (modPw (inMode .rescue) fun p => { p with fieldOn := true, strength := 15 }), ?_⟩,
    ⟨State.reset, ?_⟩,
    ⟨State.reset, ?_⟩,
    ⟨st (inMode .transact), 38867, ?_⟩,
    ⟨st (inMode .transact), 38866, ?_⟩,
    ⟨st (modPw (inMode .transact) fun p => { p with badWindows := 1 }), 39259, ?_⟩,
    ⟨st (inMode .transact), ?_⟩,
    ⟨State.reset, ?_⟩,
    ⟨st (inMode .transact), ?_⟩⟩ <;>
    and_intros <;> decide +kernel

/-- States and operands that meet the hypotheses of clauses of ControllerFaults. -/
theorem test_meets_controllerFaults :
    (∃ (s : State), s.m.pw.ctlOn = true ∧ s.m.pw.fwRunning = true) ∧
    (∃ (s : State), s.m.pw.ctlOn = true ∧ s.m.pw.fwRunning = true ∧ s.m.pw.ctlDown = true ∧ s.m.pw.mode.isMain = true) ∧
    (∃ (s : State), s.m.pw.ctlDown = true) ∧
    (∃ (s : State), s.m.pw.ctlDown = false) := by
  refine ⟨⟨st (inMode .transact), ?_⟩,
    ⟨st (modPw (inMode .transact) fun p => { p with ctlDown := true }), ?_⟩,
    ⟨st (modPw (inMode .transact) fun p => { p with ctlDown := true }), ?_⟩,
    ⟨State.reset, ?_⟩⟩ <;>
    and_intros <;> decide +kernel

/-- States and operands that meet the hypotheses of clauses of ModeRequests. -/
theorem test_meets_modeRequests :
    (∃ (s : State) (code : BitVec 8), s.m.pw.ctlDown = false ∧ s.m.pw.mode.isMain = true ∧ s.m.pw.mode ≠ .emulate ∧ busy s.m = false ∧
      s.m.pw.sleepLost = false ∧ code.toNat ≤ 4 ∧ Mode.ofCode code.toNat ≠ s.m.pw.mode) ∧
    (∃ (s : State) (code : BitVec 8), s.m.pw.ctlDown = false ∧ s.m.pw.mode = .emulate ∧ busy s.m = false ∧ 2 ≤ code.toNat ∧ code.toNat ≤ 4) ∧
    (∃ (s : State), s.m.pw.ctlDown = false ∧ s.m.pw.mode.isMain = true ∧ busy s.m = false) ∧
    (∃ (s : State) (code : BitVec 8), s.m.pw.ctlDown = false ∧ s.m.pw.mode.isMain = true ∧ (code = 5#8 ∨ code = 6#8)) ∧
    (∃ (s : State) (code : BitVec 8) (dchk : Byte), spiCheck (leBytes 4 (place 4 3 code.toNat)) = dchk ∧ spiUp s.m = true ∧ s.m.spi.stalled = none ∧
      loaderWaits s.m = false ∧ s.m.pw.mode.isMain = true ∧ s.m.pw.mode ≠ .emulate ∧ busy s.m = false ∧ s.m.pw.sleepLost = false ∧ code.toNat ≤ 4 ∧
      Mode.ofCode code.toNat ≠ s.m.pw.mode) ∧
    (∃ (s : State) (code : BitVec 8) (dchk : Byte), spiCheck (leBytes 4 (place 4 3 code.toNat)) ≠ dchk ∧ spiUp s.m = true ∧ s.m.spi.stalled = none ∧
      loaderWaits s.m = false) ∧
    (∃ (s : State) (dst : Mode), s.m.pw.pendMode = some dst ∧ (dst = .watch ∨ dst = .dormant) ∧ s.m.pw.mode.isMain = true ∧ transitionReady s.m dst =
      true ∧ s.m.pw.sleepLost = true) ∧
    (∃ (s : State) (dst : Mode), s.m.pw.pendMode = some dst ∧ s.m.pw.mode.isMain = true ∧ transitionReady s.m dst = true ∧ s.m.pw.sleepLost = false) ∧
    (∃ (s : State), s.m.pw.pendMode = none) ∧
    (∃ (s : State) (dst : Mode), s.m.pw.pendMode = some dst ∧ transitionReady s.m dst = false ∧ (∀ (e : Fin 24) (c : Fin 2), (ctxOf s.m e c).st = .run
      ∨ (ctxOf s.m e c).st = .pause → (ctxOf s.m e c).job ≠ none)) := by
  refine ⟨⟨st (inMode .transact), 0x00#8, ?_⟩,
    ⟨st (inMode .emulate), 0x02#8, ?_⟩,
    ⟨st (inMode .transact), ?_⟩,
    ⟨st (inMode .transact), 6#8, ?_⟩,
    ⟨st (inMode .transact), 4#8, spiCheck (leBytes 4 (place 4 3 4)), ?_⟩,
    ⟨st (inMode .transact), 4#8, spiCheck (leBytes 4 (place 4 3 4)) + 1, ?_⟩,
    ⟨st (modPw (inMode .transact) fun p => { p with pendMode := some .watch, sleepLost := true }), .watch, ?_⟩,
    ⟨st (modPw (inMode .transact) fun p => { p with pendMode := some .calibrate }), .calibrate, ?_⟩,
    ⟨st (inMode .transact), ?_⟩,
    ⟨st { running (job 4 0 0) with pw := { (running (job 4 0 0)).pw with pendMode := some .calibrate } }, .calibrate, ?_⟩⟩ <;>
    and_intros <;> decide +kernel

/-- States and operands that meet the hypotheses of clauses of FieldAndModes. -/
theorem test_meets_fieldAndModes :
    (∃ (h : Nat), h < 8) ∧
    (∃ (s : State) (h : Nat), 15 ≤ h ∧ s.m.pw.aoUp = true ∧ s.m.pw.rstHeld = false) ∧
    (∃ (s : State), s.m.pw.aoUp = true ∧ s.m.pw.onHarvest = false) ∧
    (∃ (s : State), s.m.pw.aoUp = true ∧ s.m.pw.onHarvest = true) ∧
    (∃ (s : State), s.m.pw.mode = .emulate ∧ s.m.pw.fieldOn = false ∧ s.m.pw.pendMode = none) ∧
    (∃ (s : State), s.m.pw.mode = .rescue ∧ s.m.pw.fieldOn = false ∧ s.m.pw.mainPresent = false) ∧
    (∃ (s : State), s.m.pw.mode = .rescue ∧ s.m.pw.fieldOn = false ∧ s.m.pw.mainPresent = true) := by
  refine ⟨⟨7, ?_⟩,
    ⟨State.reset, 15, ?_⟩,
    ⟨State.reset, ?_⟩,
    ⟨st (modPw (inMode .rescue) fun p => { p with onHarvest := true }), ?_⟩,
    ⟨st (inMode .emulate), ?_⟩,
    ⟨st (modPw (inMode .rescue) fun p => { p with mainPresent := false }), ?_⟩,
    ⟨st (inMode .rescue), ?_⟩⟩ <;>
    and_intros <;> decide +kernel

/-- States and operands that meet the hypotheses of clauses of WakeSources. -/
theorem test_meets_wakeSources :
    (∃ (s : State), sleeping s.m = true ∧ s.m.pw.wakeNArmed = true ∧ s.m.pw.mainPresent = true ∧ s.m.pw.booting = false ∧ bitAt (cfgN s.m 0x1100 0x07)
      0 = true) ∧
    (∃ (s : State), s.m.pw.wakeNArmed = false) ∧
    (∃ (s : State), sleeping s.m = true ∧ s.m.pw.mainPresent = true ∧ s.m.pw.booting = false ∧ cfgN s.m 0x1100 0x09 ≠ 0 ∧ bitAt (cfgN s.m 0x1100 0x07)
      2 = true) ∧
    (∃ (s : State), sleeping s.m = true ∧ s.m.pw.mainPresent = true ∧ s.m.pw.booting = false ∧ s.m.pw.canArmed = true ∧ bitAt (cfgN s.m 0x1100 0x07) 3
      = true) ∧
    (∃ (s : State), s.m.pw.canArmed = false) ∧
    (∃ (s : State), sleeping s.m = true) ∧
    (∃ (s : State) (src : Fin 6), s.m.pw.booting = true ∧ bitAt (cfgN s.m 0x1100 0x07) src.val = true) := by
  refine ⟨⟨State.reset, ?_⟩,
    ⟨st (modPw (inMode .dormant) fun p => { p with wakeNArmed := false }), ?_⟩,
    ⟨st (cfgSet (cfgSet (inMode .watch) 0x1100 0x09 1) 0x1100 0x07 63), ?_⟩,
    ⟨st (cfgSet (modPw (inMode .watch) fun p => { p with canArmed := true }) 0x1100 0x07 63), ?_⟩,
    ⟨State.reset, ?_⟩,
    ⟨State.reset, ?_⟩,
    ⟨st (modPw (inMode .watch) fun p => { p with booting := true }), 5, ?_⟩⟩ <;>
    and_intros <;> decide +kernel

/-- States and operands that meet the hypotheses of clauses of BootStages. -/
theorem test_meets_bootStages :
    (∃ (s : State), s.m.pw.booting = true ∧ s.m.pw.bootStage = 2) ∧
    (∃ (s : State), s.m.pw.booting = true ∧ s.m.pw.bootStage = 2 ∧ s.m.pw.refOk = true) ∧
    (∃ (s : State) (img : ImageReport), s.m.pw.booting = true ∧ s.m.pw.bootStage = 3 ∧ img.responds = true ∧ imageCheck img = 0) ∧
    (∃ (s : State) (img : ImageReport), s.m.pw.booting = true ∧ s.m.pw.bootStage = 3 ∧ img.responds = true ∧ imageCheck img ≠ 0 ∧ cfgN s.m 0x1200 0x02
      = 2) ∧
    (∃ (s : State) (img : ImageReport), s.m.pw.booting = true ∧ s.m.pw.bootStage = 3 ∧ img.responds = false ∧ cfgN s.m 0x1200 0x02 ≠ 2) ∧
    (∃ (s : State) (img : ImageReport) (good : Bool), s.m.pw.booting = true ∧ s.m.pw.bootStage = 4 ∧ s.m.pw.img = some img ∧ signCheck s.m img good =
      0) ∧
    (∃ (s : State) (img : ImageReport), s.m.pw.ctlOn = true ∧ s.m.pw.bootStage = 6 ∧ s.m.pw.mode = .dormant ∧ s.m.pw.loaded ≠ 0 ∧ img.length ≤
      s.m.pw.loaded ∧ imageCheck img = 0 ∧ signCheck s.m img img.sigOk = 0) ∧
    (∃ (s : State), s.m.pw.booting = true ∧ s.m.pw.bootStage = 5) := by
  refine ⟨⟨st (modPw (inMode .dormant) fun p => { p with booting := true, bootStage := 2 }), ?_⟩,
    ⟨st (modPw (inMode .dormant) fun p => { p with booting := true, bootStage := 2, refOk := true }), ?_⟩,
    ⟨st (modPw (inMode .dormant) fun p => { p with booting := true, bootStage := 3 }), { length := 393216 }, ?_⟩,
    ⟨st (cfgSet (modPw (inMode .dormant) fun p => { p with booting := true, bootStage := 3 }) 0x1200 0x02 2), { length := 393217 }, ?_⟩,
    ⟨st (cfgSet (modPw (inMode .dormant) fun p => { p with booting := true, bootStage := 3 }) 0x1200 0x02 1), { responds := false }, ?_⟩,
    ⟨st (modPw (inMode .dormant) fun p => { p with booting := true, bootStage := 4, img := some {} }), {}, true, ?_⟩,
    ⟨st (modPw (inMode .dormant) fun p => { p with bootStage := 6, loaded := 1024 }), {}, ?_⟩,
    ⟨st (modPw (inMode .dormant) fun p => { p with booting := true, bootStage := 5 }), ?_⟩⟩ <;>
    and_intros <;> decide +kernel

/-- States and operands that meet the hypotheses of clauses of PhaseInputs. -/
theorem test_meets_phaseInputs :
    (∃ (s : State) (b : Bool), engOn s.m = true ∧ s.m.ph.filt = none ∧ s.m.ph.level ≠ b) ∧
    (∃ (s : State) (b : Bool) (t0 : Nat), engOn s.m = true ∧ s.m.ph.filt = some (!b, t0) ∧ s.m.ph.level = b) ∧
    (∃ (s : State) (b : Bool) (t0 : Nat), s.m.ph.filt = some (b, t0) ∧ phaseSource s.m ≠ 1) ∧
    (∃ (s : State) (b : Bool) (t0 : Nat), s.m.ph.filt = some (b, t0) ∧ b ≠ !cfgB s.m 0x2000 0x03) ∧
    (∃ (s : State) (b : Bool) (t0 : Nat), s.m.ph.filt = some (b, t0) ∧ b = !cfgB s.m 0x2000 0x03 ∧ phaseSource s.m = 1 ∧ (s.m.ph.st = 1 ∨ s.m.ph.st =
      2) ∧ s.m.ph.accepted = false ∧ edgePlausible s.m t0 = true) ∧
    (∃ (s : State) (b : Bool) (t0 : Nat), s.m.ph.filt = some (b, t0) ∧ b = !cfgB s.m 0x2000 0x03 ∧ phaseSource s.m = 1 ∧ (s.m.ph.st = 1 ∨ s.m.ph.st =
      2) ∧ (s.m.ph.accepted = true ∨ edgePlausible s.m t0 = false)) ∧
    (∃ (s : State), phaseSource s.m = 1 ∧ s.m.ph.accepted = true) ∧
    (∃ (s : State), phaseSource s.m = 1 ∧ s.m.ph.accepted = false ∧ s.m.ph.st = 1 ∧ cfgN s.m 0x2000 0x09 ≠ 0) ∧
    (∃ (s : State), phaseSource s.m ≠ 2 ∧ s.m.ph.st = 2) := by
  refine ⟨⟨st (inMode .transact), true, ?_⟩,
    ⟨st (modPh (inMode .transact) fun p => { p with filt := some (true, 0) }), false, 0, ?_⟩,
    ⟨st (cfgSet (modPh (inMode .transact) fun p => { p with filt := some (true, 0) }) 0x2000 0x01 0), true, 0, ?_⟩,
    ⟨st (modPh (inMode .transact) fun p => { p with filt := some (false, 0) }), false, 0, ?_⟩,
    ⟨st (cfgSet (cfgSet (modPh (inMode .transact) fun p => { p with filt := some (true, 0), st := 1 }) 0x2000 0x01 1) 0x2000 0x0B 2), true, 0, ?_⟩,
    ⟨st (cfgSet (modPh (inMode .transact) fun p => { p with filt := some (true, 0), st := 1, accepted := true }) 0x2000 0x01 1), true, 0, ?_⟩,
    ⟨st (cfgSet (modPh (inMode .transact) fun p => { p with accepted := true }) 0x2000 0x01 1), ?_⟩,
    ⟨st (cfgSet (modPh (inMode .transact) fun p => { p with st := 1 }) 0x2000 0x01 1), ?_⟩,
    ⟨st (cfgSet (modPh (inMode .transact) fun p => { p with st := 2 }) 0x2000 0x01 1), ?_⟩⟩ <;>
    and_intros <;> decide +kernel

/-- States and operands that meet the hypotheses of clauses of PhaseSettings. -/
theorem test_meets_phaseSettings :
    (∃ (s : State), s.m.pw.mode ≠ .calibrate) ∧
    (∃ (s : State) (v : BitVec 8), s.m.pw.mode = .calibrate ∧ s.m.pw.ctlDown = false ∧ s.lgr.held = false ∧ v.toNat < 3 ∧ s.m.lace.role ≠ 2 ∧
      s.lgr.leaseBy = none ∧ s.m.pw.onHarvest = false) ∧
    (∃ (s : State), s.m.pw.mode.isMain = true ∧ s.m.pw.ctlDown = false ∧ s.m.lace.role ≠ 2) ∧
    (∃ (s : State), s.m.lace.role = 2) ∧
    (∃ (s : State) (v : BitVec 32), s.m.pw.mode.isMain = true ∧ s.m.pw.ctlDown = false ∧ s.lgr.held = false ∧ 7143 ≤ v.toNat ∧ v.toNat ≤ 25000 ∧
      s.m.lace.role ≠ 2 ∧ s.lgr.leaseBy = none ∧ s.m.pw.onHarvest = false) ∧
    (∃ (v : BitVec 32), (v.toNat < 7143 ∨ 25000 < v.toNat)) := by
  refine ⟨⟨State.reset, ?_⟩,
    ⟨st (inMode .calibrate), 2#8, ?_⟩,
    ⟨st (inMode .transact), ?_⟩,
    ⟨st (inLace 2 2 3), ?_⟩,
    ⟨st (inMode .transact), 25000#32, ?_⟩,
    ⟨7142#32, ?_⟩⟩ <;>
    and_intros <;> decide +kernel

/-- States and operands that meet the hypotheses of clauses of CyclesAndEncoder. -/
theorem test_meets_cyclesAndEncoder :
    (∃ (s : State), engOn s.m = true ∧ encFollows s.m = false) ∧
    (∃ (s : State), engOn s.m = false) ∧
    (∃ (s : State) (a : Bool) (b : Bool), engOn s.m = true ∧ phaseSource s.m = 2 ∧ s.m.ph.encA ≠ a ∧ s.m.ph.encB ≠ b ∧ (s.m.ph.st = 1 ∨ s.m.ph.st =
      2)) ∧
    (∃ (s : State) (a : Bool) (b : Bool), engOn s.m = true ∧ phaseSource s.m = 2 ∧ cfgB s.m 0x2000 0x14 = false ∧ (quadIndex a b + 4 - quadIndex
      s.m.ph.encA s.m.ph.encB) % 4 = 1) ∧
    (∃ (s : State) (a : Bool) (b : Bool), engOn s.m = true ∧ phaseSource s.m = 2 ∧ cfgB s.m 0x2000 0x14 = false ∧ (quadIndex a b + 4 - quadIndex
      s.m.ph.encA s.m.ph.encB) % 4 = 3) ∧
    (∃ (s : State), engOn s.m = true ∧ phaseSource s.m = 2 ∧ s.m.ph.encFirst = true) ∧
    (∃ (s : State), phaseSource s.m = 2) ∧
    (∃ (s : State), engOn s.m = false ∧ s.m.pw.aoUp = true ∧ phaseSource s.m = 2) ∧
    (∃ (s : State), engOn s.m = false ∧ s.m.pw.aoUp = true ∧ phaseSource s.m = 1 ∧ s.m.ph.ao.st = 1 ∧ (aoExt s.m.ph.ao s.m.now - s.m.ph.ao.ext +
      32768) / 65536 ≤ cfgN s.m 0x2000 0x09 + 1 ∧ (wrap16 ((aoExt s.m.ph.ao s.m.now % 65536 : Nat) - (cfgN s.m 0x2000 0x05 : Int))).natAbs * 100 ≤
      cfgN s.m 0x2000 0x0B * 65536) ∧
    (∃ (s : State), (engOn s.m = true ∨ s.m.pw.aoUp = false ∨ phaseSource s.m = 0 ∨ phaseSource s.m = 3)) := by
  refine ⟨⟨st (inMode .transact), ?_⟩,
    ⟨State.reset, ?_⟩,
    ⟨st (cfgSet (modPh (inMode .transact) fun p => { p with st := 1 }) 0x2000 0x01 2), true, true, ?_⟩,
    ⟨st (cfgSet (modPh (inMode .transact) fun p => { p with st := 1 }) 0x2000 0x01 2), true, false, ?_⟩,
    ⟨st (cfgSet (modPh (inMode .transact) fun p => { p with st := 1 }) 0x2000 0x01 2), false, true, ?_⟩,
    ⟨st (cfgSet (modPh (inMode .transact) fun p => { p with st := 1 }) 0x2000 0x01 2), ?_⟩,
    ⟨st (cfgSet (modPh (inMode .transact) fun p => { p with st := 1 }) 0x2000 0x01 2), ?_⟩,
    ⟨st { (modPh (cfgSet (modPw (inMode .dormant) fun p => { p with aoUp := true }) 0x2000 0x01 2) fun p => { p with st := 0 }) with now := 8000000 }, ?_⟩,
    ⟨st { (modPh (cfgSet (modPw (inMode .dormant) fun p => { p with aoUp := true }) 0x2000 0x01 1) fun p => { p with ao := { st := 1, period := 8000000, ext := 0, at_ := 0 } }) with now := 8000000 }, ?_⟩,
    ⟨st (inMode .transact), ?_⟩⟩ <;>
    and_intros <;> decide +kernel

/-- States and operands that meet the hypotheses of clauses of SlotPlan. -/
theorem test_meets_slotPlan :
    (∃ (s : State) (w : Fin 64), engOn s.m = true ∧ (activeWin s.m w).enabled = true) ∧
    (∃ (s : State) (w : Fin 64), (activeWin s.m w).enabled = false) ∧
    (∃ (s : State) (v : BitVec 32), s.m.pw.mode.isMain = true ∧ s.m.pw.ctlDown = false ∧ v ≠ 0xFFFFFFFF#32 ∧ (s.m.plan.bank (if s.m.plan.active = 0
      then 1 else 0)).toList.all Window.clean = true) ∧
    (∃ (s : State), s.m.pw.mode.isMain = true ∧ s.m.pw.ctlDown = false) ∧
    (∃ (s : State), s.m.pw.mode.isMain = true ∧ s.m.pw.ctlDown = false ∧ s.m.plan.active = 1 ∧ s.m.plan.pending = none) ∧
    (∃ (s : State), s.m.pw.mode.isMain = true ∧ s.m.pw.ctlDown = false ∧ s.m.plan.active = 0 ∧ s.m.plan.pending = none) := by
  refine ⟨⟨st (inMode .transact), 0, ?_⟩,
    ⟨State.reset, 1, ?_⟩,
    ⟨st (inMode .transact), 0x00000000#32, ?_⟩,
    ⟨st (inMode .transact), ?_⟩,
    ⟨st { inMode .transact with plan := { active := 1 } }, ?_⟩,
    ⟨st (inMode .transact), ?_⟩⟩ <;>
    and_intros <;> decide +kernel

/-- States and operands that meet the hypotheses of clauses of PlanRefusals. -/
theorem test_meets_planRefusals :
    (∃ (s : State) (b : Fin 2), s.m.pw.mode.isMain = true ∧ s.m.pw.ctlDown = false ∧ (b = s.m.plan.active ∨ s.m.plan.pending ≠ none)) ∧
    (∃ (s : State) (v : BitVec 32), s.m.pw.mode.isMain = true ∧ s.m.pw.ctlDown = false ∧ v ≠ 0xFFFFFFFF#32 ∧ (∃ w : Fin 64, ((s.m.plan.bank (if
      s.m.plan.active = 0 then 1 else 0))[w]).clean = false)) ∧
    (∃ (s : State), s.m.pw.mode.isMain = true ∧ s.m.pw.ctlDown = false) := by
  refine ⟨⟨st (inMode .transact), 0, ?_⟩,
    ⟨st { inMode .transact with plan := { bank1 := (Vector.replicate 64 {}).set 63 { w1 := 0x10000 } } }, 5#32, ?_⟩,
    ⟨st (inMode .transact), ?_⟩⟩ <;>
    and_intros <;> decide +kernel

/-- States and operands that meet the hypotheses of clauses of AFreeReaderGrants. -/
theorem test_meets_aFreeReaderGrants :
    (∃ (s : State) (p : Fin 128), s.m.sch.reqs = [] ∧ s.m.sch.state ≠ 1 ∧ noFields s.m ∧ s.m.lace.role = 0 ∧ s.m.lace.edge = [] ∧ s.m.lace.holding =
      [] ∧ s.m.lace.claimed = none ∧ s.m.pw.mode = .calibrate ∧ s.m.pw.pendMode = none ∧ s.m.pw.vtxHold = false ∧ s.m.brn.full = 1 ∧
      (s.m.ports[p]).state < 2 ∧ (s.m.ports[p]).disablePend = false ∧ (s.m.ports[p]).session = none ∧ (s.m.cores[homeCore p]).state = 0 ∧
      (s.m.cores[homeCore p]).disablePend = false ∧ cfgN s.m (0x2200 + p.val) 0x04 = 1 ∧ planAllows s.m (homeCore p) p 4 = true ∧ governor s.m
      (levelNw (cfgN s.m 0x2800 0x10)) = 0) := by
  refine ⟨st (cfgSet { inMode .calibrate with brn := { full := 1 } } 0x227F 0x04 1), 127, ?_⟩ <;>
    and_intros <;> first | decide +kernel | (unfold noFields; decide +kernel)

/-- States and operands that meet the hypotheses of clauses of SchedulerCommands. -/
theorem test_meets_schedulerCommands :
    (∃ (s : State) (p : Fin 128), s.m.sch.reqs = [] ∧ s.m.pw.vtxHold = true ∧ s.m.brn.full = 1 ∧ (s.m.ports[p]).state < 2) ∧
    (∃ (s : State), s.m.pw.mode.isMain = true) ∧
    (∃ (s : State) (w : Owner) (r : Req), s.m.sch.reqs.find? (fun x => x.owner == w) = some r ∧ r.reserved = false) := by
  refine ⟨⟨st { modPw (inMode .calibrate) (fun p => { p with vtxHold := true }) with brn := { full := 1 } }, 127, ?_⟩,
    ⟨st (inMode .transact), ?_⟩,
    ⟨st { inMode .transact with sch := { reqs := [{ owner := .lane 3, port := 0, cls := 1, made := 0 }] } }, .lane 3, { owner := .lane 3, port := 0, cls := 1, made := 0 }, ?_⟩⟩ <;>
    and_intros <;> decide +kernel

/-- States and operands that meet the hypotheses of clauses of HomeAndAlternateCores. -/
theorem test_meets_homeAndAlternateCores :
    (∃ (p : Fin 128), p.val ≤ 7) := by
  refine ⟨0, ?_⟩ <;>
    and_intros <;> decide +kernel

/-- States and operands that meet the hypotheses of clauses of FieldCourse. -/
theorem test_meets_fieldCourse_1 :
    (∃ (s : State) (k : Fin 16) (f : FieldRec) (v : FV), (s.m.cores[k]).fld = some f ∧ fieldView s.m k = some v ∧ f.closed = false ∧ planAllows s.m k
      f.port f.cls = true ∧ changeBlocked s.m v = false) ∧
    (∃ (s : State) (k : Fin 16) (f : FieldRec) (v : FV), (s.m.cores[k]).fld = some f ∧ fieldView s.m k = some v ∧ f.closed = false ∧ planAllows s.m k
      f.port f.cls = true ∧ changeBlocked s.m v = true ∧ (s.m.cores[k]).changeHeld = false) ∧
    (∃ (s : State) (k : Fin 16) (f : FieldRec), (s.m.cores[k]).fld = some f ∧ f.closed = false ∧ planAllows s.m k f.port f.cls = false) ∧
    (∃ (s : State) (k : Fin 16) (f : FieldRec), (s.m.cores[k]).fld = some f ∧ f.closed = false ∧ planAllows s.m k f.port f.cls = true) ∧
    (∃ (s : State) (k : Fin 16) (f : FieldRec) (z : Nat) (a : Int), (s.m.cores[k]).fld = some f ∧ f.closed = true ∧ f.owner ≠ .retest ∧ checkPort s.m
      f.port z a = 0) ∧
    (∃ (s : State) (k : Fin 16) (f : FieldRec) (z : Nat) (a : Int), (s.m.cores[k]).fld = some f ∧ f.closed = true ∧ f.owner = .burnish ∧ s.m.sch.reqs
      = [] ∧ (s.m.ports[f.port]).disablePend = false ∧ (s.m.cores[k]).disablePend = false ∧ (s.m.cores[k]).portFaultAt = [] ∧ (servingCores s.m
      f.port).isEmpty = false ∧ checkPort s.m f.port z a ≠ 0) ∧
    (∃ (s : State) (k : Fin 16) (f : FieldRec), (s.m.cores[k]).fld = some f ∧ f.closed = true ∧ f.at95 = false) ∧
    (∃ (s : State) (k : Fin 16), (s.m.cores[k]).state = 0 ∧ (s.m.cores[k]).disablePend = false) ∧
    (∃ (s : State) (k : Fin 16) (f : FieldRec) (v : FV), (s.m.cores[k]).fld = some f ∧ fieldView s.m k = some v ∧ f.closed = true ∧
      (s.m.cores[k]).pendOff = true ∧ (s.m.cores[k]).busy = false ∧ changeBlocked s.m v = false ∧ (s.m.cores[k]).disablePend = false) ∧
    (∃ (s : State) (k : Fin 16) (f : FieldRec), (s.m.cores[k]).fld = some f ∧ f.closed = true ∧ (s.m.cores[k]).pendOff = false) ∧
    (∃ (s : State) (k : Fin 16), (s.m.cores[k]).gapHold = true ∧ (heldLong s.m k = false ∨ ((s.m.cores[k]).next.map (·.timed)) ≠ some true)) ∧
    (∃ (s : State) (k : Fin 16), heldLong s.m k = true ∧ ((s.m.cores[k]).next.map (·.timed)) = some true) := by
  refine ⟨⟨st (withFld { owner := .burnish, port := 0, level := 40 }), 0, { owner := .burnish, port := 0, level := 40 }, ((fieldView (st (withFld { owner := .burnish, port := 0, level := 40 })).m 0).getD { g := 0, loc := none, core := none, level := 0, code := 0, sub8 := false, stp := false }), ?_⟩,
    ⟨st (modCore (modCore (modPort (withFld { owner := .burnish, port := 0, level := 40 }) 0 fun p => { p with nbr := [{ gport := 1, kAtt := 0 }] }) 1 fun c => { c with fld := some { owner := .burnish, port := 1, level := 40, closed := true, at95 := true }, exch := .receiving }) 0 fun c => c), 0, { owner := .burnish, port := 0, level := 40 }, ((fieldView (st (modCore (modCore (modPort (withFld { owner := .burnish, port := 0, level := 40 }) 0 fun p => { p with nbr := [{ gport := 1, kAtt := 0 }] }) 1 fun c => { c with fld := some { owner := .burnish, port := 1, level := 40, closed := true, at95 := true }, exch := .receiving }) 0 fun c => c)).m 0).getD { g := 0, loc := none, core := none, level := 0, code := 0, sub8 := false, stp := false }), ?_⟩,
    ⟨st { (withFld { owner := .burnish, port := 0, level := 40, cls := 2 }) with plan := { opened := Vector.replicate 64 false } }, 0, { owner := .burnish, port := 0, level := 40, cls := 2 }, ?_⟩,
    ⟨st (withFld { owner := .burnish, port := 0, level := 40 }), 0, { owner := .burnish, port := 0, level := 40 }, ?_⟩,
    ⟨st (withFld { owner := .burnish, port := 0, level := 40, closed := true }), 0, { owner := .burnish, port := 0, level := 40, closed := true }, 400, 600, ?_⟩,
    ⟨st (withFld { owner := .burnish, port := 0, level := 40, closed := true }), 0, { owner := .burnish, port := 0, level := 40, closed := true }, 400, 601, ?_⟩,
    ⟨st (withFld { owner := .burnish, port := 0, level := 40, closed := true }), 0, { owner := .burnish, port := 0, level := 40, closed := true }, ?_⟩,
    ⟨st (inMode .transact), 0, ?_⟩,
    ⟨st (modCore (withFld { owner := .burnish, port := 0, level := 40, closed := true }) 0 fun c => { c with pendOff := true }), 0, { owner := .burnish, port := 0, level := 40, closed := true }, ((fieldView (st (modCore (withFld { owner := .burnish, port := 0, level := 40, closed := true }) 0 fun c => { c with pendOff := true })).m 0).getD { g := 0, loc := none, core := none, level := 0, code := 0, sub8 := false, stp := false }), ?_⟩,
    ⟨st (withFld { owner := .burnish, port := 0, level := 40, closed := true }), 0, { owner := .burnish, port := 0, level := 40, closed := true }, ?_⟩,
    ⟨st (modCore (inMode .transact) 0 fun c => { c with gapHold := true }), 0, ?_⟩,
    ⟨st (modPort (modCore (modCore (withFld { owner := .burnish, port := 0, level := 40, closed := true }) 1 fun c => { c with fld := some { owner := .burnish, port := 1, level := 40, closed := false }, changeHold := true, changeHeld := true }) 0 fun c => { c with gapHold := true, next := some { bytes := [1], timed := true } }) 0 fun p => { p with nbr := [{ gport := 1, kAtt := 0 }] }), 0, ?_⟩⟩ <;>
    and_intros <;> decide +kernel

/-- States and operands that meet the hypotheses of clauses of FieldCourse. -/
theorem test_meets_fieldCourse_2 :
    (∃ (s : State) (k : Fin 16), (s.m.cores[k]).pendChange ≠ none) := by
  refine ⟨st (modCore (inMode .transact) 0 fun c => { c with pendChange := some 0 }), 0, ?_⟩ <;>
    and_intros <;> decide +kernel

/-- States and operands that meet the hypotheses of clauses of PortAndCoreService. -/
theorem test_meets_portAndCoreService_1 :
    (∃ (s : State) (p : Fin 128), ((s.m.ports[p]).state = 2 ∨ (s.m.ports[p]).state = 3) ∧ (s.m.ports[p]).retestEvery ≠ 0) ∧
    (∃ (s : State) (p : Fin 128), s.m.pw.mode.isMain = true ∧ s.m.pw.ctlDown = false ∧ (s.m.ports[p]).state = 0 ∧ anyCtx s.m (fun c => (c.st == .run
      || c.st == .pause) && (c.job.map (·.port)) == some p) = false) ∧
    (∃ (s : State) (p : Fin 128), s.m.pw.mode.isMain = true ∧ s.m.pw.ctlDown = false ∧ (s.m.ports[p]).state = 1) ∧
    (∃ (s : State) (p : Fin 128), s.m.pw.mode.isMain = true ∧ s.m.pw.ctlDown = false ∧ (s.m.ports[p]).state = 1 ∧ (∀ k : Fin 16,
      ((s.m.cores[k]).fld.map (·.idle)) ≠ some true)) ∧
    (∃ (s : State), s.m.pw.mode.isMain = false) ∧
    (∃ (s : State) (k : Fin 16) (c : Fin 7), c.val ≠ 0 ∧ (s.m.cores[k]).state = 0 ∧ (s.m.cores[k]).disablePend = false) ∧
    (∃ (s : State) (k : Fin 16) (c : Fin 7), c.val ≠ 0 ∧ (s.m.cores[k]).state = 3 ∧ (s.m.cores[k]).disablePend = false) ∧
    (∃ (s : State) (k : Fin 16), s.m.pw.mode.isMain = true ∧ (s.m.cores[k]).state = 1) ∧
    (∃ (s : State) (k : Fin 16), s.m.pw.mode.isMain = false ∧ (s.m.cores[k]).state = 1) ∧
    (∃ (s : State) (k : Fin 16), (s.m.cores[k]).state = 2 ∧ (s.m.cores[k]).disablePend = false) ∧
    (∃ (s : State) (k : Fin 16), (s.m.cores[k]).state = 3) ∧
    (∃ (s : State) (k : Fin 16), s.m.pw.mode.isMain = true ∧ s.m.pw.ctlDown = false ∧ (s.m.cores[k]).state = 4) := by
  refine ⟨⟨st (modPort (inMode .transact) 127 fun c => { c with state := 3, retestEvery := 5 }), 127, ?_⟩,
    ⟨st (inMode .transact), 127, ?_⟩,
    ⟨st (modPort (inMode .transact) 0 fun c => { c with state := 1 }), 0, ?_⟩,
    ⟨st (modPort (inMode .transact) 0 fun c => { c with state := 1 }), 0, ?_⟩,
    ⟨st (inMode .watch), ?_⟩,
    ⟨st (inMode .transact), 15, 6, ?_⟩,
    ⟨st (modCore (inMode .transact) 15 fun c => { c with state := 3 }), 15, 6, ?_⟩,
    ⟨st (modCore (inMode .transact) 0 fun c => { c with state := 1 }), 0, ?_⟩,
    ⟨st (modCore (inMode .hold) 0 fun c => { c with state := 1 }), 0, ?_⟩,
    ⟨st (modCore (inMode .transact) 0 fun c => { c with state := 2 }), 0, ?_⟩,
    ⟨st (modCore (inMode .transact) 0 fun c => { c with state := 3 }), 0, ?_⟩,
    ⟨st (modCore (inMode .transact) 0 fun c => { c with state := 4 }), 0, ?_⟩⟩ <;>
    and_intros <;> decide +kernel

/-- States and operands that meet the hypotheses of clauses of PortAndCoreService. -/
theorem test_meets_portAndCoreService_2 :
    (∃ (v : BitVec 8), v ≠ 0x5A#8) ∧
    (∃ (s : State) (k : Fin 16), s.m.pw.mode.isMain = true ∧ s.m.pw.ctlDown = false ∧ (s.m.cores[k]).state = 5) ∧
    (∃ (s : State) (k : Fin 16), s.m.pw.mode.isMain = true ∧ s.m.pw.ctlDown = false ∧ (s.m.cores[k]).state ≠ 5) ∧
    (∃ (s : State) (k : Fin 16), s.m.pw.mode.isMain = true ∧ s.m.pw.ctlDown = false ∧ (s.m.cores[k]).state = 0 ∧ (s.m.cores[k]).fld = none ∧ anyCtx
      s.m (fun x => (x.st == .run || x.st == .pause) && x.core == some k) = false) := by
  refine ⟨⟨0, ?_⟩,
    ⟨st (modCore (inMode .transact) 0 fun c => { c with state := 5 }), 0, ?_⟩,
    ⟨st (inMode .transact), 0, ?_⟩,
    ⟨st (inMode .transact), 0, ?_⟩⟩ <;>
    and_intros <;> decide +kernel

/-- States and operands that meet the hypotheses of clauses of FrameExchange. -/
theorem test_meets_frameExchange_1 :
    (∃ (s : State) (k : Fin 16) (f : TxFrame) (fl : FieldRec) (n : Nat), (s.m.cores[k]).fld = some fl ∧ (s.m.cores[k]).next = some f ∧ fl.closed =
      true ∧ fl.at95 = true ∧ (s.m.cores[k]).exch = .gap ∧ (s.m.cores[k]).pendOff = false ∧ (f.proto ≠ .stp ∨ (s.m.ports[fl.port]).noneWait = false) ∧
      earliestFc s.m (s.m.cores[k]) f ≤ n ∧ lateFrame s.m (s.m.cores[k]) f n = false ∧ heldFrame s.m k f n = false ∧ frameFits s.m k fl (s.m.cores[k])
      f = true) ∧
    (∃ (s : State) (k : Fin 16) (f : TxFrame) (n : Nat), (s.m.cores[k]).next = some f ∧ n < earliestFc s.m (s.m.cores[k]) f) ∧
    (∃ (s : State) (k : Fin 16) (f : TxFrame) (fl : FieldRec), (s.m.cores[k]).fld = some fl ∧ (s.m.cores[k]).next = some f ∧ f.proto = .stp ∧
      (s.m.ports[fl.port]).noneWait = true) ∧
    (∃ (s : State) (k : Fin 16) (f : TxFrame) (fl : FieldRec) (n : Nat), (s.m.cores[k]).fld = some fl ∧ (s.m.cores[k]).next = some f ∧ fl.closed =
      true ∧ fl.at95 = true ∧ (s.m.cores[k]).exch = .gap ∧ (s.m.cores[k]).pendOff = false ∧ (f.proto ≠ .stp ∨ (s.m.ports[fl.port]).noneWait = false) ∧
      earliestFc s.m (s.m.cores[k]) f ≤ n ∧ lateFrame s.m (s.m.cores[k]) f n = true) ∧
    (∃ (s : State) (k : Fin 16) (f : TxFrame), (s.m.cores[k]).exch = .sending ∧ (s.m.cores[k]).bufHeld = false ∧ (s.m.cores[k]).frame = some f ∧
      f.silent = false) ∧
    (∃ (s : State) (k : Fin 16), (s.m.cores[k]).bufHeld = true) ∧
    (∃ (s : State) (k : Fin 16) (st : Nat) (amp : Nat) (noise : Nat), (s.m.cores[k]).exch = .listening ∧ (s.m.cores[k]).blind = false ∧
      (s.m.cores[k]).ex.openAt ≤ st ∧ (s.m.cores[k]).ex.blank ≤ st ∧ st < (s.m.cores[k]).ex.closeAt ∧ detect2 noise (s.m.cores[k]).ex.margin < amp *
      amp ∧ (s.m.cores[k]).ex.first ≤ st ∧ st ≤ (s.m.cores[k]).ex.last) ∧
    (∃ (s : State) (k : Fin 16) (st : Nat) (amp : Nat) (noise : Nat), (st < (s.m.cores[k]).ex.openAt ∨ st < (s.m.cores[k]).ex.blank ∨
      (s.m.cores[k]).ex.closeAt ≤ st ∨ amp * amp ≤ detect2 noise (s.m.cores[k]).ex.margin)) ∧
    (∃ (s : State) (k : Fin 16) (st : Nat) (amp : Nat) (noise : Nat), (s.m.cores[k]).exch = .listening ∧ (s.m.cores[k]).blind = false ∧
      (s.m.cores[k]).ex.openAt ≤ st ∧ (s.m.cores[k]).ex.blank ≤ st ∧ st < (s.m.cores[k]).ex.closeAt ∧ detect2 noise (s.m.cores[k]).ex.margin < amp *
      amp ∧ (st < (s.m.cores[k]).ex.first ∨ (s.m.cores[k]).ex.last < st) ∧ (s.m.cores[k]).ex.strict = true) ∧
    (∃ (s : State) (k : Fin 16) (time : Nat) (n : Nat), (n < (s.m.cores[k]).ex.run ∨ time < (s.m.cores[k]).ex.blank)) ∧
    (∃ (s : State) (k : Fin 16) (f : TxFrame) (fl : FieldRec) (time : Nat) (n : Nat), (s.m.cores[k]).exch = .listening ∧ (s.m.cores[k]).frame = some f
      ∧ (s.m.cores[k]).fld = some fl ∧ (s.m.cores[k]).ex.run ≤ n ∧ (s.m.cores[k]).ex.blank ≤ time) ∧
    (∃ (s : State) (k : Fin 16) (f : TxFrame) (fl : FieldRec) (time : Nat) (n : Nat), (s.m.cores[k]).exch = .receiving ∧ (s.m.cores[k]).frame = some f
      ∧ (s.m.cores[k]).fld = some fl ∧ (s.m.cores[k]).ex.run ≤ n ∧ (s.m.cores[k]).ex.blank ≤ time) := by
  refine ⟨⟨st (modCore (withFld { owner := .burnish, port := 0, level := 40, closed := true, at95 := true }) 0 fun c => { c with next := some { bytes := [1] } }), 0, { bytes := [1] }, { owner := .burnish, port := 0, level := 40, closed := true, at95 := true }, 5000, ?_⟩,
    ⟨st (modCore (withFld { owner := .burnish, port := 0, level := 40, closed := true, at95 := true }) 0 fun c => { c with next := some { bytes := [1] } }), 0, { bytes := [1] }, 0, ?_⟩,
    ⟨st (modPort (modCore (withFld { owner := .burnish, port := 0, level := 40, closed := true, at95 := true }) 0 fun c => { c with next := some { bytes := [1] } }) 0 fun p => { p with noneWait := true }), 0, { bytes := [1] }, { owner := .burnish, port := 0, level := 40, closed := true, at95 := true }, ?_⟩,
    ⟨st (modCore (withFld { owner := .burnish, port := 0, level := 40, closed := true, at95 := true }) 0 fun c => { c with next := some { bytes := [1] , timed := true }, gapFrom := .reply }), 0, { bytes := [1] , timed := true }, { owner := .burnish, port := 0, level := 40, closed := true, at95 := true }, 50000000, ?_⟩,
    ⟨st (modCore (withFld { owner := .burnish, port := 0, level := 40, closed := true, at95 := true }) 0 fun c => { c with exch := .sending, frame := some { bytes := [1] } }), 0, { bytes := [1] }, ?_⟩,
    ⟨st (modCore (inMode .transact) 0 fun c => { c with bufHeld := true }), 0, ?_⟩,
    ⟨st (modCore (withFld { owner := .burnish, port := 0, level := 40, closed := true, at95 := true }) 0 fun c => { c with exch := .listening, frame := some { bytes := [1] }, ex := { openAt := 5, closeAt := 20, first := 5, last := 20, blank := 2 } }), 0, 9, 100, 1, ?_⟩,
    ⟨st (modCore (withFld { owner := .burnish, port := 0, level := 40, closed := true, at95 := true }) 0 fun c => { c with exch := .listening, ex := { openAt := 5, closeAt := 20, first := 5, last := 20, blank := 2 } }), 0, 3, 100, 1, ?_⟩,
    ⟨st (modCore (withFld { owner := .burnish, port := 0, level := 40, closed := true, at95 := true }) 0 fun c => { c with exch := .listening, ex := { openAt := 5, closeAt := 20, first := 8, last := 20, strict := true, blank := 2 } }), 0, 6, 100, 1, ?_⟩,
    ⟨st (modCore (withFld { owner := .burnish, port := 0, level := 40, closed := true, at95 := true }) 0 fun c => { c with exch := .listening, ex := { run := 3 } }), 0, 0, 1, ?_⟩,
    ⟨st (modCore (withFld { owner := .burnish, port := 0, level := 40, closed := true, at95 := true }) 0 fun c => { c with exch := .listening, frame := some { bytes := [1] } }), 0, { bytes := [1] }, { owner := .burnish, port := 0, level := 40, closed := true, at95 := true }, 500, 50, ?_⟩,
    ⟨st (modCore (withFld { owner := .burnish, port := 0, level := 40, closed := true, at95 := true }) 0 fun c => { c with exch := .receiving, frame := some { bytes := [1] } }), 0, { bytes := [1] }, { owner := .burnish, port := 0, level := 40, closed := true, at95 := true }, 500, 50, ?_⟩⟩ <;>
    and_intros <;> decide +kernel

/-- States and operands that meet the hypotheses of clauses of FrameExchange. -/
theorem test_meets_frameExchange_2 :
    (∃ (s : State) (k : Fin 16) (f : TxFrame) (fl : FieldRec), (s.m.cores[k]).exch = .listening ∧ (s.m.cores[k]).frame = some f ∧ (s.m.cores[k]).fld =
      some fl) ∧
    (∃ (s : State) (k : Fin 16) (f : TxFrame), (s.m.cores[k]).exch = .sending ∧ (s.m.cores[k]).frame = some f ∧ f.silent = true) ∧
    (∃ (s : State) (k : Fin 16) (f : TxFrame) (fl : FieldRec) (raw : RawReply) (ex : Exchange) (r : Reply), (s.m.cores[k]).frame = some f ∧
      (s.m.cores[k]).fld = some fl ∧ (s.m.cores[k]).exch = .receiving ∧ (s.m.cores[k]).ex = ex ∧ r = (judge f ex (seenOf f.proto f.ret f.dual ex
      raw.sym)).1) := by
  refine ⟨⟨st (modCore (withFld { owner := .burnish, port := 0, level := 40, closed := true, at95 := true }) 0 fun c => { c with exch := .listening, frame := some { bytes := [1] } }), 0, { bytes := [1] }, { owner := .burnish, port := 0, level := 40, closed := true, at95 := true }, ?_⟩,
    ⟨st (modCore (withFld { owner := .burnish, port := 0, level := 40, closed := true, at95 := true }) 0 fun c => { c with exch := .sending, frame := some { bytes := [1], silent := true } }), 0, { bytes := [1], silent := true }, ?_⟩,
    ⟨st (modCore (withFld { owner := .burnish, port := 0, level := 40, closed := true, at95 := true }) 0 fun c => { c with exch := .receiving, frame := some { bytes := [1] }, ex := {} }), 0, { bytes := [1] }, { owner := .burnish, port := 0, level := 40, closed := true, at95 := true }, { sym := .halves [] }, {}, (judge { bytes := [1] } {} (seenOf ({ bytes := [1] } : TxFrame).proto ({ bytes := [1] } : TxFrame).ret ({ bytes := [1] } : TxFrame).dual {} (.halves []))).1, ?_⟩⟩ <;>
    and_intros <;> decide +kernel

/-- States and operands that meet the hypotheses of clauses of BurnishEstimates. -/
theorem test_meets_burnishEstimates :
    (∃ (s : State) (r : BurnResult), s.m.pw.ctlDown = false ∧ takesResult s.m r = true) ∧
    (∃ (s : State) (r : BurnResult), takesResult s.m r = false) ∧
    (∃ (s : State), s.m.pw.ctlDown = false ∧ s.m.brn.full = 1 ∧ s.m.brn.step ≠ 8) ∧
    (∃ (s : State), s.m.pw.ctlDown = false ∧ s.m.brn.full = 1 ∧ s.m.brn.step = 8 ∧ (allFin 128).any (retestReady s.m) = false ∧ (allFin 16).any (fun k
      => carries s.m k .retest) = false) ∧
    (∃ (s : State) (k : Fin 16) (i : Int) (q : Int), (s.m.cores[k]).fld = none ∧ takesResult s.m (.dcOffset k i q) = true) ∧
    (∃ (s : State) (k : Fin 16), (s.m.cores[k]).fld ≠ none) := by
  refine ⟨⟨st (inMode .transact), Sys2Proof.BurnResult.dcOffset 0 0 0, ?_⟩,
    ⟨State.reset, Sys2Proof.BurnResult.dcOffset 0 0 0, ?_⟩,
    ⟨st { inMode .calibrate with brn := { full := 1, step := 7 } }, ?_⟩,
    ⟨st { inMode .calibrate with brn := { full := 1, step := 8 } }, ?_⟩,
    ⟨st (inMode .transact), 0, 0, 0, ?_⟩,
    ⟨st (withFld { owner := .burnish, port := 0, level := 40 }), 0, ?_⟩⟩ <;>
    and_intros <;> decide +kernel

/-- States and operands that meet the hypotheses of clauses of DispatchDeals. -/
theorem test_meets_dispatchDeals :
    (∃ (s : State) (q : Fin 32) (p : Packet) (rest : List Packet) (j : Job) (e : Fin 24), engOn s.m = true ∧ s.m.disp.stalled = [] ∧ (jobQueues
      s.m).find? (fun x => (peekPkt s.m x).isSome) = some q ∧ (s.m.pool.qs[q]).pkts = p :: rest ∧ p.opened = false ∧ p.poison = [] ∧ p.type = 0x20 ∧ 8
      ≤ p.words.length ∧ j = jobOf s.m q p.words p.closedAt (p.origin.getD s.m.lace.device) ∧ descError s.m j = none ∧ j.dev = laceDev s.m ∧
      deadlinePassed s.m j = false ∧ nextEngine s.m (cfgN s.m 0x3100 0x02) = some e) ∧
    (∃ (s : State) (q : Fin 32) (p : Packet) (rest : List Packet), engOn s.m = true ∧ s.m.disp.stalled = [] ∧ (jobQueues s.m).find? (fun x => (peekPkt
      s.m x).isSome) = some q ∧ (s.m.pool.qs[q]).pkts = p :: rest ∧ p.opened = false ∧ p.poison = [] ∧ (p.type ≠ 0x20 ∨ p.words.length < 8)) ∧
    (∃ (s : State), engOn s.m = false) ∧
    (∃ (s : State) (e : Fin 24) (d : Fin 24) (j : Job) (rest : List Job), cfgN s.m 0x3100 0x03 = 0 ∧ engServing s.m e = false ∧ ctlOn s.m = true ∧
      (s.m.engs[e]).deque = j :: rest ∧ nextEngine s.m (cfgN s.m 0x3100 0x02) = some d) ∧
    (∃ (m : Main) (depth : Nat) (e : Fin 24), nextEngine m depth = some e) := by
  refine ⟨⟨st (withPkt (inMode .transact) 24 { type := 0x20, source := 1, words := [BitVec.ofNat 32 (4 + 2 ^ 29), 0, 0, 0, 0, 0, 0, 0] }), 24, { type := 0x20, source := 1, words := [BitVec.ofNat 32 (4 + 2 ^ 29), 0, 0, 0, 0, 0, 0, 0] }, [], jobOf (inMode .transact) 24 [BitVec.ofNat 32 (4 + 2 ^ 29), 0, 0, 0, 0, 0, 0, 0] 0 0, 0, ?_⟩,
    ⟨st (withPkt (inMode .transact) 27 { type := 0x21, source := 1 }), 27, { type := 0x21, source := 1 }, [], ?_⟩,
    ⟨State.reset, ?_⟩,
    ⟨st (cfgSet (modEng (inMode .transact) 3 fun g => { g with state := 4, deque := [job 4 0 0] }) 0x3100 0x03 0), 3, 0, job 4 0 0, [], ?_⟩,
    ⟨inMode .transact, 8, 0, ?_⟩⟩ <;>
    and_intros <;> decide +kernel

/-- States and operands that meet the hypotheses of clauses of EngineService. -/
theorem test_meets_engineService :
    (∃ (s : State) (e : Fin 24) (c : Fin 5), c.val ≠ 0 ∧ (s.m.engs[e]).state = 0) ∧
    (∃ (s : State) (e : Fin 24) (c : Fin 5), c.val ≠ 0 ∧ (s.m.engs[e]).state = 3) ∧
    (∃ (s : State) (e : Fin 24), s.m.pw.mode.isMain = true ∧ (s.m.engs[e]).state = 1 ∧ (s.m.engs[e]).deque = []) ∧
    (∃ (s : State) (e : Fin 24), (s.m.engs[e]).deque ≠ []) ∧
    (∃ (s : State) (e : Fin 24), (s.m.engs[e]).state = 2) ∧
    (∃ (s : State) (e : Fin 24), (s.m.engs[e]).state = 3) ∧
    (∃ (s : State) (e : Fin 24), s.m.pw.ctlDown = false ∧ s.m.pw.mode.isMain = true ∧ (s.m.engs[e]).state = 4) ∧
    (∃ (s : State) (e : Fin 24) (v : BitVec 8), (v ≠ 0x5A#8 ∨ (s.m.engs[e]).state ≠ 4)) ∧
    (∃ (s : State) (e : Fin 24), s.m.pw.ctlDown = false ∧ s.m.pw.mode.isMain = true ∧ (s.m.engs[e]).state ≠ 4) ∧
    (∃ (s : State) (e : Fin 24), s.m.pw.ctlDown = false ∧ s.m.pw.mode.isMain = true ∧ (s.m.engs[e]).state = 5) ∧
    (∃ (s : State), (s.m.pw.mode.isMain = false ∨ s.m.pw.ctlDown = true)) := by
  refine ⟨⟨st (inMode .transact), 23, 4, ?_⟩,
    ⟨st (modEng (inMode .transact) 0 fun g => { g with state := 3 }), 0, 4, ?_⟩,
    ⟨st (modEng (inMode .transact) 0 fun g => { g with state := 1 }), 0, ?_⟩,
    ⟨st (modEng (inMode .transact) 0 fun g => { g with deque := [job 4 0 0] }), 0, ?_⟩,
    ⟨st (modEng (inMode .transact) 0 fun g => { g with state := 2 }), 0, ?_⟩,
    ⟨st (modEng (inMode .transact) 0 fun g => { g with state := 3 }), 0, ?_⟩,
    ⟨st (modEng (inMode .transact) 0 fun g => { g with state := 4 }), 0, ?_⟩,
    ⟨State.reset, 0, 0x00#8, ?_⟩,
    ⟨st (inMode .transact), 0, ?_⟩,
    ⟨st (modEng (inMode .transact) 0 fun g => { g with state := 5 }), 0, ?_⟩,
    ⟨State.reset, ?_⟩⟩ <;>
    and_intros <;> decide +kernel

/-- States and operands that meet the hypotheses of clauses of EngineWork. -/
theorem test_meets_engineWork :
    (∃ (s : State) (e : Fin 24) (c : Fin 2) (j : Job) (rest : List Job), (s.m.pw.mode = .transact ∨ s.m.pw.mode = .emulate) ∧ engServing s.m e = true
      ∧ (ctxOf s.m e c).st = .idle ∧ (s.m.engs[e]).deque = j :: rest ∧ j.bad = false ∧ s.m.sch.reqs = [] ∧ s.m.pw.vtxHold = true ∧
      (s.m.ports[j.port]).state < 2 ∧ deadlinePassed s.m j = false) ∧
    (∃ (s : State) (e : Fin 24), (s.m.engs[e]).deque = [] ∨ (s.m.pw.mode ≠ .transact ∧ s.m.pw.mode ≠ .emulate)) ∧
    (∃ (s : State) (e : Fin 24) (v : Fin 24) (c : Fin 2) (j : Job), (s.m.pw.mode = .transact ∨ s.m.pw.mode = .emulate) ∧ cfgN s.m 0x3100 0x03 ≠ 0 ∧
      engServing s.m e = true ∧ (ctxOf s.m e c).st = .idle ∧ (s.m.engs[e]).deque = [] ∧ v ≠ e ∧ (∀ w : Fin 24, w ≠ e → w ≠ v →
      (s.m.engs[w]).deque.length < (s.m.engs[v]).deque.length ∨ ((s.m.engs[w]).deque.length = (s.m.engs[v]).deque.length ∧ v.val < w.val)) ∧
      (s.m.engs[v]).deque.getLast? = some j ∧ j.bad = false ∧ s.m.sch.reqs = [] ∧ s.m.pw.vtxHold = true ∧ (s.m.ports[j.port]).state < 2 ∧
      deadlinePassed s.m j = false) ∧
    (∃ (s : State), ctlOn s.m = true) ∧
    (∃ (s : State) (e : Fin 24) (c : Fin 2) (j : Job) (k : Fin 16), (ctxOf s.m e c).job = some j ∧ (ctxOf s.m e c).core = some k ∧ j.opcode ≠ 8 ∧
      (ctxOf s.m e c).st = .pause ∨ ((ctxOf s.m e c).st = .run ∧ (ctxOf s.m e c).told = false ∧ ((ctxOf s.m e c).lost = true ∨ ((ctxOf s.m e
      c).sc.inbox = none ∧ (ctxOf s.m e c).sc.live = false)))) ∧
    (∃ (s : State) (e : Fin 24) (c : Fin 2) (j : Job) (k : Fin 16) (f : FieldRec) (g : TxFrame), (ctxOf s.m e c).job = some j ∧ (ctxOf s.m e c).core =
      some k ∧ j.opcode ≠ 8 ∧ (ctxOf s.m e c).st = .run ∧ (ctxOf s.m e c).lost = false ∧ (ctxOf s.m e c).sc.live = true ∧ (ctxOf s.m e c).sc.inbox =
      none ∧ (ctxOf s.m e c).sc.want = some g ∧ g.skip = false ∧ (s.m.cores[k]).fld = some f ∧ f.owner = .ctx e c ∧ (s.m.cores[k]).pendOff = false ∧
      planAllows s.m k f.port f.cls = true) ∧
    (∃ (s : State) (e : Fin 24) (c : Fin 2) (j : Job), (ctxOf s.m e c).job = some j ∧ j.opcode = 8) ∧
    (∃ (s : State) (e : Fin 24) (c : Fin 2) (j : Job), (ctxOf s.m e c).st = .result ∧ (ctxOf s.m e c).stalled = true ∧ (ctxOf s.m e c).job = some j ∧
      (ctxOf s.m e c).outPkt ≠ 0 ∧ (ctxOf s.m e c).out ≠ [] ∧ (ctxOf s.m e c).out.length ≤ roomOf s.m (resultOut s.m j []).1 (ctxOf s.m e c).outPkt
      (ctxOf s.m e c).out.length) := by
  refine ⟨⟨st (modEng (modPw (inMode .transact) fun p => { p with vtxHold := true }) 23 fun g => { g with deque := [job 4 0 0] }), 23, 1, job 4 0 0, [], ?_⟩,
    ⟨State.reset, 0, ?_⟩,
    ⟨st (modEng (modPw (inMode .transact) fun p => { p with vtxHold := true }) 1 fun g => { g with deque := [job 2 0 1, job 4 0 0] }), 0, 1, 0, job 4 0 0, ?_⟩,
    ⟨st (inMode .transact), ?_⟩,
    ⟨st (running (job 4 0 0)), 0, 0, job 4 0 0, 0, ?_⟩,
    ⟨st (modCtx (running (job 4 0 0)) 0 0 fun x => { x with sc := { live := true, want := some {bytes := []} } }), 0, 0, job 4 0 0, 0, { owner := .ctx 0 0, port := 0, level := 40, closed := true, at95 := true }, {bytes := []}, ?_⟩,
    ⟨st (running (job 8 0 0)), 0, 0, job 8 0 0, ?_⟩,
    ⟨st (modEng (withPkt (inMode .transact) 0 { id := 1, opened := true, type := 0x21, source := 0x40 }) 0 fun g => { g with ctx0 := { st := .result, job := some (job 4 0 0), stalled := true, outPkt := 1, out := [1, 2, 3, 4] } }), 0, 0, job 4 0 0, ?_⟩⟩ <;>
    and_intros <;> decide +kernel

/-- States and operands that meet the hypotheses of clauses of ResultLayout. -/
theorem test_meets_resultLayout :
    (∃ (s : State) (e : Fin 24) (c : Fin 2) (j : Job) (k : Fin 16) (f : FieldRec), stitchRuns s.m e c j k f ∧ (s.m.cores[k]).exch = .gap ∧
      (s.m.cores[k]).chain = false ∧ j.opcode = 12 ∧ j.origin.val = laceDev s.m ∧ roomFor s.m j.rqueue 6) := by
  refine ⟨st (running (job 12 0 0)), 0, 0, job 12 0 0, 0, { owner := .ctx 0 0, port := 0, level := 40, closed := true, at95 := true }, ?_⟩ <;>
    and_intros <;> first | decide +kernel | (constructor <;> decide +kernel)

/-- States and operands that meet the hypotheses of clauses of StpFrames. -/
theorem test_meets_stpFrames :
    (∃ (s : State) (e : Fin 24) (c : Fin 2) (j : Job) (k : Fin 16) (f : FieldRec), stitchRuns s.m e c j k f ∧ mayGoOn s.m e c k f ∧ j.opcode ≤ 6) ∧
    (∃ (s : State) (e : Fin 24) (c : Fin 2) (j : Job) (k : Fin 16) (f : FieldRec) (a : Nat) (r₀ : Reply) (r : Reply), stitchReads s.m e c j k (begun
      (ctxOf s.m e c).sc j.port a r₀) r ∧ mayGoOn s.m e c k f ∧ (s.m.cores[k]).chain = false ∧ plainJob s.m j ∧ j.opcode = 2 ∧ 1 ≤ j.byteB ∧ goodReply
      r 12 ∧ (j.uid = 0 ∨ j.uid = replyUid r)) ∧
    (∃ (s : State) (e : Fin 24) (c : Fin 2) (j : Job) (k : Fin 16) (f : FieldRec) (a : Nat) (b : Nat) (d : Nat) (r₀ : Reply) (r₁ : Reply) (r₂ :
      Reply), stitchReads s.m e c j k (begun (ctxOf s.m e c).sc j.port a r₀ ++ [.reply r₁, .num b, .num d]) r₂ ∧ mayGoOn s.m e c k f ∧
      (s.m.cores[k]).chain = true ∧ plainJob s.m j ∧ j.opcode = 3 ∧ 1 ≤ j.byteB ∧ atStart s.m e c 0x2500 0x05 ≠ 0 ∧ atStart s.m e c 0x2500 0x07 ≠ 0 ∧
      goodReply r₁ 12 ∧ (j.uid = 0 ∨ j.uid = replyUid r₁) ∧ goodReply r₂ 4 ∧ atStart s.m e c 0x2500 0x06 ≤ r₂.at_ 1) ∧
    (∃ (s : State) (e : Fin 24) (c : Fin 2) (j : Job) (k : Fin 16) (f : FieldRec) (a : Nat) (r₀ : Reply) (r : Reply) (key : BitVec 128), stitchReads
      s.m e c j k (begun (ctxOf s.m e c).sc j.port a r₀) r ∧ mayGoOn s.m e c k f ∧ (s.m.cores[k]).chain = false ∧ plainJob s.m j ∧ j.opcode = 6 ∧
      goodReply r 12 ∧ (j.uid = 0 ∨ j.uid = replyUid r) ∧ s.keys.fobKeys[finOf 8 (field j.w5.toNat 0 3)] = some key) ∧
    (∃ (s : State) (e : Fin 24) (c : Fin 2) (j : Job) (k : Fin 16) (f : FieldRec) (a : Nat) (b : Nat) (d : Nat) (ra : Nat) (r₀ : Reply) (r₁ : Reply)
      (r₂ : Reply) (key : BitVec 128), stitchReads s.m e c j k (begun (ctxOf s.m e c).sc j.port a r₀ ++ [.reply r₁, .num b, .num key.toNat, .num ra,
      .num d]) r₂ ∧ mayGoOn s.m e c k f ∧ (s.m.cores[k]).chain = false ∧ plainJob s.m j ∧ j.opcode = 6 ∧ goodReply r₁ 12 ∧ (j.uid = 0 ∨ j.uid =
      replyUid r₁) ∧ s.keys.fobKeys[finOf 8 (field j.w5.toNat 0 3)] = some key ∧ bitAt (atStart s.m e c 0x2500 0x18) (field j.w5.toNat 0 3) = false ∧
      goodReply r₂ 17 ∧ (aes128Inv key ((r₂.data.drop 1).take 16)).take 8 = leBytes 8 ra) := by
  refine ⟨⟨st (running (job 4 0 0)), 0, 0, job 4 0 0, 0, { owner := .ctx 0 0, port := 0, level := 40, closed := true, at95 := true }, ?_⟩,
    ⟨st (reads (job 2 0 3) [.num 0] (good 12)), 0, 0, job 2 0 3, 0, { owner := .ctx 0 0, port := 0, level := 40, closed := true, at95 := true }, 0, { outcome := .none }, good 12, ?_⟩,
    ⟨st (inChain (reads (job 3 0 1) [.num 0, .reply (good 12), .num 0, .num 0] { outcome := .ok, data := [0, 255, 0, 0] })), 0, 0, job 3 0 1, 0, { owner := .ctx 0 0, port := 0, level := 40, closed := true, at95 := true }, 0, 0, 0, { outcome := .none }, good 12, { outcome := .ok, data := [0, 255, 0, 0] }, ?_⟩,
    ⟨{ st (reads (job 6 0 0) [.num 0] (good 12)) with keys := { fobKeys := (Vector.replicate 8 none).set 0 (some 5) } }, 0, 0, job 6 0 0, 0, { owner := .ctx 0 0, port := 0, level := 40, closed := true, at95 := true }, 0, { outcome := .none }, good 12, 5, ?_⟩,
    ⟨{ st (reads (job 6 0 0) [.num 0, .reply (good 12), .num 0, .num 5, .num 7, .num 0] ({ outcome := .ok, data := 0 :: aes128 5 (leBytes 8 7 ++ List.replicate 8 0) })) with keys := { fobKeys := (Vector.replicate 8 none).set 0 (some 5) } }, 0, 0, job 6 0 0, 0, { owner := .ctx 0 0, port := 0, level := 40, closed := true, at95 := true }, 0, 0, 0, 7, { outcome := .none }, good 12, { outcome := .ok, data := 0 :: aes128 5 (leBytes 8 7 ++ List.replicate 8 0) }, 5, ?_⟩⟩ <;>
    and_intros <;> first | decide +kernel | (unfold goodReply; decide +kernel) | (constructor <;> decide +kernel)

/-- States and operands that meet the hypotheses of clauses of StpStitches. -/
theorem test_meets_stpStitches :
    (∃ (s : State) (e : Fin 24) (c : Fin 2) (j : Job) (k : Fin 16) (a : Nat) (r₀ : Reply) (r₁ : Reply) (r₂ : Reply), plainJob s.m j ∧ j.opcode = 0 ∧
      j.byteA = 0 ∧ stitchReads s.m e c j k (begun (ctxOf s.m e c).sc j.port a r₀ ++ [.reply r₁]) r₂ ∧ atStart s.m e c 0x2500 0x02 ≠ 0 ∧ goodReply r₁
      3 ∧ r₁.captured = false ∧ goodReply r₂ 12 ∧ roomFor s.m j.rqueue 8) ∧
    (∃ (s : State) (e : Fin 24) (c : Fin 2) (j : Job) (k : Fin 16) (a : Nat) (b : Nat) (d : Nat) (r₀ : Reply) (r₁ : Reply) (r₂ : Reply), plainJob s.m
      j ∧ j.opcode = 1 ∧ stitchReads s.m e c j k (begun (ctxOf s.m e c).sc j.port a r₀ ++ [.reply r₁, .num b, .num d]) r₂ ∧ 1 ≤ j.byteB ∧ goodReply r₁
      12 ∧ j.byteB ≤ field (r₁.at_ 11) 4 4 + 1 ∧ goodReply r₂ (1 + 16 * j.byteB) ∧ roomFor s.m j.rqueue (7 + (packWords ((r₂.data.drop 1).take (16 *
      j.byteB))).length)) ∧
    (∃ (s : State) (e : Fin 24) (c : Fin 2) (j : Job) (k : Fin 16) (a : Nat) (b : Nat) (d : Nat) (r₀ : Reply) (r₁ : Reply) (r₂ : Reply), plainJob s.m
      j ∧ j.opcode = 2 ∧ stitchReads s.m e c j k (begun (ctxOf s.m e c).sc j.port a r₀ ++ [.reply r₁, .num b, .num d]) r₂ ∧ 1 ≤ j.byteB ∧ goodReply r₁
      12 ∧ (j.uid = 0 ∨ j.uid = replyUid r₁) ∧ j.byteB ≤ field (r₁.at_ 11) 4 4 + 1 ∧ goodReply r₂ (1 + 16 * j.byteB) ∧ roomFor s.m j.rqueue (7 +
      (packWords ((r₂.data.drop 1).take (16 * j.byteB))).length)) ∧
    (∃ (s : State) (e : Fin 24) (c : Fin 2) (j : Job) (k : Fin 16) (a : Nat) (b : Nat) (d : Nat) (r₀ : Reply) (r₁ : Reply) (r₂ : Reply) (r₃ : Reply),
      plainJob s.m j ∧ j.opcode = 3 ∧ j.byteB = 1 ∧ stitchReads s.m e c j k (begun (ctxOf s.m e c).sc j.port a r₀ ++ [.reply r₁, .num b, .num d,
      .reply r₂]) r₃ ∧ atStart s.m e c 0x2500 0x05 ≠ 0 ∧ atStart s.m e c 0x2500 0x07 ≠ 0 ∧ atStart s.m e c 0x2500 0x08 ≠ 1 ∧ goodReply r₁ 12 ∧ (j.uid
      = 0 ∨ j.uid = replyUid r₁) ∧ goodReply r₂ 4 ∧ atStart s.m e c 0x2500 0x06 ≤ r₂.at_ 1 ∧ goodReply r₃ 4 ∧ (s.m.cores[k]).chain = false ∧ roomFor
      s.m j.rqueue 8) ∧
    (∃ (s : State) (e : Fin 24) (c : Fin 2) (j : Job) (k : Fin 16) (a : Nat) (b : Nat) (d : Nat) (r₀ : Reply) (r₁ : Reply) (r₂ : Reply), plainJob s.m
      j ∧ j.opcode = 4 ∧ stitchReads s.m e c j k (begun (ctxOf s.m e c).sc j.port a r₀ ++ [.reply r₁, .num b, .num d]) r₂ ∧ goodReply r₁ 12 ∧ (j.uid =
      0 ∨ j.uid = replyUid r₁) ∧ goodReply r₂ 1 ∧ roomFor s.m j.rqueue 7) ∧
    (∃ (s : State) (e : Fin 24) (c : Fin 2) (j : Job) (k : Fin 16) (a : Nat) (r₀ : Reply) (r : Reply), plainJob s.m j ∧ j.opcode = 5 ∧ stitchReads s.m
      e c j k (begun (ctxOf s.m e c).sc j.port a r₀) r ∧ j.uid = 0 ∧ roomFor s.m j.rqueue 4) ∧
    (∃ (s : State) (e : Fin 24) (c : Fin 2) (j : Job) (k : Fin 16) (a : Nat) (b : Nat) (d : Nat) (r₀ : Reply) (r₁ : Reply) (r₂ : Reply), plainJob s.m
      j ∧ j.opcode = 5 ∧ stitchReads s.m e c j k (begun (ctxOf s.m e c).sc j.port a r₀ ++ [.reply r₁, .num b, .num d]) r₂ ∧ j.uid ≠ 0 ∧ goodReply r₁
      12 ∧ j.uid = replyUid r₁ ∧ goodReply r₂ 1 ∧ roomFor s.m j.rqueue 4) ∧
    (∃ (s : State) (e : Fin 24) (c : Fin 2) (j : Job) (k : Fin 16) (a : Nat) (b : Nat) (d : Nat) (r₀ : Reply) (r₁ : Reply) (r₂ : Reply) (r₃ : Reply)
      (key : BitVec 128) (d₂ : Nat) (ra : Nat), plainJob s.m j ∧ j.opcode = 6 ∧ stitchReads s.m e c j k (begun (ctxOf s.m e c).sc j.port a r₀ ++
      [.reply r₁, .num b, .num key.toNat, .num ra, .num d, .reply r₂, .num d₂]) r₃ ∧ goodReply r₁ 12 ∧ (j.uid = 0 ∨ j.uid = replyUid r₁) ∧
      s.keys.fobKeys[finOf 8 (field j.w5.toNat 0 3)] = some key ∧ bitAt (atStart s.m e c 0x2500 0x18) (field j.w5.toNat 0 3) = false ∧ goodReply r₂ 17
      ∧ (aes128Inv key ((r₂.data.drop 1).take 16)).take 8 = leBytes 8 ra ∧ goodReply r₃ 1 ∧ roomFor s.m j.rqueue 7) ∧
    (∃ (s : State) (e : Fin 24) (c : Fin 2) (j : Job) (k : Fin 16) (a : Nat) (b : Nat) (r₀ : Reply) (r : Reply), plainJob s.m j ∧ j.opcode = 13 ∧
      stitchReads s.m e c j k (if j.kind = .stp then begun (ctxOf s.m e c).sc j.port a r₀ ++ [.num b] else [.num b]) r ∧ r.outcome = .ok ∧ roomFor s.m
      j.rqueue (6 + (packWords r.data).length)) := by
  refine ⟨⟨st (reads (job 0 0 0) [.num 0, .reply (good 3)] (good 12)), 0, 0, job 0 0 0, 0, 0, { outcome := .none }, good 3, good 12, ?_⟩,
    ⟨st (reads (job 1 0 1) [.num 0, .reply (good 12), .num 0, .num 0] (good 17)), 0, 0, job 1 0 1, 0, 0, 0, 0, { outcome := .none }, good 12, good 17, ?_⟩,
    ⟨st (reads (job 2 0 1) [.num 0, .reply (good 12), .num 0, .num 0] (good 17)), 0, 0, job 2 0 1, 0, 0, 0, 0, { outcome := .none }, good 12, good 17, ?_⟩,
    ⟨st (reads (job 3 0 1) [.num 0, .reply (good 12), .num 0, .num 0, .reply ({ outcome := .ok, data := [0, 255, 0, 0] })] (good 4)), 0, 0, job 3 0 1, 0, 0, 0, 0, { outcome := .none }, good 12, { outcome := .ok, data := [0, 255, 0, 0] }, good 4, ?_⟩,
    ⟨st (reads (job 4 0 0) [.num 0, .reply (good 12), .num 0, .num 0] (good 1)), 0, 0, job 4 0 0, 0, 0, 0, 0, { outcome := .none }, good 12, good 1, ?_⟩,
    ⟨st (reads (job 5 0 0) [.num 0] ({ outcome := .none })), 0, 0, job 5 0 0, 0, 0, { outcome := .none }, { outcome := .none }, ?_⟩,
    ⟨st (reads ({ job 5 0 0 with w3 := 7 }) [.num 0, .reply ({ outcome := .ok, data := [0, 7, 0, 0, 0, 0, 0, 0, 0, 0, 0, 0] }), .num 0, .num 0] (good 1)), 0, 0, { job 5 0 0 with w3 := 7 }, 0, 0, 0, 0, { outcome := .none }, { outcome := .ok, data := [0, 7, 0, 0, 0, 0, 0, 0, 0, 0, 0, 0] }, good 1, ?_⟩,
    ⟨{ st (reads (job 6 0 0) [.num 0, .reply (good 12), .num 0, .num 5, .num 7, .num 0, .reply ({ outcome := .ok, data := 0 :: aes128 5 (leBytes 8 7 ++ List.replicate 8 0) }), .num 0] (good 1)) with keys := { fobKeys := (Vector.replicate 8 none).set 0 (some 5) } }, 0, 0, job 6 0 0, 0, 0, 0, 0, { outcome := .none }, good 12, { outcome := .ok, data := 0 :: aes128 5 (leBytes 8 7 ++ List.replicate 8 0) }, good 1, 5, 0, 7, ?_⟩,
    ⟨st (reads (job 13 0 0) [.num 0, .num 0] (good 5)), 0, 0, job 13 0 0, 0, 0, 0, { outcome := .none }, good 5, ?_⟩⟩ <;>
    and_intros <;> first | decide +kernel | (unfold goodReply; decide +kernel) | (constructor <;> decide +kernel)

/-- States and operands that meet the hypotheses of clauses of FobsThatFailAndPauses. -/
theorem test_meets_fobsThatFailAndPauses :
    (∃ (s : State) (e : Fin 24) (c : Fin 2) (j : Job) (k : Fin 16) (a : Nat) (r₀ : Reply) (r : Reply), plainJob s.m j ∧ j.opcode = 4 ∧ roomFor s.m
      j.rqueue 7 ∧ stitchReads s.m e c j k (begun (ctxOf s.m e c).sc j.port a r₀) r ∧ r.outcome = .none ∧ cfgN s.m 0x2300 0x0A ≠ 1) ∧
    (∃ (s : State) (e : Fin 24) (c : Fin 2) (j : Job) (k : Fin 16) (a : Nat) (r₀ : Reply) (f : FieldRec) (r : Reply), plainJob s.m j ∧ j.opcode = 4 ∧
      roomFor s.m j.rqueue 7 ∧ stitchReads s.m e c j k (begun (ctxOf s.m e c).sc j.port a r₀) r ∧ mayGoOn s.m e c k f ∧ (s.m.cores[k]).chain = false ∧
      r.outcome = .none ∧ cfgN s.m 0x2300 0x0A = 1) ∧
    (∃ (s : State) (e : Fin 24) (c : Fin 2) (j : Job) (k : Fin 16) (a : Nat) (r₀ : Reply) (r : Reply), plainJob s.m j ∧ j.opcode = 4 ∧ roomFor s.m
      j.rqueue 7 ∧ stitchReads s.m e c j k (begun (ctxOf s.m e c).sc j.port a r₀) r ∧ goodReply r 12 ∧ j.uid ≠ 0 ∧ j.uid ≠ replyUid r) ∧
    (∃ (s : State) (e : Fin 24) (c : Fin 2) (j : Job) (k : Fin 16) (a : Nat) (b : Nat) (d : Nat) (r₀ : Reply) (r₁ : Reply) (r₂ : Reply), plainJob s.m
      j ∧ j.opcode = 4 ∧ roomFor s.m j.rqueue 7 ∧ stitchReads s.m e c j k (begun (ctxOf s.m e c).sc j.port a r₀ ++ [.reply r₁, .num b, .num d]) r₂ ∧
      goodReply r₁ 12 ∧ (j.uid = 0 ∨ j.uid = replyUid r₁) ∧ r₂.outcome = .none) ∧
    (∃ (s : State) (e : Fin 24) (c : Fin 2) (j : Job) (k : Fin 16) (a : Nat) (b : Nat) (d : Nat) (r₀ : Reply) (r₁ : Reply) (r₂ : Reply) (g : TxFrame),
      plainJob s.m j ∧ j.opcode = 4 ∧ roomFor s.m j.rqueue 7 ∧ stitchReads s.m e c j k (begun (ctxOf s.m e c).sc j.port a r₀ ++ [.reply r₁, .num b,
      .num d]) r₂ ∧ goodReply r₁ 12 ∧ (j.uid = 0 ∨ j.uid = replyUid r₁) ∧ (s.m.cores[k]).frame = some g ∧ g.silent = false ∧ (s.m.cores[k]).parityAt =
      []) ∧
    (∃ (s : State) (e : Fin 24) (c : Fin 2) (j : Job) (k : Fin 16) (f : FieldRec) (g : TxFrame), (ctxOf s.m e c).st = .run ∧ (ctxOf s.m e c).job =
      some j ∧ (ctxOf s.m e c).core = some k ∧ (ctxOf s.m e c).lost = false ∧ (ctxOf s.m e c).sc.live = true ∧ (ctxOf s.m e c).sc.inbox = none ∧
      (ctxOf s.m e c).sc.want = some g ∧ g.skip = false ∧ (s.m.cores[k]).fld = some f ∧ f.owner = .ctx e c ∧ (s.m.cores[k]).exch = .gap ∧
      (s.m.cores[k]).chain = false ∧ planAllows s.m k f.port f.cls = false ∧ j.opcode ≤ 13 ∧ j.opcode ≠ 8 ∧ j.opcode ≠ 12 ∧
      (s.m.ports[j.port]).session = none ∧ (∀ r ∈ s.m.sch.reqs, r.owner ≠ .ctx e c)) ∧
    (∃ (s : State) (e : Fin 24) (c : Fin 2) (j : Job) (k : Fin 16) (f : FieldRec), (ctxOf s.m e c).st = .run ∧ (ctxOf s.m e c).job = some j ∧ (ctxOf
      s.m e c).core = some k ∧ (ctxOf s.m e c).lost = true ∧ (ctxOf s.m e c).told = false ∧ (ctxOf s.m e c).sc.prog.acquired = true ∧ mayGoOn s.m e c
      k f ∧ f.at95 = true ∧ f.sub8 = bitAt j.port.val 3 ∧ (s.m.cores[k]).exch = .gap ∧ (s.m.cores[k]).chain = false ∧ (j.opcode = 2 ∨ j.opcode = 3 ∨
      j.opcode = 4)) ∧
    (∃ (s : State) (e : Fin 24) (c : Fin 2), ((ctxOf s.m e c).st ≠ .run ∨ (ctxOf s.m e c).lost = false)) := by
  refine ⟨⟨st (cfgSet (reads (job 4 0 0) [.num 0] ({ outcome := .none })) 0x2300 0x0A 0), 0, 0, job 4 0 0, 0, 0, { outcome := .none }, { outcome := .none }, ?_⟩,
    ⟨st (reads (job 4 0 0) [.num 0] ({ outcome := .none })), 0, 0, job 4 0 0, 0, 0, { outcome := .none }, { owner := .ctx 0 0, port := 0, level := 40, closed := true, at95 := true }, { outcome := .none }, ?_⟩,
    ⟨st (reads ({ job 4 0 0 with w3 := 7 }) [.num 0] (good 12)), 0, 0, { job 4 0 0 with w3 := 7 }, 0, 0, { outcome := .none }, good 12, ?_⟩,
    ⟨st (reads (job 4 0 0) [.num 0, .reply (good 12), .num 0, .num 0] ({ outcome := .none })), 0, 0, job 4 0 0, 0, 0, 0, 0, { outcome := .none }, good 12, { outcome := .none }, ?_⟩,
    ⟨st (modCore (reads (job 4 0 0) [.num 0, .reply (good 12), .num 0, .num 0] ({ outcome := .none })) 0 fun c => { c with frame := some { bytes := [] } }), 0, 0, job 4 0 0, 0, 0, 0, 0, { outcome := .none }, good 12, { outcome := .none }, { bytes := [] }, ?_⟩,
    ⟨st (modCtx { cfgSet (running (job 4 0 0)) 0x2000 0x01 1 with plan := { bank0 := Vector.replicate 64 {}, opened := Vector.replicate 64 false } } 0 0 fun x => { x with sc := { live := true, want := some { bytes := [] } } }), 0, 0, job 4 0 0, 0, { owner := .ctx 0 0, port := 0, level := 40, closed := true, at95 := true }, { bytes := [] }, ?_⟩,
    ⟨st (modCtx (running (job 4 0 0)) 0 0 fun x => { x with lost := true, sc := { prog := { acquired := true } } }), 0, 0, job 4 0 0, 0, { owner := .ctx 0 0, port := 0, level := 40, closed := true, at95 := true }, ?_⟩,
    ⟨st (running (job 4 0 0)), 0, 0, ?_⟩⟩ <;>
    and_intros <;> first | decide +kernel | (unfold goodReply; decide +kernel) | (constructor <;> decide +kernel)

/-- States and operands that meet the hypotheses of clauses of IsoStitches. -/
theorem test_meets_isoStitches_1 :
    (∃ (s : State) (e : Fin 24) (c : Fin 2) (j : Job) (k : Fin 16) (r₁ : Reply) (r₂ : Reply) (v : Nat), j.origin.val = laceDev s.m ∧ noDisable s.m
      j.port ∧ j.opcode = 7 ∧ j.proto = 2 ∧ j.byteB ≠ 0 ∧ stitchReads s.m e c j k [.reply r₁, .num v] r₂ ∧ r₁.outcome = .ok ∧ 12 ≤ r₁.data.length ∧
      bitAt (r₁.at_ 10) 0 = true ∧ r₂.outcome = .ok ∧ roomFor s.m j.rqueue (9 + (packWords r₁.data).length)) ∧
    (∃ (s : State) (e : Fin 24) (c : Fin 2) (j : Job) (k : Fin 16) (r₀ : Reply) (r₁ : Reply) (r₂ : Reply), j.origin.val = laceDev s.m ∧ noDisable s.m
      j.port ∧ j.opcode = 7 ∧ j.proto = 1 ∧ stitchReads s.m e c j k [.reply r₀, .reply r₁] r₂ ∧ r₀.outcome = .ok ∧ r₁.outcome = .ok ∧ r₁.data.length =
      5 ∧ r₁.lastbits = 0 ∧ r₁.data.foldl (· ^^^ ·) 0 = (0 : Byte) ∧ r₂.outcome = .ok ∧ r₂.data ≠ [] ∧ bitAt (r₂.at_ 0) 2 = false ∧ bitAt (r₂.at_ 0) 5
      = false ∧ roomFor s.m j.rqueue 9) ∧
    (∃ (s : State) (e : Fin 24) (c : Fin 2) (j : Job) (k : Fin 16) (r : Reply), j.origin.val = laceDev s.m ∧ noDisable s.m j.port ∧ j.opcode = 7 ∧
      (j.proto = 1 ∨ (j.proto = 2 ∧ j.byteB = 1)) ∧ stitchReads s.m e c j k [] r ∧ r.outcome = .none ∧ roomFor s.m j.rqueue 4) ∧
    (∃ (s : State) (e : Fin 24) (c : Fin 2) (j : Job) (k : Fin 16) (x : Session) (r : Reply), j.origin.val = laceDev s.m ∧ noDisable s.m j.port ∧
      j.opcode = 8 ∧ (s.m.ports[j.port]).session = some x ∧ j.close = false ∧ stitchReads s.m e c j k [] r ∧ 4 ≤ x.fsc ∧ 1 ≤ field j.w3.toNat 0 16 ∧
      field j.w3.toNat 0 16 ≤ x.fsc - 3 ∧ r.outcome = .ok ∧ r.data ≠ [] ∧ r.at_ 0 = (if x.blockNo then 3 else 2) ∧ r.data.length - 1 ≤ respRoom s.m j
      ∧ roomFor s.m j.rqueue (5 + (packWords (r.data.drop 1)).length)) ∧
    (∃ (s : State) (e : Fin 24) (c : Fin 2) (j : Job) (k : Fin 16) (x : Session) (r : Reply), j.origin.val = laceDev s.m ∧ j.opcode = 8 ∧
      (s.m.ports[j.port]).session = some x ∧ stitchReads s.m e c j k [.lost] r ∧ roomFor s.m j.rqueue 4) ∧
    (∃ (s : State) (e : Fin 24) (c : Fin 2) (j : Job) (k : Fin 16) (r : Reply), j.origin.val = laceDev s.m ∧ j.opcode = 9 ∧ field j.byteB 1 2 = 2 ∧
      stitchReads s.m e c j k [] r ∧ atStart s.m e c 0x2500 0x02 ≠ 0 ∧ r.outcome = .ok ∧ 10 ≤ r.data.length ∧ bitAt (r.at_ 0) 0 = false ∧ roomFor s.m
      j.rqueue 8) ∧
    (∃ (s : State) (e : Fin 24) (c : Fin 2) (j : Job) (k : Fin 16) (r : Reply), j.origin.val = laceDev s.m ∧ j.opcode = 10 ∧ j.byteB = 1 ∧ bitAt
      j.w5.toNat 0 = false ∧ bitAt j.w5.toNat 1 = false ∧ stitchReads s.m e c j k [] r ∧ r.outcome = .ok ∧ bitAt (r.at_ 0) 0 = false ∧ r.data.length ≤
      256 ∧ roomFor s.m j.rqueue (5 + (packWords (r.data.drop 1)).length)) ∧
    (∃ (s : State) (e : Fin 24) (c : Fin 2) (j : Job) (k : Fin 16) (r : Reply), j.origin.val = laceDev s.m ∧ j.opcode = 10 ∧ j.byteB ≠ 0 ∧ bitAt
      j.w5.toNat 0 = false ∧ stitchReads s.m e c j k [] r ∧ r.outcome = .ok ∧ bitAt (r.at_ 0) 0 = true ∧ r.at_ 1 ≠ 0 ∧ roomFor s.m j.rqueue 5) ∧
    (∃ (s : State) (e : Fin 24) (c : Fin 2) (j : Job) (k : Fin 16) (r : Reply), j.origin.val = laceDev s.m ∧ j.opcode = 11 ∧ j.byteB = 1 ∧ bitAt
      j.w5.toNat 0 = false ∧ bitAt j.w5.toNat 1 = false ∧ stitchReads s.m e c j k [] r ∧ atStart s.m e c 0x2500 0x05 ≠ 0 ∧ r.outcome = .ok ∧ bitAt
      (r.at_ 0) 0 = false ∧ roomFor s.m j.rqueue 5) ∧
    (∃ (s : State) (e : Fin 24) (c : Fin 2) (j : Job) (k : Fin 16) (f : FieldRec), stitchRuns s.m e c j k f ∧ mayGoOn s.m e c k f ∧ j.opcode = 7 ∧
      j.proto = 1) ∧
    (∃ (s : State) (p : Fin 128) (x : Session) (f : FieldRec), (s.m.ports[p]).session = some x ∧ (s.m.cores[x.core]).fld = some f ∧ f.idle = true ∧
      f.port = p ∧ x.closing = false) ∧
    (∃ (s : State) (p : Fin 128), (s.m.ports[p]).session = none) := by
  refine ⟨⟨st (reads ({ job 7 0 2 with w0 := BitVec.ofNat 32 (7 + 2 * 16) }) [.reply ({ outcome := .ok, data := List.replicate 10 0 ++ [1, 0] }), .num 5] (good 1)), 0, 0, { job 7 0 2 with w0 := BitVec.ofNat 32 (7 + 2 * 16) }, 0, { outcome := .ok, data := List.replicate 10 0 ++ [1, 0] }, good 1, 5, ?_⟩,
    ⟨st (reads ({ job 7 0 0 with w0 := BitVec.ofNat 32 (7 + 16) }) [.reply (good 2), .reply (good 5)] (good 1)), 0, 0, { job 7 0 0 with w0 := BitVec.ofNat 32 (7 + 16) }, 0, good 2, good 5, good 1, ?_⟩,
    ⟨st (reads ({ job 7 0 0 with w0 := BitVec.ofNat 32 (7 + 16) }) [] ({ outcome := .none })), 0, 0, { job 7 0 0 with w0 := BitVec.ofNat 32 (7 + 16) }, 0, { outcome := .none }, ?_⟩,
    ⟨st (modPort (reads ({ job 8 0 0 with w0 := BitVec.ofNat 32 (8 + 2 * 16), w3 := 1 }) [] ({ outcome := .ok, data := [2, 0x90, 0] })) 0 fun p => { p with session := some { proto := .typeB, core := 0, fsc := 4 } }), 0, 0, { job 8 0 0 with w0 := BitVec.ofNat 32 (8 + 2 * 16), w3 := 1 }, 0, { proto := .typeB, core := 0, fsc := 4 }, { outcome := .ok, data := [2, 0x90, 0] }, ?_⟩,
    ⟨st (modPort (reads ({ job 8 0 0 with w0 := BitVec.ofNat 32 (8 + 2 * 16), w3 := 1 }) [.lost] ({ outcome := .none })) 0 fun p => { p with session := some { proto := .typeB, core := 0, fsc := 4 } }), 0, 0, { job 8 0 0 with w0 := BitVec.ofNat 32 (8 + 2 * 16), w3 := 1 }, 0, { proto := .typeB, core := 0, fsc := 4 }, { outcome := .none }, ?_⟩,
    ⟨st (reads (job 9 0 4) [] (good 10)), 0, 0, job 9 0 4, 0, good 10, ?_⟩,
    ⟨st (reads (job 10 0 1) [] (good 5)), 0, 0, job 10 0 1, 0, good 5, ?_⟩,
    ⟨st (reads (job 10 0 1) [] ({ outcome := .ok, data := [1, 0x0F] })), 0, 0, job 10 0 1, 0, { outcome := .ok, data := [1, 0x0F] }, ?_⟩,
    ⟨st (reads (job 11 0 1) [] (good 1)), 0, 0, job 11 0 1, 0, good 1, ?_⟩,
    ⟨st (running ({ job 7 0 0 with w0 := BitVec.ofNat 32 (7 + 16) })), 0, 0, { job 7 0 0 with w0 := BitVec.ofNat 32 (7 + 16) }, 0, { owner := .ctx 0 0, port := 0, level := 40, closed := true, at95 := true }, ?_⟩,
    ⟨st (modPort (withFld { owner := .ctx 0 0, port := 0, level := 40, idle := true }) 0 fun p => { p with session := some { proto := .typeB, core := 0, fsc := 4 } }), 0, { proto := .typeB, core := 0, fsc := 4 }, { owner := .ctx 0 0, port := 0, level := 40, idle := true }, ?_⟩,
    ⟨st (inMode .transact), 0, ?_⟩⟩ <;>
    and_intros <;> first | decide +kernel | (unfold noDisable; decide +kernel) | (constructor <;> decide +kernel)

/-- States and operands that meet the hypotheses of clauses of IsoStitches. -/
theorem test_meets_isoStitches_2 :
    (∃ (s : State) (e : Fin 24) (c : Fin 2) (j : Job) (k : Fin 16) (f : FieldRec) (x : Session) (g : TxFrame), (ctxOf s.m e c).st = .run ∧ (ctxOf s.m
      e c).job = some j ∧ j.opcode = 8 ∧ (ctxOf s.m e c).core = some k ∧ (ctxOf s.m e c).lost = false ∧ (ctxOf s.m e c).sc.live = true ∧ (ctxOf s.m e
      c).sc.inbox = none ∧ (ctxOf s.m e c).sc.log = [] ∧ (ctxOf s.m e c).sc.want = some g ∧ g.skip = false ∧ (s.m.cores[k]).fld = some f ∧ f.owner =
      .ctx e c ∧ (s.m.cores[k]).pendOff = false ∧ planAllows s.m k f.port f.cls = true ∧ (s.m.cores[k]).chain = false ∧ (s.m.ports[j.port]).session =
      some x) := by
  refine ⟨st (modCtx (modPort (running ({ job 8 0 0 with w0 := BitVec.ofNat 32 (8 + 2 * 16), w3 := 1 })) 0 fun p => { p with session := some { proto := .typeB, core := 0, fsc := 4 } }) 0 0 fun x => { x with sc := { live := true, want := some { bytes := [] } } }), 0, 0, { job 8 0 0 with w0 := BitVec.ofNat 32 (8 + 2 * 16), w3 := 1 }, 0, { owner := .ctx 0 0, port := 0, level := 40, closed := true, at95 := true }, { proto := .typeB, core := 0, fsc := 4 }, { bytes := [] }, ?_⟩ <;>
    and_intros <;> decide +kernel

/-- States and operands that meet the hypotheses of clauses of SurveyPasses. -/
theorem test_meets_surveyPasses :
    (∃ (s : State), s.m.pw.mode = .survey ∧ s.m.sv.running = false ∧ s.m.sv.stopped = false ∧ s.m.pw.pendMode = none ∧ s.m.sv.recOut = none) ∧
    (∃ (s : State), s.m.pw.mode = .survey ∧ s.m.sv.stopped = false ∧ s.m.pw.pendMode = none ∧ s.m.sv.running = true) ∧
    (∃ (s : State), (s.m.pw.mode ≠ .survey ∨ s.m.sv.stopped = true)) ∧
    (∃ (s : State) (k : Fin 16) (p : Fin 128) (f : FieldRec), (s.m.cores[k]).fld = some f ∧ f.owner = .lane k ∧ f.at95 = true ∧ f.port = p ∧ f.sub8 =
      bitAt p.val 3 ∧ (s.m.cores[k]).pendOff = false ∧ planAllows s.m k f.port f.cls = true ∧ (s.m.cores[k]).exch = .gap ∧ (s.m.cores[k]).chain =
      false ∧ (s.m.sv.lanes[k]).todo.head? = some p ∧ (s.m.sv.lanes[k]).ended = none ∧ (s.m.sv.lanes[k]).lost = false ∧ (s.m.sv.lanes[k]).sc.live =
      false ∧ (s.m.sv.lanes[k]).sc.inbox = none ∧ (s.m.sv.lanes[k]).sc.log = [] ∧ (s.m.sv.lanes[k]).sc.base = {} ∧ bitAt (visitCfg s.m k 0x0A) p.val =
      false) ∧
    (∃ (s : State) (k : Fin 16) (p : Fin 128) (a : Nat) (r₀ : Reply) (r : Reply), laneReads s.m k p (begun (s.m.sv.lanes[k]).sc p a r₀) r ∧ bitAt
      (visitCfg s.m k 0x0A) p.val = false ∧ visitCfg s.m k 0x08 = 0 ∧ goodReply r 12) ∧
    (∃ (s : State) (k : Fin 16) (p : Fin 128) (a : Nat) (r₀ : Reply) (r : Reply), laneReads s.m k p (begun (s.m.sv.lanes[k]).sc p a r₀) r ∧ bitAt
      (visitCfg s.m k 0x0A) p.val = false ∧ r.outcome = .none ∧ cfgN s.m 0x2300 0x0A ≠ 1) ∧
    (∃ (s : State) (k : Fin 16) (p : Fin 128) (f : FieldRec) (v : FV), (s.m.cores[k]).fld = some f ∧ (s.m.cores[k]).pendOff = true ∧ f.owner = .lane k
      ∧ fieldView s.m k = some v ∧ (f.closed = false ∨ ((s.m.cores[k]).busy = false ∧ changeBlocked s.m v = false)) ∧ (s.m.sv.lanes[k]).ended = some
      (p, 0) ∧ (s.m.sv.lanes[k]).sc.prog.acquired = true ∧ (s.m.sv.lanes[k]).sc.prog.seeked = false ∧ (s.m.sv.lanes[k]).sc.prog.badEnd = false ∧ bitAt
      (svN s.m 0x0A) p.val = false) ∧
    (∃ (s : State) (k : Fin 16) (ws : List Word), (s.m.sv.lanes[k]).stalled = true ∧ (s.m.sv.lanes[k]).waiting = [ws] ∧ ws ≠ [] ∧
      (s.m.sv.lanes[k]).outPkt ≠ 0 ∧ ws.length ≤ roomOf s.m 8 (s.m.sv.lanes[k]).outPkt ws.length) ∧
    (∃ (s : State) (k : Fin 16), (s.m.sv.lanes[k]).stalled = false) ∧
    (∃ (s : State), s.m.sv.recOut = none ∧ s.m.sv.running = true ∧ s.m.sv.due = false ∧ (∀ k : Fin 16, (s.m.sv.lanes[k]).todo = [] ∧
      (s.m.sv.lanes[k]).ended = none ∧ (s.m.sv.lanes[k]).stalled = false) ∧ (svN s.m 0x03 = 0 ∨ (svN s.m 0x03 = s.m.sv.sinceEntry + 1 ∧ svN s.m 0x04 =
      2))) ∧
    (∃ (s : State) (k : Fin 16), s.m.sv.recOut = none ∧ (s.m.sv.lanes[k]).todo ≠ []) := by
  refine ⟨⟨st (inMode .survey), ?_⟩,
    ⟨st { inMode .survey with sv := { running := true } }, ?_⟩,
    ⟨State.reset, ?_⟩,
    ⟨st (modLane (withFld { owner := .lane 0, port := 0, level := 40, closed := true, at95 := true, cls := 1 }) 0 fun l => { l with todo := [0], sc := { cfg := some [(0x320008, 0), (0x32000A, 0)] } }), 0, 0, { owner := .lane 0, port := 0, level := 40, closed := true, at95 := true, cls := 1 }, ?_⟩,
    ⟨st (modLane (withFld { owner := .lane 0, port := 0, level := 40, closed := true, at95 := true, cls := 1 }) 0 fun l => { l with todo := [0], sc := { cfg := some [(0x320008, 0), (0x32000A, 0)], live := true, log := [.num 0], inbox := some (good 12) } }), 0, 0, 0, { outcome := .none }, good 12, ?_⟩,
    ⟨st (cfgSet (modLane (withFld { owner := .lane 0, port := 0, level := 40, closed := true, at95 := true, cls := 1 }) 0 fun l => { l with todo := [0], sc := { cfg := some [(0x320008, 0), (0x32000A, 0)], live := true, log := [.num 0], inbox := some { outcome := .none } } }) 0x2300 0x0A 0), 0, 0, 0, { outcome := .none }, { outcome := .none }, ?_⟩,
    ⟨st (modCore (modLane (withFld { owner := .lane 0, port := 0, level := 40, closed := true, at95 := true, cls := 1 }) 0 fun l => { l with ended := some (0, 0), sc := { prog := { acquired := true } } }) 0 fun c => { c with pendOff := true }), 0, 0, { owner := .lane 0, port := 0, level := 40, closed := true, at95 := true, cls := 1 }, ⟨0, some 0, some 0, 40, 0, false, true, false, [], some (-400)⟩, ?_⟩,
    ⟨st (modLane (withPkt (inMode .survey) 8 { id := 1, opened := true, type := 0x23, source := 0x60 }) 0 fun l => { l with stalled := true, waiting := [[1, 2]], outPkt := 1 }), 0, [1, 2], ?_⟩,
    ⟨State.reset, 0, ?_⟩,
    ⟨st { inMode .survey with sv := { running := true, cfg := [(0x320003, 0)] } }, ?_⟩,
    ⟨st (modLane (inMode .survey) 15 fun l => { l with todo := [127] }), 15, ?_⟩⟩ <;>
    and_intros <;> first | decide +kernel | (unfold goodReply; decide +kernel) | (constructor <;> decide +kernel)

/-- States and operands that meet the hypotheses of clauses of WatchSweeps. -/
theorem test_meets_watchSweeps :
    (∃ (s : State), s.m.wt.active = true ∧ s.m.wt.sweeping = false ∧ s.m.pw.vtxLow = false ∧ s.m.pw.vtxHold = false) ∧
    (∃ (s : State), s.m.wt.active = true ∧ s.m.wt.sweeping = true) ∧
    (∃ (s : State), s.m.wt.active = true ∧ s.m.wt.sweeping = false ∧ (s.m.pw.vtxLow = true ∨ s.m.pw.vtxHold = true)) ∧
    (∃ (s : State), s.m.wt.active = false) ∧
    (∃ (s : State) (x : Probe) (pos : Fin 8) (w : WatchPort), s.m.wt.sweeping = true ∧ x.port.val % 8 = pos.val ∧ s.m.wt.repeats = 0 ∧
      s.m.wt.ports.find? (fun w => w.port == x.port && !w.dead && probePlaced s.m w.port) = some w ∧ zState (cfgN s.m (0x2200 + x.port.val) 0x09)
      (cfgN s.m (0x2200 + x.port.val) 0x08) x.zMag x.zArg = 0) ∧
    (∃ (s : State) (x : Probe) (pos : Fin 8) (w : WatchPort), s.m.wt.sweeping = true ∧ x.port.val % 8 = pos.val ∧ s.m.wt.ports.find? (fun w => w.port
      == x.port && !w.dead && probePlaced s.m w.port) = some w ∧ zState (cfgN s.m (0x2200 + x.port.val) 0x09) (cfgN s.m (0x2200 + x.port.val) 0x08)
      x.zMag x.zArg ≠ 0 ∧ (∀ l ∈ s.m.wt.latched, l.port ≠ x.port) ∧ s.m.pw.mode = .watch ∧ s.m.pw.booting = false ∧ s.m.pw.aoUp = true ∧
      s.m.pw.mainPresent = true ∧ bitAt (cfgN s.m 0x1100 0x07) 4 = true) ∧
    (∃ (s : State) (x : Probe) (pos : Fin 8), (x.port.val % 8 ≠ pos.val ∨ probePlaced s.m x.port = false)) ∧
    (∃ (s : State) (w : WatchPort) (z : Nat × Int), s.m.wt.sweeping = true ∧ s.m.wt.ports = [w] ∧ w.probe = some z ∧ w.dead = false ∧ w.exceeds =
      false ∧ w.settled + 1 < cfgN s.m 0x3210 0x08) ∧
    (∃ (s : State) (w : WatchPort) (z : Nat × Int), s.m.wt.sweeping = true ∧ s.m.wt.ports = [w] ∧ w.probe = some z ∧ w.dead = false ∧ cfgN s.m 0x3210
      0x08 ≤ w.settled ∧ s.m.wt.repeats = 0 ∧ cfgN s.m 0x3210 0x06 ≠ 0 ∧ probeExceeds s.m w.baseMag w.baseArg (65536 * z.1) (65536 * z.2) = true) ∧
    (∃ (s : State) (w : WatchPort) (z : Nat × Int), s.m.wt.sweeping = true ∧ s.m.wt.ports = [w] ∧ w.probe = some z ∧ w.dead = false ∧ w.conf = [] ∧
      cfgN s.m 0x3210 0x08 ≤ w.settled ∧ s.m.wt.repeats = 0 ∧ cfgN s.m 0x3210 0x06 = 0 ∧ probeExceeds s.m w.baseMag w.baseArg (65536 * z.1) (65536 *
      z.2) = true ∧ (∀ l ∈ s.m.wt.latched, l.port ≠ w.port)) ∧
    (∃ (s : State), s.m.wt.sweeping = false) := by
  refine ⟨⟨st { inMode .watch with wt := { active := true } }, ?_⟩,
    ⟨st { inMode .watch with wt := { active := true, sweeping := true } }, ?_⟩,
    ⟨st (modPw { inMode .watch with wt := { active := true } } fun p => { p with vtxLow := true }), ?_⟩,
    ⟨State.reset, ?_⟩,
    ⟨st { inMode .watch with wt := { planCopy := [Window.whole, { Window.whole with w3 := 0xFF }], sweeping := true, ports := [{ port := 9 }] } }, ⟨9, 400, 0⟩, 1, { port := 9 }, ?_⟩,
    ⟨st { inMode .watch with wt := { planCopy := [Window.whole, { Window.whole with w3 := 0xFF }], sweeping := true, ports := [{ port := 9 }] } }, ⟨9, 0, 0⟩, 1, { port := 9 }, ?_⟩,
    ⟨st { inMode .watch with wt := { sweeping := true } }, ⟨9, 400, 0⟩, 2, ?_⟩,
    ⟨st { inMode .watch with wt := { sweeping := true, ports := [{ port := 9, settled := 0, baseMag := 0, probe := some (400, 0) }] } }, { port := 9, settled := 0, baseMag := 0, probe := some (400, 0) }, (400, 0), ?_⟩,
    ⟨st (cfgSet { inMode .watch with wt := { sweeping := true, ports := [{ port := 9, settled := 255, baseMag := 13107200, probe := some (400, 0) }] } } 0x3210 0x06 2), { port := 9, settled := 255, baseMag := 13107200, probe := some (400, 0) }, (400, 0), ?_⟩,
    ⟨st (cfgSet { inMode .watch with wt := { sweeping := true, ports := [{ port := 9, settled := 255, baseMag := 13107200, probe := some (400, 0) }] } } 0x3210 0x06 0), { port := 9, settled := 255, baseMag := 13107200, probe := some (400, 0) }, (400, 0), ?_⟩,
    ⟨State.reset, ?_⟩⟩ <;>
    and_intros <;> decide +kernel

/-- States and operands that meet the hypotheses of clauses of QueueWrites. -/
theorem test_meets_queueWrites :
    (∃ (s : State), ctlOn s.m = true ∧ s.m.pw.ctlDown = false ∧ (s.m.pw.mode.isMain = true ∨ s.m.pw.mode = .hold) ∧ s.m.disp.stalled = [] ∧ (∀ (e :
      Fin 24) (c : Fin 2), (ctxOf s.m e c).stalled = false) ∧ (∀ k : Fin 16, (s.m.sv.lanes[k]).stalled = false) ∧ s.m.sv.recOut = none ∧ s.m.wt.recOut
      = none) ∧
    (∃ (s : State) (v : BitVec 8), (v ≠ 0xF1#8 ∨ s.m.pw.ctlDown = true)) ∧
    (∃ (s : State) (q : Fin 32) (v : BitVec 16), s.m.pw.ctlDown = false ∧ s.m.pw.mode.isMain = true ∧ 1 ≤ v.toNat ∧ v.toNat ≤ 16384 ∧
      (s.m.pool.qs[q]).cmin ≤ v.toNat) ∧
    (∃ (s : State) (q : Fin 32) (v : BitVec 16), s.m.pw.ctlDown = false ∧ s.m.pw.mode.isMain = true ∧ 1 ≤ v.toNat ∧ v.toNat ≤ 16384 ∧ v.toNat <
      (s.m.pool.qs[q]).cmin) ∧
    (∃ (s : State) (q : Fin 32) (v : BitVec 16), s.m.pw.ctlDown = false ∧ s.m.pw.mode.isMain = true ∧ v.toNat ≤ (s.m.pool.qs[q]).cmax ∧ (((allFin
      32).filter (· ≠ q)).map fun r => (s.m.pool.qs[r]).cmin).sum + v.toNat ≤ poolCells - s.m.pool.retired.length - 1024 ∧ s.m.pool.retired.length ≤
      15360 ∧ v.toNat ≤ (s.m.pool.qs[q]).cells) ∧
    (∃ (s : State) (q : Fin 32) (v : BitVec 16), s.m.pw.ctlDown = false ∧ s.m.pw.mode.isMain = true ∧ (s.m.pool.qs[q]).cmax < v.toNat) ∧
    (∃ (s : State) (q : Fin 32) (v : BitVec 8), s.m.pw.ctlDown = false ∧ s.m.pw.mode = .calibrate ∧ v.toNat ≤ 5 ∧ (v.toNat ≠ 1 ∨ (24 ≤ q.val ∧ q.val <
      28))) ∧
    (∃ (s : State) (q : Fin 32), s.m.pw.ctlDown = false ∧ s.m.pw.mode = .calibrate ∧ (q.val < 24 ∨ 28 ≤ q.val)) ∧
    (∃ (s : State), (s.m.pw.mode ≠ .calibrate ∨ s.m.pw.ctlDown = true)) := by
  refine ⟨⟨st (inMode .transact), ?_⟩,
    ⟨State.reset, 0x00#8, ?_⟩,
    ⟨st (inMode .transact), 0, 16384#16, ?_⟩,
    ⟨st (inMode .transact), 0, 127#16, ?_⟩,
    ⟨st (inMode .transact), 0, 0x0000#16, ?_⟩,
    ⟨st (inMode .transact), 0, 2049#16, ?_⟩,
    ⟨st (inMode .calibrate), 27, 1#8, ?_⟩,
    ⟨st (inMode .calibrate), 28, ?_⟩,
    ⟨State.reset, ?_⟩⟩ <;>
    and_intros <;> decide +kernel

/-- States and operands that meet the hypotheses of clauses of PoolService. -/
theorem test_meets_poolService :
    (∃ (s : State) (o : DispOut), ctlOn s.m = true ∧ s.m.disp.stalled = [o] ∧ o.pkt ≠ 0 ∧ o.words ≠ [] ∧ o.words.length ≤ roomOf s.m o.q o.pkt
      o.words.length) ∧
    (∃ (s : State), ctlOn s.m = true) ∧
    (∃ (s : State) (cell : Nat), ctlOn s.m = true ∧ (mapGet cell s.m.pool.singles).getD 0 < 2) ∧
    (∃ (s : State) (cell : Nat), ctlOn s.m = true ∧ 2 ≤ (mapGet cell s.m.pool.singles).getD 0 ∧ cell ∉ s.m.pool.retired) ∧
    (∃ (s : State) (cell : Nat), ctlOn s.m = true ∧ cell ∉ s.m.pool.retired) ∧
    (∃ (s : State) (cell : Nat) (q : Fin 32) (p : Packet) (rest : List Packet) (i : Nat), ctlOn s.m = true ∧ cell ∉ s.m.pool.retired ∧
      (s.m.pool.qs[q]).pkts = p :: rest ∧ i ≤ p.words.length ∧ (∀ r ∈ rest, r.id ≠ p.id)) ∧
    (∃ (s : State) (cell : Nat) (q : Fin 32) (p : Packet) (rest : List Packet) (i : Nat), ctlOn s.m = true ∧ cell ∉ s.m.pool.retired ∧ 2 ≤ (mapGet
      cell s.m.pool.singles).getD 0 ∧ (s.m.pool.qs[q]).pkts = p :: rest ∧ i ≤ p.words.length ∧ (∀ r ∈ rest, r.id ≠ p.id)) ∧
    (∃ (s : State), s.m.pool.sweepDue = true) ∧
    (∃ (s : State), s.m.pool.sweepDue = false) ∧
    (∃ (m : Main) (q : Fin 32) (ws : List Word), roomFor m q ws.length) ∧
    (∃ (m : Main) (q : Fin 32) (ws : List Word), spaceTest m q ws.length = false) := by
  refine ⟨⟨st { withPkt (inMode .transact) 0 { id := 1, opened := true, type := 0x21, source := 5 } with disp := { stalled := [{ q := 0, words := [1, 2, 3, 4], pkt := 1, jobQ := 24, cells := 0 }] } }, { q := 0, words := [1, 2, 3, 4], pkt := 1, jobQ := 24, cells := 0 }, ?_⟩,
    ⟨st (inMode .transact), ?_⟩,
    ⟨st (inMode .transact), 0, ?_⟩,
    ⟨st { inMode .transact with pool := { singles := [(16383, 2)] } }, 16383, ?_⟩,
    ⟨st (inMode .transact), 0, ?_⟩,
    ⟨st (withPkt (inMode .transact) 31 { type := 0x21, source := 5, words := [1, 2] }), 9, 31, { type := 0x21, source := 5, words := [1, 2] }, [], 2, ?_⟩,
    ⟨st (withPkt { inMode .transact with pool := { singles := [(9, 2)] } } 31 { type := 0x21, source := 5, words := [1, 2] }), 9, 31, { type := 0x21, source := 5, words := [1, 2] }, [], 0, ?_⟩,
    ⟨st { inMode .transact with pool := { sweepDue := true } }, ?_⟩,
    ⟨State.reset, ?_⟩,
    ⟨inMode .transact, 0, List.replicate 100 0, ?_⟩,
    ⟨inMode .transact, 0, List.replicate 16384 0, ?_⟩⟩ <;>
    and_intros <;> first | decide +kernel | (constructor <;> decide +kernel)

/-- States and operands that meet the hypotheses of clauses of TargetCard. -/
theorem test_meets_targetCard :
    (∃ (s : State), tgtCarries s.m = true ∧ tgtEnabled s.m 0 = true ∧ s.m.tgt.session = .iso ∧ s.m.tgt.iso.st = 0) ∧
    (∃ (s : State), tgtCarries s.m = true ∧ tgtEnabled s.m 0 = true ∧ s.m.tgt.session = .none ∧ s.m.tgt.iso.st = 0) ∧
    (∃ (s : State), s.m.tgt.session = .stp) ∧
    (∃ (s : State), s.m.tgt.session = .iso ∧ s.m.tgt.iso.st = 3) ∧
    (∃ (s : State), tgtCarries s.m = true ∧ tgtEnabled s.m 0 = true ∧ s.m.tgt.session = .iso ∧ s.m.tgt.iso.st = 3) ∧
    (∃ (s : State), isoHears s.m = true ∧ (s.m.tgt.iso.st = 1 ∨ s.m.tgt.iso.st = 4)) ∧
    (∃ (s : State), isoHears s.m = true ∧ s.m.tgt.iso.st = 1) ∧
    (∃ (s : State), isoHears s.m = true ∧ s.m.tgt.iso.st = 4) ∧
    (∃ (s : State) (uid : BitVec 32), isoHears s.m = true ∧ uid ≠ s.m.tgt.iso.uid ∧ s.m.tgt.iso.st = 1) ∧
    (∃ (s : State), isoHears s.m = true ∧ (s.m.tgt.iso.st = 2 ∨ s.m.tgt.iso.st = 5)) ∧
    (∃ (s : State) (pps0 : Byte) (pps1 : Byte), isoHears s.m = true ∧ s.m.tgt.iso.st = 6 ∧ bitAt pps0.toNat 4 = true ∧ field pps1.toNat 0 2 ≠ 3 ∧
      field pps1.toNat 2 2 ≠ 3) ∧
    (∃ (s : State), isoHears s.m = true ∧ 6 ≤ s.m.tgt.iso.st) := by
  refine ⟨⟨st (card 0), ?_⟩,
    ⟨st (modTgt (card 0) fun t => { t with session := .none }), ?_⟩,
    ⟨st (fob 0), ?_⟩,
    ⟨st (card 3), ?_⟩,
    ⟨st (card 3), ?_⟩,
    ⟨st (card 4), ?_⟩,
    ⟨st (card 1), ?_⟩,
    ⟨st (card 4), ?_⟩,
    ⟨st (card 1), 0#32, ?_⟩,
    ⟨st (card 5), ?_⟩,
    ⟨st (card 6), 0x10#8, 0x0A#8, ?_⟩,
    ⟨st (card 7), ?_⟩⟩ <;>
    and_intros <;> decide +kernel

/-- States and operands that meet the hypotheses of clauses of LedgerApplication. -/
theorem test_meets_ledgerApplication_1 :
    (∃ (s : State), apduHears s = true) ∧
    (∃ (s : State) (aid : List Byte), apduHears s = true ∧ aid ≠ [0xF0, 0x4B, 0x4C, 0x44, 0x01]) ∧
    (∃ (s : State) (p2 : Byte), applicationHears s ∧ p2.toNat < 32) ∧
    (∃ (s : State), applicationHears s) ∧
    (∃ (s : State), apduHears s = true ∧ s.m.tgt.iso.selected = false) ∧
    (∃ (s : State) (n : Byte) (b : List Byte), applicationHears s ∧ (s.m.tgt.auth.key0 = true ∨ cfgN s.m 0x6000 0x03 ≠ 0) ∧ 1 ≤ n.toNat ∧ n.toNat ≤
      240 ∧ n.toNat ≤ s.lgr.head ∧ s.lgr.at_ (s.lgr.head + 1 - n.toNat) = some b) ∧
    (∃ (s : State), applicationHears s ∧ s.m.tgt.auth.key0 = false ∧ cfgN s.m 0x6000 0x03 = 0) ∧
    (∃ (s : State) (n : Byte), applicationHears s ∧ s.m.tgt.auth.key0 = true ∧ s.lgr.noBank = false ∧ 1 ≤ n.toNat ∧ n.toNat ≤ 16) ∧
    (∃ (s : State) (cla : Byte), apduHears s = true ∧ cla ≠ 0x00#8 ∧ cla ≠ 0x80#8) ∧
    (∃ (s : State) (ins : Byte), apduHears s = true ∧ apduKnown 0x00#8 ins = false) ∧
    (∃ (s : State) (p1 : Byte) (p2 : Byte) (data : List Byte), applicationHears s ∧ p1 = 0x00#8 ∧ p2 = 0x18#8 ∧ 5 ≤ data.length ∧ data.length ≤ 47 ∧
      s.m.tgt.auth.key0 = true ∧ 0x20 ≤ (nth data 0 0).toNat) ∧
    (∃ (s : State) (data : List Byte), applicationHears s ∧ 5 ≤ data.length ∧ data.length ≤ 47 ∧ s.m.tgt.auth.key0 = false) := by
  refine ⟨⟨st (card 6), ?_⟩,
    ⟨st (card 6), [0xF0, 0x4B, 0x4C, 0x44, 0x02], ?_⟩,
    ⟨st (card 6), 31#8, ?_⟩,
    ⟨st (card 7), ?_⟩,
    ⟨st (modIso (card 6) fun i => { i with selected := false }), ?_⟩,
    ⟨{ st (cfgSet (card 6) 0x6000 0x03 1) with lgr := { ring := (Vector.replicate 240 .empty).set 0 (.record 1 body58), head := 1 } }, 1#8, body58, ?_⟩,
    ⟨st (cfgSet (card 6) 0x6000 0x03 0), ?_⟩,
    ⟨st (modTgt (card 6) fun t => { t with session := .iso, iso := { st := 6, selected := true }, auth := { key0 := true } }), 16#8, ?_⟩,
    ⟨st (card 6), 0x90#8, ?_⟩,
    ⟨st (card 6), 0xFF#8, ?_⟩,
    ⟨st (modTgt (card 6) fun t => { t with session := .iso, iso := { st := 6, selected := true }, auth := { key0 := true } }), 0#8, 0x18#8, 0x20 :: List.replicate 46 0, ?_⟩,
    ⟨st (card 6), 0x20 :: List.replicate 4 0, ?_⟩⟩ <;>
    and_intros <;> first | decide +kernel | (apply runsNone; decide +kernel)

/-- States and operands that meet the hypotheses of clauses of LedgerApplication. -/
theorem test_meets_ledgerApplication_2 :
    (∃ (s : State) (p1 : Byte) (data : List Byte), applicationHears s ∧ 13 ≤ p1.toNat ∧ p1.toNat ≤ 16 ∧ data.length = 20 ∧ s.m.tgt.auth.key0 = true ∧
      cfgN s.m 0x6000 0x04 ≠ 0 ∧ (∀ a ∈ s.lgr.waiting, a.isSetting = false) ∧ (∀ a, s.lgr.running = some a → a.isSetting = false)) ∧
    (∃ (s : State) (p1 : Byte) (data : List Byte), applicationHears s ∧ 13 ≤ p1.toNat ∧ p1.toNat ≤ 16 ∧ data.length = 20 ∧ s.m.tgt.auth.key0 = true ∧
      cfgN s.m 0x6000 0x04 ≠ 0 ∧ (∃ a ∈ s.lgr.waiting, a.isSetting = true)) := by
  refine ⟨⟨st (cfgSet (modTgt (card 6) fun t => { t with session := .iso, iso := { st := 6, selected := true }, auth := { key0 := true } }) 0x6000 0x04 1), 16#8, List.replicate 20 1, ?_⟩,
    ⟨{ st (cfgSet (modTgt (card 6) fun t => { t with session := .iso, iso := { st := 6, selected := true }, auth := { key0 := true } }) 0x6000 0x04 1) with lgr := { waiting := [{ port := .i2c, op := .setting 12 [], reply := 4 }] } }, 13#8, List.replicate 20 1, ?_⟩⟩ <;>
    and_intros <;> first | decide +kernel | (apply runsNone; decide +kernel)

/-- States and operands that meet the hypotheses of clauses of TargetAuthAndRelease. -/
theorem test_meets_targetAuthAndRelease :
    (∃ (s : State) (ra : List Byte) (key : BitVec 128), applicationHears s ∧ ra.length = 8 ∧ s.m.tgt.auth.lockout = false ∧ s.lgr.key0 = some key) ∧
    (∃ (s : State) (ra : List Byte), applicationHears s ∧ ra.length = 8 ∧ s.m.tgt.auth.lockout = true) ∧
    (∃ (s : State) (ra : List Byte) (rb : List Byte) (key : BitVec 128), applicationHears s ∧ s.m.pw.onHarvest = false ∧ s.lgr.key1 = some key ∧
      s.m.tgt.auth.pending = some (1, ra, rb) ∧ (aes128 key (rb ++ ra)).length = 16) ∧
    (∃ (s : State) (c2 : List Byte), applicationHears s ∧ s.m.pw.onHarvest = false ∧ s.m.tgt.auth.pending = none ∧ c2.length = 16) ∧
    (∃ (s : State), applicationHears s ∧ s.m.tgt.auth.key1 = true ∧ releaseAllowed s.m = true ∧ s.lgr.leaseBy = none ∧ s.m.pw.onHarvest = false) ∧
    (∃ (s : State), applicationHears s ∧ s.m.tgt.auth.key1 = false) ∧
    (∃ (s : State), s.m.tgt.releaseWait = true) ∧
    (∃ (s : State), s.m.tgt.releaseWait = false) ∧
    (∃ (s : State) (q : Nat) (b : List Byte), s.m.tgt.releaseWait = true ∧ newestRelease s.lgr = some (q, b)) := by
  refine ⟨⟨{ st (card 6) with lgr := { key0 := some 5 } }, [1, 2, 3, 4, 5, 6, 7, 8], 5, ?_⟩,
    ⟨st (modTgt (card 6) fun t => { t with session := .iso, iso := { st := 6, selected := true }, auth := { lockout := true } }), [1, 2, 3, 4, 5, 6, 7, 8], ?_⟩,
    ⟨{ st (modTgt (card 6) fun t => { t with session := .iso, iso := { st := 6, selected := true }, auth := { pending := some (1, [1, 2, 3, 4, 5, 6, 7, 8], [1, 2, 3, 4, 5, 6, 7, 8]) } }) with lgr := { key1 := some 5 } }, [1, 2, 3, 4, 5, 6, 7, 8], [1, 2, 3, 4, 5, 6, 7, 8], 5, ?_⟩,
    ⟨st (card 6), List.replicate 16 0, ?_⟩,
    ⟨st (cfgSet (modTgt (card 6) fun t => { t with session := .iso, iso := { st := 6, selected := true }, auth := { key1 := true } }) 0x6000 0x05 3), ?_⟩,
    ⟨st (card 6), ?_⟩,
    ⟨st (modTgt (card 6) fun t => { t with releaseWait := true }), ?_⟩,
    ⟨State.reset, ?_⟩,
    ⟨{ st (modTgt (card 6) fun t => { t with releaseWait := true }) with lgr := { ring := (Vector.replicate 240 .empty).set 0 (.record 1 (3 :: List.replicate 57 0)), head := 1 } }, 1, 3 :: List.replicate 57 0, ?_⟩⟩ <;>
    and_intros <;> first | decide +kernel | (apply runsNone; decide +kernel)

/-- States and operands that meet the hypotheses of clauses of TargetFob. -/
theorem test_meets_targetFob_1 :
    (∃ (s : State) (f : StpRx), fobHears s f 0x01 [0x00] ∧ s.m.tgt.stp.tagState ≠ 5) ∧
    (∃ (s : State) (f : StpRx) (q : Fin 9), fobHears s f 0x01 [byte q.val] ∧ s.m.tgt.stp.tagState ≠ 5) ∧
    (∃ (s : State) (f : StpRx), fobHears s f 0x01 [0x10] ∧ s.m.tgt.stp.tagState = 1 ∧ s.m.tgt.stp.counter = 1) ∧
    (∃ (s : State) (f : StpRx), fobHears s f 0x01 [0x10] ∧ s.m.tgt.stp.tagState = 1 ∧ 1 < s.m.tgt.stp.counter) ∧
    (∃ (s : State) (f : StpRx), fobHears s f 0x01 [0x10] ∧ s.m.tgt.stp.tagState = 2) ∧
    (∃ (s : State) (f : StpRx), fobHears s f 0x01 [0x40] ∧ s.m.tgt.stp.tagState ≠ 5 ∧ s.m.tgt.stp.seen = true) ∧
    (∃ (s : State) (f : StpRx), fobHears s f 0x02 [] ∧ s.m.tgt.stp.tagState ≠ 5) ∧
    (∃ (s : State) (f : StpRx), fobHears s f 0x02 [] ∧ s.m.tgt.stp.tagState = 5) ∧
    (∃ (s : State) (f : StpRx) (x : BitVec 16), fobHears s f 0x03 (leBytes 2 x.toNat) ∧ s.m.tgt.stp.handle = some x ∧ (s.m.tgt.stp.tagState = 2 ∨
      s.m.tgt.stp.tagState = 3) ∧ s.m.pw.onHarvest = false) ∧
    (∃ (s : State) (f : StpRx) (x : BitVec 16) (link : Byte), fobHears s f 0x04 (leBytes 2 x.toNat ++ [link]) ∧ s.m.tgt.stp.handle = some x ∧
      s.m.tgt.stp.tagState = 3 ∧ x ≠ 0xFFFF#16 ∧ link.toNat < 8 ∧ link.toNat % 4 < 3) ∧
    (∃ (s : State) (f : StpRx) (x : BitVec 16) (link : Byte), fobHears s f 0x04 (leBytes 2 x.toNat ++ [link]) ∧ s.m.tgt.stp.handle = some x ∧
      s.m.tgt.stp.tagState = 3 ∧ x ≠ 0xFFFF#16 ∧ (link = 3#8 ∨ link = 7#8)) ∧
    (∃ (s : State) (f : StpRx) (link : Byte), fobHears s f 0x04 [0xFF, 0xFF, link] ∧ link.toNat < 8 ∧ link.toNat % 4 < 3) := by
  refine ⟨⟨st (fob 0), (fr 1 ([0])), ?_⟩,
    ⟨st (fob 0), (fr 1 ([8])), 8, ?_⟩,
    ⟨st (modTgt (fob 1) fun t => { t with session := .stp, stp := { bound := some (1, 200), tagState := 1, handle := some 5, counter := 1 } }), (fr 1 ([16])), ?_⟩,
    ⟨st (modTgt (fob 1) fun t => { t with session := .stp, stp := { bound := some (1, 200), tagState := 1, handle := some 5, counter := 2 } }), (fr 1 ([16])), ?_⟩,
    ⟨st (fob 2), (fr 1 ([16])), ?_⟩,
    ⟨st (modTgt (fob 3) fun t => { t with session := .stp, stp := { bound := some (1, 200), tagState := 3, handle := some 5, seen := true } }), (fr 1 ([64])), ?_⟩,
    ⟨st (fob 0), (fr 2 ([])), ?_⟩,
    ⟨st (fob 5), (fr 2 ([])), ?_⟩,
    ⟨st (fob 2), (fr 3 (leBytes 2 5)), 5, ?_⟩,
    ⟨st (fob 3), (fr 4 (leBytes 2 5 ++ [6])), 5, 6#8, ?_⟩,
    ⟨st (fob 3), (fr 4 (leBytes 2 5 ++ [7])), 5, 7#8, ?_⟩,
    ⟨st (fob 3), (fr 4 ([255, 255, 6])), 6#8, ?_⟩⟩ <;>
    and_intros <;> first | decide +kernel | (apply fobOpen_of; decide +kernel) | (apply rate_of; decide +kernel) | (apply tag_of false; decide +kernel) | (apply tag_of true; decide +kernel) | exact ⟨1, false, 200, rfl, rfl, by decide +kernel, by decide +kernel, rfl⟩

/-- States and operands that meet the hypotheses of clauses of TargetFob. -/
theorem test_meets_targetFob_2 :
    (∃ (s : State) (f : StpRx) (x : BitVec 16), fobHears s f 0x05 (leBytes 2 x.toNat ++ [8, 1]) ∧ s.m.tgt.stp.handle = some x ∧ s.m.tgt.stp.tagState =
      3) ∧
    (∃ (s : State) (f : StpRx) (x : BitVec 16), fobHears s f 0x05 (leBytes 2 x.toNat ++ [16, 1]) ∧ s.m.tgt.stp.handle = some x ∧ s.m.tgt.stp.tagState
      = 3 ∧ cfgN s.m 0x6000 0x03 = 0) ∧
    (∃ (s : State) (f : StpRx) (x : BitVec 16) (first : Byte) (n : Byte), fobHears s f 0x05 (leBytes 2 x.toNat ++ [first, n]) ∧ s.m.tgt.stp.handle =
      some x ∧ (s.m.tgt.stp.tagState = 3 ∨ s.m.tgt.stp.tagState = 4) ∧ (n = 0#8 ∨ 16 < n.toNat ∨ 64 < first.toNat + n.toNat)) ∧
    (∃ (s : State) (f : StpRx) (x : BitVec 16) (data : List Byte), fobHears s f 0x06 (leBytes 2 x.toNat ++ leBytes 4 Config.targetUid.toNat ++ [8] ++
      data) ∧ s.m.tgt.stp.handle = some x ∧ s.m.tgt.stp.tagState = 4 ∧ s.m.pw.onHarvest = false ∧ data.length = 16) ∧
    (∃ (s : State) (f : StpRx) (x : BitVec 16) (data : List Byte), fobHears s f 0x06 (leBytes 2 x.toNat ++ leBytes 4 Config.targetUid.toNat ++ [8] ++
      data) ∧ s.m.tgt.stp.handle = some x ∧ s.m.tgt.stp.tagState = 3 ∧ data.length = 16) ∧
    (∃ (s : State) (f : StpRx) (x : BitVec 16) (tok : BitVec 16) (r : Nat) (data : List Byte), fobHears s f 0x07 (leBytes 2 x.toNat ++ leBytes 4
      Config.targetUid.toNat ++ leBytes 2 tok.toNat) ∧ s.m.tgt.stp.handle = some x ∧ (s.m.tgt.stp.tagState = 3 ∨ s.m.tgt.stp.tagState = 4) ∧
      s.m.tgt.stp.shadow = some (r, data, tok) ∧ 0x20 ≤ (nth data 0 0).toNat) ∧
    (∃ (s : State) (f : StpRx) (x : BitVec 16) (tok : BitVec 16) (tok' : BitVec 16) (r : Nat) (data : List Byte), fobHears s f 0x07 (leBytes 2 x.toNat
      ++ leBytes 4 Config.targetUid.toNat ++ leBytes 2 tok'.toNat) ∧ s.m.tgt.stp.handle = some x ∧ (s.m.tgt.stp.tagState = 3 ∨ s.m.tgt.stp.tagState =
      4) ∧ s.m.tgt.stp.shadow = some (r, data, tok) ∧ tok' ≠ tok) ∧
    (∃ (s : State) (f : StpRx) (x : BitVec 16) (tok : BitVec 16), fobHears s f 0x07 (leBytes 2 x.toNat ++ leBytes 4 Config.targetUid.toNat ++ leBytes
      2 tok.toNat) ∧ s.m.tgt.stp.handle = some x ∧ (s.m.tgt.stp.tagState = 3 ∨ s.m.tgt.stp.tagState = 4) ∧ s.m.tgt.stp.shadow = none ∧
      s.m.tgt.stp.lastTok = some tok) ∧
    (∃ (s : State) (f : StpRx) (x : BitVec 16), fobHears s f 0x08 (leBytes 2 x.toNat) ∧ s.m.tgt.stp.handle = some x ∧ s.m.tgt.stp.tagState = 3) ∧
    (∃ (s : State) (f : StpRx) (x : BitVec 16), fobHears s f 0x08 (leBytes 2 x.toNat) ∧ s.m.tgt.stp.tagState = 5 ∧ s.m.tgt.stp.former = some x) ∧
    (∃ (s : State) (f : StpRx) (x : BitVec 16), fobHears s f 0x09 (0 :: leBytes 2 x.toNat) ∧ s.m.tgt.stp.handle = some x ∧ s.m.tgt.stp.tagState = 3) ∧
    (∃ (s : State) (f : StpRx), fobHears s f 0x09 (1 :: leBytes 8 Config.targetUid.toNat)) := by
  refine ⟨⟨st (fob 3), (fr 5 (leBytes 2 5 ++ [8, 1])), 5, ?_⟩,
    ⟨st (cfgSet (fob 3) 0x6000 0x03 0), (fr 5 (leBytes 2 5 ++ [16, 1])), 5, ?_⟩,
    ⟨st (fob 4), (fr 5 (leBytes 2 5 ++ [60, 5])), 5, 60, 5, ?_⟩,
    ⟨st (fob 4), (fr 6 (leBytes 2 5 ++ leBytes 4 Config.targetUid.toNat ++ [8] ++ List.replicate 16 0)), 5, List.replicate 16 0, ?_⟩,
    ⟨st (fob 3), (fr 6 (leBytes 2 5 ++ leBytes 4 Config.targetUid.toNat ++ [8] ++ List.replicate 16 0)), 5, List.replicate 16 0, ?_⟩,
    ⟨st (modTgt (fob 3) fun t => { t with session := .stp, stp := { bound := some (1, 200), tagState := 3, handle := some 5, shadow := some (8, [0x20], 7) } }), (fr 7 (leBytes 2 5 ++ leBytes 4 Config.targetUid.toNat ++ [7, 0])), 5, 7, 8, [0x20], ?_⟩,
    ⟨st (modTgt (fob 3) fun t => { t with session := .stp, stp := { bound := some (1, 200), tagState := 3, handle := some 5, shadow := some (8, [0x20], 7) } }), (fr 7 (leBytes 2 5 ++ leBytes 4 Config.targetUid.toNat ++ [8, 0])), 5, 7, 8, 8, [0x20], ?_⟩,
    ⟨st (modTgt (fob 3) fun t => { t with session := .stp, stp := { bound := some (1, 200), tagState := 3, handle := some 5, lastTok := some 7, lastGen := 9 } }), (fr 7 (leBytes 2 5 ++ leBytes 4 Config.targetUid.toNat ++ [7, 0])), 5, 7, ?_⟩,
    ⟨st (fob 3), (fr 8 (leBytes 2 5)), 5, ?_⟩,
    ⟨st (modTgt (fob 5) fun t => { t with session := .stp, stp := { bound := some (1, 200), tagState := 5, former := some 5 } }), (fr 8 (leBytes 2 5)), 5, ?_⟩,
    ⟨st (fob 3), (fr 9 ([0, 5, 0])), 5, ?_⟩,
    ⟨st (fob 5), (fr 9 (1 :: leBytes 8 Config.targetUid.toNat)), ?_⟩⟩ <;>
    and_intros <;> first | decide +kernel | (apply fobOpen_of; decide +kernel) | (apply rate_of; decide +kernel) | (apply tag_of false; decide +kernel) | (apply tag_of true; decide +kernel) | exact ⟨1, false, 200, rfl, rfl, by decide +kernel, by decide +kernel, rfl⟩ | rfl

/-- States and operands that meet the hypotheses of clauses of TargetFob. -/
theorem test_meets_targetFob_3 :
    (∃ (s : State) (f : StpRx), fobHears s f 0x09 [2]) ∧
    (∃ (s : State) (f : StpRx) (x : BitVec 16) (ra : List Byte) (key : BitVec 128), fobHears s f 0x0A (leBytes 2 x.toNat ++ [0] ++ ra) ∧
      s.m.tgt.stp.handle = some x ∧ s.m.tgt.stp.tagState = 3 ∧ s.m.tgt.auth.lockout = false ∧ s.lgr.key0 = some key ∧ ra.length = 8) ∧
    (∃ (s : State) (f : StpRx) (x : BitVec 16) (ra : List Byte), fobHears s f 0x0A (leBytes 2 x.toNat ++ [0] ++ ra) ∧ ra.length = 8 ∧
      s.m.tgt.stp.handle = some x ∧ s.m.tgt.stp.tagState = 3 ∧ s.m.tgt.auth.lockout = true) ∧
    (∃ (s : State) (f : StpRx) (x : BitVec 16) (ra : List Byte) (rb : List Byte) (key : BitVec 128), fobHears s f 0x0B (leBytes 2 x.toNat ++ aes128
      key (rb ++ ra)) ∧ (aes128 key (rb ++ ra)).length = 16 ∧ s.m.tgt.stp.handle = some x ∧ s.m.tgt.stp.tagState = 3 ∧ s.m.pw.onHarvest = false ∧
      s.lgr.key0 = some key ∧ s.m.tgt.auth.pending = some (0, ra, rb)) ∧
    (∃ (s : State) (f : StpRx) (code : Fin 11) (x : BitVec 16) (rest : List Byte), fobHears s f code.val (leBytes 2 x.toNat ++ rest) ∧ 3 ≤ code.val ∧
      code.val ≠ 9 ∧ f.lengthOf ≠ some f.bytes.length ∧ s.m.tgt.stp.handle = some x ∧ s.m.tgt.stp.tagState = 3) ∧
    (∃ (s : State) (f : StpRx) (code : BitVec 8) (ps : List Byte), fobHears s f code.toNat ps ∧ (code = 0#8 ∨ 11 < code.toNat)) ∧
    (∃ (s : State) (x : BitVec 16), s.m.tgt.session = .stp ∧ s.m.tgt.stp.handle = some x) ∧
    (∃ (s : State) (f : StpRx) (claim : Bool) (tag : BitVec 7) (tag' : BitVec 7) (l : Int), fobDecodes s f ∧ spoken f tag claim 0x02 [] ∧
      s.m.tgt.stp.bound = some (tag'.toNat, l) ∧ tag' ≠ tag ∧ f.level - l < 50 ∧ claim = false) ∧
    (∃ (s : State) (f : StpRx) (claim : Bool) (tag : BitVec 7) (tag' : BitVec 7) (l : Int), fobDecodes s f ∧ spoken f tag claim 0x02 [] ∧
      s.m.tgt.stp.bound = some (tag'.toNat, l) ∧ tag' ≠ tag ∧ 70 ≤ f.level - l) ∧
    (∃ (s : State) (f : StpRx) (claim : Bool) (tag : BitVec 7), fobDecodes s f ∧ spoken f tag claim 0x02 [] ∧ s.m.tgt.stp.bound = none ∧
      s.m.tgt.stp.tagState = 0) ∧
    (∃ (s : State) (f : StpRx) (rate : Nat) (a : Nat) (b : Nat), fobOpen s ∧ 120 ≤ f.depth ∧ f.valid = false ∧ rxRate f.first = some rate ∧
      s.m.tgt.stp.reply = some (a, b) ∧ frameFrom s f rate < a) ∧
    (∃ (s : State) (f : StpRx) (rate : Nat) (a : Nat) (b : Nat), fobOpen s ∧ 120 ≤ f.depth ∧ rxRate f.first = some rate ∧ s.m.tgt.stp.reply = some (a,
      b) ∧ a ≤ frameFrom s f rate ∧ frameFrom s f rate < b + fcTicks 256) := by
  refine ⟨⟨st (fob 3), (fr 9 ([2])), ?_⟩,
    ⟨{ st (fob 3) with lgr := { key0 := some 5 } }, (fr 10 (leBytes 2 5 ++ [0] ++ [1, 2, 3, 4, 5, 6, 7, 8])), 5, [1, 2, 3, 4, 5, 6, 7, 8], 5, ?_⟩,
    ⟨st (modAuth (fob 3) fun a => { a with lockout := true }), (fr 10 (leBytes 2 5 ++ [0] ++ [1, 2, 3, 4, 5, 6, 7, 8])), 5, [1, 2, 3, 4, 5, 6, 7, 8], ?_⟩,
    ⟨{ st (modAuth (fob 3) fun a => { a with pending := some (0, [1, 2, 3, 4, 5, 6, 7, 8], [1, 2, 3, 4, 5, 6, 7, 8]) }) with lgr := { key0 := some 5 } }, (fr 11 (leBytes 2 5 ++ aes128 5 ([1, 2, 3, 4, 5, 6, 7, 8] ++ [1, 2, 3, 4, 5, 6, 7, 8]))), 5, [1, 2, 3, 4, 5, 6, 7, 8], [1, 2, 3, 4, 5, 6, 7, 8], 5, ?_⟩,
    ⟨st (fob 3), (fr 3 ([5, 0, 1])), 3, 5, [1], ?_⟩,
    ⟨st (fob 3), (fr 12 ([5, 0])), 12, [5, 0], ?_⟩,
    ⟨st (fob 3), 5, ?_⟩,
    ⟨st (modTgt (fob 3) fun t => { t with session := .stp, stp := { bound := some (2, 151) } }), (fr 2 ([])), false, 1, 2, 151, ?_⟩,
    ⟨st (modTgt (fob 3) fun t => { t with session := .stp, stp := { bound := some (2, 130) } }), (fr 2 ([])), false, 1, 2, 130, ?_⟩,
    ⟨st (modTgt (fob 3) fun t => { t with session := .stp, stp := {} }), (fr 2 ([])), false, 1, ?_⟩,
    ⟨{ st (fob 3) with m := { (modStp (fob 3) fun t => { t with reply := some (9000, 9900) }) with now := 9500 } }, { bytes := [1], level := 200 }, 0, 9000, 9900, ?_⟩,
    ⟨{ st (fob 3) with m := { (modStp (fob 3) fun t => { t with reply := some (0, 990000) }) with now := 950000 } }, (fr 2 ([])), 0, 0, 990000, ?_⟩⟩ <;>
    and_intros <;> first | decide +kernel | (unfold spoken; decide +kernel) | (apply fobOpen_of; decide +kernel) | (apply rate_of; decide +kernel) | (apply tag_of false; decide +kernel) | (apply tag_of true; decide +kernel) | exact ⟨1, false, 200, rfl, rfl, by decide +kernel, by decide +kernel, rfl⟩

/-- States and operands that meet the hypotheses of clauses of TargetFob. -/
theorem test_meets_targetFob_4 :
    (∃ (f : StpRx), 120 ≤ f.depth ∧ rxRate f.first = none) := by
  refine ⟨{ fr 2 ([]) with first := 300 }, ?_⟩ <;>
    and_intros <;> decide +kernel

/-- States and operands that meet the hypotheses of clauses of LedgerPorts. -/
theorem test_meets_ledgerPorts_1 :
    (∃ (s : State) (w : Wired) (n : BitVec 16) (check : BitVec 16) (b : List Byte), wiredReady s w ∧ s.lgr.held = false ∧ wiredGood w 1 (leBytes 2
      n.toNat) check = true ∧ 1 ≤ n.toNat ∧ n.toNat ≤ 240 ∧ n.toNat ≤ s.lgr.head ∧ s.lgr.at_ (s.lgr.head + 1 - n.toNat) = some b) ∧
    (∃ (s : State) (w : Wired) (n : BitVec 16) (check : BitVec 16), wiredReady s w ∧ wiredGood w 1 (leBytes 2 n.toNat) check = false) ∧
    (∃ (s : State) (w : Wired) (n : BitVec 16) (check : BitVec 16), wiredReady s w ∧ s.lgr.held = false ∧ wiredGood w 1 (leBytes 2 n.toNat) check =
      true ∧ (n.toNat = 0 ∨ 240 < n.toNat ∨ s.lgr.head < n.toNat)) ∧
    (∃ (s : State) (w : Wired) (n : BitVec 16) (check : BitVec 16), wiredReady s w ∧ s.lgr.held = true ∧ wiredGood w 1 (leBytes 2 n.toNat) check =
      true) ∧
    (∃ (s : State) (w : Wired) (r : BitVec 16) (check : BitVec 16), wiredReady s w ∧ s.lgr.held = false ∧ wiredGood w 2 (leBytes 2 r.toNat) check =
      true ∧ s.lgr.noBank = false ∧ r.toNat ≤ 15) ∧
    (∃ (s : State) (w : Wired) (lo : BitVec 16) (check : BitVec 16) (data : List Byte), wiredReady s w ∧ wiredGood w 3 (leBytes 2 lo.toNat ++ data)
      check = true ∧ data.length = 49 ∧ 0x20 ≤ (nth data 2 0).toNat) ∧
    (∃ (s : State) (w : Wired) (lo : BitVec 16) (check : BitVec 16) (data : List Byte), wiredReady s w ∧ wiredGood w 3 (leBytes 2 lo.toNat ++ data)
      check = true ∧ data.length = 49 ∧ (nth data 2 0).toNat < 0x20) ∧
    (∃ (s : State) (w : Wired) (r : BitVec 16) (check : BitVec 16) (data : List Byte), wiredReady s w ∧ wiredGood w 4 (leBytes 2 r.toNat ++ data)
      check = true ∧ data.length = 20 ∧ 12 ≤ r.toNat ∧ r.toNat ≤ 15 ∧ (∀ a ∈ s.lgr.waiting, a.isSetting = false) ∧ (∀ a, s.lgr.running = some a →
      a.isSetting = false)) ∧
    (∃ (s : State) (w : Wired) (r : BitVec 16) (check : BitVec 16) (data : List Byte), wiredReady s w ∧ wiredGood w 4 (leBytes 2 r.toNat ++ data)
      check = true ∧ data.length = 20 ∧ 12 ≤ r.toNat ∧ r.toNat ≤ 15 ∧ (∃ a ∈ s.lgr.waiting, a.isSetting = true)) ∧
    (∃ (s : State) (w : Wired) (check : BitVec 16), wiredReady s w ∧ s.lgr.held = false ∧ wiredGood w 5 [0, 0] check = true) ∧
    (∃ (s : State) (w : Wired) (n : BitVec 16) (check : BitVec 16), wiredReady s w ∧ wiredGood w 6 (leBytes 2 n.toNat) check = true ∧ 1 ≤ n.toNat ∧
      n.toNat ≤ 60 ∧ (s.lgr.leaseBy = none ∨ s.lgr.leaseBy = some w) ∧ (∀ a, s.lgr.running = some a → a.port ≠ .field)) ∧
    (∃ (s : State) (w : Wired) (check : BitVec 16), wiredReady s w ∧ wiredGood w 6 [0, 0] check = true ∧ s.lgr.leaseBy = some w ∧ (∀ a, s.lgr.running
      = some a → a.port ≠ .field)) := by
  refine ⟨⟨{ st (inMode .transact) with lgr := { ring := (Vector.replicate 240 .empty).set 0 (.record 1 body58), head := 1 } }, .spi, 1, (wchk .spi 1 (leBytes 2 1)), body58, ?_⟩,
    ⟨{ st (inMode .transact) with lgr := { ring := (Vector.replicate 240 .empty).set 0 (.record 1 body58), head := 1 } }, .i2c, 1, 0, ?_⟩,
    ⟨st (inMode .transact), .i2c, 241, (wchk .i2c 1 (leBytes 2 241)), ?_⟩,
    ⟨{ st (inMode .transact) with lgr := { running := some (LAccess.mk .i2c (.append body58) 4 true) } }, .spi, 241, (wchk .spi 1 (leBytes 2 241)), ?_⟩,
    ⟨st (inMode .transact), .spi, 15, (wchk .spi 2 (leBytes 2 15)), ?_⟩,
    ⟨st (inMode .transact), .i2c, 0, (wchk .i2c 3 ([0, 0] ++ [0, 0, 0x20] ++ List.replicate 46 0)), [0, 0, 0x20] ++ List.replicate 46 0, ?_⟩,
    ⟨st (inMode .transact), .spi, 0, (wchk .spi 3 ([0, 0] ++ [0, 0, 0x1F] ++ List.replicate 46 0)), [0, 0, 0x1F] ++ List.replicate 46 0, ?_⟩,
    ⟨st (inMode .transact), .i2c, 15, (wchk .i2c 4 ([15, 0] ++ List.replicate 20 0)), List.replicate 20 0, ?_⟩,
    ⟨{ st (inMode .transact) with lgr := { waiting := [{ port := .i2c, op := .setting 12 [], reply := 4 }] } }, .spi, 12, (wchk .spi 4 ([12, 0] ++ List.replicate 20 0)), List.replicate 20 0, ?_⟩,
    ⟨st (inMode .transact), .spi, (wchk .spi 5 ([0, 0])), ?_⟩,
    ⟨st (inMode .transact), .i2c, 60, (wchk .i2c 6 (leBytes 2 60)), ?_⟩,
    ⟨{ st (inMode .transact) with lgr := { leaseBy := some .i2c, leaseEnd := 5 } }, .i2c, (wchk .i2c 6 ([0, 0])), ?_⟩⟩ <;>
    and_intros <;> first | decide +kernel | (unfold wiredReady; decide +kernel)

/-- States and operands that meet the hypotheses of clauses of LedgerPorts. -/
theorem test_meets_ledgerPorts_2 :
    (∃ (s : State) (w : Wired) (w' : Wired) (n : BitVec 16) (check : BitVec 16), wiredReady s w ∧ wiredGood w 6 (leBytes 2 n.toNat) check = true ∧
      n.toNat ≤ 60 ∧ s.lgr.leaseBy = some w' ∧ w' ≠ w ∧ (∀ a, s.lgr.running = some a → a.port ≠ .field)) ∧
    (∃ (s : State) (w : Wired) (n : BitVec 16) (check : BitVec 16), wiredReady s w ∧ wiredGood w 6 (leBytes 2 n.toNat) check = true ∧ 60 < n.toNat) := by
  refine ⟨⟨{ st (inMode .transact) with lgr := { leaseBy := some .i2c } }, .spi, .i2c, 60, (wchk .spi 6 (leBytes 2 60)), ?_⟩,
    ⟨st (inMode .transact), .i2c, 61, (wchk .i2c 6 (leBytes 2 61)), ?_⟩⟩ <;>
    and_intros <;> first | decide +kernel | (unfold wiredReady; decide +kernel)

/-- States and operands that meet the hypotheses of clauses of LedgerArbiter. -/
theorem test_meets_ledgerArbiter :
    (∃ (s : State) (a : LAccess), s.lgr.waiting = [a] ∧ s.lgr.running = none ∧ a.isRead = false ∧ a.started = false ∧ s.lgr.leaseBy = none ∧
      lUnchanged s.lgr a = none ∧ s.m.pw.onHarvest = false) ∧
    (∃ (s : State) (a : LAccess) (w : Wired), s.lgr.waiting = [a] ∧ s.lgr.running = none ∧ a.isRead = false ∧ a.started = false ∧ a.port = .field ∧
      s.lgr.leaseBy = some w) ∧
    (∃ (s : State) (a : LAccess) (q : Nat), s.lgr.waiting = [a] ∧ s.lgr.running = none ∧ a.started = false ∧ s.lgr.leaseBy = none ∧ lUnchanged s.lgr a
      = some q) ∧
    (∃ (s : State) (w : Wired) (n : Nat) (b : List Byte), s.lgr.waiting = [LAccess.mk (wiredPort w) (.read 1 n) 4 false] ∧ s.lgr.running = none ∧ 1 ≤
      n ∧ n ≤ 240 ∧ n ≤ s.lgr.head ∧ s.lgr.at_ (s.lgr.head + 1 - n) = some b) ∧
    (∃ (s : State), s.lgr.waiting = []) ∧
    (∃ (s : State) (body : List Byte), s.lgr.running = some (LAccess.mk .i2c (.append body) 4 true)) ∧
    (∃ (s : State) (body : List Byte), s.lgr.running = some (LAccess.mk .field (.append body) 1 true) ∧ s.m.tgt.session = .iso) ∧
    (∃ (s : State) (r : Nat) (data : List Byte), s.lgr.running = some (LAccess.mk .i2c (.setting r data) 4 true) ∧ 12 ≤ r ∧ r ≤ 15 ∧
      s.lgr.cur.host.length = 4) ∧
    (∃ (s : State), s.lgr.running = none) ∧
    (∃ (s : State) (body : List Byte), apduHears s = true ∧ s.m.tgt.iso.selected = true ∧ s.lgr.running = some (LAccess.mk .i2c (.append body) 4
      true)) ∧
    (∃ (s : State) (w : Wired) (a : LAccess), s.lgr.waiting = [a] ∧ a.port = wiredPort w ∧ a.started = false ∧ a.reply = 4) ∧
    (∃ (s : State) (w : Wired), (∀ a ∈ s.lgr.waiting, a.port ≠ wiredPort w)) := by
  refine ⟨⟨{ st (card 6) with lgr := { waiting := [{ port := .field, op := .append body58, reply := 1 }] } }, { port := .field, op := .append body58, reply := 1 }, ?_⟩,
    ⟨{ st (card 6) with lgr := { waiting := [{ port := .field, op := .append body58, reply := 1 }], leaseBy := some .spi } }, { port := .field, op := .append body58, reply := 1 }, .spi, ?_⟩,
    ⟨{ st (card 6) with lgr := { waiting := [{ port := .i2c, op := .setting 12 (List.replicate 20 0), reply := 4 }] } }, { port := .i2c, op := .setting 12 (List.replicate 20 0), reply := 4 }, 0, ?_⟩,
    ⟨{ st (inMode .transact) with lgr := { waiting := [LAccess.mk (wiredPort .spi) (.read 1 1) 4 false], ring := (Vector.replicate 240 .empty).set 0 (.record 1 body58), head := 1 } }, .spi, 1, body58, ?_⟩,
    ⟨State.reset, ?_⟩,
    ⟨{ st (card 6) with lgr := { running := some (LAccess.mk .i2c (.append body58) 4 true) } }, body58, ?_⟩,
    ⟨{ st (card 6) with lgr := { running := some (LAccess.mk .field (.append body58) 1 true) } }, body58, ?_⟩,
    ⟨{ st (card 6) with lgr := { running := some (LAccess.mk .i2c (.setting 15 (List.replicate 20 1)) 4 true) } }, 15, List.replicate 20 1, ?_⟩,
    ⟨State.reset, ?_⟩,
    ⟨{ st (card 6) with lgr := { running := some (LAccess.mk .i2c (.append body58) 4 true) } }, body58, ?_⟩,
    ⟨{ st (card 6) with lgr := { waiting := [{ port := .i2c, op := .setting 12 (List.replicate 20 0), reply := 4 }] } }, .i2c, { port := .i2c, op := .setting 12 (List.replicate 20 0), reply := 4 }, ?_⟩,
    ⟨State.reset, Sys2Proof.Wired.spi, ?_⟩⟩ <;>
    and_intros <;> decide +kernel

/-- States and operands that meet the hypotheses of clauses of RadioReceiver. -/
theorem test_meets_radioReceiver_1 :
    (∃ (s : State) (ch : Fin 64) (power : Int), hunted s.m ch.val = true ∧ ch.val ∉ s.m.rad.gates ∧ cfgI s.m 16 0x4000 0x07 ≤ power) ∧
    (∃ (s : State) (ch : Fin 64) (power : Int), hunted s.m ch.val = true ∧ ch.val ∈ s.m.rad.gates ∧ power < cfgI s.m 16 0x4000 0x07 - 30) ∧
    (∃ (s : State) (ch : Fin 64) (power : Int), ch.val ∈ s.m.rad.gates ∧ cfgI s.m 16 0x4000 0x07 - 30 ≤ power) ∧
    (∃ (s : State) (ch : Fin 64) (o : Fin 7) (p : Option ChirpPeak), detects s.m ch o ∧ (∀ x, p = some x → x.above < cfgN s.m 0x4000 0x0A)) ∧
    (∃ (s : State) (ch : Fin 64) (o : Fin 7) (p : ChirpPeak), detects s.m ch o ∧ cfgN s.m 0x4000 0x0A ≤ p.above ∧ (∀ q, qualOf s.m ch.val (8 + o.val)
      = some q → onTrack (8 + o.val) q.track p.shift = false ∨ q.count < 4)) ∧
    (∃ (s : State) (ch : Fin 64) (o : Fin 7) (p : ChirpPeak) (q : Qualifier) (d : Fin 8), detects s.m ch o ∧ cfgN s.m 0x4000 0x0A ≤ p.above ∧ qualOf
      s.m ch.val (8 + o.val) = some q ∧ q.count = 4 ∧ onTrack (8 + o.val) q.track p.shift = true ∧ noDemodOn s.m ch.val (8 + o.val) ∧
      (s.m.rad.demods[d]).st = 0 ∧ (∀ i : Fin 8, i.val < d.val → (s.m.rad.demods[i]).st ≠ 0)) ∧
    (∃ (s : State) (ch : Fin 64) (o : Fin 7) (p : ChirpPeak) (q : Qualifier), detects s.m ch o ∧ cfgN s.m 0x4000 0x0A ≤ p.above ∧ qualOf s.m ch.val (8
      + o.val) = some q ∧ q.count = 4 ∧ onTrack (8 + o.val) q.track p.shift = true ∧ noDemodOn s.m ch.val (8 + o.val) ∧ (∀ i : Fin 8,
      (s.m.rad.demods[i]).st ≠ 0)) ∧
    (∃ (s : State) (d : Fin 8), (s.m.rad.demods[d]).st = 1 ∧ (s.m.rad.demods[d]).space = none) ∧
    (∃ (s : State) (d : Fin 8), (s.m.rad.demods[d]).st ≠ 1) ∧
    (∃ (s : State) (d : Fin 8) (x : SyncMeasure) (v : Int), (s.m.rad.demods[d]).st = 1 ∧ syncOffset (s.m.rad.demods[d]).order (cfgN s.m 0x4000 0x03) x
      = some v) ∧
    (∃ (s : State) (d : Fin 8) (x : SyncMeasure), (s.m.rad.demods[d]).st = 1 ∧ (s.m.rad.demods[d]).space = none ∧ syncOffset (s.m.rad.demods[d]).order
      (cfgN s.m 0x4000 0x03) x = none) ∧
    (∃ (s : State) (d : Fin 8) (symbols : List Nat), (s.m.rad.demods[d]).st = 2 ∧ symbols.length = 24 ∧ headerGood s.m d symbols) := by
  refine ⟨⟨st hub, 0, -1250, ?_⟩,
    ⟨st (modRad hub fun r => { r with gates := [0] }), 0, -1281, ?_⟩,
    ⟨st (modRad hub fun r => { r with gates := [0] }), 0, -1280, ?_⟩,
    ⟨st (modRad hub fun r => { r with gates := [0] }), 0, 0, none, ?_⟩,
    ⟨st (modRad hub fun r => { r with gates := [0], quals := [⟨0, 8, 3, 10⟩] }), 0, 0, ⟨12, 100, -900⟩, ?_⟩,
    ⟨st (modRad hub fun r => { r with gates := [0], quals := [⟨0, 8, 4, 10⟩] }), 0, 0, ⟨8, 100, -900⟩, ⟨0, 8, 4, 10⟩, 0, ?_⟩,
    ⟨st (modRad hub fun r => { r with gates := [0], quals := [⟨0, 8, 4, 10⟩], demods := Vector.replicate 8 { st := 2, channel := 1 } }), 0, 0, ⟨8, 100, -900⟩, ⟨0, 8, 4, 10⟩, ?_⟩,
    ⟨st (modDemod (hub) 0 fun y => { y with st := 1 }), 0, ?_⟩,
    ⟨State.reset, 0, ?_⟩,
    ⟨st (modDemod (hub) 0 fun y => { y with st := 1, order := 8 }), 0, ⟨0, 800, 800⟩, 0, ?_⟩,
    ⟨st (modDemod (hub) 0 fun y => { y with st := 1, order := 8 }), 0, ⟨0, 800, 1300⟩, ?_⟩,
    ⟨st (modDemod (hub) 0 fun y => { y with st := 2, order := 10 }), 0, (syms [1, 2]).take 24, ?_⟩⟩ <;>
    and_intros <;> first | decide +kernel | (unfold noDemodOn; decide +kernel) | (unfold headerGood; decide +kernel) | (left; decide +kernel) | (constructor <;> decide +kernel)

/-- States and operands that meet the hypotheses of clauses of RadioReceiver. -/
theorem test_meets_radioReceiver_2 :
    (∃ (s : State) (d : Fin 8) (symbols : List Nat), (s.m.rad.demods[d]).st = 2 ∧ (s.m.rad.demods[d]).space = none ∧ symbols.length = 24 ∧ ¬
      headerGood s.m d symbols) ∧
    (∃ (s : State) (d : Fin 8) (symbols : List Nat), ((s.m.rad.demods[d]).st ≠ 2 ∨ symbols.length ≠ 24)) ∧
    (∃ (s : State) (peak : Int), radioListens s.m = true ∧ feRested s.m s.m.rad.feAtA ∧ -60 < peak ∧ 0 < s.m.rad.feA) ∧
    (∃ (s : State) (peak : Int), radioListens s.m = true ∧ feRested s.m s.m.rad.feAtA ∧ peak < -180 ∧ s.m.rad.feA < 30) ∧
    (∃ (s : State) (peak : Int), radioListens s.m = true ∧ feRested s.m s.m.rad.feAtB ∧ -60 < peak ∧ 0 < s.m.rad.feB) ∧
    (∃ (s : State) (peak : Int), radioListens s.m = true ∧ feRested s.m s.m.rad.feAtB ∧ peak < -180 ∧ s.m.rad.feB < 30) ∧
    (∃ (s : State) (b : Bool) (peak : Int), (-180 ≤ peak ∧ peak ≤ -60) ∨ ¬ feRested s.m (if b then s.m.rad.feAtB else s.m.rad.feAtA)) ∧
    (∃ (s : State) (d : Fin 8) (peak : Int), radioListens s.m = true ∧ (s.m.rad.demods[d]).st ≠ 0 ∧ -180 ≤ peak ∧ peak ≤ -60) ∧
    (∃ (s : State) (hz : Nat), radioOn s.m = true ∧ 780000000 ≤ hz ∧ hz ≤ 1020000000) ∧
    (∃ (s : State) (hz : Nat), (radioOn s.m = false ∨ hz < 780000000 ∨ 1020000000 < hz)) := by
  refine ⟨⟨st (modDemod (hub) 0 fun y => { y with st := 2, order := 10 }), 0, List.replicate 24 0, ?_⟩,
    ⟨st hub, 0, [], ?_⟩,
    ⟨st (modRad hub fun r => { r with feA := 5 }), -59, ?_⟩,
    ⟨st hub, -181, ?_⟩,
    ⟨st (modRad hub fun r => { r with feB := 1 }), 0, ?_⟩,
    ⟨st (modRad hub fun r => { r with feB := 29 }), -181, ?_⟩,
    ⟨st (modRad hub fun r => { r with feB := 29, feAtB := some 0 }), true, -100, ?_⟩,
    ⟨st (modDemod (hub) 0 fun y => { y with st := 2 }), 0, -60, ?_⟩,
    ⟨st hub, 1020000000, ?_⟩,
    ⟨st hub, 1020000001, ?_⟩⟩ <;>
    and_intros <;> first | decide +kernel | (unfold headerGood; decide +kernel) | (apply feRested_of; decide +kernel) | (left; decide +kernel)

/-- States and operands that meet the hypotheses of clauses of RadioProfileAndKeys. -/
theorem test_meets_radioProfileAndKeys_1 :
    (∃ (s : State), s.m.pw.mode = .calibrate ∧ s.m.pw.onHarvest = false ∧ s.lgr.leaseBy ≠ some .i2c ∧ s.m.pw.ctlDown = false ∧ s.lgr.held = false) ∧
    (∃ (s : State) (v : BitVec 8), (s.m.pw.mode ≠ .calibrate ∨ 2 < v.toNat)) ∧
    (∃ (s : State) (w0 : Word) (w1 : Word), s.m.pw.mode.isMain = true ∧ s.m.pw.ctlDown = false ∧ s.m.rad.profile = 0 ∧ s.m.rad.fLow ≤ w0.toNat ∧
      w0.toNat ≤ s.m.rad.fHigh ∧ s.m.rad.hopMin ≤ 1 ∧ bitAt w1.toNat 0 = true ∧ field w1.toNat 10 6 ≤ 61) ∧
    (∃ (s : State) (w0 : Word), s.m.pw.mode.isMain = true ∧ s.m.pw.ctlDown = false ∧ (w0.toNat < s.m.rad.fLow ∨ s.m.rad.fHigh < w0.toNat)) ∧
    (∃ (s : State) (ch : Fin 64) (w0 : Word), s.m.pw.mode.isMain = true ∧ s.m.pw.ctlDown = false ∧ s.m.rad.profile ≠ 0 ∧ w0 ≠ (s.m.rad.chans[ch]).1) ∧
    (∃ (s : State), s.m.pw.mode.isMain = false) ∧
    (∃ (s : State), s.m.pw.mode.isMain = true ∧ s.m.pw.ctlDown = false) ∧
    (∃ (s : State), s.m.pw.mode = .calibrate ∧ s.m.pw.ctlDown = false) ∧
    (∃ (s : State) (v : BitVec 8), (s.m.pw.mode ≠ .calibrate ∨ v ≠ 0xE5#8)) ∧
    (∃ (s : State) (n : Fin 256) (key : BitVec 128), s.m.pw.mode.isMain = true ∧ s.m.pw.ctlDown = false ∧ s.keys.partner[n] = some key) ∧
    (∃ (s : State) (n : Fin 256), s.keys.partner[n] = none) ∧
    (∃ (s : State) (n : Fin 256), s.m.pw.mode.isMain = true ∧ s.m.pw.ctlDown = false ∧ (s.m.pts[n]).state ≠ 0 ∧ isSat s.m = false) := by
  refine ⟨⟨st (inMode .calibrate), ?_⟩,
    ⟨st (inMode .calibrate), 3#8, ?_⟩,
    ⟨st (inMode .transact), 780000000#32, 0xF5FD#32, ?_⟩,
    ⟨st (inMode .transact), 779999999#32, ?_⟩,
    ⟨st (modRad hub fun r => { r with profile := 1 }), 0, 863000000#32, ?_⟩,
    ⟨State.reset, ?_⟩,
    ⟨st (inMode .transact), ?_⟩,
    ⟨st (inMode .calibrate), ?_⟩,
    ⟨State.reset, 0x00#8, ?_⟩,
    ⟨keyed (inMode .transact), 1, 5, ?_⟩,
    ⟨State.reset, 0, ?_⟩,
    ⟨st hub, 1, ?_⟩⟩ <;>
    and_intros <;> decide +kernel

/-- States and operands that meet the hypotheses of clauses of RadioProfileAndKeys. -/
theorem test_meets_radioProfileAndKeys_2 :
    (∃ (s : State) (v : BitVec 8), (s.m.pw.mode.isMain = false ∨ v = 2#8 ∨ 3 < v.toNat)) := by
  refine ⟨st hub, 4#8, ?_⟩ <;>
    and_intros <;> decide +kernel

/-- States and operands that meet the hypotheses of clauses of RadioTransmit. -/
theorem test_meets_radioTransmit_1 :
    (∃ (s : State) (k : TxKind) (powers : List Int), (∀ p ∈ powers, p < cfgI s.m 16 0x4100 0x04) ∧ radioOn s.m = true ∧ s.m.rad.tx.active = false ∧
      s.m.rad.tx.access = none ∧ s.m.rad.tx.backoff = none ∧ s.m.rad.ackWait = none ∧ nextTx s.m = some k) ∧
    (∃ (s : State) (i : Nat) (h : Held) (powers : List Int), (∃ p ∈ powers, cfgI s.m 16 0x4100 0x04 ≤ p) ∧ radioOn s.m = true ∧ s.m.rad.tx.active =
      false ∧ s.m.rad.tx.access = none ∧ s.m.rad.tx.backoff = none ∧ s.m.rad.ackWait = none ∧ nextTx s.m = some (.held i) ∧ s.m.rad.hold[i]? = some h
      ∧ h.busy + 1 < cfgN s.m 0x4100 0x06) ∧
    (∃ (s : State) (i : Nat) (h : Held) (powers : List Int), (∃ p ∈ powers, cfgI s.m 16 0x4100 0x04 ≤ p) ∧ radioOn s.m = true ∧ s.m.rad.tx.active =
      false ∧ s.m.rad.tx.access = none ∧ s.m.rad.tx.backoff = none ∧ s.m.rad.ackWait = none ∧ nextTx s.m = some (.held i) ∧ s.m.rad.hold[i]? = some h
      ∧ cfgN s.m 0x4100 0x06 ≤ h.busy + 1) ∧
    (∃ (s : State), nextTx s.m = none) ∧
    (∃ (s : State) (k : TxKind) (p : TxPlan) (key : BitVec 128), txGoes s k p key) ∧
    (∃ (s : State) (k : TxKind) (p : TxPlan) (key : BitVec 128), txGoes s k p key ∧ s.m.rad.tx.access = some k) ∧
    (∃ (s : State) (p : TxPlan) (key : BitVec 128), txGoes s .ack p key) ∧
    (∃ (s : State), (radioOn s.m = false ∨ s.m.pw.vrfLow = true ∨ s.m.rad.tx.active = true)) ∧
    (∃ (s : State), s.m.rad.tx.active = true ∧ s.m.rad.tx.kind = .ack) ∧
    (∃ (s : State) (i : Nat) (h : Held), s.m.rad.tx.active = true ∧ s.m.rad.tx.kind = .held i ∧ s.m.rad.hold[i]? = some h ∧ h.ackReq = true) ∧
    (∃ (s : State) (i : Nat) (h : Held), s.m.rad.tx.active = true ∧ s.m.rad.tx.kind = .held i ∧ s.m.rad.hold[i]? = some h ∧ h.ackReq = false ∧ h.dict
      = false ∧ ctlOn s.m = true ∧ roomFor s.m (s.m.pts[h.slot]).rxQueue 3) ∧
    (∃ (s : State), s.m.rad.tx.active = false) := by
  refine ⟨⟨st (modRad hub fun r => { r with hold := [held1] }), .held 0, [-2000], ?_⟩,
    ⟨st (modRad hub fun r => { r with hold := [held1] }), 0, held1, [-2000, 0], ?_⟩,
    ⟨st (cfgSet (modRad hub fun r => { r with hold := [held1] }) 0x4100 0x06 1), 0, held1, [0], ?_⟩,
    ⟨st hub, ?_⟩,
    ⟨keyed (modRad hub fun r => { r with hold := [held1], tx := { access := some (.held 0) } }), .held 0, ⟨1, 0, [1, 2], true, 0, 10, 8⟩, 5, ?_⟩,
    ⟨keyed (modRad hub fun r => { r with hold := [held1], tx := { access := some (.held 0) } }), .held 0, ⟨1, 0, [1, 2], true, 0, 10, 8⟩, 5, ?_⟩,
    ⟨keyed (modRad hub fun r => { r with ackDue := some ⟨1, 0, 10, [1]⟩ }), ⟨1, 1, [1], false, 0, 10, 8⟩, 5, ?_⟩,
    ⟨State.reset, ?_⟩,
    ⟨st (modRad hub fun r => { r with tx := { active := true, kind := .ack } }), ?_⟩,
    ⟨st (modRad hub fun r => { r with hold := [held1], tx := { active := true, kind := .held 0 } }), 0, held1, ?_⟩,
    ⟨st (modRad hub fun r => { r with hold := [{ held1 with ackReq := false }], tx := { active := true, kind := .held 0 } }), 0, { held1 with ackReq := false }, ?_⟩,
    ⟨State.reset, ?_⟩⟩ <;>
    and_intros <;> first | decide +kernel | (constructor <;> decide +kernel)

/-- States and operands that meet the hypotheses of clauses of RadioTransmit. -/
theorem test_meets_radioTransmit_2 :
    (∃ (s : State) (i : Nat) (c : Nat) (h : Held), s.m.rad.ackWait = some (.held i, c) ∧ s.m.rad.hold[i]? = some h ∧ h.copies ≤ cfgN s.m 0x4100 0x0F) ∧
    (∃ (s : State) (i : Nat) (c : Nat) (h : Held), s.m.rad.ackWait = some (.held i, c) ∧ s.m.rad.hold[i]? = some h ∧ cfgN s.m 0x4100 0x0F < h.copies ∧
      h.dict = false ∧ ctlOn s.m = true ∧ roomFor s.m (s.m.pts[h.slot]).rxQueue 3) ∧
    (∃ (s : State), s.m.rad.ackWait = none) ∧
    (∃ (s : State) (i : Nat) (h : Held), s.m.rad.hold[i]? = some h ∧ h.expiry ≠ 0 ∧ h.dict = false ∧ ctlOn s.m = true ∧ roomFor s.m
      (s.m.pts[h.slot]).rxQueue 3) ∧
    (∃ (s : State) (i : Nat), (∀ h, s.m.rad.hold[i]? = some h → h.expiry = 0)) := by
  refine ⟨⟨st (modRad hub fun r => { r with hold := [{ held1 with copies := 3 }], ackWait := some (.held 0, 5) }), 0, 5, { held1 with copies := 3 }, ?_⟩,
    ⟨st (modRad hub fun r => { r with hold := [{ held1 with copies := 4 }], ackWait := some (.held 0, 5) }), 0, 5, { held1 with copies := 4 }, ?_⟩,
    ⟨State.reset, ?_⟩,
    ⟨st (modRad hub fun r => { r with hold := [{ held1 with expiry := 1 }] }), 0, { held1 with expiry := 1 }, ?_⟩,
    ⟨State.reset, 0, ?_⟩⟩ <;>
    and_intros <;> first | decide +kernel | (constructor <;> decide +kernel)

/-- States and operands that meet the hypotheses of clauses of RadioFrames. -/
theorem test_meets_radioFrames :
    (∃ (s : State) (second : Bool) (q : Fin 32) (p : Packet) (rest : List Packet) (n : Fin 256) (w0 : Word) (w1 : Word) (ws : List Word), q = (if
      second then 17 else 16) ∧ ctlOn s.m = true ∧ s.m.rad.hold.length < 32 ∧ (s.m.pool.qs[q]).consumer = 4 ∧ (s.m.pool.qs[q]).pkts = p :: rest ∧
      p.opened = false ∧ p.poison = [] ∧ p.type = 0x31 ∧ p.words = w0 :: w1 :: ws ∧ w1.toNat % 256 ≤ 237 ∧ ws.length = (w1.toNat % 256 + 3) / 4 ∧
      n.val = w0.toNat % 256 ∧ (s.m.pts[n]).state ≠ 0 ∧ (isSat s.m = false ∨ n = 0)) ∧
    (∃ (s : State) (second : Bool) (q : Fin 32) (p : Packet) (rest : List Packet), q = (if second then 17 else 16) ∧ ctlOn s.m = true ∧
      s.m.rad.hold.length < 32 ∧ (s.m.pool.qs[q]).consumer = 4 ∧ (s.m.pool.qs[q]).pkts = p :: rest ∧ p.opened = false ∧ p.poison = [] ∧ p.type ≠ 0x31) ∧
    (∃ (s : State), 32 ≤ s.m.rad.hold.length) ∧
    (∃ (s : State) (d : Fin 8) (symbols : List Nat), ((s.m.rad.demods[d]).st ≠ 3 ∨ symbols.length + 24 ≠ 24 * radioBlocks (s.m.rad.demods[d]).order
      (s.m.rad.demods[d]).length)) ∧
    (∃ (s : State) (d : Fin 8) (symbols : List Nat) (payload : List Byte), blocksEnd s.m d symbols payload false ∧ (s.m.rad.demods[d]).space = none) ∧
    (∃ (s : State) (d : Fin 8) (symbols : List Nat) (payload : List Byte), blocksEnd s.m d symbols payload true ∧ (s.m.rad.demods[d]).space = none ∧
      payload.length < 18) ∧
    (∃ (s : State) (d : Fin 8) (symbols : List Nat) (payload : List Byte) (n : Fin 256) (key : BitVec 128), macHeard s d symbols payload n key ∧ ¬
      macGood s payload key) ∧
    (∃ (s : State) (d : Fin 8) (symbols : List Nat) (payload : List Byte) (n : Fin 256) (key : BitVec 128) (q : Fin 32) (pk : Packet), macHeard s d
      symbols payload n key ∧ macGood s payload key ∧ ctlOn s.m = true ∧ (nth payload 0 0).toNat % 8 = 0 ∧ (s.m.rad.demods[d]).space = some (q, pk.id)
      ∧ pk ∈ (s.m.pool.qs[q]).pkts ∧ pk.opened = true ∧ pk.words = [] ∧ pk.type = 0x30 ∧ pk.source = 0x03 ∧ payload.length ≤ 255 ∧ (∀ x ∈
      (s.m.pool.qs[q]).sinks, x.id ≠ pk.id) ∧ (∀ r : Fin 32, ∀ x ∈ (s.m.pool.qs[r]).pkts ++ (s.m.pool.qs[r]).sinks, x.id < s.m.pool.nextId ∧ (x.id =
      pk.id → r = q ∧ x = pk))) ∧
    (∃ (s : State) (d : Fin 8) (symbols : List Nat) (payload : List Byte) (n : Fin 256) (key : BitVec 128), macHeard s d symbols payload n key ∧
      macGood s payload key ∧ ctlOn s.m = true ∧ (nth payload 0 0).toNat % 8 = 2 ∧ (s.m.rad.demods[d]).space = none) ∧
    (∃ (s : State) (d : Fin 8) (symbols : List Nat) (payload : List Byte) (n : Fin 256) (key : BitVec 128) (i : Nat) (h : Held), macHeard s d symbols
      payload n key ∧ macGood s payload key ∧ (nth payload 0 0).toNat % 16 = 1 ∧ (s.m.rad.demods[d]).space = none ∧ s.m.rad.hold[i]? = some h ∧ h.slot
      = n ∧ h.dict = false ∧ s.m.rad.ackWait = some (.held i, leNat ((macText key (!isSat s.m) payload).take 4))) := by
  refine ⟨⟨st (withPkt hub 17 { type := 0x31, source := 1, words := [1, 237] ++ List.replicate 60 0 }), true, 17, { type := 0x31, source := 1, words := [1, 237] ++ List.replicate 60 0 }, [], 1, 1, 237, List.replicate 60 0, ?_⟩,
    ⟨st (withPkt hub 16 { type := 0x30, source := 1 }), false, 16, { type := 0x30, source := 1 }, [], ?_⟩,
    ⟨st (modRad hub fun r => { r with hold := List.replicate 32 held1 }), ?_⟩,
    ⟨st hub, 0, [1], ?_⟩,
    ⟨st (modDemod (hearing hub [1, 2]) 0 fun y => { y with bits := List.replicate 288 true }), 0, rest [1, 2], (heardPayload { order := 10, length := 2, bits := List.replicate 288 true } (rest [1, 2])).1, ?_⟩,
    ⟨st (hearing hub (List.replicate 17 0)), 0, rest (List.replicate 17 0), List.replicate 17 0, ?_⟩,
    ⟨keyed (hearing hub ([0, 9, 0, 0, 0, 1] ++ List.replicate 12 0)), 0, rest ([0, 9, 0, 0, 0, 1] ++ List.replicate 12 0), [0, 9, 0, 0, 0, 1] ++ List.replicate 12 0, 1, 5, ?_⟩,
    ⟨keyed ((modQ (hearing (modDemod (hub) 0 fun y => { y with st := 3, space := some (12, 7) }) (air true 0x00 1 [1, 2])) 12 fun x => { x with pkts := [{ id := 7, opened := true, type := 0x30, source := 3 }] }) |> fun m => { m with pool := { m.pool with nextId := 8 } }), 0, rest (air true 0x00 1 [1, 2]), air true 0x00 1 [1, 2], 1, 5, 12, { id := 7, opened := true, type := 0x30, source := 3 }, ?_⟩,
    ⟨keyed (hearing hub (air true 0x02 1 [1, 2])), 0, rest (air true 0x02 1 [1, 2]), air true 0x02 1 [1, 2], 1, 5, ?_⟩,
    ⟨keyed (hearing (modRad hub fun r => { r with hold := [held1], ackWait := some (.held 0, 6) }) (air true 0x01 1 [6, 0, 0, 0])), 0, rest (air true 0x01 1 [6, 0, 0, 0]), air true 0x01 1 [6, 0, 0, 0], 1, 5, 0, held1, ?_⟩⟩ <;>
    and_intros <;> first | decide +kernel | (unfold macGood; decide +kernel) | (constructor <;> first | decide +kernel | (constructor <;> decide +kernel))

/-- States and operands that meet the hypotheses of clauses of RadioCoding. -/
theorem test_meets_radioCoding :
    (∃ (n : Nat) (v : Nat) (k : Nat), 8 ≤ n ∧ n ≤ 14 ∧ v < 2 ^ (n - 2) ∧ k < 4) ∧
    (∃ (d : Nat), d < 4096) ∧
    (∃ (d : Nat) (e : Nat), d < 4096 ∧ e < 2 ^ 24 ∧ (natBits 24 e).countP id ≤ 3) ∧
    (∃ (cs : List Nat), (∀ c ∈ cs, c < 2 ^ 24)) ∧
    (∃ (n : Nat) (network : Nat) (power : Int) (precomp : Bool) (payload : List Byte) (data : List Nat) (first : List Bool), 8 ≤ n ∧ n ≤ 14 ∧ -10 ≤
      power ∧ power ≤ 27 ∧ 1 ≤ payload.length ∧ payload.length ≤ 255 ∧ data = (radioSymbols n network power precomp payload).drop 2 ∧ first =
      heardBits (heardWords n (data.take 24))) := by
  refine ⟨⟨14, 4095, 3, ?_⟩,
    ⟨4095, ?_⟩,
    ⟨4095, 7, ?_⟩,
    ⟨[1, 2], ?_⟩,
    ⟨14, 255, 27, true, [7], (radioSymbols 14 255 27 true [7]).drop 2, heardBits (heardWords 14 (((radioSymbols 14 255 27 true [7]).drop 2).take 24)), ?_⟩⟩ <;>
    and_intros <;> decide +kernel

/-- States and operands that meet the hypotheses of clauses of SleepingPartners. -/
theorem test_meets_sleepingPartners_1 :
    (∃ (s : State), isSat s.m = true ∧ (s.m.pts[(0 : Fin 256)]).state ≠ 0 ∧ s.m.rad.satLost = false ∧ radioOn s.m = true ∧ s.m.rad.satMissed < cfgN
      s.m 0x4100 0x09) ∧
    (∃ (s : State), isSat s.m = true ∧ (s.m.pts[(0 : Fin 256)]).state ≠ 0 ∧ s.m.rad.satLost = false ∧ radioOn s.m = true ∧ cfgN s.m 0x4100 0x09 ≤
      s.m.rad.satMissed) ∧
    (∃ (s : State), isSat s.m = false) ∧
    (∃ (s : State) (n : Fin 256), isSat s.m = false ∧ radioOn s.m = true ∧ (s.m.pts[n]).state = 1 ∧ n ∉ s.m.rad.guard) ∧
    (∃ (s : State) (n : Fin 256), (isSat s.m = true ∨ radioOn s.m = false ∨ (s.m.pts[n]).state ≠ 1)) ∧
    (∃ (s : State) (n : Fin 256), n ∈ s.m.rad.guard ∧ (s.m.pts[n]).window = true ∧ (s.m.pts[n]).misses + 1 < cfgN s.m 0x4100 0x09) ∧
    (∃ (s : State) (n : Fin 256), n ∈ s.m.rad.guard ∧ (s.m.pts[n]).window = true ∧ cfgN s.m 0x4100 0x09 ≤ (s.m.pts[n]).misses + 1 ∧ ctlOn s.m = true ∧
      roomFor s.m (s.m.pts[n]).rxQueue 2) ∧
    (∃ (s : State) (n : Fin 256), (s.m.pts[n]).window = false) ∧
    (∃ (s : State) (n : Fin 256), isSat s.m = false ∧ (s.m.pts[n]).state = 2) ∧
    (∃ (s : State) (n : Fin 256), (isSat s.m = true ∨ (s.m.pts[n]).state ≠ 2)) ∧
    (∃ (s : State) (n : Fin 256) (c : Nat), s.m.rad.ackWait = some (.wake n, c) ∧ (s.m.pts[n]).state = 3 ∧ (s.m.pts[n]).calls + 1 < cfgN s.m 0x4100
      0x0D) ∧
    (∃ (s : State) (n : Fin 256) (c : Nat), s.m.rad.ackWait = some (.wake n, c) ∧ (s.m.pts[n]).state = 3 ∧ cfgN s.m 0x4100 0x0D ≤ (s.m.pts[n]).calls +
      1) := by
  refine ⟨⟨st (modRad sat fun r => { r with satMissed := 3 }), ?_⟩,
    ⟨st (modRad sat fun r => { r with satMissed := 4 }), ?_⟩,
    ⟨State.reset, ?_⟩,
    ⟨st hub, 1, ?_⟩,
    ⟨State.reset, 0, ?_⟩,
    ⟨st (modPt (modRad hub fun r => { r with guard := [1] }) 1 fun p => { p with window := true, misses := 2 }), 1, ?_⟩,
    ⟨st (modPt (modRad hub fun r => { r with guard := [1] }) 1 fun p => { p with window := true, misses := 3 }), 1, ?_⟩,
    ⟨State.reset, 0, ?_⟩,
    ⟨st (modPt hub 1 fun p => { p with state := 2 }), 1, ?_⟩,
    ⟨State.reset, 0, ?_⟩,
    ⟨st (modPt (modRad hub fun r => { r with ackWait := some (.wake 1, 4) }) 1 fun p => { p with state := 3, calls := 1 }), 1, 4, ?_⟩,
    ⟨st (modPt (modRad hub fun r => { r with ackWait := some (.wake 1, 4) }) 1 fun p => { p with state := 3, calls := 2 }), 1, 4, ?_⟩⟩ <;>
    and_intros <;> first | decide +kernel | (constructor <;> decide +kernel)

/-- States and operands that meet the hypotheses of clauses of SleepingPartners. -/
theorem test_meets_sleepingPartners_2 :
    (∃ (s : State) (ch : Nat) (u : Nat), isSat s.m = true ∧ s.m.rad.satLost = true ∧ radioOn s.m = true ∧ s.m.rad.tx.active = false ∧ s.m.rad.profile
      ≠ 2 ∧ ch = cfgN s.m 0x4100 0x0C ∧ u = max s.m.rad.listenUntil (s.m.now + 8 * (2 ^ cfgN s.m 0x4100 0x0B * 5 / (if (chanOf s.m ch).wide then 2
      else 1)) * tickUs) ∧ inBand s.m (chanOf s.m ch) = true) ∧
    (∃ (s : State) (ch : Nat) (u : Nat), isSat s.m = true ∧ s.m.rad.satLost = true ∧ radioOn s.m = true ∧ s.m.rad.tx.active = false ∧ s.m.rad.profile
      ≠ 2 ∧ ch = cfgN s.m 0x4100 0x0C ∧ u = max s.m.rad.listenUntil (s.m.now + 8 * (2 ^ cfgN s.m 0x4100 0x0B * 5 / (if (chanOf s.m ch).wide then 2
      else 1)) * tickUs) ∧ inBand s.m (chanOf s.m ch) = false) ∧
    (∃ (s : State), isSat s.m = true ∧ s.m.rad.satLost = true ∧ radioOn s.m = true ∧ s.m.rad.tx.active = false ∧ s.m.rad.profile = 2 ∧ (∃ c ∈
      wakeGroup s.m, inBand s.m (chanOf s.m c) = false)) ∧
    (∃ (s : State), s.m.rad.satLost = false) ∧
    (∃ (s : State), isSat s.m = true) ∧
    (∃ (s : State), s.m.pw.mode = .watch ∧ cfgN s.m 0x4100 0x13 ≠ 0) ∧
    (∃ (s : State), s.m.pw.mode ≠ .watch) ∧
    (∃ (s : State) (d : Fin 8) (symbols : List Nat) (payload : List Byte) (n : Fin 256) (key : BitVec 128), macHeard s d symbols payload n key ∧
      macGood s payload key ∧ (nth payload 0 0).toNat % 8 = 4 ∧ isSat s.m = false) ∧
    (∃ (s : State) (d : Fin 8) (symbols : List Nat) (payload : List Byte) (n : Fin 256) (key : BitVec 128), macHeard s d symbols payload n key ∧
      macGood s payload key ∧ (nth payload 0 0).toNat % 16 = 3 ∧ isSat s.m = true ∧ s.m.rad.satLost = true) := by
  refine ⟨⟨st (modRad sat fun r => { r with satLost := true }), 0, 8 * (2 ^ cfgN (modRad sat fun r => { r with satLost := true }) 0x4100 0x0B * 5 / (if (chanOf hub 0).wide then 2 else 1)) * tickUs, ?_⟩,
    ⟨st (modRad sat fun r => { r with satLost := true, fLO := 800000000 }), 0, 8 * (2 ^ cfgN (modRad sat fun r => { r with satLost := true }) 0x4100 0x0B * 5 / (if (chanOf hub 0).wide then 2 else 1)) * tickUs, ?_⟩,
    ⟨st (modRad (cfgSet (cfgSet (modRad sat fun r => { r with satLost := true, fLO := 800000000 }) 0x4100 0x0C 1) 0x4000 0x02 2) fun r => { r with profile := 2, chans := Vector.ofFn fun i => (word (902200000 + 400000 * i.val), 0x1FF) }), ?_⟩,
    ⟨State.reset, ?_⟩,
    ⟨st sat, ?_⟩,
    ⟨st (cfgSet (inMode .watch) 0x4100 0x13 100), ?_⟩,
    ⟨State.reset, ?_⟩,
    ⟨keyed (hearing hub (air true 0x04 1 [1, 2])), 0, rest (air true 0x04 1 [1, 2]), air true 0x04 1 [1, 2], 1, 5, ?_⟩,
    ⟨keyed (hearing (modRad sat fun r => { r with satLost := true }) (air false 0x03 1 [])), 0, rest (air false 0x03 1 []), air false 0x03 1 [], 0, 5, ?_⟩⟩ <;>
    and_intros <;> first | decide +kernel | (unfold macGood; decide +kernel) | (constructor <;> first | decide +kernel | (constructor <;> decide +kernel))

/-- States and operands that meet the hypotheses of clauses of DictRequests. -/
theorem test_meets_dictRequests_1 :
    (∃ (s : State) (bs : List Byte) (e : EntryRow) (idx : Nat) (sub : Nat), spiAsks s bs 1 ∧ (idx, sub) = ((msgOf bs).index, (msgOf bs).sub) ∧ idx /
      256 ∈ [0x11, 0x21, 0x22, 0x24] ∧ checkAccess s.m hostReq false idx sub = 0 ∧ entryInfo idx sub = some e ∧ e.size ≤ 48) ∧
    (∃ (s : State) (bs : List Byte) (c : Nat), spiAsks s bs 1 ∧ c = checkAccess s.m hostReq false (msgOf bs).index (msgOf bs).sub ∧ c ≠ 0) ∧
    (∃ (s : State) (bs : List Byte) (e : EntryRow) (idx : Nat) (sub : Nat), spiAsks s bs 2 ∧ (idx, sub) = ((msgOf bs).index, (msgOf bs).sub) ∧ idx /
      256 ∈ [0x23, 0x24, 0x28, 0x32] ∧ entryInfo idx sub = some e ∧ e.persist = false ∧ checkWrite s.m hostReq idx sub (msgOf bs).len = 0 ∧ inRange
      s.m idx sub (leNat (msgOf bs).data) = true) ∧
    (∃ (s : State) (bs : List Byte) (e : EntryRow) (idx : Nat) (sub : Nat), spiAsks s bs 2 ∧ (idx, sub) = ((msgOf bs).index, (msgOf bs).sub) ∧ idx /
      256 ∈ [0x23, 0x24, 0x28, 0x32] ∧ entryInfo idx sub = some e ∧ e.persist = true ∧ checkWrite s.m hostReq idx sub (msgOf bs).len = 0 ∧ inRange s.m
      idx sub (leNat (msgOf bs).data) = true ∧ s.lgr.leaseBy ≠ some .i2c ∧ s.m.pw.onHarvest = false ∧ s.lgr.held = false) ∧
    (∃ (s : State) (bs : List Byte) (e : EntryRow) (idx : Nat) (sub : Nat), spiAsks s bs 2 ∧ (idx, sub) = ((msgOf bs).index, (msgOf bs).sub) ∧ idx /
      256 ∈ [0x23, 0x24, 0x28, 0x32] ∧ entryInfo idx sub = some e ∧ e.persist = true ∧ checkWrite s.m hostReq idx sub (msgOf bs).len = 0 ∧ inRange s.m
      idx sub (leNat (msgOf bs).data) = true ∧ s.lgr.leaseBy = some .i2c ∧ (mapGet (ekey idx sub) s.lgr.cur.persist).getD (entryDefault idx sub) ≠
      leNat (msgOf bs).data) ∧
    (∃ (s : State) (bs : List Byte) (c : Nat), spiAsks s bs 2 ∧ c = checkWrite s.m hostReq (msgOf bs).index (msgOf bs).sub (msgOf bs).len ∧ c ≠ 0 ∧ (c
      ≠ 5 ∨ ((msgOf bs).index, (msgOf bs).sub) ≠ (0x1100, 0x01))) ∧
    (∃ (s : State) (bs : List Byte), spiAsks s bs 2 ∧ s.m.pw.mode = .hold ∧ (msgOf bs).index = 0x1100 ∧ (msgOf bs).sub = 0x01 ∧ (msgOf bs).len = 1 ∧
      leNat (msgOf bs).data ≤ 7) ∧
    (∃ (s : State) (bs : List Byte) (e : EntryRow) (idx : Nat) (sub : Nat), spiAsks s bs 3 ∧ (idx, sub) = ((msgOf bs).index, (msgOf bs).sub) ∧ idx /
      256 ∈ [0x11, 0x21, 0x22, 0x24] ∧ checkAccess s.m hostReq false idx sub = 0 ∧ entryInfo idx sub = some e ∧ (otherTransfers s bs).length < 8) ∧
    (∃ (s : State) (bs : List Byte), spiAsks s bs 4 ∧ checkWrite s.m hostReq (msgOf bs).index (msgOf bs).sub (leNat (msgOf bs).data) = 0 ∧
      (otherTransfers s bs).length < 8) ∧
    (∃ (s : State) (bs : List Byte), spiAsks s bs 4 ∧ checkWrite s.m hostReq (msgOf bs).index (msgOf bs).sub (leNat (msgOf bs).data) = 0 ∧ 8 ≤
      (otherTransfers s bs).length) ∧
    (∃ (s : State) (bs : List Byte) (x : Transfer), spiAsks s bs 5 ∧ transferOf s.m hostReq (msgOf bs) = some x ∧ x.write = false ∧ (msgOf bs).len = 0
      ∧ (msgOf bs).offset % 48 = 0 ∧ (msgOf bs).offset < x.total) ∧
    (∃ (s : State) (bs : List Byte) (x : Transfer), spiAsks s bs 5 ∧ transferOf s.m hostReq (msgOf bs) = some x ∧ x.write = true ∧ x.done = none ∧
      x.lastOff ≠ some (msgOf bs).offset ∧ (msgOf bs).offset = x.buf.length ∧ (msgOf bs).len = 48 ∧ x.buf.length + 48 < x.total) := by
  refine ⟨⟨st (inMode .transact), msg 1 0 0x2100 0x02 0 [], ((entryInfo 0x2100 0x02).get (by decide +kernel)), 0x2100, 0x02, ?_⟩,
    ⟨st (inMode .transact), msg 1 0 0x2100 0xFF 0 [], 1, ?_⟩,
    ⟨st (inMode .transact), msg 2 1 0x2300 0x0A 0 [1], ((entryInfo 0x2300 0x0A).get (by decide +kernel)), 0x2300, 0x0A, ?_⟩,
    ⟨st (inMode .transact), msg 2 1 0x2800 0x0A 0 [0], ((entryInfo 0x2800 0x0A).get (by decide +kernel)), 0x2800, 0x0A, ?_⟩,
    ⟨{ st (inMode .transact) with lgr := { leaseBy := some .i2c } }, msg 2 1 0x2800 0x0A 0 [0], ((entryInfo 0x2800 0x0A).get (by decide +kernel)), 0x2800, 0x0A, ?_⟩,
    ⟨st (inMode .transact), msg 2 0 0x2100 0xFF 0 [], 1, ?_⟩,
    ⟨st (inMode .hold), msg 2 1 0x1100 0x01 0 [2], ?_⟩,
    ⟨st (inMode .transact), msg 3 0 0x2100 0x02 0 [], ((entryInfo 0x2100 0x02).get (by decide +kernel)), 0x2100, 0x02, ?_⟩,
    ⟨st (inMode .transact), msg 4 4 0x2100 0x02 0 [1, 0, 0, 0], ?_⟩,
    ⟨st (modDict (inMode .transact) fun d => { d with transfers := List.replicate 8 { cls := 1, who := 1, origin := 1, tid := 0, index := 0, sub := 0, write := false, total := 1, usedAt := 0 } }), msg 4 4 0x2100 0x02 0 [1, 0, 0, 0], ?_⟩,
    ⟨st (modDict (inMode .transact) fun d => { d with transfers := [{ cls := 0, who := 0, origin := 0, tid := 0, index := 0x2100, sub := 2, write := false, total := 1, usedAt := 0 }] }), msg 5 0 0x2100 0x02 0 [], { cls := 0, who := 0, origin := 0, tid := 0, index := 0x2100, sub := 2, write := false, total := 1, usedAt := 0 }, ?_⟩,
    ⟨st (modDict (inMode .transact) fun d => { d with transfers := [{ cls := 0, who := 0, origin := 0, tid := 0, index := 0x2100, sub := 2, write := true, total := 96, usedAt := 0 }] }), msg 5 48 0x2100 0x02 0 (List.replicate 48 0), { cls := 0, who := 0, origin := 0, tid := 0, index := 0x2100, sub := 2, write := true, total := 96, usedAt := 0 }, ?_⟩⟩ <;>
    and_intros <;> first | decide +kernel | (constructor <;> decide +kernel)

/-- States and operands that meet the hypotheses of clauses of DictRequests. -/
theorem test_meets_dictRequests_2 :
    (∃ (s : State) (bs : List Byte) (x : Transfer), spiAsks s bs 5 ∧ transferOf s.m hostReq (msgOf bs) = some x ∧ x.write = true ∧ x.lastOff ≠ some
      (msgOf bs).offset ∧ (msgOf bs).offset ≠ x.buf.length) ∧
    (∃ (s : State) (bs : List Byte), spiAsks s bs 5 ∧ transferOf s.m hostReq (msgOf bs) = none) ∧
    (∃ (s : State) (bs : List Byte), spiAsks s bs 6) := by
  refine ⟨⟨st (modDict (inMode .transact) fun d => { d with transfers := [{ cls := 0, who := 0, origin := 0, tid := 0, index := 0x2100, sub := 2, write := true, total := 96, usedAt := 0 }] }), msg 5 48 0x2100 0x02 48 (List.replicate 48 0), { cls := 0, who := 0, origin := 0, tid := 0, index := 0x2100, sub := 2, write := true, total := 96, usedAt := 0 }, ?_⟩,
    ⟨st (inMode .transact), msg 5 0 0x2100 0x02 0 [], ?_⟩,
    ⟨st (inMode .transact), msg 6 0 0x2100 0x02 0 [], ?_⟩⟩ <;>
    and_intros <;> first | decide +kernel | (constructor <;> decide +kernel)

/-- States and operands that meet the hypotheses of clauses of DictService. -/
theorem test_meets_dictService :
    (∃ (s : State) (bs : List Byte), serviceUp s.m = true ∧ spiUp s.m = true ∧ s.m.spi.stalled = none ∧ s.m.dict.deferred = [] ∧ s.m.dict.backAt =
      none ∧ msgWhole bs = true ∧ bs.length ≤ 64 ∧ msgCrcOk s.m bs = false ∧ (msgOf bs).radio = false ∧ (msgOf bs).dev = laceDev s.m) ∧
    (∃ (s : State) (bs : List Byte) (dchk : Byte), serviceUp s.m = true ∧ spiUp s.m = true ∧ s.m.spi.stalled = none ∧ s.m.dict.deferred = [] ∧
      rowTakes s.m 1 bs = true ∧ 16 ≤ bs.length ∧ bs.length ≤ 64 ∧ spiCheck bs ≠ dchk) ∧
    (∃ (s : State) (src : DictArrival), serviceUp s.m = false ∧ (src = .q18 ∨ src = .q20 ∨ (∃ n bs, src = .air n bs) ∨ (∃ d, src = .lace d))) ∧
    (∃ (s : State) (bs : List Byte) (who : Fin 256) (at_ : Nat) (r : Route), serviceUp s.m = true ∧ s.m.dict.backAt = none ∧ s.m.dict.airIn = [(who,
      bs, at_)] ∧ msgWhole bs = true ∧ (msgOf bs).resp = true ∧ msgCrcOk s.m bs = true ∧ s.m.dict.routes = [r] ∧ r.answeredBy true who.val (msgOf bs)
      = true ∧ r.cls = 0 ∧ outRoom s.m 0 = true ∧ roomFor s.m 19 (packWords (msgCut bs)).length) ∧
    (∃ (s : State) (bs : List Byte) (who : Fin 256) (at_ : Nat), serviceUp s.m = true ∧ s.m.dict.backAt = none ∧ s.m.dict.airIn = [(who, bs, at_)] ∧
      msgWhole bs = true ∧ (msgOf bs).resp = true ∧ msgCrcOk s.m bs = true ∧ (∀ r ∈ s.m.dict.routes, r.answeredBy true who.val (msgOf bs) = false)) ∧
    (∃ (s : State) (i : Nat) (r : Route), serviceUp s.m = true ∧ s.m.dict.routes[i]? = some r ∧ (r.radio = false ∨ r.acked = true) ∧ r.cls = 0 ∧
      roomFor s.m 19 4) ∧
    (∃ (s : State) (i : Nat), s.m.dict.routes.length ≤ i) ∧
    (∃ (s : State) (i : Nat), i < s.m.dict.transfers.length) ∧
    (∃ (s : State) (p : Packet) (rest : List Packet) (node : Nat) (fn : Nat) (bs : List Byte) (e : EntryRow) (idx : Nat) (sub : Nat), compatAsks s p
      rest node fn bs 1 ∧ (idx, sub) = ((compatOf bs).index, (compatOf bs).sub) ∧ idx / 256 ∈ [0x11, 0x21, 0x22, 0x24] ∧ checkAccess s.m
      { cls := 1, who := node, origin := node } false idx sub = 0 ∧ entryInfo idx sub = some e ∧ e.size ≤ 4) ∧
    (∃ (s : State) (p : Packet) (rest : List Packet) (node : Nat) (fn : Nat) (bs : List Byte) (e : EntryRow) (idx : Nat) (sub : Nat), compatAsks s p
      rest node fn bs 2 ∧ (idx, sub) = ((compatOf bs).index, (compatOf bs).sub) ∧ idx / 256 ∈ [0x23, 0x24, 0x28, 0x32] ∧ entryInfo idx sub = some e ∧
      e.persist = false ∧ e.size ≤ 4 ∧ checkWrite s.m { cls := 1, who := node, origin := node } idx sub e.size = 0 ∧ (compatOf bs).data < 2 ^ (8 *
      e.size) ∧ inRange s.m idx sub (compatOf bs).data = true) ∧
    (∃ (s : State), cfgB s.m 0x5010 0x01 = false) := by
  refine ⟨⟨st (inMode .transact), List.replicate 16 0, ?_⟩,
    ⟨st (inMode .transact), msg 1 0 0x2100 0x02 0 [], 0, ?_⟩,
    ⟨State.reset, .lace 3, ?_⟩,
    ⟨st (modDict (inMode .transact) fun d => { d with airIn := [(0, msg 0x91 0 0x2100 0x02 0 [], 0)], routes := [{ cls := 0, who := 0, msg := msg 0x81 0 0x2100 0x02 0 [], radio := true }] }), msg 0x91 0 0x2100 0x02 0 [], 0, 0, { cls := 0, who := 0, msg := msg 0x81 0 0x2100 0x02 0 [], radio := true }, ?_⟩,
    ⟨st (modDict (inMode .transact) fun d => { d with airIn := [(1, msg 0x91 0 0x2100 0x02 0 [], 0)], routes := [] }), msg 0x91 0 0x2100 0x02 0 [], 1, 0, ?_⟩,
    ⟨st (modDict (inMode .transact) fun d => { d with routes := [{ cls := 0, who := 0, msg := msg 0x81 0 0x2100 0x02 0 [], radio := true, acked := true }] }), 0, { cls := 0, who := 0, msg := msg 0x81 0 0x2100 0x02 0 [], radio := true, acked := true }, ?_⟩,
    ⟨State.reset, 0, ?_⟩,
    ⟨st (modDict (inMode .transact) fun d => { d with transfers := [{ cls := 0, who := 0, origin := 0, tid := 0, index := 0x2100, sub := 2, write := false, total := 1, usedAt := 0 }] }), 0, ?_⟩,
    ⟨st (cfgSet (withPkt (modCan (inMode .transact) fun c => { c with node := 5 }) 20 (dxPkt (dx 1 0x2100 0x02 0))) 0x5010 0x01 1), dxPkt (dx 1 0x2100 0x02 0), [], 1, 1, dx 1 0x2100 0x02 0, ((entryInfo 0x2100 0x02).get (by decide +kernel)), 0x2100, 0x02, ?_⟩,
    ⟨st (cfgSet (modDict (withPkt (modCan (inMode .transact) fun c => { c with node := 5 }) 20 (dxPkt (dx 2 0x2300 0x0A 1))) fun d => { d with netMasks := Vector.replicate 127 0xFFFFFFFF }) 0x5010 0x01 1), dxPkt (dx 2 0x2300 0x0A 1), [], 1, 1, dx 2 0x2300 0x0A 1, ((entryInfo 0x2300 0x0A).get (by decide +kernel)), 0x2300, 0x0A, ?_⟩,
    ⟨State.reset, ?_⟩⟩ <;>
    and_intros <;> first | decide +kernel | exact Or.inr (Or.inr (Or.inr ⟨3, rfl⟩)) | (constructor <;> first | decide +kernel | (constructor <;> decide +kernel))

/-- States and operands that meet the hypotheses of clauses of SpiPort. -/
theorem test_meets_spiPort_1 :
    (∃ (s : State) (h : SpiHeader), spiUp s.m = true ∧ s.m.spi.stalled = none ∧ headerOk h 0x00 false = true ∧ h.addr = 0 ∧ h.len = 0) ∧
    (∃ (s : State) (h : SpiHeader) (n : Nat) (ws : List Word) (dchk : Byte) (c : Instr), spiUp s.m = true ∧ s.m.spi.stalled = none ∧ headerHolds h =
      false ∧ c ∈ [.spiNop h, .spiReadWin h, .spiReadQ h n, .spiWriteQ h ws dchk, .spiConsume h]) ∧
    (∃ (s : State) (h : SpiHeader) (n : Nat) (ws : List Word) (dchk : Byte) (bs : List Byte) (c : Instr), spiUp s.m = false ∧ c ∈ [.spiNop h,
      .spiReadWin h, .spiReadQ h n, .spiWriteQ h ws dchk, .spiConsume h, .spiDictDefer bs, .spiAbandon, .spiWriteStallRelease, .spiIdleReset]) ∧
    (∃ (s : State) (h : SpiHeader), spiUp s.m = true ∧ s.m.spi.stalled = none ∧ headerOk h 0x01 false = true ∧ h.addr = 0x00C ∧ h.len = 8) ∧
    (∃ (s : State) (h : SpiHeader) (q : Fin 32), spiUp s.m = true ∧ s.m.spi.stalled = none ∧ headerOk h 0x01 false = true ∧ h.len = 4 ∧ h.addr.toNat =
      0x100 + 8 * q.val) ∧
    (∃ (s : State) (h : SpiHeader) (q : Fin 32) (p : Packet) (rest : List Packet) (w : Word), spiReady s ∧ headerOk h 0x03 true = true ∧ headerFlag h
      = false ∧ queueOf h = some q ∧ 2 ≤ h.len.toNat ∧ h.len.toNat ≤ 4096 ∧ headWord s.m q p rest w) ∧
    (∃ (s : State) (h : SpiHeader) (q : Fin 32) (p : Packet) (rest : List Packet) (w : Word), spiReady s ∧ headerOk h 0x03 true = true ∧ headerFlag h
      = true ∧ queueOf h = some q ∧ 2 ≤ h.len.toNat ∧ h.len.toNat ≤ 4096 ∧ headWord s.m q p rest w) ∧
    (∃ (s : State) (h : SpiHeader) (q : Fin 32) (p : Packet) (rest : List Packet) (w : Word), spiReady s ∧ headerOk h 0x05 false = true ∧ queueOf h =
      some q ∧ h.len = 2 ∧ (s.m.pool.qs[q]).keepMark ≠ 2 ∧ headWord s.m q p rest w) ∧
    (∃ (s : State) (h : SpiHeader) (q : Fin 32), spiReady s ∧ headerOk h 0x05 false = true ∧ queueOf h = some q ∧ h.len = 2 ∧
      (s.m.pool.qs[q]).keepMark ≠ 2 ∧ (s.m.pool.qs[q]).consumer ≠ 0) ∧
    (∃ (s : State) (h : SpiHeader) (q : Fin 32) (ws : List Word), spiReady s ∧ headerOk h 0x04 true = true ∧ headerFlag h = false ∧ queueOf h = some q
      ∧ h.len.toNat = ws.length + 1 ∧ h.len.toNat ≤ 4096 ∧ s.m.spi.openQ = none ∧ roomFor s.m q ws.length) ∧
    (∃ (s : State) (h : SpiHeader) (q : Fin 32) (w : Word) (ws : List Word) (dchk : Byte), spiReady s ∧ dchk ≠ spiCheck (wordsBytes (w :: ws)) ∧
      headerOk h 0x04 true = true ∧ queueOf h = some q ∧ h.len.toNat = ws.length + 1 ∧ h.len.toNat ≤ 4096 ∧ s.m.spi.openQ = none ∧ roomFor s.m q
      ws.length) ∧
    (∃ (s : State) (bs : List Byte), spiUp s.m = true ∧ s.m.spi.stalled = none ∧ loaderWaits s.m = false ∧ 16 ≤ bs.length ∧ bs.length ≤ 64) := by
  refine ⟨⟨st (inMode .transact), { cmd := 0x00#8, addr := 0x0000#16, len := 0x0000#16, hchk := 0xb2#8 }, ?_⟩,
    ⟨st (inMode .transact), { hdr 0 0 0 with hchk := 1 }, 0, [], 0, .spiConsume { hdr 0 0 0 with hchk := 1 }, ?_⟩,
    ⟨State.reset, { hdr 0 0 0 with hchk := 1 }, 0, [], 0, [], .spiIdleReset, ?_⟩,
    ⟨st (inMode .transact), { cmd := 0x01#8, addr := 0x000c#16, len := 0x0008#16, hchk := 0x2b#8 }, ?_⟩,
    ⟨st (inMode .transact), (hdr 1 0x1F8 4), 31, ?_⟩,
    ⟨st (withPkt (inMode .transact) 0 { type := 0x21, source := 4, words := [9] }), (hdr 3 0x200 4096), 0, { type := 0x21, source := 4, words := [9] }, [], 9, ?_⟩,
    ⟨st (withPkt (inMode .transact) 0 { type := 0x21, source := 4, words := [9] }), (hdr 0x43 0x200 2), 0, { type := 0x21, source := 4, words := [9] }, [], 9, ?_⟩,
    ⟨st (withPkt (inMode .transact) 0 { type := 0x21, source := 4, words := [9] }), (hdr 5 0x200 2), 0, { type := 0x21, source := 4, words := [9] }, [], 9, ?_⟩,
    ⟨st (inMode .transact), (hdr 5 0x240 2), 16, ?_⟩,
    ⟨st (inMode .transact), (hdr 4 0x200 2), 0, [5], ?_⟩,
    ⟨st (inMode .transact), (hdr 0x44 0x27C 2), 31, 0x200000#32, [5], spiCheck [0x00, 0x00, 0x20, 0x00, 5, 0, 0, 0] + 1, ?_⟩,
    ⟨st (inMode .transact), List.replicate 64 0, ?_⟩⟩ <;>
    and_intros <;> first | decide +kernel | (constructor <;> decide +kernel)

/-- States and operands that meet the hypotheses of clauses of SpiPort. -/
theorem test_meets_spiPort_2 :
    (∃ (s : State) (q : Fin 32) (id : Nat), spiUp s.m = true ∧ s.m.spi.openQ = some (q, id)) ∧
    (∃ (s : State), s.m.spi.openQ = none ∧ s.m.spi.stalled = none) ∧
    (∃ (s : State) (q : Fin 32) (r : Fin 32) (id : Nat) (ws : List Word) (p : Packet), spiUp s.m = true ∧ s.m.spi.stalled = some (q, ws, true, true) ∧
      s.m.spi.openQ = some (r, id) ∧ ws ≠ [] ∧ roomOf s.m q id ws.length = ws.length ∧ p ∈ (s.m.pool.qs[q]).pkts ∧ p.id = id ∧ p.opened = true ∧
      p.words.length + ws.length ≤ 65535 ∧ (∀ x ∈ (s.m.pool.qs[q]).sinks, x.id ≠ id) ∧ (∀ x ∈ (s.m.pool.qs[q]).pkts, x.id = id → x = p)) ∧
    (∃ (s : State), s.m.spi.stalled = none) ∧
    (∃ (s : State), spiUp s.m = true ∧ s.m.spi.stalled = none) ∧
    (∃ (s : State) (v : BitVec 8), ctlOn s.m = true ∧ s.m.pw.ctlDown = false ∧ (s.m.pw.mode.isMain = true ∨ s.m.pw.mode = .hold) ∧ v.toNat ≤ 1) ∧
    (∃ (v : BitVec 8), 1 < v.toNat) := by
  refine ⟨⟨st (modSpi (withPkt (inMode .transact) 0 { id := 1, opened := true, type := 0x21, source := 1 }) fun p => { p with openQ := some (0, 1) }), 0, 1, ?_⟩,
    ⟨State.reset, ?_⟩,
    ⟨st (modSpi (withPkt (inMode .transact) 0 { id := 1, opened := true, type := 0x21, source := 1 }) fun p => { p with openQ := some (0, 1), stalled := some (0, [5], true, true) }), 0, 0, 1, [5], { id := 1, opened := true, type := 0x21, source := 1 }, ?_⟩,
    ⟨State.reset, ?_⟩,
    ⟨st (inMode .transact), ?_⟩,
    ⟨st (inMode .transact), 0x00#8, ?_⟩,
    ⟨0x02#8, ?_⟩⟩ <;>
    and_intros <;> decide +kernel

/-- States and operands that meet the hypotheses of clauses of CanAndPins. -/
theorem test_meets_canAndPins_1 :
    (∃ (s : State) (f : CanFrame), canReady s.m ∧ f.supported = true ∧ f.id.toNat / 16 ≠ s.m.can.node ∧ (f.id.toNat % 16 = 1 ∨ f.id.toNat % 16 = 3) ∧
      bitAt (cfgN s.m 0x1810 0x0D) (f.id.toNat / 16) = true ∧ roomFor s.m 20 (canPacket f.id.toNat f.data).length) ∧
    (∃ (s : State) (f : CanFrame), canReady s.m ∧ f.supported = true ∧ f.id.toNat / 16 ≠ s.m.can.node ∧ (f.id.toNat % 16 = 1 ∨ f.id.toNat % 16 = 3) ∧
      bitAt (cfgN s.m 0x1810 0x0D) (f.id.toNat / 16) = true ∧ spaceTest s.m 20 (canPacket f.id.toNat f.data).length = false) ∧
    (∃ (s : State) (f : CanFrame), canReady s.m ∧ f.supported = false) ∧
    (∃ (s : State) (f : CanFrame), canReady s.m ∧ f.supported = true ∧ f.id.toNat / 16 = s.m.can.node) ∧
    (∃ (s : State) (f : CanFrame), f.supported = true ∧ f.id.toNat / 16 ≠ s.m.can.node ∧ ((f.id.toNat % 16 ≠ 1 ∧ f.id.toNat % 16 ≠ 3) ∨ bitAt (cfgN
      s.m 0x1810 0x0D) (f.id.toNat / 16) = false)) ∧
    (∃ (s : State) (p : Packet) (rest : List Packet) (w : Word) (ws : List Word), canReady s.m ∧ (s.m.pool.qs[(21 : Fin 32)]).consumer = 3 ∧
      (s.m.pool.qs[(21 : Fin 32)]).pkts = p :: rest ∧ p.opened = false ∧ p.poison = [] ∧ p.words = w :: ws) ∧
    (∃ (s : State), 2 ≤ s.m.can.state) ∧
    (∃ (s : State), ctlOn s.m = true ∧ s.m.pw.fwRunning = true ∧ cfgB s.m 0x1810 0x05 = true ∧ cfgN s.m 0x1810 0x07 ≠ s.m.can.node ∧ roomFor s.m 21 3) ∧
    (∃ (s : State), cfgB s.m 0x1810 0x05 = false) ∧
    (∃ (s : State) (n : BitVec 7), canReady s.m ∧ n.toNat ≠ s.m.can.node ∧ n.toNat ≠ 0 ∧ n.toNat = cfgN s.m 0x1810 0x07) ∧
    (∃ (s : State) (n : BitVec 7), n.toNat ≠ s.m.can.node ∧ n.toNat ≠ cfgN s.m 0x1810 0x07) ∧
    (∃ (s : State), canOn s.m = true ∧ s.m.can.state ≠ 2) := by
  refine ⟨⟨st (cfgSet (cfgSet (inMode .transact) 0x1810 0x04 1) 0x1810 0x0D (2 ^ 127 - 1)), { id := 0x13, data := [] }, ?_⟩,
    ⟨st (modQ (cfgSet (cfgSet (inMode .transact) 0x1810 0x04 1) 0x1810 0x0D (2 ^ 127 - 1)) 20 fun x => { x with cmin := 0, cmax := 0 }), { id := 0x13, data := [] }, ?_⟩,
    ⟨st (inMode .transact), { supported := false, id := 0x011#11, data := [] }, ?_⟩,
    ⟨st (inMode .transact), { supported := true, id := 0x7e1#11, data := [] }, ?_⟩,
    ⟨State.reset, { supported := true, id := 0x012#11, data := [] }, ?_⟩,
    ⟨st (withPkt (cfgSet (inMode .transact) 0x1810 0x04 1) 21 { type := 0x28, source := 5, words := canPacket 0x7E1 [1, 2] }), { type := 0x28, source := 5, words := canPacket 0x7E1 [1, 2] }, [], nth (canPacket 0x7E1 [1, 2]) 0 0, (canPacket 0x7E1 [1, 2]).drop 1, ?_⟩,
    ⟨st (modCan (inMode .transact) fun p => { p with state := 2 }), ?_⟩,
    ⟨st (cfgSet (cfgSet (inMode .transact) 0x1810 0x05 1) 0x1810 0x07 3), ?_⟩,
    ⟨st (cfgSet (inMode .transact) 0x1810 0x05 0), ?_⟩,
    ⟨st (cfgSet (cfgSet (cfgSet (inMode .transact) 0x1810 0x04 1) 0x1810 0x0D (2 ^ 127 - 1)) 0x1810 0x07 127), 127, ?_⟩,
    ⟨State.reset, 0x01#7, ?_⟩,
    ⟨st (inMode .transact), ?_⟩⟩ <;>
    and_intros <;> first | decide +kernel | (constructor <;> decide +kernel)

/-- States and operands that meet the hypotheses of clauses of CanAndPins. -/
theorem test_meets_canAndPins_2 :
    (∃ (s : State), (canOn s.m = false ∨ s.m.can.state = 2)) ∧
    (∃ (s : State), s.m.pw.mode.isMain = true ∧ s.m.pw.ctlDown = false ∧ s.m.can.state = 2) ∧
    (∃ (s : State) (v : BitVec 8), s.m.pw.mode.isMain = true ∧ s.m.pw.ctlDown = false ∧ v.toNat ≤ 1 ∧ (v = 0#8 ∨ s.m.can.state ≠ 2)) ∧
    (∃ (s : State) (v : BitVec 8), (s.m.pw.mode.isMain = false ∨ 1 < v.toNat)) ∧
    (∃ (s : State), s.m.can.recovering = true) ∧
    (∃ (s : State), s.m.can.recovering = false) ∧
    (∃ (s : State), canOn s.m = true ∧ s.m.can.state ≠ 3) ∧
    (∃ (s : State), s.m.can.state = 3) ∧
    (∃ (s : State), s.m.can.state ≠ 3) ∧
    (∃ (s : State) (v : BitVec 8), s.m.pw.mode.isMain = true ∧ s.m.pw.ctlDown = false ∧ 1 ≤ v.toNat ∧ v.toNat ≤ 126 ∧ s.lgr.leaseBy ≠ some .i2c ∧
      s.lgr.held = false ∧ s.m.pw.onHarvest = false) ∧
    (∃ (s : State) (v : BitVec 8), (s.m.pw.mode.isMain = false ∨ v.toNat = 0 ∨ 126 < v.toNat)) ∧
    (∃ (s : State) (g : Fin 8), (s.m.gpio[g]).mode ≠ 3) := by
  refine ⟨⟨State.reset, ?_⟩,
    ⟨st (modCan (inMode .transact) fun p => { p with state := 2 }), ?_⟩,
    ⟨st (inMode .transact), 0x00#8, ?_⟩,
    ⟨State.reset, 0x00#8, ?_⟩,
    ⟨st (modCan (inMode .transact) fun p => { p with recovering := true }), ?_⟩,
    ⟨State.reset, ?_⟩,
    ⟨st (inMode .transact), ?_⟩,
    ⟨st (modCan (inMode .transact) fun p => { p with state := 3 }), ?_⟩,
    ⟨State.reset, ?_⟩,
    ⟨st (inMode .transact), 0x01#8, ?_⟩,
    ⟨State.reset, 0x00#8, ?_⟩,
    ⟨State.reset, 0, ?_⟩⟩ <;>
    and_intros <;> decide +kernel

/-- States and operands that meet the hypotheses of clauses of CheckUnits. -/
theorem test_meets_checkUnits :
    (∃ (s : State) (c : Fin 8) (sub : BitVec 8) (v : BitVec 32), s.m.pw.mode.isMain = true ∧ s.m.pw.ctlDown = false ∧ sub.toNat ∈ [1, 2, 3, 4, 7, 8] ∧
      cuRange s.m.cus[c] sub.toNat v.toNat = true ∧ (s.m.cus[c]).owned = false) ∧
    (∃ (s : State) (c : Fin 8) (sub : BitVec 8) (v : BitVec 32), (s.m.pw.mode.isMain = false ∨ (s.m.cus[c]).owned = true ∨ cuRange s.m.cus[c]
      sub.toNat v.toNat = false ∨ sub.toNat ∉ [1, 2, 3, 4, 7, 8])) ∧
    (∃ (s : State) (c : Fin 8) (v : BitVec 32), ctlOn s.m = true ∧ s.m.pw.ctlDown = false ∧ (s.m.pw.mode.isMain = true ∨ s.m.pw.mode = .hold) ∧
      v.toNat < 2 ^ (CrcKind.ofCode (s.m.cus[c]).crc).width ∧ (s.m.cus[c]).owned = false) ∧
    (∃ (s : State) (c : Fin 8) (v : BitVec 32), ((s.m.cus[c]).owned = true ∨ 2 ^ (CrcKind.ofCode (s.m.cus[c]).crc).width ≤ v.toNat)) ∧
    (∃ (s : State) (old : Fin 8) (new : Fin 8), s.m.pw.mode = .calibrate ∧ s.m.pw.ctlDown = false ∧ cfgN s.m 0x5010 0x04 = old.val ∧ new.val ≠ cfgN
      s.m 0x5010 0x05 ∧ new ≠ old) ∧
    (∃ (s : State) (g : Bool) (c : Fin 8), (s.m.pw.mode ≠ .calibrate ∨ c.val = cfgN s.m 0x5010 (if g then 0x04 else 0x05) ∨ c.val = cfgN s.m 0x5010
      (if g then 0x05 else 0x04))) := by
  refine ⟨⟨st (inMode .transact), 0, 0x01#8, 0x00000000#32, ?_⟩,
    ⟨State.reset, 0, 0x00#8, 0x00000000#32, ?_⟩,
    ⟨st (inMode .transact), 0, 0x00000000#32, ?_⟩,
    ⟨st (inMode .transact), 6, 0#32, ?_⟩,
    ⟨st (inMode .calibrate), finOf 8 (cfgN State.reset.m 0x5010 0x04), 0, ?_⟩,
    ⟨State.reset, false, 0, ?_⟩⟩ <;>
    and_intros <;> decide +kernel

/-- States and operands that meet the hypotheses of clauses of LaceFormation. -/
theorem test_meets_laceFormation_1 :
    (∃ (s : State) (l : LaceLink) (clean : BitVec 3) (r : Fin 3), laceOn s.m = true ∧ (linkOf s.m l).up = false ∧ cfgN s.m 0x7800 0x06 ≤ r.val ∧
      clean.toNat.testBit r.val = true ∧ (∀ k : Fin 3, cfgN s.m 0x7800 0x06 ≤ k.val → k.val < r.val → clean.toNat.testBit k.val = false)) ∧
    (∃ (s : State) (l : LaceLink) (clean : BitVec 3), laceOn s.m = true ∧ (linkOf s.m l).up = false ∧ (∀ k : Fin 3, cfgN s.m 0x7800 0x06 ≤ k.val →
      clean.toNat.testBit k.val = false)) ∧
    (∃ (s : State) (l : LaceLink), laceOn s.m = true ∧ (linkOf s.m l).up = false ∧ cfgN s.m 0x7800 0x06 = 0) ∧
    (∃ (s : State) (l : LaceLink), (laceOn s.m = false ∨ (linkOf s.m l).up = true)) ∧
    (∃ (s : State) (l : LaceLink), (linkOf s.m l).up = true ∧ s.m.lace.state = 2) ∧
    (∃ (s : State) (l : LaceLink), (linkOf s.m l).up = true ∧ (linkOf s.m (otherLink l)).up = false ∧ s.m.lace.state = 3 ∧ s.m.sch.reqs = [] ∧ (∃ d :
      Fin 4, d ≠ s.m.lace.device ∧ laceHas s.m d.val = true)) ∧
    (∃ (s : State) (l : LaceLink), (linkOf s.m l).up = false) ∧
    (∃ (s : State) (l : LaceLink) (f : SentFrame) (fs : List SentFrame), (linkOf s.m l).unacked = f :: fs ∧ (∀ g ∈ fs, f.at_ ≤ g.at_) ∧ f.tries < 3) ∧
    (∃ (s : State) (l : LaceLink) (f : SentFrame) (fs : List SentFrame), (linkOf s.m l).unacked = f :: fs ∧ (∀ g ∈ fs, f.at_ ≤ g.at_) ∧ 3 ≤ f.tries) ∧
    (∃ (s : State) (l : LaceLink), (linkOf s.m l).unacked = []) ∧
    (∃ (s : State) (l : LaceLink), laceOn s.m = true ∧ (linkOf s.m l).up = false) ∧
    (∃ (s : State) (l : LaceLink), (linkOf s.m l).up = true) := by
  refine ⟨⟨st (modLace (inLace 1 2 3) fun l => { l with linkA := {}, linkB := {}, state := 0 }), .a, 6, 1, ?_⟩,
    ⟨st (modLace (inLace 1 2 3) fun l => { l with linkA := {}, linkB := {} }), .a, 0, ?_⟩,
    ⟨st (modLace (inLace 1 2 3) fun l => { l with linkA := {}, linkB := {} }), .a, ?_⟩,
    ⟨st (inLace 1 2 3), .a, ?_⟩,
    ⟨st (modLace (inLace 1 2 3) fun l => { l with linkA := { up := true, unacked := [{ lseq := 0, at_ := 0, words := [1] }] } }), .a, ?_⟩,
    ⟨st (modLace (inLace 1 2 3) fun l => { l with linkB := {}, state := 3 }), .a, ?_⟩,
    ⟨st (modLace (inLace 1 2 3) fun l => { l with linkA := {}, linkB := {} }), .a, ?_⟩,
    ⟨st (modLace (inLace 1 2 3) fun l => { l with linkA := { unacked := [{ lseq := 0, at_ := 0, words := [1] }, { lseq := 0, tries := 3, at_ := 0, words := [1] }] } }), .a, { lseq := 0, at_ := 0, words := [1] }, [{ lseq := 0, tries := 3, at_ := 0, words := [1] }], ?_⟩,
    ⟨st (modLace (inLace 1 2 3) fun l => { l with linkA := { up := true, unacked := [{ lseq := 0, tries := 3, at_ := 0, words := [1] }] } }), .a, { lseq := 0, tries := 3, at_ := 0, words := [1] }, [], ?_⟩,
    ⟨st (inLace 1 2 3), .a, ?_⟩,
    ⟨st (modLace (inLace 1 2 3) fun l => { l with linkA := {}, linkB := {} }), .a, ?_⟩,
    ⟨st (inLace 1 2 3), .a, ?_⟩⟩ <;>
    and_intros <;> decide +kernel

/-- States and operands that meet the hypotheses of clauses of LaceFormation. -/
theorem test_meets_laceFormation_2 :
    (∃ (s : State), s.m.lace.state = 1 ∧ s.m.lace.linkA.up = false ∧ s.m.lace.linkB.up = false) ∧
    (∃ (s : State), s.m.lace.state ≠ 1) ∧
    (∃ (s : State) (e : Nat), laceOn s.m = true ∧ s.m.lace.state = 1 ∧ s.m.lace.role = 1 ∧ s.m.lace.linkA.up = true ∧ cfgN s.m 0x7800 0x04 = e ∧
      s.m.lace.foundA ≤ 3 ∧ (s.m.lace.foundB = 0 ∨ (s.m.lace.foundA + s.m.lace.foundB + 1 ≤ e ∧ e ≤ 4))) ∧
    (∃ (s : State), (s.m.lace.state ≠ 1 ∨ s.m.lace.role ≠ 1)) ∧
    (∃ (s : State) (ws : List Word), laceOn s.m = true ∧ s.m.lace.linkB.up = true ∧ laceWhole ws = true ∧ isLace ws 0 = true ∧ s.m.lace.state = 1 ∧
      s.m.lace.role = 1 ∧ bitAt (nth (lacePayload ws) 0 0).toNat 8 = true ∧ 2 ≤ field (nth (lacePayload ws) 0 0).toNat 0 8 ∧ field (nth (lacePayload
      ws) 0 0).toNat 0 8 ≤ 4) ∧
    (∃ (s : State) (ws : List Word), laceOn s.m = true ∧ s.m.lace.linkB.up = true ∧ laceWhole ws = true ∧ isLace ws 0 = true ∧ s.m.lace.state = 1 ∧
      s.m.lace.role = 2 ∧ s.m.lace.numbered = false ∧ bitAt (nth (lacePayload ws) 0 0).toNat 8 = true ∧ 1 ≤ field (nth (lacePayload ws) 0 0).toNat 0 8
      ∧ field (nth (lacePayload ws) 0 0).toNat 0 8 ≤ 3) ∧
    (∃ (s : State) (l : LaceLink), (laceOn s.m = false ∨ (linkOf s.m l).up = false)) ∧
    (∃ (s : State) (d : Fin 4), laceOn s.m = true ∧ s.m.lace.state = 2 ∧ d ≠ s.m.lace.device ∧ laceHas s.m d.val = true ∧ s.m.sch.reqs = []) ∧
    (∃ (s : State) (d : Fin 4), laceHas s.m d.val = false) := by
  refine ⟨⟨st (modLace (inLace 1 2 3) fun l => { l with linkA := {}, linkB := {}, state := 1 }), ?_⟩,
    ⟨st (inLace 1 2 3), ?_⟩,
    ⟨st (cfgSet (modLace (inLace 1 1 1) fun l => { l with foundA := 1, foundB := 1 }) 0x7800 0x04 4), 4, ?_⟩,
    ⟨st (inLace 1 2 3), ?_⟩,
    ⟨st (inLace 1 1 1), from1 0 [3 + 256], ?_⟩,
    ⟨st (inLace 2 1 1), lf 0 0 1 0 [3 + 256], ?_⟩,
    ⟨st (modLace (inLace 1 2 3) fun l => { l with linkA := {}, linkB := {} }), .a, ?_⟩,
    ⟨st (inLace 1 2 15), 2, ?_⟩,
    ⟨st (inLace 1 2 3), 2, ?_⟩⟩ <;>
    and_intros <;> decide +kernel

/-- States and operands that meet the hypotheses of clauses of LaceSends. -/
theorem test_meets_laceSends_1 :
    (∃ (s : State), inRing s.m ∧ s.m.lace.role = 1) ∧
    (∃ (s : State), s.m.lace.role ≠ 1) ∧
    (∃ (s : State), inRing s.m ∧ s.m.lace.role = 1 ∧ engOn s.m = true ∧ phaseSource s.m = 2) ∧
    (∃ (s : State), (s.m.lace.role ≠ 1 ∨ phaseSource s.m ≠ 2)) ∧
    (∃ (s : State), inRing s.m ∧ s.m.lace.role = 2 ∧ engOn s.m = true ∧ s.m.ph.st = 2) ∧
    (∃ (s : State), s.m.lace.role ≠ 2) ∧
    (∃ (s : State) (x : Nat), s.m.lace.role = 2 ∧ s.m.lace.alignAt = some x ∧ x ≤ tickAt s.m s.m.now) ∧
    (∃ (s : State), s.m.lace.alignAt = none) ∧
    (∃ (s : State), s.m.lace.role = 2) ∧
    (∃ (s : State) (ws : List Word), laceOn s.m = true ∧ 2 ≤ s.m.lace.state ∧ s.m.lace.linkB.up = true ∧ s.m.lace.linkA.up = true ∧ laceWhole ws =
      true ∧ ((laceHeadOf ws).bcast = true ∨ (laceHeadOf ws).dst ≠ s.m.lace.device) ∧ (laceHeadOf ws).src ≠ s.m.lace.device ∧ (laceHeadOf ws).type ≠ 0
      ∧ (laceHeadOf ws).type.toNat < 0xB) ∧
    (∃ (s : State) (ws : List Word), laceWhole ws = true ∧ (laceHeadOf ws).bcast = false ∧ (laceHeadOf ws).dst = s.m.lace.device) ∧
    (∃ (s : State) (p : Packet) (rest : List Packet) (w : Word) (ws : List Word) (d : Fin 4), inRing s.m ∧ ctlOn s.m = true ∧ (s.m.pool.qs[(23 : Fin
      32)]).consumer = 5 ∧ (s.m.pool.qs[(23 : Fin 32)]).pkts = p :: rest ∧ p.opened = false ∧ p.poison = [] ∧ p.type = 0x2A ∧ p.words = w :: ws ∧
      d.val = field w.toNat 6 2 ∧ d ≠ s.m.lace.device ∧ laceReach s.m d.val = true) := by
  refine ⟨⟨st (inLace 1 2 3), ?_⟩,
    ⟨State.reset, ?_⟩,
    ⟨st (cfgSet (inLace 1 2 3) 0x2000 0x01 2), ?_⟩,
    ⟨State.reset, ?_⟩,
    ⟨st (modPh (modLace (inLace 2 2 3) fun l => { l with device := 1 }) fun p => { p with st := 2 }), ?_⟩,
    ⟨State.reset, ?_⟩,
    ⟨st (modLace (modLace (inLace 2 2 3) fun l => { l with device := 1 }) fun l => { l with alignAt := some 0 }), 0, ?_⟩,
    ⟨State.reset, ?_⟩,
    ⟨st (inLace 2 2 3), ?_⟩,
    ⟨st (inLace 1 2 15), lf 10 1 2 1 [7], ?_⟩,
    ⟨st (inLace 1 2 15), from1 10 [7], ?_⟩,
    ⟨st (withPkt (inLace 1 2 3) 23 { type := 0x2A, source := 4, words := [BitVec.ofNat 32 (7 + 64), 9] }), { type := 0x2A, source := 4, words := [BitVec.ofNat 32 (7 + 64), 9] }, [], BitVec.ofNat 32 (7 + 64), [9], 1, ?_⟩⟩ <;>
    and_intros <;> first | decide +kernel | (constructor <;> decide +kernel)

/-- States and operands that meet the hypotheses of clauses of LaceSends. -/
theorem test_meets_laceSends_2 :
    (∃ (s : State) (p : Packet) (rest : List Packet) (w : Word) (ws : List Word), laceOn s.m = true ∧ ctlOn s.m = true ∧ (s.m.pool.qs[(23 : Fin
      32)]).consumer = 5 ∧ (s.m.pool.qs[(23 : Fin 32)]).pkts = p :: rest ∧ p.opened = false ∧ p.poison = [] ∧ p.type = 0x2A ∧ p.words = w :: ws ∧
      field w.toNat 0 4 = 7 ∧ field w.toNat 6 2 = s.m.lace.device.val) ∧
    (∃ (s : State), laceOn s.m = false) := by
  refine ⟨⟨st (withPkt (inLace 1 2 3) 23 { type := 0x2A, source := 4, words := [BitVec.ofNat 32 (7), 9] }), { type := 0x2A, source := 4, words := [BitVec.ofNat 32 (7), 9] }, [], BitVec.ofNat 32 7, [9], ?_⟩,
    ⟨State.reset, ?_⟩⟩ <;>
    and_intros <;> decide +kernel

/-- States and operands that meet the hypotheses of clauses of LaceFrames. -/
theorem test_meets_laceFrames_1 :
    (∃ (s : State) (l : LaceLink) (ws : List Word), laceOn s.m = true ∧ (linkOf s.m l).up = true ∧ 2 ≤ s.m.lace.state ∧ laceWhole ws = false ∧
      ((linkOf s.m l).failed.filter fun x => decide (s.m.now < x + tickMs)).length < 16) ∧
    (∃ (s : State) (l : LaceLink) (ws : List Word), laceOn s.m = true ∧ (linkOf s.m l).up = true ∧ laceWhole ws = false ∧ 16 ≤ ((linkOf s.m
      l).failed.filter fun x => decide (s.m.now < x + tickMs)).length) ∧
    (∃ (s : State) (l : LaceLink) (ws : List Word), laceOn s.m = true ∧ (linkOf s.m l).up = true ∧ 2 ≤ s.m.lace.state ∧ laceWhole ws = true ∧
      (laceHeadOf ws).src ≠ s.m.lace.device ∧ ((laceHeadOf ws).bcast = true ∨ (laceHeadOf ws).dst = s.m.lace.device) ∧ (laceHeadOf ws).eseq.toNat ≤
      nth s.m.lace.eseqIn ((laceHeadOf ws).src.val + 4 * bitN (laceHeadOf ws).bcast) 0 ∧ nth s.m.lace.eseqIn ((laceHeadOf ws).src.val + 4 * bitN
      (laceHeadOf ws).bcast) 0 < (laceHeadOf ws).eseq.toNat + 32768) ∧
    (∃ (s : State) (l : LaceLink) (ws : List Word), laceHears s.m l ws 1 ∧ s.m.lace.role = 2 ∧ (laceHeadOf ws).src = 0) ∧
    (∃ (s : State) (l : LaceLink) (ws : List Word), laceHears s.m l ws 2 ∧ s.m.lace.role = 2 ∧ (laceHeadOf ws).src = 0 ∧ engOn s.m = true ∧
      s.m.plan.pending = none) ∧
    (∃ (s : State) (l : LaceLink) (ws : List Word), laceHears s.m l ws 3 ∧ s.m.lace.role = 2 ∧ (laceHeadOf ws).src = 0) ∧
    (∃ (s : State) (l : LaceLink) (ws : List Word) (f : EdgeField), laceHears s.m l ws 4 ∧ f = edgeOf (lacePayload ws) ∧ f.gport.val / 128 =
      (laceHeadOf ws).src.val ∧ s.m.sch.reqs = []) ∧
    (∃ (s : State) (l : LaceLink) (ws : List Word) (f : EdgeField), laceHears s.m l ws 5 ∧ f = edgeOf (lacePayload ws) ∧ inRing s.m ∧ f.gport.val /
      128 = (laceHeadOf ws).src.val ∧ laceHas s.m (laceHeadOf ws).src.val = true ∧ noFields s.m ∧ s.m.lace.claimed = none) ∧
    (∃ (s : State) (l : LaceLink) (ws : List Word) (f : EdgeField), laceHears s.m l ws 5 ∧ f = edgeOf (lacePayload ws) ∧ inRing s.m ∧ f.gport.val /
      128 = (laceHeadOf ws).src.val ∧ laceHas s.m (laceHeadOf ws).src.val = true ∧ claimRefused s.m f = true) ∧
    (∃ (s : State) (d : Fin 4) (f : EdgeField), inRing s.m ∧ s.m.lace.claims = [(d, f)] ∧ noFields s.m) ∧
    (∃ (s : State) (d : Fin 4), (∀ x ∈ s.m.lace.claims, x.1 ≠ d)) ∧
    (∃ (s : State) (l : LaceLink) (ws : List Word) (w : Owner) (e : Fin 4), laceHears s.m l ws 6 ∧ bitAt (nth (lacePayload ws) 0 0).toNat 0 = true ∧
      s.m.lace.claimed = some (w, [(laceHeadOf ws).src, e]) ∧ e ≠ (laceHeadOf ws).src) := by
  refine ⟨⟨st (inLace 1 2 3), .a, [1, 2, 3], ?_⟩,
    ⟨st (modLace (inLace 1 2 3) fun l => { l with linkA := { up := true, failed := List.replicate 16 0 } }), .a, [1], ?_⟩,
    ⟨st (modLace (inLace 1 2 3) fun l => { l with eseqIn := [0, 1, 0, 0, 0, 0, 0, 0] }), .a, from1 4 [1, 2], ?_⟩,
    ⟨st (modLace (modLace (inLace 2 2 3) fun l => { l with device := 1 }) fun l => { l with pathLat := 7 }), .b, fromLead 1 [5, 0], ?_⟩,
    ⟨st (modLace (inLace 2 2 3) fun l => { l with device := 1 }), .b, fromLead 2 [5, 0, 3, 100 + 2 ^ 17, 8000000], ?_⟩,
    ⟨st (modLace (inLace 2 2 3) fun l => { l with device := 1 }), .b, fromLead 3 [10000, 0], ?_⟩,
    ⟨st (inLace 1 2 3), .a, from1 4 [128 + 512, 40 * 2 ^ 16], edgeOf [128 + 512, 40 * 2 ^ 16], ?_⟩,
    ⟨st (inLace 1 2 3), .a, from1 5 [128 + 512, 40 * 2 ^ 16], edgeOf [128 + 512, 40 * 2 ^ 16], ?_⟩,
    ⟨st (modPort (modLace (withFld { owner := .burnish, port := 0, level := 40, closed := true }) fun l => { l with role := 1, state := 2, members := 3, linkA := { up := true } }) 0 fun p => { p with nbr := [{ gport := 128, kAtt := 0 }] }), .a, from1 5 [128 + 512, 40 * 2 ^ 16], edgeOf [128 + 512, 40 * 2 ^ 16], ?_⟩,
    ⟨st (modLace (inLace 1 2 3) fun l => { l with claims := [(1, { gport := 128, isOn := true, code := 0, level := 40, sub8 := false, iso := false })] }), 1, { gport := 128, isOn := true, code := 0, level := 40, sub8 := false, iso := false }, ?_⟩,
    ⟨st (inLace 1 2 3), 1, ?_⟩,
    ⟨st (modLace (inLace 1 2 7) fun l => { l with claimed := some (.burnish, [1, 2]) }), .a, from1 6 [1], .burnish, 2, ?_⟩⟩ <;>
    and_intros <;> first | decide +kernel | (unfold noFields; decide +kernel) | (constructor <;> decide +kernel)

/-- States and operands that meet the hypotheses of clauses of LaceFrames. -/
theorem test_meets_laceFrames_2 :
    (∃ (s : State) (l : LaceLink) (ws : List Word) (w : Owner) (ds : List (Fin 4)), laceHears s.m l ws 6 ∧ bitAt (nth (lacePayload ws) 0 0).toNat 0 =
      false ∧ s.m.lace.claimed = some (w, ds) ∧ (laceHeadOf ws).src ∈ ds ∧ s.m.sch.reqs = []) ∧
    (∃ (s : State) (l : LaceLink) (ws : List Word), laceHears s.m l ws 7 ∧ ctlOn s.m = true ∧ roomFor s.m 23 ((lacePayload ws).length + 1)) ∧
    (∃ (s : State) (l : LaceLink) (ws : List Word) (q : Fin 32), laceHears s.m l ws 8 ∧ (stitchOf ws).2 = false ∧ q.val = 24 + (stitchOf ws).1 ∧ ctlOn
      s.m = true ∧ roomFor s.m q ((lacePayload ws).drop 3).length) ∧
    (∃ (s : State) (l : LaceLink) (ws : List Word) (q : Fin 32) (a : Fin 4 × Job), laceHears s.m l ws 8 ∧ (stitchOf ws).2 = true ∧ q.val = 24 +
      (stitchOf ws).1 ∧ ctlOn s.m = true ∧ awayJob s.m (laceHeadOf ws).src (field (nth ((lacePayload ws).drop 3) 2 0).toNat 0 16) = some a) ∧
    (∃ (s : State), s.m.lace.retry ≠ []) ∧
    (∃ (s : State), s.m.lace.retry = []) ∧
    (∃ (s : State) (l : LaceLink) (ws : List Word) (a : Fin 4 × Job), laceHears s.m l ws 9 ∧ ctlOn s.m = true ∧ awayJob s.m (laceHeadOf ws).src (field
      (nth (lacePayload ws) 1 0).toNat 0 16) = some a ∧ roomFor s.m a.2.rqueue (lacePayload ws).length) ∧
    (∃ (s : State) (l : LaceLink) (ws : List Word), laceHears s.m l ws 0xA ∧ s.m.lace.role = 1 ∧ ctlOn s.m = true ∧ 7 ≤ (lacePayload ws).length ∧
      field (nth (lacePayload ws) 1 0).toNat 0 16 < 0x1000 ∧ roomFor s.m 22 (lacePayload ws).length) := by
  refine ⟨⟨st (modLace (inLace 1 2 3) fun l => { l with claimed := some (.burnish, [1]) }), .a, from1 6 [0], .burnish, [1], ?_⟩,
    ⟨st (inLace 1 2 3), .a, from1 7 [1, 2], ?_⟩,
    ⟨st (inLace 1 2 3), .a, from1 8 [3, 7, 0, 1, 2, 3, 4, 5, 6, 7, 8], 27, ?_⟩,
    ⟨st (modLace (inLace 1 2 3) fun l => { l with away := [(1, job 4 0 0)] }), .a, from1 8 [2 ^ 31, 0, 0, 4, 0, 0], 24, (1, job 4 0 0), ?_⟩,
    ⟨st (modLace (inLace 1 2 3) fun l => { l with retry := [24] }), ?_⟩,
    ⟨st (inLace 1 2 3), ?_⟩,
    ⟨st (modLace (inLace 1 2 3) fun l => { l with away := [(1, job 4 0 0)] }), .a, from1 9 [4, 0, 0, 0], (1, job 4 0 0), ?_⟩,
    ⟨st (inLace 1 2 3), .a, from1 10 [1, 0, 0, 0, 0, 0, 0], ?_⟩⟩ <;>
    and_intros <;> first | decide +kernel | (constructor <;> decide +kernel)

/-- States and operands that meet the hypotheses of clauses of FaultsAndRecovery. -/
theorem test_meets_faultsAndRecovery_1 :
    (∃ (s : State) (v : BitVec 16), ctlOn s.m = true ∧ s.m.pw.ctlDown = false ∧ (s.m.pw.mode.isMain = true ∨ s.m.pw.mode = .hold) ∧ isCounterIndex
      v.toNat = true ∧ v.toNat ∉ [0x7000, 0x7008, 0x7018, 0x70C0]) ∧
    (∃ (s : State), s.m.pw.ctlDown = true) ∧
    (∃ (v : BitVec 16), v ≠ 0xFFFF#16 ∧ isCounterIndex v.toNat = false) ∧
    (∃ (s : State), s.m.pw.mode.isMain = false ∧ s.m.pw.mode ≠ .hold) ∧
    (∃ (s : State), ctlOn s.m = true) ∧
    (∃ (s : State), ctlOn s.m = false) ∧
    (∃ (s : State) (c : Fin 3), engOn s.m = true ∧ c.val ≠ 0 ∧ s.m.sch.state = 0 ∧ s.m.flt.recent = [] ∧ 1 < cfgN s.m 0x7100 0x07) ∧
    (∃ (s : State) (c : Fin 3), engOn s.m = true ∧ c.val ≠ 0 ∧ s.m.sch.state ≠ 0) ∧
    (∃ (s : State) (c : Fin 3), (engOn s.m = false ∨ c.val = 0)) ∧
    (∃ (s : State), s.m.sch.state = 1) ∧
    (∃ (s : State), s.m.sch.state ≠ 1) ∧
    (∃ (s : State) (c : Fin 3), engOn s.m = true ∧ c.val ≠ 0 ∧ s.m.rad.unit = 0 ∧ s.m.rad.tx.active = false ∧ s.m.flt.recent = [] ∧ 1 < cfgN s.m
      0x7100 0x07) := by
  refine ⟨⟨st (inMode .hold), 0x7010#16, ?_⟩,
    ⟨st (modPw (inMode .transact) fun p => { p with ctlDown := true }), ?_⟩,
    ⟨0x7FFF#16, ?_⟩,
    ⟨st (inMode .watch), ?_⟩,
    ⟨st (inMode .transact), ?_⟩,
    ⟨State.reset, ?_⟩,
    ⟨st (inMode .transact), 1, ?_⟩,
    ⟨st { inMode .transact with sch := { state := 3 } }, 2, ?_⟩,
    ⟨st (inMode .transact), 0, ?_⟩,
    ⟨st { inMode .transact with sch := { state := 1 } }, ?_⟩,
    ⟨State.reset, ?_⟩,
    ⟨st (inMode .transact), 2, ?_⟩⟩ <;>
    and_intros <;> decide +kernel

/-- States and operands that meet the hypotheses of clauses of FaultsAndRecovery. -/
theorem test_meets_faultsAndRecovery_2 :
    (∃ (s : State) (c : Fin 3), engOn s.m = true ∧ c.val ≠ 0 ∧ s.m.rad.unit = 3) ∧
    (∃ (s : State), s.m.rad.unit = 1) ∧
    (∃ (s : State), s.m.rad.unit ≠ 1) ∧
    (∃ (s : State), s.m.pw.mode.isMain = true ∧ s.m.pw.ctlDown = false ∧ s.m.rad.unit = 4) ∧
    (∃ (s : State) (v : BitVec 8), (v ≠ 0x5A#8 ∨ s.m.rad.unit ≠ 4 ∨ s.m.pw.mode.isMain = false)) ∧
    (∃ (s : State), s.m.pw.ctlState = 3) ∧
    (∃ (s : State), s.m.pool.state = 3) ∧
    (∃ (s : State), s.m.sch.state = 3) ∧
    (∃ (s : State), s.m.rad.unit = 3) ∧
    (∃ (s : State), s.m.pw.ctlState ≠ 3 ∧ s.m.pool.state ≠ 3 ∧ s.m.sch.state ≠ 3 ∧ s.m.rad.unit ≠ 3) := by
  refine ⟨⟨st (modRad hub fun r => { r with unit := 3 }), 1, ?_⟩,
    ⟨st (modRad hub fun r => { r with unit := 1 }), ?_⟩,
    ⟨State.reset, ?_⟩,
    ⟨st (modRad hub fun r => { r with unit := 4 }), ?_⟩,
    ⟨st (inMode .transact), 0x5A#8, ?_⟩,
    ⟨st (modPw (inMode .transact) fun p => { p with ctlState := 3 }), ?_⟩,
    ⟨st { inMode .transact with pool := { state := 3 } }, ?_⟩,
    ⟨st { inMode .transact with sch := { state := 3 } }, ?_⟩,
    ⟨st (modRad hub fun r => { r with unit := 3 }), ?_⟩,
    ⟨st (inMode .transact), ?_⟩⟩ <;>
    and_intros <;> decide +kernel
/-- The empty ring meets the premises of the invariant, with a step that idles. -/
theorem test_meets_everyStepKeepsTheRing : ∃ s t, ringKept s.lgr ∧ step s = .next t :=
  ⟨State.reset, _, fun i q b h => by simp [State.reset] at h, rfl⟩

end Sys2Proof.Tests
end

section
/-!
Proofs of the statements of chapter 01: the idle step, the supply monitors, the clocks and the junction temperature, and the management
controller. The lemmas say once what each operation of Machine/Power.lean does; the statements are put together from them.
-/

namespace Sys2Proof.Machine

/-! ## The idle step -/

/-- Settles O2: an empty queue leads to `idle`, which is the update that the statement writes out. -/
theorem idleLetsOnePeriodPass : Obligations.IdleLetsOnePeriodPass := by
  intro s h
  have front : step s = idle s := by unfold step; rw [h]
  rw [front]
  rfl

/-! ## Commands that act on the main part alone -/

/-- A command that acts on the main part alone leaves the ledger, the keys and the queue. -/
theorem mainOnly_m (s : State) (m : Main) : mainOnly s { s with m := m } := ⟨rfl, rfl, rfl⟩

/-- A command that acts on the main part by `f` answers what holds of `f`'s result. -/
theorem answers_of_onMain {c : Instr} {s : State} {f : Main → Main} {P : State → Prop} (hc : exec c s = onMain f s)
    (h : P { s with m := f s.m }) : answers c s P := ⟨_, hc, h⟩

/-- A command that acts on the main part by `f` has the next state in which `f`'s result is written out. -/
theorem exec_of_onMain {c : Instr} {s : State} {f : Main → Main} {m : Main} (hc : exec c s = onMain f s) (h : f s.m = m) :
    exec c s = .next { s with m := m } := by
  rw [hc, onMain, h]

/-! ## The supply VTX (R48) -/

/-- In a main mode every field goes off, the started stitches end, and that is journalled. -/
theorem vtxFall_main {m : Main} (h : m.pw.mode.isMain = true) :
    vtxFall m = journal (abortStarted (allFieldsOff (modPw m fun p => { p with vtxLow := true, vtxHold := true })) 5) 0x00 0x3006 [] := by
  simp [vtxFall, h]

/-- Outside the main modes only a sweep in progress ends. -/
theorem vtxFall_other {m : Main} (h : m.pw.mode.isMain = false) :
    vtxFall m = (if m.wt.active && m.wt.sweeping then sweepDark (modPw m fun p => { p with vtxLow := true, vtxHold := true })
      else modPw m fun p => { p with vtxLow := true, vtxHold := true }) := by
  simp [vtxFall, h]

/-- VTX low reaches the reader alone, where no sweep is in progress. -/
theorem readerOnly_vtxFall {m : Main} (h : m.pw.mode.isMain = true ∨ m.wt.active = false) :
    readerOnly (modPw m fun p => { p with vtxLow := true, vtxHold := true }) (vtxFall m) := by
  cases hm : m.pw.mode.isMain with
  | true =>
    rw [vtxFall_main hm]
    exact readerOnly_trans (readerOnly_trans (readerOnly_allFieldsOff _) (readerOnly_abortStarted ..)) (readerOnly_journal ..)
  | false =>
    have idle : m.wt.active = false := h.resolve_left (by simp [hm])
    rw [vtxFall_other hm, idle]
    exact readerOnly_refl _

@[simp] theorem sweepDark_pw (m : Main) : (sweepDark m).pw = m.pw := count_pw m 0x70B0 0x0C

/-- Both monitors of VTX are set in every mode. -/
theorem vtxFall_low (m : Main) : (vtxFall m).pw.vtxLow = true ∧ (vtxFall m).pw.vtxHold = true := by
  cases hm : m.pw.mode.isMain with
  | true =>
    rw [readerOnly_pw_eq (readerOnly_vtxFall (.inl hm))]
    exact ⟨rfl, rfl⟩
  | false =>
    rw [vtxFall_other hm]
    split <;> simp

/-- In a main mode VTX low leaves no field. -/
theorem noFields_vtxFall {m : Main} (h : m.pw.mode.isMain = true) : noFields (vtxFall m) := by
  rw [vtxFall_main h]
  exact noFields_of_shrink (fieldsShrink_trans (fieldsShrink_abortStarted ..) (fieldsShrink_journal ..)) (noFields_allFieldsOff _)

theorem answers_vtxLow (s : State) : answers .vtxLow s fun t =>
    t.m.pw.vtxLow = true ∧ t.m.pw.vtxHold = true ∧ (s.m.pw.mode.isMain = true → noFields t.m) ∧ mainOnly s t ∧
    (s.m.pw.mode.isMain = true ∨ s.m.wt.active = false →
      readerOnly (modPw s.m fun p => { p with vtxLow := true, vtxHold := true }) t.m) := by
  obtain ⟨low, hold⟩ := vtxFall_low s.m
  exact answers_of_onMain (f := vtxFall) rfl ⟨low, hold, noFields_vtxFall, mainOnly_m .., readerOnly_vtxFall⟩

theorem answers_vtxRestored (s : State) : answers .vtxRestored s fun t =>
    t.m.pw.vtxLow = false ∧ t.m.pw.vtxHold = false ∧ mainOnly s t ∧
    readerOnly (modPw s.m fun p => { p with vtxLow := false, vtxHold := false }) t.m := by
  have reach := readerOnly_evaluate (modPw s.m fun p => { p with vtxLow := false, vtxHold := false })
  have pw := readerOnly_pw_eq reach
  exact answers_of_onMain (f := fun m => evaluate (modPw m fun p => { p with vtxLow := false, vtxHold := false })) rfl
    ⟨congrArg Power.vtxLow pw, congrArg Power.vtxHold pw, mainOnly_m .., reach⟩

/-! ## The supply VAO (R27) -/

/-- The harvest rail takes the island over where a field of enough strength stands at the target port. -/
theorem vaoFall_onHarvest {s : State} (up : s.m.pw.aoUp = true) (field : s.m.pw.fieldOn = true) (strong : 15 ≤ s.m.pw.strength) :
    vaoFall s = { s with m := { s.m with pw := { s.m.pw with vaoOk := false, onHarvest := true } } } := by
  simp [vaoFall, harvestField, modPw, up, field, strong]

/-- Without a field the island loses its power. -/
theorem vaoFall_unpowered {s : State} (up : s.m.pw.aoUp = true) (field : s.m.pw.fieldOn = false) :
    vaoFall s = unpowered { s with m := modPw s.m fun p => { p with vaoOk := false } } := by
  simp [vaoFall, harvestField, up, field]

theorem answers_vaoLow_unpowered {s : State} (up : s.m.pw.aoUp = true) (field : s.m.pw.fieldOn = false) : answers .vaoLow s fun t =>
    t.m.pw.vaoOk = false ∧ t.m.pw.aoUp = false ∧ t.m.pw.mode = .dormant ∧ t.m.pw.ctlOn = false ∧ noFields t.m ∧
    t.lgr.running = none ∧ t.lgr.waiting = [] ∧ t.lgr.leaseBy = none ∧ t.keys = s.keys ∧ t.pending = s.pending := by
  obtain ⟨mode, aoUp, ctlOn, vaoOk, waiting, lease, running, fields, keys, queue⟩ :=
    unpowered_facts { s with m := modPw s.m fun p => { p with vaoOk := false } }
  refine ⟨vaoFall s, rfl, ?_⟩
  rw [vaoFall_unpowered up field]
  exact ⟨vaoOk, aoUp, mode, ctlOn, fields, running, waiting, lease, keys, queue⟩

/-- An island that has run on is not reset when VAO returns. -/
theorem vaoRise_up {s : State} (up : s.m.pw.aoUp = true) :
    vaoRise s = { s with m := { s.m with pw := { s.m.pw with vaoOk := true, onHarvest := false } } } := by
  simp [vaoRise, modPw, up]

/-! ## The clock monitor (R25, R26) -/

section ClockMonitor

variable {m : Main} {n : Nat}

theorem monitorWindow_good (on : m.pw.ctlOn = true) (ref : m.pw.onBackup = false) (good : windowBad n = false) :
    monitorWindow m n false = { m with pw := { m.pw with badWindows := 0 } } := by
  simp [monitorWindow, ctlOn, on, ref, good, modPw]

theorem monitorWindow_firstBad (on : m.pw.ctlOn = true) (ref : m.pw.onBackup = false) (bad : windowBad n = true)
    (first : m.pw.badWindows = 0) : monitorWindow m n false = { m with pw := { m.pw with badWindows := 1 } } := by
  simp [monitorWindow, ctlOn, on, ref, bad, first, modPw]

theorem monitorWindow_secondBad (on : m.pw.ctlOn = true) (ref : m.pw.onBackup = false) (bad : windowBad n = true)
    (again : m.pw.badWindows ≠ 0) : monitorWindow m n false = referenceFault m := by
  simp [monitorWindow, ctlOn, on, ref, bad, again]

theorem monitorWindow_lost (on : m.pw.ctlOn = true) (ref : m.pw.onBackup = false) :
    monitorWindow m n true = sleepLoss (modPw m fun p => { p with badWindows := 0 }) := by
  simp [monitorWindow, ctlOn, on, ref]

end ClockMonitor

/-- What a reference fault has done to the power state when HOLD is entered: the fields are off and SCLK is on the backup oscillator. -/
theorem referenceFault_eq (m : Main) :
    ∃ x, x.pw = { (allFieldsOff m).pw with onBackup := true, badWindows := 0 } ∧ referenceFault m = enterHold x 2 [] :=
  ⟨_, journal_pw .., rfl⟩

/-- A reference fault in a main mode leads to HOLD with cause 2 on the backup oscillator, the transmitter and every field off. -/
theorem referenceFault_enters {m : Main} (h : m.pw.mode.isMain = true) :
    (referenceFault m).pw.mode = .hold ∧ (referenceFault m).pw.holdCause = 2 ∧ (referenceFault m).pw.onBackup = true ∧
    (referenceFault m).rad.tx.active = false ∧ noFields (referenceFault m) := by
  obtain ⟨x, pw, e⟩ := referenceFault_eq m
  have main : x.pw.mode.isMain = true := by
    rw [pw]
    exact (congrArg Mode.isMain (readerOnly_mode_eq (readerOnly_allFieldsOff m))).trans h
  have backup : (enterHold x 2 []).pw.onBackup = true := by
    rw [holdOnly_pw_eq (holdOnly_enterHold x 2 []), pw]
  obtain ⟨mode, cause, -, fields, tx⟩ := enterHold_enters x 2 [] main
  rw [e]
  exact ⟨mode, cause, backup, tx, fields⟩

/-! ## The sleep clock (R26, R62) -/

/-- The loss of a sleep clock that was good leads to the backup, and is journalled. -/
theorem sleepLoss_good {m : Main} (h : m.pw.sleepLost = false) :
    sleepLoss m = journal (modPw m fun p => { p with sleepLost := true, sleepClock := 2 }) 0x00 0x0008 [] := by
  simp [sleepLoss, h]

theorem poolOnly_sleepLoss {m : Main} (h : m.pw.sleepLost = false) :
    poolOnly (modPw m fun p => { p with sleepLost := true, sleepClock := 2 }) (sleepLoss m) := by
  rw [sleepLoss_good h]
  exact poolOnly_journal ..

theorem poolOnly_crystalGood {m : Main} (up : m.pw.aoUp = true) :
    poolOnly (modPw m fun p => { p with sleepClock := 0, sleepLost := false }) (crystalGood m) := by
  unfold crystalGood
  simp only [up, Bool.not_true, Bool.false_eq_true, if_false]
  split
  · exact poolOnly_journal ..
  · exact poolOnly_refl _

/-! ## The junction temperature (R63) -/

/-- A sample and the governor's verdict on it are taken. -/
def temperatureTaken (m : Main) (tj : Int) : Main :=
  modPw m fun p => { p with tj := tj, derating := decide (cfgI m 16 0x1100 0x24 < tj) }

/-- A change of derating is journalled. -/
def temperatureTold (m : Main) (tj : Int) : Main :=
  if decide (cfgI m 16 0x1100 0x24 < tj) != m.pw.derating then journal (temperatureTaken m tj) 0x38 0x1004 [fromSigned 16 tj]
  else temperatureTaken m tj

theorem poolOnly_temperatureTold (m : Main) (tj : Int) : poolOnly (temperatureTaken m tj) (temperatureTold m tj) := by
  unfold temperatureTold
  split
  · exact poolOnly_journal ..
  · exact poolOnly_refl _

theorem cfgI_temperatureTold (m : Main) (tj : Int) (bits idx sub : Nat) :
    cfgI (temperatureTold m tj) bits idx sub = cfgI m bits idx sub := by
  unfold cfgI cfgN
  rw [poolOnly_cfg_eq (poolOnly_temperatureTold m tj)]
  rfl

/-- HOLD follows a sample at [1100:25] or above. -/
theorem junctionTemp_eq {m : Main} (tj : Int) (on : m.pw.ctlOn = true) :
    junctionTemp m tj = if cfgI m 16 0x1100 0x25 ≤ tj then enterHold (temperatureTold m tj) 4 [] else temperatureTold m tj := by
  rw [← cfgI_temperatureTold m tj]
  simp only [junctionTemp, ctlOn, modPw_pw, on, Bool.not_true, Bool.false_eq_true, if_false, decide_eq_true_eq]
  rfl

theorem holdOnly_junctionTemp {m : Main} (tj : Int) (on : m.pw.ctlOn = true) : holdOnly (temperatureTaken m tj) (junctionTemp m tj) := by
  have told := holdOnly_of_pool (poolOnly_temperatureTold m tj)
  rw [junctionTemp_eq tj on]
  split
  · exact holdOnly_trans told (holdOnly_enterHold ..)
  · exact told

theorem answers_junctionTempSample {s : State} (tj : Int) (on : s.m.pw.ctlOn = true) : answers (.junctionTempSample tj) s fun t =>
    t.m.pw.tj = tj ∧ t.m.pw.derating = decide (cfgI s.m 16 0x1100 0x24 < tj) ∧ mainOnly s t ∧
    (s.m.pw.mode.isMain = true → cfgI s.m 16 0x1100 0x25 ≤ tj → t.m.pw.mode = .hold ∧ t.m.pw.holdCause = 4 ∧ noFields t.m) ∧
    (tj < cfgI s.m 16 0x1100 0x25 → t.m.pw.mode = s.m.pw.mode ∧
      poolOnly (modPw s.m fun p => { p with tj := tj, derating := decide (cfgI s.m 16 0x1100 0x24 < tj) }) t.m) := by
  have pw := holdOnly_pw_eq (holdOnly_junctionTemp tj on)
  have told := poolOnly_temperatureTold s.m tj
  refine answers_of_onMain (f := fun m => junctionTemp m tj) rfl ⟨congrArg Power.tj pw, congrArg Power.derating pw, mainOnly_m .., ?_, ?_⟩
  · intro main hot
    have still : (temperatureTold s.m tj).pw.mode.isMain = true := by
      rw [poolOnly_pw_eq told]
      exact main
    obtain ⟨mode, cause, -, fields, -⟩ := enterHold_enters (temperatureTold s.m tj) 4 [] still
    rw [junctionTemp_eq tj on, if_pos hot]
    exact ⟨mode, cause, fields⟩
  · intro cool
    rw [junctionTemp_eq tj on, if_neg (not_le.mpr cool)]
    exact ⟨(congrArg Power.mode (poolOnly_pw_eq told) :), told⟩

/-! ## The statement on supplies, clocks and temperature -/

theorem answers_secondBadWindow {s : State} {n : Nat} (on : s.m.pw.ctlOn = true) (ref : s.m.pw.onBackup = false)
    (bad : windowBad n = true) (again : s.m.pw.badWindows ≠ 0) (main : s.m.pw.mode.isMain = true) :
    answers (.clockMonitorWindow n false) s fun t =>
      t.m.pw.mode = .hold ∧ t.m.pw.holdCause = 2 ∧ t.m.pw.onBackup = true ∧ t.m.rad.tx.active = false ∧ noFields t.m ∧ mainOnly s t := by
  obtain ⟨mode, cause, backup, tx, fields⟩ := referenceFault_enters main
  refine answers_of_onMain (f := fun m => monitorWindow m n false) rfl ?_
  rw [monitorWindow_secondBad on ref bad again]
  exact ⟨mode, cause, backup, tx, fields, mainOnly_m ..⟩

theorem answers_sleepClockLost {s : State} (n : Nat) (on : s.m.pw.ctlOn = true) (ref : s.m.pw.onBackup = false)
    (good : s.m.pw.sleepLost = false) : answers (.clockMonitorWindow n true) s fun t =>
      t.m.pw.sleepLost = true ∧ t.m.pw.sleepClock = 2 ∧ mainOnly s t ∧
      poolOnly (modPw s.m fun p => { p with badWindows := 0, sleepLost := true, sleepClock := 2 }) t.m := by
  have reach := poolOnly_sleepLoss (m := modPw s.m fun p => { p with badWindows := 0 }) good
  have pw := poolOnly_pw_eq reach
  refine answers_of_onMain (f := fun m => monitorWindow m n true) rfl ?_
  rw [monitorWindow_lost on ref]
  exact ⟨congrArg Power.sleepLost pw, congrArg Power.sleepClock pw, mainOnly_m .., reach⟩

theorem answers_sleepCrystalQualified {s : State} (up : s.m.pw.aoUp = true) : answers .sleepCrystalQualified s fun t =>
    t.m.pw.sleepClock = 0 ∧ t.m.pw.sleepLost = false ∧ mainOnly s t ∧
    poolOnly (modPw s.m fun p => { p with sleepClock := 0, sleepLost := false }) t.m := by
  have reach := poolOnly_crystalGood up
  have pw := poolOnly_pw_eq reach
  exact answers_of_onMain (f := crystalGood) rfl ⟨congrArg Power.sleepClock pw, congrArg Power.sleepLost pw, mainOnly_m .., reach⟩

theorem answers_sleepCrystalTimeout {s : State} (up : s.m.pw.aoUp = true) (internal : s.m.pw.sleepClock = 1)
    (good : s.m.pw.sleepLost = false) : answers .sleepCrystalTimeout s fun t =>
      t.m.pw.sleepLost = true ∧ t.m.pw.sleepClock = 2 ∧ mainOnly s t ∧
      poolOnly (modPw s.m fun p => { p with sleepLost := true, sleepClock := 2 }) t.m := by
  have reach := poolOnly_sleepLoss good
  have pw := poolOnly_pw_eq reach
  refine answers_of_onMain (f := fun m => if m.pw.aoUp && m.pw.sleepClock == 1 then sleepLoss m else m) rfl ?_
  have due : (s.m.pw.aoUp && s.m.pw.sleepClock == 1) = true := by simp [up, internal]
  rw [if_pos due]
  exact ⟨congrArg Power.sleepLost pw, congrArg Power.sleepClock pw, mainOnly_m .., reach⟩

/-- Settles O7: each clause is what the lemmas above say of its command. -/
theorem suppliesClocksTemperature : Obligations.SuppliesClocksTemperature := by
  refine ⟨⟨?vtxLow, ?vtxRestored, ?vrfLow, ?vrfRestored, ?vaoOnHarvest, ?vaoLow, ?vaoRestored⟩,
    ?goodWindow, ?firstBad, ?secondBad, ?sleepLost, ?crystal, ?timeout, ?temperature⟩
  case vtxLow => exact answers_vtxLow
  case vtxRestored => exact answers_vtxRestored
  case vrfLow => intro s; rfl
  case vrfRestored => intro s; rfl
  case vaoOnHarvest => exact fun s up field strong => congrArg Host.Outcome.next (vaoFall_onHarvest up field strong)
  case vaoLow => exact fun s up field => answers_vaoLow_unpowered up field
  case vaoRestored => exact fun s up => congrArg Host.Outcome.next (vaoRise_up up)
  case goodWindow => exact fun s n on ref good => exec_of_onMain (f := fun m => monitorWindow m n false) rfl (monitorWindow_good on ref good)
  case firstBad =>
    exact fun s n on ref bad first =>
      exec_of_onMain (f := fun m => monitorWindow m n false) rfl (monitorWindow_firstBad on ref bad first)
  case secondBad => exact fun s n on ref bad again main => answers_secondBadWindow on ref bad again main
  case sleepLost => exact fun s n on ref good => answers_sleepClockLost n on ref good
  case crystal => exact fun s up => answers_sleepCrystalQualified up
  case timeout => exact fun s up internal good => answers_sleepCrystalTimeout up internal good
  case temperature => exact fun s tj on => answers_junctionTempSample tj on

/-! ## The management controller (R30, R560, R564) -/

/-- Some of the parts that `holdOnly` keeps. -/
theorem holdOnly_keeps {a b : Main} (h : holdOnly a b) :
    b.tgt = a.tgt ∧ b.cfg = a.cfg ∧ b.dict = a.dict ∧ b.ph = a.ph ∧ b.plan = a.plan ∧ b.pts = a.pts := by
  rw [h]
  exact ⟨rfl, rfl, rfl, rfl, rfl, rfl⟩

/-- The controller is out with a cause, and the burnish results that waited are discarded. -/
def controllerOut (m : Main) (cause : Nat) : Main :=
  modPw (modBrn m fun b => { b with waiting := [], stepDone := false }) fun p => { p with ctlDown := true, ctlCause := cause }

/-- A fault of a running controller is a vital one, nested while the controller is out or in PROBATION. -/
theorem controllerFails_eq {m : Main} (cause : Nat) (on : m.pw.ctlOn = true) (fw : m.pw.fwRunning = true) :
    controllerFails m cause = vitalFault (controllerOut m cause) 0x28 cause (m.pw.ctlState == 3 || m.pw.ctlDown) := by
  simp only [controllerFails, ctlOn, on, fw, Bool.not_true, Bool.or_self, Bool.false_eq_true, if_false]
  rfl

theorem answers_controllerFault {c : Instr} {s : State} {cause : Nat} (hc : exec c s = onMain (fun m => controllerFails m cause) s)
    (on : s.m.pw.ctlOn = true) (fw : s.m.pw.fwRunning = true) : answers c s fun t =>
      t.m.pw.ctlDown = true ∧ t.m.pw.ctlCause = cause ∧ mainOnly s t ∧ t.m.tgt = s.m.tgt ∧ t.m.cfg = s.m.cfg ∧ t.m.dict = s.m.dict ∧
      t.m.ph = s.m.ph ∧ t.m.plan = s.m.plan ∧ t.m.pts = s.m.pts := by
  have reach : holdOnly (controllerOut s.m cause) (controllerFails s.m cause) := by
    rw [controllerFails_eq cause on fw]
    exact holdOnly_vitalFault ..
  have pw := holdOnly_pw_eq reach
  exact answers_of_onMain hc ⟨congrArg Power.ctlDown pw, congrArg Power.ctlCause pw, mainOnly_m .., (holdOnly_keeps reach :)⟩

theorem poolOnly_modFlt (m : Main) (f : Faults → Faults) : poolOnly m (modFlt m f) := rfl

/-- A unit fault is counted and journalled, and escalates to HOLD or does not. -/
theorem unitFault_cases (m : Main) (u cause : Nat) (nested out : Bool) :
    ∃ x, poolOnly m x ∧ (unitFault m u cause nested out = x ∨ ∃ units, unitFault m u cause nested out = enterHold x 3 units) := by
  unfold unitFault
  generalize (if nested = true then 0x0003 else 0x0001) = code
  have told : poolOnly m (journal (countIf nested (count m 0x7008 0x04) 0x7008 0x05) (unitSource u) code [u, cause]) :=
    poolOnly_trans (poolOnly_trans (poolOnly_count ..) (poolOnly_countIf ..)) (poolOnly_journal ..)
  dsimp only
  split
  · exact ⟨_, poolOnly_trans told (poolOnly_modFlt ..), .inl rfl⟩
  · have noted := fun f g => poolOnly_trans (poolOnly_trans told (poolOnly_modFlt _ f)) (poolOnly_modFlt _ g)
    split
    · exact ⟨_, poolOnly_trans (noted _ _) (poolOnly_count ..), .inr ⟨_, rfl⟩⟩
    · exact ⟨_, noted _ _, .inl rfl⟩

/-- A unit fault in a main mode leaves a main mode, or has escalated to HOLD with every field off. -/
theorem unitFault_main_or_hold {m : Main} (u cause : Nat) (nested out : Bool) (h : m.pw.mode.isMain = true) :
    (unitFault m u cause nested out).pw.mode.isMain = true ∨
    ((unitFault m u cause nested out).pw.mode = .hold ∧ noFields (unitFault m u cause nested out)) := by
  obtain ⟨x, told, e⟩ := unitFault_cases m u cause nested out
  have main : x.pw.mode.isMain = true := by rw [poolOnly_pw_eq told]; exact h
  rcases e with e | ⟨units, e⟩
  · exact .inl (by rw [e]; exact main)
  · obtain ⟨mode, -, -, fields, -⟩ := enterHold_enters x 3 units main
    rw [e]
    exact .inr ⟨mode, fields⟩

/-- A nested fault of a vital unit leads from a main mode to HOLD with every field off. -/
theorem vitalFault_nested_enters {m : Main} (u cause : Nat) (h : m.pw.mode.isMain = true) :
    (vitalFault m u cause true).pw.mode = .hold ∧ noFields (vitalFault m u cause true) := by
  have e : vitalFault m u cause true = enterHold (unitFault m u cause true false) 5 [u] := rfl
  rw [e]
  rcases unitFault_main_or_hold u cause true false h with main | ⟨mode, fields⟩
  · obtain ⟨mode, -, -, fields, -⟩ := enterHold_enters _ 5 [u] main
    exact ⟨mode, fields⟩
  · rw [enterHold_other _ 5 [u] (by rw [mode]; rfl)]
    exact ⟨mode, fields⟩

theorem answers_watchdogExpiry_nested {s : State} (on : s.m.pw.ctlOn = true) (fw : s.m.pw.fwRunning = true)
    (down : s.m.pw.ctlDown = true) (main : s.m.pw.mode.isMain = true) :
    answers .watchdogExpiry s fun t => t.m.pw.mode = .hold ∧ noFields t.m := by
  refine answers_of_onMain (f := fun m => controllerFails m 1) rfl ?_
  rw [controllerFails_eq 1 on fw, down, Bool.or_true]
  exact vitalFault_nested_enters 0x28 1 main

/-- The controller that was out is back in PROBATION, and its return is counted and journalled. -/
theorem poolOnly_controllerBack {m : Main} (down : m.pw.ctlDown = true) :
    poolOnly (modDict (modPw m fun p => { p with ctlDown := false, ctlState := 3 }) fun d => { d with backAt := some m.now })
      (controllerBack m) := by
  simp only [controllerBack, down, Bool.not_true, Bool.false_eq_true, if_false]
  exact poolOnly_trans (poolOnly_count ..) (poolOnly_journal ..)

theorem controllerBack_up {m : Main} (up : m.pw.ctlDown = false) : controllerBack m = m := by
  simp [controllerBack, up]

theorem answers_controllerRestart {s : State} (down : s.m.pw.ctlDown = true) : answers .controllerRestart s fun t =>
    t.m.pw.ctlDown = false ∧ t.m.pw.ctlState = 3 ∧ t.m.pw.mode = s.m.pw.mode ∧ t.m.pw.transitions = s.m.pw.transitions ∧ mainOnly s t ∧
    poolOnly (modDict (modPw s.m fun p => { p with ctlDown := false, ctlState := 3 }) fun d => { d with backAt := some s.m.now }) t.m := by
  have reach := poolOnly_controllerBack down
  have pw := poolOnly_pw_eq reach
  exact answers_of_onMain (f := controllerBack) rfl ⟨congrArg Power.ctlDown pw, congrArg Power.ctlState pw,
    (congrArg Power.mode pw :), (congrArg Power.transitions pw :), mainOnly_m .., reach⟩

/-- Settles O8: both causes by one lemma, and the nested fault by way of the escalation that may have led to HOLD before. -/
theorem controllerFaults : Obligations.ControllerFaults := by
  refine ⟨?watchdog, ?parity, ?nested, ?restart, ?running⟩
  case watchdog => exact fun s on fw => answers_controllerFault rfl on fw
  case parity => exact fun s on fw => answers_controllerFault rfl on fw
  case nested => exact fun s on fw down main => answers_watchdogExpiry_nested on fw down main
  case restart => exact fun s down => answers_controllerRestart down
  case running => exact fun s up => exec_of_onMain (f := controllerBack) rfl (controllerBack_up up)

end Sys2Proof.Machine
end

section
/-!
Proofs of the statements on reset, FAULT_N, and the supplies, `RST_N` and the reset command (chapter 02). They rest on what Laws/Power.lean
says of a cold start, a power-down and the loss of power.
-/

namespace Sys2Proof.Machine

/-! ## What reset leaves, and `FAULT_N` (R32, R53, R591) -/

theorem cellsFree_reset : cellsFree State.reset.m = poolCells := by decide +kernel

theorem noFields_reset : noFields State.reset.m := by
  intro k
  show ((Vector.replicate 16 ({} : Core))[k]).fld = none
  simp

/-- Settles O4: the pool and the cores by a lemma each, the other fields as `State.reset` names them. -/
theorem resetState : Obligations.ResetState :=
  ⟨rfl, rfl, rfl, rfl, rfl, rfl, rfl, rfl, cellsFree_reset, noFields_reset, rfl, rfl, rfl, rfl⟩

/-- Settles O5: `faultN` is the test of the mode. -/
theorem faultPin : Obligations.FaultPin := by
  intro m
  simp [faultN]

/-! ## Cold start, `RST_N`, the reset command and the main supply (R38, R47, R51, R52, R64) -/

/-- The supplies are in range and `RST_N` is high, with the straps sampled. -/
def strapsTaken (s : State) (refsel v33 : Bool) : State :=
  { s with m := modPw s.m fun p => { p with mainPresent := true, rstHeld := false, follower := refsel, vddio33 := v33 } }

/-- Whether the always-on island has run on through a loss of the main supply alone (R51). -/
def islandRanOn (s : State) : Bool := s.m.pw.aoUp && s.m.pw.vaoOk && !s.m.pw.mainPresent && !s.m.pw.rstHeld

/-- Outside RESCUE the supplies start the always-on island. -/
theorem suppliesUp_starts {s : State} (refsel v33 : Bool) (vao : s.m.pw.vaoOk = true) (h : ¬(s.m.pw.aoUp = true ∧ s.m.pw.mode = .rescue)) :
    suppliesUp s refsel v33 = coldStart (strapsTaken s refsel v33) (islandRanOn s) := by
  have outside : (s.m.pw.aoUp && s.m.pw.mode == .rescue) = false := by
    simpa only [Bool.and_eq_false_imp, beq_eq_false_iff_ne, not_and] using h
  simp only [suppliesUp, strapsTaken, islandRanOn, outside, vao, modPw, Bool.true_or, Bool.not_true, Bool.or_self, Bool.false_eq_true, if_false]

theorem answers_coldStart {s : State} (refsel v33 : Bool) (vao : s.m.pw.vaoOk = true) (h : ¬(s.m.pw.aoUp = true ∧ s.m.pw.mode = .rescue)) :
    answers (.coldStart refsel v33) s fun t =>
      t.m.pw.mode = .dormant ∧ t.m.pw.aoUp = true ∧ t.m.pw.mainPresent = true ∧ t.m.pw.rstHeld = false ∧ t.m.pw.ctlOn = false ∧
      t.m.pw.follower = refsel ∧ t.m.pw.vddio33 = v33 ∧ t.m.pw.booting = cfgB t.m 0x1200 0x01 ∧ t.keys = s.keys ∧
      t.pending = s.pending := by
  obtain ⟨mode, aoUp, ctlOn, -, booting, present, rst, follower, vddio, -, keys, queue⟩ :=
    coldStart_facts (strapsTaken s refsel v33) (islandRanOn s)
  refine ⟨suppliesUp s refsel v33, rfl, ?_⟩
  rw [suppliesUp_starts refsel v33 vao h]
  exact ⟨mode, aoUp, present, rst, ctlOn, follower, vddio, booting, keys, queue⟩

theorem answers_rstNLow (s : State) : answers .rstNLow s fun t =>
    t.m.pw.mode = .dormant ∧ t.m.pw.aoUp = false ∧ t.m.pw.rstHeld = true ∧ t.m.pw.ctlOn = false ∧ t.m.pw.booting = false ∧
    noFields t.m ∧ t.keys = s.keys ∧ t.pending = s.pending := by
  have finished := ledgerOnly_finishStarted s
  exact ⟨resetHeld s, rfl, rfl, rfl, rfl, rfl, rfl, noFields_darkMain (finishStarted s).m (finishStarted s).lgr.recover,
    finished.keys, finished.queue⟩

/-- Any value but 0xA5C3 answers a status alone. -/
theorem resetWrite_wrongValue (s : State) {v : Nat} (h : v ≠ 0xA5C3) : (resetWrite s v).2 = s := by
  unfold resetWrite
  split
  · rfl
  · rw [if_pos (bne_iff_ne.mpr h)]

theorem exec_resetCmd_wrongValue (s : State) {v : BitVec 16} (h : v ≠ 0xA5C3#16) : exec (.resetCmd v) s = .next s := by
  have wrong : v.toNat ≠ 0xA5C3 := fun e => h (BitVec.eq_of_toNat_eq e)
  show onServiceAll (fun s => (resetWrite s v.toNat).2) s = .next s
  simp [onServiceAll, resetWrite_wrongValue s wrong]

/-- The reset command of a running service, in a main mode or HOLD, is a cold start. -/
theorem resetWrite_cold {s : State} (on : s.m.pw.ctlOn = true) (fw : s.m.pw.fwRunning = true)
    (mode : s.m.pw.mode.isMain = true ∨ s.m.pw.mode = .hold) : (resetWrite s 0xA5C3).2 = coldStart s false := by
  have serves : (s.m.pw.mode.isMain || s.m.pw.mode == .hold) = true := by simpa using mode
  simp [resetWrite, ctlOn, on, fw, serves]

theorem answers_resetCmd {s : State} (on : s.m.pw.ctlOn = true) (fw : s.m.pw.fwRunning = true) (up : s.m.pw.ctlDown = false)
    (mode : s.m.pw.mode.isMain = true ∨ s.m.pw.mode = .hold) : answers (.resetCmd 0xA5C3#16) s fun t =>
      t.m.pw.mode = .dormant ∧ t.m.pw.aoUp = true ∧ t.m.pw.ctlOn = false ∧ t.m.pw.fwRunning = false ∧
      t.m.pw.booting = cfgB t.m 0x1200 0x01 ∧ noFields t.m ∧ t.keys = s.keys ∧ t.pending = s.pending := by
  obtain ⟨dormant, aoUp, ctlOff, fwOff, booting, -, -, -, -, fields, keys, queue⟩ := coldStart_facts s false
  refine ⟨coldStart s false, ?_, dormant, aoUp, ctlOff, fwOff, booting, fields, keys, queue⟩
  have e : exec (.resetCmd 0xA5C3#16) s = .next (if s.m.pw.ctlDown then s else (resetWrite s 0xA5C3).2) := rfl
  rw [e, up, resetWrite_cold on fw mode]
  rfl

/-- All that a change of mode without the controller does. -/
theorem leaveMode_eq (m : Main) (dst : Mode) : leaveMode m dst = modPw m fun p =>
    { p with mode := dst, pendMode := (leaveMode m dst).pw.pendMode, transitions := (leaveMode m dst).pw.transitions } := by
  by_cases h : m.pw.mode = dst
  · simp [leaveMode, ← h, modPw]
  · simp [leaveMode, h, modPw]

/-- The ledger after the loss of the main supply: what waits at port MAIN and an SPI lease are gone (R50). -/
def mainPortLost (l : Ledger) : Ledger :=
  { l with waiting := l.waiting.filter fun a => a.port != .main, leaseBy := if l.leaseBy == some .spi then none else l.leaseBy }

/-- The state when the main supply has gone and the write in progress has ended (R50). -/
def mainSupplyGone (s : State) : State := finishStarted { s with m := modPw s.m fun p => { p with mainPresent := false } }

/-- The main part after the loss of the main supply: the power-down, with the settings as the ledger holds them, in DORMANT. -/
def mainIslandsOff (s : State) : Main :=
  leaveMode { powerDown (mainSupplyGone s).m false with cfg := cfgBoot (mainPortLost (mainSupplyGone s).lgr) } .dormant

theorem mainSupplyGone_pw (s : State) : (mainSupplyGone s).m.pw = { s.m.pw with mainPresent := false } := finishStarted_pw _

/-- The islands that are off when the main supply is lost, on VAO as before. -/
theorem mainIslandsOff_facts (s : State) :
    (mainIslandsOff s).pw.mode = .dormant ∧ (mainIslandsOff s).pw.aoUp = s.m.pw.aoUp ∧ (mainIslandsOff s).pw.mainPresent = false ∧
    (mainIslandsOff s).pw.vaoOk = s.m.pw.vaoOk ∧ (mainIslandsOff s).pw.fieldOn = s.m.pw.fieldOn ∧ (mainIslandsOff s).pw.ctlOn = false ∧
    (mainIslandsOff s).pw.booting = false ∧ noFields (mainIslandsOff s) := by
  obtain ⟨ctlOff, booting, -, -, -, aoUp, vaoOk, fieldOn, present, fields⟩ := powerDown_facts (mainSupplyGone s).m false
  rw [mainSupplyGone_pw] at aoUp vaoOk fieldOn present
  unfold mainIslandsOff
  rw [leaveMode_eq]
  exact ⟨rfl, aoUp, present, vaoOk, fieldOn, ctlOff, booting, fields⟩

/-- Without a field the device is left in DORMANT on VAO. -/
theorem mainLost_onVao {s : State} (up : s.m.pw.aoUp = true) (outside : s.m.pw.mode ≠ .rescue) (vao : s.m.pw.vaoOk = true)
    (noField : s.m.pw.fieldOn = false) :
    mainLost s = { mainSupplyGone s with m := mainIslandsOff s, lgr := mainPortLost (mainSupplyGone s).lgr } := by
  obtain ⟨-, -, -, vaoOk, fieldOn, -, -, -⟩ := mainIslandsOff_facts s
  have stays : (!s.m.pw.aoUp || s.m.pw.mode == .rescue) = false := by simp [up, outside]
  rw [vao] at vaoOk
  rw [noField] at fieldOn
  unfold mainLost
  dsimp only
  rw [stays]
  change (if (mainIslandsOff s).pw.vaoOk || harvestField (mainIslandsOff s) then
    (if (mainIslandsOff s).pw.fieldOn then _ else _) else _) = _
  simp only [vaoOk, fieldOn, Bool.true_or, Bool.false_eq_true, if_true, if_false]
  rfl

theorem answers_mainSupplyLost {s : State} (up : s.m.pw.aoUp = true) (outside : s.m.pw.mode ≠ .rescue) (vao : s.m.pw.vaoOk = true)
    (noField : s.m.pw.fieldOn = false) : answers .mainSupplyLost s fun t =>
      t.m.pw.mode = .dormant ∧ t.m.pw.aoUp = true ∧ t.m.pw.mainPresent = false ∧ t.m.pw.ctlOn = false ∧ t.m.pw.booting = false ∧
      noFields t.m ∧ (∀ a ∈ t.lgr.waiting, a.port ≠ .main) ∧ t.keys = s.keys ∧ t.pending = s.pending := by
  obtain ⟨mode, aoUp, present, -, -, ctlOff, booting, fields⟩ := mainIslandsOff_facts s
  have finished := ledgerOnly_finishStarted { s with m := modPw s.m fun p => { p with mainPresent := false } }
  have others : ∀ a ∈ (mainPortLost (mainSupplyGone s).lgr).waiting, a.port ≠ .main := by
    intro a ha
    simpa using (List.mem_filter.mp ha).2
  refine ⟨mainLost s, rfl, ?_⟩
  rw [mainLost_onVao up outside vao noField]
  exact ⟨mode, aoUp.trans up, present, ctlOff, booting, fields, others, finished.keys, finished.queue⟩

/-- Settles O6: every start is the cold start of `coldStart_facts`, and the loss of the main supply the power-down. -/
theorem startAndReset : Obligations.StartAndReset := by
  refine ⟨?coldStart, ?rstNLow, ?wrongValue, ?resetCmd, ?mainLost⟩
  case coldStart => exact fun s refsel v33 vao h => answers_coldStart refsel v33 vao h
  case rstNLow => exact answers_rstNLow
  case wrongValue => exact fun s v h => exec_resetCmd_wrongValue s h
  case resetCmd => exact fun s on fw up mode => answers_resetCmd on fw up mode
  case mainLost => exact fun s up outside vao noField => answers_mainSupplyLost up outside vao noField

end Sys2Proof.Machine
end

section
/-!
Proofs of the statement on the wake sources (R44, R45, R507). Every source but the field comes down to `wake`.
-/

namespace Sys2Proof.Machine

/-- A wake source may act: DORMANT or WATCH on a running island, the main supply present, the source enabled in [1100:07]. -/
structure mayWake (m : Main) (src : Nat) : Prop where
  sleeps  : sleeping m = true
  present : m.pw.mainPresent = true
  enabled : bitAt (cfgN m 0x1100 0x07) src = true

/-- The power state once a wake from `src` has begun its boot: the cause, and the boot into the mode in [1100:05] (R44). -/
def wokenPw (m : Main) (src : Nat) : Power :=
  { m.pw with wakeCause := src, booting := true, bootStage := 2, bootTarget := Mode.ofCode (cfgN m 0x1100 0x05), bootTrig := 1,
              bootKind := 2, bootAt := m.now, img := none, bootFailures := [], loaded := 0, refOk := false,
              bootFromWatch := m.pw.mode == .watch }

/-- Outside a boot a source that may act is recorded and starts a boot; nothing but the power state changes. -/
theorem wake_boots {m : Main} {src : Nat} (h : mayWake m src) (idle : m.pw.booting = false) :
    wake m src = { m with pw := wokenPw m src } := by
  obtain ⟨sleeps, present, enabled⟩ := h
  obtain ⟨up, low⟩ := Bool.and_eq_true _ _ ▸ sleeps
  simp only [wake, low, up, present, enabled, idle, Bool.not_true, Bool.or_self, Bool.false_eq_true, if_false]
  rfl

/-- A command that comes down to the wake by `src` of `m`, which is the main part but for the power state, answers that wake. -/
theorem answers_wake {c : Instr} {s : State} {f : Main → Main} {p : Power} {src : Nat} (hc : exec c s = onMain f s)
    (hf : f s.m = wake { s.m with pw := p } src) (h : mayWake { s.m with pw := p } src) (idle : p.booting = false) :
    answers c s fun t => t.m.pw = wokenPw { s.m with pw := p } src ∧ t = { s with m := { s.m with pw := t.m.pw } } := by
  refine answers_of_onMain hc ?_
  rw [hf, wake_boots h idle]
  exact ⟨rfl, rfl⟩

/-- What holds of every next state of one predicate holds of the answer. -/
theorem answers_mono {c : Instr} {s : State} {P Q : State → Prop} (h : answers c s P) (g : ∀ t, P t → Q t) : answers c s Q := by
  obtain ⟨t, e, p⟩ := h
  exact ⟨t, e, g t p⟩

theorem answers_wakeNWake {s : State} (sleeps : sleeping s.m = true) (armed : s.m.pw.wakeNArmed = true) (present : s.m.pw.mainPresent = true)
    (idle : s.m.pw.booting = false) (enabled : bitAt (cfgN s.m 0x1100 0x07) 0 = true) : answers .wakeNWake s fun t =>
      t.m.pw.wakeCause = 0 ∧ t.m.pw.booting = true ∧ t.m.pw.wakeNArmed = false ∧
      t.m.pw.bootTarget = Mode.ofCode (cfgN s.m 0x1100 0x05) ∧ t = { s with m := { s.m with pw := t.m.pw } } := by
  have woken := answers_wake (c := .wakeNWake) (s := s) (p := { s.m.pw with wakeNArmed := false }) (src := 0) rfl
    (by simp only [sleeps, armed, Bool.and_self, if_true]; rfl) ⟨sleeps, present, enabled⟩ idle
  refine answers_mono woken fun t ⟨pw, only⟩ => ?_
  rw [pw]
  exact ⟨rfl, rfl, rfl, rfl, pw ▸ only⟩

theorem answers_alarmExpiry {s : State} (sleeps : sleeping s.m = true) (present : s.m.pw.mainPresent = true)
    (idle : s.m.pw.booting = false) (on : cfgN s.m 0x1100 0x09 ≠ 0) (enabled : bitAt (cfgN s.m 0x1100 0x07) 2 = true) :
    answers .alarmExpiry s fun t => t.m.pw.wakeCause = 2 ∧ t.m.pw.booting = true ∧
      t.m.pw.bootTarget = Mode.ofCode (cfgN s.m 0x1100 0x05) ∧ t = { s with m := { s.m with pw := t.m.pw } } := by
  have woken := answers_wake (c := .alarmExpiry) (s := s) (p := s.m.pw) (src := 2) rfl
    (by simp only [cfgB, bne_iff_ne.mpr on, if_true]) ⟨sleeps, present, enabled⟩ idle
  refine answers_mono woken fun t ⟨pw, only⟩ => ?_
  rw [pw]
  exact ⟨rfl, rfl, rfl, pw ▸ only⟩

theorem answers_canActivityWake {s : State} (sleeps : sleeping s.m = true) (present : s.m.pw.mainPresent = true)
    (idle : s.m.pw.booting = false) (armed : s.m.pw.canArmed = true) (enabled : bitAt (cfgN s.m 0x1100 0x07) 3 = true) :
    answers .canActivityWake s fun t => t.m.pw.wakeCause = 3 ∧ t.m.pw.booting = true ∧
      t.m.pw.bootTarget = Mode.ofCode (cfgN s.m 0x1100 0x05) ∧ t = { s with m := { s.m with pw := t.m.pw } } := by
  have woken := answers_wake (c := .canActivityWake) (s := s) (p := s.m.pw) (src := 3) rfl
    (by simp only [armed, if_true]) ⟨sleeps, present, enabled⟩ idle
  refine answers_mono woken fun t ⟨pw, only⟩ => ?_
  rw [pw]
  exact ⟨rfl, rfl, rfl, pw ▸ only⟩

/-- Settles O11: the enabled sources by `answers_wake`, the others by the test that each makes first. -/
theorem wakeSources : Obligations.WakeSources := by
  refine ⟨?wakeN, ?wakeNSpent, ?rearm, ?alarm, ?can, ?canUnarmed, ?canArm, ?duringBoot⟩
  case wakeN => exact fun s sleeps armed present idle enabled => answers_wakeNWake sleeps armed present idle enabled
  case wakeNSpent =>
    intro s spent
    refine exec_of_onMain (f := fun m => if sleeping m && m.pw.wakeNArmed then _ else m) rfl ?_
    simp [spent]
  case rearm => exact fun s => rfl
  case alarm => exact fun s sleeps present idle on enabled => answers_alarmExpiry sleeps present idle on enabled
  case can => exact fun s sleeps present idle armed enabled => answers_canActivityWake sleeps present idle armed enabled
  case canUnarmed =>
    intro s unarmed
    refine exec_of_onMain (f := fun m => if m.pw.canArmed then wake m 3 else m) rfl ?_
    simp [unarmed]
  case canArm =>
    intro s sleeps
    refine exec_of_onMain (f := fun m => if sleeping m then modPw m fun p => { p with canArmed := true } else m) rfl ?_
    simp [sleeps, modPw]
  case duringBoot =>
    intro s src booting enabled
    refine exec_of_onMain (f := fun m => if m.pw.booting && bitAt (cfgN m 0x1100 0x07) src.val then
      modPw m fun p => { p with wakeCause := src.val } else m) rfl ?_
    simp [booting, enabled, modPw]

end Sys2Proof.Machine
end

section
/-!
Proofs of the statement on the field at the target port and the modes (R38, R44, R355, R356, R360).
-/

namespace Sys2Proof.Machine

/-! ## A field is detected -/

/-- The field stands at the target port. -/
def fieldStands (m : Main) (strength : Nat) : Main := modPw m fun p => { p with fieldOn := true, strength := strength }

/-- The target front end is powered by a field that was not there before. -/
def fieldPowers (m : Main) (strength : Nat) : Main :=
  if m.pw.fieldOn then fieldStands m strength else stpPowerUp (fieldStands m strength)

theorem fieldDetected_weak (s : State) {strength : Nat} (weak : strength < 8) : fieldDetected s strength = s := by
  simp [fieldDetected, weak]

theorem fieldDetected_strong {s : State} {strength : Nat} (strong : 15 ≤ strength) (up : s.m.pw.aoUp = true)
    (free : s.m.pw.rstHeld = false) : fieldDetected s strength = { s with m := fieldMode (fieldPowers s.m strength) } := by
  have hears : ¬ strength < 8 := by omega
  have enough : ¬ strength < 15 := by omega
  simp [fieldDetected, fieldPowers, fieldStands, hears, enough, up, free]

theorem ledgerMain_fieldPowers (m : Main) (strength : Nat) : ledgerMain (fieldStands m strength) (fieldPowers m strength) := by
  unfold fieldPowers
  split
  · exact ledgerMain_refl _
  · exact ledgerMain_stpPowerUp _

theorem fieldPowers_pw (m : Main) (strength : Nat) :
    (fieldPowers m strength).pw = { m.pw with fieldOn := true, strength := strength } :=
  ledgerMain_pw_eq (ledgerMain_fieldPowers m strength)

theorem fieldPowers_cfgN (m : Main) (strength idx sub : Nat) : cfgN (fieldPowers m strength) idx sub = cfgN m idx sub := by
  unfold cfgN
  rw [ledgerMain_fieldPowers m strength]
  rfl

/-- What a detected field does to the mode leaves the field as it stands. -/
theorem fieldMode_field (m : Main) : (fieldMode m).pw.fieldOn = m.pw.fieldOn ∧ (fieldMode m).pw.strength = m.pw.strength := by
  have wakes : (fieldWakes m).pw.fieldOn = m.pw.fieldOn ∧ (fieldWakes m).pw.strength = m.pw.strength := by
    unfold fieldWakes
    dsimp only
    split
    · split <;> exact ⟨rfl, rfl⟩
    · split
      · rw [leaveMode_eq]
        exact ⟨rfl, rfl⟩
      · split <;> exact ⟨rfl, rfl⟩
  unfold fieldMode
  cases m.pw.mode with
  | dormant => exact wakes
  | watch => exact wakes
  | emulate =>
    simp only [modPw_pw]
    split <;> exact ⟨rfl, rfl⟩
  | rescue => exact ⟨rfl, rfl⟩
  | hold => exact ⟨rfl, rfl⟩
  | survey | transact | calibrate =>
    dsimp only
    split <;> exact ⟨rfl, rfl⟩

/-- In the main modes other than EMULATE the field asks for EMULATE. -/
theorem fieldMode_reader {m : Main} (mode : m.pw.mode = .transact ∨ m.pw.mode = .survey ∨ m.pw.mode = .calibrate)
    (noHold : m.pw.pendMode ≠ some .hold) : fieldMode m = modPw m fun p => { p with pendMode := some .emulate, pendTrig := 2 } := by
  rcases mode with mode | mode | mode <;> simp only [fieldMode, mode, noHold, if_false]

theorem fieldMode_dormant {m : Main} (mode : m.pw.mode = .dormant) : fieldMode m = fieldWakes m := by
  simp only [fieldMode, mode]

/-- Without the main supply the field leads to RESCUE. -/
theorem fieldWakes_rescue {m : Main} (idle : m.pw.booting = false) (gone : m.pw.mainPresent = false) :
    fieldWakes m = leaveMode m .rescue := by
  simp [fieldWakes, idle, gone]

/-- With the main supply an enabled field starts a boot into EMULATE. -/
theorem fieldWakes_boots {m : Main} (idle : m.pw.booting = false) (present : m.pw.mainPresent = true)
    (enabled : bitAt (cfgN m 0x1100 0x07) 1 = true) :
    fieldWakes m = beginBoot (modPw m fun p => { p with wakeCause := 1, returnMode := Mode.ofCode (cfgN m 0x1100 0x05) }) .emulate 2 2 := by
  simp [fieldWakes, idle, present, enabled]

theorem answers_targetFieldDetected {s : State} {h : Nat} (strong : 15 ≤ h) (up : s.m.pw.aoUp = true) (free : s.m.pw.rstHeld = false) :
    answers (.targetFieldDetected h) s fun t =>
      t.m.pw.fieldOn = true ∧ t.m.pw.strength = h ∧ t.lgr = s.lgr ∧ t.keys = s.keys ∧ t.pending = s.pending ∧
      (s.m.pw.mode = .transact ∨ s.m.pw.mode = .survey ∨ s.m.pw.mode = .calibrate → s.m.pw.pendMode ≠ some .hold →
        t.m.pw.pendMode = some .emulate ∧ t.m.pw.mode = s.m.pw.mode) ∧
      (s.m.pw.mode = .dormant → s.m.pw.booting = false → s.m.pw.mainPresent = false → t.m.pw.mode = .rescue) ∧
      (s.m.pw.mode = .dormant → s.m.pw.booting = false → s.m.pw.mainPresent = true → bitAt (cfgN s.m 0x1100 0x07) 1 = true →
        t.m.pw.booting = true ∧ t.m.pw.bootTarget = .emulate ∧ t.m.pw.wakeCause = 1) := by
  have pw := fieldPowers_pw s.m h
  have cfg := fieldPowers_cfgN s.m h
  obtain ⟨fieldOn, strength⟩ := fieldMode_field (fieldPowers s.m h)
  refine ⟨fieldDetected s h, rfl, ?_⟩
  rw [fieldDetected_strong strong up free]
  generalize fieldPowers s.m h = x at pw cfg fieldOn strength
  refine ⟨fieldOn.trans (by rw [pw]), strength.trans (by rw [pw]), rfl, rfl, rfl, ?reader, ?rescue, ?boots⟩
  case reader =>
    intro mode noHold
    dsimp only
    rw [fieldMode_reader (by rwa [pw]) (by rwa [pw])]
    exact ⟨rfl, (congrArg Power.mode pw :)⟩
  case rescue =>
    intro mode idle gone
    dsimp only
    rw [fieldMode_dormant (by rwa [pw]), fieldWakes_rescue (by rwa [pw]) (by rwa [pw])]
    rw [leaveMode_eq]
    rfl
  case boots =>
    intro mode idle present enabled
    dsimp only
    rw [fieldMode_dormant (by rwa [pw]), fieldWakes_boots (by rwa [pw]) (by rwa [pw]) (by rwa [cfg])]
    exact ⟨rfl, rfl, rfl⟩

/-! ## The field is lost -/

theorem poolOnly_tgtEvent (m : Main) (ledger : Bool) (ev origin status key seq : Nat) :
    poolOnly m (tgtEvent m ledger ev origin status key seq) := by
  unfold tgtEvent
  split
  · exact poolOnly_refl _
  · exact poolOnly_offerPkt ..

/-- The end of a session leaves the target without session and authentication, and its retention cell as it was (R355; log 27). -/
theorem endSession_tgt (m : Main) :
    (endSession m).tgt.session = .none ∧ (endSession m).tgt.auth.key0 = false ∧ (endSession m).tgt.auth.key1 = false ∧
    (endSession m).tgt.stp.bound = m.tgt.stp.bound := by
  unfold endSession
  dsimp only
  split
  · rw [poolOnly_tgt_eq (poolOnly_tgtEvent ..)]
    exact ⟨rfl, rfl, rfl, rfl⟩
  · exact ⟨rfl, rfl, rfl, rfl⟩

/-- The session ends with the field, and what the field asked of the ledger and has not begun is not written (R373). -/
def fieldGone (s : State) : State :=
  { s with m := endSession (modPw s.m fun p => { p with fieldOn := false, strength := 0 }),
           lgr := { s.lgr with waiting := s.lgr.waiting.filter fun a => a.port != .field || a.started } }

theorem fieldGone_pw (s : State) : (fieldGone s).m.pw = { s.m.pw with fieldOn := false, strength := 0 } :=
  ledgerMain_pw_eq (ledgerMain_endSession _)

theorem fieldLost_up {s : State} (asDeclared : Bool) (up : s.m.pw.aoUp = true) : fieldLost s asDeclared =
    if s.m.pw.onHarvest then unpowered (if asDeclared then finishStarted (fieldGone s) else fieldGone s) else fieldGone s := by
  have harvest : (fieldGone s).m.pw.onHarvest = s.m.pw.onHarvest := by rw [fieldGone_pw]
  rw [← harvest]
  simp only [fieldLost, up, Bool.not_true, Bool.false_eq_true, if_false]
  rfl

theorem answers_targetFieldLost {s : State} (b : Bool) (up : s.m.pw.aoUp = true) (own : s.m.pw.onHarvest = false) :
    answers (.targetFieldLost b) s fun t =>
      t.m.pw = { s.m.pw with fieldOn := false, strength := 0 } ∧ t.m.tgt.session = .none ∧ t.m.tgt.auth.key0 = false ∧
      t.m.tgt.auth.key1 = false ∧ t.m.tgt.stp.bound = s.m.tgt.stp.bound ∧ (∀ a ∈ t.lgr.waiting, a.port = .field → a.started = true) ∧
      t.lgr.ring = s.lgr.ring ∧ t.keys = s.keys ∧ t.pending = s.pending := by
  obtain ⟨session, key0, key1, bound⟩ := endSession_tgt (modPw s.m fun p => { p with fieldOn := false, strength := 0 })
  have begun : ∀ a ∈ (fieldGone s).lgr.waiting, a.port = .field → a.started = true := by
    intro a ha port
    simpa [port] using (List.mem_filter.mp ha).2
  refine ⟨fieldLost s b, rfl, ?_⟩
  rw [fieldLost_up b up, own]
  exact ⟨fieldGone_pw s, session, key0, key1, bound, begun, rfl, rfl, rfl⟩

theorem interruptRunning_pw (s : State) : (interruptRunning s).m.pw = s.m.pw := by
  unfold interruptRunning
  split <;> rfl

/-- The loss of every supply leaves the field as it is sensed. -/
theorem unpowered_fieldOn (s : State) : (unpowered s).m.pw.fieldOn = s.m.pw.fieldOn := by
  show (interruptRunning (resumeStarted (interruptRunning s))).m.pw.fieldOn = _
  rw [interruptRunning_pw, ledgerMain_pw_eq (ledgerOnly_resumeStarted _).main, interruptRunning_pw]

theorem answers_targetFieldLost_harvest {s : State} (b : Bool) (up : s.m.pw.aoUp = true) (harvest : s.m.pw.onHarvest = true) :
    answers (.targetFieldLost b) s fun t =>
      t.m.pw.aoUp = false ∧ t.m.pw.mode = .dormant ∧ t.m.pw.fieldOn = false ∧ t.lgr.running = none ∧ noFields t.m ∧ t.keys = s.keys ∧
      t.pending = s.pending := by
  have ends : ledgerOnly (fieldGone s) (if b then finishStarted (fieldGone s) else fieldGone s) := by
    split
    · exact ledgerOnly_finishStarted _
    · exact ledgerOnly_refl _
  have fieldOff : (if b then finishStarted (fieldGone s) else fieldGone s).m.pw.fieldOn = false := by
    rw [ledgerMain_pw_eq ends.main, fieldGone_pw]
  refine ⟨fieldLost s b, rfl, ?_⟩
  rw [fieldLost_up b up, harvest, if_pos rfl]
  generalize (if b then finishStarted (fieldGone s) else fieldGone s) = x at ends fieldOff
  obtain ⟨mode, aoUp, -, -, -, -, running, fields, keys, queue⟩ := unpowered_facts x
  exact ⟨aoUp, mode, (unpowered_fieldOn x).trans fieldOff, running, fields, keys.trans ends.keys, queue.trans ends.queue⟩

/-! ## The ends of EMULATE and RESCUE -/

/-- A mode that is left for another without the controller is counted, and no transition waits. -/
theorem leaveMode_other {m : Main} {dst : Mode} (h : m.pw.mode ≠ dst) : leaveMode m dst =
    { m with pw := { m.pw with mode := dst, pendMode := none, transitions := sat32 (m.pw.transitions + 1) } } := by
  simp only [leaveMode, beq_false_of_ne h, Bool.false_eq_true, if_false]
  rfl

theorem rescueEnds_noField {s : State} (rescue : s.m.pw.mode = .rescue) (noField : s.m.pw.fieldOn = false) : rescueEnds s =
    if s.m.pw.mainPresent then coldStart { s with m := leaveMode s.m .dormant } true else { s with m := leaveMode s.m .dormant } := by
  have present : (leaveMode s.m .dormant).pw.mainPresent = s.m.pw.mainPresent := by rw [leaveMode_eq]; rfl
  simp only [rescueEnds, rescue, noField, present]
  rfl

theorem exec_rescueFieldAbsent_alone {s : State} (rescue : s.m.pw.mode = .rescue) (noField : s.m.pw.fieldOn = false)
    (gone : s.m.pw.mainPresent = false) : exec .rescueFieldAbsent s = .next { s with m := { s.m with pw := { s.m.pw with
      mode := .dormant, pendMode := none, transitions := sat32 (s.m.pw.transitions + 1) } } } := by
  show Host.Outcome.next (rescueEnds s) = _
  rw [rescueEnds_noField rescue noField, gone, leaveMode_other (by rw [rescue]; decide)]
  rfl

theorem answers_rescueFieldAbsent_supplied {s : State} (rescue : s.m.pw.mode = .rescue) (noField : s.m.pw.fieldOn = false)
    (present : s.m.pw.mainPresent = true) : answers .rescueFieldAbsent s fun t =>
      t.m.pw.mode = .dormant ∧ t.m.pw.booting = cfgB t.m 0x1200 0x01 ∧ noFields t.m ∧ t.keys = s.keys ∧ t.pending = s.pending := by
  obtain ⟨mode, -, -, -, booting, -, -, -, -, fields, keys, queue⟩ := coldStart_facts { s with m := leaveMode s.m .dormant } true
  refine ⟨rescueEnds s, rfl, ?_⟩
  rw [rescueEnds_noField rescue noField, present, if_pos rfl]
  exact ⟨mode, booting, fields, keys, queue⟩

/-- Settles O10: what a field does by the lemmas on `fieldMode`, its loss by `fieldGone`, the ends of the two modes by their tests. -/
theorem fieldAndModes : Obligations.FieldAndModes := by
  refine ⟨?weak, ?detected, ?lost, ?lostOnHarvest, ?emulateEnds, ?rescueAlone, ?rescueSupplied⟩
  case weak => exact fun s h weak => congrArg Host.Outcome.next (fieldDetected_weak s weak)
  case detected => exact fun s h strong up free => answers_targetFieldDetected strong up free
  case lost => exact fun s b up own => answers_targetFieldLost b up own
  case lostOnHarvest => exact fun s b up harvest => answers_targetFieldLost_harvest b up harvest
  case emulateEnds =>
    intro s emulate noField idle
    refine exec_of_onMain (f := fun m => if m.pw.mode == .emulate && !m.pw.fieldOn && m.pw.pendMode.isNone then
      modPw m fun p => { p with pendMode := some p.returnMode, pendTrig := 2 } else m) rfl ?_
    simp [emulate, noField, idle, modPw]
  case rescueAlone => exact fun s rescue noField gone => exec_rescueFieldAbsent_alone rescue noField gone
  case rescueSupplied => exact fun s rescue noField present => answers_rescueFieldAbsent_supplied rescue noField present

end Sys2Proof.Machine
end

section
/-!
The boot (R55–R61): the statement on its stages fails where the SPI loader starts over a pool that WATCH has kept.
-/

namespace Sys2Proof.Machine

/-- A boot out of WATCH, its reference stable, with [1200:02] = 1 and a closed packet of one word that has waited in Q28 since before WATCH. -/
def packetInLoaderQueue : State :=
  { m := { cfg := [(ekey 0x1200 0x02, 1)],
           pw := { booting := true, bootStage := 2, refOk := true, bootFromWatch := true },
           pool := { qs := updV (Pool.qs {}) 28 fun x => { x with pkts := [{ type := 0, source := 0, words := [0] }] } } } }

/-- Once the PLL has locked the loader waits, and it takes the packet out of Q28 at once (R57). -/
theorem pllLocked_packetInLoaderQueue : (pllLocked packetInLoaderQueue.m).pw.loaded = 4 := by decide

/-- Refutes O12: with [1200:02] = 1 PLL_LOCKED leads to the SPI loader, and after a wake from WATCH, which keeps the pool, the loader takes
what waits in Q28: its count of bytes rises and the queue empties, where the statement has the pool and that count as they were. -/
theorem not_bootStages : ¬ Obligations.BootStages := by
  rintro ⟨-, locks, -⟩
  obtain ⟨t, run, pw, -⟩ := locks packetInLoaderQueue rfl rfl rfl
  have result : { packetInLoaderQueue with m := pllLocked packetInLoaderQueue.m } = t := Host.Outcome.next.inj run
  have unchanged : t.m.pw.loaded = 0 := congrArg Power.loaded pw
  have taken : t.m.pw.loaded = 4 := result ▸ pllLocked_packetInLoaderQueue
  exact absurd (unchanged.symm.trans taken) (by decide)

end Sys2Proof.Machine
end

section
/-!
Proofs of the statement on mode requests, transitions and the drain limit (R34–R37, R39, R40).
-/

namespace Sys2Proof.Machine

/-! ## Requests (R34–R37) -/

section Requests

variable {m : Main} {code : Nat}

theorem mode_ne_hold_of_isMain (h : m.pw.mode.isMain = true) : m.pw.mode ≠ .hold := by
  intro e
  rw [e] at h
  cases h

/-- The codes of the modes that may be asked for, HOLD apart. -/
theorem ofCode_low (low : code ≤ 4) : Mode.ofCode code ≠ .hold ∧ Mode.ofCode code ≠ .emulate := by
  have cases : code = 0 ∨ code = 1 ∨ code = 2 ∨ code = 3 ∨ code = 4 := by omega
  rcases cases with h | h | h | h | h <;> subst h <;> decide

/-- EMULATE and RESCUE are refused in every mode. -/
theorem requestMode_refused (trig : Nat) (h : code = 5 ∨ code = 6) : requestMode m code trig = (false, modeRefusal m code) := by
  rcases h with h | h <;> simp [requestMode, h]

/-- An accepted request waits as the pending mode. -/
theorem requestMode_waits (trig : Nat) (main : m.pw.mode.isMain = true) (out : m.pw.mode ≠ .emulate) (idle : busy m = false)
    (clock : m.pw.sleepLost = false) (low : code ≤ 4) (other : Mode.ofCode code ≠ m.pw.mode) : requestMode m code trig = (true,
      { m with pw := { m.pw with lastReq := code, pendMode := some (Mode.ofCode code), pendTrig := trig } }) := by
  have no5 : code ≠ 5 := by omega
  have no6 : code ≠ 6 := by omega
  simp [requestMode, no5, no6, mode_ne_hold_of_isMain main, out, idle, clock, other, (ofCode_low low).1, modPw]

/-- In EMULATE an accepted request changes the return mode alone. -/
theorem requestMode_returns (trig : Nat) (emulate : m.pw.mode = .emulate) (idle : busy m = false) (high : 2 ≤ code) (low : code ≤ 4) :
    requestMode m code trig = (true, { m with pw := { m.pw with lastReq := code, returnMode := Mode.ofCode code } }) := by
  have no5 : code ≠ 5 := by omega
  have no6 : code ≠ 6 := by omega
  have no1 : ¬ code ≤ 1 := by omega
  obtain ⟨noHold, noEmulate⟩ := ofCode_low low
  simp [requestMode, no5, no6, no1, emulate, idle, noHold, noEmulate, modPw]

/-- A request for HOLD acts at once while the controller runs (R33). -/
theorem requestMode_hold (trig : Nat) (main : m.pw.mode.isMain = true) (idle : busy m = false) (up : m.pw.ctlDown = false) :
    requestMode m 7 trig = (true, enterHold (modPw m fun p => { p with lastReq := 7 }) 1 []) := by
  have noHold := mode_ne_hold_of_isMain main
  simp [requestMode, noHold, noHold.symm, idle, up, Mode.ofCode]

/-- A write of [1100:01] in a main mode is a request. -/
theorem modeWrite_main (main : m.pw.mode.isMain = true) (valid : code ≤ 7) : (modeWrite m code).2 = (requestMode m code 0).2 := by
  have fits : ¬ 7 < code := by omega
  simp [modeWrite, main, fits]

end Requests

/-- MODE_REQUEST by the dictionary, while the controller runs in a main mode. -/
theorem exec_modeRequest {s : State} {code : BitVec 8} (up : s.m.pw.ctlDown = false) (main : s.m.pw.mode.isMain = true)
    (valid : code.toNat ≤ 7) : exec (.modeRequest code none) s = .next { s with m := (requestMode s.m code.toNat 0).2 } := by
  refine exec_of_onMain (f := fun m => if m.pw.ctlDown then m else (modeWrite m code.toNat).2) rfl ?_
  rw [up, ← modeWrite_main main valid]
  rfl

theorem exec_modeRequest_waits {s : State} {code : BitVec 8} (up : s.m.pw.ctlDown = false) (main : s.m.pw.mode.isMain = true)
    (out : s.m.pw.mode ≠ .emulate) (idle : busy s.m = false) (clock : s.m.pw.sleepLost = false) (low : code.toNat ≤ 4)
    (other : Mode.ofCode code.toNat ≠ s.m.pw.mode) :
    exec (.modeRequest code none) s = .next { s with m := { s.m with pw := { s.m.pw with
      lastReq := code.toNat, pendMode := some (Mode.ofCode code.toNat), pendTrig := 0 } } } := by
  rw [exec_modeRequest up main (by omega), requestMode_waits 0 main out idle clock low other]

theorem exec_modeRequest_returns {s : State} {code : BitVec 8} (up : s.m.pw.ctlDown = false) (emulate : s.m.pw.mode = .emulate)
    (idle : busy s.m = false) (high : 2 ≤ code.toNat) (low : code.toNat ≤ 4) :
    exec (.modeRequest code none) s = .next { s with m := { s.m with pw := { s.m.pw with
      lastReq := code.toNat, returnMode := Mode.ofCode code.toNat } } } := by
  rw [exec_modeRequest up (by rw [emulate]; rfl) (by omega), requestMode_returns 0 emulate idle high low]

theorem answers_modeRequest_hold {s : State} (up : s.m.pw.ctlDown = false) (main : s.m.pw.mode.isMain = true) (idle : busy s.m = false) :
    answers (.modeRequest 7#8 none) s fun t => t.m.pw.mode = .hold ∧ t.m.pw.holdCause = 1 ∧ noFields t.m ∧ mainOnly s t := by
  refine ⟨_, exec_modeRequest up main (by decide), ?_⟩
  obtain ⟨mode, cause, -, fields, -⟩ := enterHold_enters (modPw s.m fun p => { p with lastReq := 7 }) 1 [] main
  have request : requestMode s.m (7#8).toNat 0 = _ := requestMode_hold 0 main idle up
  rw [request]
  exact ⟨mode, cause, fields, mainOnly_m ..⟩

theorem poolOnly_modeRefusal (m : Main) (code : Nat) :
    poolOnly (modPw m fun p => { p with modeRefused := sat32 (p.modeRefused + 1) }) (modeRefusal m code) := poolOnly_journal ..

theorem modeRefusal_pw (m : Main) (code : Nat) : (modeRefusal m code).pw = { m.pw with modeRefused := sat32 (m.pw.modeRefused + 1) } :=
  poolOnly_pw_eq (poolOnly_modeRefusal m code)

theorem answers_modeRequest_refused {s : State} {code : BitVec 8} (up : s.m.pw.ctlDown = false) (main : s.m.pw.mode.isMain = true)
    (h : code = 5#8 ∨ code = 6#8) : answers (.modeRequest code none) s fun t =>
      t.m.pw.modeRefused = sat32 (s.m.pw.modeRefused + 1) ∧ t.m.pw.mode = s.m.pw.mode ∧ t.m.pw.pendMode = s.m.pw.pendMode ∧ mainOnly s t ∧
      poolOnly (modPw s.m fun p => { p with modeRefused := sat32 (p.modeRefused + 1) }) t.m := by
  have forbidden : code.toNat = 5 ∨ code.toNat = 6 := by
    rcases h with h | h <;> subst h <;> decide
  refine ⟨_, exec_modeRequest up main (by omega), ?_⟩
  rw [requestMode_refused 0 forbidden]
  have pw := modeRefusal_pw s.m code.toNat
  exact ⟨(congrArg Power.modeRefused pw :), (congrArg Power.mode pw :), (congrArg Power.pendMode pw :), mainOnly_m ..,
    poolOnly_modeRefusal ..⟩

/-! ## The mode word of the direct window (R35, R487) -/

/-- A write of the mode word as the port takes it: the transaction has begun and its frame is counted and followed. -/
def modeWordTaken (s : State) (code : Nat) : Main :=
  cuSpi (count (spiBegin s).m 0x7000 0x01) false (leBytes 4 (place 4 3 code)) (spiHead { cmd := 0x02, addr := 0x008, len := 4 })

theorem poolOnly_modeWordTaken (s : State) (code : Nat) : poolOnly (spiBegin s).m (modeWordTaken s code) :=
  poolOnly_trans (poolOnly_count ..) (poolOnly_cuSpi ..)

theorem modeWordTaken_pw (s : State) (code : Nat) : (modeWordTaken s code).pw = s.m.pw :=
  (poolOnly_pw_eq (poolOnly_modeWordTaken s code)).trans rfl

theorem modeByWindow_taken {s : State} (code : Nat) (dchk : Byte) (port : spiUp s.m = true) (free : s.m.spi.stalled = none)
    (loaded : loaderWaits s.m = false) : modeByWindow s code dchk =
      { s with m := if spiCheck (leBytes 4 (place 4 3 code)) == dchk then (requestMode (modeWordTaken s code) (code % 8) 0).2
                    else count (modSpi (modeWordTaken s code) fun p => { p with prevCrc := true }) 0x7000 0x03 } := by
  simp only [modeByWindow, port, free, loaded, Option.isSome_none, Bool.not_true, Bool.or_self, Bool.false_eq_true, if_false]
  rfl

/-- The pending transition, the boot and the mode are what `busy` looks at. -/
theorem busy_of_pw {a b : Main} (h : b.pw = a.pw) : busy b = busy a := by
  unfold busy
  rw [h]

theorem answers_modeRequest_window {s : State} {code : BitVec 8} {dchk : Byte} (good : spiCheck (leBytes 4 (place 4 3 code.toNat)) = dchk)
    (port : spiUp s.m = true) (free : s.m.spi.stalled = none) (loaded : loaderWaits s.m = false) (main : s.m.pw.mode.isMain = true)
    (out : s.m.pw.mode ≠ .emulate) (idle : busy s.m = false) (clock : s.m.pw.sleepLost = false) (low : code.toNat ≤ 4)
    (other : Mode.ofCode code.toNat ≠ s.m.pw.mode) : answers (.modeRequest code (some dchk)) s fun t =>
      t.m.pw = { s.m.pw with lastReq := code.toNat, pendMode := some (Mode.ofCode code.toNat), pendTrig := 0 } ∧
      t.m.spi.prevHdr = false ∧ t.m.spi.status = statusBlock { s with m := { s.m with spi := { s.m.spi with quad := s.m.spi.quadNext } } } ∧
      mainOnly s t := by
  have pw := modeWordTaken_pw s code.toNat
  have spi := poolOnly_spi_eq (poolOnly_modeWordTaken s code.toNat)
  have three : code.toNat % 8 = code.toNat := Nat.mod_eq_of_lt (by omega)
  refine ⟨modeByWindow s code.toNat dchk, rfl, ?_⟩
  rw [modeByWindow_taken code.toNat dchk port free loaded, if_pos (beq_iff_eq.mpr good), three,
    requestMode_waits 0 (by rwa [pw]) (by rwa [pw]) (by rwa [busy_of_pw pw]) (by rwa [pw]) low (by rwa [pw]), pw, spi]
  exact ⟨rfl, rfl, rfl, mainOnly_m ..⟩

theorem answers_modeRequest_badWindow {s : State} {code : BitVec 8} {dchk : Byte}
    (bad : spiCheck (leBytes 4 (place 4 3 code.toNat)) ≠ dchk) (port : spiUp s.m = true) (free : s.m.spi.stalled = none)
    (loaded : loaderWaits s.m = false) : answers (.modeRequest code (some dchk)) s fun t =>
      t.m.pw = s.m.pw ∧ t.m.spi.prevCrc = true ∧ mainOnly s t := by
  refine ⟨modeByWindow s code.toNat dchk, rfl, ?_⟩
  rw [modeByWindow_taken code.toNat dchk port free loaded, if_neg (by simpa using bad)]
  refine ⟨?_, ?_, mainOnly_m ..⟩
  · rw [count_pw]
    exact modeWordTaken_pw s code.toNat
  · rw [count_spi]
    rfl

/-! ## Transitions (R39) -/

theorem readerOnly_pendMode_eq {a b : Main} (h : readerOnly a b) : b.pw.pendMode = a.pw.pendMode := by rw [h]

/-- A main mode is entered, and no transition waits. -/
theorem enterMain_enters (m : Main) (dst : Mode) (trig : Nat) : (enterMain m dst trig).pw.mode = dst ∧ (enterMain m dst trig).pw.pendMode = none := by
  unfold enterMain
  extract_lets frm left abandoned cleared set returned surveyed started
  have entered : set.pw.mode = dst ∧ set.pw.pendMode = none := by simp [set]
  have kept : started.pw.mode = set.pw.mode ∧ started.pw.pendMode = set.pw.pendMode := by
    simp only [started, surveyed, returned]
    split <;> split <;> split <;> exact ⟨rfl, rfl⟩
  exact ⟨(evaluate_mode _).trans (kept.1.trans entered.1), (readerOnly_pendMode_eq (readerOnly_evaluate _)).trans (kept.2.trans entered.2)⟩

/-- A mode without the main islands is entered, and no transition waits. -/
theorem enterLow_enters (m : Main) (dst : Mode) (trig : Nat) : (enterLow m dst trig).pw.mode = dst ∧ (enterLow m dst trig).pw.pendMode = none := by
  unfold enterLow
  extract_lets off waiting cut burnish set
  obtain ⟨-, -, -, mode, pend, -⟩ := powerDown_facts set (dst == .watch)
  exact ⟨mode.trans (by simp [set]), pend⟩

section Transition

variable {m : Main} {dst : Mode}

theorem completeTransition_refused (pend : m.pw.pendMode = some dst) (low : dst = .watch ∨ dst = .dormant)
    (main : m.pw.mode.isMain = true) (ready : transitionReady m dst = true) (lost : m.pw.sleepLost = true) :
    completeTransition m = modeRefusal (modPw m fun p => { p with pendMode := none }) dst.code := by
  simp [completeTransition, pend, ready, main, lost, low]

/-- What is ready takes effect. -/
theorem completeTransition_enters (pend : m.pw.pendMode = some dst) (main : m.pw.mode.isMain = true)
    (ready : transitionReady m dst = true) (clock : m.pw.sleepLost = false) : completeTransition m =
      if dst = .hold then enterHold (modPw m fun p => { p with pendMode := none }) 1 []
      else if dst.isMain then enterMain m dst m.pw.pendTrig else enterLow m dst m.pw.pendTrig := by
  simp [completeTransition, pend, ready, main, clock]

theorem answers_transition_refused {s : State} (pend : s.m.pw.pendMode = some dst) (low : dst = .watch ∨ dst = .dormant)
    (main : s.m.pw.mode.isMain = true) (ready : transitionReady s.m dst = true) (lost : s.m.pw.sleepLost = true) :
    answers .modeTransitionComplete s fun t =>
      t.m.pw = { s.m.pw with pendMode := none, modeRefused := sat32 (s.m.pw.modeRefused + 1) } ∧ mainOnly s t := by
  refine answers_of_onMain (f := completeTransition) rfl ?_
  rw [completeTransition_refused pend low main ready lost]
  exact ⟨modeRefusal_pw .., mainOnly_m ..⟩

theorem answers_transition {s : State} (pend : s.m.pw.pendMode = some dst) (main : s.m.pw.mode.isMain = true)
    (ready : transitionReady s.m dst = true) (clock : s.m.pw.sleepLost = false) :
    answers .modeTransitionComplete s fun t => t.m.pw.mode = dst ∧ t.m.pw.pendMode = none ∧ mainOnly s t := by
  refine answers_of_onMain (f := completeTransition) rfl ?_
  rw [completeTransition_enters pend main ready clock]
  split
  · rename_i hold
    obtain ⟨mode, -, none, -, -⟩ := enterHold_enters (modPw s.m fun p => { p with pendMode := none }) 1 [] main
    exact ⟨mode.trans hold.symm, none, mainOnly_m ..⟩
  · split
    · obtain ⟨mode, none⟩ := enterMain_enters s.m dst s.m.pw.pendTrig
      exact ⟨mode, none, mainOnly_m ..⟩
    · obtain ⟨mode, none⟩ := enterLow_enters s.m dst s.m.pw.pendTrig
      exact ⟨mode, none, mainOnly_m ..⟩

end Transition

/-! ## The drain limit (R40) -/

/-- A fold of updates that keep a part of the state keeps it. -/
theorem forEach_keeps {α β : Type} (g : Main → β) (f : Main → α → Main) (h : ∀ x a, g (f x a) = g x) (l : List α) (m : Main) :
    g (forEach l m f) = g m := by
  induction l generalizing m with
  | nil => rw [forEach_nil]
  | cons a rest ih => rw [forEach_cons, ih, h]

@[simp] theorem dropSession_engs (m : Main) (p : Fin 128) : (dropSession m p).engs = m.engs := by
  unfold dropSession
  split <;> simp

@[simp] theorem orderOff_engs (m : Main) (k : Fin 16) : (orderOff m k).engs = m.engs := rfl

@[simp] theorem reachPort_engs (m : Main) (p : Fin 128) : (reachPort m p).engs = m.engs := by
  unfold reachPort
  dsimp only
  split <;> split <;> rfl

@[simp] theorem endIdleFields_engs (m : Main) : (endIdleFields m).engs = m.engs := by
  unfold endIdleFields
  refine forEach_keeps Main.engs _ (fun x k => ?_) _ m
  split
  · split <;> simp
  · rfl

@[simp] theorem restPorts_engs (m : Main) : (restPorts m).engs = m.engs := by
  unfold restPorts
  refine forEach_keeps Main.engs _ (fun x p => ?_) _ m
  dsimp only
  split <;> rfl

@[simp] theorem coreRest_engs (m : Main) (k : Fin 16) : (coreRest m k).engs = m.engs := by
  unfold coreRest
  dsimp only
  split
  · refine (forEach_keeps Main.engs reachPort reachPort_engs _ _).trans ?_
    simp
  · simp

/-- A context has a started stitch (R40). -/
def underWay (x : Ctx) : Bool := x.st == .run || x.st == .pause

/-- Every context but one is as it was. -/
def othersKept (e : Fin 24) (c : Fin 2) (a b : Main) : Prop := ∀ x : Fin 24 × Fin 2, x ≠ (e, c) → ctxOf b x.1 x.2 = ctxOf a x.1 x.2

theorem ctxOf_of_engs {a b : Main} (h : b.engs = a.engs) (e : Fin 24) (c : Fin 2) : ctxOf b e c = ctxOf a e c := by
  unfold ctxOf
  rw [h]

theorem othersKept_of_engs {e : Fin 24} {c : Fin 2} {a b : Main} (h : b.engs = a.engs) : othersKept e c a b :=
  fun x _ => ctxOf_of_engs h x.1 x.2

theorem othersKept_trans {e : Fin 24} {c : Fin 2} {a b d : Main} (h : othersKept e c a b) (g : othersKept e c b d) : othersKept e c a d :=
  fun x other => (g x other).trans (h x other)

theorem Engine.setCtx_ctx (g : Engine) (c d : Fin 2) (x : Ctx) : (g.setCtx c x).ctx d = if d = c then x else g.ctx d := by
  fin_cases c <;> fin_cases d <;> rfl

/-- An update of an engine that gives one of its contexts a value and keeps the other. -/
theorem modEng_ctx (m : Main) (e : Fin 24) (c : Fin 2) (f : Engine → Engine) (x : Engine → Ctx)
    (h : ∀ g d, (f g).ctx d = if d = c then x g else g.ctx d) :
    ctxOf (modEng m e f) e c = x m.engs[e] ∧ othersKept e c m (modEng m e f) := by
  constructor
  · unfold ctxOf
    rw [modEng_get, if_pos rfl, h, if_pos rfl]
  · rintro ⟨e', c'⟩ other
    unfold ctxOf
    dsimp only
    rw [modEng_get]
    split
    · rename_i same
      subst same
      have otherCtx : c' ≠ c := fun sameCtx => other (by rw [sameCtx])
      rw [h, if_neg otherCtx]
    · rfl

theorem modCtx_ctx (m : Main) (e : Fin 24) (c : Fin 2) (f : Ctx → Ctx) :
    ctxOf (modCtx m e c f) e c = f (ctxOf m e c) ∧ othersKept e c m (modCtx m e c f) :=
  modEng_ctx m e c _ (fun g => f (g.ctx c)) fun g d => Engine.setCtx_ctx g c d _

/-- The end of a context leaves it at rest, and the other contexts as they were. -/
def contextEnds (e : Fin 24) (c : Fin 2) (a b : Main) : Prop := underWay (ctxOf b e c) = false ∧ othersKept e c a b

theorem contextEnds_closeResult (m : Main) (e : Fin 24) (c : Fin 2) : contextEnds e c m (closeResult m e c) := by
  unfold closeResult
  extract_lets freed
  have engs : (count freed 0x70A0 0x02).engs = m.engs := by
    rw [count_engs]
    simp only [freed]
    split <;> rfl
  obtain ⟨idle, others⟩ := modEng_ctx (count freed 0x70A0 0x02) e c (fun g => { g.setCtx c {} with done := sat32 (g.done + 1) })
    (fun _ => {}) (fun g d => Engine.setCtx_ctx g c d {})
  exact ⟨by rw [idle]; rfl, othersKept_trans (othersKept_of_engs engs) others⟩

theorem contextEnds_of_engs {e : Fin 24} {c : Fin 2} {a b d : Main} (h : b.engs = a.engs) (g : contextEnds e c b d) : contextEnds e c a d :=
  ⟨g.1, othersKept_trans (othersKept_of_engs h) g.2⟩

/-- A result that is written, or stalls, ends its context. -/
theorem contextEnds_writeResult (m : Main) (e : Fin 24) (c : Fin 2) (status detail : Nat) (part : Bool) (body : List Word) :
    contextEnds e c m (writeResult m e c status detail part body) := by
  unfold writeResult
  split
  · obtain ⟨idle, others⟩ := modCtx_ctx m e c fun _ => {}
    exact ⟨by rw [idle]; rfl, others⟩
  · extract_lets x run ws o r
    have engs : r.1.engs = m.engs := by
      simp only [r, poolOnly_engs_eq (poolOnly_stallPkt ..)]
      simp [countStatus]
    split
    · exact contextEnds_of_engs engs (contextEnds_closeResult ..)
    · obtain ⟨stalled, others⟩ := modCtx_ctx (count r.1 0x70A0 0x07) e c _
      exact ⟨by rw [stalled]; rfl, othersKept_trans (othersKept_of_engs ((count_engs ..).trans engs)) others⟩

/-- A context with a stitch is ended by its abort (R267). -/
theorem contextEnds_abortStitch {m : Main} {e : Fin 24} {c : Fin 2} (detail : Nat) (job : (ctxOf m e c).job ≠ none) :
    contextEnds e c m (abortStitch m e c detail) := by
  obtain ⟨j, hj⟩ := Option.ne_none_iff_exists'.mp job
  unfold abortStitch
  extract_lets withdrawn x ordered aborted
  have engs : ordered.engs = m.engs := by
    simp only [ordered]
    split
    · split <;> rfl
    · rfl
  have ends : contextEnds e c m aborted := by
    have job' : (ctxOf ordered e c).job = some j := by rw [ctxOf_of_engs engs, hj]
    simp only [aborted, abortCtx, job']
    exact contextEnds_of_engs engs (contextEnds_writeResult ..)
  split
  · rename_i k _
    exact ⟨by rw [ctxOf_of_engs (coreRest_engs aborted k)]; exact ends.1,
      othersKept_trans ends.2 (othersKept_of_engs (coreRest_engs aborted k))⟩
  · exact ends

/-- A started stitch has a job. -/
def startedHaveJobs (m : Main) : Prop := ∀ x : Fin 24 × Fin 2, underWay (ctxOf m x.1 x.2) = true → (ctxOf m x.1 x.2).job ≠ none

/-- The abort of the started stitches in one context. -/
def drainCtx (detail : Nat) (m : Main) (x : Fin 24 × Fin 2) : Main :=
  if underWay (ctxOf m x.1 x.2) then abortStitch m x.1 x.2 detail else m

theorem contextEnds_drainCtx {m : Main} (detail : Nat) (jobs : startedHaveJobs m) (x : Fin 24 × Fin 2) :
    contextEnds x.1 x.2 m (drainCtx detail m x) := by
  unfold drainCtx
  split
  · rename_i started
    exact contextEnds_abortStitch detail (jobs x started)
  · rename_i rests
    exact ⟨by simpa using rests, fun _ _ => rfl⟩

/-- What no longer runs stays so, and what runs has its job, over the abort of a context. -/
theorem drainCtx_keeps {m : Main} (detail : Nat) (jobs : startedHaveJobs m) (x : Fin 24 × Fin 2) :
    startedHaveJobs (drainCtx detail m x) ∧
    ∀ y : Fin 24 × Fin 2, underWay (ctxOf m y.1 y.2) = false → underWay (ctxOf (drainCtx detail m x) y.1 y.2) = false := by
  obtain ⟨ended, others⟩ := contextEnds_drainCtx detail jobs x
  constructor
  · intro y started
    have other : y ≠ x := fun same => by rw [same, ended] at started; cases started
    rw [others y other] at started ⊢
    exact jobs y started
  · intro y rests
    by_cases same : y = x
    · rw [same]
      exact ended
    · rw [others y same]
      exact rests

/-- After the abort over a list of contexts, none of it runs, and none runs that did not run before. -/
theorem drain_rests (detail : Nat) : ∀ (l : List (Fin 24 × Fin 2)) (m : Main), startedHaveJobs m →
    ∀ y : Fin 24 × Fin 2, y ∈ l ∨ underWay (ctxOf m y.1 y.2) = false → underWay (ctxOf (forEach l m (drainCtx detail)) y.1 y.2) = false := by
  intro l
  induction l with
  | nil =>
    intro m _ y h
    rw [forEach_nil]
    exact h.resolve_left (List.not_mem_nil)
  | cons x rest ih =>
    intro m jobs y h
    obtain ⟨jobs', stay⟩ := drainCtx_keeps detail jobs x
    rw [forEach_cons]
    refine ih (drainCtx detail m x) jobs' y ?_
    rcases h with member | rests
    · rcases List.mem_cons.mp member with same | later
      · rw [same]
        exact .inr (contextEnds_drainCtx detail jobs x).1
      · exact .inl later
    · exact .inr (stay y rests)

theorem mem_allCtx (x : Fin 24 × Fin 2) : x ∈ allCtx := by
  obtain ⟨e, c⟩ := x
  unfold allCtx allFin
  rw [List.mem_flatMap]
  refine ⟨e, List.mem_finRange e, ?_⟩
  fin_cases c <;> simp

theorem abortStarted_eq (m : Main) (detail : Nat) : abortStarted m detail = forEach allCtx m (drainCtx detail) := rfl

theorem startedLeft_abortStarted {m : Main} (detail : Nat) (jobs : startedHaveJobs m) : startedLeft (abortStarted m detail) = false := by
  show anyCtx (abortStarted m detail) underWay = false
  unfold anyCtx
  rw [List.any_eq_false]
  intro x _
  rw [abortStarted_eq, drain_rests detail allCtx m jobs x (.inl (mem_allCtx x))]
  decide

theorem answers_drainLimitExpiry {s : State} {dst : Mode} (pend : s.m.pw.pendMode = some dst) (waits : transitionReady s.m dst = false)
    (jobs : ∀ (e : Fin 24) (c : Fin 2), (ctxOf s.m e c).st = .run ∨ (ctxOf s.m e c).st = .pause → (ctxOf s.m e c).job ≠ none) :
    answers .drainLimitExpiry s fun t =>
      startedLeft t.m = false ∧ t.m.pw.pendMode = some dst ∧ mainOnly s t ∧ readerOnly s.m t.m := by
  have started : startedHaveJobs s.m := fun x h => jobs x.1 x.2 (by simpa [underWay] using h)
  have reach := readerOnly_abortStarted s.m 3
  refine answers_of_onMain (f := fun m => if m.pw.pendMode.isSome && !transitionReady m (m.pw.pendMode.getD .hold) then abortStarted m 3
    else m) rfl ?_
  have drains : (s.m.pw.pendMode.isSome && !transitionReady s.m (s.m.pw.pendMode.getD .hold)) = true := by simp [pend, waits]
  rw [if_pos drains]
  exact ⟨startedLeft_abortStarted 3 started, (readerOnly_pendMode_eq reach).trans pend, mainOnly_m .., reach⟩

/-- Settles O9: requests by the equations of `requestMode`, transitions by what enters each kind of mode, the drain by induction over the
contexts. -/
theorem modeRequests : Obligations.ModeRequests := by
  refine ⟨⟨?waits, ?returns, ?hold, ?refused, ?window, ?badWindow, ?lostClock, ?completes, ?idle⟩, ?drain⟩
  case waits => exact fun s code up main out idle clock low other => exec_modeRequest_waits up main out idle clock low other
  case returns => exact fun s code up emulate idle high low => exec_modeRequest_returns up emulate idle high low
  case hold => exact fun s up main idle => answers_modeRequest_hold up main idle
  case refused => exact fun s code up main h => answers_modeRequest_refused up main h
  case window =>
    exact fun s code dchk good port free loaded main out idle clock low other =>
      answers_modeRequest_window good port free loaded main out idle clock low other
  case badWindow => exact fun s code dchk bad port free loaded => answers_modeRequest_badWindow bad port free loaded
  case lostClock => exact fun s dst pend low main ready lost => answers_transition_refused pend low main ready lost
  case completes => exact fun s dst pend main ready clock => answers_transition pend main ready clock
  case idle =>
    intro s none
    refine exec_of_onMain (f := completeTransition) rfl ?_
    simp [completeTransition, none]
  case drain => exact fun s dst pend waits jobs => answers_drainLimitExpiry pend waits jobs

end Sys2Proof.Machine
end

section
/-!
Requests of the host to the dictionary service: the statement on them fails for a SEGMENT that waits for the ledger (R46, R461).
-/

namespace Sys2Proof.Machine

/-- A message that the host sends in a DICT command of the SPI port (R491). -/
def hostCarrier (bs : List Byte) : Carrier := { cls := clsHost, who := 0, excess := overBytes bs, bytes := bs }

/-- A request of the host whose settings write must wait for the ledger is left for later (R46). -/
theorem serveSpi_waits {s : State} {op : Nat} {bs : List Byte} (asks : spiAsks s bs op) (waits : msgWaits s (hostCarrier bs) = true) :
    serveSpi s op bs (spiCheck bs) = waitLedger s bs := by
  have row : rowTakes s.m op bs = true := by simp [rowTakes, asks.opcode]
  have waits' : msgWaits s { cls := clsHost, who := 0, excess := overBytes bs, bytes := bs } = true := waits
  simp only [serveSpi, asks.first, row, asks.port, asks.service, waits', List.head?_nil, Option.map_none, List.isEmpty_nil, BEq.rfl,
    Bool.and_self, Bool.not_true, Bool.false_eq_true, reduceCtorEq, if_false, if_true]

theorem countAo_spi (m : Main) (idx sub : Nat) : (countAo m idx sub).spi = m.spi := by
  unfold countAo
  split <;> simp

/-- A request that waits gets no answer. -/
theorem waitLedger_spi (s : State) (bs : List Byte) : (waitLedger s bs).m.spi = s.m.spi := by
  unfold waitLedger
  split
  · rfl
  · dsimp only
    split
    · exact countAo_spi ..
    · rfl

/-- Head and data of a SEGMENT for [1100:05]: at offset 1, the one byte 2 (R453). -/
def segmentHead : List Byte := [0x05, 0, 0, 1, 0x00, 0x11, 0x05, 0, 0, 0, 1, 0, 2]

/-- That SEGMENT with its CRC under the data ID 0 (R463). -/
def strayedSegment : List Byte := segmentHead ++ leBytes 4 (CrcKind.crc32c.of (leBytes 2 0 ++ segmentHead))

/-- The transfer open for it: a write of one byte, of which none has come. -/
def openWrite : Transfer := { cls := 0, who := 0, origin := 0, tid := 0, index := 0x1100, sub := 0x05, write := true, total := 1, usedAt := 0 }

/-- The service runs in TRANSACT with that transfer open, and a settings write of the field holds the ledger. -/
def ledgerBusy : State :=
  { m := { pw := { mode := .transact, ctlOn := true, rdy := true, fwRunning := true, bootStage := 0 }, dict := { transfers := [openWrite] } },
    lgr := { running := some { port := .field, op := .setting 12 [], reply := 2 } } }

theorem strayedSegment_asks : spiAsks ledgerBusy strayedSegment 5 where
  service := by decide
  port := by decide
  free := rfl
  first := rfl
  turn := rfl
  length := by decide +kernel
  short := by decide +kernel
  crc := by decide +kernel
  opcode := by decide +kernel
  request := by decide +kernel
  origin := by decide +kernel
  dev := by decide +kernel
  wired := by decide +kernel
  peer := by decide +kernel
  status := by decide +kernel
  offset := .inl rfl
  size := by decide +kernel
  tracks := by decide
  fresh := fun t h => nomatch h

/-- Its data would complete the transfer, so that the service has it wait for the ledger before it looks at its offset. -/
theorem strayedSegment_waits : msgWaits ledgerBusy (hostCarrier strayedSegment) = true := by decide +kernel

/-- Refutes O51: a SEGMENT of a write whose offset is neither the next nor the last one is to be answered `SEGMENT` at once, but one whose
length would complete the transfer of a persistent entry waits, unanswered, while a write holds the ledger. -/
theorem not_dictRequests : ¬ Obligations.DictRequests := by
  rintro ⟨-, -, -, -, -, -, -, -, -, -, -, -, strayed, -, -⟩
  obtain ⟨t, run, answered, -⟩ := strayed ledgerBusy strayedSegment openWrite strayedSegment_asks (by decide +kernel) rfl (by decide +kernel)
    (by decide +kernel)
  have result : serveSpi ledgerBusy 5 strayedSegment (spiCheck strayedSegment) = t := Host.Outcome.next.inj run
  have silent : t.m.spi.out = [] := by
    rw [← result, serveSpi_waits strayedSegment_asks strayedSegment_waits, waitLedger_spi]
    rfl
  rw [dictAnswered, silent] at answered
  cases answered

end Sys2Proof.Machine
end

section
/-!
SUPPORT. What the scheduler, the engines and the survey lanes leave standing: what the cores and ports report of themselves, and the energy
account. Every operation that grants, withdraws or reports keeps it; the end of a field and of a service state are stated apart.
-/

namespace Sys2Proof.Machine

/-! ## What stands -/

/-- What a core reports of its field: [2100+k:05], [2100+k:08] and the time of [2100+k:0C] (R119). -/
structure CoreReadout where
  portNow    : Option (Fin 128)
  levelNow   : Nat
  fieldTicks : Nat

/-- How a core stands in service (R114, R116). -/
structure CoreService where
  state       : Nat
  disablePend : Bool
  faultCause  : Nat
  faults      : Nat

/-- How a port stands in service, with its last check (R111–R113). -/
structure PortService where
  state       : Nat
  disablePend : Bool
  retestDue   : Bool
  faults      : Nat
  zMag        : Nat
  zArg        : Int

def Core.readout (c : Core) : CoreReadout := ⟨c.portNow, c.levelNow, c.fieldTicks⟩
def Core.service (c : Core) : CoreService := ⟨c.state, c.disablePend, c.faultCause, c.faults⟩
def Port.service (x : Port) : PortService := ⟨x.state, x.disablePend, x.retestDue, x.faults, x.zMag, x.zArg⟩

/-- What every core and port reports, the governor's account (R118) and the scheduler's own service state (R560). -/
structure Standing where
  readouts : Fin 16 → CoreReadout
  services : Fin 16 → CoreService
  ports    : Fin 128 → PortService
  bins     : List Nat
  binAt    : Nat
  sched    : Nat

def Main.standing (m : Main) : Standing where
  readouts k := (m.cores[k]).readout
  services k := (m.cores[k]).service
  ports p := (m.ports[p]).service
  bins := m.sch.bins
  binAt := m.sch.binAt
  sched := m.sch.state

section Read

variable {a b : Main} (h : b.standing = a.standing)
include h

theorem standing_readout (k : Fin 16) : (b.cores[k]).readout = (a.cores[k]).readout := congrFun (congrArg Standing.readouts h) k
theorem standing_service (k : Fin 16) : (b.cores[k]).service = (a.cores[k]).service := congrFun (congrArg Standing.services h) k
theorem standing_port (p : Fin 128) : (b.ports[p]).service = (a.ports[p]).service := congrFun (congrArg Standing.ports h) p
theorem standing_bins : b.sch.bins = a.sch.bins := congrArg Standing.bins h
theorem standing_binAt : b.sch.binAt = a.sch.binAt := congrArg Standing.binAt h
theorem standing_sched : b.sch.state = a.sch.state := congrArg Standing.sched h

end Read

theorem standing_congr {a b : Main} (cores : b.cores = a.cores) (ports : b.ports = a.ports) (sch : b.sch = a.sch) :
    b.standing = a.standing := by
  unfold Main.standing
  rw [cores, ports, sch]

theorem standing_of_pool {a b : Main} (h : poolOnly a b) : b.standing = a.standing :=
  standing_congr (poolOnly_cores_eq h) (poolOnly_ports_eq h) (poolOnly_sch_eq h)

/-- An update of a core that keeps what it reports and how it stands. -/
theorem modCore_standing {m : Main} {k : Fin 16} {f : Core → Core}
    (h : (f m.cores[k]).readout = (m.cores[k]).readout ∧ (f m.cores[k]).service = (m.cores[k]).service) :
    (modCore m k f).standing = m.standing := by
  have kept : ∀ j : Fin 16, ((modCore m k f).cores[j]).readout = (m.cores[j]).readout ∧
      ((modCore m k f).cores[j]).service = (m.cores[j]).service := by
    intro j
    rw [modCore_get]
    split
    · rename_i same
      rw [same]
      exact h
    · exact ⟨rfl, rfl⟩
  simp only [Main.standing, kept, modCore_ports, modCore_sch]

/-- An update of a port that keeps how it stands. -/
theorem modPort_standing {m : Main} {p : Fin 128} {f : Port → Port} (h : (f m.ports[p]).service = (m.ports[p]).service) :
    (modPort m p f).standing = m.standing := by
  have kept : ∀ q : Fin 128, ((modPort m p f).ports[q]).service = (m.ports[q]).service := by
    intro q
    rw [modPort_get]
    split
    · rename_i same
      rw [same]
      exact h
    · rfl
  simp only [Main.standing, kept, modPort_cores, modPort_sch]

theorem forEach_standing {α : Type} (f : Main → α → Main) (h : ∀ x a, (f x a).standing = x.standing) (l : List α) (m : Main) :
    (forEach l m f).standing = m.standing := forEach_keeps Main.standing f h l m

/-! ## The operations that keep it -/

@[simp] theorem countN_standing (m : Main) (idx sub n : Nat) : (countN m idx sub n).standing = m.standing :=
  standing_of_pool (poolOnly_countN ..)
@[simp] theorem count_standing (m : Main) (idx sub : Nat) : (count m idx sub).standing = m.standing := standing_of_pool (poolOnly_count ..)
@[simp] theorem countIf_standing (b : Bool) (m : Main) (idx sub : Nat) : (countIf b m idx sub).standing = m.standing :=
  standing_of_pool (poolOnly_countIf ..)
@[simp] theorem journal_standing (m : Main) (src code : Nat) (args : List Nat) : (journal m src code args).standing = m.standing :=
  standing_of_pool (poolOnly_journal ..)
@[simp] theorem stallPkt_standing (m : Main) (q : Fin 32) (type source : Nat) (ws : List Word) :
    (stallPkt m q type source ws).1.standing = m.standing := standing_of_pool (poolOnly_stallPkt ..)
@[simp] theorem modFlt_standing (m : Main) (f : Faults → Faults) : (modFlt m f).standing = m.standing := rfl
@[simp] theorem modPw_standing (m : Main) (f : Power → Power) : (modPw m f).standing = m.standing := rfl
@[simp] theorem modBrn_standing (m : Main) (f : Burnish → Burnish) : (modBrn m f).standing = m.standing := rfl
@[simp] theorem modLace_standing (m : Main) (f : Lace → Lace) : (modLace m f).standing = m.standing := rfl
@[simp] theorem modSv_standing (m : Main) (f : Survey → Survey) : (modSv m f).standing = m.standing := rfl
@[simp] theorem modRad_standing (m : Main) (f : Radio → Radio) : (modRad m f).standing = m.standing := rfl
@[simp] theorem modDemod_standing (m : Main) (d : Fin 8) (f : Demod → Demod) : (modDemod m d f).standing = m.standing := rfl
@[simp] theorem modLane_standing (m : Main) (k : Fin 16) (f : Lane → Lane) : (modLane m k f).standing = m.standing := rfl
@[simp] theorem modEng_standing (m : Main) (e : Fin 24) (f : Engine → Engine) : (modEng m e f).standing = m.standing := rfl
@[simp] theorem modCtx_standing (m : Main) (e : Fin 24) (c : Fin 2) (f : Ctx → Ctx) : (modCtx m e c f).standing = m.standing := rfl
@[simp] theorem modQ_standing (m : Main) (q : Fin 32) (f : Queue → Queue) : (modQ m q f).standing = m.standing := rfl
@[simp] theorem withdraw_standing (m : Main) (w : Owner) : (withdraw m w).standing = m.standing := rfl
@[simp] theorem putReq_standing (m : Main) (r : Req) : (putReq m r).standing = m.standing := rfl
@[simp] theorem addResult_standing (m : Main) (r : BurnResult) : (addResult m r).standing = m.standing := rfl

theorem sv_standing (m : Main) (x : Survey) : ({ m with sv := x } : Main).standing = m.standing := rfl
theorem disp_standing (m : Main) (x : Disp) : ({ m with disp := x } : Main).standing = m.standing := rfl

/-- The requests are not part of what stands. -/
theorem reqs_standing (m : Main) (l : List Req) : ({ m with sch := { m.sch with reqs := l } } : Main).standing = m.standing := rfl

/-! ### The lace -/

@[simp] theorem linkSend_standing (m : Main) (l : LaceLink) (w0 eseq : Nat) (payload : List Word) :
    (linkSend m l w0 eseq payload).standing = m.standing := by
  unfold linkSend
  cases l <;> simp

@[simp] theorem laceSend_standing (m : Main) (type : Nat) (dst : Option (Fin 4)) (payload : List Word) :
    (laceSend m type dst payload).standing = m.standing := by
  unfold laceSend
  dsimp only
  split
  · rfl
  · split
    · rfl
    · split <;> simp

@[simp] theorem sendField_standing (m : Main) (p : Fin 128) (isOn : Bool) (f : FieldRec) : (sendField m p isOn f).standing = m.standing := by
  unfold sendField
  split <;> simp

/-! ### Cores and ports -/

/-- A core takes a load of its DACs: at once in a gap, else when its gap begins (R145). -/
def Core.loaded (c : Core) (d : Int × Int × Int × Int) : Core := if c.busy then { c with dacPend := some d } else c.setDac d

/-- A load changes the DACs alone. -/
theorem loaded_eq (c : Core) (d : Int × Int × Int × Int) : c.loaded d =
    { c with dacI := (c.loaded d).dacI, dacQ := (c.loaded d).dacQ, carI := (c.loaded d).carI, carQ := (c.loaded d).carQ,
             dacPend := (c.loaded d).dacPend } := by
  unfold Core.loaded
  split <;> rfl

/-- A core without a field loads nothing; else limited codes are counted and the load is taken (R145, R146). -/
theorem loadDac_cases (m : Main) (k : Fin 16) :
    loadDac m k = m ∨ ∃ n d, loadDac m k = modCore (countN m 0x7050 0x08 n) k fun c => c.loaded d := by
  unfold loadDac
  split
  · exact .inr ⟨_, _, rfl⟩
  · exact .inl rfl

@[simp] theorem loadDac_standing (m : Main) (k : Fin 16) : (loadDac m k).standing = m.standing := by
  rcases loadDac_cases m k with e | ⟨n, d, e⟩
  · rw [e]
  · rw [e]
    refine (modCore_standing ?_).trans (countN_standing ..)
    rw [loaded_eq]
    exact ⟨rfl, rfl⟩

@[simp] theorem loadCoupled_standing (m : Main) (v : FV) : (loadCoupled m v).standing = m.standing := by
  unfold loadCoupled
  refine forEach_standing _ (fun x k => ?_) _ m
  split
  · split <;> simp
  · rfl

@[simp] theorem latchPairs_standing (m : Main) (v : FV) : (latchPairs m v).standing = m.standing := by
  unfold latchPairs
  refine forEach_standing _ (fun x k => ?_) _ m
  split
  · split
    · rfl
    · exact modCore_standing ⟨rfl, rfl⟩
  · rfl

@[simp] theorem dropSession_standing (m : Main) (p : Fin 128) : (dropSession m p).standing = m.standing := by
  unfold dropSession
  split
  · exact (modPort_standing rfl).trans (count_standing ..)
  · rfl

@[simp] theorem orderOff_standing (m : Main) (k : Fin 16) : (orderOff m k).standing = m.standing :=
  modCore_standing (by split <;> exact ⟨rfl, rfl⟩)

@[simp] theorem holdChange_standing (m : Main) (k : Fin 16) : (holdChange m k).standing = m.standing := by
  unfold holdChange
  split
  · rfl
  · exact (modCore_standing ⟨rfl, rfl⟩).trans (count_standing ..)

@[simp] theorem releaseGaps_standing (m : Main) : (releaseGaps m).standing = m.standing := by
  unfold releaseGaps
  refine forEach_standing _ (fun x k => ?_) _ m
  split
  · split
    · exact modCore_standing ⟨rfl, rfl⟩
    · rfl
  · rfl

@[simp] theorem endIdleFields_standing (m : Main) : (endIdleFields m).standing = m.standing := by
  unfold endIdleFields
  refine forEach_standing _ (fun x k => ?_) _ m
  split
  · split <;> simp
  · rfl

/-! ### Results and reports -/

@[simp] theorem countStatus_standing (m : Main) (status : Nat) : (countStatus m status).standing = m.standing := by simp [countStatus]

@[simp] theorem closeResult_standing (m : Main) (e : Fin 24) (c : Fin 2) : (closeResult m e c).standing = m.standing := by
  unfold closeResult
  dsimp only
  split <;> simp [freePayload]

@[simp] theorem writeResult_standing (m : Main) (e : Fin 24) (c : Fin 2) (status detail : Nat) (part : Bool) (body : List Word) :
    (writeResult m e c status detail part body).standing = m.standing := by
  unfold writeResult
  split
  · rfl
  · dsimp only
    split <;> simp

@[simp] theorem abortCtx_standing (m : Main) (e : Fin 24) (c : Fin 2) (detail : Nat) : (abortCtx m e c detail).standing = m.standing := by
  unfold abortCtx
  dsimp only
  split <;> simp

@[simp] theorem dispResult_standing (m : Main) (j : Job) (engine ctx : Nat) (core : Option (Fin 16)) (status detail : Nat) :
    (dispResult m j engine ctx core status detail).standing = m.standing := by
  unfold dispResult
  dsimp only
  split
  · simp [freePayload]
  · exact (disp_standing ..).trans ((stallPkt_standing ..).trans (countStatus_standing ..))

@[simp] theorem laneOut_standing (m : Main) (k : Fin 16) (ws : List Word) : (laneOut m k ws).standing = m.standing := by
  unfold laneOut
  split
  · rfl
  · dsimp only
    split
    · exact stallPkt_standing ..
    · rw [modLane_standing, count_standing, sv_standing]
      exact stallPkt_standing ..

/-- What a port remembers of a visit is no part of its service. -/
theorem surveyed_service (x : Port) (v : VisitOut) (event : Nat) : (x.surveyed v event).service = x.service := by
  unfold Port.surveyed
  dsimp only
  split
  · rfl
  · split
    · split <;> rfl
    · rfl

@[simp] theorem reportPort_standing (m : Main) (k : Fin 16) (p : Fin 128) (v : VisitOut) : (reportPort m k p v).standing = m.standing := by
  unfold reportPort
  extract_lets x ev arrived departed changed y reported
  have ports : changed.ports = m.ports := by simp [changed, departed, arrived]
  have kept : reported.standing = m.standing := by
    refine (modPort_standing ?_).trans (by simp [changed, departed, arrived])
    rw [ports]
    exact surveyed_service ..
  split
  · rw [laneOut_standing, sv_standing, kept]
  · exact kept

@[simp] theorem reportVisit_standing (m : Main) (k : Fin 16) : (reportVisit m k).standing = m.standing := by
  unfold reportVisit
  dsimp only
  split <;> simp

@[simp] theorem endPass_standing (m : Main) (incomplete : Bool) : (endPass m incomplete).standing = m.standing := by
  unfold endPass
  extract_lets ws counted passed r
  exact (sv_standing ..).trans ((stallPkt_standing ..).trans (by simp [passed, counted]))

/-! ### The scheduler -/

@[simp] theorem noteCause_standing (mr : Main × Req) (b : Bool) (sub : Nat) : (noteCause mr b sub).1.standing = mr.1.standing := by
  unfold noteCause
  split <;> simp

@[simp] theorem commit_standing (m : Main) (r : Req) (k : Fin 16) (code : Nat) (sub8 : Bool) : (commit m r k code sub8).standing = m.standing := by
  unfold commit
  extract_lets v counted noted sch granted unclaimed placed begun
  have granted_standing : granted.standing = m.standing := (reqs_standing ..).trans (by simp [noted, counted])
  have unclaimed_standing : unclaimed.standing = m.standing := by
    simp only [unclaimed]
    split <;> simp only [modLace_standing, granted_standing]
  have placed_standing : placed.standing = m.standing := (modCore_standing ⟨rfl, rfl⟩).trans unclaimed_standing
  have begun_standing : begun.standing = m.standing := by
    simp only [begun]
    split <;> simp [placed_standing]
  rw [loadCoupled_standing, latchPairs_standing, begun_standing]

@[simp] theorem sendClaims_standing (m : Main) (r : Req) (ds : List (Fin 4)) (v : FV) (code : Nat) (sub8 : Bool) :
    (sendClaims m r ds v code sub8).standing = m.standing := by
  unfold sendClaims
  dsimp only
  rw [forEach_standing _ (fun x d => laceSend_standing ..), modLace_standing]

@[simp] theorem evalCore_standing (m : Main) (r : Req) (k : Fin 16) : (evalCore m r k).standing = m.standing := by
  unfold evalCore
  extract_lets F v noted put r' noSub leaky
  have put_standing : put.standing = m.standing := by simp [put, noted]
  split
  · rfl
  · split
    · exact put_standing
    · split
      · simp [noSub, put_standing]
      · extract_lets v' code placed
        split
        · simp [leaky, put_standing]
        · split
          · simp [put_standing]
          · simp [put_standing]
          · split <;> simp [put_standing]

@[simp] theorem refuseReq_standing (m : Main) (r : Req) (status detail : Nat) : (refuseReq m r status detail).standing = m.standing := by
  unfold refuseReq
  dsimp only
  split <;> simp [reportFault]

@[simp] theorem takeSession_standing (m : Main) (r : Req) (e : Fin 24) (c : Fin 2) (k : Fin 16) :
    (takeSession m r e c k).standing = m.standing := modCore_standing (m := withdraw m r.owner) ⟨rfl, rfl⟩

theorem sessionCase_standing {m x : Main} {r : Req} (h : sessionCase m r = some x) : x.standing = m.standing := by
  unfold sessionCase at h
  split at h
  · split at h
    · cases h
    · split at h
      · split at h
        · cases h; simp
        · cases h
      · split at h
        · cases h; simp
        · split at h
          · cases h
            split <;> simp
          · cases h; rfl
  · split at h
    · cases h; rfl
    · cases h

@[simp] theorem evalReq_standing (m : Main) (r : Req) : (evalReq m r).standing = m.standing := by
  unfold evalReq
  dsimp only
  iterate 5 (split; · simp)
  split
  · exact sessionCase_standing (by assumption)
  · split
    · rfl
    · split <;> simp

/-- An evaluation of the requests leaves standing what cores and ports report (R126). -/
@[simp] theorem evaluate_standing (m : Main) : (evaluate m).standing = m.standing := by
  unfold evaluate
  dsimp only
  refine forEach_standing _ (fun x w => ?_) _ m
  split <;> simp

@[simp] theorem addReq_standing (m : Main) (r : Req) : (addReq m r).standing = m.standing := by
  unfold addReq
  split
  · rfl
  · dsimp only
    split <;> rfl

@[simp] theorem pumpRetest_standing (m : Main) : (pumpRetest m).standing = m.standing := by
  unfold pumpRetest
  split
  · rfl
  · split <;> simp

@[simp] theorem pauseCtx_standing (m : Main) (e : Fin 24) (c : Fin 2) : (pauseCtx m e c).standing = m.standing := by
  unfold pauseCtx
  extract_lets x
  split
  · extract_lets off dropped paused
    have dropped_standing : dropped.standing = m.standing := by
      simp only [dropped, off, dropSession_standing]
      split <;> simp
    split <;> simp [paused, dropped_standing]
  · rfl

@[simp] theorem regrant_standing (m : Main) (f : FieldRec) : (regrant m f).standing = m.standing := by
  unfold regrant
  split
  · simp
  · split <;> simp

end Sys2Proof.Machine
end

section
/-!
SUPPORT. The end of a field, the rest of ports and cores, and the outages of units: what they leave of the service of cores and of the
scheduler (R104, R112, R115, R116, R560).
-/

namespace Sys2Proof.Machine

/-! ## Cores and scheduler under the rest of ports and cores -/

@[simp] theorem dropSession_sch (m : Main) (p : Fin 128) : (dropSession m p).sch = m.sch := by
  unfold dropSession
  split <;> simp

@[simp] theorem orderOff_sch (m : Main) (k : Fin 16) : (orderOff m k).sch = m.sch := rfl

@[simp] theorem reachPort_sch (m : Main) (p : Fin 128) : (reachPort m p).sch = m.sch := by
  unfold reachPort
  dsimp only
  split <;> split <;> rfl

@[simp] theorem updateReach_cores (m : Main) : (updateReach m).cores = m.cores := forEach_keeps Main.cores reachPort reachPort_cores _ m
@[simp] theorem updateReach_sch (m : Main) : (updateReach m).sch = m.sch := forEach_keeps Main.sch reachPort reachPort_sch _ m

@[simp] theorem endIdleFields_sch (m : Main) : (endIdleFields m).sch = m.sch := by
  unfold endIdleFields
  refine forEach_keeps Main.sch _ (fun x k => ?_) _ m
  split
  · split <;> simp
  · rfl

/-- One port rests (R112). -/
theorem restPorts_eq (m : Main) : ∃ f, restPorts m = forEach (allFin 128) m f ∧
    ∀ x p, f x p = x ∨ (x.ports[p]).disablePend = true ∧ f x p = modPort x p fun y => { y with state := 5, disablePend := false } := by
  refine ⟨_, rfl, fun x p => ?_⟩
  dsimp only
  split
  · rename_i due
    simp only [Bool.and_eq_true] at due
    exact .inr ⟨due.1.1, rfl⟩
  · exact .inl rfl

@[simp] theorem restPorts_cores (m : Main) : (restPorts m).cores = m.cores := by
  obtain ⟨f, e, steps⟩ := restPorts_eq m
  rw [e]
  refine forEach_keeps Main.cores f (fun x p => ?_) _ m
  rcases steps x p with same | ⟨-, rests⟩ <;> simp [*]

@[simp] theorem restPorts_sch (m : Main) : (restPorts m).sch = m.sch := by
  obtain ⟨f, e, steps⟩ := restPorts_eq m
  rw [e]
  refine forEach_keeps Main.sch f (fun x p => ?_) _ m
  rcases steps x p with same | ⟨-, rests⟩ <;> simp [*]

/-- A port whose disable does not wait stays as it is. -/
theorem restPorts_port {m : Main} {p : Fin 128} (h : (m.ports[p]).disablePend = false) : (restPorts m).ports[p] = m.ports[p] := by
  obtain ⟨f, e, steps⟩ := restPorts_eq m
  rw [e]
  have stays : ∀ (l : List (Fin 128)) (x : Main), x.ports[p] = m.ports[p] → (forEach l x f).ports[p] = m.ports[p] := by
    intro l
    induction l with
    | nil => exact fun x same => by rw [forEach_nil]; exact same
    | cons q rest ih =>
      intro x same
      rw [forEach_cons]
      refine ih _ ?_
      rcases steps x q with kept | ⟨waits, rests⟩
      · rw [kept]; exact same
      · have other : p ≠ q := fun eq => by rw [← eq, same, h] at waits; cases waits
        rw [rests, modPort_get, if_neg other]
        exact same
  exact stays _ m rfl

/-- The service of a core reaches its disable and the rest. -/
theorem service_disablePend {c d : Core} (h : d.service = c.service) : d.disablePend = c.disablePend := congrArg CoreService.disablePend h

section CoreRest

variable {m : Main} {k : Fin 16}

theorem rested_readout (m : Main) (j : Fin 16) : ((restPorts (endIdleFields m)).cores[j]).readout = (m.cores[j]).readout := by
  rw [restPorts_cores]
  exact standing_readout (endIdleFields_standing m) j

theorem rested_service (m : Main) (j : Fin 16) : ((restPorts (endIdleFields m)).cores[j]).service = (m.cores[j]).service := by
  rw [restPorts_cores]
  exact standing_service (endIdleFields_standing m) j

/-- What coreRest does: the ports rest, and the core, where its disable waits, may be DISABLED (R116). -/
theorem coreRest_cases (m : Main) (k : Fin 16) : coreRest m k = restPorts (endIdleFields m) ∨
    (m.cores[k]).disablePend = true ∧
      coreRest m k = updateReach (modCore (restPorts (endIdleFields m)) k fun c => { c with state := 5, disablePend := false }) := by
  unfold coreRest
  dsimp only
  split
  · rename_i due
    simp only [Bool.and_eq_true] at due
    exact .inr ⟨(service_disablePend (rested_service m k)).symm.trans due.1.1, rfl⟩
  · exact .inl rfl

/-- A core whose disable does not wait is left in service. -/
theorem coreRest_serves (h : (m.cores[k]).disablePend = false) : coreRest m k = restPorts (endIdleFields m) := by
  rcases coreRest_cases m k with e | ⟨waits, -⟩
  · exact e
  · rw [h] at waits
    cases waits

/-- A core whose disable waits, and that nothing holds any longer, is DISABLED. -/
theorem coreRest_disables (waits : (m.cores[k]).disablePend = true) (noField : (m.cores[k]).fld = none)
    (free : anyCtx m (fun x => (x.st == .run || x.st == .pause) && x.core == some k) = false) :
    coreRest m k = updateReach (modCore (restPorts (endIdleFields m)) k fun c => { c with state := 5, disablePend := false }) := by
  have engs : (restPorts (endIdleFields m)).engs = m.engs := by simp
  have free' : anyCtx (restPorts (endIdleFields m)) (fun x => (x.st == .run || x.st == .pause) && x.core == some k) = false := by
    simp only [anyCtx, ctxOf_of_engs engs]
    exact free
  have waits' : ((restPorts (endIdleFields m)).cores[k]).disablePend = true := (service_disablePend (rested_service m k)).trans waits
  have noField' : ((restPorts (endIdleFields m)).cores[k]).fld = none :=
    (fieldsShrink_trans (fieldsShrink_endIdleFields m) (fieldsShrink_restPorts _)).keep k noField
  unfold coreRest
  simp only [waits', noField', free', Option.isNone_none, Bool.not_false, Bool.and_self, if_true]

theorem coreRest_readout (m : Main) (k j : Fin 16) : ((coreRest m k).cores[j]).readout = (m.cores[j]).readout := by
  rcases coreRest_cases m k with e | ⟨-, e⟩
  · rw [e]
    exact rested_readout m j
  · rw [e, updateReach_cores, modCore_get]
    split
    · rename_i same
      rw [same]
      exact rested_readout m k
    · exact rested_readout m j

theorem coreRest_service (j : Fin 16) (h : (m.cores[j]).disablePend = false) :
    ((coreRest m k).cores[j]).service = (m.cores[j]).service := by
  rcases coreRest_cases m k with e | ⟨waits, e⟩
  · rw [e]
    exact rested_service m j
  · have other : j ≠ k := fun same => by rw [same, waits] at h; cases h
    rw [e, updateReach_cores, modCore_get, if_neg other]
    exact rested_service m j

@[simp] theorem coreRest_sch (m : Main) (k : Fin 16) : (coreRest m k).sch = m.sch := by
  rcases coreRest_cases m k with e | ⟨-, e⟩ <;> simp [e]

/-- A port whose disable does not wait stands as before, where the core's disable does not wait either. -/
theorem coreRest_port {p : Fin 128} (core : (m.cores[k]).disablePend = false) (port : (m.ports[p]).disablePend = false) :
    ((coreRest m k).ports[p]).service = (m.ports[p]).service := by
  have idle := standing_port (endIdleFields_standing m) p
  rw [coreRest_serves core, restPorts_port ((congrArg PortService.disablePend idle).trans port)]
  exact idle

end CoreRest

/-! ## The end of a field (R99, R104, R112) -/

section EndField

variable {m : Main} {k : Fin 16} {f : FieldRec}

/-- The steps of a field's end: the core reports none and stands as before, the port rests, a session is lost, the change is told and loaded. -/
theorem endField_eq (h : (m.cores[k]).fld = some f) : ∃ (g : Core → Core) (v : FV) (x : Main),
    x = dropSession (reachPort (modPort (modCore (accrue m) k g) f.port fun x => if f.closed then x.rest.park else x.rest) f.port) f.port ∧
    endField m k = loadCoupled (if f.closed then sendField x f.port false f else x) v ∧
    ∀ c, (g c).readout = ⟨none, 0, c.fieldTicks + if f.closed then m.now - f.since else 0⟩ ∧ (g c).service = c.service := by
  unfold endField
  simp only [fieldView, h, Option.map_some]
  exact ⟨_, _, _, rfl, rfl, fun c => ⟨rfl, rfl⟩⟩

/-- What the end of a field does to what stands: the core reports none, and the port rests. -/
theorem endField_standing (h : (m.cores[k]).fld = some f) : ∃ g : Core → Core,
    (endField m k).standing = (reachPort (modPort (modCore (accrue m) k g) f.port fun x => if f.closed then x.rest.park else x.rest)
      f.port).standing ∧
    ∀ c, (g c).readout = ⟨none, 0, c.fieldTicks + if f.closed then m.now - f.since else 0⟩ ∧ (g c).service = c.service := by
  obtain ⟨g, v, x, dropped, e, ends⟩ := endField_eq h
  refine ⟨g, ?_, ends⟩
  have kept : x.standing = _ := dropped ▸ dropSession_standing ..
  rw [e, loadCoupled_standing, ← kept]
  split
  · exact sendField_standing ..
  · rfl

theorem endField_none (h : (m.cores[k]).fld = none) : endField m k = m := by
  unfold endField
  simp only [h, fieldView, Option.map_none]

theorem endField_readout (h : (m.cores[k]).fld = some f) :
    ((endField m k).cores[k]).readout = ⟨none, 0, (m.cores[k]).fieldTicks + if f.closed then m.now - f.since else 0⟩ := by
  obtain ⟨g, e, ends⟩ := endField_standing h
  rw [standing_readout e, reachPort_cores, modPort_cores, modCore_get, if_pos rfl]
  exact (ends _).1

theorem endField_service (m : Main) (k j : Fin 16) : ((endField m k).cores[j]).service = (m.cores[j]).service := by
  cases h : (m.cores[k]).fld with
  | none => rw [endField_none h]
  | some f =>
    obtain ⟨g, e, ends⟩ := endField_standing h
    rw [standing_service e, reachPort_cores, modPort_cores, modCore_get]
    split
    · rename_i same
      rw [same]
      exact (ends _).2
    · rfl

theorem endField_sched (m : Main) (k : Fin 16) : (endField m k).sch.state = m.sch.state := by
  cases h : (m.cores[k]).fld with
  | none => rw [endField_none h]
  | some f =>
    obtain ⟨g, e, -⟩ := endField_standing h
    rw [standing_sched e, reachPort_sch]
    rfl

/-- The cores that serve a port follow from their service and the settings. -/
theorem servingCores_congr {a b : Main} (cfg : b.cfg = a.cfg) (service : ∀ j : Fin 16, (b.cores[j]).service = (a.cores[j]).service)
    (p : Fin 128) : servingCores b p = servingCores a p := by
  have state : ∀ j : Fin 16, (b.cores[j]).state = (a.cores[j]).state := fun j => congrArg CoreService.state (service j)
  have serves : serving b = serving a := by
    funext j
    simp only [serving, state]
  simp only [servingCores, allowedCores, cfgN, cfg, serves]

/-- A port that is served, and was not UNREACHABLE, stays as it is. -/
theorem reachPort_served {p : Fin 128} (served : (servingCores m p).isEmpty = false) (reached : (m.ports[p]).state ≠ 4) :
    reachPort m p = m := by
  unfold reachPort
  simp only [served, reached, Bool.false_eq_true, if_false]

/-- The port of an ended field stands as before where it was not ACTIVE and can be served. -/
theorem endField_port (h : (m.cores[k]).fld = some f) (served : (servingCores m f.port).isEmpty = false)
    (rests : (m.ports[f.port]).state ≠ 1) (reached : (m.ports[f.port]).state ≠ 4) :
    ((endField m k).ports[f.port]).service = (m.ports[f.port]).service := by
  obtain ⟨g, e, ends⟩ := endField_standing h
  have rested : (if f.closed then (m.ports[f.port]).rest.park else (m.ports[f.port]).rest).service = (m.ports[f.port]).service := by
    simp only [Port.rest, rests, if_false]
    split <;> rfl
  have same : (modPort (modCore (accrue m) k g) f.port fun x => if f.closed then x.rest.park else x.rest).standing =
      (modCore (accrue m) k g).standing := modPort_standing rested
  have services : ∀ j : Fin 16, ((modCore (accrue m) k g).cores[j]).service = (m.cores[j]).service := by
    intro j
    rw [modCore_get]
    split
    · rename_i eq
      rw [eq]
      exact (ends _).2
    · rfl
  rw [standing_port e, reachPort_served]
  · exact standing_port same f.port
  · have serves := servingCores_congr (a := m) (b := modCore (accrue m) k g) rfl services f.port
    exact (congrArg List.isEmpty serves).trans served
  · exact fun bad => reached ((congrArg PortService.state (standing_port same f.port)).symm.trans bad)

@[simp] theorem linkSend_sch (m : Main) (l : LaceLink) (w0 eseq : Nat) (payload : List Word) : (linkSend m l w0 eseq payload).sch = m.sch := by
  unfold linkSend
  cases l <;> simp

@[simp] theorem sendField_sch (m : Main) (p : Fin 128) (isOn : Bool) (f : FieldRec) : (sendField m p isOn f).sch = m.sch := by
  unfold sendField laceSend
  dsimp only
  split
  · split
    · rfl
    · split
      · rfl
      · split <;> simp
  · rfl

@[simp] theorem loadDac_sch (m : Main) (k : Fin 16) : (loadDac m k).sch = m.sch := by
  rcases loadDac_cases m k with e | ⟨n, d, e⟩ <;> simp [e]

@[simp] theorem loadCoupled_sch (m : Main) (v : FV) : (loadCoupled m v).sch = m.sch := by
  unfold loadCoupled
  refine forEach_keeps Main.sch _ (fun x k => ?_) _ m
  split
  · split <;> simp
  · rfl

/-- The end of a field leaves the requests. -/
theorem endField_reqs (m : Main) (k : Fin 16) : (endField m k).sch.reqs = m.sch.reqs := by
  cases h : (m.cores[k]).fld with
  | none => rw [endField_none h]
  | some f =>
    obtain ⟨g, v, x, dropped, e, -⟩ := endField_eq h
    rw [e, loadCoupled_sch]
    split <;> simp [dropped] <;> rfl

/-- A field that goes off on a core leaves the core's report as its end did (R105, R119). -/
theorem fieldOff_readout (h : (m.cores[k]).fld = some f) :
    ((fieldOff m k).cores[k]).readout = ⟨none, 0, (m.cores[k]).fieldTicks + if f.closed then m.now - f.since else 0⟩ := by
  unfold fieldOff
  rw [standing_readout (evaluate_standing _), standing_readout (reportVisit_standing ..), coreRest_readout, endField_readout h]

end EndField

/-! ## Outages (R115, R560, R562) -/

/-- A core whose disable does not wait stands in service as before, and so does the scheduler. -/
structure serviceKept (a b : Main) : Prop where
  sched : b.sch.state = a.sch.state
  core  : ∀ k : Fin 16, (a.cores[k]).disablePend = false → (b.cores[k]).service = (a.cores[k]).service

theorem serviceKept_of_standing {a b : Main} (h : b.standing = a.standing) : serviceKept a b :=
  ⟨standing_sched h, fun k _ => standing_service h k⟩

theorem serviceKept_trans {a b c : Main} (h : serviceKept a b) (g : serviceKept b c) : serviceKept a c :=
  ⟨g.sched.trans h.sched, fun k p => (g.core k ((service_disablePend (h.core k p)).trans p)).trans (h.core k p)⟩

theorem serviceKept_forEach {α : Type} (f : Main → α → Main) (h : ∀ x a, serviceKept x (f x a)) (l : List α) (m : Main) :
    serviceKept m (forEach l m f) := by
  induction l generalizing m with
  | nil => rw [forEach_nil]; exact serviceKept_of_standing rfl
  | cons a rest ih => rw [forEach_cons]; exact serviceKept_trans (h m a) (ih _)

theorem serviceKept_endField (m : Main) (k : Fin 16) : serviceKept m (endField m k) := ⟨endField_sched m k, fun j _ => endField_service m k j⟩

theorem serviceKept_coreRest (m : Main) (k : Fin 16) : serviceKept m (coreRest m k) :=
  ⟨congrArg Sched.state (coreRest_sch m k), fun j => coreRest_service j⟩

theorem serviceKept_updateReach (m : Main) : serviceKept m (updateReach m) :=
  ⟨congrArg Sched.state (updateReach_sch m), fun j _ => by rw [updateReach_cores]⟩

theorem serviceKept_abortStitch (m : Main) (e : Fin 24) (c : Fin 2) (detail : Nat) : serviceKept m (abortStitch m e c detail) := by
  unfold abortStitch
  extract_lets withdrawn x ordered aborted
  have ends : aborted.standing = m.standing := by
    simp only [aborted, abortCtx_standing, ordered]
    split
    · split <;> simp [withdrawn]
    · simp [withdrawn]
  split
  · exact serviceKept_trans (serviceKept_of_standing ends) (serviceKept_coreRest ..)
  · exact serviceKept_of_standing ends

theorem serviceKept_abortStarted (m : Main) (detail : Nat) : serviceKept m (abortStarted m detail) := by
  unfold abortStarted
  refine serviceKept_forEach _ (fun x a => ?_) _ m
  dsimp only
  split
  · exact serviceKept_abortStitch ..
  · exact serviceKept_of_standing rfl

@[simp] theorem abortWaiting_standing (m : Main) (detail : Nat) : (abortWaiting m detail).standing = m.standing := by
  unfold abortWaiting
  refine forEach_standing _ (fun x a => ?_) _ m
  dsimp only
  split <;> simp

@[simp] theorem cutPass_standing (m : Main) : (cutPass m).standing = m.standing := by
  unfold cutPass
  extract_lets cleared sch withdrawn ended
  have cleared_standing : cleared.standing = m.standing := forEach_standing _ (fun x k => modLane_standing ..) _ m
  have ended_standing : ended.standing = m.standing := (reqs_standing ..).trans cleared_standing
  split
  · exact (endPass_standing ..).trans ended_standing
  · exact ended_standing

@[simp] theorem discardBurnish_standing (m : Main) : (discardBurnish m).standing = m.standing := by
  unfold discardBurnish
  dsimp only
  refine (forEach_standing _ (fun x k => ?_) _ _).trans (by simp)
  split <;> simp

@[simp] theorem abandonFull_standing (m : Main) : (abandonFull m).standing = m.standing := by
  unfold abandonFull
  split <;> simp

@[simp] theorem demodFree_standing (m : Main) (d : Fin 8) : (demodFree m d).standing = m.standing := by
  unfold demodFree
  dsimp only
  split
  · exact (modDemod_standing ..).trans (standing_of_pool (poolOnly_trans (poolOnly_sinkPkt ..) (poolOnly_closePkt ..)))
  · rfl

@[simp] theorem dropReceptions_standing (m : Main) (counted : Bool) : (dropReceptions m counted).standing = m.standing := by
  unfold dropReceptions
  dsimp only
  rw [modRad_standing]
  refine forEach_standing _ (fun x d => ?_) _ m
  split <;> simp

@[simp] theorem setMode_standing (m : Main) (dst : Mode) (trig : Nat) : (setMode m dst trig).standing = m.standing :=
  (standing_of_pool (poolOnly_setMode m dst trig)).trans (modPw_standing ..)

/-- An entry to HOLD ends all work and leaves the service of cores and scheduler (R41, R562). -/
theorem serviceKept_enterHold (m : Main) (cause : Nat) (units : List Nat) : serviceKept m (enterHold m cause units) := by
  unfold enterHold
  split
  · exact serviceKept_of_standing rfl
  · extract_lets off aborted waiting cut burnish quiet sch cleared held args told
    have ends : serviceKept m aborted :=
      serviceKept_trans (serviceKept_forEach endField serviceKept_endField (allFin 16) m) (serviceKept_abortStarted off 4)
    have cleared_standing : cleared.standing = aborted.standing := (reqs_standing ..).trans (by simp [quiet, txStop, burnish, cut, waiting])
    exact serviceKept_trans ends (serviceKept_of_standing (by simp [told, held, cleared_standing]))

theorem serviceKept_unitFault (m : Main) (u cause : Nat) (nested out : Bool) : serviceKept m (unitFault m u cause nested out) := by
  obtain ⟨x, told, e⟩ := unitFault_cases m u cause nested out
  have kept := serviceKept_of_standing (standing_of_pool told)
  rcases e with e | ⟨units, e⟩
  · rw [e]
    exact kept
  · rw [e]
    exact serviceKept_trans kept (serviceKept_enterHold ..)

theorem serviceKept_vitalFault (m : Main) (u cause : Nat) (nested : Bool) : serviceKept m (vitalFault m u cause nested) := by
  unfold vitalFault
  dsimp only
  split
  · exact serviceKept_trans (serviceKept_unitFault ..) (serviceKept_enterHold ..)
  · exact serviceKept_unitFault ..

/-! ### No outage grants a field -/

theorem fieldsShrink_enterHold (m : Main) (cause : Nat) (units : List Nat) : fieldsShrink m (enterHold m cause units) := by
  cases h : m.pw.mode.isMain with
  | false =>
    rw [enterHold_other m cause units h]
    exact fieldsShrink_refl m
  | true =>
    obtain ⟨-, -, -, fields, -⟩ := enterHold_enters m cause units h
    exact ⟨fun k _ => fields k⟩

theorem fieldsShrink_unitFault (m : Main) (u cause : Nat) (nested out : Bool) : fieldsShrink m (unitFault m u cause nested out) := by
  obtain ⟨x, told, e⟩ := unitFault_cases m u cause nested out
  rcases e with e | ⟨units, e⟩
  · rw [e]
    exact fieldsShrink_of_pool told
  · rw [e]
    exact fieldsShrink_trans (fieldsShrink_of_pool told) (fieldsShrink_enterHold ..)

theorem fieldsShrink_vitalFault (m : Main) (u cause : Nat) (nested : Bool) : fieldsShrink m (vitalFault m u cause nested) := by
  unfold vitalFault
  dsimp only
  split
  · exact fieldsShrink_trans (fieldsShrink_unitFault ..) (fieldsShrink_enterHold ..)
  · exact fieldsShrink_unitFault ..

/-! ### A core fault (R114–R116) -/

/-- The state of a core after its fault: kept out of service, RETIRED while it recovers, else FAULTED (R116). -/
def faultState (st : Nat) : Nat := if st == 4 || st == 5 then st else if st == 1 || st == 2 || st == 3 then 4 else 1

@[simp] theorem laneAborted_standing (m : Main) (k : Fin 16) : (laneAborted m k).standing = m.standing := by
  unfold laneAborted
  split
  · split
    · split
      · simp
      · extract_lets left reported
        have reported_standing : reported.standing = m.standing := by simp [reported, left]
        split
        · simp [reported_standing]
        · exact (sv_standing ..).trans reported_standing
    · rfl
  · rfl

theorem serviceKept_coreDown (m : Main) (k : Fin 16) : serviceKept m (coreDown m k) := by
  unfold coreDown
  extract_lets reported off aborted
  have ends : serviceKept m aborted := by
    refine serviceKept_trans (serviceKept_trans (serviceKept_of_standing (laneAborted_standing m k)) (serviceKept_endField reported k)) ?_
    refine serviceKept_forEach _ (fun x a => ?_) _ off
    dsimp only
    split
    · exact serviceKept_abortStitch ..
    · exact serviceKept_of_standing rfl
  exact serviceKept_trans ends (serviceKept_of_standing (modBrn_standing ..))

/-- A core fault leaves the core in the state of `faultState`, with its cause, and counted. -/
theorem coreFault_service {m : Main} {k : Fin 16} (cause : Nat) (h : (m.cores[k]).disablePend = false) :
    ((coreFault m k cause).cores[k]).service =
      ⟨faultState (m.cores[k]).state, false, cause, sat32 ((m.cores[k]).faults + 1)⟩ := by
  unfold coreFault
  extract_lets st out nested faulted down reached
  have service : (faulted.cores[k]).service = ⟨faultState (m.cores[k]).state, false, cause, sat32 ((m.cores[k]).faults + 1)⟩ := by
    simp only [faulted]
    rw [modCore_get, if_pos rfl, count_cores, ← h]
    rfl
  have kept : serviceKept faulted (evaluate (unitFault reached k.val cause nested out)) :=
    serviceKept_trans (serviceKept_trans (serviceKept_trans (serviceKept_coreDown faulted k) (serviceKept_updateReach down))
      (serviceKept_unitFault ..)) (serviceKept_of_standing (evaluate_standing _))
  exact (kept.core k (congrArg CoreService.disablePend service)).trans service

theorem withdrawFaults_cores (m : Main) (k : Fin 16) : (withdrawFaults m k).cores = m.cores := by
  unfold withdrawFaults
  refine forEach_keeps Main.cores _ (fun x p => ?_) _ m
  rfl

/-- The same for every cause, after the withdrawal of port faults by cause 0x05 (R114). -/
theorem coreFaultBy_service {m : Main} {k : Fin 16} {cause : Nat} (some : cause ≠ 0) (h : (m.cores[k]).disablePend = false) :
    ((coreFaultBy m k cause).cores[k]).service =
      ⟨faultState (m.cores[k]).state, false, cause, sat32 ((m.cores[k]).faults + 1)⟩ := by
  unfold coreFaultBy
  rw [if_neg some]
  split
  · rename_i five
    have core : (modCore (withdrawFaults m k) k fun c => { c with portFaultAt := [] }).cores[k] = { m.cores[k] with portFaultAt := [] } := by
      rw [modCore_get, if_pos rfl, withdrawFaults_cores]
    rw [standing_service (pumpRetest_standing _), coreFault_service 5 (by rw [core]; exact h), core, five]
  · exact coreFault_service cause h

end Sys2Proof.Machine
end

section
/-!
Proofs of the statements on home and alternate cores and on the scheduler's own commands (R94, R118, R126, R128).
-/

namespace Sys2Proof.Machine

/-! ## Home and alternate cores (R94) -/

/-- A core is home to its own octet. -/
theorem homeCore_eq_iff (k : Fin 16) (p : Fin 128) : homeCore p = k ↔ 8 * k.val ≤ p.val ∧ p.val ≤ 8 * k.val + 7 := by
  rw [Fin.ext_iff]
  simp only [homeCore]
  omega

/-- A core is the alternate one of the next octet. -/
theorem altCore_eq_iff (k : Fin 16) (p : Fin 128) :
    altCore p = k ↔ 8 * ((k.val + 1) % 16) ≤ p.val ∧ p.val ≤ 8 * ((k.val + 1) % 16) + 7 := by
  rw [Fin.ext_iff]
  simp only [altCore]
  omega

/-- Settles O20: arithmetic of the octets; FC15 is the case of the first octet. -/
theorem homeAndAlternateCores : Obligations.HomeAndAlternateCores := by
  refine ⟨fun p => ⟨?home, ?alternate⟩, homeCore_eq_iff, altCore_eq_iff, fun p first => ?fc15⟩
  case home =>
    simp only [homeCore]
    omega
  case alternate =>
    simp only [altCore]
    omega
  case fc15 => exact (altCore_eq_iff 15 p).mpr ⟨Nat.zero_le _, first⟩

/-! ## Requests (R126) -/

theorem readerOnly_grantRequest (m : Main) (w : Owner) (p : Fin 128) : readerOnly m (grantRequest m w p) := by
  unfold grantRequest
  split
  · exact readerOnly_trans (readerOnly_addReq ..) (readerOnly_evaluate _)
  · exact readerOnly_evaluate m

/-- The request of a full burnish for a port (R183, R187). -/
def burnishReq (m : Main) (p : Fin 128) : Req := { owner := .burnish, port := p, cls := 4, made := m.now, stale := staleTasks m p }

theorem requestOf_fullBurnish {m : Main} (p : Fin 128) (full : m.brn.full = 1) : requestOf m .burnish p = some (burnishReq m p) := by
  simp only [requestOf, burnishOwes, full, BEq.rfl, Bool.true_or, if_true]
  rfl

/-- An owner's first request joins the queue. -/
theorem addReq_first {m : Main} (r : Req) (none : m.sch.reqs = []) (owner : r.owner = .burnish) :
    addReq m r = { m with sch := { m.sch with reqs := [r] } } := by
  simp only [addReq, none, owner, List.any_nil, Bool.false_eq_true, if_false, List.nil_append]

/-- A single request is evaluated once. -/
theorem evaluate_single {m : Main} {r : Req} (one : m.sch.reqs = [r]) : evaluate m = evalReq m r := by
  unfold evaluate
  cases paused : r.paused <;> simp [one, paused]

/-- Without VTX a burnish request for a port in service waits (R48). -/
theorem evalReq_waits {m : Main} {r : Req} (owner : r.owner = .burnish) (low : m.pw.vtxHold = true) (port : (m.ports[r.port]).state < 2) :
    evalReq m r = m := by
  unfold evalReq
  extract_lets st
  have inService : ¬ 2 ≤ st := Nat.not_le.mpr port
  simp [reqDead, ownerJob, owner, low, inService]

theorem grantRequest_waits {m : Main} {p : Fin 128} (none : m.sch.reqs = []) (low : m.pw.vtxHold = true) (full : m.brn.full = 1)
    (port : (m.ports[p]).state < 2) :
    grantRequest m .burnish p = { m with sch := { m.sch with reqs := [burnishReq m p] } } := by
  simp only [grantRequest, requestOf_fullBurnish p full]
  rw [addReq_first (burnishReq m p) none rfl, evaluate_single rfl]
  exact evalReq_waits rfl low port

/-! ## The governor's bins (R118) -/

theorem readerOnly_accrue (m : Main) : readerOnly m (accrue m) := rfl

/-- The energy window advances by a bin, and what the governor refused is asked for again. -/
def binAdvanced (m : Main) : Main :=
  { accrue m with sch := { (accrue m).sch with
      bins := (0 :: (accrue m).sch.bins).take 1000, reqs := (accrue m).sch.reqs.map fun r => { r with waitBin := false } } }

theorem governorBin_main {m : Main} (main : m.pw.mode.isMain = true) : governorBin m = evaluate (binAdvanced m) := by
  simp only [governorBin, main, Bool.not_true, Bool.false_eq_true, if_false]
  rfl

theorem answers_governorBin {s : State} (main : s.m.pw.mode.isMain = true) : answers .governorBinBoundary s fun t =>
    t.m.sch.bins = (0 :: (accrue s.m).sch.bins).take 1000 ∧ t.m.sch.binAt = s.m.now ∧ mainOnly s t ∧ readerOnly s.m t.m := by
  refine answers_of_onMain (f := governorBin) rfl ?_
  rw [governorBin_main main]
  have stands := evaluate_standing (binAdvanced s.m)
  exact ⟨standing_bins stands, standing_binAt stands, mainOnly_m .., readerOnly_trans (readerOnly_sch ..) (readerOnly_evaluate _)⟩

/-! ## Reservations (R128) -/

/-- What is written to a key is read from it. -/
theorem mapGet_mapSet_same (k v : Nat) (l : List (Nat × Nat)) : mapGet k (mapSet k v l) = some v := by
  induction l with
  | nil => simp [mapSet, mapGet]
  | cons p rest ih =>
    unfold mapSet
    split
    · simp [mapGet]
    · rename_i other
      split
      · simp [mapGet]
      · simp [mapGet, other, ih]

/-- A counter rises by one, up to its end (R549). -/
theorem counter_count_same (m : Main) (idx sub : Nat) : counter (count m idx sub) idx sub = sat32 (counter m idx sub + 1) := by
  simp only [count, countN, Nat.one_ne_zero, if_false, counter, mapGet_mapSet_same, Option.getD_some, sat32]

theorem reserve_eq {m : Main} {w : Owner} {r : Req} (found : m.sch.reqs.find? (fun x => x.owner == w) = some r)
    (fresh : r.reserved = false) : reserve m w = putReq (count m 0x7040 0x0A) { r with reserved := true } := by
  simp only [reserve, found, fresh, Bool.false_eq_true, if_false]

theorem answers_reservation {s : State} {w : Owner} {r : Req} (found : s.m.sch.reqs.find? (fun x => x.owner == w) = some r)
    (fresh : r.reserved = false) : answers (.reservation w) s fun t =>
      t.m.sch.reqs = s.m.sch.reqs.map (fun x => if x.owner = r.owner then { r with reserved := true } else x) ∧
      counter t.m 0x7040 0x0A = sat32 (counter s.m 0x7040 0x0A + 1) ∧ mainOnly s t ∧ readerOnly s.m t.m := by
  refine answers_of_onMain (f := fun m => reserve m w) rfl ?_
  rw [reserve_eq found fresh]
  refine ⟨?_, counter_count_same s.m 0x7040 0x0A, mainOnly_m .., readerOnly_trans (readerOnly_count ..) (readerOnly_putReq ..)⟩
  simp only [putReq, count_sch]

/-- Settles O19: every request by what an evaluation may reach, the waiting one by the tests before a grant, bins and reservations by their
equations. -/
theorem schedulerCommands : Obligations.SchedulerCommands := by
  refine ⟨?request, ?waits, ?bin, ?reserved⟩
  case request => exact fun s w p => answers_of_onMain (f := fun m => grantRequest m w p) rfl ⟨mainOnly_m .., readerOnly_grantRequest ..⟩
  case waits =>
    intro s p none low full port
    refine answers_of_onMain (f := fun m => grantRequest m .burnish p) rfl ?_
    rw [grantRequest_waits none low full port]
    exact ⟨rfl, rfl⟩
  case bin => exact fun s main => answers_governorBin main
  case reserved => exact fun s w r found fresh => answers_reservation found fresh

end Sys2Proof.Machine
end

section
/-!
Proofs of the statement on a field's course: its switch, check, level, trips, changes and end (R103–R106, R111, R133–R135).
-/

namespace Sys2Proof.Machine

/-! ## The switch (R105, R133) -/

theorem fieldView_some {m : Main} {k : Fin 16} {f : FieldRec} (h : (m.cores[k]).fld = some f) : ∃ v, fieldView m k = some v := by
  unfold fieldView
  rw [h]
  exact ⟨_, rfl⟩

section Switch

variable {m : Main} {k : Fin 16} {f : FieldRec} {v : FV} {b : Bool}

/-- A grant whose window has closed is taken back (R85, R95). -/
theorem portSwitch_outside (h : (m.cores[k]).fld = some f) (granted : f.closed = false) (outside : planAllows m k f.port f.cls = false) :
    portSwitch m k b = evaluate (regrant (endField m k) f) := by
  obtain ⟨v, hv⟩ := fieldView_some h
  simp only [portSwitch, h, hv, granted, outside, Bool.not_false, Bool.false_eq_true, if_false, if_true]

/-- A port whose other switch is closed is refused by the interlock (R95). -/
theorem portSwitch_interlock (h : (m.cores[k]).fld = some f) (granted : f.closed = false) (inside : planAllows m k f.port f.cls = true) :
    portSwitch m k false = interlockRefusal m k f := by
  obtain ⟨v, hv⟩ := fieldView_some h
  simp only [portSwitch, h, hv, granted, inside, Bool.not_true, Bool.not_false, Bool.false_eq_true, if_false, if_true]

/-- Else the switch closes, or waits for the gaps of coupled ports (R133). -/
theorem portSwitch_free (h : (m.cores[k]).fld = some f) (hv : fieldView m k = some v) (granted : f.closed = false)
    (inside : planAllows m k f.port f.cls = true) :
    portSwitch m k true = if changeBlocked m v then holdChange m k else closeSwitch m k f := by
  simp only [portSwitch, h, hv, granted, inside, Bool.not_true, Bool.false_eq_true, if_false]

end Switch

/-- The core with its switch closed on a field's port, before its DACs are loaded. -/
def switched (m : Main) (k : Fin 16) (f : FieldRec) : Main :=
  portClose (modCore (accrue m) k fun c =>
    { c with fld := some { f with closed := true, since := m.now, level := ownerLevel (accrue m) f.owner k f.port, at95 := false,
                                    coef := ownCoeff (accrue m) k f.port },
             portNow := some f.port, drivePhase := f.code,
             applied := (((f.code : Int) + c.phaseCal + m.lace.devPhase) % 1024).toNat, changeHeld := false }) k f.port

theorem closeSwitch_eq (m : Main) (k : Fin 16) (f : FieldRec) : closeSwitch m k f = loadDac (switched m k f) k := rfl

/-- A load of DACs reaches a core's DACs alone. -/
theorem loadDac_core (m : Main) (k : Fin 16) : ∃ i q ci cq pend,
    (loadDac m k).cores[k] = { m.cores[k] with dacI := i, dacQ := q, carI := ci, carQ := cq, dacPend := pend } := by
  rcases loadDac_cases m k with e | ⟨n, d, e⟩
  · rw [e]
    exact ⟨_, _, _, _, _, rfl⟩
  · rw [e, modCore_get, if_pos rfl, countN_cores, loaded_eq]
    exact ⟨_, _, _, _, _, rfl⟩

@[simp] theorem loadDac_ports (m : Main) (k : Fin 16) : (loadDac m k).ports = m.ports := by
  rcases loadDac_cases m k with e | ⟨n, d, e⟩ <;> simp [e]

theorem switched_core (m : Main) (k : Fin 16) (f : FieldRec) : (switched m k f).cores[k] = { m.cores[k] with
    fld := some { f with closed := true, since := m.now, level := ownerLevel (accrue m) f.owner k f.port, at95 := false,
                          coef := ownCoeff (accrue m) k f.port },
    portNow := some f.port, drivePhase := f.code,
    applied := (((f.code : Int) + (m.cores[k]).phaseCal + m.lace.devPhase) % 1024).toNat, changeHeld := false } := by
  unfold switched portClose
  rw [modPort_cores, modCore_get, if_pos rfl]
  rfl

theorem switched_port (m : Main) (k : Fin 16) (f : FieldRec) :
    ((switched m k f).ports[f.port]).array = tuneCode m k f.port ∧ ((switched m k f).ports[f.port]).shorted = false ∧
    ((switched m k f).ports[f.port]).state = if (m.ports[f.port]).state = 0 then 1 else (m.ports[f.port]).state := by
  unfold switched portClose
  rw [modPort_get, if_pos rfl]
  exact ⟨rfl, rfl, rfl⟩

theorem readerOnly_closeSwitch (m : Main) (k : Fin 16) (f : FieldRec) : readerOnly m (closeSwitch m k f) :=
  readerOnly_trans (b := switched m k f) rfl (readerOnly_loadDac ..)

theorem answers_portSwitch_closes {s : State} {k : Fin 16} {f : FieldRec} {v : FV} (h : (s.m.cores[k]).fld = some f)
    (hv : fieldView s.m k = some v) (granted : f.closed = false) (inside : planAllows s.m k f.port f.cls = true)
    (gap : changeBlocked s.m v = false) : answers (.portSwitch k true) s fun t =>
      (∃ g, (t.m.cores[k]).fld = some g ∧ g.closed = true ∧ g.port = f.port ∧ g.owner = f.owner ∧ g.since = s.m.now) ∧
      (t.m.cores[k]).portNow = some f.port ∧ (t.m.cores[k]).drivePhase = f.code ∧
      (t.m.cores[k]).applied = (((f.code : Int) + (s.m.cores[k]).phaseCal + s.m.lace.devPhase) % 1024).toNat ∧
      (t.m.ports[f.port]).array = tuneCode s.m k f.port ∧ (t.m.ports[f.port]).shorted = false ∧
      ((s.m.ports[f.port]).state = 0 → (t.m.ports[f.port]).state = 1) ∧ mainOnly s t ∧ readerOnly s.m t.m := by
  refine answers_of_onMain (f := fun m => portSwitch m k true) rfl ?_
  rw [portSwitch_free h hv granted inside, gap, if_neg Bool.false_ne_true]
  have reach := readerOnly_closeSwitch s.m k f
  rw [closeSwitch_eq] at reach ⊢
  obtain ⟨i, q, ci, cq, pend, core⟩ := loadDac_core (switched s.m k f) k
  obtain ⟨array, shorted, state⟩ := switched_port s.m k f
  dsimp only
  rw [core, switched_core, loadDac_ports]
  exact ⟨⟨_, rfl, rfl, rfl, rfl, rfl⟩, rfl, rfl, rfl, array, shorted, fun idle => by rw [state, if_pos idle], mainOnly_m .., reach⟩

/-- A change that must wait is counted once (R133). -/
theorem holdChange_first {m : Main} {k : Fin 16} (first : (m.cores[k]).changeHeld = false) :
    holdChange m k = modCore (count m 0x7040 0x06) k fun c => { c with changeHeld := true } := by
  simp only [holdChange, first, Bool.false_eq_true, if_false]

theorem exec_portSwitch_waits {s : State} {k : Fin 16} {f : FieldRec} {v : FV} (h : (s.m.cores[k]).fld = some f)
    (hv : fieldView s.m k = some v) (granted : f.closed = false) (inside : planAllows s.m k f.port f.cls = true)
    (busy : changeBlocked s.m v = true) (first : (s.m.cores[k]).changeHeld = false) :
    exec (.portSwitch k true) s = .next { s with m := modCore (count s.m 0x7040 0x06) k fun c => { c with changeHeld := true } } := by
  refine exec_of_onMain (f := fun m => portSwitch m k true) rfl ?_
  rw [portSwitch_free h hv granted inside, busy, if_pos rfl, holdChange_first first]

/-! ## A grant taken back (R95) -/

theorem readerOnly_regrant (m : Main) (f : FieldRec) : readerOnly m (regrant m f) := by
  unfold regrant
  split
  · exact readerOnly_pauseCtx ..
  · split
    · exact readerOnly_addReq ..
    · exact readerOnly_refl m

theorem fieldsShrink_addReq (m : Main) (r : Req) : fieldsShrink m (addReq m r) := by
  unfold addReq
  split
  · exact fieldsShrink_refl m
  · dsimp only
    split <;> exact fieldsShrink_of_cores rfl

theorem fieldsShrink_pauseCtx (m : Main) (e : Fin 24) (c : Fin 2) : fieldsShrink m (pauseCtx m e c) := by
  unfold pauseCtx
  extract_lets x
  split
  · extract_lets off dropped paused
    have ends : fieldsShrink m dropped := by
      refine fieldsShrink_trans ?_ (fieldsShrink_dropSession ..)
      simp only [off]
      split
      · exact fieldsShrink_orderOff ..
      · exact fieldsShrink_refl m
    split
    · exact fieldsShrink_trans ends (fieldsShrink_writeResult ..)
    · exact fieldsShrink_trans (fieldsShrink_trans ends (fieldsShrink_modCtx ..)) (fieldsShrink_addReq ..)
  · exact fieldsShrink_refl m

theorem fieldsShrink_regrant (m : Main) (f : FieldRec) : fieldsShrink m (regrant m f) := by
  unfold regrant
  split
  · exact fieldsShrink_pauseCtx ..
  · split
    · exact fieldsShrink_addReq ..
    · exact fieldsShrink_refl m

theorem answers_portSwitch_outside {s : State} {k : Fin 16} {f : FieldRec} (b : Bool) (h : (s.m.cores[k]).fld = some f)
    (granted : f.closed = false) (outside : planAllows s.m k f.port f.cls = false) : answers (.portSwitch k b) s fun t =>
      mainOnly s t ∧ readerOnly s.m t.m ∧ (t.m.cores[k]).portNow = none := by
  have stands : (evaluate (regrant (endField s.m k) f)).standing = (endField s.m k).standing := by simp
  refine answers_of_onMain (f := fun m => portSwitch m k b) rfl ?_
  rw [portSwitch_outside h granted outside]
  refine ⟨mainOnly_m .., readerOnly_trans (readerOnly_trans (readerOnly_endField ..) (readerOnly_regrant ..)) (readerOnly_evaluate _), ?_⟩
  exact congrArg CoreReadout.portNow ((standing_readout stands k).trans (endField_readout h))

/-- A fault of the scheduler leaves it rebuilding its tables, and grants no field (R560). -/
theorem schedFault_rebuilds (m : Main) (cause : Nat) : (schedFault m cause).sch.state = 1 ∧ fieldsShrink m (schedFault m cause) :=
  ⟨(serviceKept_vitalFault ..).sched, fieldsShrink_trans (fieldsShrink_sch m _) (fieldsShrink_vitalFault ..)⟩

theorem answers_portSwitch_interlock {s : State} {k : Fin 16} {f : FieldRec} (h : (s.m.cores[k]).fld = some f)
    (granted : f.closed = false) (inside : planAllows s.m k f.port f.cls = true) : answers (.portSwitch k false) s fun t =>
      (t.m.cores[k]).fld = none ∧ t.m.sch.state = 1 ∧ mainOnly s t := by
  refine answers_of_onMain (f := fun m => portSwitch m k false) rfl ?_
  rw [portSwitch_interlock h granted inside]
  unfold interlockRefusal
  extract_lets told
  obtain ⟨state, shrinks⟩ := schedFault_rebuilds (regrant (endField told k) f) 1
  exact ⟨(fieldsShrink_trans (fieldsShrink_regrant ..) shrinks).keep k (endField_fld told k), state, mainOnly_m ..⟩

/-! ## The port check (R111, R112) -/

section Check

variable {m : Main} {k : Fin 16} {f : FieldRec} {z : Nat} {a : Int}

/-- A check is recorded with its port. -/
def checkNoted (m : Main) (p : Fin 128) (z : Nat) (a : Int) : Main := modPort m p fun x => { x with zMag := z, zArg := a }

theorem portCheck_passes (h : (m.cores[k]).fld = some f) (on : f.closed = true) (own : f.owner ≠ .retest)
    (passes : checkPort m f.port z a = 0) : portCheck m k z a = noteCheck (checkNoted m f.port z a) k f.port z a := by
  simp only [portCheck, h, on, own, passes, Bool.not_true, Bool.false_eq_true, beq_iff_eq, if_false, if_true]
  rfl

theorem portCheck_fails (h : (m.cores[k]).fld = some f) (on : f.closed = true) (own : f.owner ≠ .retest)
    (fails : checkPort m f.port z a ≠ 0) : portCheck m k z a = portFail (checkNoted m f.port z a) k f (checkPort m f.port z a) := by
  simp only [portCheck, h, on, own, fails, Bool.not_true, Bool.false_eq_true, beq_iff_eq, if_false]
  rfl

/-- A failed check gives OPEN or SHORT. -/
theorem checkPort_open_or_short (m : Main) (p : Fin 128) (z : Nat) (a : Int) :
    checkPort m p z a = 0 ∨ checkPort m p z a = 2 ∨ checkPort m p z a = 3 := by
  unfold checkPort zState
  split
  · exact .inr (.inr rfl)
  · split
    · exact .inr (.inl rfl)
    · exact .inl rfl

/-- The scores of a port are no part of its service (R190). -/
theorem scores_service (x : Port) (n : Nat) : (x.scores n).service = x.service := by
  unfold Port.scores
  extract_lets s e t leak eye tune
  have leak_service : leak.service = x.service := by
    simp only [leak]
    split <;> rfl
  have eye_service : eye.service = x.service := by
    simp only [eye]
    split
    · exact leak_service
    · exact leak_service
  have tune_service : tune.service = x.service := by
    simp only [tune]
    split
    · exact eye_service
    · exact eye_service
  exact tune_service

/-- What the records of a check leave: the cores, the scheduler, and how the ports stand. -/
def checkLeaves (m : Main) : Vector Core 16 × Sched × (Fin 128 → PortService) := (m.cores, m.sch, fun p => (m.ports[p]).service)

theorem checkLeaves_modPort {m : Main} {p : Fin 128} {g : Port → Port} (h : (g m.ports[p]).service = (m.ports[p]).service) :
    checkLeaves (modPort m p g) = checkLeaves m := by
  have kept : ∀ q : Fin 128, ((modPort m p g).ports[q]).service = (m.ports[q]).service := standing_port (modPort_standing h)
  simp only [checkLeaves, kept, modPort_cores, modPort_sch]

theorem checkLeaves_of_pool {a b : Main} (h : poolOnly a b) : checkLeaves b = checkLeaves a := by
  unfold checkLeaves
  rw [poolOnly_cores_eq h, poolOnly_ports_eq h, poolOnly_sch_eq h]

/-- A flag of a port is set, counted and journalled. -/
theorem checkLeaves_flagged (m : Main) (p : Fin 128) (sub code : Nat) (args : List Nat) (y : Port → BitVec 8) :
    checkLeaves (journal (modPort (count m 0x7060 sub) p fun x => { x with flags := y x }) 0x38 code args) = checkLeaves m :=
  (checkLeaves_of_pool (poolOnly_journal ..)).trans ((checkLeaves_modPort rfl).trans (checkLeaves_of_pool (poolOnly_count ..)))

/-- A port's fastness is one of those records (R190, R191). -/
theorem updateFast_leaves (m : Main) (p : Fin 128) : checkLeaves (updateFast m p) = checkLeaves m := by
  unfold updateFast
  extract_lets scored x fast warn poor weak told
  have scored_leaves : checkLeaves scored = checkLeaves m := checkLeaves_modPort (scores_service ..)
  have weak_leaves : checkLeaves weak = checkLeaves m := by
    simp only [weak]
    split
    · exact (checkLeaves_flagged ..).trans scored_leaves
    · split
      · exact (checkLeaves_modPort rfl).trans scored_leaves
      · exact scored_leaves
  split
  · exact scored_leaves
  · split
    · exact (checkLeaves_flagged weak ..).trans weak_leaves
    · split
      · exact (checkLeaves_modPort rfl).trans weak_leaves
      · exact weak_leaves

/-- A passed check is recorded alone (R176, R190). -/
theorem noteCheck_leaves (m : Main) (k : Fin 16) (p : Fin 128) (z : Nat) (a : Int) : checkLeaves (noteCheck m k p z a) = checkLeaves m := by
  unfold noteCheck
  extract_lets alt noted l n t estimated
  have noted_leaves : checkLeaves noted = checkLeaves m := checkLeaves_modPort rfl
  refine (updateFast_leaves _ p).trans ?_
  simp only [estimated]
  split
  · exact (checkLeaves_modPort rfl).trans noted_leaves
  · exact noted_leaves

end Check

theorem answers_portCheck_passes {s : State} {k : Fin 16} {f : FieldRec} {z : Nat} {a : Int} (h : (s.m.cores[k]).fld = some f)
    (on : f.closed = true) (own : f.owner ≠ .retest) (passes : checkPort s.m f.port z a = 0) : answers (.portCheck k z a) s fun t =>
      (t.m.ports[f.port]).zMag = z ∧ (t.m.ports[f.port]).zArg = a ∧ t.m.cores = s.m.cores ∧ t.m.sch = s.m.sch ∧ mainOnly s t := by
  refine answers_of_onMain (f := fun m => portCheck m k z a) rfl ?_
  rw [portCheck_passes h on own passes]
  have leaves := noteCheck_leaves (checkNoted s.m f.port z a) k f.port z a
  have noted : (checkNoted s.m f.port z a).ports[f.port] = { s.m.ports[f.port] with zMag := z, zArg := a } := by
    unfold checkNoted
    rw [modPort_get, if_pos rfl]
  have port : ((noteCheck (checkNoted s.m f.port z a) k f.port z a).ports[f.port]).service = ((checkNoted s.m f.port z a).ports[f.port]).service :=
    congrFun (congrArg (fun x => x.2.2) leaves) f.port
  rw [noted] at port
  exact ⟨congrArg PortService.zMag port, congrArg PortService.zArg port, congrArg (fun x => x.1) leaves, congrArg (fun x => x.2.1) leaves,
    mainOnly_m ..⟩

theorem evaluate_none {m : Main} (none : m.sch.reqs = []) : evaluate m = m := by
  unfold evaluate
  simp [none]

/-- A fault of a port as it is recorded: counted, with the port, in the journal and with the core (R111, R112, R114). -/
def portFaulted (m : Main) (k : Fin 16) (p : Fin 128) (st : Nat) : Main :=
  let m := modPort (count m 0x7030 (if st = 3 then 0x02 else 0x01)) p fun x => { x with state := st, faults := sat32 (x.faults + 1) }
  let m := journal m (0x02 + k.val) 0x3001 [p.val, st, (m.ports[p]).zMag, fromSigned 16 (m.ports[p]).zArg]
  modCore m k fun c =>
    { c with portFaultAt := (c.portFaultAt.filter fun y => y.1 != p && decide (m.now < y.2 + tickS)) ++ [(p, m.now)] }

section PortFault

variable {m : Main} {k : Fin 16} {f : FieldRec} {p : Fin 128} {st : Nat}

/-- The first fault recorded with a core leaves the core as it was but for the record. -/
theorem portFaulted_core (first : (m.cores[k]).portFaultAt = []) (j : Fin 16) :
    (portFaulted m k p st).cores[j] = if j = k then { m.cores[k] with portFaultAt := [(p, m.now)] } else m.cores[j] := by
  unfold portFaulted
  simp only [modCore_get, journal_cores, modPort_cores, count_cores, first, List.filter_nil, List.nil_append, journal_now, modPort_now,
    count_now]

theorem portFaulted_port : (portFaulted m k p st).ports[p] = { m.ports[p] with state := st, faults := sat32 ((m.ports[p]).faults + 1) } := by
  unfold portFaulted
  rw [modCore_ports, journal_ports, modPort_get, if_pos rfl, count_ports]

@[simp] theorem portFaulted_sch : (portFaulted m k p st).sch = m.sch := by simp [portFaulted]

theorem portFaulted_servingCores (first : (m.cores[k]).portFaultAt = []) (q : Fin 128) :
    servingCores (portFaulted m k p st) q = servingCores m q := by
  refine servingCores_congr (by simp [portFaulted]) (fun j => ?_) q
  rw [portFaulted_core first]
  split
  · rename_i same
    rw [same]
    rfl
  · rfl

/-- A third port within a second is a core fault, else the field ends with its owner's work (R111, R114). -/
theorem portFail_eq (m : Main) (k : Fin 16) (f : FieldRec) (st : Nat) : portFail m k f st =
    if 3 ≤ ((portFaulted m k f.port st).cores[k]).portFaultAt.length then coreFaultBy (portFaulted m k f.port st) k 5
    else evaluate (ownerPortFault (coreRest (endField (portFaulted m k f.port st) k) k) k f st) := rfl

/-- The first failed check of a core, on a burnish field: the field ends, and requests are evaluated. -/
theorem portFail_burnish (own : f.owner = .burnish) (first : (m.cores[k]).portFaultAt = []) :
    portFail m k f st = evaluate (coreRest (endField (portFaulted m k f.port st) k) k) := by
  have few : ¬ 3 ≤ ((portFaulted m k f.port st).cores[k]).portFaultAt.length := by
    rw [portFaulted_core first, if_pos rfl]
    simp
  rw [portFail_eq, if_neg few]
  simp only [ownerPortFault, own]

/-- With no request waiting the port keeps its fault, and the field is gone. -/
theorem portFail_first (h : (m.cores[k]).fld = some f) (own : f.owner = .burnish) (none : m.sch.reqs = [])
    (port : (m.ports[f.port]).disablePend = false) (core : (m.cores[k]).disablePend = false) (first : (m.cores[k]).portFaultAt = [])
    (served : (servingCores m f.port).isEmpty = false) (kind : st = 2 ∨ st = 3) :
    ((portFail m k f st).ports[f.port]).state = st ∧ ((portFail m k f st).ports[f.port]).faults = sat32 ((m.ports[f.port]).faults + 1) ∧
    ((portFail m k f st).cores[k]).fld = Option.none := by
  have faulted := portFaulted_port (m := m) (k := k) (p := f.port) (st := st)
  have same : (portFaulted m k f.port st).cores[k] = { m.cores[k] with portFaultAt := [(f.port, m.now)] } := by
    rw [portFaulted_core first, if_pos rfl]
  have field : ((portFaulted m k f.port st).cores[k]).fld = some f := by rw [same]; exact h
  have serves : (servingCores (portFaulted m k f.port st) f.port).isEmpty = false := by rw [portFaulted_servingCores first]; exact served
  have offPort : ((endField (portFaulted m k f.port st) k).ports[f.port]).service = ((portFaulted m k f.port st).ports[f.port]).service :=
    endField_port field serves (by rw [faulted]; show st ≠ 1; omega) (by rw [faulted]; show st ≠ 4; omega)
  have restPort : ((coreRest (endField (portFaulted m k f.port st) k) k).ports[f.port]).service = ((portFaulted m k f.port st).ports[f.port]).service := by
    rw [coreRest_port, offPort]
    · rw [service_disablePend (endField_service _ k k), same]
      exact core
    · exact (congrArg PortService.disablePend offPort).trans (by rw [faulted]; exact port)
  rw [faulted] at restPort
  have waits : (coreRest (endField (portFaulted m k f.port st) k) k).sch.reqs = [] := by
    rw [coreRest_sch, endField_reqs, portFaulted_sch, none]
  rw [portFail_burnish own first, evaluate_none waits]
  exact ⟨congrArg PortService.state restPort, congrArg PortService.faults restPort, (fieldsShrink_coreRest _ k).keep k (endField_fld _ k)⟩

end PortFault

theorem answers_portCheck_fails {s : State} {k : Fin 16} {f : FieldRec} {z : Nat} {a : Int} (h : (s.m.cores[k]).fld = some f)
    (on : f.closed = true) (own : f.owner = .burnish) (none : s.m.sch.reqs = []) (port : (s.m.ports[f.port]).disablePend = false)
    (core : (s.m.cores[k]).disablePend = false) (first : (s.m.cores[k]).portFaultAt = [])
    (served : (servingCores s.m f.port).isEmpty = false) (fails : checkPort s.m f.port z a ≠ 0) : answers (.portCheck k z a) s fun t =>
      (t.m.ports[f.port]).state = checkPort s.m f.port z a ∧ (t.m.ports[f.port]).faults = sat32 ((s.m.ports[f.port]).faults + 1) ∧
      (t.m.cores[k]).fld = Option.none ∧ mainOnly s t := by
  refine answers_of_onMain (f := fun m => portCheck m k z a) rfl ?_
  rw [portCheck_fails h on (by rw [own]; decide) fails]
  have noted : (checkNoted s.m f.port z a).ports[f.port] = { s.m.ports[f.port] with zMag := z, zArg := a } := by
    unfold checkNoted
    rw [modPort_get, if_pos rfl]
  have port' : ((checkNoted s.m f.port z a).ports[f.port]).disablePend = false := by rw [noted]; exact port
  obtain ⟨state, faults, field⟩ := portFail_first (m := checkNoted s.m f.port z a) (k := k) (st := checkPort s.m f.port z a) h own none port'
    core first served ((checkPort_open_or_short s.m f.port z a).resolve_left fails)
  rw [noted] at faults
  exact ⟨state, faults, field, mainOnly_m ..⟩

/-! ## The level reached (R102, R104) -/

theorem poolOnly_onceASecond (m : Main) (key : Nat) : poolOnly m (onceASecond m key).2 := by
  unfold onceASecond
  split
  · split
    · exact poolOnly_refl m
    · rfl
  · rfl

/-- A field at 95 % is recorded with its level, told, and opens the gaps that waited for it. -/
theorem fieldAt95_eq {m : Main} {k : Fin 16} {f : FieldRec} (level : Nat) (h : (m.cores[k]).fld = some f) (on : f.closed = true)
    (ramps : f.at95 = false) : ∃ reached told : Main, readerOnly m reached ∧ (reached.cores[k]).levelNow = min level f.level ∧
      poolOnly reached told ∧ fieldAt95 m k level = evaluate (releaseGaps (sendField told f.port true f)) := by
  unfold fieldAt95
  split
  · rename_i none
    rw [h] at none
    cases none
  · rename_i f' h'
    obtain rfl : f = f' := Option.some.inj (h.symm.trans h')
    rw [if_neg (by simp [on, ramps])]
    extract_lets lv reached once told
    refine ⟨reached, told, rfl, ?level, ?tells, rfl⟩
    case level =>
      simp only [reached]
      rw [modCore_get, if_pos rfl]
    case tells =>
      have warned : poolOnly reached once.2 := poolOnly_trans (poolOnly_count ..) (poolOnly_onceASecond ..)
      simp only [told]
      split
      · split
        · exact poolOnly_trans warned (poolOnly_journal ..)
        · exact warned
      · exact poolOnly_refl _

theorem answers_fieldAt95 {s : State} {k : Fin 16} {f : FieldRec} (level : Nat) (h : (s.m.cores[k]).fld = some f) (on : f.closed = true)
    (ramps : f.at95 = false) : answers (.fieldAt95 k level) s fun t =>
      (t.m.cores[k]).levelNow = min level f.level ∧ mainOnly s t ∧ readerOnly s.m t.m := by
  obtain ⟨reached, told, reader, levelNow, tells, e⟩ := fieldAt95_eq level h on ramps
  have stands : (evaluate (releaseGaps (sendField told f.port true f))).standing = reached.standing := by
    rw [evaluate_standing, releaseGaps_standing, sendField_standing, standing_of_pool tells]
  refine answers_of_onMain (f := fun m => fieldAt95 m k level) rfl ?_
  rw [e]
  exact ⟨(congrArg CoreReadout.levelNow (standing_readout stands k)).trans levelNow, mainOnly_m ..,
    readerOnly_trans (readerOnly_trans (readerOnly_trans (readerOnly_trans reader (readerOnly_of_pool tells)) (readerOnly_sendField ..))
      (readerOnly_releaseGaps _)) (readerOnly_evaluate _)⟩

/-! ## Trips and the end of a field (R103, R106, R133) -/

theorem answers_driverTrip_open {s : State} {k : Fin 16} (serves : (s.m.cores[k]).state = 0) (stays : (s.m.cores[k]).disablePend = false) :
    answers (.driverTrip k true) s fun t =>
      (t.m.cores[k]).state = 1 ∧ (t.m.cores[k]).faultCause = 6 ∧ (t.m.cores[k]).faults = sat32 ((s.m.cores[k]).faults + 1) ∧ mainOnly s t := by
  refine answers_of_onMain (f := fun m => driverTrip m k true) rfl ?_
  have service := coreFault_service (m := count s.m 0x7030 0x03) (k := k) 6 (by rw [count_cores]; exact stays)
  rw [count_cores, serves] at service
  exact ⟨congrArg CoreService.state service, congrArg CoreService.faultCause service, congrArg CoreService.faults service, mainOnly_m ..⟩

section Off

variable {m : Main} {k : Fin 16} {f : FieldRec} {v : FV}

/-- A field ordered off goes off in a gap of its own port and of every coupled one. -/
theorem tryOff_gap (h : (m.cores[k]).fld = some f) (hv : fieldView m k = some v) (on : f.closed = true) (ordered : (m.cores[k]).pendOff = true)
    (gap : (m.cores[k]).busy = false) (free : changeBlocked m v = false) : tryOff m k = pumpRetest (releaseGaps (fieldOff m k)) := by
  simp only [tryOff, h, hv, offOrdered, on, ordered, gap, free, Bool.true_or, Bool.not_true, Bool.false_eq_true, if_false]

theorem readerOnly_pumpRetest (m : Main) : readerOnly m (pumpRetest m) := by
  unfold pumpRetest
  split
  · exact readerOnly_refl m
  · split
    · exact readerOnly_trans (readerOnly_addReq ..) (readerOnly_evaluate _)
    · exact readerOnly_refl m

/-- The field is gone from the core's report, its time is added, and nothing outside the reader has changed. -/
theorem tryOff_reports (h : (m.cores[k]).fld = some f) (hv : fieldView m k = some v) (on : f.closed = true)
    (ordered : (m.cores[k]).pendOff = true) (gap : (m.cores[k]).busy = false) (free : changeBlocked m v = false) :
    ((tryOff m k).cores[k]).readout = ⟨none, 0, (m.cores[k]).fieldTicks + (m.now - f.since)⟩ ∧ readerOnly m (tryOff m k) := by
  rw [tryOff_gap h hv on ordered gap free]
  constructor
  · rw [standing_readout (pumpRetest_standing _), standing_readout (releaseGaps_standing _), fieldOff_readout h, on, if_pos rfl]
  · exact readerOnly_trans (readerOnly_trans (readerOnly_fieldOff ..) (readerOnly_releaseGaps _)) (readerOnly_pumpRetest _)

end Off

/-! ## Changes that wait (R134, R135) -/

theorem fieldChange_on {m : Main} {k : Fin 16} {f : FieldRec} (b : Bool) (h : (m.cores[k]).fld = some f) (on : f.closed = true)
    (stays : (m.cores[k]).pendOff = false) : fieldChange m k b = m := by
  simp only [fieldChange, h, on, stays, Bool.false_eq_true, if_false, if_true]

theorem fieldChange_ordered {m : Main} {k : Fin 16} (b : Bool) (ordered : (m.cores[k]).pendOff = true) : fieldChange m k b = tryOff m k := by
  simp only [fieldChange, ordered, if_true]

/-- A hold that has lasted its time ends, unless the engine holds to the end of the handle window. -/
theorem gapHoldExpiry_ends {m : Main} {k : Fin 16} (holds : (m.cores[k]).gapHold = true)
    (short : heldLong m k = false ∨ ((m.cores[k]).next.map (·.timed)) ≠ some true) :
    gapHoldExpiry m k = modCore (count m 0x7040 0x07) k fun c => { c with gapHold := false } := by
  have ends : (heldLong m k && ((m.cores[k]).next.map (·.timed)) == some true) = false := by
    simpa only [Bool.and_eq_false_iff, beq_eq_false_iff_ne] using short
  simp only [gapHoldExpiry, holds, ends, Bool.not_true, Bool.or_self, Bool.false_eq_true, if_false]

theorem gapHoldExpiry_long {m : Main} {k : Fin 16} (long : heldLong m k = true) (timed : ((m.cores[k]).next.map (·.timed)) = some true) :
    gapHoldExpiry m k = m := by
  simp only [gapHoldExpiry, long, timed, BEq.rfl, Bool.and_self, Bool.or_true, if_true]

theorem changeWaitExpiry_waits {m : Main} {k : Fin 16} (waits : (m.cores[k]).pendChange ≠ none) :
    changeWaitExpiry m k = modCore m k fun c => { c with changeHold := true } := by
  simp only [changeWaitExpiry, Option.isSome_iff_ne_none.mpr waits, if_true]

/-- Settles O21: the switch by its four outcomes, the check by its two, the end of a field by what stands after it. -/
theorem fieldCourse : Obligations.FieldCourse := by
  refine ⟨?closes, ?waits, ?outside, ?interlock, ?passes, ?fails, ?level, ?trip, ?off, ?change, ?on, ?gapEnds, ?gapLong, ?held⟩
  case closes => exact fun s k f v h hv granted inside gap => answers_portSwitch_closes h hv granted inside gap
  case waits => exact fun s k f v h hv granted inside busy first => exec_portSwitch_waits h hv granted inside busy first
  case outside => exact fun s k f b h granted outside => answers_portSwitch_outside b h granted outside
  case interlock => exact fun s k f h granted inside => answers_portSwitch_interlock h granted inside
  case passes => exact fun s k f z a h on own passes => answers_portCheck_passes h on own passes
  case fails => exact fun s k f z a h on own none port core first served fails => answers_portCheck_fails h on own none port core first served fails
  case level => exact fun s k f level h on ramps => answers_fieldAt95 level h on ramps
  case trip => exact fun s k serves stays => answers_driverTrip_open serves stays
  case off =>
    intro s k f v h hv on ordered gap free _
    obtain ⟨readout, reach⟩ := tryOff_reports h hv on ordered gap free
    exact answers_of_onMain (f := fun m => tryOff m k) rfl ⟨congrArg CoreReadout.portNow readout, congrArg CoreReadout.levelNow readout,
      congrArg CoreReadout.fieldTicks readout, mainOnly_m .., reach⟩
  case change =>
    intro s k f v b h hv on ordered gap free _
    obtain ⟨readout, reach⟩ := tryOff_reports h hv on ordered gap free
    refine answers_of_onMain (f := fun m => fieldChange m k b) rfl ?_
    rw [fieldChange_ordered b ordered]
    exact ⟨congrArg CoreReadout.portNow readout, congrArg CoreReadout.levelNow readout, mainOnly_m .., reach⟩
  case on => exact fun s k f b h on stays => exec_of_onMain (f := fun m => fieldChange m k b) rfl (fieldChange_on b h on stays)
  case gapEnds => exact fun s k holds short => exec_of_onMain (f := fun m => gapHoldExpiry m k) rfl (gapHoldExpiry_ends holds short)
  case gapLong => exact fun s k long timed => exec_of_onMain (f := fun m => gapHoldExpiry m k) rfl (gapHoldExpiry_long long timed)
  case held => exact fun s k waits => exec_of_onMain (f := fun m => changeWaitExpiry m k) rfl (changeWaitExpiry_waits waits)

end Sys2Proof.Machine
end

section
/-!
Proofs of the statement on the service of ports and cores (R112, R113, R116, R563).
-/

namespace Sys2Proof.Machine

/-! ## Settings -/

/-- A setting that is written is read back. -/
theorem cfgN_cfgSet_same (m : Main) (idx sub v : Nat) : cfgN (cfgSet m idx sub v) idx sub = v := by
  simp only [cfgN, cfgSet, mapGet_mapSet_same, Option.getD_some]

theorem cfgN_of_cfg {a b : Main} (h : b.cfg = a.cfg) (idx sub : Nat) : cfgN b idx sub = cfgN a idx sub := by
  unfold cfgN
  rw [h]

/-- A write of the dictionary acts while the controller runs (R30). -/
theorem answers_of_onService {c : Instr} {s : State} {f : Main → Main} {P : State → Prop} (hc : exec c s = onService f s)
    (up : s.m.pw.ctlDown = false) (h : P { s with m := f s.m }) : answers c s P := by
  refine answers_of_onMain hc ?_
  rw [up]
  exact h

theorem exec_of_onService {c : Instr} {s : State} {f : Main → Main} {m : Main} (hc : exec c s = onService f s)
    (up : s.m.pw.ctlDown = false) (h : f s.m = m) : exec c s = .next { s with m := m } := by
  refine exec_of_onMain hc ?_
  rw [up]
  exact h

/-- What a write leaves as it is stays so whether the controller runs or not. -/
theorem exec_onService_same {c : Instr} {s : State} {f : Main → Main} (hc : exec c s = onService f s) (h : f s.m = s.m) :
    exec c s = .next s := by
  refine exec_of_onMain hc ?_
  rw [h, ite_self]

/-! ## Ports (R112, R113) -/

section Ports

variable {m : Main} {p : Fin 128}

theorem retestTimer_due (faulted : (m.ports[p]).state = 2 ∨ (m.ports[p]).state = 3) (timed : (m.ports[p]).retestEvery ≠ 0) :
    retestTimer m p = pumpRetest (modPort m p fun x => { x with retestDue := true }) := by
  have due : (((m.ports[p]).state == 2 || (m.ports[p]).state == 3) && (m.ports[p]).retestEvery != 0) = true := by
    simpa only [Bool.and_eq_true, Bool.or_eq_true, beq_iff_eq, bne_iff_ne] using And.intro faulted timed
  simp only [retestTimer, due, if_true]

theorem answers_portRetestTimer {s : State} (faulted : (s.m.ports[p]).state = 2 ∨ (s.m.ports[p]).state = 3)
    (timed : (s.m.ports[p]).retestEvery ≠ 0) : answers (.portRetestTimer p) s fun t =>
      (t.m.ports[p]).retestDue = true ∧ (t.m.ports[p]).state = (s.m.ports[p]).state ∧ mainOnly s t ∧ readerOnly s.m t.m := by
  refine answers_of_onMain (f := fun m => retestTimer m p) rfl ?_
  rw [retestTimer_due faulted timed]
  have port := standing_port (pumpRetest_standing (modPort s.m p fun x => { x with retestDue := true })) p
  rw [modPort_get, if_pos rfl] at port
  exact ⟨congrArg PortService.retestDue port, congrArg PortService.state port, mainOnly_m ..,
    readerOnly_trans (readerOnly_modPort ..) (readerOnly_pumpRetest _)⟩

/-- A port without a stitch is DISABLED at once. -/
theorem portEnable_disables (main : m.pw.mode.isMain = true) (idle : (m.ports[p]).state = 0)
    (free : anyCtx m (fun c => (c.st == .run || c.st == .pause) && (c.job.map (·.port)) == some p) = false) :
    portEnable m p false =
      evaluate (modPort (cfgSet m (0x2200 + p.val) 0x02 0) p fun x => { x with state := 5, disablePend := false }) := by
  have used : (((cfgSet m (0x2200 + p.val) 0x02 0).ports[p]).state == 1 || anyCtx (cfgSet m (0x2200 + p.val) 0x02 0) fun c =>
      (c.st == .run || c.st == .pause) && (c.job.map (·.port)) == some p) = false := by
    rw [cfgSet_ports, idle]
    exact free
  simp only [portEnable, main, bitN, used, Bool.not_true, Bool.not_false, Bool.false_eq_true, if_false, if_true]

/-- An ACTIVE port is disabled with the end of its stitch. -/
theorem portEnable_waits (main : m.pw.mode.isMain = true) (active : (m.ports[p]).state = 1) : portEnable m p false =
    endIdleFields (modPort (cfgSet m (0x2200 + p.val) 0x02 0) p fun x => { x with disablePend := true }) := by
  have active' : ((cfgSet m (0x2200 + p.val) 0x02 0).ports[p]).state = 1 := active
  simp only [portEnable, main, bitN, active', BEq.rfl, Bool.true_or, Bool.not_true, Bool.not_false, Bool.false_eq_true, if_false, if_true]

/-- One core's idle session ends for a disable that waits (R112, R116, R259). -/
theorem endIdleFields_eq (m : Main) : ∃ f, endIdleFields m = forEach (allFin 16) m f ∧ ∀ x k, f x k = x ∨
    ∃ r, (x.cores[k]).fld = some r ∧ r.idle = true ∧ f x k = dropSession (orderOff x k) r.port := by
  refine ⟨_, rfl, fun x k => ?_⟩
  split
  · rename_i r field
    split
    · rename_i due
      exact .inr ⟨r, field, (Bool.and_eq_true_iff.mp due).1, rfl⟩
    · exact .inl rfl
  · exact .inl rfl

theorem endIdleFields_pw (m : Main) : (endIdleFields m).pw = m.pw := by
  obtain ⟨f, e, steps⟩ := endIdleFields_eq m
  rw [e]
  refine forEach_keeps Main.pw f (fun x k => ?_) _ m
  rcases steps x k with same | ⟨r, -, -, ends⟩
  · rw [same]
  · rw [ends]
    unfold dropSession
    split <;> simp [orderOff]

theorem forEach_same {α : Type} {f : Main → α → Main} (h : ∀ a, f m a = m) (l : List α) : forEach l m f = m := by
  induction l with
  | nil => rw [forEach_nil]
  | cons a rest ih => rw [forEach_cons, h, ih]

/-- Without an idle session no field ends for a disable. -/
theorem endIdleFields_none (h : ∀ k : Fin 16, ((m.cores[k]).fld.map (·.idle)) ≠ some true) : endIdleFields m = m := by
  obtain ⟨f, e, steps⟩ := endIdleFields_eq m
  rw [e]
  refine forEach_same (fun k => (steps m k).resolve_right ?_) _
  rintro ⟨r, field, idle, -⟩
  exact h k (by rw [field, Option.map_some, idle])

theorem answers_portEnable_disables {s : State} (main : s.m.pw.mode.isMain = true) (up : s.m.pw.ctlDown = false)
    (idle : (s.m.ports[p]).state = 0)
    (free : anyCtx s.m (fun c => (c.st == .run || c.st == .pause) && (c.job.map (·.port)) == some p) = false) :
    answers (.portEnableWrite p false) s fun t =>
      (t.m.ports[p]).state = 5 ∧ cfgN t.m (0x2200 + p.val) 0x02 = 0 ∧ mainOnly s t ∧ t.m.pw.mode = s.m.pw.mode := by
  refine answers_of_onService (f := fun m => portEnable m p false) rfl up ?_
  rw [portEnable_disables main idle free]
  have port := standing_port (evaluate_standing (modPort (cfgSet s.m (0x2200 + p.val) 0x02 0) p fun x => { x with state := 5, disablePend := false })) p
  rw [modPort_get, if_pos rfl] at port
  exact ⟨congrArg PortService.state port, (cfgN_of_cfg (evaluate_cfg _) ..).trans (cfgN_cfgSet_same s.m ..), mainOnly_m .., evaluate_mode _⟩

theorem answers_portEnable_waits {s : State} (main : s.m.pw.mode.isMain = true) (up : s.m.pw.ctlDown = false)
    (active : (s.m.ports[p]).state = 1) : answers (.portEnableWrite p false) s fun t =>
      (t.m.ports[p]).disablePend = true ∧ (t.m.ports[p]).state = 1 ∧ cfgN t.m (0x2200 + p.val) 0x02 = 0 ∧ mainOnly s t ∧ t.m.pw = s.m.pw := by
  refine answers_of_onService (f := fun m => portEnable m p false) rfl up ?_
  rw [portEnable_waits main active]
  have port := standing_port (endIdleFields_standing (modPort (cfgSet s.m (0x2200 + p.val) 0x02 0) p fun x => { x with disablePend := true })) p
  rw [modPort_get, if_pos rfl] at port
  exact ⟨congrArg PortService.disablePend port, (congrArg PortService.state port).trans active,
    (cfgN_of_cfg (readerOnly_cfg_eq (readerOnly_endIdleFields _)) ..).trans (cfgN_cfgSet_same s.m ..), mainOnly_m .., endIdleFields_pw _⟩

theorem exec_portEnable_waits {s : State} (main : s.m.pw.mode.isMain = true) (up : s.m.pw.ctlDown = false)
    (active : (s.m.ports[p]).state = 1) (busy : ∀ k : Fin 16, ((s.m.cores[k]).fld.map (·.idle)) ≠ some true) :
    exec (.portEnableWrite p false) s =
      .next { s with m := modPort (cfgSet s.m (0x2200 + p.val) 0x02 0) p fun x => { x with disablePend := true } } := by
  refine exec_of_onService (f := fun m => portEnable m p false) rfl up ?_
  rw [portEnable_waits main active]
  exact endIdleFields_none busy

theorem portEnable_other (v : Bool) (other : m.pw.mode.isMain = false) : portEnable m p v = m := by
  simp only [portEnable, other, Bool.not_false, if_true]

end Ports

/-! ## Cores (R114, R116) -/

section Cores

variable {s : State} {k : Fin 16}

theorem answers_coreFault {c : Fin 7} {st : Nat} (cause : c.val ≠ 0) (state : (s.m.cores[k]).state = st)
    (stays : (s.m.cores[k]).disablePend = false) : answers (.coreFault k c) s fun t =>
      (t.m.cores[k]).state = faultState st ∧ (t.m.cores[k]).faultCause = c.val ∧
      (t.m.cores[k]).faults = sat32 ((s.m.cores[k]).faults + 1) ∧ mainOnly s t := by
  have service := coreFaultBy_service cause stays
  rw [state] at service
  exact answers_of_onMain (f := fun m => coreFaultBy m k c.val) rfl
    ⟨congrArg CoreService.state service, congrArg CoreService.faultCause service, congrArg CoreService.faults service, mainOnly_m ..⟩

@[simp] theorem parkReached_cores (m : Main) (k : Fin 16) : (parkReached m k).cores = m.cores := by
  unfold parkReached
  refine forEach_keeps Main.cores _ (fun x p => ?_) _ m
  split <;> rfl

/-- In SELFTEST the matrix is open (R116). -/
theorem enterSelftest_core (m : Main) (k : Fin 16) : (enterSelftest m k).cores[k] =
    { m.cores[k] with state := 2, disablePend := false, holdoffDone := false, portNow := none } := by
  unfold enterSelftest
  rw [parkReached_cores, modCore_get, if_pos rfl]

theorem coreSelftest_main {m : Main} (main : m.pw.mode.isMain = true) (faulted : (m.cores[k]).state = 1) :
    coreSelftest m k = enterSelftest m k := by
  simp only [coreSelftest, main, faulted, if_true]

theorem coreSelftest_other {m : Main} (other : m.pw.mode.isMain = false) (faulted : (m.cores[k]).state = 1) :
    coreSelftest m k = modCore m k fun c => { c with holdoffDone := true } := by
  simp only [coreSelftest, other, faulted, Bool.false_eq_true, if_false, if_true]

/-- A self-test that ends: the core's new state is told, the ports follow it, and requests are evaluated. -/
theorem coreSelftestDone_ends {m : Main} (pass : Bool) (tests : (m.cores[k]).state = 2) : coreSelftestDone m k pass =
    pumpRetest (evaluate (updateReach (unitState (modCore m k fun c => { c with state := if pass then 3 else 4 }) k.val (if pass then 3 else 4)))) := by
  simp only [coreSelftestDone, tests, if_true]

theorem poolOnly_unitState (m : Main) (u st : Nat) : poolOnly m (unitState m u st) := poolOnly_journal ..

theorem answers_coreSelftestDone (pass : Bool) (tests : (s.m.cores[k]).state = 2) : answers (.coreSelftestDone k pass) s fun t =>
    (t.m.cores[k]).state = (if pass then 3 else 4) ∧ mainOnly s t ∧ readerOnly s.m t.m := by
  refine answers_of_onMain (f := fun m => coreSelftestDone m k pass) rfl ?_
  rw [coreSelftestDone_ends pass tests]
  have told := poolOnly_unitState (modCore s.m k fun c => { c with state := if pass then 3 else 4 }) k.val (if pass then 3 else 4)
  generalize unitState (modCore s.m k fun c => { c with state := if pass then 3 else 4 }) k.val (if pass then 3 else 4) = x at told ⊢
  have service : ((pumpRetest (evaluate (updateReach x))).cores[k]).service =
      ((modCore s.m k fun c => { c with state := if pass then 3 else 4 }).cores[k]).service := by
    rw [standing_service (pumpRetest_standing _), standing_service (evaluate_standing _), updateReach_cores, poolOnly_cores_eq told]
  rw [modCore_get, if_pos rfl] at service
  exact ⟨congrArg CoreService.state service, mainOnly_m .., readerOnly_trans (readerOnly_trans (readerOnly_trans
    (readerOnly_trans (readerOnly_modCore s.m k _) (readerOnly_of_pool told)) (readerOnly_updateReach x)) (readerOnly_evaluate _)) (readerOnly_pumpRetest _)⟩

theorem coreProbationEnd_serves {m : Main} (probation : (m.cores[k]).state = 3) :
    coreProbationEnd m k = modCore m k fun c => { c with state := 0 } := by
  simp only [coreProbationEnd, probation, if_true]

/-! ### Release and enable by the host (R116, R563) -/

theorem coreRelease_retired {m : Main} (main : m.pw.mode.isMain = true) (retired : (m.cores[k]).state = 4) :
    coreRelease m k 0x5A#8 = unitReleased (enterSelftest m k) k.val := by
  simp only [coreRelease, main, retired, BitVec.ofNat_eq_ofNat, decide_true, Bool.and_self, if_true]

theorem coreRelease_other {m : Main} {v : BitVec 8} (wrong : v ≠ 0x5A#8) : coreRelease m k v = m := by
  simp only [coreRelease, BitVec.ofNat_eq_ofNat, wrong, decide_false, Bool.false_and, Bool.false_eq_true, if_false]

theorem poolOnly_unitReleased (m : Main) (u : Nat) : poolOnly m (unitReleased m u) :=
  poolOnly_trans (poolOnly_count ..) (poolOnly_journal ..)

theorem answers_coreRelease (main : s.m.pw.mode.isMain = true) (up : s.m.pw.ctlDown = false) (retired : (s.m.cores[k]).state = 4) :
    answers (.coreRelease k 0x5A#8) s fun t => (t.m.cores[k]).state = 2 ∧ mainOnly s t ∧ poolOnly (enterSelftest s.m k) t.m := by
  refine answers_of_onService (f := fun m => coreRelease m k 0x5A#8) rfl up ?_
  rw [coreRelease_retired main retired]
  have told := poolOnly_unitReleased (enterSelftest s.m k) k.val
  refine ⟨?_, mainOnly_m .., told⟩
  dsimp only
  rw [poolOnly_cores_eq told, enterSelftest_core]

theorem coreEnable_disabled {m : Main} (main : m.pw.mode.isMain = true) (disabled : (m.cores[k]).state = 5) :
    coreEnable m k true = enterSelftest (cfgSet m (0x2100 + k.val) 0x02 1) k := by
  have disabled' : ((cfgSet m (0x2100 + k.val) 0x02 1).cores[k]).state = 5 := disabled
  simp only [coreEnable, main, bitN, disabled', Bool.not_true, Bool.false_eq_true, if_false, if_true]

theorem coreEnable_other {m : Main} (main : m.pw.mode.isMain = true) (enabled : (m.cores[k]).state ≠ 5) :
    coreEnable m k true = cfgSet m (0x2100 + k.val) 0x02 1 := by
  have enabled' : ((cfgSet m (0x2100 + k.val) 0x02 1).cores[k]).state ≠ 5 := enabled
  simp only [coreEnable, main, bitN, enabled', Bool.not_true, Bool.false_eq_true, if_false, if_true]

/-- The disable of a core is asked for. -/
def coreDisableAsked (m : Main) (k : Fin 16) : Main := modCore (cfgSet m (0x2100 + k.val) 0x02 0) k fun c => { c with disablePend := true }

theorem coreDisableAsked_core (m : Main) (k : Fin 16) : (coreDisableAsked m k).cores[k] = { m.cores[k] with disablePend := true } := by
  unfold coreDisableAsked
  rw [modCore_get, if_pos rfl, cfgSet_cores]

/-- A core that is not RETIRED is disabled once nothing holds it. -/
theorem coreEnable_asks {m : Main} (main : m.pw.mode.isMain = true) (serves : (m.cores[k]).state ≠ 4) :
    coreEnable m k false = evaluate (coreRest (coreDisableAsked m k) k) := by
  have serves' : ((cfgSet m (0x2100 + k.val) 0x02 0).cores[k]).state ≠ 4 := serves
  simp only [coreEnable, main, bitN, serves', Bool.not_true, Bool.false_eq_true, if_false]
  rfl

theorem coreRest_asked_state {m : Main} (noField : (m.cores[k]).fld = none)
    (free : anyCtx m (fun x => (x.st == .run || x.st == .pause) && x.core == some k) = false) :
    ((coreRest (coreDisableAsked m k) k).cores[k]).state = 5 := by
  have core := coreDisableAsked_core m k
  rw [coreRest_disables (m := coreDisableAsked m k) (k := k) (by rw [core]) (by rw [core]; exact noField) free, updateReach_cores, modCore_get, if_pos rfl]

theorem answers_coreEnable_disables (main : s.m.pw.mode.isMain = true) (up : s.m.pw.ctlDown = false) (serves : (s.m.cores[k]).state = 0)
    (noField : (s.m.cores[k]).fld = none) (free : anyCtx s.m (fun x => (x.st == .run || x.st == .pause) && x.core == some k) = false) :
    answers (.coreEnableWrite k false) s fun t =>
      (t.m.cores[k]).state = 5 ∧ cfgN t.m (0x2100 + k.val) 0x02 = 0 ∧ mainOnly s t ∧ t.m.pw.mode = s.m.pw.mode := by
  refine answers_of_onService (f := fun m => coreEnable m k false) rfl up ?_
  rw [coreEnable_asks main (by rw [serves]; decide)]
  have service := standing_service (evaluate_standing (coreRest (coreDisableAsked s.m k) k)) k
  have reach := readerOnly_trans (readerOnly_coreRest (coreDisableAsked s.m k) k) (readerOnly_evaluate _)
  exact ⟨(congrArg CoreService.state service).trans (coreRest_asked_state noField free),
    (cfgN_of_cfg (readerOnly_cfg_eq reach) ..).trans (cfgN_cfgSet_same s.m ..), mainOnly_m .., (readerOnly_mode_eq reach).trans rfl⟩

end Cores

/-- Settles O22: ports by what a disable and a retest ask for, cores by the equation of each command and what stands after it. -/
theorem portAndCoreService : Obligations.PortAndCoreService := by
  refine ⟨?retest, ?disable, ?disableActive, ?disableBusy, ?portOther, ?fault, ?nested, ?selftest, ?holdoff, ?done, ?probation, ?release,
    ?wrongValue, ?enable, ?enabled, ?coreDisable⟩
  case retest => exact fun s p faulted timed => answers_portRetestTimer faulted timed
  case disable => exact fun s p main up idle free => answers_portEnable_disables main up idle free
  case disableActive => exact fun s p main up active => answers_portEnable_waits main up active
  case disableBusy => exact fun s p main up active busy => exec_portEnable_waits main up active busy
  case portOther => exact fun s p other => exec_onService_same (f := fun m => portEnable m p false) rfl (portEnable_other false other)
  case fault => exact fun s k c cause state stays => answers_coreFault cause state stays
  case nested => exact fun s k c cause state stays => answers_mono (answers_coreFault cause state stays) fun _ ⟨retired, _⟩ => retired
  case selftest =>
    intro s k main faulted
    refine ⟨exec_of_onMain (f := fun m => coreSelftest m k) rfl (coreSelftest_main main faulted), ?_⟩
    rw [enterSelftest_core]
    exact ⟨rfl, rfl, rfl⟩
  case holdoff => exact fun s k other faulted => exec_of_onMain (f := fun m => coreSelftest m k) rfl (coreSelftest_other other faulted)
  case done => exact fun s k pass tests _ => answers_coreSelftestDone pass tests
  case probation => exact fun s k probation => exec_of_onMain (f := fun m => coreProbationEnd m k) rfl (coreProbationEnd_serves probation)
  case release => exact fun s k main up retired => answers_coreRelease main up retired
  case wrongValue => exact fun s k v wrong => exec_onService_same (f := fun m => coreRelease m k v) rfl (coreRelease_other wrong)
  case enable => exact fun s k main up disabled => exec_of_onService (f := fun m => coreEnable m k true) rfl up (coreEnable_disabled main disabled)
  case enabled => exact fun s k main up enabled => exec_of_onService (f := fun m => coreEnable m k true) rfl up (coreEnable_other main enabled)
  case coreDisable => exact fun s k main up serves noField free => answers_coreEnable_disables main up serves noField free

end Sys2Proof.Machine
end

section
/-!
Proofs of the statement on a request that nothing stands against: how a scheduler with no field on evaluates its only request (R126–R130, R137).
-/

namespace Sys2Proof.Machine

/-! ## No field is on -/

section NoField

variable {m : Main} (dark : noFields m)
include dark

theorem fieldView_noFields (k : Fin 16) : fieldView m k = none := by
  simp only [fieldView, dark k, Option.map_none]

theorem fieldsF_noFields (edge : m.lace.edge = []) (holding : m.lace.holding = []) : fieldsF m = [] := by
  simp [fieldsF, fieldView_noFields dark, edge, holding]

/-- No port is taken by a field. -/
theorem portTaken_noFields (p : Fin 128) : (allFin 16).any (fun k => ((m.cores[k]).fld.map (·.port)) == some p) = false := by
  simp only [dark _, Option.map_none, Option.none_beq_some, List.any_eq_false, Bool.false_eq_true, not_false_eq_true, implies_true]

/-- No change has waited beside a field (R135). -/
theorem changeHeldAgainst_noFields (v : FV) : changeHeldAgainst m v = false := by
  simp [changeHeldAgainst, fieldView_noFields dark]

end NoField

/-! ## The judgements on a field beside none (R127, R129, R130, R137) -/

/-- A field beside none takes the subcarrier its port would keep (R137). -/
theorem chooseSub_nil {m : Main} {v : FV} (p : Fin 128) (stp : v.stp = true) : chooseSub m [] v p = some (cachedSub8 m p) := by
  simp only [chooseSub, stp, List.filter_nil, List.any_nil, Bool.not_true, Bool.not_false, Bool.false_eq_true, if_false, if_true]

/-- A field beside none has drive phase 0 (R130). -/
theorem choosePhase_nil (m : Main) (v : FV) : choosePhase m [] v = 0 := by
  simp only [choosePhase, List.any_nil, Bool.not_false, Bool.or_true, if_true]

/-- A field leaks into no receiver but those of other fields (R129). -/
theorem leakExceeds_singleton (m : Main) (v : FV) : leakExceeds m [v] = false := by
  simp [leakExceeds, leakAt, Cpx.norm]

theorem noteCause_false (mr : Main × Req) (sub : Nat) : noteCause mr false sub = mr := by
  simp only [noteCause, Bool.false_and, Bool.false_eq_true, if_false]

/-! ## The only request -/

section OnlyRequest

variable {m : Main} {r : Req}

/-- No earlier request has reserved against the only one (R128). -/
theorem reservedAgainst_only (only : m.sch.reqs = [r]) (k : Fin 16) (v : FV) : reservedAgainst m r k v = false := by
  simp [reservedAgainst, only]

theorem putReq_only (only : m.sch.reqs = [r]) : putReq m r = m := by
  simp only [putReq, only, List.map_cons, List.map_nil, if_true]
  rw [← only]

end OnlyRequest

/-- Outside a lace no other device has a claim on a field (R539). -/
theorem claimsLeft_noLace {m : Main} (r : Req) (role : m.lace.role = 0) : claimsLeft m r = some [] := by
  simp [claimsLeft, edgeOwners, role]

/-! ## A burnish request (R126) -/

section Burnish

variable {m : Main} {r : Req}

/-- A burnish request is open while no transition of a main mode waits (R41). -/
theorem classOpen_settled (main : m.pw.mode.isMain = true) (settled : m.pw.pendMode = none) (cls : r.cls = 4) : classOpen m r = true := by
  simp [classOpen, main, settled, cls]

/-- A port allowed on its home core alone has no other, when that serves and starts new work (R96, R116). -/
theorem coresFor_home (owner : r.owner = .burnish) (free : r.pinned = none) (home : cfgN m (0x2200 + r.port.val) 0x04 = 1)
    (serves : (m.cores[homeCore r.port]).state = 0) (stays : (m.cores[homeCore r.port]).disablePend = false) :
    coresFor m r = [homeCore r.port] := by
  have allowed : servingCores m r.port = [homeCore r.port] := by
    simp only [servingCores, allowedCores, home, serving, serves, BEq.rfl, Bool.true_or, List.filter_cons_of_pos, List.filter_nil]
  simp [-Fin.getElem_fin, coresFor, openCores, allowed, free, owner, stays]

/-- The only core of a request is the free one, inside the plan, while a full burnish runs (R83, R186). -/
theorem freeCore_only {k : Fin 16} (cores : coresFor m r = [k]) (dark : (m.cores[k]).fld = none) (inside : planAllows m k r.port r.cls = true)
    (full : m.brn.full = 1) : freeCore m r = some k := by
  simp [-Fin.getElem_fin, freeCore, cores, dark, inside, shareLeft, full]

/-- A burnish request that passes every test before the cores' goes to its free core. -/
theorem evalReq_core {k : Fin 16} (owner : r.owner = .burnish) (main : m.pw.mode.isMain = true) (works : m.sch.state ≠ 1)
    (supply : m.pw.vtxHold = false) (port : (m.ports[r.port]).state < 2) (stays : (m.ports[r.port]).disablePend = false)
    (session : (m.ports[r.port]).session = none) (isOpen : classOpen m r = true) (asks : r.waitBin = false) (dark : noFields m)
    (core : freeCore m r = some k) : evalReq m r = evalCore m r k := by
  have inService : ¬ 2 ≤ (m.ports[r.port]).state := Nat.not_le.mpr port
  simp [-Fin.getElem_fin, evalReq, reqDead, ownerJob, sessionCase, owner, main, works, supply, inService, stays, session, isOpen, asks,
    portTaken_noFields dark, core]

/-- The only request, beside no field and within the governor's limits, is committed with the subcarrier its port would keep and drive
phase 0 (R127, R129, R130, R137). -/
theorem evalCore_commit {k : Fin 16} (only : m.sch.reqs = [r]) (dark : noFields m) (edge : m.lace.edge = []) (holding : m.lace.holding = [])
    (role : m.lace.role = 0) (stp : r.proto = .stp) (governed : governor m (levelNw (ownerLevel m r.owner k r.port)) = 0) :
    evalCore m r k = commit m r k 0 (cachedSub8 m r.port) := by
  have isStp : (r.view m k).stp = true := by simp [Req.view, stp]
  have level : (r.view m k).level.toNat = ownerLevel m r.owner k r.port := Int.toNat_natCast _
  simp [evalCore, fieldsF_noFields dark edge holding, reservedAgainst_only only, changeHeldAgainst_noFields dark, noteCause_false,
    putReq_only only, chooseSub_nil r.port isStp, choosePhase_nil, leakExceeds_singleton, level, governed, claimsLeft_noLace r role]

end Burnish

/-! ## The commit of a grant beside no other field -/

section Commit

variable {m : Main} {v : FV}

/-- A pair of ports is latched with other fields alone (R125). -/
theorem latchPairs_own (own : ∀ j q, fieldView m j = some q → q.g = v.g) : latchPairs m v = m := by
  unfold latchPairs
  refine forEach_same (fun j => ?_) _
  split
  · exact if_pos (own j _ ‹_›)
  · rfl

/-- The DACs of other fields' receivers alone are loaded (R131). -/
theorem loadCoupled_own (own : ∀ j q, fieldView m j = some q → q.g = v.g) : loadCoupled m v = m := by
  unfold loadCoupled
  refine forEach_same (fun j => ?_) _
  split
  · simp [own j _ ‹_›]
  · rfl

/-- The grant of a request beside no other field: no pair to latch, with the thresholds in force. -/
def loneGrant (m : Main) (r : Req) (k : Fin 16) (code : Nat) (sub8 : Bool) : FieldRec :=
  { owner := r.owner, port := r.port, level := ownerLevel m r.owner k r.port, code := code, sub8 := sub8, proto := r.proto, cls := r.cls,
    since := m.now, holdAt := cfgI m 16 0x2300 0x04, staleAt := cfgN m 0x2300 0x0B }

/-- The request of an owner is granted on a core. -/
def loneCommit (m : Main) (r : Req) (k : Fin 16) (code : Nat) (sub8 : Bool) : Main :=
  modCore (withdraw m r.owner) k fun c =>
    { c with fld := some (loneGrant m r k code sub8), pendChange := some m.now, pendOff := false, changeHeld := false, changeHold := false }

variable {r : Req} {k : Fin 16} {code : Nat} {sub8 : Bool}

theorem loneCommit_fld : ((loneCommit m r k code sub8).cores[k]).fld = some (loneGrant m r k code sub8) := by
  unfold loneCommit
  rw [modCore_get, if_pos rfl]

theorem loneCommit_reqs : (loneCommit m r k code sub8).sch.reqs = m.sch.reqs.filter fun x => x.owner != r.owner := rfl

/-- The only field is that of the request's own port. -/
theorem loneCommit_own (dark : noFields m) (j : Fin 16) (q : FV) (h : fieldView (loneCommit m r k code sub8) j = some q) :
    q.g = (r.view m k).g := by
  unfold fieldView loneCommit at h
  rw [modCore_get] at h
  split at h
  · cases h
    rfl
  · simp only [(fieldsShrink_withdraw m r.owner).keep j (dark j), Option.map_none] at h
    cases h

/-- A commit on the home core, with no field on, places the grant and withdraws the request (R126). -/
theorem commit_lone (dark : noFields m) (edge : m.lace.edge = []) (holding : m.lace.holding = []) (claimed : m.lace.claimed = none)
    (owner : r.owner = .burnish) (serves : (m.cores[homeCore r.port]).state = 0) :
    commit m r k code (cachedSub8 m r.port) = loneCommit m r k code (cachedSub8 m r.port) := by
  unfold commit
  extract_lets v counted noted sch granted unclaimed placed begun
  have counted_eq : counted = m := by
    simp only [counted, serving, serves, countIf, BEq.rfl, Bool.true_or, Bool.not_true, Bool.and_false, Bool.false_eq_true, if_false]
  have noted_eq : noted = m := by
    simp only [noted, counted_eq, countIf, bne_self_eq_false, Bool.and_false, Bool.false_eq_true, if_false]
  have granted_eq : granted = withdraw m r.owner := congrArg (withdraw · r.owner) noted_eq
  have unclaimed_eq : unclaimed = withdraw m r.owner := by
    have noClaim : ¬ granted.lace.claimed.map (·.1) = some r.owner := by
      rw [granted_eq, show (withdraw m r.owner).lace.claimed = none from claimed]
      nofun
    simp only [unclaimed, if_neg noClaim, granted_eq]
  have placed_eq : placed = loneCommit m r k code (cachedSub8 m r.port) := by
    simp only [placed, unclaimed_eq, fieldsF_noFields (m := withdraw m r.owner) dark edge holding]
    rfl
  have begun_eq : begun = loneCommit m r k code (cachedSub8 m r.port) := by
    simp only [begun, owner, placed_eq]
  rw [begun_eq, latchPairs_own (loneCommit_own dark), loadCoupled_own (loneCommit_own dark)]

end Commit

/-! ## The request granted (R126) -/

/-- The only request is that of a full burnish for port `p`. -/
def burnishQueued (m : Main) (p : Fin 128) : Main := { m with sch := { m.sch with reqs := [burnishReq m p] } }

theorem grantRequest_burnishQueued {m : Main} {p : Fin 128} (first : m.sch.reqs = []) (full : m.brn.full = 1) :
    grantRequest m .burnish p = evalReq (burnishQueued m p) (burnishReq m p) := by
  simp only [grantRequest, requestOf_fullBurnish p full]
  rw [addReq_first (burnishReq m p) first rfl, evaluate_single rfl]
  rfl

/-- Settles O18: the tests of the evaluation in their order, with one request queued, end in the commit beside no other field. -/
theorem aFreeReaderGrants : Obligations.AFreeReaderGrants := by
  intro s p first works dark role edge holding claimed mode settled supply full port portStays session serves coreStays home inside governed
  have main : s.m.pw.mode.isMain = true := by rw [mode]; rfl
  have core : freeCore (burnishQueued s.m p) (burnishReq s.m p) = some (homeCore p) :=
    freeCore_only (coresFor_home rfl rfl home serves coreStays) (dark _) inside full
  have evaluated : evalReq (burnishQueued s.m p) (burnishReq s.m p) = evalCore (burnishQueued s.m p) (burnishReq s.m p) (homeCore p) :=
    evalReq_core rfl main works supply port portStays session (classOpen_settled main settled rfl) rfl dark core
  have committed : evalCore (burnishQueued s.m p) (burnishReq s.m p) (homeCore p) =
      commit (burnishQueued s.m p) (burnishReq s.m p) (homeCore p) 0 (cachedSub8 (burnishQueued s.m p) p) :=
    evalCore_commit rfl dark edge holding role rfl governed
  have granted : grantRequest s.m .burnish p =
      loneCommit (burnishQueued s.m p) (burnishReq s.m p) (homeCore p) 0 (cachedSub8 (burnishQueued s.m p) p) := by
    rw [grantRequest_burnishQueued first full, evaluated, committed]
    exact commit_lone dark edge holding claimed rfl serves
  have reach := readerOnly_grantRequest s.m .burnish p
  refine answers_of_onMain (f := fun m => grantRequest m .burnish p) rfl ?_
  rw [granted] at reach ⊢
  exact ⟨⟨_, loneCommit_fld, rfl, rfl, rfl, rfl, rfl, rfl⟩, loneCommit_reqs.trans rfl, mainOnly_m .., reach⟩

end Sys2Proof.Machine
end

section
/-!
Proofs of the statement on the estimates of burnish (R175, R180, R182–R184, R186).
-/

namespace Sys2Proof.Machine

/-! ## Estimates (R180, R182, R186) -/

/-- An estimate alone, with no step at its end, waits for the slot boundary if burnish takes it. -/
theorem burnishStep_estimate (m : Main) (r : BurnResult) :
    burnishStep m [r] false = if takesResult m r then addResult m r else m := by
  simp only [burnishStep, forEach_cons, forEach_nil, Bool.false_and, Bool.false_eq_true, if_false]

theorem burnishStep_taken {m : Main} {r : BurnResult} (taken : takesResult m r = true) : burnishStep m [r] false = addResult m r := by
  rw [burnishStep_estimate, if_pos taken]

theorem burnishStep_refused {m : Main} {r : BurnResult} (refused : takesResult m r = false) : burnishStep m [r] false = m := by
  rw [burnishStep_estimate, refused]
  exact if_neg Bool.false_ne_true

/-- The DC offset of a core is taken only while the core carries no field (R175). -/
theorem dcEstimate_dark {m : Main} {k : Fin 16} {i q : Int} (dark : (m.cores[k]).fld = none) (taken : takesResult m (.dcOffset k i q) = true) :
    dcEstimate m k i q = addResult m (.dcOffset k i q) := by
  simp only [dcEstimate, dark, taken, Option.isNone_none, Bool.true_and, if_true]

theorem dcEstimate_lit {m : Main} {k : Fin 16} (i q : Int) (lit : (m.cores[k]).fld ≠ none) : dcEstimate m k i q = m := by
  simp only [dcEstimate, Option.isNone_eq_false_iff.mpr (Option.isSome_iff_ne_none.mpr lit), Bool.false_and, Bool.false_eq_true, if_false]

/-! ## The end of a step of the full programme (R183, R184) -/

/-- The end of a step without an estimate ends the programme at step 8, and otherwise waits for the commit of the step's results. -/
theorem burnishStep_stepEnds {m : Main} (full : m.brn.full = 1) :
    burnishStep m [] true = if m.brn.step = 8 then endFull m else modBrn m fun b => { b with stepDone := true } := by
  simp only [burnishStep, forEach_nil, full, BEq.rfl, Bool.and_self, if_true]

/-- The programme has ended with the ports rated anew: its outcome, its duration and the count of runs (R184). -/
def fullEnded (m : Main) : Main :=
  modBrn (count (forEach (allFin 128) m updateFast) 0x7060 0x02) fun b =>
    { b with full := 2, step := 0, stepDone := false, duration := (m.now - m.brn.startAt) / tickMs }

/-- The journal record of the end (R184). -/
def fullEndTold (m : Main) : Main := journal (fullEnded m) 0x38 0x4001 [(m.now - m.brn.startAt) / tickMs]

/-- With no retest to wait for, step 8 ends the programme; the results go to the flash if [2800:0A] asks for it (R189). -/
theorem endFull_noRetest {m : Main} (ready : (allFin 128).any (retestReady m) = false)
    (carried : (allFin 16).any (fun k => carries m k .retest) = false) :
    endFull m = if cfgB (fullEndTold m) 0x2800 0x0A then
        modBrn (fullEndTold m) fun b =>
          { b with flash := flashRecord (fullEndTold m) :: b.flash.filter fun x => x.sector != (flashRecord (fullEndTold m)).sector }
      else fullEndTold m := by
  simp only [endFull, ready, carried, Bool.or_self, Bool.false_eq_true, if_false]
  rfl

/-- The outcome of the programme stands whether the results go to the flash or not. -/
theorem endFull_outcome {m : Main} (ready : (allFin 128).any (retestReady m) = false)
    (carried : (allFin 16).any (fun k => carries m k .retest) = false) :
    (endFull m).brn.full = 2 ∧ (endFull m).brn.step = 0 ∧ (endFull m).brn.duration = (m.now - m.brn.startAt) / tickMs := by
  have told : (fullEndTold m).brn = (fullEnded m).brn := journal_brn ..
  rw [endFull_noRetest ready carried]
  split
  · rw [modBrn_brn, told]
    exact ⟨rfl, rfl, rfl⟩
  · rw [told]
    exact ⟨rfl, rfl, rfl⟩

/-! ## The statement -/

/-- Settles O24: an estimate by whether burnish takes it, the end of a step by whether it is step 8. -/
theorem burnishEstimates : Obligations.BurnishEstimates := by
  refine ⟨?taken, ?refused, ?stepEnds, ?programmeEnds, ?dark, ?lit⟩
  case taken => exact fun s r up taken => exec_of_onService (f := fun m => burnishStep m [r] false) rfl up (burnishStep_taken taken)
  case refused => exact fun s r refused => exec_onService_same (f := fun m => burnishStep m [r] false) rfl (burnishStep_refused refused)
  case stepEnds =>
    exact fun s up full other => exec_of_onService (f := fun m => burnishStep m [] true) rfl up
      ((burnishStep_stepEnds full).trans (if_neg other))
  case programmeEnds =>
    intro s up full last ready carried
    refine answers_of_onService (f := fun m => burnishStep m [] true) rfl up ?_
    obtain ⟨outcome, step, duration⟩ := endFull_outcome ready carried
    rw [burnishStep_stepEnds full, if_pos last]
    exact ⟨outcome, step, duration, mainOnly_m ..⟩
  case dark => exact fun s k i q dark taken => exec_of_onMain (f := fun m => dcEstimate m k i q) rfl (dcEstimate_dark dark taken)
  case lit => exact fun s k i q lit => exec_of_onMain (f := fun m => dcEstimate m k i q) rfl (dcEstimate_lit i q lit)

end Sys2Proof.Machine
end

section
/-!
The first frame of an STP stitch (R233, R281): the statement on the frames of a stitch fails where its settings grant SEEK no round.
-/

namespace Sys2Proof.Machine

/-- The field of a SEEK stitch on core 0. -/
def seekField : FieldRec := { owner := .ctx 0 0, port := 0, level := 40, closed := true, at95 := true }

/-- The descriptor of a SEEK of port 0 at `Q` 0. -/
def seekJob : Job := { w0 := 0x20000000#32 }

/-- A SEEK stitch that begins on its field in TRANSACT; in the settings of its start [2500:02], the number of rounds, is 0. -/
def roundlessSeek : State :=
  { m := modCtx (modCore (modPw {} fun p => { p with mode := .transact, ctlOn := true, fwRunning := true }) 0 fun c => { c with fld := some seekField })
      0 0 fun x => { x with st := .run, job := some seekJob, core := some 0, started := true, sc := { cfg := some [(ekey 0x2500 0x02, 0)] } } }

theorem roundlessSeek_runs : stitchRuns roundlessSeek.m 0 0 seekJob 0 seekField := by
  constructor <;> decide +kernel

theorem roundlessSeek_mayGoOn : mayGoOn roundlessSeek.m 0 0 0 seekField := by
  constructor <;> decide +kernel

/-- The turn of the stitch ends it where its first frame should have gone out: its context runs no more, and the SEEK counts as one whose
rounds are used up (R233, [7080:03]). -/
theorem roundlessSeek_ends : (ctxOf (serve roundlessSeek.m roundlessSeek.keys.fobKeys 0 0 false runSeek) 0 0).st = .idle ∧
    counter (serve roundlessSeek.m roundlessSeek.keys.fobKeys 0 0 false runSeek) 0x7080 0x03 = 1 := by
  decide +kernel

theorem exec_roundlessSeek : exec (stitchCommand seekJob.opcode 0 0 false) roundlessSeek =
    .next { roundlessSeek with m := serve roundlessSeek.m roundlessSeek.keys.fobKeys 0 0 false runSeek } := by
  have op : seekJob.opcode = 0 := by decide +kernel
  have asked : ((ctxOf roundlessSeek.m 0 0).job.map (·.opcode)) = some 0 := by decide +kernel
  rw [op]
  exact congrArg (fun m => Host.Outcome.next { roundlessSeek with m := m }) (if_pos asked)

/-- Refutes O29: the first clause asks nothing of the settings of the stitch. SEEK runs as many rounds as they say (R233), and with none of
them it ends `COLLISION` without a frame. [2500:02] takes 1 to 16, so that no write of the dictionary leads to this state; the statement
is about every state. -/
theorem not_stpFrames : ¬ Obligations.StpFrames := by
  rintro ⟨first, -⟩
  obtain ⟨t, run, -, runs, -⟩ :=
    first roundlessSeek 0 0 seekJob 0 seekField roundlessSeek_runs roundlessSeek_mayGoOn (by decide +kernel)
  have result := Host.Outcome.next.inj (exec_roundlessSeek.symm.trans run)
  rw [← result] at runs
  exact absurd (roundlessSeek_ends.1.symm.trans runs) (by decide)

end Sys2Proof.Machine
end

section
/-!
Frames at the target (R198–R202, R223): what a whole frame with a good check holds at each place, and what the target makes of one of the
port tag that it is bound to.
-/

namespace Sys2Proof.Machine

/-! ## Bytes of a number -/

@[simp] theorem leBytes_length (n v : Nat) : (leBytes n v).length = n := by
  simp [leBytes]

theorem leBytes_succ (n v : Nat) : leBytes (n + 1) v = byte v :: leBytes n (v / 256) := by
  have shift (i : Nat) : v / 2 ^ (8 * (i + 1)) = v / 256 / 2 ^ (8 * i) := by
    rw [Nat.div_div_eq_div_mul, Nat.mul_succ, Nat.pow_add, Nat.mul_comm]
  simp [leBytes, List.range_succ_eq_map, Function.comp_def, shift]

/-- Reading bytes back gives the number, as far as they hold it (R6). -/
theorem leNat_leBytes (n v : Nat) : leNat (leBytes n v) = v % 256 ^ n := by
  induction n generalizing v with
  | zero => simp [leBytes, leNat, Nat.mod_one]
  | succ n ih =>
    rw [leBytes_succ, leNat, ih, Nat.pow_succ', Nat.mod_mul]
    rfl

theorem ofNat_leNat_leBytes (x : BitVec 16) : BitVec.ofNat 16 (leNat (leBytes 2 x.toNat)) = x := by
  apply BitVec.eq_of_toNat_eq
  rw [leNat_leBytes, BitVec.toNat_ofNat]
  omega

/-! ## A frame as spoken -/

section Spoken

variable {f : StpRx} {tag : BitVec 7} {claim : Bool} {code : Nat} {params : List Byte}

/-- The byte of the port tag and the claim flag (R201). -/
def tagByte (tag : BitVec 7) (claim : Bool) : Byte := byte (place 0 7 tag.toNat + place 7 1 (bitN claim))

/-- A frame is what its check is over, and the check (R200, R201). -/
theorem spoken_bytes (h : spoken f tag claim code params) :
    f.bytes = (tagByte tag claim :: byte code :: params) ++ stpCrc (tagByte tag claim :: byte code :: params) := h.2.2.2

theorem spoken_length (h : spoken f tag claim code params) : f.bytes.length = params.length + 4 := by
  rw [spoken_bytes h]
  simp [stpCrc]

/-- A frame as spoken is valid (R202). -/
theorem spoken_valid (h : spoken f tag claim code params) : f.valid = true := by
  obtain ⟨whole, -, short, -⟩ := id h
  have length := spoken_length h
  have checked : f.bytes.length - 2 = (tagByte tag claim :: byte code :: params).length := by simp [length]
  have tail : f.bytes.drop (f.bytes.length - 2) = stpCrc (tagByte tag claim :: byte code :: params) := by
    rw [checked, spoken_bytes h, List.drop_left]
  have front : f.bytes.take (f.bytes.length - 2) = tagByte tag claim :: byte code :: params := by
    rw [checked, spoken_bytes h, List.take_left]
  unfold StpRx.valid
  dsimp only
  rw [tail, front, whole, length]
  simp only [BEq.rfl, Bool.and_true, Bool.true_and, Bool.and_eq_true, decide_eq_true_eq]
  omega

theorem spoken_cmd (h : spoken f tag claim code params) (small : code < 256) : f.cmd = code := by
  rw [StpRx.cmd, spoken_bytes h]
  exact Nat.mod_eq_of_lt small

/-- The place of a byte of `PARAMS` in the frame (R227). -/
theorem spoken_byte (h : spoken f tag claim code params) {i : Nat} (inside : i < params.length) : f.byte_ (i + 2) = nth params i 0 := by
  rw [StpRx.byte_, spoken_bytes h]
  simp [nth, List.getElem?_append_left inside]

/-- The place of a run of bytes of `PARAMS` in the frame (R227). -/
theorem spoken_part {before part after : List Byte} (h : spoken f tag claim code (before ++ part ++ after)) :
    f.part (before.length + 2) part.length = part := by
  rw [StpRx.part, spoken_bytes h]
  simp only [List.cons_append, List.drop_succ_cons, List.append_assoc, List.drop_left, List.take_left]

theorem spoken_tag (h : spoken f tag claim code params) : (nth f.bytes 0 0).toNat = tag.toNat + 128 * bitN claim := by
  have narrow := tag.isLt
  have flag : bitN claim < 2 := by cases claim <;> decide
  rw [spoken_bytes h]
  simp only [nth, tagByte, byte, place, List.cons_append, List.getElem?_cons_zero, Option.getD_some, BitVec.toNat_ofNat]
  omega

/-- The header of a frame (R201). -/
theorem spoken_head (h : spoken f tag claim code params) : f.head = { tag := tag, claim := claim, level := f.level } := by
  have narrow := tag.isLt
  have byte := spoken_tag h
  have tagged : BitVec.ofNat 7 (nth f.bytes 0 0).toNat = tag := by
    apply BitVec.eq_of_toNat_eq
    rw [BitVec.toNat_ofNat, byte]
    omega
  have claims : bitAt (nth f.bytes 0 0).toNat 7 = claim := by
    rw [bitAt, byte]
    cases claim <;> simp [bitN] <;> omega
  rw [StpRx.head, tagged, claims]

end Spoken
/-! ## What reaches the target (R198, R202, R207, R355) -/

theorem depthHeard_deep {m : Main} {d : Nat} (deep : 120 ≤ d) : depthHeard m d = (true, m) := if_pos deep

/-- An access of the field waits for nothing where no append of a wired port runs (R367). -/
theorem fieldFirst_free {s : State} (free : noAppendRuns s.lgr) : fieldFirst s = s := by
  unfold fieldFirst
  split
  case h_1 a runs =>
    refine if_neg ?_
    rcases free a runs with port | setting
    · simp [port]
    · simp [setting]
  case h_2 => rfl

section Heard

variable {s : State} {f : StpRx} {mine claims : Bool} {go : Nat → State → State} {rate : Nat}

theorem tgtFrame_unheard (deep : 120 ≤ f.depth) (rateless : rxRate f.first = none) : tgtFrame s f mine claims go = s := by
  unfold tgtFrame
  rw [depthHeard_deep deep, rateless]
  exact ite_self s

/-- A valid frame of another command is left to it. -/
theorem tgtFrame_other (other : mine = false) (valid : f.valid = true) : tgtFrame s f mine claims go = s := by
  unfold tgtFrame
  exact if_pos (by simp [other, valid])

/-- Where STP carries frames to the target, one that is not another command's is heard (R354, R355). -/
theorem tgtFrame_gate (opened : fobOpen s) (own : mine = true ∨ f.valid = false) :
    (!tgtCarries s.m || !tgtEnabled s.m 1 || s.m.tgt.session == .iso || s.m.tgt.releaseWait || !true || !(mine || !f.valid)) ≠ true := by
  obtain ⟨carries, enabled, session, free, -⟩ := opened
  rw [carries, enabled, session, free]
  rcases own with own | own <;> rw [own] <;> simp

/-- A frame that comes in the reply, or is not valid, does no more than the reply before it allows (R207, R209). -/
theorem tgtFrame_undecoded (opened : fobOpen s) (deep : 120 ≤ f.depth) (hears : rxRate f.first = some rate) (own : mine = true ∨ f.valid = false)
    (undecoded : (replyGives s.m (frameFrom s f rate)).1 = false ∨ f.valid = false) :
    tgtFrame s f mine claims go = { s with m := (replyGives s.m (frameFrom s f rate)).2 } := by
  unfold tgtFrame
  rw [depthHeard_deep deep, if_neg (tgtFrame_gate opened own), hears]
  refine if_pos ?_
  rcases undecoded with reply | invalid
  · rw [frameFrom] at reply
    simp [reply]
  · simp [invalid]

/-- A valid frame that is decoded goes to the binding rules, and on if they take it (R211). -/
theorem tgtFrame_decoded (decodes : fobDecodes s f) (deep : 120 ≤ f.depth) (own : mine = true) (valid : f.valid = true) :
    tgtFrame s f mine claims go = (stpBind s.m f.head claims).1.elim { s with m := (stpBind s.m f.head claims).2 } fun n =>
      go n { s with m := modStp (stpBind s.m f.head claims).2 fun t => { t with heardAt := s.m.now, reply := none } } := by
  obtain ⟨opened, rate, hears, rested⟩ := decodes
  have decoded : replyGives s.m (s.m.now - fcTicks (f.span rate)) = (true, s.m) := by
    unfold replyGives
    split
    case h_1 => rfl
    case h_2 a b reply =>
      obtain ⟨began, ended⟩ := rested a b reply
      rw [frameFrom] at began ended
      rw [if_neg (Nat.not_lt.mpr began), decide_eq_true ended]
  have goesOn (x : Main) : fieldFirst { s with m := x } = { s with m := x } := fieldFirst_free opened.ledger
  have session : (s.m.tgt.session == TgtSession.none) = false := by rw [opened.session]; rfl
  unfold tgtFrame
  rw [depthHeard_deep deep, if_neg (tgtFrame_gate opened (.inl own)), hears]
  simp only [decoded, valid, session, goesOn, Bool.not_true, Bool.or_self, Bool.false_eq_true, if_false]
  cases (stpBind s.m f.head claims).1 <;> rfl

/-! ## The binding rules (R211) -/

/-- The target after a frame of its own port tag: the tag with the frame's level in the retention cell, the end of the frame noted. -/
def frameTaken (s : State) (f : StpRx) : State :=
  { s with m := modStp s.m fun t => { t with bound := some ((nth f.bytes 0 0).toNat % 128, f.level), heardAt := s.m.now, reply := none } }

theorem stpBind_own {m : Main} {h : StpHead} {l : Int} (bound : m.tgt.stp.bound = some (h.tag.toNat, l)) :
    stpBind m h claims = (some 0, modStp m fun t => { t with bound := some (h.tag.toNat, h.level) }) := by
  unfold stpBind
  rw [bound]
  exact if_pos rfl

theorem stpBind_unbound {m : Main} {h : StpHead} (bound : m.tgt.stp.bound = none) :
    stpBind m h claims = (some 1, modStp (stpLink m h.tag.toNat) fun t => { t with bound := some (h.tag.toNat, h.level) }) := by
  unfold stpBind
  rw [bound]

/-- A frame of another port tag clearly below 6 dB above the stored level is not taken when it claims nothing. -/
theorem stpBind_weaker {m : Main} {h : StpHead} {t : Nat} {l : Int} (bound : m.tgt.stp.bound = some (t, l)) (other : t ≠ h.tag.toNat)
    (weak : h.level - l < 50) (claim : h.claim = false) : stpBind m h claims = (none, m) := by
  have up : levelReaches m (h.level - l) 60 = (false, m) := by
    rw [levelReaches, if_neg (by omega), if_pos (by omega)]
  unfold stpBind
  rw [bound]
  simp only [if_neg other, up, claim, Bool.and_false, Bool.false_eq_true, if_false, Bool.or_self]

/-- A new port tag takes the target: its handle is dropped, and the link is the default one of the new tag. -/
def portTakes (m : Main) (h : StpHead) : Main :=
  modStp (stpLink (stpDrop (modStp m fun t => { t with bound := some (h.tag.toNat, h.level) })) h.tag.toNat) fun t =>
    { t with quiet := false, tagState := 0 }

/-- A frame of another port tag clearly 6 dB above the stored level is taken. -/
theorem stpBind_stronger {m : Main} {h : StpHead} {t : Nat} {l : Int} (bound : m.tgt.stp.bound = some (t, l)) (other : t ≠ h.tag.toNat)
    (strong : 70 ≤ h.level - l) : stpBind m h claims = (some 2, portTakes m h) := by
  have up : levelReaches m (h.level - l) 60 = (true, m) := by
    rw [levelReaches, if_pos (by omega)]
  unfold stpBind
  rw [bound]
  simp only [if_neg other, up, Bool.not_true, Bool.false_and, Bool.false_eq_true, if_false, Bool.true_or, if_true]
  rfl

end Heard

end Sys2Proof.Machine
end

section
/-!
The target as an STP fob (R223–R241, R245): what each command does to it, and what it answers.
-/

namespace Sys2Proof.Machine

/-! ## A frame of the own port tag -/

section Hears

variable {s : State} {f : StpRx} {code : Nat} {params : List Byte}

theorem fobHears_length (h : fobHears s f code params) : f.bytes.length = params.length + 4 := by
  obtain ⟨-, _, _, _, -, frame⟩ := h
  exact spoken_length frame

theorem fobHears_cmd (h : fobHears s f code params) (small : code < 256) : f.cmd = code := by
  obtain ⟨-, _, _, _, -, frame⟩ := h
  exact spoken_cmd frame small

theorem fobHears_byte (h : fobHears s f code params) (i : Nat) (inside : i < params.length) : f.byte_ (i + 2) = nth params i 0 := by
  obtain ⟨-, _, _, _, -, frame⟩ := h
  exact spoken_byte frame inside

/-- A run of bytes of `PARAMS`, by its place and length in the frame. -/
theorem fobHears_part {before part after : List Byte} (h : fobHears s f code params) (split : params = before ++ part ++ after) {i n : Nat}
    (start : before.length + 2 = i) (size : part.length = n) : f.part i n = part := by
  obtain ⟨-, _, _, _, -, frame⟩ := h
  rw [split] at frame
  rw [← start, ← size]
  exact spoken_part frame

/-- The handle that an addressed command begins with (R227). -/
theorem fobHears_handle {x : BitVec 16} {rest : List Byte} (h : fobHears s f code params) (split : params = leBytes 2 x.toNat ++ rest) : f.handle = x := by
  have part : f.part 2 2 = leBytes 2 x.toNat := fobHears_part (before := []) (part := leBytes 2 x.toNat) h split rfl rfl
  rw [StpRx.handle, part, ofNat_leNat_leBytes]

/-- A frame of the own port tag is taken with `BIND` 0 (R206, R211). -/
theorem tgtFrame_hears {mine claims : Bool} {go : Nat → State → State} (h : fobHears s f code params) (own : mine = true) :
    tgtFrame s f mine claims go = go 0 (frameTaken s f) := by
  obtain ⟨decodes, tag, claim, l, bound, frame⟩ := h
  have head := spoken_head frame
  have tagged : (nth f.bytes 0 0).toNat % 128 = tag.toNat := by
    have narrow := tag.isLt
    have byte := spoken_tag frame
    omega
  rw [tgtFrame_decoded decodes frame.2.1 own (spoken_valid frame), head, stpBind_own bound, frameTaken, tagged]
  rfl

/-- A command whose frame reaches the target answers what holds of its reaction. -/
theorem answers_of_hears {c : Instr} {mine claims : Bool} {go : Nat → State → State} {P : State → Prop} {t : State}
    (h : fobHears s f code params) (hc : exec c s = .next (tgtFrame s f mine claims go)) (own : mine = true)
    (reacts : go 0 (frameTaken s f) = t) (result : P t) : answers c s P :=
  ⟨t, hc.trans (congrArg _ ((tgtFrame_hears h own).trans reacts)), result⟩

/-- A frame of a command, at its length (R223). -/
theorem is_of_length (cmd : f.cmd = code) (length : f.lengthOf = some f.bytes.length) : f.is code = true := by
  rw [StpRx.is, cmd, length, BEq.rfl, BEq.rfl]
  rfl

/-- Codes of the commands of one length each, with the length of their `PARAMS` (R223). -/
def fixedParams : List (Nat × Nat) := [(1, 1), (2, 0), (3, 2), (4, 3), (5, 4), (6, 23), (7, 8), (8, 2), (10, 11), (11, 18)]

theorem spoken_is {tag : BitVec 7} {claim : Bool} {n : Nat} (h : spoken f tag claim code params) (size : params.length = n)
    (known : (code, n) ∈ fixedParams) : f.is code = true := by
  have small : ∀ p ∈ fixedParams, p.1 < 256 := by decide
  have cmd := spoken_cmd h (small _ known)
  have length := spoken_length h
  refine is_of_length cmd ?_
  rw [size] at length
  simp only [fixedParams, List.mem_cons, Prod.mk.injEq, List.not_mem_nil, or_false] at known
  rcases known with ⟨rfl, rfl⟩ | ⟨rfl, rfl⟩ | ⟨rfl, rfl⟩ | ⟨rfl, rfl⟩ | ⟨rfl, rfl⟩ | ⟨rfl, rfl⟩ | ⟨rfl, rfl⟩ | ⟨rfl, rfl⟩ | ⟨rfl, rfl⟩ | ⟨rfl, rfl⟩ <;>
    simp only [StpRx.lengthOf, cmd, length]

theorem fobHears_is (h : fobHears s f code params) (n : Nat) (size : params.length = n) (known : (code, n) ∈ fixedParams) : f.is code = true := by
  obtain ⟨-, _, _, _, -, frame⟩ := h
  exact spoken_is frame size known

end Hears

/-! ## Replies -/

theorem fobReplied_ok (s : State) (body : List Byte) : fobReplied (stpEnd s 0 0 body) 0 body := rfl

theorem fobReplied_error (s : State) (rcode : Nat) : fobReplied (stpEnd s rcode 0 []) rcode [] := by
  unfold fobReplied
  simp only [stpEnd, stpReply, tgtSend, modTgt, ite_self]
  rfl

/-- A command addressed by the handle that the target holds is its own in the states given (R224, R230). -/
theorem stpOwn_of {s : State} {x : BitVec 16} {states : List Nat} (holds : s.m.tgt.stp.handle = some x)
    (state : s.m.tgt.stp.tagState ∈ states) : stpOwn s x states = true := by
  simp [stpOwn, holds, state]

/-! ## What a reaction leaves alone -/

section Leaves

variable {s t : State}

theorem targetOnly_refl (s : State) : targetOnly s s := ⟨rfl, ledgerOnly_refl s⟩

/-- A further change of the target's surroundings. -/
theorem targetOnly_m (h : targetOnly s t) {m : Main} (g : ledgerMain t.m m) : targetOnly s { t with m := m } :=
  ⟨h.1, ledgerOnly_trans h.2 (ledgerOnly_m g)⟩

theorem ledgerMain_stpDrop (m : Main) : ledgerMain m (stpDrop m) := rfl
theorem ledgerMain_stpLink (m : Main) (tag : Nat) : ledgerMain m (stpLink m tag) := rfl
theorem ledgerMain_drawHandle (m : Main) : ledgerMain m (drawHandle m).2 := rfl

theorem targetOnly_frameTaken (s : State) (f : StpRx) : targetOnly s (frameTaken s f) := targetOnly_m (targetOnly_refl s) (ledgerMain_modStp ..)

theorem targetOnly_stpClear (h : targetOnly s t) : targetOnly s (stpClear t) := targetOnly_m h (ledgerMain_modAuth ..)

theorem targetOnly_stpEnd (h : targetOnly s t) (rcode bind : Nat) (body : List Byte) : targetOnly s (stpEnd t rcode bind body) :=
  targetOnly_m h (ledgerMain_stpReply ..)

theorem targetOnly_stpSlot (h : targetOnly s t) (bind : Nat) : targetOnly s (stpSlot t bind) :=
  targetOnly_stpEnd (targetOnly_m h (ledgerMain_trans (ledgerMain_drawHandle _) (ledgerMain_modStp ..))) ..

end Leaves

/-! ## SEEK (R227, R230, R231) -/

section Seek

variable {s : State} {f : StpRx}

/-- A new handle is never that of the broadcast (R232). -/
theorem drawHandle_ne (m : Main) : (drawHandle m).1 ≠ 0xFFFF#16 := by
  intro same
  have value : (drawHandle m).1.toNat = 0xFFFF := congrArg BitVec.toNat same
  rw [drawHandle, BitVec.toNat_ofNat] at value
  omega

/-- The target in its slot answers with the handle that it draws (R228). -/
theorem stpSlot_replies (s : State) : (stpSlot s 0).m.tgt.stp.tagState = 2 ∧
    ∃ x, (stpSlot s 0).m.tgt.stp.handle = some x ∧ x ≠ 0xFFFF#16 ∧ fobReplied (stpSlot s 0) 0 (leBytes 2 x.toNat) :=
  ⟨rfl, _, rfl, drawHandle_ne s.m, rfl⟩

/-- A round of `q` begins: the handle is dropped, and the slot is drawn. -/
def roundBegun (s : State) (q : Nat) : State :=
  { s with m := modStp (draw (stpDrop s.m)).2 fun t =>
      { t with seen := false, tagState := 1, counter := (draw (stpDrop s.m)).1.toNat % 2 ^ q } }

theorem targetOnly_roundBegun {t : State} (h : targetOnly s t) (q : Nat) : targetOnly s (roundBegun t q) :=
  targetOnly_m h (ledgerMain_trans (ledgerMain_stpDrop _) (ledgerMain_trans (ledgerMain_draw _) (ledgerMain_modStp ..)))

/-- The fields of `PARAMS` that begins a round (R227). -/
theorem seekParam_round : ∀ q : Fin 9, bitAt (byte q.val).toNat 7 = false ∧ (byte q.val).toNat % 16 = q.val ∧
    field (byte q.val).toNat 4 2 = 0 ∧ bitAt (byte q.val).toNat 6 = false := by
  decide

/-- SEEK with `SMODE` 0 begins a round; the target answers at once where it has drawn slot 0. -/
theorem answers_seek_round {P : State → Prop} (q : Fin 9) (h : fobHears s f 0x01 [byte q.val]) (awake : s.m.tgt.stp.tagState ≠ 5)
    (result : P (if (roundBegun (frameTaken s f) q.val).m.tgt.stp.counter = 0 then stpSlot (roundBegun (frameTaken s f) q.val) 0
      else roundBegun (frameTaken s f) q.val)) : answers (.tgtStpSeek f) s P := by
  refine answers_of_hears h rfl (fobHears_is h 1 rfl (by decide)) ?_ result
  have param : f.byte_ 2 = byte q.val := fobHears_byte h 0 Nat.zero_lt_one
  have awake' : (frameTaken s f).m.tgt.stp.tagState ≠ 5 := awake
  have small : ¬ 8 < q.val := by omega
  obtain ⟨unreserved, slots, round, noSkip⟩ := seekParam_round q
  simp only [param, unreserved, slots, round, noSkip, awake', small, decide_false, Bool.or_self, Bool.false_and, Bool.and_false, Bool.false_eq_true,
    if_false, if_true, Nat.not_lt_zero]
  rfl

/-- The slot counter at the next slot. -/
def slotCounted (s : State) : State := { s with m := modStp s.m fun t => { t with counter := t.counter - 1 } }

/-- SEEK with `SMODE` 1 counts down to the target's slot. -/
theorem answers_seek_next {P : State → Prop} (h : fobHears s f 0x01 [0x10]) (arbitrates : s.m.tgt.stp.tagState = 1)
    (waits : s.m.tgt.stp.counter ≠ 0)
    (result : P (if s.m.tgt.stp.counter = 1 then stpSlot (slotCounted (frameTaken s f)) 0 else slotCounted (frameTaken s f))) :
    answers (.tgtStpSeek f) s P := by
  refine answers_of_hears h rfl (fobHears_is h 1 rfl (by decide)) ?_ result
  have param : f.byte_ 2 = 0x10#8 := fobHears_byte h 0 Nat.zero_lt_one
  have state : (frameTaken s f).m.tgt.stp.tagState = 1 := arbitrates
  have count : ((frameTaken s f).m.tgt.stp.counter != 0) = true := bne_iff_ne.mpr waits
  rw [param]
  refine (if_neg (by simp [bitAt, field, state])).trans ((if_neg (by decide)).trans (if_pos (by simp [state, count])))

/-- The target that has answered in its slot takes part in the round again, without its handle. -/
theorem answers_seek_unselected {P : State → Prop} (h : fobHears s f 0x01 [0x10]) (replied : s.m.tgt.stp.tagState = 2)
    (result : P { frameTaken s f with m := modStp (stpDrop (frameTaken s f).m) fun t => { t with tagState := 1 } }) :
    answers (.tgtStpSeek f) s P := by
  refine answers_of_hears h rfl (fobHears_is h 1 rfl (by decide)) ?_ result
  have param : f.byte_ 2 = 0x10#8 := fobHears_byte h 0 Nat.zero_lt_one
  have state : (frameTaken s f).m.tgt.stp.tagState = 2 := replied
  rw [param]
  exact (if_neg (by simp [bitAt, field, state])).trans ((if_neg (by decide)).trans ((if_neg (by simp [state])).trans (if_pos state)))

/-- A round that leaves out the fobs seen before leaves the target out. -/
theorem answers_seek_skipped {P : State → Prop} (h : fobHears s f 0x01 [0x40]) (awake : s.m.tgt.stp.tagState ≠ 5) (seen : s.m.tgt.stp.seen = true)
    (result : P (frameTaken s f)) : answers (.tgtStpSeek f) s P := by
  refine answers_of_hears h rfl (fobHears_is h 1 rfl (by decide)) ?_ result
  have param : f.byte_ 2 = 0x40#8 := fobHears_byte h 0 Nat.zero_lt_one
  have awake' : (frameTaken s f).m.tgt.stp.tagState ≠ 5 := awake
  have seen' : (frameTaken s f).m.tgt.stp.seen = true := seen
  rw [param]
  exact (if_neg (by simp [bitAt, field, awake'])).trans ((if_pos (by decide)).trans (if_pos (by simp [bitAt, seen'])))

end Seek

/-! ## SINGLE (R228, R230) -/

/-- The target as it answers SINGLE: a new handle, its UID and its `LINKCAPS`. -/
def singleAnswered (s : State) (bind : Nat) : State :=
  stpEnd { s with m := modStp (drawHandle (stpDrop s.m)).2 fun t => { t with tagState := 3, handle := some (drawHandle (stpDrop s.m)).1, seen := true } } 0
    bind (leBytes 8 Config.targetUid.toNat ++ leBytes 2 (drawHandle (stpDrop s.m)).1.toNat ++ [byte tgtLinkcaps])

theorem exec_tgtStpSingle (f : StpRx) (s : State) : exec (.tgtStpSingle f) s =
    .next (tgtFrame s f (f.is 0x02) true fun bind s => if s.m.tgt.stp.tagState = 5 then s else singleAnswered s bind) := rfl

theorem targetOnly_singleAnswered {s t : State} (h : targetOnly s t) (bind : Nat) : targetOnly s (singleAnswered t bind) :=
  targetOnly_stpEnd (targetOnly_m h (ledgerMain_trans (ledgerMain_stpDrop _) (ledgerMain_trans (ledgerMain_drawHandle _) (ledgerMain_modStp ..)))) ..

theorem answers_single {s : State} {f : StpRx} {P : State → Prop} (h : fobHears s f 0x02 []) (awake : s.m.tgt.stp.tagState ≠ 5)
    (result : P (singleAnswered (frameTaken s f) 0)) : answers (.tgtStpSingle f) s P :=
  answers_of_hears h (exec_tgtStpSingle f s) (fobHears_is h 0 rfl (by decide)) (if_neg awake) result

theorem answers_single_quiet {s : State} {f : StpRx} {P : State → Prop} (h : fobHears s f 0x02 []) (quiet : s.m.tgt.stp.tagState = 5)
    (result : P (frameTaken s f)) : answers (.tgtStpSingle f) s P :=
  answers_of_hears h (exec_tgtStpSingle f s) (fobHears_is h 0 rfl (by decide)) (if_pos quiet) result

/-! ## Commands by handle -/

section Addressed

variable {s : State} {f : StpRx} {x : BitVec 16} {P : State → Prop}

/-- The target's own command by its handle, in a frame whose `PARAMS` begin with it. -/
theorem stpOwn_taken {code : Nat} {params rest : List Byte} {states : List Nat} (h : fobHears s f code params)
    (split : params = leBytes 2 x.toNat ++ rest) (holds : s.m.tgt.stp.handle = some x) (state : s.m.tgt.stp.tagState ∈ states) :
    stpOwn (frameTaken s f) f.handle states = true := by
  rw [fobHears_handle h split]
  exact stpOwn_of (s := frameTaken s f) holds state

/-- The first branch of a command by handle is that of one which is not the target's own. -/
theorem not_other {own : Bool} (h : own = true) : ¬((!own) = true) := by simp [h]

theorem tgtMargin_supplied {s : State} (supplied : s.m.pw.onHarvest = false) : tgtMargin s = (254, s) :=
  if_neg (Bool.eq_false_iff.mp supplied)

/-- A target in its slot is BOUND by SELECT (R230). -/
def slotSelected (s : State) : State := if s.m.tgt.stp.tagState = 2 then { s with m := modStp s.m fun t => { t with tagState := 3, seen := true } } else s

theorem targetOnly_slotSelected {s t : State} (h : targetOnly s t) : targetOnly s (slotSelected t) := by
  unfold slotSelected
  split
  · exact targetOnly_m h (ledgerMain_modStp ..)
  · exact h

theorem slotSelected_bound {s : State} (state : s.m.tgt.stp.tagState = 2 ∨ s.m.tgt.stp.tagState = 3) :
    (slotSelected s).m.tgt.stp.tagState = 3 ∧ (s.m.tgt.stp.tagState = 2 → (slotSelected s).m.tgt.stp.seen = true) := by
  unfold slotSelected
  split
  case isTrue => exact ⟨rfl, fun _ => rfl⟩
  case isFalse later => exact ⟨state.resolve_left later, fun slot => absurd slot later⟩

theorem slotSelected_pw (s : State) : (slotSelected s).m.pw = s.m.pw := by
  unfold slotSelected
  split <;> rfl

theorem answers_select (h : fobHears s f 0x03 (leBytes 2 x.toNat)) (holds : s.m.tgt.stp.handle = some x)
    (state : s.m.tgt.stp.tagState = 2 ∨ s.m.tgt.stp.tagState = 3) (supplied : s.m.pw.onHarvest = false)
    (result : P (stpEnd (slotSelected (stpClear (frameTaken s f))) 0 0 (leBytes 8 Config.targetUid.toNat ++ [byte tgtLinkcaps, byte tgtCaps, byte 254]))) :
    answers (.tgtStpSelect f) s P := by
  refine answers_of_hears h rfl (fobHears_is h 2 rfl (by decide)) ?_ result
  have own := stpOwn_taken (states := [2, 3, 4]) h (List.append_nil _).symm holds (by rcases state with e | e <;> simp [e])
  obtain ⟨bound, -⟩ := slotSelected_bound (s := stpClear (frameTaken s f)) state
  have supplied' : (slotSelected (stpClear (frameTaken s f))).m.pw.onHarvest = false :=
    (congrArg Power.onHarvest (slotSelected_pw _)).trans supplied
  refine (if_neg (not_other own)).trans ?_
  change stpEnd (tgtMargin (slotSelected (stpClear (frameTaken s f)))).2 0 0 (_ ++ [_, byte (tgtCaps + place 1 1 (bitN
    ((slotSelected (stpClear (frameTaken s f))).m.tgt.stp.tagState == 4))), byte (tgtMargin (slotSelected (stpClear (frameTaken s f)))).1]) = _
  rw [tgtMargin_supplied supplied', bound]
  rfl

/-! ### SET_LINK (R214, R216) -/

/-- The link that SET_LINK brings. -/
def linkTaken (s : State) (link : Byte) : State :=
  { s with m := modStp s.m fun t => { t with rate := link.toNat % 4, sub8 := bitAt link.toNat 2 } }

theorem targetOnly_linkTaken {s t : State} (h : targetOnly s t) (link : Byte) : targetOnly s (linkTaken t link) :=
  targetOnly_m h (ledgerMain_modStp ..)

section SetLink

variable {link : Byte}

theorem setLink_byte (h : fobHears s f 0x04 (leBytes 2 x.toNat ++ [link])) : f.byte_ 4 = link :=
  fobHears_byte h 2 (Nat.lt_add_one 2)

theorem answers_setLink (h : fobHears s f 0x04 (leBytes 2 x.toNat ++ [link])) (holds : s.m.tgt.stp.handle = some x)
    (bound : s.m.tgt.stp.tagState = 3) (single : x ≠ 0xFFFF#16) (unreserved : link.toNat < 8)
    (result : P (if link.toNat % 4 < 3 then stpEnd (linkTaken (stpClear (frameTaken s f)) link) 0 0 [] else stpEnd (stpClear (frameTaken s f)) 6 0 [])) :
    answers (.tgtStpSetLink f) s P := by
  refine answers_of_hears h rfl (fobHears_is h 3 rfl (by decide)) ?_ result
  have own := stpOwn_taken (states := [3, 4]) h rfl holds (by simp [bound])
  have single' : f.handle ≠ 0xFFFF#16 := fobHears_handle h rfl ▸ single
  rw [setLink_byte h]
  exact (if_neg (Nat.not_le.mpr unreserved)).trans ((if_neg single').trans (if_neg (not_other own)))

theorem answers_setLink_broadcast (h : fobHears s f 0x04 [0xFF, 0xFF, link]) (unreserved : link.toNat < 8) (known : link.toNat % 4 < 3)
    (result : P (linkTaken (stpClear (frameTaken s f)) link)) : answers (.tgtStpSetLink f) s P := by
  refine answers_of_hears h rfl (fobHears_is h 3 rfl (by decide)) ?_ result
  have all : f.handle = 0xFFFF#16 := fobHears_handle (x := 0xFFFF#16) (rest := [link]) h rfl
  have byte4 : f.byte_ 4 = link := fobHears_byte h 2 (Nat.lt_add_one 2)
  rw [byte4]
  exact (if_neg (Nat.not_le.mpr unreserved)).trans ((if_pos all).trans (if_pos known))

end SetLink

/-! ### READ (R237, R238) -/

section Read

variable {first n : Byte}

/-- Records answered, or `MEMORY` where one of them cannot be read. -/
def recordsSent (s : State) (recs : List Nat) : State :=
  let st := if recs.contains 2 then efStatus s else ([], s)
  let data := recs.map (tgtRecord s st.1)
  if data.any (·.isNone) then stpEnd st.2 8 0 [] else stpEnd st.2 0 0 ((data.map (·.getD [])).flatten)

/-- Whether a range of records cannot be read for its bounds. -/
def rangeBad (first n : Nat) : Bool := n = 0 || 16 < n || 64 < first + n

/-- Whether a range holds a record that is read in OPEN alone. -/
def rangeProtected (m : Main) (first n : Nat) : Bool := ((List.range n).map (first + ·)).any fun r => tgtCode m r == 2

theorem answers_read (h : fobHears s f 0x05 (leBytes 2 x.toNat ++ [first, n])) (holds : s.m.tgt.stp.handle = some x)
    (state : s.m.tgt.stp.tagState = 3 ∨ s.m.tgt.stp.tagState = 4)
    (result : P (if rangeBad first.toNat n.toNat then stpEnd (stpClear (frameTaken s f)) 2 0 []
      else if s.m.tgt.stp.tagState != 4 && rangeProtected s.m first.toNat n.toNat then stpEnd (stpClear (frameTaken s f)) 3 0 []
      else recordsSent (stpClear (frameTaken s f)) ((List.range n.toNat).map (first.toNat + ·)))) : answers (.tgtStpRead f) s P := by
  refine answers_of_hears h rfl (fobHears_is h 4 rfl (by decide)) ?_ result
  have own := stpOwn_taken (states := [3, 4]) h rfl holds (by rcases state with e | e <;> simp [e])
  have byte4 : f.byte_ 4 = first := fobHears_byte h 2 (Nat.lt_of_sub_eq_succ rfl)
  have byte5 : f.byte_ 5 = n := fobHears_byte h 3 (Nat.lt_add_one 3)
  rw [byte4, byte5]
  exact if_neg (not_other own)

end Read

/-! ### ARM and COMMIT (R239, R241, R382) -/

section Write

variable {data : List Byte} {tok : BitVec 16}

theorem uidLow_targetUid : uidLow (leBytes 4 Config.targetUid.toNat) = true := by
  rw [uidLow, leNat_leBytes]
  exact beq_self_eq_true _

/-- The last committed token is lost at every ARM (R241). -/
def armBegun (s : State) : State := stpClear { s with m := modStp s.m fun t => { t with lastTok := none } }

theorem targetOnly_armBegun {s t : State} (h : targetOnly s t) : targetOnly s (armBegun t) :=
  targetOnly_stpClear (targetOnly_m h (ledgerMain_modStp ..))

/-- Record 8 is armed with a new token. -/
def recordArmed (s : State) (data : List Byte) : State :=
  { s with m := modStp (draw s.m).2 fun t => { t with shadow := some (8, data, (draw s.m).1.setWidth 16) } }

theorem targetOnly_recordArmed {s t : State} (h : targetOnly s t) (data : List Byte) : targetOnly s (recordArmed t data) :=
  targetOnly_m h (ledgerMain_trans (ledgerMain_draw _) (ledgerMain_modStp ..))

/-- The answer to ARM: the margin and the token. -/
def armAnswered (s : State) (data : List Byte) : State :=
  stpEnd (tgtMargin (recordArmed s data)).2 0 0 (byte (tgtMargin (recordArmed s data)).1 :: leBytes 2 ((draw s.m).1.setWidth 16).toNat)

theorem answers_arm (h : fobHears s f 0x06 (leBytes 2 x.toNat ++ leBytes 4 Config.targetUid.toNat ++ [8] ++ data)) (size : data.length = 16)
    (holds : s.m.tgt.stp.handle = some x) (state : s.m.tgt.stp.tagState = 3 ∨ s.m.tgt.stp.tagState = 4)
    (result : P (if s.m.tgt.stp.tagState != 4 then stpEnd (armBegun (frameTaken s f)) 3 0 [] else armAnswered (armBegun (frameTaken s f)) data)) :
    answers (.tgtStpArm f) s P := by
  refine answers_of_hears h rfl (fobHears_is h 23 (by simp [size]) (by decide)) ?_ result
  have own := stpOwn_taken (states := [3, 4]) h (by simp only [List.append_assoc]; rfl) holds (by rcases state with e | e <;> simp [e])
  have uid : f.part 4 4 = leBytes 4 Config.targetUid.toNat :=
    fobHears_part (before := leBytes 2 x.toNat) (after := [8] ++ data) h (by simp only [List.append_assoc]) rfl rfl
  have record : f.byte_ 8 = 8#8 := fobHears_byte h 6 (by simp [size])
  have sent : f.part 9 16 = data := fobHears_part (after := []) h (List.append_nil _).symm rfl size
  rw [uid, record, sent]
  exact (if_neg (by rw [own, uidLow_targetUid]; decide)).trans (if_neg (by decide))

/-- The access of the field that COMMIT sends to the arbiter (R382). -/
def commitAccess (data : List Byte) : LAccess :=
  { port := .field, reply := 3,
    op := .append (auditBody (nth data 0 0).toNat 2 (leNat ((data.drop 1).take 4)) 0 (data.drop 5)) }

theorem lRequest_append (s : State) (a : LAccess) (append : a.isSetting = false) :
    lRequest s a = { s with lgr := { s.lgr with waiting := s.lgr.waiting ++ [a] } } := by
  rw [lRequest, append]
  rfl

/-- What COMMIT meets: the armed data with their token, or the token committed last. -/
def commitReaction (s : State) (tok : BitVec 16) : State :=
  match s.m.tgt.stp.shadow with
  | some (_, data, armed) =>
    if armed != tok then stpEnd s 5 0 []
    else if (nth data 0 0).toNat < 0x20 then lRefuse s (commitAccess data) .range
    else lRequest s (commitAccess data)
  | none => if s.m.tgt.stp.lastTok = some tok then stpEnd s 0 0 [8, 1, byte s.m.tgt.stp.lastGen] else stpEnd s 5 0 []

theorem commitReaction_append {s : State} {r : Nat} {data : List Byte} {tok : BitVec 16} (shadow : s.m.tgt.stp.shadow = some (r, data, tok))
    (own : 0x20 ≤ (nth data 0 0).toNat) :
    commitReaction s tok = { s with lgr := { s.lgr with waiting := s.lgr.waiting ++ [commitAccess data] } } := by
  unfold commitReaction
  rw [shadow]
  exact (if_neg (by simp)).trans ((if_neg (Nat.not_lt.mpr own)).trans (lRequest_append s _ rfl))

theorem commitReaction_token {s : State} {r : Nat} {data : List Byte} {tok tok' : BitVec 16} (shadow : s.m.tgt.stp.shadow = some (r, data, tok))
    (other : tok ≠ tok') : commitReaction s tok' = stpEnd s 5 0 [] := by
  unfold commitReaction
  rw [shadow]
  exact if_pos (bne_iff_ne.mpr other)

theorem commitReaction_again {s : State} {tok : BitVec 16} (committed : s.m.tgt.stp.shadow = none) (last : s.m.tgt.stp.lastTok = some tok) :
    commitReaction s tok = stpEnd s 0 0 [8, 1, byte s.m.tgt.stp.lastGen] := by
  unfold commitReaction
  rw [committed]
  exact if_pos last

theorem answers_commit (h : fobHears s f 0x07 (leBytes 2 x.toNat ++ leBytes 4 Config.targetUid.toNat ++ leBytes 2 tok.toNat))
    (holds : s.m.tgt.stp.handle = some x) (state : s.m.tgt.stp.tagState = 3 ∨ s.m.tgt.stp.tagState = 4)
    (result : P (commitReaction (stpClear (frameTaken s f)) tok)) : answers (.tgtStpCommit f) s P := by
  refine answers_of_hears h rfl (fobHears_is h 8 rfl (by decide)) ?_ result
  have own := stpOwn_taken (states := [3, 4]) h (by simp only [List.append_assoc]; rfl) holds (by rcases state with e | e <;> simp [e])
  have uid : f.part 4 4 = leBytes 4 Config.targetUid.toNat := fobHears_part (before := leBytes 2 x.toNat) h rfl rfl rfl
  have token : f.part 8 2 = leBytes 2 tok.toNat := fobHears_part (after := []) h (List.append_nil _).symm rfl rfl
  rw [uid, token, ofNat_leNat_leBytes]
  exact if_neg (by rw [own, uidLow_targetUid]; decide)

end Write

/-! ### QUIET and RELEASE (R211, R230) -/

/-- The target in QUIET, its handle a former one. -/
def quieted (s : State) (x : BitVec 16) : State :=
  { s with m := modStp (stpDrop s.m) fun t => { t with tagState := 5, quiet := true, former := some x } }

theorem targetOnly_quieted {s t : State} (h : targetOnly s t) (x : BitVec 16) : targetOnly s (quieted t x) :=
  targetOnly_m h (ledgerMain_trans (ledgerMain_stpDrop _) (ledgerMain_modStp ..))

theorem answers_quiet (h : fobHears s f 0x08 (leBytes 2 x.toNat)) (holds : s.m.tgt.stp.handle = some x) (bound : s.m.tgt.stp.tagState = 3)
    (result : P (stpEnd (quieted (frameTaken s f) x) 0 0 [])) : answers (.tgtStpQuiet f) s P := by
  refine answers_of_hears h rfl (fobHears_is h 2 rfl (by decide)) ?_ result
  have own := stpOwn_taken (states := [2, 3, 4]) h (List.append_nil _).symm holds (by simp [bound])
  rw [own, fobHears_handle h (List.append_nil _).symm]
  rfl

/-- The former handle has the reply to QUIET repeated. -/
theorem answers_quiet_again (h : fobHears s f 0x08 (leBytes 2 x.toNat)) (quiet : s.m.tgt.stp.tagState = 5) (former : s.m.tgt.stp.former = some x)
    (result : P (stpEnd (frameTaken s f) 0 0 [])) : answers (.tgtStpQuiet f) s P := by
  refine answers_of_hears h rfl (fobHears_is h 2 rfl (by decide)) ?_ result
  have quiet' : (frameTaken s f).m.tgt.stp.tagState = 5 := quiet
  have former' : (frameTaken s f).m.tgt.stp.former = some x := former
  have other : stpOwn (frameTaken s f) x [2, 3, 4] = false := by simp [stpOwn, quiet']
  rw [fobHears_handle h (List.append_nil _).symm, other]
  exact (if_neg Bool.false_ne_true).trans (if_pos (by simp [quiet', former']))

/-- The target after RELEASE: bound to no port, on the default link. -/
def released (s : State) (tag : Nat) : State :=
  { s with m := modStp (stpLink (stpDrop s.m) tag) fun t => { t with bound := none, quiet := false, seen := false, tagState := 0 } }

theorem targetOnly_released {s t : State} (h : targetOnly s t) (tag : Nat) : targetOnly s (released t tag) :=
  targetOnly_m h (ledgerMain_trans (ledgerMain_stpDrop _) (ledgerMain_trans (ledgerMain_stpLink ..) (ledgerMain_modStp ..)))

theorem release_is {scope : Byte} {rest : List Byte} (h : fobHears s f 0x09 (scope :: rest))
    (known : (scope, rest.length) ∈ [(0#8, 2), (1#8, 8), (2#8, 0)]) : f.byte_ 2 = scope ∧ f.is 0x09 = true := by
  have byte2 : f.byte_ 2 = scope := fobHears_byte h 0 (Nat.zero_lt_succ _)
  have cmd := fobHears_cmd h (by decide)
  have length := fobHears_length h
  refine ⟨byte2, is_of_length cmd ?_⟩
  rw [StpRx.byte_] at byte2
  rw [List.length_cons] at length
  simp only [List.mem_cons, Prod.mk.injEq, List.not_mem_nil, or_false] at known
  rcases known with ⟨rfl, size⟩ | ⟨rfl, size⟩ | ⟨rfl, size⟩ <;>
    · simp only [StpRx.lengthOf, cmd, length, byte2, size]
      rfl

theorem answers_release_handle (h : fobHears s f 0x09 (0 :: leBytes 2 x.toNat)) (holds : s.m.tgt.stp.handle = some x)
    (bound : s.m.tgt.stp.tagState = 3) (result : P (released (stpEnd (frameTaken s f) 0 0 []) f.head.tag.toNat)) :
    answers (.tgtStpRelease f) s P := by
  obtain ⟨scope, is⟩ := release_is h (by simp)
  refine answers_of_hears h rfl is ?_ result
  have handle : f.part 3 2 = leBytes 2 x.toNat := fobHears_part (before := [0]) (after := []) h (List.append_nil _).symm rfl rfl
  have own : stpOwn (frameTaken s f) x [2, 3, 4] = true := stpOwn_of (s := frameTaken s f) holds (show s.m.tgt.stp.tagState ∈ [2, 3, 4] by simp [bound])
  rw [scope, handle, ofNat_leNat_leBytes, own]
  rfl

theorem answers_release_uid (h : fobHears s f 0x09 (1 :: leBytes 8 Config.targetUid.toNat))
    (result : P (released (stpEnd (frameTaken s f) 0 0 []) f.head.tag.toNat)) : answers (.tgtStpRelease f) s P := by
  obtain ⟨scope, is⟩ := release_is h (by simp)
  refine answers_of_hears h rfl is ?_ result
  have uid : f.part 3 8 = leBytes 8 Config.targetUid.toNat := fobHears_part (before := [1]) (after := []) h (List.append_nil _).symm rfl rfl
  have same : (leNat (leBytes 8 Config.targetUid.toNat) == Config.targetUid.toNat) = true := by
    have whole : Config.targetUid.toNat < 256 ^ 8 := Config.targetUid.isLt
    rw [leNat_leBytes, Nat.mod_eq_of_lt whole]
    exact beq_self_eq_true _
  rw [scope, uid, same]
  rfl

theorem answers_release_all (h : fobHears s f 0x09 [2]) (result : P (released (frameTaken s f) f.head.tag.toNat)) :
    answers (.tgtStpRelease f) s P := by
  obtain ⟨scope, is⟩ := release_is h (by simp)
  refine answers_of_hears h rfl is ?_ result
  rw [scope]
  rfl

/-! ### AUTH1 and AUTH2 (R245, R247) -/

section Auth

variable {ra rb : List Byte} {key : BitVec 128}

theorem answers_auth1 (h : fobHears s f 0x0A (leBytes 2 x.toNat ++ [0] ++ ra)) (size : ra.length = 8) (holds : s.m.tgt.stp.handle = some x)
    (bound : s.m.tgt.stp.tagState = 3)
    (result : P (if s.m.tgt.auth.lockout then stpEnd (stpClear (frameTaken s f)) 9 0 []
      else stpEnd (tgtChallenge (stpClear (frameTaken s f)) 0 ra).2 0 0 (tgtChallenge (stpClear (frameTaken s f)) 0 ra).1)) :
    answers (.tgtStpAuth1 f) s P := by
  refine answers_of_hears h rfl (fobHears_is h 11 (by simp [size]) (by decide)) ?_ result
  have own := stpOwn_taken (states := [3, 4]) h (by simp only [List.append_assoc]; rfl) holds (by simp [bound])
  have slot : f.byte_ 4 = 0#8 := fobHears_byte h 2 (by simp [size])
  have challenge : f.part 5 8 = ra := fobHears_part (after := []) h (List.append_nil _).symm rfl size
  rw [slot, challenge, own]
  rfl

/-- The challenge under key 0 (R245). -/
theorem tgtChallenge_key0 (held : s.lgr.key0 = some key) (size : ra.length = 8) : tgtChallenge s 0 ra =
    (aes128 key (ra ++ leBytes 8 (Config.free s.m.freeCtr).toNat),
      { s with m := modAuth (draw s.m).2 fun a => { a with pending := some (0, ra, leBytes 8 (Config.free s.m.freeCtr).toNat) } }) := by
  have whole : padTo 8 ra = ra := by simp [padTo, size, List.take_of_length_le]
  have known : tgtKey s 0 = (key, s) := by simp [tgtKey, held]
  unfold tgtChallenge
  rw [whole, known]
  rfl

theorem answers_auth2 {c2 : List Byte} (h : fobHears s f 0x0B (leBytes 2 x.toNat ++ c2)) (size : c2.length = 16)
    (holds : s.m.tgt.stp.handle = some x) (bound : s.m.tgt.stp.tagState = 3) (pending : s.m.tgt.auth.pending = some (0, ra, rb)) {t : State}
    (opened : tgtVerify (frameTaken s f) 0 c2 = (.opened, t))
    (result : P (stpEnd { t with m := modStp t.m fun x => { x with tagState := 4 } } 0 0 [])) : answers (.tgtStpAuth2 f) s P := by
  refine answers_of_hears h rfl (fobHears_is h 18 (by simp [size]) (by decide)) ?_ result
  have own := stpOwn_taken (states := [3, 4]) h rfl holds (by simp [bound])
  have answer : f.part 4 16 = c2 := fobHears_part (after := []) h (List.append_nil _).symm rfl size
  have named : ((frameTaken s f).m.tgt.auth.pending.map (·.1)).getD 0xFF = 0 := by
    have pending' : (frameTaken s f).m.tgt.auth.pending = some (0, ra, rb) := pending
    rw [pending']
    rfl
  refine (if_neg (not_other own)).trans ?_
  rw [answer, named]
  dsimp only
  rw [opened]

theorem append_head (l : Ledger) (body : List Byte) : (l.append body).head = l.head + 1 := by
  unfold Ledger.append
  dsimp only
  split <;> rfl

/-- A target that VAO supplies appends its own record. -/
theorem ownRecord_supplied (supplied : s.m.pw.onHarvest = false) (type : Nat) (data : List Byte) :
    ∃ t, ownRecord s type data = (some t.lgr.head, t) ∧ t.lgr.head = s.lgr.head + 1 := by
  have energy : energyCheck s.m appendEnergy = (true, s.m) := if_neg (Bool.eq_false_iff.mp supplied)
  refine ⟨writeAppend s (stampBody s.m (auditBody type 0 0 0 data)), ?_, append_head s.lgr _⟩
  unfold ownRecord
  rw [energy]
  rfl

/-- The answer to the pending challenge of key 0 opens it, once its record stands (R245, R380). -/
theorem tgtVerify_opens (held : s.lgr.key0 = some key) (pending : s.m.tgt.auth.pending = some (0, ra, rb)) (supplied : s.m.pw.onHarvest = false) :
    ∃ t, tgtVerify s 0 (aes128 key (rb ++ ra)) = (.opened, t) ∧ t.m.tgt.auth.key0 = true ∧ t.lgr.head = s.lgr.head + 1 := by
  have known : tgtKey s 0 = (key, s) := by simp [tgtKey, held]
  have good : answerGood s 0 (aes128 key (rb ++ ra)) = (true, s) := by simp [answerGood, pending, known]
  obtain ⟨u, record, head⟩ := ownRecord_supplied (s := { s with m := modAuth s.m fun a => { a with pending := none } }) supplied 1
    (ownData (modAuth s.m fun a => { a with pending := none }) 0)
  unfold tgtVerify
  rw [good]
  simp only [lockOut, if_true]
  rw [record]
  exact ⟨_, rfl, Bool.or_true _, head⟩

end Auth

/-! ## Frames of another length, and unknown ones (R202, R225) -/

/-- A frame whose length is not that of its command is answered `BAD_FRAME` when it names the target's handle. -/
theorem answers_unknown_length {code : Nat} {rest : List Byte} (h : fobHears s f code (leBytes 2 x.toNat ++ rest)) (low : 3 ≤ code) (high : code ≤ 10)
    (known : code ≠ 9) (wrong : f.lengthOf ≠ some f.bytes.length) (holds : s.m.tgt.stp.handle = some x) (bound : s.m.tgt.stp.tagState = 3)
    (result : P (stpEnd (stpClear (frameTaken s f)) 1 0 [])) : answers (.tgtStpUnknownFrame f) s P := by
  refine answers_of_hears h rfl (bne_iff_ne.mpr wrong) ?_ result
  have cmd := fobHears_cmd h (by omega)
  have length := fobHears_length h
  have command : f.lengthOf.isSome = true := by
    have codes : code = 3 ∨ code = 4 ∨ code = 5 ∨ code = 6 ∨ code = 7 ∨ code = 8 ∨ code = 10 := by omega
    rcases codes with rfl | rfl | rfl | rfl | rfl | rfl | rfl <;> simp [StpRx.lengthOf, cmd]
  have handle : f.addressed = some f.handle := by
    have enough : 2 + 4 ≤ f.bytes.length := by simp [length]
    simp only [StpRx.addressed, cmd, enough, if_true, StpRx.handle]
    rw [if_neg (by simp; omega), if_neg known]
  have own := stpOwn_taken (states := [2, 3, 4]) h rfl holds (by simp [bound])
  obtain ⟨n, command⟩ := Option.isSome_iff_exists.mp command
  rw [command, handle]
  exact if_pos own

/-- A frame of no command counts for binding alone. -/
theorem answers_unknown {code : BitVec 8} {params : List Byte} (h : fobHears s f code.toNat params) (unknown : code = 0#8 ∨ 11 < code.toNat)
    (result : P (frameTaken s f)) : answers (.tgtStpUnknownFrame f) s P := by
  have cmd := fobHears_cmd h code.isLt
  have none : f.lengthOf = none := by
    have outside : f.cmd = 0 ∨ 11 < f.cmd := by
      rcases unknown with rfl | high
      · exact .inl cmd
      · exact .inr (cmd ▸ high)
    unfold StpRx.lengthOf
    split <;> simp only [reduceCtorEq] <;> omega
  refine answers_of_hears h rfl (by rw [none]; rfl) ?_ result
  rw [none]
end Addressed

end Sys2Proof.Machine
end

section
/-!
The target as an STP fob: the statement (R198–R245, R381, R382).
-/

namespace Sys2Proof.Machine

/-! ## Frames of another port tag, and frames in or before a reply (R207, R209, R211) -/

section Bound

variable {s : State} {f : StpRx} {tag : BitVec 7} {claim : Bool} {t : Nat} {l : Int} {P : State → Prop}

theorem exec_single_weaker (decodes : fobDecodes s f) (frame : spoken f tag claim 0x02 []) (bound : s.m.tgt.stp.bound = some (t, l))
    (other : t ≠ tag.toNat) (weak : f.level - l < 50) (claims : claim = false) : exec (.tgtStpSingle f) s = .next s := by
  have bind : stpBind s.m f.head true = (none, s.m) := by
    rw [spoken_head frame]
    exact stpBind_weaker bound other weak claims
  rw [exec_tgtStpSingle, tgtFrame_decoded decodes frame.2.1 (spoken_is frame rfl (by decide)) (spoken_valid frame), bind]
  rfl

/-- SINGLE by a port whose frame the binding rules take, of a target that is not in QUIET then. -/
theorem answers_single_bound (decodes : fobDecodes s f) (frame : spoken f tag claim 0x02 []) {n : Nat} {m : Main}
    (bind : stpBind s.m { tag := tag, claim := claim, level := f.level } true = (some n, m)) (awake : m.tgt.stp.tagState ≠ 5)
    (result : P (singleAnswered { s with m := modStp m fun t => { t with heardAt := s.m.now, reply := none } } n)) :
    answers (.tgtStpSingle f) s P := by
  refine ⟨_, ?_, result⟩
  rw [exec_tgtStpSingle, tgtFrame_decoded decodes frame.2.1 (spoken_is frame rfl (by decide)) (spoken_valid frame), spoken_head frame, bind]
  exact congrArg Host.Outcome.next (if_neg awake)

variable {rate a b : Nat}

/-- A frame that starts before the reply has the target abandon it, though it is not valid itself. -/
theorem exec_unknown_abandons (opened : fobOpen s) (deep : 120 ≤ f.depth) (invalid : f.valid = false) (hears : rxRate f.first = some rate)
    (reply : s.m.tgt.stp.reply = some (a, b)) (before : frameFrom s f rate < a) : exec (.tgtStpUnknownFrame f) s =
      .next { s with m := modStp (tgtSend s.m []) fun t => { t with reply := none } } := by
  have gives : replyGives s.m (frameFrom s f rate) = (true, modStp (tgtSend s.m []) fun t => { t with reply := none }) := by
    unfold replyGives
    rw [reply]
    exact if_pos before
  refine congrArg Host.Outcome.next ((tgtFrame_undecoded opened deep hears (.inr invalid) (.inr invalid)).trans ?_)
  rw [gives]

/-- A frame in the reply, or within 256/fc after it, is not decoded. -/
theorem exec_single_inReply (opened : fobOpen s) (deep : 120 ≤ f.depth) (hears : rxRate f.first = some rate)
    (reply : s.m.tgt.stp.reply = some (a, b)) (began : a ≤ frameFrom s f rate) (inside : frameFrom s f rate < b + fcTicks 256) :
    exec (.tgtStpSingle f) s = .next s := by
  have gives : replyGives s.m (frameFrom s f rate) = (false, s.m) := by
    unfold replyGives
    rw [reply]
    exact (if_neg (Nat.not_lt.mpr began)).trans (by rw [decide_eq_false (Nat.not_le.mpr inside)])
  rw [exec_tgtStpSingle]
  refine congrArg Host.Outcome.next ?_
  by_cases own : f.is 0x02 = true ∨ f.valid = false
  · rw [tgtFrame_undecoded opened deep hears own (.inl (congrArg Prod.fst gives)), gives]
  · rw [not_or, Bool.not_eq_true, Bool.not_eq_false] at own
    exact tgtFrame_other own.1 own.2

/-- The target without its handle, in READY on the default link of its port (R209, R230). -/
def handleDropped (m : Main) : Main :=
  modStp (stpLink (stpDrop m) ((m.tgt.stp.bound.map (·.1)).getD 0)) fun t => { t with tagState := 0 }

/-- Nothing but the target has changed. -/
theorem handleDropped_tgt (m : Main) : handleDropped m = { m with tgt := (handleDropped m).tgt } := by
  simp only [handleDropped, stpLink, stpDrop, modAuth, modStp, modTgt]

theorem exec_handleDrop {x : BitVec 16} (session : s.m.tgt.session = .stp) (holds : s.m.tgt.stp.handle = some x) :
    exec .tgtStpHandleDrop s = .next { s with m := handleDropped s.m } := by
  have other : ¬(s.m.tgt.session != .stp) = true := by simp [session]
  have held : s.m.tgt.stp.handle.isSome = true := by simp [holds]
  exact congrArg (fun m => Host.Outcome.next { s with m := m }) ((if_neg other).trans (if_pos held))

end Bound

theorem ledgerMain_portTakes (m : Main) (h : StpHead) : ledgerMain m (portTakes m h) :=
  ledgerMain_trans (ledgerMain_modStp ..) (ledgerMain_trans (ledgerMain_stpDrop _) (ledgerMain_trans (ledgerMain_stpLink ..) (ledgerMain_modStp ..)))

/-! ## The statement -/

/-- Settles O40: each command by the rule of its reaction, a frame of another tag by the binding rules, a frame at the wrong time by the
reply before it. -/
theorem targetFob : Obligations.TargetFob := by
  refine ⟨⟨?seekZero, ?seekRound, ?seekSlot, ?seekWaits, ?seekUnselected, ?seekSkipped, ?single, ?singleQuiet, ?select, ?setLink, ?setLinkRate,
    ?setLinkAll, ?readHost, ?readProtected, ?readRange⟩, ⟨?arm, ?armClosed, ?commit, ?commitToken, ?commitAgain, ?quiet, ?quietAgain, ?release,
    ?releaseUid, ?releaseAll, ?auth1, ?auth1Locked, ?auth2⟩, ?wrongLength, ?unknown, ?handleDrop, ?weaker, ?stronger, ?unbound, ?abandons,
    ?inReply, ?rateless⟩
  case seekZero =>
    intro s f h awake
    refine answers_seek_round 0 h awake ?_
    have first : (roundBegun (frameTaken s f) 0).m.tgt.stp.counter = 0 := Nat.mod_one _
    obtain ⟨state, replies⟩ := stpSlot_replies (roundBegun (frameTaken s f) 0)
    rw [Fin.val_zero, if_pos first]
    exact ⟨state, replies, targetOnly_stpSlot (targetOnly_roundBegun (targetOnly_frameTaken s f) 0) 0⟩
  case seekRound =>
    intro s f q h awake
    refine answers_seek_round q h awake ?_
    have only := targetOnly_roundBegun (targetOnly_frameTaken s f) q.val
    split
    case isTrue first =>
      obtain ⟨state, x, holds, -, reply⟩ := stpSlot_replies (roundBegun (frameTaken s f) q.val)
      exact ⟨.inl ⟨state, first, x, holds, reply⟩, rfl, targetOnly_stpSlot only 0⟩
    case isFalse later =>
      exact ⟨.inr ⟨rfl, Nat.pos_of_ne_zero later, Nat.mod_lt _ (Nat.two_pow_pos _), rfl, rfl⟩, rfl, only⟩
  case seekSlot =>
    intro s f h arbitrates last
    refine answers_seek_next h arbitrates (by omega) ?_
    obtain ⟨state, replies⟩ := stpSlot_replies (slotCounted (frameTaken s f))
    rw [if_pos last]
    exact ⟨state, replies, targetOnly_stpSlot (targetOnly_m (targetOnly_frameTaken s f) (ledgerMain_modStp ..)) 0⟩
  case seekWaits =>
    intro s f h arbitrates later
    refine answers_seek_next h arbitrates (by omega) ?_
    rw [if_neg (by omega)]
    exact ⟨arbitrates, Nat.sub_add_cancel (Nat.le_of_lt later), rfl, targetOnly_m (targetOnly_frameTaken s f) (ledgerMain_modStp ..)⟩
  case seekUnselected =>
    exact fun s f h replied => answers_seek_unselected h replied
      ⟨rfl, rfl, rfl, targetOnly_m (targetOnly_frameTaken s f) (ledgerMain_trans (ledgerMain_stpDrop _) (ledgerMain_modStp ..))⟩
  case seekSkipped => exact fun s f h awake seen => answers_seek_skipped h awake seen ⟨rfl, rfl, rfl, targetOnly_frameTaken s f⟩
  case single =>
    exact fun s f h awake => answers_single h awake
      ⟨rfl, rfl, ⟨_, rfl, drawHandle_ne _, rfl⟩, targetOnly_singleAnswered (targetOnly_frameTaken s f) 0⟩
  case singleQuiet => exact fun s f h quiet => answers_single_quiet h quiet ⟨rfl, quiet, targetOnly_frameTaken s f⟩
  case select =>
    intro s f x h holds state supplied
    obtain ⟨bound, seen⟩ := slotSelected_bound (s := stpClear (frameTaken s f)) state
    exact answers_select h holds state supplied
      ⟨bound, seen, rfl, targetOnly_stpEnd (targetOnly_slotSelected (targetOnly_stpClear (targetOnly_frameTaken s f))) ..⟩
  case setLink =>
    intro s f x link h holds bound single unreserved known
    refine answers_setLink h holds bound single unreserved ?_
    rw [if_pos known]
    exact ⟨rfl, rfl, fobReplied_ok .., targetOnly_stpEnd (targetOnly_linkTaken (targetOnly_stpClear (targetOnly_frameTaken s f)) link) ..⟩
  case setLinkRate =>
    intro s f x link h holds bound single reserved
    have rate : ¬ link.toNat % 4 < 3 := by rcases reserved with rfl | rfl <;> decide
    refine answers_setLink h holds bound single (by rcases reserved with rfl | rfl <;> decide) ?_
    rw [if_neg rate]
    exact ⟨rfl, fobReplied_error _ 6, targetOnly_stpEnd (targetOnly_stpClear (targetOnly_frameTaken s f)) ..⟩
  case setLinkAll =>
    exact fun s f link h unreserved known => answers_setLink_broadcast h unreserved known
      ⟨rfl, rfl, rfl, targetOnly_linkTaken (targetOnly_stpClear (targetOnly_frameTaken s f)) link⟩
  case readHost =>
    intro s f x h holds bound
    refine answers_read h holds (.inl bound) ?_
    have unprotected : rangeProtected s.m (8 : Byte).toNat (1 : Byte).toNat = false := rfl
    rw [if_neg (by decide), unprotected, Bool.and_false, if_neg Bool.false_ne_true]
    exact ⟨rfl, targetOnly_stpEnd (targetOnly_stpClear (targetOnly_frameTaken s f)) ..⟩
  case readProtected =>
    intro s f x h holds bound closed
    refine answers_read h holds (.inl bound) ?_
    have locked : rangeProtected s.m (16 : Byte).toNat (1 : Byte).toNat = true := by simp [rangeProtected, tgtCode, cfgB, closed]
    rw [if_neg (by decide), locked, bound, if_pos (by decide)]
    exact ⟨fobReplied_error _ 3, targetOnly_stpEnd (targetOnly_stpClear (targetOnly_frameTaken s f)) ..⟩
  case readRange =>
    intro s f x first n h holds state outside
    have bad : rangeBad first.toNat n.toNat = true := by
      rcases outside with rfl | long | high <;> simp [rangeBad, *]
    refine answers_read h holds state ?_
    rw [if_pos bad]
    exact ⟨fobReplied_error _ 2, targetOnly_stpEnd (targetOnly_stpClear (targetOnly_frameTaken s f)) ..⟩
  case arm =>
    intro s f x data h holds opened supplied size
    have supplied' : (recordArmed (armBegun (frameTaken s f)) data).m.pw.onHarvest = false := supplied
    refine answers_arm h size holds (.inr opened) ?_
    rw [if_neg (by simp [opened]), armAnswered, tgtMargin_supplied supplied']
    exact ⟨⟨_, rfl, rfl⟩, rfl, targetOnly_stpEnd (targetOnly_recordArmed (targetOnly_armBegun (targetOnly_frameTaken s f)) data) ..⟩
  case armClosed =>
    intro s f x data h holds bound size
    refine answers_arm h size holds (.inl bound) ?_
    rw [if_pos (by simp [bound])]
    exact ⟨fobReplied_error _ 3, rfl, rfl, targetOnly_stpEnd (targetOnly_armBegun (targetOnly_frameTaken s f)) ..⟩
  case commit =>
    intro s f x tok r data h holds state shadow own
    refine answers_commit h holds state ?_
    rw [commitReaction_append (s := stpClear (frameTaken s f)) shadow own]
    exact ⟨rfl, rfl, ledgerOnly_trans (targetOnly_stpClear (targetOnly_frameTaken s f)).2 (ledgerOnly_lgr ..)⟩
  case commitToken =>
    intro s f x tok tok' r data h holds state shadow other
    refine answers_commit h holds state ?_
    rw [commitReaction_token (s := stpClear (frameTaken s f)) shadow other.symm]
    exact ⟨fobReplied_error _ 5, rfl, targetOnly_stpEnd (targetOnly_stpClear (targetOnly_frameTaken s f)) ..⟩
  case commitAgain =>
    intro s f x tok h holds state committed last
    refine answers_commit h holds state ?_
    rw [commitReaction_again (s := stpClear (frameTaken s f)) committed last]
    exact ⟨rfl, targetOnly_stpEnd (targetOnly_stpClear (targetOnly_frameTaken s f)) ..⟩
  case quiet =>
    exact fun s f x h holds bound => answers_quiet h holds bound
      ⟨rfl, rfl, rfl, rfl, rfl, targetOnly_stpEnd (targetOnly_quieted (targetOnly_frameTaken s f) x) ..⟩
  case quietAgain =>
    exact fun s f x h quiet former => answers_quiet_again h quiet former ⟨rfl, quiet, targetOnly_stpEnd (targetOnly_frameTaken s f) ..⟩
  case release =>
    exact fun s f x h holds bound => answers_release_handle h holds bound
      ⟨rfl, rfl, rfl, rfl, rfl, targetOnly_released (targetOnly_stpEnd (targetOnly_frameTaken s f) ..) _⟩
  case releaseUid =>
    exact fun s f h => answers_release_uid h ⟨rfl, rfl, rfl, rfl, targetOnly_released (targetOnly_stpEnd (targetOnly_frameTaken s f) ..) _⟩
  case releaseAll => exact fun s f h => answers_release_all h ⟨rfl, rfl, rfl, targetOnly_released (targetOnly_frameTaken s f) _⟩
  case auth1 =>
    intro s f x ra key h holds bound unlocked held size
    have held' : (stpClear (frameTaken s f)).lgr.key0 = some key := held
    have drawn : (stpClear (frameTaken s f)).m.freeCtr = s.m.freeCtr := rfl
    refine answers_auth1 h size holds bound ?_
    rw [if_neg (Bool.eq_false_iff.mp unlocked), tgtChallenge_key0 held' size, drawn]
    dsimp only
    exact ⟨rfl, fobReplied_ok .., targetOnly_stpEnd (targetOnly_m (targetOnly_stpClear (targetOnly_frameTaken s f))
      (ledgerMain_trans (ledgerMain_draw _) (ledgerMain_modAuth ..))) ..⟩
  case auth1Locked =>
    intro s f x ra h size holds bound locked
    refine answers_auth1 h size holds bound ?_
    rw [if_pos locked]
    exact ⟨fobReplied_error _ 9, rfl, targetOnly_stpEnd (targetOnly_stpClear (targetOnly_frameTaken s f)) ..⟩
  case auth2 =>
    intro s f x ra rb key h size holds bound supplied held pending
    obtain ⟨t, opened, key0, head⟩ := tgtVerify_opens (s := frameTaken s f) held pending supplied
    have only := ledgerOnly_tgtVerify (frameTaken s f) 0 (aes128 key (rb ++ ra))
    rw [opened] at only
    exact answers_auth2 h size holds bound pending opened ⟨rfl, key0, rfl, head,
      ledgerOnly_trans (targetOnly_frameTaken s f).2 (ledgerOnly_trans only (ledgerOnly_m (ledgerMain_trans (ledgerMain_modStp ..) (ledgerMain_stpReply ..))))⟩
  case wrongLength =>
    exact fun s f code x rest h low known wrong holds bound => answers_unknown_length h low (by omega) known wrong holds bound
      ⟨fobReplied_error _ 1, rfl, targetOnly_stpEnd (targetOnly_stpClear (targetOnly_frameTaken s f)) ..⟩
  case unknown => exact fun s f code ps h unknown => answers_unknown h unknown rfl
  case handleDrop =>
    exact fun s x session holds => ⟨_, exec_handleDrop session holds, rfl, rfl, rfl, rfl, rfl, rfl,
      congrArg (fun m => { s with m := m }) (handleDropped_tgt s.m)⟩
  case weaker =>
    exact fun s f claim tag tag' l decodes frame bound other weak claims =>
      exec_single_weaker decodes frame bound (fun same => other (BitVec.eq_of_toNat_eq same)) weak claims
  case stronger =>
    exact fun s f claim tag tag' l decodes frame bound other strong => answers_single_bound decodes frame
      (stpBind_stronger bound (fun same => other (BitVec.eq_of_toNat_eq same)) strong) (Nat.zero_ne_add_one 4)
      ⟨rfl, rfl, rfl, rfl, targetOnly_singleAnswered (targetOnly_m (targetOnly_refl s) (ledgerMain_trans (ledgerMain_portTakes ..) (ledgerMain_modStp ..))) 2⟩
  case unbound =>
    exact fun s f claim tag decodes frame bound ready => answers_single_bound decodes frame (stpBind_unbound bound)
      (fun quiet => absurd (ready.symm.trans quiet) (by decide))
      ⟨rfl, rfl, rfl, targetOnly_singleAnswered (targetOnly_m (targetOnly_refl s)
        (ledgerMain_trans (ledgerMain_stpLink ..) (ledgerMain_trans (ledgerMain_modStp ..) (ledgerMain_modStp ..)))) 1⟩
  case abandons =>
    exact fun s f rate a b opened deep invalid hears reply before => ⟨_, exec_unknown_abandons opened deep invalid hears reply before,
      rfl, rfl, rfl, targetOnly_m (targetOnly_refl s) (ledgerMain_trans (ledgerMain_modTgt ..) (ledgerMain_modStp ..))⟩
  case inReply =>
    exact fun s f rate a b opened deep hears reply began inside => exec_single_inReply opened deep hears reply began inside
  case rateless => exact fun s f deep rateless => congrArg Host.Outcome.next (tgtFrame_unheard deep rateless)

end Sys2Proof.Machine
end

section
/-!
The keys that a state holds (R246, R380, R421), and the operations of the ledger, the target, the radio, the power control and the ports, each of
which leaves them where they are.
-/

namespace Sys2Proof.Machine

/-- The keys: fob keys, partner keys, target keys. -/
def allKeys (s : State) : Vector (Option (BitVec 128)) 8 × Vector (Option (BitVec 128)) 256 × Option (BitVec 128) × Option (BitVec 128) :=
  (s.keys.fobKeys, s.keys.partner, s.lgr.key0, s.lgr.key1)

/-- The operation leaves every key where it is. -/
def keepsKeys (f : State → State) : Prop := ∀ s, allKeys (f s) = allKeys s

@[simp] theorem allKeys_m (s : State) (m : Main) : allKeys { s with m := m } = allKeys s := rfl

/-- A ledger of the same target keys. -/
theorem allKeys_lgr {s : State} {l : Ledger} (m : Main) (same : l.key0 = s.lgr.key0 ∧ l.key1 = s.lgr.key1) :
    allKeys { s with m := m, lgr := l } = allKeys s := by
  simp only [allKeys, same]

/-! ## The ledger (R363, R364, R373) -/

section Ledger

variable (l : Ledger)

theorem select_targetKeys (b : Bool) (seq : Nat) : (l.select b seq).key0 = l.key0 ∧ (l.select b seq).key1 = l.key1 := by
  unfold Ledger.select
  dsimp only
  split <;> exact ⟨rfl, rfl⟩

theorem markBank_targetKeys (f : Bank → Bank) : (l.markBank f).key0 = l.key0 ∧ (l.markBank f).key1 = l.key1 := by
  unfold Ledger.markBank
  split <;> exact ⟨rfl, rfl⟩

theorem setBank_targetKeys (f : Bank → Bank) : (l.setBank f).key0 = l.key0 ∧ (l.setBank f).key1 = l.key1 := by
  obtain ⟨selected0, selected1⟩ := select_targetKeys (l.markBank f) (!(l.markBank f).current) (l.cur.seq + 1)
  obtain ⟨marked0, marked1⟩ := markBank_targetKeys l f
  exact ⟨selected0.trans marked0, selected1.trans marked1⟩

theorem append_targetKeys (body : List Byte) : (l.append body).key0 = l.key0 ∧ (l.append body).key1 = l.key1 := by
  unfold Ledger.append
  dsimp only
  split <;> exact ⟨rfl, rfl⟩

theorem recover_targetKeys : l.recover.key0 = l.key0 ∧ l.recover.key1 = l.key1 := by
  unfold Ledger.recover
  dsimp only
  split
  · exact ⟨(select_targetKeys ..).1, (select_targetKeys ..).2⟩
  · exact ⟨rfl, rfl⟩

end Ledger

section Writes

variable (s : State)

theorem allKeys_writeAppend (body : List Byte) : allKeys (writeAppend s body) = allKeys s :=
  allKeys_lgr _ (append_targetKeys s.lgr body)

theorem allKeys_writeBank (origin : Nat) (f : Bank → Bank) : allKeys (writeBank s origin f) = allKeys s :=
  allKeys_lgr _ (setBank_targetKeys s.lgr f)

theorem allKeys_ownRecord (type : Nat) (data : List Byte) : allKeys (ownRecord s type data).2 = allKeys s := by
  unfold ownRecord
  dsimp only
  split
  · exact allKeys_writeAppend ..
  · rfl

/-- Both states that a settings write can lead to. -/
theorem allKeys_persist (key v : Nat) : allKeys ((persist s key v).1.getD s) = allKeys s ∧ allKeys (persist s key v).2 = allKeys s := by
  unfold persist
  dsimp only
  split
  · exact ⟨rfl, rfl⟩
  · split
    · exact ⟨rfl, rfl⟩
    · split
      · exact ⟨rfl, rfl⟩
      · split
        · exact ⟨allKeys_writeBank .., rfl⟩
        · exact ⟨rfl, rfl⟩

theorem allKeys_setEntry (idx sub v : Nat) : allKeys (setEntry s idx sub v).2 = allKeys s := by
  obtain ⟨committed, failed⟩ := allKeys_persist s (ekey idx sub) v
  unfold setEntry
  dsimp only
  split
  · split
    next t h =>
      rw [h] at committed
      exact committed
    next => exact failed
  · rfl

end Writes

/-! ## Authentication at the target (R245, R380) -/

section Auth

variable (s : State)

theorem allKeys_tgtKey (k : Nat) : allKeys (tgtKey s k).2 = allKeys s := by
  unfold tgtKey
  dsimp only
  split <;> rfl

theorem allKeys_tgtChallenge (k : Nat) (ra : List Byte) : allKeys (tgtChallenge s k ra).2 = allKeys s := allKeys_tgtKey s k

theorem allKeys_answerGood (key : Nat) (c2 : List Byte) : allKeys (answerGood s key c2).2 = allKeys s := by
  unfold answerGood
  split
  · exact allKeys_tgtKey ..
  · rfl

theorem allKeys_lockOut (good : Bool) : allKeys (lockOut s good) = allKeys s := by
  unfold lockOut
  split <;> rfl

theorem allKeys_authOutcome (key org : Nat) (good : Bool) (seq : Option Nat) : allKeys (authOutcome s key org good seq).2 = allKeys s := by
  unfold authOutcome
  cases seq <;> cases good <;> rfl

theorem allKeys_tgtVerify (key : Nat) (c2 : List Byte) : allKeys (tgtVerify s key c2).2 = allKeys s :=
  (allKeys_authOutcome ..).trans ((allKeys_ownRecord ..).trans ((allKeys_lockOut ..).trans (allKeys_answerGood s key c2)))

end Auth

/-! ## The arbiter (R366–R375) -/

section Arbiter

variable (s : State)

theorem allKeys_lRespond (a : LAccess) (st : LStatus) (seq : Nat) : allKeys (lRespond s a st seq) = allKeys s := by
  unfold lRespond
  dsimp only
  split
  · split <;> rfl
  · split <;> rfl
  · split
    · rfl
    · split <;> rfl
  · split <;> rfl

theorem allKeys_lRefuse (a : LAccess) (st : LStatus) : allKeys (lRefuse s a st) = allKeys s := by
  refine (allKeys_lRespond ..).trans ?_
  split <;> rfl

theorem allKeys_lRead (w : Wired) (code arg : Nat) : allKeys (lRead s w code arg) = allKeys s := by
  unfold lRead
  dsimp only
  split <;> rfl

theorem allKeys_lRequest (a : LAccess) : allKeys (lRequest s a) = allKeys s := by
  unfold lRequest
  dsimp only
  split
  · exact allKeys_lRefuse ..
  · rfl

theorem allKeys_lStart (a : LAccess) : allKeys (lStart s a) = allKeys s := by
  unfold lStart
  split
  · exact allKeys_lRead ..
  · split
    · rfl
    · split
      · exact allKeys_lRefuse ..
      · split
        · exact allKeys_lRespond ..
        · dsimp only
          split
          · rfl
          · exact allKeys_lRefuse ..

theorem allKeys_lWrite (a : LAccess) : allKeys (lWrite s a) = allKeys s := by
  unfold lWrite
  split
  · exact allKeys_writeAppend ..
  · exact allKeys_writeBank ..
  · rfl

theorem allKeys_finishRunning : allKeys (finishRunning s) = allKeys s := by
  unfold finishRunning
  split
  · rfl
  · exact (allKeys_lRespond ..).trans (allKeys_lWrite ..)

theorem allKeys_fieldFirst : allKeys (fieldFirst s) = allKeys s := by
  unfold fieldFirst
  split
  · split
    · exact allKeys_finishRunning s
    · rfl
  · rfl

theorem allKeys_setLease (w : Wired) (seconds : Nat) : allKeys (setLease s w seconds).2 = allKeys s := by
  have finished : allKeys (if (s.lgr.running.map (·.port)) = some .field then finishRunning s else s) = allKeys s := by
    split
    · exact allKeys_finishRunning s
    · rfl
  unfold setLease
  dsimp only
  split
  · rfl
  · rw [← finished]
    generalize (if (s.lgr.running.map (·.port)) = some .field then finishRunning s else s) = x
    split
    · rfl
    · split <;> rfl

theorem allKeys_wiredRead (w : Wired) (code arg : Nat) : allKeys (wiredRead w code arg s) = allKeys s := by
  unfold wiredRead
  split
  · exact allKeys_lRequest ..
  · exact allKeys_lRead ..

@[simp] theorem allKeys_spiBegin : allKeys (spiBegin s) = allKeys s := rfl

/-- A wired command does to the keys what its good frame does. -/
theorem allKeys_wiredCmd (w : Wired) (code : Nat) (host : List Byte) (good write : Bool) {f : State → State} (keeps : keepsKeys f) :
    allKeys (wiredCmd s w code host good write f) = allKeys s := by
  unfold wiredCmd
  cases w with
  | i2c =>
    dsimp only
    split
    · simp
    · split
      · exact keeps s
      · cases write <;> simp
  | spi =>
    dsimp only
    split
    · simp
    · split
      · simp
      · split
        · exact keeps _
        · cases write <;> simp

theorem allKeys_execLedgerAccessStart {t : State} (h : execLedgerAccessStart s = .next t) : allKeys t = allKeys s := by
  unfold execLedgerAccessStart at h
  split at h
  · cases h; rfl
  · dsimp only at h
    split at h
    · cases h
      exact allKeys_lStart ..
    · split at h <;> cases h
      · exact allKeys_lStart ..
      · rfl

end Arbiter

/-! ## The target (R376–R382) -/

section Target

variable (s : State)

@[simp] theorem allKeys_apduEnd (data : List Byte) (sw : Nat) : allKeys (apduEnd s data sw) = allKeys s := rfl
@[simp] theorem allKeys_apduRefuse (st : LStatus) : allKeys (apduRefuse s st) = allKeys s := rfl
@[simp] theorem allKeys_releaseRefuse (st : LStatus) (seq : Nat) : allKeys (releaseRefuse s st seq) = allKeys s := rfl
@[simp] theorem allKeys_stpEnd (rcode bind : Nat) (body : List Byte) : allKeys (stpEnd s rcode bind body) = allKeys s := rfl
@[simp] theorem allKeys_stpClear : allKeys (stpClear s) = allKeys s := rfl
@[simp] theorem allKeys_stpSlot (bind : Nat) : allKeys (stpSlot s bind) = allKeys s := rfl
@[simp] theorem allKeys_efStatus : allKeys (efStatus s).2 = allKeys s := rfl

/-- An APDU does to the keys what the application does. -/
theorem allKeys_apdu (pOk : Bool) {f : State → State} (keeps : keepsKeys f) : allKeys (apdu s pOk f) = allKeys s := by
  unfold apdu
  split
  · simp
  · split
    · simp
    · split
      · simp
      · exact (keeps _).trans (allKeys_fieldFirst s)

/-- A frame does to the keys what its reaction does. -/
theorem allKeys_tgtFrame (f : StpRx) (mine claims : Bool) {go : Nat → State → State} (keeps : ∀ n, keepsKeys (go n)) :
    allKeys (tgtFrame s f mine claims go) = allKeys s := by
  unfold tgtFrame
  dsimp only
  split
  · simp
  · split
    · simp
    · split
      · simp
      · split
        · simp
        · exact (keeps _ _).trans (allKeys_fieldFirst _)

theorem allKeys_tgtMargin : allKeys (tgtMargin s).2 = allKeys s := by
  unfold tgtMargin
  split <;> rfl

end Target

/-! ## The radio (R402, R419, R443) -/

section Radio

variable (s : State)

theorem allKeys_nextCounter (n : Fin 256) (frames : Nat) : allKeys (nextCounter s n frames).2 = allKeys s := by
  unfold nextCounter
  dsimp only [allKeys]
  split <;> rfl

theorem allKeys_txStart (k : TxKind) (p : TxPlan) : allKeys (txStart s k p) = allKeys s := by
  unfold txStart
  split
  · rfl
  · lift_lets
    extract_lets
    split
    · rfl
    · split
      · rfl
      · split
        · rfl
        · split
          · rfl
          · exact allKeys_nextCounter ..

theorem allKeys_txTry (k : TxKind) : allKeys (txTry s k) = allKeys s := by
  unfold txTry
  dsimp only
  split
  · rfl
  · split
    · rfl
    · split
      · rfl
      · exact allKeys_txStart ..

theorem allKeys_demodPayloadEnd (d : Fin 8) (symbols : List Nat) (info : RxMeta) : allKeys (demodPayloadEnd s d symbols info) = allKeys s := by
  unfold demodPayloadEnd
  dsimp only
  split
  · rfl
  · split
    · rfl
    · split
      · rfl
      · split
        · rfl
        · split <;> rfl

/-- A write of a partner's state writes no key. -/
theorem allKeys_partnerWrite (n : Fin 256) (v : Nat) : allKeys (partnerWrite s n v).2 = allKeys s := by
  unfold partnerWrite
  dsimp only
  split
  · rfl
  · split
    · split <;> rfl
    · split
      · split <;> rfl
      · rfl

end Radio

/-! ## Power, boot and modes (R27–R61) -/

section Power

variable (s : State)

theorem allKeys_islandStart (keep : Bool) : allKeys (islandStart s keep) = allKeys s :=
  allKeys_lgr _ (recover_targetKeys s.lgr)

theorem allKeys_autoStart (kind : Nat) : allKeys (autoStart s kind) = allKeys s := by
  unfold autoStart
  split <;> rfl

theorem allKeys_resumeStarted : allKeys (resumeStarted s) = allKeys s := by
  unfold resumeStarted
  split <;> rfl

theorem allKeys_finishStarted : allKeys (finishStarted s) = allKeys s :=
  (allKeys_finishRunning _).trans ((allKeys_resumeStarted _).trans (allKeys_finishRunning s))

theorem allKeys_coldStart (keep : Bool) : allKeys (coldStart s keep) = allKeys s :=
  (allKeys_autoStart ..).trans ((allKeys_islandStart ..).trans (allKeys_finishStarted s))

theorem allKeys_suppliesUp (refsel vddio33 : Bool) : allKeys (suppliesUp s refsel vddio33) = allKeys s := by
  unfold suppliesUp
  dsimp only
  split
  · rfl
  · exact allKeys_coldStart ..

theorem allKeys_resetHeld : allKeys (resetHeld s) = allKeys s :=
  (allKeys_lgr _ (recover_targetKeys _)).trans (allKeys_finishStarted s)

theorem allKeys_interruptRunning : allKeys (interruptRunning s) = allKeys s := by
  unfold interruptRunning
  split
  · rfl
  · refine allKeys_lgr _ ?_
    dsimp only
    split
    · exact ⟨rfl, rfl⟩
    · split
      · exact markBank_targetKeys ..
      · split <;> exact ⟨rfl, rfl⟩
    · exact ⟨rfl, rfl⟩

theorem allKeys_unpowered : allKeys (unpowered s) = allKeys s :=
  (allKeys_interruptRunning _).trans ((allKeys_resumeStarted _).trans (allKeys_interruptRunning s))

theorem allKeys_mainLost : allKeys (mainLost s) = allKeys s := by
  unfold mainLost
  extract_lets o x y
  split
  · rfl
  · refine Eq.trans ?_ (allKeys_finishStarted x)
    split
    · split <;> rfl
    · exact allKeys_unpowered _

theorem allKeys_vaoFall : allKeys (vaoFall s) = allKeys s := by
  unfold vaoFall
  dsimp only
  split
  · rfl
  · split
    · rfl
    · exact allKeys_unpowered _

theorem allKeys_islandAlone : allKeys (islandAlone s) = allKeys s := by
  refine Eq.trans ?_ (allKeys_islandStart s false)
  unfold islandAlone
  dsimp only
  split <;> rfl

theorem allKeys_vaoRise : allKeys (vaoRise s) = allKeys s := by
  unfold vaoRise
  dsimp only
  split
  · rfl
  · exact allKeys_islandAlone _

theorem allKeys_fieldDetected (strength : Nat) : allKeys (fieldDetected s strength) = allKeys s := by
  unfold fieldDetected
  dsimp only
  split
  · rfl
  · split
    · rfl
    · split
      · split
        · rfl
        · exact allKeys_islandAlone _
      · rfl

theorem allKeys_fieldLost (asDeclared : Bool) : allKeys (fieldLost s asDeclared) = allKeys s := by
  unfold fieldLost
  dsimp only
  split
  · rfl
  · split
    · refine (allKeys_unpowered _).trans ?_
      split
      · exact allKeys_finishStarted _
      · rfl
    · rfl

theorem allKeys_rescueEnds : allKeys (rescueEnds s) = allKeys s := by
  unfold rescueEnds
  dsimp only
  split
  · rfl
  · split
    · exact allKeys_coldStart ..
    · rfl

theorem allKeys_resetWrite (v : Nat) : allKeys (resetWrite s v).2 = allKeys s := by
  unfold resetWrite
  split
  · rfl
  · split
    · rfl
    · exact allKeys_coldStart ..

theorem allKeys_modeByWindow (code : Nat) (dchk : Byte) : allKeys (modeByWindow s code dchk) = allKeys s := by
  unfold modeByWindow
  dsimp only
  split
  · simp
  · split <;> simp

theorem allKeys_firmwareReady : allKeys (firmwareReady s) = allKeys s := by
  unfold firmwareReady
  split <;> rfl

/-- An SPI transaction does to the keys what it goes on to. -/
theorem allKeys_spiTransaction (valid : Main → Bool) {f : State → State} (keeps : keepsKeys f) :
    allKeys (spiTransaction s valid f) = allKeys s := by
  unfold spiTransaction
  dsimp only
  split
  · simp
  · split
    · exact keeps _
    · simp

end Power

/-! ## Settings that persist (R46) -/

section Settings

variable (s : State)

theorem allKeys_sourceWrite (v : Nat) : allKeys (sourceWrite s v).2 = allKeys s := by
  unfold sourceWrite
  split
  · rfl
  · split
    · rfl
    · split
      · rfl
      · extract_lets fresh r
        refine Eq.trans ?_ (allKeys_setEntry { s with m := fresh } 0x2000 0x01 v)
        split <;> rfl

theorem allKeys_nominalWrite (v : Nat) : allKeys (nominalWrite s v).2 = allKeys s := by
  unfold nominalWrite
  dsimp only
  split
  · rfl
  · split
    · rfl
    · split
      · rfl
      · refine Eq.trans ?_ (allKeys_setEntry s 0x2000 0x0A v)
        split
        · split <;> rfl
        · rfl

theorem allKeys_nodeWrite (v : Nat) : allKeys (nodeWrite s v).2 = allKeys s := by
  unfold nodeWrite
  split
  · exact allKeys_setEntry ..
  · rfl

theorem allKeys_profileWrite (v : Nat) : allKeys (profileWrite s v).2 = allKeys s := by
  refine Eq.trans ?_ (allKeys_setEntry s 0x4000 0x02 v)
  unfold profileWrite
  dsimp only
  split <;> rfl

/-- A service that waits for the ledger, or for the controller, does to the keys what it does in the end. -/
theorem allKeys_onServiceAll {f : State → State} {t : State} (keeps : keepsKeys f) (h : onServiceAll f s = .next t) : allKeys t = allKeys s := by
  cases h
  split
  · rfl
  · exact keeps s

theorem allKeys_onLedger {idx sub v : Nat} {f : State → State} {t : State} (keeps : keepsKeys f) (h : onLedger idx sub v f s = .next t) :
    allKeys t = allKeys s := by
  refine allKeys_onServiceAll s (fun x => ?_) h
  split
  · rfl
  · exact keeps x

end Settings

/-! ## Commands that leave the keys where they are -/

section Commands

variable {s t : State}

/-- A command that changes the main part alone. -/
theorem allKeys_of_main {m : Main} (h : (.next { s with m := m } : Out) = .next t) : allKeys t = allKeys s := by
  cases h
  rfl

theorem allKeys_of_next {x : State} (h : (.next x : Out) = .next t) (same : allKeys x = allKeys s) : allKeys t = allKeys s := by
  cases h
  exact same

theorem allKeys_stitchProbe {e : Fin 24} {c : Fin 2} {zMag : Nat} {zArg : Int} {level noise : Nat}
    (h : exec (.stitchProbe e c zMag zArg level noise) s = .next t) : allKeys t = allKeys s := by
  have h' : execStitchProbe e c zMag zArg level noise s = .next t := h
  unfold execStitchProbe at h'
  split at h'
  · exact allKeys_of_main (s := { s with m := probe s.m e c }) h'
  · exact allKeys_of_next h' rfl

theorem allKeys_tgtApduSelect {p1 p2 : Byte} {aid : List Byte} (h : exec (.tgtApduSelect p1 p2 aid) s = .next t) : allKeys t = allKeys s := by
  refine allKeys_of_next h ?_
  split
  · simp
  · split <;> simp

theorem allKeys_tgtReadBinary {p1 p2 : Byte} {le : Nat} (h : exec (.tgtReadBinary p1 p2 le) s = .next t) : allKeys t = allKeys s := by
  refine allKeys_of_next h (allKeys_apdu _ _ fun x => ?_)
  dsimp only
  split <;> simp

theorem allKeys_tgtReadRecord {p1 p2 : Byte} (h : exec (.tgtReadRecord p1 p2) s = .next t) : allKeys t = allKeys s :=
  allKeys_of_next h (allKeys_apdu _ _ fun x => (allKeys_apduEnd ..).trans (allKeys_m x _))

theorem allKeys_tgtAppendRecord {p1 p2 : Byte} {data : List Byte} (h : exec (.tgtAppendRecord p1 p2 data) s = .next t) :
    allKeys t = allKeys s := by
  refine allKeys_of_next h (allKeys_apdu _ _ fun x => ?_)
  dsimp only
  split
  · simp
  · split
    · simp
    · split
      · simp
      · exact allKeys_lRequest ..

theorem allKeys_tgtUpdateRecord {p1 p2 : Byte} {data : List Byte} (h : exec (.tgtUpdateRecord p1 p2 data) s = .next t) :
    allKeys t = allKeys s := by
  refine allKeys_of_next h (allKeys_apdu _ _ fun x => ?_)
  dsimp only
  split
  · simp
  · split
    · simp
    · exact allKeys_lRequest ..

theorem allKeys_tgtInternalAuth {p1 p2 : Byte} {ra : List Byte} (h : exec (.tgtInternalAuth p1 p2 ra) s = .next t) : allKeys t = allKeys s := by
  refine allKeys_of_next h (allKeys_apdu _ _ fun x => ?_)
  dsimp only
  split
  · simp
  · split
    · simp
    · exact (allKeys_apduEnd ..).trans ((allKeys_tgtChallenge ..).trans (allKeys_m x _))

theorem allKeys_tgtExternalAuth {p1 p2 : Byte} {c2 : List Byte} (h : exec (.tgtExternalAuth p1 p2 c2) s = .next t) : allKeys t = allKeys s := by
  refine allKeys_of_next h (allKeys_apdu _ _ fun x => ?_)
  dsimp only
  split
  · simp
  · exact (allKeys_apduEnd ..).trans (allKeys_tgtVerify ..)

theorem allKeys_tgtRelease {p1 p2 : Byte} (h : exec (.tgtRelease p1 p2) s = .next t) : allKeys t = allKeys s := by
  refine allKeys_of_next h (allKeys_apdu _ _ fun x => ?_)
  dsimp only
  split
  · simp
  · split
    · simp
    · split <;> exact allKeys_ownRecord ..

theorem allKeys_tgtApduUnknown {cla ins p1 p2 : Byte} (h : exec (.tgtApduUnknown cla ins p1 p2) s = .next t) : allKeys t = allKeys s := by
  refine allKeys_of_next h ?_
  split
  · simp
  · dsimp only
    split
    · simp
    · split
      · simp
      · split
        · simp
        · split <;> simp

theorem allKeys_releaseVoltageReached (h : exec .releaseVoltageReached s = .next t) : allKeys t = allKeys s := by
  refine allKeys_of_next h ?_
  split <;> simp

theorem allKeys_releaseWaitTimeout (h : exec .releaseWaitTimeout s = .next t) : allKeys t = allKeys s := by
  refine allKeys_of_next h ?_
  split
  · simp
  · dsimp only
    split
    · exact (allKeys_releaseRefuse ..).trans rfl
    · simp

theorem allKeys_tgtStpSeek {f : StpRx} (h : exec (.tgtStpSeek f) s = .next t) : allKeys t = allKeys s := by
  refine allKeys_of_next h (allKeys_tgtFrame _ _ _ _ fun n x => ?_)
  dsimp only
  split
  · simp
  · split
    · split
      · simp
      · split <;> simp
    · split
      · split <;> simp
      · split <;> simp

theorem allKeys_tgtStpSingle {f : StpRx} (h : exec (.tgtStpSingle f) s = .next t) : allKeys t = allKeys s := by
  refine allKeys_of_next h (allKeys_tgtFrame _ _ _ _ fun n x => ?_)
  dsimp only
  split <;> simp

theorem allKeys_tgtStpSelect {f : StpRx} (h : exec (.tgtStpSelect f) s = .next t) : allKeys t = allKeys s := by
  refine allKeys_of_next h (allKeys_tgtFrame _ _ _ _ fun n x => ?_)
  dsimp only
  split
  · simp
  · refine (allKeys_stpEnd ..).trans ((allKeys_tgtMargin _).trans ?_)
    split <;> simp

theorem allKeys_tgtStpSetLink {f : StpRx} (h : exec (.tgtStpSetLink f) s = .next t) : allKeys t = allKeys s := by
  refine allKeys_of_next h (allKeys_tgtFrame _ _ _ _ fun n x => ?_)
  dsimp only
  split
  · simp
  · split
    · split <;> simp
    · split
      · simp
      · split <;> simp

theorem allKeys_tgtStpRead {f : StpRx} (h : exec (.tgtStpRead f) s = .next t) : allKeys t = allKeys s := by
  refine allKeys_of_next h (allKeys_tgtFrame _ _ _ _ fun n x => ?_)
  dsimp only
  split
  · simp
  · split
    · simp
    · split
      · simp
      · split <;> split <;> simp

theorem allKeys_tgtStpArm {f : StpRx} (h : exec (.tgtStpArm f) s = .next t) : allKeys t = allKeys s := by
  refine allKeys_of_next h (allKeys_tgtFrame _ _ _ _ fun n x => ?_)
  dsimp only
  split
  · simp
  · split
    · simp
    · split
      · simp
      · exact (allKeys_stpEnd ..).trans (allKeys_tgtMargin _)

theorem allKeys_tgtStpCommit {f : StpRx} (h : exec (.tgtStpCommit f) s = .next t) : allKeys t = allKeys s := by
  refine allKeys_of_next h (allKeys_tgtFrame _ _ _ _ fun n x => ?_)
  dsimp only
  split
  · simp
  · split
    · split
      · simp
      · split
        · exact allKeys_lRefuse ..
        · exact allKeys_lRequest ..
    · split <;> simp

theorem allKeys_tgtStpQuiet {f : StpRx} (h : exec (.tgtStpQuiet f) s = .next t) : allKeys t = allKeys s := by
  refine allKeys_of_next h (allKeys_tgtFrame _ _ _ _ fun n x => ?_)
  dsimp only
  split
  · simp
  · split <;> simp

theorem allKeys_tgtStpRelease {f : StpRx} (h : exec (.tgtStpRelease f) s = .next t) : allKeys t = allKeys s := by
  refine allKeys_of_next h (allKeys_tgtFrame _ _ _ _ fun n x => ?_)
  dsimp only
  split
  · simp
  · split <;> simp

theorem allKeys_tgtStpAuth1 {f : StpRx} (h : exec (.tgtStpAuth1 f) s = .next t) : allKeys t = allKeys s := by
  refine allKeys_of_next h (allKeys_tgtFrame _ _ _ _ fun n x => ?_)
  dsimp only
  split
  · simp
  · split
    · simp
    · split
      · simp
      · exact (allKeys_stpEnd ..).trans (allKeys_tgtChallenge ..)

theorem allKeys_tgtStpAuth2 {f : StpRx} (h : exec (.tgtStpAuth2 f) s = .next t) : allKeys t = allKeys s := by
  refine allKeys_of_next h (allKeys_tgtFrame _ _ _ _ fun n x => ?_)
  dsimp only
  split
  · simp
  · split <;> exact (allKeys_stpEnd ..).trans (allKeys_tgtVerify ..)

theorem allKeys_tgtStpUnknownFrame {f : StpRx} (h : exec (.tgtStpUnknownFrame f) s = .next t) : allKeys t = allKeys s := by
  refine allKeys_of_next h (allKeys_tgtFrame _ _ _ _ fun n x => ?_)
  split
  · split <;> simp
  · simp

theorem allKeys_ledgerAppendAudit {w : Wired} {stampLo : BitVec 16} {data : List Byte} {check : BitVec 16}
    (h : exec (.ledgerAppendAudit w stampLo data check) s = .next t) : allKeys t = allKeys s := by
  refine allKeys_of_next h (allKeys_wiredCmd _ _ _ _ _ _ fun x => ?_)
  split
  · exact allKeys_lRefuse ..
  · exact allKeys_lRequest ..

theorem allKeys_ledgerWriteSetting {w : Wired} {record : BitVec 16} {data : List Byte} {check : BitVec 16}
    (h : exec (.ledgerWriteSetting w record data check) s = .next t) : allKeys t = allKeys s := by
  refine allKeys_of_next h (allKeys_wiredCmd _ _ _ _ _ _ fun x => ?_)
  split
  · exact allKeys_lRefuse ..
  · exact allKeys_lRequest ..

theorem allKeys_wiredAccessTimeout {w : Wired} (h : exec (.wiredAccessTimeout w) s = .next t) : allKeys t = allKeys s := by
  have h' : execWiredAccessTimeout w s = .next t := h
  unfold execWiredAccessTimeout at h'
  split at h' <;> cases h'
  · simp
  · exact allKeys_lRefuse ..

theorem allKeys_modeRequest {code : BitVec 8} {window : Option Byte} (h : exec (.modeRequest code window) s = .next t) :
    allKeys t = allKeys s := by
  cases window with
  | some dchk => exact allKeys_of_next h (allKeys_modeByWindow ..)
  | none => exact allKeys_of_main h

theorem allKeys_radioProfileWrite {value : BitVec 8} (h : exec (.radioProfileWrite value) s = .next t) : allKeys t = allKeys s := by
  have keeps : keepsKeys fun x => if x.m.pw.mode == .calibrate && decide (value.toNat ≤ 2) then (profileWrite x value.toNat).2 else x := by
    intro x
    dsimp only
    split
    · exact allKeys_profileWrite ..
    · simp
  exact allKeys_onLedger s keeps h

theorem allKeys_partnerStateWrite {n : Fin 256} {value : BitVec 8} (h : exec (.partnerStateWrite n value) s = .next t) :
    allKeys t = allKeys s := by
  have keeps : keepsKeys fun x => if x.m.pw.mode.isMain then (partnerWrite x n value.toNat).2 else x := by
    intro x
    dsimp only
    split
    · exact allKeys_partnerWrite ..
    · simp
  exact allKeys_onServiceAll s keeps h

theorem allKeys_canNodeWrite {value : BitVec 8} (h : exec (.canNodeWrite value) s = .next t) : allKeys t = allKeys s := by
  have h' : execCanNodeWrite value s = .next t := h
  unfold execCanNodeWrite at h'
  refine allKeys_onServiceAll s (fun x => Eq.trans ?_ (allKeys_nodeWrite x value.toNat)) h'
  dsimp only
  split <;> simp

theorem allKeys_txHoldRelease (h : exec .txHoldRelease s = .next t) : allKeys t = allKeys s := by
  refine allKeys_of_next h ?_
  split
  · exact allKeys_txTry ..
  · simp

end Commands

end Sys2Proof.Machine
end

section
/-!
What a write of a dictionary entry, and a command of the dictionary service, can do to the keys (R246, R421, R442).
-/

namespace Sys2Proof.Machine

/-! ## What a write of an entry does to the keys -/

section Entries

variable (s : State)

/-- Only a code that is the bit of CALIBRATE alone has this mask. -/
theorem calibrate_of_mask {a : Mode} (open_ : bitAt 0x10 a.code = true) : a = .calibrate := by
  cases a
  case calibrate => rfl
  all_goals exact absurd open_ (by decide)

theorem isMain_of_mask {a : Mode} (open_ : bitAt 0x3C a.code = true) : a.isMain = true := by
  cases a
  case survey | transact | calibrate | emulate => rfl
  all_goals exact absurd open_ (by decide)

/-- The entry of a write that passes the checks (R452): its mode is open, and its size is that of the data. -/
theorem checkWrite_passed {m : Main} {r : Requester} {idx sub len : Nat} (passed : checkWrite m r idx sub len = 0) :
    ∃ e, entryInfo idx sub = some e ∧ bitAt e.modes m.pw.mode.code = true ∧ len = e.size := by
  unfold checkWrite at passed
  dsimp only at passed
  split at passed
  next failed => simp [passed] at failed
  next =>
    split at passed
    · exact absurd passed (by decide)
    next e found =>
      split at passed
      · exact absurd passed (by decide)
      next open_ =>
        split at passed
        · exact absurd passed (by decide)
        next size => exact ⟨e, found, by simpa using open_, by simpa using size⟩

/-- The row of an entry that is no counter, no subindex 0 and none of the service's own. -/
theorem entryInfo_row {idx sub : Nat} {e : EntryRow} (found : entryInfo idx sub = some e) (page : idx / 256 ≠ 0x70) (low : 0 < sub)
    (high : sub < 0xF0) : e ∈ entryPage (idx / 256) ∧ e.base ≤ idx ∧ e.lo ≤ sub ∧ sub ≤ e.hi := by
  have row : entryRow idx sub = some e := by
    unfold entryInfo at found
    dsimp only at found
    rw [if_neg (by omega), if_neg (by simpa [counterPage] using page), if_neg (by omega)] at found
    exact found
  have holds := List.find?_some row
  simp only [Bool.and_eq_true, decide_eq_true_eq] at holds
  obtain ⟨⟨⟨base, -⟩, lo⟩, hi⟩ := holds
  exact ⟨List.mem_of_find?_eq_some row, base, lo, hi⟩

/-- The mode of a fob key slot (R249). -/
theorem fobKey_row {sub : Nat} {e : EntryRow} (found : entryInfo 0x2500 sub = some e) (low : 0x10 ≤ sub) (high : sub ≤ 0x17) : e.modes = 0x10 := by
  have rows : ∀ e ∈ rows25, ∀ sub < 0x18, 0x10 ≤ sub → e.lo ≤ sub → sub ≤ e.hi → e.modes = 0x10 := by decide
  obtain ⟨row, -, lo, hi⟩ := entryInfo_row found (by decide) (by omega) (by omega)
  exact rows e row sub (by omega) low lo hi

/-- The mode of the erase entry (R442). -/
theorem keyErase_row {e : EntryRow} (found : entryInfo 0x4100 0x17 = some e) : e.modes = 0x10 := by
  have rows : ∀ e ∈ rows41, e.base ≤ 0x4100 → e.lo ≤ 0x17 → 0x17 ≤ e.hi → e.modes = 0x10 := by decide
  obtain ⟨row, base, lo, hi⟩ := entryInfo_row found (by decide) (by omega) (by omega)
  exact rows e row base lo hi

/-- The modes of a partner key (R443). -/
theorem partnerKey_row {idx : Nat} {e : EntryRow} (page : idx / 256 = 0x42) (found : entryInfo idx 3 = some e) : e.modes = 0x3C := by
  have rows : ∀ e ∈ rows42, e.lo ≤ 3 → 3 ≤ e.hi → e.modes = 0x3C := by decide
  obtain ⟨row, -, lo, hi⟩ := entryInfo_row found (by omega) (by omega) (by omega)
  rw [page] at row
  exact rows e row lo hi

/-- The mode and the size of a target key (R385). -/
theorem targetKey_row {idx sub : Nat} {e : EntryRow} (page : idx / 256 = 0x60) (key : sub = 0x0D ∨ sub = 0x0E)
    (found : entryInfo idx sub = some e) : e.modes = 0x10 ∧ e.size = 16 := by
  have rows : ∀ e ∈ rows60, ∀ sub ∈ [0x0D, 0x0E], e.lo ≤ sub → sub ≤ e.hi → e.modes = 0x10 ∧ e.size = 16 := by decide
  obtain ⟨row, -, lo, hi⟩ := entryInfo_row found (by omega) (by omega) (by omega)
  rw [page] at row
  exact rows e row sub (by simpa using key) lo hi

theorem allKeys_plainWrite (idx sub v : Nat) : allKeys (plainWrite s idx sub v).2 = allKeys s := allKeys_setEntry ..

theorem allKeys_write18 (viaCan : Bool) (idx sub v : Nat) : allKeys (write18 s viaCan idx sub v).2 = allKeys s := by
  unfold write18
  dsimp only
  split
  · rfl
  · split
    · split
      · exact allKeys_nodeWrite ..
      · exact (allKeys_m ..).trans (allKeys_nodeWrite ..)
    · split
      · split
        · rfl
        · exact allKeys_plainWrite ..
      · split
        · rfl
        · split
          · rfl
          · split
            · rfl
            · exact allKeys_plainWrite ..

theorem allKeys_write20 (idx sub v : Nat) : allKeys (write20 s idx sub v).2 = allKeys s := by
  unfold write20
  dsimp only
  split
  · split
    · exact allKeys_sourceWrite ..
    · split
      · rfl
      · split
        · rfl
        · split
          · exact allKeys_nominalWrite ..
          · split
            · exact (allKeys_m ..).trans (allKeys_plainWrite ..)
            · exact allKeys_plainWrite ..
  · split <;> rfl

theorem allKeys_write21 (idx sub v : Nat) : allKeys (write21 s idx sub v).2 = allKeys s := by
  unfold write21
  dsimp only
  split
  · rfl
  · split
    · split <;> rfl
    · exact allKeys_plainWrite ..

theorem allKeys_write22 (idx sub v : Nat) : allKeys (write22 s idx sub v).2 = allKeys s := by
  unfold write22
  dsimp only
  split
  · rfl
  · split
    · exact (allKeys_m ..).trans (allKeys_plainWrite ..)
    · exact allKeys_plainWrite ..

theorem allKeys_write30 (idx sub v : Nat) : allKeys (write30 s idx sub v).2 = allKeys s := by
  unfold write30
  dsimp only
  split
  · exact allKeys_plainWrite ..
  · split
    · rfl
    · split <;> rfl

theorem allKeys_write34 (idx sub v : Nat) : allKeys (write34 s idx sub v).2 = allKeys s := by
  unfold write34
  dsimp only
  split
  · exact allKeys_plainWrite ..
  · split
    · rfl
    · split
      · rfl
      · split <;> rfl

theorem allKeys_write40 (idx sub v : Nat) : allKeys (write40 s idx sub v).2 = allKeys s := by
  unfold write40
  dsimp only
  split
  · rfl
  · split
    · exact allKeys_profileWrite ..
    · split
      · rfl
      · exact allKeys_plainWrite ..

theorem allKeys_write50 (idx sub v : Nat) : allKeys (write50 s idx sub v).2 = allKeys s := by
  unfold write50
  split
  · split
    · rfl
    · split
      · rfl
      · exact allKeys_plainWrite ..
  · split <;> rfl

theorem allKeys_write71 (sub v : Nat) : allKeys (write71 s sub v).2 = allKeys s := by
  unfold write71
  split
  · rfl
  · split
    · rfl
    · split <;> exact allKeys_plainWrite ..

/-- What a write of an entry can do to the keys, with the mode it is open in and the length of its data. -/
inductive KeyWrite (a : Mode) (len : Nat) (s t : State) : Prop where
  | none (same : allKeys t = allKeys s)
  | store (calibrate : a = .calibrate) (ledger : t.lgr = s.lgr)
  | partner (main : a.isMain = true) (ledger : t.lgr = s.lgr) (fob : t.keys.fobKeys = s.keys.fobKeys)
  | target (calibrate : a = .calibrate) (size : len = 16) (store : t.keys = s.keys)

variable {s} {a : Mode} {idx sub v len : Nat} {e : EntryRow}

/-- A choice between two writes does what the one taken does. -/
theorem keyWrite_ite {c : Prop} [Decidable c] {x y : Nat × State} (pos : c → KeyWrite a len s x.2) (neg : ¬c → KeyWrite a len s y.2) :
    KeyWrite a len s (if c then x else y).2 := by
  split
  next taken => exact pos taken
  next other => exact neg other

section Pages

variable (found : entryInfo idx sub = some e) (open_ : bitAt e.modes a.code = true) (size : len = e.size)
include found open_

theorem keyWrite_write25 : KeyWrite a len s (write25 s idx sub v).2 := by
  unfold write25
  split
  next slot =>
    simp only [Bool.and_eq_true, decide_eq_true_eq] at slot
    obtain ⟨⟨rfl, low⟩, high⟩ := slot
    rw [fobKey_row found low high] at open_
    exact .store (calibrate_of_mask open_) rfl
  next =>
    split
    · exact .none rfl
    · split
      · exact .none rfl
      · exact .none (allKeys_plainWrite ..)

theorem keyWrite_write41 : KeyWrite a len s (write41 s idx sub v).2 := by
  unfold write41
  split
  next entry =>
    simp only [Bool.and_eq_true, decide_eq_true_eq] at entry
    obtain ⟨rfl, rfl⟩ := entry
    rw [keyErase_row found] at open_
    exact .store (calibrate_of_mask open_) rfl
  next =>
    split
    · split <;> exact .none rfl
    · exact .none (allKeys_plainWrite ..)

theorem keyWrite_write42 (page : idx / 256 = 0x42) : KeyWrite a len s (write42 s idx sub v).2 := by
  have key (chosen : sub = 3) : a.isMain = true := by
    subst chosen
    rw [partnerKey_row page found] at open_
    exact isMain_of_mask open_
  unfold write42
  refine keyWrite_ite (fun _ => .none (allKeys_partnerWrite ..)) fun _ => ?_
  refine keyWrite_ite (fun chosen => .partner (key chosen) rfl rfl) fun _ => ?_
  iterate 7 refine keyWrite_ite (fun _ => .none rfl) fun _ => ?_
  exact .none rfl

include size in
theorem keyWrite_write60 (page : idx / 256 = 0x60) : KeyWrite a len s (write60 s idx sub v).2 := by
  have key (chosen : sub = 0x0D ∨ sub = 0x0E) : a = .calibrate ∧ len = 16 := by
    obtain ⟨modes, wide⟩ := targetKey_row page chosen found
    rw [modes] at open_
    exact ⟨calibrate_of_mask open_, size.trans wide⟩
  unfold write60
  refine keyWrite_ite (fun _ => .none (allKeys_setLease ..)) fun _ => ?_
  refine keyWrite_ite (fun chosen => .target (key (.inl chosen)).1 (key (.inl chosen)).2 rfl) fun _ => ?_
  refine keyWrite_ite (fun chosen => .target (key (.inr chosen)).1 (key (.inr chosen)).2 rfl) fun _ => ?_
  exact keyWrite_ite (fun _ => .none rfl) fun _ => .none (allKeys_plainWrite ..)

include size in
theorem keyWrite_applyWrite (viaCan : Bool) : KeyWrite a len s (applyWrite s viaCan idx sub v).2 := by
  unfold applyWrite
  refine keyWrite_ite (fun _ => ?_) fun _ => ?_
  · refine keyWrite_ite (fun _ => .none rfl) fun _ => ?_
    exact keyWrite_ite (fun _ => .none (allKeys_resetWrite ..)) fun _ => .none (allKeys_plainWrite ..)
  refine keyWrite_ite (fun _ => .none (allKeys_write18 ..)) fun _ => ?_
  refine keyWrite_ite (fun _ => .none (allKeys_write20 ..)) fun _ => ?_
  refine keyWrite_ite (fun _ => .none (allKeys_write21 ..)) fun _ => ?_
  refine keyWrite_ite (fun _ => .none (allKeys_write22 ..)) fun _ => ?_
  refine keyWrite_ite (fun _ => keyWrite_write25 found open_) fun _ => ?_
  refine keyWrite_ite (fun _ => .none (allKeys_write30 ..)) fun _ => ?_
  refine keyWrite_ite (fun _ => .none (allKeys_write34 ..)) fun _ => ?_
  refine keyWrite_ite (fun _ => .none (allKeys_write40 ..)) fun _ => ?_
  refine keyWrite_ite (fun _ => keyWrite_write41 found open_) fun _ => ?_
  refine keyWrite_ite (fun page => keyWrite_write42 found open_ page) fun _ => ?_
  refine keyWrite_ite (fun _ => .none (allKeys_write50 ..)) fun _ => ?_
  refine keyWrite_ite (fun page => keyWrite_write60 found open_ size page) fun _ => ?_
  exact keyWrite_ite (fun _ => .none (allKeys_write71 ..)) fun _ => .none (allKeys_plainWrite ..)

end Pages

/-- All that a write of an entry can do to the keys. -/
theorem keyWrite_writeEntry (r : Requester) (data : List Byte) : KeyWrite s.m.pw.mode data.length s (writeEntry s r idx sub data).2 := by
  unfold writeEntry
  dsimp only
  split
  · refine .none ?_
    split <;> rfl
  next passed =>
    obtain ⟨e, found, open_, size⟩ := checkWrite_passed (by simpa using passed)
    split
    · exact .none rfl
    · exact keyWrite_applyWrite found open_ size _

end Entries

/-! ## The mode while a message is served (R348, R560) -/

section ModeKept

variable {m a b c : Main}

/-- The mode is as it was, or HOLD has been entered. -/
def modeKept (a b : Main) : Prop := b.pw.mode = a.pw.mode ∨ b.pw.mode = .hold

theorem modeKept_of_pw (same : b.pw = a.pw) : modeKept a b := .inl (congrArg Power.mode same)

theorem modeKept_of_pool (h : poolOnly a b) : modeKept a b := modeKept_of_pw (poolOnly_pw_eq h)

theorem modeKept_trans (h : modeKept a b) (g : modeKept b c) : modeKept a c := by
  rcases g with g | g
  · rcases h with h | h
    · exact .inl (g.trans h)
    · exact .inr (g.trans h)
  · exact .inr g

theorem modeKept_enterHold (m : Main) (cause : Nat) (units : List Nat) : modeKept m (enterHold m cause units) := by
  cases main : m.pw.mode.isMain with
  | false => exact .inl (by rw [enterHold_other m cause units main])
  | true => exact .inr (enterHold_enters m cause units main).1

theorem modeKept_unitFault (m : Main) (u cause : Nat) (nested out : Bool) : modeKept m (unitFault m u cause nested out) := by
  obtain ⟨x, told, e | ⟨units, e⟩⟩ := unitFault_cases m u cause nested out
  · rw [e]
    exact modeKept_of_pool told
  · rw [e]
    exact modeKept_trans (modeKept_of_pool told) (modeKept_enterHold ..)

theorem modeKept_poolFault (m : Main) (cause : Nat) : modeKept m (poolFault m cause) := by
  unfold poolFault vitalFault
  dsimp only
  have fault := modeKept_unitFault { m with pool := { m.pool with state := 3, faulted := true } } 0x29 cause (m.pool.state == 3) false
  split
  · exact modeKept_trans fault (modeKept_enterHold ..)
  · exact fault

theorem modeKept_doubleError (m : Main) (q : Fin 32) (cell : Nat) : modeKept m (doubleError m q cell) := by
  unfold doubleError retireCell
  have told := poolOnly_trans (poolOnly_count m 0x70C0 0x07) (poolOnly_journal _ 0x30 0x5001 [q.val, cell])
  generalize journal (count m 0x70C0 0x07) 0x30 0x5001 [q.val, cell] = x at told
  have retired := poolOnly_trans told (poolOnly_trans (poolOnly_pool x { x.pool with
    retired := x.pool.retired ++ [cell], singles := mapDel cell x.pool.singles }) (poolOnly_journal _ 0x30 0x5002 [cell]))
  dsimp only
  split
  · exact modeKept_of_pool told
  · split
    · exact modeKept_trans (modeKept_of_pool retired) (modeKept_poolFault ..)
    · exact modeKept_of_pool retired

theorem modeKept_clearHead (n : Nat) (m : Main) (q : Fin 32) : modeKept m (clearHead n m q) := by
  induction n generalizing m with
  | zero => exact .inl rfl
  | succ n ih =>
    unfold clearHead
    split
    · split
      · exact .inl rfl
      · split
        · split
          · exact modeKept_trans (modeKept_doubleError (dropHead m q) q _) (ih _)
          · exact .inl rfl
        · exact .inl rfl
    · exact .inl rfl

/-- A consumer that looks at the head of its queue can meet the last error that the pool bears. -/
theorem modeKept_headOf (m : Main) (q : Fin 32) : modeKept m (headOf m q).2 := by
  have cleared := modeKept_clearHead (m.pool.qs[q]).pkts.length m q
  unfold headOf
  dsimp only
  split
  · exact cleared
  · split
    · exact modeKept_trans cleared (modeKept_trans (modeKept_doubleError (dropHead _ q) q _) (modeKept_of_pool (poolOnly_count ..)))
    · exact cleared

theorem modeKept_dropHead (h : modeKept a b) (q : Fin 32) : modeKept a (dropHead b q) := h

theorem takeTrack_pw (m : Main) (r : Requester) (alive : Nat) : (takeTrack m r alive).2.pw = m.pw := by
  unfold takeTrack
  dsimp only
  split
  · split
    · rfl
    · exact count_pw ..
  · split
    · exact count_pw ..
    · split
      · exact count_pw ..
      · exact countIf_pw ..

theorem checkMsg_pw (m : Main) (bs : List Byte) : (checkMsg m bs).pw = m.pw := by
  unfold checkMsg
  split <;> rfl

end ModeKept

/-! ## What the dictionary service does to the keys (R452–R472) -/

section Service

/-- What a command may do to the keys: `writes` tells whether it can write an entry, `wide` whether it can carry the 16 bytes of a key. -/
structure KeysReach (writes wide : Bool) (s t : State) : Prop where
  fob     : s.m.pw.mode ≠ .calibrate → t.keys.fobKeys = s.keys.fobKeys
  target  : s.m.pw.mode ≠ .calibrate ∨ wide = false → t.lgr.key0 = s.lgr.key0 ∧ t.lgr.key1 = s.lgr.key1
  partner : s.m.pw.mode.isMain = false → t.keys.partner = s.keys.partner
  reads   : writes = false → allKeys t = allKeys s

variable {writes wide : Bool} {s s' t t' : State}

theorem allKeys_eq_iff : allKeys t = allKeys s ↔
    t.keys.fobKeys = s.keys.fobKeys ∧ t.keys.partner = s.keys.partner ∧ t.lgr.key0 = s.lgr.key0 ∧ t.lgr.key1 = s.lgr.key1 := by
  simp only [allKeys, Prod.mk.injEq]

theorem keysReach_same (same : allKeys t = allKeys s) : KeysReach writes wide s t := by
  obtain ⟨fob, partner, target⟩ := allKeys_eq_iff.mp same
  exact ⟨fun _ => fob, fun _ => target, fun _ => partner, fun _ => same⟩

/-- Steps before and after that leave the keys, the one before no less the mode than an entry to HOLD. -/
theorem keysReach_between (h : KeysReach writes wide s' t') (mode : modeKept s.m s'.m) (before : allKeys s' = allKeys s)
    (after : allKeys t = allKeys t') : KeysReach writes wide s t := by
  obtain ⟨fob, partner, target⟩ := allKeys_eq_iff.mp before
  obtain ⟨fob', partner', target'⟩ := allKeys_eq_iff.mp after
  have calibrate (other : s.m.pw.mode ≠ .calibrate) : s'.m.pw.mode ≠ .calibrate := by
    rcases mode with mode | mode <;> rw [mode]
    · exact other
    · decide
  have main (other : s.m.pw.mode.isMain = false) : s'.m.pw.mode.isMain = false := by
    rcases mode with mode | mode <;> rw [mode]
    · exact other
    · rfl
  refine ⟨fun other => (fob'.trans (h.fob (calibrate other))).trans fob, fun other => ?_,
    fun other => (partner'.trans (h.partner (main other))).trans partner, fun reads => (after.trans (h.reads reads)).trans before⟩
  obtain ⟨key0, key1⟩ := h.target (other.imp_left calibrate)
  exact ⟨(target'.1.trans key0).trans target.1, (target'.2.trans key1).trans target.2⟩

theorem keysReach_of_keyWrite {len : Nat} (narrow : wide = false → len ≠ 16) (h : KeyWrite s.m.pw.mode len s t) : KeysReach true wide s t := by
  cases h with
  | none same => exact keysReach_same same
  | store calibrate ledger =>
    exact ⟨fun other => absurd calibrate other, fun _ => by rw [ledger]; exact ⟨rfl, rfl⟩, fun other => by simp [calibrate, Mode.isMain] at other,
      fun none => by simp at none⟩
  | partner main ledger fob =>
    exact ⟨fun _ => fob, fun _ => by rw [ledger]; exact ⟨rfl, rfl⟩, fun other => by simp [main] at other, fun none => by simp at none⟩
  | target calibrate size store =>
    exact ⟨fun _ => by rw [store], fun other => (other.elim (absurd calibrate) fun thin => absurd size (narrow thin)), fun _ => by rw [store],
      fun none => by simp at none⟩

theorem allKeys_readValue (s : State) (idx sub : Nat) : allKeys (readValue s idx sub).2 = allKeys s := by
  unfold readValue
  split
  · rfl
  · split
    · rfl
    · split <;> rfl

theorem allKeys_readEntry (s : State) (r : Requester) (idx sub : Nat) : allKeys (readEntry s r idx sub).2.2 = allKeys s := by
  unfold readEntry
  dsimp only
  split
  · rfl
  · exact allKeys_readValue ..

theorem allKeys_serveRead (s : State) (r : Requester) (q : Msg) : allKeys (serveRead s r q).2 = allKeys s := by
  unfold serveRead
  dsimp only
  split
  · rfl
  · split
    · rfl
    · exact allKeys_readEntry ..

theorem allKeys_serveSegRead (s : State) (r : Requester) (q : Msg) : allKeys (serveSegRead s r q).2 = allKeys s := by
  unfold serveSegRead
  dsimp only
  split
  · rfl
  · split
    · exact allKeys_readEntry ..
    · rfl

theorem allKeys_serveSegWrite (s : State) (r : Requester) (q : Msg) : allKeys (serveSegWrite s r q).2 = allKeys s := by
  unfold serveSegWrite
  dsimp only
  split
  · rfl
  · split <;> rfl

theorem keysReach_segmentIn (s : State) (r : Requester) (q : Msg) (x : Transfer) : KeysReach true true s (segmentIn s r q x).2 := by
  unfold segmentIn
  dsimp only
  split
  · exact keysReach_same rfl
  · split
    · exact keysReach_same rfl
    · split
      · exact keysReach_same rfl
      · split
        · exact keysReach_same rfl
        · exact keysReach_between (keysReach_of_keyWrite (by simp) (keyWrite_writeEntry r (x.buf ++ q.data))) (.inl rfl) rfl (allKeys_m ..)

theorem keysReach_serveSegment (s : State) (r : Requester) (q : Msg) : KeysReach true true s (serveSegment s r q).2 := by
  unfold serveSegment
  split
  · exact keysReach_same rfl
  · split
    · exact keysReach_segmentIn ..
    · refine keysReach_same ?_
      unfold segmentOut
      split
      · rfl
      · split <;> rfl

/-- Whether an operation of R455 can write an entry. -/
def opReaches (op : Nat) : Bool := op == 2 || op == 5

theorem keysReach_serveLocal (s : State) (r : Requester) (q : Msg) : KeysReach (opReaches q.op) true s (serveLocal s r q).2 := by
  unfold serveLocal
  split
  · exact keysReach_same (allKeys_serveRead ..)
  · split
    next op =>
      rw [op]
      exact keysReach_of_keyWrite (by simp) (keyWrite_writeEntry r q.data)
    next =>
      split
      · exact keysReach_same (allKeys_serveSegRead ..)
      · split
        · exact keysReach_same (allKeys_serveSegWrite ..)
        · split
          next op =>
            rw [op]
            exact keysReach_serveSegment ..
          next => exact keysReach_same rfl

theorem keysReach_serveMsg {op : Nat} (s : State) (c : Carrier) (r : Requester) (q : Msg) (row : knownOp q.op = true → q.op = op) :
    KeysReach (opReaches op) true s (serveMsg s c r q).2 := by
  unfold serveMsg
  dsimp only
  split
  · exact keysReach_same rfl
  next good =>
    have known : knownOp q.op = true := by
      simp only [formatBad, Bool.or_eq_true, not_or] at good
      simpa using good.1.1.1.1.1.1.1.2
    split
    · exact keysReach_same rfl
    · split
      · exact keysReach_same rfl
      · split
        · exact keysReach_same rfl
        · rw [← row known]
          exact keysReach_serveLocal ..

/-- A message that the row of an operation takes does to the keys what that operation may. -/
theorem keysReach_handle {op : Nat} (s : State) (c : Carrier) (row : rowTakes s.m op c.bytes = true) :
    KeysReach (opReaches op) true s (handle s c).2 := by
  unfold handle
  dsimp only
  split
  · exact keysReach_same rfl
  next kept =>
    have operation : knownOp (msgOf c.bytes).op = true → (msgOf c.bytes).op = op := by
      intro known
      unfold dropCause at kept
      dsimp only at kept
      split at kept
      · exact absurd kept (by simp)
      next whole =>
        simp only [Bool.or_eq_true, not_or, Bool.not_eq_true', Bool.not_eq_false] at whole
        simpa [rowTakes, whole, known] using row
    split
    · exact keysReach_same rfl
    next =>
      have served := keysReach_serveMsg { s with m := (takeTrack (checkMsg s.m c.bytes)
        { cls := c.cls, who := c.who, origin := (msgOf c.bytes).origin } (msgOf c.bytes).alive).2 } c
        { cls := c.cls, who := c.who, origin := (msgOf c.bytes).origin } (msgOf c.bytes) operation
      refine keysReach_between served (modeKept_of_pw ((takeTrack_pw ..).trans (checkMsg_pw ..))) rfl ?_
      split
      · rfl
      · split <;> rfl

end Service

end Sys2Proof.Machine
end

section
/-!
The inputs of the dictionary service, and the keys under every command (O60).
-/

namespace Sys2Proof.Machine

section Inputs

variable {op : Nat} {s x y : State}

/-- Taking a message needs nothing of the machine but [5010:03] (R463). -/
theorem rowTakes_cfg {a b : Main} (same : b.cfg = a.cfg) (op : Nat) (bs : List Byte) : rowTakes b op bs = rowTakes a op bs := by
  unfold rowTakes msgCrcOk msgCovered cfgN
  rw [same]

theorem allKeys_waitLedger (s : State) (bs : List Byte) : allKeys (waitLedger s bs) = allKeys s := by
  unfold waitLedger
  split <;> rfl

/-- What the service answers on the bus leaves the keys. -/
theorem keysReach_withMain {writes wide : Bool} {n : Main} (h : KeysReach writes wide s x) : KeysReach writes wide s { x with m := n } :=
  keysReach_between h (.inl rfl) rfl (allKeys_m ..)

/-- A message is served, or left in its input, from states that differ from the one before by the input alone. -/
theorem keysReach_serveOut {c : Carrier} (row : rowTakes y.m op c.bytes = true) (mode : modeKept s.m y.m) (back : allKeys x = allKeys s)
    (taken : allKeys y = allKeys s) : KeysReach (opReaches op) true s (serveOut x y c) := by
  unfold serveOut
  split
  · exact keysReach_same ((allKeys_waitLedger ..).trans back)
  · refine keysReach_between (keysReach_handle y c row) mode taken ?_
    dsimp only
    split <;> rfl

theorem keysReach_serveQ18 (s : State) (op : Nat) : KeysReach (opReaches op) true s (serveQ18 s op) := by
  unfold serveQ18
  split
  · exact keysReach_same rfl
  · dsimp only
    split
    · exact keysReach_same rfl
    · exact keysReach_same rfl
    · split
      · exact keysReach_same rfl
      · split
        · exact keysReach_same rfl
        · split
          next takes =>
            simp only [Bool.and_eq_true] at takes
            exact keysReach_serveOut takes.1 (modeKept_dropHead (modeKept_headOf ..) _) rfl rfl
          next => exact keysReach_same rfl

theorem keysReach_serveQ20 (s : State) (op : Nat) : KeysReach (opReaches op) true s (serveQ20 s op) := by
  unfold serveQ20
  split
  · exact keysReach_same rfl
  · dsimp only
    split
    · exact keysReach_same rfl
    · exact keysReach_same rfl
    · split
      · exact keysReach_same rfl
      · split
        · exact keysReach_same rfl
        · split
          next takes =>
            simp only [Bool.and_eq_true] at takes
            exact keysReach_serveOut takes.1 (modeKept_dropHead (modeKept_headOf ..) _) rfl rfl
          next => exact keysReach_same rfl

theorem keysReach_serveAir (s : State) (op : Nat) (n : Fin 256) (bs : List Byte) : KeysReach (opReaches op) true s (serveAir s op n bs) := by
  unfold serveAir
  split
  · exact keysReach_same rfl
  · split
    · exact keysReach_same rfl
    · dsimp only
      split
      · exact keysReach_same rfl
      · split
        next takes =>
          simp only [Bool.and_eq_true] at takes
          exact keysReach_serveOut takes.2 (.inl rfl) rfl rfl
        next => exact keysReach_same rfl

theorem keysReach_serveLace (s : State) (op : Nat) (d : Fin 4) : KeysReach (opReaches op) true s (serveLace s op d) := by
  unfold serveLace
  split
  · exact keysReach_same rfl
  · dsimp only
    split
    · exact keysReach_same rfl
    next takes =>
      simp only [Bool.or_eq_true, not_or, Bool.not_eq_true', Bool.not_eq_false] at takes
      exact keysReach_serveOut takes.1.1.2 (.inl rfl) rfl rfl

/-- The transaction of a DICT command serves it in the mode, and under the settings, that it found. -/
theorem keysReach_spiTransaction {writes wide : Bool} {valid : Main → Bool} {f : State → State}
    (serves : ∀ x, x.m.pw = s.m.pw → x.m.cfg = s.m.cfg → allKeys x = allKeys s → KeysReach writes wide s (f x)) :
    KeysReach writes wide s (spiTransaction s valid f) := by
  unfold spiTransaction
  split
  · exact keysReach_same rfl
  · dsimp only
    split
    · exact serves _ (count_pw ..) (count_cfg ..) rfl
    · exact keysReach_same (by simp)

theorem keysReach_serveSpi (s : State) (op : Nat) (bs : List Byte) (dchk : Byte) :
    KeysReach (opReaches op) true s (serveSpi s op bs dchk) := by
  unfold serveSpi
  dsimp only
  split
  · split
    next takes =>
      simp only [Bool.and_eq_true] at takes
      exact keysReach_serveOut takes.1.2 (.inl rfl) rfl rfl
    next => exact keysReach_same rfl
  · split
    · exact keysReach_same rfl
    next takes =>
      split
      · exact keysReach_same (allKeys_waitLedger ..)
      · refine keysReach_spiTransaction fun x pw cfg same => ?_
        generalize hm : cuSpi x.m false bs _ = m
        have pool := poolOnly_cuSpi x.m false bs (spiHead { cmd := 0x06, addr := 0, len := BitVec.ofNat 16 bs.length })
        rw [hm] at pool
        have mode : modeKept s.m m := modeKept_of_pw ((poolOnly_pw_eq pool).trans pw)
        have row : rowTakes m op bs = true := by
          rw [rowTakes_cfg ((poolOnly_cfg_eq pool).trans cfg)]
          simpa using takes
        split
        · exact keysReach_same same
        · split
          · exact keysReach_same same
          · split
            · exact keysReach_withMain (keysReach_serveOut row mode same same)
            · have served (c : Carrier) (bytes : c.bytes = bs) :
                  KeysReach (opReaches op) true s (handle { x with m := m } c).2 :=
                keysReach_between (keysReach_handle { x with m := m } c (by rw [bytes]; exact row)) mode same (Eq.refl _)
              split
              · exact served _ (Eq.refl _)
              · exact keysReach_withMain (served _ (Eq.refl _))

/-- All that a command of the dictionary service can do to the keys. -/
theorem keysReach_serveFrom (s : State) (op : Nat) (src : DictArrival) : KeysReach (opReaches op) true s (serveFrom s op src) := by
  cases src with
  | spi bs dchk => exact keysReach_serveSpi ..
  | q18 =>
    dsimp only [serveFrom]
    split
    · exact keysReach_serveQ18 ..
    · exact keysReach_same rfl
  | q20 =>
    dsimp only [serveFrom]
    split
    · exact keysReach_serveQ20 ..
    · exact keysReach_same rfl
  | air n bs =>
    dsimp only [serveFrom]
    split
    · exact keysReach_serveAir ..
    · exact keysReach_same rfl
  | lace d =>
    dsimp only [serveFrom]
    split
    · exact keysReach_serveLace ..
    · exact keysReach_same rfl

/-! ### DX4032 messages (R474–R476) -/

/-- A DX4032 request carries no more than 4 bytes. -/
theorem keysReach_serveCompat (s : State) (node : Nat) (q : Compat) : KeysReach (q.op == 2) false s (serveCompat s node q).2 := by
  unfold serveCompat
  dsimp only
  split
  · exact keysReach_same rfl
  next known =>
    split
    · split
      · exact keysReach_same rfl
      · split
        · exact keysReach_same rfl
        · exact keysReach_same (allKeys_readValue ..)
    next other =>
      have write : q.op = 2 := by
        simp only [Bool.or_eq_true, Bool.and_eq_true, bne_iff_ne, not_or, not_and, not_not] at known
        exact known.1 other
      rw [write]
      split
      · exact keysReach_same rfl
      · split
        · exact keysReach_same rfl
        next small =>
          split
          · exact keysReach_same rfl
          · refine keysReach_of_keyWrite (fun _ => ?_) (keyWrite_writeEntry _ (leBytes (entrySize q.index q.sub) q.data))
            simp only [leBytes, List.length_map, List.length_range]
            omega

theorem keysReach_compatFrame (s : State) (node : Nat) (bs : List Byte) (row : compatTakes op node bs = true) :
    KeysReach (op == 2) false s (compatFrame s node bs) := by
  unfold compatFrame
  split
  · exact keysReach_same rfl
  next whole =>
    dsimp only
    split
    · exact keysReach_same rfl
    next good =>
      generalize hm : cuService s.m 0x04 _ .ccitt (bs.take 8) = m
      have pw : m.pw = s.m.pw := by rw [← hm]; rfl
      have served := keysReach_serveCompat { s with m := m } node (compatOf bs)
      have reach : KeysReach (op == 2) false { s with m := m } (serveCompat { s with m := m } node (compatOf bs)).2 := by
        simp only [compatTakes, Bool.or_eq_true, Bool.and_eq_true, bne_iff_ne, beq_iff_eq] at row
        rcases row with ((other | bad) | own) | unknown
        · simp [other] at whole
        · simp [bad] at good
        · rw [← own]
          exact served
        · rw [beq_eq_false_iff_ne.mpr unknown.2] at served
          exact keysReach_same (served.reads rfl)
      split
      · exact keysReach_between reach (modeKept_of_pw pw) rfl rfl
      · exact keysReach_between reach (modeKept_of_pw pw) rfl rfl

theorem keysReach_serveCompatQ20 (s : State) (op : Nat) : KeysReach (op == 2) false s (serveCompatQ20 s op) := by
  unfold serveCompatQ20
  split
  · exact keysReach_same rfl
  · dsimp only
    split
    · exact keysReach_same rfl
    · exact keysReach_same rfl
    · split
      · exact keysReach_same rfl
      · split
        · exact keysReach_same rfl
        · split
          · exact keysReach_same (allKeys_waitLedger ..)
          · split
            next takes =>
              exact keysReach_between (keysReach_compatFrame { s with m := dropHead _ 20 } _ _ takes)
                (modeKept_dropHead (modeKept_headOf ..) _) (allKeys_m ..) (Eq.refl _)
            next => exact keysReach_same rfl

end Inputs

/-! ## Every command (O60) -/

section Every

variable {s t : State}

/-- The commands that write keys: those that can write an entry of the dictionary, and the two that write keys on their own. -/
def mayReachKeys : Instr → Bool
  | .dictWrite _ | .dictSegment _ | .dx4032Write | .partnerKeyWrite .. | .keyErase _ => true
  | _ => false

/-- Every other command leaves the keys: one line for each that changes more than the main part. -/
theorem allKeys_exec_other {c : Instr} (other : mayReachKeys c = false) (h : exec c s = .next t) : allKeys t = allKeys s := by
  cases c
  case dictWrite | dictSegment | dx4032Write | partnerKeyWrite | keyErase => cases other
  case coldStart => exact allKeys_of_next h (allKeys_suppliesUp ..)
  case rstNLow => exact allKeys_of_next h (allKeys_resetHeld s)
  case resetCmd value => exact allKeys_onServiceAll s (fun x => allKeys_resetWrite x value.toNat) h
  case mainSupplyLost => exact allKeys_of_next h (allKeys_mainLost s)
  case vaoLow => exact allKeys_of_next h (allKeys_vaoFall s)
  case vaoRestored => exact allKeys_of_next h (allKeys_vaoRise s)
  case modeRequest => exact allKeys_modeRequest h
  case targetFieldDetected => exact allKeys_of_next h (allKeys_fieldDetected ..)
  case targetFieldLost => exact allKeys_of_next h (allKeys_fieldLost ..)
  case rescueFieldAbsent => exact allKeys_of_next h (allKeys_rescueEnds s)
  case firmwareReady => exact allKeys_of_next h (allKeys_firmwareReady s)
  case phaseSourceWrite value => exact allKeys_onLedger s (fun x => allKeys_sourceWrite x value.toNat) h
  case nominalPeriodWrite value => exact allKeys_onLedger s (fun x => allKeys_nominalWrite x value.toNat) h
  case stitchProbe => exact allKeys_stitchProbe h
  case tgtApduSelect => exact allKeys_tgtApduSelect h
  case tgtReadBinary => exact allKeys_tgtReadBinary h
  case tgtReadRecord => exact allKeys_tgtReadRecord h
  case tgtAppendRecord => exact allKeys_tgtAppendRecord h
  case tgtUpdateRecord => exact allKeys_tgtUpdateRecord h
  case tgtInternalAuth => exact allKeys_tgtInternalAuth h
  case tgtExternalAuth => exact allKeys_tgtExternalAuth h
  case tgtRelease => exact allKeys_tgtRelease h
  case tgtApduUnknown => exact allKeys_tgtApduUnknown h
  case releaseVoltageReached => exact allKeys_releaseVoltageReached h
  case releaseWaitTimeout => exact allKeys_releaseWaitTimeout h
  case tgtStpSeek => exact allKeys_tgtStpSeek h
  case tgtStpSingle => exact allKeys_tgtStpSingle h
  case tgtStpSelect => exact allKeys_tgtStpSelect h
  case tgtStpSetLink => exact allKeys_tgtStpSetLink h
  case tgtStpRead => exact allKeys_tgtStpRead h
  case tgtStpArm => exact allKeys_tgtStpArm h
  case tgtStpCommit => exact allKeys_tgtStpCommit h
  case tgtStpQuiet => exact allKeys_tgtStpQuiet h
  case tgtStpRelease => exact allKeys_tgtStpRelease h
  case tgtStpAuth1 => exact allKeys_tgtStpAuth1 h
  case tgtStpAuth2 => exact allKeys_tgtStpAuth2 h
  case tgtStpUnknownFrame => exact allKeys_tgtStpUnknownFrame h
  case ledgerReadAudit w slot check =>
    exact allKeys_of_next h (allKeys_wiredCmd s _ _ _ _ _ fun x => allKeys_wiredRead x w 1 slot.toNat)
  case ledgerReadSetting w record check =>
    exact allKeys_of_next h (allKeys_wiredCmd s _ _ _ _ _ fun x => allKeys_wiredRead x w 2 record.toNat)
  case ledgerStatus w check => exact allKeys_of_next h (allKeys_wiredCmd s _ _ _ _ _ fun x => allKeys_wiredRead x w 5 0)
  case ledgerLease w seconds check =>
    exact allKeys_of_next h (allKeys_wiredCmd s _ _ _ _ _ fun x => (allKeys_m ..).trans (allKeys_setLease x w seconds.toNat))
  case ledgerAppendAudit => exact allKeys_ledgerAppendAudit h
  case ledgerWriteSetting => exact allKeys_ledgerWriteSetting h
  case leaseExpiry => exact allKeys_of_next h rfl
  case ledgerAccessStart => exact allKeys_execLedgerAccessStart s h
  case ledgerWriteComplete => exact allKeys_of_next h (allKeys_finishRunning s)
  case wiredAccessTimeout => exact allKeys_wiredAccessTimeout h
  case demodPayloadEnd => exact allKeys_of_next h (allKeys_demodPayloadEnd ..)
  case radioTxStart => exact allKeys_of_next h (allKeys_txTry ..)
  case txHoldRelease => exact allKeys_txHoldRelease h
  case ackSend => exact allKeys_of_next h (allKeys_txTry ..)
  case radioProfileWrite => exact allKeys_radioProfileWrite h
  case partnerStateWrite => exact allKeys_partnerStateWrite h
  case canNodeWrite => exact allKeys_canNodeWrite h
  case dictRead src => exact allKeys_of_next h ((keysReach_serveFrom s 1 src).reads rfl)
  case dictSegRead src => exact allKeys_of_next h ((keysReach_serveFrom s 3 src).reads rfl)
  case dictSegWrite src => exact allKeys_of_next h ((keysReach_serveFrom s 4 src).reads rfl)
  case dictAbort src => exact allKeys_of_next h ((keysReach_serveFrom s 6 src).reads rfl)
  case dx4032Read => exact allKeys_of_next h ((keysReach_serveCompatQ20 s 1).reads rfl)
  case spiNop | spiReadWin | spiReadQ | spiWriteQ | spiConsume | spiDictDefer =>
    exact allKeys_of_next h (allKeys_spiTransaction _ _ fun _ => rfl)
  all_goals exact allKeys_of_main h

theorem onServiceAll_next {f : State → State} (h : onServiceAll f s = .next t) : t = s ∨ t = f s := by
  cases h
  split
  · exact .inl rfl
  · exact .inr rfl

/-- PARTNER_KEY_WRITE touches a partner key alone, and in a main mode alone. -/
theorem partnerKeyWrite_keys {n : Fin 256} {key : BitVec 128} (h : exec (.partnerKeyWrite n key) s = .next t) :
    t.lgr = s.lgr ∧ t.keys.fobKeys = s.keys.fobKeys ∧ (s.m.pw.mode.isMain = false → t.keys.partner = s.keys.partner) := by
  obtain rfl | rfl := onServiceAll_next h
  · simp
  · split
    next main => simp [keyWrite, main]
    next => simp

/-- KEY_ERASE leaves the target keys, and leaves all keys outside CALIBRATE. -/
theorem keyErase_keys {v : BitVec 8} (h : exec (.keyErase v) s = .next t) :
    t.lgr = s.lgr ∧ (s.m.pw.mode ≠ .calibrate → t.keys = s.keys) := by
  obtain rfl | rfl := onServiceAll_next h
  · simp
  · split
    next code =>
      simp only [Bool.and_eq_true, beq_iff_eq] at code
      simp [eraseKeys, code.1]
    next => simp

theorem keysReach_of_next {writes wide : Bool} {x : State} (h : (.next x : Out) = .next t) (reach : KeysReach writes wide s x) :
    KeysReach writes wide s t := by
  cases h
  exact reach

/-- Settles O60: most commands leave every key; the five that write keys are bounded by what the service of the dictionary may do
(`KeysReach`), or by their own writes. -/
theorem keysStayPut : Obligations.KeysStayPut := by
  unfold Obligations.KeysStayPut
  intro c s t h
  cases writes : mayReachKeys c with
  | false =>
    obtain ⟨fob, partner, target⟩ := allKeys_eq_iff.mp (allKeys_exec_other writes h)
    exact ⟨fun _ _ => target, fun _ _ _ _ => ⟨fob, fun _ => partner⟩, fun _ => ⟨fob, target⟩, fun _ => partner⟩
  | true =>
    cases c
    case dictWrite src =>
      have reach := keysReach_of_next h (keysReach_serveFrom s 2 src)
      exact ⟨fun no => absurd (Eq.refl _) (no src), fun no => absurd (Eq.refl _) (no src), fun other => ⟨reach.fob other, reach.target (.inl other)⟩,
        reach.partner⟩
    case dictSegment src =>
      have reach := keysReach_of_next h (keysReach_serveFrom s 5 src)
      exact ⟨fun _ no => absurd (Eq.refl _) (no src), fun _ no => absurd (Eq.refl _) (no src),
        fun other => ⟨reach.fob other, reach.target (.inl other)⟩, reach.partner⟩
    case dx4032Write =>
      have reach := keysReach_of_next h (keysReach_serveCompatQ20 s 2)
      exact ⟨fun _ _ => reach.target (.inr (Eq.refl _)), fun _ _ _ no => absurd (Eq.refl _) no,
        fun other => ⟨reach.fob other, reach.target (.inl other)⟩, reach.partner⟩
    case partnerKeyWrite n key =>
      obtain ⟨ledger, fob, partner⟩ := partnerKeyWrite_keys h
      rw [ledger]
      exact ⟨fun _ _ => ⟨rfl, rfl⟩, fun _ _ _ _ => ⟨fob, fun no => absurd (Eq.refl _) (no n key)⟩, fun _ => ⟨fob, rfl, rfl⟩, partner⟩
    case keyErase v =>
      obtain ⟨ledger, keys⟩ := keyErase_keys h
      rw [ledger]
      refine ⟨fun _ _ => ⟨rfl, rfl⟩, fun _ _ no => absurd (Eq.refl _) (no v), fun other => ⟨by rw [keys other], rfl, rfl⟩, fun other => ?_⟩
      rw [keys fun calibrate => by simp [calibrate, Mode.isMain] at other]
    all_goals cases writes

end Every

end Sys2Proof.Machine
end

section
/-!
Authentication at the target by APDU, and the release (R245, R247, R379, R380).
-/

namespace Sys2Proof.Machine

/-! ## A command of the application, and its answer (R376, R378) -/

section Apdu

variable {s t : State} {c : Instr} {P : State → Prop} {data : List Byte} {sw : Nat}

/-- A command with good P1 and P2 that the application hears goes to its reaction. -/
theorem answers_apdu (hears : applicationHears s) {f : State → State} (command : exec c s = .next (apdu s true f)) (result : P (f s)) :
    answers c s P := by
  obtain ⟨heard, selected, free⟩ := hears
  have reaction : apdu s true f = f s := by simp [apdu, heard, selected, fieldFirst_free free]
  exact ⟨f s, command.trans (congrArg Host.Outcome.next reaction), result⟩

/-- The answer of a state whose card stands as it did at the command. -/
theorem apduAnswered_apduEnd (iso : t.m.tgt.iso = s.m.tgt.iso) : apduAnswered s (apduEnd t data sw) data sw := by
  unfold apduAnswered
  rw [← iso]
  refine ⟨rfl, fun fits => ?_⟩
  have whole : (data ++ [byte (sw / 256), byte sw]).length ≤ t.m.tgt.iso.fsd - 3 := by
    simp only [List.length_append, List.length_cons, List.length_nil]
    omega
  have block : (apduEnd t data sw).m.tgt.resp = withCrcA (byte (0x02 + bitN (!t.m.tgt.iso.blockNo) +
      place 4 1 (bitN (decide (t.m.tgt.iso.fsd - 3 < (data ++ [byte (sw / 256), byte sw]).length)))) ::
      (data ++ [byte (sw / 256), byte sw]).take (t.m.tgt.iso.fsd - 3)) := rfl
  rw [block, List.take_of_length_le whole, decide_eq_false (Nat.not_lt.mpr whole)]
  cases t.m.tgt.iso.blockNo <;> rfl

theorem targetOnly_apduEnd (h : targetOnly s t) : targetOnly s (apduEnd t data sw) := targetOnly_m h (ledgerMain_apduReply ..)

theorem ledgerOnly_apduEnd (h : ledgerOnly s t) : ledgerOnly s (apduEnd t data sw) := ledgerOnly_trans h (ledgerOnly_m (ledgerMain_apduReply ..))

/-- A command ends the pending challenge of the one before (R245). -/
theorem targetOnly_dropPending (s : State) : targetOnly s { s with m := dropPending s.m } := targetOnly_m (targetOnly_refl s) (ledgerMain_modAuth ..)

theorem tgtEvent_tgt (m : Main) (ledger : Bool) (ev origin status key seq : Nat) : (tgtEvent m ledger ev origin status key seq).tgt = m.tgt :=
  poolOnly_tgt_eq (poolOnly_tgtEvent ..)

theorem countAo_tgt (m : Main) (idx sub : Nat) : (countAo m idx sub).tgt = m.tgt := by
  unfold countAo
  split
  · exact poolOnly_tgt_eq (poolOnly_count ..)
  · rfl

end Apdu

/-! ## A record of the DX8128 (R362, R373) -/

section Record

variable {s : State}

/-- One record of the DX8128 has been appended, with its type, and the rest of the ring is as it was. -/
structure RecordWritten (l l' : Ledger) (type : Nat) : Prop where
  head  : l'.head = l.head + 1
  slot  : ∃ b, l'.ring[slotOf (l.head + 1)] = .record (l.head + 1) b ∧ bodyType b = type ∧ bodyOrigin b = 0
  other : ∀ i : Fin 240, i ≠ slotOf (l.head + 1) → l'.ring[i] = l.ring[i]

theorem append_ring (l : Ledger) (body : List Byte) :
    (l.append body).ring = updV l.ring (slotOf (l.head + 1)) fun _ => .record (l.head + 1) body := by
  unfold Ledger.append
  dsimp only
  split <;> rfl

theorem stampBody_type (m : Main) {type : Nat} (low : type < 256) (origin tag hi : Nat) (data : List Byte) :
    bodyType (stampBody m (auditBody type origin tag hi data)) = type := by
  have first : nth (stampBody m (auditBody type origin tag hi data)) 0 0 = byte type := rfl
  rw [bodyType, first, byte, BitVec.toNat_ofNat, Nat.mod_eq_of_lt low]

theorem stampBody_origin (m : Main) (type : Nat) {origin : Nat} (low : origin < 256) (tag hi : Nat) (data : List Byte) :
    bodyOrigin (stampBody m (auditBody type origin tag hi data)) = origin := by
  have second : nth (stampBody m (auditBody type origin tag hi data)) 1 0 = byte origin := rfl
  rw [bodyOrigin, second, byte, BitVec.toNat_ofNat, Nat.mod_eq_of_lt low]

theorem recordWritten_append (l : Ledger) (m : Main) {type : Nat} (low : type < 256) (data : List Byte) :
    RecordWritten l (l.append (stampBody m (auditBody type 0 0 0 data))) type := by
  have ring (i : Fin 240) : (l.append (stampBody m (auditBody type 0 0 0 data))).ring[i] =
      if i = slotOf (l.head + 1) then .record (l.head + 1) (stampBody m (auditBody type 0 0 0 data)) else l.ring[i] := by
    rw [append_ring, updV_get]
  exact ⟨append_head .., ⟨_, (ring _).trans (if_pos rfl), stampBody_type m low .., stampBody_origin m type (by decide) ..⟩,
    fun i other => (ring i).trans (if_neg other)⟩

theorem writeAppend_tgt (s : State) (body : List Byte) : (writeAppend s body).m.tgt = s.m.tgt :=
  (tgtEvent_tgt ..).trans ((poolOnly_tgt_eq (poolOnly_cuFrame ..)).trans (countAo_tgt ..))

/-- A target that VAO supplies writes its own record, and stands as it did. -/
theorem ownRecord_writes (supplied : s.m.pw.onHarvest = false) {type : Nat} (low : type < 256) (data : List Byte) :
    ∃ t, ownRecord s type data = (some t.lgr.head, t) ∧ RecordWritten s.lgr t.lgr type ∧ t.m.tgt = s.m.tgt := by
  have energy : energyCheck s.m appendEnergy = (true, s.m) := if_neg (Bool.eq_false_iff.mp supplied)
  refine ⟨writeAppend s (stampBody s.m (auditBody type 0 0 0 data)), ?_, recordWritten_append s.lgr s.m low data, writeAppend_tgt ..⟩
  unfold ownRecord
  rw [energy]
  rfl

end Record

/-! ## INTERNAL and EXTERNAL AUTHENTICATE (R245, R247, R380) -/

section Authenticate

variable {s t : State} {P : State → Prop} {ra rb c2 : List Byte} {key : BitVec 128} {k : Nat}

theorem answers_internalAuth (hears : applicationHears s) (size : ra.length = 8)
    (result : P (if s.m.tgt.auth.lockout then apduEnd { s with m := dropPending s.m } [] 0x6983
      else apduEnd (tgtChallenge { s with m := dropPending s.m } 0 ra).2 (tgtChallenge { s with m := dropPending s.m } 0 ra).1 0x9000)) :
    answers (.tgtInternalAuth 0x00#8 0x00#8 ra) s P := by
  refine answers_apdu hears rfl ?_
  dsimp only
  rw [if_neg (by simp [size])]
  exact result

/-- The authentication state that an answer leaves, once its record stands. -/
def authAfter (a : TgtAuth) (key : Nat) (good : Bool) : TgtAuth :=
  { pending := none, key0 := a.key0 || (good && key = 0), key1 := a.key1 || (good && key = 1), lockout := a.lockout || !good }

theorem lockOut_lgr (s : State) (good : Bool) : (lockOut s good).lgr = s.lgr := by cases good <;> rfl

theorem lockOut_tgt (s : State) (good : Bool) :
    (lockOut s good).m.tgt = { s.m.tgt with auth := { s.m.tgt.auth with lockout := s.m.tgt.auth.lockout || !good } } := by
  cases good with
  | true => simp [lockOut]
  | false => simp [lockOut, modAuth, modTgt, countAo_tgt]

theorem authOutcome_written (s : State) (key org : Nat) (good : Bool) (q : Nat) :
    ∃ m, authOutcome s key org good (some q) = (if good then .opened else .failed, { s with m := m }) ∧
      m.tgt = { s.m.tgt with auth := { s.m.tgt.auth with
        key0 := s.m.tgt.auth.key0 || (good && key = 0), key1 := s.m.tgt.auth.key1 || (good && key = 1) } } := by
  cases good with
  | true => exact ⟨_, rfl, by simp [modAuth, modTgt, tgtEvent_tgt]⟩
  | false => exact ⟨_, rfl, by simp [tgtEvent_tgt]⟩

/-- With VAO present an answer opens its key or locks the target, and its record is written. -/
theorem tgtVerify_supplied {good : Bool} (supplied : s.m.pw.onHarvest = false) (answer : answerGood s k c2 = (good, s)) :
    ∃ t, tgtVerify s k c2 = (if good then .opened else .failed, t) ∧ RecordWritten s.lgr t.lgr (if good then 1 else 2) ∧
      t.m.tgt.iso = s.m.tgt.iso ∧ t.m.tgt.auth = authAfter s.m.tgt.auth k good := by
  generalize hx : lockOut { s with m := modAuth s.m fun a => { a with pending := none } } good = x
  have ledger : x.lgr = s.lgr := by rw [← hx, lockOut_lgr]
  have supplied' : x.m.pw.onHarvest = false := by
    rw [← hx, ledgerMain_pw_eq (ledgerOnly_lockOut ..).main]
    exact supplied
  obtain ⟨u, record, written, kept⟩ := ownRecord_writes (type := if good then 1 else 2) supplied' (by cases good <;> decide) (ownData x.m k)
  obtain ⟨m, outcome, after⟩ := authOutcome_written u k (sessionOrigin u.m) good u.lgr.head
  refine ⟨{ u with m := m }, ?_, ledger ▸ written, ?_, ?_⟩
  · unfold tgtVerify
    rw [answer]
    dsimp only
    rw [hx, record]
    exact outcome
  · rw [after, kept, ← hx, lockOut_tgt]
    rfl
  · rw [after, kept, ← hx, lockOut_tgt]
    rfl

/-- EXTERNAL AUTHENTICATE with VAO present: the record of the answer stands before the status word is sent. -/
theorem answers_externalAuth {good : Bool} (hears : applicationHears s) (supplied : s.m.pw.onHarvest = false) (size : c2.length = 16)
    (answer : answerGood s 1 c2 = (good, s))
    (result : ∀ t, RecordWritten s.lgr t.lgr (if good then 1 else 2) → t.m.tgt.iso = s.m.tgt.iso →
      t.m.tgt.auth = authAfter s.m.tgt.auth 1 good → ledgerOnly s t → P (apduEnd t [] (if good then 0x9000 else 0x6300))) :
    answers (.tgtExternalAuth 0x00#8 0x01#8 c2) s P := by
  obtain ⟨t, verify, written, iso, auth⟩ := tgtVerify_supplied supplied answer
  have only := ledgerOnly_tgtVerify s 1 c2
  rw [verify] at only
  have verify' : tgtVerify s (0x01#8).toNat c2 = (if good then .opened else .failed, t) := verify
  refine answers_apdu hears rfl ?_
  dsimp only
  rw [if_neg (by simp [size]), verify']
  cases good <;> exact result t written iso auth only

theorem answerGood_right (held : s.lgr.key1 = some key) (pending : s.m.tgt.auth.pending = some (1, ra, rb)) :
    answerGood s 1 (aes128 key (rb ++ ra)) = (true, s) := by
  have known : tgtKey s 1 = (key, s) := by simp [tgtKey, held]
  simp [answerGood, pending, known]

theorem answerGood_none (none : s.m.tgt.auth.pending = none) : answerGood s k c2 = (false, s) := by simp [answerGood, none]

end Authenticate

/-! ## RELEASE (R379) -/

section Release

variable {s t : State} {P : State → Prop}

theorem apduAnswered_releaseRefuse {st : LStatus} {seq : Nat} (iso : t.m.tgt.iso = s.m.tgt.iso) :
    apduAnswered s (releaseRefuse t st seq) [] st.sw :=
  apduAnswered_apduEnd ((congrArg Target.iso (tgtEvent_tgt ..)).trans iso)

/-- A refusal leaves the wait and RELEASE_N as they are. -/
theorem releaseRefuse_release (t : State) (st : LStatus) (seq : Nat) : (releaseRefuse t st seq).m.tgt.releaseWait = t.m.tgt.releaseWait ∧
    (releaseRefuse t st seq).m.tgt.releaseLow = t.m.tgt.releaseLow :=
  have told := tgtEvent_tgt t.m false 6 1 st.code 1 seq
  have wait := congrArg Target.releaseWait told
  have low := congrArg Target.releaseLow told
  ⟨wait, low⟩

theorem targetOnly_releaseRefuse (h : targetOnly s t) (st : LStatus) (seq : Nat) : targetOnly s (releaseRefuse t st seq) :=
  targetOnly_apduEnd (targetOnly_m h (ledgerMain_tgtEvent ..))

theorem ledgerOnly_releaseRefuse (h : ledgerOnly s t) (st : LStatus) (seq : Nat) : ledgerOnly s (releaseRefuse t st seq) :=
  ledgerOnly_apduEnd (ledgerOnly_trans h (ledgerOnly_m (ledgerMain_tgtEvent ..)))

theorem answers_release_closed (hears : applicationHears s) (closed : s.m.tgt.auth.key1 = false)
    (result : P (releaseRefuse { s with m := dropPending s.m } .access 0)) : answers (.tgtRelease 0x00#8 0x00#8) s P := by
  have closed' : (dropPending s.m).tgt.auth.key1 = false := closed
  refine answers_apdu hears rfl ?_
  dsimp only
  rw [if_pos (by rw [closed']; rfl)]
  exact result

/-- RELEASE with its key open, its mode allowed and no lease: its record is written, and the wait begins. -/
theorem answers_release_begins (hears : applicationHears s) (opened : s.m.tgt.auth.key1 = true) (allowed : releaseAllowed s.m = true)
    (unleased : s.lgr.leaseBy = none) (supplied : s.m.pw.onHarvest = false)
    (result : ∀ t, RecordWritten s.lgr t.lgr 3 → t.m.tgt = (dropPending s.m).tgt → ledgerOnly s t →
      P { t with m := modTgt t.m fun x => { x with releaseWait := true } }) : answers (.tgtRelease 0x00#8 0x00#8) s P := by
  have opened' : (dropPending s.m).tgt.auth.key1 = true := opened
  have allowed' : releaseAllowed (dropPending s.m) = true := allowed
  have unleased' : ¬leaseHeld { s with m := dropPending s.m } = true := by simp [leaseHeld, unleased]
  obtain ⟨t, record, written, kept⟩ := ownRecord_writes (s := { s with m := dropPending s.m }) supplied (type := 3) (by decide)
    (ownData (dropPending s.m) 1)
  have only := ledgerOnly_ownRecord { s with m := dropPending s.m } 3 (ownData (dropPending s.m) 1)
  rw [record] at only
  refine answers_apdu hears rfl ?_
  dsimp only
  rw [if_neg (by rw [opened', allowed']; decide), if_neg unleased', record]
  exact result t written kept (ledgerOnly_trans (targetOnly_dropPending s).2 only)

/-- The target with the voltage reached: its wait over, RELEASE_N low, its event told. -/
def voltageReached (m : Main) (seq : Nat) : Main :=
  tgtEvent (countAo (modTgt (senseHarv m) fun t =>
    { t with vHarv := max t.vHarv (cfgN m 0x6000 0x07), releaseWait := false, releaseLow := true }) 0x70D0 0x08) false 5 1 0 1 seq

theorem voltageReached_tgt (m : Main) (seq : Nat) : (voltageReached m seq).tgt =
    { m.tgt with vHarv := max (senseHarv m).tgt.vHarv (cfgN m 0x6000 0x07), releaseWait := false, releaseLow := true } :=
  (tgtEvent_tgt ..).trans (countAo_tgt ..)

theorem ledgerMain_voltageReached (m : Main) (seq : Nat) : ledgerMain m (voltageReached m seq) :=
  ledgerMain_trans (ledgerMain_trans (ledgerMain_trans (ledgerMain_senseHarv m) (ledgerMain_modTgt ..)) (ledgerMain_countAo ..))
    (ledgerMain_tgtEvent ..)

theorem answers_voltageReached (waits : s.m.tgt.releaseWait = true)
    (result : ∀ seq, P (apduEnd { s with m := voltageReached s.m seq } [] 0x9000)) : answers .releaseVoltageReached s P :=
  ⟨_, congrArg Host.Outcome.next (if_neg (by simp [waits])), result _⟩

/-- The ring with byte 29 of a record set. -/
def lowEnergyMarked (l : Ledger) (q : Nat) (b : List Byte) : Ledger :=
  { l with ring := updV l.ring (slotOf q) fun _ => .record q (b.set 25 0x01) }

theorem lowEnergyMarked_slot (l : Ledger) (q : Nat) (b : List Byte) :
    (lowEnergyMarked l q b).ring[slotOf q] = .record q (b.set 25 0x01) := by
  unfold lowEnergyMarked
  rw [updV_get, if_pos rfl]

theorem answers_waitTimeout {q : Nat} {b : List Byte} (waits : s.m.tgt.releaseWait = true) (newest : newestRelease s.lgr = some (q, b))
    (result : P (releaseRefuse { s with m := modTgt s.m fun t => { t with releaseWait := false }, lgr := lowEnergyMarked s.lgr q b } .lowEnergy q)) :
    answers .releaseWaitTimeout s P := by
  refine ⟨_, congrArg Host.Outcome.next (if_neg (by simp [waits])), ?_⟩
  dsimp only
  rw [newest]
  exact result

theorem exec_release_unwaited (unwaited : s.m.tgt.releaseWait = false) :
    exec .releaseVoltageReached s = .next s ∧ exec .releaseWaitTimeout s = .next s := by
  have idle : (!s.m.tgt.releaseWait) = true := by simp [unwaited]
  exact ⟨congrArg Host.Outcome.next (if_pos idle), congrArg Host.Outcome.next (if_pos idle)⟩

end Release

/-! ## The statement -/

/-- Settles O39: an APDU goes to its reaction (`answers_apdu`), an answer to the challenge through its record (`tgtVerify_supplied`), the
release through its own (`ownRecord_writes`). -/
theorem targetAuthAndRelease : Obligations.TargetAuthAndRelease := by
  unfold Obligations.TargetAuthAndRelease
  refine ⟨?challenge, ?locked, ?opens, ?fails, ?begins, ?closed, ?reached, ?unwaited, ?timeout, ?pulse, ?lockoutEnd⟩
  case challenge =>
    intro s ra key hears size unlocked held
    have held' : ({ s with m := dropPending s.m } : State).lgr.key0 = some key := held
    have drawn : (dropPending s.m).freeCtr = s.m.freeCtr := rfl
    refine answers_internalAuth hears size ?_
    rw [if_neg (Bool.eq_false_iff.mp unlocked), tgtChallenge_key0 held' size, drawn]
    dsimp only
    exact ⟨rfl, apduAnswered_apduEnd rfl,
      targetOnly_apduEnd (targetOnly_m (targetOnly_dropPending s) (ledgerMain_trans (ledgerMain_draw _) (ledgerMain_modAuth ..)))⟩
  case locked =>
    intro s ra hears size locked
    refine answers_internalAuth hears size ?_
    rw [if_pos locked]
    exact ⟨apduAnswered_apduEnd rfl, rfl, targetOnly_apduEnd (targetOnly_dropPending s)⟩
  case opens =>
    intro s ra rb key hears supplied held pending size
    refine answers_externalAuth hears supplied size (answerGood_right held pending) fun t written iso auth only => ?_
    have key1 := congrArg TgtAuth.key1 auth
    have key0 := congrArg TgtAuth.key0 auth
    have lockout := congrArg TgtAuth.lockout auth
    have dropped := congrArg TgtAuth.pending auth
    exact ⟨apduAnswered_apduEnd iso, key1.trans (Bool.or_true _), key0.trans (Bool.or_false _), dropped, lockout.trans (Bool.or_false _),
      written.head, written.slot, written.other, ledgerOnly_apduEnd only⟩
  case fails =>
    intro s c2 hears supplied none size
    refine answers_externalAuth hears supplied size (answerGood_none none) fun t written iso auth only => ?_
    have key1 := congrArg TgtAuth.key1 auth
    have lockout := congrArg TgtAuth.lockout auth
    exact ⟨apduAnswered_apduEnd iso, key1.trans (Bool.or_false _), lockout.trans (Bool.or_true _), written.head, written.slot,
      ledgerOnly_apduEnd only⟩
  case begins =>
    intro s hears opened allowed unleased supplied
    refine answers_release_begins hears opened allowed unleased supplied fun t written tgt only => ?_
    have low := congrArg Target.releaseLow tgt
    have resp := congrArg Target.resp tgt
    exact ⟨rfl, low, resp, written.head, written.slot, ledgerOnly_trans only (ledgerOnly_m (ledgerMain_modTgt ..))⟩
  case closed =>
    exact fun s hears closed => answers_release_closed hears closed
      ⟨apduAnswered_releaseRefuse rfl, (releaseRefuse_release ..).1, targetOnly_releaseRefuse (targetOnly_dropPending s) ..⟩
  case reached =>
    intro s waits
    refine answers_voltageReached waits fun seq => ?_
    have tgt := voltageReached_tgt s.m seq
    have iso := congrArg Target.iso tgt
    have enough := (congrArg Target.vHarv tgt).ge.trans' (Nat.le_max_right ..)
    exact ⟨congrArg Target.releaseWait tgt, congrArg Target.releaseLow tgt, enough, apduAnswered_apduEnd iso,
      targetOnly_apduEnd (targetOnly_m (targetOnly_refl s) (ledgerMain_voltageReached ..))⟩
  case unwaited => exact fun s unwaited => exec_release_unwaited unwaited
  case timeout =>
    intro s q b waits newest
    refine answers_waitTimeout waits newest ?_
    obtain ⟨wait, low⟩ := releaseRefuse_release
      { s with m := modTgt s.m fun t => { t with releaseWait := false }, lgr := lowEnergyMarked s.lgr q b } .lowEnergy q
    exact ⟨wait, low, lowEnergyMarked_slot .., rfl, apduAnswered_releaseRefuse rfl,
      ledgerOnly_releaseRefuse (ledgerOnly_trans (ledgerOnly_m (ledgerMain_modTgt ..)) (ledgerOnly_lgr ..)) ..⟩
  case pulse => exact fun s => rfl
  case lockoutEnd => exact fun s => rfl

end Sys2Proof.Machine
end

section
/-!
The end of an ISO_APDU on a core inside an ARM's chain (R85, R243, R259): the statement on the sessions of the stitches fails where a gap begins
with the end of the stitch and its window has closed.
-/

namespace Sys2Proof.Machine

/-- The field of a Type B session on core 0, with an ISO_APDU on it. -/
def sessionField : FieldRec := { owner := .ctx 0 0, port := 0, level := 40, proto := .typeB, closed := true, at95 := true }

/-- The session of port 0. -/
def sessionOnCore0 : Session := { proto := .typeB, core := 0 }

/-- The descriptor of an ISO_APDU of Type B on port 0: a command of one byte, the session to stay open. -/
def apduJob : Job := { w0 := BitVec.ofNat 32 (8 + place 4 3 2), w3 := 1 }

/-- The card's one I-block, with block number 0 and the status word 0x9000. -/
def apduReply9000 : Reply := { outcome := .ok, data := [0x02, 0x90, 0x00] }

/-- The ISO_APDU has the card's reply to read. Its core still counts as inside an ARM's chain, so that no gap began with the exchange, and no
window of the slot plan is open. -/
def chainedApdu : State :=
  { m := { modCtx (modPort (modCore (modPw {} fun p => { p with mode := .transact, ctlOn := true, fwRunning := true })
        0 fun c => { c with fld := some sessionField, chain := true })
        0 fun x => { x with session := some sessionOnCore0 })
        0 0 fun x => { x with
          st := .run, job := some apduJob, core := some 0, started := true, sc := { live := true, inbox := some apduReply9000 } } with
      plan := { opened := Vector.replicate 64 false } } }

theorem chainedApdu_reads : stitchReads chainedApdu.m 0 0 apduJob 0 [] apduReply9000 := by
  constructor <;> decide +kernel

theorem chainedApdu_noDisable : noDisable chainedApdu.m apduJob.port := by
  constructor <;> decide +kernel

theorem chainedApdu_roomFor : roomFor chainedApdu.m apduJob.rqueue (5 + (packWords (apduReply9000.data.drop 1)).length) := by
  constructor <;> decide +kernel

/-- The turn ends the stitch and leaves its session the field. The chain is over with it: a gap begins, which the closed window makes the end of
the idle session, counted in [7090:07]. -/
theorem chainedApdu_ends : ((serve chainedApdu.m chainedApdu.keys.fobKeys 0 0 false runApdu).ports[apduJob.port]).session = none ∧
    counter (serve chainedApdu.m chainedApdu.keys.fobKeys 0 0 false runApdu) 0x7090 0x07 = 1 := by
  decide +kernel

theorem exec_chainedApdu : exec (.stitchIsoApdu 0 0 false) chainedApdu =
    .next { chainedApdu with m := serve chainedApdu.m chainedApdu.keys.fobKeys 0 0 false runApdu } := by
  have asked : ((ctxOf chainedApdu.m 0 0).job.map (·.opcode)) = some 8 := by decide +kernel
  exact congrArg (fun m => Host.Outcome.next { chainedApdu with m := m }) (if_pos asked)

/-- Refutes O32: `stitchReads` does not say that the core is outside an ARM's chain, as `stitchRuns` does. The clause on an ISO_APDU that ends
`OK` promises the session still open; where the chain lasts until the stitch ends, the gap comes only then, and with the window closed the
session goes with its field (R85, R259). A core of an ISO/IEC stitch has sent no ARM, so that no run of the device leads to this state; the
statement is about every state. -/
theorem not_isoStitches : ¬ Obligations.IsoStitches := by
  rintro ⟨stitches, -⟩
  obtain ⟨-, -, -, apdu, -⟩ := stitches chainedApdu 0 0 apduJob 0 (by decide +kernel)
  obtain ⟨t, run, -, stays, -⟩ := apdu sessionOnCore0 apduReply9000 chainedApdu_noDisable (by decide +kernel) (by decide +kernel)
    (by decide +kernel) chainedApdu_reads (by decide) (by decide +kernel) (by decide +kernel) rfl (by decide) (by decide +kernel)
    (by decide +kernel) chainedApdu_roomFor
  have result := Host.Outcome.next.inj (exec_chainedApdu.symm.trans run)
  rw [← result] at stays
  exact Option.some_ne_none _ (stays.symm.trans chainedApdu_ends.1)

end Sys2Proof.Machine
end

section
/-!
Proofs of the statement on the dispatcher (R279, R288).
-/

namespace Sys2Proof.Machine

/-! ## The next engine (R279) -/

section NextEngine

variable {m : Main} {depth : Nat} {e : Fin 24}

/-- The engine found is one of the places after the last one dealt to, and no place before it serves with room. -/
theorem nextEngine_place (found : nextEngine m depth = some e) : ∃ i < 24, e = finOf 24 (m.disp.rr + i) ∧
    engServing m e = true ∧ (m.engs[e]).deque.length < depth ∧
    ∀ n < i, engServing m (finOf 24 (m.disp.rr + n)) = true → depth ≤ (m.engs[finOf 24 (m.disp.rr + n)]).deque.length := by
  obtain ⟨takes, i, hi, place, earlier⟩ := List.find?_eq_some_iff_getElem.mp found
  simp only [List.length_map, List.length_range] at hi
  simp only [List.getElem_map, List.getElem_range] at place earlier
  simp only [Bool.and_eq_true, decide_eq_true_eq] at takes
  refine ⟨i, hi, place.symm, takes.1, takes.2, fun n hn serves => ?_⟩
  simpa [serves] using earlier n hn

theorem nextEngine_serves (found : nextEngine m depth = some e) : engServing m e = true := by
  obtain ⟨_, _, _, serves, _⟩ := nextEngine_place found
  exact serves

theorem nextEngine_first (found : nextEngine m depth = some e) {i : Nat} {d : Fin 24} (inside : i < 24)
    (place : d.val = (m.disp.rr + i) % 24) (serves : engServing m d = true) (short : (m.engs[d]).deque.length < depth) :
    (e.val + 24 - m.disp.rr % 24) % 24 ≤ i := by
  obtain ⟨n, hn, rfl, -, -, earlier⟩ := nextEngine_place found
  have val : (finOf 24 (m.disp.rr + n)).val = (m.disp.rr + n) % 24 := rfl
  have notEarlier : ¬ i < n := fun before => by
    have same : d = finOf 24 (m.disp.rr + i) := Fin.ext place
    rw [same] at serves short
    exact absurd (earlier i before serves) (Nat.not_le.mpr short)
  omega

end NextEngine

theorem engServing_iff (m : Main) (e : Fin 24) : engServing m e = true ↔ (m.engs[e]).state = 0 ∨ (m.engs[e]).state = 3 := by
  simp [engServing]

/-! ## The head of a job queue (R279, R346) -/

section Head

variable {m : Main} {q : Fin 32} {p : Packet} {rest : List Packet}

/-- An internal consumer finds a closed packet that no error has struck. -/
theorem headOf_sound (head : (m.pool.qs[q]).pkts = p :: rest) (closed : p.opened = false) (sound : p.poison = []) :
    headOf m q = (.packet p, m) := by
  have whole : clearHead (m.pool.qs[q]).pkts.length m q = m := by
    simp only [head, List.length_cons, clearHead, closed, Packet.struck, sound, List.find?_nil, Option.map_none, Bool.false_eq_true, if_false]
  unfold headOf
  rw [whole]
  simp only [peekPkt, head, closed, sound, List.foldl_nil, Bool.false_eq_true, if_false]

/-- The dispatcher has taken a packet from the head of a job queue (R279). -/
def packetTaken (m : Main) (q : Fin 32) : Main :=
  { dropHead m q with disp := { (dropHead m q).disp with jobRr := (q.val - 24 + 1) % 4 } }

theorem packetTaken_pkts (head : (m.pool.qs[q]).pkts = p :: rest) : ((packetTaken m q).pool.qs[q]).pkts = rest := by
  simp only [packetTaken, dropHead, modQ_get, if_pos, head, List.drop_one, List.tail_cons]

theorem readerOnly_packetTaken (m : Main) (q : Fin 32) : readerOnly m (packetTaken m q) := rfl

/-- The payload of a descriptor dealt is detached from its queue (R337). -/
def payloadKept (m : Main) (q : Fin 32) (j : Job) : Main :=
  modQ (packetTaken m q) q fun x => noteCells { x with detached := x.detached + j.cells }

/-- A descriptor is dealt to an engine (R279). -/
def jobDealt (m : Main) (q : Fin 32) (j : Job) (e : Fin 24) : Main :=
  let m := modEng (count (payloadKept m q j) 0x70A0 0x01) e fun g => { g with deque := g.deque ++ [j] }
  { m with disp := { m.disp with rr := (e.val + 1) % 24 } }

variable (on : engOn m = true) (idle : m.disp.stalled = [])
  (found : (jobQueues m).find? (fun x => (peekPkt m x).isSome) = some q)

include on idle found in
theorem dispatch_packet (head : (m.pool.qs[q]).pkts = p :: rest) (closed : p.opened = false) (sound : p.poison = []) :
    dispatch m = dispatchOne m q p := by
  simp [dispatch, on, idle, found, headOf_sound head closed sound]

theorem dispatchOne_noDescriptor (h : p.type ≠ 0x20 ∨ p.words.length < 8) :
    dispatchOne m q p = count (packetTaken m q) 0x70A0 0x06 := by
  have none : (p.type != 0x20 || decide (p.words.length < 8)) = true := by simpa using h
  simp only [dispatchOne, none, if_true, packetTaken]

theorem dispatchOne_deals {j : Job} {e : Fin 24} (type : p.type = 0x20) (whole : 8 ≤ p.words.length)
    (job : j = jobOf m q p.words p.closedAt (p.origin.getD m.lace.device)) (good : descError m j = none) (own : j.dev = laceDev m)
    (timely : deadlinePassed m j = false) (engine : nextEngine m (cfgN m 0x3100 0x02) = some e) :
    dispatchOne m q p = jobDealt m q j e := by
  have short : ¬ p.words.length < 8 := Nat.not_lt.mpr whole
  subst job
  simp only [dispatchOne, type, short, good, own, timely, engine, bne_self_eq_false, decide_false, Bool.or_self, Bool.false_eq_true, if_false]
  rfl

end Head

theorem payloadKept_queue (m : Main) (q : Fin 32) (j : Job) :
    ((payloadKept m q j).pool.qs[q]).pkts = ((packetTaken m q).pool.qs[q]).pkts ∧
    ((payloadKept m q j).pool.qs[q]).detached = (m.pool.qs[q]).detached + j.cells := by
  simp only [payloadKept, modQ_get, if_pos, noteCells, packetTaken, dropHead, and_self]

theorem jobDealt_engs (m : Main) (q : Fin 32) (j : Job) (e i : Fin 24) :
    (jobDealt m q j e).engs[i] = if i = e then { m.engs[e] with deque := (m.engs[e]).deque ++ [j] } else m.engs[i] := by
  simp only [jobDealt, modEng_get, count_engs]
  rfl

theorem readerOnly_jobDealt (m : Main) (q : Fin 32) (j : Job) (e : Fin 24) : readerOnly m (jobDealt m q j e) := by
  have kept : readerOnly m (payloadKept m q j) := rfl
  exact readerOnly_trans (readerOnly_trans (readerOnly_trans kept (readerOnly_count ..)) (readerOnly_modEng ..)) (readerOnly_disp ..)

theorem jobDealt_pool (m : Main) (q : Fin 32) (j : Job) (e : Fin 24) : (jobDealt m q j e).pool = (payloadKept m q j).pool :=
  count_pool (payloadKept m q j) 0x70A0 0x01

theorem jobDealt_disp (m : Main) (q : Fin 32) (j : Job) (e : Fin 24) :
    (jobDealt m q j e).disp = { m.disp with jobRr := (q.val - 24 + 1) % 4, rr := (e.val + 1) % 24 } := by
  have taken : (count (payloadKept m q j) 0x70A0 0x01).disp = (payloadKept m q j).disp := count_disp ..
  simp only [jobDealt, modEng_disp, taken]
  rfl

theorem counter_jobDealt (m : Main) (q : Fin 32) (j : Job) (e : Fin 24) :
    counter (jobDealt m q j e) 0x70A0 0x01 = sat32 (counter m 0x70A0 0x01 + 1) :=
  counter_count_same (payloadKept m q j) 0x70A0 0x01

/-! ## Deques of engines out of service (R288) -/

/-- The head of a deque moves to the deque of another engine. -/
def headMoved (m : Main) (e d : Fin 24) (j : Job) (rest : List Job) : Main :=
  let m := modEng m e fun g => { g with deque := rest }
  let m := modEng (count m 0x70A0 0x01) d fun g => { g with deque := g.deque ++ [j] }
  { m with disp := { m.disp with rr := (d.val + 1) % 24 } }

section Move

variable {m : Main} {e d : Fin 24} {j : Job} {rest : List Job}

theorem dequeMove_moves (off : cfgN m 0x3100 0x03 = 0) (out : engServing m e = false) (on : ctlOn m = true)
    (head : (m.engs[e]).deque = j :: rest) (engine : nextEngine m (cfgN m 0x3100 0x02) = some d) :
    dequeMove m e = headMoved m e d j rest := by
  have noStealing : cfgB m 0x3100 0x03 = false := by simp [cfgB, off]
  simp only [dequeMove, noStealing, out, on, head, engine, Bool.not_true, Bool.or_self, Bool.false_eq_true, if_false]
  rfl

theorem headMoved_engs (other : d ≠ e) :
    (headMoved m e d j rest).engs[e] = { m.engs[e] with deque := rest } ∧
    (headMoved m e d j rest).engs[d] = { m.engs[d] with deque := (m.engs[d]).deque ++ [j] } := by
  simp only [headMoved, modEng_get, count_engs, if_pos, if_neg other, if_neg other.symm, and_self]

theorem readerOnly_headMoved : readerOnly m (headMoved m e d j rest) :=
  readerOnly_trans (readerOnly_trans (readerOnly_trans (readerOnly_modEng ..) (readerOnly_count ..)) (readerOnly_modEng ..)) (readerOnly_disp ..)

theorem counter_headMoved : counter (headMoved m e d j rest) 0x70A0 0x01 = sat32 (counter m 0x70A0 0x01 + 1) :=
  counter_count_same (modEng m e fun g => { g with deque := rest }) 0x70A0 0x01

end Move

/-- Settles O25: a packet at the head is a descriptor that is dealt, or is discarded; the choice of the engine is the first place of the
rotation that serves and has room. -/
theorem dispatchDeals : Obligations.DispatchDeals := by
  refine ⟨⟨?deals, ?discards, ?off, ?moves⟩, ?next⟩
  case deals =>
    intro s q p rest j e on idle found head closed sound type whole job good own timely engine
    refine answers_of_onMain (f := dispatch) rfl ?_
    rw [dispatch_packet on idle found head closed sound, dispatchOne_deals type whole job good own timely engine]
    obtain ⟨pkts, detached⟩ := payloadKept_queue s.m q j
    refine ⟨?_, fun i other => ?_, ?_, ?_, ?_, ?_, counter_jobDealt .., mainOnly_m .., readerOnly_jobDealt ..⟩
    · simp only [jobDealt_engs, if_pos]
    · simp only [jobDealt_engs, if_neg other]
    · rw [jobDealt_pool, pkts, packetTaken_pkts head]
    · rw [jobDealt_pool, detached]
    · rw [jobDealt_disp]
    · rw [jobDealt_disp]
  case discards =>
    intro s q p rest on idle found head closed sound bad
    refine answers_of_onMain (f := dispatch) rfl ?_
    rw [dispatch_packet on idle found head closed sound, dispatchOne_noDescriptor bad]
    have pool : (count (packetTaken s.m q) 0x70A0 0x06).pool = (packetTaken s.m q).pool := count_pool ..
    refine ⟨?_, count_engs .., counter_count_same (packetTaken s.m q) 0x70A0 0x06, mainOnly_m ..,
      readerOnly_trans (readerOnly_packetTaken ..) (readerOnly_count ..)⟩
    rw [pool, packetTaken_pkts head]
  case off =>
    intro s off
    exact exec_of_onMain (f := dispatch) rfl (by simp [dispatch, off])
  case moves =>
    intro s e d j rest off out on head engine
    have other : d ≠ e := fun same => by
      rw [same] at engine
      exact absurd (nextEngine_serves engine) (by simp [out])
    refine answers_of_onMain (f := fun m => dequeMove m e) rfl ?_
    rw [dequeMove_moves off out on head engine]
    obtain ⟨own, dealt⟩ := headMoved_engs (m := s.m) (j := j) (rest := rest) other
    exact ⟨congrArg Engine.deque own, congrArg Engine.deque dealt, counter_headMoved, rfl, mainOnly_m .., readerOnly_headMoved⟩
  case next =>
    intro m depth e found
    obtain ⟨_, _, _, serves, short, _⟩ := nextEngine_place found
    exact ⟨(engServing_iff m e).mp serves, short, fun i d inside place => nextEngine_first found inside place⟩

end Sys2Proof.Machine
end

section
/-!
What the reader's operations leave of an engine: its desk, which is all but its two contexts and the count of their results. The scheduler, the
ends of stitches and the entry to HOLD reach the contexts alone; deques and service states change by the engines' own commands (R279, R284–R289).
-/

namespace Sys2Proof.Machine

/-- An engine with its contexts and the count of their results left out. -/
def Engine.desk (g : Engine) : Engine := { g with ctx0 := {}, ctx1 := {}, done := 0 }

/-- Every engine has the same desk in both. -/
structure desksKept (a b : Main) : Prop where
  keep : ∀ e : Fin 24, (b.engs[e]).desk = (a.engs[e]).desk

theorem desksKept_refl (a : Main) : desksKept a a := ⟨fun _ => rfl⟩

theorem desksKept_trans {a b c : Main} (h : desksKept a b) (g : desksKept b c) : desksKept a c :=
  ⟨fun e => (g.keep e).trans (h.keep e)⟩

theorem desksKept_of_engs {a b : Main} (h : b.engs = a.engs) : desksKept a b := ⟨fun e => by rw [h]⟩

theorem desksKept_of_pool {a b : Main} (h : poolOnly a b) : desksKept a b := desksKept_of_engs (poolOnly_engs_eq h)

theorem desksKept_deque {a b : Main} (h : desksKept a b) (e : Fin 24) : (b.engs[e]).deque = (a.engs[e]).deque :=
  (congrArg Engine.deque (h.keep e) :)

theorem desksKept_service {a b : Main} (h : desksKept a b) (e : Fin 24) :
    (b.engs[e]).state = (a.engs[e]).state ∧ (b.engs[e]).cause = (a.engs[e]).cause ∧ (b.engs[e]).faults = (a.engs[e]).faults :=
  ⟨(congrArg Engine.state (h.keep e) :), (congrArg Engine.cause (h.keep e) :), (congrArg Engine.faults (h.keep e) :)⟩

theorem desksKept_thefts {a b : Main} (h : desksKept a b) (e : Fin 24) :
    (b.engs[e]).stole = (a.engs[e]).stole ∧ (b.engs[e]).robbed = (a.engs[e]).robbed :=
  ⟨(congrArg Engine.stole (h.keep e) :), (congrArg Engine.robbed (h.keep e) :)⟩

theorem desksKept_forEach {α : Type} (f : Main → α → Main) (h : ∀ x a, desksKept x (f x a)) (l : List α) (m : Main) :
    desksKept m (forEach l m f) := by
  induction l generalizing m with
  | nil =>
    rw [forEach_nil]
    exact desksKept_refl m
  | cons a rest ih =>
    rw [forEach_cons]
    exact desksKept_trans (h m a) (ih (f m a))

theorem desksKept_modEng (m : Main) (e : Fin 24) {f : Engine → Engine} (h : ∀ g, (f g).desk = g.desk) : desksKept m (modEng m e f) := by
  refine ⟨fun i => ?_⟩
  rw [modEng_get]
  split
  · rename_i same
    rw [h, same]
  · rfl

theorem Engine.setCtx_desk (g : Engine) (c : Fin 2) (x : Ctx) : (g.setCtx c x).desk = g.desk := by
  unfold Engine.setCtx
  split <;> rfl

theorem desksKept_modCtx (m : Main) (e : Fin 24) (c : Fin 2) (f : Ctx → Ctx) : desksKept m (modCtx m e c f) :=
  desksKept_modEng m e fun g => Engine.setCtx_desk g c _

/-! ## Operations that leave the engines as they are -/

@[simp] theorem linkSend_engs (m : Main) (l : LaceLink) (w0 eseq : Nat) (payload : List Word) : (linkSend m l w0 eseq payload).engs = m.engs := by
  unfold linkSend
  cases l <;> simp

@[simp] theorem laceSend_engs (m : Main) (type : Nat) (dst : Option (Fin 4)) (payload : List Word) :
    (laceSend m type dst payload).engs = m.engs := by
  unfold laceSend
  dsimp only
  split
  · rfl
  · split
    · rfl
    · split <;> simp

@[simp] theorem sendField_engs (m : Main) (p : Fin 128) (isOn : Bool) (f : FieldRec) : (sendField m p isOn f).engs = m.engs := by
  unfold sendField
  split <;> simp

@[simp] theorem loadDac_engs (m : Main) (k : Fin 16) : (loadDac m k).engs = m.engs := by
  rcases loadDac_cases m k with e | ⟨n, d, e⟩ <;> rw [e]
  exact countN_engs ..

@[simp] theorem loadCoupled_engs (m : Main) (v : FV) : (loadCoupled m v).engs = m.engs := by
  unfold loadCoupled
  refine forEach_keeps Main.engs _ (fun x k => ?_) _ m
  split
  · split <;> simp
  · rfl

@[simp] theorem latchPairs_engs (m : Main) (v : FV) : (latchPairs m v).engs = m.engs := by
  unfold latchPairs
  refine forEach_keeps Main.engs _ (fun x k => ?_) _ m
  split
  · split <;> rfl
  · rfl

@[simp] theorem endField_engs (m : Main) (k : Fin 16) : (endField m k).engs = m.engs := by
  cases h : (m.cores[k]).fld with
  | none => rw [endField_none h]
  | some f =>
    obtain ⟨v, hv⟩ := fieldView_some h
    unfold endField
    simp only [hv, h]
    split <;> simp [accrue]

@[simp] theorem stallPkt_engs (m : Main) (q : Fin 32) (type source : Nat) (ws : List Word) : (stallPkt m q type source ws).1.engs = m.engs :=
  poolOnly_engs_eq (poolOnly_stallPkt ..)

@[simp] theorem countStatus_engs (m : Main) (status : Nat) : (countStatus m status).engs = m.engs := by simp [countStatus]

@[simp] theorem dispResult_engs (m : Main) (j : Job) (engine ctx : Nat) (core : Option (Fin 16)) (status detail : Nat) :
    (dispResult m j engine ctx core status detail).engs = m.engs := by
  unfold dispResult
  dsimp only
  split <;> simp [freePayload]

@[simp] theorem laneOut_engs (m : Main) (k : Fin 16) (ws : List Word) : (laneOut m k ws).engs = m.engs := by
  unfold laneOut
  split
  · rfl
  · dsimp only
    split <;> simp

@[simp] theorem reportPort_engs (m : Main) (k : Fin 16) (p : Fin 128) (v : VisitOut) : (reportPort m k p v).engs = m.engs := by
  unfold reportPort
  dsimp only
  split <;> simp

@[simp] theorem reportVisit_engs (m : Main) (k : Fin 16) : (reportVisit m k).engs = m.engs := by
  unfold reportVisit
  dsimp only
  split <;> simp

@[simp] theorem endPass_engs (m : Main) (incomplete : Bool) : (endPass m incomplete).engs = m.engs := by
  unfold endPass
  simp

@[simp] theorem noteCause_engs (mr : Main × Req) (b : Bool) (sub : Nat) : (noteCause mr b sub).1.engs = mr.1.engs := by
  unfold noteCause
  split <;> simp

@[simp] theorem sendClaims_engs (m : Main) (r : Req) (ds : List (Fin 4)) (v : FV) (code : Nat) (sub8 : Bool) :
    (sendClaims m r ds v code sub8).engs = m.engs := by
  unfold sendClaims
  dsimp only
  rw [forEach_keeps Main.engs _ (fun x d => laceSend_engs ..), modLace_engs]

@[simp] theorem withdraw_engs (m : Main) (w : Owner) : (withdraw m w).engs = m.engs := rfl
@[simp] theorem putReq_engs (m : Main) (r : Req) : (putReq m r).engs = m.engs := rfl

@[simp] theorem addReq_engs (m : Main) (r : Req) : (addReq m r).engs = m.engs := by
  unfold addReq
  split
  · rfl
  · dsimp only
    split <;> rfl

@[simp] theorem discardBurnish_engs (m : Main) : (discardBurnish m).engs = m.engs := by
  unfold discardBurnish
  dsimp only
  refine (forEach_keeps Main.engs _ (fun x k => ?_) _ _).trans (by simp)
  split <;> simp

@[simp] theorem abandonFull_engs (m : Main) : (abandonFull m).engs = m.engs := by
  unfold abandonFull
  split <;> simp

@[simp] theorem cutPass_engs (m : Main) : (cutPass m).engs = m.engs := by
  unfold cutPass
  extract_lets cleared sch withdrawn ended
  have cleared_engs : ended.engs = m.engs := forEach_keeps Main.engs _ (fun x k => modLane_engs ..) _ m
  split
  · rw [endPass_engs, cleared_engs]
  · exact cleared_engs

@[simp] theorem demodFree_engs (m : Main) (d : Fin 8) : (demodFree m d).engs = m.engs := by
  unfold demodFree
  dsimp only
  split
  · exact (modDemod_engs ..).trans (poolOnly_engs_eq (poolOnly_trans (poolOnly_sinkPkt ..) (poolOnly_closePkt ..)))
  · rfl

@[simp] theorem dropReceptions_engs (m : Main) (counted : Bool) : (dropReceptions m counted).engs = m.engs := by
  unfold dropReceptions
  dsimp only
  rw [modRad_engs]
  refine forEach_keeps Main.engs _ (fun x d => ?_) _ m
  split <;> simp

@[simp] theorem setMode_engs (m : Main) (dst : Mode) (trig : Nat) : (setMode m dst trig).engs = m.engs :=
  (poolOnly_engs_eq (poolOnly_setMode m dst trig)).trans (modPw_engs ..)

/-! ## Operations that reach the contexts -/

theorem desksKept_closeResult (m : Main) (e : Fin 24) (c : Fin 2) : desksKept m (closeResult m e c) := by
  unfold closeResult
  extract_lets freed
  have engs : (count freed 0x70A0 0x02).engs = m.engs := by
    rw [count_engs]
    simp only [freed]
    split <;> rfl
  exact desksKept_trans (desksKept_of_engs engs) (desksKept_modEng _ e fun g => Engine.setCtx_desk g c {})

theorem desksKept_writeResult (m : Main) (e : Fin 24) (c : Fin 2) (status detail : Nat) (part : Bool) (body : List Word) :
    desksKept m (writeResult m e c status detail part body) := by
  unfold writeResult
  split
  · exact desksKept_modCtx ..
  · extract_lets x run ws o r
    have engs : r.1.engs = m.engs := by simp [r]
    split
    · exact desksKept_trans (desksKept_of_engs engs) (desksKept_closeResult ..)
    · exact desksKept_trans (desksKept_of_engs ((count_engs ..).trans engs)) (desksKept_modCtx ..)

theorem desksKept_commit (m : Main) (r : Req) (k : Fin 16) (code : Nat) (sub8 : Bool) : desksKept m (commit m r k code sub8) := by
  unfold commit
  extract_lets v counted noted sch granted unclaimed placed begun
  have placed_engs : placed.engs = m.engs := by
    have noted_engs : noted.engs = m.engs := by simp [noted, counted]
    simp only [placed, unclaimed, modCore_engs]
    split <;> exact noted_engs
  have kept : desksKept placed begun := by
    simp only [begun]
    split
    · exact desksKept_trans (desksKept_of_engs (countIf_engs ..)) (desksKept_modCtx ..)
    · exact desksKept_of_engs rfl
    · exact desksKept_refl _
  exact desksKept_trans (desksKept_of_engs placed_engs) (desksKept_trans kept (desksKept_of_engs (by simp)))

theorem desksKept_evalCore (m : Main) (r : Req) (k : Fin 16) : desksKept m (evalCore m r k) := by
  unfold evalCore
  extract_lets F v noted put r' noSub leaky
  have put_engs : put.engs = m.engs := by simp [put, noted]
  split
  · exact desksKept_refl m
  · split
    · exact desksKept_of_engs put_engs
    · split
      · exact desksKept_of_engs (by simp [noSub, put_engs])
      · extract_lets v' code placed
        split
        · exact desksKept_of_engs (by simp [leaky, put_engs])
        · split
          · exact desksKept_of_engs (by simp [put_engs])
          · exact desksKept_of_engs (by simp [put_engs])
          · refine desksKept_trans (desksKept_of_engs put_engs) ?_
            split
            · exact desksKept_refl _
            · exact desksKept_commit ..
            · exact desksKept_of_engs (sendClaims_engs ..)

theorem desksKept_refuseReq (m : Main) (r : Req) (status detail : Nat) : desksKept m (refuseReq m r status detail) := by
  unfold refuseReq
  dsimp only
  split
  · exact desksKept_trans (desksKept_of_engs (withdraw_engs ..)) (desksKept_writeResult ..)
  · exact desksKept_of_engs (by simp [reportFault])
  · exact desksKept_of_engs rfl

theorem desksKept_takeSession (m : Main) (r : Req) (e : Fin 24) (c : Fin 2) (k : Fin 16) : desksKept m (takeSession m r e c k) :=
  desksKept_trans (desksKept_of_engs (b := modCore (withdraw m r.owner) k _) rfl) (desksKept_modCtx ..)

theorem desksKept_sessionCase {m x : Main} {r : Req} (h : sessionCase m r = some x) : desksKept m x := by
  unfold sessionCase at h
  split at h
  · split at h
    · cases h
    · split at h
      · split at h
        · cases h
          exact desksKept_refuseReq ..
        · cases h
      · split at h
        · cases h
          exact desksKept_refuseReq ..
        · split at h
          · cases h
            split
            · exact desksKept_takeSession ..
            · exact desksKept_refl _
          · cases h
            exact desksKept_refl _
  · split at h
    · cases h
      exact desksKept_refl _
    · cases h

theorem desksKept_evalReq (m : Main) (r : Req) : desksKept m (evalReq m r) := by
  unfold evalReq
  dsimp only
  split
  · exact desksKept_of_engs rfl
  · split
    · exact desksKept_refuseReq ..
    · split
      · exact desksKept_of_engs rfl
      · split
        · exact desksKept_refuseReq ..
        · split
          · exact desksKept_refl m
          · split
            · exact desksKept_sessionCase (by assumption)
            · split
              · exact desksKept_refl m
              · split
                · exact desksKept_evalCore ..
                · exact desksKept_refl m

/-- An evaluation of the requests keeps every desk (R126). -/
theorem desksKept_evaluate (m : Main) : desksKept m (evaluate m) := by
  unfold evaluate
  dsimp only
  refine desksKept_forEach _ (fun x w => ?_) _ m
  split
  · exact desksKept_evalReq ..
  · exact desksKept_refl x

theorem desksKept_abortStitch (m : Main) (e : Fin 24) (c : Fin 2) (detail : Nat) : desksKept m (abortStitch m e c detail) := by
  unfold abortStitch
  extract_lets withdrawn x ordered aborted
  have engs : ordered.engs = m.engs := by
    simp only [ordered]
    split
    · split <;> rfl
    · rfl
  have kept : desksKept m aborted := by
    refine desksKept_trans (desksKept_of_engs engs) ?_
    simp only [aborted, abortCtx]
    split
    · exact desksKept_refl _
    · exact desksKept_writeResult ..
  split
  · exact desksKept_trans kept (desksKept_of_engs (coreRest_engs ..))
  · exact kept

theorem desksKept_abortStarted (m : Main) (detail : Nat) : desksKept m (abortStarted m detail) := by
  unfold abortStarted
  refine desksKept_forEach _ (fun x a => ?_) _ m
  dsimp only
  split
  · exact desksKept_abortStitch ..
  · exact desksKept_refl x

theorem desksKept_abortWaiting (m : Main) (detail : Nat) : desksKept m (abortWaiting m detail) := by
  unfold abortWaiting
  refine desksKept_forEach _ (fun x a => ?_) _ m
  dsimp only
  split
  · exact desksKept_trans (desksKept_of_engs (withdraw_engs x _)) (desksKept_trans (desksKept_modCtx ..) (desksKept_of_engs (dispResult_engs ..)))
  · exact desksKept_refl x

/-- An entry to HOLD keeps every desk (R41). -/
theorem desksKept_enterHold (m : Main) (cause : Nat) (units : List Nat) : desksKept m (enterHold m cause units) := by
  unfold enterHold
  split
  · exact desksKept_refl m
  · extract_lets off aborted waiting cut burnish quiet sch cleared held args told
    have off_engs : off.engs = m.engs := forEach_keeps Main.engs endField endField_engs _ m
    have told_engs : told.engs = waiting.engs := by simp [told, held, cleared, quiet, txStop, burnish, cut]
    refine desksKept_trans (desksKept_of_engs off_engs) (desksKept_trans (desksKept_abortStarted off 4) ?_)
    refine desksKept_trans (desksKept_abortWaiting aborted 4) (desksKept_of_engs ?_)
    rw [setMode_engs, told_engs]

theorem desksKept_unitFault (m : Main) (u cause : Nat) (nested out : Bool) : desksKept m (unitFault m u cause nested out) := by
  obtain ⟨x, told, e⟩ := unitFault_cases m u cause nested out
  rcases e with e | ⟨units, e⟩ <;> rw [e]
  · exact desksKept_of_pool told
  · exact desksKept_trans (desksKept_of_pool told) (desksKept_enterHold ..)

end Sys2Proof.Machine
end

section
/-!
Proofs of the statement on the service of engines (R287–R289, R563).
-/

namespace Sys2Proof.Machine

section Service

variable {m : Main} {e : Fin 24}

/-- The service of one engine, in what an update of it makes of the state. -/
theorem modEng_own (m : Main) (e : Fin 24) (f : Engine → Engine) : (modEng m e f).engs[e] = f m.engs[e] := by rw [modEng_get, if_pos rfl]

/-! ## Faults (R287, R288) -/

/-- The end of an engine's work keeps every desk (R288). -/
theorem desksKept_engineDown (m : Main) (e : Fin 24) (atOnce : Bool) : desksKept m (engineDown m e atOnce) := by
  unfold engineDown
  refine desksKept_forEach _ (fun x c => ?_) _ m
  extract_lets own withdrawn off
  split
  · exact desksKept_refl x
  · rename_i j _
    split
    · exact desksKept_refl x
    · extract_lets freed
      have off_engs : off.engs = x.engs := by
        simp only [off]
        split
        · split
          · split <;> simp [withdrawn]
          · rfl
        · rfl
      have kept : desksKept x freed := desksKept_trans (desksKept_of_engs off_engs)
        (desksKept_trans (desksKept_modCtx off e c fun _ => {}) (desksKept_of_engs (dispResult_engs ..)))
      split
      · exact desksKept_trans kept (desksKept_of_engs (coreRest_engs ..))
      · exact kept

/-- A fault leaves its engine in the state of R289, with its cause, counted. -/
theorem engineFault_service (m : Main) (e : Fin 24) {cause : Nat} (some : cause ≠ 0) :
    ((engineFault m e cause).engs[e]).state = faultState (m.engs[e]).state ∧ ((engineFault m e cause).engs[e]).cause = cause ∧
    ((engineFault m e cause).engs[e]).faults = sat32 ((m.engs[e]).faults + 1) := by
  unfold engineFault
  rw [if_neg some]
  extract_lets st out nested noted down
  have kept : desksKept noted (evaluate (unitFault down (engUnit e) cause nested out)) :=
    desksKept_trans (desksKept_trans (desksKept_engineDown ..) (desksKept_unitFault ..)) (desksKept_evaluate _)
  obtain ⟨state, cause', faults⟩ := desksKept_service kept e
  rw [state, cause', faults]
  simp only [noted, modEng_own, count_engs, faultState]
  exact ⟨rfl, trivial, trivial⟩

theorem answers_engineFault {s : State} {e : Fin 24} {c : Fin 5} (cause : c.val ≠ 0) : answers (.engineFault e c) s fun t =>
    (t.m.engs[e]).state = faultState (s.m.engs[e]).state ∧ (t.m.engs[e]).cause = c.val ∧
    (t.m.engs[e]).faults = sat32 ((s.m.engs[e]).faults + 1) ∧ mainOnly s t := by
  obtain ⟨state, cause', faults⟩ := engineFault_service s.m e cause
  exact answers_of_onMain (f := fun m => engineFault m e c.val) rfl ⟨state, cause', faults, mainOnly_m ..⟩

/-! ## Self-test and PROBATION (R289) -/

theorem engineSelftest_main (main : m.pw.mode.isMain = true) (faulted : (m.engs[e]).state = 1) (empty : (m.engs[e]).deque = []) :
    engineSelftest m e = modEng m e fun g => { g with state := 2, holdoffDone := false } := by
  simp only [engineSelftest, faulted, empty, main, decide_true, List.isEmpty_nil, Bool.and_self, if_true]

theorem engineSelftest_holds (full : (m.engs[e]).deque ≠ []) : engineSelftest m e = m := by
  have held : (m.engs[e]).deque.isEmpty = false := by simpa using full
  simp only [engineSelftest, held, Bool.and_false, Bool.false_eq_true, if_false]

theorem engineSelftestDone_ends (pass : Bool) (tests : (m.engs[e]).state = 2) : engineSelftestDone m e pass =
    unitState (modEng m e fun g => { g with state := if pass then 3 else 4 }) (engUnit e) (if pass then 3 else 4) := by
  simp only [engineSelftestDone, tests, if_true]

theorem engineProbationEnd_serves (probation : (m.engs[e]).state = 3) : engineProbationEnd m e = modEng m e fun g => { g with state := 0 } := by
  simp only [engineProbationEnd, probation, if_true]

/-- A change of an engine's state that is journalled leaves it in the new state, and nothing else but the pool changes. -/
theorem state_of_poolOnly {m' : Main} {st : Nat} (h : poolOnly (modEng m e fun g => { g with state := st }) m') : (m'.engs[e]).state = st := by
  rw [poolOnly_engs_eq h, modEng_own]

theorem answers_engineSelftestDone {s : State} (pass : Bool) (tests : (s.m.engs[e]).state = 2) : answers (.engineSelftestDone e pass) s fun t =>
    (t.m.engs[e]).state = (if pass then 3 else 4) ∧ mainOnly s t ∧
    poolOnly (modEng s.m e fun g => { g with state := if pass then 3 else 4 }) t.m := by
  have reach := poolOnly_unitState (modEng s.m e fun g => { g with state := if pass then 3 else 4 }) (engUnit e) (if pass then 3 else 4)
  rw [← engineSelftestDone_ends pass tests] at reach
  exact answers_of_onMain (f := fun m => engineSelftestDone m e pass) rfl ⟨state_of_poolOnly reach, mainOnly_m .., reach⟩

/-! ## Release and enable by the host (R289, R563) -/

theorem engineRelease_retired (main : m.pw.mode.isMain = true) (retired : (m.engs[e]).state = 4) :
    engineRelease m e 0x5A#8 = unitReleased (modEng m e fun g => { g with state := 2 }) (engUnit e) := by
  unfold engineRelease
  exact if_pos (by rw [main, retired]; rfl)

theorem engineRelease_other {v : BitVec 8} (other : v ≠ 0x5A#8 ∨ (m.engs[e]).state ≠ 4) : engineRelease m e v = m := by
  unfold engineRelease
  refine if_neg fun released => ?_
  simp only [Bool.and_eq_true, decide_eq_true_eq] at released
  obtain ⟨⟨value, -⟩, retired⟩ := released
  exact other.elim (fun wrong => wrong value) (fun serves => serves retired)

theorem answers_engineRelease {s : State} (main : s.m.pw.mode.isMain = true) (up : s.m.pw.ctlDown = false) (retired : (s.m.engs[e]).state = 4) :
    answers (.engineRelease e 0x5A#8) s fun t =>
      (t.m.engs[e]).state = 2 ∧ mainOnly s t ∧ poolOnly (modEng s.m e fun g => { g with state := 2 }) t.m := by
  have reach := poolOnly_unitReleased (modEng s.m e fun g => { g with state := 2 }) (engUnit e)
  rw [← engineRelease_retired main retired] at reach
  exact answers_of_onService (f := fun m => engineRelease m e 0x5A#8) rfl up ⟨state_of_poolOnly reach, mainOnly_m .., reach⟩

/-- An update of an engine is told by what it makes of that engine. -/
theorem modEng_congr {f g : Engine → Engine} (same : f m.engs[e] = g m.engs[e]) : modEng m e f = modEng m e g := by
  simp only [modEng, updV, same]

theorem engineEnable_disables (main : m.pw.mode.isMain = true) (serves : (m.engs[e]).state ≠ 4) :
    engineEnable m e false = modEng (cfgSet m (0x3000 + e.val) 0x02 0) e fun g => { g with state := 5 } := by
  simp only [engineEnable, main, Bool.not_true, Bool.false_eq_true, if_false]
  exact modEng_congr (if_neg serves)

theorem engineEnable_tests (main : m.pw.mode.isMain = true) (disabled : (m.engs[e]).state = 5) :
    engineEnable m e true = modEng (cfgSet m (0x3000 + e.val) 0x02 1) e fun g => { g with state := 2 } := by
  simp only [engineEnable, main, Bool.not_true, Bool.false_eq_true, if_false, if_true]
  exact modEng_congr (if_pos disabled)

theorem engineEnable_other (v : Bool) (other : m.pw.mode.isMain = false) : engineEnable m e v = m := by
  simp only [engineEnable, other, Bool.not_false, if_true]

/-- A write of the dictionary has no effect while the controller is out (R30). -/
theorem exec_onService_down {c : Instr} {s : State} {f : Main → Main} (hc : exec c s = onService f s) (down : s.m.pw.ctlDown = true) :
    exec c s = .next s := by
  refine exec_of_onMain hc ?_
  rw [down, if_pos rfl]

end Service

/-- Settles O26: a fault by the desk that the end of the engine's work and the escalation keep, the other changes by their own equations. -/
theorem engineService : Obligations.EngineService := by
  refine ⟨?fault, ?nested, ?tests, ?holds, ?done, ?probation, ?release, ?refused, ?disable, ?enable, ?other⟩
  case fault =>
    intro s e c cause serves
    refine answers_mono (answers_engineFault cause) fun t ⟨state, cause', faults, rest⟩ => ⟨?_, cause', faults, rest⟩
    rw [state, serves]
    rfl
  case nested =>
    intro s e c cause probation
    refine answers_mono (answers_engineFault cause) fun t ⟨state, cause', _, rest⟩ => ⟨?_, cause', rest⟩
    rw [state, probation]
    rfl
  case tests => exact fun s e main faulted empty => exec_of_onMain (f := fun m => engineSelftest m e) rfl (engineSelftest_main main faulted empty)
  case holds => exact fun s e full => exec_of_onMain (f := fun m => engineSelftest m e) rfl (engineSelftest_holds full)
  case done => exact fun s e pass tests => answers_engineSelftestDone pass tests
  case probation => exact fun s e probation => exec_of_onMain (f := fun m => engineProbationEnd m e) rfl (engineProbationEnd_serves probation)
  case release => exact fun s e up main retired => answers_engineRelease main up retired
  case refused => exact fun s e v other => exec_onService_same (f := fun m => engineRelease m e v) rfl (engineRelease_other other)
  case disable =>
    exact fun s e up main serves => exec_of_onService (f := fun m => engineEnable m e false) rfl up (engineEnable_disables main serves)
  case enable =>
    exact fun s e up main disabled => exec_of_onService (f := fun m => engineEnable m e true) rfl up (engineEnable_tests main disabled)
  case other =>
    rintro s e v (other | down)
    · exact exec_onService_same (f := fun m => engineEnable m e v) rfl (engineEnable_other v other)
    · exact exec_onService_down (f := fun m => engineEnable m e v) rfl down

end Sys2Proof.Machine
end

section
/-!
Proofs of the statement on the work of contexts (R267, R284, R294, R339): a descriptor taken or stolen, and the sweep of deques.
-/

namespace Sys2Proof.Machine

section Taking

variable {m : Main} {e : Fin 24} {c : Fin 2} {j : Job}

/-! ## A descriptor enters a context (R267) -/

/-- The request of a stitch that waits for its grant (R126, R267). -/
def waitReq (m : Main) (e : Fin 24) (c : Fin 2) (j : Job) : Req := { owner := .ctx e c, port := j.port, cls := 2, proto := j.kind, made := m.now }

/-- A context waits with a descriptor. -/
def waitCtx (m : Main) (e : Fin 24) (c : Fin 2) (j : Job) : Main := modCtx m e c fun _ => { ({} : Ctx) with st := .wait, job := some j }

theorem ctxOf_waitCtx : ctxOf (waitCtx m e c j) e c = { ({} : Ctx) with st := .wait, job := some j } := (modCtx_ctx m e c _).1

theorem requestOf_waitCtx : requestOf (waitCtx m e c j) (.ctx e c) j.port = some (waitReq m e c j) := by
  simp only [requestOf, ctxOf_waitCtx, bne_self_eq_false, Bool.false_eq_true, if_false, BEq.rfl, if_true]
  rfl

theorem addReq_alone {r : Req} (none : m.sch.reqs = []) (owner : r.owner = .ctx e c) :
    addReq m r = { m with sch := { m.sch with reqs := [r] } } := by
  simp only [addReq, none, owner, List.any_nil, Bool.false_eq_true, if_false, List.nil_append]

/-- The request of a waiting stitch whose deadline has not passed waits while the drive is held (R48, R126). -/
theorem evalReq_waitReq {now : Nat} (waits : (ctxOf m e c).st = .wait) (job : (ctxOf m e c).job = some j) (early : deadlinePassed m j = false)
    (held : m.pw.vtxHold = true) (port : (m.ports[j.port]).state < 2) :
    evalReq m { owner := .ctx e c, port := j.port, cls := 2, proto := j.kind, made := now } = m := by
  unfold evalReq
  have inService : ¬ 2 ≤ (m.ports[j.port]).state := Nat.not_le.mpr port
  have alive : reqDead m { owner := .ctx e c, port := j.port, cls := 2, proto := j.kind, made := now } = false := by
    simp only [reqDead, waits]
    rfl
  dsimp only
  rw [alive]
  simp [-Fin.getElem_fin, ownerJob, job, early, inService, held]

theorem placeJob_waits (none : m.sch.reqs = []) (held : m.pw.vtxHold = true) (port : (m.ports[j.port]).state < 2)
    (early : deadlinePassed m j = false) :
    placeJob m e c j = { waitCtx m e c j with sch := { m.sch with reqs := [waitReq m e c j] } } := by
  have request : grantRequest (waitCtx m e c j) (.ctx e c) j.port = evaluate (addReq (waitCtx m e c j) (waitReq m e c j)) := by
    unfold grantRequest
    rw [requestOf_waitCtx]
  refine request.trans ?_
  rw [addReq_alone (m := waitCtx m e c j) none rfl, evaluate_single rfl]
  exact evalReq_waitReq (congrArg Ctx.st ctxOf_waitCtx) (congrArg Ctx.job ctxOf_waitCtx) early held port

/-- What stands after a descriptor has entered a context whose request waits. -/
structure jobWaits (a b : Main) (e : Fin 24) (c : Fin 2) (j : Job) : Prop where
  st : (ctxOf b e c).st = .wait
  job : (ctxOf b e c).job = some j
  reqs : b.sch.reqs.map (fun r => (r.owner, r.port, r.cls, r.made)) = [(.ctx e c, j.port, 2, a.now)]
  desks : desksKept a b
  reader : readerOnly a b

theorem jobWaits_placeJob (none : m.sch.reqs = []) (held : m.pw.vtxHold = true) (port : (m.ports[j.port]).state < 2)
    (early : deadlinePassed m j = false) : jobWaits m (placeJob m e c j) e c j := by
  rw [placeJob_waits none held port early]
  exact ⟨congrArg Ctx.st ctxOf_waitCtx, congrArg Ctx.job ctxOf_waitCtx, rfl,
    desksKept_trans (b := waitCtx m e c j) (desksKept_modCtx ..) (desksKept_of_engs rfl), readerOnly_trans (readerOnly_modCtx ..) (readerOnly_sch ..)⟩

/-! ## The own deque (R267) -/

theorem stitchesOn_of (mode : m.pw.mode = .transact ∨ m.pw.mode = .emulate) : stitchesOn m = true := by
  rcases mode with mode | mode <;> rw [stitchesOn, mode] <;> rfl

theorem stitchesOff_of (mode : m.pw.mode ≠ .transact ∧ m.pw.mode ≠ .emulate) : stitchesOn m = false := by
  simp only [stitchesOn, Bool.or_eq_false_iff, beq_eq_false_iff_ne]
  exact mode

theorem contextTake_takes {rest : List Job} (mode : m.pw.mode = .transact ∨ m.pw.mode = .emulate) (serves : engServing m e = true)
    (idle : (ctxOf m e c).st = .idle) (head : (m.engs[e]).deque = j :: rest) (good : j.bad = false) :
    contextTake m e c = placeJob (modEng m e fun g => { g with deque := rest }) e c j := by
  have on := stitchesOn_of mode
  have open_ : (!stitchesOn m || !engServing m e || (ctxOf m e c).st != .idle) = false := by rw [on, serves, idle]; rfl
  unfold contextTake
  rw [open_, head]
  simp only [good, Bool.false_eq_true, if_false]

theorem contextTake_rests (none : (m.engs[e]).deque = [] ∨ (m.pw.mode ≠ .transact ∧ m.pw.mode ≠ .emulate)) : contextTake m e c = m := by
  unfold contextTake
  rcases none with empty | mode
  · rw [empty]
    dsimp only
    split <;> rfl
  · rw [stitchesOff_of mode]
    rfl

/-! ## Stealing (R284) -/

/-- The choice between the longest deque so far and the next one. -/
def longer (m : Main) (e : Fin 24) (v : Option (Fin 24)) (i : Fin 24) : Option (Fin 24) :=
  if i = e ∨ (m.engs[i]).deque.length = 0 then v
  else match v with
    | none => some i
    | some w => if (m.engs[w]).deque.length < (m.engs[i]).deque.length then some i else v

theorem victim_eq (m : Main) (e : Fin 24) : victim m e = (allFin 24).foldl (longer m e) none := by
  unfold victim
  congr 1
  funext v i
  simp only [longer, Bool.or_eq_true, decide_eq_true_eq] <;> rfl

/-- The engine whose deque is longest keeps its place over the engines that come after it. -/
theorem longer_stays {v i : Fin 24} (longest : i ≠ e → (m.engs[i]).deque.length ≤ (m.engs[v]).deque.length) :
    longer m e (some v) i = some v := by
  unfold longer
  split
  · rfl
  · rename_i other
    have short : ¬ (m.engs[v]).deque.length < (m.engs[i]).deque.length := Nat.not_lt.mpr (longest fun own => other (.inl own))
    exact if_neg short

/-- Whatever stands before it with a shorter deque gives way to the engine whose deque is longest. -/
theorem longer_takes {v : Fin 24} {w : Option (Fin 24)} (other : v ≠ e) (some_ : (m.engs[v]).deque ≠ [])
    (shorter : ∀ i ∈ w, (m.engs[i]).deque.length < (m.engs[v]).deque.length) : longer m e w v = some v := by
  unfold longer
  rw [if_neg (by simpa [other] using some_)]
  cases w with
  | none => rfl
  | some i => exact if_pos (shorter i rfl)

/-- Over engines with shorter deques only an engine with a shorter deque is chosen. -/
theorem longer_shorter {n : Nat} (l : List (Fin 24)) (short : ∀ i ∈ l, i ≠ e → (m.engs[i]).deque.length < n) :
    ∀ w : Option (Fin 24), (∀ i ∈ w, (m.engs[i]).deque.length < n) → ∀ i ∈ l.foldl (longer m e) w, (m.engs[i]).deque.length < n := by
  induction l with
  | nil => exact fun w hw => hw
  | cons a l ih =>
    intro w hw
    refine ih (fun i mem => short i (List.mem_cons_of_mem _ mem)) _ fun i mem => ?_
    unfold longer at mem
    split at mem
    · exact hw i mem
    · rename_i other
      have shortA := short a List.mem_cons_self fun own => other (.inl own)
      split at mem
      · cases mem
        exact shortA
      · split at mem
        · cases mem
          exact shortA
        · exact hw i mem

theorem foldl_longer_stays {v : Fin 24} (l : List (Fin 24))
    (longest : ∀ i ∈ l, i ≠ e → (m.engs[i]).deque.length ≤ (m.engs[v]).deque.length) : l.foldl (longer m e) (some v) = some v := by
  induction l with
  | nil => rfl
  | cons a l ih =>
    rw [List.foldl_cons, longer_stays (longest a List.mem_cons_self)]
    exact ih fun i mem => longest i (List.mem_cons_of_mem _ mem)

/-- The victim is the engine with the longest deque, the lowest number on a tie (R284). -/
theorem victim_longest {v : Fin 24} (other : v ≠ e) (some_ : (m.engs[v]).deque ≠ [])
    (longest : ∀ w : Fin 24, w ≠ e → w ≠ v → (m.engs[w]).deque.length < (m.engs[v]).deque.length ∨
      ((m.engs[w]).deque.length = (m.engs[v]).deque.length ∧ v.val < w.val)) : victim m e = some v := by
  rw [victim_eq]
  obtain ⟨before, after, cut⟩ := List.append_of_mem (List.mem_finRange v)
  have sorted : (before ++ v :: after).Pairwise (· < ·) := cut ▸ List.pairwise_lt_finRange 24
  have early : ∀ i ∈ before, i < v := fun i mem => (List.pairwise_append.mp sorted).2.2 i mem v List.mem_cons_self
  rw [allFin, cut, List.foldl_append, List.foldl_cons]
  have shorter : ∀ i ∈ before.foldl (longer m e) none, (m.engs[i]).deque.length < (m.engs[v]).deque.length := by
    refine longer_shorter before (fun i mem own => ?_) none fun i none => by cases none
    rcases longest i own (Fin.ne_of_lt (early i mem)) with less | ⟨-, late⟩
    · exact less
    · exact absurd (early i mem) (Nat.lt_asymm late)
  rw [longer_takes other some_ shorter]
  refine foldl_longer_stays after fun i _ own => ?_
  by_cases same : i = v
  · rw [same]
  · rcases longest i own same with less | ⟨tie, -⟩
    · exact Nat.le_of_lt less
    · exact Nat.le_of_eq tie

/-- The tail of one deque has left it for an idle context of another engine, both counted (R284). -/
def tailStolen (m : Main) (e v : Fin 24) : Main :=
  modEng (count (modEng m v fun g => { g with deque := g.deque.dropLast, robbed := sat32 (g.robbed + 1) }) 0x70A0 0x05) e
    fun g => { g with stole := sat32 (g.stole + 1) }

theorem steal_steals {v : Fin 24} (mode : m.pw.mode = .transact ∨ m.pw.mode = .emulate) (enabled : cfgN m 0x3100 0x03 ≠ 0)
    (serves : engServing m e = true) (idle : (ctxOf m e c).st = .idle) (empty : (m.engs[e]).deque = []) (chosen : victim m e = some v)
    (tail : (m.engs[v]).deque.getLast? = some j) (good : j.bad = false) : steal m e c = placeJob (tailStolen m e v) e c j := by
  have on := stitchesOn_of mode
  have steals : cfgB m 0x3100 0x03 = true := by simpa [cfgB] using enabled
  have open_ : (!stitchesOn m || !cfgB m 0x3100 0x03 || !engServing m e || (ctxOf m e c).st != .idle || !(m.engs[e]).deque.isEmpty) = false := by
    rw [on, steals, serves, idle, empty]
    rfl
  unfold steal
  rw [open_, chosen]
  simp only [tail, good, Bool.false_eq_true, if_false]
  rfl

theorem tailStolen_engs {v : Fin 24} (other : v ≠ e) :
    (tailStolen m e v).engs[v] = { m.engs[v] with deque := (m.engs[v]).deque.dropLast, robbed := sat32 ((m.engs[v]).robbed + 1) } ∧
    (tailStolen m e v).engs[e] = { m.engs[e] with stole := sat32 ((m.engs[e]).stole + 1) } := by
  unfold tailStolen
  constructor
  · rw [modEng_get, if_neg other, count_engs, modEng_get, if_pos rfl]
  · rw [modEng_get, if_pos rfl, count_engs, modEng_get, if_neg (Ne.symm other)]

theorem readerOnly_tailStolen (v : Fin 24) : readerOnly m (tailStolen m e v) :=
  readerOnly_trans (readerOnly_modEng ..) (readerOnly_trans (readerOnly_count ..) (readerOnly_modEng ..))

end Taking

/-! ## The clock of a deadline (R293) -/

/-- What the phase and the deadlines are told from is the same in both. -/
structure clockKept (a b : Main) : Prop where
  now : b.now = a.now
  ph : b.ph = a.ph
  cfg : b.cfg = a.cfg
  lace : b.lace = a.lace

theorem clockKept_of_pool {a b : Main} (h : poolOnly a b) : clockKept a b :=
  ⟨poolOnly_now_eq h, poolOnly_ph_eq h, poolOnly_cfg_eq h, poolOnly_lace_eq h⟩

theorem clockKept_of_reader {a b : Main} (h : readerOnly a b) (lace : b.lace = a.lace) : clockKept a b :=
  ⟨readerOnly_now_eq h, readerOnly_ph_eq h, readerOnly_cfg_eq h, lace⟩

theorem clockKept_phaseNow {a b : Main} (h : clockKept a b) : phaseNow b = phaseNow a := by
  obtain ⟨now, ph, cfg, lace⟩ := h
  cases a
  cases b
  dsimp only at now ph cfg lace
  subst now ph cfg lace
  rfl

theorem clockKept_deadlinePassed {a b : Main} (h : clockKept a b) (j : Job) : deadlinePassed b j = deadlinePassed a j := by
  obtain ⟨now, ph, cfg, lace⟩ := h
  cases a
  cases b
  dsimp only at now ph cfg lace
  subst now ph cfg lace
  rfl

@[simp] theorem stallPkt_lace (m : Main) (q : Fin 32) (type source : Nat) (ws : List Word) : (stallPkt m q type source ws).1.lace = m.lace :=
  poolOnly_lace_eq (poolOnly_stallPkt ..)

theorem dispResult_lace (m : Main) (j : Job) (engine ctx : Nat) (core : Option (Fin 16)) (status detail : Nat) :
    (dispResult m j engine ctx core status detail).lace = m.lace := by
  unfold dispResult
  dsimp only
  split <;> simp [freePayload, countStatus]

/-! ## The sweep (R294) -/

/-- One deque is swept: its expired descriptors return `DEADLINE_MISSED`. -/
def dequeSwept (m : Main) (e : Fin 24) : Main :=
  forEach ((m.engs[e]).deque.filter (deadlinePassed m)) (modEng m e fun g => { g with deque := g.deque.filter fun j => !deadlinePassed m j })
    fun m j => dispResult m j 31 0 none 7 2

theorem dequeSweep_sweeps {m : Main} (on : ctlOn m = true) : dequeSweep m = evaluate (forEach (allFin 24) m dequeSwept) := by
  simp only [dequeSweep, on, Bool.not_true, Bool.false_eq_true, if_false]
  rfl

theorem readerOnly_dequeSwept (m : Main) (e : Fin 24) : readerOnly m (dequeSwept m e) :=
  readerOnly_trans (readerOnly_modEng ..) (readerOnly_forEach _ _ _ fun _ _ => readerOnly_dispResult ..)

theorem dequeSwept_engs (m : Main) (e : Fin 24) :
    (dequeSwept m e).engs = (modEng m e fun g => { g with deque := g.deque.filter fun j => !deadlinePassed m j }).engs :=
  forEach_keeps Main.engs _ (fun _ _ => dispResult_engs ..) _ _

theorem clockKept_dequeSwept (m : Main) (e : Fin 24) : clockKept m (dequeSwept m e) :=
  clockKept_of_reader (readerOnly_dequeSwept m e) (forEach_keeps Main.lace _ (fun _ _ => dispResult_lace ..) _ _)

/-- A sweep of several deques leaves in each of them what has not expired, and the others as they were. -/
theorem forEach_dequeSwept (l : List (Fin 24)) (m : Main) (i : Fin 24) :
    ((forEach l m dequeSwept).engs[i]).deque =
      if i ∈ l then (m.engs[i]).deque.filter fun j => !deadlinePassed m j else (m.engs[i]).deque := by
  induction l generalizing m with
  | nil =>
    rw [forEach_nil]
    rfl
  | cons e l ih =>
    have sameClock : (fun j => !deadlinePassed (dequeSwept m e) j) = fun j => !deadlinePassed m j :=
      funext fun j => congrArg _ (clockKept_deadlinePassed (clockKept_dequeSwept m e) j)
    rw [forEach_cons, ih, sameClock, dequeSwept_engs, modEng_get]
    by_cases own : i = e
    · subst own
      simp only [if_true, List.mem_cons, true_or, List.filter_filter, Bool.and_self, ite_self]
    · simp only [own, if_false, List.mem_cons, false_or]

theorem answers_dequeSweep {s : State} (on : ctlOn s.m = true) : answers .dequeDeadlineSweep s fun t =>
    (∀ e : Fin 24, (t.m.engs[e]).deque = (s.m.engs[e]).deque.filter fun j => !deadlinePassed s.m j) ∧ mainOnly s t ∧ readerOnly s.m t.m := by
  refine answers_of_onMain (f := dequeSweep) rfl ?_
  rw [dequeSweep_sweeps on]
  refine ⟨fun e => ?_, mainOnly_m .., readerOnly_trans (readerOnly_forEach _ _ _ readerOnly_dequeSwept) (readerOnly_evaluate _)⟩
  rw [desksKept_deque (desksKept_evaluate _), forEach_dequeSwept, if_pos (c := e ∈ allFin 24) (List.mem_finRange e)]

end Sys2Proof.Machine
end

section
/-!
Proofs of the statement on the work of contexts (R267, R284, R294, R339): the end of a stitch, the run limit, a result that goes on.
-/

namespace Sys2Proof.Machine

/-! ## A context at rest -/

/-- A context has no stitch to run, and no request at the scheduler. -/
structure atRest (m : Main) (e : Fin 24) (c : Fin 2) : Prop where
  st : (ctxOf m e c).st = .idle ∨ (ctxOf m e c).st = .result
  quiet : ∀ r ∈ m.sch.reqs, r.owner ≠ .ctx e c

section Rest

variable {m a b : Main} {e : Fin 24} {c : Fin 2}

theorem atRest_of_same (h : atRest a e c) (ctx : ctxOf b e c = ctxOf a e c) (sch : b.sch = a.sch) : atRest b e c :=
  ⟨by rw [ctx]; exact h.st, by rw [sch]; exact h.quiet⟩

theorem atRest_of_engs (h : atRest a e c) (engs : b.engs = a.engs) (sch : b.sch = a.sch) : atRest b e c :=
  atRest_of_same h (ctxOf_of_engs engs e c) sch

/-! ## A result, written or stalled (R267) -/

theorem closeResult_sch (m : Main) (e : Fin 24) (c : Fin 2) : (closeResult m e c).sch = m.sch := by
  unfold closeResult
  dsimp only
  rw [modEng_sch, count_sch]
  split <;> rfl

theorem stallPkt_sch (m : Main) (q : Fin 32) (type source : Nat) (ws : List Word) : (stallPkt m q type source ws).1.sch = m.sch :=
  poolOnly_sch_eq (poolOnly_stallPkt ..)

theorem countStatus_sch (m : Main) (status : Nat) : (countStatus m status).sch = m.sch := by simp [countStatus]

theorem writeResult_sch (m : Main) (e : Fin 24) (c : Fin 2) (status detail : Nat) (part : Bool) (body : List Word) :
    (writeResult m e c status detail part body).sch = m.sch := by
  unfold writeResult
  split
  · rfl
  · dsimp only
    split
    · rw [closeResult_sch, stallPkt_sch, countStatus_sch]
    · rw [modCtx_sch, count_sch, stallPkt_sch, countStatus_sch]

/-- A result that has closed leaves its context idle, counted at its engine. -/
theorem closeResult_closes (m : Main) (e : Fin 24) (c : Fin 2) :
    ctxOf (closeResult m e c) e c = {} ∧ ((closeResult m e c).engs[e]).done = sat32 ((m.engs[e]).done + 1) ∧ othersKept e c m (closeResult m e c) := by
  unfold closeResult
  extract_lets freed
  have engs : (count freed 0x70A0 0x02).engs = m.engs := by
    rw [count_engs]
    simp only [freed]
    split <;> rfl
  obtain ⟨idle, others⟩ := modEng_ctx (count freed 0x70A0 0x02) e c (fun g => { g.setCtx c {} with done := sat32 (g.done + 1) })
    (fun _ => {}) (fun g d => Engine.setCtx_ctx g c d {})
  refine ⟨idle, ?_, othersKept_trans (othersKept_of_engs engs) others⟩
  rw [modEng_own, engs]

theorem writeResult_st (m : Main) (e : Fin 24) (c : Fin 2) (status detail : Nat) (part : Bool) (body : List Word) :
    (ctxOf (writeResult m e c status detail part body) e c).st = .idle ∨ (ctxOf (writeResult m e c status detail part body) e c).st = .result := by
  unfold writeResult
  split
  · rw [(modCtx_ctx ..).1]
    exact .inl rfl
  · dsimp only
    split
    · rw [(closeResult_closes ..).1]
      exact .inl rfl
    · rw [(modCtx_ctx ..).1]
      exact .inr rfl

/-! ## The core a stitch gives up (R259, R291) -/

/-- The field of a core as it passes to a waiting stitch. -/
def passedTo (w : Owner) (x : Core) : Core := { x.noNext with fld := x.fld.map fun f => { f with owner := w } }

/-- The field of a core as a session keeps it. -/
def keptIdle (x : Core) : Core := { x.noNext with fld := x.fld.map fun f => { f with idle := true } }

/-- A field passes on to the stitch of a request. -/
def handedOver (m : Main) (k : Fin 16) (e : Fin 24) (c : Fin 2) : Main :=
  modCtx (modCore (withdraw (count m 0x70A0 0x0A) (.ctx e c)) k (passedTo (.ctx e c))) e c
    (Ctx.begin (modCore (withdraw (count m 0x70A0 0x0A) (.ctx e c)) k (passedTo (.ctx e c))) k)

theorem handOver_cases {m' : Main} {k : Fin 16} {p : Fin 128} {pr : Proto} (h : handOver m k p pr = some m') :
    ∃ (r : Req) (e : Fin 24) (c : Fin 2), r ∈ m.sch.reqs ∧ r.owner = .ctx e c ∧ m' = handedOver m k e c := by
  unfold handOver at h
  split at h
  · cases h
  · split at h
    · cases h
    · rename_i r found
      split at h
      · rename_i e c owner
        split at h
        · cases h
          refine ⟨r, e, c, List.mem_of_find?_eq_some found, owner, ?_⟩
          rw [owner]
          rfl
        · cases h
      · cases h

/-- What the core of a stitch that gives it up is given over to. -/
theorem releaseCore_cases (m : Main) (e : Fin 24) (c : Fin 2) :
    releaseCore m e c = m ∨ (∃ k, releaseCore m e c = modCore m k keptIdle) ∨
    (∃ (k : Fin 16) (r : Req) (e' : Fin 24) (c' : Fin 2), r ∈ m.sch.reqs ∧ r.owner = .ctx e' c' ∧ releaseCore m e c = handedOver m k e' c') ∨
    ∃ k, releaseCore m e c = orderOff m k := by
  unfold releaseCore
  dsimp only
  split
  · rename_i k j _ _
    split
    · split
      · exact .inr (.inl ⟨k, rfl⟩)
      · cases passes : handOver m k j.port j.kind with
        | none => exact .inr (.inr (.inr ⟨k, rfl⟩))
        | some m' =>
          obtain ⟨r, e', c', mem, owner, same⟩ := handOver_cases passes
          exact .inr (.inr (.inl ⟨k, r, e', c', mem, owner, same⟩))
    · exact .inl rfl
  · exact .inl rfl

/-- A request that a withdrawal leaves is an older one of another owner. -/
theorem mem_withdraw {w : Owner} {r : Req} (mem : r ∈ (withdraw m w).sch.reqs) : r ∈ m.sch.reqs ∧ r.owner ≠ w := by
  simpa [withdraw] using mem

/-- A release makes no new request. -/
theorem releaseCore_reqs (m : Main) (e : Fin 24) (c : Fin 2) : ∀ r ∈ (releaseCore m e c).sch.reqs, r ∈ m.sch.reqs := by
  intro r mem
  rcases releaseCore_cases m e c with same | ⟨k, same⟩ | ⟨k, _, e', c', _, _, same⟩ | ⟨k, same⟩ <;> rw [same] at mem
  · exact mem
  · exact mem
  · exact (mem_withdraw (m := count m 0x70A0 0x0A) mem).1
  · exact mem

/-! ## The end of a stitch (R267) -/

theorem atRest_endStitch (m : Main) (e : Fin 24) (c : Fin 2) (status detail : Nat) (part : Bool) (body : List Word) :
    atRest (endStitch m e c status detail part body) e c := by
  unfold endStitch
  dsimp only
  have ends : atRest (writeResult (releaseCore (withdraw m (.ctx e c)) e c) e c status detail part body) e c := by
    refine ⟨writeResult_st .., fun r mem => ?_⟩
    rw [writeResult_sch] at mem
    exact (mem_withdraw (releaseCore_reqs _ e c r mem)).2
  split
  · exact atRest_of_engs ends (coreRest_engs ..) (coreRest_sch ..)
  · exact ends

theorem applyDac_engs (m : Main) (k : Fin 16) : (applyDac m k).engs = m.engs ∧ (applyDac m k).sch = m.sch := by
  unfold applyDac
  split <;> exact ⟨rfl, rfl⟩

theorem atRest_writeResult {e' : Fin 24} {c' : Fin 2} {status detail : Nat} {part : Bool} {body : List Word} (h : atRest m e c)
    (other : (e, c) ≠ (e', c')) : atRest (writeResult m e' c' status detail part body) e c :=
  atRest_of_same h ((contextEnds_writeResult m e' c' status detail part body).2 (e, c) other) (writeResult_sch ..)

/-- A request of another owner leaves a context at rest. -/
theorem atRest_addReq {r : Req} (h : atRest m e c) (other : r.owner ≠ .ctx e c) : atRest (addReq m r) e c := by
  refine ⟨by rw [ctxOf_of_engs (addReq_engs m r)]; exact h.st, fun q mem => ?_⟩
  unfold addReq at mem
  split at mem
  · exact h.quiet q mem
  · have cases_ : q ∈ m.sch.reqs ∨ q = r := by
      dsimp only at mem
      split at mem <;> simpa using mem
    rcases cases_ with old | new
    · exact h.quiet q old
    · rw [new]
      exact other

theorem atRest_pauseCtx {e' : Fin 24} {c' : Fin 2} (h : atRest m e c) (other : (e, c) ≠ (e', c')) : atRest (pauseCtx m e' c') e c := by
  unfold pauseCtx
  dsimp only
  split
  · rename_i k j _ _
    have off_rests : atRest (if carries m k (.ctx e' c') then orderOff m k else m) e c := by
      split
      · exact atRest_of_engs h (orderOff_engs ..) (orderOff_sch ..)
      · exact h
    have dropped_rests := atRest_of_engs off_rests (dropSession_engs _ j.port) (dropSession_sch ..)
    split
    · exact atRest_writeResult dropped_rests other
    · refine atRest_addReq (atRest_of_same dropped_rests ((modCtx_ctx _ e' c' _).2 (e, c) other) rfl) fun same => other ?_
      injection same with sameE sameC
      rw [sameE, sameC]
  · exact h

/-- A window that closes asks nothing for a context at rest. -/
theorem atRest_windowClosed {k : Fin 16} {f : FieldRec} (h : atRest m e c) : atRest (windowClosed m k f) e c := by
  unfold windowClosed
  split
  · rename_i e' c' _
    dsimp only
    split
    · exact atRest_of_engs h ((dropSession_engs ..).trans (orderOff_engs ..)) ((dropSession_sch ..).trans (orderOff_sch ..))
    · split
      · exact h
      · rename_i runs
        split
        · exact atRest_of_engs h (orderOff_engs ..) (orderOff_sch ..)
        · refine atRest_pauseCtx h fun own => runs ?_
          injection own with ownE ownC
          rw [← ownE, ← ownC]
          rcases h.st with idle | result
          · rw [idle]; rfl
          · rw [result]; rfl
  · split
    · exact atRest_of_engs h (orderOff_engs ..) (orderOff_sch ..)
    · unfold pauseVisit
      dsimp only
      split <;> exact atRest_of_engs h rfl rfl
  · exact atRest_of_engs h (orderOff_engs ..) (orderOff_sch ..)

theorem atRest_gapBegins {k : Fin 16} (h : atRest m e c) : atRest (gapBegins m k) e c := by
  obtain ⟨engs, sch⟩ := applyDac_engs m k
  unfold gapBegins
  extract_lets applied
  have applied_rests : atRest applied e c := atRest_of_engs h engs sch
  split
  · dsimp only
    split
    · exact atRest_of_engs applied_rests rfl rfl
    · exact atRest_windowClosed (atRest_of_engs applied_rests rfl rfl)
  · exact applied_rests

theorem readerOnly_gapBegins (m : Main) (k : Fin 16) : readerOnly m (gapBegins m k) := by
  unfold gapBegins
  dsimp only
  split
  · split
    · exact readerOnly_trans (readerOnly_applyDac ..) (readerOnly_modCore ..)
    · exact readerOnly_trans (readerOnly_applyDac ..) (readerOnly_trans (readerOnly_modCore ..) (readerOnly_windowClosed ..))
  · exact readerOnly_applyDac ..

/-- The body of a stitch that ends (R276, R277). -/
def Progress.endBody (p : Progress) (op status : Nat) : List Word := if status = 0 then p.okBody op else p.body op

/-- The gap that begins where the core stays on after an ARM (R133). -/
def gapAfter (chained : Bool) (m : Main) (k : Fin 16) : Main :=
  if chained && (m.cores[k]).fld.isSome && (m.cores[k]).exch == .gap && !(m.cores[k]).pendOff then gapBegins m k else m

theorem finishStitch_eq {j : Job} {k : Fin 16} (status detail : Nat) (job : (ctxOf m e c).job = some j) (core : (ctxOf m e c).core = some k) :
    finishStitch m e c status detail = gapAfter (m.cores[k]).chain (endStitch m e c status detail
      (status != 0 && !((ctxOf m e c).sc.prog.endBody j.opcode status).isEmpty) ((ctxOf m e c).sc.prog.endBody j.opcode status)) k := by
  unfold finishStitch
  dsimp only
  rw [job, core]
  rfl

theorem gapAfter_cases (chained : Bool) (m : Main) (k : Fin 16) : gapAfter chained m k = m ∨ gapAfter chained m k = gapBegins m k := by
  unfold gapAfter
  split
  · exact .inr rfl
  · exact .inl rfl

theorem readerOnly_gapAfter (chained : Bool) (m : Main) (k : Fin 16) : readerOnly m (gapAfter chained m k) := by
  rcases gapAfter_cases chained m k with same | gap
  · rw [same]
    rfl
  · rw [gap]
    exact readerOnly_gapBegins ..

/-- The end of a stitch leaves its context at rest. -/
theorem atRest_finishStitch {j : Job} {k : Fin 16} (status detail : Nat) (job : (ctxOf m e c).job = some j) (core : (ctxOf m e c).core = some k) :
    atRest (finishStitch m e c status detail) e c := by
  rw [finishStitch_eq status detail job core]
  rcases gapAfter_cases (m.cores[k]).chain (endStitch ..) k with same | gap
  · rw [same]
    exact atRest_endStitch ..
  · rw [gap]
    exact atRest_gapBegins (atRest_endStitch ..)

theorem readerOnly_finishStitch {j : Job} {k : Fin 16} (status detail : Nat) (job : (ctxOf m e c).job = some j)
    (core : (ctxOf m e c).core = some k) : readerOnly m (finishStitch m e c status detail) := by
  rw [finishStitch_eq status detail job core]
  exact readerOnly_trans (readerOnly_endStitch ..) (readerOnly_gapAfter ..)

end Rest

/-! ## The run limit (R267) -/

section Limit

variable {m : Main} {e : Fin 24} {c : Fin 2} {j : Job} {k : Fin 16} {keys : Vector (Option (BitVec 128)) 8}

/-- The run limit of a context has passed. -/
def limitPassed (m : Main) (e : Fin 24) (c : Fin 2) : Main := modCtx m e c fun x => { x with limit := true }

theorem limitPassed_ctx : ctxOf (limitPassed m e c) e c = { ctxOf m e c with limit := true } := (modCtx_ctx m e c _).1

theorem notApdu_of (job : (ctxOf m e c).job = some j) (op : j.opcode ≠ 8) : ¬ ((ctxOf m e c).job.map (·.opcode)) = some 8 := by
  simpa [job] using op

theorem runLimit_pause (job : (ctxOf m e c).job = some j) (op : j.opcode ≠ 8) (pause : (ctxOf m e c).st = .pause) :
    runLimit m keys e c = finishStitch m e c 4 0 := by
  unfold runLimit
  dsimp only
  rw [if_neg (notApdu_of job op), pause]
  rfl

/-- A stitch that waits for its field, or for a lost handle, ends at once. -/
theorem runLimit_idles (job : (ctxOf m e c).job = some j) (op : j.opcode ≠ 8) (run : (ctxOf m e c).st = .run) (told : (ctxOf m e c).told = false)
    (waits : (ctxOf m e c).lost = true ∨ ((ctxOf m e c).sc.inbox = none ∧ (ctxOf m e c).sc.live = false)) :
    runLimit m keys e c = finishStitch (limitPassed m e c) e c 4 0 := by
  unfold runLimit
  dsimp only
  rw [if_neg (notApdu_of job op), run]
  rcases waits with lost | ⟨unread, dead⟩
  · simp only [lost, told, Bool.false_eq_true, if_true, if_false]
    rfl
  · rw [unread, dead]
    simp only [told, Option.isSome_none, Bool.false_eq_true, if_false]
    cases (ctxOf m e c).lost <;> rfl

theorem runLimit_served (job : (ctxOf m e c).job = some j) (op : j.opcode ≠ 8) (run : (ctxOf m e c).st = .run)
    (lost : (ctxOf m e c).lost = false) (live : (ctxOf m e c).sc.live = true) (unread : (ctxOf m e c).sc.inbox = none) :
    runLimit m keys e c = serve (limitPassed m e c) keys e c false progOf := by
  unfold runLimit
  dsimp only
  rw [if_neg (notApdu_of job op), run, lost, unread, live]
  rfl

/-- The turn of a stitch whose limit has passed. -/
def limitTurn (e : Fin 24) (c : Fin 2) (k : Fin 16) (j : Job) (keys : Vector (Option (BitVec 128)) 8) : Turn :=
  { owner := .ctx e c, core := k, port := j.port, limit := true, apdu := j.opcode == 8, keys := keys }

theorem fieldOver_open {f : FieldRec} {w : Owner} (fld : (m.cores[k]).fld = some f) (owner : f.owner = w) (on : (m.cores[k]).pendOff = false)
    (allowed : planAllows m k f.port f.cls = true) : fieldOver m k w = false := by
  simp only [fieldOver, fld, owner, on, allowed, bne_self_eq_false, Bool.not_true, Bool.or_self]

/-- What is to be settled of a stitch that runs in an open window, once its limit has passed: nothing while its exchange lasts. -/
theorem mustSettle_limit {f : FieldRec} (op : j.opcode ≠ 8) (sc : Script) (fld : (m.cores[k]).fld = some f) (owner : f.owner = .ctx e c) :
    mustSettle m (limitTurn e c k j keys) sc = !(m.cores[k]).busy := by
  have notApdu : (j.opcode == 8) = false := beq_eq_false_iff_ne.mpr op
  have carried : carries m k (.ctx e c) = true := by simp [-Fin.getElem_fin, carries, fld, owner]
  simp only [mustSettle, limitStops, limitTurn, notApdu, carried, Bool.false_and, Bool.not_false, Bool.and_true, Bool.or_true, Bool.true_or,
    Bool.not_true, Bool.false_or, Bool.true_and]

/-- A run that waits for a frame it cannot leave out ends with the limit. -/
theorem settleRun_limit {f : FieldRec} {g : TxFrame} {sc : Script} (prog : AirM Unit) (op : j.opcode ≠ 8) (want : sc.want = some g)
    (kept : g.skip = false) (fld : (m.cores[k]).fld = some f) (owner : f.owner = .ctx e c) (on : (m.cores[k]).pendOff = false)
    (allowed : planAllows m k f.port f.cls = true) :
    settleRun (limitTurn e c k j keys) prog m sc = (m, { sc with want := none }, .limited) := by
  have notApdu : (j.opcode == 8) = false := beq_eq_false_iff_ne.mpr op
  have notSkipped : (some false == some true) = false := rfl
  simp only [settleRun, limitTurn, want, kept, notApdu, notSkipped, fieldOver_open fld owner on allowed, Option.map_some,
    Bool.false_eq_true, if_false]

/-- The turn of a stitch that waits in an open window for a frame it cannot leave out, its limit passed: it ends unless an exchange lasts. -/
theorem serve_limit {f : FieldRec} {g : TxFrame} {prog : Job → AirM Unit} (job : (ctxOf m e c).job = some j) (core : (ctxOf m e c).core = some k)
    (op : j.opcode ≠ 8) (run : (ctxOf m e c).st = .run) (lost : (ctxOf m e c).lost = false) (live : (ctxOf m e c).sc.live = true)
    (unread : (ctxOf m e c).sc.inbox = none) (want : (ctxOf m e c).sc.want = some g) (kept : g.skip = false)
    (fld : (m.cores[k]).fld = some f) (owner : f.owner = .ctx e c) (on : (m.cores[k]).pendOff = false)
    (allowed : planAllows m k f.port f.cls = true) (limit : (ctxOf m e c).limit = true) :
    serve m keys e c false prog = if (m.cores[k]).busy then m
      else finishStitch (modCtx m e c fun x => { x with sc := { (ctxOf m e c).sc with want := none } }) e c 4 0 := by
  have settles := mustSettle_limit (keys := keys) op (ctxOf m e c).sc fld owner
  have settled := settleRun_limit (keys := keys) (prog j) op want kept fld owner on allowed
  rw [limitTurn] at settles settled
  simp only [serve, job, core, run, lost, limit, unread, live, settles, settled]
  cases (m.cores[k]).busy <;> rfl

theorem exec_runLimit {s : State} {m : Main} (h : runLimit s.m s.keys.fobKeys e c = m) :
    exec (.runLimitExpiry e c) s = .next { s with m := m } := by
  rw [← h]
  rfl

/-- A stitch that the run limit ends leaves its context at rest. -/
theorem answers_runLimit_ends {s : State} {m : Main} (h : runLimit s.m s.keys.fobKeys e c = finishStitch m e c 4 0)
    (job : (ctxOf m e c).job = some j) (core : (ctxOf m e c).core = some k) (reader : readerOnly s.m m) :
    answers (.runLimitExpiry e c) s fun t =>
      ((ctxOf t.m e c).st = .idle ∨ (ctxOf t.m e c).st = .result) ∧ (∀ r ∈ t.m.sch.reqs, r.owner ≠ .ctx e c) ∧ mainOnly s t ∧
      readerOnly s.m t.m := by
  obtain ⟨rests, quiet⟩ := atRest_finishStitch 4 0 job core
  exact ⟨_, exec_runLimit h, rests, quiet, mainOnly_m .., readerOnly_trans reader (readerOnly_finishStitch 4 0 job core)⟩

end Limit

/-! ## A stalled result (R339) -/

theorem resumePkt_completes {m : Main} {q : Fin 32} {id : Nat} {ws : List Word} (room : ws.length ≤ roomOf m q id ws.length) :
    (resumePkt m q id ws).2 = none := by
  simp only [resumePkt, room, if_true]

theorem resultResume_completes {m : Main} {e : Fin 24} {c : Fin 2} {j : Job} (result : (ctxOf m e c).st = .result)
    (stalled : (ctxOf m e c).stalled = true) (job : (ctxOf m e c).job = some j) (opened : (ctxOf m e c).outPkt ≠ 0) (left : (ctxOf m e c).out ≠ [])
    (room : (ctxOf m e c).out.length ≤ roomOf m (resultOut m j []).1 (ctxOf m e c).outPkt (ctxOf m e c).out.length) :
    resultResume m e c = closeResult (resumePkt m (resultOut m j []).1 (ctxOf m e c).outPkt (ctxOf m e c).out).1 e c := by
  have some_ : 0 < (ctxOf m e c).out.length := List.length_pos_iff.mpr left
  have fits : ¬ roomOf m (resultOut m j []).1 (ctxOf m e c).outPkt (ctxOf m e c).out.length = 0 := by omega
  have completes := resumePkt_completes room
  simp only [resultResume, retryPkt, job, result, stalled, BEq.rfl, Bool.and_self, if_true, opened, if_false, fits, decide_false,
    Bool.false_and, Bool.false_eq_true, completes, Option.isSome_none]

theorem answers_resultResume {s : State} {e : Fin 24} {c : Fin 2} {j : Job} (result : (ctxOf s.m e c).st = .result)
    (stalled : (ctxOf s.m e c).stalled = true) (job : (ctxOf s.m e c).job = some j) (opened : (ctxOf s.m e c).outPkt ≠ 0)
    (left : (ctxOf s.m e c).out ≠ [])
    (room : (ctxOf s.m e c).out.length ≤ roomOf s.m (resultOut s.m j []).1 (ctxOf s.m e c).outPkt (ctxOf s.m e c).out.length) :
    answers (.resultStallResume e c) s fun t =>
      ctxOf t.m e c = {} ∧ (t.m.engs[e]).done = sat32 ((s.m.engs[e]).done + 1) ∧ mainOnly s t ∧ readerOnly s.m t.m := by
  refine answers_of_onMain (f := fun m => resultResume m e c) rfl ?_
  dsimp only
  rw [resultResume_completes result stalled job opened left room]
  have resumed := poolOnly_resumePkt s.m (resultOut s.m j []).1 (ctxOf s.m e c).outPkt (ctxOf s.m e c).out
  obtain ⟨idle, done, -⟩ := closeResult_closes (resumePkt s.m (resultOut s.m j []).1 (ctxOf s.m e c).outPkt (ctxOf s.m e c).out).1 e c
  refine ⟨idle, ?_, mainOnly_m .., readerOnly_trans (readerOnly_of_pool resumed) (readerOnly_closeResult ..)⟩
  rw [done, poolOnly_engs_eq resumed]

/-- Settles O27: a descriptor's request waits while the drive is held; the sweep filters each deque by the same clock; the end of a stitch leaves
its context at rest. -/
theorem engineWork : Obligations.EngineWork := by
  refine ⟨?take, ?rests, ?steal, fun s on => answers_dequeSweep on, ?limit, ?exchange, ?apdu, ?resume⟩
  case take =>
    intro s e c j rest mode serves idle head good none held port early
    refine answers_of_onMain (f := fun m => contextTake m e c) rfl ?_
    have waits := jobWaits_placeJob (m := modEng s.m e fun g => { g with deque := rest }) (e := e) (c := c) none held port early
    dsimp only
    rw [contextTake_takes mode serves idle head good]
    refine ⟨waits.st, waits.job, ?_, waits.reqs, mainOnly_m .., readerOnly_trans (readerOnly_modEng ..) waits.reader⟩
    rw [desksKept_deque waits.desks, modEng_own]
  case rests => exact fun s e c none => exec_of_onMain (f := fun m => contextTake m e c) rfl (contextTake_rests none)
  case steal =>
    intro s e v c j mode enabled serves idle empty other longest tail good none held port early
    have some_ : (s.m.engs[v]).deque ≠ [] := fun nil => by rw [nil] at tail; cases tail
    have waits := jobWaits_placeJob (m := tailStolen s.m e v) (e := e) (c := c) (j := j) (by simp [tailStolen, none]) (by simp [tailStolen, held])
      (by simpa [tailStolen] using port) ((clockKept_deadlinePassed (clockKept_of_reader (readerOnly_tailStolen v) (by simp [tailStolen])) j).trans early)
    refine answers_of_onMain (f := fun m => steal m e c) rfl ?_
    dsimp only
    rw [steal_steals mode enabled serves idle empty (victim_longest other some_ longest) tail good]
    obtain ⟨robbed, stole⟩ := tailStolen_engs (m := s.m) other
    refine ⟨waits.st, waits.job, ?_, ?_, ?_, mainOnly_m .., readerOnly_trans (readerOnly_tailStolen v) waits.reader⟩
    · rw [desksKept_deque waits.desks, robbed]
    · rw [(desksKept_thefts waits.desks v).2, robbed]
    · rw [(desksKept_thefts waits.desks e).1, stole]
  case limit =>
    rintro s e c j k job core op (pause | ⟨run, told, waits⟩)
    · exact answers_runLimit_ends (runLimit_pause job op pause) job core (readerOnly_refl _)
    · exact answers_runLimit_ends (runLimit_idles job op run told waits) (by rw [limitPassed_ctx, job]) (by rw [limitPassed_ctx, core])
        (readerOnly_modCtx ..)
  case exchange =>
    intro s e c j k f g job core op run lost live unread want kept fld owner on allowed
    have own := limitPassed_ctx (m := s.m) (e := e) (c := c)
    have served := (runLimit_served (keys := s.keys.fobKeys) job op run lost live unread).trans
      (serve_limit (m := limitPassed s.m e c) (by rw [own, job]) (by rw [own, core]) op (by rw [own, run]) (by rw [own, lost]) (by rw [own, live])
        (by rw [own, unread]) (by rw [own, want]) kept fld owner on allowed (by rw [own]))
    split
    · rename_i rests
      obtain ⟨gap, chain⟩ := rests
      have free : (s.m.cores[k]).busy = false := by rw [Core.busy, gap, chain]; rfl
      have ended := (modCtx_ctx (limitPassed s.m e c) e c fun x => { x with sc := { (ctxOf (limitPassed s.m e c) e c).sc with want := none } }).1
      refine answers_runLimit_ends (served.trans (if_neg fun busy => Bool.false_ne_true (free.symm.trans busy)))
        ((congrArg Ctx.job ended).trans ((congrArg Ctx.job own).trans job)) ((congrArg Ctx.core ended).trans ((congrArg Ctx.core own).trans core)) ?_
      exact readerOnly_trans (readerOnly_modCtx s.m e c _) (readerOnly_modCtx ..)
    · rename_i lasts
      have busy : (s.m.cores[k]).busy = true := by
        simpa [-Fin.getElem_fin, Core.busy, or_iff_not_imp_left] using lasts
      exact exec_runLimit (served.trans (if_pos busy))
  case apdu =>
    intro s e c j job op
    refine exec_runLimit ?_
    simp only [runLimit, job, Option.map_some, op, if_true]
  case resume => exact fun s e c j result stalled job opened left room => answers_resultResume result stalled job opened left room

end Sys2Proof.Machine
end

section
/-!
What the pool's own work leaves of the packets filed before it, and of the counts of the work of stitches: an operation opens, fills, sinks and
closes packets under names of its own.
-/

namespace Sys2Proof.Machine

/-- The counts of what stitches have done: writes completed, authentications, and RAW exchanges of ISO/IEC stitches (R549). -/
def workCounters : List (Nat × Nat) := [(0x7080, 0x04), (0x7080, 0x0A), (0x7090, 0x0A)]

/-- Every packet named below `n` stays as it is, later names are later, and the counts of work stand. -/
structure fileKept (n : Nat) (a b : Main) : Prop where
  stay : ∀ (q : Fin 32) (p : Packet), p.id < n → p ∈ (a.pool.qs[q]).pkts → p ∈ (b.pool.qs[q]).pkts
  names : a.pool.nextId ≤ b.pool.nextId
  counts : ∀ x ∈ workCounters, counter b x.1 x.2 = counter a x.1 x.2

section

variable {n : Nat} {a b c m : Main}

theorem fileKept_refl (n : Nat) (a : Main) : fileKept n a a := ⟨fun _ _ _ mem => mem, Nat.le_refl _, fun _ _ => rfl⟩

theorem fileKept_trans (h : fileKept n a b) (g : fileKept n b c) : fileKept n a c :=
  ⟨fun q p old mem => g.stay q p old (h.stay q p old mem), Nat.le_trans h.names g.names, fun x mem => (g.counts x mem).trans (h.counts x mem)⟩

theorem fileKept_of_same (pool : b.pool = a.pool) (flt : b.flt = a.flt) : fileKept n a b :=
  ⟨fun q p _ mem => by rw [pool]; exact mem, Nat.le_of_eq (by rw [pool]), fun x _ => by unfold counter; rw [flt]⟩

theorem fileKept_forEach {α : Type} (l : List α) (f : Main → α → Main) (h : ∀ x i, fileKept n x (f x i)) : fileKept n m (forEach l m f) := by
  induction l generalizing m with
  | nil =>
    rw [forEach_nil]
    exact fileKept_refl n m
  | cons i rest ih =>
    rw [forEach_cons]
    exact fileKept_trans (h m i) ih

/-! ## Counters -/

/-- What is written to one key leaves the others. -/
theorem mapGet_mapSet_other {k key : Nat} (v : Nat) (l : List (Nat × Nat)) (other : key ≠ k) : mapGet key (mapSet k v l) = mapGet key l := by
  have otherHead : ¬ k = key := fun same => other same.symm
  induction l with
  | nil => simp [mapSet, mapGet, otherHead]
  | cons p rest ih =>
    unfold mapSet
    split
    · rename_i same
      have otherKey : ¬ p.1 = key := by rw [same]; exact otherHead
      simp [mapGet, otherHead, otherKey]
    · split
      · simp [mapGet, otherHead]
      · simp only [mapGet, ih]

theorem counter_countN_other {idx sub i j : Nat} (n : Nat) (other : ekey idx sub ≠ ekey i j) :
    counter (countN m i j n) idx sub = counter m idx sub := by
  unfold countN
  split
  · rfl
  · simp only [counter, mapGet_mapSet_other _ _ other]

theorem fileKept_countN (idx sub k : Nat) (other : ∀ x ∈ workCounters, ekey x.1 x.2 ≠ ekey idx sub) :
    fileKept n m (countN m idx sub k) :=
  ⟨fun q p _ mem => by rw [countN_pool]; exact mem, Nat.le_of_eq (by rw [countN_pool]), fun x mem => counter_countN_other k (other x mem)⟩

theorem fileKept_count (idx sub : Nat) (other : ∀ x ∈ workCounters, ekey x.1 x.2 ≠ ekey idx sub) : fileKept n m (count m idx sub) :=
  fileKept_countN idx sub 1 other

theorem fileKept_countIf (b : Bool) (idx sub : Nat) (other : ∀ x ∈ workCounters, ekey x.1 x.2 ≠ ekey idx sub) :
    fileKept n m (countIf b m idx sub) := by
  cases b
  · exact fileKept_refl n m
  · exact fileKept_count idx sub other

/-! ## Queues -/

theorem fileKept_modQ (q : Fin 32) {f : Queue → Queue} (h : ∀ x p, p.id < n → p ∈ x.pkts → p ∈ (f x).pkts) : fileKept n m (modQ m q f) := by
  refine ⟨fun r p old mem => ?_, Nat.le_refl _, fun _ _ => rfl⟩
  rw [modQ_get]
  split
  · rename_i same
    rw [same] at mem
    exact h _ p old mem
  · exact mem

/-- An update of packet `id` alone keeps the packets of earlier names. -/
theorem mem_map_named {id : Nat} {p : Packet} {l : List Packet} (g : Packet → Packet) (other : p.id ≠ id) (mem : p ∈ l) :
    p ∈ l.map fun p => if p.id = id then g p else p := List.mem_map.mpr ⟨p, mem, if_neg other⟩

theorem fileKept_cuOpen (q : Fin 32) (id : Nat) : fileKept n m (cuOpen m q id) := by
  refine fileKept_forEach _ _ fun x i => ?_
  dsimp only
  split
  · split
    · exact fileKept_trans (fileKept_count 0x7018 0x03 (by decide)) (fileKept_of_same rfl rfl)
    · exact fileKept_of_same rfl rfl
  · exact fileKept_refl n x

theorem cuWords_same (m : Main) (q : Fin 32) (id : Nat) (ws : List Word) : (cuWords m q id ws).pool = m.pool ∧ (cuWords m q id ws).flt = m.flt := by
  unfold cuWords
  constructor
  · refine forEach_keeps Main.pool _ (fun x i => ?_) _ m
    dsimp only
    split <;> rfl
  · refine forEach_keeps Main.flt _ (fun x i => ?_) _ m
    dsimp only
    split <;> rfl

theorem fileKept_cuWords (q : Fin 32) (id : Nat) (ws : List Word) : fileKept n m (cuWords m q id ws) :=
  fileKept_of_same (cuWords_same ..).1 (cuWords_same ..).2

theorem fileKept_cuSink (id : Nat) : fileKept n m (cuSink m id) := by
  refine fileKept_forEach _ _ fun x i => ?_
  split
  · exact fileKept_trans (fileKept_count 0x7018 0x04 (by decide)) (fileKept_of_same rfl rfl)
  · exact fileKept_refl n x

theorem cuClose_same (m : Main) (q : Fin 32) (p : Packet) : (cuClose m q p).1.pool = m.pool ∧ (cuClose m q p).1.flt = m.flt := by
  unfold cuClose
  refine List.foldlRecOn (motive := fun acc : Main × List PoolWork => acc.1.pool = m.pool ∧ acc.1.flt = m.flt) _ _ ⟨rfl, rfl⟩ fun acc kept i _ => ?_
  dsimp only
  split <;> exact kept

theorem fileKept_cuClose (q : Fin 32) (p : Packet) : fileKept n m (cuClose m q p).1 :=
  fileKept_of_same (cuClose_same ..).1 (cuClose_same ..).2

/-! ## Packets -/

theorem fileKept_openPkt (q : Fin 32) (type source reserve : Nat) : fileKept n m (openPkt m q type source reserve).1 := by
  have named : fileKept n m { m with pool := { m.pool with nextId := m.pool.nextId + 1 } } :=
    ⟨fun _ _ _ mem => mem, Nat.le_succ _, fun _ _ => rfl⟩
  exact fileKept_trans named (fileKept_trans (fileKept_modQ q fun x p _ mem => List.mem_append_left _ mem) (fileKept_cuOpen ..))

theorem openPkt_id (m : Main) (q : Fin 32) (type source reserve : Nat) : (openPkt m q type source reserve).2 = m.pool.nextId := rfl

theorem fileKept_sinkPkt (q : Fin 32) {id : Nat} (new : n ≤ id) : fileKept n m (sinkPkt m q id) := by
  have returned (v : Nat) : fileKept n m { m with pool := { m.pool with returning := v } } := ⟨fun _ _ _ mem => mem, Nat.le_refl _, fun _ _ => rfl⟩
  refine fileKept_trans (returned _) (fileKept_trans (fileKept_modQ q fun x p old mem => ?_) (fileKept_cuSink _))
  have other : p.id ≠ id := by omega
  simpa [other] using mem

theorem fileKept_appendPkt (q : Fin 32) {id : Nat} (ws : List Word) (new : n ≤ id) : fileKept n m (appendPkt m q id ws) := by
  have other {p : Packet} (old : p.id < n) : p.id ≠ id := by omega
  unfold appendPkt
  dsimp only
  split
  · exact fileKept_modQ q fun x p _ mem => mem
  · have put (vs us : List Word) : fileKept n m (cuWords (modQ m q fun x =>
        noteCells { x with pkts := x.pkts.map fun p => if p.id = id then { p with words := p.words ++ vs } else p }) q id us) :=
      fileKept_trans (fileKept_modQ q fun x p old mem => mem_map_named _ (other old) mem) (fileKept_cuWords ..)
    split
    · exact put _ _
    · exact fileKept_trans (put _ _) (fileKept_trans (fileKept_sinkPkt q new) (fileKept_modQ q fun x p _ mem => mem))

theorem fileKept_closeRaw (q : Fin 32) {id : Nat} (new : n ≤ id) : fileKept n m (closeRaw m q id).1 := by
  have other {p : Packet} (old : p.id < n) : p.id ≠ id := by omega
  unfold closeRaw
  dsimp only
  split
  · refine fileKept_trans (fileKept_trans ?_ (fileKept_count 0x70C0 0x02 (by decide))) (fileKept_countN 0x70C0 0x03 _ (by decide))
    exact fileKept_modQ q fun x p _ mem => mem
  · split
    · exact fileKept_refl n m
    · have closed (g : Packet → Packet) : fileKept n m (modQ m q fun x => { x with pkts := x.pkts.map fun p => if p.id = id then g p else p }) :=
        fileKept_modQ q fun x p old mem => mem_map_named _ (other old) mem
      split
      · dsimp only
        refine fileKept_trans ?_ (fileKept_cuClose q _)
        exact closed fun p => { p with opened := false, reserve := 0, closedAt := m.now }
      · refine fileKept_trans ?_ (fileKept_cuClose q _)
        exact closed fun p => { p with opened := false, reserve := 0, closedAt := m.now }

theorem fileKept_dropRaw (q : Fin 32) (source : Nat) : fileKept n m (dropRaw m q source).1 := by
  unfold dropRaw
  refine fileKept_trans ?_ (fileKept_count 0x70C0 0x01 (by decide))
  exact fileKept_modQ q fun x p _ mem => mem

theorem fileKept_putRaw (q : Fin 32) (type source : Nat) (ws : List Word) (new : n ≤ m.pool.nextId) : fileKept n m (putRaw m q type source ws).1 := by
  unfold putRaw
  dsimp only
  exact fileKept_trans (fileKept_openPkt ..) (fileKept_trans (fileKept_appendPkt q ws new) (fileKept_closeRaw q new))

/-! ## The pool's work (R325, R519, R552) -/

theorem fileKept_journalPut (body : List Word) (new : n ≤ m.pool.nextId) : fileKept n m (journalPut m body).1 := by
  unfold journalPut
  dsimp only
  split
  · split
    · exact fileKept_putRaw _ _ _ _ new
    · exact fileKept_dropRaw 23 0x06
  · split
    · exact fileKept_trans (fileKept_putRaw _ _ _ _ new) (fileKept_count 0x7008 0x01 (by decide))
    · exact fileKept_trans (fileKept_dropRaw 22 0x06) (fileKept_count 0x7008 0x02 (by decide))

/-- The arbiter's own numbers change no count. -/
theorem fileKept_flt {f : Faults} (ctr : f.ctr = m.flt.ctr) : fileKept n m { m with flt := f } :=
  ⟨fun _ _ _ mem => mem, Nat.le_refl _, fun x _ => by simp only [counter, ctr]⟩

theorem fileKept_journalAt (t src code : Nat) (args : List Nat) (new : n ≤ m.pool.nextId) : fileKept n m (journalAt m t src code args).1 := by
  unfold journalAt
  dsimp only
  split
  · exact fileKept_refl n m
  · split
    · refine fileKept_trans ?_ (fileKept_count 0x7008 0x03 (by decide))
      exact fileKept_flt rfl
    · refine fileKept_trans ?_ (fileKept_journalPut _ new)
      exact fileKept_flt rfl

theorem fileKept_recordRaw (i : Fin 8) (key kind ref1 ref2 : Nat) (new : n ≤ m.pool.nextId) : fileKept n m (recordRaw m i key kind ref1 ref2).1 := by
  have noted (idx sub : Nat) (f : Cu → Cu) (other : ∀ x ∈ workCounters, ekey x.1 x.2 ≠ ekey idx sub) : fileKept n m (modCu (count m idx sub) i f) :=
    fileKept_trans (fileKept_count idx sub other) (fileKept_of_same rfl rfl)
  unfold recordRaw
  dsimp only
  split
  · exact fileKept_trans (noted _ _ _ (by decide)) (fileKept_putRaw _ _ _ _ (by rwa [modCu_pool, count_pool]))
  · exact fileKept_trans (noted _ _ _ (by decide)) (fileKept_dropRaw ..)

theorem fileKept_doWork (w : PoolWork) (new : n ≤ m.pool.nextId) : fileKept n m (doWork m w).1 := by
  cases w with
  | put q type source ws mir =>
    simp only [doWork]
    split
    · exact fileKept_putRaw _ _ _ _ new
    · exact fileKept_trans (fileKept_countIf _ 0x7000 0x0A (by decide)) (fileKept_dropRaw ..)
  | record i key kind ref1 ref2 => exact fileKept_recordRaw _ _ _ _ _ new
  | journal src code args => exact fileKept_journalAt _ _ _ _ new

theorem fileKept_settleFuel (fuel : Nat) : ∀ (m : Main) (l : List PoolWork), n ≤ m.pool.nextId → fileKept n m (settleFuel fuel m l) := by
  induction fuel with
  | zero =>
    intro m l _
    cases l <;> exact fileKept_refl n m
  | succ fuel ih =>
    intro m l new
    cases l with
    | nil => exact fileKept_refl n m
    | cons w ws =>
      have done_ := fileKept_doWork w new
      exact fileKept_trans done_ (ih _ _ (Nat.le_trans new done_.names))

/-- Settling the pool's work keeps every packet filed before it. -/
theorem fileKept_settle (r : Main × List PoolWork) (new : n ≤ r.1.pool.nextId) : fileKept n r.1 (settle r) := by
  unfold settle
  exact fileKept_settleFuel _ _ _ new

theorem fileKept_closePkt (q : Fin 32) {id : Nat} (new : n ≤ id) (names : n ≤ m.pool.nextId) : fileKept n m (closePkt m q id) := by
  have closed : fileKept n m (closeRaw m q id).1 := fileKept_closeRaw q new
  exact fileKept_trans closed (fileKept_settle _ (Nat.le_trans names closed.names))

theorem fileKept_resumePkt (q : Fin 32) {id : Nat} (ws : List Word) (new : n ≤ id) (names : n ≤ m.pool.nextId) :
    fileKept n m (resumePkt m q id ws).1 := by
  have put (vs : List Word) : fileKept n m (appendPkt m q id vs) := fileKept_appendPkt q vs new
  unfold resumePkt
  dsimp only
  split
  · exact fileKept_trans (put _) (fileKept_closePkt q new (Nat.le_trans names (put _).names))
  · exact put _

theorem fileKept_countStall (q : Fin 32) : fileKept n m (countStall m q) := by
  unfold countStall
  refine fileKept_trans ?_ (fileKept_count 0x70C0 0x08 (by decide))
  exact fileKept_modQ q fun x p _ mem => mem

/-- A stalling producer keeps every packet filed before it. -/
theorem fileKept_stallPkt (q : Fin 32) (type source : Nat) (ws : List Word) (new : n ≤ m.pool.nextId) :
    fileKept n m (stallPkt m q type source ws).1 := by
  unfold stallPkt
  dsimp only
  split
  · exact fileKept_countStall q
  · have opened : fileKept n m (openPkt m q type source 1).1 := fileKept_openPkt ..
    have resumed (vs : List Word) : fileKept n m (resumePkt (openPkt m q type source 1).1 q (openPkt m q type source 1).2 vs).1 :=
      fileKept_trans opened (fileKept_resumePkt q vs new (Nat.le_trans new opened.names))
    split
    · exact fileKept_trans (resumed _) (fileKept_countStall q)
    · exact resumed _

end

end Sys2Proof.Machine
end

section
/-!
A stalling producer whose queue has room files its packet at once (R325, R338, R341).
-/

namespace Sys2Proof.Machine

/-! ## Room (R335, R341) -/

/-- A sum over the queues in which one term has changed. -/
theorem sum_changed {f g : Fin 32 → Nat} {q : Fin 32} (others : ∀ i, i ≠ q → g i = f i) :
    ((allFin 32).map g).sum + f q = ((allFin 32).map f).sum + g q := by
  have same : ∑ i ∈ Finset.univ.erase q, g i = ∑ i ∈ Finset.univ.erase q, f i :=
    Finset.sum_congr rfl fun i mem => others i (Finset.ne_of_mem_erase mem)
  rw [allFin, ← Fin.sum_univ_def, ← Fin.sum_univ_def, ← Finset.add_sum_erase _ f (Finset.mem_univ q),
    ← Finset.add_sum_erase _ g (Finset.mem_univ q), same]
  omega

section Opening

variable (m : Main) (q : Fin 32) (type source : Nat)

/-- The packet that a stalling producer opens. -/
def newPacket : Packet := { id := m.pool.nextId, opened := true, type := type, source := source, reserve := 1 }

theorem newPacket_cells : (newPacket m type source).cells = 1 := by
  simp [newPacket, Packet.cells, cellsOfWords]

theorem cuOpen_pool (id : Nat) : (cuOpen m q id).pool = m.pool := by
  unfold cuOpen
  refine forEach_keeps Main.pool _ (fun x i => ?_) _ m
  dsimp only
  split
  · split <;> simp
  · rfl

theorem openPkt_queue (r : Fin 32) : (openPkt m q type source 1).1.pool.qs[r] =
    if r = q then noteCells { m.pool.qs[q] with pkts := (m.pool.qs[q]).pkts ++ [newPacket m type source] } else m.pool.qs[r] := by
  unfold openPkt
  dsimp only
  rw [cuOpen_pool, modQ_get]
  rfl

theorem openPkt_counts : (openPkt m q type source 1).1.pool.retired = m.pool.retired ∧
    (openPkt m q type source 1).1.pool.returning = m.pool.returning ∧ (openPkt m q type source 1).1.pool.orphans = m.pool.orphans ∧
    (openPkt m q type source 1).1.pool.nextId = m.pool.nextId + 1 := by
  unfold openPkt
  dsimp only
  rw [cuOpen_pool]
  exact ⟨rfl, rfl, rfl, rfl⟩

theorem openPkt_own : (openPkt m q type source 1).1.pool.qs[q] =
    noteCells { m.pool.qs[q] with pkts := (m.pool.qs[q]).pkts ++ [newPacket m type source] } :=
  (openPkt_queue m q type source q).trans (if_pos rfl)

theorem openPkt_others {r : Fin 32} (other : r ≠ q) : (openPkt m q type source 1).1.pool.qs[r] = m.pool.qs[r] :=
  (openPkt_queue m q type source r).trans (if_neg other)

theorem openPkt_cells : ((openPkt m q type source 1).1.pool.qs[q]).cells = (m.pool.qs[q]).cells + 1 := by
  rw [openPkt_own]
  simp only [Queue.cells, noteCells, List.map_append, List.map_cons, List.map_nil, List.sum_append, List.sum_cons, List.sum_nil,
    newPacket_cells]
  omega

theorem cellsHeld_openPkt : cellsHeld (openPkt m q type source 1).1 = cellsHeld m + 1 := by
  have changed := sum_changed (f := fun r => (m.pool.qs[r]).cells) (g := fun r => ((openPkt m q type source 1).1.pool.qs[r]).cells) (q := q)
    fun i other => by rw [openPkt_others m q type source other]
  have own := openPkt_cells m q type source
  simp only [cellsHeld]
  omega

theorem retiredHeld_openPkt : retiredHeld (openPkt m q type source 1).1 = retiredHeld m := by
  unfold retiredHeld
  refine congrArg List.sum (List.map_congr_left fun r _ => ?_)
  rw [(openPkt_counts m q type source).1]
  by_cases own : r = q
  · subst own
    rw [openPkt_own]
    simp [noteCells, newPacket]
  · rw [openPkt_others m q type source own]

theorem cellsFree_openPkt : cellsFree m ≤ cellsFree (openPkt m q type source 1).1 + 1 := by
  obtain ⟨retired, returning, orphans, -⟩ := openPkt_counts m q type source
  simp only [cellsFree, cellsHeld_openPkt, retiredHeld_openPkt, retired, returning, orphans]
  omega

theorem openPkt_quotas : ((openPkt m q type source 1).1.pool.qs[q]).cmin = (m.pool.qs[q]).cmin ∧
    ((openPkt m q type source 1).1.pool.qs[q]).cmax = (m.pool.qs[q]).cmax := by
  rw [openPkt_own]
  exact ⟨rfl, rfl⟩

/-- A cell below the queue's minimum is none of the unreserved ones; a cell above it is one. -/
theorem unreserved_openPkt : unreserved m ≤ unreserved (openPkt m q type source 1).1 + (if (m.pool.qs[q]).cells < (m.pool.qs[q]).cmin then 0 else 1) := by
  have free := cellsFree_openPkt m q type source
  have own := openPkt_cells m q type source
  have cmin := (openPkt_quotas m q type source).1
  have reserved := sum_changed (f := fun r => (m.pool.qs[r]).cmin - (m.pool.qs[r]).cells)
    (g := fun r => ((openPkt m q type source 1).1.pool.qs[r]).cmin - ((openPkt m q type source 1).1.pool.qs[r]).cells) (q := q)
    fun i other => by rw [openPkt_others m q type source other]
  simp only [unreserved, own, cmin] at reserved ⊢
  split <;> omega

/-- Opening a packet takes one cell of those its queue may take. -/
theorem takeable_openPkt : takeable m q ≤ takeable (openPkt m q type source 1).1 q + 1 := by
  have left := unreserved_openPkt m q type source
  obtain ⟨cmin, cmax⟩ := openPkt_quotas m q type source
  simp only [takeable, openPkt_cells, cmin, cmax]
  by_cases below : (m.pool.qs[q]).cells < (m.pool.qs[q]).cmin
  · rw [if_pos below] at left
    omega
  · rw [if_neg below] at left
    omega

end Opening

/-! ## A packet under way -/

/-- An open packet stands in a queue, alone under its name. -/
structure packetOpen (m : Main) (q : Fin 32) (p : Packet) : Prop where
  mem : p ∈ (m.pool.qs[q]).pkts
  opened : p.opened = true
  only : ∀ r ∈ (m.pool.qs[q]).pkts, r.id = p.id → r = p
  noSink : ∀ r ∈ (m.pool.qs[q]).sinks, r.id ≠ p.id
  named : p.id < m.pool.nextId

/-- A closed packet of a type, source and body stands in a queue, under a name that is not given again. -/
def filed (m : Main) (q : Fin 32) (type source : Nat) (ws : List Word) : Prop :=
  ∃ p ∈ (m.pool.qs[q]).pkts, p.id < m.pool.nextId ∧ p.opened = false ∧ p.type = type ∧ p.source = source ∧ p.words = ws

section Writing

variable {m a b : Main} {q : Fin 32} {p : Packet} {type source : Nat} {ws : List Word}

theorem delivered_of_filed (h : filed m q type source ws) : delivered m q type source ws := by
  obtain ⟨p, mem, -, rest⟩ := h
  exact ⟨p, mem, rest⟩

theorem filed_of_fileKept (h : fileKept a.pool.nextId a b) (f : filed a q type source ws) : filed b q type source ws := by
  obtain ⟨p, mem, named, rest⟩ := f
  exact ⟨p, h.stay q p named mem, Nat.lt_of_lt_of_le named h.names, rest⟩

theorem packetOpen_openPkt (names : ∀ p ∈ (m.pool.qs[q]).pkts ++ (m.pool.qs[q]).sinks, p.id < m.pool.nextId) :
    packetOpen (openPkt m q type source 1).1 q (newPacket m type source) := by
  have fresh {r : Packet} (mem : r ∈ (m.pool.qs[q]).pkts ++ (m.pool.qs[q]).sinks) : r.id ≠ (newPacket m type source).id := Nat.ne_of_lt (names r mem)
  refine ⟨?_, rfl, fun r mem same => ?_, fun r mem => ?_, ?_⟩
  · rw [openPkt_own]
    exact List.mem_append_right _ List.mem_cons_self
  · rw [openPkt_own] at mem
    rcases List.mem_append.mp mem with old | new
    · exact absurd same (fresh (List.mem_append_left _ old))
    · exact List.mem_singleton.mp new
  · rw [openPkt_own] at mem
    exact fresh (List.mem_append_right _ mem)
  · rw [(openPkt_counts m q type source).2.2.2]
    exact Nat.lt_succ_self _

/-- The first packet found under the name of one that stands alone is that packet. -/
theorem find_of_packetOpen (h : packetOpen m q p) : (m.pool.qs[q]).pkts.find? (fun r => r.id == p.id) = some p := by
  cases found : (m.pool.qs[q]).pkts.find? fun r => r.id == p.id with
  | none => exact absurd (List.find?_eq_none.mp found p h.mem) (by simp)
  | some r =>
    have named := List.find?_some found
    rw [h.only r (List.mem_of_find?_eq_some found) (by simpa using named)]

theorem appendPkt_fits (h : packetOpen m q p) (size : p.words.length + ws.length ≤ 65535) : appendPkt m q p.id ws =
    cuWords (modQ m q fun x => noteCells { x with pkts := x.pkts.map fun r => if r.id = p.id then { r with words := r.words ++ ws } else r }) q p.id ws := by
  have noSink : ((m.pool.qs[q]).sinks.any fun r => r.id == p.id) = false := by
    simpa using h.noSink
  have room : ws.length ≤ 65535 - p.words.length := by omega
  unfold appendPkt
  dsimp only
  rw [noSink, find_of_packetOpen h]
  simp only [Bool.false_eq_true, if_false, Option.map_some, Option.getD_some, room, if_true, List.take_of_length_le]

theorem packetOpen_appendPkt (h : packetOpen m q p) (size : p.words.length + ws.length ≤ 65535) :
    packetOpen (appendPkt m q p.id ws) q { p with words := p.words ++ ws } := by
  rw [appendPkt_fits h size]
  refine ⟨?_, h.opened, fun r mem same => ?_, fun r mem => ?_, ?_⟩
  · rw [(cuWords_same ..).1, modQ_get, if_pos rfl]
    exact List.mem_map.mpr ⟨p, h.mem, if_pos rfl⟩
  · rw [(cuWords_same ..).1, modQ_get, if_pos rfl] at mem
    obtain ⟨old, oldMem, made⟩ := List.mem_map.mp mem
    dsimp only at made same
    by_cases named : old.id = p.id
    · rw [if_pos named, h.only old oldMem named] at made
      exact made.symm
    · rw [if_neg named] at made
      rw [made] at named
      exact absurd same named
  · rw [(cuWords_same ..).1, modQ_get, if_pos rfl] at mem
    exact h.noSink r mem
  · rw [(cuWords_same ..).1]
    exact h.named

/-- The close of an open packet files it (R325). -/
theorem filed_closeRaw (h : packetOpen m q p) : filed (closeRaw m q p.id).1 q p.type p.source p.words := by
  have noSink : (m.pool.qs[q]).sinks.find? (fun r => r.id == p.id) = none := List.find?_eq_none.mpr fun r mem => by simpa using h.noSink r mem
  have closes (g : Packet) : filed (cuClose (modQ m q fun x =>
      { x with pkts := x.pkts.map fun r => if r.id = p.id then { r with opened := false, reserve := 0, closedAt := m.now } else r }) q g).1
      q p.type p.source p.words := by
    refine ⟨{ p with opened := false, reserve := 0, closedAt := m.now }, ?_, ?_, rfl, rfl, rfl, rfl⟩
    · rw [(cuClose_same ..).1, modQ_get, if_pos rfl]
      exact List.mem_map.mpr ⟨p, h.mem, if_pos rfl⟩
    · rw [(cuClose_same ..).1]
      exact h.named
  unfold closeRaw
  dsimp only
  rw [noSink]
  dsimp only
  split
  · rename_i none
    exact absurd (List.find?_eq_none.mp none p h.mem) (by simp [h.opened])
  · split
    · dsimp only
      exact closes _
    · exact closes _

theorem filed_closePkt (h : packetOpen m q p) : filed (closePkt m q p.id) q p.type p.source p.words :=
  filed_of_fileKept (fileKept_settle _ (Nat.le_refl _)) (filed_closeRaw h)

/-- The words of a packet that has just been opened fit where the queue has room for them all (R339). -/
theorem roomOf_openPkt (room : roomFor m q ws.length) :
    ws.length ≤ roomOf (openPkt m q type source 1).1 q m.pool.nextId ws.length := by
  have found := find_of_packetOpen (packetOpen_openPkt (type := type) (source := source) (room.names q))
  have space : cellsOfWords (ws.length + 1) ≤ takeable m q := by simpa [spaceTest] using room.space
  have left := takeable_openPkt m q type source
  have named : (newPacket m type source).id = m.pool.nextId := rfl
  rw [named] at found
  unfold roomOf
  dsimp only
  rw [found]
  dsimp only
  rw [newPacket_cells]
  have empty : (newPacket m type source).words.length = 0 := rfl
  unfold cellsOfWords at space
  omega

/-- A stalling producer whose queue has room does not stall (R338). -/
theorem stallPkt_files (room : roomFor m q ws.length) :
    (stallPkt m q type source ws).2 = none ∧ filed (stallPkt m q type source ws).1 q type source ws := by
  have all : ws.take (8 * (m.pool.qs[q]).cmax - 1) = ws := List.take_of_length_le (by have := room.quota; omega)
  have some_ : ¬ takeable m q = 0 := by
    have space : cellsOfWords (ws.length + 1) ≤ takeable m q := by simpa [spaceTest] using room.space
    unfold cellsOfWords at space
    omega
  have fits := roomOf_openPkt (type := type) (source := source) room
  have opened := packetOpen_openPkt (type := type) (source := source) (room.names q)
  have size : (newPacket m type source).words.length + ws.length ≤ 65535 := by
    have := room.size
    simpa [newPacket] using this
  have resumed : resumePkt (openPkt m q type source 1).1 q m.pool.nextId ws =
      (closePkt (appendPkt (openPkt m q type source 1).1 q m.pool.nextId ws) q m.pool.nextId, none) := by
    unfold resumePkt
    dsimp only
    rw [if_pos fits, List.take_of_length_le fits]
  have stalled : stallPkt m q type source ws = (closePkt (appendPkt (openPkt m q type source 1).1 q m.pool.nextId ws) q m.pool.nextId, none) := by
    unfold stallPkt
    dsimp only
    rw [all, if_neg some_, openPkt_id, resumed]
    simp only [Option.isSome_none, Bool.false_eq_true, if_false]
  have filed := filed_closePkt (packetOpen_appendPkt opened size)
  simp only [newPacket, List.nil_append] at filed
  rw [stalled]
  exact ⟨rfl, filed⟩

theorem takeable_of_pool (pool : b.pool = a.pool) (q : Fin 32) : takeable b q = takeable a q := by
  simp only [takeable, unreserved, cellsFree, cellsHeld, retiredHeld, pool]

theorem roomFor_of_pool {n : Nat} (h : roomFor a q n) (pool : b.pool = a.pool) : roomFor b q n := by
  obtain ⟨space, quota, size, names⟩ := h
  refine ⟨?_, by rw [pool]; exact quota, size, by rw [pool]; exact names⟩
  rw [spaceTest, takeable_of_pool pool]
  exact space

end Writing

end Sys2Proof.Machine
end

section
/-!
The end of a stitch (R267, R274): its result is filed in the result queue where that has room, its context is idle, and what follows on its core
leaves both.
-/

namespace Sys2Proof.Machine

/-! ## What follows on the core of a stitch keeps what is filed -/

section Keeping

variable {n : Nat} {m : Main}

theorem fileKept_freePayload (q : Fin 32) (cells : Nat) : fileKept n m (freePayload m q cells) := fileKept_modQ q fun _ _ _ mem => mem

theorem fileKept_countStatus (status : Nat) : fileKept n m (countStatus m status) :=
  fileKept_trans (fileKept_countIf (status == 7) 0x70A0 0x03 (by decide)) (fileKept_countIf (status == 0x0A) 0x70A0 0x04 (by decide))

theorem fileKept_closeResult (e : Fin 24) (c : Fin 2) : fileKept n m (closeResult m e c) := by
  have counted (x : Main) : fileKept n x (modEng (count x 0x70A0 0x02) e fun g => { g.setCtx c {} with done := sat32 (g.done + 1) }) :=
    fileKept_trans (fileKept_count 0x70A0 0x02 (by decide)) (fileKept_of_same rfl rfl)
  unfold closeResult
  dsimp only
  refine fileKept_trans ?_ (counted _)
  split
  · exact fileKept_freePayload ..
  · exact fileKept_refl n m

theorem fileKept_writeResult (e : Fin 24) (c : Fin 2) (status detail : Nat) (part : Bool) (body : List Word) (new : n ≤ m.pool.nextId) :
    fileKept n m (writeResult m e c status detail part body) := by
  have stalled (x : Main) (f : Ctx → Ctx) : fileKept n x (modCtx (count x 0x70A0 0x07) e c f) :=
    fileKept_trans (fileKept_count 0x70A0 0x07 (by decide)) (fileKept_of_same rfl rfl)
  have written (q : Fin 32) (source : Nat) (ws : List Word) : fileKept n m (stallPkt (countStatus m status) q 0x21 source ws).1 :=
    fileKept_trans (fileKept_countStatus status) (fileKept_stallPkt _ _ _ _ (Nat.le_trans new (fileKept_countStatus (n := n) status).names))
  unfold writeResult
  split
  · exact fileKept_of_same rfl rfl
  · dsimp only
    split
    · exact fileKept_trans (written _ _ _) (fileKept_closeResult e c)
    · exact fileKept_trans (written _ _ _) (stalled _ _)

theorem fileKept_orderOff (k : Fin 16) : fileKept n m (orderOff m k) := fileKept_of_same rfl rfl

theorem fileKept_dropSession (p : Fin 128) : fileKept n m (dropSession m p) := by
  have closed (f : Port → Port) : fileKept n m (modPort (count m 0x7090 0x07) p f) :=
    fileKept_trans (fileKept_count 0x7090 0x07 (by decide)) (fileKept_of_same rfl rfl)
  unfold dropSession
  split
  · exact closed _
  · exact fileKept_refl n m

theorem fileKept_addReq (r : Req) : fileKept n m (addReq m r) := by
  unfold addReq
  split
  · exact fileKept_refl n m
  · dsimp only
    split <;> exact fileKept_of_same rfl rfl

theorem fileKept_pauseCtx (e : Fin 24) (c : Fin 2) (new : n ≤ m.pool.nextId) : fileKept n m (pauseCtx m e c) := by
  unfold pauseCtx
  dsimp only
  split
  · rename_i k j _ _
    have off : fileKept n m (if carries m k (.ctx e c) then orderOff m k else m) := by
      split
      · exact fileKept_orderOff k
      · exact fileKept_refl n m
    have dropped := fileKept_trans off (fileKept_dropSession j.port)
    split
    · exact fileKept_trans dropped (fileKept_writeResult _ _ _ _ _ _ (Nat.le_trans new dropped.names))
    · refine fileKept_trans dropped (fileKept_trans ?_ (fileKept_addReq _))
      exact fileKept_of_same rfl rfl
  · exact fileKept_refl n m

theorem fileKept_windowClosed (k : Fin 16) (f : FieldRec) (new : n ≤ m.pool.nextId) : fileKept n m (windowClosed m k f) := by
  unfold windowClosed
  split
  · dsimp only
    split
    · exact fileKept_trans (fileKept_orderOff k) (fileKept_dropSession _)
    · split
      · exact fileKept_refl n m
      · split
        · exact fileKept_orderOff k
        · exact fileKept_pauseCtx _ _ new
  · split
    · exact fileKept_orderOff k
    · unfold pauseVisit
      dsimp only
      split <;> exact fileKept_of_same rfl rfl
  · exact fileKept_orderOff k

theorem fileKept_gapBegins (k : Fin 16) (new : n ≤ m.pool.nextId) : fileKept n m (gapBegins m k) := by
  have applied : fileKept n m (applyDac m k) := by
    unfold applyDac
    split <;> exact fileKept_of_same rfl rfl
  unfold gapBegins
  dsimp only
  split
  · have held (f : Core → Core) : fileKept n m (modCore (applyDac m k) k f) := fileKept_trans applied (fileKept_of_same rfl rfl)
    split
    · exact held _
    · exact fileKept_trans (held _) (fileKept_windowClosed _ _ (Nat.le_trans new (held _).names))
  · exact applied

theorem fileKept_gapAfter (chained : Bool) (k : Fin 16) (new : n ≤ m.pool.nextId) : fileKept n m (gapAfter chained m k) := by
  rcases gapAfter_cases chained m k with same | gap
  · rw [same]
    exact fileKept_refl n m
  · rw [gap]
    exact fileKept_gapBegins k new

theorem fileKept_reachPort (p : Fin 128) : fileKept n m (reachPort m p) := by
  unfold reachPort
  dsimp only
  split <;> split <;> exact fileKept_of_same rfl rfl

theorem fileKept_coreRest (k : Fin 16) : fileKept n m (coreRest m k) := by
  have ended : fileKept n m (endIdleFields m) := by
    obtain ⟨f, same, steps⟩ := endIdleFields_eq m
    rw [same]
    refine fileKept_forEach _ f fun x i => ?_
    rcases steps x i with rests | ⟨r, -, -, ends⟩
    · rw [rests]
      exact fileKept_refl n x
    · rw [ends]
      exact fileKept_trans (fileKept_orderOff i) (fileKept_dropSession r.port)
  have rested : fileKept n (endIdleFields m) (restPorts (endIdleFields m)) := by
    obtain ⟨f, same, steps⟩ := restPorts_eq (endIdleFields m)
    rw [same]
    refine fileKept_forEach _ f fun x p => ?_
    rcases steps x p with rests | ⟨-, disables⟩
    · rw [rests]
      exact fileKept_refl n x
    · rw [disables]
      exact fileKept_of_same rfl rfl
  unfold coreRest
  dsimp only
  split
  · refine fileKept_trans (fileKept_trans ended rested) ?_
    refine fileKept_trans ?_ (fileKept_forEach (allFin 128) reachPort fun _ p => fileKept_reachPort p)
    exact fileKept_of_same rfl rfl
  · exact fileKept_trans ended rested

end Keeping

/-! ## What follows on a core leaves a context that does not run -/

section Context

variable {m : Main} {e : Fin 24} {c : Fin 2}

theorem pauseCtx_ctx {e' : Fin 24} {c' : Fin 2} (other : (e, c) ≠ (e', c')) : ctxOf (pauseCtx m e' c') e c = ctxOf m e c := by
  unfold pauseCtx
  dsimp only
  split
  · rename_i k j _ _
    have dropped : ctxOf (dropSession (if carries m k (.ctx e' c') then orderOff m k else m) j.port) e c = ctxOf m e c := by
      rw [ctxOf_of_engs (dropSession_engs ..)]
      split
      · exact ctxOf_of_engs (orderOff_engs ..) e c
      · rfl
    split
    · exact ((contextEnds_writeResult _ e' c' 1 0 false []).2 (e, c) other).trans dropped
    · rw [ctxOf_of_engs (addReq_engs ..)]
      exact ((modCtx_ctx _ e' c' _).2 (e, c) other).trans dropped
  · rfl

theorem windowClosed_ctx {k : Fin 16} {f : FieldRec} (rests : (ctxOf m e c).st ≠ .run) : ctxOf (windowClosed m k f) e c = ctxOf m e c := by
  unfold windowClosed
  split
  · dsimp only
    split
    · rw [ctxOf_of_engs (dropSession_engs ..), ctxOf_of_engs (orderOff_engs ..)]
    · split
      · rfl
      · rename_i e' c' _ _ runs
        split
        · exact ctxOf_of_engs (orderOff_engs ..) e c
        · refine pauseCtx_ctx fun own => rests ?_
          injection own with ownE ownC
          rw [ownE, ownC]
          simpa using runs
  · split
    · exact ctxOf_of_engs (orderOff_engs ..) e c
    · unfold pauseVisit
      dsimp only
      split <;> rfl
  · exact ctxOf_of_engs (orderOff_engs ..) e c

theorem gapAfter_ctx {k : Fin 16} (chained : Bool) (rests : (ctxOf m e c).st ≠ .run) : ctxOf (gapAfter chained m k) e c = ctxOf m e c := by
  rcases gapAfter_cases chained m k with same | gap
  · rw [same]
  · have applied : ctxOf (applyDac m k) e c = ctxOf m e c := ctxOf_of_engs (applyDac_engs m k).1 e c
    rw [gap, gapBegins]
    dsimp only
    split
    · split
      · exact applied
      · exact (windowClosed_ctx (m := modCore (applyDac m k) k _) fun runs => rests ((congrArg Ctx.st applied).symm.trans runs)).trans applied
    · exact applied

end Context

/-! ## The end of a stitch -/

section Ending

variable {m a b : Main} {e : Fin 24} {c : Fin 2} {j : Job} {k : Fin 16} {status detail : Nat} {part : Bool} {body : List Word}

/-- What the core that a stitch gives up leaves of its own result. -/
structure coreGiven (a b : Main) (e : Fin 24) (c : Fin 2) : Prop where
  pool : b.pool = a.pool
  clock : clockKept a b
  own : ctxOf b e c = ctxOf a e c
  done : (b.engs[e]).done = (a.engs[e]).done
  counts : ∀ x ∈ workCounters, counter b x.1 x.2 = counter a x.1 x.2

theorem modCtx_done (m : Main) (e i : Fin 24) (c : Fin 2) (f : Ctx → Ctx) : ((modCtx m e c f).engs[i]).done = (m.engs[i]).done := by
  unfold modCtx
  rw [modEng_get]
  split
  · rename_i same
    subst same
    unfold Engine.setCtx
    split <;> rfl
  · rfl

theorem coreGiven_releaseCore (m : Main) (e : Fin 24) (c : Fin 2) : coreGiven m (releaseCore (withdraw m (.ctx e c)) e c) e c := by
  rcases releaseCore_cases (withdraw m (.ctx e c)) e c with same | ⟨k, same⟩ | ⟨k, r, e', c', mem, owner, same⟩ | ⟨k, same⟩
  · rw [same]
    exact ⟨rfl, ⟨rfl, rfl, rfl, rfl⟩, rfl, rfl, fun _ _ => rfl⟩
  · rw [same]
    exact ⟨rfl, ⟨rfl, rfl, rfl, rfl⟩, rfl, rfl, fun _ _ => rfl⟩
  · have other : (e, c) ≠ (e', c') := by
      intro own
      injection own with ownE ownC
      exact (mem_withdraw mem).2 (by rw [owner, ownE, ownC])
    have passed := modCtx_ctx (modCore (withdraw (count (withdraw m (.ctx e c)) 0x70A0 0x0A) (.ctx e' c')) k (passedTo (.ctx e' c'))) e' c'
      (Ctx.begin (modCore (withdraw (count (withdraw m (.ctx e c)) 0x70A0 0x0A) (.ctx e' c')) k (passedTo (.ctx e' c'))) k)
    have engs : (modCore (withdraw (count (withdraw m (.ctx e c)) 0x70A0 0x0A) (.ctx e' c')) k (passedTo (.ctx e' c'))).engs = m.engs := by simp
    rw [same]
    refine ⟨?_, ?_, (passed.2 (e, c) other).trans (ctxOf_of_engs engs e c), (modCtx_done ..).trans (by rw [engs]), fun x mem => ?_⟩
    · exact count_pool (withdraw m (.ctx e c)) 0x70A0 0x0A
    · obtain ⟨now, ph, cfg, lace⟩ := clockKept_of_pool (poolOnly_count (withdraw m (.ctx e c)) 0x70A0 0x0A)
      exact ⟨now, ph, cfg, lace⟩
    · exact (fileKept_count (n := 0) (m := withdraw m (.ctx e c)) 0x70A0 0x0A (by decide)).counts x mem
  · rw [same]
    exact ⟨rfl, ⟨rfl, rfl, rfl, rfl⟩, rfl, rfl, fun _ _ => rfl⟩

/-- A result filed, its context idle, counted at its engine. -/
structure resultFiled (a b : Main) (e : Fin 24) (c : Fin 2) (j : Job) (ws : List Word) : Prop where
  filed : filed b j.rqueue 0x21 (0x40 + e.val) ws
  idle : ctxOf b e c = {}
  counts : ∀ x ∈ workCounters, counter b x.1 x.2 = counter a x.1 x.2

theorem resultFiled_of_fileKept {ws : List Word} (h : resultFiled m a e c j ws) (g : fileKept a.pool.nextId a b)
    (idle : ctxOf b e c = ctxOf a e c) : resultFiled m b e c j ws :=
  ⟨filed_of_fileKept g h.filed, idle.trans h.idle, fun x mem => (g.counts x mem).trans (h.counts x mem)⟩

theorem stitchResult_length : (stitchResult m e c j k status detail part body).length = 4 + body.length := by
  simp only [stitchResult, resultWords, List.length_append, List.length_cons, List.length_nil]

/-- A stitch that has started writes its result where the result queue has room for it (R274, R338). -/
theorem writeResult_files (job : (ctxOf m e c).job = some j) (core : (ctxOf m e c).core = some k) (started : (ctxOf m e c).started = true)
    (origin : j.origin.val = laceDev m) (room : roomFor m j.rqueue (4 + body.length)) :
    resultFiled m (writeResult m e c status detail part body) e c j (stitchResult m e c j k status detail part body) ∧
    ((writeResult m e c status detail part body).engs[e]).done = sat32 ((m.engs[e]).done + 1) := by
  have pool : (countStatus m status).pool = m.pool := by simp [countStatus]
  have size : roomFor (countStatus m status) j.rqueue (stitchResult m e c j k status detail part body).length := by
    rw [stitchResult_length]
    exact roomFor_of_pool room pool
  obtain ⟨completes, filed⟩ := stallPkt_files (type := 0x21) (source := 0x40 + e.val) size
  have written : writeResult m e c status detail part body =
      closeResult (stallPkt (countStatus m status) j.rqueue 0x21 (0x40 + e.val) (stitchResult m e c j k status detail part body)).1 e c := by
    rw [stitchResult] at completes ⊢
    simp only [writeResult, job, core, started, if_true, resultOut, origin, completes]
  obtain ⟨idle, done, -⟩ := closeResult_closes
    (stallPkt (countStatus m status) j.rqueue 0x21 (0x40 + e.val) (stitchResult m e c j k status detail part body)).1 e c
  have kept := fileKept_writeResult (n := 0) (m := m) e c status detail part body (Nat.zero_le _)
  refine ⟨⟨?_, by rw [written, idle], kept.counts⟩, by rw [written, done, stallPkt_engs, countStatus_engs]⟩
  rw [written]
  exact filed_of_fileKept (fileKept_closeResult e c) filed

theorem stitchResult_of_coreGiven (h : coreGiven a b e c) : stitchResult b e c j k status detail part body =
    stitchResult a e c j k status detail part body := by
  simp only [stitchResult, resultWords, h.own, clockKept_phaseNow h.clock, h.clock.ph]

/-- The end of a stitch files its result (R267, R274). -/
theorem endStitch_files (job : (ctxOf m e c).job = some j) (core : (ctxOf m e c).core = some k) (started : (ctxOf m e c).started = true)
    (origin : j.origin.val = laceDev m) (room : roomFor m j.rqueue (4 + body.length)) :
    resultFiled m (endStitch m e c status detail part body) e c j (stitchResult m e c j k status detail part body) ∧
    ((endStitch m e c status detail part body).engs[e]).done = sat32 ((m.engs[e]).done + 1) := by
  have given := coreGiven_releaseCore m e c
  have device : laceDev (releaseCore (withdraw m (.ctx e c)) e c) = laceDev m := by simp only [laceDev, given.clock.lace]
  obtain ⟨written, done⟩ := writeResult_files (status := status) (detail := detail) (part := part) (body := body) (by rw [given.own, job])
    (by rw [given.own, core]) (by rw [given.own, started]) (origin.trans device.symm) (roomFor_of_pool room given.pool)
  have ended : endStitch m e c status detail part body =
      coreRest (writeResult (releaseCore (withdraw m (.ctx e c)) e c) e c status detail part body) k := by
    unfold endStitch
    dsimp only
    rw [core]
  rw [stitchResult_of_coreGiven given] at written
  rw [ended, coreRest_engs, done, given.done]
  have rested := resultFiled_of_fileKept written (fileKept_coreRest k) (ctxOf_of_engs (coreRest_engs ..) e c)
  exact ⟨⟨rested.filed, rested.idle, fun x mem => (rested.counts x mem).trans (given.counts x mem)⟩, rfl⟩

/-- A stitch that ends `OK` files its result with the body of its operation (R276). -/
theorem finishStitch_files (job : (ctxOf m e c).job = some j) (core : (ctxOf m e c).core = some k) (started : (ctxOf m e c).started = true)
    (origin : j.origin.val = laceDev m) (room : roomFor m j.rqueue (4 + ((ctxOf m e c).sc.prog.okBody j.opcode).length)) :
    resultFiled m (finishStitch m e c 0 0) e c j (stitchResult m e c j k 0 0 false ((ctxOf m e c).sc.prog.okBody j.opcode)) := by
  obtain ⟨ended, -⟩ := endStitch_files (status := 0) (detail := 0) (part := false) job core started origin room
  have finished := finishStitch_eq 0 0 job core
  simp only [bne_self_eq_false, Bool.false_and, Progress.endBody, if_true] at finished
  rw [finished]
  refine resultFiled_of_fileKept ended (fileKept_gapAfter _ k (Nat.le_refl _)) (gapAfter_ctx _ fun runs => ?_)
  rw [ended.idle] at runs
  cases runs

end Ending

end Sys2Proof.Machine
end

section
/-!
The turn of a stitch whose run of exchanges ends `OK` (R267, R283): it begins on its field, or reads the end of an exchange, and files its result.
-/

namespace Sys2Proof.Machine

section Turns

variable {m : Main} {e : Fin 24} {c : Fin 2} {j : Job} {k : Fin 16} {keys : Vector (Option (BitVec 128)) 8}

/-- The turn of a stitch. -/
def stitchTurn (m : Main) (e : Fin 24) (c : Fin 2) (j : Job) (k : Fin 16) (keys : Vector (Option (BitVec 128)) 8) : Turn :=
  { owner := .ctx e c, core := k, port := j.port, limit := (ctxOf m e c).limit, apdu := j.opcode == 8, keys := keys }

/-- What a run of exchanges of a stitch starts from, on the events it has met. -/
def stitchAir (m : Main) (j : Job) (k : Fin 16) (keys : Vector (Option (BitVec 128)) 8) (sc : Script) (log : List AirEv) : Air :=
  { m := m, log := log, port := j.port, core := k, sub8 := sc.sub8, level := sc.level, keys := keys, cfg := sc.cfg.getD [], prog := sc.base }

/-- A turn whose run of exchanges comes to its end on what it has met. -/
theorem turn_ok {n : Nat} {sc : Script} {evs : List AirEv} {prog : AirM Unit} {a : Air}
    (ran : prog.run.run (stitchAir m j k keys sc (sc.log ++ evs)) = (.ok (), a)) : turn (stitchTurn m e c j k keys) prog (n + 1) m sc evs =
      (a.m, { sc with log := (sc.log ++ evs) ++ a.new, prog := a.prog, want := none, inbox := none }, .ended 0 0) := by
  have script : runScript (stitchTurn m e c j k keys) m { sc with log := sc.log ++ evs } prog =
      (a.m, { sc with log := (sc.log ++ evs) ++ a.new, prog := a.prog, want := none, inbox := none }, .ended 0 0) := by
    unfold runScript
    dsimp only [stitchTurn]
    rw [stitchAir] at ran
    rw [ran]
  simp only [turn, script]

/-- The state in which a turn ends its stitch: what the run has made of the device and of the context. -/
def turnEnd (a : Air) (e : Fin 24) (c : Fin 2) (sc : Script) : Main := modCtx a.m e c fun x => { x with sc := sc }

/-- A stitch that has the end of an exchange to read takes it up (R167, R283). -/
theorem serve_reads {log : List AirEv} {r : Reply} {prog : Job → AirM Unit} (h : stitchReads m e c j k log r) :
    serve m keys e c false prog =
      afterTurn e c k (turn (stitchTurn m e c j k keys) (prog j) 3 m { (ctxOf m e c).sc with inbox := none } [.reply r]) := by
  have running : ((ctxOf m e c).st == .run && (ctxOf m e c).job == some j) = true := by rw [h.st, h.job]; simp
  simp only [serve, h.job, h.core, h.st, h.lost, h.inbox, bne_self_eq_false, Bool.or_self, Bool.false_eq_true, if_false, Bool.false_and, readReply]
  rw [h.st, h.job] at running
  rw [if_pos running]
  rfl

/-- A stitch begins on its field (R267, R283). -/
theorem serve_begins {f : FieldRec} {prog : Job → AirM Unit} (h : stitchRuns m e c j k f) : serve m keys e c false prog =
    afterTurn e c k (turn (stitchTurn m e c j k keys) (prog j) 3 m { (ctxOf m e c).sc with live := true, sub8 := f.sub8, level := f.level } []) := by
  have inbox : (ctxOf m e c).sc.inbox = none := by rw [h.prog]
  have fresh : (ctxOf m e c).sc.live = false := by rw [h.prog]
  have begins : (carries m k (.ctx e c) && f.at95 && !(m.cores[k]).busy) = true := by
    simp [-Fin.getElem_fin, carries, h.fld, h.owner, h.level, Core.busy, h.gap, h.chain]
  simp only [serve, h.job, h.core, h.st, h.lost, inbox, fresh, h.fld, bne_self_eq_false, Bool.or_self, Bool.false_eq_true, if_false, begins, if_true]
  rfl

end Turns

/-! ## What a run of exchanges leaves of the machine -/

/-- A run of exchanges has left the engines, the pool and the clock alone, and all but the reader. -/
structure turnKept (a b : Main) : Prop where
  engs : b.engs = a.engs
  pool : b.pool = a.pool
  lace : b.lace = a.lace
  reader : readerOnly a b

theorem turnKept_refl (a : Main) : turnKept a a := ⟨rfl, rfl, rfl, readerOnly_refl a⟩

theorem turnKept_trans {a b c : Main} (h : turnKept a b) (g : turnKept b c) : turnKept a c :=
  ⟨g.engs.trans h.engs, g.pool.trans h.pool, g.lace.trans h.lace, readerOnly_trans h.reader g.reader⟩

theorem turnKept_count (m : Main) (idx sub : Nat) : turnKept m (count m idx sub) :=
  ⟨count_engs .., count_pool .., count_lace .., readerOnly_count ..⟩

theorem turnKept_countIf (b : Bool) (m : Main) (idx sub : Nat) : turnKept m (countIf b m idx sub) := by
  cases b
  · exact turnKept_refl m
  · exact turnKept_count ..

theorem turnKept_modPort (m : Main) (p : Fin 128) (f : Port → Port) : turnKept m (modPort m p f) := ⟨rfl, rfl, rfl, readerOnly_modPort ..⟩

section Result

variable {m : Main} {e : Fin 24} {c : Fin 2} {j : Job} {k : Fin 16} {a : Air} {sc : Script}

theorem turnEnd_ctx (kept : turnKept m a.m) : ctxOf (turnEnd a e c sc) e c = { ctxOf m e c with sc := sc } := by
  rw [turnEnd, (modCtx_ctx ..).1, ctxOf_of_engs kept.engs]

theorem stitchResult_turnEnd (kept : turnKept m a.m) (status detail : Nat) (part : Bool) (body : List Word) :
    stitchResult (turnEnd a e c sc) e c j k status detail part body = stitchResult m e c j k status detail part body := by
  have clock : clockKept m (turnEnd a e c sc) :=
    clockKept_of_reader (readerOnly_trans kept.reader (readerOnly_modCtx ..)) kept.lace
  simp only [stitchResult, resultWords, turnEnd_ctx kept, clockKept_phaseNow clock, clock.ph]

/-- A stitch whose run has ended `OK` files its result where the queue has room for it (R274, R276). -/
theorem turnEnd_files (kept : turnKept m a.m) (job : (ctxOf m e c).job = some j) (core : (ctxOf m e c).core = some k)
    (started : (ctxOf m e c).started = true) (origin : j.origin.val = laceDev m)
    (room : roomFor m j.rqueue (4 + (sc.prog.okBody j.opcode).length)) :
    resultFiled a.m (finishStitch (turnEnd a e c sc) e c 0 0) e c j (stitchResult m e c j k 0 0 false (sc.prog.okBody j.opcode)) ∧
    readerOnly m (finishStitch (turnEnd a e c sc) e c 0 0) := by
  have own := turnEnd_ctx (e := e) (c := c) (sc := sc) kept
  have job' : (ctxOf (turnEnd a e c sc) e c).job = some j := by rw [own, job]
  have core' : (ctxOf (turnEnd a e c sc) e c).core = some k := by rw [own, core]
  have prog : (ctxOf (turnEnd a e c sc) e c).sc.prog = sc.prog := by rw [own]
  have device : laceDev (turnEnd a e c sc) = laceDev m := by simp only [laceDev, turnEnd, modCtx_lace, kept.lace]
  have filed := finishStitch_files job' core' (by rw [own, started]) (origin.trans device.symm) (by rw [prog]; exact roomFor_of_pool room kept.pool)
  rw [prog, stitchResult_turnEnd kept] at filed
  refine ⟨⟨filed.filed, filed.idle, filed.counts⟩, ?_⟩
  exact readerOnly_trans kept.reader (readerOnly_trans (readerOnly_modCtx ..) (readerOnly_finishStitch 0 0 job' core'))

end Result

end Sys2Proof.Machine
end

section
/-!
Proofs of the statement on the result of a stitch (R274, R276): a PROBE runs to its end in one turn.
-/

namespace Sys2Proof.Machine

section Probe

variable {m : Main} {e : Fin 24} {c : Fin 2} {j : Job} {k : Fin 16} {f : FieldRec}

/-- Outside an ARM's chain no gap begins with the end of a stitch (R133): its result is all that its engine counts. -/
theorem finishStitch_done (job : (ctxOf m e c).job = some j) (core : (ctxOf m e c).core = some k) (started : (ctxOf m e c).started = true)
    (origin : j.origin.val = laceDev m) (chain : (m.cores[k]).chain = false)
    (room : roomFor m j.rqueue (4 + ((ctxOf m e c).sc.prog.okBody j.opcode).length)) :
    ((finishStitch m e c 0 0).engs[e]).done = sat32 ((m.engs[e]).done + 1) := by
  obtain ⟨-, done⟩ := endStitch_files (status := 0) (detail := 0) (part := false) job core started origin room
  have finished := finishStitch_eq 0 0 job core
  simp only [bne_self_eq_false, Bool.false_and, Progress.endBody, if_true, chain, gapAfter, Bool.false_eq_true, if_false] at finished
  rw [finished, done]

/-- The end of a PROBE is the end of its last exchange. -/
def probed (m : Main) (e : Fin 24) (c : Fin 2) : Main := modCtx m e c fun x => { x with lastAt := m.now }

theorem probe_runs (h : stitchRuns m e c j k f) : probe m e c = probed m e c := by
  have on : (carries m k (.ctx e c) && ((m.cores[k]).fld.map (·.at95)) == some true) = true := by
    simp [-Fin.getElem_fin, carries, h.fld, h.owner, h.level]
  unfold probe
  rw [h.core]
  exact if_pos on

theorem probed_ctx : ctxOf (probed m e c) e c = { ctxOf m e c with lastAt := m.now } := (modCtx_ctx m e c _).1

theorem stitchRuns_probed (h : stitchRuns m e c j k f) : stitchRuns (probed m e c) e c j k f := by
  obtain ⟨st, job, core, started, lost, limit, prog, fld, owner, level, gap, chain⟩ := h
  exact ⟨by rw [probed_ctx, st], by rw [probed_ctx, job], by rw [probed_ctx, core], by rw [probed_ctx, started], by rw [probed_ctx, lost],
    by rw [probed_ctx, limit], by rw [probed_ctx]; exact prog, fld, owner, level, gap, chain⟩

/-- The two words of measurements of a PROBE (R276). -/
def probeWords (zMag : Nat) (zArg : Int) (level noise : Nat) : List Word :=
  [word (place 0 16 zMag + place 16 16 (signedField 16 zArg)), word (place 0 8 level + place 8 8 noise)]

/-- The first words of a result on a core (R274). -/
theorem resultHead_eq (m : Main) (j : Job) (e : Fin 24) (c : Fin 2) (k : Fin 16) (op us : Nat) (body : List Word) (probe : j.opcode = op) :
    resultWords m j e.val c.val (some k) 0 0 us false body =
      [BitVec.ofNat 32 (op * 2 ^ 8 + j.proto * 2 ^ 12 + j.port.val * 2 ^ 16 + j.dev * 2 ^ 23 + e.val * 2 ^ 25 + c.val * 2 ^ 30),
       BitVec.ofNat 32 (j.tag + k.val * 2 ^ 24 + 2 ^ 28), BitVec.ofNat 32 (phaseNow m + m.ph.cycle % 2 ^ 16 * 2 ^ 16),
       BitVec.ofNat 32 us] ++ body := by
  have opcode : op < 16 := probe ▸ Nat.mod_lt _ (by decide)
  have proto : j.proto < 8 := Nat.mod_lt _ (by decide)
  have dev : j.dev < 4 := Nat.mod_lt _ (by decide)
  have port := j.port.isLt
  have engine := e.isLt
  have context := c.isLt
  have core := k.isLt
  have first : place 0 8 0 + place 8 4 op + place 12 3 j.proto + place 16 7 j.port.val + place 23 2 j.dev + place 25 5 e.val + place 30 1 c.val +
      place 31 1 0 = op * 2 ^ 8 + j.proto * 2 ^ 12 + j.port.val * 2 ^ 16 + j.dev * 2 ^ 23 + e.val * 2 ^ 25 + c.val * 2 ^ 30 := by
    simp only [place]
    omega
  have second : j.tag + place 16 8 0 + place 24 4 k.val + place 28 1 1 = j.tag + k.val * 2 ^ 24 + 2 ^ 28 := by
    simp only [place]
    omega
  have third : phaseNow m + place 16 16 m.ph.cycle = phaseNow m + m.ph.cycle % 2 ^ 16 * 2 ^ 16 := rfl
  simp only [resultWords, word, probe, bitN, Option.map_some, Option.getD_some, Option.isSome_some, Bool.false_eq_true, if_false, if_true,
    first, second, third]

theorem probeWords_eq (zMag : Nat) (zArg : Int) (level noise : Nat) : probeWords zMag zArg level noise =
    [BitVec.ofNat 32 (zMag % 2 ^ 16 + (zArg % 65536).toNat * 2 ^ 16), BitVec.ofNat 32 (level % 2 ^ 8 + noise % 2 ^ 8 * 2 ^ 8)] := by
  have arg : (zArg % 65536).toNat % 2 ^ 16 = (zArg % 65536).toNat := by omega
  have signed : signedField 16 zArg = (zArg % 65536).toNat := rfl
  simp only [probeWords, word, place, signed, arg, pow_zero, Nat.mul_one]

end Probe

section Probe

variable {s : State} {e : Fin 24} {c : Fin 2} {j : Job} {k : Fin 16} {f : FieldRec}

/-- The run of a PROBE, before its turn. -/
def probeScript (m : Main) (e : Fin 24) (c : Fin 2) (f : FieldRec) : Script :=
  { (ctxOf (probed m e c) e c).sc with live := true, sub8 := f.sub8, level := f.level }

/-- The run of a PROBE at its end. -/
def probeAir (s : State) (e : Fin 24) (c : Fin 2) (j : Job) (k : Fin 16) (f : FieldRec) (ws : List Word) : Air :=
  { stitchAir (probed s.m e c) j k s.keys.fobKeys (probeScript s.m e c f) [] with prog := { (probeScript s.m e c f).base with recs := ws } }

/-- The run of a PROBE at its end, as its context keeps it. -/
def probeDone (s : State) (e : Fin 24) (c : Fin 2) (f : FieldRec) (ws : List Word) : Script :=
  { probeScript s.m e c f with log := [], prog := { (probeScript s.m e c f).base with recs := ws }, want := none, inbox := none }

/-- The state in which a PROBE has ended. -/
def probeEnd (s : State) (e : Fin 24) (c : Fin 2) (j : Job) (k : Fin 16) (f : FieldRec) (ws : List Word) : Main :=
  turnEnd (probeAir s e c j k f ws) e c (probeDone s e c f ws)

/-- The run of a PROBE needs no exchange: its first turn ends it. -/
theorem exec_stitchProbe (h : stitchRuns s.m e c j k f) (op : j.opcode = 12) (zMag : Nat) (zArg : Int) (level noise : Nat) :
    exec (.stitchProbe e c zMag zArg level noise) s =
      .next { s with m := finishStitch (probeEnd s e c j k f (probeWords zMag zArg level noise)) e c 0 0 } := by
  have start := stitchRuns_probed h
  have met : (probeScript s.m e c f).log = [] := by
    have log : (ctxOf (probed s.m e c) e c).sc.log = [] := by rw [start.prog]
    exact log
  have ran : (runProbe zMag zArg level noise).run.run (stitchAir (probed s.m e c) j k s.keys.fobKeys (probeScript s.m e c f)
      ((probeScript s.m e c f).log ++ [])) = (.ok (), probeAir s e c j k f (probeWords zMag zArg level noise)) := by
    rw [met]
    rfl
  have ended := turn_ok (e := e) (c := c) (n := 2) ran
  rw [met] at ended
  have asked (m : Main) (job : (ctxOf m e c).job = some j) : ((ctxOf m e c).job.map (·.opcode)) = some 12 := by rw [job, Option.map_some, op]
  have command : exec (.stitchProbe e c zMag zArg level noise) s = execStitchProbe e c zMag zArg level noise s := rfl
  rw [command, execStitchProbe, if_pos (asked s.m h.job), probe_runs h, stitchCmd, if_pos (asked _ start.job),
    serve_begins (prog := fun _ => runProbe zMag zArg level noise) start]
  exact congrArg (fun r => Host.Outcome.next { s with m := afterTurn e c k r }) ended

/-- The words of the result of a PROBE (R274, R276). -/
theorem stitchResult_probed (zMag : Nat) (zArg : Int) (level noise : Nat) (op : j.opcode = 12) :
    stitchResult (probed s.m e c) e c j k 0 0 false (probeWords zMag zArg level noise) =
      [BitVec.ofNat 32 (12 * 2 ^ 8 + j.proto * 2 ^ 12 + j.port.val * 2 ^ 16 + j.dev * 2 ^ 23 + e.val * 2 ^ 25 + c.val * 2 ^ 30),
       BitVec.ofNat 32 (j.tag + k.val * 2 ^ 24 + 2 ^ 28), BitVec.ofNat 32 (phaseNow s.m + s.m.ph.cycle % 2 ^ 16 * 2 ^ 16),
       BitVec.ofNat 32 ((s.m.now - (ctxOf s.m e c).startAt) / 400), BitVec.ofNat 32 (zMag % 2 ^ 16 + (zArg % 65536).toNat * 2 ^ 16),
       BitVec.ofNat 32 (level % 2 ^ 8 + noise % 2 ^ 8 * 2 ^ 8)] := by
  rw [stitchResult, resultHead_eq _ _ _ _ _ _ _ _ op, probed_ctx, probeWords_eq]
  rfl

end Probe

/-- Settles O28: the run of a PROBE needs no exchange, so that its first turn files the result. -/
theorem resultLayout : Obligations.ResultLayout := by
  intro s e c j k f zMag zArg level noise runs gap chain probe origin room
  have start := stitchRuns_probed runs
  have body : (probeDone s e c f (probeWords zMag zArg level noise)).prog.okBody j.opcode = probeWords zMag zArg level noise := by
    rw [probe]
    rfl
  have fits : roomFor (probed s.m e c) j.rqueue (4 + ((probeDone s e c f (probeWords zMag zArg level noise)).prog.okBody j.opcode).length) := by
    rw [body]
    exact roomFor_of_pool room rfl
  obtain ⟨filed, reader⟩ := turnEnd_files (a := probeAir s e c j k f (probeWords zMag zArg level noise)) (turnKept_refl _) start.job start.core
    start.started origin fits
  have own : ctxOf (probeEnd s e c j k f (probeWords zMag zArg level noise)) e c = _ := turnEnd_ctx (turnKept_refl _)
  have done := finishStitch_done (m := probeEnd s e c j k f (probeWords zMag zArg level noise)) (by rw [own]; exact start.job)
    (by rw [own]; exact start.core) (by rw [own]; exact start.started) origin chain (by rw [own]; exact roomFor_of_pool fits rfl)
  refine ⟨_, exec_stitchProbe runs probe zMag zArg level noise, ?_, filed.idle, ?_, mainOnly_m .., readerOnly_trans (readerOnly_modCtx ..) reader⟩
  · have device : (probeAir s e c j k f (probeWords zMag zArg level noise)).m = probed s.m e c := rfl
    have words := stitchResult_probed (s := s) (e := e) (c := c) (k := k) zMag zArg level noise probe
    have result := delivered_of_filed filed.filed
    rw [body, device, words] at result
    exact result
  · rw [done]
    exact congrArg (fun n => sat32 (n + 1)) ((modCtx_done ..).trans (modCtx_done ..))

end Sys2Proof.Machine
end

section
/-!
Rules for runs of exchanges: what a step of a run does on the events it has met (R157, R283). A rule has the events before and after the step, what
is known of the progress and of the machine before and after it, and the value of the step.
-/

namespace Sys2Proof.Machine

/-- A run of exchanges comes to its end with a value. -/
def runsTo {α : Type} (p : AirM α) (a : Air) (v : α) (b : Air) : Prop := p.run.run a = (.ok v, b)

/-- A run at some place in its events, its progress and the machine. -/
def Air.at_ (a : Air) (log : List AirEv) (q : Progress) (m : Main) : Air := { a with log := log, prog := q, m := m }

/-- From what `P` knows, a step takes the events `log` down to `rest` and has the value `v`; `Q` is known then. -/
structure does {α : Type} (a : Air) (log : List AirEv) (P : Progress → Main → Prop) (p : AirM α) (v : α) (rest : List AirEv)
    (Q : Progress → Main → Prop) : Prop where
  run : ∀ q m, P q m → ∃ q' m', runsTo p (a.at_ log q m) v (a.at_ rest q' m') ∧ Q q' m'

section Rules

variable {α β : Type} {a : Air} {log mid rest : List AirEv} {P Q R : Progress → Main → Prop} {v : α} {w : β}

theorem runsTo_bind {p : AirM α} {f : α → AirM β} {b c : Air} (h : runsTo p a v b) (g : runsTo (f v) b w c) : runsTo (p >>= f) a w c := by
  unfold runsTo at *
  rw [ExceptT.run_bind, StateT.run_bind, h]
  exact g

/-- What is caught of a step that comes to its end is nothing. -/
theorem runsTo_tryCatch {p : AirM α} {f : AirStop → AirM α} {b : Air} (h : runsTo p a v b) : runsTo (tryCatch p f) a v b := by
  have ran : StateT.run p a = (.ok v, b) := h
  simp only [runsTo, tryCatch, tryCatchThe, MonadExceptOf.tryCatch, ExceptT.tryCatch, ExceptT.run_mk, StateT.run_bind, ran]
  rfl

theorem does_pure (a : Air) (log : List AirEv) (P : Progress → Main → Prop) (v : α) : does a log P (pure v) v log P :=
  ⟨fun q m known => ⟨q, m, rfl, known⟩⟩

theorem does_bind {p : AirM α} {f : α → AirM β} (h : does a log P p v mid Q) (g : does a mid Q (f v) w rest R) : does a log P (p >>= f) w rest R := by
  refine ⟨fun q m known => ?_⟩
  obtain ⟨q', m', first, known'⟩ := h.run q m known
  obtain ⟨q'', m'', second, known''⟩ := g.run q' m' known'
  exact ⟨q'', m'', runsTo_bind first second, known''⟩

theorem does_tryCatch {p : AirM α} {f : AirStop → AirM α} (h : does a log P p v rest Q) : does a log P (tryCatch p f) v rest Q := by
  refine ⟨fun q m known => ?_⟩
  obtain ⟨q', m', ran, known'⟩ := h.run q m known
  exact ⟨q', m', runsTo_tryCatch ran, known'⟩

/-- A step that goes on from the run as it stands. -/
theorem does_get {f : Air → AirM β} (h : ∀ q m, P q m → does a log P (f (a.at_ log q m)) w rest R) : does a log P (get >>= f) w rest R := by
  refine ⟨fun q m known => ?_⟩
  obtain ⟨q', m', ran, known'⟩ := (h q m known).run q m known
  exact ⟨q', m', runsTo_bind (v := a.at_ log q m) rfl ran, known'⟩

theorem does_if_false {c : Prop} [Decidable c] {p p' : AirM α} (no : ¬ c) (h : does a log P p' v rest Q) :
    does a log P (if c then p else p') v rest Q := by
  rw [if_neg no]
  exact h

theorem does_if_true {c : Prop} [Decidable c] {p p' : AirM α} (yes : c) (h : does a log P p v rest Q) :
    does a log P (if c then p else p') v rest Q := by
  rw [if_pos yes]
  exact h

theorem does_onProg {f : Progress → Progress} (h : ∀ q m, P q m → Q (f q) m) : does a log P (onProg f) () log Q :=
  ⟨fun q m known => ⟨f q, m, rfl, h q m known⟩⟩

/-- A change of the device, made when nothing more has been met. -/
theorem does_onDev {f : Main → Main} (h : ∀ q m, P q m → P q (f m)) : does a log P (onDev f) () log P := by
  refine ⟨fun q m known => ?_⟩
  cases log with
  | nil => exact ⟨q, f m, rfl, h q m known⟩
  | cons ev log => exact ⟨q, m, rfl, known⟩

theorem does_onDev_last {f : Main → Main} (h : ∀ q m, P q m → Q q (f m)) : does a [] P (onDev f) () [] Q :=
  ⟨fun q m known => ⟨q, f m, rfl, h q m known⟩⟩

theorem does_askNum (f : Main → Nat × Main) (n : Nat) : does a (.num n :: rest) P (askNum f) n rest P := ⟨fun q m known => ⟨q, m, rfl, known⟩⟩

theorem does_askDev (f : Main → Nat) (n : Nat) : does a (.num n :: rest) P (askDev f) n rest P := does_askNum _ n

theorem does_drawA (n : Nat) : does a (.num n :: rest) P drawA (BitVec.ofNat 128 n) rest P := does_bind (does_askNum _ n) (does_pure ..)

/-- A setting that a run takes as it stood at its start (R249, R264). -/
def Air.setting (a : Air) (idx sub : Nat) : Nat := (mapGet (ekey idx sub) a.cfg).getD (entryDefault idx sub)

theorem does_cfgA_start {idx sub : Nat} (own : (idx = 0x2500 || idx = 0x2600 || idx = 0x3200) = true) :
    does a log P (cfgA idx sub) (a.setting idx sub) log P := by
  unfold cfgA
  exact does_if_true own (does_get fun q m _ => does_pure ..)

/-- A setting that a run takes as it stands when it is first used. -/
theorem does_cfgA_device {idx sub : Nat} (other : (idx = 0x2500 || idx = 0x2600 || idx = 0x3200) = false) (n : Nat) :
    does a (.num n :: rest) P (cfgA idx sub) n rest P := by
  unfold cfgA
  exact does_if_false (by rw [other]; exact Bool.false_ne_true) (does_askDev _ n)

theorem does_xchg (f : TxFrame) (r : Reply) (open_ : a.shut = false) : does a (.reply r :: rest) P (xchg f) r rest P := by
  unfold xchg
  refine does_get fun q m known => ?_
  have goes : ¬ ((a.at_ (.reply r :: rest) q m).soft && (a.at_ (.reply r :: rest) q m).shut) = true := by
    simp [Air.at_, open_]
  refine ⟨fun q' m' known' => ⟨q, m, ?_, known⟩⟩
  dsimp only
  rw [if_neg goes]
  rfl

/-- A run in a part that may fail. -/
def Air.soften (a : Air) : Air := { a with soft := true }

/-- A part of a run that may fail, and does not (R242). -/
theorem does_softly {p : AirM α} (h : does a.soften log P p v rest Q) : does a log P (softly p) (some v) rest Q := by
  refine ⟨fun q m known => ?_⟩
  obtain ⟨q', m', ran, known'⟩ := h.run q m known
  refine ⟨q', m', ?_, known'⟩
  unfold softly
  refine runsTo_bind (v := a.at_ log q m) rfl ?_
  refine runsTo_bind (v := ()) (b := a.soften.at_ log q m) rfl ?_
  refine runsTo_bind (v := some v) (b := a.soften.at_ rest q' m') (runsTo_tryCatch (runsTo_bind ran rfl)) ?_
  exact runsTo_bind (v := ()) (b := a.at_ rest q' m') rfl rfl

end Rules

end Sys2Proof.Machine
end

section
/-!
What the parts of an STP stitch do when their exchanges succeed (R273, R281): a rule for each.
-/

namespace Sys2Proof.Machine

/-- Progress without what every exchange writes anew: link, handle, and the counts of its checks. -/
def Progress.known (q : Progress) : Progress :=
  { q with badEnd := false, crcRun := 0, lastRssi := 0, fwd := 0, fwdNext := 0, handle := 0xFFFF, handles := [] }

/-- What is known of a run: the machine but for the reader, the counts of work, and its progress. -/
structure stands (m₀ : Main) (t : Nat × Nat → Nat) (x q : Progress) (m : Main) : Prop where
  kept : turnKept m₀ m
  tally : ∀ y ∈ workCounters, counter m y.1 y.2 = t y
  known : q.known = x

section Rules

variable {a : Air} {m₀ : Main} {t : Nat × Nat → Nat} {x y : Progress} {r : Reply} {rest : List AirEv}

/-- A step of progress is told by what it does to what is known. -/
theorem does_note {log : List AirEv} {f : Progress → Progress} (h : ∀ q : Progress, q.known = x → (f q).known = y) :
    does a log (stands m₀ t x) (onProg f) () log (stands m₀ t y) :=
  does_onProg fun q _ s => ⟨s.kept, s.tally, h q s.known⟩

/-- A count that is none of the counts of work. -/
theorem stands_countIf {q : Progress} {m : Main} (s : stands m₀ t x q m) (b : Bool) (idx sub : Nat)
    (other : ∀ y ∈ workCounters, ekey y.1 y.2 ≠ ekey idx sub) : stands m₀ t x q (countIf b m idx sub) :=
  ⟨turnKept_trans s.kept (turnKept_countIf ..), fun y mem => ((fileKept_countIf (n := 0) b idx sub other).counts y mem).trans (s.tally y mem), s.known⟩

theorem stands_count {q : Progress} {m : Main} (s : stands m₀ t x q m) (idx sub : Nat)
    (other : ∀ y ∈ workCounters, ekey y.1 y.2 ≠ ekey idx sub) : stands m₀ t x q (count m idx sub) := stands_countIf s true idx sub other

/-- A count that no count of work is. -/
theorem does_count {log : List AirEv} (b : Bool) (idx sub : Nat) (other : ∀ y ∈ workCounters, ekey y.1 y.2 ≠ ekey idx sub) :
    does a log (stands m₀ t x) (onDev fun m => countIf b m idx sub) () log (stands m₀ t x) :=
  does_onDev fun _ _ s => stands_countIf s b idx sub other

/-- One count of work has risen. -/
def risen (t : Nat × Nat → Nat) (y : Nat × Nat) : Nat × Nat → Nat := fun z => if z = y then sat32 (t y + 1) else t z

theorem does_count_work {y : Nat × Nat} (own : y ∈ workCounters) :
    does a [] (stands m₀ t x) (onDev fun m => count m y.1 y.2) () [] (stands m₀ (risen t y) x) := by
  refine does_onDev_last fun q m s => ⟨turnKept_trans s.kept (turnKept_count ..), fun z mem => ?_, s.known⟩
  unfold risen
  split
  · rename_i same
    rw [same, counter_count_same, s.tally y own]
  · rename_i other
    have otherKey : ekey z.1 z.2 ≠ ekey y.1 y.2 := by
      revert z y
      decide
    rw [count, counter_countN_other 1 otherKey, s.tally z mem]

/-! ## Exchanges -/

theorem does_noteStp (log : List AirEv) (rate : Nat) (r : Reply) : does a log (stands m₀ t x) (noteStp rate r) r log (stands m₀ t x) := by
  unfold noteStp
  refine does_bind (does_note fun q known => known) ?_
  dsimp only
  split
  · refine does_bind (does_note fun q known => known) (does_bind (does_onDev fun q m s => ?_) (does_bind (does_count _ 0x7080 0x0C (by decide))
      (does_pure ..)))
    exact stands_countIf (stands_countIf s _ 0x7070 0x05 (by decide)) _ 0x7070 0x06 (by decide)
  · exact does_pure ..

variable (open_ : a.shut = false)

include open_

theorem does_stpX (c : StpCmd) (claim : Bool) : does a (.reply r :: rest) (stands m₀ t x) (stpX c claim) r rest (stands m₀ t x) := by
  unfold stpX
  exact does_get fun q m _ => does_bind (does_xchg _ r open_) (does_noteStp ..)

/-- One command to an acquired fob on its default link: no step down is due (R218). -/
theorem does_cmd (rate : x.rate = 0) (d : Nat) (c : Nat → StpCmd) :
    does a (.num d :: .reply r :: rest) (stands m₀ t x) (cmd c) r rest (stands m₀ t x) := by
  have stays : does a (.num d :: .reply r :: rest) (stands m₀ t x) stepDown () (.reply r :: rest) (stands m₀ t x) := by
    unfold stepDown
    refine does_get fun q m s => does_bind (does_cfgA_device rfl d) (does_if_false ?_ (does_pure ..))
    have link : q.rate = 0 := by rw [← rate, ← s.known]; rfl
    simp [Air.at_, link]
  unfold cmd
  exact does_bind stays (does_get fun q m _ => does_stpX open_ _ _)

omit open_ in
/-- A good reply is long enough for its command. -/
theorem does_needLength {log : List AirEv} {n : Nat} (good : goodReply r n) : does a log (stands m₀ t x) (needLength n r) () log (stands m₀ t x) := by
  obtain ⟨-, -, long⟩ := good
  unfold needLength
  exact does_if_false (by simp [long]) (does_pure ..)

/-- A command that is answered `OK` (R226, R282). -/
theorem does_ask {n : Nat} (good : goodReply r n) (rate : x.rate = 0) (d : Nat) (c : Nat → StpCmd) :
    does a (.num d :: .reply r :: rest) (stands m₀ t x) (ask n c) r rest (stands m₀ t x) := by
  have long := does_needLength (a := a) (m₀ := m₀) (t := t) (x := x) (log := rest) good
  obtain ⟨ok, rcode, -⟩ := good
  unfold ask
  refine does_bind (does_cmd open_ rate d c) ?_
  dsimp only
  exact does_if_false (by simp [ok]) (does_if_false (by simp [rcode]) (does_bind long (does_pure ..)))

/-- A command that is answered `OK` at its first attempt (R282). -/
theorem does_askAgain {n : Nat} (good : goodReply r n) (rate : x.rate = 0) (d : Nat) (c : Nat → StpCmd) (attempts : Nat) :
    does a (.num d :: .reply r :: rest) (stands m₀ t x) (askAgain n c attempts) r rest (stands m₀ t x) := by
  match attempts with
  | 0 => exact does_ask open_ good rate d c
  | 1 => exact does_ask open_ good rate d c
  | more + 2 =>
    have long := does_needLength (a := a) (m₀ := m₀) (t := t) (x := x) (log := rest) good
    obtain ⟨ok, rcode, -⟩ := good
    unfold askAgain
    refine does_bind (does_cmd open_ rate d c) ?_
    dsimp only
    refine does_if_false (by simp [ok, RxOutcome.failed]) ?_
    exact does_if_false (by simp [ok]) (does_if_false (by simp [rcode]) (does_bind long (does_pure ..)))

/-! ## The start of a run and the acquisition (R281) -/

/-- What a run has met when its port is on its subcarrier (R217). -/
def begins (a : Air) (n : Nat) (r₀ : Reply) (rest : List AirEv) : List AirEv :=
  .num n :: ((if a.sub8 = bitAt a.port.val 3 then [] else [.reply r₀]) ++ rest)

theorem does_beginStp (rate : x.rate = 0) (n : Nat) (r₀ : Reply) :
    does a (begins a n r₀ rest) (stands m₀ t x) beginStp () rest (stands m₀ t x) := by
  have dropped (log : List AirEv) : does a (.num n :: log) (stands m₀ t x) dropLink () log (stands m₀ t x) := by
    unfold dropLink
    refine does_get fun q m _ => does_bind (does_askDev _ n) (does_note fun q known => ?_)
    rw [← known] at rate ⊢
    have link : q.rate = 0 := rate
    simp only [Progress.known, link]
  have announced : does a ((if a.sub8 = bitAt a.port.val 3 then [] else [.reply r₀]) ++ rest) (stands m₀ t x) announceLink () rest
      (stands m₀ t x) := by
    unfold announceLink
    refine does_get fun q m _ => ?_
    by_cases default : a.sub8 = bitAt a.port.val 3
    · rw [if_pos default]
      exact does_if_false (by simp [Air.at_, default]) (does_pure ..)
    · rw [if_neg default]
      refine does_if_true (by simp [Air.at_, default]) ?_
      exact does_bind (does_stpX open_ _ _) (does_pure ..)
  unfold beginStp
  exact does_bind (dropped _) announced

/-- A fob acquired by a SINGLE, on what was known before it (R276). -/
def acquiredBy (x : Progress) (r : Reply) : Progress :=
  { x with acquired := true, uid := replyUid r, caps := r.at_ 11, rssi := r.rssi, margin := 0xFF, bind := r.bind }

omit open_ in
theorem does_learnFob (fresh : x.acquired = false) (b : Nat) (uid handle caps rssi margin bind : Nat) :
    does a (.num b :: rest) (stands m₀ t x) (learnFob uid handle caps rssi margin bind) () rest
      (stands m₀ t { x with acquired := true, uid := uid, caps := caps, rssi := rssi, margin := margin, bind := bind }) := by
  unfold learnFob fwdFor
  refine does_bind (does_bind (does_cfgA_device rfl b) (does_pure ..)) (does_note fun q known => ?_)
  have unknown : q.acquired = false := by rw [← fresh, ← known]; rfl
  simp only [unknown, Bool.false_eq_true, if_false, ← known]
  rfl

/-- A single fob answers: it is acquired, whichever it is or by its UID (R281). -/
theorem does_acquire {uid : Nat} (good : goodReply r 12) (own : uid = 0 ∨ uid = replyUid r) (fresh : x.acquired = false) (b : Nat) :
    does a (.reply r :: .num b :: rest) (stands m₀ t x) (acquire uid) () rest (stands m₀ t (acquiredBy x r)) := by
  have long := does_needLength (a := a) (m₀ := m₀) (t := t) (x := x) (log := .num b :: rest) good
  obtain ⟨ok, rcode, -⟩ := good
  have answered : does a (.reply r :: .num b :: rest) (stands m₀ t x) single r (.num b :: rest) (stands m₀ t x) := by
    unfold single
    refine does_bind (does_stpX open_ _ _) ?_
    dsimp only
    exact does_if_false (by simp [ok]) (does_bind (does_pure ..) (does_if_false (by decide) (does_pure ..)))
  have wanted : ¬ (uid != 0 && replyUid r != uid) = true := by
    rcases own with any | own
    · simp [any]
    · simp [own]
  unfold acquire
  refine does_bind answered ?_
  rw [ok]
  dsimp only
  refine does_if_false (by simp [rcode]) (does_bind long (does_get fun q m _ => ?_))
  refine does_bind (does_onDev fun q m s => ?_) (does_if_false wanted (does_learnFob fresh b ..))
  exact ⟨turnKept_trans s.kept (turnKept_modPort ..), s.tally, s.known⟩

/-- Steps 1 to 4 of R281 where nothing more is asked for: the fob is acquired, and step 5 follows. -/
theorem does_startStp_then {j : Job} {log : List AirEv} {Q : Progress → Main → Prop} (noNegotiate : j.noNegotiate = true) (noQuiet : j.quietAfter = false)
    (good : goodReply r 12) (own : j.opcode = 1 ∨ j.uid = 0 ∨ j.uid = replyUid r) (fresh : x.acquired = false) (rate : x.rate = 0)
    (quiet : x.notQuiet = false) (n b : Nat) (r₀ : Reply) (more : Bool)
    (step : does a log (stands m₀ t (acquiredBy x r)) (if j.opcode = 6 || (j.authFirst && (j.opcode == 2 || j.opcode == 3)) then
      authenticate (field j.w5.toNat 0 3) (field j.w5.toNat 8 2) else pure ()) () rest Q) :
    does a (begins a n r₀ (.reply r :: .num b :: log)) (stands m₀ t x) (startStp j more) () rest Q := by
  have wanted : (if j.opcode = 1 then 0 else j.uid) = 0 ∨ (if j.opcode = 1 then 0 else j.uid) = replyUid r := by
    split
    · exact .inl rfl
    · rename_i notSingle
      exact own.resolve_left notSingle
  unfold startStp
  refine does_bind (does_beginStp open_ rate n r₀) (does_get fun q m s => ?_)
  have unknown : q.acquired = false := by rw [← fresh, ← s.known]; rfl
  dsimp only
  refine does_if_false (by simp [Air.at_, unknown]) (does_bind (does_acquire open_ good wanted fresh b) ?_)
  refine does_bind (does_note (y := acquiredBy x r) fun q known => ?_) (does_if_false (by simp [noNegotiate]) ?_)
  · have silent : q.notQuiet = false := by
      have known' : q.known.notQuiet = (acquiredBy x r).notQuiet := by rw [known]
      exact known'.trans quiet
    rw [← known]
    simp only [noQuiet, Bool.false_and, Progress.known, silent]
  · exact does_bind (does_note fun q known => known) step

/-- The same for a stitch that authenticates nothing. -/
theorem does_startStp {j : Job} (noNegotiate : j.noNegotiate = true) (noAuth : j.authFirst = false) (noQuiet : j.quietAfter = false)
    (good : goodReply r 12) (own : j.opcode = 1 ∨ j.uid = 0 ∨ j.uid = replyUid r) (notAuth : j.opcode ≠ 6) (fresh : x.acquired = false)
    (rate : x.rate = 0) (quiet : x.notQuiet = false) (n b : Nat) (r₀ : Reply) (more : Bool) :
    does a (begins a n r₀ (.reply r :: .num b :: rest)) (stands m₀ t x) (startStp j more) () rest (stands m₀ t (acquiredBy x r)) :=
  does_startStp_then open_ noNegotiate noQuiet good own fresh rate quiet n b r₀ more (does_if_false (by simp [notAuth, noAuth]) (does_pure ..))

omit open_ in
theorem does_quietFob {j : Job} {log : List AirEv} (noQuiet : j.quietAfter = false) :
    does a log (stands m₀ t x) (quietFob j) () log (stands m₀ t x) := by
  unfold quietFob
  exact does_if_false (by simp [noQuiet]) (does_pure ..)

/-! ## READ (R281) -/

/-- Records that one exchange carries. -/
theorem does_readRecords {n : Nat} (some_ : 1 ≤ n) (fits : n ≤ field x.caps 4 4 + 1) (good : goodReply r (1 + 16 * n)) (rate : x.rate = 0)
    (d first : Nat) : does a (.num d :: .reply r :: rest) (stands m₀ t x) (readRecords n first n) () rest
      (stands m₀ t { x with recs := x.recs ++ packWords ((r.data.drop 1).take (16 * n)) }) := by
  obtain ⟨fuel, rfl⟩ : ∃ fuel, n = fuel + 1 := ⟨n - 1, by omega⟩
  have ends (first : Nat) (log : List AirEv) (y : Progress) : does a log (stands m₀ t y) (readRecords fuel first (fuel + 1 - (fuel + 1))) () log
      (stands m₀ t y) := by
    cases fuel with
    | zero => exact does_pure ..
    | succ fuel =>
      unfold readRecords
      exact does_if_true (by omega) (does_pure ..)
  unfold readRecords
  refine does_if_false (by omega) (does_get fun q m s => ?_)
  have caps : q.caps = x.caps := by rw [← s.known]; rfl
  have all : min (fuel + 1) (field ((a.at_ (.num d :: .reply r :: rest) q m).prog.caps) 4 4 + 1) = fuel + 1 := by
    simp only [Air.at_, caps]
    omega
  dsimp only
  rw [all]
  refine does_bind (does_cfgA_start rfl) (does_bind (does_askAgain open_ good rate d _ _) ?_)
  refine does_bind (does_note fun q known => ?_) (ends ..)
  rw [← known]
  rfl

/-- SINGLE_READ and READ of records that one exchange carries. -/
theorem does_runRead {j : Job} (noNegotiate : j.noNegotiate = true) (noAuth : j.authFirst = false) (noQuiet : j.quietAfter = false)
    {r₂ : Reply} (good : goodReply r 12) (own : j.opcode = 1 ∨ j.uid = 0 ∨ j.uid = replyUid r) (notAuth : j.opcode ≠ 6)
    (some_ : 1 ≤ j.byteB) (fits : j.byteB ≤ field (r.at_ 11) 4 4 + 1) (good₂ : goodReply r₂ (1 + 16 * j.byteB)) (n b d : Nat) (r₀ : Reply) :
    does a (begins a n r₀ [.reply r, .num b, .num d, .reply r₂]) (stands m₀ t {}) (runRead j) () []
      (stands m₀ t { acquiredBy {} r with recs := packWords ((r₂.data.drop 1).take (16 * j.byteB)) }) := by
  unfold runRead
  refine does_bind (does_startStp open_ noNegotiate noAuth noQuiet good own notAuth rfl rfl rfl n b r₀ _) (does_get fun q m s => ?_)
  have none : (a.at_ [.num d, .reply r₂] q m).prog.recs = [] := by
    have known : q.known.recs = (acquiredBy {} r).recs := by rw [s.known]
    exact known
  dsimp only
  rw [none]
  exact does_bind (does_readRecords open_ some_ fits good₂ rfl d _) (does_quietFob noQuiet)

/-! ## QUIET and RELEASE (R281) -/

theorem does_runQuiet {j : Job} (noNegotiate : j.noNegotiate = true) (noAuth : j.authFirst = false) (noQuiet : j.quietAfter = false)
    {r₂ : Reply} (good : goodReply r 12) (own : j.uid = 0 ∨ j.uid = replyUid r) (notAuth : j.opcode ≠ 6)
    (good₂ : goodReply r₂ 1) (n b d : Nat) (r₀ : Reply) :
    does a (begins a n r₀ [.reply r, .num b, .num d, .reply r₂]) (stands m₀ t {}) (runQuiet j) () [] (stands m₀ t (acquiredBy {} r)) := by
  unfold runQuiet
  refine does_bind (does_startStp open_ noNegotiate noAuth noQuiet good (.inr own) notAuth rfl rfl rfl n b r₀ _) ?_
  exact does_bind (does_ask open_ good₂ rfl d _) (does_pure ..)

/-- RELEASE of every fob bound to the port: no reply is drawn, whatever the end of the exchange. -/
theorem does_runRelease_all {j : Job} (all : j.uid = 0) (n : Nat) (r₀ : Reply) :
    does a (begins a n r₀ [.reply r]) (stands m₀ t {}) (runRelease j) () [] (stands m₀ t {}) := by
  unfold runRelease
  exact does_if_true all (does_bind (does_beginStp open_ rfl n r₀) (does_bind (does_stpX open_ _ _) (does_pure ..)))

theorem does_runRelease_uid {j : Job} (noNegotiate : j.noNegotiate = true) (noAuth : j.authFirst = false) (noQuiet : j.quietAfter = false)
    {r₂ : Reply} (good : goodReply r 12) (one : j.uid ≠ 0) (own : j.uid = replyUid r) (notAuth : j.opcode ≠ 6)
    (good₂ : goodReply r₂ 1) (n b d : Nat) (r₀ : Reply) :
    does a (begins a n r₀ [.reply r, .num b, .num d, .reply r₂]) (stands m₀ t {}) (runRelease j) () [] (stands m₀ t (acquiredBy {} r)) := by
  unfold runRelease
  refine does_if_false one (does_bind (does_startStp open_ noNegotiate noAuth noQuiet good (.inr (.inr own)) notAuth rfl rfl rfl n b r₀ _) ?_)
  exact does_get fun q m _ => does_bind (does_ask open_ good₂ rfl d _) (does_pure ..)

/-! ## RAW (R262) -/

/-- The body of a RAW (R276). -/
def rawRecs (r : Reply) : List Word := [(statusWords r).1, (statusWords r).2] ++ packWords r.data

theorem does_runRaw {j : Job} (ok : r.outcome = .ok) (n b : Nat) (r₀ : Reply) :
    does a (if j.kind = .stp then begins a n r₀ [.num b, .reply r] else [.num b, .reply r]) (stands m₀ t {}) (runRaw j) () []
      (stands m₀ (if j.proto = 0 then t else risen t (0x7090, 0x0A)) { recs := rawRecs r }) := by
  have counted : does a [] (stands m₀ t {}) (onDev fun m => countIf (j.proto != 0) m 0x7090 0x0A) () []
      (stands m₀ (if j.proto = 0 then t else risen t (0x7090, 0x0A)) {}) := by
    by_cases stp : j.proto = 0
    · simp only [stp, bne_self_eq_false, if_true]
      exact does_onDev_last fun q m s => s
    · simp only [bne_iff_ne.mpr stp, stp, if_false]
      exact does_count_work (y := (0x7090, 0x0A)) (by decide)
  have exchange : does a [.num b, .reply r] (stands m₀ t {})
      (do
        let a ← get
        let s := if j.kind = .stp then none else (a.m.ports[j.port]).session
        let open_ ← askDev fun m => bitN (j.kind != .stp && (m.ports[j.port]).session.isSome)
        let r ← xchg (rawFrame a j (s.map Session.link))
        onDev fun m => countIf (j.proto != 0) m 0x7090 0x0A
        let w := statusWords r
        onProg fun p => { p with recs := [w.1, w.2] ++ packWords r.data }
        if r.outcome != .ok then endBy (if open_ = 1 then 4 else 1) r) () []
      (stands m₀ (if j.proto = 0 then t else risen t (0x7090, 0x0A)) { recs := rawRecs r }) := by
    refine does_get fun q m _ => does_bind (does_askDev _ b) (does_bind (does_xchg _ r open_) (does_bind counted ?_))
    refine does_bind (does_note fun q known => ?_) (does_if_false (by simp [ok]) (does_pure ..))
    exact congrArg (fun p : Progress => { p with recs := rawRecs r }) known
  unfold runRaw
  by_cases stp : j.kind = .stp
  · rw [if_pos stp]
    exact does_if_true stp (does_bind (does_beginStp open_ rfl n r₀) exchange)
  · rw [if_neg stp]
    exact does_if_false stp exchange

/-! ## AUTH (R245) -/

omit open_ in
/-- The key of a slot that is not diversified (R246). -/
theorem does_fobKey {slot : Nat} {key : BitVec 128} {log : List AirEv} (own : a.keys[finOf 8 slot] = some key)
    (plain : bitAt (a.setting 0x2500 0x18) slot = false) :
    does a (.num key.toNat :: log) (stands m₀ t x) (fobKey slot) key log (stands m₀ t x) := by
  have whole : BitVec.ofNat 128 key.toNat = key := by simp
  unfold fobKey
  refine does_get fun q m _ => ?_
  have keys : (a.at_ (.num key.toNat :: log) q m).keys[finOf 8 slot] = some key := own
  dsimp only
  rw [keys]
  refine does_bind (does_askDev _ key.toNat) (does_bind (does_cfgA_start rfl) ?_)
  rw [whole]
  exact does_if_false (by simp [plain]) (does_pure ..)

theorem does_askAuth {n : Nat} (good : goodReply r n) (rate : x.rate = 0) (d : Nat) (c : Nat → StpCmd) :
    does a (.num d :: .reply r :: rest) (stands m₀ t x) (askAuth n c) r rest (stands m₀ t x) := by
  have long := does_needLength (a := a) (m₀ := m₀) (t := t) (x := x) (log := rest) good
  obtain ⟨ok, rcode, -⟩ := good
  unfold askAuth
  refine does_bind (does_cmd open_ rate d c) ?_
  dsimp only
  refine does_if_false (by simp [rcode, rcodeStatus]) ?_
  exact does_if_false (by simp [ok]) (does_if_false (by simp [rcode]) (does_bind long (does_pure ..)))

omit open_ in
/-- The bytes of a number drawn are those of its low 128 bits (R6). -/
theorem leBytes_drawn (n : Nat) : leBytes 8 (BitVec.ofNat 128 n).toNat = leBytes 8 n := by
  unfold leBytes
  refine List.map_congr_left fun i inside => BitVec.eq_of_toNat_eq ?_
  have low : i < 8 := List.mem_range.mp inside
  simp only [byte, BitVec.toNat_ofNat]
  interval_cases i <;> omega

/-- A fob that shows that it holds the key is authenticated (R245). -/
theorem does_authenticate {slot key : Nat} {k : BitVec 128} {r₂ r₃ : Reply} (own : a.keys[finOf 8 slot] = some k)
    (plain : bitAt (a.setting 0x2500 0x18) slot = false) (ra d d₂ : Nat) (good₂ : goodReply r₂ 17)
    (shown : (aes128Inv k ((r₂.data.drop 1).take 16)).take 8 = leBytes 8 ra) (good₃ : goodReply r₃ 1) (rate : x.rate = 0) :
    does a [.num k.toNat, .num ra, .num d, .reply r₂, .num d₂, .reply r₃] (stands m₀ t x) (authenticate slot key) () []
      (stands m₀ (risen t (0x7080, 0x0A)) x) := by
  unfold authenticate
  refine does_bind (does_fobKey own plain) (does_bind (does_drawA ra) (does_bind (does_askAuth open_ good₂ rate d _) ?_))
  dsimp only
  refine does_if_false (by rw [leBytes_drawn, shown]; simp) (does_bind (does_askAuth open_ good₃ rate d₂ _) ?_)
  exact does_count_work (y := (0x7080, 0x0A)) (by decide)

theorem does_runAuth {j : Job} {k : BitVec 128} {r₂ r₃ : Reply} (noNegotiate : j.noNegotiate = true) (noQuiet : j.quietAfter = false)
    (op : j.opcode = 6) (good : goodReply r 12) (own : j.uid = 0 ∨ j.uid = replyUid r)
    (held : a.keys[finOf 8 (field j.w5.toNat 0 3)] = some k) (plain : bitAt (a.setting 0x2500 0x18) (field j.w5.toNat 0 3) = false)
    (ra n b d d₂ : Nat) (r₀ : Reply) (good₂ : goodReply r₂ 17) (shown : (aes128Inv k ((r₂.data.drop 1).take 16)).take 8 = leBytes 8 ra)
    (good₃ : goodReply r₃ 1) :
    does a (begins a n r₀ [.reply r, .num b, .num k.toNat, .num ra, .num d, .reply r₂, .num d₂, .reply r₃]) (stands m₀ t {}) (runAuth j) () []
      (stands m₀ (risen t (0x7080, 0x0A)) (acquiredBy {} r)) :=
  does_startStp_then open_ noNegotiate noQuiet good (.inr own) rfl rfl rfl n b r₀ true
    (does_if_true (by simp [op]) (does_authenticate open_ held plain ra d d₂ good₂ shown good₃ rfl))

/-! ## WRITE (R242) -/

/-- A COMMIT that is acknowledged at once. -/
theorem does_commit1 {uid token tries : Nat} {last : Reply} (good : goodReply r 4) (some_ : tries ≠ 0) :
    does a (.reply r :: rest) (stands m₀ t x) (commit1 uid token true tries last) (.done (r.at_ 3) (bitAt (r.at_ 2) 0)) rest (stands m₀ t x) := by
  obtain ⟨ok, rcode, long⟩ := good
  obtain ⟨more, rfl⟩ : ∃ more, tries = more + 1 := ⟨tries - 1, by omega⟩
  unfold commit1
  refine does_get fun q m _ => does_bind (does_softly (does_stpX (a := a.soften) open_ _ _)) ?_
  dsimp only [Option.getD_some]
  rw [ok]
  dsimp only
  exact does_if_true (by simp [rcode, long]) (does_pure ..)

omit open_ in
/-- An acknowledged write that is not read back. -/
theorem does_verified {rec_ gen : Nat} {data : List Byte} {rep : Bool} (noReadBack : a.setting 0x2500 0x08 ≠ 1) :
    does a [] (stands m₀ t x) (verified rec_ data gen rep) (0, 0, gen, rep) [] (stands m₀ (risen t (0x7080, 0x04)) x) := by
  unfold verified
  refine does_bind (does_cfgA_start rfl) (does_if_false (by simpa using noReadBack) ?_)
  exact does_bind (does_count_work (y := (0x7080, 0x04)) (by decide)) (does_pure ..)

/-- The write of a record whose ARM and first COMMIT are answered (R242). -/
theorem does_writeRecord {rec_ tries d : Nat} {data : List Byte} {last : Nat × Nat} {r₃ : Reply} (some_ : tries ≠ 0)
    (good : goodReply r 4) (margin : a.setting 0x2500 0x06 ≤ r.at_ 1) (commits : a.setting 0x2500 0x07 ≠ 0) (good₃ : goodReply r₃ 4)
    (noReadBack : a.setting 0x2500 0x08 ≠ 1) (rate : x.rate = 0) :
    does a [.num d, .reply r, .reply r₃] (stands m₀ t x) (writeRecord rec_ data tries last) (0, 0, r₃.at_ 3, bitAt (r₃.at_ 2) 0) []
      (stands m₀ (risen t (0x7080, 0x04)) { x with margin := r.at_ 1 }) := by
  obtain ⟨ok, rcode, long⟩ := good
  obtain ⟨more, rfl⟩ : ∃ more, tries = more + 1 := ⟨tries - 1, by omega⟩
  unfold writeRecord
  refine does_get fun q m _ => does_bind (does_cmd open_ rate d _) ?_
  dsimp only
  refine does_if_false (by simp [ok, rcode, long]) (does_if_false (by simp [rcode]) ?_)
  refine does_bind (does_note (y := { x with margin := r.at_ 1 }) fun q known => ?_) (does_bind (does_cfgA_start rfl) ?_)
  · rw [← known]
    rfl
  · refine does_if_false (by simpa using margin) (does_bind (does_cfgA_start rfl) (does_bind (does_commit1 open_ good₃ commits) ?_))
    exact does_verified noReadBack

/-- The word of a record written (R276). -/
def writtenWord (rec_ : Nat) (r : Reply) : Word :=
  word (place 0 8 rec_ + place 8 8 0 + place 16 8 (r.at_ 3) + place 24 1 (bitN (bitAt (r.at_ 2) 0)))

omit open_ in
/-- One record of a WRITE is written and kept (R276). -/
theorem does_attempt {rec_ gen : Nat} {rep : Bool} {log : List AirEv} {u : Nat × Nat → Nat} {p : AirM WriteEnd}
    (written : does a log (stands m₀ t x) p (0, 0, gen, rep) [] (stands m₀ u y)) :
    does a log (stands m₀ t x) (attempt rec_ p) () []
      (stands m₀ u { y with writes := y.writes ++ [word (place 0 8 rec_ + place 8 8 0 + place 16 8 gen + place 24 1 (bitN rep))] }) := by
  unfold attempt
  refine does_bind (does_tryCatch written) (does_bind (does_note fun q known => ?_) (does_if_false (by simp) (does_pure ..)))
  rw [← known]
  rfl

theorem does_runWrite {j : Job} {r₂ r₃ : Reply} (noNegotiate : j.noNegotiate = true) (noAuth : j.authFirst = false) (noQuiet : j.quietAfter = false)
    (good : goodReply r 12) (own : j.uid = 0 ∨ j.uid = replyUid r) (notAuth : j.opcode ≠ 6) (one : j.byteB = 1)
    (tries : a.setting 0x2500 0x05 ≠ 0) (good₂ : goodReply r₂ 4) (margin : a.setting 0x2500 0x06 ≤ r₂.at_ 1)
    (commits : a.setting 0x2500 0x07 ≠ 0) (good₃ : goodReply r₃ 4) (noReadBack : a.setting 0x2500 0x08 ≠ 1) (n b d : Nat) (r₀ : Reply) :
    does a (begins a n r₀ [.reply r, .num b, .num d, .reply r₂, .reply r₃]) (stands m₀ t {}) (runWrite j) () []
      (stands m₀ (risen t (0x7080, 0x04)) { acquiredBy {} r with margin := r₂.at_ 1, writes := [writtenWord j.byteA r₃] }) := by
  unfold runWrite
  refine does_bind (does_startStp open_ noNegotiate noAuth noQuiet good (.inr own) notAuth rfl rfl rfl n b r₀ true) (does_get fun q m s => ?_)
  have none : (a.at_ [.num d, .reply r₂, .reply r₃] q m).prog.writes = [] := by
    have known : q.known.writes = (acquiredBy {} r).writes := by rw [s.known]
    exact known
  have record : (List.range j.byteB).drop (a.at_ [.num d, .reply r₂, .reply r₃] q m).prog.writes.length = [0] := by
    rw [none, one]
    rfl
  dsimp only
  rw [record]
  unfold writeAll
  have written := does_attempt (rec_ := j.byteA + 0) (does_writeRecord (m₀ := m₀) (t := t) (x := acquiredBy {} r) (rec_ := j.byteA + 0) (d := d)
    (data := wordsBytes ((j.payload.drop (4 * 0)).take 4)) (last := (4, 0)) open_ tries good₂ margin commits good₃ noReadBack rfl)
  exact does_bind (does_bind (does_cfgA_start rfl) (does_bind written (does_pure ..))) (does_quietFob noQuiet)

/-! ## SEEK (R233) -/

/-- The record of a fob found in a slot (R276). -/
def foundFob (slot r : Reply) : List Word := fobRecord (replyUid r) (r.at_ 9) slot.rssi (r.at_ 11) slot.bind false

/-- The fob that answers in a slot is selected. -/
theorem does_selectFob {slot : Reply} (heard : goodReply slot 3) (good : goodReply r 12) :
    does a (.reply r :: rest) (stands m₀ t x) (selectFob slot) (some (foundFob slot r)) rest (stands m₀ t x) := by
  obtain ⟨-, rcode, long⟩ := heard
  obtain ⟨ok, rcode', long'⟩ := good
  unfold selectFob
  refine does_if_false (by simp [rcode, long]) (does_bind (does_stpX open_ _ _) (does_if_false (by simp [ok, rcode', long']) ?_))
  refine does_get fun q m _ => does_bind (does_onDev fun q m s => ?_) (does_bind (does_note fun q known => known) (does_pure ..))
  exact ⟨turnKept_trans s.kept (turnKept_modPort ..), s.tally, s.known⟩

/-- The one slot of a round at `Q` 0: its fob is found, whether or not it ends the round. -/
theorem does_seekSlots {slot : Reply} {stop : List (List Word) → List Word → Bool} (heard : goodReply slot 3) (alone : slot.captured = false)
    (good : goodReply r 12) (none : x.fobs = []) :
    does a (.reply slot :: .reply r :: rest) (stands m₀ t x) (seekSlots false stop 0 false false 1 0 false)
      (true, stop [foundFob slot r] (foundFob slot r)) rest (stands m₀ t { x with fobs := [foundFob slot r] }) := by
  have found (q : Progress) (known : q.known = x) : q.fobs = [] := by
    rw [← none, ← known]
    rfl
  unfold seekSlots
  refine does_bind (does_stpX open_ _ _) (does_if_true heard.1 ?_)
  refine does_bind (does_note (y := x) fun q known => ?_) (does_bind (does_selectFob open_ heard good) ?_)
  · rw [← known, alone]
    rfl
  refine does_bind (does_count _ 0x7080 0x02 (by decide))
    (does_bind (does_note (y := { x with fobs := [foundFob slot r] }) fun q known => ?_) (does_if_false Bool.false_ne_true (does_get fun q m s => ?_)))
  · rw [found q known, ← known]
    rfl
  have now : (a.at_ rest q m).prog.fobs = [foundFob slot r] := by
    have known : q.known.fobs = [foundFob slot r] := by rw [s.known]
    exact known
  rw [now]
  cases ends : stop [foundFob slot r] (foundFob slot r) with
  | true => exact does_if_true rfl (does_pure ..)
  | false =>
    unfold seekSlots
    exact does_if_false Bool.false_ne_true (does_pure ..)

/-- A round at `Q` 0 whose slot finds a fob. -/
theorem does_seekRound {slot : Reply} {stop : List (List Word) → List Word → Bool} (heard : goodReply slot 3) (alone : slot.captured = false)
    (good : goodReply r 12) : does a (.reply slot :: .reply r :: rest) (stands m₀ t {}) (seekRound false stop 0 false false)
      (true, stop [foundFob slot r] (foundFob slot r)) rest (stands m₀ t { fobs := [foundFob slot r] }) := by
  unfold seekRound
  refine does_bind (does_note (y := { inRound := true }) fun q known => ?_) (does_bind (does_seekSlots open_ heard alone good rfl) ?_)
  · exact congrArg (fun p : Progress => { p with inRound := true, coll := 0 }) known
  refine does_bind (does_note (y := { fobs := [foundFob slot r] }) fun q known => ?_) (does_bind (does_onDev fun q m s => ?_) (does_pure ..))
  · exact congrArg (fun p : Progress => { p with inRound := false }) known
  · exact stands_count s 0x7080 0x01 (by decide)

/-- A first round without collision is the only one. -/
theorem does_seekRounds {slot : Reply} {stop : List (List Word) → List Word → Bool} {rounds : Nat} (some_ : rounds ≠ 0)
    (heard : goodReply slot 3) (alone : slot.captured = false) (good : goodReply r 12) :
    does a (.reply slot :: .reply r :: rest) (stands m₀ t {}) (seekRounds false stop rounds) () rest (stands m₀ t { fobs := [foundFob slot r] }) := by
  obtain ⟨more, rfl⟩ : ∃ more, rounds = more + 1 := ⟨rounds - 1, by omega⟩
  unfold seekRounds
  refine does_get fun q m s => ?_
  have seekQ : (a.at_ (.reply slot :: .reply r :: rest) q m).prog.seekQ = 0 := by
    have known : q.known.seekQ = 0 := by rw [s.known]
    exact known
  have round : (a.at_ (.reply slot :: .reply r :: rest) q m).prog.round = 0 := by
    have known : q.known.round = 0 := by rw [s.known]
    exact known
  dsimp only
  rw [seekQ, round]
  refine does_bind (does_seekRound open_ heard alone good) (does_if_false (by simp) ?_)
  refine does_bind (does_pure ..) (does_if_false (by decide) (does_bind (does_pure ..) (does_get fun q m s => ?_)))
  have coll : (a.at_ rest q m).prog.coll = 0 := by
    have known : q.known.coll = 0 := by rw [s.known]
    exact known
  exact does_if_true (by simp [coll]) (does_pure ..)

/-- SEEK with one slot, in which one fob answers (R233, R281). -/
theorem does_runSeek {j : Job} {slot : Reply} (noQuiet : j.quietAfter = false) (oneSlot : j.byteA = 0) (rounds : a.setting 0x2500 0x02 ≠ 0)
    (heard : goodReply slot 3) (alone : slot.captured = false) (good : goodReply r 12) (n : Nat) (r₀ : Reply) :
    does a (begins a n r₀ [.reply slot, .reply r]) (stands m₀ t {}) (runSeek j) () [] (stands m₀ t { fobs := [foundFob slot r] }) := by
  have noGap : does a [.reply slot, .reply r] (stands m₀ t {}) gapRound () [.reply slot, .reply r] (stands m₀ t {}) := by
    unfold gapRound
    refine does_get fun q m s => does_if_false ?_ (does_pure ..)
    have known : q.known.inRound = false := by rw [s.known]
    have out : q.inRound = false := known
    simp [Air.at_, out]
  unfold runSeek
  refine does_bind (does_beginStp open_ rfl n r₀) (does_bind noGap (does_bind (does_cfgA_start rfl) (does_get fun q m s => ?_)))
  have round : (a.at_ [.reply slot, .reply r] q m).prog.round = 0 := by
    have known : q.known.round = 0 := by rw [s.known]
    exact known
  have fobs : (a.at_ [.reply slot, .reply r] q m).prog.fobs = [] := by
    have known : q.known.fobs = [] := by rw [s.known]
    exact known
  dsimp only
  rw [round, fobs, oneSlot]
  refine does_if_true rfl (does_bind (does_note (y := {}) fun q known => ?_) (does_if_true (by simp [Classical.em]) ?_))
  · exact congrArg (fun p : Progress => { p with seekQ := 0 }) known
  · exact does_bind (does_cfgA_start rfl) (does_bind (does_seekRounds open_ rounds heard alone good) (does_if_false (by simp [noQuiet]) (does_pure ..)))

end Rules

end Sys2Proof.Machine
end

section
/-!
Proofs of the statement on STP stitches whose exchanges all succeed (R273, R276, R281).
-/

namespace Sys2Proof.Machine

section Stitches

variable {s : State} {e : Fin 24} {c : Fin 2} {j : Job} {k : Fin 16} {log : List AirEv} {r : Reply}

/-- The run of a stitch of the state, to its end. -/
def runAir (s : State) (e : Fin 24) (c : Fin 2) (j : Job) (k : Fin 16) : Air :=
  stitchAir s.m j k s.keys.fobKeys (ctxOf s.m e c).sc []

/-- A stitch whose run comes to its end on what it has met files its result, with the body of its operation (R274, R276). -/
theorem answers_stitch {op : Nat} {prog : Job → AirM Unit} {x : Progress} {t : Nat × Nat → Nat} {i : Instr}
    (command : exec i s = stitchCmd e c false op prog s) (reads : stitchReads s.m e c j k log r) (code : j.opcode = op)
    (origin : j.origin.val = laceDev s.m)
    (run : does (runAir s e c j k) (log ++ [.reply r]) (stands s.m (fun y => counter s.m y.1 y.2) {}) (prog j) () [] (stands s.m t x))
    (room : roomFor s.m j.rqueue (4 + (x.okBody op).length)) :
    answers i s fun u => resultOf s u e c j k 0 0 false (x.okBody op) ∧ (∀ y ∈ workCounters, counter u.m y.1 y.2 = t y) ∧ readerOnly s.m u.m := by
  obtain ⟨q, m, ran, ends⟩ := run.run {} s.m ⟨turnKept_refl _, fun _ _ => rfl, rfl⟩
  have body : q.okBody j.opcode = x.okBody op := by
    rw [code, ← ends.known]
    rfl
  have start : stitchAir s.m j k s.keys.fobKeys { (ctxOf s.m e c).sc with inbox := none } ((ctxOf s.m e c).sc.log ++ [.reply r]) =
      (runAir s e c j k).at_ (log ++ [.reply r]) {} s.m := by
    rw [runAir, stitchAir, stitchAir, Air.at_, reads.base, reads.met]
  obtain ⟨sc, prog', ended⟩ : ∃ sc : Script, sc.prog = q ∧
      turn (stitchTurn s.m e c j k s.keys.fobKeys) (prog j) 3 s.m { (ctxOf s.m e c).sc with inbox := none } [.reply r] = (m, sc, .ended 0 0) :=
    ⟨_, rfl, turn_ok (a := (runAir s e c j k).at_ [] q m) (by rw [start]; exact ran)⟩
  have asked : ((ctxOf s.m e c).job.map (·.opcode)) = some op := by rw [reads.job, Option.map_some, code]
  have out : exec i s = .next { s with m := finishStitch (turnEnd ((runAir s e c j k).at_ [] q m) e c sc) e c 0 0 } := by
    rw [command, stitchCmd, if_pos asked, serve_reads reads, ended]
    rfl
  rw [← body, ← prog'] at room
  obtain ⟨filed, reader⟩ := turnEnd_files (a := (runAir s e c j k).at_ [] q m) ends.kept reads.job reads.core reads.started origin
    (by rw [code] at room ⊢; exact room)
  refine ⟨_, out, ⟨?_, filed.idle, mainOnly_m ..⟩, fun y mem => (filed.counts y mem).trans (ends.tally y mem), reader⟩
  rw [← body, ← prog']
  exact delivered_of_filed filed.filed

theorem begins_runAir (a : Nat) (r₀ : Reply) (l l' : List AirEv) :
    begun (ctxOf s.m e c).sc j.port a r₀ ++ l ++ l' = begins (runAir s e c j k) a r₀ (l ++ l') := by
  simp only [begun, begins, List.cons_append, List.append_assoc]
  rfl

/-- The same for a run of an STP stitch, which begins on its field (R217, R281). -/
theorem answers_begun {op a : Nat} {prog : Job → AirM Unit} {x : Progress} {t : Nat × Nat → Nat} {i : Instr} {r₀ : Reply} {l : List AirEv}
    (command : exec i s = stitchCmd e c false op prog s) (reads : stitchReads s.m e c j k (begun (ctxOf s.m e c).sc j.port a r₀ ++ l) r)
    (code : j.opcode = op) (origin : j.origin.val = laceDev s.m)
    (run : does (runAir s e c j k) (begins (runAir s e c j k) a r₀ (l ++ [.reply r])) (stands s.m (fun y => counter s.m y.1 y.2) {}) (prog j) () []
      (stands s.m t x)) (room : roomFor s.m j.rqueue (4 + (x.okBody op).length)) :
    answers i s fun u => resultOf s u e c j k 0 0 false (x.okBody op) ∧ (∀ y ∈ workCounters, counter u.m y.1 y.2 = t y) ∧ readerOnly s.m u.m :=
  answers_stitch command reads code origin (by rw [begins_runAir]; exact run) room

/-! ## Bodies (R276) -/

theorem okBody_read (op : Nat) (mine : op = 1 ∨ op = 2) (r : Reply) (ws : List Word) :
    ({ acquiredBy {} r with recs := ws } : Progress).okBody op = fobRecord (replyUid r) (r.at_ 11) r.rssi 0xFF r.bind false ++ ws := by
  rcases mine with rfl | rfl <;> rfl

theorem fobRecord_length (uid caps rssi margin bind : Nat) (notQuiet : Bool) : (fobRecord uid caps rssi margin bind notQuiet).length = 3 := rfl

/-- The word of a record written, its bits added up. -/
theorem writtenWord_eq {j : Job} (r : Reply) : writtenWord j.byteA r =
    BitVec.ofNat 32 (j.byteA % 2 ^ 8 + r.at_ 3 % 2 ^ 8 * 2 ^ 16 + if bitAt (r.at_ 2) 0 then 2 ^ 24 else 0) := by
  unfold writtenWord word
  congr 1
  simp only [place, bitN]
  split <;> omega

end Stitches

/-- Settles O30: each stitch by the rule of its run, which ends with the body of its operation. -/
theorem stpStitches : Obligations.StpStitches := by
  rintro s e c j k a b d r₀ ⟨origin, noNegotiate, noAuth, noQuiet⟩
  have open_ : (runAir s e c j k).shut = false := rfl
  refine ⟨?seek, ?singleRead, ?read, ?write, ?quiet, ?releaseAll, ?releaseUid, ?auth, ?raw⟩
  case seek =>
    intro r₁ r₂ op oneSlot reads rounds heard alone good room
    exact answers_mono (answers_begun rfl reads op origin (does_runSeek open_ noQuiet oneSlot rounds heard alone good a r₀) room)
      fun t ⟨result, _, reader⟩ => ⟨result, reader⟩
  case singleRead =>
    intro r₁ r₂ op reads some_ good fits good₂ room
    have run := does_runRead (m₀ := s.m) (t := fun y => counter s.m y.1 y.2) open_ noNegotiate noAuth noQuiet good (.inl op) (by omega) some_ fits
      good₂ a b d r₀
    refine answers_mono (answers_begun (i := .stitchSingleRead e c false) rfl reads op origin run ?_) fun t ⟨result, _, reader⟩ => ⟨?_, reader⟩
    · rw [okBody_read 1 (.inl rfl), List.length_append, fobRecord_length, ← Nat.add_assoc]
      exact room
    · rwa [okBody_read 1 (.inl rfl)] at result
  case read =>
    intro r₁ r₂ op reads some_ good own fits good₂ room
    have run := does_runRead (m₀ := s.m) (t := fun y => counter s.m y.1 y.2) open_ noNegotiate noAuth noQuiet good (.inr own) (by omega) some_ fits
      good₂ a b d r₀
    refine answers_mono (answers_begun (i := .stitchRead e c false) rfl reads op origin run ?_) fun t ⟨result, _, reader⟩ => ⟨?_, reader⟩
    · rw [okBody_read 2 (.inr rfl), List.length_append, fobRecord_length, ← Nat.add_assoc]
      exact room
    · rwa [okBody_read 2 (.inr rfl)] at result
  case write =>
    intro r₁ r₂ r₃ op one reads tries commits noReadBack good own good₂ margin good₃ chain room
    have run := does_runWrite (m₀ := s.m) (t := fun y => counter s.m y.1 y.2) open_ noNegotiate noAuth noQuiet good own (by omega) one tries good₂
      margin commits good₃ noReadBack a b d r₀
    refine answers_mono (answers_begun rfl reads op origin run room) fun t ⟨result, tally, reader⟩ => ⟨?_, tally (0x7080, 0x04) (by decide), reader⟩
    rw [← writtenWord_eq]
    exact result
  case quiet =>
    intro r₁ r₂ op reads good own good₂ room
    have run := does_runQuiet (m₀ := s.m) (t := fun y => counter s.m y.1 y.2) open_ noNegotiate noAuth noQuiet good own (by omega) good₂ a b d r₀
    exact answers_mono (answers_begun rfl reads op origin run room) fun t ⟨result, _, reader⟩ => ⟨result, reader⟩
  case releaseAll =>
    intro r op reads all room
    rw [← List.append_nil (begun ..)] at reads
    exact answers_mono (answers_begun rfl reads op origin (does_runRelease_all open_ all a r₀) room)
      fun t ⟨result, _, reader⟩ => ⟨result, reader⟩
  case releaseUid =>
    intro r₁ r₂ op reads one good own good₂ room
    have run := does_runRelease_uid (m₀ := s.m) (t := fun y => counter s.m y.1 y.2) open_ noNegotiate noAuth noQuiet good one own (by omega) good₂
      a b d r₀
    exact answers_mono (answers_begun rfl reads op origin run room) fun t ⟨result, _, reader⟩ => ⟨result, reader⟩
  case auth =>
    intro r₁ r₂ r₃ key d₂ ra op reads good own held plain good₂ shown good₃ room
    have run := does_runAuth (m₀ := s.m) (t := fun y => counter s.m y.1 y.2) open_ noNegotiate noQuiet op good own held plain ra a b d d₂ r₀ good₂
      shown good₃
    exact answers_mono (answers_begun rfl reads op origin run room)
      fun t ⟨result, tally, reader⟩ => ⟨result, tally (0x7080, 0x0A) (by decide), reader⟩
  case raw =>
    intro r op reads ok room
    have run := does_runRaw (j := j) (m₀ := s.m) (t := fun y => counter s.m y.1 y.2) open_ ok a b r₀
    have met : (if j.kind = .stp then begun (ctxOf s.m e c).sc j.port a r₀ ++ [.num b] else [.num b]) ++ [.reply r] =
        if j.kind = .stp then begins (runAir s e c j k) a r₀ [.num b, .reply r] else [.num b, .reply r] := by
      split
      · exact begins_runAir a r₀ [.num b] [.reply r]
      · rfl
    rw [← met] at run
    refine answers_mono (answers_stitch rfl reads op origin run ?_) fun t ⟨result, tally, reader⟩ => ⟨result, ?_, reader⟩
    · have words : (4 + (({ recs := rawRecs r } : Progress).okBody 13).length) = 6 + (packWords r.data).length := by
        have body : ({ recs := rawRecs r } : Progress).okBody 13 = rawRecs r := rfl
        rw [body, rawRecs, List.length_append]
        simp only [List.length_cons, List.length_nil]
        omega
      rw [words]
      exact room
    · rw [tally (0x7090, 0x0A) (by decide)]
      split <;> rfl

end Sys2Proof.Machine
end

section
/-!
The report of a visit (R305, R308): the statement on the passes of the survey fails where another lane waits for a field on the port of the visit,
and the port stands faulted.
-/

namespace Sys2Proof.Machine

/-- The field of a visit of port 0 by lane 0. -/
def visitField : FieldRec := { owner := .lane 0, port := 0, level := 40, cls := 1, closed := true, at95 := true }

/-- In SURVEY the visit of port 0 by lane 0 has ended with one fob, and its field is ordered off. Lane 15, the alternate core of the port, has the
same port to visit and waits for a field there; the port is faulted. -/
def faultedVisit : State :=
  { m := { modLane (modLane (modPort (modCore (modPw {} fun p => { p with mode := .survey, ctlOn := true, fwRunning := true })
        0 fun c => { c with fld := some visitField, pendOff := true })
        0 fun x => { x with state := 2 })
        0 fun l => { l with ended := some (0, 0), sc := { prog := { acquired := true } } })
        15 fun l => { l with todo := [0] } with
      sch := { reqs := [{ owner := .lane 15, port := 0, cls := 1, made := 0 }] } } }

/-- Nothing stands in the way of the field's end: its core is in a gap, and no coupled port exchanges frames. -/
theorem faultedVisit_open : ∃ v, fieldView faultedVisit.m 0 = some v ∧ (faultedVisit.m.cores[(0 : Fin 16)]).busy = false ∧
    changeBlocked faultedVisit.m v = false :=
  ⟨(fieldView faultedVisit.m 0).get (by decide +kernel), by decide +kernel, by decide +kernel, by decide +kernel⟩

/-- The report of the visit is overtaken. With the field off the requests are evaluated (R126); that of lane 15 is refused for the faulted port,
which the lane then reports with `PORT_FAULT`. -/
theorem faultedVisit_reported : ((tryOff faultedVisit.m 0).ports[(0 : Fin 128)]).svStatus = 8 := by
  decide +kernel

/-- Refutes O33: the clause on the report of a visit promises the status `OK` on its port, and asks nothing of the requests that wait. Those are
evaluated as soon as the field is off, so that a second lane waiting for the same port, which is faulted, leaves `PORT_FAULT` there. A pass gives
each port to one lane (R300), so that no run of the device leads to this state; the statement is about every state. -/
theorem not_surveyPasses : ¬ Obligations.SurveyPasses := by
  rintro ⟨-, -, -, -, -, -, reported, -⟩
  obtain ⟨v, view, gap, free⟩ := faultedVisit_open
  obtain ⟨t, run, -, status, -⟩ := reported faultedVisit 0 0 visitField v (by decide +kernel) (by decide +kernel) rfl view (.inr ⟨gap, free⟩)
    (by decide +kernel) (by decide +kernel) (by decide +kernel) (by decide +kernel) (by decide +kernel)
  have result : { faultedVisit with m := tryOff faultedVisit.m 0 } = t := Host.Outcome.next.inj run
  rw [← result] at status
  exact absurd (faultedVisit_reported.symm.trans status) (by decide)

end Sys2Proof.Machine
end

section
/-!
Proofs of the statement on the watch sequencer (R312–R318): the start of a sweep by the tests in their order, a probe by what its step makes
of it, the end of a sweep over one port by how the port is judged and what the sweep leaves of it.
-/

namespace Sys2Proof.Machine

/-! ## The start of a sweep (R312, R318) -/

theorem sweepStart_inactive {m : Main} (inactive : m.wt.active = false) : sweepStart m = m := by
  simp [sweepStart, inactive]

theorem sweepStart_late {m : Main} (active : m.wt.active = true) (sweeping : m.wt.sweeping = true) :
    sweepStart m = { count m 0x70B0 0x08 with wt := { m.wt with late := true } } := by
  simp [sweepStart, active, sweeping]

theorem sweepStart_dark {m : Main} (active : m.wt.active = true) (idle : m.wt.sweeping = false)
    (low : m.pw.vtxLow = true ∨ m.pw.vtxHold = true) : sweepStart m = sweepDark m := by
  have dark : (m.pw.vtxLow || m.pw.vtxHold) = true := by rwa [Bool.or_eq_true]
  simp [sweepStart, active, idle, dark]

theorem sweepStart_runs {m : Main} (active : m.wt.active = true) (idle : m.wt.sweeping = false) (vtx : m.pw.vtxLow = false)
    (released : m.pw.vtxHold = false) : sweepStart m = { m with wt := { m.wt with sweeping := true, repeats := 0 } } := by
  simp [sweepStart, active, idle, vtx, released]

/-! ## Latched ports and events (R318) -/

/-- The watch sequencer with one more port latched (R318, R319). -/
def latchedWatch (m : Main) (l : Latched) : Watch :=
  { m.wt with
    latched := m.wt.latched ++ [l]
    firstTick := if !l.fault && !(m.wt.latched.any fun x => !x.fault) then (m.now - m.wt.entered) * 32768 / tickS % 2 ^ 32 else m.wt.firstTick }

theorem latchPort_new {m : Main} {l : Latched} (fresh : ∀ x ∈ m.wt.latched, x.port ≠ l.port) :
    latchPort m l = { m with wt := latchedWatch m l } := by
  have unseen : (m.wt.latched.any fun x => x.port == l.port) = false := by simpa using fresh
  simp only [latchPort, unseen, Bool.false_eq_true, if_false]
  rfl

/-- In WATCH an enabled event begins a boot, and the next record tells of it. -/
theorem watchEvent_wakes {m : Main} (may : mayWake m 4) (watch : m.pw.mode = .watch) (idle : m.pw.booting = false) :
    watchEvent m = { m with wt := { m.wt with woke := true }, pw := wokenPw m 4 } := by
  have woken := wake_boots (m := { m with wt := { m.wt with woke := true } }) (src := 4) ⟨may.sleeps, may.present, may.enabled⟩ idle
  simp only [watchEvent, watch, idle, may.enabled, beq_self_eq_true, Bool.not_false, Bool.and_self, if_true, woken]
  rfl

/-- A wake changes the power state alone. -/
theorem wake_only (m : Main) (src : Nat) : wake m src = { m with pw := (wake m src).pw } := by
  unfold wake
  split
  · rfl
  · dsimp only
    split <;> rfl

/-- An event changes the power state and the record's flag of a wake alone. -/
theorem watchEvent_only (m : Main) :
    watchEvent m = { m with wt := { m.wt with woke := (watchEvent m).wt.woke }, pw := (watchEvent m).pw } := by
  unfold watchEvent
  split
  · rw [wake_only]
  · rfl

/-! ## A probe (R313, R314) -/

/-- The sequencer may probe the port of `x`: the port is not dead, and the plan's copy has room for it now. -/
def probes (m : Main) (x : Probe) (w : WatchPort) : Bool := w.port == x.port && !w.dead && probePlaced m w.port

/-- The port state that a probe shows: 0 where its impedance lies within the port's limits. -/
def probeState (m : Main) (x : Probe) : Nat :=
  zState (cfgN m (0x2200 + x.port.val) 0x09) (cfgN m (0x2200 + x.port.val) 0x08) x.zMag x.zArg

/-- The watch sequencer with the port of a probe updated. -/
def withProbed (m : Main) (x : Probe) (f : WatchPort → WatchPort) : Watch :=
  { m.wt with ports := m.wt.ports.map fun w => if w.port = x.port then f w else w }

theorem takeProbe_unplaced {m : Main} {x : Probe} (unplaced : probePlaced m x.port = false) : takeProbe m x = m := by
  have nothing : m.wt.ports.find? (probes m x) = none := by
    refine List.find?_eq_none.mpr fun w _ taken => ?_
    simp only [probes, Bool.and_eq_true, beq_iff_eq] at taken
    obtain ⟨⟨same, -⟩, placed⟩ := taken
    rw [same, unplaced] at placed
    exact absurd placed (by decide)
  unfold probes at nothing
  simp only [takeProbe, nothing]

theorem takeProbe_good {m : Main} {x : Probe} {w : WatchPort} (found : m.wt.ports.find? (probes m x) = some w) (good : probeState m x = 0)
    (first : m.wt.repeats = 0) : takeProbe m x = { m with wt := withProbed m x fun w => { w with probe := some (x.zMag, x.zArg) } } := by
  unfold probes at found
  unfold probeState at good
  simp only [takeProbe, found, good, bne_self_eq_false, Bool.false_eq_true, if_false]
  exact if_pos first

/-- The main part with the port of a faulty probe dead, and the probe fault counted (R314). -/
def probeFaulted (m : Main) (x : Probe) : Main :=
  count { m with wt := withProbed m x fun w => { w with dead := true } } 0x70B0 0x0B

theorem takeProbe_faulty {m : Main} {x : Probe} {w : WatchPort} (found : m.wt.ports.find? (probes m x) = some w) (bad : probeState m x ≠ 0) :
    takeProbe m x = watchEvent (latchPort (probeFaulted m x) { port := x.port, fault := true, st := probeState m x }) := by
  unfold probes at found
  unfold probeState at bad ⊢
  simp only [takeProbe, found, bne_iff_ne.mpr bad, if_true]
  rfl

/-- A step of one probe of its position is that probe. -/
theorem probeStep_one {m : Main} {x : Probe} {pos : Fin 8} (sweeping : m.wt.sweeping = true) (here : x.port.val % 8 = pos.val) :
    probeStep m pos [x] = takeProbe m x := by
  simp [probeStep, sweeping, here]

theorem probeStep_elsewhere {m : Main} {x : Probe} {pos : Fin 8} (elsewhere : x.port.val % 8 ≠ pos.val ∨ probePlaced m x.port = false) :
    probeStep m pos [x] = m := by
  by_cases sweeping : m.wt.sweeping = true
  · by_cases here : x.port.val % 8 = pos.val
    · rw [probeStep_one sweeping here, takeProbe_unplaced (elsewhere.resolve_left (not_not_intro here))]
    · simp [probeStep, here]
  · simp [probeStep, sweeping]

/-- A faulty probe in WATCH latches its port and wakes the DX8128. -/
theorem answers_probeFault {s : State} {x : Probe} {pos : Fin 8} {w : WatchPort} (sweeping : s.m.wt.sweeping = true)
    (here : x.port.val % 8 = pos.val) (found : s.m.wt.ports.find? (probes s.m x) = some w) (bad : probeState s.m x ≠ 0)
    (fresh : ∀ l ∈ s.m.wt.latched, l.port ≠ x.port) (watch : s.m.pw.mode = .watch) (idle : s.m.pw.booting = false)
    (may : mayWake s.m 4) : answers (.watchProbeStep pos [x]) s fun t =>
      t.m.wt.latched = s.m.wt.latched ++ [⟨x.port, true, 0, 0, probeState s.m x⟩] ∧
      t.m.pw.booting = true ∧ t.m.pw.wakeCause = 4 ∧ t.m.pw.bootTarget = Mode.ofCode (cfgN s.m 0x1100 0x05) ∧
      t = { s with m := { s.m with wt := t.m.wt, pw := t.m.pw, flt := t.m.flt } } := by
  have latched := latchPort_new (m := probeFaulted s.m x) (l := { port := x.port, fault := true, st := probeState s.m x }) fresh
  refine answers_of_onMain (f := fun m => probeStep m pos [x]) rfl ?_
  dsimp only
  rw [probeStep_one sweeping here, takeProbe_faulty found bad, latched,
    watchEvent_wakes (m := { probeFaulted s.m x with wt := _ }) ⟨may.sleeps, may.present, may.enabled⟩ watch idle]
  exact ⟨rfl, rfl, rfl, rfl, rfl⟩

/-! ## What a sweep makes of a port (R315–R317) -/

/-- A port whose probes the sweep has used up. -/
def WatchPort.rested (w : WatchPort) : WatchPort := { w with probe := none, conf := [], exceeds := false }

/-- What is latched of a port that a probe detects (R319). -/
def detectionOf (w : WatchPort) (z : Nat × Int) : Latched :=
  { port := w.port, fault := false, dMag := deltaMag (65536 * z.1) w.baseMag, dPhase := deltaPhase (65536 * z.2) w.baseArg }

section Port

variable {m : Main} {w : WatchPort} {z : Nat × Int} (probe : w.probe = some z) (live : w.dead = false)

include probe

theorem judgePort_settling (settling : w.settled < cfgN m 0x3210 0x08) : judgePort m w = (w, false) := by
  simp [judgePort, probe, settling]

include live

/-- After the first run of a sweep a settled port exceeds by its probe. -/
theorem judgePort_first (settled : cfgN m 0x3210 0x08 ≤ w.settled) (first : m.wt.repeats = 0) :
    judgePort m w = ({ w with exceeds := beyond m w z }, false) := by
  simp [judgePort, probe, live, first, Nat.not_lt.mpr settled]

/-- A port that settles on adds its probe to its sums. -/
theorem finishPort_settling (settling : w.settled + 1 < cfgN m 0x3210 0x08) : finishPort m w =
    (WatchPort.rested { w with settled := w.settled + 1, baseMag := w.baseMag + 65536 * z.1, baseArg := w.baseArg + 65536 * z.2 }, none) := by
  have below : w.settled < cfgN m 0x3210 0x08 := by omega
  have notYet : w.settled + 1 ≠ cfgN m 0x3210 0x08 := by omega
  simp [finishPort, probe, live, below, settlePort, notYet, WatchPort.rested]

/-- A port that exceeds without repeats is detected, and its probe is the new baseline. -/
theorem finishPort_detects (settled : cfgN m 0x3210 0x08 ≤ w.settled) (exceeds : w.exceeds = true) (unrepeated : w.conf = []) :
    finishPort m w = (WatchPort.rested { w with baseMag := 65536 * z.1, baseArg := 65536 * z.2 }, some (detectionOf w z)) := by
  simp [finishPort, probe, live, Nat.not_lt.mpr settled, exceeds, unrepeated, meanProbe, sumN, sumI, WatchPort.rested, detectionOf]

end Port

/-! ## The end of a sweep (R316, R318) -/

/-- The main part with its ports judged, and those counted that failed to confirm. -/
def sweepJudged (m : Main) : Main :=
  let js := m.wt.ports.map (judgePort m)
  let c := countN m 0x70B0 0x0A (js.filter (·.2)).length
  { c with wt := { c.wt with ports := js.map (·.1) } }

/-- Whether a judged sweep is run once more: a port exceeds, and repeats are left. -/
def repeatsSweep (m : Main) : Bool := m.wt.ports.any (·.exceeds) && decide (m.wt.repeats < cfgN m 0x3210 0x06)

/-- The sweep is over, and has left these ports. -/
def sweptTo (m : Main) (ws : List WatchPort) : Main :=
  { m with wt := { m.wt with ports := ws, sweeping := false, repeats := 0, sweeps := sat32 (m.wt.sweeps + 1) } }

/-- A judged sweep ends: the ports that it has detected are counted and latched, which is an event. -/
def sweepOver (m : Main) : Main :=
  let fs := m.wt.ports.map (finishPort m)
  let found := fs.filterMap (·.2)
  let latched := forEach found (countN (sweptTo m (fs.map (·.1))) 0x70B0 0x09 found.length) latchPort
  if found.isEmpty then latched else watchEvent latched

theorem sweepEnd_idle {m : Main} (idle : m.wt.sweeping = false) : sweepEnd m = m := by
  simp [sweepEnd, idle]

/-- A sweep that has run is judged, and is repeated or over. -/
theorem sweepEnd_eq {m : Main} (sweeping : m.wt.sweeping = true) : sweepEnd m =
    if repeatsSweep (sweepJudged m) then
      { sweepJudged m with wt := { (sweepJudged m).wt with repeats := (sweepJudged m).wt.repeats + 1 } }
    else sweepOver (sweepJudged m) := by
  simp only [sweepEnd, sweeping, Bool.not_true, Bool.false_eq_true, if_false]
  rfl

theorem sweepJudged_one {m : Main} {w v : WatchPort} (one : m.wt.ports = [w]) (judged : judgePort m w = (v, false)) :
    sweepJudged m = { m with wt := { m.wt with ports := [v] } } := by
  simp [sweepJudged, one, judged, countN]

theorem repeatsSweep_one (m : Main) (v : WatchPort) : repeatsSweep { m with wt := { m.wt with ports := [v] } } =
    (v.exceeds && decide (m.wt.repeats < cfgN m 0x3210 0x06)) := by
  simp only [repeatsSweep, List.any_cons, List.any_nil, Bool.or_false]
  rfl

/-- A sweep over one port that detects nothing leaves that port. -/
theorem sweepOver_quiet {m : Main} {v u : WatchPort} (finished : finishPort m v = (u, none)) :
    sweepOver { m with wt := { m.wt with ports := [v] } } = sweptTo m [u] := by
  have same : finishPort { m with wt := { m.wt with ports := [v] } } v = (u, none) := finished
  simp [sweepOver, same, countN, sweptTo]

/-- A sweep over one port that detects it counts and latches it, which is an event. -/
theorem sweepOver_detects {m : Main} {v u : WatchPort} {l : Latched} (finished : finishPort m v = (u, some l)) :
    sweepOver { m with wt := { m.wt with ports := [v] } } = watchEvent (latchPort (count (sweptTo m [u]) 0x70B0 0x09) l) := by
  have same : finishPort { m with wt := { m.wt with ports := [v] } } v = (u, some l) := finished
  simp [sweepOver, same]
  rfl

/-- What stands after a detection: the port latched, the sweep over, the detection counted. -/
theorem detection_stands {m : Main} {u : WatchPort} {l : Latched} (fresh : ∀ x ∈ m.wt.latched, x.port ≠ l.port) :
    let t := watchEvent (latchPort (count (sweptTo m [u]) 0x70B0 0x09) l)
    t.wt.latched = m.wt.latched ++ [l] ∧ t.wt.sweeping = false ∧ t.wt.ports = [u] ∧
      counter t 0x70B0 0x09 = sat32 (counter m 0x70B0 0x09 + 1) := by
  have latched := latchPort_new (m := count (sweptTo m [u]) 0x70B0 0x09) fresh
  dsimp only
  rw [latched, watchEvent_only]
  exact ⟨rfl, rfl, rfl, counter_count_same m 0x70B0 0x09⟩

section Sweep

variable {s : State} {w : WatchPort} {z : Nat × Int} (sweeping : s.m.wt.sweeping = true) (one : s.m.wt.ports = [w]) (probe : w.probe = some z)
  (live : w.dead = false)

include sweeping one probe live

/-- A port that settles on takes its probe, and the sweep is over. -/
theorem answers_settling (within : w.exceeds = false) (settling : w.settled + 1 < cfgN s.m 0x3210 0x08) :
    answers .watchSweepEnd s fun t =>
      t.m.wt.ports = [{ w with settled := w.settled + 1, baseMag := w.baseMag + 65536 * z.1, baseArg := w.baseArg + 65536 * z.2,
                               probe := none, conf := [], exceeds := false }] ∧
      t.m.wt.sweeping = false ∧ t.m.wt.sweeps = sat32 (s.m.wt.sweeps + 1) ∧ t.m.wt.latched = s.m.wt.latched ∧ mainOnly s t ∧
      t.m.pw = s.m.pw := by
  refine answers_of_onMain (f := sweepEnd) rfl ?_
  have judged := judgePort_settling (m := s.m) probe (Nat.lt_of_succ_lt settling)
  rw [sweepEnd_eq sweeping, sweepJudged_one one judged, repeatsSweep_one, within, Bool.false_and, if_neg Bool.false_ne_true,
    sweepOver_quiet (finishPort_settling probe live settling)]
  exact ⟨rfl, rfl, rfl, rfl, mainOnly_m .., rfl⟩

variable (settled : cfgN s.m 0x3210 0x08 ≤ w.settled) (first : s.m.wt.repeats = 0)
  (exceeds : probeExceeds s.m w.baseMag w.baseArg (65536 * z.1) (65536 * z.2) = true)

include settled first exceeds

/-- With repeats left a deviation has the sweep run once more. -/
theorem answers_repeat (left : cfgN s.m 0x3210 0x06 ≠ 0) : answers .watchSweepEnd s fun t =>
      t.m.wt.repeats = 1 ∧ t.m.wt.sweeping = true ∧ t.m.wt.ports = [{ w with exceeds := true }] ∧ t.m.wt.sweeps = s.m.wt.sweeps ∧
      mainOnly s t ∧ t.m.pw = s.m.pw := by
  refine answers_of_onMain (f := sweepEnd) rfl ?_
  have judged := judgePort_first (m := s.m) probe live settled first
  have more : (beyond s.m w z && decide (s.m.wt.repeats < cfgN s.m 0x3210 0x06)) = true := by
    rw [first, beyond, exceeds, decide_eq_true (Nat.pos_of_ne_zero left), Bool.and_self]
  rw [sweepEnd_eq sweeping, sweepJudged_one one judged, repeatsSweep_one, if_pos more]
  refine ⟨?_, sweeping, ?_, rfl, mainOnly_m .., rfl⟩
  · show s.m.wt.repeats + 1 = 1
    rw [first]
  · show [{ w with exceeds := beyond s.m w z }] = _
    rw [beyond, exceeds]

/-- Without repeats a deviation detects the port at once. -/
theorem answers_detection (unrepeated : w.conf = []) (noRepeats : cfgN s.m 0x3210 0x06 = 0) (fresh : ∀ l ∈ s.m.wt.latched, l.port ≠ w.port) :
    answers .watchSweepEnd s fun t =>
      (∃ l, t.m.wt.latched = s.m.wt.latched ++ [l] ∧ l.port = w.port ∧ l.fault = false) ∧ t.m.wt.sweeping = false ∧
      (∃ x, t.m.wt.ports = [x] ∧ x.baseMag = 65536 * z.1 ∧ x.baseArg = 65536 * z.2) ∧
      counter t.m 0x70B0 0x09 = sat32 (counter s.m 0x70B0 0x09 + 1) ∧ mainOnly s t := by
  refine answers_of_onMain (f := sweepEnd) rfl ?_
  have judged := judgePort_first (m := s.m) probe live settled first
  have ended : (beyond s.m w z && decide (s.m.wt.repeats < cfgN s.m 0x3210 0x06)) = false := by
    rw [noRepeats, decide_eq_false (Nat.not_lt_zero _), Bool.and_false]
  have finished := finishPort_detects (m := s.m) (w := { w with exceeds := beyond s.m w z }) probe live settled exceeds unrepeated
  rw [sweepEnd_eq sweeping, sweepJudged_one one judged, repeatsSweep_one, if_neg (Bool.eq_false_iff.mp ended), sweepOver_detects finished]
  obtain ⟨latched, idle, ports, counted⟩ := detection_stands (l := detectionOf { w with exceeds := _ } z) fresh
  exact ⟨⟨_, latched, rfl, rfl⟩, idle, ⟨_, ports, rfl, rfl⟩, counted, mainOnly_m ..⟩

end Sweep

/-- Settles O34: the start of a sweep by its tests in their order, a probe by what it shows of its port, the end of a sweep by how its one port is
judged and finished. -/
theorem watchSweeps : Obligations.WatchSweeps := by
  refine ⟨?runs, ?late, ?dark, ?inactive, ?good, ?faulty, ?elsewhere, ?settles, ?repeats, ?detects, ?idle⟩
  case runs =>
    exact fun s active idle vtx released => exec_of_onMain (f := sweepStart) rfl (sweepStart_runs active idle vtx released)
  case late => exact fun s active sweeping => exec_of_onMain (f := sweepStart) rfl (sweepStart_late active sweeping)
  case dark => exact fun s active idle low => exec_of_onMain (f := sweepStart) rfl (sweepStart_dark active idle low)
  case inactive => exact fun s inactive => exec_of_onMain (f := sweepStart) rfl (sweepStart_inactive inactive)
  case good =>
    intro s x pos w sweeping here first found good
    exact exec_of_onMain (f := fun m => probeStep m pos [x]) rfl ((probeStep_one sweeping here).trans (takeProbe_good found good first))
  case faulty =>
    intro s x pos w sweeping here found bad fresh watch idle up present enabled
    have sleeps : sleeping s.m = true := by simp [sleeping, up, watch]
    exact answers_probeFault sweeping here found bad fresh watch idle ⟨sleeps, present, enabled⟩
  case elsewhere =>
    exact fun s x pos elsewhere => exec_of_onMain (f := fun m => probeStep m pos [x]) rfl (probeStep_elsewhere elsewhere)
  case settles => exact fun s w z sweeping one probe live within settling => answers_settling sweeping one probe live within settling
  case repeats =>
    exact fun s w z sweeping one probe live settled first left exceeds =>
      answers_repeat sweeping one probe live settled first exceeds left
  case detects =>
    exact fun s w z sweeping one probe live unrepeated settled first noRepeats exceeds fresh =>
      answers_detection sweeping one probe live settled first exceeds unrepeated noRepeats fresh
  case idle => exact fun s idle => exec_of_onMain (f := sweepEnd) rfl (sweepEnd_idle idle)

end Sys2Proof.Machine
end

section
/-!
The queue of commands and the audit ring under every command (R362, R364, R373): a command leaves the queue as it was, and a ring that is well
kept stays so. Only an append, a write that power interrupts and a recovery touch the ring; everything else is carried through.
-/

namespace Sys2Proof.Machine

/-- The queue of commands is as it was, and a well-kept ring is still well kept. -/
structure Steady (s t : State) : Prop where
  queue : t.pending = s.pending
  ring  : ringKept s.lgr → ringKept t.lgr

section Steady

variable {s t u : State}

theorem Steady.refl (s : State) : Steady s s := ⟨rfl, id⟩

theorem Steady.trans (h : Steady s t) (g : Steady t u) : Steady s u := ⟨g.queue.trans h.queue, g.ring ∘ h.ring⟩

/-- The main part, the keys, and all of the ledger but its ring and its head, do not matter. -/
theorem steady_of_same (queue : t.pending = s.pending) (ring : t.lgr.ring = s.lgr.ring) (head : t.lgr.head = s.lgr.head) : Steady s t := by
  refine ⟨queue, fun kept => ?_⟩
  unfold ringKept at *
  rw [ring, head]
  exact kept

/-- What is steady from a state is so from one with the same queue and the same ring. -/
theorem Steady.before (h : Steady t u) (queue : t.pending = s.pending) (ring : t.lgr.ring = s.lgr.ring) (head : t.lgr.head = s.lgr.head) :
    Steady s u := (steady_of_same queue ring head).trans h

theorem steady_m (s : State) (m : Main) : Steady s { s with m := m } := ⟨rfl, id⟩

/-- A state update that is steady from everywhere. -/
def AlwaysSteady (f : State → State) : Prop := ∀ s, Steady s (f s)

theorem steady_ite {c : Prop} [Decidable c] (pos : c → Steady s t) (neg : ¬c → Steady s u) : Steady s (if c then t else u) := by
  split
  next h => exact pos h
  next h => exact neg h

end Steady

/-! ## The ring itself (R362, R364, R373) -/

section Ring

variable {l : Ledger}

theorem slotOf_eq_iff {a b : Nat} : slotOf a = slotOf b ↔ (a - 1) % 240 = (b - 1) % 240 := by simp [slotOf, Fin.ext_iff]

/-- The slot of the next sequence number takes a record of that number, or a torn one; the head may go on to it. -/
theorem ringKept_write {x : Slot} {h : Nat} (kept : ringKept l) (le : l.head ≤ h)
    (slot : ∀ q b, x = .record q b → q = l.head + 1 ∧ h = l.head + 1) {l' : Ledger}
    (ring : l'.ring = updV l.ring (slotOf (l.head + 1)) fun _ => x) (head : l'.head = h) : ringKept l' := by
  intro i q b found
  rw [ring, updV_get] at found
  split at found
  next same =>
    obtain ⟨rfl, rfl⟩ := slot q b found
    exact ⟨same.symm, by omega, by omega⟩
  next =>
    obtain ⟨place, low, high⟩ := kept i q b found
    exact ⟨place, low, by omega⟩

theorem ringKept_append (kept : ringKept l) (body : List Byte) : ringKept (l.append body) := by
  refine ringKept_write (h := l.head + 1) kept (by omega) (fun q b e => ⟨(Slot.record.inj e).1.symm, rfl⟩) (x := .record (l.head + 1) body) ?_ ?_
  all_goals
    unfold Ledger.append
    dsimp only
    split <;> rfl

/-- The greatest sequence number of the records of a list, as recovery looks for it (R364). -/
def newestSeq (xs : List Slot) : Nat :=
  xs.foldl (fun acc x => match x with | .record s _ => max acc s | _ => acc) 0

theorem le_newestSeq {xs : List Slot} {q : Nat} {b : List Byte} (mem : .record q b ∈ xs) : q ≤ newestSeq xs := by
  have grows (xs : List Slot) (acc : Nat) :
      acc ≤ xs.foldl (fun acc x => match x with | .record s _ => max acc s | _ => acc) acc := by
    induction xs generalizing acc with
    | nil => exact le_rfl
    | cons x xs ih =>
      refine le_trans ?_ (ih _)
      dsimp only
      split
      · exact le_max_left ..
      · exact le_rfl
  unfold newestSeq
  generalize 0 = acc
  induction xs generalizing acc with
  | nil => cases mem
  | cons x xs ih =>
    rcases List.mem_cons.mp mem with rfl | mem
    · exact le_trans (le_max_right ..) (grows xs _)
    · exact ih mem _

theorem select_ring (b : Bool) (seq : Nat) : (l.select b seq).ring = l.ring ∧ (l.select b seq).head = l.head := by
  unfold Ledger.select
  dsimp only
  split <;> exact ⟨rfl, rfl⟩

theorem markBank_ring (f : Bank → Bank) : (l.markBank f).ring = l.ring ∧ (l.markBank f).head = l.head := by
  unfold Ledger.markBank
  split <;> exact ⟨rfl, rfl⟩

theorem setBank_ring (f : Bank → Bank) : (l.setBank f).ring = l.ring ∧ (l.setBank f).head = l.head := by
  obtain ⟨ring, head⟩ := markBank_ring (l := l) f
  obtain ⟨ring', head'⟩ := select_ring (l := l.markBank f) (!(l.markBank f).current) (l.cur.seq + 1)
  exact ⟨ring'.trans ring, head'.trans head⟩

/-- Recovery reads the ring and takes the greatest sequence number for the newest (R364). -/
theorem recover_ring : l.recover.ring = l.ring ∧ l.recover.head = newestSeq l.ring.toList := by
  unfold Ledger.recover
  dsimp only
  split
  · obtain ⟨ring, head⟩ := select_ring (l := _) _ _
    exact ⟨ring, head⟩
  · exact ⟨rfl, rfl⟩

theorem ringKept_recover (kept : ringKept l) : ringKept l.recover := by
  obtain ⟨ring, head⟩ := recover_ring (l := l)
  intro i q b found
  rw [ring] at found
  obtain ⟨place, low, -⟩ := kept i q b found
  refine ⟨place, low, ?_⟩
  rw [head]
  exact le_newestSeq (b := b) (found ▸ Vector.mem_toList_iff.mpr (Vector.getElem_mem i.isLt))

end Ring

/-! ## The ledger's writes (R46, R373) -/

section Writes

variable (s : State)

theorem steady_lgr {l : Ledger} (m : Main) (ring : l.ring = s.lgr.ring) (head : l.head = s.lgr.head) : Steady s { s with m := m, lgr := l } :=
  steady_of_same rfl ring head

theorem steady_writeAppend (body : List Byte) : Steady s (writeAppend s body) := ⟨rfl, fun kept => ringKept_append kept body⟩

theorem steady_writeBank (origin : Nat) (f : Bank → Bank) : Steady s (writeBank s origin f) :=
  steady_lgr s _ (setBank_ring f).1 (setBank_ring f).2

theorem steady_ownRecord (type : Nat) (data : List Byte) : Steady s (ownRecord s type data).2 := by
  unfold ownRecord
  dsimp only
  split
  · exact (steady_m s _).trans (steady_writeAppend ..)
  · exact steady_m ..

/-- A settings write that commits, and one that does not. -/
theorem steady_persist (key v : Nat) : (∀ t, (persist s key v).1 = some t → Steady s t) ∧ Steady s (persist s key v).2 := by
  have busy (o : Option State) (n : o = none) : ∀ t, o = some t → Steady s t := by simp [n]
  unfold persist
  dsimp only
  split
  · exact ⟨fun t e => Option.some.inj e ▸ .refl s, .refl s⟩
  · split
    · exact ⟨busy _ rfl, steady_m ..⟩
    · split
      · exact ⟨busy _ rfl, steady_m ..⟩
      · split
        · exact ⟨fun t e => Option.some.inj e ▸ (steady_m s _).trans (steady_writeBank ..), .refl s⟩
        · exact ⟨busy _ rfl, steady_m ..⟩

theorem steady_setEntry (idx sub v : Nat) : Steady s (setEntry s idx sub v).2 := by
  obtain ⟨committed, failed⟩ := steady_persist s (ekey idx sub) v
  unfold setEntry
  dsimp only
  split
  · split
    next t h => exact (committed t h).trans (steady_m ..)
    next => exact failed
  · exact steady_m ..

end Writes

/-! ## Authentication at the target (R245, R380) -/

section Auth

variable (s : State)

theorem steady_tgtKey (k : Nat) : Steady s (tgtKey s k).2 := by
  unfold tgtKey
  dsimp only
  split <;> exact steady_m ..

theorem steady_tgtChallenge (k : Nat) (ra : List Byte) : Steady s (tgtChallenge s k ra).2 := (steady_tgtKey s k).trans (steady_m ..)

theorem steady_answerGood (key : Nat) (c2 : List Byte) : Steady s (answerGood s key c2).2 := by
  unfold answerGood
  split
  · exact steady_tgtKey ..
  · exact .refl s

theorem steady_lockOut (good : Bool) : Steady s (lockOut s good) := by
  unfold lockOut
  split <;> exact steady_m ..

theorem steady_authOutcome (key org : Nat) (good : Bool) (seq : Option Nat) : Steady s (authOutcome s key org good seq).2 := by
  unfold authOutcome
  cases seq <;> cases good <;> exact steady_m ..

theorem steady_tgtVerify (key : Nat) (c2 : List Byte) : Steady s (tgtVerify s key c2).2 :=
  ((((steady_answerGood s key c2).trans (steady_m ..)).trans (steady_lockOut ..)).trans (steady_ownRecord ..)).trans (steady_authOutcome ..)

end Auth

/-! ## The arbiter (R366–R375) -/

section Arbiter

variable (s : State)

theorem steady_lRespond (a : LAccess) (st : LStatus) (seq : Nat) : Steady s (lRespond s a st seq) := by
  unfold lRespond
  dsimp only
  split
  · split <;> exact steady_m ..
  · split <;> exact steady_m ..
  · split
    · exact .refl s
    · split <;> exact steady_m ..
  · split <;> exact steady_m ..

theorem steady_lRefuse (a : LAccess) (st : LStatus) : Steady s (lRefuse s a st) := by
  unfold lRefuse
  split
  · exact steady_lRespond ..
  · exact (steady_m ..).trans (steady_lRespond ..)

theorem steady_lRead (w : Wired) (code arg : Nat) : Steady s (lRead s w code arg) := by
  unfold lRead
  dsimp only
  split <;> exact steady_m ..

theorem steady_lRequest (a : LAccess) : Steady s (lRequest s a) := by
  unfold lRequest
  dsimp only
  split
  · exact (steady_m ..).trans (steady_lRefuse ..)
  · exact steady_lgr s s.m rfl rfl

theorem steady_lStart (a : LAccess) : Steady s (lStart s a) := by
  unfold lStart
  split
  · exact steady_lRead ..
  · split
    · exact steady_of_same rfl rfl rfl
    · split
      · exact (steady_m ..).trans (steady_lRefuse ..)
      · split
        · exact steady_lRespond ..
        · dsimp only
          split
          · exact steady_of_same rfl rfl rfl
          · exact (steady_m ..).trans (steady_lRefuse ..)

theorem steady_lWrite (a : LAccess) : Steady s (lWrite s a) := by
  unfold lWrite
  split
  · exact steady_writeAppend ..
  · exact steady_writeBank ..
  · exact .refl s

theorem steady_finishRunning : Steady s (finishRunning s) := by
  unfold finishRunning
  split
  · exact .refl s
  · exact ((steady_lgr s s.m (l := { s.lgr with running := none }) rfl rfl).trans (steady_lWrite ..)).trans (steady_lRespond ..)

theorem steady_fieldFirst : Steady s (fieldFirst s) := by
  unfold fieldFirst
  split
  · split
    · exact steady_finishRunning s
    · exact .refl s
  · exact .refl s

theorem steady_setLease (w : Wired) (seconds : Nat) : Steady s (setLease s w seconds).2 := by
  have finished : Steady s (if (s.lgr.running.map (·.port)) = some .field then finishRunning s else s) :=
    steady_ite (fun _ => steady_finishRunning s) fun _ => .refl s
  unfold setLease
  dsimp only
  split
  · exact .refl s
  · refine finished.trans ?_
    generalize (if (s.lgr.running.map (·.port)) = some .field then finishRunning s else s) = x
    split
    · exact steady_m ..
    · split <;> exact steady_of_same rfl rfl rfl

theorem steady_wiredRead (w : Wired) (code arg : Nat) : Steady s (wiredRead w code arg s) := by
  unfold wiredRead
  split
  · exact steady_lRequest ..
  · exact steady_lRead ..

/-- A wired command is as steady as what its good frame does. -/
theorem steady_wiredCmd (w : Wired) (code : Nat) (host : List Byte) (good write : Bool) {f : State → State} (steady : AlwaysSteady f) :
    Steady s (wiredCmd s w code host good write f) := by
  unfold wiredCmd
  cases w with
  | i2c =>
    dsimp only
    split
    · exact .refl s
    · split
      · exact steady s
      · cases write <;> exact steady_m ..
  | spi =>
    dsimp only
    split
    · exact .refl s
    · split
      · exact steady_m ..
      · split
        · exact (steady_m s _).trans (steady _)
        · cases write <;> exact steady_m ..

theorem steady_interruptRunning : Steady s (interruptRunning s) := by
  unfold interruptRunning
  split
  · exact .refl s
  next a running =>
    cases op : a.op with
    | append body =>
      dsimp only
      refine ⟨rfl, fun kept => ?_⟩
      by_cases marked : (draw s.m).1.toNat % 2 = 1
      · exact ringKept_write (x := .record (s.lgr.head + 1) (stampBody s.m body)) (h := s.lgr.head + 1) kept (Nat.le_succ _)
          (fun q b e => ⟨(Slot.record.inj e).1.symm, rfl⟩) (by simp [marked]) (by simp [marked])
      · exact ringKept_write (x := .torn) (h := s.lgr.head) kept le_rfl (fun q b e => by cases e) (by simp [marked]) (by simp [marked])
    | setting r data =>
      dsimp only
      split
      · obtain ⟨ring, head⟩ := markBank_ring (l := { s.lgr with running := none }) fun b => { b with host := b.host.set (r - 12) data }
        exact steady_lgr s _ ring head
      · split <;> exact steady_of_same rfl rfl rfl
    | read code arg => exact steady_of_same rfl rfl rfl

theorem steady_resumeStarted : Steady s (resumeStarted s) := by
  unfold resumeStarted
  split
  · exact .refl s
  · exact steady_of_same rfl rfl rfl

theorem steady_finishStarted : Steady s (finishStarted s) :=
  ((steady_finishRunning s).trans (steady_resumeStarted _)).trans (steady_finishRunning _)

end Arbiter

/-! ## The target (R376–R382) -/

section Target

variable (s : State)

/-- An APDU is as steady as the application. -/
theorem steady_apdu (pOk : Bool) {f : State → State} (steady : AlwaysSteady f) : Steady s (apdu s pOk f) := by
  unfold apdu
  split
  · exact .refl s
  · split
    · exact steady_m ..
    · split
      · exact steady_m ..
      · exact (steady_fieldFirst s).trans (steady _)

/-- A frame is as steady as its reaction. -/
theorem steady_tgtFrame (f : StpRx) (mine claims : Bool) {go : Nat → State → State} (steady : ∀ n, AlwaysSteady (go n)) :
    Steady s (tgtFrame s f mine claims go) := by
  unfold tgtFrame
  dsimp only
  split
  · exact .refl s
  · split
    · exact steady_m ..
    · split
      · exact steady_m ..
      · split
        · exact steady_m ..
        · exact ((steady_m s _).trans (steady_fieldFirst _)).trans (steady _ _)

theorem steady_tgtMargin : Steady s (tgtMargin s).2 := by
  unfold tgtMargin
  split <;> exact steady_m ..

end Target

/-! ## The radio (R402, R419, R443) -/

section Radio

variable (s : State)

theorem steady_nextCounter (n : Fin 256) (frames : Nat) : Steady s (nextCounter s n frames).2 := by
  unfold nextCounter
  dsimp only
  split <;> exact ⟨rfl, id⟩

theorem steady_txStart (k : TxKind) (p : TxPlan) : Steady s (txStart s k p) := by
  unfold txStart
  split
  · exact steady_m ..
  · lift_lets
    extract_lets
    split
    · exact steady_m ..
    · split
      · exact steady_m ..
      · split
        · exact steady_m ..
        · split
          · exact steady_m ..
          · exact (steady_nextCounter ..).trans (steady_m ..)

theorem steady_txTry (k : TxKind) : Steady s (txTry s k) := by
  unfold txTry
  dsimp only
  split
  · exact .refl s
  · split
    · exact .refl s
    · split
      · exact .refl s
      · exact steady_txStart ..

theorem steady_demodPayloadEnd (d : Fin 8) (symbols : List Nat) (info : RxMeta) : Steady s (demodPayloadEnd s d symbols info) := by
  unfold demodPayloadEnd
  dsimp only
  split
  · exact .refl s
  · split
    · exact steady_m ..
    · split
      · exact steady_m ..
      · split
        · exact steady_m ..
        · split <;> exact steady_m ..

theorem steady_partnerWrite (n : Fin 256) (v : Nat) : Steady s (partnerWrite s n v).2 := by
  unfold partnerWrite
  dsimp only
  split
  · exact steady_m ..
  · split
    · split <;> exact steady_m ..
    · split
      · split <;> exact steady_m ..
      · exact steady_m ..

end Radio

/-! ## Power, boot and modes (R27–R61) -/

section Power

variable (s : State)

/-- A main part beside a recovered ledger. -/
theorem steady_recovered (m : Main) : Steady s { s with m := m, lgr := s.lgr.recover } := ⟨rfl, ringKept_recover⟩

theorem steady_islandStart (keep : Bool) : Steady s (islandStart s keep) := steady_recovered ..

theorem steady_autoStart (kind : Nat) : Steady s (autoStart s kind) := by
  unfold autoStart
  split <;> exact steady_m ..

theorem steady_coldStart (keep : Bool) : Steady s (coldStart s keep) :=
  ((steady_finishStarted s).trans (steady_islandStart ..)).trans (steady_autoStart ..)

theorem steady_suppliesUp (refsel vddio33 : Bool) : Steady s (suppliesUp s refsel vddio33) := by
  unfold suppliesUp
  dsimp only
  split
  · exact steady_m ..
  · exact (steady_m s _).trans (steady_coldStart ..)

theorem steady_resetHeld : Steady s (resetHeld s) := (steady_finishStarted s).trans (steady_recovered ..)

theorem steady_unpowered : Steady s (unpowered s) :=
  (((steady_interruptRunning s).trans (steady_resumeStarted _)).trans (steady_interruptRunning _)).trans (steady_of_same rfl rfl rfl)

theorem steady_mainLost : Steady s (mainLost s) := by
  unfold mainLost
  extract_lets o x y
  have begun : Steady s x := steady_m ..
  split
  · exact begun
  · refine (begun.trans (steady_finishStarted x)).trans ?_
    split
    · split <;> exact steady_of_same rfl rfl rfl
    · exact (steady_unpowered _).before rfl rfl rfl

theorem steady_vaoFall : Steady s (vaoFall s) := by
  unfold vaoFall
  dsimp only
  split
  · exact steady_m ..
  · split
    · exact steady_m ..
    · exact (steady_m s _).trans (steady_unpowered _)

theorem steady_islandAlone : Steady s (islandAlone s) := by
  refine (steady_islandStart s false).trans ?_
  unfold islandAlone
  dsimp only
  split <;> exact steady_m ..

theorem steady_vaoRise : Steady s (vaoRise s) := by
  unfold vaoRise
  dsimp only
  split
  · exact steady_m ..
  · exact (steady_m s _).trans (steady_islandAlone _)

theorem steady_fieldDetected (strength : Nat) : Steady s (fieldDetected s strength) := by
  unfold fieldDetected
  dsimp only
  split
  · exact steady_m ..
  · split
    · exact steady_m ..
    · split
      · split
        · exact steady_m ..
        · exact (steady_m s _).trans (steady_islandAlone _)
      · exact steady_m ..

theorem steady_fieldLost (asDeclared : Bool) : Steady s (fieldLost s asDeclared) := by
  unfold fieldLost
  dsimp only
  split
  · exact steady_m ..
  · split
    · refine Steady.trans ?_ (steady_unpowered _)
      split
      · exact (steady_finishStarted _).before rfl rfl rfl
      · exact steady_of_same rfl rfl rfl
    · exact steady_of_same rfl rfl rfl

theorem steady_rescueEnds : Steady s (rescueEnds s) := by
  unfold rescueEnds
  dsimp only
  split
  · exact .refl s
  · split
    · exact (steady_m s _).trans (steady_coldStart ..)
    · exact steady_m ..

theorem steady_resetWrite (v : Nat) : Steady s (resetWrite s v).2 := by
  unfold resetWrite
  split
  · exact .refl s
  · split
    · exact .refl s
    · exact steady_coldStart ..

/-- An SPI transaction is as steady as what it goes on to. -/
theorem steady_spiTransaction (valid : Main → Bool) {f : State → State} (steady : ∀ m, Steady s (f { s with m := m })) :
    Steady s (spiTransaction s valid f) := by
  unfold spiTransaction
  dsimp only
  split
  · exact .refl s
  · split
    · exact steady _
    · exact steady_m ..

theorem steady_modeByWindow (code : Nat) (dchk : Byte) : Steady s (modeByWindow s code dchk) := by
  unfold modeByWindow
  dsimp only
  split
  · exact .refl s
  · split <;> exact steady_m ..

theorem steady_firmwareReady : Steady s (firmwareReady s) := by
  unfold firmwareReady
  split
  · exact .refl s
  · exact steady_of_same rfl rfl rfl

end Power

/-! ## Settings that persist (R46) -/

section Settings

variable (s : State)

theorem steady_sourceWrite (v : Nat) : Steady s (sourceWrite s v).2 := by
  unfold sourceWrite
  split
  · exact .refl s
  · split
    · exact .refl s
    · split
      · exact steady_m ..
      · extract_lets fresh r
        refine ((steady_m s fresh).trans (steady_setEntry { s with m := fresh } 0x2000 0x01 v)).trans ?_
        split <;> exact steady_m ..

theorem steady_nominalWrite (v : Nat) : Steady s (nominalWrite s v).2 := by
  unfold nominalWrite
  dsimp only
  split
  · exact .refl s
  · split
    · exact .refl s
    · split
      · exact steady_m ..
      · refine (steady_setEntry s 0x2000 0x0A v).trans ?_
        split
        · split <;> exact steady_m ..
        · exact .refl _

theorem steady_nodeWrite (v : Nat) : Steady s (nodeWrite s v).2 := by
  unfold nodeWrite
  split
  · exact steady_setEntry ..
  · exact .refl s

theorem steady_profileWrite (v : Nat) : Steady s (profileWrite s v).2 := by
  refine (steady_setEntry s 0x4000 0x02 v).trans ?_
  unfold profileWrite
  dsimp only
  split <;> exact steady_m ..

end Settings

/-! ## Writes of dictionary entries (R452) -/

section Entries

variable (s : State)

/-- A choice between two writes is as steady as the one taken. -/
theorem steady_ite_write {c : Prop} [Decidable c] {x y : Nat × State} (pos : Steady s x.2) (neg : Steady s y.2) :
    Steady s (if c then x else y).2 := by
  split
  · exact pos
  · exact neg

theorem steady_plainWrite (idx sub v : Nat) : Steady s (plainWrite s idx sub v).2 := steady_setEntry ..

theorem steady_write18 (viaCan : Bool) (idx sub v : Nat) : Steady s (write18 s viaCan idx sub v).2 := by
  unfold write18
  dsimp only
  split
  · exact steady_m ..
  · split
    · split
      · exact steady_nodeWrite ..
      · exact (steady_nodeWrite ..).trans (steady_m ..)
    · split
      · split
        · exact steady_m ..
        · exact steady_plainWrite ..
      · split
        · exact steady_m ..
        · split
          · exact steady_m ..
          · split
            · exact steady_m ..
            · exact steady_plainWrite ..

theorem steady_write20 (idx sub v : Nat) : Steady s (write20 s idx sub v).2 := by
  unfold write20
  dsimp only
  split
  · split
    · exact steady_sourceWrite ..
    · split
      · exact steady_m ..
      · split
        · exact steady_m ..
        · split
          · exact steady_nominalWrite ..
          · split
            · exact (steady_plainWrite ..).trans (steady_m ..)
            · exact steady_plainWrite ..
  · split <;> exact steady_m ..

theorem steady_write21 (idx sub v : Nat) : Steady s (write21 s idx sub v).2 := by
  unfold write21
  dsimp only
  split
  · exact steady_m ..
  · split
    · split <;> exact steady_m ..
    · exact steady_plainWrite ..

theorem steady_write22 (idx sub v : Nat) : Steady s (write22 s idx sub v).2 := by
  unfold write22
  dsimp only
  split
  · exact steady_m ..
  · split
    · exact (steady_plainWrite ..).trans (steady_m ..)
    · exact steady_plainWrite ..

theorem steady_write25 (idx sub v : Nat) : Steady s (write25 s idx sub v).2 := by
  unfold write25
  split
  · exact ⟨rfl, id⟩
  · split
    · exact steady_m ..
    · split
      · exact steady_m ..
      · exact steady_plainWrite ..

theorem steady_write30 (idx sub v : Nat) : Steady s (write30 s idx sub v).2 := by
  unfold write30
  dsimp only
  split
  · exact steady_plainWrite ..
  · split
    · exact steady_m ..
    · split <;> exact steady_m ..

theorem steady_write34 (idx sub v : Nat) : Steady s (write34 s idx sub v).2 := by
  unfold write34
  dsimp only
  split
  · exact steady_plainWrite ..
  · split
    · exact steady_m ..
    · split
      · exact steady_m ..
      · split <;> exact steady_m ..

theorem steady_write40 (idx sub v : Nat) : Steady s (write40 s idx sub v).2 := by
  unfold write40
  dsimp only
  split
  · exact steady_m ..
  · split
    · exact steady_profileWrite ..
    · split
      · exact steady_m ..
      · exact steady_plainWrite ..

theorem steady_write41 (idx sub v : Nat) : Steady s (write41 s idx sub v).2 := by
  unfold write41
  split
  · exact ⟨rfl, id⟩
  · split
    · split <;> exact steady_m ..
    · exact steady_plainWrite ..

theorem steady_write42 (idx sub v : Nat) : Steady s (write42 s idx sub v).2 := by
  unfold write42
  refine steady_ite_write s (steady_partnerWrite ..) (steady_ite_write s ⟨rfl, id⟩ ?_)
  iterate 7 refine steady_ite_write s (steady_m ..) ?_
  exact steady_m ..

theorem steady_write50 (idx sub v : Nat) : Steady s (write50 s idx sub v).2 := by
  unfold write50
  split
  · split
    · exact steady_m ..
    · split
      · exact steady_m ..
      · exact steady_plainWrite ..
  · split <;> exact steady_m ..

theorem steady_write60 (idx sub v : Nat) : Steady s (write60 s idx sub v).2 := by
  unfold write60
  split
  · exact steady_setLease ..
  · split
    · exact steady_of_same rfl rfl rfl
    · split
      · exact steady_of_same rfl rfl rfl
      · split
        · exact steady_m ..
        · exact steady_plainWrite ..

theorem steady_write71 (sub v : Nat) : Steady s (write71 s sub v).2 := by
  unfold write71
  split
  · exact steady_m ..
  · split
    · exact steady_m ..
    · split <;> exact (steady_m ..).trans (steady_plainWrite ..)

theorem steady_applyWrite (viaCan : Bool) (idx sub v : Nat) : Steady s (applyWrite s viaCan idx sub v).2 := by
  unfold applyWrite
  refine steady_ite_write s (steady_ite_write s (steady_m ..) (steady_ite_write s (steady_resetWrite ..) (steady_plainWrite ..))) ?_
  refine steady_ite_write s (steady_write18 ..) (steady_ite_write s (steady_write20 ..) ?_)
  refine steady_ite_write s (steady_write21 ..) (steady_ite_write s (steady_write22 ..) ?_)
  refine steady_ite_write s (steady_write25 ..) (steady_ite_write s (steady_write30 ..) ?_)
  refine steady_ite_write s (steady_write34 ..) (steady_ite_write s (steady_write40 ..) ?_)
  refine steady_ite_write s (steady_write41 ..) (steady_ite_write s (steady_write42 ..) ?_)
  refine steady_ite_write s (steady_write50 ..) (steady_ite_write s (steady_write60 ..) ?_)
  exact steady_ite_write s (steady_write71 ..) (steady_plainWrite ..)

theorem steady_writeEntry (r : Requester) (idx sub : Nat) (data : List Byte) : Steady s (writeEntry s r idx sub data).2 := by
  unfold writeEntry
  dsimp only
  split
  · split <;> exact steady_m ..
  · split
    · exact steady_m ..
    · exact steady_applyWrite ..

end Entries

/-! ## The dictionary service (R452–R476) -/

section Service

variable (s : State)

theorem steady_readValue (idx sub : Nat) : Steady s (readValue s idx sub).2 := by
  unfold readValue
  split
  · exact steady_m ..
  · split
    · exact steady_m ..
    · split <;> exact steady_m ..

theorem steady_readEntry (r : Requester) (idx sub : Nat) : Steady s (readEntry s r idx sub).2.2 := by
  unfold readEntry
  dsimp only
  split
  · exact .refl s
  · exact steady_readValue ..

theorem steady_serveRead (r : Requester) (q : Msg) : Steady s (serveRead s r q).2 := by
  unfold serveRead
  dsimp only
  split
  · exact .refl s
  · split
    · exact .refl s
    · exact steady_readEntry ..

theorem steady_serveSegRead (r : Requester) (q : Msg) : Steady s (serveSegRead s r q).2 := by
  unfold serveSegRead
  dsimp only
  split
  · exact .refl s
  · split
    · exact (steady_readEntry ..).trans (steady_m ..)
    · exact .refl s

theorem steady_serveSegWrite (r : Requester) (q : Msg) : Steady s (serveSegWrite s r q).2 := by
  unfold serveSegWrite
  dsimp only
  split
  · exact .refl s
  · split <;> exact steady_m ..

theorem steady_segmentIn (r : Requester) (q : Msg) (x : Transfer) : Steady s (segmentIn s r q x).2 := by
  unfold segmentIn
  dsimp only
  split
  · exact steady_m ..
  · split
    · exact steady_m ..
    · split
      · exact steady_m ..
      · split
        · exact steady_m ..
        · exact (steady_writeEntry ..).trans (steady_m ..)

theorem steady_segmentOut (r : Requester) (q : Msg) (x : Transfer) : Steady s (segmentOut s r q x).2 := by
  unfold segmentOut
  split
  · exact steady_m ..
  · split <;> exact steady_m ..

theorem steady_serveSegment (r : Requester) (q : Msg) : Steady s (serveSegment s r q).2 := by
  unfold serveSegment
  split
  · exact .refl s
  · split
    · exact steady_segmentIn ..
    · exact steady_segmentOut ..

theorem steady_serveLocal (r : Requester) (q : Msg) : Steady s (serveLocal s r q).2 := by
  unfold serveLocal
  split; · exact steady_serveRead ..
  split; · exact steady_writeEntry ..
  split; · exact steady_serveSegRead ..
  split; · exact steady_serveSegWrite ..
  split; · exact steady_serveSegment ..
  exact steady_m ..

theorem steady_serveMsg (c : Carrier) (r : Requester) (q : Msg) : Steady s (serveMsg s c r q).2 := by
  unfold serveMsg
  split; · exact .refl s
  split; · exact .refl s
  split; · exact steady_m ..
  split; · exact steady_m ..
  exact steady_serveLocal ..

theorem steady_handle (c : Carrier) : Steady s (handle s c).2 := by
  unfold handle
  dsimp only
  split
  · exact steady_m ..
  · split
    · exact steady_m ..
    · refine Steady.trans ((steady_serveMsg { s with m := (takeTrack (checkMsg s.m c.bytes)
        { cls := c.cls, who := c.who, origin := (msgOf c.bytes).origin } (msgOf c.bytes).alive).2 } c
        { cls := c.cls, who := c.who, origin := (msgOf c.bytes).origin } (msgOf c.bytes)).before rfl rfl rfl) ?_
      split
      · exact .refl _
      · split <;> exact steady_m ..

theorem steady_waitLedger (bs : List Byte) : Steady s (waitLedger s bs) := by
  unfold waitLedger
  split <;> exact steady_m ..

/-- A message is served, or left in its input, from states that differ by their main part. -/
theorem steady_serveOut (a b : Main) (c : Carrier) : Steady s (serveOut { s with m := a } { s with m := b } c) := by
  unfold serveOut
  split
  · exact (steady_m s a).trans (steady_waitLedger ..)
  · refine (steady_m s b).trans ((steady_handle _ c).trans ?_)
    dsimp only
    split <;> exact steady_m ..

theorem steady_serveQ18 (op : Nat) : Steady s (serveQ18 s op) := by
  unfold serveQ18
  split; · exact .refl s
  dsimp only
  split
  · exact .refl s
  · exact steady_m ..
  · split; · exact .refl s
    split; · exact steady_m ..
    split
    · exact steady_serveOut s ..
    · exact .refl s

theorem steady_serveQ20 (op : Nat) : Steady s (serveQ20 s op) := by
  unfold serveQ20
  split; · exact .refl s
  dsimp only
  split
  · exact .refl s
  · exact steady_m ..
  · split; · exact .refl s
    split; · exact steady_m ..
    split
    · exact steady_serveOut s ..
    · exact .refl s

theorem steady_serveAir (op : Nat) (n : Fin 256) (bs : List Byte) : Steady s (serveAir s op n bs) := by
  unfold serveAir
  split; · exact .refl s
  split; · exact .refl s
  dsimp only
  split; · exact steady_m ..
  split
  · exact steady_serveOut s s.m _ _
  · exact .refl s

theorem steady_serveLace (op : Nat) (d : Fin 4) : Steady s (serveLace s op d) := by
  unfold serveLace
  split; · exact .refl s
  dsimp only
  split; · exact .refl s
  exact steady_serveOut s s.m _ _

theorem steady_serveSpi (op : Nat) (bs : List Byte) (dchk : Byte) : Steady s (serveSpi s op bs dchk) := by
  unfold serveSpi
  dsimp only
  split
  · split
    · exact steady_serveOut s s.m _ _
    · exact .refl s
  split; · exact .refl s
  split; · exact steady_waitLedger ..
  refine steady_spiTransaction s _ fun m => ?_
  dsimp only
  split; · exact steady_m ..
  split; · exact steady_m ..
  split
  · exact (steady_serveOut s _ _ _).trans (steady_m ..)
  · refine Steady.trans ((steady_handle
      { s with m := cuSpi m false bs (spiHead { cmd := 0x06, addr := 0, len := BitVec.ofNat 16 bs.length }) }
      { cls := clsHost, who := 0, excess := overBytes bs, bytes := bs }).before rfl rfl rfl) ?_
    split
    · exact .refl _
    · exact steady_m ..

theorem steady_serveFrom (op : Nat) (src : DictArrival) : Steady s (serveFrom s op src) := by
  cases src with
  | spi bs dchk => exact steady_serveSpi ..
  | q18 => exact steady_ite (fun _ => steady_serveQ18 ..) fun _ => .refl s
  | q20 => exact steady_ite (fun _ => steady_serveQ20 ..) fun _ => .refl s
  | air n bs => exact steady_ite (fun _ => steady_serveAir ..) fun _ => .refl s
  | lace d => exact steady_ite (fun _ => steady_serveLace ..) fun _ => .refl s

theorem steady_serveCompat (node : Nat) (q : Compat) : Steady s (serveCompat s node q).2 := by
  unfold serveCompat
  dsimp only
  split; · exact .refl s
  split
  · split; · exact .refl s
    split; · exact .refl s
    exact steady_readValue ..
  · split; · exact .refl s
    split; · exact .refl s
    split; · exact .refl s
    exact steady_writeEntry ..

theorem steady_compatFrame (node : Nat) (bs : List Byte) : Steady s (compatFrame s node bs) := by
  unfold compatFrame
  split; · exact steady_m ..
  dsimp only
  split; · exact steady_m ..
  refine Steady.trans ((steady_serveCompat
    { s with m := cuService s.m 0x04 (compatInit (compatOf bs).index node) .ccitt (bs.take 8) } node (compatOf bs)).before rfl rfl rfl) ?_
  split <;> exact steady_m ..

theorem steady_serveCompatQ20 (op : Nat) : Steady s (serveCompatQ20 s op) := by
  unfold serveCompatQ20
  split; · exact .refl s
  dsimp only
  split
  · exact .refl s
  · exact steady_m ..
  · split; · exact .refl s
    split; · exact steady_m ..
    split; · exact (steady_m s _).trans (steady_waitLedger ..)
    split
    · exact (steady_m s _).trans (steady_compatFrame ..)
    · exact .refl s

end Service

/-! ## Every command -/

section Commands

variable {s : State}

/-- A command answers a steady next state. -/
def Completes (o : Out) (s : State) : Prop := ∃ t, o = .next t ∧ Steady s t

theorem completes_next {t : State} (steady : Steady s t) : Completes (.next t) s := ⟨t, rfl, steady⟩

theorem completes_main {o : Out} {m : Main} (h : o = .next { s with m := m }) : Completes o s := ⟨_, h, steady_m ..⟩

theorem completes_onServiceAll (f : State → State) (steady : Steady s (f s)) : Completes (onServiceAll f s) s :=
  completes_next (steady_ite (fun _ => .refl s) fun _ => steady)

theorem completes_onLedger {idx sub v : Nat} (f : State → State) (steady : Steady s (f s)) : Completes (onLedger idx sub v f s) s :=
  completes_onServiceAll _ (steady_ite (fun _ => .refl s) fun _ => steady)

end Commands

/-! ## The commands of the target and of the wired ports, one by one -/

section Target

variable (s : State)

/-- The newest release record is one of the ring. -/
theorem newestRelease_mem {l : Ledger} {q : Nat} {b : List Byte} (found : newestRelease l = some (q, b)) : .record q b ∈ l.ring.toList := by
  unfold newestRelease at found
  have or_before (xs : List Slot) (acc : Option (Nat × List Byte))
      (found : xs.foldl (fun acc x => match x with
        | .record q b => if bodyType b = 3 && bodyOrigin b = 0 && decide (((acc.map (·.1)).getD 0) < q) then some (q, b) else acc
        | _ => acc) acc = some (q, b)) : acc = some (q, b) ∨ .record q b ∈ xs := by
    induction xs generalizing acc with
    | nil => exact .inl found
    | cons x xs ih =>
      rcases ih _ found with now | later
      · dsimp only at now
        split at now
        · split at now
          · obtain ⟨rfl, rfl⟩ := Prod.mk.inj (Option.some.inj now)
            exact .inr List.mem_cons_self
          · exact .inl now
        · exact .inl now
      · exact .inr (List.mem_cons_of_mem _ later)
  exact (or_before _ none found).resolve_left (by simp)

theorem steady_tgtApduSelect (p1 p2 : Byte) (aid : List Byte) : Completes (execTgtApduSelect p1 p2 aid s) s := by
  refine completes_next ?_
  split
  · exact .refl s
  · split <;> exact steady_m ..

theorem steady_tgtReadBinary (p1 p2 : Byte) (le : Nat) : Completes (execTgtReadBinary p1 p2 le s) s := by
  refine completes_next (steady_apdu _ _ fun x => ?_)
  dsimp only
  split <;> exact steady_m ..

theorem steady_tgtReadRecord (p1 p2 : Byte) : Completes (execTgtReadRecord p1 p2 s) s :=
  completes_next (steady_apdu _ _ fun _ => steady_m ..)

theorem steady_tgtAppendRecord (p1 p2 : Byte) (data : List Byte) : Completes (execTgtAppendRecord p1 p2 data s) s := by
  refine completes_next (steady_apdu _ _ fun x => ?_)
  dsimp only
  split; · exact steady_m ..
  split; · exact steady_m ..
  split; · exact steady_m ..
  exact (steady_m ..).trans (steady_lRequest ..)

theorem steady_tgtUpdateRecord (p1 p2 : Byte) (data : List Byte) : Completes (execTgtUpdateRecord p1 p2 data s) s := by
  refine completes_next (steady_apdu _ _ fun x => ?_)
  dsimp only
  split; · exact steady_m ..
  split; · exact steady_m ..
  exact (steady_m ..).trans (steady_lRequest ..)

theorem steady_tgtInternalAuth (p1 p2 : Byte) (ra : List Byte) : Completes (execTgtInternalAuth p1 p2 ra s) s := by
  refine completes_next (steady_apdu _ _ fun x => ?_)
  dsimp only
  split; · exact steady_m ..
  split; · exact steady_m ..
  exact ((steady_m x _).trans (steady_tgtChallenge ..)).trans (steady_m ..)

theorem steady_tgtExternalAuth (p1 p2 : Byte) (c2 : List Byte) : Completes (execTgtExternalAuth p1 p2 c2 s) s := by
  refine completes_next (steady_apdu _ _ fun x => ?_)
  dsimp only
  split; · exact steady_m ..
  exact (steady_tgtVerify ..).trans (steady_m ..)

theorem steady_tgtRelease (p1 p2 : Byte) : Completes (execTgtRelease p1 p2 s) s := by
  refine completes_next (steady_apdu _ _ fun x => ?_)
  dsimp only
  split; · exact steady_m ..
  split; · exact steady_m ..
  refine Steady.trans ((steady_ownRecord { x with m := dropPending x.m } 3 (ownData (dropPending x.m) 1)).before rfl rfl rfl) ?_
  split <;> exact steady_m ..

theorem steady_tgtApduUnknown (cla ins p1 p2 : Byte) : Completes (execTgtApduUnknown cla ins p1 p2 s) s := by
  refine completes_next (steady_ite (fun _ => .refl s) fun _ => ?_)
  dsimp only
  split_ifs <;> exact steady_m ..

theorem steady_releaseVoltageReached : Completes (execReleaseVoltageReached s) s :=
  completes_next (steady_ite (fun _ => .refl s) fun _ => steady_m ..)

/-- The record marked keeps its place and its number. -/
theorem steady_releaseWaitTimeout : Completes (execReleaseWaitTimeout s) s := by
  refine completes_next (steady_ite (fun _ => .refl s) fun _ => ?_)
  dsimp only
  split
  next q b found =>
    refine ⟨rfl, fun kept i r c at_ => ?_⟩
    have at_ : (updV s.lgr.ring (slotOf q) fun _ => .record q (b.set 25 0x01))[i] = .record r c := at_
    rw [updV_get] at at_
    split at at_
    next same =>
      obtain ⟨rfl, -⟩ := Slot.record.inj at_
      obtain ⟨j, lt, e⟩ := Vector.mem_iff_getElem.mp (Vector.mem_toList_iff.mp (newestRelease_mem found))
      obtain ⟨-, low, high⟩ := kept ⟨j, lt⟩ q b e
      exact ⟨same.symm, low, high⟩
    next => exact kept i r c at_
  · exact steady_m ..

theorem steady_tgtStpSeek (f : StpRx) : Completes (execTgtStpSeek f s) s := by
  refine completes_next (steady_tgtFrame _ _ _ _ fun n x => ?_)
  dsimp only
  split_ifs <;> exact steady_m ..

theorem steady_tgtStpSingle (f : StpRx) : Completes (execTgtStpSingle f s) s := by
  refine completes_next (steady_tgtFrame _ _ _ _ fun n x => ?_)
  dsimp only
  split <;> exact steady_m ..

theorem steady_tgtStpSelect (f : StpRx) : Completes (execTgtStpSelect f s) s := by
  refine completes_next (steady_tgtFrame _ _ _ _ fun n x => ?_)
  dsimp only
  split; · exact .refl x
  refine Steady.trans ?_ ((steady_tgtMargin _).trans (steady_m ..))
  split <;> exact steady_m ..

theorem steady_tgtStpSetLink (f : StpRx) : Completes (execTgtStpSetLink f s) s := by
  refine completes_next (steady_tgtFrame _ _ _ _ fun n x => ?_)
  dsimp only
  split_ifs <;> exact steady_m ..

theorem steady_tgtStpRead (f : StpRx) : Completes (execTgtStpRead f s) s := by
  refine completes_next (steady_tgtFrame _ _ _ _ fun n x => ?_)
  dsimp only
  split_ifs <;> exact steady_m ..

theorem steady_tgtStpArm (f : StpRx) : Completes (execTgtStpArm f s) s := by
  refine completes_next (steady_tgtFrame _ _ _ _ fun n x => ?_)
  dsimp only
  split; · exact .refl x
  split; · exact steady_m ..
  split; · exact steady_m ..
  exact ((steady_m x _).trans (steady_tgtMargin _)).trans (steady_m ..)

theorem steady_tgtStpCommit (f : StpRx) : Completes (execTgtStpCommit f s) s := by
  refine completes_next (steady_tgtFrame _ _ _ _ fun n x => ?_)
  dsimp only
  split; · exact .refl x
  split
  · split; · exact steady_m ..
    split
    · exact (steady_m ..).trans (steady_lRefuse ..)
    · exact (steady_m ..).trans (steady_lRequest ..)
  · split <;> exact steady_m ..

theorem steady_tgtStpQuiet (f : StpRx) : Completes (execTgtStpQuiet f s) s := by
  refine completes_next (steady_tgtFrame _ _ _ _ fun n x => ?_)
  dsimp only
  split_ifs <;> exact steady_m ..

theorem steady_tgtStpRelease (f : StpRx) : Completes (execTgtStpRelease f s) s := by
  refine completes_next (steady_tgtFrame _ _ _ _ fun n x => ?_)
  dsimp only
  split_ifs <;> exact steady_m ..

theorem steady_tgtStpAuth1 (f : StpRx) : Completes (execTgtStpAuth1 f s) s := by
  refine completes_next (steady_tgtFrame _ _ _ _ fun n x => ?_)
  dsimp only
  split; · exact .refl x
  split; · exact steady_m ..
  split; · exact steady_m ..
  exact ((steady_m x _).trans (steady_tgtChallenge ..)).trans (steady_m ..)

theorem steady_tgtStpAuth2 (f : StpRx) : Completes (execTgtStpAuth2 f s) s := by
  refine completes_next (steady_tgtFrame _ _ _ _ fun n x => ?_)
  dsimp only
  split; · exact .refl x
  refine (steady_tgtVerify x ((x.m.tgt.auth.pending.map (·.1)).getD 0xFF) (f.part 4 16)).trans ?_
  split <;> exact steady_m ..

theorem steady_tgtStpUnknownFrame (f : StpRx) : Completes (execTgtStpUnknownFrame f s) s := by
  refine completes_next (steady_tgtFrame _ _ _ _ fun n x => ?_)
  split
  · split <;> exact steady_m ..
  · exact .refl x

theorem steady_ledgerAppendAudit (w : Wired) (lo : BitVec 16) (data : List Byte) (check : BitVec 16) :
    Completes (execLedgerAppendAudit w lo data check s) s := by
  refine completes_next (steady_wiredCmd _ _ _ _ _ _ fun x => ?_)
  split
  · exact steady_lRefuse ..
  · exact steady_lRequest ..

theorem steady_ledgerWriteSetting (w : Wired) (record : BitVec 16) (data : List Byte) (check : BitVec 16) :
    Completes (execLedgerWriteSetting w record data check s) s := by
  refine completes_next (steady_wiredCmd _ _ _ _ _ _ fun x => ?_)
  split
  · exact steady_lRefuse ..
  · exact steady_lRequest ..

theorem steady_ledgerAccessStart : Completes (execLedgerAccessStart s) s := by
  unfold execLedgerAccessStart
  split
  · exact completes_next (.refl s)
  · dsimp only
    split
    · exact completes_next ((steady_lStart ..).before rfl rfl rfl)
    · split
      · exact completes_next ((steady_lStart ..).before rfl rfl rfl)
      · exact completes_next (.refl s)

theorem steady_wiredAccessTimeout (w : Wired) : Completes (execWiredAccessTimeout w s) s := by
  unfold execWiredAccessTimeout
  split
  · exact completes_next (.refl s)
  · exact completes_next ((steady_lRefuse ..).before rfl rfl rfl)

end Target

/-! ## All of them -/

section All

theorem steady_txHoldRelease (s : State) : Completes (execTxHoldRelease s) s := by
  refine completes_next ?_
  split
  · exact steady_txTry ..
  · exact .refl s

/-- Every command completes, and is steady: one line for each that changes more than the main part. -/
theorem exec_steady (c : Instr) (s : State) : Completes (exec c s) s := by
  cases c
  case coldStart => exact completes_next (steady_suppliesUp ..)
  case rstNLow => exact completes_next (steady_resetHeld s)
  case resetCmd v => exact completes_onServiceAll (fun x => (resetWrite x v.toNat).2) (steady_resetWrite ..)
  case mainSupplyLost => exact completes_next (steady_mainLost s)
  case vaoLow => exact completes_next (steady_vaoFall s)
  case vaoRestored => exact completes_next (steady_vaoRise s)
  case modeRequest code window =>
    cases window with
    | some dchk => exact completes_next (steady_modeByWindow ..)
    | none => exact completes_main rfl
  case targetFieldDetected => exact completes_next (steady_fieldDetected ..)
  case targetFieldLost => exact completes_next (steady_fieldLost ..)
  case rescueFieldAbsent => exact completes_next (steady_rescueEnds s)
  case firmwareReady => exact completes_next (steady_firmwareReady s)
  case phaseSourceWrite v => exact completes_onLedger (fun x => (sourceWrite x v.toNat).2) (steady_sourceWrite ..)
  case nominalPeriodWrite v => exact completes_onLedger (fun x => (nominalWrite x v.toNat).2) (steady_nominalWrite ..)
  case stitchProbe e c zMag zArg level noise =>
    show Completes (execStitchProbe e c zMag zArg level noise s) s
    unfold execStitchProbe
    split
    · exact completes_next (steady_m ..)
    · exact completes_next (.refl s)
  case tgtApduSelect => exact steady_tgtApduSelect ..
  case tgtReadBinary => exact steady_tgtReadBinary ..
  case tgtReadRecord => exact steady_tgtReadRecord ..
  case tgtAppendRecord => exact steady_tgtAppendRecord ..
  case tgtUpdateRecord => exact steady_tgtUpdateRecord ..
  case tgtInternalAuth => exact steady_tgtInternalAuth ..
  case tgtExternalAuth => exact steady_tgtExternalAuth ..
  case tgtRelease => exact steady_tgtRelease ..
  case tgtApduUnknown => exact steady_tgtApduUnknown ..
  case releaseVoltageReached => exact steady_releaseVoltageReached s
  case releaseWaitTimeout => exact steady_releaseWaitTimeout s
  case tgtStpSeek => exact steady_tgtStpSeek ..
  case tgtStpSingle => exact steady_tgtStpSingle ..
  case tgtStpSelect => exact steady_tgtStpSelect ..
  case tgtStpSetLink => exact steady_tgtStpSetLink ..
  case tgtStpRead => exact steady_tgtStpRead ..
  case tgtStpArm => exact steady_tgtStpArm ..
  case tgtStpCommit => exact steady_tgtStpCommit ..
  case tgtStpQuiet => exact steady_tgtStpQuiet ..
  case tgtStpRelease => exact steady_tgtStpRelease ..
  case tgtStpAuth1 => exact steady_tgtStpAuth1 ..
  case tgtStpAuth2 => exact steady_tgtStpAuth2 ..
  case tgtStpUnknownFrame => exact steady_tgtStpUnknownFrame ..
  case ledgerReadAudit => exact completes_next (steady_wiredCmd _ _ _ _ _ _ fun x => steady_wiredRead ..)
  case ledgerReadSetting => exact completes_next (steady_wiredCmd _ _ _ _ _ _ fun x => steady_wiredRead ..)
  case ledgerStatus => exact completes_next (steady_wiredCmd _ _ _ _ _ _ fun x => steady_wiredRead ..)
  case ledgerLease w n check =>
    exact completes_next (steady_wiredCmd _ _ _ _ _ _ fun x => (steady_setLease x w n.toNat).trans (steady_m ..))
  case ledgerAppendAudit => exact steady_ledgerAppendAudit ..
  case ledgerWriteSetting => exact steady_ledgerWriteSetting ..
  case leaseExpiry => exact completes_next (steady_of_same rfl rfl rfl)
  case ledgerAccessStart => exact steady_ledgerAccessStart s
  case ledgerWriteComplete => exact completes_next (steady_finishRunning s)
  case wiredAccessTimeout => exact steady_wiredAccessTimeout ..
  case demodPayloadEnd => exact completes_next (steady_demodPayloadEnd ..)
  case radioTxStart => exact completes_next (steady_txTry ..)
  case txHoldRelease => exact steady_txHoldRelease s
  case ackSend => exact completes_next ((steady_m s _).trans (steady_txTry ..))
  case radioProfileWrite => exact completes_onLedger _ (steady_ite (fun _ => steady_profileWrite ..) fun _ => .refl s)
  case partnerStateWrite => exact completes_onServiceAll _ (steady_ite (fun _ => steady_partnerWrite ..) fun _ => .refl s)
  case partnerKeyWrite => exact completes_onServiceAll _ (steady_ite (fun _ => ⟨rfl, id⟩) fun _ => .refl s)
  case keyErase => exact completes_onServiceAll _ (steady_ite (fun _ => ⟨rfl, id⟩) fun _ => .refl s)
  case canNodeWrite v =>
    show Completes (execCanNodeWrite v s) s
    unfold execCanNodeWrite
    refine completes_onServiceAll _ ?_
    dsimp only
    split
    · exact (steady_nodeWrite s v.toNat).trans (steady_m ..)
    · exact steady_nodeWrite s v.toNat
  case dictRead => exact completes_next (steady_serveFrom ..)
  case dictWrite => exact completes_next (steady_serveFrom ..)
  case dictSegRead => exact completes_next (steady_serveFrom ..)
  case dictSegWrite => exact completes_next (steady_serveFrom ..)
  case dictSegment => exact completes_next (steady_serveFrom ..)
  case dictAbort => exact completes_next (steady_serveFrom ..)
  case dx4032Read => exact completes_next (steady_serveCompatQ20 ..)
  case dx4032Write => exact completes_next (steady_serveCompatQ20 ..)
  case spiNop | spiReadWin | spiReadQ | spiWriteQ | spiConsume | spiDictDefer =>
    exact completes_next (steady_spiTransaction _ _ fun _ => steady_m ..)
  all_goals exact completes_main rfl

end All

/-! ## The statements -/

/-- Settles O1: `step` on a queue that is not empty. -/
theorem stepRunsTheFrontCommand : Obligations.StepRunsTheFrontCommand := by
  intro c rest s front
  unfold step
  rw [front]

/-- Settles O3: every command completes and leaves the queue alone. -/
theorem everyCommandCompletes : Obligations.EveryCommandCompletes := by
  intro c s
  obtain ⟨t, answer, steady⟩ := exec_steady c s
  exact ⟨t, answer, steady.queue⟩

/-- Settles O43: a step is the idle one, which leaves the ledger, or that of the command at the front. -/
theorem everyStepKeepsTheRing : Obligations.EveryStepKeepsTheRing := by
  intro s t kept h
  cases front : s.pending with
  | nil =>
    rw [idleLetsOnePeriodPass s front] at h
    cases h
    exact kept
  | cons c rest =>
    rw [stepRunsTheFrontCommand c rest s front] at h
    obtain ⟨u, answer, steady⟩ := exec_steady c { s with pending := rest }
    rw [answer] at h
    cases h
    exact steady.ring kept

/-- Settles O44: the ring as shipped holds no record. -/
theorem ringAtReset : Obligations.RingAtReset := by
  intro i q b found
  have empty : State.reset.lgr.ring[i] = .empty := by simp [State.reset]
  rw [empty] at found
  cases found

end Sys2Proof.Machine
end

section
/-!
The pool on its own (R346–R349): the statement fails for the queue of the journal. A cell that is retired is journaled, and the packet of that
journal entry is added to Q22, where the statement promises the packets of the queue as they were but for the word that is marked.
-/

namespace Sys2Proof.Machine

/-- The packet that holds the cell: closed, and without words beyond its header. -/
def scrubbedPacket : Packet := { type := 0x30, source := 0x30 }

/-- In SURVEY the journal's queue Q22 holds one packet. -/
def scrubbedJournal : State :=
  { m := modQ (modPw {} fun p => { p with mode := .survey, ctlOn := true, fwRunning := true }) 22 fun x => { x with pkts := [scrubbedPacket] } }

/-- The controller runs, no cell is retired, and Q22 holds the packet alone. -/
theorem scrubbedJournal_ready : ctlOn scrubbedJournal.m = true ∧ 0 ∉ scrubbedJournal.m.pool.retired ∧
    (scrubbedJournal.m.pool.qs[(22 : Fin 32)]).pkts = [scrubbedPacket] :=
  ⟨by decide +kernel, by decide +kernel, rfl⟩

/-- The double-bit error retires the cell, and the journal entry of the retirement is a second packet of Q22. -/
theorem scrubbedJournal_twoPackets :
    ((scrubPass scrubbedJournal.m { doubles := [(0, some 22, 0)] }).pool.qs[(22 : Fin 32)]).pkts.length = 2 := by
  decide +kernel

/-- Refutes O36: a double-bit error in a packet of Q22. The word is marked and the cell retired as R347 and R348 have it, but the retirement is
journaled (R348) and the entry's packet goes to Q22 itself, behind the packet that the clause claims to stand there with the old rest only. -/
theorem not_poolService : ¬ Obligations.PoolService := by
  rintro ⟨⟨-, -, -, -, -, marked, -⟩, -⟩
  obtain ⟨running, unretired, held⟩ := scrubbedJournal_ready
  obtain ⟨t, run, packets, -⟩ := marked scrubbedJournal 0 22 scrubbedPacket [] 0 running unretired held (Nat.zero_le _) (by simp)
  have result : { scrubbedJournal with m := scrubPass scrubbedJournal.m { doubles := [(0, some 22, 0)] } } = t := Host.Outcome.next.inj run
  rw [← result] at packets
  exact absurd (scrubbedJournal_twoPackets.symm.trans (congrArg List.length packets)) (by decide)

end Sys2Proof.Machine
end

section
/-!
Proofs of the statement on the host's writes to the queues (R331, R336, R343): what a flush leaves, that no producer goes on where none is stalled,
and the bounds of a quota.
-/

namespace Sys2Proof.Machine

variable {m : Main} {q : Fin 32}

/-! ## No stalled producer (R339) -/

/-- No packet of the device waits for space in a queue, and no result, report or record. -/
structure NoneStalled (m : Main) : Prop where
  disp   : m.disp.stalled = []
  ctx    : ∀ (e : Fin 24) (c : Fin 2), (ctxOf m e c).stalled = false
  lanes  : ∀ k : Fin 16, (m.sv.lanes[k]).stalled = false
  survey : m.sv.recOut = none
  watch  : m.wt.recOut = none

theorem NoneStalled.of_poolOnly {a b : Main} (h : NoneStalled a) (only : poolOnly a b) : NoneStalled b := by
  obtain ⟨disp, ctx, lanes, survey, watch⟩ := h
  rw [poolOnly] at only
  rw [only]
  exact ⟨disp, ctx, lanes, survey, watch⟩

theorem dispResume_noneStalled (h : NoneStalled m) : dispResume m q = m := by
  have nothing : ({ m with disp := { m.disp with stalled := [] } } : Main) = m := by rw [← h.disp]
  rw [dispResume, h.disp, forEach_nil, nothing]

theorem resultResume_noneStalled (h : NoneStalled m) (e : Fin 24) (c : Fin 2) : resultResume m e c = m := by
  rw [resultResume, h.ctx e c, Bool.and_false]
  cases (ctxOf m e c).job <;> rfl

theorem ctxResume_noneStalled (h : NoneStalled m) : ctxResume m q = m := by
  refine forEach_same (fun x => ?_) _
  cases (ctxOf m x.1 x.2).job with
  | none => rfl
  | some j => exact (congrArg (ite _ · m) (resultResume_noneStalled h x.1 x.2)).trans (ite_self m)

theorem laneResume_noneStalled (h : NoneStalled m) (k : Fin 16) : laneResume m k = m := by
  rw [laneResume, h.lanes k]
  rfl

/-- Where no producer stands, none goes on. -/
theorem producersResume_noneStalled (h : NoneStalled m) : producersResume m q = m := by
  have lanes : forEach (allFin 16) m laneResume = m := forEach_same (laneResume_noneStalled h) _
  have watch : watchResume m = m := by rw [watchResume, h.watch]
  simp [producersResume, dispResume_noneStalled h, ctxResume_noneStalled h, lanes, watch, h.survey]

/-! ## A flush (R343) -/

theorem cuSink_pool (m : Main) (id : Nat) : (cuSink m id).pool = m.pool := by
  refine forEach_keeps (·.pool) _ (fun x c => ?_) _ _
  split
  · exact count_pool x 0x7018 0x04
  · rfl

/-- A queue is flushed: the pool it leaves. -/
theorem flushQ_pool (m : Main) (q : Fin 32) : (flushQ m q).pool =
    { m.pool with
      returning := m.pool.returning + ((m.pool.qs[q]).pkts.map Packet.cells).sum
      qs := updV m.pool.qs q fun x =>
        { x with pkts := [], sinks := x.sinks ++ ((m.pool.qs[q]).pkts.filter fun p => p.opened).map Packet.toSink,
                 keepMark := if x.keepMark = 0 then 0 else 2 } } :=
  forEach_keeps (·.pool) (fun x (p : Packet) => cuSink x p.id) (fun x p => cuSink_pool x p.id) _ _

theorem poolOnly_flushQ (m : Main) (q : Fin 32) : poolOnly m (flushQ m q) :=
  poolOnly_trans (poolOnly_trans (poolOnly_pool _ _) (poolOnly_modQ _ q _)) (poolOnly_forEach _ _ _ fun x p => poolOnly_cuSink x p.id)

/-- With no producer stalled, a flush in its modes is the flush of the queue alone. -/
theorem queueFlush_flushQ (ctl : ctlOn m = true) (mode : m.pw.mode.isMain = true ∨ m.pw.mode = .hold) (h : NoneStalled m) :
    queueFlush m q 0xF1 = flushQ m q := by
  have writable : (m.pw.mode.isMain || m.pw.mode == .hold) = true := by
    rcases mode with mode | mode <;> simp [mode]
  simp [queueFlush, ctl, writable, producersResume_noneStalled (h.of_poolOnly (poolOnly_flushQ m q))]

/-! ## Quotas (R336) -/

/-- The minima of the other queues are the sum of all minima without the queue's own. -/
theorem minSum_others (m : Main) (q : Fin 32) :
    (((allFin 32).filter (· ≠ q)).map fun r => (m.pool.qs[r]).cmin).sum = minSum m - (m.pool.qs[q]).cmin := by
  have parts := (List.perm_cons_erase (List.mem_finRange q)).map (fun r : Fin 32 => (m.pool.qs[r]).cmin)
  have rest : (allFin 32).filter (· ≠ q) = (allFin 32).erase q := by
    rw [allFin, (List.nodup_finRange 32).erase_eq_filter q]
    exact List.filter_congr fun r _ => by simp [bne, beq_eq_decide]
  have total : minSum m = (m.pool.qs[q]).cmin + (((allFin 32).erase q).map fun r => (m.pool.qs[r]).cmin).sum :=
    parts.sum_eq
  rw [rest, total]
  omega

/-- A quota in its range is taken where the bounds of R336 hold. -/
theorem writeQuota_taken {isMax : Bool} {v : Nat} (mode : m.pw.mode.isMain = true) (range : isMax = true → 1 ≤ v ∧ v ≤ 16384)
    (ok : quotaOk m q isMax v = true) :
    writeQuota m q isMax v = (true, modQ m q fun x => if isMax then { x with cmax := v } else { x with cmin := v }) := by
  have inside : (isMax && (v == 0 || decide (16384 < v))) = false := by
    cases isMax with
    | false => rfl
    | true =>
      obtain ⟨low, high⟩ := range rfl
      simp
      omega
  simp [writeQuota, mode, inside, ok]

/-- A quota in its range is refused and counted where they do not. -/
theorem writeQuota_refused {isMax : Bool} {v : Nat} (mode : m.pw.mode.isMain = true) (range : isMax = true → 1 ≤ v ∧ v ≤ 16384)
    (bad : quotaOk m q isMax v = false) : writeQuota m q isMax v = (false, count m 0x70C0 0x0A) := by
  have inside : (isMax && (v == 0 || decide (16384 < v))) = false := by
    cases isMax with
    | false => rfl
    | true =>
      obtain ⟨low, high⟩ := range rfl
      simp
      omega
  simp [writeQuota, mode, inside, bad]

/-- A minimum that the packets of the queue already fill keeps the bounds, where the reserve of 1024 cells stays. -/
theorem quotaOk_min {v : Nat} (below : v ≤ (m.pool.qs[q]).cmax)
    (fits : (((allFin 32).filter (· ≠ q)).map fun r => (m.pool.qs[r]).cmin).sum + v ≤ poolCells - m.pool.retired.length - 1024)
    (few : m.pool.retired.length ≤ 15360) (filled : v ≤ (m.pool.qs[q]).cells) : quotaOk m q false v = true := by
  have reserve : minSum m - (m.pool.qs[q]).cmin + v + 1024 ≤ poolCells - m.pool.retired.length := by
    rw [minSum_others] at fits
    unfold poolCells at fits ⊢
    omega
  simp [quotaOk, -Fin.getElem_fin, below, filled, reserve]

/-! ## The statement -/

/-- A flush empties the queue, sinks its open packets and returns the cells (R343). -/
theorem queueFlush_answers (s : State) (q : Fin 32) (ctl : ctlOn s.m = true) (up : s.m.pw.ctlDown = false)
    (mode : s.m.pw.mode.isMain = true ∨ s.m.pw.mode = .hold) (h : NoneStalled s.m) : answers (.queueFlush q 0xF1#8) s fun t =>
      (t.m.pool.qs[q]).pkts = [] ∧ (t.m.pool.qs[q]).detached = (s.m.pool.qs[q]).detached ∧
      (t.m.pool.qs[q]).sinks.map (·.id) = (s.m.pool.qs[q]).sinks.map (·.id) ++ ((s.m.pool.qs[q]).pkts.filter (·.opened)).map (·.id) ∧
      t.m.pool.returning = s.m.pool.returning + ((s.m.pool.qs[q]).pkts.map Packet.cells).sum ∧
      (∀ r : Fin 32, r ≠ q → t.m.pool.qs[r] = s.m.pool.qs[r]) ∧ mainOnly s t ∧ poolOnly s.m t.m := by
  refine ⟨_, exec_of_onService (f := fun m => queueFlush m q 0xF1#8) rfl up (queueFlush_flushQ ctl mode h), ?_⟩
  refine ⟨?_, ?_, ?_, ?_, fun r other => ?_, mainOnly_m _ _, poolOnly_flushQ _ _⟩ <;>
    simp only [flushQ_pool, updV_get, if_true]
  · rw [List.map_append, List.map_map]
    rfl
  · rw [if_neg other]

/-- Settles O35: a flush with no producer stalled; a quota by the bounds of R336, where the minima of the others are the sum without the queue's
own; a consumer by its mode and code. -/
theorem queueWrites : Obligations.QueueWrites := by
  refine ⟨fun s q ctl up mode disp ctx lanes survey watch => queueFlush_answers s q ctl up mode ⟨disp, ctx, lanes, survey, watch⟩,
    fun s q v h => ?_, fun s q v up mode low high min => ?_, fun s q v up mode low high min => ?_,
    fun s q v up mode below fits few filled => ?_, fun s q v up mode above => ?_, fun s q v up mode small code => ?_,
    fun s q up mode range => ?_, fun s q v h => ?_⟩
  case refine_1 =>
    rcases h with code | down
    · exact exec_onService_same (f := fun m => queueFlush m q v) rfl (by simp [queueFlush, code])
    · exact exec_onService_down (f := fun m => queueFlush m q v) rfl down
  case refine_2 =>
    have taken := writeQuota_taken (q := q) (isMax := true) mode (fun _ => ⟨low, high⟩) (by simpa [quotaOk] using min)
    exact exec_of_onService (f := fun m => (writeQuota m q true v.toNat).2) rfl up (congrArg Prod.snd taken)
  case refine_3 =>
    have refused := writeQuota_refused (q := q) (isMax := true) mode (fun _ => ⟨low, high⟩) (by simpa [quotaOk] using min)
    exact exec_of_onService (f := fun m => (writeQuota m q true v.toNat).2) rfl up (congrArg Prod.snd refused)
  case refine_4 =>
    have taken := writeQuota_taken (isMax := false) mode nofun (quotaOk_min below fits few filled)
    exact exec_of_onService (f := fun m => (writeQuota m q false v.toNat).2) rfl up (congrArg Prod.snd taken)
  case refine_5 =>
    have bad : quotaOk s.m q false v.toNat = false := by simp [quotaOk, -Fin.getElem_fin, Nat.not_le.2 above]
    exact exec_of_onService (f := fun m => (writeQuota m q false v.toNat).2) rfl up
      (congrArg Prod.snd (writeQuota_refused (isMax := false) mode nofun bad))
  case refine_6 =>
    refine exec_of_onService (f := fun m => (writeConsumer m q v.toNat).2) rfl up ?_
    have allowed : ¬ (v.toNat = 1 ∧ (q.val < 24 ∨ 28 ≤ q.val)) := by omega
    simp [writeConsumer, mode, Nat.not_lt.2 small, allowed]
  case refine_7 =>
    refine exec_of_onService (f := fun m => (writeConsumer m q (1#8).toNat).2) rfl up ?_
    simp [writeConsumer, mode, range]
  case refine_8 =>
    rcases h with other | down
    · exact exec_onService_same (f := fun m => (writeConsumer m q v.toNat).2) rfl (by simp [writeConsumer, other])
    · exact exec_onService_down (f := fun m => (writeConsumer m q v.toNat).2) rfl down

end Sys2Proof.Machine
end

section
/-!
Proofs of the statement on the target as a card up to its activation (R354, R355, R376).
-/

namespace Sys2Proof.Machine

variable {s : State} {m : Main}

/-! ## REQA and WUPA (R355, R376) -/

theorem isoPoll_stp (h : m.tgt.session = .stp) (wake : Bool) : isoPoll m wake = m := by
  simp [isoPoll, h]

/-- In an open session, a card in IDLE answers both. -/
theorem isoPoll_idle (carries : tgtCarries m = true) (enabled : tgtEnabled m 0 = true) (session : m.tgt.session = .iso) (st : m.tgt.iso.st = 0)
    (wake : Bool) : isoPoll m wake = { m with tgt := { m.tgt with iso := { m.tgt.iso with st := 1 }, resp := [0x04, 0x00] } } := by
  simp [isoPoll, carries, enabled, session, st, tgtSend, modIso, modTgt]

theorem isoPoll_halt_reqa (session : m.tgt.session = .iso) (st : m.tgt.iso.st = 3) : isoPoll m false = m := by
  simp [isoPoll, session, st]

theorem isoPoll_halt_wupa (carries : tgtCarries m = true) (enabled : tgtEnabled m 0 = true) (session : m.tgt.session = .iso)
    (st : m.tgt.iso.st = 3) : isoPoll m true = { m with tgt := { m.tgt with iso := { m.tgt.iso with st := 4 }, resp := [0x04, 0x00] } } := by
  simp [isoPoll, carries, enabled, session, st, tgtSend, modIso, modTgt]

theorem beginSession_tgt (m : Main) (k : TgtSession) :
    (beginSession m k).tgt = { m.tgt with session := k, auth := { lockout := m.tgt.auth.lockout } } :=
  (tgtEvent_tgt ..).trans (countAo_tgt ..)

/-- The first REQA or WUPA opens the session (R355). -/
theorem isoPoll_opens (carries : tgtCarries m = true) (enabled : tgtEnabled m 0 = true) (session : m.tgt.session = .none)
    (st : m.tgt.iso.st = 0) (wake : Bool) :
    isoPoll m wake = tgtSend (modIso (beginSession m .iso) fun i => { i with st := 1 }) [0x04, 0x00] := by
  have idle : (beginSession m .iso).tgt.iso.st = 0 := by rw [beginSession_tgt]; exact st
  simp [isoPoll, carries, enabled, session, idle]

/-! ## Anticollision (R376) -/

/-- The exclusive or of bytes, as numbers and as bytes. -/
theorem foldl_xor_toNat (bs : List Byte) (acc : Byte) :
    bs.foldl (fun a b => a ^^^ b.toNat) acc.toNat = (bs.foldl (· ^^^ ·) acc).toNat := by
  induction bs generalizing acc with
  | nil => rfl
  | cons b rest ih => simpa only [List.foldl_cons, BitVec.toNat_xor] using ih (acc ^^^ b)

/-- The UID with its check byte: the UID's own bytes, then the check. -/
theorem leBytes_uidCheck (uid : BitVec 32) (c : Byte) :
    leBytes 5 (uid.toNat + 2 ^ 32 * c.toNat) = leBytes 4 uid.toNat ++ [c] := by
  have small := uid.isLt
  have parts : leBytes 5 (uid.toNat + 2 ^ 32 * c.toNat) =
      leBytes 4 (uid.toNat + 2 ^ 32 * c.toNat) ++ [byte ((uid.toNat + 2 ^ 32 * c.toNat) / 2 ^ 32)] := by
    simp [leBytes, List.range_succ]
  have low : leBytes 4 (uid.toNat + 2 ^ 32 * c.toNat) = leBytes 4 uid.toNat := by
    refine List.map_congr_left fun i inside => BitVec.eq_of_toNat_eq ?_
    have inside : i < 4 := List.mem_range.mp inside
    interval_cases i <;> simp [byte, BitVec.toNat_ofNat] <;> omega
  have high : (uid.toNat + 2 ^ 32 * c.toNat) / 2 ^ 32 = c.toNat := by omega
  rw [parts, low, high, byte, BitVec.ofNat_toNat, BitVec.setWidth_eq]

/-- What the card answers to the first anticollision frame: its UID and the check byte. -/
def uidAnswer (uid : BitVec 32) : List Byte := leBytes 4 uid.toNat ++ [(leBytes 4 uid.toNat).foldl (· ^^^ ·) 0]

/-- The check byte is the exclusive or of the UID's bytes (ISO/IEC 14443-3). -/
theorem uidAnswer_check (uid : BitVec 32) : (uidAnswer uid).foldl (· ^^^ ·) 0 = 0 := by
  simp [uidAnswer]

theorem anticollision_first (hears : isoHears s.m = true) (st : s.m.tgt.iso.st = 1 ∨ s.m.tgt.iso.st = 4) (bits : BitVec 32) :
    exec (.tgtIsoAnticollision 0x20#8 bits) s = .next { s with m := tgtSend s.m (uidAnswer s.m.tgt.iso.uid) } := by
  have state : (s.m.tgt.iso.st = 1 || s.m.tgt.iso.st = 4) = true := by simpa using st
  have check := foldl_xor_toNat (leBytes 4 s.m.tgt.iso.uid.toNat) 0
  have answer : leBytes ((40 - 0 + 7) / 8) ((s.m.tgt.iso.uid.toNat + 2 ^ 32 * ((leBytes 4 s.m.tgt.iso.uid.toNat).foldl
      (fun a b => a ^^^ b.toNat) 0)) / 2 ^ 0) = uidAnswer s.m.tgt.iso.uid := by
    rw [show (0 : Nat) = (0 : Byte).toNat from rfl, check, uidAnswer, ← leBytes_uidCheck]
    simp
  have own : (0x20#8).toNat / 16 - 2 = 0 ∧ (0x20#8).toNat % 16 = 0 := by decide
  show Host.Outcome.next _ = _
  refine congrArg Host.Outcome.next (congrArg (fun m => ({ s with m := m } : State)) ?_)
  dsimp only
  rw [if_neg (by simp [hears]), if_pos state, own.1, own.2, if_pos (by simp [Nat.mod_one])]
  exact congrArg (tgtSend s.m) answer

/-! ## The statement -/

/-- The frame of the card's states from ACTIVE on that it takes to halt or activate. -/
theorem isoActive_test (st : m.tgt.iso.st = 2 ∨ m.tgt.iso.st = 5) : (m.tgt.iso.st = 2 || m.tgt.iso.st = 5) = true := by simpa using st

/-- The card that has taken a RATS. -/
def ratsTaken (m : Main) (param : Byte) : Main :=
  sendA (modIso m fun i => { i with
    st := 6, blockNo := true, rateRx := 0, rateTx := 0, fsd := isoFsd (param.toNat / 16), chain := [], lastResp := [0x05, 0x78, 0x33, 0x40, 0x00] })
    [0x05, 0x78, 0x33, 0x40, 0x00]

/-- Settles O37: each frame in the state of the card that takes it; the check byte of the anticollision is the exclusive or of the UID. -/
theorem targetCard : Obligations.TargetCard := by
  unfold Obligations.TargetCard
  refine ⟨?idle, ?opens, ?stp, ?halted, ?wakes, ?anticollision, ?selects, ?selectsAgain, ?other, ?halts, ?rats, ?pps, ?deselects, ?repeats⟩
  case idle => exact fun s carries enabled session st => exec_of_onMain (f := fun m => isoPoll m false) rfl (isoPoll_idle carries enabled session st _)
  case opens =>
    intro s carries enabled session st
    refine ⟨_, exec_of_onMain (f := fun m => isoPoll m false) rfl (isoPoll_opens carries enabled session st _), ?_⟩
    simp only [tgtSend, modIso, modTgt, beginSession_tgt]
    refine ⟨trivial, trivial, trivial, trivial, trivial, trivial, targetOnly_m (targetOnly_refl s) (ledgerMain_trans (ledgerMain_beginSession s.m .iso) ?_)⟩
    rfl
  case stp =>
    exact fun s session => ⟨exec_of_onMain (f := fun m => isoPoll m false) rfl (isoPoll_stp session _),
      exec_of_onMain (f := fun m => isoPoll m true) rfl (isoPoll_stp session _)⟩
  case halted => exact fun s session st => exec_of_onMain (f := fun m => isoPoll m false) rfl (isoPoll_halt_reqa session st)
  case wakes =>
    exact fun s carries enabled session st => exec_of_onMain (f := fun m => isoPoll m true) rfl (isoPoll_halt_wupa carries enabled session st)
  case anticollision =>
    intro s bits hears st
    refine ⟨_, anticollision_first hears st bits, ?_, ?_, uidAnswer_check s.m.tgt.iso.uid, rfl⟩
    · exact (List.length_append ..).trans (by rw [leBytes_length]; rfl)
    · exact List.take_left' (leBytes_length ..)
  case selects =>
    intro s hears st
    show execTgtIsoSelectL3 s.m.tgt.iso.uid s = _
    simp [execTgtIsoSelectL3, onMain, hears, st, sendA, tgtSend, modIso, modTgt, withCrcA]
  case selectsAgain =>
    intro s hears st
    show execTgtIsoSelectL3 s.m.tgt.iso.uid s = _
    simp [execTgtIsoSelectL3, onMain, hears, st, sendA, tgtSend, modIso, modTgt, withCrcA]
  case other =>
    intro s uid hears different st
    show execTgtIsoSelectL3 uid s = _
    simp [execTgtIsoSelectL3, onMain, hears, st, different, isoFall, modIso, modTgt]
  case halts =>
    intro s hears st
    show execTgtIsoHlta s = _
    simp [execTgtIsoHlta, onMain, hears, isoActive_test st, modIso, modTgt]
  case rats =>
    intro s param hears st
    refine ⟨{ s with m := ratsTaken s.m param }, ?_, rfl, rfl, rfl, rfl, rfl, rfl, rfl⟩
    show execTgtIsoRats param s = _
    simp [execTgtIsoRats, onMain, hears, isoActive_test st, ratsTaken]
  case pps =>
    intro s pps0 pps1 hears st given receive transmit
    show execTgtIsoPps pps0 pps1 s = _
    simp [execTgtIsoPps, onMain, hears, st, given, receive, transmit, sendA, tgtSend, modIso, modTgt, withCrcA]
  case deselects =>
    intro s hears st
    show execTgtIsoDeselect s = _
    simp [execTgtIsoDeselect, onMain, hears, Nat.not_lt.2 st, sendA, tgtSend, modIso, modTgt, withCrcA]
  case repeats =>
    intro s nak hears st
    show execTgtIsoRBlock nak s.m.tgt.iso.blockNo s = _
    simp [execTgtIsoRBlock, onMain, hears, Nat.not_lt.2 st, sendA, tgtSend, modTgt, withCrcA]

end Sys2Proof.Machine
end

section
/-!
Proofs of the statement on the ledger application (R371, R377, R378): an APDU through `answers_apdu` to its reaction, a write to the arbiter's
queue.
-/

namespace Sys2Proof.Machine

variable {s t : State} {P : State → Prop}

/-- A command of the application that hears none: no application is selected (R378). -/
theorem apdu_unselected (heard : apduHears s = true) (unselected : s.m.tgt.iso.selected = false) (pOk : Bool) (f : State → State) :
    apdu s pOk f = apduEnd { s with m := dropPending s.m } [] 0x6A82 := by
  simp [apdu, heard, unselected]

/-- The answer to a command that only ends the pending challenge. -/
theorem answered_dropPending (data : List Byte) (sw : Nat) :
    apduAnswered s (apduEnd { s with m := dropPending s.m } data sw) data sw ∧
      targetOnly s (apduEnd { s with m := dropPending s.m } data sw) :=
  ⟨apduAnswered_apduEnd rfl, targetOnly_apduEnd (targetOnly_dropPending s)⟩

/-- A refused write is answered, and told as an event (R371, R384). -/
theorem answered_apduRefuse (st : LStatus) : apduAnswered s (apduRefuse { s with m := dropPending s.m } st) [] st.sw ∧
    targetOnly s (apduRefuse { s with m := dropPending s.m } st) :=
  ⟨apduAnswered_apduEnd ((congrArg Target.iso (tgtEvent_tgt (dropPending s.m) true 3 1 st.code 0xFF 0)).trans rfl),
    targetOnly_apduEnd (targetOnly_m (targetOnly_dropPending s) (ledgerMain_writeRefused ..))⟩

/-! ## SELECT (R377, R378) -/

/-- SELECT by an AID ends authentication; its application is selected if it is the ledger's. -/
theorem answers_apduSelect (heard : apduHears s = true) (aid : List Byte)
    (result : P (apduEnd { s with m := modIso (modAuth s.m fun a => { lockout := a.lockout }) fun i => { i with selected := aid == ledgerAid } } []
      (if (aid == ledgerAid) = true then 0x9000 else 0x6A82))) : answers (.tgtApduSelect 0x04#8 0x0C#8 aid) s P := by
  refine ⟨_, ?_, result⟩
  show execTgtApduSelect 0x04#8 0x0C#8 aid s = _
  simp [execTgtApduSelect, heard]

/-- The card that has selected answers as it stood at the command. -/
theorem answered_select (f : TgtAuth → TgtAuth) (ok : Bool) (sw : Nat) :
    apduAnswered s (apduEnd { s with m := modIso (modAuth s.m f) fun i => { i with selected := ok } } [] sw) [] sw :=
  apduAnswered_apduEnd (t := { s with m := modIso (modAuth s.m f) fun i => { i with selected := ok } }) (s :=
    { s with m := modIso (modAuth s.m f) fun i => { i with selected := ok } }) rfl

theorem targetOnly_select (f : TgtAuth → TgtAuth) (ok : Bool) (sw : Nat) :
    targetOnly s (apduEnd { s with m := modIso (modAuth s.m f) fun i => { i with selected := ok } } [] sw) :=
  targetOnly_apduEnd (targetOnly_m (targetOnly_refl s) (ledgerMain_trans (ledgerMain_modAuth ..) (ledgerMain_modIso ..)))

/-! ## Reads (R377) -/

/-- EF.STATUS begins with the newest sequence number. -/
theorem efStatus_head (s : State) : (efStatus s).1.take 4 = leBytes 4 s.lgr.head := by
  simp [efStatus]

/-- P1 and P2 that READ BINARY takes (R377): one of the two files, and an offset in it. -/
def readBinaryParams (p1 p2 : Byte) : Bool :=
  (p1 == 0x81 || p1 == 0x82) && decide (p2.toNat < if p1.toNat - 0x80 = 1 then 32 else 16)

theorem readBinary_id {p2 : Byte} (inside : p2.toNat < 32) : readBinaryParams 0x81#8 p2 = true := by
  simp [readBinaryParams, inside]

theorem readBinary_status : readBinaryParams 0x82#8 0x00#8 = true := by
  simp [readBinaryParams]

/-- A record of the ring that is in range and valid is read. -/
theorem auditRead_ok {n : Nat} {b : List Byte} (low : 1 ≤ n) (high : n ≤ 240) (held : n ≤ s.lgr.head)
    (valid : s.lgr.at_ (s.lgr.head + 1 - n) = some b) : auditRead s n = (.ok, auditBytes (s.lgr.head + 1 - n) b) := by
  have inside : (n = 0 || decide (240 < n) || decide (s.lgr.head < n)) = false := by
    simp
    omega
  rw [auditRead, inside]
  simp [valid]

/-- READ RECORD by one of the two files. -/
theorem answers_readRecord (hears : applicationHears s) {n p2 : Byte} (file : p2 = 0x1C#8 ∨ p2 = 0x24#8) {r : LStatus × List Byte}
    (reads : (if !(s.m.tgt.auth.key0 || (p2 == 0x1C#8 && cfgB s.m 0x6000 0x03)) then (LStatus.access, [])
      else if p2 == 0x1C#8 then auditRead s n.toNat
      else if n = 0 then (.range, []) else settingRead s (n.toNat - 1) false) = r) :
    answers (.tgtReadRecord n p2) s fun t => apduAnswered s t r.2 r.1.sw ∧ targetOnly s t := by
  have known : (p2 == 0x1C || p2 == 0x24) = true := by rcases file with rfl | rfl <;> rfl
  have command : exec (.tgtReadRecord n p2) s = .next (apdu s (p2 == 0x1C || p2 == 0x24) _) := rfl
  rw [known] at command
  refine answers_apdu hears command ?_
  rw [← reads]
  exact answered_dropPending ..

/-! ## Writes (R378, R366) -/

/-- No settings write waits or runs. -/
def noSetting (l : Ledger) : Prop := (∀ a ∈ l.waiting, a.isSetting = false) ∧ ∀ a, l.running = some a → a.isSetting = false

/-- An access that meets no settings write, or is none, waits for the arbiter. -/
theorem lRequest_waits {a : LAccess} (clear : a.isSetting = false ∨ noSetting s.lgr) :
    lRequest s a = { s with lgr := { s.lgr with waiting := s.lgr.waiting ++ [a] } } := by
  rcases clear with plain | ⟨waiting, running⟩
  · simp [lRequest, plain]
  · have none_ : s.lgr.waiting.any LAccess.isSetting = false := List.any_eq_false.2 fun a mem => by simp [waiting a mem]
    have rest : ((s.lgr.running.map LAccess.isSetting) == some true) = false := by
      cases current : s.lgr.running with
      | none => rfl
      | some a => simp [running a current]
    simp [lRequest, none_, rest]

/-- A settings write that meets another one is refused with `RETRY` (R368, R374). -/
theorem lRequest_clash {a : LAccess} (write : a.isSetting = true) (other : ∃ b ∈ s.lgr.waiting, b.isSetting = true) :
    lRequest s a = lRefuse { s with m := countAo s.m 0x70D0 0x05 } a .retry := by
  have waits : s.lgr.waiting.any LAccess.isSetting = true := List.any_eq_true.2 other
  simp [lRequest, write, waits]

/-- APPEND RECORD of a size that fits. -/
theorem answers_append (hears : applicationHears s) {data : List Byte} (least : 5 ≤ data.length) (most : data.length ≤ 47)
    (result : P (if !s.m.tgt.auth.key0 then apduRefuse { s with m := dropPending s.m } .access
      else if (nth data 0 0).toNat < 0x20 then apduRefuse { s with m := dropPending s.m } .range
      else lRequest { s with m := dropPending s.m }
        (LAccess.mk .field (.append (auditBody (nth data 0 0).toNat 1 (leNat ((data.drop 1).take 4)) 0 (data.drop 5))) 1 false))) :
    answers (.tgtAppendRecord 0x00#8 0x18#8 data) s P := by
  refine answers_apdu hears rfl ?_
  have size : (decide (data.length < 5) || decide (47 < data.length)) = false := by
    simp
    omega
  dsimp only
  rw [size]
  exact result

/-- UPDATE RECORD of a host record, by key 0 and where [6000:04] allows it, goes to the arbiter. -/
theorem answers_update (hears : applicationHears s) {p1 : Byte} {data : List Byte} (least : 13 ≤ p1.toNat) (most : p1.toNat ≤ 16)
    (size : data.length = 20) (key : s.m.tgt.auth.key0 = true) (allowed : cfgN s.m 0x6000 0x04 ≠ 0)
    (result : P (lRequest { s with m := dropPending s.m } { port := .field, reply := 2, op := .setting (p1.toNat - 1) data })) :
    answers (.tgtUpdateRecord p1 0x24#8 data) s P := by
  have range : (decide (13 ≤ p1.toNat) && decide (p1.toNat ≤ 16) && (0x24#8 : Byte) == 0x24) = true := by simp [least, most]
  have open_ : (!(dropPending s.m).tgt.auth.key0 || !cfgB (dropPending s.m) 0x6000 0x04) = false := by
    have held : (dropPending s.m).tgt.auth.key0 = true := key
    have set : cfgB (dropPending s.m) 0x6000 0x04 = true := bne_iff_ne.2 allowed
    rw [held, set]
    rfl
  refine answers_apdu hears (congrArg (fun b => Host.Outcome.next (apdu s b _)) range) ?_
  dsimp only
  rw [open_]
  simpa [size] using result

/-- An access of the field that is refused within an ISO/IEC 14443-A session is answered with its status word. -/
theorem answered_lRefuse_setting {a : LAccess} {st : LStatus} (heard : apduHears s = true) (only : targetOnly s t) (iso : t.m.tgt = (dropPending s.m).tgt)
    (reply : a.reply = 2) (write : a.isRead = false) : apduAnswered s (lRefuse t a st) [] st.sw ∧ targetOnly s (lRefuse t a st) := by
  have session : s.m.tgt.session = .iso := by
    simp only [apduHears, isoHears, Bool.and_eq_true, beq_iff_eq] at heard
    exact heard.1.1.1.1.2
  have told : (writeRefused t.m a.origin st.code).tgt = (dropPending s.m).tgt := (tgtEvent_tgt ..).trans iso
  have open_ : ((writeRefused t.m a.origin st.code).tgt.session == .iso) = true := by
    rw [told]
    exact beq_iff_eq.2 session
  have answer : lRefuse t a st = apduEnd { t with m := writeRefused t.m a.origin st.code } [] st.sw := by
    rw [lRefuse, write, lRespond, reply]
    simp only [Bool.false_eq_true, if_false, open_, if_true]
    rfl
  rw [answer]
  exact ⟨apduAnswered_apduEnd ((congrArg Target.iso told).trans rfl), targetOnly_apduEnd (targetOnly_m only (ledgerMain_writeRefused ..))⟩

/-! ## The statement -/

/-- Settles O38: each command through the application's test to its reaction; a write within its bounds to the arbiter's queue. -/
theorem ledgerApplication : Obligations.LedgerApplication := by
  unfold Obligations.LedgerApplication
  refine ⟨?selects, ?unknownAid, ?readsId, ?readsStatus, ?unselected, ?readsAudit, ?auditClosed, ?readsSetting, ?class_, ?instruction,
    ?appends, ?appendClosed, ?updates, ?clashes⟩
  case selects =>
    intro s heard
    exact answers_apduSelect heard _ ⟨answered_select _ _ _, rfl, rfl, rfl, rfl, rfl, targetOnly_select _ _ _⟩
  case unknownAid =>
    intro s aid heard other
    refine answers_apduSelect heard aid ?_
    have foreign : (aid == ledgerAid) = false := beq_false_of_ne other
    rw [foreign]
    exact ⟨answered_select _ _ _, targetOnly_select _ _ _⟩
  case readsId =>
    intro s p2 le hears inside
    refine answers_apdu hears (congrArg (fun b => Host.Outcome.next (apdu s b _)) (readBinary_id inside)) ?_
    exact ⟨apduAnswered_apduEnd rfl, rfl, targetOnly_apduEnd (targetOnly_dropPending s)⟩
  case readsStatus =>
    intro s hears
    refine answers_apdu hears (congrArg (fun b => Host.Outcome.next (apdu s b _)) readBinary_status) ?_
    have first : ((efStatus { s with m := dropPending s.m }).1.drop 0).take 4 = leBytes 4 s.lgr.head := efStatus_head _
    rw [← first]
    exact ⟨apduAnswered_apduEnd rfl, targetOnly_apduEnd (targetOnly_m (targetOnly_dropPending s) (ledgerMain_senseHarv _))⟩
  case unselected =>
    exact fun s p1 p2 le heard unselected => ⟨_, congrArg Host.Outcome.next (apdu_unselected heard unselected _ _), answered_dropPending ..⟩
  case readsAudit =>
    intro s n b hears open_ low high held valid
    have allowed : (!(s.m.tgt.auth.key0 || ((0x1C#8 : Byte) == 0x1C#8 && cfgB s.m 0x6000 0x03))) = false := by
      rcases open_ with key | set
      · simp [key]
      · simp [cfgB, set]
    refine answers_readRecord hears (.inl rfl) (r := (.ok, auditBytes (s.lgr.head + 1 - n.toNat) b)) ?_
    rw [allowed]
    exact auditRead_ok low high held valid
  case auditClosed =>
    intro s n hears closed unset
    exact answers_readRecord hears (.inl rfl) (r := (.access, [])) (by simp [closed, cfgB, unset])
  case readsSetting =>
    intro s n hears key bank low high
    refine answers_readRecord hears (.inr rfl) (r := (.ok, s.lgr.cur.data (n.toNat - 1))) ?_
    have first : n ≠ 0 := fun zero => by simp [zero] at low
    have inside : ¬15 < n.toNat - 1 := by omega
    simp [key, (show ¬n = 0#8 from first), settingRead, bank, inside]
  case class_ =>
    intro s cla ins p1 p2 heard notIso notOwn
    refine ⟨_, ?_, answered_dropPending ..⟩
    show execTgtApduUnknown cla ins p1 p2 s = _
    simp [execTgtApduUnknown, heard, notIso, notOwn]
  case instruction =>
    intro s ins p1 p2 heard unknown
    refine ⟨_, ?_, answered_dropPending ..⟩
    show execTgtApduUnknown 0x00#8 ins p1 p2 s = _
    simp [execTgtApduUnknown, heard, unknown]
  case appends =>
    rintro s _ _ data hears rfl rfl least most key type
    refine answers_append hears least most ?_
    rw [if_neg (by simp [key]), if_neg (Nat.not_lt.2 type), lRequest_waits (.inl rfl)]
    exact ⟨rfl, rfl, ledgerOnly_trans (targetOnly_dropPending s).2 (ledgerOnly_lgr ..)⟩
  case appendClosed =>
    intro s data hears least most closed
    refine answers_append hears least most ?_
    rw [if_pos (by simp [closed])]
    exact answered_apduRefuse .access
  case updates =>
    intro s p1 data hears least most size key allowed waiting running
    refine answers_update hears least most size key allowed ?_
    rw [lRequest_waits (s := { s with m := dropPending s.m }) (.inr ⟨waiting, running⟩)]
    exact ⟨rfl, rfl, ledgerOnly_trans (targetOnly_dropPending s).2 (ledgerOnly_lgr ..)⟩
  case clashes =>
    intro s p1 data hears least most size key allowed other
    refine answers_update hears least most size key allowed ?_
    rw [lRequest_clash (s := { s with m := dropPending s.m }) rfl other]
    exact answered_lRefuse_setting hears.1 (targetOnly_m (targetOnly_dropPending s) (ledgerMain_countAo ..)) (countAo_tgt ..) rfl rfl

end Sys2Proof.Machine
end

section
/-!
Proofs of the statement on the wired ledger ports (R366, R370, R371, R383, R492): a command that arrives whole goes on to its reaction, one that does
not ends `FRAME`; then each reaction.
-/

namespace Sys2Proof.Machine

variable {s t : State} {w : Wired} {P : State → Prop}

/-! ## The answer of a wired port (R383, R492) -/

theorem wiredAnswered_wiredAnswer (s : State) (w : Wired) (head : Nat) (st : LStatus) (data : List Byte) :
    wiredAnswered { s with m := wiredAnswer s.m w head st data } w st.code data := by
  cases w with
  | i2c => rfl
  | spi => exact congrArg Spi.out (poolOnly_spi_eq (poolOnly_cuSpi ..))

theorem targetOnly_trans {a b c : State} (h : targetOnly a b) (g : targetOnly b c) : targetOnly a c :=
  ⟨g.1.trans h.1, ledgerOnly_trans h.2 g.2⟩

theorem targetOnly_wiredAnswer (s : State) (w : Wired) (head : Nat) (st : LStatus) (data : List Byte) :
    targetOnly s { s with m := wiredAnswer s.m w head st data } :=
  targetOnly_m (targetOnly_refl s) (ledgerMain_wiredAnswer ..)

/-- A port that is named as the origin of an access is answered there. -/
theorem wired_wiredPort (w : Wired) : (wiredPort w).wired = w := by cases w <;> rfl

theorem wiredPort_ne_field (w : Wired) : (wiredPort w == .field) = false := by cases w <;> rfl

/-! ## A command arrives (R383, R488, R492) -/

/-- The state in which a wired command is carried out: over SPI the transaction has begun, is counted, and its check units have followed it. -/
def wiredBegun (s : State) (w : Wired) (code : Nat) (host : List Byte) : State :=
  match w with
  | .i2c => s
  | .spi => { spiBegin s with m := cuSpi (count (spiBegin s).m 0x7000 0x01) false host (ledgerHead code host) }

theorem targetOnly_wiredBegun (s : State) (w : Wired) (code : Nat) (host : List Byte) : targetOnly s (wiredBegun s w code host) := by
  cases w with
  | i2c => exact targetOnly_refl s
  | spi => exact ⟨rfl, ledgerOnly_trans (ledgerOnly_spiBegin s) (ledgerOnly_m (ledgerMain_trans (ledgerMain_count ..) (ledgerMain_of_pool (poolOnly_cuSpi ..))))⟩

theorem wiredBegun_lgr (s : State) (w : Wired) (code : Nat) (host : List Byte) : (wiredBegun s w code host).lgr = s.lgr :=
  (targetOnly_wiredBegun s w code host).1

theorem wiredBegun_now (s : State) (w : Wired) (code : Nat) (host : List Byte) : (wiredBegun s w code host).m.now = s.m.now := by
  rw [(targetOnly_wiredBegun s w code host).2.main]

/-- A command with a good check is carried out. -/
theorem wiredCmd_good (ready : wiredReady s w) (code : Nat) (host : List Byte) (write : Bool) (f : State → State) :
    wiredCmd s w code host true write f = f (wiredBegun s w code host) := by
  cases w with
  | i2c => simp [wiredCmd, wiredBegun, show s.m.pw.aoUp = true from ready]
  | spi =>
    obtain ⟨up, serves⟩ : spiUp s.m = true ∧ loaderWaits s.m = false := ready
    have begun : loaderWaits (spiBegin s).m = false := serves
    simp [wiredCmd, wiredBegun, up, begun]

theorem answers_wired {c : Instr} {code : Nat} {host : List Byte} {check : BitVec 16} {write : Bool} {f : State → State} (ready : wiredReady s w)
    (command : exec c s = .next (wiredCmd s w code host (wiredGood w code host check) write f)) (good : wiredGood w code host check = true)
    (result : P (f (wiredBegun s w code host))) : answers c s P := by
  rw [good, wiredCmd_good ready] at command
  exact ⟨_, command, result⟩

/-- As `answers_wired`, for a write of its right length. -/
theorem answers_wiredWrite {c : Instr} {code n : Nat} {host data : List Byte} {check : BitVec 16} {f : State → State} (ready : wiredReady s w)
    (command : exec c s = .next (wiredCmd s w code host (wiredGood w code host check && data.length == n) true f))
    (good : wiredGood w code host check = true) (size : data.length = n) (result : P (f (wiredBegun s w code host))) : answers c s P := by
  rw [good, size, beq_self_eq_true, Bool.and_self, wiredCmd_good ready] at command
  exact ⟨_, command, result⟩

/-- A command with a bad check that is no write ends `FRAME`. -/
theorem wiredCmd_bad (ready : wiredReady s w) (code : Nat) (host : List Byte) (f : State → State) :
    wiredAnswered (wiredCmd s w code host false false f) w 6 [] ∧ targetOnly s (wiredCmd s w code host false false f) := by
  cases w with
  | i2c =>
    have frame : wiredCmd s .i2c code host false false f =
        { s with m := wiredAnswer (countAo s.m 0x70D0 0x0B) .i2c (ledgerHead code host) .frame [] } := by
      simp [wiredCmd, show s.m.pw.aoUp = true from ready]
    rw [frame]
    exact ⟨rfl, targetOnly_m (targetOnly_refl s) (ledgerMain_trans (ledgerMain_countAo ..) (ledgerMain_wiredAnswer ..))⟩
  | spi =>
    obtain ⟨up, serves⟩ : spiUp s.m = true ∧ loaderWaits s.m = false := ready
    have begun : loaderWaits (spiBegin s).m = false := serves
    have frame : wiredCmd s .spi code host false false f =
        { wiredBegun s .spi code host with
          m := wiredAnswer (count (modSpi (wiredBegun s .spi code host).m fun p => { p with prevCrc := true }) 0x7000 0x03) .spi
            (ledgerHead code host) .frame [] } := by
      simp [wiredCmd, wiredBegun, up, begun]
    rw [frame]
    exact ⟨congrArg Spi.out (poolOnly_spi_eq (poolOnly_cuSpi ..)), targetOnly_m (targetOnly_wiredBegun ..)
      (ledgerMain_trans (ledgerMain_modSpi ..) (ledgerMain_trans (ledgerMain_count ..) (ledgerMain_wiredAnswer ..)))⟩

/-! ## Reads (R366, R383) -/

theorem answers_wiredRead {c : Instr} {code arg : Nat} {host : List Byte} {check : BitVec 16} (ready : wiredReady s w) (free : s.lgr.held = false)
    (command : exec c s = .next (wiredCmd s w code host (wiredGood w code host check) false (wiredRead w code arg)))
    (good : wiredGood w code host check = true) (result : P (lRead (wiredBegun s w code host) w code arg)) : answers c s P := by
  refine answers_wired ready command good ?_
  rwa [wiredRead, wiredBegun_lgr, free, if_neg Bool.false_ne_true]

/-- What a wired read finds, and the state it leaves: a record, a setting, or EF.STATUS (R383). -/
def ledgerRead (s : State) (code arg : Nat) : (LStatus × List Byte) × State :=
  match code with
  | 1 => (auditRead s arg, s)
  | 2 => (settingRead s arg true, s)
  | _ => ((.ok, (efStatus s).1), (efStatus s).2)

theorem lRead_ledgerRead (s : State) (w : Wired) (code arg : Nat) : lRead s w code arg =
    { (ledgerRead s code arg).2 with
      m := wiredAnswer (ledgerRead s code arg).2.m w (place 0 8 0x07 + place 8 16 code + place 24 8 2)
        (ledgerRead s code arg).1.1 (if (ledgerRead s code arg).1.1 = .ok then (ledgerRead s code arg).1.2 else []) } := rfl

/-- What a read answers: `OK` with its data, or its status alone. -/
theorem lRead_answered (s : State) (w : Wired) {code arg : Nat} {r : LStatus × List Byte} {t : State} (only : targetOnly s t)
    (reads : ledgerRead s code arg = (r, t)) :
    wiredAnswered (lRead s w code arg) w r.1.code (if r.1 = .ok then r.2 else []) ∧ targetOnly s (lRead s w code arg) := by
  rw [lRead_ledgerRead, reads]
  exact ⟨wiredAnswered_wiredAnswer .., targetOnly_trans only (targetOnly_wiredAnswer ..)⟩

/-- A read on behalf of a command that has begun answers as one on the state before it. -/
theorem wiredRead_begun {code host} {st : LStatus} {data : List Byte} {n arg : Nat}
    (h : wiredAnswered (lRead (wiredBegun s w code host) w n arg) w st.code data ∧
      targetOnly (wiredBegun s w code host) (lRead (wiredBegun s w code host) w n arg)) :
    wiredAnswered (lRead (wiredBegun s w code host) w n arg) w st.code data ∧ targetOnly s (lRead (wiredBegun s w code host) w n arg) :=
  ⟨h.1, targetOnly_trans (targetOnly_wiredBegun ..) h.2⟩

/-! ## Writes and the lease (R366, R370) -/

/-- A wired access that goes to the arbiter waits there. -/
theorem lRequest_begun {a : LAccess} {code : Nat} {host : List Byte} (clear : a.isSetting = false ∨ noSetting s.lgr) :
    (lRequest (wiredBegun s w code host) a).lgr = { s.lgr with waiting := s.lgr.waiting ++ [a] } ∧
      ledgerOnly s (lRequest (wiredBegun s w code host) a) := by
  have same := wiredBegun_lgr s w code host
  rw [lRequest_waits (by rwa [same]), same]
  exact ⟨rfl, ledgerOnly_trans (targetOnly_wiredBegun ..).2 (ledgerOnly_lgr ..)⟩

/-- A wired write that is refused is answered with the status alone (R371). -/
theorem lRefuse_wired (s : State) {a : LAccess} {st : LStatus} (port : a.port = wiredPort w) (reply : a.reply = 4) (bad : st ≠ .ok) :
    wiredAnswered (lRefuse s a st) w st.code [] ∧ (lRefuse s a st).lgr = s.lgr := by
  have answer (x : State) : lRespond x a st 0 =
      { x with m := wiredAnswer x.m w (place 0 8 0x07 + place 8 16 a.code) st [] } := by
    simp [lRespond, reply, port, wiredPort_ne_field, wired_wiredPort, bad]
  rw [lRefuse, answer]
  exact ⟨wiredAnswered_wiredAnswer .., by split <;> rfl⟩

theorem lRefuse_begun {a : LAccess} {st : LStatus} {code : Nat} {host : List Byte} (port : a.port = wiredPort w) (reply : a.reply = 4)
    (bad : st ≠ .ok) {m : Main} (counted : ledgerMain (wiredBegun s w code host).m m) :
    wiredAnswered (lRefuse { wiredBegun s w code host with m := m } a st) w st.code [] ∧
      targetOnly s (lRefuse { wiredBegun s w code host with m := m } a st) := by
  obtain ⟨answered, same⟩ := lRefuse_wired { wiredBegun s w code host with m := m } (w := w) port reply bad
  have only := targetOnly_m (targetOnly_wiredBegun s w code host) counted
  exact ⟨answered, same.trans only.1, ledgerOnly_trans only.2 (ledgerOnly_lRefuse ..)⟩

/-- No write of the field runs, which a lease would have end first. -/
theorem setLease_free {n : Nat} (field : ∀ a, s.lgr.running = some a → a.port ≠ .field) (short : n ≤ 60) :
    setLease s w n =
      if s.lgr.leaseBy.isSome && s.lgr.leaseBy != some w then (.busy, { s with m := countAo s.m 0x70D0 0x04 })
      else if n = 0 then (.ok, { s with lgr := { s.lgr with leaseBy := none, leaseEnd := 0 } })
      else (.ok, { s with lgr := { s.lgr with leaseBy := some w, leaseEnd := s.m.now + n * tickS } }) := by
  have none_ : ¬(s.lgr.running.map (·.port)) = some .field := by
    cases current : s.lgr.running with
    | none => simp
    | some a => simpa using field a current
  simp [setLease, Nat.not_lt.2 short, none_]

/-- LEASE answers with what the lease came to. -/
theorem answers_lease {n check : BitVec 16} (ready : wiredReady s w) (good : wiredGood w 6 (leBytes 2 n.toNat) check = true) {st : LStatus}
    {t : State} (lease : setLease (wiredBegun s w 6 (leBytes 2 n.toNat)) w n.toNat = (st, t)) (only : ledgerOnly s t)
    (result : ∀ u : State, u.lgr = t.lgr → wiredAnswered u w st.code [] → ledgerOnly s u → P u) : answers (.ledgerLease w n check) s P := by
  refine answers_wired ready rfl good ?_
  dsimp only
  rw [lease]
  exact result _ rfl (wiredAnswered_wiredAnswer ..) (ledgerOnly_trans only (targetOnly_wiredAnswer ..).2)

/-- EF.STATUS: 16 bytes, the newest and the oldest sequence number first (R377). -/
theorem efStatus_data (s : State) : (efStatus s).1.length = 16 ∧ (efStatus s).1.take 8 = leBytes 4 s.lgr.head ++ leBytes 4 s.lgr.oldest := by
  refine ⟨by simp [efStatus], ?_⟩
  have front : (leBytes 4 s.lgr.head ++ leBytes 4 s.lgr.oldest).length = 8 := by simp
  rw [efStatus, List.append_assoc (_ ++ _)]
  exact List.take_left' front

/-! ## The statement -/

/-- Settles O41: a command with a good check acts on the state that its arrival left (`wiredBegun`), whose ledger is the one before. -/
theorem ledgerPorts : Obligations.LedgerPorts := by
  unfold Obligations.LedgerPorts
  refine ⟨?audit, ?frame, ?range, ?waits, ?setting, ?append, ?appendRange, ?write, ?retry, ?status, ?lease, ?leaseEnd, ?leased, ?leaseRange, ?expiry⟩
  case audit =>
    intro s w n check b ready free good low high held valid
    refine answers_wiredRead ready free rfl good (wiredRead_begun (st := .ok) (lRead_answered _ w (targetOnly_refl _) (r := (.ok, _)) ?_))
    have same := wiredBegun_lgr s w 1 (leBytes 2 n.toNat)
    exact congrArg (·, _) ((auditRead_ok low high (by rwa [same]) (by rwa [same])).trans (by rw [same]; rfl))
  case frame => exact fun s w n check ready bad => ⟨_, congrArg (fun g => Host.Outcome.next (wiredCmd s w 1 _ g false _)) bad, wiredCmd_bad ready ..⟩
  case range =>
    intro s w n check ready free good outside
    refine answers_wiredRead ready free rfl good (wiredRead_begun (st := .range) (lRead_answered _ w (targetOnly_refl _) (r := (.range, [])) ?_))
    have same := wiredBegun_lgr s w 1 (leBytes 2 n.toNat)
    exact congrArg (·, _) (if_pos (by simpa [same, or_assoc] using outside))
  case waits =>
    intro s w n check ready held good
    refine answers_wired ready rfl good ?_
    rw [wiredRead, wiredBegun_lgr, held, if_pos rfl]
    exact lRequest_begun (.inl rfl)
  case setting =>
    intro s w r check ready free good bank inside
    refine answers_wiredRead ready free rfl good (wiredRead_begun (st := .ok) (lRead_answered _ w (targetOnly_refl _) (r := (.ok, _)) ?_))
    have same := wiredBegun_lgr s w 2 (leBytes 2 r.toNat)
    simp only [ledgerRead, settingRead, same, bank, Nat.not_lt.2 inside, if_false, Bool.false_eq_true, if_true]
    rfl
  case append =>
    intro s w lo check data ready good size type
    refine answers_wiredWrite ready rfl good size ?_
    rw [if_neg (Nat.not_lt.2 type)]
    exact lRequest_begun (.inl rfl)
  case appendRange =>
    intro s w lo check data ready good size type
    refine answers_wiredWrite ready rfl good size ?_
    rw [if_pos type]
    exact lRefuse_begun rfl rfl (by decide) (ledgerMain_refl _)
  case write =>
    intro s w r check data ready good size least most waiting running
    refine answers_wiredWrite ready rfl good size ?_
    rw [if_neg (by simp; omega)]
    exact lRequest_begun (.inr ⟨waiting, running⟩)
  case retry =>
    intro s w r check data ready good size least most other
    refine answers_wiredWrite ready rfl good size ?_
    rw [if_neg (by simp; omega), lRequest_clash rfl (by rwa [wiredBegun_lgr])]
    exact lRefuse_begun rfl rfl (by decide) (ledgerMain_countAo ..)
  case status =>
    intro s w check ready free good
    obtain ⟨answered, only⟩ := wiredRead_begun (s := s) (w := w) (code := 5) (host := [0, 0]) (n := 5) (arg := 0) (st := .ok)
      (lRead_answered _ w (r := (.ok, _)) (targetOnly_m (targetOnly_refl _) (ledgerMain_senseHarv _)) rfl)
    obtain ⟨size, front⟩ := efStatus_data (wiredBegun s w 5 [0, 0])
    rw [wiredBegun_lgr] at front
    exact answers_wiredRead ready free rfl good ⟨⟨_, answered, size, front⟩, only⟩
  case lease =>
    intro s w n check ready good least most holder field
    have own : (s.lgr.leaseBy.isSome && s.lgr.leaseBy != some w) = false := by rcases holder with h | h <;> simp [h]
    have some_ : n.toNat ≠ 0 := by omega
    have same := wiredBegun_lgr s w 6 (leBytes 2 n.toNat)
    refine answers_lease ready good (st := .ok) (t := { wiredBegun s w 6 (leBytes 2 n.toNat) with
      lgr := { s.lgr with leaseBy := some w, leaseEnd := s.m.now + n.toNat * tickS } }) ?_
      (ledgerOnly_trans (targetOnly_wiredBegun ..).2 (ledgerOnly_lgr ..)) fun u lgr answered only => ⟨lgr, answered, only⟩
    rw [setLease_free (by rwa [same]) most, same, own, if_neg Bool.false_ne_true, if_neg some_, wiredBegun_now]
  case leaseEnd =>
    intro s w check ready good holder field
    have same := wiredBegun_lgr s w 6 (leBytes 2 (0#16).toNat)
    refine answers_lease ready good (st := .ok) (t := { wiredBegun s w 6 (leBytes 2 (0#16).toNat) with
      lgr := { s.lgr with leaseBy := none, leaseEnd := 0 } }) ?_
      (ledgerOnly_trans (targetOnly_wiredBegun ..).2 (ledgerOnly_lgr ..)) fun u lgr answered only => ⟨lgr, answered, only⟩
    rw [setLease_free (by rwa [same]) (by decide), same, if_neg (by simp [holder]), if_pos (show (0#16).toNat = 0 from rfl)]
  case leased =>
    intro s w w' n check ready good short holder other field
    have same := wiredBegun_lgr s w 6 (leBytes 2 n.toNat)
    refine answers_lease ready good (st := .busy) ?_ (ledgerOnly_trans (targetOnly_wiredBegun ..).2 (ledgerOnly_m (ledgerMain_countAo _ 0x70D0 0x04)))
      fun u lgr answered only => ⟨answered, lgr.trans same, only⟩
    rw [setLease_free (by rwa [same]) short, same, if_pos (by simp [holder, other])]
  case leaseRange =>
    intro s w n check ready good long
    exact answers_lease ready good (if_pos long) (targetOnly_wiredBegun ..).2
      fun u lgr answered only => ⟨answered, lgr.trans (wiredBegun_lgr ..), only⟩
  case expiry => exact fun s => rfl

end Sys2Proof.Machine
end

section
/-!
Proofs of the statement on the ledger arbiter (R366, R367, R369, R370, R373, R375): the access that is served, the write that completes, the time
limit of a wired access.
-/

namespace Sys2Proof.Machine

variable {s t : State} {w : Wired} {a : LAccess}

/-! ## The access that is served (R366, R367) -/

theorem lNext_single {l : Ledger} (h : l.waiting = [a]) : lNext l = some a := by
  cases field : a.port == .field <;> cases started : a.started <;> simp [lNext, h, field, started]

theorem dropFirst_single (a : LAccess) : dropFirst (· == a) [a] = [] := by
  simp [dropFirst]

/-- The last access that waits has been taken from the list. -/
def served (s : State) : State := { s with lgr := { s.lgr with waiting := [] } }

/-- The only access that waits is given the free ledger. -/
theorem accessStart_single (waits : s.lgr.waiting = [a]) (free : s.lgr.running = none) :
    exec .ledgerAccessStart s = .next (lStart (served s) a) := by
  show execLedgerAccessStart s = _
  simp [execLedgerAccessStart, lNext_single waits, waits, free, dropFirst_single, served]

theorem accessStart_none (none_ : s.lgr.waiting = []) : exec .ledgerAccessStart s = .next s := by
  show execLedgerAccessStart s = _
  simp [execLedgerAccessStart, lNext, none_]

/-- A write that has not begun is turned away by a lease (R370). -/
theorem lStart_leased (write : a.isRead = false) (fresh : a.started = false) (blocked : leaseBlocks s.lgr a = true) :
    lStart s a = lRefuse { s with m := countAo s.m 0x70D0 0x04 } a .busy := by
  cases op : a.op with
  | read c n => simp [LAccess.isRead, op] at write
  | append b => simp [lStart, op, fresh, blocked]
  | setting r d => simp [lStart, op, fresh, blocked]

/-- One that would write what stands there ends on it (R375). -/
theorem lStart_unchanged {q : Nat} (write : a.isRead = false) (fresh : a.started = false) (open_ : leaseBlocks s.lgr a = false)
    (same : lUnchanged s.lgr a = some q) : lStart s a = lRespond s a .ok q := by
  cases op : a.op with
  | read c n => simp [LAccess.isRead, op] at write
  | append b => simp [lStart, op, fresh, open_, same]
  | setting r d => simp [lStart, op, fresh, open_, same]

/-- Another one begins, where its energy is there (R372). -/
theorem lStart_begins (write : a.isRead = false) (fresh : a.started = false) (open_ : leaseBlocks s.lgr a = false)
    (new : lUnchanged s.lgr a = none) (energy : energyCheck s.m a.energy = (true, s.m)) :
    lStart s a = { s with lgr := { s.lgr with running := some { a with started := true } } } := by
  cases op : a.op with
  | read c n => simp [LAccess.isRead, op] at write
  | append b => simp [lStart, op, fresh, open_, new, energy]
  | setting r d => simp [lStart, op, fresh, open_, new, energy]

/-- A write that writes nothing is none that reads. -/
theorem isRead_of_unchanged {l : Ledger} {q : Nat} (h : lUnchanged l a = some q) : a.isRead = false := by
  cases op : a.op with
  | read c n => simp [lUnchanged, op] at h
  | append b => simp [LAccess.isRead, op]
  | setting r d => simp [LAccess.isRead, op]

theorem lRespond_lgr (s : State) (a : LAccess) (st : LStatus) (seq : Nat) : (lRespond s a st seq).lgr = s.lgr := by
  unfold lRespond
  dsimp only
  split
  case h_1 => split <;> rfl
  case h_2 => split <;> rfl
  case h_3 =>
    split
    · rfl
    · split <;> rfl
  case h_4 => split <;> rfl

theorem lRefuse_lgr (s : State) (a : LAccess) (st : LStatus) : (lRefuse s a st).lgr = s.lgr := by
  rw [lRefuse, lRespond_lgr]
  split <;> rfl

/-! ## A write that completes (R373) -/

/-- The running write has written its record: the ledger is free again, and no answer has gone out. -/
def appended (s : State) (body : List Byte) : State :=
  writeAppend { s with lgr := { s.lgr with running := none } } (stampBody s.m body)

theorem finishRunning_append {body : List Byte} (runs : s.lgr.running = some a) (op : a.op = .append body) :
    finishRunning s = lRespond (appended s body) a .ok (s.lgr.head + 1) := by
  have head : (appended s body).lgr.head = s.lgr.head + 1 := append_head ..
  rw [← head]
  simp only [finishRunning, runs, lWrite, op]
  rfl

/-- What stands in the ledger once the record is written. -/
structure Appended (s t : State) (body : List Byte) : Prop where
  head    : t.lgr.head = s.lgr.head + 1
  slot    : t.lgr.ring[slotOf (s.lgr.head + 1)] = .record (s.lgr.head + 1) (stampBody s.m body)
  other   : ∀ i : Fin 240, i ≠ slotOf (s.lgr.head + 1) → t.lgr.ring[i] = s.lgr.ring[i]
  running : t.lgr.running = none

theorem append_running (l : Ledger) (body : List Byte) : (l.append body).running = l.running := by
  unfold Ledger.append
  dsimp only
  split <;> rfl

theorem appended_lgr (s : State) (body : List Byte) : Appended s (appended s body) body := by
  have ring (i : Fin 240) : (appended s body).lgr.ring[i] =
      if i = slotOf (s.lgr.head + 1) then .record (s.lgr.head + 1) (stampBody s.m body) else s.lgr.ring[i] := by
    show (Ledger.append _ _).ring[i] = _
    rw [append_ring, updV_get]
  exact ⟨append_head .., (ring _).trans (if_pos rfl), fun i other => (ring i).trans (if_neg other), append_running ..⟩

theorem Appended.of_lgr {s t u : State} {body : List Byte} (h : Appended s t body) (same : u.lgr = t.lgr) : Appended s u body := by
  obtain ⟨head, slot, other, running⟩ := h
  exact ⟨by rw [same, head], by rw [same, slot], fun i neq => by rw [same, other i neq], by rw [same, running]⟩

theorem appended_tgt (s : State) (body : List Byte) : (appended s body).m.tgt = s.m.tgt := writeAppend_tgt ..

theorem ledgerOnly_appended (s : State) (body : List Byte) : ledgerOnly s (appended s body) :=
  ledgerOnly_trans (ledgerOnly_lgr ..) (ledgerOnly_writeAppend ..)

/-- A completed append of the I²C port is answered there with its `SEQ`. -/
theorem lRespond_i2c_append (s : State) (body : List Byte) (seq : Nat) :
    lRespond s (LAccess.mk .i2c (.append body) 4 true) .ok seq = { s with m := i2cAnswer s.m .ok (leBytes 4 seq) } := rfl

/-- READ BINARY of the first 4 bytes of EF.STATUS, as it is answered (R377). -/
def statusAnswer (s : State) : State :=
  apduEnd (efStatus { s with m := dropPending s.m }).2 (((efStatus { s with m := dropPending s.m }).1.drop 0).take 4) 0x9000

theorem apduAnswered_statusAnswer (iso : t.m.tgt.iso = s.m.tgt.iso) : apduAnswered s (statusAnswer t) (leBytes 4 t.lgr.head) 0x9000 := by
  have front : ((efStatus { t with m := dropPending t.m }).1.drop 0).take 4 = leBytes 4 t.lgr.head := efStatus_head _
  rw [statusAnswer, front]
  exact apduAnswered_apduEnd iso

theorem ledgerOnly_statusAnswer (s : State) : ledgerOnly s (statusAnswer s) :=
  ledgerOnly_apduEnd (ledgerOnly_m (ledgerMain_trans (ledgerMain_modAuth ..) (ledgerMain_senseHarv _)))

/-- The I²C port's append has been written and answered. -/
def appendTold (s : State) (body : List Byte) : State :=
  { appended s body with m := i2cAnswer (appended s body).m .ok (leBytes 4 (s.lgr.head + 1)) }

theorem appendTold_iso (s : State) (body : List Byte) : (appendTold s body).m.tgt.iso = s.m.tgt.iso :=
  (congrArg Target.iso (appended_tgt s body)).trans rfl

/-- An access of the field has it finish first (R367). -/
theorem fieldFirst_append {body : List Byte} (runs : s.lgr.running = some (LAccess.mk .i2c (.append body) 4 true)) :
    fieldFirst s = appendTold s body := by
  rw [appendTold, ← lRespond_i2c_append _ body, ← finishRunning_append runs rfl]
  simp only [fieldFirst, runs]
  rfl

/-! ## A settings write that completes (R373) -/

@[simp] theorem select_bankA (l : Ledger) (b : Bool) (seq : Nat) : (l.select b seq).bankA = l.bankA := by
  unfold Ledger.select
  dsimp only
  split <;> rfl

@[simp] theorem select_bankB (l : Ledger) (b : Bool) (seq : Nat) : (l.select b seq).bankB = l.bankB := by
  unfold Ledger.select
  dsimp only
  split <;> rfl

@[simp] theorem select_running (l : Ledger) (b : Bool) (seq : Nat) : (l.select b seq).running = l.running := by
  unfold Ledger.select
  dsimp only
  split <;> rfl

theorem setBank_cur (l : Ledger) (f : Bank → Bank) : (l.setBank f).cur = l.nextBank f := by
  cases current : l.current <;> simp [Ledger.setBank, Ledger.flip, Ledger.markBank, Ledger.cur, current]

theorem setBank_current (l : Ledger) (f : Bank → Bank) : (l.setBank f).current = !l.current := by
  cases current : l.current <;> simp [Ledger.setBank, Ledger.flip, Ledger.markBank, current]

theorem setBank_running (l : Ledger) (f : Bank → Bank) : (l.setBank f).running = l.running := by
  cases current : l.current <;> simp [Ledger.setBank, Ledger.flip, Ledger.markBank, current]

/-- The running settings write has written its bank. -/
def settled (s : State) (r : Nat) (data : List Byte) (origin : Nat) : State :=
  writeBank { s with lgr := { s.lgr with running := none } } origin fun b => { b with host := b.host.set (r - 12) data }

theorem finishRunning_setting {r : Nat} {data : List Byte} (runs : s.lgr.running = some (LAccess.mk .i2c (.setting r data) 4 true)) :
    finishRunning s = { settled s r data 3 with m := i2cAnswer (settled s r data 3).m .ok [] } := by
  simp only [finishRunning, runs]
  rfl

/-! ## The time limit of a wired access (R369) -/

theorem accessTimeout_single (waits : s.lgr.waiting = [a]) (port : a.port = wiredPort w) (fresh : a.started = false) :
    exec (.wiredAccessTimeout w) s =
      .next (lRefuse { served s with m := countAo s.m 0x70D0 0x06 } a .busy) := by
  show execWiredAccessTimeout w s = _
  simp [execWiredAccessTimeout, waits, port, fresh, dropFirst_single, served]

theorem accessTimeout_none (others : ∀ a ∈ s.lgr.waiting, a.port ≠ wiredPort w) : exec (.wiredAccessTimeout w) s = .next s := by
  have absent : (s.lgr.waiting.find? fun a => a.port == wiredPort w && !a.started) = none :=
    List.find?_eq_none.2 fun a mem => by simp [others a mem]
  show execWiredAccessTimeout w s = _
  simp [execWiredAccessTimeout, absent]

/-! ## The statement -/

/-- Settles O42: the only access that waits through the steps of R373; a write that completes by what it has written (`Appended`). -/
theorem ledgerArbiter : Obligations.LedgerArbiter := by
  unfold Obligations.LedgerArbiter
  refine ⟨?starts, ?leased, ?repeated, ?reads, ?nothing, ?wired, ?field, ?setting, ?idle, ?fieldFirst, ?timeout, ?noTimeout⟩
  case starts =>
    intro s a waits free write fresh unleased new supplied
    have energy : energyCheck s.m a.energy = (true, s.m) := if_neg (Bool.eq_false_iff.mp supplied)
    rw [accessStart_single waits free,
      lStart_begins (s := served s) write fresh (by simp [leaseBlocks, served, unleased]) new energy]
    rfl
  case leased =>
    intro s a w waits free write fresh port holder
    refine ⟨_, accessStart_single waits free, ?_⟩
    rw [lStart_leased (s := served s) write fresh (by simp [leaseBlocks, served, holder, port])]
    exact ⟨lRefuse_lgr .., ledgerOnly_trans (ledgerOnly_trans (ledgerOnly_lgr ..) (ledgerOnly_m (ledgerMain_countAo ..))) (ledgerOnly_lRefuse ..)⟩
  case repeated =>
    intro s a q waits free fresh unleased same
    refine ⟨_, accessStart_single waits free, ?_⟩
    rw [lStart_unchanged (s := served s) (isRead_of_unchanged same) fresh (by simp [leaseBlocks, served, unleased]) same]
    exact ⟨lRespond_lgr .., ledgerOnly_trans (ledgerOnly_lgr ..) (ledgerOnly_lRespond ..)⟩
  case reads =>
    intro s w n b waits free low high held valid
    refine ⟨_, accessStart_single waits free, ?_⟩
    have port : (LAccess.mk (wiredPort w) (.read 1 n) 4 false).port.wired = w := wired_wiredPort w
    have read := auditRead_ok (s := served s) low high held valid
    obtain ⟨answered, only⟩ := lRead_answered (served s) w (code := 1) (r := (.ok, _)) (targetOnly_refl _)
      (congrArg (·, _) read)
    have start : lStart (served s) (LAccess.mk (wiredPort w) (.read 1 n) 4 false) = lRead (served s) w 1 n := congrArg (lRead _ · 1 n) port
    rw [start]
    exact ⟨only.1, answered, ledgerOnly_trans (ledgerOnly_lgr ..) only.2⟩
  case nothing => exact fun s none_ => accessStart_none none_
  case wired =>
    intro s body runs
    have written := appended_lgr s body
    refine ⟨_, congrArg Host.Outcome.next (finishRunning_append runs rfl), ?_⟩
    rw [lRespond_i2c_append]
    exact ⟨written.head, written.slot, written.other, written.running, rfl,
      ledgerOnly_trans (ledgerOnly_appended s body) (ledgerOnly_m (ledgerMain_i2cAnswer ..))⟩
  case field =>
    intro s body runs session
    have written := appended_lgr s body
    have open_ : ((appended s body).m.tgt.session == .iso) = true := by
      rw [appended_tgt]
      exact beq_iff_eq.2 session
    have answer : lRespond (appended s body) (LAccess.mk .field (.append body) 1 true) .ok (s.lgr.head + 1) =
        apduEnd (appended s body) (leBytes 4 (s.lgr.head + 1)) 0x9000 := if_pos open_
    refine ⟨_, congrArg Host.Outcome.next (finishRunning_append runs rfl), ?_⟩
    rw [answer]
    exact ⟨written.head, written.slot, written.running, apduAnswered_apduEnd (congrArg Target.iso (appended_tgt s body)),
      ledgerOnly_apduEnd (ledgerOnly_appended s body)⟩
  case setting =>
    intro s r data runs least most size
    refine ⟨_, congrArg Host.Outcome.next (finishRunning_setting runs), ?_⟩
    have bank : (settled s r data 3).lgr.cur = _ := setBank_cur ..
    have current : (settled s r data 3).lgr.current = _ := setBank_current ..
    have running : (settled s r data 3).lgr.running = none := setBank_running ..
    have ring : (settled s r data 3).lgr.ring = s.lgr.ring := (setBank_ring ..).1
    refine ⟨?_, ?_, ?_, ?_, current, ring, running, rfl, ?_⟩
    · exact (congrArg Bank.host bank).trans rfl
    · exact (congrArg Bank.persist bank).trans rfl
    · exact (congrArg Bank.valid bank).trans rfl
    · exact (congrArg Bank.seq bank).trans rfl
    · exact ledgerOnly_trans (ledgerOnly_trans (ledgerOnly_lgr ..) (ledgerOnly_writeBank ..)) (ledgerOnly_m (ledgerMain_i2cAnswer ..))
  case idle =>
    intro s free
    show Host.Outcome.next (finishRunning s) = _
    rw [finishRunning, free]
  case fieldFirst =>
    intro s body heard selected runs
    have written := appended_lgr s body
    have reaction (f : State → State) : apdu s (readBinaryParams 0x82#8 0x00#8) f = f (fieldFirst s) := by
      simp [apdu, heard, selected, readBinary_status]
    have answer : exec (.tgtReadBinary 0x82#8 0x00#8 4) s = .next (statusAnswer (fieldFirst s)) := congrArg Host.Outcome.next (reaction _)
    rw [fieldFirst_append runs] at answer
    have status := apduAnswered_statusAnswer (appendTold_iso s body)
    rw [show (appendTold s body).lgr.head = s.lgr.head + 1 from written.head] at status
    exact ⟨_, answer, status, written.running, written.slot, rfl,
      ledgerOnly_trans (ledgerOnly_trans (ledgerOnly_appended s body) (ledgerOnly_m (ledgerMain_i2cAnswer ..))) (ledgerOnly_statusAnswer _)⟩
  case timeout =>
    intro s w a waits port fresh reply
    obtain ⟨answered, same⟩ := lRefuse_wired { served s with m := countAo s.m 0x70D0 0x06 } (w := w) (st := .busy)
      port reply (by decide)
    exact ⟨_, accessTimeout_single waits port fresh, same, answered,
      ledgerOnly_trans (ledgerOnly_trans (ledgerOnly_lgr s _) (ledgerOnly_m (s := served s) (ledgerMain_countAo ..))) (ledgerOnly_lRefuse ..)⟩
  case noTimeout => exact fun s w others => accessTimeout_none others

end Sys2Proof.Machine
end

section
/-!
Proofs of the statement on the check units (R515, R518, R520, R521): a configuration write and what it leaves, a write of the running value, and the
change of a unit of the end-to-end protection.
-/

namespace Sys2Proof.Machine

variable {s : State} {m : Main} {c : Fin 8}

/-! ## Configuration (R520) -/

/-- A configuration write in its mode and range, to a unit that is free. -/
theorem cuConfig_taken {sub v : Nat} (mode : m.pw.mode.isMain = true) (sub_mem : sub ∈ [1, 2, 3, 4, 7, 8])
    (range : cuRange m.cus[c] sub v = true) (free : (m.cus[c]).owned = false) :
    cuConfig m c sub v = (0, modCu (countIf (m.cus[c]).inFrame m 0x7018 0x04) c fun u => u.config sub v) := by
  have known : ([1, 2, 3, 4, 7, 8] : List Nat).contains sub = true := List.contains_iff_mem.mpr sub_mem
  rw [cuConfig, known, mode, range, free]
  rfl

/-- A configuration write outside its mode or range, to a unit of the end-to-end protection, or to another entry. -/
theorem cuConfig_refused {sub v : Nat} (h : m.pw.mode.isMain = false ∨ (m.cus[c]).owned = true ∨ cuRange m.cus[c] sub v = false ∨
    sub ∉ [1, 2, 3, 4, 7, 8]) : (cuConfig m c sub v).2 = m := by
  unfold cuConfig
  dsimp only
  by_cases known : ([1, 2, 3, 4, 7, 8] : List Nat).contains sub = true
  · have sub_mem := List.contains_iff_mem.mp known
    rcases h with mode | owned | range | unknown
    · rw [known, mode]; rfl
    · rw [known, owned]; simp only [Bool.not_true, Bool.false_eq_true, if_false, if_true]; split <;> [rfl; split <;> rfl]
    · rw [known, range]; simp only [Bool.not_true, Bool.false_eq_true, if_false, Bool.not_false, if_true]; split <;> rfl
    · exact absurd sub_mem unknown
  · rw [Bool.not_eq_true] at known
    rw [known]; rfl

/-- What every configuration write does to its unit (R520): the frame ends and the running value is loaded. -/
theorem config_loads (u : Cu) (sub v : Nat) :
    (u.config sub v).value = (u.config sub v).load ∧ (u.config sub v).inFrame = false ∧ (u.config sub v).result = u.result := by
  unfold Cu.config
  split <;> exact ⟨rfl, rfl, rfl⟩

/-! ## The running value (R521) -/

theorem cuValue_taken {v : Nat} (ctl : ctlOn m = true) (mode : m.pw.mode.isMain = true ∨ m.pw.mode = .hold)
    (range : v < 2 ^ (CrcKind.ofCode (m.cus[c]).crc).width) (free : (m.cus[c]).owned = false) :
    cuValue m c v = (0, modCu m c fun u => { u with value := v }) := by
  have writable : (m.pw.mode.isMain || m.pw.mode == .hold) = true := by
    rcases mode with mode | mode <;> simp [mode]
  have inside : cuRange m.cus[c] 5 v = true := decide_eq_true range
  rw [cuValue, ctl, writable, inside, free]
  rfl

theorem cuValue_refused {v : Nat} (h : (m.cus[c]).owned = true ∨ 2 ^ (CrcKind.ofCode (m.cus[c]).crc).width ≤ v) : (cuValue m c v).2 = m := by
  unfold cuValue
  dsimp only
  rcases h with owned | above
  · rw [owned]
    split <;> [rfl; split <;> rfl]
  · have outside : cuRange m.cus[c] 5 v = false := decide_eq_false (Nat.not_lt.mpr above)
    rw [outside]
    split <;> rfl

/-! ## Settings -/

/-- A key of the dictionary names one entry. -/
theorem ekey_inj {i j idx sub : Nat} (small : j < 256) (small' : sub < 256) (same : ekey i j = ekey idx sub) : (i, j) = (idx, sub) := by
  unfold ekey at same
  have index : i = idx := by omega
  have entry : j = sub := by omega
  rw [index, entry]

/-- A setting that is written is taken, and no other. -/
theorem settingTaken_of_cfg {a b : Main} {idx sub v : Nat} (h : b.cfg = mapSet (ekey idx sub) v a.cfg) (small : sub < 256) :
    settingTaken a b idx sub v := by
  refine ⟨?_, fun i j smallJ other => ?_⟩
  · rw [cfgN, h, mapGet_mapSet_same, Option.getD_some]
  · rw [cfgN, cfgN, h, mapGet_mapSet_other v a.cfg fun same => other (ekey_inj smallJ small same)]

/-! ## The units of the end-to-end protection (R521) -/

theorem e2eWrite_taken {old new : Fin 8} (mode : m.pw.mode = .calibrate) (is_old : cfgN m 0x5010 0x04 = old.val)
    (other : new.val ≠ cfgN m 0x5010 0x05) (changed : new ≠ old) :
    e2eWrite m false new.val =
      (0, cfgSet (modCu (modCu m old fun u => { u with owned := false, source := 0 }) new fun _ => { owned := true }) 0x5010 4 new.val) := by
  have small := new.isLt
  have differs : new.val ≠ old.val := Fin.val_ne_of_ne changed
  have index (i : Fin 8) : finOf 8 i.val = i := Fin.ofNat_val_eq_self i
  simp [e2eWrite, mode, is_old, other, differs, index, show ¬ 7 < new.val by omega]

theorem e2eWrite_same {g : Bool} (h : m.pw.mode ≠ .calibrate ∨ c.val = cfgN m 0x5010 (if g then 0x04 else 0x05) ∨
    c.val = cfgN m 0x5010 (if g then 0x05 else 0x04)) : (e2eWrite m g c.val).2 = m := by
  unfold e2eWrite
  rcases h with mode | other | own
  · simp [mode]
  · simp only [other, decide_true, Bool.or_true, if_true]
    split <;> rfl
  · simp only [own, if_true, apply_ite Prod.snd, ite_self]

/-! ## The statement -/

/-- Settles O55: a configuration write by its entry; what a unit that is taken refuses; the change of a unit of the end-to-end protection. -/
theorem checkUnits : Obligations.CheckUnits := by
  unfold Obligations.CheckUnits
  refine ⟨?config, ?configRefused, ?value, ?valueRefused, ?change, ?changeRefused⟩
  case config =>
    intro s c sub v mode up sub_mem range free
    refine answers_of_onService (f := fun m => (cuConfig m c sub.toNat v.toNat).2) rfl up ?_
    rw [cuConfig_taken mode sub_mem range free]
    have own : (modCu (countIf (s.m.cus[c]).inFrame s.m 0x7018 0x04) c fun u => u.config sub.toNat v.toNat).cus[c] =
        (s.m.cus[c]).config sub.toNat v.toNat := by rw [modCu_get, if_pos rfl, countIf_cus]
    obtain ⟨loads, ends, result⟩ := config_loads s.m.cus[c] sub.toNat v.toNat
    simp only [own]
    refine ⟨?_, ?_, ?_, ?_, ?_, ?_, loads, ends, result, ?_, fun i other => ?_, ?_, poolOnly_trans (poolOnly_countIf ..) (poolOnly_modCu ..), mainOnly_m _ _⟩
    · rintro rfl; exact ⟨rfl, rfl⟩
    · rintro rfl; rfl
    · rintro rfl; rfl
    · rintro rfl; rfl
    · rintro rfl; rfl
    · rintro rfl; rfl
    · cases (s.m.cus[c]).inFrame
      · rfl
      · exact counter_count_same s.m 0x7018 0x04
    · rw [modCu_get, if_neg other, countIf_cus]
    · rw [modCu_pool, countIf_pool]
  case configRefused =>
    exact fun s c sub v h => exec_onService_same (f := fun m => (cuConfig m c sub.toNat v.toNat).2) rfl (cuConfig_refused h)
  case value =>
    exact fun s c v ctl up mode range free => exec_of_onService (f := fun m => (cuValue m c v.toNat).2) rfl up
      (congrArg Prod.snd (cuValue_taken ctl mode range free))
  case valueRefused =>
    exact fun s c v h => exec_onService_same (f := fun m => (cuValue m c v.toNat).2) rfl (cuValue_refused h)
  case change =>
    intro s old new mode up is_old other changed
    refine answers_of_onService (f := fun m => (e2eWrite m false new.val).2) rfl up ?_
    rw [e2eWrite_taken mode is_old other changed]
    simp only [cfgSet_cus, modCu_get, if_true, if_neg changed, if_neg (Ne.symm changed)]
    refine ⟨trivial, trivial, trivial, trivial, trivial, fun i first second => ?_, settingTaken_of_cfg rfl (by decide), rfl, mainOnly_m _ _⟩
    rw [if_neg second, if_neg first]
  case changeRefused =>
    exact fun s g c h => exec_onService_same (f := fun m => (e2eWrite m g c.val).2) rfl (e2eWrite_same h)

end Sys2Proof.Machine

end

section
/-!
What the pool's own work leaves of the counters, and the packets of drop-on-shortage producers: a packet that is offered to a queue with room is
filed there, whatever work its close brings with it (R325, R341).
-/

namespace Sys2Proof.Machine

/-- The keys of the counters that the pool's own work counts (R341, R516, R519, R553). -/
def poolCounters : List Nat :=
  [ekey 0x7000 0x0A, ekey 0x7008 0x01, ekey 0x7008 0x02, ekey 0x7008 0x03, ekey 0x7018 0x01, ekey 0x7018 0x02, ekey 0x7018 0x03, ekey 0x7018 0x04,
   ekey 0x70C0 0x01, ekey 0x70C0 0x02, ekey 0x70C0 0x03, ekey 0x70C0 0x08]

/-- All other counters stand, and the units that had faults. -/
structure tallyKept (a b : Main) : Prop where
  stands : ∀ idx sub : Nat, ekey idx sub ∉ poolCounters → counter b idx sub = counter a idx sub
  recent : b.flt.recent = a.flt.recent

section Tally

variable {a b c m : Main}

theorem tallyKept_refl (a : Main) : tallyKept a a := ⟨fun _ _ _ => rfl, rfl⟩

theorem tallyKept_trans (h : tallyKept a b) (g : tallyKept b c) : tallyKept a c :=
  ⟨fun idx sub other => (g.stands idx sub other).trans (h.stands idx sub other), g.recent.trans h.recent⟩

theorem tallyKept_of_same (ctr : b.flt.ctr = a.flt.ctr) (recent : b.flt.recent = a.flt.recent) : tallyKept a b :=
  ⟨fun idx sub _ => by rw [counter, ctr, counter], recent⟩

theorem tallyKept_of_flt (h : b.flt = a.flt) : tallyKept a b := tallyKept_of_same (by rw [h]) (by rw [h])

theorem tallyKept_forEach {α : Type} (l : List α) (f : Main → α → Main) (h : ∀ x i, tallyKept x (f x i)) : tallyKept m (forEach l m f) := by
  induction l generalizing m with
  | nil =>
    rw [forEach_nil]
    exact tallyKept_refl m
  | cons i rest ih =>
    rw [forEach_cons]
    exact tallyKept_trans (h m i) ih

theorem tallyKept_countN (i j n : Nat) (own : ekey i j ∈ poolCounters) : tallyKept m (countN m i j n) :=
  ⟨fun _ _ other => counter_countN_other n fun same => other (by rw [same]; exact own), by unfold countN; split <;> rfl⟩

theorem tallyKept_count (i j : Nat) (own : ekey i j ∈ poolCounters) : tallyKept m (count m i j) := tallyKept_countN i j 1 own

theorem tallyKept_countIf (t : Bool) (i j : Nat) (own : ekey i j ∈ poolCounters) : tallyKept m (countIf t m i j) := by
  cases t
  · exact tallyKept_refl m
  · exact tallyKept_count i j own

theorem tallyKept_cuOpen (q : Fin 32) (id : Nat) : tallyKept m (cuOpen m q id) := by
  refine tallyKept_forEach _ _ fun x i => ?_
  dsimp only
  split
  · split
    · exact tallyKept_trans (tallyKept_count 0x7018 0x03 (by decide)) (tallyKept_of_same rfl rfl)
    · exact tallyKept_of_same rfl rfl
  · exact tallyKept_refl x

theorem tallyKept_cuSink (id : Nat) : tallyKept m (cuSink m id) := by
  refine tallyKept_forEach _ _ fun x i => ?_
  split
  · exact tallyKept_trans (tallyKept_count 0x7018 0x04 (by decide)) (tallyKept_of_same rfl rfl)
  · exact tallyKept_refl x

theorem tallyKept_sinkPkt (q : Fin 32) (id : Nat) : tallyKept m (sinkPkt m q id) := by
  refine tallyKept_trans ?_ (tallyKept_cuSink id)
  exact tallyKept_of_same rfl rfl

theorem tallyKept_appendPkt (q : Fin 32) (id : Nat) (ws : List Word) : tallyKept m (appendPkt m q id ws) := by
  have put (f : Queue → Queue) (us : List Word) : tallyKept m (cuWords (modQ m q f) q id us) :=
    tallyKept_of_flt (cuWords_same (modQ m q f) q id us).2
  unfold appendPkt
  dsimp only
  split
  · exact tallyKept_of_same rfl rfl
  · split
    · exact put _ _
    · exact tallyKept_trans (put _ _) (tallyKept_trans (tallyKept_sinkPkt q id) (tallyKept_of_same rfl rfl))

theorem tallyKept_closeRaw (q : Fin 32) (id : Nat) : tallyKept m (closeRaw m q id).1 := by
  have closed (f : Queue → Queue) (p : Packet) : tallyKept m (cuClose (modQ m q f) q p).1 :=
    tallyKept_of_flt (cuClose_same (modQ m q f) q p).2
  unfold closeRaw
  dsimp only
  split
  · refine tallyKept_trans (tallyKept_trans ?_ (tallyKept_count 0x70C0 0x02 (by decide))) (tallyKept_countN 0x70C0 0x03 _ (by decide))
    exact tallyKept_of_same rfl rfl
  · split
    · exact tallyKept_refl m
    · split
      · dsimp only
        exact closed _ _
      · exact closed _ _

theorem tallyKept_dropRaw (q : Fin 32) (source : Nat) : tallyKept m (dropRaw m q source).1 := by
  refine tallyKept_trans ?_ (tallyKept_count 0x70C0 0x01 (by decide))
  exact tallyKept_of_same rfl rfl

theorem tallyKept_openPkt (q : Fin 32) (type source reserve : Nat) : tallyKept m (openPkt m q type source reserve).1 := by
  refine tallyKept_trans ?_ (tallyKept_cuOpen ..)
  exact tallyKept_of_same rfl rfl

theorem tallyKept_putRaw (q : Fin 32) (type source : Nat) (ws : List Word) : tallyKept m (putRaw m q type source ws).1 :=
  tallyKept_trans (tallyKept_openPkt ..) (tallyKept_trans (tallyKept_appendPkt ..) (tallyKept_closeRaw ..))

theorem tallyKept_journalPut (body : List Word) : tallyKept m (journalPut m body).1 := by
  unfold journalPut
  dsimp only
  split
  · split
    · exact tallyKept_putRaw ..
    · exact tallyKept_dropRaw 23 0x06
  · split
    · exact tallyKept_trans (tallyKept_putRaw ..) (tallyKept_count 0x7008 0x01 (by decide))
    · exact tallyKept_trans (tallyKept_dropRaw 22 0x06) (tallyKept_count 0x7008 0x02 (by decide))

theorem tallyKept_journalAt (t src code : Nat) (args : List Nat) : tallyKept m (journalAt m t src code args).1 := by
  unfold journalAt
  dsimp only
  split
  · exact tallyKept_refl m
  · split
    · refine tallyKept_trans ?_ (tallyKept_count 0x7008 0x03 (by decide))
      exact tallyKept_of_same rfl rfl
    · refine tallyKept_trans ?_ (tallyKept_journalPut _)
      exact tallyKept_of_same rfl rfl

theorem tallyKept_recordRaw (i : Fin 8) (key kind ref1 ref2 : Nat) : tallyKept m (recordRaw m i key kind ref1 ref2).1 := by
  have noted (j k : Nat) (f : Cu → Cu) (own : ekey j k ∈ poolCounters) : tallyKept m (modCu (count m j k) i f) :=
    tallyKept_trans (tallyKept_count j k own) (tallyKept_of_same rfl rfl)
  unfold recordRaw
  dsimp only
  split
  · exact tallyKept_trans (noted 0x7018 0x01 _ (by decide)) (tallyKept_putRaw ..)
  · exact tallyKept_trans (noted 0x7018 0x02 _ (by decide)) (tallyKept_dropRaw ..)

theorem tallyKept_doWork (w : PoolWork) : tallyKept m (doWork m w).1 := by
  cases w with
  | put q type source ws mir =>
    simp only [doWork]
    split
    · exact tallyKept_putRaw ..
    · exact tallyKept_trans (tallyKept_countIf mir 0x7000 0x0A (by decide)) (tallyKept_dropRaw ..)
  | record i key kind ref1 ref2 => exact tallyKept_recordRaw ..
  | journal src code args => exact tallyKept_journalAt ..

theorem tallyKept_settleFuel (fuel : Nat) : ∀ (m : Main) (l : List PoolWork), tallyKept m (settleFuel fuel m l) := by
  induction fuel with
  | zero =>
    intro m l
    cases l <;> exact tallyKept_refl m
  | succ fuel ih =>
    intro m l
    cases l with
    | nil => exact tallyKept_refl m
    | cons w ws => exact tallyKept_trans (tallyKept_doWork w) (ih _ _)

theorem tallyKept_settle (r : Main × List PoolWork) : tallyKept r.1 (settle r) := by
  unfold settle
  exact tallyKept_settleFuel ..

theorem tallyKept_journal (src code : Nat) (args : List Nat) : tallyKept m (journal m src code args) :=
  tallyKept_trans (tallyKept_journalAt ..) (tallyKept_settle _)

theorem tallyKept_closePkt (q : Fin 32) (id : Nat) : tallyKept m (closePkt m q id) := tallyKept_trans (tallyKept_closeRaw ..) (tallyKept_settle _)

theorem tallyKept_withdrawPkt (q : Fin 32) (id : Nat) : tallyKept m (withdrawPkt m q id) :=
  tallyKept_trans (tallyKept_sinkPkt ..) (tallyKept_closePkt ..)

theorem tallyKept_putPkt (q : Fin 32) (type source : Nat) (ws : List Word) : tallyKept m (putPkt m q type source ws) :=
  tallyKept_trans (tallyKept_putRaw ..) (tallyKept_settle _)

theorem tallyKept_dropPkt (q : Fin 32) (source : Nat) : tallyKept m (dropPkt m q source) :=
  tallyKept_trans (tallyKept_dropRaw ..) (tallyKept_settle _)

theorem tallyKept_offerPkt (q : Fin 32) (type source : Nat) (ws : List Word) : tallyKept m (offerPkt m q type source ws) := by
  unfold offerPkt
  split
  · exact tallyKept_putPkt ..
  · exact tallyKept_dropPkt ..

theorem tallyKept_cuFrame (source : Nat) (pass : Nat → Bool) (bs : List Byte) (key kind ref1 : Nat) :
    tallyKept m (cuFrame m source pass bs key kind ref1) := by
  unfold cuFrame
  split
  · exact tallyKept_refl m
  · refine tallyKept_forEach _ _ fun x i => ?_
    dsimp only
    split
    · exact tallyKept_refl x
    · split
      · exact tallyKept_of_same rfl rfl
      · split
        · refine tallyKept_trans ?_ (tallyKept_settle _)
          exact tallyKept_of_same rfl rfl
        · exact tallyKept_of_same rfl rfl

end Tally

/-! ## Packets of earlier names (R325) -/

section File

variable {n : Nat} {m : Main}

theorem fileKept_journal (src code : Nat) (args : List Nat) (new : n ≤ m.pool.nextId) : fileKept n m (journal m src code args) :=
  have told : fileKept n m (journalAt m m.now src code args).1 := fileKept_journalAt _ _ _ _ new
  fileKept_trans told (fileKept_settle _ (Nat.le_trans new told.names))

theorem fileKept_putPkt (q : Fin 32) (type source : Nat) (ws : List Word) (new : n ≤ m.pool.nextId) : fileKept n m (putPkt m q type source ws) :=
  have put : fileKept n m (putRaw m q type source ws).1 := fileKept_putRaw _ _ _ _ new
  fileKept_trans put (fileKept_settle _ (Nat.le_trans new put.names))

theorem fileKept_dropPkt (q : Fin 32) (source : Nat) (new : n ≤ m.pool.nextId) : fileKept n m (dropPkt m q source) :=
  have dropped : fileKept n m (dropRaw m q source).1 := fileKept_dropRaw q source
  fileKept_trans dropped (fileKept_settle _ (Nat.le_trans new dropped.names))

theorem fileKept_offerPkt (q : Fin 32) (type source : Nat) (ws : List Word) (new : n ≤ m.pool.nextId) : fileKept n m (offerPkt m q type source ws) := by
  unfold offerPkt
  split
  · exact fileKept_putPkt _ _ _ _ new
  · exact fileKept_dropPkt _ _ new

theorem fileKept_cuFrame (source : Nat) (pass : Nat → Bool) (bs : List Byte) (key kind ref1 : Nat) :
    ∀ m : Main, n ≤ m.pool.nextId → fileKept n m (cuFrame m source pass bs key kind ref1) := by
  have each (l : List (Fin 8)) (f : Main → Fin 8 → Main) (step : ∀ x i, n ≤ x.pool.nextId → fileKept n x (f x i)) :
      ∀ m : Main, n ≤ m.pool.nextId → fileKept n m (forEach l m f) := by
    induction l with
    | nil =>
      intro m _
      rw [forEach_nil]
      exact fileKept_refl n m
    | cons i rest ih =>
      intro m new
      rw [forEach_cons]
      exact fileKept_trans (step m i new) (ih _ (Nat.le_trans new (step m i new).names))
  intro m new
  unfold cuFrame
  split
  · exact fileKept_refl n m
  · refine each _ _ (fun x i new => ?_) m new
    dsimp only
    split
    · exact fileKept_refl n x
    · split
      · exact fileKept_of_same rfl rfl
      · split
        · refine fileKept_trans ?_ (fileKept_settle _ new)
          exact fileKept_of_same rfl rfl
        · exact fileKept_of_same rfl rfl

end File

/-! ## A packet that is offered (R341) -/

section Offer

variable {m : Main} {q : Fin 32} {type source reserve : Nat} {ws : List Word}

/-- The packet that is opened with the cells it will need. -/
def offeredPacket (m : Main) (type source reserve : Nat) : Packet :=
  { id := m.pool.nextId, opened := true, type := type, source := source, reserve := reserve }

theorem openPkt_pool (m : Main) (q : Fin 32) (type source reserve : Nat) : (openPkt m q type source reserve).1.pool =
    { m.pool with
      nextId := m.pool.nextId + 1
      qs := updV m.pool.qs q fun x => noteCells { x with pkts := x.pkts ++ [offeredPacket m type source reserve] } } :=
  cuOpen_pool _ q _

theorem packetOpen_offered (names : ∀ p ∈ (m.pool.qs[q]).pkts ++ (m.pool.qs[q]).sinks, p.id < m.pool.nextId) :
    packetOpen (openPkt m q type source reserve).1 q (offeredPacket m type source reserve) := by
  have fresh {r : Packet} (mem : r ∈ (m.pool.qs[q]).pkts ++ (m.pool.qs[q]).sinks) : r.id ≠ m.pool.nextId := Nat.ne_of_lt (names r mem)
  have own : (openPkt m q type source reserve).1.pool.qs[q] =
      noteCells { m.pool.qs[q] with pkts := (m.pool.qs[q]).pkts ++ [offeredPacket m type source reserve] } := by
    rw [openPkt_pool, updV_get, if_pos rfl]
  refine ⟨?_, rfl, fun r mem same => ?_, fun r mem => ?_, ?_⟩
  · rw [own]
    exact List.mem_append_right _ List.mem_cons_self
  · rw [own] at mem
    rcases List.mem_append.mp mem with old | new
    · exact absurd same (fresh (List.mem_append_left _ old))
    · exact List.mem_singleton.mp new
  · rw [own] at mem
    exact fresh (List.mem_append_right _ mem)
  · rw [openPkt_pool]
    exact Nat.lt_succ_self _

/-- A packet that is put into a queue under a fresh name is filed there. -/
theorem putPkt_files (size : ws.length ≤ 65535) (names : ∀ p ∈ (m.pool.qs[q]).pkts ++ (m.pool.qs[q]).sinks, p.id < m.pool.nextId) :
    filed (putPkt m q type source ws) q type source ws := by
  have opened := packetOpen_offered (type := type) (source := source) (reserve := cellsOfWords (ws.length + 1)) names
  have appended := packetOpen_appendPkt (ws := ws) opened (by simpa [offeredPacket] using size)
  have filed := filed_closePkt appended
  simp only [offeredPacket, List.nil_append] at filed
  exact filed

/-- A packet that is offered to a queue with room is filed there. -/
theorem offerPkt_files (room : roomFor m q ws.length) : filed (offerPkt m q type source ws) q type source ws := by
  rw [offerPkt, if_pos room.space]
  exact putPkt_files room.size (room.names q)

theorem offerPkt_delivers (room : roomFor m q ws.length) : delivered (offerPkt m q type source ws) q type source ws :=
  delivered_of_filed (offerPkt_files room)

end Offer

end Sys2Proof.Machine

end

section
/-!
The reasoning rules of the chirp radio: what its operations leave alone, the freed demodulators, the frames that leave the hold, and the reports they
leave behind (R402, R438–R440).
-/

namespace Sys2Proof.Machine

section Chirp

variable {a b c m : Main}

/-! ## Nothing but the chirp radio changes -/

theorem chirpOnly_refl (a : Main) : chirpOnly a a := rfl

theorem chirpOnly_trans (h : chirpOnly a b) (g : chirpOnly b c) : chirpOnly a c := by
  unfold chirpOnly at *
  rw [g, h]

theorem chirpOnly_of_pool (h : poolOnly a b) : chirpOnly a b := by
  unfold chirpOnly
  rw [poolOnly] at h
  rw [h]

theorem chirpOnly_modRad (m : Main) (f : Radio → Radio) : chirpOnly m (modRad m f) := rfl
theorem chirpOnly_modPt (m : Main) (n : Fin 256) (f : Partner → Partner) : chirpOnly m (modPt m n f) := rfl
theorem chirpOnly_modDemod (m : Main) (d : Fin 8) (f : Demod → Demod) : chirpOnly m (modDemod m d f) := rfl
theorem chirpOnly_modDict (m : Main) (f : Dict → Dict) : chirpOnly m (modDict m f) := rfl
theorem chirpOnly_modHeld (m : Main) (i : Nat) (f : Held → Held) : chirpOnly m (modHeld m i f) := rfl
theorem chirpOnly_draw (m : Main) : chirpOnly m (draw m).2 := rfl
theorem chirpOnly_count (m : Main) (idx sub : Nat) : chirpOnly m (count m idx sub) := chirpOnly_of_pool (poolOnly_count ..)
theorem chirpOnly_countN (m : Main) (idx sub n : Nat) : chirpOnly m (countN m idx sub n) := chirpOnly_of_pool (poolOnly_countN ..)
theorem chirpOnly_countIf (t : Bool) (m : Main) (idx sub : Nat) : chirpOnly m (countIf t m idx sub) := chirpOnly_of_pool (poolOnly_countIf ..)

theorem chirpOnly_forEach {α : Type} (l : List α) (m : Main) (f : Main → α → Main) (h : ∀ x i, chirpOnly x (f x i)) : chirpOnly m (forEach l m f) := by
  induction l generalizing m with
  | nil => rw [forEach_nil]; rfl
  | cons i rest ih =>
    rw [forEach_cons]
    exact chirpOnly_trans (h m i) (ih _)

theorem chirpOnly_now_eq (h : chirpOnly a b) : b.now = a.now := by rw [h]
theorem chirpOnly_pw_eq (h : chirpOnly a b) : b.pw = a.pw := by rw [h]
theorem chirpOnly_cfg_eq (h : chirpOnly a b) : b.cfg = a.cfg := by rw [h]

/-! ## Demodulators (R402) -/

theorem poolOnly_withdrawPkt (m : Main) (q : Fin 32) (id : Nat) : poolOnly m (withdrawPkt m q id) :=
  poolOnly_trans (poolOnly_sinkPkt ..) (poolOnly_closePkt ..)

/-- A freed demodulator: what it leaves of the radio. -/
theorem demodFree_rad (m : Main) (d : Fin 8) : (demodFree m d).rad =
    { m.rad with demods := updV m.rad.demods d fun y => { y with st := 0, space := none, dropped := false } } := by
  unfold demodFree
  dsimp only
  split
  · simp only [modDemod, poolOnly_rad_eq (poolOnly_withdrawPkt ..)]
  · rfl

theorem demodFree_pts (m : Main) (d : Fin 8) : (demodFree m d).pts = m.pts := by
  unfold demodFree
  dsimp only
  split
  · simp only [modDemod, poolOnly_pts_eq (poolOnly_withdrawPkt ..)]
  · rfl

theorem demodFree_dict (m : Main) (d : Fin 8) : (demodFree m d).dict = m.dict := by
  unfold demodFree
  dsimp only
  split
  · simp only [modDemod, poolOnly_dict_eq (poolOnly_withdrawPkt ..)]
  · rfl

theorem tallyKept_demodFree (m : Main) (d : Fin 8) : tallyKept m (demodFree m d) := by
  unfold demodFree
  dsimp only
  split
  · exact tallyKept_trans (tallyKept_withdrawPkt ..) (tallyKept_of_same rfl rfl)
  · exact tallyKept_of_same rfl rfl

theorem chirpOnly_demodFree (m : Main) (d : Fin 8) : chirpOnly m (demodFree m d) := by
  unfold demodFree
  dsimp only
  split
  · exact chirpOnly_trans (chirpOnly_of_pool (poolOnly_withdrawPkt ..)) (chirpOnly_modDemod ..)
  · rfl

/-- A demodulator that has written nothing withdraws nothing. -/
theorem demodFree_unwritten {d : Fin 8} (space : (m.rad.demods[d]).space = none) :
    demodFree m d = modDemod m d fun y => { y with st := 0, space := none, dropped := false } := by
  unfold demodFree
  rw [space]

theorem demodFree_st (m : Main) (d : Fin 8) : ((demodFree m d).rad.demods[d]).st = 0 := by
  rw [demodFree_rad]
  dsimp only
  rw [updV_get, if_pos rfl]

theorem demodFree_other (m : Main) {d i : Fin 8} (other : i ≠ d) : (demodFree m d).rad.demods[i] = m.rad.demods[i] := by
  rw [demodFree_rad]
  dsimp only
  rw [updV_get, if_neg other]

/-- What abandoned receptions leave of the radio and its partners (R402, R409). -/
structure receptionsOff (a b : Main) : Prop where
  demods : ∀ d : Fin 8, (b.rad.demods[d]).st = 0
  rad    : b.rad = { a.rad with demods := b.rad.demods, quals := [] }
  pts    : b.pts = a.pts
  dict   : b.dict = a.dict
  only   : chirpOnly a b

/-- One reception is abandoned. -/
def receptionDropped (counted : Bool) (m : Main) (d : Fin 8) : Main :=
  if (m.rad.demods[d]).st = 0 then m else demodFree (countIf counted m 0x70E0 0x0A) d

section Drop

variable (counted : Bool) (d : Fin 8)

theorem receptionDropped_st : ((receptionDropped counted m d).rad.demods[d]).st = 0 := by
  unfold receptionDropped
  split
  · assumption
  · exact demodFree_st ..

theorem receptionDropped_idle {i : Fin 8} (idle : (m.rad.demods[i]).st = 0) : ((receptionDropped counted m d).rad.demods[i]).st = 0 := by
  by_cases own : i = d
  · rw [own]
    exact receptionDropped_st ..
  · unfold receptionDropped
    split
    · exact idle
    · rw [demodFree_other _ own, countIf_rad]
      exact idle

theorem receptionDropped_rad : { (receptionDropped counted m d).rad with demods := m.rad.demods } = m.rad := by
  unfold receptionDropped
  split
  · rfl
  · rw [demodFree_rad, countIf_rad]

theorem receptionDropped_pts : (receptionDropped counted m d).pts = m.pts := by
  unfold receptionDropped
  split
  · rfl
  · rw [demodFree_pts, countIf_pts]

theorem receptionDropped_dict : (receptionDropped counted m d).dict = m.dict := by
  unfold receptionDropped
  split
  · rfl
  · rw [demodFree_dict, countIf_dict]

theorem chirpOnly_receptionDropped : chirpOnly m (receptionDropped counted m d) := by
  unfold receptionDropped
  split
  · rfl
  · exact chirpOnly_trans (chirpOnly_countIf ..) (chirpOnly_demodFree ..)

/-- Of the counters, abandoned receptions count 0x70E0:0A and those of the pool alone. -/
theorem receptionDropped_counter {idx sub : Nat} (other : ekey idx sub ∉ poolCounters) (own : ekey idx sub ≠ ekey 0x70E0 0x0A) :
    counter (receptionDropped counted m d) idx sub = counter m idx sub := by
  unfold receptionDropped
  split
  · rfl
  · rw [(tallyKept_demodFree _ d).stands idx sub other]
    cases counted
    · rfl
    · exact counter_countN_other 1 own

end Drop

theorem dropReceptions_eq (m : Main) (counted : Bool) :
    dropReceptions m counted = modRad (forEach (allFin 8) m (receptionDropped counted)) fun r => { r with quals := [] } := rfl

/-- Once each of a list of demodulators has been dropped, none of them receives. -/
theorem receptionsDropped_st (counted : Bool) (l : List (Fin 8)) :
    ∀ m : Main, (∀ i : Fin 8, i ∉ l → (m.rad.demods[i]).st = 0) → ∀ i : Fin 8, ((forEach l m (receptionDropped counted)).rad.demods[i]).st = 0 := by
  induction l with
  | nil =>
    intro m idle i
    rw [forEach_nil]
    exact idle i List.not_mem_nil
  | cons d rest ih =>
    intro m idle
    rw [forEach_cons]
    refine ih _ fun i out => ?_
    by_cases own : i = d
    · rw [own]
      exact receptionDropped_st ..
    · exact receptionDropped_idle _ _ (idle i (by simp [own, out]))

theorem dropReceptions_off (m : Main) (counted : Bool) : receptionsOff m (dropReceptions m counted) := by
  have rad := forEach_keeps (fun x => { x.rad with demods := m.rad.demods }) (receptionDropped counted) (fun x d => by
    have kept := receptionDropped_rad (m := x) counted d
    exact congrArg (fun r : Radio => { r with demods := m.rad.demods }) kept) (allFin 8) m
  rw [dropReceptions_eq]
  refine ⟨fun d => ?_, ?_, ?_, ?_, ?_⟩
  · exact receptionsDropped_st counted (allFin 8) m (fun i out => absurd (List.mem_finRange i) out) d
  · exact congrArg (fun r : Radio => { r with demods := (forEach (allFin 8) m (receptionDropped counted)).rad.demods, quals := [] }) rad
  · exact forEach_keeps Main.pts _ (fun x d => receptionDropped_pts counted d) _ _
  · exact forEach_keeps Main.dict _ (fun x d => receptionDropped_dict counted d) _ _
  · exact chirpOnly_trans (chirpOnly_forEach _ _ _ fun x d => chirpOnly_receptionDropped counted d) (chirpOnly_modRad ..)

theorem dropReceptions_counter (m : Main) (counted : Bool) {idx sub : Nat} (other : ekey idx sub ∉ poolCounters)
    (own : ekey idx sub ≠ ekey 0x70E0 0x0A) : counter (dropReceptions m counted) idx sub = counter m idx sub := by
  rw [dropReceptions_eq]
  exact forEach_keeps (fun x => counter x idx sub) _ (fun x d => receptionDropped_counter counted d other own) _ _

/-! ## Packets of the radio (R440) -/

theorem chirpOnly_radioOut (m : Main) (n : Fin 256) (type : Nat) (ws : List Word) : chirpOnly m (radioOut m n type ws) := by
  unfold radioOut
  dsimp only
  split
  · exact chirpOnly_of_pool (poolOnly_offerPkt ..)
  · rfl

/-- A packet of the radio adds to what waits in the radio alone. -/
theorem radioOut_rad (m : Main) (n : Fin 256) (type : Nat) (ws : List Word) : { (radioOut m n type ws).rad with kept := m.rad.kept } = m.rad := by
  unfold radioOut
  dsimp only
  split
  · rw [poolOnly_rad_eq (poolOnly_offerPkt ..)]
  · rfl

theorem radioOut_pts (m : Main) (n : Fin 256) (type : Nat) (ws : List Word) : (radioOut m n type ws).pts = m.pts := by
  unfold radioOut
  dsimp only
  split
  · exact poolOnly_pts_eq (poolOnly_offerPkt ..)
  · rfl

theorem tallyKept_radioOut (m : Main) (n : Fin 256) (type : Nat) (ws : List Word) : tallyKept m (radioOut m n type ws) := by
  unfold radioOut
  dsimp only
  split
  · exact tallyKept_offerPkt ..
  · exact tallyKept_of_same rfl rfl

theorem radioOut_delivers {n : Fin 256} {type : Nat} {ws : List Word} (ctl : ctlOn m = true) (room : roomFor m (m.pts[n]).rxQueue ws.length) :
    delivered (radioOut m n type ws) (m.pts[n]).rxQueue type 0x03 ws := by
  unfold radioOut
  dsimp only
  rw [if_pos ctl]
  exact offerPkt_delivers room

/-- The radio, but for what waits in it. -/
theorem rad_of_kept {x y : Radio} {k : List (Fin 32 × Nat × List Word)} (h : { y with kept := k } = x) : y = { x with kept := y.kept } := by
  rw [← h]

theorem radioOut_rad_eq (m : Main) (n : Fin 256) (type : Nat) (ws : List Word) :
    (radioOut m n type ws).rad = { m.rad with kept := (radioOut m n type ws).rad.kept } := rad_of_kept (radioOut_rad ..)

theorem txReport_rad_eq (m : Main) (h : Held) (status : Nat) : (txReport m h status).rad = { m.rad with kept := (txReport m h status).rad.kept } := by
  unfold txReport
  split
  · rfl
  · exact radioOut_rad_eq ..

theorem txReport_pts (m : Main) (h : Held) (status : Nat) : (txReport m h status).pts = m.pts := by
  unfold txReport
  split
  · rfl
  · exact radioOut_pts ..

theorem chirpOnly_txReport (m : Main) (h : Held) (status : Nat) : chirpOnly m (txReport m h status) := by
  unfold txReport
  split
  · rfl
  · exact chirpOnly_radioOut ..

theorem tallyKept_txReport (m : Main) (h : Held) (status : Nat) : tallyKept m (txReport m h status) := by
  unfold txReport
  split
  · exact tallyKept_refl m
  · exact tallyKept_radioOut ..

/-! ## Frames of the hold (R438, R439) -/

theorem routeReport_own {h : Held} (own : h.dict = false) (status : Nat) : routeReport m h status = m := by
  simp [routeReport, own]

/-- A held frame of the host is given up: it leaves the hold with a report. -/
theorem giveUp_own {i : Nat} {h : Held} (held : m.rad.hold[i]? = some h) (own : h.dict = false) (status : Nat) :
    giveUp m i status = txReport (holdDrop m i) h status := by
  simp only [giveUp, held, routeReport_own own]

theorem chirpOnly_holdDrop (m : Main) (i : Nat) : chirpOnly m (holdDrop m i) := rfl

/-- The report of a held frame of the host is delivered. -/
theorem txReport_delivers {h : Held} {status : Nat} (own : h.dict = false) (ctl : ctlOn m = true) (room : roomFor m (m.pts[h.slot]).rxQueue 3) :
    delivered (txReport m h status) (m.pts[h.slot]).rxQueue 0x32 0x03
      [word (place 0 8 h.slot.val + place 8 8 status + place 16 16 h.htag), word h.lastCtr, word (place 0 8 h.copies)] := by
  rw [txReport, own, if_neg (by simp)]
  exact radioOut_delivers ctl room

/-! ## The front end under the access layer -/

/-- The radio's unit, its transmitter's switches and its demodulators stay. -/
structure frontKept (a b : Main) : Prop where
  unit   : b.rad.unit = a.rad.unit
  active : b.rad.tx.active = a.rad.tx.active
  txen   : b.rad.tx.txen = a.rad.tx.txen
  demods : b.rad.demods = a.rad.demods

theorem frontKept_refl (a : Main) : frontKept a a := ⟨rfl, rfl, rfl, rfl⟩

theorem frontKept_trans (h : frontKept a b) (g : frontKept b c) : frontKept a c :=
  ⟨g.unit.trans h.unit, g.active.trans h.active, g.txen.trans h.txen, g.demods.trans h.demods⟩

theorem frontKept_of_rad (h : b.rad = a.rad) : frontKept a b := ⟨by rw [h], by rw [h], by rw [h], by rw [h]⟩

theorem frontKept_txReport (m : Main) (h : Held) (status : Nat) : frontKept m (txReport m h status) := by
  have rad := txReport_rad_eq m h status
  exact ⟨by rw [rad], by rw [rad], by rw [rad], by rw [rad]⟩

theorem frontKept_radioOut (m : Main) (n : Fin 256) (type : Nat) (ws : List Word) : frontKept m (radioOut m n type ws) := by
  have rad := radioOut_rad_eq m n type ws
  exact ⟨by rw [rad], by rw [rad], by rw [rad], by rw [rad]⟩

theorem frontKept_offerPkt (m : Main) (q : Fin 32) (type source : Nat) (ws : List Word) : frontKept m (offerPkt m q type source ws) :=
  frontKept_of_rad (poolOnly_rad_eq (poolOnly_offerPkt ..))

theorem frontKept_dictReply (m : Main) (cls who : Nat) (req : List Byte) (status : Nat) (data : List Byte) :
    frontKept m (dictReply m cls who req status data) := by
  have formed : frontKept m (dictResp m req status data).2 := frontKept_of_rad (countIf_rad ..)
  refine frontKept_trans formed ?_
  unfold dictReply dictOut
  dsimp only
  split
  · exact frontKept_offerPkt ..
  · split
    · exact frontKept_offerPkt ..
    · split
      · exact ⟨rfl, rfl, rfl, rfl⟩
      · exact frontKept_offerPkt ..

theorem frontKept_routeReport (m : Main) (h : Held) (status : Nat) : frontKept m (routeReport m h status) := by
  unfold routeReport
  split
  · exact frontKept_refl m
  · split
    · exact frontKept_refl m
    · split
      · exact frontKept_of_rad rfl
      · refine frontKept_trans (frontKept_of_rad (count_rad m 0x7010 0x09)) ?_
        unfold routeError
        split
        · refine frontKept_trans ?_ (frontKept_dictReply ..)
          exact frontKept_of_rad rfl
        · exact frontKept_refl _

theorem frontKept_giveUp (m : Main) (i status : Nat) : frontKept m (giveUp m i status) := by
  unfold giveUp
  split
  · refine frontKept_trans (frontKept_trans ?_ (frontKept_txReport ..)) (frontKept_routeReport ..)
    exact ⟨rfl, rfl, rfl, rfl⟩
  · exact frontKept_refl m

theorem frontKept_callFailed (m : Main) (n : Fin 256) : frontKept m (callFailed m n) := by
  unfold callFailed
  split
  · exact frontKept_refl m
  · dsimp only
    split
    · exact ⟨rfl, rfl, rfl, rfl⟩
    · refine frontKept_trans ?_ (frontKept_radioOut ..)
      exact frontKept_of_rad rfl

/-- The end of a wait for an acknowledgement touches neither the transmitter nor a reception. -/
theorem frontKept_ackExpiry (m : Main) : frontKept m (ackExpiry m) := by
  have noted (x : Main) (f : Radio → Radio) (unit : (f x.rad).unit = x.rad.unit) (active : (f x.rad).tx.active = x.rad.tx.active)
      (txen : (f x.rad).tx.txen = x.rad.tx.txen) (demods : (f x.rad).demods = x.rad.demods) : frontKept x (modRad x f) :=
    ⟨unit, active, txen, demods⟩
  have waited : frontKept m (modRad m fun r => { r with ackWait := none }) := noted _ _ rfl rfl rfl rfl
  have again : frontKept (modRad m fun r => { r with ackWait := none }) (count (modRad m fun r => { r with ackWait := none }) 0x70F0 0x04) :=
    frontKept_of_rad (count_rad ..)
  unfold ackExpiry
  split
  · exact frontKept_refl m
  · dsimp only
    split
    · split
      · exact waited
      · split
        · exact frontKept_trans waited (frontKept_trans again (noted _ _ rfl rfl rfl rfl))
        · exact frontKept_trans waited (frontKept_trans (frontKept_giveUp ..) (frontKept_of_rad rfl))
    · split
      · exact frontKept_trans waited (frontKept_trans again (noted _ _ rfl rfl rfl rfl))
      · exact frontKept_trans waited ⟨rfl, rfl, rfl, rfl⟩
    · exact frontKept_trans waited (frontKept_callFailed ..)
    · exact waited

end Chirp

end Sys2Proof.Machine

end

section
/-!
Proofs of the statement on counters, unit faults and recovery (R550, R556, R560, R562, R563): a clear and the counters it leaves, a first fault of a
unit, and a fault while it recovers, which leads to HOLD or takes the radio out of service.
-/

namespace Sys2Proof.Machine

variable {m : Main}

/-! ## Counters (R550) -/

/-- What stands under a key of a list from which keys have been taken. -/
theorem mapGet_filter (g : Nat → Bool) (k : Nat) (l : List (Nat × Nat)) : mapGet k (l.filter fun x => g x.1) = if g k then mapGet k l else none := by
  induction l with
  | nil => simp [mapGet]
  | cons p rest ih =>
    by_cases own : p.1 = k
    · subst own
      cases taken : g p.1 <;> simp [taken, mapGet, ih]
    · cases taken : g p.1 <;> simp [taken, mapGet, own, ih]

/-- The counters of one index are emptied. -/
def cleared (m : Main) (v : Nat) : Main := modFlt m fun f => { f with ctr := f.ctr.filter fun x => v != 0xFFFF && x.1 / 256 != v }

theorem counter_cleared {v : Nat} (one : v ≠ 0xFFFF) {i sub : Nat} (small : sub < 256) :
    counter (cleared m v) i sub = if i = v then 0 else counter m i sub := by
  have index : ekey i sub / 256 = i := by unfold ekey; omega
  have found := mapGet_filter (fun k => v != 0xFFFF && k / 256 != v) (ekey i sub) m.flt.ctr
  show (mapGet (ekey i sub) (m.flt.ctr.filter fun x => v != 0xFFFF && x.1 / 256 != v)).getD 0 = _
  rw [found]
  rw [index]
  by_cases own : i = v
  · simp [own]
  · simp [own, one, counter]

/-- The indices whose counters the pool's own work counts. -/
theorem index_of_poolCounters {i sub : Nat} (small : sub < 256) (mem : ekey i sub ∈ poolCounters) : i ∈ [0x7000, 0x7008, 0x7018, 0x70C0] := by
  simp only [poolCounters, ekey, List.mem_cons, List.not_mem_nil, or_false] at mem ⊢
  omega

theorem counterClear_clears {v : Nat} (ctl : ctlOn m = true) (mode : m.pw.mode.isMain = true ∨ m.pw.mode = .hold) (known : isCounterIndex v = true) :
    (counterClear m v).2 = journal (count (cleared m v) 0x7008 0x0A) 0x38 0xB001 [v] := by
  have writable : (m.pw.mode.isMain || m.pw.mode == .hold) = true := by
    rcases mode with mode | mode <;> simp [mode]
  rw [counterClear, ctl, writable, known]
  simp [cleared]

theorem poolOnly_cleared (m : Main) (v : Nat) : poolOnly m (cleared m v) := rfl

/-- A clear empties its index, counts itself, and leaves the rest. -/
theorem counter_counterClear {v : Nat} (known : isCounterIndex v = true) (free : v ∉ [0x7000, 0x7008, 0x7018, 0x70C0]) {i sub : Nat} (small : sub < 256)
    (other : i ∉ [0x7000, 0x7008, 0x7018, 0x70C0]) :
    counter (journal (count (cleared m v) 0x7008 0x0A) 0x38 0xB001 [v]) i sub = if i = v then 0 else counter m i sub := by
  have one : v ≠ 0xFFFF := by
    rintro rfl
    simp [isCounterIndex] at known
  have notPool : ekey i sub ∉ poolCounters := fun mem => other (index_of_poolCounters small mem)
  have notOwn : ekey i sub ≠ ekey 0x7008 0x0A := by
    have : i ≠ 0x7008 := fun same => other (by simp [same])
    unfold ekey
    omega
  rw [(tallyKept_journal ..).stands i sub notPool, count, counter_countN_other 1 notOwn, counter_cleared one small]

theorem counter_counterClear_own {v : Nat} (known : isCounterIndex v = true) (free : v ∉ [0x7000, 0x7008, 0x7018, 0x70C0]) :
    counter (journal (count (cleared m v) 0x7008 0x0A) 0x38 0xB001 [v]) 0x7008 0x0A = sat32 (counter m 0x7008 0x0A + 1) := by
  have one : v ≠ 0xFFFF := by
    rintro rfl
    simp [isCounterIndex] at known
  have other : ¬ (0x7008 : Nat) = v := fun same => free (by simp [← same])
  rw [(tallyKept_journal ..).stands _ _ (by decide), counter_count_same, counter_cleared one (by decide), if_neg other]

/-! ## Faults of a unit (R560, R561) -/

/-- A fault that has been told is noted among the units that had one. -/
def faultNoted (m : Main) (u cause : Nat) : Main :=
  let m := modFlt m fun f => { f with lastFault := (u, cause, f.jseq % 65536) }
  modFlt m fun f =>
    { f with recent := (f.recent.filter fun r => r.1 != u && decide (m.now < r.2 + cfgN m 0x7100 0x06 * tickMs)) ++ [(u, m.now)] }

/-- A first fault is told, noted, and escalates where the units that had one suffice. -/
theorem unitFault_eq (m : Main) (u cause : Nat) : unitFault m u cause false false =
    let y := faultNoted (journal (count m 0x7008 0x04) (unitSource u) 0x0001 [u, cause]) u cause
    if cfgN y 0x7100 0x07 ≤ (recentUnits y).length && y.pw.mode.isMain then enterHold (count y 0x7008 0x08) 3 (recentUnits y) else y := rfl

theorem faultNoted_recent {u cause : Nat} (none : m.flt.recent = []) : (faultNoted m u cause).flt.recent = [(u, m.now)] := by
  simp [faultNoted, none]

/-- A unit is one of those that had a fault, once. -/
theorem recentUnits_one {u t : Nat} (one : m.flt.recent = [(u, t)]) : (recentUnits m).length ≤ 1 := by
  unfold recentUnits
  refine (List.Sublist.length_le (List.dedup_sublist _)).trans ?_
  rw [List.length_map, one]
  exact List.length_filter_le ..

/-- The first fault of a unit, where a second is needed to escalate. -/
theorem unitFault_first (u cause : Nat) (none : m.flt.recent = []) (more : 1 < cfgN m 0x7100 0x07) :
    poolOnly m (unitFault m u cause false false) ∧ (unitFault m u cause false false).flt.recent = [(u, m.now)] ∧
    counter (unitFault m u cause false false) 0x7008 0x04 = sat32 (counter m 0x7008 0x04 + 1) := by
  have told : poolOnly m (journal (count m 0x7008 0x04) (unitSource u) 0x0001 [u, cause]) := poolOnly_trans (poolOnly_count ..) (poolOnly_journal ..)
  have tally : tallyKept (count m 0x7008 0x04) (journal (count m 0x7008 0x04) (unitSource u) 0x0001 [u, cause]) := tallyKept_journal ..
  have counted : (count m 0x7008 0x04).flt.recent = [] := by
    rw [count, countN]
    simpa using none
  have recent := tally.recent.trans counted
  have fault := tally.stands 0x7008 0x04 (by decide)
  rw [counter_count_same] at fault
  rw [unitFault_eq]
  generalize journal (count m 0x7008 0x04) (unitSource u) 0x0001 [u, cause] = x at told recent fault
  have noted := faultNoted_recent (cause := cause) (u := u) recent
  have cfg : cfgN (faultNoted x u cause) 0x7100 0x07 = cfgN m 0x7100 0x07 := cfgN_of_cfg (poolOnly_cfg_eq told) ..
  have few := recentUnits_one noted
  dsimp only
  rw [if_neg (by simp only [cfg, Bool.and_eq_true, decide_eq_true_eq]; omega)]
  exact ⟨poolOnly_trans told rfl, by rw [noted, poolOnly_now_eq told], fault⟩

/-! ## Entry to HOLD (R41, R562) -/

theorem discardBurnish_rad (m : Main) : (discardBurnish m).rad = m.rad := by
  refine forEach_keeps Main.rad _ (fun x k => ?_) _ _
  split <;> rfl

theorem abandonFull_rad (m : Main) : (abandonFull m).rad = m.rad := by
  unfold abandonFull
  split
  · dsimp only
    rw [journal_rad, count_rad, discardBurnish_rad]
    rfl
  · rfl

/-- All work has ended on the way to HOLD. -/
def workEnded (m : Main) : Main := discardBurnish (abandonFull (cutPass (abortWaiting (abortStarted (allFieldsOff m) 4) 4)))

theorem workEnded_rad (m : Main) : (workEnded m).rad = m.rad := by
  rw [workEnded, discardBurnish_rad, abandonFull_rad, readerOnly_rad_eq (readerOnly_cutPass _), readerOnly_rad_eq (readerOnly_abortWaiting ..),
    readerOnly_rad_eq (readerOnly_abortStarted ..), readerOnly_rad_eq (readerOnly_allFieldsOff _)]

/-- Nothing asks for a field in HOLD, and the radio has stopped. -/
theorem enterHold_stops (cause : Nat) (units : List Nat) (main : m.pw.mode.isMain = true) : (enterHold m cause units).sch.reqs = [] ∧
    (enterHold m cause units).rad = (dropReceptions (txStop (workEnded m)) false).rad := by
  unfold enterHold
  rw [main, if_neg (by simp)]
  constructor
  · rw [poolOnly_sch_eq (poolOnly_setMode ..), modPw_sch, poolOnly_sch_eq (poolOnly_journal ..), modPw_sch, count_sch]
  · rw [poolOnly_rad_eq (poolOnly_setMode ..), modPw_rad, journal_rad, modPw_rad, count_rad]
    rfl

/-- A nested fault of a vital unit in a main mode leaves no request for a field. -/
theorem vitalFault_nested_reqs (u cause : Nat) (main : m.pw.mode.isMain = true) : (vitalFault m u cause true).sch.reqs = [] := by
  have e : vitalFault m u cause true = enterHold (unitFault m u cause true false) 5 [u] := rfl
  obtain ⟨x, told, fault⟩ := unitFault_cases m u cause true false
  have still : x.pw.mode.isMain = true := by rw [poolOnly_pw_eq told]; exact main
  rw [e]
  rcases fault with fault | ⟨units, fault⟩
  · rw [fault]
    exact (enterHold_stops 5 [u] still).1
  · have hold : (enterHold x 3 units).pw.mode.isMain = false := by
      rw [(enterHold_enters x 3 units still).1]
      rfl
    rw [fault, enterHold_other _ 5 [u] hold]
    exact (enterHold_stops 3 units still).1

/-! ## The field scheduler's faults (R560) -/

/-- The field scheduler rebuilds its tables. -/
def rebuilding (m : Main) : Main := { m with sch := { m.sch with state := 1 } }

theorem schedFault_eq (m : Main) (cause : Nat) : schedFault m cause = vitalFault (rebuilding m) 0x2A cause (m.sch.state != 0) := rfl

/-- A first fault of the scheduler: the tables are rebuilt, and the fault is counted. -/
theorem schedFault_first (cause : Nat) (state : m.sch.state = 0) (none : m.flt.recent = []) (more : 1 < cfgN m 0x7100 0x07) :
    (schedFault m cause).flt.recent = [(0x2A, m.now)] ∧ counter (schedFault m cause) 0x7008 0x04 = sat32 (counter m 0x7008 0x04 + 1) ∧
    poolOnly (rebuilding m) (schedFault m cause) := by
  have fault : schedFault m cause = unitFault (rebuilding m) 0x2A cause false false := by simp [schedFault_eq, vitalFault, state]
  obtain ⟨told, recent, counted⟩ := unitFault_first (m := rebuilding m) 0x2A cause none more
  rw [fault]
  exact ⟨recent, counted, told⟩

/-- A fault of the scheduler while it recovers leads to HOLD (R562). -/
theorem schedFault_nested (cause : Nat) (state : m.sch.state ≠ 0) (main : m.pw.mode.isMain = true) :
    (schedFault m cause).pw.mode = .hold ∧ (schedFault m cause).sch.reqs = [] := by
  rw [schedFault_eq, bne_iff_ne.mpr state]
  exact ⟨(vitalFault_nested_enters (m := rebuilding m) 0x2A cause main).1, vitalFault_nested_reqs (m := rebuilding m) 0x2A cause main⟩

/-! ## The radio's faults (R560) -/

/-- The radio neither sends nor receives, in service state `u`. -/
structure frontStopped (m : Main) (u : Nat) : Prop where
  unit   : m.rad.unit = u
  active : m.rad.tx.active = false
  txen   : m.rad.tx.txen = false
  demods : ∀ d : Fin 8, (m.rad.demods[d]).st = 0

theorem frontStopped_of_rad {a b : Main} {u : Nat} (h : frontStopped a u) (rad : b.rad = a.rad) : frontStopped b u :=
  ⟨by rw [rad]; exact h.unit, by rw [rad]; exact h.active, by rw [rad]; exact h.txen, fun d => by rw [rad]; exact h.demods d⟩

theorem frontStopped_of_front {a b : Main} {u : Nat} (h : frontStopped a u) (front : frontKept a b) : frontStopped b u :=
  ⟨front.unit.trans h.unit, front.active.trans h.active, front.txen.trans h.txen, fun d => by rw [front.demods]; exact h.demods d⟩

theorem frontStopped_dropped (m : Main) (counted : Bool) : frontStopped (dropReceptions (txStop m) counted) m.rad.unit := by
  obtain ⟨demods, rad, -, -, -⟩ := dropReceptions_off (txStop m) counted
  refine ⟨?_, ?_, ?_, demods⟩ <;> rw [rad] <;> rfl

theorem frontStopped_unitFault {u : Nat} (h : frontStopped m u) (unit cause : Nat) (nested out : Bool) : frontStopped (unitFault m unit cause nested out) u := by
  obtain ⟨x, told, fault⟩ := unitFault_cases m unit cause nested out
  have told := frontStopped_of_rad h (poolOnly_rad_eq told)
  rcases fault with fault | ⟨units, fault⟩
  · rw [fault]
    exact told
  · rw [fault]
    cases main : x.pw.mode.isMain with
    | false => rwa [enterHold_other x 3 units main]
    | true =>
      have stopped := frontStopped_dropped (workEnded x) false
      rw [workEnded_rad, told.unit] at stopped
      exact frontStopped_of_rad stopped (enterHold_stops 3 units main).2

/-- The radio has stopped and recovers. -/
def recovering (m : Main) : Main := modRad (dropReceptions (txStop m) true) fun r => { r with unit := 1 }

theorem radioFault_idle (cause : Nat) (unit : m.rad.unit = 0) (idle : m.rad.tx.active = false) :
    radioFault m cause = unitFault (recovering m) 0x2B cause false false := by
  simp [radioFault, unit, idle, recovering]

theorem frontStopped_recovering (m : Main) : frontStopped (recovering m) 1 := by
  obtain ⟨-, active, txen, demods⟩ := frontStopped_dropped m true
  exact ⟨rfl, active, txen, demods⟩

theorem recovering_hold (m : Main) : (recovering m).rad.hold = m.rad.hold := by
  rw [recovering, modRad_rad, (dropReceptions_off (txStop m) true).rad]
  rfl

theorem recovering_pts (m : Main) : (recovering m).pts = m.pts := by
  rw [recovering, modRad_pts, (dropReceptions_off (txStop m) true).pts]
  rfl

theorem chirpOnly_recovering (m : Main) : chirpOnly m (recovering m) :=
  chirpOnly_trans (chirpOnly_trans (chirpOnly_modRad m _) (dropReceptions_off (txStop m) true).only) (chirpOnly_modRad ..)

theorem dropReceptions_recent (m : Main) (counted : Bool) : (dropReceptions m counted).flt.recent = m.flt.recent := by
  rw [dropReceptions_eq]
  refine forEach_keeps (·.flt.recent) _ (fun x d => ?_) _ m
  unfold receptionDropped
  split
  · rfl
  · rw [(tallyKept_demodFree ..).recent]
    cases counted
    · rfl
    · rw [countIf, if_pos rfl, count, countN]
      simp

theorem recovering_recent (m : Main) : (recovering m).flt.recent = m.flt.recent := dropReceptions_recent (txStop m) true

/-- A first fault of the radio stops it; it recovers (R560). -/
theorem radioFault_first (cause : Nat) (unit : m.rad.unit = 0) (idle : m.rad.tx.active = false) (none : m.flt.recent = [])
    (more : 1 < cfgN m 0x7100 0x07) : frontStopped (radioFault m cause) 1 ∧ (radioFault m cause).rad.hold = m.rad.hold ∧
      (radioFault m cause).pts = m.pts ∧ chirpOnly m (radioFault m cause) := by
  have told := (unitFault_first (m := recovering m) 0x2B cause ((recovering_recent m).trans none)
    (by rw [cfgN_of_cfg (chirpOnly_cfg_eq (chirpOnly_recovering m))]; exact more)).1
  rw [radioFault_idle cause unit idle, poolOnly_rad_eq told, poolOnly_pts_eq told]
  exact ⟨frontStopped_of_rad (frontStopped_recovering m) (poolOnly_rad_eq told), recovering_hold m, recovering_pts m,
    chirpOnly_trans (chirpOnly_recovering m) (chirpOnly_of_pool told)⟩

/-- A fault of the radio while it is in PROBATION retires it (R560). -/
theorem radioFault_nested (cause : Nat) (unit : m.rad.unit = 3) : frontStopped (radioFault m cause) 4 := by
  unfold radioFault
  simp only [unit]
  refine frontStopped_unitFault ?_ ..
  have stopped := frontStopped_dropped m true
  have front : frontStopped (if m.rad.tx.active then ackExpiry (modRad (dropReceptions (txStop m) true) fun r =>
      { r with ackWait := some (m.rad.tx.kind, m.rad.tx.ctr) }) else dropReceptions (txStop m) true) m.rad.unit := by
    split
    · refine frontStopped_of_front ?_ (frontKept_ackExpiry _)
      exact ⟨stopped.unit, stopped.active, stopped.txen, stopped.demods⟩
    · exact stopped
  exact ⟨rfl, front.active, front.txen, front.demods⟩

/-! ## The end of PROBATION (R560) -/

theorem probationEnd_none (ctl : m.pw.ctlState ≠ 3) (pool : m.pool.state ≠ 3) (sch : m.sch.state ≠ 3) (unit : m.rad.unit ≠ 3) (u : Nat) :
    probationEnd m u = m := by
  have ctlSame : (modPw m fun p => if p.ctlState = 3 then { p with ctlState := 0 } else p) = m := by rw [modPw, if_neg ctl]
  have poolSame : ({ m with pool := { m.pool with state := if m.pool.state = 3 then 0 else m.pool.state } } : Main) = m := by rw [if_neg pool]
  have schSame : ({ m with sch := { m.sch with state := if m.sch.state = 3 then 0 else m.sch.state } } : Main) = m := by rw [if_neg sch]
  have radSame : (modRad m fun r => if r.unit = 3 then { r with unit := 0 } else r) = m := by rw [modRad, if_neg unit]
  rw [probationEnd, ctlSame, poolSame, schSame, radSame]
  simp only [ite_self]

/-! ## The statement -/

/-- Settles O59: each fault by the service state that its unit stands in. -/
theorem faultsAndRecovery : Obligations.FaultsAndRecovery := by
  unfold Obligations.FaultsAndRecovery
  refine ⟨?clear, ?down, ?unknown, ?mode, ?period, ?noPeriod, ?sched, ?schedNested, ?schedNone, ?rebuilt, ?notRebuilt, ?radio, ?radioNested,
    ?radioNone, ?recovered, ?notRecovered, ?release, ?noRelease, ?ctl, ?pool, ?field, ?chirp, ?none⟩
  case clear =>
    intro s v ctl up mode known free
    refine answers_of_onService (f := fun m => (counterClear m v.toNat).2) rfl up ?_
    rw [counterClear_clears ctl mode known]
    refine ⟨fun sub small => ?_, fun i sub small other => ?_, counter_counterClear_own known free, ?_, mainOnly_m _ _⟩
    · exact (counter_counterClear known free small free).trans (if_pos rfl)
    · obtain ⟨own, rest⟩ := not_or.mp (mt List.mem_cons.mpr other)
      exact (counter_counterClear known free small rest).trans (if_neg own)
    · exact poolOnly_trans (poolOnly_cleared s.m v.toNat) (poolOnly_trans (poolOnly_count ..) (poolOnly_journal ..))
  case down => exact fun s v down => exec_onService_down (f := fun m => (counterClear m v.toNat).2) rfl down
  case unknown =>
    intro s v one unknown
    refine exec_onService_same (f := fun m => (counterClear m v.toNat).2) rfl ?_
    have one : v.toNat ≠ 0xFFFF := fun same => one (BitVec.eq_of_toNat_eq same)
    simp only [counterClear, bne_iff_ne.mpr one, unknown, Bool.not_false, Bool.and_true, if_true, apply_ite Prod.snd, ite_self]
  case mode =>
    intro s v main hold
    refine exec_onService_same (f := fun m => (counterClear m v.toNat).2) rfl ?_
    simp [counterClear, main, hold]
  case period => exact fun s on => exec_of_onMain (f := fun m => if ctlOn m then _ else m) rfl (if_pos on)
  case noPeriod => exact fun s off => exec_of_onMain (f := fun m => if ctlOn m then _ else m) rfl (if_neg (by simp [off]))
  case sched =>
    intro s c on cause state none more
    refine answers_of_onMain (f := fun m => if engOn m && c.val != 0 then schedFault m c.val else m) rfl ?_
    have goes : (engOn s.m && c.val != 0) = true := by simp [on, cause]
    obtain ⟨recent, counted, told⟩ := schedFault_first c.val state none more
    rw [if_pos goes]
    refine ⟨(schedFault_rebuilds s.m c.val).1, by rw [poolOnly_pw_eq told]; rfl, recent, counted, ?_, mainOnly_m _ _⟩
    rw [poolOnly_sch_eq told]
    exact told
  case schedNested =>
    intro s c on cause state
    refine answers_of_onMain (f := fun m => if engOn m && c.val != 0 then schedFault m c.val else m) rfl ?_
    have goes : (engOn s.m && c.val != 0) = true := by simp [on, cause]
    obtain ⟨mode, reqs⟩ := schedFault_nested c.val state on
    rw [if_pos goes]
    exact ⟨mode, (schedFault_rebuilds s.m c.val).1, reqs, mainOnly_m _ _⟩
  case schedNone =>
    intro s c h
    refine exec_of_onMain (f := fun m => if engOn m && c.val != 0 then schedFault m c.val else m) rfl (if_neg ?_)
    rcases h with h | h <;> simp [h]
  case rebuilt =>
    intro s state
    refine answers_of_onMain (f := fun m => if m.sch.state = 1 then evaluate (unitState { m with sch := { m.sch with state := 3 } } 0x2A 3) else m) rfl ?_
    rw [if_pos state]
    refine ⟨?_, mainOnly_m _ _, ?_⟩
    · rw [standing_sched (evaluate_standing _), unitState, poolOnly_sch_eq (poolOnly_journal ..)]
    · exact readerOnly_trans (readerOnly_trans (readerOnly_sch ..) (readerOnly_journal ..)) (readerOnly_evaluate _)
  case notRebuilt =>
    exact fun s state => exec_of_onMain (f := fun m => if m.sch.state = 1 then evaluate (unitState { m with sch := { m.sch with state := 3 } } 0x2A 3) else m) rfl (if_neg state)
  case radio =>
    intro s c on cause unit idle none more
    refine answers_of_onMain (f := fun m => if engOn m && c.val != 0 then radioFault m c.val else m) rfl ?_
    have goes : (engOn s.m && c.val != 0) = true := by simp [on, cause]
    obtain ⟨quiet, hold, pts, only⟩ := radioFault_first c.val unit idle none more
    rw [if_pos goes]
    exact ⟨quiet.unit, quiet.txen, quiet.demods, hold, pts, congrArg Power.mode (chirpOnly_pw_eq only), only, mainOnly_m _ _⟩
  case radioNested =>
    intro s c on cause unit
    refine answers_of_onMain (f := fun m => if engOn m && c.val != 0 then radioFault m c.val else m) rfl ?_
    have goes : (engOn s.m && c.val != 0) = true := by simp [on, cause]
    have quiet := radioFault_nested c.val unit
    rw [if_pos goes]
    exact ⟨quiet.unit, quiet.active, quiet.txen, quiet.demods, mainOnly_m _ _⟩
  case radioNone =>
    intro s c h
    refine exec_of_onMain (f := fun m => if engOn m && c.val != 0 then radioFault m c.val else m) rfl (if_neg ?_)
    rcases h with h | h <;> simp [h]
  case recovered =>
    intro s unit
    refine answers_of_onMain (f := fun m => if m.rad.unit = 1 then unitState (modRad m fun r => { r with unit := 3 }) 0x2B 3 else m) rfl ?_
    rw [if_pos unit]
    have told : poolOnly (modRad s.m fun r => { r with unit := 3 }) (unitState (modRad s.m fun r => { r with unit := 3 }) 0x2B 3) := poolOnly_journal ..
    refine ⟨poolOnly_rad_eq told, mainOnly_m _ _, ?_⟩
    rw [poolOnly_rad_eq told]
    exact told
  case notRecovered =>
    exact fun s unit => exec_of_onMain (f := fun m => if m.rad.unit = 1 then unitState (modRad m fun r => { r with unit := 3 }) 0x2B 3 else m) rfl (if_neg unit)
  case release =>
    intro s main up unit
    refine answers_of_onService (f := fun m => (radioRelease m (0x5A#8).toNat).2) rfl up ?_
    have released : (radioRelease s.m (0x5A#8).toNat).2 = unitReleased (modRad s.m fun r => { r with unit := 1 }) 0x2B := by
      simp [radioRelease, main, unit]
    have told : poolOnly (modRad s.m fun r => { r with unit := 1 }) (unitReleased (modRad s.m fun r => { r with unit := 1 }) 0x2B) :=
      poolOnly_trans (poolOnly_count ..) (poolOnly_journal ..)
    rw [released]
    refine ⟨poolOnly_rad_eq told, ?_, mainOnly_m _ _, ?_⟩
    · rw [unitReleased, (tallyKept_journal ..).stands _ _ (by decide), counter_count_same]
      rfl
    · rw [poolOnly_rad_eq told]
      exact told
  case noRelease =>
    intro s v h
    refine exec_onService_same (f := fun m => (radioRelease m v.toNat).2) rfl ?_
    unfold radioRelease
    rcases h with h | h | h
    · have h : v.toNat ≠ 0x5A := fun same => h (BitVec.eq_of_toNat_eq same)
      simp only [bne_iff_ne.mpr h, if_true, apply_ite Prod.snd, ite_self]
    · simp only [bne_iff_ne.mpr h, if_true, apply_ite Prod.snd, ite_self]
    · simp [h]
  case ctl =>
    intro s state
    exact exec_of_onMain (f := fun m => probationEnd m (0x28#8).toNat) rfl (by simp [probationEnd, modPw, state])
  case pool =>
    intro s state
    exact exec_of_onMain (f := fun m => probationEnd m (0x29#8).toNat) rfl (by simp [probationEnd, state])
  case field =>
    intro s state
    exact exec_of_onMain (f := fun m => probationEnd m (0x2A#8).toNat) rfl (by simp [probationEnd, state])
  case chirp =>
    intro s state
    exact exec_of_onMain (f := fun m => probationEnd m (0x2B#8).toNat) rfl (by simp [probationEnd, modRad, state])
  case none =>
    exact fun s ctl pool sch unit u => exec_of_onMain (f := fun m => probationEnd m u.toNat) rfl (probationEnd_none ctl pool sch unit _)

end Sys2Proof.Machine

end

section
/-!
Proofs of the statement on the radio receiver up to the header (R398–R402, R404, R409, R410): the gate, the qualifiers of the detector, the detection
that takes the lowest free demodulator, the demodulator's steps, the gain steps, and the retune.
-/

namespace Sys2Proof.Machine

variable {m : Main}

/-! ## The gate (R398) -/

theorem gateUpdate_opens {ch : Fin 64} {power : Int} (hunted_ : hunted m ch.val = true) (closed : ch.val ∉ m.rad.gates)
    (strong : cfgI m 16 0x4000 0x07 ≤ power) : gateUpdate m ch power = modRad m fun r => { r with gates := r.gates ++ [ch.val] } := by
  simp [gateUpdate, hunted_, closed, strong]

theorem gateUpdate_closes {ch : Fin 64} {power : Int} (hunted_ : hunted m ch.val = true) (opened : ch.val ∈ m.rad.gates)
    (weak : power < cfgI m 16 0x4000 0x07 - 30) : gateUpdate m ch power =
      modRad m fun r => { r with gates := r.gates.filter (· != ch.val), quals := r.quals.filter fun q => q.ch != ch.val } := by
  simp [gateUpdate, hunted_, opened, weak]

theorem gateUpdate_stays {ch : Fin 64} {power : Int} (opened : ch.val ∈ m.rad.gates) (strong : cfgI m 16 0x4000 0x07 - 30 ≤ power) :
    gateUpdate m ch power = m := by
  simp [gateUpdate, opened, not_lt.mpr strong]

/-! ## Qualifiers (R399) -/

/-- The qualifiers of a channel and order are found by both. -/
theorem find_filter_key {ch n c k : Nat} (other : (c, k) ≠ (ch, n)) (l : List Qualifier) :
    (l.filter fun q => !(q.ch == ch && q.order == n)).find? (fun q => q.ch == c && q.order == k) = l.find? fun q => q.ch == c && q.order == k := by
  rw [List.find?_filter]
  congr 1
  funext q
  by_cases own : q.ch = c ∧ q.order = k
  · obtain ⟨rfl, rfl⟩ := own
    have differs : ¬ (q.ch = ch ∧ q.order = n) := fun same => other (by rw [same.1, same.2])
    by_cases chan : q.ch = ch <;> simp_all
  · by_cases chan : q.ch = c <;> simp_all

theorem qualOf_qualDrop_same (m : Main) (ch n : Nat) : qualOf (qualDrop m ch n) ch n = none := by
  rw [qualOf, qualDrop, modRad_rad, List.find?_filter]
  refine List.find?_eq_none.mpr fun q _ => ?_
  cases (q.ch == ch && q.order == n) <;> simp

theorem qualOf_qualDrop_other (m : Main) {ch n c k : Nat} (other : (c, k) ≠ (ch, n)) : qualOf (qualDrop m ch n) c k = qualOf m c k :=
  find_filter_key other m.rad.quals

theorem qualOf_qualPut_same (m : Main) (ch n v track : Nat) : qualOf (qualPut m ch n v track) ch n = some ⟨ch, n, v, track⟩ := by
  have gone := qualOf_qualDrop_same m ch n
  simp only [qualOf, qualDrop, modRad_rad] at gone
  simp only [qualOf, qualPut, modRad_rad, List.find?_append, gone, Option.none_or]
  simp

theorem qualOf_qualPut_other (m : Main) {ch n c k : Nat} (v track : Nat) (other : (c, k) ≠ (ch, n)) :
    qualOf (qualPut m ch n v track) c k = qualOf m c k := by
  have differs : (ch == c && n == k) = false := by
    by_cases chan : ch = c
    · by_cases order : n = k
      · exact absurd (by rw [chan, order]) other
      · simp [order]
    · simp [chan]
  simp only [qualOf, qualPut, modRad_rad, List.find?_append, find_filter_key other]
  simp [differs]

/-- A window of a channel that is looked at. -/
theorem detectorWindow_looks {ch : Fin 64} {o : Fin 7} (looks : detects m ch o) (peak : Option ChirpPeak) : detectorWindow m ch o peak =
    match peak with
    | none => qualDrop m ch.val (8 + o.val)
    | some p =>
      if p.above < cfgN m 0x4000 0x0A then qualDrop m ch.val (8 + o.val)
      else match qualOf m ch.val (8 + o.val) with
        | none => qualPut m ch.val (8 + o.val) 1 p.shift
        | some q =>
          if !onTrack (8 + o.val) q.track p.shift then qualPut m ch.val (8 + o.val) 1 p.shift
          else if q.count < 4 then qualPut m ch.val (8 + o.val) (q.count + 1) p.shift
          else detect (qualDrop m ch.val (8 + o.val)) ch.val (8 + o.val) p.shift p.level := by
  obtain ⟨hunted_, gate, order⟩ := looks
  have opened : m.rad.gates.contains ch.val = true := List.contains_iff_mem.mpr gate
  unfold detectorWindow
  simp only [hunted_, opened, order, Bool.not_true, Bool.or_self, Bool.false_eq_true, if_false]
  rfl

theorem detectorWindow_weak {ch : Fin 64} {o : Fin 7} {p : Option ChirpPeak} (looks : detects m ch o)
    (weak : ∀ x, p = some x → x.above < cfgN m 0x4000 0x0A) : detectorWindow m ch o p = qualDrop m ch.val (8 + o.val) := by
  rw [detectorWindow_looks looks]
  cases p with
  | none => rfl
  | some x => exact if_pos (weak x rfl)

/-- The fifth window on track is a detection (R399). -/
theorem detectorWindow_fifth {ch : Fin 64} {o : Fin 7} {p : ChirpPeak} {q : Qualifier} (looks : detects m ch o)
    (strong : cfgN m 0x4000 0x0A ≤ p.above) (found : qualOf m ch.val (8 + o.val) = some q) (four : q.count = 4)
    (track : onTrack (8 + o.val) q.track p.shift = true) :
    detectorWindow m ch o (some p) = detect (qualDrop m ch.val (8 + o.val)) ch.val (8 + o.val) p.shift p.level := by
  rw [detectorWindow_looks looks]
  simp [not_lt.mpr strong, found, four, track]

/-! ## Detections (R401, R408) -/

/-- The lowest demodulator that is idle. -/
theorem lowestFree_some {d : Fin 8} (idle : (m.rad.demods[d]).st = 0) (lower : ∀ i : Fin 8, i.val < d.val → (m.rad.demods[i]).st ≠ 0) :
    (allFin 8).find? (fun d => (m.rad.demods[d]).st == 0) = some d := by
  rw [allFin, List.find?_eq_some_iff_getElem]
  refine ⟨by simpa using idle, d.val, by simp, by simp, fun j below => ?_⟩
  simpa using lower ⟨j, by omega⟩ below

theorem lowestFree_none (busy : ∀ i : Fin 8, (m.rad.demods[i]).st ≠ 0) : (allFin 8).find? (fun d => (m.rad.demods[d]).st == 0) = none :=
  List.find?_eq_none.mpr fun d _ => by simpa using busy d

/-- Where no demodulator is on an order of a channel, a detection takes the lowest free one, or is counted. -/
theorem detect_fresh {ch n : Nat} (free : noDemodOn m ch n) (shift : Nat) (level : Int) : detect m ch n shift level =
    match (allFin 8).find? fun d => (m.rad.demods[d]).st == 0 with
    | some f => demodTake m f ch n shift level
    | none => count m 0x70E0 0x07 := by
  have held : ((allFin 8).any fun d => let y := m.rad.demods[d]; y.st == 1 && y.channel == ch && y.order == n && onTrack n y.track shift) = false := by
    refine List.any_eq_false.mpr fun d _ => ?_
    rcases free d with idle | chan | order <;> simp_all
  have weaker : (allFin 8).find? (fun d =>
      let y := m.rad.demods[d]
      (y.st == 2 || y.st == 3) && y.channel == ch && y.order == n && decide (y.level + 10 * cfgN m 0x4000 0x06 ≤ level)) = none := by
    refine List.find?_eq_none.mpr fun d _ => ?_
    rcases free d with idle | chan | order <;> simp_all
  unfold detect
  simp only [held, weaker, Bool.false_eq_true, if_false] <;> rfl

theorem chirpOnly_demodTake (m : Main) (d : Fin 8) (ch n track : Nat) (level : Int) : chirpOnly m (demodTake m d ch n track level) := by
  unfold demodTake
  refine chirpOnly_trans ?_ (chirpOnly_modDemod ..)
  refine chirpOnly_trans ?_ (chirpOnly_count ..)
  split <;> rfl

/-- What the demodulator that takes a detection holds. -/
structure demodTaken (a b : Main) (d : Fin 8) (ch n track : Nat) (level : Int) : Prop where
  st      : (b.rad.demods[d]).st = 1
  channel : (b.rad.demods[d]).channel = ch
  order   : (b.rad.demods[d]).order = n
  track   : (b.rad.demods[d]).track = track
  level   : (b.rad.demods[d]).level = level
  others  : ∀ i : Fin 8, i ≠ d → b.rad.demods[i] = a.rad.demods[i]
  quals   : b.rad.quals = a.rad.quals
  counted : counter b 0x70E0 0x01 = sat32 (counter a 0x70E0 0x01 + 1)
  only    : chirpOnly a b

theorem demodTake_taken (m : Main) (d : Fin 8) (ch n track : Nat) (level : Int) :
    demodTaken m (demodTake m d ch n track level) d ch n track level := by
  have drawn : (if (chanOf m ch).mgain = 0 then draw m else (0, m)).2.rad = m.rad := by split <;> rfl
  have counters : counter (if (chanOf m ch).mgain = 0 then draw m else (0, m)).2 0x70E0 0x01 = counter m 0x70E0 0x01 := by split <;> rfl
  refine ⟨?_, ?_, ?_, ?_, ?_, fun i other => ?_, ?_, ?_, chirpOnly_demodTake ..⟩
  case refine_6 => simp only [demodTake, modDemod, updV_get, if_neg other, count_rad, drawn]
  case refine_7 => simp only [demodTake, modDemod, count_rad, drawn]
  case refine_8 => exact (counter_count_same ..).trans (by rw [counters])
  all_goals simp only [demodTake, modDemod, updV_get, if_true]

/-! ## The demodulator's steps (R402, R404) -/

theorem modDemod_own (m : Main) (d : Fin 8) (f : Demod → Demod) : (modDemod m d f).rad.demods[d] = f m.rad.demods[d] := by
  rw [modDemod, updV_get, if_pos rfl]

theorem modDemod_other (m : Main) {d i : Fin 8} (f : Demod → Demod) (other : i ≠ d) : (modDemod m d f).rad.demods[i] = m.rad.demods[i] := by
  rw [modDemod, updV_get, if_neg other]

/-- The space test of a frame marks its demodulator alone, and only what it has written or dropped (R18). -/
structure spaceTested (a b : Main) (d : Fin 8) : Prop where
  own    : ∃ space dropped, b.rad.demods[d] = { a.rad.demods[d] with space := space, dropped := dropped }
  others : ∀ i : Fin 8, i ≠ d → b.rad.demods[i] = a.rad.demods[i]
  only   : chirpOnly a b

theorem spaceTested_marked {b : Main} {d : Fin 8} {f : Demod → Demod} (told : poolOnly m b)
    (marks : ∀ y, ∃ space dropped, f y = { y with space := space, dropped := dropped }) : spaceTested m (modDemod b d f) d := by
  refine ⟨?_, fun i other => ?_, chirpOnly_trans (chirpOnly_of_pool told) (chirpOnly_modDemod ..)⟩
  · rw [modDemod_own, poolOnly_rad_eq told]
    exact marks _
  · rw [modDemod_other _ _ other, poolOnly_rad_eq told]

theorem frameSpace_tested (m : Main) (d : Fin 8) (length : Nat) (macHead : List Byte) : spaceTested m (frameSpace m d length macHead) d := by
  have untouched : spaceTested m m d := ⟨⟨_, _, rfl⟩, fun i _ => rfl, chirpOnly_refl m⟩
  unfold frameSpace
  dsimp only
  split
  · exact untouched
  · split
    · exact untouched
    · split
      · exact spaceTested_marked (poolOnly_openPkt ..) fun y => ⟨_, _, rfl⟩
      · exact spaceTested_marked (poolOnly_dropPkt ..) fun y => ⟨_, _, rfl⟩

/-- The test of a header, as the model computes it. -/
def headerBad (m : Main) (d : Fin 8) (symbols : List Nat) : Bool :=
  ((heardWords (m.rad.demods[d]).order symbols).take 2).any (fun w => (golayDecode w).isNone) || headerOf m d symbols % 256 = 0 ||
    CrcKind.crc8.of (leBytes 2 (headerOf m d symbols)) != headerOf m d symbols / 65536

theorem headerBad_iff (m : Main) (d : Fin 8) (symbols : List Nat) : headerBad m d symbols = true ↔ ¬ headerGood m d symbols := by
  have decoded : ((heardWords (m.rad.demods[d]).order symbols).take 2).any (fun w => (golayDecode w).isNone) = true ↔
      ¬ ∀ w ∈ (heardWords (m.rad.demods[d]).order symbols).take 2, (golayDecode w).isSome = true := by
    rw [List.any_eq_true]
    constructor
    · rintro ⟨w, mem, fails⟩ all
      have some_ := all w mem
      rw [Option.isNone_iff_eq_none.mp fails] at some_
      exact nomatch some_
    · intro some_
      by_contra none
      refine some_ fun w mem => ?_
      by_contra fails
      exact none ⟨w, mem, by simpa using fails⟩
  unfold headerBad headerGood
  rw [Bool.or_eq_true, Bool.or_eq_true, decoded, decide_eq_true_eq, bne_iff_ne]
  tauto

theorem demodHeader_tests {d : Fin 8} {symbols : List Nat} (st : (m.rad.demods[d]).st = 2) (whole : symbols.length = 24) :
    demodHeader m d symbols = if headerBad m d symbols then demodFree (count m 0x70E0 0x04) d
      else frameSpace (modDemod m d fun y => { y with
        st := 3, length := headerOf m d symbols % 256, precomp := bitAt (headerOf m d symbols) 14,
        bits := heardBits (heardWords (m.rad.demods[d]).order symbols) }) d (headerOf m d symbols % 256)
        (leBytes 6 (bitsNat ((firstBits m d symbols).drop 24 |>.take 48))) := by
  unfold demodHeader
  dsimp only
  rw [if_neg (by simp [-Fin.getElem_fin, st, whole])]
  rfl

/-! ## The front end (R400) -/

/-- A branch has taken a step in the last 100 µs. -/
def feRecent (m : Main) (at_ : Option Nat) : Bool :=
  match at_ with
  | some t => decide (m.now < t + 40000)
  | none => false

theorem feRested_recent {at_ : Option Nat} (rested : feRested m at_) : feRecent m at_ = false := by
  cases at_ with
  | none => rfl
  | some t => exact decide_eq_false (not_lt.mpr (rested t rfl))

theorem not_feRested_recent {at_ : Option Nat} (busy : ¬ feRested m at_) : feRecent m at_ = true := by
  cases at_ with
  | none => exact absurd (fun t same => nomatch same) busy
  | some t =>
    refine decide_eq_true (Nat.lt_of_not_le fun past => busy fun u same => ?_)
    rw [← Option.some.inj same]
    exact past

/-- A branch takes the gain `g`. -/
def feTaken (m : Main) (branchB : Bool) (g : Nat) : Main :=
  count (modRad m fun r => if branchB then { r with feB := g, feAtB := some m.now } else { r with feA := g, feAtA := some m.now }) 0x70E0 0x0D

/-- What a wideband peak makes of the front end. -/
def feStepped (m : Main) (branchB : Bool) (peak : Int) : Main :=
  match (if feRecent m (if branchB then m.rad.feAtB else m.rad.feAtA) then none else feStep (if branchB then m.rad.feB else m.rad.feA) peak) with
  | none   => m
  | some g => feTaken m branchB g

theorem exec_feGainStep (branchB : Bool) (peak : Int) (clipped : Bool) (s : State) : exec (.feGainStep branchB peak clipped) s =
    onMain (fun m => if !radioListens m then m else
      feStepped (countIf (clipped && m.rad.demods.toList.any fun y => y.st != 0) m 0x70E0 0x0C) branchB peak) s := rfl

theorem exec_feGainStep_clear {s : State} (branchB : Bool) (peak : Int) (listens : radioListens s.m = true) :
    exec (.feGainStep branchB peak false) s = .next { s with m := feStepped s.m branchB peak } := by
  rw [exec_feGainStep, onMain, listens]
  rfl

theorem feStepped_some {branchB : Bool} {peak : Int} {g : Nat} (rested : feRested m (if branchB then m.rad.feAtB else m.rad.feAtA))
    (step : feStep (if branchB then m.rad.feB else m.rad.feA) peak = some g) : feStepped m branchB peak = feTaken m branchB g := by
  rw [feStepped, feRested_recent rested, step]
  rfl

theorem feStep_loud {gain : Nat} {peak : Int} (loud : -60 < peak) (left : 0 < gain) : feStep gain peak = some (gain - 1) := by
  simp [feStep, loud, Nat.ne_of_gt left]

theorem feStep_quiet {gain : Nat} {peak : Int} (quiet : peak < -180) (left : gain < 30) : feStep gain peak = some (gain + 1) := by
  simp [feStep, quiet, left, show ¬ -60 < peak by omega]

theorem feStep_none {gain : Nat} {peak : Int} (low : -180 ≤ peak) (high : peak ≤ -60) : feStep gain peak = none := by
  simp [feStep, not_lt.mpr low, not_lt.mpr high]

theorem feStepped_none {branchB : Bool} {peak : Int} (low : -180 ≤ peak) (high : peak ≤ -60) : feStepped m branchB peak = m := by
  rw [feStepped, feStep_none low high, ite_self]

theorem feStepped_busy {branchB : Bool} {peak : Int} (busy : ¬ feRested m (if branchB then m.rad.feAtB else m.rad.feAtA)) :
    feStepped m branchB peak = m := by
  rw [feStepped, not_feRested_recent busy, if_pos rfl]

/-! ## The statement -/

/-- Settles O45: each step by the state of the gate, the qualifier or the demodulator it finds. -/
theorem radioReceiver : Obligations.RadioReceiver := by
  unfold Obligations.RadioReceiver
  refine ⟨?opens, ?closes, ?stays, ?weak, ?qualifies, ?takes, ?none, ?lost, ?notSought, ?sync, ?noSync, ?header, ?badHeader, ?noHeader, ?downA, ?upA,
    ?downB, ?upB, ?noStep, ?clipped, ?retunes, ?noRetune⟩
  case opens =>
    exact fun s ch power hunted_ closed strong => exec_of_onMain (f := fun m => gateUpdate m ch power) rfl (gateUpdate_opens hunted_ closed strong)
  case closes =>
    intro s ch power hunted_ opened weak
    refine answers_of_onMain (f := fun m => gateUpdate m ch power) rfl ?_
    rw [gateUpdate_closes hunted_ opened weak]
    refine ⟨by simp, fun c other => by simp [other], fun q mem => ?_, mainOnly_m _ _, rfl⟩
    simpa using (List.mem_filter.mp mem).2
  case stays => exact fun s ch power opened strong => exec_of_onMain (f := fun m => gateUpdate m ch power) rfl (gateUpdate_stays opened strong)
  case weak =>
    intro s ch o p looks weak
    refine answers_of_onMain (f := fun m => detectorWindow m ch o p) rfl ?_
    rw [detectorWindow_weak looks weak]
    exact ⟨qualOf_qualDrop_same .., fun c n other => qualOf_qualDrop_other _ other, mainOnly_m _ _, rfl⟩
  case qualifies =>
    intro s ch o p looks strong track
    refine answers_of_onMain (f := fun m => detectorWindow m ch o (some p)) rfl ?_
    have put (v : Nat) (first : qualOf s.m ch.val (8 + o.val) = none → v = 1)
        (later : ∀ q, qualOf s.m ch.val (8 + o.val) = some q → v = if onTrack (8 + o.val) q.track p.shift then q.count + 1 else 1)
        (window : detectorWindow s.m ch o (some p) = qualPut s.m ch.val (8 + o.val) v p.shift) :
        (∃ c, qualOf (detectorWindow s.m ch o (some p)) ch.val (8 + o.val) = some ⟨ch.val, 8 + o.val, c, p.shift⟩ ∧
          (qualOf s.m ch.val (8 + o.val) = none → c = 1) ∧
          ∀ q, qualOf s.m ch.val (8 + o.val) = some q → c = if onTrack (8 + o.val) q.track p.shift then q.count + 1 else 1) ∧
        (∀ c n, (c, n) ≠ (ch.val, 8 + o.val) → qualOf (detectorWindow s.m ch o (some p)) c n = qualOf s.m c n) ∧
        mainOnly s { s with m := detectorWindow s.m ch o (some p) } ∧ chirpOnly s.m (detectorWindow s.m ch o (some p)) := by
      rw [window]
      exact ⟨⟨v, qualOf_qualPut_same .., first, later⟩, fun c n other => qualOf_qualPut_other _ _ _ other, mainOnly_m _ _, rfl⟩
    have looked := detectorWindow_looks looks (some p)
    simp only [not_lt.mpr strong, if_false] at looked
    cases found : qualOf s.m ch.val (8 + o.val) with
    | none =>
      rw [found] at looked
      exact found ▸ put 1 (fun _ => rfl) (fun q same => by rw [found] at same; exact nomatch same) looked
    | some q =>
      rw [found] at looked
      rcases track q found with off | few
      · refine found ▸ put 1 (fun _ => rfl) (fun q' same => ?_) ?_
        · rw [← Option.some.inj (found.symm.trans same), off]
          rfl
        · rw [looked]
          simp [off]
      · by_cases on : onTrack (8 + o.val) q.track p.shift = true
        · refine found ▸ put (q.count + 1) (fun none => ?_) (fun q' same => ?_) ?_
          · rw [found] at none
            exact nomatch none
          · rw [← Option.some.inj (found.symm.trans same), if_pos on]
          · rw [looked]
            simp [on, few]
        · refine found ▸ put 1 (fun _ => rfl) (fun q' same => ?_) ?_
          · rw [← Option.some.inj (found.symm.trans same), if_neg on]
          · rw [looked]
            simp [on]
  case takes =>
    intro s ch o p q d looks strong found four track free idle lower
    refine answers_of_onMain (f := fun m => detectorWindow m ch o (some p)) rfl ?_
    have taken := demodTake_taken (qualDrop s.m ch.val (8 + o.val)) d ch.val (8 + o.val) p.shift p.level
    rw [detectorWindow_fifth looks strong found four track, detect_fresh (m := qualDrop s.m ch.val (8 + o.val)) free,
      lowestFree_some (m := qualDrop s.m ch.val (8 + o.val)) idle lower]
    refine ⟨taken.st, taken.channel, taken.order, taken.track, taken.level, taken.others, ?_, taken.counted, mainOnly_m _ _,
      chirpOnly_trans (chirpOnly_modRad ..) taken.only⟩
    rw [qualOf, taken.quals]
    exact qualOf_qualDrop_same ..
  case none =>
    intro s ch o p q looks strong found four track free busy
    refine answers_of_onMain (f := fun m => detectorWindow m ch o (some p)) rfl ?_
    rw [detectorWindow_fifth looks strong found four track, detect_fresh (m := qualDrop s.m ch.val (8 + o.val)) free,
      lowestFree_none (m := qualDrop s.m ch.val (8 + o.val)) busy]
    refine ⟨by rw [count_rad]; rfl, ?_, counter_count_same .., mainOnly_m _ _, chirpOnly_trans (chirpOnly_modRad ..) (chirpOnly_count ..)⟩
    rw [qualOf, count_rad]
    exact qualOf_qualDrop_same ..
  case lost =>
    intro s d bad st space
    refine exec_of_onMain (f := fun m => if (m.rad.demods[d]).st = 1 then demodFree (count m 0x70E0 (if bad then 0x03 else 0x02)) d else m) rfl ?_
    rw [if_pos st, demodFree_unwritten (by rw [count_rad]; exact space)]
  case notSought =>
    exact fun s d bad st => exec_of_onMain (f := fun m => if (m.rad.demods[d]).st = 1 then demodFree (count m 0x70E0 (if bad then 0x03 else 0x02)) d else m)
      rfl (if_neg st)
  case sync =>
    intro s d x v st offset
    refine answers_of_onMain (f := fun m => demodSync m d x) rfl ?_
    unfold demodSync
    dsimp only
    rw [if_neg (by simpa using st), offset]
    refine ⟨?_, ?_, ?_, fun i other => modDemod_other _ _ other, mainOnly_m _ _, rfl⟩ <;> rw [modDemod_own]
  case noSync =>
    intro s d x st space offset
    refine exec_of_onMain (f := fun m => demodSync m d x) rfl ?_
    unfold demodSync
    dsimp only
    rw [if_neg (by simpa using st), offset]
    exact demodFree_unwritten (by rw [count_rad]; exact space)
  case header =>
    intro s d symbols st whole good
    refine answers_of_onMain (f := fun m => demodHeader m d symbols) rfl ?_
    rw [demodHeader_tests st whole, if_neg (fun bad => (headerBad_iff ..).mp bad good)]
    obtain ⟨⟨space, dropped, own⟩, others, only⟩ := frameSpace_tested (modDemod s.m d fun y => { y with
        st := 3, length := headerOf s.m d symbols % 256, precomp := bitAt (headerOf s.m d symbols) 14,
        bits := heardBits (heardWords (s.m.rad.demods[d]).order symbols) }) d (headerOf s.m d symbols % 256)
        (leBytes 6 (bitsNat ((firstBits s.m d symbols).drop 24 |>.take 48)))
    rw [modDemod_own] at own
    simp only [own]
    exact ⟨trivial, trivial, trivial, trivial, fun i other => (others i other).trans (modDemod_other _ _ other), mainOnly_m _ _,
      chirpOnly_trans (chirpOnly_modDemod ..) only⟩
  case badHeader =>
    intro s d symbols st space whole bad
    refine exec_of_onMain (f := fun m => demodHeader m d symbols) rfl ?_
    rw [demodHeader_tests st whole, if_pos ((headerBad_iff ..).mpr bad)]
    exact demodFree_unwritten (by rw [count_rad]; exact space)
  case noHeader =>
    intro s d symbols h
    refine exec_of_onMain (f := fun m => demodHeader m d symbols) rfl ?_
    unfold demodHeader
    dsimp only
    rw [if_pos (by rcases h with h | h <;> simp [-Fin.getElem_fin, h])]
  case downA =>
    intro s peak listens rested loud left
    rw [exec_feGainStep_clear _ _ listens, feStepped_some (branchB := false) rested (feStep_loud loud left)]
    rfl
  case upA =>
    intro s peak listens rested quiet left
    rw [exec_feGainStep_clear _ _ listens, feStepped_some (branchB := false) rested (feStep_quiet quiet left)]
    rfl
  case downB =>
    intro s peak listens rested loud left
    rw [exec_feGainStep_clear _ _ listens, feStepped_some (branchB := true) rested (feStep_loud loud left)]
    rfl
  case upB =>
    intro s peak listens rested quiet left
    rw [exec_feGainStep_clear _ _ listens, feStepped_some (branchB := true) rested (feStep_quiet quiet left)]
    rfl
  case noStep =>
    intro s b peak h
    have still : feStepped s.m b peak = s.m := by
      rcases h with ⟨low, high⟩ | busy
      · exact feStepped_none low high
      · exact feStepped_busy busy
    rw [exec_feGainStep, onMain, Bool.false_and]
    exact congrArg (fun x => Host.Outcome.next { s with m := x }) ((congrArg (ite ((!radioListens s.m) = true) s.m) still).trans (ite_self s.m))
  case clipped =>
    intro s b d peak listens receives low high
    have any : (s.m.rad.demods.toList.any fun y => y.st != 0) = true :=
      List.any_eq_true.mpr ⟨s.m.rad.demods[d], by simp, by simpa using receives⟩
    rw [exec_feGainStep, onMain, listens, any, Bool.and_self, countIf, if_pos rfl, feStepped_none low high]
    rfl
  case retunes =>
    intro s hz on low high
    refine answers_of_onMain (f := fun m => if radioOn m && decide (780000000 ≤ hz) && decide (hz ≤ 1020000000) then
      modRad (dropReceptions m true) fun r => { r with fLO := hz, gates := [] } else m) rfl ?_
    rw [if_pos (by simp [on, low, high])]
    obtain ⟨demods, rad, pts, -, only⟩ := dropReceptions_off s.m true
    refine ⟨rfl, rfl, ?_, demods, ?_, ?_, pts, mainOnly_m _ _, ?_⟩
    · rw [modRad_rad, rad]
    · rw [modRad_rad, rad]
    · rw [modRad_rad, rad]
    · dsimp only
      exact chirpOnly_trans only (chirpOnly_modRad ..)
  case noRetune =>
    intro s hz h
    refine exec_of_onMain (f := fun m => if radioOn m && decide (780000000 ≤ hz) && decide (hz ≤ 1020000000) then
      modRad (dropReceptions m true) fun r => { r with fLO := hz, gates := [] } else m) rfl (if_neg ?_)
    rcases h with off | low | high
    · simp [off]
    · simp [Nat.not_le.mpr low]
    · simp [Nat.not_le.mpr high]

end Sys2Proof.Machine

end

section
/-!
Proofs of the statement on the regional profile, the channel table, partner keys and partner states (R387, R389, R419, R421, R442, R443), after the
settings writes of the free ledger (R46).
-/

namespace Sys2Proof.Machine

variable {s t : State} {m : Main}

/-! ## Settings writes of the free ledger (R46, R366) -/

/-- A settings write may begin and store what it is given: the ledger is free, no lease stands against it, and the supply is not the field's. -/
structure storesFreely (s : State) : Prop where
  lease  : s.lgr.leaseBy ≠ some .i2c
  free   : s.lgr.held = false
  supply : s.m.pw.onHarvest = false

theorem ekey_parts {idx sub : Nat} (small : sub < 256) : ekey idx sub / 256 = idx ∧ ekey idx sub % 256 = sub := by
  unfold ekey
  omega

/-- The settings write of a persistent entry commits. -/
theorem persist_commits (free : storesFreely s) {idx sub : Nat} (v : Nat) (small : sub < 256) : ∃ t, (persist s (ekey idx sub) v).1 = some t ∧ ledgerOnly s t ∧
    (mapGet (ekey idx sub) t.lgr.cur.persist).getD (entryDefault idx sub) = v := by
  obtain ⟨index, entry⟩ := ekey_parts (idx := idx) small
  have energy : energyCheck s.m settingEnergy = (true, s.m) := by simp [energyCheck, free.supply]
  unfold persist
  dsimp only
  rw [index, entry, if_neg free.lease, free.free, energy]
  by_cases same : (mapGet (ekey idx sub) s.lgr.cur.persist).getD (entryDefault idx sub) = v
  · rw [if_pos same]
    exact ⟨s, rfl, ledgerOnly_refl s, same⟩
  · rw [if_neg same]
    refine ⟨_, rfl, ledgerOnly_writeBank .., ?_⟩
    rw [writeBank, setBank_cur]
    show (mapGet (ekey idx sub) (mapSet (ekey idx sub) v s.lgr.cur.persist)).getD _ = v
    rw [mapGet_mapSet_same, Option.getD_some]

/-- What a setting that is taken leaves. -/
structure entrySet (s t : State) (idx sub v : Nat) : Prop where
  only   : ledgerOnly s { t with m := { t.m with cfg := s.m.cfg } }
  cfg    : t.m.cfg = mapSet (ekey idx sub) v s.m.cfg
  stored : ((entryRow idx sub).map (·.persist)) = some true → (mapGet (ekey idx sub) t.lgr.cur.persist).getD (entryDefault idx sub) = v

theorem setEntry_takes (free : storesFreely s) {idx sub : Nat} (v : Nat) (small : sub < 256) :
    (setEntry s idx sub v).1 = true ∧ entrySet s (setEntry s idx sub v).2 idx sub v := by
  have taken (t : State) (only : ledgerOnly s t)
      (stored : ((entryRow idx sub).map (·.persist)) = some true → (mapGet (ekey idx sub) t.lgr.cur.persist).getD (entryDefault idx sub) = v) :
      entrySet s { t with m := cfgSet t.m idx sub v } idx sub v := by
    obtain ⟨keys, pending, main⟩ := only
    have cfg : t.m.cfg = s.m.cfg := by rw [ledgerMain] at main; rw [main]
    refine ⟨⟨keys, pending, ?_⟩, by rw [← cfg]; rfl, stored⟩
    show ledgerMain s.m { t.m with cfg := s.m.cfg }
    rw [← cfg]
    exact main
  unfold setEntry
  split
  · obtain ⟨t, committed, only, stored⟩ := persist_commits free v small (idx := idx)
    simp only [committed]
    exact ⟨trivial, taken t only fun _ => stored⟩
  · rename_i volatile
    exact ⟨rfl, taken s (ledgerOnly_refl s) fun persists => absurd persists volatile⟩

theorem entrySet_keeps {idx sub v : Nat} (h : entrySet s t idx sub v) : t.keys = s.keys ∧ t.pending = s.pending ∧ t.m.rad = s.m.rad ∧
    t.m.can = s.m.can := by
  obtain ⟨keys, pending, main⟩ := h.only
  rw [ledgerMain] at main
  exact ⟨keys, pending, (congrArg Main.rad main).trans rfl, (congrArg Main.can main).trans rfl⟩

theorem ledgerWaits_free (free : storesFreely s) (key v : Nat) : ledgerWaits s key v = false := by
  simp [ledgerWaits, free.free]

/-! ## Commands on the whole state -/

theorem answers_of_onServiceAll {c : Instr} {f : State → State} {P : State → Prop} (hc : exec c s = onServiceAll f s) (up : s.m.pw.ctlDown = false)
    (h : P (f s)) : answers c s P := ⟨f s, by rw [hc, onServiceAll, up]; rfl, h⟩

theorem exec_onServiceAll_same {c : Instr} {f : State → State} (hc : exec c s = onServiceAll f s) (h : f s = s) : exec c s = .next s := by
  rw [hc, onServiceAll, h, ite_self]

theorem answers_of_onLedger {c : Instr} {idx sub v : Nat} {f : State → State} {P : State → Prop} (hc : exec c s = onLedger idx sub v f s)
    (up : s.m.pw.ctlDown = false) (free : storesFreely s) (h : P (f s)) : answers c s P := by
  refine answers_of_onServiceAll hc up ?_
  rw [ledgerWaits_free free]
  exact h

theorem exec_onLedger_same {c : Instr} {idx sub v : Nat} {f : State → State} (hc : exec c s = onLedger idx sub v f s) (h : f s = s) :
    exec c s = .next s := by
  refine exec_onServiceAll_same hc ?_
  rw [h, ite_self]

/-! ## The regional profile (R389) -/

/-- A profile written in CALIBRATE is stored and fills the tables. -/
theorem profileWrite_answers (mode : s.m.pw.mode = .calibrate) (up : s.m.pw.ctlDown = false) (free : storesFreely s) {v : BitVec 8} (small : v.toNat ≤ 2)
    {P : State → Prop} (h : ∀ t, entrySet s t 0x4000 0x02 v.toNat → P { t with m := fillProfile t.m v.toNat }) : answers (.radioProfileWrite v) s P := by
  obtain ⟨accepted, taken⟩ := setEntry_takes free v.toNat (show 0x02 < 256 by decide) (idx := 0x4000)
  refine answers_of_onLedger (f := fun s => if s.m.pw.mode == .calibrate && decide (v.toNat ≤ 2) then (profileWrite s v.toNat).2 else s) rfl up free ?_
  rw [if_pos (by simp [mode, small]), profileWrite, accepted]
  exact h _ taken

theorem fillProfile_rad {a b : Main} (rad : a.rad = b.rad) (v : Nat) : (fillProfile a v).rad = (fillProfile b v).rad := by
  unfold fillProfile
  split
  · rw [modRad_rad, modRad_rad, rad]
  · split <;> rw [modRad_rad, modRad_rad, rad]

theorem fillProfile_cfg (m : Main) (v : Nat) : (fillProfile m v).cfg = m.cfg := by
  unfold fillProfile
  split
  · rfl
  · split <;> rfl

theorem cfgN_of_entrySet {idx sub v : Nat} (h : entrySet s t idx sub v) (w : Nat) : cfgN (fillProfile t.m w) idx sub = v := by
  rw [cfgN, fillProfile_cfg, h.cfg, mapGet_mapSet_same, Option.getD_some]

/-! ## The channel table (R387, R389) -/

theorem channelWrite_taken {ch : Fin 64} {w0 w1 : Word} (profile : m.rad.profile = 0) (low : m.rad.fLow ≤ w0.toNat) (high : w0.toNat ≤ m.rad.fHigh)
    (one : m.rad.hopMin ≤ 1) (on : bitAt w1.toNat 0 = true) (gain : field w1.toNat 10 6 ≤ 61) : channelWrite m ch w0 w1 =
      (true, modRad m fun r => { r with chans := updV r.chans ch fun _ => (w0, w1 &&& 0x0000FDFF#32) }) := by
  have parts (w : Word) (o l : Nat) : field w.toNat o l = (w.extractLsb' o l).toNat := by
    rw [field, BitVec.extractLsb'_toNat, Nat.shiftRight_eq_div_pow]
  have bit : bitAt (w1 &&& (0x0000FDFF : Word)).toNat 0 = bitAt w1.toNat 0 := by
    have masked : (w1 &&& (0x0000FDFF : Word)).extractLsb' 0 1 = w1.extractLsb' 0 1 := by
      ext i inside
      interval_cases i
      simp
    show decide (field (w1 &&& (0x0000FDFF : Word)).toNat 0 1 = 1) = decide (field w1.toNat 0 1 = 1)
    rw [parts, parts, masked]
  have mgain : field (w1 &&& (0x0000FDFF : Word)).toNat 10 6 = field w1.toNat 10 6 := by
    have masked : (w1 &&& (0x0000FDFF : Word)).extractLsb' 10 6 = w1.extractLsb' 10 6 := by
      ext i inside
      interval_cases i <;> simp
    rw [parts, parts, masked]
  unfold channelWrite
  dsimp only
  rw [if_neg]
  · rfl
  · rw [bit, on, mgain, profile]
    simp only [bne_self_eq_false, Bool.false_and, Bool.false_eq_true, false_or, Bool.or_eq_true, decide_eq_true_eq, bitN, if_true]
    omega

theorem channelWrite_refused {ch : Fin 64} {w0 w1 : Word} (h : (w0.toNat < m.rad.fLow ∨ m.rad.fHigh < w0.toNat) ∨
    (m.rad.profile ≠ 0 ∧ w0 ≠ (m.rad.chans[ch]).1)) : channelWrite m ch w0 w1 = (false, count m 0x70E0 0x0E) := by
  unfold channelWrite
  rw [if_pos]
  rcases h with (low | high) | ⟨profile, other⟩
  · simp [low]
  · simp [high]
  · simp [-Fin.getElem_fin, profile, other]

/-! ## Partners (R421, R443) -/

theorem partnerEmpty_pts (m : Main) (n i : Fin 256) : (partnerEmpty m n).pts[i] =
    if i = n then { m.pts[n] with state := 0, misses := 0, calls := 0, window := false, contact := false, oldLink := none } else m.pts[i] :=
  updV_get ..

/-- Once each of a list of partners has been emptied, those are EMPTY, and none of them has a guard window or a call. -/
theorem partnersEmpty (l : List (Fin 256)) : ∀ m : Main,
    (∀ n, n ∈ l ∨ (m.pts[n]).state = 0 → ((forEach l m partnerEmpty).pts[n]).state = 0) ∧
    (∀ n, n ∈ (forEach l m partnerEmpty).rad.guard → n ∈ m.rad.guard ∧ n ∉ l) ∧
    (∀ n, n ∈ (forEach l m partnerEmpty).rad.callDue → n ∈ m.rad.callDue ∧ n ∉ l) := by
  induction l with
  | nil =>
    intro m
    rw [forEach_nil]
    exact ⟨fun n h => h.resolve_left List.not_mem_nil, fun n mem => ⟨mem, List.not_mem_nil⟩, fun n mem => ⟨mem, List.not_mem_nil⟩⟩
  | cons k rest ih =>
    intro m
    rw [forEach_cons]
    obtain ⟨empty, guard, calls⟩ := ih (partnerEmpty m k)
    refine ⟨fun n h => ?_, fun n mem => ?_, fun n mem => ?_⟩
    · by_cases own : n = k
      · exact empty n (.inr (by rw [partnerEmpty_pts, if_pos own]))
      · refine empty n (h.imp (fun mem => (List.mem_cons.mp mem).resolve_left own) fun idle => ?_)
        rw [partnerEmpty_pts, if_neg own]
        exact idle
    · obtain ⟨kept, out⟩ := guard n mem
      obtain ⟨was, other⟩ := List.mem_filter.mp kept
      exact ⟨was, by simp_all⟩
    · obtain ⟨kept, out⟩ := calls n mem
      obtain ⟨was, other⟩ := List.mem_filter.mp kept
      exact ⟨was, by simp_all⟩

theorem eraseKeys_empties (s : State) : (∀ n : Fin 256, ((eraseKeys s).m.pts[n]).state = 0) ∧ (eraseKeys s).m.rad.guard = [] ∧
    (eraseKeys s).m.rad.callDue = [] := by
  obtain ⟨empty, guard, calls⟩ := partnersEmpty (allFin 256) s.m
  have all (n : Fin 256) : n ∈ allFin 256 := List.mem_finRange n
  exact ⟨fun n => empty n (.inl (all n)), List.eq_nil_iff_forall_not_mem.mpr fun n mem => (guard n mem).2 (all n),
    List.eq_nil_iff_forall_not_mem.mpr fun n mem => (calls n mem).2 (all n)⟩

theorem callBegin_pts (m : Main) (n i : Fin 256) : (callBegin m n).pts[i] = if i = n then { m.pts[n] with state := 3, calls := 0 } else m.pts[i] :=
  updV_get ..

/-! ## The statement -/

/-- Settles O46: each profile with what it fills; an entry by its range; keys and states by their modes. -/
theorem radioProfileAndKeys : Obligations.RadioProfileAndKeys := by
  unfold Obligations.RadioProfileAndKeys
  refine ⟨⟨?eu, ?us, ?free, ?noProfile, ?entry, ?entryRange, ?entryFixed, ?noEntry⟩, ?key, ?noKey, ?erase, ?noErase, ?empty, ?active, ?keyless, ?calls,
    ?noState⟩
  case eu =>
    intro s mode supply lease up held
    refine profileWrite_answers mode up ⟨lease, held, supply⟩ (by decide) fun t taken => ?_
    obtain ⟨keys, pending, -, -⟩ := entrySet_keeps taken
    refine ⟨rfl, rfl, rfl, rfl, rfl, fun c below => ?_, fun c above => ?_, cfgN_of_entrySet taken _, keys, pending⟩
    · simp [fillProfile, below]
    · simp [chanOf, fillProfile, finOf, Nat.not_lt.mpr above, bitAt]
  case us =>
    intro s mode supply lease up held
    refine profileWrite_answers mode up ⟨lease, held, supply⟩ (by decide) fun t taken => ?_
    obtain ⟨keys, pending, -, -⟩ := entrySet_keeps taken
    refine ⟨rfl, rfl, rfl, rfl, rfl, fun c => ?_, cfgN_of_entrySet taken _, keys, pending⟩
    simp [fillProfile]
  case free =>
    intro s mode supply lease up held
    refine profileWrite_answers mode up ⟨lease, held, supply⟩ (by decide) fun t taken => ?_
    obtain ⟨keys, pending, rad, -⟩ := entrySet_keeps taken
    exact ⟨rfl, rfl, rfl, rfl, rfl, (congrArg Radio.chans (fillProfile_rad rad 0)).trans rfl, keys, pending⟩
  case noProfile =>
    intro s v h
    refine exec_onLedger_same (f := fun s => if s.m.pw.mode == .calibrate && decide (v.toNat ≤ 2) then (profileWrite s v.toNat).2 else s) rfl (if_neg ?_)
    rcases h with mode | above
    · simp [mode]
    · simp [Nat.not_le.mpr above]
  case entry =>
    intro s ch w0 w1 mode up profile low high one on gain
    refine exec_of_onService (f := fun m => if m.pw.mode.isMain then (channelWrite m ch w0 w1).2 else m) rfl up ?_
    rw [if_pos mode, channelWrite_taken profile low high one on gain]
  case entryRange =>
    intro s ch w0 w1 mode up range
    refine exec_of_onService (f := fun m => if m.pw.mode.isMain then (channelWrite m ch w0 w1).2 else m) rfl up ?_
    rw [if_pos mode, channelWrite_refused (.inl range)]
  case entryFixed =>
    intro s ch w0 w1 mode up profile other
    refine exec_of_onService (f := fun m => if m.pw.mode.isMain then (channelWrite m ch w0 w1).2 else m) rfl up ?_
    rw [if_pos mode, channelWrite_refused (.inr ⟨profile, other⟩)]
  case noEntry =>
    exact fun s ch w0 w1 mode => exec_onService_same (f := fun m => if m.pw.mode.isMain then (channelWrite m ch w0 w1).2 else m) rfl
      (if_neg (by simp [mode]))
  case key =>
    intro s n key mode up
    refine answers_of_onServiceAll (f := fun s => if s.m.pw.mode.isMain then keyWrite s n key else s) rfl up ?_
    rw [if_pos mode]
    refine ⟨by simp [keyWrite], fun i other => ?_, rfl, ?_, ?_, fun i other => ?_, rfl, rfl, rfl⟩
    · exact Vector.getElem_set_ne n.isLt i.isLt fun same => other (Fin.ext same.symm)
    · rw [keyWrite, modPt_get, if_pos rfl]
    · rw [keyWrite, modPt_get, if_pos rfl]
    · rw [keyWrite, modPt_get, if_neg other]
  case noKey =>
    exact fun s n key mode => exec_onServiceAll_same (f := fun s => if s.m.pw.mode.isMain then keyWrite s n key else s) rfl (if_neg (by simp [mode]))
  case erase =>
    intro s mode up
    refine answers_of_onServiceAll (f := fun s => if s.m.pw.mode == .calibrate && (0xE5#8 = 0xE5) then eraseKeys s else s) rfl up ?_
    rw [if_pos (by simp [mode])]
    obtain ⟨empty, guard, calls⟩ := eraseKeys_empties s
    refine ⟨fun n => ⟨?_, empty n⟩, rfl, guard, calls, rfl, rfl, chirpOnly_forEach _ _ _ fun x n => rfl⟩
    simp [eraseKeys]
  case noErase =>
    intro s v h
    refine exec_onServiceAll_same (f := fun s => if s.m.pw.mode == .calibrate && (v = 0xE5) then eraseKeys s else s) rfl (if_neg ?_)
    rcases h with mode | other
    · simp [mode]
    · simpa using fun _ => other
  case empty =>
    intro s n mode up
    refine answers_of_onServiceAll (f := fun s => if s.m.pw.mode.isMain then (partnerWrite s n 0).2 else s) rfl up ?_
    rw [if_pos mode]
    refine ⟨?_, ?_, ?_, fun i other => ?_, ⟨rfl, rfl, rfl⟩, rfl⟩
    · exact (congrArg Partner.state (partnerEmpty_pts s.m n n)).trans (by rw [if_pos rfl])
    · simp [partnerWrite, partnerEmpty]
    · simp [partnerWrite, partnerEmpty]
    · exact (partnerEmpty_pts s.m n i).trans (if_neg other)
  case active =>
    intro s n key mode up stored
    refine answers_of_onServiceAll (f := fun s => if s.m.pw.mode.isMain then (partnerWrite s n 1).2 else s) rfl up ?_
    have accepted : partnerWrite s n 1 = (true, { s with m := modRad (modPt s.m n fun p => { p with state := 1, misses := 0, calls := 0 }) fun r =>
        { r with callDue := r.callDue.filter (· != n) } }) := by
      simp [-Fin.getElem_fin, partnerWrite, stored]
    rw [if_pos mode, accepted]
    simp only [modRad_pts, modPt_get, if_true]
    exact ⟨trivial, trivial, by simp, fun i other => if_neg other, ⟨rfl, rfl, rfl⟩, rfl⟩
  case keyless =>
    intro s n none
    refine exec_onServiceAll_same (f := fun s => if s.m.pw.mode.isMain then (partnerWrite s n 1).2 else s) rfl ?_
    simp [-Fin.getElem_fin, partnerWrite, none]
  case calls =>
    intro s n mode up state hub
    refine answers_of_onServiceAll (f := fun s => if s.m.pw.mode.isMain then (partnerWrite s n 3).2 else s) rfl up ?_
    have accepted : partnerWrite s n 3 = (true, { s with m := callBegin s.m n }) := by
      simp [-Fin.getElem_fin, partnerWrite, state, hub]
    rw [if_pos mode, accepted]
    simp only [callBegin_pts, if_true]
    exact ⟨trivial, trivial, by simp [callBegin], fun i other => if_neg other, ⟨rfl, rfl, rfl⟩, rfl⟩
  case noState =>
    intro s n v h
    refine exec_onServiceAll_same (f := fun s => if s.m.pw.mode.isMain then (partnerWrite s n v.toNat).2 else s) rfl ?_
    rcases h with mode | rfl | above
    · rw [if_neg (by simp [mode])]
    · simp [partnerWrite]
    · simp [partnerWrite, show v.toNat ≠ 0 by omega, show v.toNat ≠ 1 by omega, show v.toNat ≠ 3 by omega]

end Sys2Proof.Machine

end

section
/-!
Proofs of the statement on channel access and transmission (R411, R419, R422–R424, R433, R438–R440): the measurement before a transmission, the
transmission itself, its end and its acknowledgement, and held frames that expire.
-/

namespace Sys2Proof.Machine

variable {s : State} {m : Main}

/-! ## Access to the channel (R422) -/

/-- A measurement may be made: the radio is on and neither sends, nor has won access, nor backs off, nor waits. -/
structure mayMeasure (m : Main) : Prop where
  on      : radioOn m = true
  idle    : m.rad.tx.active = false
  access  : m.rad.tx.access = none
  backoff : m.rad.tx.backoff = none
  wait    : m.rad.ackWait = none

theorem powers_clear {powers : List Int} {t : Int} (clear : ∀ p ∈ powers, p < t) : (powers.any fun p => decide (t ≤ p)) = false :=
  List.any_eq_false.mpr fun p mem => by simpa using clear p mem

theorem powers_busy {powers : List Int} {t : Int} (busy : ∃ p ∈ powers, t ≤ p) : (powers.any fun p => decide (t ≤ p)) = true := by
  obtain ⟨p, mem, loud⟩ := busy
  exact List.any_eq_true.mpr ⟨p, mem, decide_eq_true loud⟩

theorem lbtEnd_clear {k : TxKind} {powers : List Int} (may : mayMeasure m) (clear : ∀ p ∈ powers, p < cfgI m 16 0x4100 0x04)
    (next : nextTx m = some k) : lbtEnd m powers = modRad m fun r => { r with tx := { r.tx with access := some k } } := by
  obtain ⟨on, idle, access, backoff, wait⟩ := may
  simp [lbtEnd, powers_clear clear, on, idle, access, backoff, wait, next]

theorem lbtEnd_none (powers : List Int) (next : nextTx m = none) : lbtEnd m powers = m := by
  simp [lbtEnd, next]

/-- A busy channel of a held frame: it backs off once more. -/
theorem lbtEnd_backs {i : Nat} {h : Held} {powers : List Int} (may : mayMeasure m) (busy : ∃ p ∈ powers, cfgI m 16 0x4100 0x04 ≤ p)
    (next : nextTx m = some (.held i)) (held : m.rad.hold[i]? = some h) (left : h.busy + 1 < cfgN m 0x4100 0x06) :
    ∃ b x, b < 2 ^ h.kAtt ∧ x.rad = m.rad ∧ chirpOnly m x ∧ counter x 0x70F0 0x01 = sat32 (counter m 0x70F0 0x01 + 1) ∧
      lbtEnd m powers = modHeld (modRad x fun r => { r with tx := { r.tx with backoff := some b } }) i
        fun y => { y with kAtt := min 7 (h.kAtt + 1), busy := h.busy + 1 } := by
  obtain ⟨on, idle, access, backoff, wait⟩ := may
  refine ⟨(draw (count m 0x70F0 0x01)).1.toNat % 2 ^ h.kAtt, (draw (count m 0x70F0 0x01)).2, Nat.mod_lt _ (Nat.two_pow_pos _), ?_, ?_, ?_, ?_⟩
  · exact count_rad m 0x70F0 0x01
  · exact chirpOnly_trans (chirpOnly_count m 0x70F0 0x01) (chirpOnly_draw _)
  · exact counter_count_same ..
  · have few : ¬ cfgN (count m 0x70F0 0x01) 0x4100 0x06 ≤ h.busy + 1 := by
      rw [cfgN_of_cfg (count_cfg m 0x70F0 0x01)]
      omega
    simp [lbtEnd, powers_busy busy, on, idle, access, backoff, wait, next, held, few]

/-- A channel of a held frame that is busy once too often: the frame is deferred. -/
theorem lbtEnd_defers {i : Nat} {h : Held} {powers : List Int} (may : mayMeasure m) (busy : ∃ p ∈ powers, cfgI m 16 0x4100 0x04 ≤ p)
    (next : nextTx m = some (.held i)) (held : m.rad.hold[i]? = some h) (most : cfgN m 0x4100 0x06 ≤ h.busy + 1) :
    lbtEnd m powers = txFail (count (count m 0x70F0 0x01) 0x70F0 0x02) (.held i) 4 true := by
  obtain ⟨on, idle, access, backoff, wait⟩ := may
  have many : cfgN (count m 0x70F0 0x01) 0x4100 0x06 ≤ h.busy + 1 := by
    rw [cfgN_of_cfg (count_cfg m 0x70F0 0x01)]
    exact most
  simp [lbtEnd, powers_busy busy, on, idle, access, backoff, wait, next, held, many]

/-- A change of the frame that stands at a place of the hold. -/
theorem modify_held {l : List Held} {i : Nat} {h : Held} (held : l[i]? = some h) (f : Held → Held) : l.modify i f = l.set i (f h) := by
  rw [List.modify_eq_set_getElem?, held]
  rfl

/-! ## A transmission (R411, R415, R417, R419) -/

theorem txPlan_type {k : TxKind} {p : TxPlan} (plan : txPlan m k = some p) : p.type ≤ 4 := by
  cases k with
  | held i =>
    obtain ⟨h, -, rfl⟩ := Option.map_eq_some_iff.mp plan
    dsimp only
    split <;> omega
  | ack =>
    obtain ⟨a, -, rfl⟩ := Option.map_eq_some_iff.mp plan
    exact Nat.le_of_ble_eq_true rfl
  | wake n =>
    obtain rfl := Option.some.inj plan
    exact Nat.le_of_ble_eq_true rfl
  | checkin =>
    obtain rfl := Option.some.inj plan
    split <;> exact Nat.le_refl 4

/-- What drawing the next transmit counter leaves (R419). -/
structure counterTaken (s t : State) (n : Fin 256) : Prop where
  partner : t.keys.partner = s.keys.partner
  reserved : (s.m.pts[n]).txCtr < t.keys.reserved[n]
  own     : t.m.pts[n] = { s.m.pts[n] with txCtr := (s.m.pts[n]).txCtr + 1 }
  rad     : t.m.rad = { s.m.rad with kept := t.m.rad.kept }
  lgr     : t.lgr = s.lgr
  pending : t.pending = s.pending
  only    : chirpOnly s.m t.m

theorem partnerEvent_pts (m : Main) (n : Fin 256) (ev : Nat) : (partnerEvent m n ev).pts = m.pts := radioOut_pts ..

/-- The key store with the counters reserved that a transmission uses. -/
def keysReserved (k : KeyStore) (n : Fin 256) (last : Nat) : KeyStore :=
  if k.reserved[n] ≤ last then { k with reserved := k.reserved.set n (last / 256 * 256 + 256) } else k

theorem keysReserved_partner (k : KeyStore) (n : Fin 256) (last : Nat) : (keysReserved k n last).partner = k.partner := by
  unfold keysReserved
  split <;> rfl

theorem lt_keysReserved (k : KeyStore) (n : Fin 256) (last : Nat) : last < (keysReserved k n last).reserved[n] := by
  unfold keysReserved
  split
  · simp only [Fin.getElem_fin, Vector.getElem_set_self]
    omega
  · omega

/-- The partner's counter has been drawn; the last one is told. -/
def counterDrawn (m : Main) (n : Fin 256) (last : Nat) : Main :=
  let m := modPt m n fun p => { p with txCtr := last + 1 }
  if last + 1 = 0xFFFFFFFF then partnerEvent (count m 0x70F0 0x0E) n 5 else m

theorem counterDrawn_pts (m : Main) (n : Fin 256) (last : Nat) :
    (counterDrawn m n last).pts = (modPt m n fun p => { p with txCtr := last + 1 }).pts := by
  unfold counterDrawn
  dsimp only
  split
  · exact (partnerEvent_pts ..).trans (count_pts ..)
  · rfl

theorem counterDrawn_own (m : Main) (n : Fin 256) (last : Nat) : (counterDrawn m n last).pts[n] = { m.pts[n] with txCtr := last + 1 } := by
  simp only [counterDrawn_pts, modPt_get, if_true]

theorem counterDrawn_rad (m : Main) (n : Fin 256) (last : Nat) :
    (counterDrawn m n last).rad = { m.rad with kept := (counterDrawn m n last).rad.kept } := by
  unfold counterDrawn
  dsimp only
  split
  · rw [partnerEvent, radioOut_rad_eq, count_rad, modPt_rad]
  · rw [modPt_rad]

theorem chirpOnly_counterDrawn (m : Main) (n : Fin 256) (last : Nat) : chirpOnly m (counterDrawn m n last) := by
  unfold counterDrawn
  dsimp only
  split
  · exact chirpOnly_trans (chirpOnly_trans (chirpOnly_modPt ..) (chirpOnly_count ..)) (chirpOnly_radioOut ..)
  · exact chirpOnly_modPt ..

theorem nextCounter_one {n : Fin 256} (left : (s.m.pts[n]).txCtr < 0xFFFFFFFF) : nextCounter s n 1 = ((s.m.pts[n]).txCtr, { s with
    keys := keysReserved s.keys n (s.m.pts[n]).txCtr
    m := counterDrawn s.m n (s.m.pts[n]).txCtr }) := by
  have last : min 0xFFFFFFFE ((s.m.pts[n]).txCtr + 1 - 1) = (s.m.pts[n]).txCtr := by omega
  unfold nextCounter
  dsimp only
  rw [last]
  rfl

theorem nextCounter_takes {n : Fin 256} (left : (s.m.pts[n]).txCtr < 0xFFFFFFFF) :
    (nextCounter s n 1).1 = (s.m.pts[n]).txCtr ∧ counterTaken s (nextCounter s n 1).2 n := by
  rw [nextCounter_one left]
  exact ⟨rfl, keysReserved_partner .., lt_keysReserved .., counterDrawn_own .., counterDrawn_rad .., rfl, rfl, chirpOnly_counterDrawn ..⟩

/-- The radio has been cleared for a transmission: nothing is received, and an acknowledgement that goes out is due no more. -/
structure txCleared (a b : Main) (k : TxKind) : Prop where
  demods : ∀ d : Fin 8, (b.rad.demods[d]).st = 0
  txMax  : b.rad.txMax = a.rad.txMax
  ack    : k = .ack → b.rad.ackDue = none
  pts    : b.pts = a.pts
  only   : chirpOnly a b

/-- A charge to a sub-band notes the charge alone. -/
theorem dutyCharge_charges (m : Main) (hz us : Nat) : ∃ charges, dutyCharge m hz us = modRad m fun r => { r with charges := charges } := by
  unfold dutyCharge
  split
  · exact ⟨_, rfl⟩
  · exact ⟨m.rad.charges, rfl⟩

theorem modHeld_rad (m : Main) (i : Nat) (f : Held → Held) : (modHeld m i f).rad = { m.rad with hold := m.rad.hold.modify i f } := rfl

theorem txCleared_of (m : Main) (k : TxKind) (hz us : Nat) (call : Bool) {x : Main} (told : poolOnly m x) (f : Held → Held) : txCleared m
    (match k with
      | .held i => modHeld (countIf call (dutyCharge (dropReceptions x true) hz us) 0x70F0 0x0C) i f
      | .ack => modRad (countIf call (dutyCharge (dropReceptions x true) hz us) 0x70F0 0x0C) fun r => { r with ackDue := none }
      | _ => countIf call (dutyCharge (dropReceptions x true) hz us) 0x70F0 0x0C) k := by
  obtain ⟨demods, rad, pts, -, only⟩ := dropReceptions_off x true
  obtain ⟨charges, charged⟩ := dutyCharge_charges (dropReceptions x true) hz us
  have txMax : (dropReceptions x true).rad.txMax = m.rad.txMax := by rw [rad, poolOnly_rad_eq told]
  have same : (dropReceptions x true).pts = m.pts := pts.trans (poolOnly_pts_eq told)
  have told := chirpOnly_trans (chirpOnly_of_pool told) only
  rw [charged]
  have base : chirpOnly m (countIf call (modRad (dropReceptions x true) fun r => { r with charges := charges }) 0x70F0 0x0C) :=
    chirpOnly_trans (chirpOnly_trans told (chirpOnly_modRad ..)) (chirpOnly_countIf ..)
  have cleared : (countIf call (modRad (dropReceptions x true) fun r => { r with charges := charges }) 0x70F0 0x0C).rad =
      { (dropReceptions x true).rad with charges := charges } := countIf_rad ..
  have cleared_pts : (countIf call (modRad (dropReceptions x true) fun r => { r with charges := charges }) 0x70F0 0x0C).pts = m.pts :=
    (countIf_pts ..).trans same
  generalize countIf call (modRad (dropReceptions x true) fun r => { r with charges := charges }) 0x70F0 0x0C = y at base cleared cleared_pts
  cases k with
  | held i =>
    refine ⟨fun d => ?_, ?_, (fun h => nomatch h), cleared_pts, chirpOnly_trans base (chirpOnly_modHeld ..)⟩
    · dsimp only; rw [modHeld_rad, cleared]; exact demods d
    · dsimp only; rw [modHeld_rad, cleared]; exact txMax
  | ack =>
    refine ⟨fun d => ?_, ?_, fun _ => rfl, cleared_pts, chirpOnly_trans base (chirpOnly_modRad ..)⟩
    · rw [modRad_rad, cleared]; exact demods d
    · rw [modRad_rad, cleared]; exact txMax
  | wake n =>
    refine ⟨fun d => ?_, ?_, (fun h => nomatch h), cleared_pts, base⟩
    · dsimp only; rw [cleared]; exact demods d
    · dsimp only; rw [cleared]; exact txMax
  | checkin =>
    refine ⟨fun d => ?_, ?_, (fun h => nomatch h), cleared_pts, base⟩
    · dsimp only; rw [cleared]; exact demods d
    · dsimp only; rw [cleared]; exact txMax

/-- The frame control of a plan keeps its type and its request for an acknowledgement (R415). -/
theorem frameControl_fields {type : Nat} (small : type ≤ 4) (ackReq more : Bool) :
    (type + place 3 1 (bitN ackReq) + place 4 1 (bitN more)) % 8 = type % 8 ∧
    bitAt (type + place 3 1 (bitN ackReq) + place 4 1 (bitN more)) 3 = ackReq := by
  interval_cases type <;> revert ackReq more <;> decide

/-- What the transmitter sends of a plan: its frame under a counter and a frame control, from the radio `y` that has been cleared for it. -/
def txSent (x y : Main) (k : TxKind) (p : TxPlan) (key : BitVec 128) (c : Chan) (ctr fc : Nat) : Tx :=
  let frame := macFrame key (byte fc :: leBytes 4 (ownAddress x) ++ [byte (macSlot x p.slot)] ++ leBytes 4 ctr) p.body (isSat y)
  let off := (y.pts[p.slot]).cfo
  let power := max (-10) (min (y.pts[p.slot]).txPower (powerLimit y))
  { active := true, kind := k, txen := true, frame := frame, hz := c.freq + roundDiv (c.freq * off.getD 0) 100000000, power := power,
    precomp := off.isSome, ctr := ctr, symbols := radioSymbols p.order (cfgN y 0x4000 0x03) power off.isSome frame, startAt := y.now, frames := 1 }

/-- The frame control that a transmission carries. -/
def txControl (x : Main) (k : TxKind) (p : TxPlan) : Nat :=
  p.type + place 3 1 (bitN p.ackReq) +
    place 4 1 (bitN ((x.rad.hold.filter fun h => h.slot == p.slot).length > (match k with | .held _ => 1 | _ => 0)))

theorem txControl_fields (x : Main) (k : TxKind) {p : TxPlan} (small : p.type ≤ 4) :
    txControl x k p % 8 = p.type % 8 ∧ bitAt (txControl x k p) 3 = p.ackReq := frameControl_fields small ..

/-- The radio cleared for a transmission of `us` µs on a channel. -/
def txClear (x : Main) (k : TxKind) (p : TxPlan) (c : Chan) (ctr us : Nat) : Main :=
  let m := countIf (p.type == 3) (dutyCharge (dropReceptions (cuRadio x true p.slot.val (txControl x k p) ctr p.body) true) c.freq us) 0x70F0 0x0C
  match k with
  | .held i => modHeld m i fun h => { h with copies := h.copies + 1, lastCtr := ctr, again := false, kAtt := 3, busy := 0 }
  | .ack => modRad m fun r => { r with ackDue := none }
  | _ => m

theorem txClear_cleared (x : Main) (k : TxKind) (p : TxPlan) (c : Chan) (ctr us : Nat) : txCleared x (txClear x k p c ctr us) k :=
  txCleared_of x k c.freq us (p.type == 3) (poolOnly_cuRadio ..) _

/-- A transmission that goes is on the air, under the counter it drew. -/
theorem txStart_goes {k : TxKind} {p : TxPlan} {key : BitVec 128} (goes : txGoes s k p key) {n : Nat × State} (drawn : nextCounter s p.slot 1 = n)
    {c : Chan} (chan : chanOf s.m p.ch = c) {y : Main}
    (clear : txClear n.2.m k p c n.1 (airUs c.wide p.order p.pre (18 + p.body.length)) = y) :
    txStart s k p = { n.2 with m := modRad y fun r => { r with tx := txSent n.2.m y k p key c n.1 (txControl n.2.m k p) } } := by
  obtain ⟨on, supply, idle, plan, access, stored, partner, left, dwell, duty⟩ := goes
  have counts : ¬ (s.m.pts[p.slot]).txCtr = 0xFFFFFFFF := by omega
  subst chan
  unfold txStart
  rw [stored]
  dsimp only
  rw [if_neg partner, if_neg counts, dwell]
  simp only [bne_self_eq_false, Bool.and_false, Bool.false_and, Bool.false_eq_true, if_false, Nat.mul_one, duty, Bool.not_true, drawn]
  subst clear
  rfl

theorem txTry_goes {k : TxKind} {p : TxPlan} {key : BitVec 128} (goes : txGoes s k p key) : txTry s k = txStart s k p := by
  have open_ : (k != .ack && (s.m.rad.tx.access != some k || s.m.rad.ackWait.isSome || txBlocked s.m p.ch)) = false := by
    rcases goes.access with ack | ⟨won, wait, free⟩
    · simp [ack]
    · simp [won, wait, free]
  unfold txTry
  simp [goes.on, goes.supply, goes.idle, goes.plan, open_]

/-- A transmission that goes is on the air, and an acknowledgement is due no more. -/
theorem txTry_onAir {k : TxKind} {p : TxPlan} {key : BitVec 128} (goes : txGoes s k p key) :
    txOnAir s (txTry s k) k p key ∧ (k = .ack → (txTry s k).m.rad.ackDue = none) := by
  obtain ⟨counter_, taken⟩ := nextCounter_takes (n := p.slot) goes.counter
  obtain ⟨y, clear⟩ : ∃ y, txClear (nextCounter s p.slot 1).2.m k p (chanOf s.m p.ch) (nextCounter s p.slot 1).1
      (airUs (chanOf s.m p.ch).wide p.order p.pre (18 + p.body.length)) = y := ⟨_, rfl⟩
  have cleared := clear ▸ txClear_cleared ..
  have started := txStart_goes goes rfl rfl clear
  obtain ⟨type, ackReq⟩ := txControl_fields (nextCounter s p.slot 1).2.m k (txPlan_type goes.plan)
  have told := chirpOnly_trans taken.only cleared.only
  have cfg : y.cfg = s.m.cfg := chirpOnly_cfg_eq told
  have own : y.pts[p.slot] = { s.m.pts[p.slot] with txCtr := (s.m.pts[p.slot]).txCtr + 1 } := by
    simp only [cleared.pts]
    exact taken.own
  have taken_cfg : (nextCounter s p.slot 1).2.m.cfg = s.m.cfg := chirpOnly_cfg_eq taken.only
  have address : ownAddress (nextCounter s p.slot 1).2.m = ownAddress s.m := by simp only [ownAddress, cfgN_of_cfg taken_cfg]
  have sat : isSat y = isSat s.m := by simp only [isSat, cfgN_of_cfg cfg]
  have slot : macSlot (nextCounter s p.slot 1).2.m p.slot = macSlot s.m p.slot := by
    simp only [macSlot, isSat, cfgN_of_cfg taken_cfg, taken.own]
    rfl
  have limit : powerLimit y = powerLimit s.m := by
    have txMax : (nextCounter s p.slot 1).2.m.rad.txMax = s.m.rad.txMax := by rw [taken.rad]
    simp only [powerLimit, cfgI, cfgN_of_cfg cfg, cleared.txMax, txMax]
  rw [txTry_goes goes, started]
  refine ⟨⟨rfl, rfl, rfl, counter_, ?_, ?_, ?_, ?_, ⟨_, type, ackReq, ?_⟩, congrArg Partner.txCtr own, taken.reserved, cleared.demods, taken.partner,
    taken.lgr, taken.pending, chirpOnly_trans told rfl⟩, cleared.ack⟩
  · simp only [modRad_rad, txSent, own, limit]
  · simp only [modRad_rad, txSent, own]
  · simp only [modRad_rad, txSent, own]
  · simp only [modRad_rad, txSent, cfgN_of_cfg cfg]
  · simp only [modRad_rad, txSent, address, slot, counter_, sat]

/-! ## The end of a transmission (R411, R433) -/

/-- The transmitter has ended its frame. -/
def txEnded (m : Main) : Main :=
  countN (modRad m fun r => { r with tx := { r.tx with active := false, txen := false, access := none, kAtt := 3, busy := 0 } }) 0x70F0 0x03
    m.rad.tx.frames

theorem txEnded_rad (m : Main) : (txEnded m).rad =
    { m.rad with tx := { m.rad.tx with active := false, txen := false, access := none, kAtt := 3, busy := 0 } } := countN_rad ..

theorem chirpOnly_txEnded (m : Main) : chirpOnly m (txEnded m) := chirpOnly_trans (chirpOnly_modRad m _) (chirpOnly_countN ..)

theorem txEnd_ack (active : m.rad.tx.active = true) (kind : m.rad.tx.kind = .ack) : txEnd m = txEnded m := by
  simp [txEnd, active, kind, txEnded]

theorem txEnd_waits {i : Nat} {h : Held} (active : m.rad.tx.active = true) (kind : m.rad.tx.kind = .held i) (held : m.rad.hold[i]? = some h)
    (asks : h.ackReq = true) : txEnd m = modRad (txEnded m) fun r => { r with ackWait := some (.held i, m.rad.tx.ctr) } := by
  have kept : (txEnded m).rad.hold[i]? = some h := by rw [txEnded_rad]; exact held
  unfold txEnd
  simp only [active, kind, Bool.not_true, Bool.false_eq_true, if_false]
  show (match (txEnded m).rad.hold[i]? with | none => _ | some h => _) = _
  rw [kept]
  simp only [asks, if_true]
  rfl

theorem txEnd_done {i : Nat} {h : Held} (active : m.rad.tx.active = true) (kind : m.rad.tx.kind = .held i) (held : m.rad.hold[i]? = some h)
    (asks : h.ackReq = false) : txEnd m = modPt (giveUp (txEnded m) i 0) h.slot fun p => { p with further := p.further + 1 } := by
  have kept : (txEnded m).rad.hold[i]? = some h := by rw [txEnded_rad]; exact held
  unfold txEnd
  simp only [active, kind, Bool.not_true, Bool.false_eq_true, if_false]
  show (match (txEnded m).rad.hold[i]? with | none => _ | some h => _) = _
  rw [kept]
  simp only [asks, Bool.false_eq_true, if_false]
  rfl

theorem txEnd_idle (idle : m.rad.tx.active = false) : txEnd m = m := by
  simp [txEnd, idle]

/-- What giving up a held frame of the host leaves. -/
structure heldOff (a b : Main) (i : Nat) : Prop where
  hold   : b.rad.hold = a.rad.hold.eraseIdx i
  active : b.rad.tx.active = a.rad.tx.active
  txen   : b.rad.tx.txen = a.rad.tx.txen
  wait   : a.rad.ackWait = none → b.rad.ackWait = none
  pts    : b.pts = a.pts
  dict   : b.dict = a.dict
  tally  : tallyKept a b
  only   : chirpOnly a b

theorem txReport_dict (m : Main) (h : Held) (status : Nat) : (txReport m h status).dict = m.dict := by
  unfold txReport radioOut
  split
  · rfl
  · dsimp only
    split
    · exact poolOnly_dict_eq (poolOnly_offerPkt ..)
    · rfl

theorem giveUp_off {i : Nat} {h : Held} (held : m.rad.hold[i]? = some h) (own : h.dict = false) (status : Nat) : heldOff m (giveUp m i status) i := by
  have rad := txReport_rad_eq (holdDrop m i) h status
  rw [giveUp_own held own]
  refine ⟨by rw [rad]; rfl, by rw [rad]; rfl, by rw [rad]; rfl, fun none => ?_, txReport_pts .., txReport_dict .., ?_,
    chirpOnly_trans (chirpOnly_holdDrop m i) (chirpOnly_txReport ..)⟩
  · rw [rad]
    simp [holdDrop, none]
  · refine tallyKept_trans ?_ (tallyKept_txReport ..)
    exact tallyKept_of_flt rfl

/-- The report of a held frame of the host that is given up. -/
theorem giveUp_delivers {i : Nat} {h : Held} (held : m.rad.hold[i]? = some h) (own : h.dict = false) (status : Nat) (ctl : ctlOn m = true)
    (room : roomFor m (m.pts[h.slot]).rxQueue 3) : delivered (giveUp m i status) (m.pts[h.slot]).rxQueue 0x32 0x03
      [word (place 0 8 h.slot.val + place 8 8 status + place 16 16 h.htag), word h.lastCtr, word (place 0 8 h.copies)] := by
  rw [giveUp_own held own]
  exact txReport_delivers (m := holdDrop m i) own ctl (roomFor_of_pool room rfl)

/-! ## The wait for an acknowledgement (R433) -/

/-- The wait is over. -/
def waitOver (m : Main) : Main := modRad m fun r => { r with ackWait := none }

theorem ackExpiry_again {i c : Nat} {h : Held} (wait : m.rad.ackWait = some (.held i, c)) (held : m.rad.hold[i]? = some h)
    (left : h.copies ≤ cfgN m 0x4100 0x0F) : ackExpiry m =
      modHeld (count (waitOver m) 0x70F0 0x04) i fun h => { h with again := true, kAtt := 3, busy := 0 } := by
  have kept : (waitOver m).rad.hold[i]? = some h := held
  unfold ackExpiry
  simp only [wait]
  show (match (waitOver m).rad.hold[i]? with | none => _ | some h => _) = _
  rw [kept]
  exact if_pos left

theorem ackExpiry_gives {i c : Nat} {h : Held} (wait : m.rad.ackWait = some (.held i, c)) (held : m.rad.hold[i]? = some h)
    (most : cfgN m 0x4100 0x0F < h.copies) : ackExpiry m =
      modPt (giveUp (waitOver m) i 2) h.slot fun p => { p with further := p.further + 1 } := by
  have kept : (waitOver m).rad.hold[i]? = some h := held
  unfold ackExpiry
  simp only [wait]
  show (match (waitOver m).rad.hold[i]? with | none => _ | some h => _) = _
  rw [kept]
  exact if_neg (Nat.not_le.mpr most)

/-- What is delivered stays so while a partner's record changes. -/
theorem delivered_modPt {q : Fin 32} {type source : Nat} {ws : List Word} (h : delivered m q type source ws) (n : Fin 256) (f : Partner → Partner) :
    delivered (modPt m n f) q type source ws := h

/-! ## The statement -/

/-- Settles O47: access, transmission, its end, and the end of a wait, each by what the front of the hold is. -/
theorem radioTransmit : Obligations.RadioTransmit := by
  unfold Obligations.RadioTransmit
  refine ⟨?clear, ?backs, ?defers, ?noTx, ?backoff, ?start, ?release, ?ack, ?noStart, ?endAck, ?endWaits, ?endDone, ?noEnd, ?again, ?gives, ?noWait,
    ?expires, ?noExpiry⟩
  case clear =>
    intro s k powers clear on idle access backoff wait next
    exact exec_of_onMain (f := fun m => lbtEnd m powers) rfl (lbtEnd_clear ⟨on, idle, access, backoff, wait⟩ clear next)
  case backs =>
    intro s i h powers busy on idle access backoff wait next held left
    obtain ⟨b, x, small, rad, only, counted, ends⟩ := lbtEnd_backs ⟨on, idle, access, backoff, wait⟩ busy next held left
    refine answers_of_onMain (f := fun m => lbtEnd m powers) rfl ?_
    rw [ends]
    refine ⟨⟨b, rfl, small⟩, ?_, ?_, counted, mainOnly_m _ _, chirpOnly_trans only rfl⟩
    · exact (congrArg (fun r : Radio => r.tx.access) rad).trans access
    · rw [modHeld, modRad_rad, modRad_rad, rad]
      exact modify_held held _
  case defers =>
    intro s i h powers busy on idle access backoff wait next held most
    refine answers_of_onMain (f := fun m => lbtEnd m powers) rfl ?_
    rw [lbtEnd_defers ⟨on, idle, access, backoff, wait⟩ busy next held most]
    have rad : (count (count s.m 0x70F0 0x01) 0x70F0 0x02).rad = s.m.rad := by rw [count_rad, count_rad]
    have counted : counter (count (count s.m 0x70F0 0x01) 0x70F0 0x02) 0x70F0 0x02 = sat32 (counter s.m 0x70F0 0x02 + 1) := by
      rw [counter_count_same, count, counter_countN_other 1 (by decide)]
    have only : chirpOnly s.m (count (count s.m 0x70F0 0x01) 0x70F0 0x02) := chirpOnly_trans (chirpOnly_count ..) (chirpOnly_count ..)
    generalize count (count s.m 0x70F0 0x01) 0x70F0 0x02 = x at rad counted only
    refine ⟨?_, rfl, ?_, counted, mainOnly_m _ _, chirpOnly_trans only rfl⟩
    · exact (congrArg (fun r : Radio => r.tx.backoff) rad).trans backoff
    · simp only [txFail, if_true, modHeld, modRad_rad, rad]
      exact modify_held held _
  case noTx => exact fun s powers next => exec_of_onMain (f := fun m => lbtEnd m powers) rfl (lbtEnd_none powers next)
  case backoff => exact fun s => rfl
  case start => exact fun s k p key goes => ⟨_, rfl, (txTry_onAir goes).1⟩
  case release =>
    intro s k p key goes won
    refine ⟨txTry s k, ?_, (txTry_onAir goes).1⟩
    show execTxHoldRelease s = _
    rw [execTxHoldRelease, won]
  case ack => exact fun s p key goes => ⟨_, rfl, (txTry_onAir goes).1, (txTry_onAir goes).2 rfl⟩
  case noStart =>
    intro s k h
    show Host.Outcome.next (txTry s k) = _
    unfold txTry
    dsimp only
    rw [if_pos]
    rcases h with h | h | h <;> simp [h]
  case endAck =>
    intro s active kind
    refine answers_of_onMain (f := txEnd) rfl ?_
    rw [txEnd_ack active kind, txEnded_rad]
    exact ⟨rfl, rfl, rfl, rfl, rfl, mainOnly_m _ _, chirpOnly_txEnded _⟩
  case endWaits =>
    intro s i h active kind held asks
    refine answers_of_onMain (f := txEnd) rfl ?_
    rw [txEnd_waits active kind held asks, modRad_rad, txEnded_rad]
    exact ⟨rfl, rfl, rfl, rfl, mainOnly_m _ _, chirpOnly_trans (chirpOnly_txEnded _) rfl⟩
  case endDone =>
    intro s i h active kind held asks own ctl room
    refine answers_of_onMain (f := txEnd) rfl ?_
    have rad := txEnded_rad s.m
    have ended : (txEnded s.m).rad.hold[i]? = some h := by rw [rad]; exact held
    have pts : (txEnded s.m).pts = s.m.pts := countN_pts ..
    have pool : (txEnded s.m).pool = s.m.pool := countN_pool ..
    have ctl : ctlOn (txEnded s.m) = true := by rw [ctlOn, chirpOnly_pw_eq (chirpOnly_txEnded s.m)]; exact ctl
    have off := giveUp_off ended own 0
    have told := giveUp_delivers ended own 0 ctl (by rw [pts]; exact roomFor_of_pool room pool)
    rw [txEnd_done active kind held asks]
    refine ⟨?_, ?_, ?_, ?_, mainOnly_m _ _, chirpOnly_trans (chirpOnly_txEnded s.m) (chirpOnly_trans off.only (chirpOnly_modPt ..))⟩
    · rw [modPt_rad, off.active, rad]
    · rw [modPt_rad, off.txen, rad]
    · rw [modPt_rad, off.hold, rad]
    · rw [pts] at told
      simpa [place] using delivered_modPt told _ _
  case noEnd => exact fun s idle => exec_of_onMain (f := txEnd) rfl (txEnd_idle idle)
  case again =>
    intro s i c h wait held left
    refine answers_of_onMain (f := ackExpiry) rfl ?_
    rw [ackExpiry_again wait held left]
    refine ⟨?_, ?_, counter_count_same .., mainOnly_m _ _, ?_⟩
    · rw [modHeld, modRad_rad, count_rad]
      rfl
    · rw [modHeld, modRad_rad, count_rad]
      exact modify_held held _
    · exact chirpOnly_trans (chirpOnly_trans (chirpOnly_modRad s.m _) (chirpOnly_count ..)) (chirpOnly_modHeld ..)
  case gives =>
    intro s i c h wait held most own ctl room
    refine answers_of_onMain (f := ackExpiry) rfl ?_
    have standing : (waitOver s.m).rad.hold[i]? = some h := held
    have off := giveUp_off standing own 2
    have told := giveUp_delivers standing own 2 ctl (roomFor_of_pool room rfl)
    rw [ackExpiry_gives wait held most]
    exact ⟨off.wait rfl, off.hold, delivered_modPt told _ _, mainOnly_m _ _,
      chirpOnly_trans (chirpOnly_modRad s.m _) (chirpOnly_trans off.only (chirpOnly_modPt ..))⟩
  case noWait =>
    intro s wait
    refine exec_of_onMain (f := ackExpiry) rfl ?_
    rw [ackExpiry, wait]
  case expires =>
    intro s i h held expiry own ctl room
    have counted : (count s.m 0x70F0 0x10).rad.hold[i]? = some h := by rw [count_rad]; exact held
    have pts : (count s.m 0x70F0 0x10).pts = s.m.pts := count_pts ..
    have off := giveUp_off counted own 3
    have told := giveUp_delivers counted own 3 (by rw [ctlOn, count_pw]; exact ctl) (by rw [pts]; exact roomFor_of_pool room (count_pool ..))
    refine ⟨{ s with m := giveUp (count s.m 0x70F0 0x10) i 3 }, ?_, ?_, ?_, ?_, mainOnly_m _ _, chirpOnly_trans (chirpOnly_count ..) off.only⟩
    · show execTxFrameExpiry i s = _
      simp [execTxFrameExpiry, onMain, held, expiry]
    · rw [off.hold, count_rad]
    · rw [off.tally.stands _ _ (by decide), counter_count_same]
    · rw [pts] at told
      exact told
  case noExpiry =>
    intro s i h
    show execTxFrameExpiry i s = _
    cases held : s.m.rad.hold[i]? with
    | none => simp [execTxFrameExpiry, onMain, held]
    | some x => simp [execTxFrameExpiry, onMain, held, h x held]

end Sys2Proof.Machine

end

section
/-!
What the pool's own work leaves of the names given before it: no packet and no sink comes to stand under an earlier name, so an open packet stays open
and alone under its name (R325, R519, R552).
-/

namespace Sys2Proof.Machine

/-! ## No packet comes back under an earlier name (R325) -/

/-- Under names below `n` there stand no packets and no sinks that did not stand before. -/
structure agedKept (n : Nat) (a b : Main) : Prop where
  pkts  : ∀ (q : Fin 32) (p : Packet), p.id < n → p ∈ (b.pool.qs[q]).pkts → p ∈ (a.pool.qs[q]).pkts
  sinks : ∀ (q : Fin 32) (p : Packet), p.id < n → p ∈ (b.pool.qs[q]).sinks → p ∈ (a.pool.qs[q]).sinks
  names : a.pool.nextId ≤ b.pool.nextId

section Aged

variable {n : Nat} {a b c m : Main}

theorem agedKept_of_pool (h : b.pool = a.pool) : agedKept n a b :=
  ⟨fun q p _ mem => by rwa [h] at mem, fun q p _ mem => by rwa [h] at mem, Nat.le_of_eq (by rw [h])⟩

theorem agedKept_refl (n : Nat) (a : Main) : agedKept n a a := agedKept_of_pool rfl

theorem agedKept_trans (h : agedKept n a b) (g : agedKept n b c) : agedKept n a c :=
  ⟨fun q p old mem => h.pkts q p old (g.pkts q p old mem), fun q p old mem => h.sinks q p old (g.sinks q p old mem), Nat.le_trans h.names g.names⟩

/-- A queue whose packets and sinks of earlier names stood before. -/
theorem agedKept_modQ (q : Fin 32) {f : Queue → Queue} (pkts : ∀ x p, p.id < n → p ∈ (f x).pkts → p ∈ x.pkts)
    (sinks : ∀ x p, p.id < n → p ∈ (f x).sinks → p ∈ x.sinks) : agedKept n m (modQ m q f) := by
  refine ⟨fun r p old mem => ?_, fun r p old mem => ?_, Nat.le_refl _⟩
  · rw [modQ_get] at mem
    split at mem
    · rename_i same
      rw [same]
      exact pkts _ p old mem
    · exact mem
  · rw [modQ_get] at mem
    split at mem
    · rename_i same
      rw [same]
      exact sinks _ p old mem
    · exact mem

/-- An update of the packet of a later name leaves those of earlier names. -/
theorem mem_of_map_named {id : Nat} {p : Packet} {l : List Packet} (g : Packet → Packet) (named : ∀ r, (g r).id = r.id) (other : p.id ≠ id)
    (mem : p ∈ l.map fun r => if r.id = id then g r else r) : p ∈ l := by
  obtain ⟨r, was, made⟩ := List.mem_map.mp mem
  by_cases own : r.id = id
  · rw [if_pos own] at made
    exact absurd (by rw [← made, named, own]) other
  · rw [if_neg own] at made
    exact made ▸ was

theorem agedKept_cuWords (q : Fin 32) (id : Nat) (ws : List Word) : agedKept n m (cuWords m q id ws) := agedKept_of_pool (cuWords_same ..).1

theorem agedKept_cuClose (q : Fin 32) (p : Packet) : agedKept n m (cuClose m q p).1 := agedKept_of_pool (cuClose_same ..).1

theorem agedKept_cuSink (id : Nat) : agedKept n m (cuSink m id) := agedKept_of_pool (cuSink_pool ..)

theorem agedKept_openPkt (q : Fin 32) (type source reserve : Nat) (new : n ≤ m.pool.nextId) : agedKept n m (openPkt m q type source reserve).1 := by
  refine ⟨fun r p old mem => ?_, fun r p old mem => ?_, by rw [openPkt_pool]; exact Nat.le_succ _⟩
  · simp only [openPkt_pool, updV_get] at mem
    split at mem
    · rename_i same
      rw [same]
      rcases List.mem_append.mp mem with was | opened
      · exact was
      · rw [List.mem_singleton.mp opened] at old
        exact absurd old (Nat.not_lt.mpr new)
    · exact mem
  · simp only [openPkt_pool, updV_get] at mem
    split at mem
    · rename_i same
      rw [same]
      exact mem
    · exact mem

theorem agedKept_sinkPkt (q : Fin 32) {id : Nat} (new : n ≤ id) : agedKept n m (sinkPkt m q id) := by
  have returned (v : Nat) : agedKept n m { m with pool := { m.pool with returning := v } } :=
    ⟨fun _ _ _ mem => mem, fun _ _ _ mem => mem, Nat.le_refl _⟩
  refine agedKept_trans (returned _) (agedKept_trans (agedKept_modQ q (fun x p _ mem => List.mem_of_mem_filter mem) fun x p old mem => ?_)
    (agedKept_cuSink _))
  rcases List.mem_append.mp mem with was | sunk
  · exact was
  · obtain ⟨r, gone, rfl⟩ := List.mem_map.mp sunk
    have named : r.id = id := by simpa using (List.mem_filter.mp gone).2
    have old : r.id < n := old
    omega

theorem agedKept_appendPkt (q : Fin 32) {id : Nat} (ws : List Word) (new : n ≤ id) : agedKept n m (appendPkt m q id ws) := by
  have other {p : Packet} (old : p.id < n) : p.id ≠ id := by omega
  unfold appendPkt
  dsimp only
  split
  · exact agedKept_modQ q (fun x p _ mem => mem) fun x p old mem => mem_of_map_named (fun r => { r with words := r.words ++ ws }) (fun _ => rfl) (other old) mem
  · have put (vs us : List Word) : agedKept n m (cuWords (modQ m q fun x =>
        noteCells { x with pkts := x.pkts.map fun p => if p.id = id then { p with words := p.words ++ vs } else p }) q id us) := by
      refine agedKept_trans ?_ (agedKept_cuWords ..)
      exact agedKept_modQ q (fun x p old mem => mem_of_map_named (fun r => { r with words := r.words ++ vs }) (fun _ => rfl) (other old) mem)
        fun x p _ mem => mem
    split
    · exact put _ _
    · refine agedKept_trans (put _ _) (agedKept_trans (agedKept_sinkPkt q new) (agedKept_modQ q (fun x p _ mem => mem) fun x p old mem => ?_))
      exact mem_of_map_named (fun r => { r with words := r.words ++ ws.drop _ }) (fun _ => rfl) (other old) mem

theorem agedKept_closeRaw (q : Fin 32) {id : Nat} (new : n ≤ id) : agedKept n m (closeRaw m q id).1 := by
  have other {p : Packet} (old : p.id < n) : p.id ≠ id := by omega
  unfold closeRaw
  dsimp only
  split
  · refine agedKept_trans ?_ (agedKept_of_pool ((countN_pool ..).trans (count_pool ..)))
    exact agedKept_modQ q (fun x p _ mem => mem) fun x p _ mem => List.mem_of_mem_filter mem
  · split
    · exact agedKept_refl n m
    · have closed (g : Packet → Packet) (named : ∀ r, (g r).id = r.id) :
          agedKept n m (modQ m q fun x => { x with pkts := x.pkts.map fun p => if p.id = id then g p else p }) :=
        agedKept_modQ q (fun x p old mem => mem_of_map_named g named (other old) mem) fun x p _ mem => mem
      split
      · dsimp only
        refine agedKept_trans ?_ (agedKept_cuClose q _)
        exact closed (fun p => { p with opened := false, reserve := 0, closedAt := m.now }) fun _ => rfl
      · refine agedKept_trans ?_ (agedKept_cuClose q _)
        exact closed (fun p => { p with opened := false, reserve := 0, closedAt := m.now }) fun _ => rfl

theorem agedKept_dropRaw (q : Fin 32) (source : Nat) : agedKept n m (dropRaw m q source).1 := by
  refine agedKept_trans ?_ (agedKept_of_pool (count_pool ..))
  exact agedKept_modQ q (fun x p _ mem => mem) fun x p _ mem => mem

theorem agedKept_putRaw (q : Fin 32) (type source : Nat) (ws : List Word) (new : n ≤ m.pool.nextId) : agedKept n m (putRaw m q type source ws).1 :=
  agedKept_trans (agedKept_openPkt _ _ _ _ new) (agedKept_trans (agedKept_appendPkt q ws new) (agedKept_closeRaw q new))

theorem agedKept_journalPut (body : List Word) (new : n ≤ m.pool.nextId) : agedKept n m (journalPut m body).1 := by
  unfold journalPut
  dsimp only
  split
  · split
    · exact agedKept_putRaw _ _ _ _ new
    · exact agedKept_dropRaw 23 0x06
  · split
    · exact agedKept_trans (agedKept_putRaw _ _ _ _ new) (agedKept_of_pool (count_pool ..))
    · exact agedKept_trans (agedKept_dropRaw 22 0x06) (agedKept_of_pool (count_pool ..))

theorem agedKept_journalAt (t src code : Nat) (args : List Nat) (new : n ≤ m.pool.nextId) : agedKept n m (journalAt m t src code args).1 := by
  unfold journalAt
  dsimp only
  split
  · exact agedKept_refl n m
  · split
    · exact agedKept_of_pool (count_pool ..)
    · refine agedKept_trans ?_ (agedKept_journalPut _ new)
      exact agedKept_of_pool rfl

theorem agedKept_recordRaw (i : Fin 8) (key kind ref1 ref2 : Nat) (new : n ≤ m.pool.nextId) : agedKept n m (recordRaw m i key kind ref1 ref2).1 := by
  have noted (idx sub : Nat) (f : Cu → Cu) : agedKept n m (modCu (count m idx sub) i f) := agedKept_of_pool ((modCu_pool ..).trans (count_pool ..))
  unfold recordRaw
  dsimp only
  split
  · exact agedKept_trans (noted ..) (agedKept_putRaw _ _ _ _ (by rwa [modCu_pool, count_pool]))
  · exact agedKept_trans (noted ..) (agedKept_dropRaw ..)

theorem agedKept_doWork (w : PoolWork) (new : n ≤ m.pool.nextId) : agedKept n m (doWork m w).1 := by
  cases w with
  | put q type source ws mir =>
    simp only [doWork]
    split
    · exact agedKept_putRaw _ _ _ _ new
    · exact agedKept_trans (agedKept_of_pool (countIf_pool ..)) (agedKept_dropRaw ..)
  | record i key kind ref1 ref2 => exact agedKept_recordRaw _ _ _ _ _ new
  | journal src code args => exact agedKept_journalAt _ _ _ _ new

theorem agedKept_settle (r : Main × List PoolWork) (new : n ≤ r.1.pool.nextId) : agedKept n r.1 (settle r) := by
  have fuelled (fuel : Nat) : ∀ (m : Main) (l : List PoolWork), n ≤ m.pool.nextId → agedKept n m (settleFuel fuel m l) := by
    induction fuel with
    | zero =>
      intro m l _
      cases l <;> exact agedKept_refl n m
    | succ fuel ih =>
      intro m l new
      cases l with
      | nil => exact agedKept_refl n m
      | cons w ws =>
        have worked := agedKept_doWork w new
        exact agedKept_trans worked (ih _ _ (Nat.le_trans new worked.names))
  unfold settle
  exact fuelled _ _ _ new

theorem agedKept_cuFrame (source : Nat) (pass : Nat → Bool) (bs : List Byte) (key kind ref1 : Nat) (new : n ≤ m.pool.nextId) :
    agedKept n m (cuFrame m source pass bs key kind ref1) := by
  have each (l : List (Fin 8)) (f : Main → Fin 8 → Main) (step : ∀ x i, n ≤ x.pool.nextId → agedKept n x (f x i)) :
      ∀ m : Main, n ≤ m.pool.nextId → agedKept n m (forEach l m f) := by
    induction l with
    | nil =>
      intro m _
      rw [forEach_nil]
      exact agedKept_refl n m
    | cons i rest ih =>
      intro m new
      rw [forEach_cons]
      exact agedKept_trans (step m i new) (ih _ (Nat.le_trans new (step m i new).names))
  unfold cuFrame
  split
  · exact agedKept_refl n m
  · refine each _ _ (fun x i new => ?_) m new
    dsimp only
    split
    · exact agedKept_refl n x
    · split
      · exact agedKept_of_pool rfl
      · split
        · refine agedKept_trans ?_ (agedKept_settle _ new)
          exact agedKept_of_pool rfl
        · exact agedKept_of_pool rfl

/-- An open packet stays open and alone under its name while the pool works on later names. -/
theorem packetOpen_kept {q : Fin 32} {p : Packet} (h : packetOpen a q p) (stays : fileKept a.pool.nextId a b) (aged : agedKept a.pool.nextId a b) :
    packetOpen b q p := by
  refine ⟨stays.stay q p h.named h.mem, h.opened, fun r mem same => ?_, fun r mem same => ?_, Nat.lt_of_lt_of_le h.named stays.names⟩
  · exact h.only r (aged.pkts q r (same ▸ h.named) mem) same
  · exact h.noSink r (aged.sinks q r (same ▸ h.named) mem) same

end Aged

end Sys2Proof.Machine

end

section
/-!
Proofs of the statement on requests and received frames of the radio (R403, R415–R420, R433, R438–R440): a request enters the hold, and a frame goes by
its check, its partner and its integrity code to what its type does.
-/

namespace Sys2Proof.Machine

variable {s : State} {m : Main}

/-! ## Requests (R438) -/

theorem txRequest_packet {q : Fin 32} {p : Packet} {rest : List Packet} (ctl : ctlOn m = true) (room : m.rad.hold.length < 32)
    (consumer : (m.pool.qs[q]).consumer = 4) (head : (m.pool.qs[q]).pkts = p :: rest) (closed : p.opened = false) (sound : p.poison = []) :
    txRequest m q =
      let m := dropHead m q
      let w0 := (nth p.words 0 0).toNat
      let w1 := (nth p.words 1 0).toNat
      let n := finOf 256 (w0 % 256)
      let len := w1 % 256
      let h : Held :=
        { slot := n, ackReq := bitAt w0 8, now := bitAt w0 9, htag := field w0 16 16, body := (wordsBytes (p.words.drop 2)).take len,
          made := m.now, expiry := field w1 16 16 }
      if p.type != 0x31 || 237 < len || p.words.length != 2 + (len + 3) / 4 || (m.pts[n]).state = 0 || (isSat m && n != 0) then txReport m h 4
      else holdPut m h := by
  unfold txRequest
  simp only [headOf_sound head closed sound]
  rw [if_neg]
  simp [-Fin.getElem_fin, ctl, consumer, holdSize, Nat.not_le.mpr room]

theorem txRequest_taken {q : Fin 32} {p : Packet} {rest : List Packet} {n : Fin 256} {w0 w1 : Word} {ws : List Word} (ctl : ctlOn m = true)
    (room : m.rad.hold.length < 32) (consumer : (m.pool.qs[q]).consumer = 4) (head : (m.pool.qs[q]).pkts = p :: rest) (closed : p.opened = false)
    (sound : p.poison = []) (type : p.type = 0x31) (words : p.words = w0 :: w1 :: ws) (short : w1.toNat % 256 ≤ 237)
    (size : ws.length = (w1.toNat % 256 + 3) / 4) (slot : n.val = w0.toNat % 256) (known : (m.pts[n]).state ≠ 0) (own : isSat m = false ∨ n = 0) :
    txRequest m q = holdPut (dropHead m q) (requested m n w0 w1 ws) := by
  have partner : finOf 256 (w0.toNat % 256) = n := by rw [← slot]; exact Fin.ofNat_val_eq_self n
  have there : ((dropHead m q).pts[n]).state ≠ 0 := known
  have sat : (isSat (dropHead m q) && n != 0) = false := by
    rcases own with hub | own
    · rw [show isSat (dropHead m q) = isSat m from rfl, hub, Bool.false_and]
    · simp [own]
  have first : nth p.words 0 0 = w0 := by rw [words]; rfl
  have second : nth p.words 1 0 = w1 := by rw [words]; rfl
  have tail : p.words.drop 2 = ws := by rw [words]; rfl
  have length : p.words.length = 2 + (w1.toNat % 256 + 3) / 4 := by rw [words, List.length_cons, List.length_cons, size]; omega
  rw [txRequest_packet ctl room consumer head closed sound]
  simp only [first, second, partner, tail, length, type, sat]
  rw [if_neg]
  · rfl
  · simp [-Fin.getElem_fin, there, Nat.not_lt.mpr short]

theorem txRequest_full (q : Fin 32) (full : 32 ≤ m.rad.hold.length) : txRequest m q = m := by
  simp [txRequest, holdSize, full]

/-! ## The end of a frame (R402, R403, R417, R420) -/

section Ends

variable {d : Fin 8} {symbols : List Nat} {payload : List Byte} {info : RxMeta} {n : Fin 256} {key : BitVec 128}

theorem demodPayloadEnd_off (h : (s.m.rad.demods[d]).st ≠ 3 ∨ symbols.length + 24 ≠ 24 * radioBlocks (s.m.rad.demods[d]).order (s.m.rad.demods[d]).length) :
    demodPayloadEnd s d symbols info = s := by
  unfold demodPayloadEnd
  dsimp only
  rw [if_pos (by rcases h with h | h <;> simp [-Fin.getElem_fin, h])]

theorem blocksEnd_open {good : Bool} (ends : blocksEnd s.m d symbols payload good) : ¬ ((s.m.rad.demods[d]).st != 3 ||
    symbols.length + 24 != 24 * radioBlocks (s.m.rad.demods[d]).order (s.m.rad.demods[d]).length) = true := by
  simp [-Fin.getElem_fin, ends.st, ends.blocks]

theorem demodPayloadEnd_damaged (ends : blocksEnd s.m d symbols payload false) :
    demodPayloadEnd s d symbols info = { s with m := demodFree (count s.m 0x70E0 0x05) d } := by
  unfold demodPayloadEnd
  dsimp only
  rw [if_neg (blocksEnd_open ends), ends.heard]
  rfl

/-- A frame whose check matches is noted on its demodulator. -/
def frameWhole (m : Main) (d : Fin 8) (info : RxMeta) : Main := modDemod (count m 0x70E0 0x06) d fun y => { y with rssi := info.rssi }

theorem frameWhole_cfg (m : Main) (d : Fin 8) (info : RxMeta) : (frameWhole m d info).cfg = m.cfg := count_cfg m 0x70E0 0x06

theorem isSat_frameWhole (m : Main) (d : Fin 8) (info : RxMeta) : isSat (frameWhole m d info) = isSat m := by
  simp only [isSat, cfgN_of_cfg (frameWhole_cfg m d info)]

theorem partnerOf_frameWhole (m : Main) (d : Fin 8) (info : RxMeta) (src slot : Nat) : partnerOf (frameWhole m d info) src slot = partnerOf m src slot := by
  have pts : (frameWhole m d info).pts = m.pts := count_pts m 0x70E0 0x06
  simp only [partnerOf, isSat_frameWhole, pts]

theorem demodPayloadEnd_short (ends : blocksEnd s.m d symbols payload true) (short : payload.length < 18) :
    demodPayloadEnd s d symbols info = { s with m := demodFree (count (frameWhole s.m d info) 0x70F0 0x06) d } := by
  unfold demodPayloadEnd
  dsimp only
  rw [if_neg (blocksEnd_open ends), ends.heard]
  simp only [Bool.not_true, Bool.false_eq_true, if_false, ← ends.length, short, if_true]
  rfl

/-- A frame of a known partner has passed the check unit of its stream. -/
def frameHeard (s : State) (d : Fin 8) (payload : List Byte) (info : RxMeta) (n : Fin 256) (key : BitVec 128) : Main :=
  cuRadio (frameWhole s.m d info) false n.val (nth payload 0 0).toNat (macCtr payload) (macText key (!isSat s.m) payload)

theorem nth_take_first (l : List Byte) : nth (l.take 10) 0 0 = nth l 0 0 := by
  cases l <;> rfl

/-- A frame of a known partner goes by its integrity code (R417, R420). -/
theorem demodPayloadEnd_heard (heard : macHeard s d symbols payload n key) : demodPayloadEnd s d symbols info =
    { s with
      m := if ccmMic key (macNonce (payload.take 10) (!isSat s.m)) (payload.take 10) (macText key (!isSat s.m) payload) == payload.drop (payload.length - 8)
        then rxFrame (modDemod (frameHeard s d payload info n key) d fun y => { y with st := 0, space := none }) n d s.m.rad.demods[d]
          (nth payload 0 0).toNat (macCtr payload) info (macText key (!isSat s.m) payload)
        else demodFree (count (frameHeard s d payload info n key) 0x70F0 0x05) d } := by
  obtain ⟨ends, long, partner, space, stored⟩ := heard
  have long : ¬ payload.length < 18 := Nat.not_lt.mpr long
  unfold demodPayloadEnd
  dsimp only
  rw [if_neg (blocksEnd_open ends), ends.heard]
  simp only [Bool.not_true, Bool.false_eq_true, if_false, ← ends.length, long]
  rw [show (modDemod (count s.m 0x70E0 0x06) d fun y => { y with rssi := info.rssi }) = frameWhole s.m d info from rfl, partnerOf_frameWhole, partner]
  simp only [space, Bool.false_eq_true, if_false, stored, Option.getD_some, Option.isSome_some, Bool.true_and, isSat_frameWhole, nth_take_first]
  have text : ccmCrypt key (macNonce (payload.take 10) (!isSat s.m)) ((payload.drop 10).take (payload.length - 18)) = macText key (!isSat s.m) payload := rfl
  rw [text]
  by_cases good : (ccmMic key (macNonce (payload.take 10) (!isSat s.m)) (payload.take 10) (macText key (!isSat s.m) payload) ==
      payload.drop (payload.length - 8)) = true
  · rw [if_pos good, if_neg (by rw [good]; simp)]
    rfl
  · rw [if_neg good, if_pos (by simpa using good)]
    rfl

/-- What the frame of a known partner has changed once the check unit has seen it. -/
structure heardKept (a b : Main) (d : Fin 8) (info : RxMeta) : Prop where
  rad   : b.rad = { a.rad with demods := updV a.rad.demods d fun y => { y with rssi := info.rssi } }
  pts   : b.pts = a.pts
  dict  : b.dict = a.dict
  stay  : fileKept a.pool.nextId a b
  aged  : agedKept a.pool.nextId a b
  tally : ∀ idx sub, ekey idx sub ∉ poolCounters → ekey idx sub ≠ ekey 0x70E0 0x06 → counter b idx sub = counter a idx sub
  only  : chirpOnly a b

theorem fileKept_cuRadio {k : Nat} (sent : Bool) (slot fc ctr : Nat) (bs : List Byte) (new : k ≤ m.pool.nextId) :
    fileKept k m (cuRadio m sent slot fc ctr bs) := by
  unfold cuRadio
  exact fileKept_cuFrame _ _ _ _ _ _ _ new

theorem agedKept_cuRadio {k : Nat} (sent : Bool) (slot fc ctr : Nat) (bs : List Byte) (new : k ≤ m.pool.nextId) :
    agedKept k m (cuRadio m sent slot fc ctr bs) := by
  unfold cuRadio
  exact agedKept_cuFrame _ _ _ _ _ _ new

theorem frameHeard_kept (s : State) (d : Fin 8) (payload : List Byte) (info : RxMeta) (n : Fin 256) (key : BitVec 128) :
    heardKept s.m (frameHeard s d payload info n key) d info := by
  have told : poolOnly (frameWhole s.m d info) (frameHeard s d payload info n key) := poolOnly_cuRadio ..
  have pool : (frameWhole s.m d info).pool = s.m.pool := count_pool s.m 0x70E0 0x06
  have rad : (frameWhole s.m d info).rad = { s.m.rad with demods := updV s.m.rad.demods d fun y => { y with rssi := info.rssi } } := by
    simp only [frameWhole, modDemod, count_rad]
  have new : s.m.pool.nextId ≤ (frameWhole s.m d info).pool.nextId := by rw [pool]
  refine ⟨(poolOnly_rad_eq told).trans rad, (poolOnly_pts_eq told).trans (count_pts s.m 0x70E0 0x06), (poolOnly_dict_eq told).trans (count_dict s.m 0x70E0 0x06), ?_, ?_, ?_, ?_⟩
  · refine fileKept_trans ⟨fun q p _ mem => by rwa [pool], Nat.le_of_eq (by rw [pool]), fun x own => ?_⟩ (fileKept_cuRadio _ _ _ _ _ new)
    exact counter_countN_other 1 (by revert x; decide)
  · exact agedKept_trans (agedKept_of_pool pool) (agedKept_cuRadio _ _ _ _ _ new)
  · intro idx sub other own
    rw [frameHeard, cuRadio, (tallyKept_cuFrame ..).stands idx sub other]
    exact counter_countN_other 1 own
  · exact chirpOnly_trans (chirpOnly_trans (chirpOnly_count s.m 0x70E0 0x06) (chirpOnly_modDemod ..)) (chirpOnly_of_pool told)

end Ends

/-! ## A frame that passed its integrity code (R416, R420) -/

/-- The statistics of the radio trim take an offset: only they and burnish change, and burnish only with the 32nd (R175, R179). -/
theorem noteOffset_notes (m : Main) (n : Fin 256) (cfo : Int) : ∃ offsets brn, noteOffset m n cfo =
    { m with rad := { m.rad with offsets := offsets }, brn := brn } ∧ (m.rad.offsets.length < 31 → brn = m.brn) := by
  unfold noteOffset
  dsimp only
  split
  · exact ⟨m.rad.offsets, m.brn, rfl, fun _ => rfl⟩
  · split
    · exact ⟨_, m.brn, rfl, fun _ => rfl⟩
    · rename_i many
      refine ⟨[], _, rfl, fun few => absurd ?_ many⟩
      simp only [List.length_drop, List.length_append, List.length_cons, List.length_nil, Bool.or_eq_true, decide_eq_true_eq]
      omega

/-- The partner of a good frame is noted, and its offset. -/
def frameNoted (m : Main) (n : Fin 256) (y : Demod) (fc ctr : Nat) (info : RxMeta) : Main :=
  noteOffset (modPt m n fun p =>
    { p with cfo := some y.cfo, rxCtr := ctr, awakeAt := m.now,
             up := if isSat m || fc % 8 = 0 || fc % 8 = 4 then last4 p.up (rxMargin info.snr y.order) else p.up }) n y.cfo

/-- The acknowledgement that a frame asks for is due. -/
def ackOwed (m : Main) (n : Fin 256) (y : Demod) (fc ctr : Nat) (info : RxMeta) : Main :=
  if bitAt fc 3 then modRad m fun r => { r with ackDue := some (ackFor m n y ctr info.snr (fc % 8 == 4 && !isSat m)) } else m

section Types

variable {n : Fin 256} {d : Fin 8} {y : Demod} {fc ctr : Nat} {info : RxMeta} {body : List Byte}

theorem rxFrame_data (type : fc % 8 = 0) : rxFrame m n d y fc ctr info body =
    ackOwed (rxData (frameNoted m n y fc ctr info) n y (rxWords (frameNoted m n y fc ctr info) n d y fc ctr info body)) n y fc ctr info := by
  unfold rxFrame
  rw [type]
  simp [ackOwed, frameNoted, type]

theorem rxFrame_ack (type : fc % 8 = 1) :
    rxFrame m n d y fc ctr info body = ackOwed (rxAck (frameNoted m n y fc ctr info) n body) n y fc ctr info := by
  unfold rxFrame
  rw [type]
  simp [ackOwed, frameNoted, type]

theorem rxFrame_dict (type : fc % 8 = 2) :
    rxFrame m n d y fc ctr info body = ackOwed (rxDict (frameNoted m n y fc ctr info) n body) n y fc ctr info := by
  unfold rxFrame
  rw [type]
  simp [ackOwed, frameNoted, type]

/-- What is known of the machine once a good frame has been noted. -/
structure goodNoted (a b : Main) (d : Fin 8) (n : Fin 256) (ctr : Nat) : Prop where
  rad    : b.rad = { a.rad with demods := b.rad.demods, offsets := b.rad.offsets }
  idle   : (b.rad.demods[d]).st = 0
  rxCtr  : (b.pts[n]).rxCtr = ctr
  awake  : (b.pts[n]).awakeAt = a.now
  others : ∀ i : Fin 256, i ≠ n → b.pts[i] = a.pts[i]
  dict   : b.dict = a.dict
  stay   : fileKept a.pool.nextId a b
  aged   : agedKept a.pool.nextId a b
  tally  : ∀ idx sub, ekey idx sub ∉ poolCounters → ekey idx sub ≠ ekey 0x70E0 0x06 → counter b idx sub = counter a idx sub
  only   : frameOnly a b

theorem frameOnly_trans {a b c : Main} (h : frameOnly a b) (g : chirpOnly b c) : frameOnly a c := by
  obtain ⟨only, brn⟩ := h
  have same : c.brn = b.brn := by rw [g]
  refine ⟨?_, fun few => same.trans (brn few)⟩
  rw [same]
  exact chirpOnly_trans only g

theorem frameOnly_same {a b : Main} (h : frameOnly a b) : b.cfg = a.cfg ∧ b.lace = a.lace ∧ b.now = a.now ∧ b.pw = a.pw := by
  have only := h.1
  exact ⟨by rw [only], by rw [only], by rw [only], by rw [only]⟩

/-- A good frame of a known partner, noted. -/
theorem goodNoted_heard (s : State) (d : Fin 8) (payload : List Byte) (info : RxMeta) (n : Fin 256) (key : BitVec 128) (y : Demod) (fc ctr : Nat) :
    goodNoted s.m (frameNoted (modDemod (frameHeard s d payload info n key) d fun y => { y with st := 0, space := none }) n y fc ctr info) d n ctr := by
  have kept := frameHeard_kept s d payload info n key
  generalize frameHeard s d payload info n key = b at kept
  unfold frameNoted
  obtain ⟨offsets, brn, noted, few⟩ := noteOffset_notes (modPt (modDemod b d fun y => { y with st := 0, space := none }) n fun p =>
    { p with cfo := some y.cfo, rxCtr := ctr, awakeAt := b.now,
             up := if isSat (modDemod b d fun y => { y with st := 0, space := none }) || fc % 8 = 0 || fc % 8 = 4 then
               last4 p.up (rxMargin info.snr y.order) else p.up }) n y.cfo
  have now : b.now = s.m.now := chirpOnly_now_eq kept.only
  have brn_same : b.brn = s.m.brn := by rw [kept.only]
  rw [show (modDemod b d fun y => { y with st := 0, space := none }).now = b.now from rfl, noted]
  refine ⟨?_, ?_, ?_, ?_, fun i other => ?_, kept.dict, ?_, ?_, kept.tally, ?_, fun small => ?_⟩
  · simp only [modPt_rad, modDemod, kept.rad]
  · simp only [modPt_rad, modDemod, updV_get, if_true]
  · dsimp only
    rw [modPt_get, if_pos rfl]
  · dsimp only
    rw [modPt_get, if_pos rfl]
    exact now
  · dsimp only
    rw [modPt_get, if_neg other]
    exact congrArg (·[i]) kept.pts
  · exact fileKept_trans kept.stay (fileKept_of_same rfl rfl)
  · exact agedKept_trans kept.aged (agedKept_of_pool rfl)
  · have only := kept.only
    unfold chirpOnly at only ⊢
    rw [only]
    rfl
  · refine (few ?_).trans brn_same
    rw [modPt_rad]
    simpa only [modDemod, kept.rad] using small

/-- The words of a frame need the settings, the channels and the lace alone. -/
theorem rxWords_of_same {a b : Main} (cfg : b.cfg = a.cfg) (lace : b.lace = a.lace) (chans : b.rad.chans = a.rad.chans) :
    rxWords b n d y fc ctr info body = rxWords a n d y fc ctr info body := by
  simp only [rxWords, branchesOf, chanOf, tickAt, cfgN_of_cfg cfg, lace, chans]

theorem ackOwed_rad (m : Main) (n : Fin 256) (y : Demod) (fc ctr : Nat) (info : RxMeta) :
    (ackOwed m n y fc ctr info).rad = { m.rad with ackDue := (ackOwed m n y fc ctr info).rad.ackDue } := by
  unfold ackOwed
  split <;> rfl

theorem chirpOnly_ackOwed (m : Main) (n : Fin 256) (y : Demod) (fc ctr : Nat) (info : RxMeta) : chirpOnly m (ackOwed m n y fc ctr info) := by
  unfold ackOwed
  split <;> rfl

theorem ackOwed_pool (m : Main) (n : Fin 256) (y : Demod) (fc ctr : Nat) (info : RxMeta) : (ackOwed m n y fc ctr info).pool = m.pool := by
  unfold ackOwed
  split <;> rfl

theorem ackOwed_pts (m : Main) (n : Fin 256) (y : Demod) (fc ctr : Nat) (info : RxMeta) : (ackOwed m n y fc ctr info).pts = m.pts := by
  unfold ackOwed
  split <;> rfl

theorem ackOwed_dict (m : Main) (n : Fin 256) (y : Demod) (fc ctr : Nat) (info : RxMeta) : (ackOwed m n y fc ctr info).dict = m.dict := by
  unfold ackOwed
  split <;> rfl

theorem ackOwed_counter (m : Main) (n : Fin 256) (y : Demod) (fc ctr : Nat) (info : RxMeta) (idx sub : Nat) :
    counter (ackOwed m n y fc ctr info) idx sub = counter m idx sub := by
  unfold ackOwed
  split <;> rfl

theorem ackOwed_due (asks : bitAt fc 3 = true) : ∃ a, (ackOwed m n y fc ctr info).rad.ackDue = some a ∧ a.slot = n ∧ a.body.take 4 = leBytes 4 ctr := by
  refine ⟨ackFor m n y ctr info.snr (fc % 8 == 4 && !isSat m), by rw [ackOwed, if_pos asks]; rfl, rfl, ?_⟩
  unfold ackFor
  dsimp only
  rw [List.append_assoc]
  exact List.take_left' (leBytes_length ..)

theorem ackOwed_none (asks : bitAt fc 3 = false) : ackOwed m n y fc ctr info = m := by
  rw [ackOwed, if_neg (by simp [asks])]

/-- An acknowledgement of a held frame ends its wait (R433). -/
theorem rxAck_held {i : Nat} {h : Held} (held : m.rad.hold[i]? = some h) (slot : h.slot = n)
    (wait : m.rad.ackWait = some (.held i, leNat (body.take 4))) :
    rxAck m n body = modPt (giveUp (waitOver m) i 1) n fun p => { p with further := p.further + 1, awakeAt := (waitOver m).now } := by
  unfold rxAck
  simp only [wait, held, Option.map_some, slot, beq_self_eq_true, Bool.not_true, bne_self_eq_false, Bool.or_self, Bool.false_eq_true, if_false]
  rfl

end Types

/-! ## The statement -/

theorem macGood_iff {payload : List Byte} {key : BitVec 128} : macGood s payload key ↔
    (ccmMic key (macNonce (payload.take 10) (!isSat s.m)) (payload.take 10) (macText key (!isSat s.m) payload) == payload.drop (payload.length - 8)) = true := by
  rw [beq_iff_eq]
  exact eq_comm

/-- The machine once a good frame has been noted. -/
def afterFrame (s : State) (d : Fin 8) (payload : List Byte) (info : RxMeta) (n : Fin 256) (key : BitVec 128) : Main :=
  frameNoted (modDemod (frameHeard s d payload info n key) d fun y => { y with st := 0, space := none }) n s.m.rad.demods[d]
    (nth payload 0 0).toNat (macCtr payload) info

theorem afterFrame_noted (s : State) (d : Fin 8) (payload : List Byte) (info : RxMeta) (n : Fin 256) (key : BitVec 128) :
    goodNoted s.m (afterFrame s d payload info n key) d n (macCtr payload) := goodNoted_heard ..

/-- A good frame of a known partner does what its type does. -/
theorem demodPayloadEnd_good {d : Fin 8} {symbols : List Nat} {payload : List Byte} {info : RxMeta} {n : Fin 256} {key : BitVec 128}
    (heard : macHeard s d symbols payload n key) (good : macGood s payload key) : demodPayloadEnd s d symbols info =
      { s with
        m := rxFrame (modDemod (frameHeard s d payload info n key) d fun y => { y with st := 0, space := none }) n d s.m.rad.demods[d]
          (nth payload 0 0).toNat (macCtr payload) info (macText key (!isSat s.m) payload) } := by
  rw [demodPayloadEnd_heard heard, if_pos (macGood_iff.mp good)]

theorem packWords_length_le (bs : List Byte) : (packWords bs).length ≤ bs.length := by
  induction bs using packWords.induct with
  | case1 a b c d rest ih =>
    rw [packWords, List.length_cons]
    simp only [List.length_cons]
    omega
  | case2 => exact Nat.le_refl 0
  | case3 rest few some_ =>
    rw [packWords]
    · exact List.length_pos_iff.mpr some_
    · exact few
    · exact some_

/-- The text of a frame is no longer than the frame. -/
theorem macText_length_le (key : BitVec 128) (up : Bool) (payload : List Byte) : (macText key up payload).length ≤ payload.length := by
  refine (List.length_take_le ..).trans ((List.length_take_le ..).trans ?_)
  omega

theorem rxWords_length (m : Main) (n : Fin 256) (d : Fin 8) (y : Demod) (fc ctr : Nat) (info : RxMeta) (body : List Byte) :
    (rxWords m n d y fc ctr info body).length = 5 + (packWords body).length := by
  simp only [rxWords, List.length_append, List.length_cons, List.length_nil]

/-- Settles O48: requests by the head of their queue; frames by check, partner, integrity code and type. -/
theorem radioFrames : Obligations.RadioFrames := by
  unfold Obligations.RadioFrames
  refine ⟨?taken, ?refused, ?full, ?off, ?damaged, ?short, ?badMic, ?data, ?dict, ?acked⟩
  case taken =>
    intro s second q p rest n w0 w1 ws queue ctl room consumer head closed sound type words short size slot known own
    refine answers_of_onMain (f := fun m => txRequest m (if second then 17 else 16)) rfl ?_
    rw [← queue, txRequest_taken ctl room consumer head closed sound type words short size slot known own]
    refine ⟨rfl, ?_, fun r other => ?_, mainOnly_m _ _, rfl⟩
    · show ((dropHead s.m q).pool.qs[q]).pkts = rest
      rw [dropHead, modQ_get, if_pos rfl, head]
      rfl
    · show (dropHead s.m q).pool.qs[r] = _
      rw [dropHead, modQ_get, if_neg other]
  case refused =>
    intro s second q p rest queue ctl room consumer head closed sound type
    refine answers_of_onMain (f := fun m => txRequest m (if second then 17 else 16)) rfl ?_
    have refused : ∃ h, txRequest s.m q = txReport (dropHead s.m q) h 4 := by
      rw [txRequest_packet ctl room consumer head closed sound]
      dsimp only
      rw [if_pos (by simp [type])]
      exact ⟨_, rfl⟩
    obtain ⟨h, refused⟩ := refused
    rw [← queue, refused]
    refine ⟨?_, txReport_pts .., mainOnly_m _ _, chirpOnly_trans (b := dropHead s.m q) rfl (chirpOnly_txReport ..)⟩
    rw [txReport_rad_eq]
    rfl
  case full => exact fun s second full => exec_of_onMain (f := fun m => txRequest m (if second then 17 else 16)) rfl (txRequest_full _ full)
  case off => exact fun s d symbols info h => congrArg Host.Outcome.next (demodPayloadEnd_off h)
  case damaged =>
    intro s d symbols payload info ends space
    refine congrArg Host.Outcome.next ((demodPayloadEnd_damaged ends).trans ?_)
    rw [demodFree_unwritten (by rw [count_rad]; exact space)]
  case short =>
    intro s d symbols payload info ends space short
    refine ⟨_, congrArg Host.Outcome.next (demodPayloadEnd_short ends short), ?_⟩
    have unwritten : ((count (frameWhole s.m d info) 0x70F0 0x06).rad.demods[d]).space = none := by
      simp only [count_rad, frameWhole, modDemod, updV_get, if_true]
      exact space
    refine ⟨demodFree_st .., ?_, ?_, ?_, ?_, mainOnly_m _ _, ?_⟩
    · rw [(tallyKept_demodFree ..).stands _ _ (by decide), count, counter_countN_other 1 (by decide)]
      exact counter_count_same ..
    · rw [(tallyKept_demodFree ..).stands _ _ (by decide), counter_count_same]
      exact congrArg (fun v => sat32 (v + 1)) (counter_countN_other 1 (by decide))
    · rw [demodFree_pts, count_pts]
      exact count_pts s.m 0x70E0 0x06
    · rw [demodFree_unwritten unwritten]
      exact (count_pool (frameWhole s.m d info) 0x70F0 0x06).trans (count_pool s.m 0x70E0 0x06)
    · exact chirpOnly_trans (chirpOnly_trans (chirpOnly_trans (chirpOnly_count s.m 0x70E0 0x06) (chirpOnly_modDemod ..)) (chirpOnly_count ..))
        (chirpOnly_demodFree ..)
  case badMic =>
    intro s d symbols payload info n key heard bad
    refine ⟨_, congrArg Host.Outcome.next (demodPayloadEnd_heard heard), ?_⟩
    have kept := frameHeard_kept s d payload info n key
    rw [if_neg (fun good => bad (macGood_iff.mpr good))]
    refine ⟨demodFree_st .., ?_, ?_, ?_, ?_, mainOnly_m _ _, chirpOnly_trans kept.only (chirpOnly_trans (chirpOnly_count ..) (chirpOnly_demodFree ..))⟩
    · rw [demodFree_pts, count_pts, kept.pts]
    · rw [demodFree_rad, count_rad, kept.rad]
    · rw [demodFree_rad, count_rad, kept.rad]
    · rw [demodFree_dict, count_dict, kept.dict]
  case data =>
    intro s d symbols payload info n key q pk heard good ctl type space mem opened empty pkType source length noSink names
    refine ⟨_, congrArg Host.Outcome.next ((demodPayloadEnd_good heard good).trans (by rw [rxFrame_data type])), ?_⟩
    have noted := afterFrame_noted s d payload info n key
    rw [show frameNoted (modDemod (frameHeard s d payload info n key) d fun y => { y with st := 0, space := none }) n s.m.rad.demods[d]
      (nth payload 0 0).toNat (macCtr payload) info = afterFrame s d payload info n key from rfl]
    generalize afterFrame s d payload info n key = b at noted
    obtain ⟨cfg, lace, -, -⟩ := frameOnly_same noted.only
    have chans : b.rad.chans = s.m.rad.chans := by rw [noted.rad]
    have opened : packetOpen s.m q pk := by
      refine ⟨mem, opened, fun r there same => ?_, noSink, (names q pk (List.mem_append_left _ mem)).1⟩
      exact ((names q r (List.mem_append_left _ there)).2 same).2
    have opened := packetOpen_kept opened noted.stay noted.aged
    rw [rxWords_of_same cfg lace chans]
    have words : (rxWords s.m n d s.m.rad.demods[d] (nth payload 0 0).toNat (macCtr payload) info (macText key (!isSat s.m) payload)).length ≤ 65535 := by
      have text := macText_length_le key (!isSat s.m) payload
      have packed := packWords_length_le (macText key (!isSat s.m) payload)
      rw [rxWords_length]
      omega
    generalize rxWords s.m n d s.m.rad.demods[d] (nth payload 0 0).toNat (macCtr payload) info (macText key (!isSat s.m) payload) = ws at words
    have data : rxData b n s.m.rad.demods[d] ws = closePkt (appendPkt b q pk.id ws) q pk.id := by rw [rxData, space]
    have filed := filed_closePkt (packetOpen_appendPkt (ws := ws) opened (by rw [empty]; simpa using words))
    dsimp only at filed
    rw [empty, List.nil_append, pkType, source] at filed
    have told : poolOnly b (closePkt (appendPkt b q pk.id ws) q pk.id) := poolOnly_trans (poolOnly_appendPkt ..) (poolOnly_closePkt ..)
    rw [data]
    refine ⟨?_, ?_, ?_, fun i other => ?_, ?_, fun asks => ackOwed_due asks, mainOnly_m _ _,
      frameOnly_trans noted.only (chirpOnly_trans (chirpOnly_of_pool told) (chirpOnly_ackOwed ..))⟩
    · simp only [delivered, ackOwed_pool]
      exact delivered_of_filed filed
    · simp only [ackOwed_pts, poolOnly_pts_eq told, noted.rxCtr]
    · simp only [ackOwed_pts, poolOnly_pts_eq told, noted.awake]
    · simp only [ackOwed_pts, poolOnly_pts_eq told, noted.others i other]
    · rw [ackOwed_rad, poolOnly_rad_eq told]
      exact noted.idle
  case dict =>
    intro s d symbols payload info n key heard good ctl type space
    refine ⟨_, congrArg Host.Outcome.next ((demodPayloadEnd_good heard good).trans (by rw [rxFrame_dict type])), ?_⟩
    have noted := afterFrame_noted s d payload info n key
    rw [show frameNoted (modDemod (frameHeard s d payload info n key) d fun y => { y with st := 0, space := none }) n s.m.rad.demods[d]
      (nth payload 0 0).toNat (macCtr payload) info = afterFrame s d payload info n key from rfl]
    generalize afterFrame s d payload info n key = b at noted
    obtain ⟨-, -, now, pw⟩ := frameOnly_same noted.only
    have on : ctlOn b = true := by rw [ctlOn, pw]; exact ctl
    have taken : rxDict b n (macText key (!isSat s.m) payload) =
        modDict b fun x => { x with airIn := x.airIn ++ [(n, macText key (!isSat s.m) payload, b.now)] } := by rw [rxDict, if_pos on]
    rw [taken]
    refine ⟨?_, ?_, ?_, mainOnly_m _ _, frameOnly_trans noted.only (chirpOnly_trans (chirpOnly_modDict b _) (chirpOnly_ackOwed ..))⟩
    · rw [ackOwed_dict, modDict_dict, noted.dict, now]
    · simp only [ackOwed_pts]
      exact noted.rxCtr
    · rw [ackOwed_rad]
      exact noted.idle
  case acked =>
    intro s d symbols payload info n key i h heard good type space held slot own wait
    have kind : (nth payload 0 0).toNat % 8 = 1 := by omega
    have silent : bitAt (nth payload 0 0).toNat 3 = false := by
      rw [bitAt]
      exact decide_eq_false (by omega)
    refine ⟨_, congrArg Host.Outcome.next ((demodPayloadEnd_good heard good).trans (by rw [rxFrame_ack kind, ackOwed_none silent])), ?_⟩
    have noted := afterFrame_noted s d payload info n key
    rw [show frameNoted (modDemod (frameHeard s d payload info n key) d fun y => { y with st := 0, space := none }) n s.m.rad.demods[d]
      (nth payload 0 0).toNat (macCtr payload) info = afterFrame s d payload info n key from rfl]
    generalize afterFrame s d payload info n key = b at noted
    have kept : (waitOver b).rad.hold[i]? = some h := by
      show b.rad.hold[i]? = some h
      rw [noted.rad]
      exact held
    have off := giveUp_off kept own 1
    have front := frontKept_giveUp (waitOver b) i 1
    rw [rxAck_held (m := b) (h := h) kept slot (by rw [noted.rad]; exact wait)]
    refine ⟨off.wait rfl, ?_, ?_, mainOnly_m _ _,
      frameOnly_trans noted.only (chirpOnly_trans (chirpOnly_modRad b _) (chirpOnly_trans off.only (chirpOnly_modPt ..)))⟩
    · rw [modPt_rad, off.hold]
      show b.rad.hold.eraseIdx i = _
      rw [noted.rad]
    · rw [modPt_rad, front.demods]
      exact noted.idle

end Sys2Proof.Machine

end

section
/-!
Proofs of the statement on sleeping partners (R426–R432, R435–R437, R441): check-ins, guard windows, contacts, misses, calls, and the windows in which a
radio that sleeps listens.
-/

namespace Sys2Proof.Machine

variable {s : State} {m : Main} {n : Fin 256}

/-! ## Partner events (R440) -/

/-- The contacts counted [70F0:09] and all of the radio but the packets kept for later stay. -/
structure toldOnly (a b : Main) : Prop where
  rad      : b.rad = { a.rad with kept := b.rad.kept }
  pts      : b.pts = a.pts
  contacts : counter b 0x70F0 0x09 = counter a 0x70F0 0x09
  only     : chirpOnly a b

theorem toldOnly_refl (a : Main) : toldOnly a a := ⟨rfl, rfl, rfl, rfl⟩

/-- A counted event of a partner is told. -/
theorem toldOnly_event (m : Main) (n : Fin 256) (ev : Nat) {sub : Nat} (other : ekey 0x70F0 0x09 ≠ ekey 0x70F0 sub) :
    toldOnly m (partnerEvent (count m 0x70F0 sub) n ev) := by
  have rad := radioOut_rad_eq (count m 0x70F0 sub) n 0x33 [word (place 0 8 n.val + place 8 8 ev), word (rfSeconds (count m 0x70F0 sub))]
  refine ⟨?_, (partnerEvent_pts ..).trans (count_pts ..), ?_, chirpOnly_trans (chirpOnly_count ..) (chirpOnly_radioOut ..)⟩
  · rw [count_rad] at rad
    exact rad
  · exact ((tallyKept_radioOut ..).stands _ _ (by decide)).trans (counter_countN_other 1 other)

theorem rfSeconds_of_chirp {a b : Main} (only : chirpOnly a b) : rfSeconds b = rfSeconds a := by
  rw [rfSeconds, rfSeconds, aoSeconds, aoSeconds, chirpOnly_now_eq only, chirpOnly_pw_eq only]

/-! ## Guard windows (R428, R429) -/

/-- The guard window of a partner no longer runs. -/
def guardShut (m : Main) (n : Fin 256) : Main := modRad m fun r => { r with guard := r.guard.filter (· != n) }

theorem not_mem_guardShut (m : Main) (n : Fin 256) : n ∉ (guardShut m n).rad.guard := by
  rw [guardShut, modRad_rad]
  simp

/-- The partner after a window without a contact. -/
def Partner.missed (p : Partner) : Partner :=
  { p with
    window := false, contact := false, misses := min 255 (p.misses + 1), rdv := p.rdv + 1, further := 0,
    expected := p.expected + p.interval * tickS }

/-- A window ended without a contact, and `f` says what becomes of the partner. -/
def guardMissed (m : Main) (n : Fin 256) (f : Partner → Partner) : Main := modPt (count (guardShut m n) 0x70F0 0x0A) n f

section Missed

variable {f : Partner → Partner}

theorem guardMissed_own : (guardMissed m n f).pts[n] = f m.pts[n] := by
  rw [guardMissed, modPt_get, if_pos rfl, count_pts]
  rfl

theorem guardMissed_other {i : Fin 256} (other : i ≠ n) : (guardMissed m n f).pts[i] = m.pts[i] := by
  rw [guardMissed, modPt_get, if_neg other, count_pts]
  rfl

theorem guardMissed_rad : (guardMissed m n f).rad = (guardShut m n).rad := by
  rw [guardMissed, modPt_rad, count_rad]

theorem guardMissed_counter {sub : Nat} (other : ekey 0x70F0 sub ≠ ekey 0x70F0 0x0A) :
    counter (guardMissed m n f) 0x70F0 sub = counter m 0x70F0 sub := counter_countN_other 1 other

theorem chirpOnly_guardMissed : chirpOnly m (guardMissed m n f) :=
  chirpOnly_trans (chirpOnly_modRad m _) (chirpOnly_trans (chirpOnly_count ..) (chirpOnly_modPt ..))

end Missed

/-- A window that ends without a contact is a miss, and the most of them lose the partner. -/
theorem guardClose_missed (running : n ∈ m.rad.guard) (window : (m.pts[n]).window = true) : guardClose m n =
    let x := guardMissed m n fun p => { p.missed with state := if cfgN m 0x4100 0x09 ≤ (m.pts[n]).misses + 1 then 2 else p.state }
    if cfgN m 0x4100 0x09 ≤ (m.pts[n]).misses + 1 then partnerEvent (count x 0x70F0 0x0B) n 1 else x := by
  unfold guardClose
  rw [if_neg (by simpa using running)]
  refine if_neg ?_
  show ¬ (!(m.pts[n]).window) = true
  rw [window]
  decide

theorem guardClose_waits (running : n ∈ m.rad.guard) (window : (m.pts[n]).window = true)
    (left : (m.pts[n]).misses + 1 < cfgN m 0x4100 0x09) : guardClose m n = guardMissed m n Partner.missed := by
  simp only [guardClose_missed running window, Nat.not_le.mpr left, if_false]
  rfl

theorem guardClose_loses (running : n ∈ m.rad.guard) (window : (m.pts[n]).window = true)
    (most : cfgN m 0x4100 0x09 ≤ (m.pts[n]).misses + 1) : guardClose m n =
      partnerEvent (count (guardMissed m n fun p => { p.missed with state := 2 }) 0x70F0 0x0B) n 1 := by
  simp only [guardClose_missed running window, most, if_true]

theorem guardClose_unseen (closed : (m.pts[n]).window = false) : guardClose m n = guardShut m n := by
  unfold guardClose
  by_cases running : n ∈ m.rad.guard
  · rw [if_neg (by simpa using running), if_pos]
    · rfl
    · show (!(m.pts[n]).window) = true
      rw [closed]
      rfl
  · rw [if_pos (by simpa using running)]
    have same : m.rad.guard.filter (· != n) = m.rad.guard := List.filter_eq_self.mpr fun x mem => by
      simp only [bne_iff_ne, ne_eq]
      exact fun own => running (own ▸ mem)
    rw [guardShut, modRad, same]

/-! ## The contact (R427, R437) -/

/-- A contact outside a window is told. -/
def contactOutside (m : Main) (n : Fin 256) : Main :=
  if m.rad.guard.contains n then m else partnerEvent (count m 0x70F0 0x08) n 4

/-- What a contact leaves. -/
structure contactMade (a b : Main) (n : Fin 256) : Prop where
  state  : (b.pts[n]).state = 1
  misses : (b.pts[n]).misses = 0
  calls  : (b.pts[n]).calls = 0
  last   : (b.pts[n]).lastContact = rfSeconds a
  rxCtr  : (b.pts[n]).rxCtr = (a.pts[n]).rxCtr
  calm   : n ∉ b.rad.callDue
  others : ∀ i : Fin 256, i ≠ n → b.pts[i] = a.pts[i]
  tally  : counter b 0x70F0 0x09 = sat32 (counter a 0x70F0 0x09 + 1)
  only   : chirpOnly a b

theorem toldOnly_outside (m : Main) (n : Fin 256) : toldOnly m (contactOutside m n) := by
  unfold contactOutside
  split
  · exact toldOnly_refl m
  · exact toldOnly_event m n 4 (by decide)

/-- What a partner's events and its link leave of a contact. -/
theorem contactMade_told {a b c : Main} (made : contactMade a b n) (told : toldOnly b c) : contactMade a c n := by
  obtain ⟨state, misses, calls, last, rxCtr, calm, others, tally, only⟩ := made
  refine ⟨?_, ?_, ?_, ?_, ?_, ?_, fun i other => ?_, told.contacts.trans tally, chirpOnly_trans only told.only⟩
  case refine_6 => rw [told.rad]; exact calm
  all_goals rw [told.pts]
  exacts [state, misses, calls, last, rxCtr, others i other]

/-- An adapted link leaves the partner's contacts. -/
theorem adapt_contacts (p : Partner) (mg t lim : Int) (ok : Bool → Nat → Bool) : p.adapt mg t lim ok =
    { p with txPower := (p.adapt mg t lim ok).txPower, order := (p.adapt mg t lim ok).order, wide := (p.adapt mg t lim ok).wide } := by
  unfold Partner.adapt
  split_ifs <;> rfl

/-- The partner after a step of its link. -/
def Partner.stepped (p q : Partner) : Partner := if q.order = p.order && q.wide == p.wide then q else { q with oldLink := some (p.order, p.wide) }

/-- A step of a link leaves the partner's contacts. -/
theorem contactMade_step {a b : Main} (made : contactMade a b n) (mg t lim : Int) (ok : Bool → Nat → Bool) :
    contactMade a (modPt b n fun _ => (b.pts[n]).stepped ((b.pts[n]).adapt mg t lim ok)) n := by
  have kept (p : Partner) : ∃ power order wide old, p.stepped (p.adapt mg t lim ok) =
      { p with txPower := power, order := order, wide := wide, oldLink := old } := by
    unfold Partner.stepped
    rw [adapt_contacts]
    split
    · exact ⟨_, _, _, p.oldLink, rfl⟩
    · exact ⟨_, _, _, _, rfl⟩
  obtain ⟨power, order, wide, old, stepped⟩ := kept b.pts[n]
  obtain ⟨state, misses, calls, last, rxCtr, calm, others, tally, only⟩ := made
  refine ⟨?_, ?_, ?_, ?_, ?_, calm, fun i other => ?_, tally, chirpOnly_trans only rfl⟩
  case refine_6 => rw [modPt_get, if_neg other]; exact others i other
  all_goals rw [modPt_get, if_pos rfl, stepped]
  exacts [state, misses, calls, last, rxCtr]

theorem toldOnly_count (m : Main) {sub : Nat} (other : ekey 0x70F0 0x09 ≠ ekey 0x70F0 sub) : toldOnly m (count m 0x70F0 sub) :=
  ⟨by rw [count_rad], count_pts .., counter_countN_other 1 other, chirpOnly_count ..⟩

theorem toldOnly_partnerEvent (m : Main) (n : Fin 256) (ev : Nat) : toldOnly m (partnerEvent m n ev) :=
  ⟨radioOut_rad_eq .., partnerEvent_pts .., (tallyKept_radioOut ..).stands _ _ (by decide), chirpOnly_radioOut ..⟩

theorem contactMade_adapt {a b : Main} (made : contactMade a b n) : contactMade a (linkAdapt b n) n := by
  unfold linkAdapt
  dsimp only
  split
  · exact made
  next mg _ =>
    split
    · exact made
    split
    · exact made
    have counted := contactMade_told made (toldOnly_count b (sub := 0x0F) (by decide))
    have stepped := contactMade_step counted mg (100 * cfgN b 0x4100 0x11) (powerLimit b) (dwellOk b)
    rw [count_pts] at stepped
    exact contactMade_told stepped (toldOnly_partnerEvent ..)

/-- A contact that is noted with the partner and in the radio. -/
theorem contactMade_noted {a b : Main} (told : toldOnly a b) {f : Partner → Partner} {g : Radio → Radio}
    (noted : ∀ p, (f p).state = 1 ∧ (f p).misses = 0 ∧ (f p).calls = 0 ∧ (f p).lastContact = rfSeconds a ∧ (f p).rxCtr = p.rxCtr)
    (calm : ∀ r, (g r).callDue = r.callDue.filter (· != n)) : contactMade a (modRad (modPt (count b 0x70F0 0x09) n f) g) n := by
  obtain ⟨state, misses, calls, last, rxCtr⟩ := noted (b.pts[n])
  have own : (modRad (modPt (count b 0x70F0 0x09) n f) g).pts[n] = f b.pts[n] := by rw [modRad_pts, modPt_get, if_pos rfl, count_pts]
  refine ⟨?_, ?_, ?_, ?_, ?_, ?_, fun i other => ?_, ?_, ?_⟩
  · rw [own, state]
  · rw [own, misses]
  · rw [own, calls]
  · rw [own, last]
  · rw [own, rxCtr, told.pts]
  · rw [modRad_rad, calm]
    simp
  · rw [modRad_pts, modPt_get, if_neg other, count_pts, told.pts]
  · exact (counter_count_same ..).trans (by rw [told.contacts])
  · exact chirpOnly_trans told.only (chirpOnly_trans (chirpOnly_count b 0x70F0 0x09) rfl)

/-- A CHECKIN is a contact. -/
theorem contact_made (m : Main) (n : Fin 256) (y : Demod) (body : List Byte) : contactMade m (contact m n y body) n := by
  have outside := toldOnly_outside m n
  have now : rfSeconds (count (contactOutside m n) 0x70F0 0x09) = rfSeconds m :=
    rfSeconds_of_chirp (chirpOnly_trans outside.only (chirpOnly_count ..))
  have noted {f : Partner → Partner} {g : Radio → Radio} := contactMade_noted (n := n) outside (f := f) (g := g)
  unfold contact
  dsimp only
  rw [← contactOutside]
  refine contactMade_adapt ?_
  split
  · refine contactMade_told (noted (fun p => ?_) fun r => ?_) (toldOnly_event _ n 2 (by decide))
    · exact ⟨rfl, rfl, rfl, now, rfl⟩
    · rfl
  · refine noted (fun p => ?_) fun r => ?_
    · exact ⟨rfl, rfl, rfl, now, rfl⟩
    · rfl

/-! ## Listening (R430, R432) -/

/-- A lost satellite listens for 8 symbols of the wake order. -/
def listenEnd (m : Main) : Nat :=
  m.now + 8 * (2 ^ cfgN m 0x4100 0x0B * 5 / (if (chanOf m ((wakeGroup m).headD 0)).wide then 2 else 1)) * tickUs

theorem wakeGroup_single (plain : m.rad.profile ≠ 2) : wakeGroup m = [cfgN m 0x4100 0x0C] := by
  simp [wakeGroup, plain]

theorem lt_listenEnd (m : Main) : m.now < listenEnd m := by
  have some : 1 ≤ 2 ^ cfgN m 0x4100 0x0B := Nat.one_le_two_pow
  have pos : 0 < 8 * (2 ^ cfgN m 0x4100 0x0B * 5 / (if (chanOf m ((wakeGroup m).headD 0)).wide then 2 else 1)) * tickUs := by
    refine Nat.mul_pos (Nat.mul_pos (by decide) ?_) (by decide)
    split
    · exact Nat.div_pos (by omega) (by decide)
    · omega
  unfold listenEnd
  omega

/-- What a lost satellite listens to lies in the capture band. -/
theorem satListen_inside (sat : isSat m = true) (lost : m.rad.satLost = true) (on : radioOn m = true) (idle : m.rad.tx.active = false)
    (inside : ∀ c ∈ wakeGroup m, inBand m (chanOf m c) = true) :
    satListen m = modRad m fun r => { r with listenUntil := max r.listenUntil (listenEnd m) } := by
  have all : ((wakeGroup m).all fun c => inBand m (chanOf m c)) = true := List.all_eq_true.mpr inside
  unfold satListen
  simp only [sat, lost, on, idle, all, Bool.not_true, Bool.or_self, Bool.false_eq_true, if_false, if_true]
  rfl

/-- The capture band has moved to the wake group. -/
def bandMoved (m : Main) : Main := modRad (dropReceptions m true) fun r => { r with fLO := groupCentre m (wakeGroup m), gates := [] }

theorem chirpOnly_bandMoved (m : Main) : chirpOnly m (bandMoved m) := chirpOnly_trans (dropReceptions_off m true).only (chirpOnly_modRad ..)

theorem satListen_outside (sat : isSat m = true) (lost : m.rad.satLost = true) (on : radioOn m = true) (idle : m.rad.tx.active = false)
    (outside : ∃ c ∈ wakeGroup m, inBand m (chanOf m c) = false) :
    satListen m = modRad (bandMoved m) fun r => { r with listenUntil := max r.listenUntil (listenEnd m) } := by
  obtain ⟨c, mem, out⟩ := outside
  have all : ((wakeGroup m).all fun c => inBand m (chanOf m c)) = false := List.all_eq_false.mpr ⟨c, mem, by simp [out]⟩
  have off := dropReceptions_off m true
  have only := chirpOnly_bandMoved m
  have cfg : (bandMoved m).cfg = m.cfg := chirpOnly_cfg_eq only
  have now : (bandMoved m).now = m.now := chirpOnly_now_eq only
  have chans (c : Nat) : chanOf (bandMoved m) c = chanOf m c := by
    rw [chanOf, chanOf, bandMoved, modRad_rad, off.rad]
  unfold satListen
  simp only [sat, lost, on, idle, all, Bool.not_true, Bool.or_self, Bool.false_eq_true, if_false]
  rw [← bandMoved]
  simp only [listenEnd, cfgN_of_cfg cfg, now, chans]

theorem bandMoved_rad (m : Main) : (bandMoved m).rad =
    { m.rad with demods := (dropReceptions m true).rad.demods, quals := [], fLO := groupCentre m (wakeGroup m), gates := [] } := by
  rw [bandMoved, modRad_rad, (dropReceptions_off m true).rad]

/-! ## The statement -/

theorem noteOffset_frame (m : Main) (cfo : Int) (f : Partner → Partner) : isSat (noteOffset (modPt m n f) n cfo) = isSat m ∧
    (noteOffset (modPt m n f) n cfo).rad.satLost = m.rad.satLost := by
  obtain ⟨offsets, brn, noted, -⟩ := noteOffset_notes (modPt m n f) n cfo
  rw [noted]
  exact ⟨rfl, rfl⟩

/-- A CHECKIN at a hub is a contact. -/
theorem rxFrame_checkin {d : Fin 8} {y : Demod} {fc ctr : Nat} {info : RxMeta} {body : List Byte} (type : fc % 8 = 4) (hub : isSat m = false) :
    rxFrame m n d y fc ctr info body = ackOwed (contact (frameNoted m n y fc ctr info) n y body) n y fc ctr info := by
  unfold rxFrame
  rw [type]
  simp [ackOwed, frameNoted, type, noteOffset_frame, hub]

/-- A lost satellite that hears a WAKE checks in. -/
def satWoken (m : Main) : Main :=
  modRad m fun r => { r with satLost := false, satMissed := 0, satDue := true, satWake := true, satCopies := 0 }

theorem rxFrame_wake {d : Fin 8} {y : Demod} {fc ctr : Nat} {info : RxMeta} {body : List Byte} (type : fc % 8 = 3) (sat : isSat m = true)
    (lost : m.rad.satLost = true) :
    rxFrame m n d y fc ctr info body = ackOwed (satWoken (frameNoted m n y fc ctr info)) n y fc ctr info := by
  unfold rxFrame
  rw [type]
  simp [ackOwed, frameNoted, type, noteOffset_frame, sat, lost, satWoken]

/-! ## Calls (R432) -/

/-- A change of a partner is what it makes of that partner. -/
theorem modPt_congr {f g : Partner → Partner} (same : f m.pts[n] = g m.pts[n]) : modPt m n f = modPt m n g := by
  simp only [modPt, updV, same]

theorem ackExpiry_call {c : Nat} (wait : m.rad.ackWait = some (.wake n, c)) : ackExpiry m = callFailed (waitOver m) n := by
  rw [ackExpiry, wait]
  rfl

theorem callFailed_again (calls : (m.pts[n]).state = 3) (left : (m.pts[n]).calls + 1 < cfgN m 0x4100 0x0D) : callFailed m n =
    modRad (modPt m n fun p => { p with calls := (m.pts[n]).calls + 1 }) fun r => { r with callDue := r.callDue ++ [n] } := by
  rw [callFailed, if_neg (by rw [calls]; decide)]
  exact if_pos left

theorem callFailed_gives (calls : (m.pts[n]).state = 3) (most : cfgN m 0x4100 0x0D ≤ (m.pts[n]).calls + 1) : callFailed m n =
    partnerEvent (modPt m n fun p => { p with state := 2, calls := 0 }) n 3 := by
  rw [callFailed, if_neg (by rw [calls]; decide)]
  exact if_neg (Nat.not_lt.mpr most)

theorem answers_miss (running : n ∈ s.m.rad.guard) (window : (s.m.pts[n]).window = true)
    (left : (s.m.pts[n]).misses + 1 < cfgN s.m 0x4100 0x09) : answers (.guardWindowClose n) s fun t =>
      n ∉ t.m.rad.guard ∧ (t.m.pts[n]).misses = min 255 ((s.m.pts[n]).misses + 1) ∧
      (t.m.pts[n]).state = (s.m.pts[n]).state ∧ (t.m.pts[n]).rdv = (s.m.pts[n]).rdv + 1 ∧
      (t.m.pts[n]).expected = (s.m.pts[n]).expected + (s.m.pts[n]).interval * tickS ∧ (∀ i : Fin 256, i ≠ n → t.m.pts[i] = s.m.pts[i]) ∧
      counter t.m 0x70F0 0x0A = sat32 (counter s.m 0x70F0 0x0A + 1) ∧ mainOnly s t ∧ chirpOnly s.m t.m := by
  refine answers_of_onMain (f := fun m => guardClose m n) rfl ?_
  rw [guardClose_waits running window left]
  refine ⟨?_, ?_, ?_, ?_, ?_, fun i other => guardMissed_other other, counter_count_same .., mainOnly_m _ _, chirpOnly_guardMissed⟩
  · rw [guardMissed_rad]
    exact not_mem_guardShut s.m n
  all_goals
    rw [guardMissed_own]
    rfl

theorem answers_loses (running : n ∈ s.m.rad.guard) (window : (s.m.pts[n]).window = true)
    (most : cfgN s.m 0x4100 0x09 ≤ (s.m.pts[n]).misses + 1) (ctl : ctlOn s.m = true) (room : roomFor s.m (s.m.pts[n]).rxQueue 2) :
    answers (.guardWindowClose n) s fun t =>
      n ∉ t.m.rad.guard ∧ (t.m.pts[n]).state = 2 ∧ (∀ i : Fin 256, i ≠ n → t.m.pts[i] = s.m.pts[i]) ∧
      counter t.m 0x70F0 0x0B = sat32 (counter s.m 0x70F0 0x0B + 1) ∧
      delivered t.m (s.m.pts[n]).rxQueue 0x33 0x03 [word (place 0 8 n.val + place 8 8 1), word (rfSeconds s.m)] ∧ mainOnly s t ∧ chirpOnly s.m t.m := by
  refine answers_of_onMain (f := fun m => guardClose m n) rfl ?_
  rw [guardClose_loses running window most]
  have told := toldOnly_event (guardMissed s.m n fun p => { p.missed with state := 2 }) n 1 (sub := 0x0B) (by decide)
  have own : (count (guardMissed s.m n fun p => { p.missed with state := 2 }) 0x70F0 0x0B).pts[n] = { (s.m.pts[n]).missed with state := 2 } := by
    rw [count_pts, guardMissed_own]
  have only := chirpOnly_trans (chirpOnly_guardMissed (m := s.m) (n := n) (f := fun p => { p.missed with state := 2 }))
    (chirpOnly_count _ 0x70F0 0x0B)
  refine ⟨?_, ?_, fun i other => ?_, ?_, ?_, mainOnly_m _ _, chirpOnly_trans chirpOnly_guardMissed told.only⟩
  · rw [told.rad, guardMissed_rad]
    exact not_mem_guardShut s.m n
  · rw [told.pts, guardMissed_own]
  · rw [told.pts, guardMissed_other other]
  · refine ((tallyKept_radioOut ..).stands _ _ (by decide)).trans ?_
    rw [counter_count_same, guardMissed_counter (by decide)]
  · have room : roomFor (count (guardMissed s.m n fun p => { p.missed with state := 2 }) 0x70F0 0x0B) (s.m.pts[n]).rxQueue 2 :=
      roomFor_of_pool room (by rw [count_pool, guardMissed, modPt_pool, count_pool]; rfl)
    have sent := radioOut_delivers (n := n) (type := 0x33)
      (ws := [word (place 0 8 n.val + place 8 8 1), word (rfSeconds (count (guardMissed s.m n fun p => { p.missed with state := 2 }) 0x70F0 0x0B))])
      (by rw [ctlOn, chirpOnly_pw_eq only]; exact ctl) (by rw [own]; exact room)
    rw [own] at sent
    rw [← rfSeconds_of_chirp only]
    exact sent

section Frames

variable {d : Fin 8} {symbols : List Nat} {payload : List Byte} {info : RxMeta} {key : BitVec 128}

theorem answers_contact (heard : macHeard s d symbols payload n key) (good : macGood s payload key) (type : (nth payload 0 0).toNat % 8 = 4)
    (hub : isSat s.m = false) : answers (.demodPayloadEnd d symbols info) s fun t =>
      (t.m.pts[n]).state = 1 ∧ (t.m.pts[n]).misses = 0 ∧ (t.m.pts[n]).calls = 0 ∧ (t.m.pts[n]).lastContact = rfSeconds s.m ∧
      (t.m.pts[n]).rxCtr = macCtr payload ∧ n ∉ t.m.rad.callDue ∧ (∀ i : Fin 256, i ≠ n → t.m.pts[i] = s.m.pts[i]) ∧
      counter t.m 0x70F0 0x09 = sat32 (counter s.m 0x70F0 0x09 + 1) ∧ mainOnly s t ∧ frameOnly s.m t.m := by
  have noted := afterFrame_noted s d payload info n key
  have kept := frameHeard_kept s d payload info n key
  have hears : isSat (modDemod (frameHeard s d payload info n key) d fun y => { y with st := 0, space := none }) = false := by
    rw [← hub, isSat, isSat, cfgN_of_cfg (chirpOnly_cfg_eq (chirpOnly_trans kept.only (chirpOnly_modDemod ..)))]
  refine ⟨_, congrArg Host.Outcome.next ((demodPayloadEnd_good heard good).trans (by rw [rxFrame_checkin type hears])), ?_⟩
  rw [show frameNoted (modDemod (frameHeard s d payload info n key) d fun y => { y with st := 0, space := none }) n s.m.rad.demods[d]
    (nth payload 0 0).toNat (macCtr payload) info = afterFrame s d payload info n key from rfl]
  generalize afterFrame s d payload info n key = b at noted
  have made := contact_made b n s.m.rad.demods[d] (macText key (!isSat s.m) payload)
  generalize contact b n s.m.rad.demods[d] (macText key (!isSat s.m) payload) = x at made
  refine ⟨?_, ?_, ?_, ?_, ?_, ?_, fun i other => ?_, ?_, mainOnly_m _ _, frameOnly_trans noted.only (chirpOnly_trans made.only (chirpOnly_ackOwed ..))⟩
  · rw [ackOwed_pts, made.state]
  · rw [ackOwed_pts, made.misses]
  · rw [ackOwed_pts, made.calls]
  · obtain ⟨-, -, now, pw⟩ := frameOnly_same noted.only
    rw [ackOwed_pts, made.last, rfSeconds, rfSeconds, aoSeconds, aoSeconds, now, pw]
  · rw [ackOwed_pts, made.rxCtr, noted.rxCtr]
  · rw [ackOwed_rad]
    exact made.calm
  · rw [ackOwed_pts, made.others i other, noted.others i other]
  · rw [ackOwed_counter, made.tally, noted.tally _ _ (by decide) (by decide)]

theorem answers_woken (heard : macHeard s d symbols payload n key) (good : macGood s payload key) (type : (nth payload 0 0).toNat % 16 = 3)
    (sat : isSat s.m = true) (lost : s.m.rad.satLost = true) : answers (.demodPayloadEnd d symbols info) s fun t =>
      t.m.rad.satLost = false ∧ t.m.rad.satMissed = 0 ∧ t.m.rad.satDue = true ∧ t.m.rad.satWake = true ∧ mainOnly s t ∧ frameOnly s.m t.m := by
  have noted := afterFrame_noted s d payload info n key
  have kept := frameHeard_kept s d payload info n key
  have hears : isSat (modDemod (frameHeard s d payload info n key) d fun y => { y with st := 0, space := none }) = true := by
    rw [← sat, isSat, isSat, cfgN_of_cfg (chirpOnly_cfg_eq (chirpOnly_trans kept.only (chirpOnly_modDemod ..)))]
  have away : (modDemod (frameHeard s d payload info n key) d fun y => { y with st := 0, space := none }).rad.satLost = true := by
    exact (congrArg Radio.satLost kept.rad).trans lost
  have kind : (nth payload 0 0).toNat % 8 = 3 := by omega
  have silent : bitAt (nth payload 0 0).toNat 3 = false := by
    rw [bitAt]
    exact decide_eq_false (by omega)
  refine ⟨_, congrArg Host.Outcome.next ((demodPayloadEnd_good heard good).trans (by rw [rxFrame_wake kind hears away, ackOwed_none silent])), ?_⟩
  exact ⟨rfl, rfl, rfl, rfl, mainOnly_m _ _, frameOnly_trans noted.only rfl⟩

end Frames

theorem sleepingPartners : Obligations.SleepingPartners := by
  unfold Obligations.SleepingPartners
  refine ⟨?checkin, ?missed, ?hub, ?opens, ?noOpen, ?miss, ?loses, ?unseen, ?call, ?retry, ?noCall, ?again, ?fails, ?inside, ?outside, ?group,
    ?found, ?awake, ?noAwake, ?watch, ?noWatch, ?contact, ?woken⟩
  case checkin =>
    intro s sat known found on left
    show execSatCheckinDue s = _
    simp [execSatCheckinDue, onMain, sat, known, found, on, Nat.not_le.mpr left, -Fin.getElem_fin]
  case missed =>
    intro s sat known found on most
    show execSatCheckinDue s = _
    simp [execSatCheckinDue, onMain, sat, known, found, on, most, -Fin.getElem_fin]
  case hub =>
    intro s hub
    show execSatCheckinDue s = _
    simp [execSatCheckinDue, onMain, hub]
  case opens =>
    intro s n hub on active closed
    show execGuardWindowOpen n s = _
    simp [execGuardWindowOpen, onMain, hub, on, active, closed, -Fin.getElem_fin]
  case noOpen =>
    intro s n h
    show execGuardWindowOpen n s = _
    rcases h with h | h | h <;> simp [execGuardWindowOpen, onMain, h, -Fin.getElem_fin]
  case miss => exact fun s n => answers_miss
  case loses => exact fun s n => answers_loses
  case unseen =>
    intro s n closed
    refine exec_of_onMain (f := fun m => guardClose m n) rfl (guardClose_unseen closed)
  case call =>
    intro s n hub lost
    show execCallStart n s = _
    simp [execCallStart, onMain, callBegin, hub, lost, -Fin.getElem_fin]
  case retry =>
    intro s n hub lost
    show execCallRetryTimer n s = _
    simp [execCallRetryTimer, onMain, callBegin, hub, lost, -Fin.getElem_fin]
  case noCall =>
    intro s n h
    refine ⟨?_, ?_⟩
    · show execCallStart n s = _
      rcases h with h | h <;> simp [execCallStart, onMain, h, -Fin.getElem_fin]
    · show execCallRetryTimer n s = _
      rcases h with h | h <;> simp [execCallRetryTimer, onMain, h, -Fin.getElem_fin]
  case again =>
    intro s n c wait calls left
    refine exec_of_onMain (f := ackExpiry) rfl ?_
    rw [ackExpiry_call wait, callFailed_again (m := waitOver s.m) calls left]
    rw [modPt_congr (m := waitOver s.m) (g := fun p => { p with calls := p.calls + 1 }) rfl]
    rfl
  case fails =>
    intro s n c wait calls most
    refine answers_of_onMain (f := ackExpiry) rfl ?_
    rw [ackExpiry_call wait, callFailed_gives (m := waitOver s.m) calls most]
    have told := toldOnly_partnerEvent (modPt (waitOver s.m) n fun p => { p with state := 2, calls := 0 }) n 3
    refine ⟨?_, ?_, ?_, mainOnly_m _ _, chirpOnly_trans (b := modPt (waitOver s.m) n fun p => { p with state := 2, calls := 0 }) rfl told.only⟩
    · rw [told.rad]
      rfl
    · rw [told.pts, modPt_get, if_pos rfl]
    · rw [told.pts, modPt_get, if_pos rfl]
  case inside =>
    intro s ch u sat lost on idle plain own until_ inside
    refine exec_of_onMain (f := satListen) rfl ?_
    have group := wakeGroup_single plain
    subst own until_
    rw [satListen_inside sat lost on idle (by simpa [group] using inside), listenEnd, group]
    rfl
  case outside =>
    intro s ch u sat lost on idle plain own until_ outside
    refine answers_of_onMain (f := satListen) rfl ?_
    have group := wakeGroup_single plain
    subst own until_
    rw [satListen_outside sat lost on idle ⟨_, by rw [group]; exact List.mem_singleton_self _, outside⟩, modRad_rad, bandMoved_rad]
    refine ⟨?_, rfl, (dropReceptions_off s.m true).demods, ?_, mainOnly_m _ _, chirpOnly_trans (chirpOnly_bandMoved s.m) rfl⟩
    · dsimp only
      rw [groupCentre, group]
      simp only [List.headD_cons, List.getLastD_cons, List.getLastD_nil]
      omega
    · rw [listenEnd, group]
      rfl
  case group =>
    intro s sat lost on idle profile outside
    refine answers_of_onMain (f := satListen) rfl ?_
    rw [satListen_outside sat lost on idle outside, modRad_rad, bandMoved_rad]
    refine ⟨rfl, (dropReceptions_off s.m true).demods, lt_of_lt_of_le (lt_listenEnd s.m) (le_max_right ..), mainOnly_m _ _, ?_⟩
    exact chirpOnly_trans (chirpOnly_bandMoved s.m) rfl
  case found =>
    intro s found
    refine exec_of_onMain (f := satListen) rfl ?_
    simp [satListen, found]
  case awake =>
    intro s sat
    show execAwakeWindowExpiry s = _
    simp [execAwakeWindowExpiry, onMain, sat]
  case noAwake =>
    intro s hub
    show execAwakeWindowExpiry s = _
    simp [execAwakeWindowExpiry, onMain, hub]
  case watch =>
    intro s mode period
    show execWatchListenWindow s = _
    simp [execWatchListenWindow, onMain, mode, period]
  case noWatch =>
    intro s mode
    show execWatchListenWindow s = _
    simp [execWatchListenWindow, onMain, mode]
  case contact => exact fun s d symbols payload info n key => answers_contact
  case woken => exact fun s d symbols payload info n key => answers_woken

end Sys2Proof.Machine

end

section
/-!
What the lace port's operations leave (R530–R534): frames that go out, links that change, and members that are lost.
-/

namespace Sys2Proof.Machine

variable {a b c m : Main} {l : LaceLink}

/-! ## The frame of the lace port -/

theorem laceMain_refl (a : Main) : laceMain a a := rfl

theorem laceMain_trans (h : laceMain a b) (g : laceMain b c) : laceMain a c := by
  unfold laceMain airOnly readerOnly at *
  rw [g, h]

theorem laceMain_of_reader (h : readerOnly a b) : laceMain a b := by
  unfold laceMain airOnly readerOnly at *
  rw [h]

theorem laceMain_of_pool (h : poolOnly a b) : laceMain a b := laceMain_of_reader (readerOnly_of_pool h)

theorem laceMain_modLace (m : Main) (f : Lace → Lace) : laceMain m (modLace m f) := rfl
theorem laceMain_modPh (m : Main) (f : Phase → Phase) : laceMain m (modPh m f) := rfl
theorem laceMain_modDict (m : Main) (f : Dict → Dict) : laceMain m (modDict m f) := rfl
theorem laceMain_draw (m : Main) : laceMain m (draw m).2 := rfl
theorem laceMain_count (m : Main) (idx sub : Nat) : laceMain m (count m idx sub) := laceMain_of_pool (poolOnly_count ..)
theorem laceMain_countN (m : Main) (idx sub n : Nat) : laceMain m (countN m idx sub n) := laceMain_of_pool (poolOnly_countN ..)

theorem laceMain_modLink (m : Main) (l : LaceLink) (f : Link → Link) : laceMain m (modLink m l f) := by
  cases l <;> rfl

/-! ## Links -/

theorem linkOf_modLink_same (m : Main) (l : LaceLink) (f : Link → Link) : linkOf (modLink m l f) l = f (linkOf m l) := by
  cases l <;> rfl

theorem linkOf_modLink_other (m : Main) (l : LaceLink) (f : Link → Link) : linkOf (modLink m l f) (otherLink l) = linkOf m (otherLink l) := by
  cases l <;> rfl

/-- A change of a link leaves all but the links. -/
theorem modLink_lace (m : Main) (l : LaceLink) (f : Link → Link) : (modLink m l f).lace =
    { m.lace with linkA := (modLink m l f).lace.linkA, linkB := (modLink m l f).lace.linkB } := by
  cases l <;> rfl

theorem modLink_flt (m : Main) (l : LaceLink) (f : Link → Link) : (modLink m l f).flt = m.flt := by
  cases l <;> rfl

theorem modLink_pool (m : Main) (l : LaceLink) (f : Link → Link) : (modLink m l f).pool = m.pool := by
  cases l <;> rfl

theorem modLink_pw (m : Main) (l : LaceLink) (f : Link → Link) : (modLink m l f).pw = m.pw := by
  cases l <;> rfl

theorem modLink_now (m : Main) (l : LaceLink) (f : Link → Link) : (modLink m l f).now = m.now := by
  cases l <;> rfl

theorem modLink_sch (m : Main) (l : LaceLink) (f : Link → Link) : (modLink m l f).sch = m.sch := by
  cases l <;> rfl

theorem modLink_cfg (m : Main) (l : LaceLink) (f : Link → Link) : (modLink m l f).cfg = m.cfg := by
  cases l <;> rfl

theorem linkOf_modLace_state (m : Main) (f : Lace → Lace) (keeps : ∀ x, (f x).linkA = x.linkA ∧ (f x).linkB = x.linkB) (l : LaceLink) :
    linkOf (modLace m f) l = linkOf m l := by
  cases l
  · exact (keeps m.lace).1
  · exact (keeps m.lace).2

theorem modLink_congr {f g : Link → Link} (same : f (linkOf m l) = g (linkOf m l)) : modLink m l f = modLink m l g := by
  cases l <;> simp only [linkOf] at same <;> simp only [modLink, modLace, same]

theorem linkOf_of_lace (h : b.lace = a.lace) (l : LaceLink) : linkOf b l = linkOf a l := by
  cases l <;> simp only [linkOf, h]

theorem counter_of_flt (h : b.flt = a.flt) (idx sub : Nat) : counter b idx sub = counter a idx sub := by
  rw [counter, counter, h]

theorem counter_modLink (f : Link → Link) (idx sub : Nat) : counter (modLink m l f) idx sub = counter m idx sub := counter_of_flt (modLink_flt ..) idx sub

theorem counter_count_other {idx sub i j : Nat} (other : ekey idx sub ≠ ekey i j) : counter (count m i j) idx sub = counter m idx sub :=
  counter_countN_other 1 other

/-! ## Frames and journal entries that go out -/

/-- Frames and journal entries have gone out; nothing else. -/
structure laceTold (a b : Main) : Prop where
  lace  : b.lace = { a.lace with
    linkA := { a.lace.linkA with nextSeq := b.lace.linkA.nextSeq, unacked := b.lace.linkA.unacked }
    linkB := { a.lace.linkB with nextSeq := b.lace.linkB.nextSeq, unacked := b.lace.linkB.unacked }
    eseqOut := b.lace.eseqOut }
  tally : ∀ idx sub, ekey idx sub ∉ poolCounters → ekey idx sub ≠ ekey 0x70F8 0x01 → counter b idx sub = counter a idx sub
  only  : b = { a with lace := b.lace, pool := b.pool, cus := b.cus, flt := b.flt, freeCtr := b.freeCtr }

theorem laceTold_refl (a : Main) : laceTold a a := ⟨rfl, fun _ _ _ _ => rfl, rfl⟩

theorem laceTold_trans (h : laceTold a b) (g : laceTold b c) : laceTold a c := by
  refine ⟨?_, fun idx sub own sent => (g.tally idx sub own sent).trans (h.tally idx sub own sent), ?_⟩
  · rw [g.lace, h.lace]
  · have x := h.only
    have y := g.only
    rw [y, x]

theorem laceTold_of_pool (only : poolOnly a b) (tally : tallyKept a b) : laceTold a b := by
  refine ⟨?_, fun idx sub own _ => tally.stands idx sub own, ?_⟩
  · rw [poolOnly_lace_eq only]
  · unfold poolOnly at only
    rw [only]

theorem laceTold_journal (m : Main) (src code : Nat) (args : List Nat) : laceTold m (journal m src code args) :=
  laceTold_of_pool (poolOnly_journal ..) (tallyKept_journal ..)

theorem laceTold_linkSend (m : Main) (l : LaceLink) (w0 eseq : Nat) (payload : List Word) : laceTold m (linkSend m l w0 eseq payload) := by
  have lace : (count m 0x70F8 0x01).lace = m.lace := count_lace ..
  have counted := poolOnly_count m 0x70F8 0x01
  unfold poolOnly at counted
  cases l
  all_goals
    refine ⟨?_, fun idx sub _ sent => counter_count_other sent, ?_⟩
    · simp only [linkSend, modLace_lace, lace]
    · simp only [linkSend, modLace]
      rw [counted]

theorem laceTold_forEach {α : Type} (xs : List α) (f : Main → α → Main) (h : ∀ x i, laceTold x (f x i)) : laceTold m (forEach xs m f) := by
  induction xs generalizing m with
  | nil =>
    rw [forEach_nil]
    exact laceTold_refl m
  | cons i rest ih =>
    rw [forEach_cons]
    exact laceTold_trans (h m i) ih

theorem laceTold_laceSend (m : Main) (type : Nat) (dst : Option (Fin 4)) (payload : List Word) : laceTold m (laceSend m type dst payload) := by
  have numbered (f : Lace → Lace) (same : ∀ x, f x = { x with eseqOut := (f x).eseqOut }) : laceTold m (modLace m f) := by
    refine ⟨?_, fun _ _ _ _ => rfl, rfl⟩
    rw [modLace_lace, same]
  unfold laceSend
  dsimp only
  split
  · exact laceTold_refl m
  · split
    · exact laceTold_refl m
    · split
      · exact laceTold_trans (numbered _ fun _ => rfl) (laceTold_trans (laceTold_linkSend ..) (laceTold_linkSend ..))
      · exact laceTold_trans (numbered _ fun _ => rfl) (laceTold_linkSend ..)

theorem laceTold_passDiscover (m : Main) (l : LaceLink) (hops : Nat) (byLead : Bool) : laceTold m (passDiscover m l hops byLead) := by
  unfold passDiscover
  dsimp only
  split
  · exact laceTold_linkSend ..
  · exact laceTold_refl m

theorem laceTold_sendDiscover (m : Main) (l : LaceLink) : laceTold m (sendDiscover m l) := laceTold_passDiscover ..

theorem laceTold_sendTick (m : Main) : laceTold m (sendTick m) := by
  unfold sendTick
  split
  · exact laceTold_laceSend ..
  · exact laceTold_refl m

theorem laceTold_draw (m : Main) : laceTold m (draw m).2 := ⟨rfl, fun _ _ _ _ => rfl, rfl⟩

theorem laceTold_sendAlign (m : Main) : laceTold m (sendAlign m) := by
  unfold sendAlign
  split
  · exact laceTold_trans (laceTold_draw m) (laceTold_laceSend ..)
  · exact laceTold_refl m

section Told

variable (h : laceTold a b)

include h

theorem laceTold_main : laceMain a b := by
  rw [h.only]
  rfl

theorem laceTold_link (l : LaceLink) : linkOf b l = { linkOf a l with nextSeq := (linkOf b l).nextSeq, unacked := (linkOf b l).unacked } := by
  cases l
  · show b.lace.linkA = { a.lace.linkA with nextSeq := b.lace.linkA.nextSeq, unacked := b.lace.linkA.unacked }
    rw [h.lace]
  · show b.lace.linkB = { a.lace.linkB with nextSeq := b.lace.linkB.nextSeq, unacked := b.lace.linkB.unacked }
    rw [h.lace]

theorem laceTold_up (l : LaceLink) : (linkOf b l).up = (linkOf a l).up := by rw [laceTold_link h]
theorem laceTold_state : b.lace.state = a.lace.state := by rw [h.lace]
theorem laceTold_role : b.lace.role = a.lace.role := by rw [h.lace]
theorem laceTold_device : b.lace.device = a.lace.device := by rw [h.lace]
theorem laceTold_members : b.lace.members = a.lace.members := by rw [h.lace]
theorem laceTold_size : b.lace.size = a.lace.size := by rw [h.lace]

theorem laceTold_has (d : Nat) : laceHas b d = laceHas a d := by rw [laceHas, laceHas, laceTold_members h]

theorem laceTold_cfg : b.cfg = a.cfg := by rw [h.only]
theorem laceTold_pw : b.pw = a.pw := by rw [h.only]
theorem laceTold_sch : b.sch = a.sch := by rw [h.only]

end Told

/-! ## Formation (R534) -/

/-- The lace as it stands once formed. -/
def Lace.formed (x : Lace) (st : Nat) (members : BitVec 4) : Lace :=
  { x with state := st, members := members, size := max x.size (membersIn members).length, wasRing := x.wasRing || st == 2 }

/-- What has formed is told. -/
theorem laceFormed_told (m : Main) (st : Nat) (members : BitVec 4) : laceTold (modLace m fun x => x.formed st members) (laceFormed m st members) := by
  unfold laceFormed
  dsimp only
  refine laceTold_trans ?_ (laceTold_trans (laceTold_sendTick _) (laceTold_sendAlign _))
  split
  · exact laceTold_trans (laceTold_journal _ srcLace 0x9001 [st, members.toNat]) (laceTold_journal ..)
  · exact laceTold_journal _ srcLace 0x9001 [st, members.toNat]

theorem laceMain_laceFormed (m : Main) (st : Nat) (members : BitVec 4) : laceMain m (laceFormed m st members) :=
  laceMain_trans (laceMain_modLace m _) (laceTold_main (laceFormed_told ..))

theorem laceFormed_lace (m : Main) (st : Nat) (members : BitVec 4) : (laceFormed m st members).lace.state = st ∧
    (laceFormed m st members).lace.members = members ∧ (laceFormed m st members).lace.size = max m.lace.size (membersIn members).length := by
  have told := laceFormed_told m st members
  exact ⟨laceTold_state told, laceTold_members told, laceTold_size told⟩

/-! ## Sets of devices -/

theorem foldl_deviceSet_getLsbD (ds : List Nat) (s : BitVec 4) {d : Nat} (small : d < 4) :
    (ds.foldl (fun s d => s ||| BitVec.ofNat 4 (2 ^ d)) s).getLsbD d = (s.getLsbD d || decide (d ∈ ds)) := by
  induction ds generalizing s with
  | nil => simp
  | cons x rest ih =>
    rw [List.foldl_cons, ih]
    have one : (BitVec.ofNat 4 (2 ^ x)).getLsbD d = decide (d = x) := by
      rw [BitVec.getLsbD_ofNat, Nat.testBit_two_pow]
      simp [small, eq_comm]
    rw [BitVec.getLsbD_or, one, Bool.or_assoc]
    by_cases same : d = x <;> simp [same]

theorem deviceSet_testBit (ds : List Nat) {d : Nat} (small : d < 4) : (deviceSet ds).toNat.testBit d = decide (d ∈ ds) := by
  rw [BitVec.testBit_toNat, deviceSet, foldl_deviceSet_getLsbD ds 0 small]
  simp

theorem mem_membersIn {s : BitVec 4} {d : Fin 4} : d ∈ membersIn s ↔ s.toNat.testBit d.val = true := by
  simp [membersIn, allFin]

theorem testBit_or_deviceSet (s : BitVec 4) (ds : List Nat) {d : Nat} (small : d < 4) :
    (s ||| deviceSet ds).toNat.testBit d = (s.toNat.testBit d || decide (d ∈ ds)) := by
  rw [BitVec.toNat_or, Nat.testBit_or, deviceSet_testBit ds small]

theorem testBit_sub_deviceSet (s : BitVec 4) (ds : List Nat) {d : Nat} (small : d < 4) :
    (s &&& ~~~(deviceSet ds)).toNat.testBit d = (s.toNat.testBit d && !decide (d ∈ ds)) := by
  have own := deviceSet_testBit ds small
  rw [BitVec.testBit_toNat] at own ⊢
  rw [BitVec.getLsbD_and, BitVec.getLsbD_not, own, BitVec.testBit_toNat]
  simp [small]

/-- A set that names the devices up to one counts them. -/
theorem lt_membersIn_length : ∀ (s : BitVec 4) (n : Fin 4), (∀ d : Fin 4, d.val ≤ n.val → s.toNat.testBit d.val = true) →
    n.val + 1 ≤ (membersIn s).length := by
  decide

/-! ## Members that are lost (R541, R543, R545) -/

/-- The lace without the members that are lost. -/
def laceWithout (m : Main) (gone : List (Fin 4)) : Main :=
  let lost (d : Fin 4) : Bool := gone.contains d
  modLace (countN m 0x70F8 0x0C (m.lace.away.filter fun x => lost x.1).length) fun l =>
    { l with
      members := l.members &&& ~~~(deviceSet (gone.map (·.val))), away := l.away.filter fun x => !lost x.1
      edge := l.edge.filter fun f => !lost (finOf 4 (f.gport.val / 128)), claims := l.claims.filter fun x => !lost x.1
      holding := l.holding.filter fun x => !lost x.1
      claimed := l.claimed.filter fun x => !(x.2.any lost) }

theorem laceLose_eq (m : Main) (gone : List (Fin 4)) : laceLose m gone = evaluate (releaseGaps (laceWithout m gone)) := rfl

theorem laceMain_laceLose (m : Main) (gone : List (Fin 4)) : laceMain m (laceLose m gone) := by
  rw [laceLose_eq]
  refine laceMain_trans (b := laceWithout m gone) ?_ (laceMain_of_reader (readerOnly_trans (readerOnly_releaseGaps _) (readerOnly_evaluate _)))
  exact laceMain_trans (laceMain_countN ..) (laceMain_modLace _ _)

/-- Requests open no gap, and a gap opens no request. -/
structure gapsOnly (a b : Main) : Prop where
  sch  : b.sch = a.sch
  lace : b.lace = a.lace
  flt  : b.flt = a.flt

theorem releaseGaps_only (m : Main) : gapsOnly m (releaseGaps m) := by
  unfold releaseGaps
  refine ⟨forEach_keeps Main.sch _ (fun x k => ?_) _ _, forEach_keeps Main.lace _ (fun x k => ?_) _ _, forEach_keeps Main.flt _ (fun x k => ?_) _ _⟩
  all_goals
    split
    · split <;> rfl
    · rfl

/-- While no request waits, the members are lost and nothing else happens. -/
theorem laceLose_idle {gone : List (Fin 4)} (idle : m.sch.reqs = []) : (laceLose m gone).lace = (laceWithout m gone).lace ∧
    (laceLose m gone).flt = (laceWithout m gone).flt := by
  have gaps := releaseGaps_only (laceWithout m gone)
  have none : (releaseGaps (laceWithout m gone)).sch.reqs = [] := by
    rw [gaps.sch, laceWithout, modLace_sch, countN_sch]
    exact idle
  rw [laceLose_eq, evaluate_none none]
  exact ⟨gaps.lace, gaps.flt⟩

theorem laceWithout_lace (m : Main) (gone : List (Fin 4)) : (laceWithout m gone).lace.state = m.lace.state ∧
    (laceWithout m gone).lace.departed = m.lace.departed ∧ (laceWithout m gone).lace.linkA = m.lace.linkA ∧
    (laceWithout m gone).lace.linkB = m.lace.linkB ∧ (laceWithout m gone).lace.device = m.lace.device ∧
    (laceWithout m gone).lace.members = m.lace.members &&& ~~~(deviceSet (gone.map (·.val))) := by
  have lace := countN_lace m 0x70F8 0x0C (m.lace.away.filter fun x => gone.contains x.1).length
  unfold laceWithout
  dsimp only
  rw [modLace_lace, lace]
  exact ⟨rfl, rfl, rfl, rfl, rfl, rfl⟩

end Sys2Proof.Machine

end

section
/-!
Proofs of the statement on links and formation of the lace (R529, R530, R534, R545, R546): training, loss and retransmission of links, formation as a
ring or a chain, and departure.
-/

namespace Sys2Proof.Machine

variable {s : State} {m : Main} {l : LaceLink}

/-! ## A link that goes down (R530, R534) -/

theorem linkOf_linkSend_same (m : Main) (l : LaceLink) (w0 eseq : Nat) (payload : List Word) :
    (linkOf (linkSend m l w0 eseq payload) l).unacked.length = (linkOf m l).unacked.length + 1 := by
  cases l <;> simp [linkSend, linkOf]

theorem linkOf_linkSend_other (m : Main) (l : LaceLink) (w0 eseq : Nat) (payload : List Word) :
    linkOf (linkSend m (otherLink l) w0 eseq payload) l = linkOf m l := by
  cases l <;> simp [linkSend, linkOf, otherLink]

/-- A link is down and has nothing to deliver. -/
def linkCut (m : Main) (l : LaceLink) : Main := modLink m l fun k => { k with up := false, unacked := [] }

/-- A frame that a link had not delivered goes out by the other one. -/
def resend (l : LaceLink) (m : Main) (f : SentFrame) : Main :=
  linkSend m (otherLink l) (nth f.words 0 0).toNat ((nth f.words 1 0).toNat % 65536) (lacePayload f.words)

theorem reroute_eq (m : Main) (l : LaceLink) : reroute m l =
    if (linkOf m (otherLink l)).up then forEach (linkOf m l).unacked (linkCut m l) (resend l) else linkCut m l := by
  unfold reroute
  dsimp only
  rw [linkOf_modLink_other]
  rfl

theorem reroute_told (m : Main) (l : LaceLink) : laceTold (linkCut m l) (reroute m l) := by
  rw [reroute_eq]
  split
  · exact laceTold_forEach _ _ fun x f => laceTold_linkSend ..
  · exact laceTold_refl _

theorem reroute_own (m : Main) (l : LaceLink) : linkOf (reroute m l) l = { linkOf m l with up := false, unacked := [] } := by
  have cut := linkOf_modLink_same m l fun k => { k with up := false, unacked := [] }
  rw [reroute_eq]
  split
  · exact (forEach_keeps (linkOf · l) (resend l) (fun x f => linkOf_linkSend_other ..) _ _).trans cut
  · exact cut

theorem resends_length (l : LaceLink) (fs : List SentFrame) (m : Main) :
    (linkOf (forEach fs m (resend l)) (otherLink l)).unacked.length = (linkOf m (otherLink l)).unacked.length + fs.length := by
  induction fs generalizing m with
  | nil =>
    rw [forEach_nil]
    rfl
  | cons f rest ih =>
    rw [forEach_cons, ih, resend, linkOf_linkSend_same, List.length_cons]
    omega

theorem reroute_other (m : Main) (l : LaceLink) : (linkOf (reroute m l) (otherLink l)).unacked.length =
    (linkOf m (otherLink l)).unacked.length + (if (linkOf m (otherLink l)).up then (linkOf m l).unacked.length else 0) := by
  have cut : linkOf (linkCut m l) (otherLink l) = linkOf m (otherLink l) := linkOf_modLink_other ..
  rw [reroute_eq]
  split
  · rw [resends_length, cut]
  · rw [cut]
    rfl

theorem laceMain_reroute (m : Main) (l : LaceLink) : laceMain m (reroute m l) :=
  laceMain_trans (laceMain_modLink m l _) (laceTold_main (reroute_told m l))

/-- Rerouting leaves all of the lace but its links and its count of frames. -/
theorem reroute_lace (m : Main) (l : LaceLink) : (reroute m l).lace =
    { m.lace with linkA := (reroute m l).lace.linkA, linkB := (reroute m l).lace.linkB, eseqOut := (reroute m l).lace.eseqOut } := by
  have lace := (reroute_told m l).lace
  rw [linkCut, modLink_lace] at lace
  generalize reroute m l = b at lace
  rw [lace]

theorem counter_reroute {idx sub : Nat} (own : ekey idx sub ∉ poolCounters) (sent : ekey idx sub ≠ ekey 0x70F8 0x01) :
    counter (reroute m l) idx sub = counter m idx sub :=
  ((reroute_told m l).tally idx sub own sent).trans (counter_modLink ..)

theorem reroute_sch (m : Main) (l : LaceLink) : (reroute m l).sch = m.sch := by
  rw [laceTold_sch (reroute_told m l), linkCut, modLink_sch]

/-- The lace counts a frame. -/
theorem linkOf_count (m : Main) (idx sub : Nat) (l : LaceLink) : linkOf (count m idx sub) l = linkOf m l := linkOf_of_lace (count_lace ..) l

/-- The ring breaks into a chain. -/
def ringBroken (m : Main) (l : LaceLink) : Main :=
  modLace (count (reroute (count m 0x70F8 0x05) l) 0x70F8 0x06) fun x =>
    { x with state := 3, sideB := if l == .a then ~~~(deviceSet [x.device.val]) else 0 }

theorem linkOf_ringBroken (m : Main) (l k : LaceLink) : linkOf (ringBroken m l) k = linkOf (reroute (count m 0x70F8 0x05) l) k := by
  refine Eq.trans ?_ (linkOf_count _ 0x70F8 0x06 k)
  cases k <;> rfl

theorem laceMain_ringBroken (m : Main) (l : LaceLink) : laceMain m (ringBroken m l) :=
  laceMain_trans (laceMain_count m 0x70F8 0x05) (laceMain_trans (laceMain_reroute _ l)
    (laceMain_trans (laceMain_count _ 0x70F8 0x06) (laceMain_modLace _ _)))

theorem linkFall_ring (up : (linkOf m l).up = true) (ring : m.lace.state = 2) :
    linkFall m l = journal (ringBroken m l) srcLace 0x9002 [bitN (l == .b)] := by
  have state : (reroute (count m 0x70F8 0x05) l).lace.state = 2 := by rw [reroute_lace, count_lace, ring]
  rw [linkFall, if_neg (by simp [up])]
  exact if_pos state

/-- A chain loses what lies beyond the link (R545). -/
theorem linkFall_chain (up : (linkOf m l).up = true) (chain : m.lace.state = 3) : linkFall m l =
    laceSplit (reroute (count m 0x70F8 0x05) l) (sideOf (reroute (count m 0x70F8 0x05) l) l) := by
  have state : (reroute (count m 0x70F8 0x05) l).lace.state = 3 := by rw [reroute_lace, count_lace, chain]
  rw [linkFall, if_neg (by simp [up])]
  dsimp only
  rw [if_neg (by rw [state]; decide), if_pos (by simp [state])]

/-! ## Training (R529) -/

/-- The link as it is once trained at a rate. -/
def linkTrainedAt (m : Main) (l : LaceLink) (r latency : Nat) : Main :=
  modLink (countN m 0x70F8 0x0F (r - cfgN m 0x7800 0x06)) l fun _ => { up := true, rate := r, latency := latency % 65536 }

/-- The lace forms, or grows, with a link that has trained. -/
def laceGrows (m : Main) (l : LaceLink) : Main :=
  if m.lace.state = 0 then laceForm m
  else if m.lace.state = 1 then sendDiscover m l
  else sendDiscover (sendDiscover m .a) .b

/-- The lace as formation starts. -/
def Lace.begun (x : Lace) (follower : Bool) : Lace :=
  { x with
    state := 1, role := if follower then 2 else 1, size := 1, device := if follower then x.device else 0
    members := deviceSet [if follower then x.device.val else 0], sideB := 0, aligned := false, alignAt := none, wasRing := false, foundA := 0, foundB := 0
    departed := 0, eseqOut := [0, 0, 0, 0, 0], eseqIn := [0, 0, 0, 0, 0, 0, 0, 0] }

theorem laceForm_told (m : Main) : laceTold (modLace m fun x => x.begun m.pw.follower) (laceForm m) :=
  laceTold_trans (laceTold_sendDiscover ..) (laceTold_sendDiscover ..)

/-- What the growth of a lace leaves. -/
structure grown (a b : Main) : Prop where
  up      : ∀ l, (linkOf b l).up = (linkOf a l).up
  rate    : ∀ l, (linkOf b l).rate = (linkOf a l).rate
  latency : ∀ l, (linkOf b l).latency = (linkOf a l).latency
  state   : b.lace.state = if a.lace.state = 0 then 1 else a.lace.state
  role    : a.lace.state = 0 → b.lace.role = if a.pw.follower then 2 else 1
  counts  : counter b 0x70F8 0x0F = counter a 0x70F8 0x0F
  only    : laceMain a b

theorem grown_of_told {a b : Main} (told : laceTold a b) (formed : a.lace.state ≠ 0) : grown a b := by
  refine ⟨fun l => laceTold_up told l, fun l => by rw [laceTold_link told], fun l => by rw [laceTold_link told], ?_, fun none => absurd none formed,
    told.tally _ _ (by decide) (by decide), laceTold_main told⟩
  rw [laceTold_state told, if_neg formed]

theorem laceGrows_grown (m : Main) (l : LaceLink) : grown m (laceGrows m l) := by
  unfold laceGrows
  split
  · rename_i none
    have told := laceForm_told m
    have link (k : LaceLink) : linkOf (modLace m fun x => x.begun m.pw.follower) k = linkOf m k := by cases k <;> rfl
    refine ⟨fun k => ?_, fun k => ?_, fun k => ?_, ?_, fun _ => laceTold_role told, told.tally _ _ (by decide) (by decide),
      laceMain_trans (laceMain_modLace m _) (laceTold_main told)⟩
    · rw [laceTold_up told, link]
    · rw [laceTold_link told, link]
    · rw [laceTold_link told, link]
    · rw [laceTold_state told, if_pos none]
      rfl
  · rename_i some
    split
    · exact grown_of_told (laceTold_sendDiscover ..) some
    · exact grown_of_told (laceTold_trans (laceTold_sendDiscover ..) (laceTold_sendDiscover ..)) some

theorem linkTrained_at {clean : BitVec 3} {lat r : Nat} (on : laceOn m = true) (down : (linkOf m l).up = false)
    (found : (List.range 3).find? (fun r => decide (cfgN m 0x7800 0x06 ≤ r) && clean.toNat.testBit r) = some r) :
    linkTrained m l clean lat = laceGrows (linkTrainedAt m l r lat) l := by
  unfold linkTrained
  rw [if_neg (by simp [on, down])]
  dsimp only
  rw [found]
  rfl

/-- Of three rates, the first that is allowed and clean. -/
theorem find_rate {top : Nat} {clean : BitVec 3} {r : Fin 3} (allowed : top ≤ r.val) (sound : clean.toNat.testBit r.val = true)
    (first : ∀ k : Fin 3, top ≤ k.val → k.val < r.val → clean.toNat.testBit k.val = false) :
    (List.range 3).find? (fun r => decide (top ≤ r) && clean.toNat.testBit r) = some r.val := by
  rw [List.find?_range_eq_some]
  refine ⟨by simp [allowed, sound], by simp, fun k less => ?_⟩
  by_cases low : top ≤ k
  · have bad := first ⟨k, by omega⟩ low less
    simp only at bad
    simp [bad]
  · simp [low]

theorem linkTrained_none {clean : BitVec 3} {lat : Nat} (on : laceOn m = true) (down : (linkOf m l).up = false)
    (bad : ∀ k : Fin 3, cfgN m 0x7800 0x06 ≤ k.val → clean.toNat.testBit k.val = false) :
    linkTrained m l clean lat = modLink (countN m 0x70F8 0x0F (2 - cfgN m 0x7800 0x06)) l fun k => { k with training := false } := by
  have found : (List.range 3).find? (fun r => decide (cfgN m 0x7800 0x06 ≤ r) && clean.toNat.testBit r) = none := by
    refine List.find?_eq_none.mpr fun r mem => ?_
    by_cases low : cfgN m 0x7800 0x06 ≤ r
    · have bad := bad ⟨r, by simpa using mem⟩ low
      simp only at bad
      simp [bad]
    · simp [low]
  unfold linkTrained
  rw [if_neg (by simp [on, down])]
  dsimp only
  rw [found]

/-! ## Loss of a link (R530, R534, R545) -/

/-- What the break of a ring leaves. -/
theorem linkFall_breaks (up : (linkOf m l).up = true) (ring : m.lace.state = 2) : ∃ b : Main,
    linkOf b l = { linkOf m l with up := false, unacked := [] } ∧ b.lace.state = 3 ∧ b.lace.members = m.lace.members ∧
    (linkOf b (otherLink l)).unacked.length =
      (linkOf m (otherLink l)).unacked.length + (if (linkOf m (otherLink l)).up then (linkOf m l).unacked.length else 0) ∧
    counter b 0x70F8 0x05 = sat32 (counter m 0x70F8 0x05 + 1) ∧ counter b 0x70F8 0x06 = sat32 (counter m 0x70F8 0x06 + 1) ∧ laceMain m b ∧
    linkFall m l = b := by
  have told := poolOnly_journal (ringBroken m l) srcLace 0x9002 [bitN (l == .b)]
  have tally := tallyKept_journal (m := ringBroken m l) srcLace 0x9002 [bitN (l == .b)]
  have lace := poolOnly_lace_eq told
  refine ⟨_, ?_, ?_, ?_, ?_, ?_, ?_, laceMain_trans (laceMain_ringBroken m l) (laceMain_of_pool told), linkFall_ring up ring⟩
  · rw [linkOf_of_lace lace, linkOf_ringBroken, reroute_own, linkOf_count]
  · rw [lace]
    rfl
  · rw [lace, ringBroken, modLace_lace, count_lace, reroute_lace, count_lace]
  · rw [linkOf_of_lace lace, linkOf_ringBroken, reroute_other, linkOf_count, linkOf_count]
  · refine (tally.stands _ _ (by decide)).trans ((counter_count_other (by decide)).trans ?_)
    rw [counter_reroute (by decide) (by decide), counter_count_same]
  · refine (tally.stands _ _ (by decide)).trans ((counter_count_same ..).trans ?_)
    rw [counter_reroute (by decide) (by decide), counter_count_other (by decide)]

/-- The members that are cut off. -/
def membersCut (m : Main) (gone : List (Fin 4)) : Main := laceLose (modLace m fun x => { x with state := 4 }) gone

theorem laceSplit_some {gone : List (Fin 4)} (some : gone ≠ []) : laceSplit m gone = journal (membersCut m gone) srcLace 0x9004 [(membersCut m gone).lace.members.toNat] := by
  rw [laceSplit, if_neg (by simpa using some)]
  rfl

/-- While no request waits, a split leaves what is not cut off. -/
theorem laceSplit_lace {gone : List (Fin 4)} (some : gone ≠ []) (idle : m.sch.reqs = []) : (laceSplit m gone).lace.state = 4 ∧
    (laceSplit m gone).lace.linkA = m.lace.linkA ∧ (laceSplit m gone).lace.linkB = m.lace.linkB ∧
    (laceSplit m gone).lace.members = m.lace.members &&& ~~~(deviceSet (gone.map (·.val))) := by
  have lost := (laceLose_idle (m := modLace m fun x => { x with state := 4 }) (gone := gone) idle).1
  obtain ⟨state, -, linkA, linkB, -, members⟩ := laceWithout_lace (modLace m fun x => { x with state := 4 }) gone
  rw [laceSplit_some some, poolOnly_lace_eq (poolOnly_journal ..), membersCut, lost]
  exact ⟨state, linkA, linkB, members⟩

theorem laceMain_laceSplit (m : Main) (gone : List (Fin 4)) : laceMain m (laceSplit m gone) := by
  unfold laceSplit
  split
  · exact laceMain_refl m
  · exact laceMain_trans (laceMain_modLace m fun x => { x with state := 4 }) (laceMain_trans (laceMain_laceLose ..) (laceMain_of_pool (poolOnly_journal ..)))

/-- With both links down, all other members are cut off. -/
theorem mem_sideOf {d : Fin 4} (down : (linkOf m (otherLink l)).up = false) : d ∈ sideOf m l ↔ d ≠ m.lace.device ∧ laceHas m d.val = true := by
  simp [sideOf, mem_membersIn, down, laceHas, and_comm]

/-! ## Retransmission (R530) -/

theorem findIdx_oldest {f : SentFrame} {fs : List SentFrame} (oldest : ∀ g ∈ fs, f.at_ ≤ g.at_) :
    (f :: fs).findIdx? (fun f' => (f :: fs).all fun g => decide (f'.at_ ≤ g.at_)) = some 0 := by
  rw [List.findIdx?_cons, if_pos]
  simpa using oldest

/-! ## Formation (R534) -/

/-- A position along link B of the lead that leaves room for the followers along link A has a number. -/
theorem positionNumber_back {e h : Nat} (size : cfgN m 0x7800 0x04 = e) (pos : 1 ≤ h) (room : h < e) (small : e ≤ 4) :
    positionNumber m false h = some (e - h) := by
  unfold positionNumber
  have large : ¬ e = 0 := by omega
  simp only [size, Bool.false_eq_true, if_false, large]
  rw [if_pos]
  simp only [Bool.and_eq_true, decide_eq_true_eq]
  omega

/-- The numbers of the followers that link A has reached, and the hops to those of link B. -/
def frontNumbers (m : Main) : List Nat := (List.range (min m.lace.foundA 3)).map (· + 1)
def backHops (m : Main) : List Nat := (List.range m.lace.foundB).map (· + 1)

/-- Whether a follower of link B has a number that none of link A has. -/
def backFits (m : Main) (h : Nat) : Bool :=
  match positionNumber m false h with
  | some n => !(frontNumbers m).contains n
  | none => false

def backNumbers (m : Main) : List Nat := ((backHops m).filter (backFits m)).filterMap (positionNumber m false)

theorem chainTimeout_eq (on : laceOn m = true) (forming : m.lace.state = 1) (lead : m.lace.role = 1) (up : m.lace.linkA.up = true) :
    chainTimeout m =
      laceFormed (modLace (forEach ((backHops m).filter fun h => !backFits m h) m fun m h => journal m srcLace 0x9006 [h]) fun x =>
        { x with sideB := deviceSet (backNumbers m) }) 3 (deviceSet (0 :: frontNumbers m ++ backNumbers m)) :=
  if_neg (by simp [on, forming, lead, up])

/-- A chain forms of the followers that both links have reached. -/
theorem chainTimeout_forms {e : Nat} (on : laceOn m = true) (forming : m.lace.state = 1) (lead : m.lace.role = 1) (up : m.lace.linkA.up = true)
    (size : cfgN m 0x7800 0x04 = e) (few : m.lace.foundA ≤ 3)
    (room : m.lace.foundB = 0 ∨ (m.lace.foundA + m.lace.foundB + 1 ≤ e ∧ e ≤ 4)) : ∃ side members : BitVec 4,
      chainTimeout m = laceFormed (modLace m fun x => { x with sideB := side }) 3 members ∧
      ∀ d : Fin 4, members.toNat.testBit d.val = true ↔ d.val ≤ m.lace.foundA ∨ (e ≤ d.val + m.lace.foundB ∧ d.val < e) := by
  have number (h : Nat) (mem : h ∈ backHops m) :
      positionNumber m false h = some (e - h) ∧ m.lace.foundA < e - h ∧ 1 ≤ h ∧ h ≤ m.lace.foundB ∧ h < e := by
    obtain ⟨i, less, same⟩ := List.mem_map.mp mem
    rw [List.mem_range] at less
    refine ⟨positionNumber_back size ?_ ?_ ?_, ?_⟩ <;> omega
  have fits (h : Nat) (mem : h ∈ backHops m) : backFits m h = true := by
    obtain ⟨found, beyond, -⟩ := number h mem
    unfold backFits
    rw [found]
    simp only [Bool.not_eq_true', List.contains_eq_mem, decide_eq_false_iff_not, frontNumbers, List.mem_map, List.mem_range]
    rintro ⟨i, less, same⟩
    omega
  have none : (backHops m).filter (fun h => !backFits m h) = [] := List.filter_eq_nil_iff.mpr fun h mem => by simp [fits h mem]
  rw [chainTimeout_eq on forming lead up, none, forEach_nil]
  refine ⟨_, _, rfl, fun d => ?_⟩
  rw [backNumbers, List.filter_eq_self.mpr fits, deviceSet_testBit _ d.isLt, decide_eq_true_eq, List.cons_append, List.mem_cons, List.mem_append,
    frontNumbers, List.mem_map, List.mem_filterMap]
  constructor
  · rintro (zero | ⟨i, less, same⟩ | ⟨h, mem, found⟩)
    · omega
    · rw [List.mem_range] at less
      omega
    · obtain ⟨at_, -, pos, most, room⟩ := number h mem
      rw [at_] at found
      have same := Option.some.inj found
      omega
  · rintro (low | ⟨far, less⟩)
    · by_cases zero : d.val = 0
      · exact .inl zero
      · exact .inr (.inl ⟨d.val - 1, List.mem_range.mpr (by omega), by omega⟩)
    · have mem : e - d.val ∈ backHops m := List.mem_map.mpr ⟨e - d.val - 1, List.mem_range.mpr (by omega), by omega⟩
      refine .inr (.inr ⟨e - d.val, mem, ?_⟩)
      rw [(number _ mem).1]
      congr 1
      omega

/-- A good frame of a link that is up is acknowledged. -/
def frameAcked (m : Main) (l : LaceLink) (ws : List Word) : Main :=
  modLink (count m 0x70F8 0x02) l fun k => { k with acked := some (laceHeadOf ws).lseq.toNat }

theorem hearFrame_good {ws : List Word} (on : laceOn m = true) (up : (linkOf m l).up = true) (whole : laceWhole ws = true) :
    hearFrame m l ws = (true, frameAcked m l ws) := by
  unfold hearFrame
  rw [if_neg (by simp [on, up]), if_pos whole]
  rfl

theorem hearFrame_off {ws : List Word} (off : laceOn m = false ∨ (linkOf m l).up = false) : hearFrame m l ws = (false, m) := by
  unfold hearFrame
  rw [if_pos]
  rcases off with h | h <;> simp [h]

theorem frameAcked_lace (m : Main) (l : LaceLink) (ws : List Word) : (frameAcked m l ws).lace =
    { m.lace with linkA := (frameAcked m l ws).lace.linkA, linkB := (frameAcked m l ws).lace.linkB } := by
  rw [frameAcked, modLink_lace, count_lace]

theorem laceMain_frameAcked (m : Main) (l : LaceLink) (ws : List Word) : laceMain m (frameAcked m l ws) :=
  laceMain_trans (laceMain_count ..) (laceMain_modLink ..)

/-- A good DISCOVER goes to the lead or to a follower. -/
theorem execLaceDiscover_hears {ws : List Word} {lat : Nat} (on : laceOn s.m = true) (up : (linkOf s.m l).up = true) (whole : laceWhole ws = true)
    (kind : isLace ws 0 = true) (formed : s.m.lace.state ≠ 0) : execLaceDiscover l ws lat s = .next { s with
      m := if s.m.lace.role = 1 then
          leadDiscover (frameAcked s.m l ws) l (field (nth (lacePayload ws) 0 0).toNat 0 8) (bitAt (nth (lacePayload ws) 0 0).toNat 8)
        else discoverAt (frameAcked s.m l ws) l (field (nth (lacePayload ws) 0 0).toNat 0 8) (bitAt (nth (lacePayload ws) 0 0).toNat 8) lat } := by
  have lace := frameAcked_lace s.m l ws
  have state : (frameAcked s.m l ws).lace.state = s.m.lace.state := by rw [lace]
  have role : (frameAcked s.m l ws).lace.role = s.m.lace.role := by rw [lace]
  simp only [execLaceDiscover, onMain, whole, kind, hearFrame_good on up whole, state, role, formed, Bool.not_true, Bool.and_false, Bool.or_false,
    Bool.false_eq_true, decide_false, if_false]

/-- The lead's own DISCOVER closes the ring. -/
theorem leadDiscover_ring {hops : Nat} (forming : m.lace.state = 1) (some : 2 ≤ hops) (few : hops ≤ 4) :
    leadDiscover m .b hops true = laceFormed m 2 (deviceSet (List.range hops)) := by
  unfold leadDiscover
  dsimp only
  rw [if_pos rfl, if_neg (by simp; omega), if_pos forming]

/-- The follower at a position along link B. -/
def Lace.numberedAt (x : Lace) (hops : Nat) : Lace :=
  { x with device := finOf 4 hops, numbered := true, sideB := deviceSet (List.range hops) }

/-- The lead's DISCOVER numbers a follower of link B. -/
theorem followerDiscover_numbers {hops : Nat} (forming : m.lace.state = 1) (new : m.lace.numbered = false) (some : 1 ≤ hops) (few : hops ≤ 3) :
    followerDiscover m .b hops = laceFormed (modLace m fun x => x.numberedAt hops) 3 (deviceSet (List.range (hops + 1))) := by
  have number : positionNumber m true hops = .some hops := by
    simp [positionNumber, some, few]
  unfold followerDiscover
  dsimp only
  rw [if_pos forming, new, if_neg Bool.false_ne_true, show (LaceLink.b == .b) = true from rfl, number]
  rfl

/-- A follower is numbered by its position. -/
theorem answers_numbered {ws : List Word} {lat : Nat} (on : laceOn s.m = true) (up : s.m.lace.linkB.up = true) (whole : laceWhole ws = true)
    (kind : isLace ws 0 = true) (forming : s.m.lace.state = 1) (follower : s.m.lace.role = 2) (new : s.m.lace.numbered = false)
    (returned : bitAt (nth (lacePayload ws) 0 0).toNat 8 = true) (some : 1 ≤ field (nth (lacePayload ws) 0 0).toNat 0 8)
    (few : field (nth (lacePayload ws) 0 0).toNat 0 8 ≤ 3) : answers (.laceDiscover .b ws lat) s fun t =>
      t.m.lace.device.val = field (nth (lacePayload ws) 0 0).toNat 0 8 ∧ t.m.lace.numbered = true ∧
      t.m.lace.state = 3 ∧ t.m.lace.pathLat = lat ∧ laceMain s.m t.m ∧ mainOnly s t := by
  have lace := frameAcked_lace s.m .b ws
  have heard : execLaceDiscover .b ws lat s =
      .next { s with m := discoverAt (frameAcked s.m .b ws) .b (field (nth (lacePayload ws) 0 0).toNat 0 8) true lat } := by
    rw [execLaceDiscover_hears (l := .b) on up whole kind (by rw [forming]; decide), follower, if_neg (by decide), returned]
  generalize field (nth (lacePayload ws) 0 0).toNat 0 8 = hops at *
  have passed := laceTold_trans (laceTold_passDiscover (frameAcked s.m .b ws) (otherLink .b) (hops + 1) true)
    (laceTold_passDiscover _ .b 1 false)
  refine ⟨_, heard, ?_⟩
  simp only [discoverAt, if_true]
  generalize passDiscover (passDiscover (frameAcked s.m .b ws) (otherLink .b) (hops + 1) true) .b 1 false = b at passed
  have stands : b.lace.state = 1 ∧ b.lace.numbered = false := by
    rw [passed.lace, lace]
    exact ⟨forming, new⟩
  rw [followerDiscover_numbers stands.1 stands.2 some few]
  have told := laceFormed_told (modLace b fun x => x.numberedAt hops) 3 (deviceSet (List.range (hops + 1)))
  have numbered := told.lace
  have only := laceMain_trans (laceMain_modLace b fun x => x.numberedAt hops) (laceMain_laceFormed _ 3 (deviceSet (List.range (hops + 1))))
  generalize laceFormed _ 3 _ = x at numbered only
  rw [modLace_lace, modLace_lace] at numbered
  refine ⟨?_, ?_, ?_, ?_, ?_, mainOnly_m _ _⟩
  · rw [modLace_lace, numbered]
    exact Nat.mod_eq_of_lt (by omega)
  · rw [modLace_lace, numbered]
    rfl
  · rw [modLace_lace, numbered]
    rfl
  · rw [modLace_lace, numbered]
    rfl
  · exact laceMain_trans (laceMain_frameAcked ..) (laceMain_trans (laceTold_main passed) (laceMain_trans only (laceMain_modLace x _)))

/-- Links have failed and their frames gone out by the others. -/
structure rerouted (a b : Main) : Prop where
  lace : b.lace = { a.lace with linkA := b.lace.linkA, linkB := b.lace.linkB, eseqOut := b.lace.eseqOut }
  sch  : b.sch = a.sch
  seen : counter b 0x70F8 0x06 = counter a 0x70F8 0x06
  only : laceMain a b

theorem rerouted_if (p : Prop) [Decidable p] (m : Main) (l : LaceLink) : rerouted m (if p then reroute m l else m) := by
  split
  · exact ⟨reroute_lace .., reroute_sch .., counter_reroute (by decide) (by decide), laceMain_reroute ..⟩
  · exact ⟨rfl, rfl, rfl, rfl⟩

theorem rerouted_trans {a b c : Main} (h : rerouted a b) (g : rerouted b c) : rerouted a c := by
  refine ⟨?_, g.sch.trans h.sch, g.seen.trans h.seen, laceMain_trans h.only g.only⟩
  rw [g.lace, h.lace]

/-- A member leaves a ring: it is marked, frames that wait for it go the other way, and a chain without it is left. -/
theorem laceDepart_ring {d : Fin 4} (on : laceOn m = true) (ring : m.lace.state = 2) (away : d ≠ m.lace.device) (has : laceHas m d.val = true) :
    ∃ (x : Main) (side : Lace → BitVec 4), rerouted (modLace m fun l => { l with departed := l.departed ||| deviceSet [d.val] }) x ∧
      laceDepart m d = laceLose (modLace (count x 0x70F8 0x06) fun l => { l with state := 3, sideB := side l }) [d] := by
  unfold laceDepart
  rw [if_neg (by simp [on, ring, away, has])]
  dsimp only
  rw [if_pos (by simp [ring])]
  exact ⟨_, _, rerouted_trans (rerouted_if _ _ .a) (rerouted_if _ _ .b), rfl⟩

/-- A member departs from a ring. -/
theorem answers_departs {d : Fin 4} (on : laceOn s.m = true) (ring : s.m.lace.state = 2) (away : d ≠ s.m.lace.device) (has : laceHas s.m d.val = true)
    (idle : s.m.sch.reqs = []) : answers (.laceDeparture d) s fun t =>
      t.m.lace.state = 3 ∧ laceHas t.m d.val = false ∧ t.m.lace.departed.toNat.testBit d.val = true ∧
      counter t.m 0x70F8 0x06 = sat32 (counter s.m 0x70F8 0x06 + 1) ∧ laceMain s.m t.m ∧ mainOnly s t := by
  obtain ⟨x, side, turned, leaves⟩ := laceDepart_ring on ring away has
  refine answers_of_onMain (f := fun m => laceDepart m d) rfl ?_
  rw [leaves]
  have waits : (modLace (count x 0x70F8 0x06) fun l => { l with state := 3, sideB := side l }).sch.reqs = [] := by
    rw [modLace_sch, count_sch, turned.sch]
    exact idle
  obtain ⟨lace, flt⟩ := laceLose_idle (gone := [d]) waits
  obtain ⟨state, departed, -, -, -, members⟩ := laceWithout_lace (modLace (count x 0x70F8 0x06) fun l => { l with state := 3, sideB := side l }) [d]
  refine ⟨?_, ?_, ?_, ?_, ?_, mainOnly_m _ _⟩
  · rw [lace, state, modLace_lace]
  · rw [laceHas, lace, members, testBit_sub_deviceSet _ _ d.isLt]
    simp
  · rw [lace, departed, modLace_lace, count_lace, turned.lace]
    exact (testBit_or_deviceSet _ _ d.isLt).trans (by simp)
  · refine (counter_of_flt flt ..).trans ?_
    refine (counter_countN_other _ (by decide)).trans ((counter_count_same ..).trans ?_)
    rw [turned.seen]
    rfl
  · refine laceMain_trans (laceMain_modLace s.m _) (laceMain_trans turned.only ?_)
    exact laceMain_trans (laceMain_count x 0x70F8 0x06) (laceMain_trans (laceMain_modLace _ _) (laceMain_laceLose ..))

/-! ## The statement -/

theorem laceFormation : Obligations.LaceFormation := by
  unfold Obligations.LaceFormation
  refine ⟨?trains, ?stays, ?counts, ?noTrain, ?breaks, ?splits, ?noFall, ?repeats, ?fails, ?noFrame, ?acked, ?retrains, ?noRetrain, ?alone, ?noAlone,
    ?chain, ?noChain, ?ring, ?numbered, ?noDiscover, ?departs, ?noDeparture⟩
  case trains =>
    intro s l clean lat r on down allowed sound first
    refine answers_of_onMain (f := fun m => linkTrained m l clean lat) rfl ?_
    rw [linkTrained_at on down (find_rate allowed sound first)]
    have grown := laceGrows_grown (linkTrainedAt s.m l r lat) l
    have link : linkOf (linkTrainedAt s.m l r lat) l = { up := true, rate := r, latency := lat % 65536 } := linkOf_modLink_same ..
    have lace : (linkTrainedAt s.m l r lat).lace.state = s.m.lace.state := by rw [linkTrainedAt, modLink_lace, countN_lace]
    refine ⟨?_, ?_, ?_, ?_, fun none => ?_, laceMain_trans (laceMain_trans (laceMain_countN ..) (laceMain_modLink ..)) grown.only, mainOnly_m _ _⟩
    · rw [grown.up, link]
    · rw [grown.rate, link]
    · rw [grown.latency, link]
    · rw [grown.state, lace]
    · rw [grown.role (by rw [lace, none]), linkTrainedAt, modLink_pw, countN_pw]
  case stays =>
    intro s l clean lat on down bad
    refine answers_of_onMain (f := fun m => linkTrained m l clean lat) rfl ?_
    rw [linkTrained_none on down bad]
    refine ⟨?_, ?_, ?_, laceMain_trans (laceMain_countN ..) (laceMain_modLink ..), mainOnly_m _ _⟩
    · rw [linkOf_modLink_same]
      exact (congrArg Link.up (linkOf_of_lace (countN_lace ..) l)).trans down
    · rw [linkOf_modLink_same]
    · rw [modLink_lace, countN_lace]
  case counts =>
    intro s l lat on down top
    refine answers_of_onMain (f := fun m => linkTrained m l 2 lat) rfl ?_
    have found := find_rate (top := cfgN s.m 0x7800 0x06) (clean := 2) (r := 1) (by rw [top]; decide) (by decide) (by rw [top]; decide)
    rw [linkTrained_at on down found]
    refine ⟨?_, mainOnly_m _ _⟩
    rw [(laceGrows_grown _ l).counts, linkTrainedAt, counter_modLink, top]
    exact counter_count_same ..
  case noTrain =>
    intro s l clean lat h
    refine exec_of_onMain (f := fun m => linkTrained m l clean lat) rfl ?_
    rcases h with h | h <;> simp [linkTrained, h]
  case breaks =>
    intro s l up ring
    obtain ⟨b, own, state, members, other, down, broken, only, same⟩ := linkFall_breaks up ring
    refine answers_of_onMain (f := fun m => linkFall m l) rfl ?_
    rw [same]
    exact ⟨by rw [own], by rw [own], state, members, other, down, broken, only, mainOnly_m _ _⟩
  case splits =>
    intro s l up down chain idle ⟨d, away, has⟩
    refine answers_of_onMain (f := fun m => linkFall m l) rfl ?_
    rw [linkFall_chain up chain]
    have lace : (reroute (count s.m 0x70F8 0x05) l).lace.members = s.m.lace.members ∧ (reroute (count s.m 0x70F8 0x05) l).lace.device = s.m.lace.device := by
      rw [reroute_lace, count_lace]
      exact ⟨rfl, rfl⟩
    have own := reroute_own (count s.m 0x70F8 0x05) l
    have otherDown : (linkOf (reroute (count s.m 0x70F8 0x05) l) (otherLink l)).up = false := by
      rw [laceTold_up (reroute_told ..), linkCut, linkOf_modLink_other, linkOf_count, down]
    have waits : (reroute (count s.m 0x70F8 0x05) l).sch.reqs = [] := by rw [reroute_sch, count_sch, idle]
    have only : laceMain s.m (reroute (count s.m 0x70F8 0x05) l) := laceMain_trans (laceMain_count ..) (laceMain_reroute ..)
    generalize reroute (count s.m 0x70F8 0x05) l = b at lace own otherDown waits only
    have side (d : Fin 4) : d ∈ sideOf b l ↔ d ≠ s.m.lace.device ∧ laceHas s.m d.val = true := by
      rw [mem_sideOf otherDown, laceHas, lace.1, lace.2]
      rfl
    have some : sideOf b l ≠ [] := List.ne_nil_of_mem ((side d).mpr ⟨away, has⟩)
    obtain ⟨state, linkA, linkB, members⟩ := laceSplit_lace some waits
    refine ⟨?_, state, fun d away => ?_, laceMain_trans only (laceMain_laceSplit ..), mainOnly_m _ _⟩
    · have link : linkOf (laceSplit b (sideOf b l)) l = linkOf b l := by
        cases l
        · exact linkA
        · exact linkB
      rw [link, own]
    · rw [laceHas, members, testBit_sub_deviceSet _ _ d.isLt, lace.1]
      by_cases has : laceHas s.m d.val = true
      · have mem : d.val ∈ (sideOf b l).map (·.val) := List.mem_map_of_mem ((side d).mpr ⟨away, has⟩)
        simp [mem]
      · rw [show s.m.lace.members.toNat.testBit d.val = false from by simpa [laceHas] using has]
        rfl
  case noFall =>
    intro s l down
    refine exec_of_onMain (f := fun m => linkFall m l) rfl ?_
    simp [linkFall, down]
  case repeats =>
    intro s l f fs unacked oldest few
    refine exec_of_onMain (f := fun m => linkRetransmit m l) rfl ?_
    unfold linkRetransmit
    dsimp only
    rw [unacked, findIdx_oldest oldest]
    dsimp only
    rw [if_pos (by simpa using few)]
    refine modLink_congr ?_
    rw [linkOf_count, unacked]
    rfl
  case fails =>
    intro s l f fs unacked oldest most
    refine exec_of_onMain (f := fun m => linkRetransmit m l) rfl ?_
    unfold linkRetransmit
    dsimp only
    rw [unacked, findIdx_oldest oldest]
    dsimp only
    rw [if_neg (by simpa using most)]
  case noFrame =>
    intro s l none
    refine exec_of_onMain (f := fun m => linkRetransmit m l) rfl ?_
    simp [linkRetransmit, none]
  case acked => exact fun s l q => rfl
  case retrains =>
    intro s l on down
    show execLaceRetrainTimer l s = _
    simp [execLaceRetrainTimer, onMain, on, down]
  case noRetrain =>
    intro s l up
    show execLaceRetrainTimer l s = _
    simp [execLaceRetrainTimer, onMain, up]
  case alone =>
    intro s forming downA downB
    refine answers_of_onMain (f := formingTimeout) rfl ?_
    unfold formingTimeout
    rw [if_pos (by simp [forming, downA, downB])]
    dsimp only
    split
    · rw [poolOnly_lace_eq (poolOnly_journal ..)]
      exact ⟨rfl, rfl, rfl, rfl, laceMain_trans (laceMain_modLace _ _) (laceMain_of_pool (poolOnly_journal ..)), mainOnly_m _ _⟩
    · exact ⟨rfl, rfl, rfl, rfl, rfl, mainOnly_m _ _⟩
  case noAlone =>
    intro s formed
    refine exec_of_onMain (f := formingTimeout) rfl ?_
    simp [formingTimeout, formed]
  case chain =>
    intro s e on forming lead up size few room
    obtain ⟨side, members, forms, has⟩ := chainTimeout_forms on forming lead up size few room
    obtain ⟨state, set, most⟩ := laceFormed_lace (modLace s.m fun x => { x with sideB := side }) 3 members
    refine answers_of_onMain (f := chainTimeout) rfl ?_
    rw [forms]
    refine ⟨state, fun d => ?_, ?_, laceMain_trans (laceMain_modLace s.m _) (laceMain_laceFormed ..), mainOnly_m _ _⟩
    · rw [laceHas, set]
      exact has d
    · have counted := lt_membersIn_length members ⟨s.m.lace.foundA, by omega⟩ fun d low => (has d).mpr (.inl low)
      rw [most]
      exact le_trans counted (le_max_right ..)
  case noChain =>
    intro s h
    refine exec_of_onMain (f := chainTimeout) rfl ?_
    rcases h with h | h <;> simp [chainTimeout, h]
  case ring =>
    intro s ws lat on up whole kind forming lead returned some few
    have lace := frameAcked_lace s.m .b ws
    have heard : execLaceDiscover .b ws lat s = .next { s with m := laceFormed (frameAcked s.m .b ws) 2 (deviceSet (List.range (field (nth (lacePayload ws) 0 0).toNat 0 8))) } := by
      rw [execLaceDiscover_hears (l := .b) on up whole kind (by rw [forming]; decide), lead, if_pos rfl, returned, leadDiscover_ring (by rw [lace, forming]) some few]
    have told := laceFormed_told (frameAcked s.m .b ws) 2 (deviceSet (List.range (field (nth (lacePayload ws) 0 0).toNat 0 8)))
    refine ⟨_, heard, laceTold_state told, fun d => ?_, ?_, laceMain_trans (laceMain_frameAcked ..) (laceMain_laceFormed ..), mainOnly_m _ _⟩
    · rw [laceTold_has told, laceHas]
      exact (Bool.eq_iff_iff.mp (deviceSet_testBit _ d.isLt)).trans (by simp)
    · rw [told.lace]
      simp [Lace.formed]
  case numbered =>
    intro s ws lat on up whole kind forming follower new returned some few
    exact answers_numbered on up whole kind forming follower new returned some few
  case noDiscover =>
    intro s l ws lat off
    show execLaceDiscover l ws lat s = _
    simp [execLaceDiscover, onMain, hearFrame_off off]
  case departs =>
    intro s d on ring away has idle
    exact answers_departs on ring away has idle
  case noDeparture =>
    intro s d none
    refine exec_of_onMain (f := fun m => laceDepart m d) rfl ?_
    simp [laceDepart, none]

end Sys2Proof.Machine

end

section
/-!
What the reader leaves of the lace: an evaluation of the requests sends frames, but it does not take a link down or up, count a damaged frame, or align a
carrier (R126, R530, R537).
-/

namespace Sys2Proof.Machine

/-- The carrier's alignment, the links that are up, and the damaged frames [70F8:03] and lost links [70F8:05] that have been counted. -/
structure LaceCalm where
  aligned : Bool
  alignAt : Option Nat
  upA     : Bool
  upB     : Bool
  damaged : Nat
  downs   : Nat

def Main.calm (m : Main) : LaceCalm :=
  ⟨m.lace.aligned, m.lace.alignAt, m.lace.linkA.up, m.lace.linkB.up, counter m 0x70F8 0x03, counter m 0x70F8 0x05⟩

section Read

variable {a b : Main} (h : b.calm = a.calm)
include h

theorem calm_aligned : b.lace.aligned = a.lace.aligned := congrArg LaceCalm.aligned h
theorem calm_alignAt : b.lace.alignAt = a.lace.alignAt := congrArg LaceCalm.alignAt h
theorem calm_damaged : counter b 0x70F8 0x03 = counter a 0x70F8 0x03 := congrArg LaceCalm.damaged h
theorem calm_downs : counter b 0x70F8 0x05 = counter a 0x70F8 0x05 := congrArg LaceCalm.downs h

theorem calm_up (l : LaceLink) : (linkOf b l).up = (linkOf a l).up := by
  cases l
  · exact congrArg LaceCalm.upA h
  · exact congrArg LaceCalm.upB h

end Read

variable {m a b : Main}

theorem calm_congr (lace : b.lace = a.lace) (flt : b.flt = a.flt) : b.calm = a.calm := by
  unfold Main.calm counter
  rw [lace, flt]

theorem calm_of_pool (only : poolOnly a b) (tally : tallyKept a b) : b.calm = a.calm := by
  unfold Main.calm
  rw [poolOnly_lace_eq only, tally.stands 0x70F8 0x03 (by decide), tally.stands 0x70F8 0x05 (by decide)]

theorem calm_of_told (told : laceTold a b) : b.calm = a.calm := by
  unfold Main.calm
  rw [told.tally 0x70F8 0x03 (by decide) (by decide), told.tally 0x70F8 0x05 (by decide) (by decide), told.lace]

theorem forEach_calm {α : Type} (f : Main → α → Main) (h : ∀ x i, (f x i).calm = x.calm) (l : List α) (m : Main) :
    (forEach l m f).calm = m.calm := forEach_keeps Main.calm f h l m

/-! ## Counters, records and the pool -/

theorem countN_calm {idx sub : Nat} (n : Nat) (damaged : ekey 0x70F8 0x03 ≠ ekey idx sub) (downs : ekey 0x70F8 0x05 ≠ ekey idx sub) :
    (countN m idx sub n).calm = m.calm := by
  unfold Main.calm
  rw [countN_lace, counter_countN_other n damaged, counter_countN_other n downs]

/-- A counter of another index than the lace's. -/
@[simp] theorem count_calm (m : Main) {idx sub : Nat} (other : idx ≠ 0x70F8) (small : sub < 256) : (count m idx sub).calm = m.calm :=
  countN_calm 1 (by unfold ekey; omega) (by unfold ekey; omega)

@[simp] theorem countIf_calm (t : Bool) (m : Main) {idx sub : Nat} (other : idx ≠ 0x70F8) (small : sub < 256) :
    (countIf t m idx sub).calm = m.calm := by
  cases t
  · rfl
  · exact count_calm m other small

theorem tallyKept_countStall (q : Fin 32) : tallyKept m (countStall m q) := by
  refine tallyKept_trans ?_ (tallyKept_count 0x70C0 0x08 (by decide))
  exact tallyKept_of_same rfl rfl

theorem tallyKept_resumePkt (q : Fin 32) (id : Nat) (ws : List Word) : tallyKept m (resumePkt m q id ws).1 := by
  unfold resumePkt
  dsimp only
  split
  · exact tallyKept_trans (tallyKept_appendPkt ..) (tallyKept_closePkt ..)
  · exact tallyKept_appendPkt ..

theorem tallyKept_stallPkt (q : Fin 32) (type source : Nat) (ws : List Word) : tallyKept m (stallPkt m q type source ws).1 := by
  unfold stallPkt
  dsimp only
  split
  · exact tallyKept_countStall q
  · have put := tallyKept_trans (tallyKept_openPkt (m := m) q type source 1) (tallyKept_resumePkt q (openPkt m q type source 1).2
      (ws.take (8 * (m.pool.qs[q]).cmax - 1)))
    split
    · exact tallyKept_trans put (tallyKept_countStall q)
    · exact put

@[simp] theorem stallPkt_calm (m : Main) (q : Fin 32) (type source : Nat) (ws : List Word) : (stallPkt m q type source ws).1.calm = m.calm :=
  calm_of_pool (poolOnly_stallPkt ..) (tallyKept_stallPkt ..)

@[simp] theorem journal_calm (m : Main) (src code : Nat) (args : List Nat) : (journal m src code args).calm = m.calm :=
  calm_of_pool (poolOnly_journal ..) (tallyKept_journal ..)

@[simp] theorem modPw_calm (m : Main) (f : Power → Power) : (modPw m f).calm = m.calm := rfl
@[simp] theorem modSv_calm (m : Main) (f : Survey → Survey) : (modSv m f).calm = m.calm := rfl
@[simp] theorem modCore_calm (m : Main) (k : Fin 16) (f : Core → Core) : (modCore m k f).calm = m.calm := rfl
@[simp] theorem modPort_calm (m : Main) (p : Fin 128) (f : Port → Port) : (modPort m p f).calm = m.calm := rfl
@[simp] theorem modLane_calm (m : Main) (k : Fin 16) (f : Lane → Lane) : (modLane m k f).calm = m.calm := rfl
@[simp] theorem modEng_calm (m : Main) (e : Fin 24) (f : Engine → Engine) : (modEng m e f).calm = m.calm := rfl
@[simp] theorem modCtx_calm (m : Main) (e : Fin 24) (c : Fin 2) (f : Ctx → Ctx) : (modCtx m e c f).calm = m.calm := rfl
@[simp] theorem modQ_calm (m : Main) (q : Fin 32) (f : Queue → Queue) : (modQ m q f).calm = m.calm := rfl
@[simp] theorem withdraw_calm (m : Main) (w : Owner) : (withdraw m w).calm = m.calm := rfl
@[simp] theorem putReq_calm (m : Main) (r : Req) : (putReq m r).calm = m.calm := rfl

theorem sv_calm (m : Main) (x : Survey) : ({ m with sv := x } : Main).calm = m.calm := rfl
theorem sch_calm (m : Main) (x : Sched) : ({ m with sch := x } : Main).calm = m.calm := rfl

@[simp] theorem laceSend_calm (m : Main) (type : Nat) (dst : Option (Fin 4)) (payload : List Word) : (laceSend m type dst payload).calm = m.calm :=
  calm_of_told (laceTold_laceSend ..)

/-! ## Cores -/

@[simp] theorem loadDac_calm (m : Main) (k : Fin 16) : (loadDac m k).calm = m.calm := by
  rcases loadDac_cases m k with e | ⟨n, d, e⟩
  · rw [e]
  · rw [e, modCore_calm, countN_calm n (by decide) (by decide)]

@[simp] theorem loadCoupled_calm (m : Main) (v : FV) : (loadCoupled m v).calm = m.calm := by
  unfold loadCoupled
  refine forEach_calm _ (fun x k => ?_) _ m
  split
  · split <;> simp
  · rfl

@[simp] theorem latchPairs_calm (m : Main) (v : FV) : (latchPairs m v).calm = m.calm := by
  unfold latchPairs
  refine forEach_calm _ (fun x k => ?_) _ m
  split
  · split <;> simp
  · rfl

@[simp] theorem releaseGaps_calm (m : Main) : (releaseGaps m).calm = m.calm := by
  have only := releaseGaps_only m
  exact calm_congr only.lace only.flt

/-! ## Results and reports -/

@[simp] theorem countStatus_calm (m : Main) (status : Nat) : (countStatus m status).calm = m.calm := by simp [countStatus]

@[simp] theorem closeResult_calm (m : Main) (e : Fin 24) (c : Fin 2) : (closeResult m e c).calm = m.calm := by
  unfold closeResult
  dsimp only
  split <;> simp [freePayload]

@[simp] theorem writeResult_calm (m : Main) (e : Fin 24) (c : Fin 2) (status detail : Nat) (part : Bool) (body : List Word) :
    (writeResult m e c status detail part body).calm = m.calm := by
  unfold writeResult
  split
  · rfl
  · dsimp only
    split <;> simp

@[simp] theorem laneOut_calm (m : Main) (k : Fin 16) (ws : List Word) : (laneOut m k ws).calm = m.calm := by
  unfold laneOut
  split
  · rfl
  · dsimp only
    split
    · exact stallPkt_calm ..
    · rw [modLane_calm, count_calm _ (by decide) (by decide), sv_calm, stallPkt_calm]

@[simp] theorem reportPort_calm (m : Main) (k : Fin 16) (p : Fin 128) (v : VisitOut) : (reportPort m k p v).calm = m.calm := by
  unfold reportPort
  extract_lets x ev arrived departed changed y reported
  have kept : reported.calm = m.calm := by simp [reported, changed, departed, arrived]
  split
  · rw [laneOut_calm, sv_calm, kept]
  · exact kept

/-! ## The scheduler -/

@[simp] theorem noteCause_calm (mr : Main × Req) (b : Bool) {sub : Nat} (small : sub < 256) : (noteCause mr b sub).1.calm = mr.1.calm := by
  unfold noteCause
  split
  · exact count_calm _ (by decide) small
  · rfl

@[simp] theorem commit_calm (m : Main) (r : Req) (k : Fin 16) (code : Nat) (sub8 : Bool) : (commit m r k code sub8).calm = m.calm := by
  unfold commit
  extract_lets v counted noted sch granted unclaimed placed begun
  have granted_calm : granted.calm = m.calm := (sch_calm ..).trans (by simp [noted, counted])
  have unclaimed_calm : unclaimed.calm = m.calm := by
    simp only [unclaimed]
    split
    · exact granted_calm
    · exact granted_calm
  have begun_calm : begun.calm = m.calm := by
    simp only [begun]
    split <;> simp [placed, unclaimed_calm]
  rw [loadCoupled_calm, latchPairs_calm, begun_calm]

@[simp] theorem sendClaims_calm (m : Main) (r : Req) (ds : List (Fin 4)) (v : FV) (code : Nat) (sub8 : Bool) :
    (sendClaims m r ds v code sub8).calm = m.calm := by
  unfold sendClaims
  dsimp only
  rw [forEach_calm _ (fun x d => laceSend_calm ..)]
  rfl

@[simp] theorem evalCore_calm (m : Main) (r : Req) (k : Fin 16) : (evalCore m r k).calm = m.calm := by
  unfold evalCore
  extract_lets F v noted put r' noSub leaky
  have put_calm : put.calm = m.calm := by simp [put, noted]
  split
  · rfl
  · split
    · exact put_calm
    · split
      · simp [noSub, put_calm]
      · extract_lets v' code placed
        split
        · simp [leaky, put_calm]
        · split
          · simp [put_calm]
          · simp [put_calm]
          · split <;> simp [put_calm]

@[simp] theorem refuseReq_calm (m : Main) (r : Req) (status detail : Nat) : (refuseReq m r status detail).calm = m.calm := by
  unfold refuseReq
  dsimp only
  split <;> simp [reportFault]

@[simp] theorem takeSession_calm (m : Main) (r : Req) (e : Fin 24) (c : Fin 2) (k : Fin 16) : (takeSession m r e c k).calm = m.calm := rfl

theorem sessionCase_calm {x : Main} {r : Req} (h : sessionCase m r = some x) : x.calm = m.calm := by
  unfold sessionCase at h
  split at h
  · split at h
    · cases h
    · split at h
      · split at h
        · cases h
          simp
        · cases h
      · split at h
        · cases h
          simp
        · split at h
          · cases h
            split <;> simp
          · cases h
            rfl
  · split at h
    · cases h
      rfl
    · cases h

@[simp] theorem evalReq_calm (m : Main) (r : Req) : (evalReq m r).calm = m.calm := by
  unfold evalReq
  dsimp only
  iterate 5 (split; · simp)
  split
  · exact sessionCase_calm (by assumption)
  · split
    · rfl
    · split <;> simp

/-- An evaluation of the requests leaves the lace calm. -/
@[simp] theorem evaluate_calm (m : Main) : (evaluate m).calm = m.calm := by
  unfold evaluate
  dsimp only
  refine forEach_calm _ (fun x w => ?_) _ m
  split <;> simp

end Sys2Proof.Machine

end

section
/-!
Proofs of the statement on what the lace port sends (R532–R537, R542): ticks, phases and alignments of the lead, frames passed on, the packets of Q23,
and what a follower does of its own accord.
-/

namespace Sys2Proof.Machine

variable {s : State} {m : Main}

/-! ## Frames of a ring (R531, R533) -/

theorem laceVia_ring (ring : inRing m) (dst : Option (Fin 4)) : laceVia m dst = some .a := by
  unfold laceVia
  cases dst <;> simp [ring.ring, ring.linkA]

/-- A frame of a device in a ring leaves by link A. -/
theorem laceSend_ring (ring : inRing m) (type : Nat) (dst : Option (Fin 4)) (ws : List Word) : laceSend m type dst ws =
    linkSend (modLace m fun x => { x with eseqOut := x.eseqOut.set ((dst.map (·.val)).getD 4) ((nth m.lace.eseqOut ((dst.map (·.val)).getD 4) 0 + 1) % 65536) })
      .a (laceHead m type dst ws) ((nth m.lace.eseqOut ((dst.map (·.val)).getD 4) 0 + 1) % 65536) ws := by
  have state (es w0 : Nat) (set : List Nat → List Nat) :
      (linkSend (modLace m fun x => { x with eseqOut := set x.eseqOut }) .a w0 es ws).lace.state = 2 :=
    (laceTold_state (laceTold_linkSend ..)).trans ring.ring
  unfold laceSend
  rw [if_neg (by simp [ring.role, ring.ring]), laceVia_ring ring]
  dsimp only
  exact if_neg (by rw [state _ _ (·.set _ _)]; simp)

theorem laceSend_sent (ring : inRing m) (type : Nat) (dst : Option (Fin 4)) (ws : List Word) : sentByA m (laceSend m type dst ws) type dst ws := by
  rw [laceSend_ring ring]
  simp [sentByA, linkSend]

theorem laceSend_counts (ring : inRing m) (type : Nat) (dst : Option (Fin 4)) (ws : List Word) :
    counter (laceSend m type dst ws) 0x70F8 0x01 = sat32 (counter m 0x70F8 0x01 + 1) := by
  rw [laceSend_ring ring]
  exact counter_count_same ..

theorem laceMain_laceSend (m : Main) (type : Nat) (dst : Option (Fin 4)) (ws : List Word) : laceMain m (laceSend m type dst ws) :=
  laceTold_main (laceTold_laceSend ..)

/-! ## The lead (R535–R537) -/

theorem sendAlign_sent (ring : inRing m) (lead : m.lace.role = 1) : ∃ b, b % 10000 = 0 ∧ tickAt m m.now < b ∧
    sentByA m (sendAlign m) 3 none [word b, word (b / 2 ^ 32)] := by
  refine ⟨(tickAt m m.now / 10000 + 1 + (draw m).1.toNat % 1000) * 10000, Nat.mul_mod_left .., ?_, ?_⟩
  · have whole := Nat.div_add_mod (tickAt m m.now) 10000
    have part := Nat.mod_lt (tickAt m m.now) (show 10000 > 0 by decide)
    omega
  · rw [sendAlign, if_pos lead]
    have drawn : inRing (draw m).2 := ⟨ring.on, ring.ring, ring.role, ring.linkA⟩
    exact laceSend_sent drawn 3 none _

/-! ## Frames passed on (R533) -/

/-- A good frame for others goes on by the other link. -/
theorem forwardFrame_passes {ws : List Word} (on : laceOn m = true) (formed : 2 ≤ m.lace.state) (upB : m.lace.linkB.up = true)
    (upA : m.lace.linkA.up = true) (whole : laceWhole ws = true) (forOthers : (laceHeadOf ws).bcast = true ∨ (laceHeadOf ws).dst ≠ m.lace.device)
    (other : (laceHeadOf ws).src ≠ m.lace.device) (kind : (laceHeadOf ws).type ≠ 0) (known : (laceHeadOf ws).type.toNat < 0xB) :
    forwardFrame m .b ws = linkSend (if (laceHeadOf ws).bcast then m else frameAcked m .b ws) .a (nth ws 0 0).toNat (laceHeadOf ws).eseq.toNat
      (lacePayload ws) := by
  have small : decide (m.lace.state < 2) = false := decide_eq_false (by omega)
  have typed : ((laceHeadOf ws).type == 0) = false := beq_eq_false_iff_ne.mpr kind
  have reserved : decide (0xB ≤ (laceHeadOf ws).type.toNat) = false := decide_eq_false (by omega)
  have away : (laceHeadOf ws).bcast = false → ((laceHeadOf ws).dst == m.lace.device) = false := fun alone =>
    beq_eq_false_iff_ne.mpr (by simpa [alone] using forOthers)
  have linkA : (linkOf m .a).up = true := upA
  have linkB : (linkOf m .b).up = true := upB
  unfold forwardFrame
  cases bcast : (laceHeadOf ws).bcast
  · have lace := frameAcked_lace m .b ws
    have acked : (linkOf (frameAcked m .b ws) .a).up = true := (congrArg Link.up (linkOf_modLink_other (count m 0x70F8 0x02) .b _)).trans upA
    have another : ((laceHeadOf ws).src == (frameAcked m .b ws).lace.device) = false := by
      rw [lace]
      exact beq_eq_false_iff_ne.mpr other
    simp only [bcast, whole, small, typed, away bcast, reserved, hearFrame_good (l := .b) on linkB whole, another, otherLink, acked, Bool.not_false,
      Bool.and_false, Bool.or_false, Bool.not_true, Bool.false_eq_true, if_false]
  · have another : ((laceHeadOf ws).src == m.lace.device) = false := beq_eq_false_iff_ne.mpr other
    simp only [bcast, whole, small, typed, reserved, on, another, otherLink, linkA, linkB, Bool.and_false, Bool.false_and, Bool.and_true,
      Bool.or_false, Bool.not_true, Bool.false_eq_true, if_false, if_true]

/-! ## The packets of Q23 (R542) -/

theorem laceFrameTx_packet {p : Packet} {rest : List Packet} {w : Word} {ws : List Word} (on : laceOn m = true) (ctl : ctlOn m = true)
    (consumer : (m.pool.qs[(23 : Fin 32)]).consumer = 5) (head : (m.pool.qs[(23 : Fin 32)]).pkts = p :: rest) (closed : p.opened = false)
    (sound : p.poison = []) (type : p.type = 0x2A) (words : p.words = w :: ws) : laceFrameTx m = laceDispatch (dropHead m 23) w.toNat ws := by
  unfold laceFrameTx
  rw [if_neg (by simp [on, ctl, consumer, -Fin.getElem_fin]), headOf_sound head closed sound]
  simp only [type, words]

/-- A frame for another device leaves. -/
theorem laceDispatch_sends {w0 : Nat} {ws : List Word} {d : Fin 4} (dst : finOf 4 (field w0 6 2) = d) (away : d ≠ m.lace.device)
    (reach : laceReach m d.val = true) : laceDispatch (dropHead m 23) w0 ws = laceSend (dropHead m 23) (field w0 0 4) (some d) ws := by
  have other : (d == (dropHead m 23).lace.device) = false := beq_eq_false_iff_ne.mpr away
  have reached : laceReach (dropHead m 23) d.val = true := reach
  unfold laceDispatch
  rw [dst]
  simp only [other, reached, Bool.and_false, Bool.false_eq_true, if_false, if_true]

/-- A DICT frame of the device for itself goes to the dictionary service. -/
theorem laceDispatch_own {w0 : Nat} {ws : List Word} (kind : field w0 0 4 = 7) (dst : finOf 4 (field w0 6 2) = m.lace.device) :
    laceDispatch (dropHead m 23) w0 ws =
      modDict (dropHead m 23) fun d => { d with laceIn := d.laceIn ++ [(finOf 4 (field w0 4 2), wordsBytes ws, m.now)] } := by
  have own : (m.lace.device == (dropHead m 23).lace.device) = true := beq_self_eq_true m.lace.device
  unfold laceDispatch
  rw [dst]
  simp only [kind, own, decide_true, Bool.and_self, if_true]
  rfl

theorem dropHead_pkts {q : Fin 32} {p : Packet} {rest : List Packet} (head : (m.pool.qs[q]).pkts = p :: rest) :
    ((dropHead m q).pool.qs[q]).pkts = rest := by
  rw [dropHead, modQ_get, if_pos rfl, head, List.drop_one, List.tail_cons]

theorem laceSend_queue (m : Main) (type : Nat) (dst : Option (Fin 4)) (ws : List Word) : (laceSend m type dst ws).pool = m.pool := by
  have sent (x : Main) (l : LaceLink) (w0 eseq : Nat) : (linkSend x l w0 eseq ws).pool = x.pool := by
    cases l
    · exact count_pool x 0x70F8 0x01
    · exact count_pool x 0x70F8 0x01
  unfold laceSend
  dsimp only
  split
  · rfl
  · split
    · rfl
    · split
      · rw [sent, sent]
        rfl
      · rw [sent]
        rfl

/-- A frame passed on waits for its acknowledgement at the other link. -/
theorem answers_forwards {ws : List Word} (on : laceOn s.m = true) (formed : 2 ≤ s.m.lace.state) (upB : s.m.lace.linkB.up = true)
    (upA : s.m.lace.linkA.up = true) (whole : laceWhole ws = true)
    (forOthers : (laceHeadOf ws).bcast = true ∨ (laceHeadOf ws).dst ≠ s.m.lace.device) (other : (laceHeadOf ws).src ≠ s.m.lace.device)
    (kind : (laceHeadOf ws).type ≠ 0) (known : (laceHeadOf ws).type.toNat < 0xB) : answers (.laceFrameForward .b ws) s fun t =>
      t.m.lace.linkA.unacked = s.m.lace.linkA.unacked ++ [{
        lseq := s.m.lace.linkA.nextSeq, at_ := s.m.now, words := laceSealed (nth ws 0 0 ::
          word ((laceHeadOf ws).eseq.toNat + s.m.lace.linkA.nextSeq * 65536) :: lacePayload ws) }] ∧
      counter t.m 0x70F8 0x01 = sat32 (counter s.m 0x70F8 0x01 + 1) ∧
      counter t.m 0x70F8 0x02 = (if (laceHeadOf ws).bcast then counter s.m 0x70F8 0x02 else sat32 (counter s.m 0x70F8 0x02 + 1)) ∧
      laceMain s.m t.m ∧ mainOnly s t := by
  refine answers_of_onMain (f := fun m => forwardFrame m .b ws) rfl ?_
  rw [forwardFrame_passes on formed upB upA whole forOthers other kind known]
  have sent (x : Main) (w : Word) (eseq : Nat) (payload : List Word) : (linkSend x .a w.toNat eseq payload).lace.linkA.unacked =
      x.lace.linkA.unacked ++ [{
        lseq := x.lace.linkA.nextSeq, at_ := x.now, words := laceSealed (w :: word (eseq + x.lace.linkA.nextSeq * 65536) :: payload) }] := by
    simp [linkSend, word]
  have told (x : Main) (w0 eseq : Nat) (payload : List Word) := laceTold_linkSend x .a w0 eseq payload
  rw [sent]
  cases (laceHeadOf ws).bcast
  · have linkA : (frameAcked s.m .b ws).lace.linkA = s.m.lace.linkA :=
      (linkOf_modLink_other (count s.m 0x70F8 0x02) .b _).trans (linkOf_count s.m 0x70F8 0x02 .a)
    have now : (frameAcked s.m .b ws).now = s.m.now := (modLink_now ..).trans (count_now ..)
    simp only [Bool.false_eq_true, if_false]
    refine ⟨by rw [linkA, now], (counter_count_same ..).trans ?_, ((told ..).tally _ _ (by decide) (by decide)).trans ?_,
      laceMain_trans (laceMain_frameAcked ..) (laceTold_main (told ..)), mainOnly_m _ _⟩
    · rw [frameAcked, counter_modLink, counter_count_other (by decide)]
    · rw [frameAcked, counter_modLink, counter_count_same]
  · simp only [if_true]
    exact ⟨trivial, counter_count_same .., (told ..).tally _ _ (by decide) (by decide), laceTold_main (told ..), mainOnly_m _ _⟩

/-! ## The statement -/

theorem laceSends : Obligations.LaceSends := by
  unfold Obligations.LaceSends
  refine ⟨?tick, ?noTick, ?phase, ?noPhase, ?missing, ?noMissing, ?aligned, ?noAlign, ?relocks, ?realigns, ?forwards, ?own, ?leaves, ?comes, ?off⟩
  case tick =>
    intro s ring lead
    refine answers_of_onMain (f := fun m => if laceOn m then sendTick m else m) rfl ?_
    dsimp only
    rw [if_pos ring.on, sendTick, if_pos lead]
    exact ⟨laceSend_sent ring .., laceSend_counts ring .., laceMain_laceSend .., mainOnly_m _ _⟩
  case noTick =>
    intro s follower
    refine exec_of_onMain (f := fun m => if laceOn m then sendTick m else m) rfl ?_
    simp [sendTick, follower]
  case phase =>
    intro s ring lead eng source
    refine answers_of_onMain (f := fun m => if laceOn m && engOn m && phaseSource m = 2 then sendPhase m false else m) rfl ?_
    dsimp only
    rw [if_pos (by simp [ring.on, eng, source]), sendPhase, if_pos lead, show place 20 1 (bitN false) = 0 from rfl, Nat.add_zero]
    exact ⟨laceSend_sent ring .., laceMain_laceSend .., mainOnly_m _ _⟩
  case noPhase =>
    intro s h
    refine exec_of_onMain (f := fun m => if laceOn m && engOn m && phaseSource m = 2 then sendPhase m false else m) rfl ?_
    rcases h with h | h <;> simp [sendPhase, h]
  case missing =>
    intro s ring follower eng coast
    refine answers_of_onMain (f := fun m => if laceOn m && engOn m && m.lace.role = 2 && decide (2 ≤ m.lace.state) then
      missedEdge (count m 0x70F8 0x08) else m) rfl ?_
    dsimp only
    rw [if_pos (by simp [ring.on, eng, follower, ring.ring])]
    have ph : (count s.m 0x70F8 0x08).ph.st = 2 := by rw [count_ph, coast]
    unfold missedEdge
    dsimp only
    rw [if_neg (by rw [ph]; decide), if_pos ph]
    refine ⟨?_, counter_count_same .., laceMain_trans (laceMain_count ..) (laceMain_modPh ..), mainOnly_m _ _⟩
    rw [modPh_ph, count_ph]
  case noMissing =>
    intro s lead
    show execLacePhaseMissing s = _
    simp [execLacePhaseMissing, onMain, lead]
  case aligned =>
    intro s x follower at_ past
    refine answers_of_onMain (f := alignBoundary) rfl ?_
    have calm := evaluate_calm (modLace s.m fun l => { l with aligned := true, alignAt := none })
    unfold alignBoundary
    rw [at_]
    dsimp only
    rw [if_pos (by simp [past, follower])]
    exact ⟨calm_aligned calm, calm_alignAt calm, laceMain_trans (laceMain_modLace s.m _) (laceMain_of_reader (readerOnly_evaluate _)), mainOnly_m _ _⟩
  case noAlign =>
    intro s none
    refine exec_of_onMain (f := alignBoundary) rfl ?_
    rw [alignBoundary, none]
  case relocks =>
    intro s follower
    show execCarrierVcoRelock s = _
    simp [execCarrierVcoRelock, onMain, follower]
  case realigns =>
    intro s ring lead
    refine answers_of_onMain (f := fun m => if m.lace.role = 2 then modLace m fun l => { l with aligned := false, alignAt := none }
      else if laceOn m then sendAlign m else m) rfl ?_
    dsimp only
    rw [if_neg (by rw [lead]; decide), if_pos ring.on]
    exact ⟨sendAlign_sent ring lead, laceTold_main (laceTold_sendAlign s.m), mainOnly_m _ _⟩
  case forwards => exact fun s ws => answers_forwards
  case own =>
    intro s l ws whole alone own
    refine exec_of_onMain (f := fun m => forwardFrame m l ws) rfl ?_
    simp [forwardFrame, whole, alone, own]
  case leaves =>
    intro s p rest w ws d ring ctl consumer head closed sound type words dest away reach
    refine answers_of_onMain (f := laceFrameTx) rfl ?_
    have dropped : inRing (dropHead s.m 23) := ⟨ring.on, ring.ring, ring.role, ring.linkA⟩
    have dst : finOf 4 (field w.toNat 6 2) = d := by
      rw [← dest]
      exact Fin.ofNat_val_eq_self d
    rw [laceFrameTx_packet ring.on ctl consumer head closed sound type words, laceDispatch_sends dst away reach]
    refine ⟨?_, laceSend_sent dropped .., laceMain_trans (b := dropHead s.m 23) rfl (laceMain_laceSend ..), mainOnly_m _ _⟩
    rw [laceSend_queue]
    exact dropHead_pkts head
  case comes =>
    intro s p rest w ws on ctl consumer head closed sound type words kind own
    refine answers_of_onMain (f := laceFrameTx) rfl ?_
    have dst : finOf 4 (field w.toNat 6 2) = s.m.lace.device := by
      rw [own]
      exact Fin.ofNat_val_eq_self _
    rw [laceFrameTx_packet on ctl consumer head closed sound type words, laceDispatch_own kind dst]
    exact ⟨dropHead_pkts head, rfl, rfl, mainOnly_m _ _⟩
  case off =>
    intro s off
    refine exec_of_onMain (f := laceFrameTx) rfl ?_
    simp [laceFrameTx, off]

end Sys2Proof.Machine

end

section
/-!
Proofs of the statement on frames of other devices of the lace (R530, R532, R533, R535–R537, R539, R542–R544): each that arrives whole has its effect
once, a damaged one is counted, and a repeated one has no other effect.
-/

namespace Sys2Proof.Machine

variable {s : State} {a b m : Main} {l : LaceLink} {ws : List Word}

/-! ## Damaged frames (R530) -/

/-- A damaged frame is counted. -/
def frameDamaged (m : Main) (l : LaceLink) : Main :=
  modLink (count m 0x70F8 0x03) l fun k => { k with failed := (k.failed.filter fun t => decide (m.now < t + tickMs)) ++ [m.now] }

theorem frameDamaged_failed (m : Main) (l : LaceLink) : (linkOf (frameDamaged m l) l).failed.length =
    ((linkOf m l).failed.filter fun x => decide (m.now < x + tickMs)).length + 1 := by
  rw [frameDamaged, linkOf_modLink_same, linkOf_count, List.length_append]
  rfl

theorem hearFrame_damaged (on : laceOn m = true) (up : (linkOf m l).up = true) (damaged : laceWhole ws = false) : hearFrame m l ws =
    (false, if 16 < (linkOf (frameDamaged m l) l).failed.length then linkFall (frameDamaged m l) l else frameDamaged m l) := by
  unfold hearFrame
  rw [if_neg (by simp [on, up]), if_neg (by simp [damaged])]
  rfl

theorem laceArrive_damaged (mine : Bool) (damaged : laceWhole ws = false) : laceArrive m l ws mine = (false, (hearFrame m l ws).2) := by
  have unheard : (hearFrame m l ws).1 = false := by
    unfold hearFrame
    split
    · rfl
    · rw [if_neg (by simp [damaged])]
  unfold laceArrive
  simp only [damaged, unheard, Bool.false_and, Bool.false_eq_true, if_false, Bool.not_false, Bool.true_or, if_true]

/-! ## A frame that is not taken -/

/-- What the row of a frame's type leaves of a frame that is not taken. -/
structure rowsRefuse (s : State) (l : LaceLink) (ws : List Word) (x : Main) : Prop where
  tick    : laceArrive s.m l ws (isLace ws 1) = (false, x) → exec (.laceTick l ws) s = .next { s with m := x }
  phase   : laceArrive s.m l ws (isLace ws 2) = (false, x) → exec (.lacePhase l ws) s = .next { s with m := x }
  align   : laceArrive s.m l ws (isLace ws 3) = (false, x) → exec (.laceAlign l ws) s = .next { s with m := x }
  field   : laceArrive s.m l ws (isLace ws 4) = (false, x) → exec (.laceField l ws) s = .next { s with m := x }
  claim   : laceArrive s.m l ws (isLace ws 5) = (false, x) → exec (.laceClaim l ws) s = .next { s with m := x }
  accept  : laceArrive s.m l ws (isLace ws 6) = (false, x) → exec (.laceAccept l ws) s = .next { s with m := x }
  dict    : laceArrive s.m l ws (isLace ws 7) = (false, x) → exec (.laceDict l ws) s = .next { s with m := x }
  stitch  : laceArrive s.m l ws (isLace ws 8 && !(stitchOf ws).2) = (false, x) → exec (.laceStitch l ws) s = .next { s with m := x }
  refusal : laceArrive s.m l ws (isLace ws 8 && (stitchOf ws).2) = (false, x) → exec (.laceStitchRefusal l ws) s = .next { s with m := x }
  result  : laceArrive s.m l ws (isLace ws 9) = (false, x) → exec (.laceResult l ws) s = .next { s with m := x }
  journal : laceArrive s.m l ws (isLace ws 10) = (false, x) → exec (.laceJournal l ws) s = .next { s with m := x }

theorem rows_refuse (s : State) (l : LaceLink) (ws : List Word) (x : Main) : rowsRefuse s l ws x := by
  constructor <;> intro h <;>
    simp only [exec, execLaceTick, execLacePhase, execLaceAlign, execLaceField, execLaceClaim, execLaceAccept, execLaceDict, execLaceStitch,
      execLaceStitchRefusal, execLaceResult, execLaceJournal, onMain, h, Bool.false_and, Bool.not_false, Bool.true_or, Bool.false_eq_true, if_false, if_true]

/-! ## Frames that arrive whole (R530–R533) -/

/-- Where the sequence number of the last frame like this one is kept (R533). -/
def seqPlace (ws : List Word) : Nat := (laceHeadOf ws).src.val + 4 * bitN (laceHeadOf ws).bcast

/-- How far a frame's sequence number is ahead of the last one. -/
def seqAhead (m : Main) (ws : List Word) : Int :=
  toSigned 16 (fromSigned 16 (((laceHeadOf ws).eseq.toNat : Int) - nth m.lace.eseqIn (seqPlace ws) 0))

/-- A frame arrives whole at a device that it is for. -/
structure laceComes (m : Main) (l : LaceLink) (ws : List Word) : Prop where
  on     : laceOn m = true
  up     : (linkOf m l).up = true
  formed : 2 ≤ m.lace.state
  whole  : laceWhole ws = true
  known  : (laceHeadOf ws).type.toNat < 0xB
  other  : (laceHeadOf ws).src ≠ m.lace.device
  forUs  : (laceHeadOf ws).bcast = true ∨ (laceHeadOf ws).dst = m.lace.device

/-- A frame is taken: its sequence number is the last, and its sender can be reached. -/
def frameReceived (m : Main) (l : LaceLink) (ws : List Word) : Main :=
  markReach (modLace (frameAcked m l ws) fun x => { x with eseqIn := x.eseqIn.set (seqPlace ws) (laceHeadOf ws).eseq.toNat }) (laceHeadOf ws).src

theorem laceArrive_comes (comes : laceComes m l ws) : laceArrive m l ws true =
    if seqAhead m ws ≤ 0 then (false, count (frameAcked m l ws) 0x70F8 0x0D)
    else (true, markReach (modLace (countIf (decide (1 < seqAhead m ws)) (frameAcked m l ws) 0x70F8 0x0C) fun x =>
      { x with eseqIn := x.eseqIn.set (seqPlace ws) (laceHeadOf ws).eseq.toNat }) (laceHeadOf ws).src) := by
  have lace := frameAcked_lace m l ws
  have known : decide (0xB ≤ (laceHeadOf ws).type.toNat) = false := decide_eq_false (Nat.not_le.mpr comes.known)
  have other : ((laceHeadOf ws).src == m.lace.device) = false := beq_eq_false_iff_ne.mpr comes.other
  have forUs : ((laceHeadOf ws).bcast || (laceHeadOf ws).dst == m.lace.device) = true := by
    rcases comes.forUs with h | h <;> simp [h]
  have formed : decide ((frameAcked m l ws).lace.state < 2) = false := by
    rw [lace]
    exact decide_eq_false (Nat.not_lt.mpr comes.formed)
  have last : (frameAcked m l ws).lace.eseqIn = m.lace.eseqIn := by rw [lace]
  unfold laceArrive
  simp only [comes.whole, known, other, forUs, hearFrame_good comes.on comes.up comes.whole, formed, last, Bool.or_self, Bool.not_false, Bool.not_true,
    Bool.true_and, Bool.and_self, Bool.false_eq_true, if_false]
  rfl

theorem count_modLink (m : Main) (l : LaceLink) (f : Link → Link) (idx sub : Nat) : count (modLink m l f) idx sub = modLink (count m idx sub) l f := by
  cases l <;> rfl

/-- A repeated frame is acknowledged and counted. -/
theorem laceArrive_repeated (comes : laceComes m l ws) (past : (laceHeadOf ws).eseq.toNat ≤ nth m.lace.eseqIn (seqPlace ws) 0)
    (near : nth m.lace.eseqIn (seqPlace ws) 0 < (laceHeadOf ws).eseq.toNat + 32768) : laceArrive m l ws true =
      (false, modLink (count (count m 0x70F8 0x02) 0x70F8 0x0D) l fun k => { k with acked := some (laceHeadOf ws).lseq.toNat }) := by
  have behind : seqAhead m ws ≤ 0 := by
    unfold seqAhead toSigned fromSigned
    generalize nth m.lace.eseqIn (seqPlace ws) 0 = last at *
    generalize (laceHeadOf ws).eseq.toNat = seq at *
    split <;> omega
  rw [laceArrive_comes comes, if_pos behind, frameAcked, count_modLink]

/-- The next frame of a device is taken. -/
theorem laceArrive_next (comes : laceComes m l ws) (next : (nth m.lace.eseqIn (seqPlace ws) 0 + 1) % 65536 = (laceHeadOf ws).eseq.toNat) :
    laceArrive m l ws true = (true, frameReceived m l ws) := by
  have ahead : seqAhead m ws = 1 := by
    unfold seqAhead toSigned fromSigned
    generalize nth m.lace.eseqIn (seqPlace ws) 0 = last at *
    generalize (laceHeadOf ws).eseq.toNat = seq at *
    split <;> omega
  rw [laceArrive_comes comes, ahead]
  rfl

theorem laceComes_of_hears {type : Nat} (small : type < 0xB) (hears : laceHears m l ws type) : laceComes m l ws :=
  ⟨hears.on, hears.link, hears.formed, hears.whole, hears.kind ▸ small, hears.other, hears.forUs⟩

theorem laceArrive_hears {type : Nat} (small : type < 0xB) (hears : laceHears m l ws type) : laceArrive m l ws (isLace ws type) = (true, frameReceived m l ws) := by
  have kind : isLace ws type = true := by simp [isLace, hears.kind]
  rw [kind]
  exact laceArrive_next (laceComes_of_hears small hears) hears.seq

/-- What the arrival of a frame leaves. -/
structure received (a b : Main) (l : LaceLink) (ws : List Word) : Prop where
  lace  : b.lace = { a.lace with
    linkA := { a.lace.linkA with acked := b.lace.linkA.acked }, linkB := { a.lace.linkB with acked := b.lace.linkB.acked }
    members := b.lace.members, departed := b.lace.departed, state := b.lace.state, eseqIn := b.lace.eseqIn }
  acked : (linkOf b l).acked = some (laceHeadOf ws).lseq.toNat
  state : a.lace.state = 2 → b.lace.state = 2
  has   : laceHas b (laceHeadOf ws).src.val = true
  tally : ∀ idx sub, ekey idx sub ≠ ekey 0x70F8 0x02 → counter b idx sub = counter a idx sub
  flt   : b.flt = { a.flt with ctr := b.flt.ctr }
  only  : b = { a with lace := b.lace, flt := b.flt }

/-- The lace once a device has been heard. -/
def Lace.reaching (x : Lace) (d : Fin 4) : Lace :=
  let y := { x with members := x.members ||| deviceSet [d.val], departed := x.departed &&& ~~~(deviceSet [d.val]) }
  if y.state = 4 && allReached y then { y with state := 3 } else y

theorem reaching_eq (x : Lace) (d : Fin 4) : x.reaching d = { x with
    members := x.members ||| deviceSet [d.val], departed := x.departed &&& ~~~(deviceSet [d.val]), state := (x.reaching d).state } ∧
    (x.state = 2 → (x.reaching d).state = 2) := by
  unfold Lace.reaching
  dsimp only
  split
  · rename_i reached
    refine ⟨rfl, fun ring => ?_⟩
    simp [ring] at reached
  · exact ⟨rfl, fun ring => ring⟩

theorem frameReceived_received (m : Main) (l : LaceLink) (ws : List Word) : received m (frameReceived m l ws) l ws := by
  obtain ⟨reached, kept⟩ := reaching_eq { (frameAcked m l ws).lace with
    eseqIn := (frameAcked m l ws).lace.eseqIn.set (seqPlace ws) (laceHeadOf ws).eseq.toNat } (laceHeadOf ws).src
  have lace : (frameReceived m l ws).lace = Lace.reaching { (frameAcked m l ws).lace with
    eseqIn := (frameAcked m l ws).lace.eseqIn.set (seqPlace ws) (laceHeadOf ws).eseq.toNat } (laceHeadOf ws).src := rfl
  have acked := frameAcked_lace m l ws
  have links : (frameAcked m l ws).lace.linkA = { m.lace.linkA with acked := (frameAcked m l ws).lace.linkA.acked } ∧
      (frameAcked m l ws).lace.linkB = { m.lace.linkB with acked := (frameAcked m l ws).lace.linkB.acked } := by
    cases l <;> exact ⟨rfl, rfl⟩
  refine ⟨?_, ?_, fun ring => ?_, ?_, fun idx sub other => ?_, ?_, ?_⟩
  · rw [lace, reached, acked, links.1, links.2]
  · have link : linkOf (frameReceived m l ws) l = linkOf (frameAcked m l ws) l := by
      have linkA := congrArg Lace.linkA lace
      have linkB := congrArg Lace.linkB lace
      rw [reached] at linkA linkB
      cases l
      · exact linkA
      · exact linkB
    rw [link, frameAcked, linkOf_modLink_same]
  · exact kept (by rw [acked]; exact ring)
  · rw [laceHas, lace, reached]
    exact (testBit_or_deviceSet _ _ (laceHeadOf ws).src.isLt).trans (by simp)
  · exact (counter_modLink ..).trans (counter_count_other other)
  · have flt : (frameReceived m l ws).flt = (count m 0x70F8 0x02).flt := modLink_flt ..
    rw [flt]
    rfl
  · cases l <;> rfl

section Received

variable (h : received a b l ws)

include h

theorem received_main : laceMain a b := by
  rw [h.only]
  rfl

theorem received_inRing (ring : inRing a) : inRing b := by
  have lace := h.lace
  refine ⟨?_, h.state ring.ring, ?_, ?_⟩
  · rw [h.only]
    exact ring.on
  · rw [lace]
    exact ring.role
  · rw [lace]
    exact ring.linkA

/-- A frame sent after the arrival of another is sent all the same. -/
theorem received_sent {c : Main} {type : Nat} {dst : Option (Fin 4)} {words : List Word} (sent : sentByA b c type dst words) : sentByA a c type dst words := by
  have now : b.now = a.now := by rw [h.only]
  have linkA : b.lace.linkA = { a.lace.linkA with acked := b.lace.linkA.acked } := by rw [h.lace]
  have eseqOut : b.lace.eseqOut = a.lace.eseqOut := by rw [h.lace]
  have head : laceHead b type dst words = laceHead a type dst words := by
    have device : b.lace.device = a.lace.device := by rw [h.lace]
    rw [laceHead, laceHead, device]
  unfold sentByA at sent ⊢
  rw [sent, head, now, eseqOut, linkA]

theorem received_ctl : ctlOn b = ctlOn a := by rw [h.only]; rfl
theorem received_pool : b.pool = a.pool := by rw [h.only]
theorem received_cores : b.cores = a.cores := by rw [h.only]
theorem received_sch : b.sch = a.sch := by rw [h.only]
theorem received_noFields (none : noFields a) : noFields b := fun k => by rw [received_cores h]; exact none k

end Received

/-! ## Ticks, phases and alignments (R535–R537) -/

/-- The row that serves a frame acts on the machine that has received it. -/
theorem exec_laceTick (hears : laceHears s.m l ws 1) : exec (.laceTick l ws) s = .next { s with
    m := if (frameReceived s.m l ws).lace.role == 2 && (laceHeadOf ws).src == 0 then takeTick (frameReceived s.m l ws) (payload64 ws 0)
      else frameReceived s.m l ws } := by
  show execLaceTick l ws s = _
  simp only [execLaceTick, onMain, laceArrive_hears (by decide) hears, Bool.true_and]

/-- The tick counter takes the lead's count, and does not fall. -/
theorem takeTick_takes (m : Main) (n : Nat) : tickAt (takeTick m n) m.now = max (tickAt m m.now) (n + m.lace.pathLat) ∧
    (takeTick m n).lace.tickOff = (n : Int) + m.lace.pathLat - tickAt m m.now ∧ ∀ u, tickAt m m.now ≤ tickAt (takeTick m n) u := by
  refine ⟨?_, ?_, fun u => le_max_left ..⟩
  · show max (tickAt m m.now) (((m.now : Int) + (((n + m.lace.pathLat : Nat) : Int) - m.now)).toNat) = _
    congr 1
    omega
  · show (((n + m.lace.pathLat : Nat) : Int) - tickAt m m.now) = _
    omega

/-! ### The generator through a change of windows (R85, R179, R536) -/

theorem forEach_ph {α : Type} (f : Main → α → Main) (h : ∀ x i, (f x i).ph = x.ph) (xs : List α) (m : Main) : (forEach xs m f).ph = m.ph :=
  forEach_keeps Main.ph f h xs m

theorem dropFields_ph (before : Main) (also : Fin 16 → FieldRec → Bool) (m : Main) : (dropFields before also m).ph = m.ph := by
  refine forEach_ph _ (fun x k => ?_) _ m
  split
  · split
    · split
      · exact readerOnly_ph_eq (readerOnly_trans (readerOnly_endField x k) (readerOnly_regrant ..))
      · split
        · exact readerOnly_ph_eq (readerOnly_windowClosed ..)
        · exact count_ph ..
    · rfl
  · rfl

@[simp] theorem portResult_ph (m : Main) (p : Fin 128) (f : Port → Port) : (portResult m p f).ph = m.ph := by
  rw [portResult, modPort_ph]

@[simp] theorem setTrims_ph (m : Main) (k : Fin 16) (f : Core → Core) : (setTrims m k f).ph = m.ph := by
  rw [setTrims, modCore_ph]

theorem staleOut_ph (m : Main) : (staleOut m).ph = m.ph := by
  unfold staleOut
  generalize Vector.ofFn _ = ports
  rfl

theorem applyResult_ph (m : Main) (r : BurnResult) : (applyResult m r).ph = m.ph := by
  fun_cases applyResult m r
  case case1 | case2 => rw [portResult_ph, modBrn_ph]
  case case3 => rw [portResult_ph, countIf_ph, countIf_ph, modBrn_ph]
  case case4 => rw [portResult_ph, modBrn_ph]
  case case5 => rw [portResult_ph]
  case case6 | case7 => rw [setTrims_ph]
  case case8 | case11 => rfl
  case case9 => rw [modBrn_ph]
  case case10 => rw [forEach_ph _ (fun x e => journal_ph ..), portResult_ph]
  case case12 => rw [modPort_ph, portResult_ph]
  case case13 => rw [portResult_ph]
  case case14 => rw [journal_ph, count_ph]
  case case15 => exact forEach_ph (fun m k => modCore m k _) (fun x k => modCore_ph ..) _ _
  case case16 tuned all =>
    have kept : tuned.ph = m.ph := (modBrn_ph ..).trans (count_ph ..)
    exact kept
  all_goals simp

theorem pumpRetest_ph (m : Main) : (pumpRetest m).ph = m.ph := readerOnly_ph_eq (readerOnly_pumpRetest m)

theorem commitBurnish_ph (m : Main) : (commitBurnish m).ph = m.ph := by
  unfold commitBurnish
  extract_lets now later written stepped done
  have written_ph : written.ph = m.ph := by
    simp only [written]
    split
    · rfl
    · rw [count_ph, forEach_ph _ applyResult_ph, modBrn_ph]
  have stepped_ph : stepped.ph = m.ph := by
    simp only [stepped, modBrn_ph]
    split
    · rw [staleOut_ph, written_ph]
    · exact written_ph
  have done_ph : done.ph = m.ph := by
    simp only [done]
    split
    · split
      · exact (pumpRetest_ph _).trans stepped_ph
      · exact stepped_ph
    · exact written_ph
  split
  · rw [evaluate_ph, done_ph]
  · exact done_ph

theorem windowsChanged_ph (before : Main) (also : Fin 16 → FieldRec → Bool) (m : Main) : (windowsChanged before also m).ph = m.ph := by
  rw [windowsChanged, evaluate_ph, commitBurnish_ph, dropFields_ph]

theorem maybeSwitch_none (pending : m.plan.pending = none) (old : Nat) : maybeSwitch m old = m := by
  rw [maybeSwitch, pending]

/-- With no switch of the plan pending, the generator takes the lead's phase. -/
theorem takePhase_ph {stamp cycle phase period st : Nat} (pending : m.plan.pending = none) : (takePhase m stamp cycle phase period st).ph =
    { m.ph with
      base := phase, at_ := min m.now (timeOfTick m stamp), hold := 0, slewE := 0, slewEnd := 0, period := max 1 period, cycle := cycle, st := st
      missed := 0, accepted := true, pendPeriod := none } := by
  unfold takePhase
  extract_lets before old based switched
  have stays : switched = based := by
    have none : based.plan.pending = none := pending
    simp only [switched]
    rw [maybeSwitch_none none, ite_self]
  rw [windowsChanged_ph, stays]
  rfl

end Sys2Proof.Machine

end

section
/-!
Proofs of the statement on frames of other devices of the lace (R530, R532, R533, R535–R537, R539, R542–R544): what each type of frame brings, and the
statement.
-/

namespace Sys2Proof.Machine

variable {s : State} {m : Main} {l : LaceLink} {ws : List Word}

/-! ## Damaged frames and the loss of their link (R530) -/

theorem answers_damaged {lat : Nat} {t : State} (on : laceOn s.m = true) (up : (linkOf s.m l).up = true) (formed : 2 ≤ s.m.lace.state)
    (damaged : laceWhole ws = false) (few : ((linkOf s.m l).failed.filter fun x => decide (s.m.now < x + tickMs)).length < 16)
    (ends : t = { s with m := frameDamaged s.m l }) :
    exec (.laceTick l ws) s = .next t ∧ exec (.lacePhase l ws) s = .next t ∧ exec (.laceAlign l ws) s = .next t ∧
    exec (.laceField l ws) s = .next t ∧ exec (.laceClaim l ws) s = .next t ∧ exec (.laceAccept l ws) s = .next t ∧
    exec (.laceDict l ws) s = .next t ∧ exec (.laceStitch l ws) s = .next t ∧ exec (.laceStitchRefusal l ws) s = .next t ∧
    exec (.laceResult l ws) s = .next t ∧ exec (.laceJournal l ws) s = .next t ∧ exec (.laceFrameForward l ws) s = .next t ∧
    exec (.laceDiscover l ws lat) s = .next t := by
  have heard : hearFrame s.m l ws = (false, frameDamaged s.m l) := by
    rw [hearFrame_damaged on up damaged, frameDamaged_failed, if_neg (by omega)]
  have arrives (mine : Bool) : laceArrive s.m l ws mine = (false, frameDamaged s.m l) := by rw [laceArrive_damaged mine damaged, heard]
  have rows := rows_refuse s l ws (frameDamaged s.m l)
  subst ends
  refine ⟨rows.tick (arrives _), rows.phase (arrives _), rows.align (arrives _), rows.field (arrives _), rows.claim (arrives _), rows.accept (arrives _),
    rows.dict (arrives _), rows.stitch (arrives _), rows.refusal (arrives _), rows.result (arrives _), rows.journal (arrives _),
    exec_of_onMain (f := fun m => forwardFrame m l ws) rfl ?_, ?_⟩
  · simp [forwardFrame, damaged, heard, Nat.not_lt.mpr formed]
  · show execLaceDiscover l ws lat s = _
    simp [execLaceDiscover, onMain, damaged, heard]

theorem laceWithout_calm (m : Main) (gone : List (Fin 4)) : (laceWithout m gone).calm = m.calm := by
  have counted : (countN m 0x70F8 0x0C (m.lace.away.filter fun x => gone.contains x.1).length).calm = m.calm :=
    countN_calm _ (by decide) (by decide)
  exact counted

theorem laceLose_calm (m : Main) (gone : List (Fin 4)) : (laceLose m gone).calm = m.calm := by
  rw [laceLose_eq, evaluate_calm, releaseGaps_calm, laceWithout_calm]

theorem laceSplit_calm (m : Main) (gone : List (Fin 4)) : (laceSplit m gone).calm = m.calm := by
  unfold laceSplit
  split
  · rfl
  · dsimp only
    rw [journal_calm, laceLose_calm]
    rfl

/-- However the lace takes the loss of a link, it is calm beside. -/
theorem linkFall_calm (up : (linkOf m l).up = true) : (linkFall m l).calm = (reroute (count m 0x70F8 0x05) l).calm := by
  rw [linkFall, if_neg (by simp [up])]
  dsimp only
  split
  · rw [journal_calm]
    have counted : (count (reroute (count m 0x70F8 0x05) l) 0x70F8 0x06).calm = (reroute (count m 0x70F8 0x05) l).calm :=
      countN_calm 1 (by decide) (by decide)
    exact counted
  · split
    · exact laceSplit_calm ..
    · rfl

theorem laceMain_linkFall (m : Main) (l : LaceLink) : laceMain m (linkFall m l) := by
  have routed : laceMain m (reroute (count m 0x70F8 0x05) l) := laceMain_trans (laceMain_count ..) (laceMain_reroute ..)
  unfold linkFall
  split
  · exact laceMain_refl m
  · dsimp only
    split
    · exact laceMain_trans (laceMain_ringBroken m l) (laceMain_of_pool (poolOnly_journal ..))
    · split
      · exact laceMain_trans routed (laceMain_laceSplit ..)
      · exact routed

/-- The seventeenth damaged frame within 1 ms takes the link down. -/
theorem answers_linkLost (on : laceOn s.m = true) (up : (linkOf s.m l).up = true) (damaged : laceWhole ws = false)
    (many : 16 ≤ ((linkOf s.m l).failed.filter fun x => decide (s.m.now < x + tickMs)).length) : answers (.laceTick l ws) s fun t =>
      (linkOf t.m l).up = false ∧ counter t.m 0x70F8 0x03 = sat32 (counter s.m 0x70F8 0x03 + 1) ∧
      counter t.m 0x70F8 0x05 = sat32 (counter s.m 0x70F8 0x05 + 1) ∧ mainOnly s t := by
  have arrives : laceArrive s.m l ws (isLace ws 1) = (false, linkFall (frameDamaged s.m l) l) := by
    rw [laceArrive_damaged _ damaged, hearFrame_damaged on up damaged, frameDamaged_failed, if_pos (by omega)]
  have still : (linkOf (frameDamaged s.m l) l).up = true := by
    rw [frameDamaged, linkOf_modLink_same, linkOf_count]
    exact up
  have fallen := linkFall_calm still
  refine ⟨_, (rows_refuse s l ws _).tick arrives, ?_, ?_, ?_, mainOnly_m _ _⟩
  · rw [calm_up fallen, reroute_own]
  · rw [calm_damaged fallen, counter_reroute (by decide) (by decide), counter_count_other (by decide), frameDamaged, counter_modLink, counter_count_same]
  · rw [calm_downs fallen, counter_reroute (by decide) (by decide), counter_count_same, frameDamaged, counter_modLink, counter_count_other (by decide)]

/-! ## Repeated frames (R533) -/

theorem answers_repeated {t : State} (on : laceOn s.m = true) (up : (linkOf s.m l).up = true) (formed : 2 ≤ s.m.lace.state)
    (whole : laceWhole ws = true) (other : (laceHeadOf ws).src ≠ s.m.lace.device) (forUs : (laceHeadOf ws).bcast = true ∨ (laceHeadOf ws).dst = s.m.lace.device)
    (past : (laceHeadOf ws).eseq.toNat ≤ nth s.m.lace.eseqIn (seqPlace ws) 0)
    (near : nth s.m.lace.eseqIn (seqPlace ws) 0 < (laceHeadOf ws).eseq.toNat + 32768)
    (ends : t = { s with m := modLink (count (count s.m 0x70F8 0x02) 0x70F8 0x0D) l fun k => { k with acked := some (laceHeadOf ws).lseq.toNat } }) :
    (isLace ws 1 = true → exec (.laceTick l ws) s = .next t) ∧ (isLace ws 2 = true → exec (.lacePhase l ws) s = .next t) ∧
    (isLace ws 3 = true → exec (.laceAlign l ws) s = .next t) ∧ (isLace ws 4 = true → exec (.laceField l ws) s = .next t) ∧
    (isLace ws 5 = true → exec (.laceClaim l ws) s = .next t) ∧ (isLace ws 6 = true → exec (.laceAccept l ws) s = .next t) ∧
    (isLace ws 7 = true → exec (.laceDict l ws) s = .next t) ∧ (isLace ws 9 = true → exec (.laceResult l ws) s = .next t) ∧
    (isLace ws 10 = true → exec (.laceJournal l ws) s = .next t) ∧
    (isLace ws 8 = true → (stitchOf ws).2 = false → exec (.laceStitch l ws) s = .next t) ∧
    (isLace ws 8 = true → (stitchOf ws).2 = true → exec (.laceStitchRefusal l ws) s = .next t) := by
  have arrives {type : Nat} {mine : Bool} (small : type < 0xB) (kind : isLace ws type = true) (own : mine = true) : laceArrive s.m l ws mine =
      (false, modLink (count (count s.m 0x70F8 0x02) 0x70F8 0x0D) l fun k => { k with acked := some (laceHeadOf ws).lseq.toNat }) := by
    have typed : (laceHeadOf ws).type.toNat = type := by simpa [isLace] using kind
    rw [own]
    exact laceArrive_repeated ⟨on, up, formed, whole, typed ▸ small, other, forUs⟩ past near
  have rows := rows_refuse s l ws (modLink (count (count s.m 0x70F8 0x02) 0x70F8 0x0D) l fun k => { k with acked := some (laceHeadOf ws).lseq.toNat })
  subst ends
  exact ⟨fun h => rows.tick (arrives (by decide) h h), fun h => rows.phase (arrives (by decide) h h), fun h => rows.align (arrives (by decide) h h),
    fun h => rows.field (arrives (by decide) h h), fun h => rows.claim (arrives (by decide) h h), fun h => rows.accept (arrives (by decide) h h),
    fun h => rows.dict (arrives (by decide) h h), fun h => rows.result (arrives (by decide) h h), fun h => rows.journal (arrives (by decide) h h),
    fun h kind => rows.stitch (arrives (by decide) h (by rw [h, kind]; rfl)), fun h kind => rows.refusal (arrives (by decide) h (by rw [h, kind]; rfl))⟩

/-! ## The rows that serve a frame -/

theorem exec_lacePhase (hears : laceHears s.m l ws 2) : exec (.lacePhase l ws) s = .next { s with
    m := if (frameReceived s.m l ws).lace.role == 2 && (laceHeadOf ws).src == 0 && engOn s.m then
        takePhase (frameReceived s.m l ws) (payload64 ws 0) (nth (lacePayload ws) 2 0).toNat
          (if bitAt (nth (lacePayload ws) 3 0).toNat 20 then 0 else field (nth (lacePayload ws) 3 0).toNat 0 16) (nth (lacePayload ws) 4 0).toNat
          (field (nth (lacePayload ws) 3 0).toNat 16 2)
      else frameReceived s.m l ws } := by
  show execLacePhase l ws s = _
  simp only [execLacePhase, onMain, laceArrive_hears (by decide) hears, Bool.true_and]

theorem exec_laceAlign (hears : laceHears s.m l ws 3) : exec (.laceAlign l ws) s = .next { s with
    m := if (frameReceived s.m l ws).lace.role == 2 && (laceHeadOf ws).src == 0 then
        modLace (frameReceived s.m l ws) fun x => { x with alignAt := some (payload64 ws 0) }
      else frameReceived s.m l ws } := by
  show execLaceAlign l ws s = _
  simp only [execLaceAlign, onMain, laceArrive_hears (by decide) hears, Bool.true_and]

theorem exec_laceField (hears : laceHears s.m l ws 4) : exec (.laceField l ws) s = .next { s with
    m := if (edgeOf (lacePayload ws)).gport.val / 128 == (laceHeadOf ws).src.val then takeField (frameReceived s.m l ws) (edgeOf (lacePayload ws))
      else frameReceived s.m l ws } := by
  show execLaceField l ws s = _
  simp only [execLaceField, onMain, laceArrive_hears (by decide) hears, Bool.true_and]

theorem exec_laceClaim (hears : laceHears s.m l ws 5) : exec (.laceClaim l ws) s = .next { s with
    m := if (edgeOf (lacePayload ws)).gport.val / 128 == (laceHeadOf ws).src.val then
        takeClaim (frameReceived s.m l ws) (laceHeadOf ws).src (edgeOf (lacePayload ws))
      else frameReceived s.m l ws } := by
  show execLaceClaim l ws s = _
  simp only [execLaceClaim, onMain, laceArrive_hears (by decide) hears, Bool.true_and]

theorem exec_laceAccept (hears : laceHears s.m l ws 6) : exec (.laceAccept l ws) s = .next { s with
    m := claimAnswer (frameReceived s.m l ws) (laceHeadOf ws).src (bitAt (nth (lacePayload ws) 0 0).toNat 0) } := by
  show execLaceAccept l ws s = _
  simp only [execLaceAccept, onMain, laceArrive_hears (by decide) hears, if_true]

theorem exec_laceDict (hears : laceHears s.m l ws 7) (ctl : ctlOn s.m = true) : exec (.laceDict l ws) s = .next { s with
    m := offerPkt (frameReceived s.m l ws) 23 0x2A 0x04 (word (0x7 + place 4 2 (laceHeadOf ws).src.val + place 6 2 s.m.lace.device.val +
      place 16 16 (4 * (lacePayload ws).length)) :: lacePayload ws) } := by
  show execLaceDict l ws s = _
  simp only [execLaceDict, onMain, laceArrive_hears (by decide) hears, ctl, Bool.and_self, if_true]

/-- A stitch or its refusal arrives as the other types do. -/
theorem laceArrive_stitch {refused : Bool} (hears : laceHears s.m l ws 8) (kind : (stitchOf ws).2 = refused) (mine : Bool)
    (own : mine = (isLace ws 8 && ((stitchOf ws).2 == refused))) : laceArrive s.m l ws mine = (true, frameReceived s.m l ws) := by
  rw [own, kind, beq_self_eq_true, Bool.and_true]
  exact laceArrive_hears (by decide) hears

theorem exec_laceStitch {q : Fin 32} (hears : laceHears s.m l ws 8) (kind : (stitchOf ws).2 = false) (queue : q.val = 24 + (stitchOf ws).1)
    (ctl : ctlOn s.m = true) (space : spaceTest (frameReceived s.m l ws) q ((lacePayload ws).drop 3).length = true) :
    exec (.laceStitch l ws) s = .next { s with
      m := putStitch (frameReceived s.m l ws) q ((lacePayload ws).drop 3) (timeOfTick (frameReceived s.m l ws) (payload64 ws 1)) (laceHeadOf ws).src } := by
  have named : finOf 32 (24 + (stitchOf ws).1) = q := by
    rw [← queue]
    exact Fin.ofNat_val_eq_self q
  show execLaceStitch l ws s = _
  simp only [execLaceStitch, onMain, laceArrive_stitch hears kind (isLace ws 8 && !(stitchOf ws).2) (by rw [kind]; rfl), ctl, named, space, Bool.not_true,
    Bool.or_self, Bool.false_eq_true, if_false, if_true]

theorem exec_laceStitchRefusal {q : Fin 32} (hears : laceHears s.m l ws 8) (kind : (stitchOf ws).2 = true) (queue : q.val = 24 + (stitchOf ws).1)
    (ctl : ctlOn s.m = true) : exec (.laceStitchRefusal l ws) s = .next { s with
      m := stitchRefused (frameReceived s.m l ws) (laceHeadOf ws).src q (timeOfTick (frameReceived s.m l ws) (payload64 ws 1))
        ((lacePayload ws).drop 3) } := by
  have named : finOf 32 (24 + (stitchOf ws).1) = q := by
    rw [← queue]
    exact Fin.ofNat_val_eq_self q
  show execLaceStitchRefusal l ws s = _
  simp only [execLaceStitchRefusal, onMain, laceArrive_stitch hears kind (isLace ws 8 && (stitchOf ws).2) (by rw [kind]; rfl), ctl, named, Bool.and_self,
    if_true]

theorem exec_laceResult (hears : laceHears s.m l ws 9) (ctl : ctlOn s.m = true) : exec (.laceResult l ws) s = .next { s with
    m := takeResult (frameReceived s.m l ws) (laceHeadOf ws).src (lacePayload ws) } := by
  show execLaceResult l ws s = _
  simp only [execLaceResult, onMain, laceArrive_hears (by decide) hears, ctl, Bool.and_self, if_true]

theorem exec_laceJournal (hears : laceHears s.m l ws 0xA) : exec (.laceJournal l ws) s = .next { s with
    m := if (frameReceived s.m l ws).lace.role == 1 then journalMerge (frameReceived s.m l ws) (laceHeadOf ws).src (lacePayload ws)
      else frameReceived s.m l ws } := by
  show execLaceJournal l ws s = _
  simp only [execLaceJournal, onMain, laceArrive_hears (by decide) hears, Bool.true_and]

/-! ## Ticks, phases and alignments (R535–R537) -/

section Heard

variable {a b : Main} (h : received a b l ws)

include h

theorem received_role : b.lace.role = a.lace.role := by rw [h.lace]
theorem received_now : b.now = a.now := by rw [h.only]
theorem received_tickAt (u : Nat) : tickAt b u = tickAt a u := by rw [tickAt, tickAt, h.lace]
theorem received_timeOfTick (t : Nat) : timeOfTick b t = timeOfTick a t := by rw [timeOfTick, timeOfTick, h.lace]

end Heard

theorem answers_laceTick (hears : laceHears s.m l ws 1) (follower : s.m.lace.role = 2) (lead : (laceHeadOf ws).src = 0) :
    answers (.laceTick l ws) s fun t => tickAt t.m s.m.now = max (tickAt s.m s.m.now) (payload64 ws 0 + s.m.lace.pathLat) ∧
      t.m.lace.tickOff = (payload64 ws 0 : Int) + s.m.lace.pathLat - tickAt s.m s.m.now ∧
      (∀ u, tickAt s.m s.m.now ≤ tickAt t.m u) ∧ laceHas t.m 0 = true ∧ (linkOf t.m l).acked = some (laceHeadOf ws).lseq.toNat ∧
      laceMain s.m t.m ∧ mainOnly s t := by
  have h := frameReceived_received s.m l ws
  have has := h.has
  have acked := h.acked
  rw [lead] at has
  have ticks := exec_laceTick hears
  have role : ((frameReceived s.m l ws).lace.role == 2) = true := by rw [received_role h, follower]; rfl
  rw [role, lead, Bool.true_and, if_pos (beq_self_eq_true _)] at ticks
  obtain ⟨goal, off, floor⟩ := takeTick_takes (frameReceived s.m l ws) (payload64 ws 0)
  have pathLat : (frameReceived s.m l ws).lace.pathLat = s.m.lace.pathLat := by rw [h.lace]
  rw [received_now h, received_tickAt h, pathLat] at goal off
  refine ⟨_, ticks, goal, off, fun u => ?_, has, ?_, laceMain_trans (received_main h) (laceMain_modLace _ _), mainOnly_m _ _⟩
  · have floor := floor u
    rwa [received_now h, received_tickAt h] at floor
  · rw [← acked]
    cases l <;> rfl

theorem answers_lacePhase (hears : laceHears s.m l ws 2) (follower : s.m.lace.role = 2) (lead : (laceHeadOf ws).src = 0) (eng : engOn s.m = true)
    (pending : s.m.plan.pending = none) : answers (.lacePhase l ws) s fun t =>
      t.m.ph.cycle = (nth (lacePayload ws) 2 0).toNat ∧ t.m.ph.period = max 1 (nth (lacePayload ws) 4 0).toNat ∧
      t.m.ph.st = field (nth (lacePayload ws) 3 0).toNat 16 2 ∧
      t.m.ph.base = (if bitAt (nth (lacePayload ws) 3 0).toNat 20 then 0 else field (nth (lacePayload ws) 3 0).toNat 0 16) ∧
      t.m.ph.missed = 0 ∧ mainOnly s t := by
  have h := frameReceived_received s.m l ws
  have role : ((frameReceived s.m l ws).lace.role == 2) = true := by rw [received_role h, follower]; rfl
  have none : (frameReceived s.m l ws).plan.pending = none := by rw [h.only]; exact pending
  have serves := exec_lacePhase hears
  rw [role, lead, eng, Bool.and_true, Bool.true_and, if_pos (beq_self_eq_true _)] at serves
  refine ⟨_, serves, ?_⟩
  have taken := takePhase_ph (stamp := payload64 ws 0) (cycle := (nth (lacePayload ws) 2 0).toNat)
    (phase := if bitAt (nth (lacePayload ws) 3 0).toNat 20 then 0 else field (nth (lacePayload ws) 3 0).toNat 0 16)
    (period := (nth (lacePayload ws) 4 0).toNat) (st := field (nth (lacePayload ws) 3 0).toNat 16 2) none
  dsimp only
  rw [taken]
  exact ⟨rfl, rfl, rfl, rfl, rfl, mainOnly_m _ _⟩

theorem answers_laceAlign (hears : laceHears s.m l ws 3) (follower : s.m.lace.role = 2) (lead : (laceHeadOf ws).src = 0) :
    answers (.laceAlign l ws) s fun t => t.m.lace.alignAt = some (payload64 ws 0) ∧ laceMain s.m t.m ∧ mainOnly s t := by
  have h := frameReceived_received s.m l ws
  have role : ((frameReceived s.m l ws).lace.role == 2) = true := by rw [received_role h, follower]; rfl
  have serves := exec_laceAlign hears
  rw [role, lead, Bool.true_and, if_pos (beq_self_eq_true _)] at serves
  exact ⟨_, serves, rfl, laceMain_trans (received_main h) (laceMain_modLace _ _), mainOnly_m _ _⟩

/-! ## Fields of other devices (R532, R539) -/

theorem latchPairs_gaps (m : Main) (v : FV) : gapsOnly m (latchPairs m v) := by
  unfold latchPairs
  refine ⟨forEach_keeps Main.sch _ (fun x k => ?_) _ _, forEach_keeps Main.lace _ (fun x k => ?_) _ _, forEach_keeps Main.flt _ (fun x k => ?_) _ _⟩
  all_goals
    split
    · split <;> rfl
    · rfl

theorem loadDac_lace (m : Main) (k : Fin 16) : (loadDac m k).lace = m.lace := by
  rcases loadDac_cases m k with same | ⟨n, d, same⟩
  · rw [same]
  · rw [same, modCore_lace, countN_lace]

theorem loadCoupled_lace (m : Main) (v : FV) : (loadCoupled m v).lace = m.lace := by
  unfold loadCoupled
  refine forEach_keeps Main.lace _ (fun x k => ?_) _ _
  split
  · split
    · exact loadDac_lace ..
    · rfl
  · rfl

/-- The figures of a field that is new to the lace are latched (R125). -/
def edgeLatched (m : Main) (f : EdgeField) : Main := if (fieldsF m).any fun v => v.g == f.gport.val then m else latchPairs m (EdgeField.view f)

/-- The field of an edge port as another device tells it. -/
def Lace.edgeTold (x : Lace) (f : EdgeField) : Lace :=
  { x with
    edge := (x.edge.filter fun x => x.gport != f.gport) ++ (if f.isOn then [f] else [])
    holding := x.holding.filter fun x => x.2.gport != f.gport
    claims := x.claims.filter fun x => x.2.gport != f.gport }

theorem takeField_eq (m : Main) (f : EdgeField) : takeField m f =
    evaluate (releaseGaps (loadCoupled (modLace (edgeLatched m f) fun x => x.edgeTold f) (EdgeField.view f))) := rfl

theorem edgeLatched_gaps (m : Main) (f : EdgeField) : gapsOnly m (edgeLatched m f) := by
  unfold edgeLatched
  split
  · exact ⟨rfl, rfl, rfl⟩
  · exact latchPairs_gaps ..

theorem laceMain_edgeLatched (m : Main) (f : EdgeField) : laceMain m (edgeLatched m f) := by
  unfold edgeLatched
  split
  · exact laceMain_refl m
  · exact laceMain_of_reader (readerOnly_latchPairs ..)

theorem laceMain_takeField (m : Main) (f : EdgeField) : laceMain m (takeField m f) := by
  rw [takeField_eq]
  exact laceMain_trans (laceMain_edgeLatched m f) (laceMain_trans (laceMain_modLace _ fun x => x.edgeTold f)
    (laceMain_of_reader (readerOnly_trans (readerOnly_loadCoupled ..) (readerOnly_trans (readerOnly_releaseGaps _) (readerOnly_evaluate _)))))

/-- While no request waits, a field told takes its place among the edge fields. -/
theorem takeField_lace {f : EdgeField} (idle : m.sch.reqs = []) : (takeField m f).lace = m.lace.edgeTold f := by
  have latched := edgeLatched_gaps m f
  have gaps := releaseGaps_only (loadCoupled (modLace (edgeLatched m f) fun x => x.edgeTold f) (EdgeField.view f))
  have none : (releaseGaps (loadCoupled (modLace (edgeLatched m f) fun x => x.edgeTold f) (EdgeField.view f))).sch.reqs = [] := by
    rw [gaps.sch, loadCoupled_sch, modLace_sch, latched.sch]
    exact idle
  rw [takeField_eq, evaluate_none none, gaps.lace, loadCoupled_lace, modLace_lace, latched.lace]

theorem answers_laceField {f : EdgeField} (hears : laceHears s.m l ws 4) (names : f = edgeOf (lacePayload ws))
    (own : f.gport.val / 128 = (laceHeadOf ws).src.val) (idle : s.m.sch.reqs = []) : answers (.laceField l ws) s fun t =>
      t.m.lace.edge = (s.m.lace.edge.filter fun x => x.gport != f.gport) ++ (if f.isOn then [f] else []) ∧
      t.m.lace.holding = s.m.lace.holding.filter (fun x => x.2.gport != f.gport) ∧ laceMain s.m t.m ∧ mainOnly s t := by
  have h := frameReceived_received s.m l ws
  have serves := exec_laceField hears
  rw [← names, own, if_pos (beq_self_eq_true _)] at serves
  have lace := takeField_lace (m := frameReceived s.m l ws) (f := f) (by rw [received_sch h]; exact idle)
  refine ⟨_, serves, ?_, ?_, laceMain_trans (received_main h) (laceMain_takeField ..), mainOnly_m _ _⟩
  · dsimp only
    rw [lace, h.lace]
    rfl
  · dsimp only
    rw [lace, h.lace]
    rfl

/-! ## Claims (R539) -/

/-- A claim is accepted, and its coupled ports are held for it. -/
def claimHeld (m : Main) (d : Fin 4) (f : EdgeField) : Main :=
  modLace m fun x => { x with claims := x.claims.filter (fun y => !(y.1 == d && y.2 == f)), holding := x.holding ++ [(d, f)] }

/-- Beside no field of its own a device accepts a claim and answers it. -/
theorem acceptClaim_noFields (dark : noFields m) (d : Fin 4) (f : EdgeField) : acceptClaim m d f = answerClaim (claimHeld m d f) d true := by
  have held : noFields (claimHeld m d f) := dark
  unfold acceptClaim
  dsimp only
  rw [forEach_same (fun k => by rw [fieldView_noFields (m := modLace m _) held]), latchPairs_own (fun j q some => by
    rw [fieldView_noFields (m := modLace m _) held] at some
    cases some)]
  rfl

theorem claimRefused_noFields (dark : noFields m) (f : EdgeField) : claimRefused m f = false := by
  have none : (allFin 16).filterMap (fieldView m) = [] := List.filterMap_eq_nil_iff.mpr fun k _ => fieldView_noFields dark k
  simp [claimRefused, none]

theorem changeBlocked_noFields (dark : noFields m) (v : FV) : changeBlocked m v = false := by
  simp [changeBlocked, fieldView_noFields dark]

/-- What an accepted claim leaves. -/
theorem acceptClaim_leaves (ring : inRing m) (dark : noFields m) (d : Fin 4) (f : EdgeField) :
    (acceptClaim m d f).lace.holding = m.lace.holding ++ [(d, f)] ∧
    (acceptClaim m d f).lace.claims = m.lace.claims.filter (fun y => !(y.1 == d && y.2 == f)) ∧
    sentByA m (acceptClaim m d f) 6 (some d) [word 1] ∧ laceMain m (acceptClaim m d f) := by
  have held : inRing (claimHeld m d f) := ⟨ring.on, ring.ring, ring.role, ring.linkA⟩
  have told := laceTold_laceSend (claimHeld m d f) 6 (some d) [word 1]
  have sent : sentByA m (laceSend (claimHeld m d f) 6 (some d) [word 1]) 6 (some d) [word 1] := laceSend_sent held 6 (some d) [word 1]
  have lace := told.lace
  rw [acceptClaim_noFields dark]
  refine ⟨?_, ?_, sent, laceMain_trans (laceMain_modLace m _) (laceTold_main told)⟩
  · exact congrArg Lace.holding lace
  · exact congrArg Lace.claims lace

theorem takeClaim_accepts (dark : noFields m) (unclaimed : m.lace.claimed = none) (d : Fin 4) (f : EdgeField) : takeClaim m d f = acceptClaim m d f := by
  unfold takeClaim
  simp [unclaimed, claimRefused_noFields dark, changeBlocked_noFields dark]

theorem answers_laceClaim_accepts {f : EdgeField} (hears : laceHears s.m l ws 5) (names : f = edgeOf (lacePayload ws)) (ring : inRing s.m)
    (own : f.gport.val / 128 = (laceHeadOf ws).src.val) (dark : noFields s.m) (unclaimed : s.m.lace.claimed = none) :
    answers (.laceClaim l ws) s fun t =>
      t.m.lace.holding = s.m.lace.holding ++ [((laceHeadOf ws).src, f)] ∧ sentByA s.m t.m 6 (some (laceHeadOf ws).src) [word 1] ∧
      laceMain s.m t.m ∧ mainOnly s t := by
  have h := frameReceived_received s.m l ws
  have serves := exec_laceClaim hears
  have none : (frameReceived s.m l ws).lace.claimed = none := by rw [h.lace]; exact unclaimed
  have holding : (frameReceived s.m l ws).lace.holding = s.m.lace.holding := by rw [h.lace]
  rw [← names, own, if_pos (beq_self_eq_true _), takeClaim_accepts (received_noFields h dark) none] at serves
  obtain ⟨held, -, sent, only⟩ := acceptClaim_leaves (received_inRing h ring) (received_noFields h dark) (laceHeadOf ws).src f
  exact ⟨_, serves, by rw [← holding]; exact held, received_sent h sent, laceMain_trans (received_main h) only, mainOnly_m _ _⟩

/-- Whether a claim is refused depends on the reader, the configuration and the lace's fields alone. -/
theorem claimRefused_received {a b : Main} (h : received a b l ws) (f : EdgeField) : claimRefused b f = claimRefused a f := by
  have only := h.only
  rw [h.lace] at only
  rw [only]
  rfl

theorem answers_laceClaim_refused {f : EdgeField} (hears : laceHears s.m l ws 5) (names : f = edgeOf (lacePayload ws)) (ring : inRing s.m)
    (own : f.gport.val / 128 = (laceHeadOf ws).src.val) (refused : claimRefused s.m f = true) :
    answers (.laceClaim l ws) s fun t => t.m.lace.holding = s.m.lace.holding ∧ t.m.lace.claims = s.m.lace.claims ∧
      sentByA s.m t.m 6 (some (laceHeadOf ws).src) [word 0] ∧ counter t.m 0x70F8 0x09 = sat32 (counter s.m 0x70F8 0x09 + 1) ∧
      laceMain s.m t.m ∧ mainOnly s t := by
  have h := frameReceived_received s.m l ws
  have serves := exec_laceClaim hears
  have answered : takeClaim (frameReceived s.m l ws) (laceHeadOf ws).src f =
      laceSend (count (frameReceived s.m l ws) 0x70F8 0x09) 6 (some (laceHeadOf ws).src) [word 0] := by
    unfold takeClaim
    dsimp only
    rw [claimRefused_received h, refused, Bool.or_true, if_pos rfl]
    rfl
  rw [← names, own, if_pos (beq_self_eq_true _), answered] at serves
  generalize frameReceived s.m l ws = b at *
  have ringB := received_inRing h ring
  have lace : (count b 0x70F8 0x09).lace = b.lace := count_lace ..
  have counted : inRing (count b 0x70F8 0x09) := by
    have only := poolOnly_count b 0x70F8 0x09
    unfold poolOnly at only
    rw [only]
    exact ⟨ringB.on, ringB.ring, ringB.role, ringB.linkA⟩
  have told := laceTold_laceSend (count b 0x70F8 0x09) 6 (some (laceHeadOf ws).src) [word 0]
  have sent := laceSend_sent counted 6 (some (laceHeadOf ws).src) [word 0]
  have toldLace := told.lace
  rw [lace] at toldLace
  refine ⟨_, serves, ?_, ?_, received_sent h ?_, ?_, laceMain_trans (received_main h) (laceMain_trans (laceMain_count ..) (laceTold_main told)),
    mainOnly_m _ _⟩
  · dsimp only
    rw [toldLace, h.lace]
  · dsimp only
    rw [toldLace, h.lace]
  · have now : (count b 0x70F8 0x09).now = b.now := count_now ..
    unfold sentByA laceHead at sent ⊢
    rwa [lace, now] at sent
  · dsimp only
    rw [told.tally _ _ (by decide) (by decide), counter_count_same, h.tally _ _ (by decide)]

/-- A claim that waited for the coupled ports is accepted. -/
theorem answers_claimGap {d : Fin 4} {f : EdgeField} (ring : inRing s.m) (waits : s.m.lace.claims = [(d, f)]) (dark : noFields s.m) :
    answers (.laceClaimAccept d) s fun t => t.m.lace.claims = [] ∧ t.m.lace.holding = s.m.lace.holding ++ [(d, f)] ∧
      sentByA s.m t.m 6 (some d) [word 1] ∧ laceMain s.m t.m ∧ mainOnly s t := by
  have accepts : claimGap s.m d = acceptClaim s.m d f := by
    unfold claimGap
    rw [waits, List.find?_cons_of_pos (by simp [changeBlocked_noFields dark])]
  obtain ⟨held, claims, sent, only⟩ := acceptClaim_leaves ring dark d f
  refine answers_of_onMain (f := fun m => claimGap m d) rfl ?_
  rw [accepts]
  refine ⟨?_, held, sent, only, mainOnly_m _ _⟩
  dsimp only
  rw [claims, waits]
  simp

theorem claimGap_none {d : Fin 4} (none : ∀ x ∈ m.lace.claims, x.1 ≠ d) : claimGap m d = m := by
  unfold claimGap
  rw [List.find?_eq_none.mpr fun x mem => by simp [none x mem]]

/-- A device accepts; another is awaited. -/
theorem claimAnswer_accepts {w : Owner} {d e : Fin 4} (claimed : m.lace.claimed = some (w, [d, e])) (other : e ≠ d) :
    claimAnswer m d true = modLace m fun x => { x with claimed := some (w, [e]) } := by
  have left : [d, e].filter (· != d) = [e] := by simp [other]
  unfold claimAnswer
  rw [claimed]
  dsimp only
  rw [left, if_neg (by simp), if_neg (by simp), if_neg (by simp)]

/-- A refusal ends the claim. -/
theorem claimAnswer_refuses {w : Owner} {ds : List (Fin 4)} {d : Fin 4} (claimed : m.lace.claimed = some (w, ds)) (awaited : d ∈ ds)
    (idle : m.sch.reqs = []) : claimAnswer m d false = modLace m fun x => { x with claimed := none } := by
  unfold claimAnswer
  rw [claimed]
  dsimp only
  rw [if_neg (by simp [awaited]), Bool.not_false, if_pos rfl]
  exact evaluate_none idle

theorem answers_laceAccept_accepts {w : Owner} {e : Fin 4} (hears : laceHears s.m l ws 6) (accepts : bitAt (nth (lacePayload ws) 0 0).toNat 0 = true)
    (claimed : s.m.lace.claimed = some (w, [(laceHeadOf ws).src, e])) (other : e ≠ (laceHeadOf ws).src) :
    answers (.laceAccept l ws) s fun t => t.m.lace.claimed = some (w, [e]) ∧ laceMain s.m t.m ∧ mainOnly s t := by
  have h := frameReceived_received s.m l ws
  have serves := exec_laceAccept hears
  have still : (frameReceived s.m l ws).lace.claimed = some (w, [(laceHeadOf ws).src, e]) := by rw [h.lace]; exact claimed
  rw [accepts, claimAnswer_accepts still other] at serves
  exact ⟨_, serves, rfl, laceMain_trans (received_main h) (laceMain_modLace _ _), mainOnly_m _ _⟩

theorem answers_laceAccept_refuses {w : Owner} {ds : List (Fin 4)} (hears : laceHears s.m l ws 6)
    (refuses : bitAt (nth (lacePayload ws) 0 0).toNat 0 = false) (claimed : s.m.lace.claimed = some (w, ds)) (awaited : (laceHeadOf ws).src ∈ ds)
    (idle : s.m.sch.reqs = []) : answers (.laceAccept l ws) s fun t => t.m.lace.claimed = none ∧ laceMain s.m t.m ∧ mainOnly s t := by
  have h := frameReceived_received s.m l ws
  have serves := exec_laceAccept hears
  have still : (frameReceived s.m l ws).lace.claimed = some (w, ds) := by rw [h.lace]; exact claimed
  rw [refuses, claimAnswer_refuses still awaited (by rw [received_sch h]; exact idle)] at serves
  exact ⟨_, serves, rfl, laceMain_trans (received_main h) (laceMain_modLace _ _), mainOnly_m _ _⟩

/-! ## Dictionary frames and stitches (R542, R543) -/

theorem answers_laceDict (hears : laceHears s.m l ws 7) (ctl : ctlOn s.m = true) (room : roomFor s.m 23 ((lacePayload ws).length + 1)) :
    answers (.laceDict l ws) s fun t =>
      delivered t.m 23 0x2A 0x04 (word (0x7 + place 4 2 (laceHeadOf ws).src.val + place 6 2 s.m.lace.device.val +
        place 16 16 (4 * (lacePayload ws).length)) :: lacePayload ws) ∧ laceMain s.m t.m ∧ mainOnly s t := by
  have h := frameReceived_received s.m l ws
  refine ⟨_, exec_laceDict hears ctl, offerPkt_delivers ?_, laceMain_trans (received_main h) (laceMain_of_pool (poolOnly_offerPkt ..)), mainOnly_m _ _⟩
  rw [List.length_cons]
  exact roomFor_of_pool room (received_pool h)

/-- A packet as it is closed at a moment. -/
def Packet.closedNow (p : Packet) (t : Nat) : Packet := { p with opened := false, reserve := 0, closedAt := t }

/-- A packet stands in a queue. -/
def standsIn (m : Main) (q : Fin 32) (p : Packet) : Prop := p ∈ (m.pool.qs[q]).pkts

theorem closeRaw_closes {q : Fin 32} {p : Packet} (h : packetOpen m q p) : standsIn (closeRaw m q p.id).1 q (p.closedNow m.now) := by
  have noSink : (m.pool.qs[q]).sinks.find? (fun r => r.id == p.id) = none := List.find?_eq_none.mpr fun r mem => by simpa using h.noSink r mem
  have closes (g : Packet) : standsIn (cuClose (modQ m q fun x =>
      { x with pkts := x.pkts.map fun r => if r.id = p.id then { r with opened := false, reserve := 0, closedAt := m.now } else r }) q g).1 q
      (p.closedNow m.now) := by
    rw [standsIn, (cuClose_same ..).1, modQ_get, if_pos rfl]
    exact List.mem_map.mpr ⟨p, h.mem, if_pos rfl⟩
  unfold closeRaw
  dsimp only
  rw [noSink]
  dsimp only
  split
  · rename_i none
    exact absurd (List.find?_eq_none.mp none p h.mem) (by simp [h.opened])
  · split
    · dsimp only
      exact closes _
    · exact closes _

/-- A packet that closes stands closed in its queue under its own name. -/
theorem closePkt_closes {q : Fin 32} {p : Packet} (h : packetOpen m q p) : standsIn (closePkt m q p.id) q (p.closedNow m.now) := by
  have names : m.pool.nextId ≤ (closeRaw m q p.id).1.pool.nextId := (fileKept_closeRaw q (Nat.le_refl p.id)).names
  exact (fileKept_settle (n := m.pool.nextId) _ names).stay q _ h.named (closeRaw_closes h)

/-- A stitch of another device is filed with its origin and the moment of its close. -/
theorem putStitch_files {q : Fin 32} {us : List Word} (room : roomFor m q us.length) (closed : Nat) (src : Fin 4) :
    ∃ p ∈ ((putStitch m q us closed src).pool.qs[q]).pkts, p.opened = false ∧ p.type = 0x20 ∧ p.words = us ∧ p.origin = some src ∧ p.closedAt = closed := by
  have opened := packetOpen_appendPkt (ws := us) (packetOpen_offered (m := m) (q := q) (type := 0x20) (source := 0x04)
    (reserve := cellsOfWords (us.length + 1)) (room.names q)) (by simpa [offeredPacket] using room.size)
  have filed := closePkt_closes opened
  unfold putStitch
  dsimp only
  rw [modQ_get, if_pos rfl]
  exact ⟨_, List.mem_map.mpr ⟨_, filed, if_pos rfl⟩, rfl, rfl, rfl, rfl, rfl⟩

theorem laceMain_putStitch (m : Main) (q : Fin 32) (us : List Word) (closed : Nat) (src : Fin 4) : laceMain m (putStitch m q us closed src) := by
  refine laceMain_of_pool (poolOnly_trans ?_ (poolOnly_modQ ..))
  exact poolOnly_trans (poolOnly_openPkt ..) (poolOnly_trans (poolOnly_appendPkt ..) (poolOnly_closePkt ..))

theorem answers_laceStitch {q : Fin 32} (hears : laceHears s.m l ws 8) (kind : (stitchOf ws).2 = false) (queue : q.val = 24 + (stitchOf ws).1)
    (ctl : ctlOn s.m = true) (room : roomFor s.m q ((lacePayload ws).drop 3).length) : answers (.laceStitch l ws) s fun t =>
      (∃ p ∈ (t.m.pool.qs[q]).pkts, p.opened = false ∧ p.type = 0x20 ∧ p.words = (lacePayload ws).drop 3 ∧
        p.origin = some (laceHeadOf ws).src ∧ p.closedAt = timeOfTick s.m (payload64 ws 1)) ∧ laceMain s.m t.m ∧ mainOnly s t := by
  have h := frameReceived_received s.m l ws
  have still := roomFor_of_pool room (received_pool h)
  have serves := exec_laceStitch hears kind queue ctl still.space
  rw [received_timeOfTick h] at serves
  exact ⟨_, serves, putStitch_files still .., laceMain_trans (received_main h) (laceMain_putStitch ..), mainOnly_m _ _⟩

/-- The packet of a refused descriptor, at the head of its queue again. -/
def refusedPacket (m : Main) (a : Fin 4 × Job) (closed : Nat) (us : List Word) : Packet :=
  { id := m.pool.nextId, type := 0x20, source := 0x04, words := us, closedAt := closed, origin := some a.2.origin }

/-- The refusal of a stitch that is not away changes nothing; that of one that is puts it back. -/
theorem stitchRefused_some {d : Fin 4} {q : Fin 32} {closed : Nat} {us : List Word} {a : Fin 4 × Job}
    (away : awayJob m d (field (nth us 2 0).toNat 0 16) = some a) : ∃ b, stitchRefused m d q closed us = b ∧
      b.lace.away = m.lace.away.erase a ∧ b.lace.retry = m.lace.retry ++ [q] ∧ counter b 0x70F8 0x0A = sat32 (counter m 0x70F8 0x0A + 1) ∧
      (b.pool.qs[q]).pkts = refusedPacket m a closed us :: (m.pool.qs[q]).pkts ∧ laceMain m b := by
  have lace : (count m 0x70F8 0x0A).lace = m.lace := count_lace ..
  have pool : (count m 0x70F8 0x0A).pool = m.pool := count_pool ..
  unfold stitchRefused
  rw [away]
  refine ⟨_, rfl, ?_, ?_, counter_count_same .., ?_, ?_⟩
  · rw [← lace]
    rfl
  · rw [← lace]
    rfl
  · dsimp only
    rw [modLace_pool, modQ_get, if_pos rfl]
    show refusedPacket (count m 0x70F8 0x0A) a closed us :: ((count m 0x70F8 0x0A).pool.qs[q]).pkts = _
    rw [refusedPacket, pool]
    rfl
  · exact laceMain_trans (laceMain_count m 0x70F8 0x0A) rfl

theorem received_awayJob {a b : Main} (h : received a b l ws) (d : Fin 4) (tag : Nat) : awayJob b d tag = awayJob a d tag := by
  rw [awayJob, awayJob, h.lace]

theorem answers_laceStitchRefusal {q : Fin 32} {a : Fin 4 × Job} (hears : laceHears s.m l ws 8) (kind : (stitchOf ws).2 = true)
    (queue : q.val = 24 + (stitchOf ws).1) (ctl : ctlOn s.m = true)
    (away : awayJob s.m (laceHeadOf ws).src (field (nth ((lacePayload ws).drop 3) 2 0).toNat 0 16) = some a) :
    answers (.laceStitchRefusal l ws) s fun t =>
      t.m.lace.away = s.m.lace.away.erase a ∧ t.m.lace.retry = s.m.lace.retry ++ [q] ∧
      counter t.m 0x70F8 0x0A = sat32 (counter s.m 0x70F8 0x0A + 1) ∧
      (∃ p, (t.m.pool.qs[q]).pkts = p :: (s.m.pool.qs[q]).pkts ∧ p.opened = false ∧ p.type = 0x20 ∧
        p.words = (lacePayload ws).drop 3) ∧ laceMain s.m t.m ∧ mainOnly s t := by
  have h := frameReceived_received s.m l ws
  have away_ : (frameReceived s.m l ws).lace.away = s.m.lace.away := by rw [h.lace]
  have retry_ : (frameReceived s.m l ws).lace.retry = s.m.lace.retry := by rw [h.lace]
  obtain ⟨b, refused, away', retry, counted, pkts, only⟩ := stitchRefused_some (m := frameReceived s.m l ws) (q := q)
    (closed := timeOfTick (frameReceived s.m l ws) (payload64 ws 1)) (by rw [received_awayJob h]; exact away)
  refine ⟨_, exec_laceStitchRefusal hears kind queue ctl, ?_⟩
  dsimp only
  rw [refused, away', retry, counted, pkts, away_, retry_, h.tally _ _ (by decide), received_pool h]
  exact ⟨rfl, rfl, rfl, ⟨_, rfl, rfl, rfl, rfl⟩, laceMain_trans (received_main h) only, mainOnly_m _ _⟩

/-- A result of a stitch that is away is filed in its result queue. -/
theorem takeResult_files {d : Fin 4} {us : List Word} {a : Fin 4 × Job} (away : awayJob m d (field (nth us 1 0).toNat 0 16) = some a)
    (room : roomFor m a.2.rqueue us.length) : takeResult m d us = putPkt (dropAway m a) a.2.rqueue 0x21 0x04 us := by
  have still : roomFor (dropAway m a) a.2.rqueue us.length := roomFor_of_pool room rfl
  unfold takeResult
  rw [away]
  dsimp only
  rw [still.space, if_pos rfl]

theorem answers_laceResult {a : Fin 4 × Job} (hears : laceHears s.m l ws 9) (ctl : ctlOn s.m = true)
    (away : awayJob s.m (laceHeadOf ws).src (field (nth (lacePayload ws) 1 0).toNat 0 16) = some a)
    (room : roomFor s.m a.2.rqueue (lacePayload ws).length) : answers (.laceResult l ws) s fun t =>
      delivered t.m a.2.rqueue 0x21 0x04 (lacePayload ws) ∧ t.m.lace.away = s.m.lace.away.erase a ∧ laceMain s.m t.m ∧ mainOnly s t := by
  have h := frameReceived_received s.m l ws
  have still := roomFor_of_pool room (received_pool h)
  have serves := exec_laceResult hears ctl
  rw [takeResult_files (by rw [received_awayJob h]; exact away) still] at serves
  have put := poolOnly_putPkt (dropAway (frameReceived s.m l ws) a) a.2.rqueue 0x21 0x04 (lacePayload ws)
  refine ⟨_, serves, delivered_of_filed (putPkt_files still.size (still.names _)), ?_,
    laceMain_trans (received_main h) (laceMain_trans (laceMain_modLace _ _) (laceMain_of_pool put)), mainOnly_m _ _⟩
  dsimp only
  rw [poolOnly_lace_eq put, dropAway, modLace_lace, h.lace]

/-! ## Stitches tried again (R543) -/

theorem mainOnly_dispatch (s : State) : answers .dispatch s fun u => mainOnly s u := answers_of_onMain (f := dispatch) rfl (mainOnly_m _ _)

/-! ## The merged journal (R544) -/

/-- The entry that the lead makes of a follower's. -/
def mergedBody (m : Main) (src : Fin 4) (e : List Word) : List Word :=
  [word (nextJseq m.flt.jseq), word (field (nth e 1 0).toNat 0 16 + place 16 8 srcLace + place 24 2 src.val + place 26 1 1 +
    place 27 1 (bitN (nth m.flt.supp 0 false)) + place 28 3 (field (nth e 1 0).toNat 28 3))] ++ (e.drop 2).take 4 ++ [nth e 0 0] ++ e.drop 7

theorem mergedBody_length (m : Main) (src : Fin 4) {e : List Word} (long : 7 ≤ e.length) : (mergedBody m src e).length = e.length := by
  simp [mergedBody]
  omega

theorem mergedBody_drop (m : Main) (src : Fin 4) {e : List Word} (long : 7 ≤ e.length) : (mergedBody m src e).drop 7 = e.drop 7 := by
  unfold mergedBody
  rw [List.drop_append_of_le_length (by simp; omega), List.drop_eq_nil_of_le (by simp; omega), List.nil_append]

/-- The arbiter's numbers once an entry of class 0 is entered. -/
def entered (m : Main) : Main :=
  modFlt m fun f => { f with jseq := nextJseq f.jseq, budget := f.budget.set 0 (nth f.budget 0 0 + 1), supp := f.supp.set 0 false }

theorem journalMerge_eq {src : Fin 4} {e : List Word} (ctl : ctlOn m = true) (long : 7 ≤ e.length) (zero : field (nth e 1 0).toNat 0 16 < 0x1000) :
    journalMerge m src e = settle (journalPut (count (entered m) 0x70F8 0x0E) (mergedBody m src e)) := by
  have cls : field (nth e 1 0).toNat 0 16 / 0x1000 = 0 := Nat.div_eq_of_lt zero
  unfold journalMerge
  dsimp only
  rw [cls, if_neg (by simp [ctl, long, classOn]), if_neg (by simp)]
  rfl

/-- A device that merges no journal files an entry in Q22. -/
theorem journalPut_files {body : List Word} (lead : journalMerges m = false) (room : roomFor m 22 body.length) :
    filed (settle (journalPut m body)) 22 0x2B 0x06 body := by
  have opened := packetOpen_appendPkt (ws := body) (packetOpen_offered (m := m) (q := 22) (type := 0x2B) (source := 0x06)
    (reserve := cellsOfWords (body.length + 1)) (room.names 22)) (by simpa [offeredPacket] using room.size)
  have raw := filed_closeRaw opened
  simp only [offeredPacket, List.nil_append] at raw
  have put : journalPut m body = (count (putRaw m 22 0x2B 0x06 body).1 0x7008 0x01, (putRaw m 22 0x2B 0x06 body).2) := by
    unfold journalPut
    rw [lead, if_neg Bool.false_ne_true, room.space, if_pos rfl]
  rw [put]
  refine filed_of_fileKept (fileKept_settle _ (Nat.le_refl _)) ?_
  exact filed_of_fileKept (fileKept_count 0x7008 0x01 (by decide)) raw

theorem answers_laceJournal (hears : laceHears s.m l ws 0xA) (lead : s.m.lace.role = 1) (ctl : ctlOn s.m = true) (long : 7 ≤ (lacePayload ws).length)
    (zero : field (nth (lacePayload ws) 1 0).toNat 0 16 < 0x1000) (room : roomFor s.m 22 (lacePayload ws).length) :
    answers (.laceJournal l ws) s fun t =>
      (∃ b, delivered t.m 22 0x2B 0x06 b ∧ b.length = (lacePayload ws).length ∧ b.head? = some (word (nextJseq s.m.flt.jseq)) ∧
        b.drop 7 = (lacePayload ws).drop 7) ∧
      counter t.m 0x70F8 0x0E = sat32 (counter s.m 0x70F8 0x0E + 1) ∧ laceMain s.m t.m ∧ mainOnly s t := by
  have h := frameReceived_received s.m l ws
  have serves := exec_laceJournal hears
  have role := (received_role h).trans lead
  rw [role, if_pos (beq_self_eq_true _), journalMerge_eq (by rw [received_ctl h]; exact ctl) long zero] at serves
  generalize frameReceived s.m l ws = b at *
  have jseq : b.flt.jseq = s.m.flt.jseq := by rw [h.flt]
  have counted : (count (entered b) 0x70F8 0x0E).lace = b.lace := count_lace ..
  have alone : journalMerges (count (entered b) 0x70F8 0x0E) = false := by
    rw [journalMerges, counted, role]
    rfl
  have pool : (count (entered b) 0x70F8 0x0E).pool = s.m.pool := by
    rw [count_pool]
    exact received_pool (b := b) h
  have put := journalPut_files alone (body := mergedBody b (laceHeadOf ws).src (lacePayload ws))
    (by rw [mergedBody_length _ _ long]; exact roomFor_of_pool room pool)
  have tally := tallyKept_trans (tallyKept_journalPut (m := count (entered b) 0x70F8 0x0E) (mergedBody b (laceHeadOf ws).src (lacePayload ws)))
    (tallyKept_settle _)
  have only : poolOnly b (settle (journalPut (count (entered b) 0x70F8 0x0E) (mergedBody b (laceHeadOf ws).src (lacePayload ws)))) :=
    poolOnly_trans (b := entered b) rfl (poolOnly_trans (poolOnly_count ..) (poolOnly_trans (poolOnly_journalPut ..) (poolOnly_settle _)))
  refine ⟨_, serves, ⟨_, delivered_of_filed put, mergedBody_length _ _ long, ?_, mergedBody_drop _ _ long⟩, ?_,
    laceMain_trans (received_main h) (laceMain_of_pool only), mainOnly_m _ _⟩
  · rw [← jseq]
    rfl
  · dsimp only
    rw [tally.stands _ _ (by decide), counter_count_same]
    exact congrArg (fun n => sat32 (n + 1)) (h.tally _ _ (by decide))

/-! ## The statement -/

/-- Settles O58, clause by clause: a frame that is not taken leaves what its arrival leaves, and one that is taken is served on the machine that received it. -/
theorem laceFrames : Obligations.LaceFrames := by
  unfold Obligations.LaceFrames
  refine ⟨?damaged, ?lost, ?repeated, ?tick, ?phase, ?align, ?field, ?claim, ?refused, ?gap, ?noClaim, ?accepted, ?declined, ?dict, ?stitch, ?refusal, ?retry,
    ?idle, ?result, ?journal⟩
  case damaged => exact fun s t l ws lat on up formed damaged few ends => answers_damaged on up formed damaged few ends
  case lost => exact fun s l ws on up damaged many => answers_linkLost on up damaged many
  case repeated => exact fun s t l ws on up formed whole other forUs past near ends => answers_repeated on up formed whole other forUs past near ends
  case tick => exact fun s l ws => answers_laceTick
  case phase => exact fun s l ws => answers_lacePhase
  case align => exact fun s l ws => answers_laceAlign
  case field => exact fun s l ws f => answers_laceField
  case claim => exact fun s l ws f hears names ring own _ dark unclaimed => answers_laceClaim_accepts hears names ring own dark unclaimed
  case refused => exact fun s l ws f hears names ring own _ refused => answers_laceClaim_refused hears names ring own refused
  case gap => exact fun s d f => answers_claimGap
  case noClaim => exact fun s d none => exec_of_onMain (f := fun m => claimGap m d) rfl (claimGap_none none)
  case accepted => exact fun s l ws w e => answers_laceAccept_accepts
  case declined => exact fun s l ws w ds => answers_laceAccept_refuses
  case dict => exact fun s l ws => answers_laceDict
  case stitch => exact fun s l ws q => answers_laceStitch
  case refusal => exact fun s l ws q a => answers_laceStitchRefusal
  case retry =>
    intro s t waits ends
    have same : exec .laceStitchRetry s = exec .dispatch t := by
      subst ends
      show execLaceStitchRetry s = execDispatch _
      simp [execLaceStitchRetry, execDispatch, onMain, waits]
    refine ⟨same, ?_⟩
    obtain ⟨u, runs, only⟩ := mainOnly_dispatch t
    subst ends
    exact ⟨u, same.trans runs, only⟩
  case idle =>
    intro s idle
    refine exec_of_onMain (f := fun m => if m.lace.retry.isEmpty then m else dispatch (modLace m fun l => { l with retry := l.retry.drop 1 })) rfl ?_
    simp [idle]
  case result => exact fun s l ws a => answers_laceResult
  case journal => exact fun s l ws => answers_laceJournal

end Sys2Proof.Machine

end

section
/-!
Proofs of the statement on the SPI port (R329–R331, R340, R483–R495): the status block, refused headers, reads of the window and of queues, `KEEP` and
CONSUME, writes of packets, and what ends a write early.
-/

namespace Sys2Proof.Machine

variable {s : State} {a b c m : Main} {h : SpiHeader} {q : Fin 32} {p : Packet}

/-! ## The frame of the SPI port -/

theorem spiMain_trans (x : spiMain a b) (y : spiMain b c) : spiMain a c := by
  unfold spiMain at *
  rw [y, x]

theorem spiMain_of_pool (x : poolOnly a b) : spiMain a b := by
  unfold spiMain poolOnly at *
  rw [x]

theorem spiMain_modSpi (m : Main) (f : Spi → Spi) : spiMain m (modSpi m f) := rfl
theorem spiMain_modQ (m : Main) (q : Fin 32) (f : Queue → Queue) : spiMain m (modQ m q f) := rfl
theorem spiMain_count (m : Main) (idx sub : Nat) : spiMain m (count m idx sub) := spiMain_of_pool (poolOnly_count ..)

theorem spiMain_spiData (m : Main) (h : SpiHeader) (bs : List Byte) : spiMain m (spiData m h bs) :=
  spiMain_trans (spiMain_modSpi m _) (spiMain_of_pool (poolOnly_cuSpi ..))

/-! ## A transaction (R483, R484, R493) -/

/-- The port as a transaction begins: the status block goes out, and the width asked for takes effect. -/
def spiOpened (s : State) : Main := (spiBegin s).m

/-- A valid transaction has been counted. -/
def spiTaken (s : State) : Main := count (spiOpened s) 0x7000 0x01

theorem spiTransaction_takes {valid : Main → Bool} {f : State → State} (up : spiUp s.m = true) (free : s.m.spi.stalled = none)
    (ok : valid s.m = true) : spiTransaction s valid f = f { s with m := spiTaken s } := by
  unfold spiTransaction
  rw [if_neg (by simp [up, free])]
  dsimp only
  rw [if_pos ok]
  rfl

theorem spiTransaction_refuses {valid : Main → Bool} {f : State → State} (up : spiUp s.m = true) (free : s.m.spi.stalled = none)
    (bad : valid s.m = false) : spiTransaction s valid f = { s with m := spiRefuse (spiOpened s) } := by
  unfold spiTransaction
  rw [if_neg (by simp [up, free])]
  dsimp only
  rw [if_neg (by simp [bad])]
  rfl

theorem spiTransaction_down {valid : Main → Bool} {f : State → State} (down : spiUp s.m = false) : spiTransaction s valid f = s := by
  rw [spiTransaction, if_pos (by simp [down])]

theorem spiTaken_spi (s : State) : (spiTaken s).spi = (spiOpened s).spi := count_spi ..
theorem spiTaken_pool (s : State) : (spiTaken s).pool = s.m.pool := count_pool ..
theorem spiTaken_cus (s : State) : (spiTaken s).cus = s.m.cus := count_cus ..
theorem spiTaken_pw (s : State) : (spiTaken s).pw = s.m.pw := count_pw ..
theorem spiTaken_openQ (s : State) : (spiTaken s).spi.openQ = s.m.spi.openQ := by rw [spiTaken_spi]; rfl
theorem spiTaken_stalled (s : State) : (spiTaken s).spi.stalled = s.m.spi.stalled := by rw [spiTaken_spi]; rfl
theorem spiMain_spiTaken (s : State) : spiMain s.m (spiTaken s) := spiMain_trans (b := spiOpened s) rfl (spiMain_count ..)

theorem counter_spiTaken {idx sub : Nat} (other : ekey idx sub ≠ ekey 0x7000 0x01) : counter (spiTaken s) idx sub = counter s.m idx sub :=
  counter_count_other other

theorem statusBlock_spiOpened (s : State) : ∃ flags, (spiOpened s).spi.status =
    (leBytes 4 (queueBitmap s.m) ++ leBytes 4 flags) ++ [spiCheck (leBytes 4 (queueBitmap s.m) ++ leBytes 4 flags)] := ⟨_, rfl⟩

theorem answers_spiNop (up : spiUp s.m = true) (free : s.m.spi.stalled = none) (ok : headerOk h 0x00 false = true) (addr : h.addr = 0) (len : h.len = 0) :
    answers (.spiNop h) s fun t => t.m.spi.quad = s.m.spi.quadNext ∧ t.m.spi.prevHdr = false ∧ t.m.spi.prevCrc = false ∧ t.m.spi.prevAbandon = false ∧
      t.m.spi.out = [] ∧ t.m.spi.status.length = 9 ∧ t.m.spi.status.take 4 = leBytes 4 (queueBitmap s.m) ∧
      t.m.spi.status.drop 8 = [spiCheck (t.m.spi.status.take 8)] ∧ t.m.pool = s.m.pool ∧
      counter t.m 0x7000 0x01 = sat32 (counter s.m 0x7000 0x01 + 1) ∧ spiMain s.m t.m ∧ mainOnly s t := by
  have takes : exec (.spiNop h) s = .next { s with m := spiTaken s } := by
    show execSpiNop h s = _
    rw [execSpiNop, spiTransaction_takes up free (by simp [ok, addr, len])]
  obtain ⟨flags, status⟩ := statusBlock_spiOpened s
  refine ⟨_, takes, ?_⟩
  dsimp only
  rw [spiTaken_spi, status]
  have eight : (leBytes 4 (queueBitmap s.m) ++ leBytes 4 flags).length = 8 := by simp
  refine ⟨rfl, rfl, rfl, rfl, rfl, by simp, by simp, ?_, spiTaken_pool s, counter_count_same .., spiMain_spiTaken s, mainOnly_m _ _⟩
  rw [List.drop_left' eight, List.take_left' eight]

/-- A refused header is counted, and nothing else is done. -/
theorem spiRefuse_leaves (s : State) : (spiRefuse (spiOpened s)).spi.prevHdr = true ∧ (spiRefuse (spiOpened s)).spi.out = [] ∧
    (spiRefuse (spiOpened s)).pool = s.m.pool ∧ (spiRefuse (spiOpened s)).spi.openQ = s.m.spi.openQ ∧
    counter (spiRefuse (spiOpened s)) 0x7000 0x02 = sat32 (counter s.m 0x7000 0x02 + 1) ∧ spiMain s.m (spiRefuse (spiOpened s)) := by
  have spi : (spiRefuse (spiOpened s)).spi = { (spiOpened s).spi with prevHdr := true } := count_spi ..
  rw [spi]
  exact ⟨rfl, rfl, count_pool .., rfl, counter_count_same .., spiMain_trans (b := modSpi (spiOpened s) fun p => { p with prevHdr := true }) rfl (spiMain_count ..)⟩

/-- A header whose check fails is refused, whatever the command. -/
theorem exec_spi_refuses {n : Nat} {ws : List Word} {dchk : Byte} {i : Instr} (up : spiUp s.m = true) (free : s.m.spi.stalled = none)
    (bad : headerHolds h = false) (row : i ∈ [.spiNop h, .spiReadWin h, .spiReadQ h n, .spiWriteQ h ws dchk, .spiConsume h]) :
    exec i s = .next { s with m := spiRefuse (spiOpened s) } := by
  have no (code : Nat) (flag : Bool) : headerOk h code flag = false := by simp [headerOk, bad]
  simp only [List.mem_cons, List.not_mem_nil, or_false] at row
  rcases row with rfl | rfl | rfl | rfl | rfl
  · show execSpiNop h s = _
    rw [execSpiNop, spiTransaction_refuses up free (by simp [no])]
  · show execSpiReadWin h s = _
    rw [execSpiReadWin, spiTransaction_refuses up free (by simp [no])]
  · show execSpiReadQ h n s = _
    rw [execSpiReadQ, spiTransaction_refuses up free (by simp [no])]
  · show execSpiWriteQ h ws dchk s = _
    rw [execSpiWriteQ, spiTransaction_refuses up free (by simp [writeQOk, no])]
  · show execSpiConsume h s = _
    rw [execSpiConsume, spiTransaction_refuses up free (by simp [no])]

/-- A port that is not ready takes nothing. -/
theorem exec_spi_down {n : Nat} {ws : List Word} {dchk : Byte} {bs : List Byte} {i : Instr} (down : spiUp s.m = false)
    (row : i ∈ [.spiNop h, .spiReadWin h, .spiReadQ h n, .spiWriteQ h ws dchk, .spiConsume h, .spiDictDefer bs, .spiAbandon, .spiWriteStallRelease,
      .spiIdleReset]) : exec i s = .next s := by
  simp only [List.mem_cons, List.not_mem_nil, or_false] at row
  rcases row with rfl | rfl | rfl | rfl | rfl | rfl | rfl | rfl | rfl
  · show execSpiNop h s = _
    rw [execSpiNop, spiTransaction_down down]
  · show execSpiReadWin h s = _
    rw [execSpiReadWin, spiTransaction_down down]
  · show execSpiReadQ h n s = _
    rw [execSpiReadQ, spiTransaction_down down]
  · show execSpiWriteQ h ws dchk s = _
    rw [execSpiWriteQ, spiTransaction_down down]
  · show execSpiConsume h s = _
    rw [execSpiConsume, spiTransaction_down down]
  · show execSpiDictDefer bs s = _
    rw [execSpiDictDefer, spiTransaction_down down]
  · exact exec_of_onMain (f := fun m => if spiUp m && (m.spi.stalled.isSome || m.spi.openQ.isSome) then hostAbandon m else m) rfl (by simp [down])
  · exact exec_of_onMain (f := fun m => if spiUp m then stallRelease m else m) rfl (by simp [down])
  · exact exec_of_onMain (f := spiIdleReset) rfl (by simp [spiIdleReset, down])

/-! ## What the device sends (R485) -/

theorem spiData_sent (m : Main) (h : SpiHeader) (bs : List Byte) : (spiData m h bs).spi.out = bs ++ [spiCheck bs] := by
  rw [spiData, poolOnly_spi_eq (poolOnly_cuSpi ..)]
  rfl

theorem tallyKept_cuSpi (m : Main) (device : Bool) (bs : List Byte) (head : Nat) : tallyKept m (cuSpi m device bs head) := by
  unfold cuSpi
  split
  · exact tallyKept_refl m
  · exact tallyKept_cuFrame ..

/-- While no check unit follows the port, its data pass them by. -/
theorem cuSpi_unseen (unseen : ∀ c : Fin 8, (m.cus[c]).owned = true ∨ (m.cus[c]).source ≠ 2) (device : Bool) (bs : List Byte) (head : Nat) :
    cuSpi m device bs head = m := by
  unfold cuSpi cuFrame
  split
  · rfl
  · split
    · rfl
    · refine forEach_same (fun c => ?_) _
      dsimp only
      rw [if_pos]
      rcases unseen c with owned | other
      · simp only [owned, Bool.true_or]
      · simp only [bne_iff_ne.mpr other, Bool.or_true, Bool.true_or]

theorem spiData_unseen (unseen : ∀ c : Fin 8, (m.cus[c]).owned = true ∨ (m.cus[c]).source ≠ 2) (bs : List Byte) : spiData m h bs = spiSend m bs :=
  cuSpi_unseen (m := spiSend m bs) unseen ..

/-! ## The window (R332, R487) -/

theorem leBytes_four (v : Nat) : leBytes 4 v = [byte v, byte (v / 256), byte (v / 256 / 256), byte (v / 256 / 256 / 256)] := by
  rw [leBytes_succ, leBytes_succ, leBytes_succ, leBytes_succ]
  rfl

theorem byte_congr {v w : Nat} (same : v % 256 = w % 256) : byte v = byte w := BitVec.eq_of_toNat_eq (by simpa [byte] using same)

/-- A word has the four low bytes of its number. -/
theorem wordBytes_word (v : Nat) : wordBytes (word v) = leBytes 4 v := by
  have low : (word v).toNat = v % 4294967296 := BitVec.toNat_ofNat ..
  rw [wordBytes, low, leBytes_four, leBytes_four, byte_congr (show v % 4294967296 % 256 = v % 256 by omega),
    byte_congr (show v % 4294967296 / 256 % 256 = v / 256 % 256 by omega),
    byte_congr (show v % 4294967296 / 256 / 256 % 256 = v / 256 / 256 % 256 by omega),
    byte_congr (show v % 4294967296 / 256 / 256 / 256 % 256 = v / 256 / 256 / 256 % 256 by omega)]

theorem wordsBytes_words (vs : List Nat) : wordsBytes (vs.map word) = vs.flatMap (leBytes 4) := by
  simp [wordsBytes, List.flatMap_map, wordBytes_word]

/-- The words of a window read. -/
def winWords (s : State) (h : SpiHeader) : List Nat :=
  (List.range (h.len.toNat / 4)).map fun i => winWord (modSpi s.m fun p => { p with quad := p.quadNext }) (leaseHeld s) (h.addr.toNat + 4 * i)

theorem answers_spiReadWin (up : spiUp s.m = true) (free : s.m.spi.stalled = none) (ok : headerOk h 0x01 false = true) (aligned : h.addr.toNat % 4 = 0)
    (inside : h.addr.toNat < 0x280) (whole : h.len.toNat % 4 = 0) (some : 4 ≤ h.len.toNat) (few : h.len.toNat ≤ 640) {bs : List Byte}
    (reads : (winWords s h).flatMap (leBytes 4) = bs) : answers (.spiReadWin h) s fun t => spiSent t bs ∧ spiMain s.m t.m ∧ mainOnly s t := by
  have takes : exec (.spiReadWin h) s = .next { s with m := spiData (spiTaken s) h bs } := by
    show execSpiReadWin h s = _
    rw [execSpiReadWin, spiTransaction_takes up free (by simp [ok, aligned, inside, whole, some, few]), ← reads, ← wordsBytes_words]
    simp only [winWords, List.map_map, Function.comp_def]
  exact ⟨_, takes, spiData_sent .., spiMain_trans (spiMain_spiTaken s) (spiMain_spiData ..), mainOnly_m _ _⟩

theorem answers_spiReadWin_journal (up : spiUp s.m = true) (free : s.m.spi.stalled = none) (ok : headerOk h 0x01 false = true) (addr : h.addr = 0x00C)
    (len : h.len = 8) : answers (.spiReadWin h) s fun t =>
      spiSent t (leBytes 4 s.m.flt.jseq ++ leBytes 4 (queueBitmap s.m)) ∧ spiMain s.m t.m ∧ mainOnly s t := by
  refine answers_spiReadWin up free ok ?_ ?_ ?_ ?_ ?_ ?_
  all_goals simp only [addr, len, winWords]
  all_goals try decide
  show leBytes 4 s.m.flt.jseq ++ (leBytes 4 (queueBitmap s.m) ++ []) = _
  rw [List.append_nil]

theorem answers_spiReadWin_queue (up : spiUp s.m = true) (free : s.m.spi.stalled = none) (ok : headerOk h 0x01 false = true) (len : h.len = 4)
    (addr : h.addr.toNat = 0x100 + 8 * q.val) : answers (.spiReadWin h) s fun t =>
      spiSent t (leBytes 4 (min 0xFFFF (s.m.pool.qs[q]).wordsCount + place 16 16 (s.m.pool.qs[q]).packets)) ∧ spiMain s.m t.m ∧ mainOnly s t := by
  have bound := q.isLt
  have read : winWords s h = [min 0xFFFF (s.m.pool.qs[q]).wordsCount + place 16 16 (s.m.pool.qs[q]).packets] := by
    have named : finOf 32 ((h.addr.toNat - 0x100) / 8) = q := by
      rw [addr, show (0x100 + 8 * q.val - 0x100) / 8 = q.val by omega]
      exact Fin.ofNat_val_eq_self q
    have four : h.len.toNat = 4 := congrArg BitVec.toNat len
    rw [winWords, four, show List.range (4 / 4) = [0] from rfl, List.map_singleton, Nat.mul_zero, Nat.add_zero, winWord, if_neg (by omega), if_neg (by omega), if_neg (by omega), if_neg (by omega),
      if_neg (by omega), if_pos (by rw [Bool.and_eq_true, decide_eq_true_eq, decide_eq_true_eq]; omega)]
    dsimp only
    rw [if_pos (by omega)]
    exact congrArg (fun r : Fin 32 => [min 0xFFFF (s.m.pool.qs[r]).wordsCount + place 16 16 (s.m.pool.qs[r]).packets]) named
  refine answers_spiReadWin up free ok (by omega) (by omega) (by rw [len]; rfl) (by rw [len]; decide) (by rw [len]; decide) ?_
  rw [read, List.flatMap_singleton]

/-! ## Reads of a queue (R329–R331, R489) -/

/-- A packet of one word at the head of a queue, read in two words: its length word and its word. -/
def readTwo (m : Main) (q : Fin 32) (p : Packet) : Main :=
  dropHead (modQ m q fun x => { x with pkts := x.pkts.map fun y => if y.id = p.id then { y with rd := y.rd + 1 } else y }) q

theorem clearHead_sound {rest : List Packet} (n : Nat) (head : (m.pool.qs[q]).pkts = p :: rest) (sound : p.poison = []) : clearHead n m q = m := by
  cases n with
  | zero => rfl
  | succ n =>
    rw [clearHead, head]
    dsimp only
    have none : p.struck 0 = none := by simp [Packet.struck, sound]
    rw [none]
    exact ite_self _

/-- A sound closed packet gives its length word, then its words; with the last it leaves the queue. -/
theorem readWord_sound {rest : List Packet} (head : (m.pool.qs[q]).pkts = p :: rest) (closed : p.opened = false) (sound : p.poison = []) :
    readWord m q = if p.rd = p.words.length then (0x83, if p.rd = 0 then word p.lengthWord else nth p.words (p.rd - 1) 0, dropHead m q)
      else (if p.rd = 0 then 0x81 else 0x82, if p.rd = 0 then word p.lengthWord else nth p.words (p.rd - 1) 0,
        modQ m q fun x => { x with pkts := x.pkts.map fun y => if y.id = p.id then { y with rd := y.rd + 1 } else y }) := by
  have none : p.struck p.rd = none := by simp [Packet.struck, sound]
  unfold readWord
  rw [clearHead_sound _ head sound]
  dsimp only
  rw [head]
  dsimp only
  rw [closed, none, if_neg Bool.false_ne_true]

theorem readTwo_pkts {rest : List Packet} {w : Word} (head : headWord m q p rest w) : ((readTwo m q p).pool.qs[q]).pkts = rest := by
  have others : rest.map (fun y => if y.id = p.id then { y with rd := y.rd + 1 } else y) = rest := by
    conv => rhs; rw [← List.map_id rest]
    exact List.map_congr_left fun y mem => if_neg (head.names y mem)
  rw [readTwo, dropHead, modQ_get, if_pos rfl, modQ_get, if_pos rfl]
  dsimp only
  rw [head.head, List.map_cons, others]
  rfl

theorem readTwo_others {r : Fin 32} (other : r ≠ q) : (readTwo m q p).pool.qs[r] = m.pool.qs[r] := by
  rw [readTwo, dropHead, modQ_get, if_neg other, modQ_get, if_neg other]

theorem readWords_headWord {rest : List Packet} {w : Word} (head : headWord m q p rest w) :
    readWords 2 m q = ([(0x81, word p.lengthWord), (0x83, w)], readTwo m q p) := by
  have one : p.words.length = 1 := by rw [head.words]; rfl
  have first : readWord m q = (0x81, word p.lengthWord,
      modQ m q fun x => { x with pkts := x.pkts.map fun y => if y.id = p.id then { y with rd := y.rd + 1 } else y }) := by
    rw [readWord_sound head.head head.closed head.sound, head.fresh, one, if_neg (by decide), if_pos rfl, if_pos rfl]
  have begun : ((modQ m q fun x => { x with pkts := x.pkts.map fun y => if y.id = p.id then { y with rd := y.rd + 1 } else y }).pool.qs[q]).pkts =
      { p with rd := 1 } :: rest.map fun y => if y.id = p.id then { y with rd := y.rd + 1 } else y := by
    rw [modQ_get, if_pos rfl]
    dsimp only
    rw [head.head, List.map_cons, if_pos rfl, head.fresh]
  have second := readWord_sound begun head.closed head.sound
  rw [one, if_pos rfl, if_neg Nat.one_ne_zero, head.words] at second
  simp only [readWords, first, second]
  rfl

theorem headWord_of_pool {rest : List Packet} {w : Word} (pool : b.pool = a.pool) (head : headWord a q p rest w) : headWord b q p rest w := by
  obtain ⟨host, first, closed, sound, words, fresh, names⟩ := head
  exact ⟨by rw [pool]; exact host, by rw [pool]; exact first, closed, sound, words, fresh, names⟩

theorem loaderWaits_spiTaken (s : State) : loaderWaits (spiTaken s) = loaderWaits s.m := by rw [loaderWaits, loaderWaits, spiTaken_pw]

section Ready

variable (ready : spiReady s)
include ready

theorem spiTaken_unseen (c : Fin 8) : ((spiTaken s).cus[c]).owned = true ∨ ((spiTaken s).cus[c]).source ≠ 2 := by
  rw [spiTaken_cus]
  exact ready.unseen c

theorem exec_spiReadQ {n : Nat} (ok : headerOk h 0x03 true = true) (names : queueOf h = some q) (some : 1 ≤ h.len.toNat) (few : h.len.toNat ≤ 4096) :
    exec (.spiReadQ h n) s = .next { s with m := readQ (spiTaken s) h q n } := by
  show execSpiReadQ h n s = _
  rw [execSpiReadQ, spiTransaction_takes ready.port ready.free (by simp [ok, names, wordCountOk, some, few, ready.loaded]), names]

theorem exec_spiConsume (ok : headerOk h 0x05 false = true) (names : queueOf h = some q) (some : 1 ≤ h.len.toNat) (few : h.len.toNat ≤ 4096)
    (mark : (s.m.pool.qs[q]).keepMark ≠ 2) : exec (.spiConsume h) s = .next { s with m := consumeQ (spiTaken s) h q } := by
  show execSpiConsume h s = _
  rw [execSpiConsume, spiTransaction_takes ready.port ready.free
    (by simp only [ok, names, wordCountOk, some, few, ready.loaded, bne_iff_ne.mpr mark, decide_true, Bool.not_false, Bool.and_self]), names]

omit ready in
theorem readQ_eq {n : Nat} {rest : List Packet} {w : Word} (head : headWord (spiTaken s) q p rest w) (two : min n h.len.toNat = 2) :
    readQ (spiTaken s) h q n = if headerFlag h then spiData (modQ (spiTaken s) q fun x => { x with keepMark := 1 }) h (tagBytes [(0x81, word p.lengthWord), (0x83, w)])
      else spiData (readTwo (spiTaken s) q p) h (tagBytes [(0x81, word p.lengthWord), (0x83, w)]) := by
  unfold readQ
  dsimp only
  rw [head.host, if_neg (by decide), two, readWords_headWord head]

theorem spiData_readTwo (bs : List Byte) : spiData (readTwo (spiTaken s) q p) h bs = spiSend (readTwo (spiTaken s) q p) bs :=
  spiData_unseen (m := readTwo (spiTaken s) q p) (spiTaken_unseen (s := s) ready) bs

omit ready in
theorem spiMain_readTwo (bs : List Byte) : spiMain s.m (spiSend (readTwo (spiTaken s) q p) bs) :=
  spiMain_trans (spiMain_spiTaken s) (spiMain_trans (b := readTwo (spiTaken s) q p) rfl (spiMain_modSpi ..))

theorem answers_spiReadQ {rest : List Packet} {w : Word} (ok : headerOk h 0x03 true = true) (flag : headerFlag h = false) (names : queueOf h = some q)
    (two : 2 ≤ h.len.toNat) (few : h.len.toNat ≤ 4096) (head : headWord s.m q p rest w) : answers (.spiReadQ h 2) s fun t =>
      spiSent t (tagBytes [(0x81, word p.lengthWord), (0x83, w)]) ∧ (t.m.pool.qs[q]).pkts = rest ∧
      (∀ r : Fin 32, r ≠ q → t.m.pool.qs[r] = s.m.pool.qs[r]) ∧ spiMain s.m t.m ∧ mainOnly s t := by
  have taken := headWord_of_pool (spiTaken_pool s) head
  have runs := exec_spiReadQ (n := 2) ready ok names (by omega) few
  rw [readQ_eq taken (by omega), flag, if_neg Bool.false_ne_true, spiData_readTwo ready] at runs
  refine ⟨_, runs, rfl, readTwo_pkts taken, fun r other => ?_, spiMain_readTwo _, mainOnly_m _ _⟩
  exact (readTwo_others other).trans (by rw [spiTaken_pool])

theorem answers_spiReadQ_keeps {rest : List Packet} {w : Word} (ok : headerOk h 0x03 true = true) (flag : headerFlag h = true)
    (names : queueOf h = some q) (two : 2 ≤ h.len.toNat) (few : h.len.toNat ≤ 4096) (head : headWord s.m q p rest w) :
    answers (.spiReadQ h 2) s fun t =>
      spiSent t (tagBytes [(0x81, word p.lengthWord), (0x83, w)]) ∧ (t.m.pool.qs[q]).pkts = p :: rest ∧ (t.m.pool.qs[q]).keepMark = 1 ∧
      spiMain s.m t.m ∧ mainOnly s t := by
  have taken := headWord_of_pool (spiTaken_pool s) head
  have runs := exec_spiReadQ (n := 2) ready ok names (by omega) few
  have unseen := spiTaken_unseen ready
  rw [readQ_eq taken (by omega), flag, if_pos rfl, spiData_unseen (m := modQ (spiTaken s) q _) unseen] at runs
  have own : (modQ (spiTaken s) q fun x => { x with keepMark := 1 }).pool.qs[q] = { (spiTaken s).pool.qs[q] with keepMark := 1 } := by
    rw [modQ_get, if_pos rfl]
  refine ⟨_, runs, rfl, (congrArg Queue.pkts own).trans taken.head, congrArg Queue.keepMark own, ?_, mainOnly_m _ _⟩
  exact spiMain_trans (spiMain_spiTaken s) rfl

theorem answers_spiConsume {rest : List Packet} {w : Word} (ok : headerOk h 0x05 false = true) (names : queueOf h = some q) (len : h.len = 2)
    (mark : (s.m.pool.qs[q]).keepMark ≠ 2) (head : headWord s.m q p rest w) : answers (.spiConsume h) s fun t =>
      spiSent t [2] ∧ (t.m.pool.qs[q]).pkts = rest ∧ (∀ r : Fin 32, r ≠ q → t.m.pool.qs[r] = s.m.pool.qs[r]) ∧ spiMain s.m t.m ∧ mainOnly s t := by
  have taken := headWord_of_pool (spiTaken_pool s) head
  have two : h.len.toNat = 2 := congrArg BitVec.toNat len
  have runs := exec_spiConsume ready ok names (by omega) (by omega) mark
  have consumed : consumeQ (spiTaken s) h q = spiData (readTwo (spiTaken s) q p) h [2] := by
    unfold consumeQ
    dsimp only
    rw [taken.host, if_neg (by decide), two, readWords_headWord taken]
    rfl
  rw [consumed, spiData_readTwo ready] at runs
  refine ⟨_, runs, rfl, readTwo_pkts taken, fun r other => ?_, spiMain_readTwo _, mainOnly_m _ _⟩
  exact (readTwo_others other).trans (by rw [spiTaken_pool])

theorem answers_spiConsume_other (ok : headerOk h 0x05 false = true) (names : queueOf h = some q) (len : h.len = 2)
    (mark : (s.m.pool.qs[q]).keepMark ≠ 2) (other : (s.m.pool.qs[q]).consumer ≠ 0) : answers (.spiConsume h) s fun t =>
      spiSent t [0] ∧ t.m.pool.qs = s.m.pool.qs ∧ counter t.m 0x70C0 0x0B = sat32 (counter s.m 0x70C0 0x0B + 1) ∧ spiMain s.m t.m ∧ mainOnly s t := by
  have two : h.len.toNat = 2 := congrArg BitVec.toNat len
  have runs := exec_spiConsume ready ok names (by omega) (by omega) mark
  have pool : (count (spiTaken s) 0x70C0 0x0B).pool = s.m.pool := (count_pool ..).trans (spiTaken_pool s)
  have unseen (c : Fin 8) : ((count (spiTaken s) 0x70C0 0x0B).cus[c]).owned = true ∨ ((count (spiTaken s) 0x70C0 0x0B).cus[c]).source ≠ 2 := by
    rw [count_cus]
    exact spiTaken_unseen ready c
  rw [consumeQ, if_pos (by rw [spiTaken_pool]; exact bne_iff_ne.mpr other), spiData_unseen unseen] at runs
  refine ⟨_, runs, rfl, congrArg Pool.qs pool, ?_, spiMain_trans (spiMain_spiTaken s) (spiMain_trans (b := count (spiTaken s) 0x70C0 0x0B) (spiMain_count ..) rfl),
    mainOnly_m _ _⟩
  exact (counter_count_same ..).trans (by rw [counter_spiTaken (by decide)])

end Ready

/-! ## Writes of a packet (R340, R490) -/

theorem exec_spiWriteQ {w : Word} {ws : List Word} {dchk : Byte} (ready : spiReady s) (ok : headerOk h 0x04 true = true) (names : queueOf h = some q)
    (whole : h.len.toNat = ws.length + 1) (few : h.len.toNat ≤ 4096) (free : s.m.spi.openQ = none) : exec (.spiWriteQ h (w :: ws) dchk) s = .next { s with
      m := hostWrite (spiTaken s) q (w :: ws) (headerFlag h) (spiCheck (wordsBytes (w :: ws)) == dchk) } := by
  have valid : writeQOk s.m h = true := by simp [writeQOk, ok, wordCountOk, names, ready.loaded, free, few]; omega
  have all : (w :: ws).take h.len.toNat = w :: ws := List.take_of_length_le (by simp; omega)
  show execSpiWriteQ h (w :: ws) dchk s = _
  rw [execSpiWriteQ, spiTransaction_takes ready.port ready.free valid, names]
  dsimp only
  unfold writeQ
  rw [all]
  dsimp only
  rw [cuSpi_unseen (spiTaken_unseen ready), if_neg (by simp; omega)]

/-- The host's packet, as its first word opens it. -/
def hostOpened (m : Main) (q : Fin 32) (w : Word) : Main :=
  modSpi (openPkt m q (field w.toNat 16 8) 0x01 1).1 fun x => { x with openQ := some (q, m.pool.nextId) }

/-- The host's packet, with all its words. -/
def hostFilled (m : Main) (q : Fin 32) (w : Word) (ws : List Word) : Main :=
  modSpi (appendPkt (hostOpened m q w) q m.pool.nextId ws) fun x => { x with stalled := none }

/-- The packet with the words it has. -/
def hostPacket (m : Main) (w : Word) (ws : List Word) : Packet :=
  { id := m.pool.nextId, opened := true, type := field w.toNat 16 8, source := 0x01, words := ws, reserve := 1 }

theorem packetOpen_of_pool (pool : b.pool = a.pool) (h : packetOpen a q p) : packetOpen b q p := by
  obtain ⟨mem, opened, only, noSink, named⟩ := h
  exact ⟨by rw [pool]; exact mem, opened, by rw [pool]; exact only, by rw [pool]; exact noSink, by rw [pool]; exact named⟩

theorem packetOpen_hostOpened {n : Nat} (w : Word) (room : roomFor m q n) : packetOpen (hostOpened m q w) q (hostPacket m w []) := by
  have opened := packetOpen_openPkt (type := field w.toNat 16 8) (source := 0x01) (room.names q)
  exact packetOpen_of_pool (a := (openPkt m q (field w.toNat 16 8) 0x01 1).1) rfl opened

theorem packetOpen_hostFilled {w : Word} {ws : List Word} (room : roomFor m q ws.length) : packetOpen (hostFilled m q w ws) q (hostPacket m w ws) := by
  have filled := packetOpen_appendPkt (ws := ws) (packetOpen_hostOpened w room) (by simpa [hostPacket] using room.size)
  exact packetOpen_of_pool (a := appendPkt (hostOpened m q w) q m.pool.nextId ws) rfl filled

theorem hostFilled_spi (w : Word) (ws : List Word) : (hostFilled m q w ws).spi = { m.spi with openQ := some (q, m.pool.nextId), stalled := none } := by
  have opened : (openPkt m q (field w.toNat 16 8) 0x01 1).1.spi = m.spi := poolOnly_spi_eq (poolOnly_openPkt ..)
  rw [hostFilled, modSpi_spi, poolOnly_spi_eq (poolOnly_appendPkt ..), hostOpened, modSpi_spi, opened]

theorem spiMain_hostFilled (w : Word) (ws : List Word) : spiMain m (hostFilled m q w ws) :=
  spiMain_trans (spiMain_of_pool (poolOnly_openPkt ..)) (spiMain_trans (spiMain_modSpi _ _)
    (spiMain_trans (spiMain_of_pool (poolOnly_appendPkt ..)) (spiMain_modSpi _ _)))

/-- A packet for which its queue has room is written whole at once. -/
theorem hostWrite_fits {w : Word} {ws : List Word} {cont ok : Bool} (free : m.spi.openQ = none) (room : roomFor m q ws.length) :
    hostWrite m q (w :: ws) cont ok = hostEnd (hostFilled m q w ws) cont ok := by
  have some_ : ¬ takeable m q = 0 := by
    have space : cellsOfWords (ws.length + 1) ≤ takeable m q := by simpa [spaceTest] using room.space
    unfold cellsOfWords at space
    omega
  have fits : ws.length ≤ roomOf (hostOpened m q w) q m.pool.nextId ws.length := roomOf_openPkt (type := field w.toNat 16 8) (source := 0x01) room
  have opens : (hostOpened m q w).spi.openQ = some (q, m.pool.nextId) := rfl
  unfold hostWrite
  rw [free]
  dsimp only
  rw [if_neg some_]
  dsimp only
  change (match (hostOpened m q w).spi.openQ with
    | none => modSpi (hostOpened m q w) fun x => { x with stalled := some (q, ws, cont, ok) }
    | some (_, id) =>
      if ws.length ≤ roomOf (hostOpened m q w) q id ws.length then
        hostEnd (modSpi (appendPkt (hostOpened m q w) q id (ws.take (roomOf (hostOpened m q w) q id ws.length))) fun x => { x with stalled := none }) cont ok
      else modSpi (appendPkt (hostOpened m q w) q id (ws.take (roomOf (hostOpened m q w) q id ws.length))) fun x =>
        { x with stalled := some (q, ws.drop (roomOf (hostOpened m q w) q id ws.length), cont, ok) }) = _
  rw [opens]
  dsimp only
  rw [if_pos fits, List.take_of_length_le fits]
  rfl

theorem answers_spiWriteQ {w : Word} {ws : List Word} (ready : spiReady s) (ok : headerOk h 0x04 true = true) (flag : headerFlag h = false)
    (names : queueOf h = some q) (whole : h.len.toNat = ws.length + 1) (few : h.len.toNat ≤ 4096) (free : s.m.spi.openQ = none)
    (room : roomFor s.m q ws.length) : answers (.spiWriteQ h (w :: ws) (spiCheck (wordsBytes (w :: ws)))) s fun t =>
      delivered t.m q (field w.toNat 16 8) 0x01 ws ∧ t.m.spi.openQ = none ∧ t.m.spi.stalled = none ∧ spiMain s.m t.m ∧ mainOnly s t := by
  have still := roomFor_of_pool room (spiTaken_pool s)
  have opens : (hostFilled (spiTaken s) q w ws).spi.openQ = some (q, (spiTaken s).pool.nextId) := by rw [hostFilled_spi]
  have filed := filed_closePkt (packetOpen_of_pool (a := hostFilled (spiTaken s) q w ws)
    (b := modSpi (hostFilled (spiTaken s) q w ws) fun x => { x with openQ := none }) rfl
    (packetOpen_hostFilled (w := w) still))
  have closed := poolOnly_closePkt (modSpi (hostFilled (spiTaken s) q w ws) fun x => { x with openQ := none }) q (spiTaken s).pool.nextId
  have loads : loaderWaits (closePkt (modSpi (hostFilled (spiTaken s) q w ws) fun x => { x with openQ := none }) q (spiTaken s).pool.nextId) = false := by
    have pw : (closePkt (modSpi (hostFilled (spiTaken s) q w ws) fun x => { x with openQ := none }) q (spiTaken s).pool.nextId).pw = s.m.pw := by
      have only := spiMain_trans (spiMain_spiTaken s) (spiMain_hostFilled (m := spiTaken s) (q := q) w ws)
      unfold spiMain at only
      rw [poolOnly_pw_eq closed, modSpi_pw, only]
    rw [loaderWaits, pw]
    exact ready.loaded
  have runs := exec_spiWriteQ (w := w) (ws := ws) (dchk := spiCheck (wordsBytes (w :: ws))) ready ok names whole few free
  rw [hostWrite_fits (by rw [spiTaken_openQ]; exact free) still, flag, beq_self_eq_true, hostEnd, if_neg (by decide), if_neg (by decide), opens] at runs
  dsimp only at runs
  rw [loaderDrain, loads, if_neg Bool.false_ne_true] at runs
  refine ⟨_, runs, delivered_of_filed filed, ?_, ?_, ?_, mainOnly_m _ _⟩
  · dsimp only
    rw [poolOnly_spi_eq closed]
    rfl
  · dsimp only
    rw [poolOnly_spi_eq closed, modSpi_spi, hostFilled_spi]
  · exact spiMain_trans (spiMain_spiTaken s) (spiMain_trans (spiMain_hostFilled w ws) (spiMain_trans (spiMain_modSpi _ _) (spiMain_of_pool closed)))

/-! ## Packets of the host that are discarded (R340) -/

/-- The host's packet without its open state, its cells on their way back. -/
def hostCut (m : Main) (q : Fin 32) (id : Nat) : Main :=
  modQ (cuSink { m with pool := { m.pool with
      returning := m.pool.returning + (((m.pool.qs[q]).pkts.filter fun p => p.id == id).map Packet.cells).sum } } id) q fun x =>
    { x with
      pkts := x.pkts.filter (fun p => p.id != id), sinks := x.sinks.filter (fun p => p.id != id), sunk := sat32 (x.sunk + 1)
      lastTrunc := byte 0x8E :: leBytes 4 (((((m.pool.qs[q]).pkts ++ (m.pool.qs[q]).sinks).find? fun p => p.id == id).map Packet.lengthWord).getD 0) }

theorem hostDiscard_open {id : Nat} (opened : m.spi.openQ = some (q, id)) : hostDiscard m = modSpi (hostCut m q id) fun x => { x with openQ := none } := by
  unfold hostDiscard
  rw [opened]
  rfl

theorem hostCut_pkts (m : Main) (q : Fin 32) (id : Nat) : ((hostCut m q id).pool.qs[q]).pkts = (m.pool.qs[q]).pkts.filter fun p => p.id != id := by
  rw [hostCut, modQ_get, if_pos rfl, cuSink_pool]

theorem poolOnly_hostCut (m : Main) (q : Fin 32) (id : Nat) : poolOnly m (hostCut m q id) :=
  poolOnly_trans (b := { m with pool := { m.pool with
    returning := m.pool.returning + (((m.pool.qs[q]).pkts.filter fun p => p.id == id).map Packet.cells).sum } }) rfl
    (poolOnly_trans (poolOnly_cuSink ..) (poolOnly_modQ ..))

theorem tallyKept_hostCut (m : Main) (q : Fin 32) (id : Nat) : tallyKept m (hostCut m q id) :=
  tallyKept_trans (b := { m with pool := { m.pool with
    returning := m.pool.returning + (((m.pool.qs[q]).pkts.filter fun p => p.id == id).map Packet.cells).sum } }) (tallyKept_of_same rfl rfl)
    (tallyKept_trans (tallyKept_cuSink id) (tallyKept_of_same rfl rfl))

/-- What is left once the host's packet is discarded. -/
theorem hostDiscard_leaves {id : Nat} (opened : m.spi.openQ = some (q, id)) :
    ((hostDiscard m).pool.qs[q]).pkts = (m.pool.qs[q]).pkts.filter (fun p => p.id != id) ∧ (hostDiscard m).spi = { m.spi with openQ := none } ∧
    tallyKept m (hostDiscard m) ∧ spiMain m (hostDiscard m) := by
  have only := poolOnly_hostCut m q id
  rw [hostDiscard_open opened]
  refine ⟨hostCut_pkts m q id, ?_, tallyKept_trans (tallyKept_hostCut m q id) (tallyKept_of_same rfl rfl), spiMain_trans (spiMain_of_pool only) rfl⟩
  rw [modSpi_spi, poolOnly_spi_eq only]

/-- What is left once the host abandons its packet. -/
theorem hostAbandon_leaves {id : Nat} (opened : m.spi.openQ = some (q, id)) :
    ((hostAbandon m).pool.qs[q]).pkts = (m.pool.qs[q]).pkts.filter (fun p => p.id != id) ∧
    (hostAbandon m).spi = { m.spi with openQ := none, prevAbandon := true, stalled := none } ∧
    counter (hostAbandon m) 0x70C0 0x04 = sat32 (counter m 0x70C0 0x04 + 1) ∧
    (∀ idx sub, ekey idx sub ∉ poolCounters → ekey idx sub ≠ ekey 0x70C0 0x04 → counter (hostAbandon m) idx sub = counter m idx sub) ∧
    spiMain m (hostAbandon m) := by
  obtain ⟨pkts, spi, tally, only⟩ := hostDiscard_leaves opened
  have abandoned : hostAbandon m = modSpi (count (hostDiscard m) 0x70C0 0x04) fun x => { x with prevAbandon := true, stalled := none } := by
    rw [hostAbandon, opened, Option.isSome_some, if_pos rfl]
  rw [abandoned]
  refine ⟨?_, ?_, ?_, fun idx sub own other => ?_, spiMain_trans only (spiMain_trans (spiMain_count ..) (spiMain_modSpi _ _))⟩
  · rw [modSpi_pool, count_pool, pkts]
  · rw [modSpi_spi, count_spi, spi]
  · refine (counter_count_same (hostDiscard m) 0x70C0 0x04).trans ?_
    rw [tally.stands _ _ (by decide)]
  · exact (counter_count_other other).trans (tally.stands _ _ own)

theorem tallyKept_hostFilled (w : Word) (ws : List Word) : tallyKept m (hostFilled m q w ws) := by
  refine tallyKept_trans (tallyKept_openPkt q (field w.toNat 16 8) 0x01 1) (tallyKept_trans (b := hostOpened m q w) (tallyKept_of_same rfl rfl) ?_)
  exact tallyKept_trans (tallyKept_appendPkt q m.pool.nextId ws) (tallyKept_of_same rfl rfl)

/-- Without the host's packet a queue holds what it held before. -/
theorem hostFilled_others {w : Word} {ws : List Word} (room : roomFor m q ws.length) :
    ((hostFilled m q w ws).pool.qs[q]).pkts.filter (fun p => p.id != m.pool.nextId) = (m.pool.qs[q]).pkts := by
  have old (r : Packet) (mem : r ∈ (m.pool.qs[q]).pkts) : r.id ≠ m.pool.nextId := Nat.ne_of_lt (room.names q r (List.mem_append_left _ mem))
  have filled := appendPkt_fits (ws := ws) (packetOpen_hostOpened w room) (by simpa [hostPacket] using room.size)
  have opened : ((hostOpened m q w).pool.qs[q]).pkts = (m.pool.qs[q]).pkts ++ [newPacket m (field w.toNat 16 8) 0x01] :=
    congrArg Queue.pkts (openPkt_own m q (field w.toNat 16 8) 0x01)
  have pkts : ((hostFilled m q w ws).pool.qs[q]).pkts = ((m.pool.qs[q]).pkts ++ [newPacket m (field w.toNat 16 8) 0x01]).map fun r =>
      if r.id = m.pool.nextId then { r with words := r.words ++ ws } else r := by
    rw [hostFilled, modSpi_pool, show appendPkt (hostOpened m q w) q m.pool.nextId ws = _ from filled, (cuWords_same ..).1, modQ_get, if_pos rfl, ← opened]
    rfl
  have same : (m.pool.qs[q]).pkts.map (fun r => if r.id = m.pool.nextId then { r with words := r.words ++ ws } else r) = (m.pool.qs[q]).pkts := by
    conv => rhs; rw [← List.map_id (m.pool.qs[q]).pkts]
    exact List.map_congr_left fun r mem => if_neg (old r mem)
  rw [pkts, List.map_append, same, List.filter_append, List.filter_eq_self.mpr fun r mem => bne_iff_ne.mpr (old r mem)]
  simp [newPacket]

theorem answers_spiWriteQ_bad {w : Word} {ws : List Word} {dchk : Byte} (ready : spiReady s) (bad : dchk ≠ spiCheck (wordsBytes (w :: ws)))
    (ok : headerOk h 0x04 true = true) (names : queueOf h = some q) (whole : h.len.toNat = ws.length + 1) (few : h.len.toNat ≤ 4096)
    (free : s.m.spi.openQ = none) (room : roomFor s.m q ws.length) : answers (.spiWriteQ h (w :: ws) dchk) s fun t =>
      (t.m.pool.qs[q]).pkts = (s.m.pool.qs[q]).pkts ∧ t.m.spi.openQ = none ∧ t.m.spi.prevCrc = true ∧
      counter t.m 0x7000 0x03 = sat32 (counter s.m 0x7000 0x03 + 1) ∧ counter t.m 0x70C0 0x05 = sat32 (counter s.m 0x70C0 0x05 + 1) ∧
      spiMain s.m t.m ∧ mainOnly s t := by
  have still := roomFor_of_pool room (spiTaken_pool s)
  have others := hostFilled_others (w := w) still
  have fails : (spiCheck (wordsBytes (w :: ws)) == dchk) = false := beq_eq_false_iff_ne.mpr (Ne.symm bad)
  have opens : (modSpi (count (hostFilled (spiTaken s) q w ws) 0x7000 0x03) fun x => { x with prevCrc := true }).spi.openQ =
      some (q, (spiTaken s).pool.nextId) := by rw [modSpi_spi, count_spi, hostFilled_spi]
  obtain ⟨pkts, spi, tally, only⟩ := hostDiscard_leaves opens
  have runs := exec_spiWriteQ (w := w) (ws := ws) (dchk := dchk) ready ok names whole few free
  rw [hostWrite_fits (by rw [spiTaken_openQ]; exact free) still, fails, hostEnd, if_pos (by decide)] at runs
  dsimp only at runs
  rw [opens, Option.isSome_some, if_pos rfl] at runs
  have filled := tallyKept_hostFilled (m := spiTaken s) (q := q) w ws
  refine ⟨_, runs, ?_, ?_, ?_, ?_, ?_, ?_, mainOnly_m _ _⟩
  · dsimp only
    rw [count_pool, pkts, modSpi_pool, count_pool, others, spiTaken_pool]
  · dsimp only
    rw [count_spi, spi]
  · dsimp only
    rw [count_spi, spi]
    rfl
  · dsimp only
    rw [counter_count_other (by decide), tally.stands _ _ (by decide)]
    refine (counter_count_same (hostFilled (spiTaken s) q w ws) 0x7000 0x03).trans ?_
    rw [filled.stands _ _ (by decide), counter_spiTaken (by decide)]
  · dsimp only
    rw [counter_count_same, tally.stands _ _ (by decide)]
    refine congrArg (fun n => sat32 (n + 1)) ((counter_count_other (m := hostFilled (spiTaken s) q w ws) (by decide)).trans ?_)
    rw [filled.stands _ _ (by decide), counter_spiTaken (by decide)]
  · exact spiMain_trans (spiMain_spiTaken s) (spiMain_trans (spiMain_hostFilled w ws) (spiMain_trans (spiMain_count _ 0x7000 0x03)
      (spiMain_trans (spiMain_modSpi _ fun x => { x with prevCrc := true }) (spiMain_trans only (spiMain_count ..)))))

/-! ## What ends a write early (R340, R494) -/

theorem answers_spiAbandon {id : Nat} (up : spiUp s.m = true) (opened : s.m.spi.openQ = some (q, id)) : answers .spiAbandon s fun t =>
      t.m.spi.openQ = none ∧ t.m.spi.stalled = none ∧ t.m.spi.prevAbandon = true ∧
      (t.m.pool.qs[q]).pkts = (s.m.pool.qs[q]).pkts.filter (fun p => p.id != id) ∧
      counter t.m 0x70C0 0x04 = sat32 (counter s.m 0x70C0 0x04 + 1) ∧ spiMain s.m t.m ∧ mainOnly s t := by
  obtain ⟨pkts, spi, counted, -, only⟩ := hostAbandon_leaves opened
  refine answers_of_onMain (f := fun m => if spiUp m && (m.spi.stalled.isSome || m.spi.openQ.isSome) then hostAbandon m else m) rfl ?_
  rw [if_pos (by simp [up, opened]), spi]
  exact ⟨rfl, rfl, rfl, pkts, counted, only, mainOnly_m _ _⟩

/-- Words are appended to a packet that stands alone under its name, whatever names are still to come. -/
theorem appendPkt_alone {id : Nat} {ws : List Word} (mem : p ∈ (m.pool.qs[q]).pkts) (named : p.id = id) (size : p.words.length + ws.length ≤ 65535)
    (noSink : ∀ x ∈ (m.pool.qs[q]).sinks, x.id ≠ id) (only : ∀ x ∈ (m.pool.qs[q]).pkts, x.id = id → x = p) :
    { p with words := p.words ++ ws } ∈ ((appendPkt m q id ws).pool.qs[q]).pkts := by
  have found : (m.pool.qs[q]).pkts.find? (fun r => r.id == id) = some p := by
    cases found : (m.pool.qs[q]).pkts.find? fun r => r.id == id with
    | none => exact absurd (List.find?_eq_none.mp found p mem) (by simp [named])
    | some r =>
      have same := List.find?_some found
      rw [only r (List.mem_of_find?_eq_some found) (by simpa using same)]
  have room : ws.length ≤ 65535 - p.words.length := by omega
  have clear : ((m.pool.qs[q]).sinks.any fun r => r.id == id) = false := by simpa using noSink
  have appends : appendPkt m q id ws =
      cuWords (modQ m q fun x => noteCells { x with pkts := x.pkts.map fun r => if r.id = id then { r with words := r.words ++ ws } else r }) q id ws := by
    unfold appendPkt
    dsimp only
    rw [clear, found]
    simp only [Bool.false_eq_true, if_false, Option.map_some, Option.getD_some, room, if_true, List.take_of_length_le]
  rw [appends, (cuWords_same ..).1, modQ_get, if_pos rfl]
  exact List.mem_map.mpr ⟨p, mem, if_pos named⟩

theorem answers_stallRelease {r : Fin 32} {id : Nat} {ws : List Word} (up : spiUp s.m = true) (waits : s.m.spi.stalled = some (q, ws, true, true))
    (opens : s.m.spi.openQ = some (r, id)) (some_ : ws ≠ []) (fits : roomOf s.m q id ws.length = ws.length) (mem : p ∈ (s.m.pool.qs[q]).pkts)
    (named : p.id = id) (opened : p.opened = true) (size : p.words.length + ws.length ≤ 65535) (noSink : ∀ x ∈ (s.m.pool.qs[q]).sinks, x.id ≠ id)
    (only : ∀ x ∈ (s.m.pool.qs[q]).pkts, x.id = id → x = p) : answers .spiWriteStallRelease s fun t =>
      t.m.spi.stalled = none ∧ t.m.spi.openQ = some (r, id) ∧
      (∃ x ∈ (t.m.pool.qs[q]).pkts, x.id = id ∧ x.opened = true ∧ x.words = p.words ++ ws) ∧ spiMain s.m t.m ∧ mainOnly s t := by
  have long : ¬ ws.length = 0 := fun none => some_ (List.length_eq_zero_iff.mp none)
  have appended := poolOnly_appendPkt s.m q id ws
  have released : stallRelease s.m = modSpi (appendPkt s.m q id ws) fun x => { x with stalled := none } := by
    unfold stallRelease
    rw [waits]
    dsimp only
    rw [opens]
    dsimp only
    rw [fits, if_neg long]
    unfold hostWrite
    rw [opens]
    dsimp only
    rw [opens]
    dsimp only
    rw [fits, if_pos (Nat.le_refl _), List.take_length]
    rfl
  refine answers_of_onMain (f := fun m => if spiUp m then stallRelease m else m) rfl ?_
  rw [if_pos up, released]
  refine ⟨rfl, ?_, ⟨_, appendPkt_alone mem named size noSink only, named, opened, rfl⟩, spiMain_trans (spiMain_of_pool appended) rfl, mainOnly_m _ _⟩
  dsimp only
  rw [modSpi_spi, poolOnly_spi_eq appended]
  exact opens

/-- The port's state machine starts anew, and tells the journal. -/
def spiRestarted (m : Main) : Main :=
  journal (count (modSpi m fun x => { x with quad := false, quadNext := false }) 0x7000 0x05) 0x31 0x6001 []

theorem spiRestarted_leaves (m : Main) : (spiRestarted m).spi = { m.spi with quad := false, quadNext := false } ∧
    counter (spiRestarted m) 0x7000 0x05 = sat32 (counter m 0x7000 0x05 + 1) ∧ spiMain m (spiRestarted m) := by
  have only := poolOnly_journal (count (modSpi m fun x => { x with quad := false, quadNext := false }) 0x7000 0x05) 0x31 0x6001 []
  have tally := tallyKept_journal (m := count (modSpi m fun x => { x with quad := false, quadNext := false }) 0x7000 0x05) 0x31 0x6001 []
  refine ⟨?_, ?_, spiMain_trans (spiMain_modSpi m fun x => { x with quad := false, quadNext := false }) (spiMain_trans (spiMain_count ..) (spiMain_of_pool only))⟩
  · rw [spiRestarted, poolOnly_spi_eq only, count_spi, modSpi_spi]
  · exact (tally.stands _ _ (by decide)).trans (counter_count_same ..)

theorem answers_spiIdleReset (up : spiUp s.m = true) (free : s.m.spi.stalled = none) : answers .spiIdleReset s fun t =>
      t.m.spi.quad = false ∧ t.m.spi.quadNext = false ∧ t.m.spi.openQ = none ∧ (s.m.spi.openQ.isSome = true → t.m.spi.prevAbandon = true) ∧
      counter t.m 0x7000 0x05 = sat32 (counter s.m 0x7000 0x05 + 1) ∧ spiMain s.m t.m ∧ mainOnly s t := by
  refine answers_of_onMain (f := spiIdleReset) rfl ?_
  have resets : spiIdleReset s.m = spiRestarted (if s.m.spi.openQ.isSome then hostAbandon s.m else s.m) := by
    rw [spiIdleReset, if_neg (by simp [up, free])]
    rfl
  rw [resets]
  cases opened : s.m.spi.openQ with
  | none =>
    obtain ⟨spi, counted, only⟩ := spiRestarted_leaves s.m
    rw [Option.isSome_none, if_neg Bool.false_ne_true, spi]
    exact ⟨rfl, rfl, opened, fun some_ => absurd some_ Bool.false_ne_true, counted, only, mainOnly_m _ _⟩
  | some x =>
    obtain ⟨-, abandoned, -, others, left⟩ := hostAbandon_leaves (q := x.1) (id := x.2) opened
    obtain ⟨spi, counted, only⟩ := spiRestarted_leaves (hostAbandon s.m)
    rw [Option.isSome_some, if_pos rfl, spi, abandoned]
    refine ⟨rfl, rfl, rfl, fun _ => rfl, ?_, spiMain_trans left only, mainOnly_m _ _⟩
    rw [counted, others _ _ (by decide) (by decide)]

/-! ## Requests served later (R491) and the width (R495) -/

theorem dictMain_of_spi (x : spiMain a b) : dictMain a b := by
  unfold spiMain dictMain at *
  rw [x]

theorem dictMain_trans (x : dictMain a b) (y : dictMain b c) : dictMain a c := by
  unfold dictMain at *
  rw [y, x]

theorem answers_spiDictDefer {bs : List Byte} (up : spiUp s.m = true) (free : s.m.spi.stalled = none) (loaded : loaderWaits s.m = false)
    (long : 16 ≤ bs.length) (short : bs.length ≤ 64) : answers (.spiDictDefer bs) s fun t =>
      spiSent t [0x01] ∧ t.m.dict = { s.m.dict with deferred := s.m.dict.deferred ++ [(bs, s.m.now)] } ∧
      counter t.m 0x7000 0x04 = sat32 (counter s.m 0x7000 0x04 + 1) ∧ dictMain s.m t.m ∧ mainOnly s t := by
  let h : SpiHeader := { cmd := 0x06, addr := 0, len := BitVec.ofNat 16 bs.length }
  let heard := cuSpi (count (spiTaken s) 0x7000 0x04) false bs (spiHead h)
  let kept := modDict heard fun d => { d with deferred := d.deferred ++ [(bs, heard.now)] }
  have takes : exec (.spiDictDefer bs) s = .next { s with m := spiData kept h [0x01] } := by
    show execSpiDictDefer bs s = _
    rw [execSpiDictDefer, spiTransaction_takes up free (by simp [loaded, long, short])]
  have pool : poolOnly (count (spiTaken s) 0x7000 0x04) heard := poolOnly_cuSpi ..
  have sent : poolOnly (spiSend kept [0x01]) (spiData kept h [0x01]) := poolOnly_cuSpi ..
  have begun := spiMain_trans (spiMain_spiTaken s) (spiMain_trans (spiMain_count (spiTaken s) 0x7000 0x04) (spiMain_of_pool pool))
  have tally : tallyKept (count (spiTaken s) 0x7000 0x04) heard := tallyKept_cuSpi ..
  have tallySent : tallyKept (spiSend kept [0x01]) (spiData kept h [0x01]) := tallyKept_cuSpi ..
  refine ⟨_, takes, spiData_sent .., ?_, ?_, ?_, mainOnly_m _ _⟩
  · have dict : heard.dict = s.m.dict ∧ heard.now = s.m.now := by
      unfold spiMain at begun
      rw [begun]
      exact ⟨rfl, rfl⟩
    dsimp only
    rw [poolOnly_dict_eq sent]
    show { heard.dict with deferred := heard.dict.deferred ++ [(bs, heard.now)] } = _
    rw [dict.1, dict.2]
  · refine (tallySent.stands _ _ (by decide)).trans ((tally.stands _ _ (by decide)).trans ((counter_count_same ..).trans ?_))
    rw [counter_spiTaken (by decide)]
  · exact dictMain_trans (dictMain_of_spi begun) (dictMain_trans (b := kept) rfl (dictMain_trans (b := spiSend kept [0x01]) rfl
      (dictMain_of_spi (spiMain_of_pool sent))))

theorem widthWrite_takes {v : Nat} (ctl : ctlOn m = true) (mode : m.pw.mode.isMain = true ∨ m.pw.mode = .hold) (low : v ≤ 1) :
    (widthWrite m v).2 = modSpi m fun x => { x with quadNext := v == 1 } := by
  rw [widthWrite, if_pos]
  rcases mode with main | hold <;> simp [*]

theorem widthWrite_refuses {v : Nat} (high : 1 < v) (m : Main) : (widthWrite m v).2 = m := by
  rw [widthWrite, if_neg]
  simp
  omega

/-! ## The statement -/

/-- Settles O53, clause by clause. -/
theorem spiPort : Obligations.SpiPort := by
  unfold Obligations.SpiPort
  refine ⟨?nop, ?refused, ?down, ?journal, ?queue, ?read, ?keep, ?consume, ?otherQueue, ?write, ?damaged, ?deferred, ?abandon, ?nothing, ?release, ?noStall,
    ?reset, ?width, ?wide⟩
  case nop => exact fun s h => answers_spiNop
  case refused =>
    intro s h n ws dchk c up free bad row
    obtain ⟨hdr, out, pool, openQ, counted, only⟩ := spiRefuse_leaves s
    exact ⟨_, exec_spi_refuses up free bad row, hdr, out, pool, openQ, counted, only, mainOnly_m _ _⟩
  case down => exact fun s h n ws dchk bs c down row => exec_spi_down down row
  case journal => exact fun s h => answers_spiReadWin_journal
  case queue => exact fun s h q => answers_spiReadWin_queue
  case read => exact fun s h q p rest w ready ok flag names two few head => answers_spiReadQ ready ok flag names two few head
  case keep => exact fun s h q p rest w ready ok flag names two few head => answers_spiReadQ_keeps ready ok flag names two few head
  case consume => exact fun s h q p rest w ready ok names len mark head => answers_spiConsume ready ok names len mark head
  case otherQueue => exact fun s h q ready ok names len mark other => answers_spiConsume_other ready ok names len mark other
  case write => exact fun s h q w ws ready ok flag names whole few free room => answers_spiWriteQ ready ok flag names whole few free room
  case damaged => exact fun s h q w ws dchk ready bad ok names whole few free room => answers_spiWriteQ_bad ready bad ok names whole few free room
  case deferred => exact fun s bs => answers_spiDictDefer
  case abandon => exact fun s q id => answers_spiAbandon
  case nothing =>
    intro s none free
    refine exec_of_onMain (f := fun m => if spiUp m && (m.spi.stalled.isSome || m.spi.openQ.isSome) then hostAbandon m else m) rfl ?_
    simp [none, free]
  case release =>
    exact fun s q r id ws p up waits opens some_ fits mem named opened size noSink only =>
      answers_stallRelease up waits opens some_ fits mem named opened size noSink only
  case noStall =>
    intro s free
    refine exec_of_onMain (f := fun m => if spiUp m then stallRelease m else m) rfl ?_
    simp [stallRelease, free]
  case reset => exact fun s => answers_spiIdleReset
  case width => exact fun s v ctl up mode low => exec_of_onService (f := fun m => (widthWrite m v.toNat).2) rfl up (widthWrite_takes ctl mode low)
  case wide => exact fun s v high => exec_onService_same (f := fun m => (widthWrite m v.toNat).2) rfl (widthWrite_refuses high s.m)

end Sys2Proof.Machine

end

section
/-!
Proofs of the statement on the CAN FD controller and the pins (R497–R506, R510): frames accepted into Q20, ignored, refused and sent from Q21, heartbeats,
time marks, bus-off, a stuck bus, the node ID, and edges at the GPIO pins.
-/

namespace Sys2Proof.Machine

variable {s : State} {a b c m : Main} {f : CanFrame}

/-! ## The frame of the controller -/

theorem canMain_trans (x : canMain a b) (y : canMain b c) : canMain a c := by
  unfold canMain at *
  rw [y, x]

theorem canMain_of_pool (x : poolOnly a b) : canMain a b := by
  unfold canMain poolOnly at *
  rw [x]

theorem canMain_modCan (m : Main) (f : Can → Can) : canMain m (modCan m f) := rfl
theorem canMain_count (m : Main) (idx sub : Nat) : canMain m (count m idx sub) := canMain_of_pool (poolOnly_count ..)

/-! ## Frames received (R497–R500) -/

/-- While no check unit follows the controller, its frames pass them by. -/
theorem cuCan_unseen (unseen : ∀ c : Fin 8, (m.cus[c]).owned = true ∨ (m.cus[c]).source ≠ 3) (sent : Bool) (id : Nat) (bs : List Byte) :
    cuCan m sent id bs = m := by
  unfold cuCan cuFrame
  split
  · rfl
  · refine forEach_same (fun c => ?_) _
    dsimp only
    rw [if_pos]
    rcases unseen c with owned | other
    · simp only [owned, Bool.true_or]
    · simp only [bne_iff_ne.mpr other, Bool.or_true, Bool.true_or]

/-- A frame accepted is counted, and the check units hear it. -/
def canHeard (m : Main) (f : CanFrame) : Main := cuCan (count m 0x7000 0x06) false f.id.toNat f.data

theorem canAccept_eq (m : Main) (f : CanFrame) : canAccept m f =
    if spaceTest (canHeard m f) 20 (canPacket f.id.toNat f.data).length then putPkt (canHeard m f) 20 0x28 0x02 (canPacket f.id.toNat f.data)
    else count (dropPkt (canHeard m f) 20 0x02) 0x7000 0x07 := rfl

theorem canMain_canHeard (m : Main) (f : CanFrame) : canMain m (canHeard m f) :=
  canMain_trans (canMain_count m 0x7000 0x06) (canMain_of_pool (poolOnly_cuCan ..))

theorem tallyKept_canHeard (m : Main) (f : CanFrame) : tallyKept (count m 0x7000 0x06) (canHeard m f) := by
  unfold canHeard cuCan
  exact tallyKept_cuFrame ..

theorem canMain_canAccept (m : Main) (f : CanFrame) : canMain m (canAccept m f) := by
  rw [canAccept_eq]
  split
  · exact canMain_trans (canMain_canHeard m f) (canMain_of_pool (poolOnly_putPkt ..))
  · exact canMain_trans (canMain_canHeard m f) (canMain_trans (canMain_of_pool (poolOnly_dropPkt ..)) (canMain_count ..))

/-- An accepted frame is counted, whether its packet finds space or not. -/
theorem canAccept_counts (m : Main) (f : CanFrame) : counter (canAccept m f) 0x7000 0x06 = sat32 (counter m 0x7000 0x06 + 1) := by
  have heard := (tallyKept_canHeard m f).stands 0x7000 0x06 (by decide)
  rw [counter_count_same] at heard
  rw [canAccept_eq]
  split
  · exact ((tallyKept_putPkt ..).stands _ _ (by decide)).trans heard
  · rw [counter_count_other (by decide), (tallyKept_dropPkt ..).stands _ _ (by decide), heard]

theorem canAccept_others {idx sub : Nat} (own : ekey idx sub ∉ poolCounters) (six : ekey idx sub ≠ ekey 0x7000 0x06)
    (seven : ekey idx sub ≠ ekey 0x7000 0x07) (m : Main) (f : CanFrame) : counter (canAccept m f) idx sub = counter m idx sub := by
  have heard := (tallyKept_canHeard m f).stands idx sub own
  rw [counter_count_other six] at heard
  rw [canAccept_eq]
  split
  · exact ((tallyKept_putPkt ..).stands _ _ own).trans heard
  · rw [counter_count_other seven, (tallyKept_dropPkt ..).stands _ _ own, heard]

theorem canFrameRx_accepts (ready : canReady m) (supported : f.supported = true) (other : f.id.toNat / 16 ≠ m.can.node)
    (kind : f.id.toNat % 16 = 1 ∨ f.id.toNat % 16 = 3) (accepts : bitAt (cfgN m 0x1810 0x0D) (f.id.toNat / 16) = true) :
    canFrameRx m f = canAccept m f := by
  have active := Nat.not_le.mpr ready.active
  unfold canFrameRx
  rw [if_neg (by simp [ready.on, active]), if_neg (by simp [supported])]
  dsimp only
  rw [if_neg other, if_pos (by rcases kind with h | h <;> simp [h, accepts])]

theorem answers_canAccept (ready : canReady s.m) (supported : f.supported = true) (other : f.id.toNat / 16 ≠ s.m.can.node)
    (kind : f.id.toNat % 16 = 1 ∨ f.id.toNat % 16 = 3) (accepts : bitAt (cfgN s.m 0x1810 0x0D) (f.id.toNat / 16) = true)
    (room : roomFor s.m 20 (canPacket f.id.toNat f.data).length) : answers (.canFrameRx f) s fun t =>
      delivered t.m 20 0x28 0x02 (canPacket f.id.toNat f.data) ∧ counter t.m 0x7000 0x06 = sat32 (counter s.m 0x7000 0x06 + 1) ∧
      canMain s.m t.m ∧ mainOnly s t := by
  have unheard : canHeard s.m f = count s.m 0x7000 0x06 := cuCan_unseen (fun c => by rw [count_cus]; exact ready.unseen c) ..
  have still : roomFor (canHeard s.m f) 20 (canPacket f.id.toNat f.data).length := roomFor_of_pool room (by rw [unheard, count_pool])
  refine answers_of_onMain (f := fun m => canFrameRx m f) rfl ?_
  rw [canFrameRx_accepts ready supported other kind accepts]
  refine ⟨?_, canAccept_counts .., canMain_canAccept .., mainOnly_m _ _⟩
  dsimp only
  rw [canAccept_eq, if_pos still.space]
  exact delivered_of_filed (putPkt_files still.size (still.names _))

theorem answers_canDrop (ready : canReady s.m) (supported : f.supported = true) (other : f.id.toNat / 16 ≠ s.m.can.node)
    (kind : f.id.toNat % 16 = 1 ∨ f.id.toNat % 16 = 3) (accepts : bitAt (cfgN s.m 0x1810 0x0D) (f.id.toNat / 16) = true)
    (full : spaceTest s.m 20 (canPacket f.id.toNat f.data).length = false) : answers (.canFrameRx f) s fun t =>
      counter t.m 0x7000 0x07 = sat32 (counter s.m 0x7000 0x07 + 1) ∧ canMain s.m t.m ∧ mainOnly s t := by
  have unheard : canHeard s.m f = count s.m 0x7000 0x06 := cuCan_unseen (fun c => by rw [count_cus]; exact ready.unseen c) ..
  have still : spaceTest (canHeard s.m f) 20 (canPacket f.id.toNat f.data).length = false := by
    rw [unheard, spaceTest, takeable_of_pool (count_pool ..)]
    exact full
  refine answers_of_onMain (f := fun m => canFrameRx m f) rfl ?_
  rw [canFrameRx_accepts ready supported other kind accepts]
  refine ⟨?_, canMain_canAccept .., mainOnly_m _ _⟩
  dsimp only
  rw [canAccept_eq, if_neg (by rw [still]; exact Bool.false_ne_true), counter_count_same, (tallyKept_dropPkt ..).stands _ _ (by decide),
    (tallyKept_canHeard s.m f).stands _ _ (by decide), counter_count_other (by decide)]

theorem tallyKept_onceASecond (m : Main) (key : Nat) : tallyKept m (onceASecond m key).2 := by
  unfold onceASecond
  split
  · split
    · exact tallyKept_refl m
    · exact tallyKept_of_same rfl rfl
  · exact tallyKept_of_same rfl rfl

/-- A frame with the device's own node ID is counted. -/
theorem nodeConflict_leaves (m : Main) : counter (nodeConflict m) 0x7000 0x0B = sat32 (counter m 0x7000 0x0B + 1) ∧ canMain m (nodeConflict m) := by
  have only := poolOnly_trans (poolOnly_count m 0x7000 0x0B) (poolOnly_onceASecond _ 0x6004)
  have counted := ((tallyKept_onceASecond (count m 0x7000 0x0B) 0x6004).stands 0x7000 0x0B (by decide)).trans (counter_count_same ..)
  unfold nodeConflict
  dsimp only
  split
  · exact ⟨((tallyKept_journal ..).stands _ _ (by decide)).trans counted, canMain_of_pool (poolOnly_trans only (poolOnly_journal ..))⟩
  · exact ⟨counted, canMain_of_pool only⟩

theorem canFrameRx_own (ready : canReady m) (supported : f.supported = true) (own : f.id.toNat / 16 = m.can.node) : canFrameRx m f = nodeConflict m := by
  have active := Nat.not_le.mpr ready.active
  unfold canFrameRx
  rw [if_neg (by simp [ready.on, active]), if_neg (by simp [supported])]
  exact if_pos own

theorem canFrameRx_ignores (supported : f.supported = true) (other : f.id.toNat / 16 ≠ m.can.node)
    (kind : (f.id.toNat % 16 ≠ 1 ∧ f.id.toNat % 16 ≠ 3) ∨ bitAt (cfgN m 0x1810 0x0D) (f.id.toNat / 16) = false) : canFrameRx m f = m := by
  unfold canFrameRx
  split
  · rfl
  · rw [if_neg (by simp [supported])]
    dsimp only
    rw [if_neg other, if_neg]
    rcases kind with ⟨one, three⟩ | off
    · simp [one, three]
    · simp [off]

/-! ## Frames sent (R500, R501) -/

/-- The controller as a frame has gone out. -/
def Can.frameOut (x : Can) (p : Packet) (id : Nat) (bs : List Byte) (tick : Nat) : Can :=
  let x := { x with sent := some (id, bs), markTick := if id % 16 = 6 then tick else x.markTick }
  match x.nodeNext with
  | some (n, k) => if (id % 16 = 2 || id % 16 = 3) && decide (k ≤ p.id) then { x with node := n, nodeNext := none } else x
  | none => x

theorem frameOut_sent (x : Can) (p : Packet) (id : Nat) (bs : List Byte) (tick : Nat) : (x.frameOut p id bs tick).sent = some (id, bs) := by
  unfold Can.frameOut
  dsimp only
  split
  · split <;> rfl
  · rfl

theorem canFrameTx_sends {p : Packet} {rest : List Packet} {w : Word} {ws : List Word} (ready : canReady m)
    (consumer : (m.pool.qs[(21 : Fin 32)]).consumer = 3) (head : (m.pool.qs[(21 : Fin 32)]).pkts = p :: rest) (closed : p.opened = false)
    (sound : p.poison = []) (words : p.words = w :: ws) : canFrameTx m = modCan (count (dropHead m 21) 0x7000 0x0E) fun x =>
      x.frameOut p (field w.toNat 0 11) ((wordsBytes ws).take (field w.toNat 16 7)) (tickAt m m.now) := by
  have active := Nat.not_le.mpr ready.active
  have unheard (id : Nat) (bs : List Byte) : cuCan (count (dropHead m 21) 0x7000 0x0E) true id bs = count (dropHead m 21) 0x7000 0x0E :=
    cuCan_unseen (fun c => by rw [count_cus]; exact ready.unseen c) ..
  have tick : tickAt (count (dropHead m 21) 0x7000 0x0E) (count (dropHead m 21) 0x7000 0x0E).now = tickAt m m.now := by
    rw [tickAt, tickAt, count_lace, count_now]
    rfl
  unfold canFrameTx
  rw [if_neg (by simp only [ready.on, active, consumer]; decide), headOf_sound head closed sound]
  dsimp only
  rw [words, unheard, tick]
  rfl

theorem answers_canFrameTx {p : Packet} {rest : List Packet} {w : Word} {ws : List Word} (ready : canReady s.m)
    (consumer : (s.m.pool.qs[(21 : Fin 32)]).consumer = 3) (head : (s.m.pool.qs[(21 : Fin 32)]).pkts = p :: rest) (closed : p.opened = false)
    (sound : p.poison = []) (words : p.words = w :: ws) : answers .canFrameTx s fun t =>
      t.m.can.sent = some (field w.toNat 0 11, (wordsBytes ws).take (field w.toNat 16 7)) ∧ (t.m.pool.qs[(21 : Fin 32)]).pkts = rest ∧
      (s.m.can.nodeNext = none → t.m.can.node = s.m.can.node) ∧
      (∀ n k, s.m.can.nodeNext = some (n, k) → k ≤ p.id → field w.toNat 0 11 % 16 = 2 → t.m.can.node = n ∧ t.m.can.nodeNext = none) ∧
      counter t.m 0x7000 0x0E = sat32 (counter s.m 0x7000 0x0E + 1) ∧ canMain s.m t.m ∧ mainOnly s t := by
  have can : (count (dropHead s.m 21) 0x7000 0x0E).can = s.m.can := count_can ..
  have pool : (count (dropHead s.m 21) 0x7000 0x0E).pool = (dropHead s.m 21).pool := count_pool ..
  refine answers_of_onMain (f := canFrameTx) rfl ?_
  rw [canFrameTx_sends ready consumer head closed sound words]
  dsimp only
  rw [modCan_can, modCan_pool, can, pool]
  refine ⟨frameOut_sent .., ?_, fun none => ?_, fun n k next due resp => ?_, counter_count_same .., ?_, mainOnly_m _ _⟩
  · rw [dropHead, modQ_get, if_pos rfl, head]
    rfl
  · simp [Can.frameOut, none]
  · simp [Can.frameOut, next, due, resp]
  · exact canMain_trans (b := dropHead s.m 21) rfl (canMain_trans (canMain_count _ 0x7000 0x0E) (canMain_modCan ..))

/-! ## Heartbeats and time marks (R502, R504) -/

/-- The data of a heartbeat. -/
def heartbeatBytes (s : State) : List Byte :=
  [byte s.m.pw.mode.code, byte (statusFlags s.m (leaseHeld s))] ++ leBytes 2 s.m.flt.jseq ++ leBytes 4 (aoSeconds s.m)

theorem heartbeat_length (s : State) (id : Nat) : (canPacket id (heartbeatBytes s)).length = 3 := rfl

theorem answers_heartbeat (ctl : ctlOn s.m = true) (runs : s.m.pw.fwRunning = true) (on : cfgB s.m 0x1810 0x05 = true)
    (slave : cfgN s.m 0x1810 0x07 ≠ s.m.can.node) (room : roomFor s.m 21 3) : answers .heartbeat s fun t =>
      delivered t.m 21 0x28 0x05 (canPacket (s.m.can.node * 16 + 5) (heartbeatBytes s)) ∧ canMain s.m t.m ∧ mainOnly s t := by
  have offered := poolOnly_offerPkt s.m 21 0x28 srcController (canPacket (s.m.can.node * 16 + 5) (heartbeatBytes s))
  have sends : sendHeartbeat s.m (leaseHeld s) = offerPkt s.m 21 0x28 srcController (canPacket (s.m.can.node * 16 + 5) (heartbeatBytes s)) := by
    have alone : cfgN (offerPkt s.m 21 0x28 srcController (canPacket (s.m.can.node * 16 + 5) (heartbeatBytes s))) 0x1810 0x07 ≠
        (offerPkt s.m 21 0x28 srcController (canPacket (s.m.can.node * 16 + 5) (heartbeatBytes s))).can.node := by
      rw [cfgN_of_cfg (poolOnly_cfg_eq offered), poolOnly_can_eq offered]
      exact slave
    rw [sendHeartbeat, if_neg (by simp [ctl, runs])]
    exact if_neg alone
  refine answers_of_onMain (f := fun m => if m.pw.fwRunning && cfgB m 0x1810 0x05 then sendHeartbeat m (leaseHeld s) else m) rfl ?_
  rw [runs, on, Bool.and_self, if_pos rfl, sends]
  refine ⟨offerPkt_delivers ?_, canMain_of_pool offered, mainOnly_m _ _⟩
  rw [heartbeat_length]
  exact room

theorem answers_timeMark {n : BitVec 7} {x : BitVec 64} (ready : canReady s.m) (other : n.toNat ≠ s.m.can.node) (known : n.toNat ≠ 0)
    (master : n.toNat = cfgN s.m 0x1810 0x07) : answers (.timeMarkRx n x) s fun t =>
      counter t.m 0x7000 0x0C = sat32 (counter s.m 0x7000 0x0C + 1) ∧ counter t.m 0x7000 0x06 = sat32 (counter s.m 0x7000 0x06 + 1) ∧
      canMain s.m t.m ∧ mainOnly s t := by
  have active := Nat.not_le.mpr ready.active
  have tally := tallyKept_journal (m := count s.m 0x7000 0x0C) 0x32 0xA002 [x.toNat % 2 ^ 32, x.toNat / 2 ^ 32]
  have only := poolOnly_trans (poolOnly_count s.m 0x7000 0x0C) (poolOnly_journal _ 0x32 0xA002 [x.toNat % 2 ^ 32, x.toNat / 2 ^ 32])
  have marks : timeMark s.m n.toNat x.toNat = canAccept (journal (count s.m 0x7000 0x0C) 0x32 0xA002 [x.toNat % 2 ^ 32, x.toNat / 2 ^ 32])
      { id := BitVec.ofNat 11 (n.toNat * 16 + 6), data := leBytes 8 x.toNat } := by
    rw [timeMark, if_neg (by simp [ready.on, active]), if_neg other,
      if_pos (by rw [Bool.and_eq_true, bne_iff_ne, beq_iff_eq]; exact ⟨known, master⟩)]
  refine answers_of_onMain (f := fun m => timeMark m n.toNat x.toNat) rfl ?_
  rw [marks]
  refine ⟨?_, ?_, canMain_trans (canMain_of_pool only) (canMain_canAccept ..), mainOnly_m _ _⟩
  · dsimp only
    rw [canAccept_others (by decide) (by decide) (by decide), tally.stands _ _ (by decide), counter_count_same]
  · dsimp only
    rw [canAccept_counts, tally.stands _ _ (by decide), counter_count_other (by decide)]

theorem timeMark_ignores {n t : Nat} (other : n ≠ m.can.node) (unknown : n ≠ cfgN m 0x1810 0x07) : timeMark m n t = m := by
  unfold timeMark
  split
  · rfl
  · rw [if_neg (by simp [unknown])]

/-! ## The bus (R505, R506) -/

/-- An event of the bus changes the controller, is counted and told in the journal. -/
theorem busEvent_leaves (m : Main) (f : Can → Can) {sub : Nat} (own : ekey 0x7000 sub ∉ poolCounters) (src code : Nat) :
    (journal (count (modCan m f) 0x7000 sub) src code []).can = f m.can ∧
    counter (journal (count (modCan m f) 0x7000 sub) src code []) 0x7000 sub = sat32 (counter m 0x7000 sub + 1) ∧
    canMain m (journal (count (modCan m f) 0x7000 sub) src code []) := by
  have only := poolOnly_journal (count (modCan m f) 0x7000 sub) src code []
  refine ⟨?_, ((tallyKept_journal ..).stands _ _ own).trans (counter_count_same ..),
    canMain_trans (canMain_modCan m f) (canMain_trans (canMain_count _ 0x7000 sub) (canMain_of_pool only))⟩
  rw [poolOnly_can_eq only, count_can, modCan_can]

theorem answers_canBusOff (on : canOn s.m = true) (up : s.m.can.state ≠ 2) : answers .canBusOff s fun t =>
      t.m.can = { s.m.can with state := 2, tec := 255, recovering := cfgB s.m 0x1810 0x08 } ∧
      counter t.m 0x7000 0x09 = sat32 (counter s.m 0x7000 0x09 + 1) ∧ canMain s.m t.m ∧ mainOnly s t := by
  obtain ⟨can, counted, only⟩ := busEvent_leaves s.m (fun x => { x with state := 2, tec := 255, recovering := cfgB s.m 0x1810 0x08 }) (sub := 0x09)
    (by decide) 0x32 0x6002
  refine answers_of_onMain (f := busOff) rfl ?_
  rw [busOff, if_neg (by simp [on, up])]
  exact ⟨can, counted, only, mainOnly_m _ _⟩

theorem answers_canStuck (on : canOn s.m = true) (free : s.m.can.state ≠ 3) : answers .canStuckDominant s fun t =>
      t.m.can = { s.m.can with state := 3, recovering := false } ∧
      counter t.m 0x7000 0x0D = sat32 (counter s.m 0x7000 0x0D + 1) ∧ canMain s.m t.m ∧ mainOnly s t := by
  obtain ⟨can, counted, only⟩ := busEvent_leaves s.m (fun x => { x with state := 3, recovering := false }) (sub := 0x0D) (by decide) 0x32 0x6003
  refine answers_of_onMain (f := canStuck) rfl ?_
  rw [canStuck, if_neg (by simp [on, free])]
  exact ⟨can, counted, only, mainOnly_m _ _⟩

theorem busoffWrite_takes {v : Nat} (main : m.pw.mode.isMain = true) (low : v ≤ 1) : (busoffWrite m v).2 =
    modCan (cfgSet m 0x1810 0x08 v) fun x => if v = 1 && x.state = 2 then { x with recovering := true } else x := by
  rw [busoffWrite, if_pos (by simp [main, low])]

theorem busoffWrite_refuses {v : Nat} (bad : m.pw.mode.isMain = false ∨ 1 < v) : (busoffWrite m v).2 = m := by
  rw [busoffWrite, if_neg]
  rcases bad with main | high
  · simp [main]
  · simp only [Bool.and_eq_true, decide_eq_true_eq]
    omega

theorem modCan_congr {f g : Can → Can} (same : f m.can = g m.can) : modCan m f = modCan m g := by rw [modCan, modCan, same]

/-! ## The node ID (R501) -/

theorem answers_canNodeWrite {v : BitVec 8} (main : s.m.pw.mode.isMain = true) (up : s.m.pw.ctlDown = false) (some : 1 ≤ v.toNat) (few : v.toNat ≤ 126)
    (free : storesFreely s) : answers (.canNodeWrite v) s fun t =>
      t.m.can.node = v.toNat ∧ t.m.can.nodeNext = none ∧ settingTaken s.m t.m 0x1810 0x01 v.toNat ∧
      (mapGet (ekey 0x1810 0x01) t.lgr.cur.persist).getD (entryDefault 0x1810 0x01) = v.toNat ∧ t.keys = s.keys ∧ t.pending = s.pending := by
  obtain ⟨accepted, taken⟩ := setEntry_takes free v.toNat (show 0x01 < 256 by decide) (idx := 0x1810)
  obtain ⟨keys, pending, -, -⟩ := entrySet_keeps taken
  have writes : nodeWrite s v.toNat = setEntry s 0x1810 0x01 v.toNat := if_pos (by simp [main, some, few])
  refine answers_of_onServiceAll (f := fun s =>
    if (nodeWrite s v.toNat).1 then { (nodeWrite s v.toNat).2 with m := modCan (nodeWrite s v.toNat).2.m fun c => { c with node := v.toNat, nodeNext := none } }
    else (nodeWrite s v.toNat).2) rfl up ?_
  dsimp only
  rw [writes, accepted, if_pos rfl]
  exact ⟨rfl, rfl, settingTaken_of_cfg taken.cfg (by decide), taken.stored (by decide), keys, pending⟩

theorem nodeWrite_refuses {v : Nat} (bad : s.m.pw.mode.isMain = false ∨ v = 0 ∨ 126 < v) : nodeWrite s v = (false, s) := by
  refine if_neg ?_
  rcases bad with main | zero | high
  · simp [main]
  · simp [zero]
  · simp only [Bool.and_eq_true, decide_eq_true_eq]
    omega

/-! ## The pins (R510) -/

theorem gpioEdge_other {g : Fin 8} (falling : Bool) (mode : (m.gpio[g]).mode ≠ 3) : gpioEdge m g falling = modGpio m g fun x => { x with input := !falling } := by
  have own : ((modGpio m g fun x => { x with input := !falling }).gpio[g]).mode ≠ 3 := by
    rw [modGpio_get, if_pos rfl]
    exact mode
  rw [gpioEdge, if_neg (by simp only [own, decide_false, Bool.and_false, Bool.false_and, Bool.false_eq_true, not_false_eq_true])]

theorem poolOnly_gpioEdge (m : Main) (g : Fin 8) (falling : Bool) : poolOnly (modGpio m g fun x => { x with input := !falling }) (gpioEdge m g falling) := by
  unfold gpioEdge
  dsimp only
  split
  · exact poolOnly_journal ..
  · rfl

/-! ## The statement -/

/-- Settles O54, clause by clause. -/
theorem canAndPins : Obligations.CanAndPins := by
  unfold Obligations.CanAndPins
  refine ⟨?accepted, ?dropped, ?unsupported, ?conflict, ?ignored, ?sent, ?offBus, ?heartbeat, ?silent, ?mark, ?noMark, ?busOff, ?noBusOff, ?recovers, ?written,
    ?refused, ?recovered, ?notRecovered, ?stuck, ?unstuck, ?notStuck, ?node, ?noNode, ?pin, ?edge⟩
  case accepted => exact fun s f => answers_canAccept
  case dropped => exact fun s f => answers_canDrop
  case unsupported =>
    intro s f ready supported
    refine exec_of_onMain (f := fun m => canFrameRx m f) rfl ?_
    have active := Nat.not_le.mpr ready.active
    unfold canFrameRx
    rw [if_neg (by simp [ready.on, active]), if_pos (by simp [supported])]
  case conflict =>
    intro s f ready supported own
    obtain ⟨counted, only⟩ := nodeConflict_leaves s.m
    refine answers_of_onMain (f := fun m => canFrameRx m f) rfl ?_
    rw [canFrameRx_own ready supported own]
    exact ⟨counted, only, mainOnly_m _ _⟩
  case ignored => exact fun s f supported other kind => exec_of_onMain (f := fun m => canFrameRx m f) rfl (canFrameRx_ignores supported other kind)
  case sent => exact fun s p rest w ws => answers_canFrameTx
  case offBus =>
    intro s off
    refine exec_of_onMain (f := canFrameTx) rfl ?_
    simp [canFrameTx, off]
  case heartbeat => exact fun s => answers_heartbeat
  case silent =>
    intro s silent
    refine exec_of_onMain (f := fun m => if m.pw.fwRunning && cfgB m 0x1810 0x05 then sendHeartbeat m (leaseHeld s) else m) rfl ?_
    simp [silent]
  case mark => exact fun s n x => answers_timeMark
  case noMark => exact fun s n x other unknown => exec_of_onMain (f := fun m => timeMark m n.toNat x.toNat) rfl (timeMark_ignores other unknown)
  case busOff => exact fun s => answers_canBusOff
  case noBusOff =>
    intro s off
    refine exec_of_onMain (f := busOff) rfl ?_
    rw [busOff, if_pos]
    rcases off with h | h <;> simp [h]
  case recovers =>
    intro s main up off
    refine exec_of_onService (f := fun m => (busoffWrite m 1).2) rfl up ?_
    rw [busoffWrite_takes main (Nat.le_refl 1)]
    exact modCan_congr (by simp [off])
  case written =>
    intro s v main up low kind
    refine exec_of_onService (f := fun m => (busoffWrite m v.toNat).2) rfl up ?_
    rw [busoffWrite_takes main low]
    refine (modCan_congr (g := id) ?_).trans rfl
    rcases kind with zero | on
    · simp [zero]
    · simp [on]
  case refused => exact fun s v bad => exec_onService_same (f := fun m => (busoffWrite m v.toNat).2) rfl (busoffWrite_refuses bad)
  case recovered =>
    intro s on
    refine exec_of_onMain (f := fun m => if m.can.recovering then modCan m fun c => { c with state := 0, tec := 0, rec_ := 0, recovering := false } else m) rfl ?_
    exact if_pos on
  case notRecovered =>
    intro s off
    refine exec_of_onMain (f := fun m => if m.can.recovering then modCan m fun c => { c with state := 0, tec := 0, rec_ := 0, recovering := false } else m) rfl ?_
    exact if_neg (by simp [off])
  case stuck => exact fun s => answers_canStuck
  case unstuck =>
    intro s stuck
    refine exec_of_onMain (f := fun m => if m.can.state = 3 then modCan m fun c => { c with recovering := true } else m) rfl ?_
    exact if_pos stuck
  case notStuck =>
    intro s free
    refine exec_of_onMain (f := fun m => if m.can.state = 3 then modCan m fun c => { c with recovering := true } else m) rfl ?_
    exact if_neg free
  case node => exact fun s v main up some few lease free supply => answers_canNodeWrite main up some few ⟨lease, free, supply⟩
  case noNode =>
    intro s v bad
    refine exec_onServiceAll_same (f := fun s =>
      if (nodeWrite s v.toNat).1 then { (nodeWrite s v.toNat).2 with m := modCan (nodeWrite s v.toNat).2.m fun c => { c with node := v.toNat, nodeNext := none } }
      else (nodeWrite s v.toNat).2) rfl ?_
    dsimp only
    rw [nodeWrite_refuses bad]
    rfl
  case pin => exact fun s g falling mode => exec_of_onMain (f := fun m => gpioEdge m g falling) rfl (gpioEdge_other falling mode)
  case edge =>
    intro s g falling
    have only := poolOnly_gpioEdge s.m g falling
    have gpio := poolOnly_gpio_eq only
    refine answers_of_onMain (f := fun m => gpioEdge m g falling) rfl ⟨gpio, mainOnly_m _ _, ?_⟩
    dsimp only
    rw [gpio]
    exact only

end Sys2Proof.Machine

end

section
/-!
What the pool's own work leaves of the order of a queue: packets of earlier names at its head stay there, in their order (R325, R329).
-/

namespace Sys2Proof.Machine

/-- A row of packets of names below `n` that stood at the head of a queue stands there still. -/
structure lineKept (n : Nat) (a b : Main) : Prop where
  line  : ∀ (q : Fin 32) (l : List Packet), (∀ p ∈ l, p.id < n) → l <+: (a.pool.qs[q]).pkts → l <+: (b.pool.qs[q]).pkts
  names : a.pool.nextId ≤ b.pool.nextId

section Line

variable {n : Nat} {a b c m : Main}

theorem lineKept_of_pool (h : b.pool = a.pool) : lineKept n a b := ⟨fun q l _ line => by rwa [h], Nat.le_of_eq (by rw [h])⟩

theorem lineKept_refl (n : Nat) (a : Main) : lineKept n a a := lineKept_of_pool rfl

theorem lineKept_trans (h : lineKept n a b) (g : lineKept n b c) : lineKept n a c :=
  ⟨fun q l old line => g.line q l old (h.line q l old line), Nat.le_trans h.names g.names⟩

theorem lineKept_modQ (q : Fin 32) {f : Queue → Queue} (keeps : ∀ x l, (∀ p ∈ l, p.id < n) → l <+: x.pkts → l <+: (f x).pkts) :
    lineKept n m (modQ m q f) := by
  refine ⟨fun r l old line => ?_, Nat.le_refl _⟩
  rw [modQ_get]
  split
  · rename_i same
    exact keeps _ l old (same ▸ line)
  · exact line

/-- An update of a packet of a later name leaves the row. -/
theorem prefix_map_named {id : Nat} {l xs : List Packet} (g : Packet → Packet) (old : ∀ p ∈ l, p.id < n) (new : n ≤ id) (line : l <+: xs) :
    l <+: xs.map fun r => if r.id = id then g r else r := by
  have same : l.map (fun r => if r.id = id then g r else r) = l := by
    conv => rhs; rw [← List.map_id l]
    exact List.map_congr_left fun r mem => if_neg (by have := old r mem; omega)
  rw [← same]
  exact line.map _

theorem prefix_filter_named {id : Nat} {l xs : List Packet} (old : ∀ p ∈ l, p.id < n) (new : n ≤ id) (line : l <+: xs) :
    l <+: xs.filter fun p => p.id != id := by
  have same : l.filter (fun p => p.id != id) = l := List.filter_eq_self.mpr fun r mem => bne_iff_ne.mpr (by have := old r mem; omega)
  rw [← same]
  exact line.filter _

theorem lineKept_openPkt (q : Fin 32) (type source reserve : Nat) : lineKept n m (openPkt m q type source reserve).1 := by
  refine ⟨fun r l _ line => ?_, by rw [openPkt_pool]; exact Nat.le_succ _⟩
  simp only [openPkt_pool, updV_get]
  split
  · rename_i same
    rw [same] at line
    exact line.trans (List.prefix_append ..)
  · exact line

theorem lineKept_sinkPkt (q : Fin 32) {id : Nat} (new : n ≤ id) : lineKept n m (sinkPkt m q id) := by
  have returned (v : Nat) : lineKept n m { m with pool := { m.pool with returning := v } } := ⟨fun _ _ _ line => line, Nat.le_refl _⟩
  exact lineKept_trans (returned _) (lineKept_trans (lineKept_modQ q fun x l old line => prefix_filter_named old new line)
    (lineKept_of_pool (cuSink_pool ..)))

theorem lineKept_appendPkt (q : Fin 32) {id : Nat} (ws : List Word) (new : n ≤ id) : lineKept n m (appendPkt m q id ws) := by
  unfold appendPkt
  dsimp only
  split
  · exact lineKept_modQ q fun x l _ line => line
  · have put (vs us : List Word) : lineKept n m (cuWords (modQ m q fun x =>
        noteCells { x with pkts := x.pkts.map fun p => if p.id = id then { p with words := p.words ++ vs } else p }) q id us) :=
      lineKept_trans (lineKept_modQ q fun x l old line => prefix_map_named (fun r => { r with words := r.words ++ vs }) old new line)
        (lineKept_of_pool (cuWords_same ..).1)
    split
    · exact put _ _
    · exact lineKept_trans (put _ _) (lineKept_trans (lineKept_sinkPkt q new) (lineKept_modQ q fun x l _ line => line))

theorem lineKept_closeRaw (q : Fin 32) {id : Nat} (new : n ≤ id) : lineKept n m (closeRaw m q id).1 := by
  unfold closeRaw
  dsimp only
  split
  · refine lineKept_trans ?_ (lineKept_of_pool ((countN_pool ..).trans (count_pool ..)))
    exact lineKept_modQ q fun x l _ line => line
  · split
    · exact lineKept_refl n m
    · have closed (g : Packet → Packet) : lineKept n m (modQ m q fun x => { x with pkts := x.pkts.map fun p => if p.id = id then g p else p }) :=
        lineKept_modQ q fun x l old line => prefix_map_named g old new line
      split
      · dsimp only
        refine lineKept_trans ?_ (lineKept_of_pool (cuClose_same ..).1)
        exact closed fun p => { p with opened := false, reserve := 0, closedAt := m.now }
      · refine lineKept_trans ?_ (lineKept_of_pool (cuClose_same ..).1)
        exact closed fun p => { p with opened := false, reserve := 0, closedAt := m.now }

theorem lineKept_dropRaw (q : Fin 32) (source : Nat) : lineKept n m (dropRaw m q source).1 := by
  refine lineKept_trans ?_ (lineKept_of_pool (count_pool ..))
  exact lineKept_modQ q fun x l _ line => line

theorem lineKept_putRaw (q : Fin 32) (type source : Nat) (ws : List Word) (new : n ≤ m.pool.nextId) : lineKept n m (putRaw m q type source ws).1 :=
  lineKept_trans (lineKept_openPkt ..) (lineKept_trans (lineKept_appendPkt q ws new) (lineKept_closeRaw q new))

theorem lineKept_journalPut (body : List Word) (new : n ≤ m.pool.nextId) : lineKept n m (journalPut m body).1 := by
  unfold journalPut
  dsimp only
  split
  · split
    · exact lineKept_putRaw _ _ _ _ new
    · exact lineKept_dropRaw 23 0x06
  · split
    · exact lineKept_trans (lineKept_putRaw _ _ _ _ new) (lineKept_of_pool (count_pool ..))
    · exact lineKept_trans (lineKept_dropRaw 22 0x06) (lineKept_of_pool (count_pool ..))

theorem lineKept_journalAt (t src code : Nat) (args : List Nat) (new : n ≤ m.pool.nextId) : lineKept n m (journalAt m t src code args).1 := by
  unfold journalAt
  dsimp only
  split
  · exact lineKept_refl n m
  · split
    · exact lineKept_of_pool (count_pool ..)
    · refine lineKept_trans ?_ (lineKept_journalPut _ new)
      exact lineKept_of_pool rfl

theorem lineKept_recordRaw (i : Fin 8) (key kind ref1 ref2 : Nat) (new : n ≤ m.pool.nextId) : lineKept n m (recordRaw m i key kind ref1 ref2).1 := by
  have noted (idx sub : Nat) (f : Cu → Cu) : lineKept n m (modCu (count m idx sub) i f) := lineKept_of_pool ((modCu_pool ..).trans (count_pool ..))
  unfold recordRaw
  dsimp only
  split
  · exact lineKept_trans (noted ..) (lineKept_putRaw _ _ _ _ (by rwa [modCu_pool, count_pool]))
  · exact lineKept_trans (noted ..) (lineKept_dropRaw ..)

theorem lineKept_doWork (w : PoolWork) (new : n ≤ m.pool.nextId) : lineKept n m (doWork m w).1 := by
  cases w with
  | put q type source ws mir =>
    simp only [doWork]
    split
    · exact lineKept_putRaw _ _ _ _ new
    · exact lineKept_trans (lineKept_of_pool (countIf_pool ..)) (lineKept_dropRaw ..)
  | record i key kind ref1 ref2 => exact lineKept_recordRaw _ _ _ _ _ new
  | journal src code args => exact lineKept_journalAt _ _ _ _ new

theorem lineKept_settle (r : Main × List PoolWork) (new : n ≤ r.1.pool.nextId) : lineKept n r.1 (settle r) := by
  have fuelled (fuel : Nat) : ∀ (m : Main) (l : List PoolWork), n ≤ m.pool.nextId → lineKept n m (settleFuel fuel m l) := by
    induction fuel with
    | zero =>
      intro m l _
      cases l <;> exact lineKept_refl n m
    | succ fuel ih =>
      intro m l new
      cases l with
      | nil => exact lineKept_refl n m
      | cons w ws =>
        have worked := lineKept_doWork w new
        exact lineKept_trans worked (ih _ _ (Nat.le_trans new worked.names))
  unfold settle
  exact fuelled _ _ _ new

/-- A packet that is offered to some queue leaves the packets at the head of every queue where they are. -/
theorem lineKept_offerPkt (q : Fin 32) (type source : Nat) (ws : List Word) (new : n ≤ m.pool.nextId) : lineKept n m (offerPkt m q type source ws) := by
  unfold offerPkt
  split
  · have put : lineKept n m (putRaw m q type source ws).1 := lineKept_putRaw _ _ _ _ new
    exact lineKept_trans put (lineKept_settle _ (Nat.le_trans new put.names))
  · have dropped : lineKept n m (dropRaw m q source).1 := lineKept_dropRaw q source
    exact lineKept_trans dropped (lineKept_settle _ (Nat.le_trans new dropped.names))

end Line

end Sys2Proof.Machine

end

section
/-!
Proofs of the statement on the dictionary service around its requests (R454, R463, R464, R467, R471, R474–R476, R481): messages that are dropped, routed
responses, the time limits, and the DX4032 mode.
-/

namespace Sys2Proof.Machine

variable {s : State} {a b m : Main} {bs : List Byte}

/-! ## The frame of the service -/

theorem dictMain_of_pool (x : poolOnly a b) : dictMain a b := dictMain_of_spi (spiMain_of_pool x)

theorem dictMain_modDict (m : Main) (f : Dict → Dict) : dictMain m (modDict m f) := rfl

theorem dictMain_count (m : Main) (idx sub : Nat) : dictMain m (count m idx sub) := dictMain_of_pool (poolOnly_count ..)

theorem poolOnly_cuService (m : Main) (sub init : Nat) (k : CrcKind) (bs : List Byte) : poolOnly m (cuService m sub init k bs) := poolOnly_modCu ..

/-- A service that runs has the controller on. -/
theorem ctlOn_of_serviceUp (up : serviceUp m = true) : ctlOn m = true := by
  simp only [serviceUp, Bool.and_eq_true] at up
  exact up.1.1.1

theorem inTurn_of_no_restart (back : m.dict.backAt = none) (t : Nat) : inTurn m t = true := by rw [inTurn, back]

theorem checkMsg_same (m : Main) (bs : List Byte) :
    poolOnly m (checkMsg m bs) ∧ (checkMsg m bs).pool = m.pool ∧ (checkMsg m bs).flt = m.flt ∧ (checkMsg m bs).dict = m.dict := by
  unfold checkMsg
  split
  · exact ⟨poolOnly_cuService .., rfl, rfl, rfl⟩
  · exact ⟨poolOnly_refl m, rfl, rfl, rfl⟩

theorem finOf_val (n : Nat) [NeZero n] (i : Fin n) : finOf n i.val = i := Fin.ofNat_val_eq_self i

/-- A service that does not run serves no input (R467). -/
theorem serveFrom_down (down : serviceUp s.m = false) {src : DictArrival}
    (input : src = .q18 ∨ src = .q20 ∨ (∃ n bs, src = .air n bs) ∨ (∃ d, src = .lace d)) (op : Nat) : serveFrom s op src = s := by
  rcases input with rfl | rfl | ⟨n, bs, rfl⟩ | ⟨d, rfl⟩
  all_goals simp [serveFrom, down]

/-! ## Messages of the SPI port that fail a check (R454, R463, R488) -/

/-- The header of a DICT command. -/
def dictHeader (bs : List Byte) : SpiHeader := { cmd := 0x06, addr := 0, len := BitVec.ofNat 16 bs.length }

/-- A DICT command has been taken, and the check units have heard its message. -/
def spiHeard (s : State) (bs : List Byte) : Main := cuSpi (spiTaken s) false bs (spiHead (dictHeader bs))

theorem spiMain_spiHeard (s : State) (bs : List Byte) : spiMain s.m (spiHeard s bs) :=
  spiMain_trans (spiMain_spiTaken s) (spiMain_of_pool (poolOnly_cuSpi ..))

theorem counter_spiHeard {idx sub : Nat} (own : ekey idx sub ∉ poolCounters) (other : ekey idx sub ≠ ekey 0x7000 0x01) :
    counter (spiHeard s bs) idx sub = counter s.m idx sub :=
  ((tallyKept_cuSpi ..).stands _ _ own).trans (counter_spiTaken other)

theorem spiMain_of_main (x : spiMain a b) : b.pw = a.pw ∧ b.dict = a.dict ∧ b.cfg = a.cfg ∧ b.lace = a.lace := by
  unfold spiMain at x
  rw [x]
  exact ⟨rfl, rfl, rfl, rfl⟩

/-- The port takes a DICT command while no earlier one waits to be served. -/
structure dictTaken (s : State) (bs : List Byte) (op : Nat) : Prop where
  service : serviceUp s.m = true
  port    : spiUp s.m = true
  free    : s.m.spi.stalled = none
  first   : s.m.dict.deferred = []
  row     : rowTakes s.m op bs = true
  long    : 16 ≤ bs.length
  short   : bs.length ≤ 64

theorem dictTaken_valid {op : Nat} (taken : dictTaken s bs op) : (!loaderWaits s.m && decide (16 ≤ bs.length) && decide (bs.length ≤ 64)) = true := by
  have stage := taken.service
  simp only [serviceUp, Bool.and_eq_true, beq_iff_eq] at stage
  simp [loaderWaits, stage.1.2, taken.long, taken.short]

/-- A DICT command whose `DCHK` fails is dropped. -/
theorem serveSpi_badCheck {op : Nat} {dchk : Byte} (taken : dictTaken s bs op) (bad : spiCheck bs ≠ dchk) : serveSpi s op bs dchk =
    { s with m := spiData (count (modSpi (spiHeard s bs) fun p => { p with prevCrc := true }) 0x7000 0x03) (dictHeader bs) [0x02] } := by
  unfold serveSpi
  dsimp only
  rw [if_neg (by simp [taken.first]), if_neg (by simp [taken.row]), if_neg (by simp [bad]),
    spiTransaction_takes taken.port taken.free (valid := fun m => !loaderWaits m && decide (16 ≤ bs.length) && decide (bs.length ≤ 64)) (dictTaken_valid taken),
    if_pos (by simp [bad])]
  rfl

/-- A message for this device that the service drops is answered in its own DICT command. -/
theorem serveSpi_drops {op : Nat} (taken : dictTaken s bs op) (back : s.m.dict.backAt = none) (wired : (msgOf bs).radio = false)
    (dev : (msgOf bs).dev = laceDev s.m) (free : msgWaits s (hostCarrier bs) = false) {t : State}
    (handled : handle { s with m := spiHeard s bs } (hostCarrier bs) = (none, t)) (on : ctlOn t.m = true) :
    serveSpi s op bs (spiCheck bs) = { t with m := spiData t.m (dictHeader bs) [0x02] } := by
  obtain ⟨pw, dict, -, lace⟩ := spiMain_of_main (spiMain_spiHeard s bs)
  have up : serviceUp (spiHeard s bs) = true := by
    rw [serviceUp, ctlOn, pw]
    exact taken.service
  have first : (spiHeard s bs).dict.deferred = [] := by rw [dict, taken.first]
  have turn (n : Nat) : inTurn (spiHeard s bs) n = true := inTurn_of_no_restart (by rw [dict, back]) n
  have direct : spiRouted (spiHeard s bs) bs = false := by simp [spiRouted, wired, dev, laceDev, lace]
  have free' : msgWaits s { cls := clsHost, who := 0, excess := overBytes bs, bytes := bs } = false := free
  unfold serveSpi
  dsimp only
  rw [if_neg (by simp [taken.first]), if_neg (by simp [taken.row]), if_neg (by simp [free']),
    spiTransaction_takes taken.port taken.free (valid := fun m => !loaderWaits m && decide (16 ≤ bs.length) && decide (bs.length ≤ 64)) (dictTaken_valid taken),
    if_neg (by simp)]
  refine (if_neg ?_).trans ((if_neg ?_).trans ?_)
  · show ¬ (!serviceUp (spiHeard s bs) || !(spiHeard s bs).dict.deferred.isEmpty || !inTurn (spiHeard s bs) ((spiHeard s bs).now + 1) ||
      (spiRouted (spiHeard s bs) bs && !(outRoom (spiHeard s bs) clsHost && routeRoom (spiHeard s bs) bs))) = true
    simp [up, first, turn, direct]
  · show ¬ spiRouted (spiHeard s bs) bs = true
    simp [direct]
  · show (if (!ctlOn (handle { s with
        m := spiHeard s bs } (hostCarrier bs)).2.m) = true then _ else _) = _
    rw [if_neg (by rw [handled]; simp [on])]
    show ({ (handle { s with
        m := spiHeard s bs } (hostCarrier bs)).2 with
        m := spiData (handle { s with
          m := spiHeard s bs } (hostCarrier bs)).2.m (dictHeader bs) (match (handle { s with
            m := spiHeard s bs } (hostCarrier bs)).1 with | some bs => 0x00 :: bs | none => [0x02]) } : State) = _
    rw [handled]

/-- A message whose CRC fails is dropped and counted. -/
theorem handle_badCrc {c : Carrier} (bad : msgCrcOk s.m c.bytes = false) : handle s c = (none, { s with
    m := count (checkMsg s.m c.bytes) 0x7010 0x02 }) := by
  have cause : dropCause s.m c = some 0x02 := by
    unfold dropCause
    dsimp only
    rw [if_pos (by simp [bad])]
  unfold handle
  rw [cause]

theorem msgCrcOk_of_cfg (cfg : b.cfg = a.cfg) (bs : List Byte) : msgCrcOk b bs = msgCrcOk a bs := by
  rw [msgCrcOk, msgCrcOk, msgCovered, msgCovered, cfgN_of_cfg cfg]

/-- What the port sends is told to the check units alone. -/
theorem spiData_leaves (m : Main) (h : SpiHeader) (bs : List Byte) : poolOnly (spiSend m bs) (spiData m h bs) ∧ tallyKept m (spiData m h bs) :=
  ⟨poolOnly_cuSpi .., tallyKept_trans (tallyKept_of_flt (b := spiSend m bs) rfl) (tallyKept_cuSpi ..)⟩

theorem spiData_dict (m : Main) (h : SpiHeader) (bs : List Byte) : (spiData m h bs).dict = m.dict := by
  rw [poolOnly_dict_eq (spiData_leaves m h bs).1]
  rfl

theorem spiData_prevCrc (m : Main) (h : SpiHeader) (bs : List Byte) : (spiData m h bs).spi.prevCrc = m.spi.prevCrc := by
  rw [poolOnly_spi_eq (spiData_leaves m h bs).1]
  rfl

theorem answers_dictRead_badCrc (up : serviceUp s.m = true) (port : spiUp s.m = true) (free : s.m.spi.stalled = none) (first : s.m.dict.deferred = [])
    (back : s.m.dict.backAt = none) (whole : msgWhole bs = true) (short : bs.length ≤ 64) (bad : msgCrcOk s.m bs = false)
    (wired : (msgOf bs).radio = false) (dev : (msgOf bs).dev = laceDev s.m) : answers (.dictRead (.spi bs (spiCheck bs))) s fun t =>
      t.m.spi.out = [0x02, spiCheck [0x02]] ∧ counter t.m 0x7010 0x02 = sat32 (counter s.m 0x7010 0x02 + 1) ∧ t.m.dict = s.m.dict ∧ dictMain s.m t.m ∧
      mainOnly s t := by
  have long : 16 ≤ bs.length := by
    simp only [msgWhole, Bool.and_eq_true, decide_eq_true_eq] at whole
    exact whole.1.1
  have taken : dictTaken s bs 1 := ⟨up, port, free, first, by simp [rowTakes, bad], long, short⟩
  have heard := spiMain_spiHeard s bs
  obtain ⟨pw, dict, cfg, -⟩ := spiMain_of_main heard
  obtain ⟨only, -, flt, kept⟩ := checkMsg_same (spiHeard s bs) bs
  have unwaiting : msgWaits s (hostCarrier bs) = false := by
    have cause : dropCause s.m (hostCarrier bs) = some 0x02 := by
      unfold dropCause
      dsimp only
      rw [if_pos (by simp [hostCarrier, bad])]
    simp [msgWaits, cause]
  have handled := handle_badCrc (s := { s with
    m := spiHeard s bs }) (c := hostCarrier bs) ((msgCrcOk_of_cfg cfg bs).trans bad)
  have on : ctlOn (count (checkMsg (spiHeard s bs) bs) 0x7010 0x02) = true := by
    rw [ctlOn, count_pw, checkMsg_pw, pw]
    exact ctlOn_of_serviceUp up
  have sent := spiMain_spiData (count (checkMsg (spiHeard s bs) bs) 0x7010 0x02) (dictHeader bs) [0x02]
  refine ⟨_, congrArg Host.Outcome.next (serveSpi_drops taken back wired dev unwaiting handled on), spiData_sent .., ?_, ?_, ?_, mainOnly_m _ _⟩
  · refine ((spiData_leaves ..).2.stands _ _ (by decide)).trans ((counter_count_same ..).trans ?_)
    rw [counter, show (checkMsg (spiHeard s bs) (hostCarrier bs).bytes).flt = (spiHeard s bs).flt from flt]
    exact congrArg (fun n => sat32 (n + 1)) (counter_spiHeard (by decide) (by decide))
  · exact (spiData_dict ..).trans ((count_dict ..).trans (kept.trans dict))
  · exact dictMain_trans (dictMain_of_spi heard) (dictMain_trans (dictMain_of_pool only)
      (dictMain_trans (dictMain_count _ 0x7010 0x02) (dictMain_of_spi sent)))

theorem answers_dictRead_badCheck {dchk : Byte} (taken : dictTaken s bs 1) (bad : spiCheck bs ≠ dchk) : answers (.dictRead (.spi bs dchk)) s fun t =>
      t.m.spi.out = [0x02, spiCheck [0x02]] ∧ t.m.spi.prevCrc = true ∧ counter t.m 0x7000 0x03 = sat32 (counter s.m 0x7000 0x03 + 1) ∧
      t.m.dict = s.m.dict ∧ dictMain s.m t.m ∧ mainOnly s t := by
  have heard := spiMain_spiHeard s bs
  obtain ⟨-, dict, -, -⟩ := spiMain_of_main heard
  have sent := spiMain_spiData (count (modSpi (spiHeard s bs) fun p => { p with prevCrc := true }) 0x7000 0x03) (dictHeader bs) [0x02]
  refine ⟨_, congrArg Host.Outcome.next (serveSpi_badCheck taken bad), spiData_sent .., ?_, ?_, ?_, ?_, mainOnly_m _ _⟩
  · exact (spiData_prevCrc ..).trans (by rw [count_spi]; rfl)
  · refine ((spiData_leaves ..).2.stands _ _ (by decide)).trans ((counter_count_same ..).trans ?_)
    exact congrArg (fun n => sat32 (n + 1)) (counter_spiHeard (by decide) (by decide))
  · exact (spiData_dict ..).trans ((count_dict ..).trans dict)
  · exact dictMain_trans (dictMain_of_spi heard) (dictMain_trans (b := modSpi (spiHeard s bs) fun p => { p with prevCrc := true }) rfl
      (dictMain_trans (dictMain_count _ 0x7000 0x03) (dictMain_of_spi sent)))

/-! ## Routed responses (R463, R471) -/

section Routed

variable {who : Fin 256} {at_ : Nat}

/-- The one message that waits in the AIR input has been taken out and checked. -/
def airTaken (m : Main) (bs : List Byte) : Main := checkMsg (modDict m fun d => { d with airIn := [] }) bs

theorem airTaken_same (m : Main) (bs : List Byte) :
    dictMain m (airTaken m bs) ∧ (airTaken m bs).pool = m.pool ∧ (airTaken m bs).flt = m.flt ∧ (airTaken m bs).dict = { m.dict with airIn := [] } := by
  obtain ⟨only, pool, flt, dict⟩ := checkMsg_same (modDict m fun d => { d with airIn := [] }) bs
  exact ⟨dictMain_trans (b := modDict m fun d => { d with airIn := [] }) rfl (dictMain_of_pool only), pool, flt, dict⟩

theorem routedResponse_air (up : serviceUp m = true) (back : m.dict.backAt = none) (waits : m.dict.airIn = [(who, bs, at_)]) (whole : msgWhole bs = true)
    (resp : (msgOf bs).resp = true) (crc : msgCrcOk m bs = true) : routedResponse m true bs =
      match m.dict.routes.findIdx? fun r => r.answeredBy true who.val (msgOf bs) with
      | none => count (airTaken m bs) 0x7010 0x0D
      | some i =>
        match m.dict.routes[i]? with
        | none => count (airTaken m bs) 0x7010 0x0D
        | some r =>
          if !outRoom m r.cls then m
          else dictOut (modDict (airTaken m bs) fun d => { d with routes := d.routes.eraseIdx i }) r.cls r.who (canRespFn (msgOf bs).op) (msgCut bs) := by
  have found : waitingFrom m true bs = some (who.val, at_) := by simp [waitingFrom, waits]
  have erased : takeWaiting m true who.val bs at_ = modDict m fun d => { d with airIn := [] } := by
    simp [takeWaiting, modDict, waits, finOf_val]
  unfold routedResponse
  rw [found]
  dsimp only
  rw [if_neg (by simp [up, whole, resp, inTurn_of_no_restart back]), crc, if_neg (by simp), erased]
  rfl

theorem answers_routedResponse {r : Route} (up : serviceUp s.m = true) (back : s.m.dict.backAt = none) (waits : s.m.dict.airIn = [(who, bs, at_)])
    (whole : msgWhole bs = true) (resp : (msgOf bs).resp = true) (crc : msgCrcOk s.m bs = true) (routes : s.m.dict.routes = [r])
    (mine : r.answeredBy true who.val (msgOf bs) = true) (host : r.cls = 0) (room : outRoom s.m 0 = true)
    (space : roomFor s.m 19 (packWords (msgCut bs)).length) : answers (.dictRoutedResponse true bs) s fun t =>
      t.m.dict.routes = [] ∧ t.m.dict.airIn = [] ∧ delivered t.m 19 0x27 0x05 (packWords (msgCut bs)) ∧ dictMain s.m t.m ∧ mainOnly s t := by
  obtain ⟨main, pool, -, dict⟩ := airTaken_same s.m bs
  let taken := modDict (airTaken s.m bs) fun d => { d with routes := d.routes.eraseIdx 0 }
  have passes : routedResponse s.m true bs = offerPkt taken 19 0x27 srcController (packWords (msgCut bs)) := by
    rw [routedResponse_air up back waits whole resp crc, routes, List.findIdx?_cons, mine, if_pos rfl]
    dsimp only
    rw [List.getElem?_cons_zero]
    dsimp only
    rw [host, if_neg (by simp [room])]
    rfl
  have offered := poolOnly_offerPkt taken 19 0x27 srcController (packWords (msgCut bs))
  have left : taken.dict = { s.m.dict with
      airIn := [], routes := [] } := by
    show { (airTaken s.m bs).dict with routes := (airTaken s.m bs).dict.routes.eraseIdx 0 } = _
    rw [dict, routes]
    rfl
  refine answers_of_onMain (f := fun m => routedResponse m true bs) rfl ?_
  rw [passes]
  dsimp only
  rw [poolOnly_dict_eq offered, left]
  exact ⟨rfl, rfl, offerPkt_delivers (roomFor_of_pool space pool), dictMain_trans main (dictMain_trans (b := taken) rfl (dictMain_of_pool offered)),
    mainOnly_m _ _⟩

theorem answers_routedResponse_stray (up : serviceUp s.m = true) (back : s.m.dict.backAt = none) (waits : s.m.dict.airIn = [(who, bs, at_)])
    (whole : msgWhole bs = true) (resp : (msgOf bs).resp = true) (crc : msgCrcOk s.m bs = true)
    (none : ∀ r ∈ s.m.dict.routes, r.answeredBy true who.val (msgOf bs) = false) : answers (.dictRoutedResponse true bs) s fun t =>
      t.m.dict.routes = s.m.dict.routes ∧ t.m.dict.airIn = [] ∧ counter t.m 0x7010 0x0D = sat32 (counter s.m 0x7010 0x0D + 1) ∧ dictMain s.m t.m ∧
      mainOnly s t := by
  obtain ⟨main, -, flt, dict⟩ := airTaken_same s.m bs
  refine answers_of_onMain (f := fun m => routedResponse m true bs) rfl ?_
  rw [routedResponse_air up back waits whole resp crc, List.findIdx?_eq_none_iff.mpr none]
  dsimp only
  rw [count_dict, dict, counter_count_same, counter_of_flt flt]
  exact ⟨rfl, rfl, rfl, dictMain_trans main (dictMain_count ..), mainOnly_m _ _⟩

end Routed

/-! ## The time limits (R462, R464, R471, R481) -/

theorem answers_routeTimeout {i : Nat} {r : Route} (up : serviceUp s.m = true) (found : s.m.dict.routes[i]? = some r) (due : r.radio = false ∨ r.acked = true)
    (host : r.cls = 0) (room : roomFor s.m 19 4) : answers (.routeTimeout i) s fun t =>
      t.m.dict.routes = s.m.dict.routes.eraseIdx i ∧ delivered t.m 19 0x27 0x05 (packWords (respond s.m r.msg 0x0B [])) ∧ dictMain s.m t.m ∧
      mainOnly s t := by
  let closed := modDict s.m fun d => { d with routes := d.routes.eraseIdx i }
  let formed := (dictResp closed r.msg 0x0B []).2
  have ends : routeTimeout s.m i = offerPkt formed 19 0x27 srcController (packWords (respond s.m r.msg 0x0B [])) := by
    have ready : (serviceUp s.m && (!r.radio || r.acked)) = true := by rcases due with h | h <;> simp [up, h]
    rw [routeTimeout, found]
    dsimp only
    rw [if_pos ready, routeError, found]
    dsimp only
    rw [host]
    rfl
  have only : poolOnly closed formed := poolOnly_trans (poolOnly_countIf ..) (poolOnly_cuService ..)
  have pool : formed.pool = s.m.pool := countIf_pool ..
  have offered := poolOnly_offerPkt formed 19 0x27 srcController (packWords (respond s.m r.msg 0x0B []))
  have all := poolOnly_trans only offered
  refine answers_of_onMain (f := fun m => routeTimeout m i) rfl ?_
  rw [ends]
  dsimp only
  rw [poolOnly_dict_eq all]
  exact ⟨rfl, offerPkt_delivers (roomFor_of_pool room pool), dictMain_trans (b := closed) rfl (dictMain_of_pool all), mainOnly_m _ _⟩

theorem routeTimeout_gone {i : Nat} (gone : m.dict.routes.length ≤ i) : routeTimeout m i = m := by
  rw [routeTimeout, List.getElem?_eq_none gone]

/-! ## The DX4032 mode (R474–R476) -/

/-- A good response to a DX4032 request has been formed and leaves through Q21. -/
def compatSent (m : Main) (q : Compat) (v : Nat) : Main :=
  let out := compatResponse m.can.node q 0 v
  offerPkt (cuService (count m 0x7010 0x01) 0x05 (compatInit q.index m.can.node) .ccitt (out.take 8)) 21 0x28 srcController
    (canPacket (m.can.node * 16 + 2) out)

theorem poolOnly_compatSent (m : Main) (q : Compat) (v : Nat) : poolOnly m (compatSent m q v) :=
  poolOnly_trans (poolOnly_count m 0x7010 0x01) (poolOnly_trans (poolOnly_cuService ..) (poolOnly_offerPkt ..))

theorem compatResponse_length (id node : Nat) (q : Compat) (v : Nat) : (canPacket id (compatResponse node q 0 v)).length = 4 := rfl

/-- A subindex is one byte. -/
theorem compatOf_sub (bs : List Byte) : (compatOf bs).sub < 256 := by
  show leNat ((bs.drop 3).take 1) < 256
  match (bs.drop 3) with
  | [] => decide
  | x :: xs =>
    have bound := x.isLt
    simpa [leNat] using bound

/-- The requester of a DX4032 frame. -/
def nodeReq (node : Nat) : Requester := { cls := 1, who := node, origin := node }

section Compat

variable {p : Packet} {rest : List Packet} {node fn op : Nat}

/-- The request has left Q20, and the checking unit has taken it. -/
def compatTaken (m : Main) (node : Nat) (bs : List Byte) : Main :=
  cuService (dropHead m 20) 0x04 (compatInit (compatOf bs).index node) .ccitt (bs.take 8)

theorem poolOnly_compatTaken (m : Main) (node : Nat) (bs : List Byte) : poolOnly m (compatTaken m node bs) :=
  poolOnly_trans (poolOnly_modQ ..) (poolOnly_cuService ..)

theorem dropHead_rest (head : (m.pool.qs[(20 : Fin 32)]).pkts = p :: rest) : ((dropHead m 20).pool.qs[(20 : Fin 32)]).pkts = rest := by
  rw [dropHead, modQ_get, if_pos rfl, head]
  rfl

/-- The front frame of Q20 is a request that the row of its operation serves. -/
theorem serveCompatQ20_serves (asks : compatAsks s p rest node fn bs op) (free : compatWaits s node bs = false) :
    serveCompatQ20 s op = compatFrame { s with
      m := dropHead s.m 20 } node bs := by
  obtain ⟨up, mode, turn, queue, head, closed, sound, parts, frame, -, crc, opcode, -, out, -⟩ := asks
  have row : compatTakes op node bs = true := by simp [compatTakes, opcode]
  unfold serveCompatQ20
  rw [if_neg (by simp only [up, queue, mode, show outRoom s.m clsNet = true from out]; decide), headOf_sound head closed sound]
  dsimp only
  rw [inTurn_of_no_restart turn, parts]
  dsimp only
  rw [if_neg (by simp), if_neg frame, row, free]
  rfl

theorem compatFrame_serves {t : State} {v : Nat} (length : bs.length = 12) (crc : compatCrcOk node bs = true)
    (served : serveCompat { s with
      m := compatTaken s.m node bs } node (compatOf bs) = ((0, v), t)) (on : ctlOn t.m = true) :
    compatFrame { s with
      m := dropHead s.m 20 } node bs = { t with
      m := compatSent t.m (compatOf bs) v } := by
  unfold compatTaken at served
  unfold compatFrame
  rw [if_neg (by simp [length])]
  dsimp only
  rw [if_neg (by simp [crc]), served]
  dsimp only
  rw [if_neg (by simp [on])]
  rfl

/-- What a served request leaves in Q20 and Q21. -/
theorem compatSent_leaves (asks : compatAsks s p rest node fn bs op) {x : Main} (pool : x.pool = (dropHead s.m 20).pool) (can : x.can = s.m.can)
    (q : Compat) (v : Nat) : (∃ more, ((compatSent x q v).pool.qs[(20 : Fin 32)]).pkts = rest ++ more) ∧
      delivered (compatSent x q v) 21 0x28 0x05 (canPacket (s.m.can.node * 16 + 2) (compatResponse s.m.can.node q 0 v)) := by
  let formed := cuService (count x 0x7010 0x01) 0x05 (compatInit q.index x.can.node) .ccitt ((compatResponse x.can.node q 0 v).take 8)
  have still : formed.pool = (dropHead s.m 20).pool := (count_pool x 0x7010 0x01).trans pool
  have room : roomFor formed 21 4 := roomFor_of_pool asks.room still
  have waits : (formed.pool.qs[(20 : Fin 32)]).pkts = rest := by rw [still, dropHead_rest asks.head]
  have old : ∀ p ∈ rest, p.id < formed.pool.nextId := fun r mem => room.names 20 r (List.mem_append_left _ (by rwa [waits]))
  have kept := lineKept_offerPkt (n := formed.pool.nextId) (m := formed) 21 0x28 srcController
    (canPacket (x.can.node * 16 + 2) (compatResponse x.can.node q 0 v)) (Nat.le_refl _)
  obtain ⟨more, line⟩ := kept.line 20 rest old (by rw [waits])
  rw [← can]
  exact ⟨⟨more, line.symm⟩, offerPkt_delivers (m := formed) room⟩

theorem cfgN_of_pool (x : poolOnly a b) (idx sub : Nat) : cfgN b idx sub = cfgN a idx sub := cfgN_of_cfg (poolOnly_cfg_eq x) idx sub

theorem mayUse_of_pool (x : poolOnly a b) (r : Requester) (write : Bool) (g : Nat) : mayUse b r write g = mayUse a r write g := by
  unfold poolOnly at x
  rw [x]
  rfl

theorem checkAccess_of_pool (x : poolOnly a b) (r : Requester) (write : Bool) (idx sub : Nat) : checkAccess b r write idx sub = checkAccess a r write idx sub := by
  simp only [checkAccess, mayUse_of_pool x]

theorem checkWrite_of_pool (x : poolOnly a b) (r : Requester) (idx sub len : Nat) : checkWrite b r idx sub len = checkWrite a r idx sub len := by
  simp only [checkWrite, checkAccess_of_pool x, poolOnly_pw_eq x]

/-- Outside the entries of the check units, the range of an entry does not rest on the pool. -/
theorem inRange_of_pool (x : poolOnly a b) {idx : Nat} (page : idx / 256 ≠ 0x50) (sub v : Nat) : inRange b idx sub v = inRange a idx sub v := by
  have outside : (decide (0x5000 ≤ idx) && decide (idx < 0x5008)) = false := by
    rw [Bool.and_eq_false_iff, decide_eq_false_iff_not, decide_eq_false_iff_not]
    omega
  simp only [inRange, rangeRule, cfgN_of_pool x, outside, Bool.false_eq_true, if_false]

/-- What the modes, the cores, the ports and the receive chains read as does not rest on the pool. -/
theorem readUnit_of_pool (x : poolOnly s.m b) {idx : Nat} (page : idx / 256 ∈ [0x11, 0x21, 0x22, 0x24]) (sub : Nat) :
    readUnit { s with
      m := b } idx sub = readUnit s idx sub := by
  unfold poolOnly at x
  have modes : read11 b sub = read11 s.m sub := by rw [x]; rfl
  have cores : read21 b idx sub = read21 s.m idx sub := by rw [x]; rfl
  have ports : read22 b idx sub = read22 s.m idx sub := by rw [x]; rfl
  have chains : read24 b idx sub = read24 s.m idx sub := by rw [x]; rfl
  simp only [List.mem_cons, List.not_mem_nil, or_false] at page
  rcases page with page | page | page | page
  · simpa [readUnit, page] using modes
  · simpa [readUnit, page] using cores
  · simpa [readUnit, page] using ports
  · simpa [readUnit, page] using chains

theorem readValue_of_pool (x : poolOnly s.m b) {idx : Nat} (page : idx / 256 ∈ [0x11, 0x21, 0x22, 0x24]) (sub : Nat) :
    readValue { s with
      m := b } idx sub = ((readValue s idx sub).1, { s with
      m := b }) := by
  have unit := readUnit_of_pool x page sub
  have index : idx / 256 ≠ 0x70 ∧ idx ≠ 0x6000 := by
    simp only [List.mem_cons, List.not_mem_nil, or_false] at page
    omega
  unfold readValue
  split
  · rfl
  · have counts : ¬ counterPage idx = true := by simpa [counterPage] using index.1
    rw [if_neg counts, if_neg counts, if_neg (by simp [index.2]), if_neg (by simp [index.2]), unit]
    dsimp only
    rw [cfgN_of_pool x]

theorem entrySize_of {e : EntryRow} {idx sub : Nat} (found : entryInfo idx sub = some e) : entrySize idx sub = e.size := by rw [entrySize, found]; rfl

theorem serveCompat_reads {e : EntryRow} {q : Compat} (x : poolOnly s.m b) (op : q.op = 1) (status : q.status = 0)
    (page : q.index / 256 ∈ [0x11, 0x21, 0x22, 0x24]) (access : checkAccess s.m (nodeReq node) false q.index q.sub = 0)
    (found : entryInfo q.index q.sub = some e) (small : e.size ≤ 4) : serveCompat { s with
      m := b } node q = ((0, (readValue s q.index q.sub).1), { s with
      m := b }) := by
  have access' : checkAccess b { cls := clsNet, who := node, origin := node } false q.index q.sub = 0 := (checkAccess_of_pool x ..).trans access
  unfold serveCompat
  dsimp only
  rw [if_neg (by simp [op, status]), if_pos op, access', if_neg (by simp), entrySize_of found, if_neg (by omega), readValue_of_pool x page]

theorem answers_dx4032Read {e : EntryRow} {idx sub : Nat} (asks : compatAsks s p rest node fn bs 1)
    (names : (idx, sub) = ((compatOf bs).index, (compatOf bs).sub)) (page : idx / 256 ∈ [0x11, 0x21, 0x22, 0x24])
    (access : checkAccess s.m (nodeReq node) false idx sub = 0) (found : entryInfo idx sub = some e) (small : e.size ≤ 4) :
    answers .dx4032Read s fun t => (∃ more, (t.m.pool.qs[(20 : Fin 32)]).pkts = rest ++ more) ∧
      delivered t.m 21 0x28 0x05 (canPacket (s.m.can.node * 16 + 2) (compatResponse s.m.can.node (compatOf bs) 0 (readValue s idx sub).1)) ∧
      dictMain s.m t.m ∧ mainOnly s t := by
  obtain ⟨rfl, rfl⟩ := Prod.mk.inj names
  have taken := poolOnly_compatTaken s.m node bs
  have free : compatWaits s node bs = false := by simp [compatWaits, asks.opcode]
  have served := serveCompat_reads taken asks.opcode asks.status page access found small
  have on : ctlOn (compatTaken s.m node bs) = true := ctlOn_of_serviceUp (m := s.m) asks.service
  have runs := (serveCompatQ20_serves asks free).trans (compatFrame_serves asks.length asks.crc served on)
  obtain ⟨line, out⟩ := compatSent_leaves asks (x := compatTaken s.m node bs) rfl rfl (compatOf bs) (readValue s (compatOf bs).index (compatOf bs).sub).1
  exact ⟨_, congrArg Host.Outcome.next runs, line, out, dictMain_of_pool (poolOnly_trans taken (poolOnly_compatSent ..)), mainOnly_m _ _⟩

/-! ### Writes -/

/-- An entry that may be written is a row of the table of its page. -/
theorem entryRow_of_write {e : EntryRow} {r : Requester} {idx sub n : Nat} (page : idx / 256 ≠ 0x70) (found : entryInfo idx sub = some e)
    (access : checkWrite m r idx sub n = 0) : entryRow idx sub = some e := by
  have writable : e.acc ≠ .ro := by
    intro ro
    simp [checkWrite, checkAccess, found, ro] at access
  unfold entryInfo at found
  dsimp only at found
  split at found
  · split at found
    · exact absurd found (by simp)
    · exact absurd (congrArg EntryRow.acc (Option.some.inj found)).symm writable
  · rw [if_neg (by simpa [counterPage] using page)] at found
    split at found
    · exact absurd found (by simp)
    · exact found

theorem applyWrite_plain {idx : Nat} (page : idx / 256 ∈ [0x23, 0x24, 0x28, 0x32]) (viaCan : Bool) (sub v : Nat) :
    applyWrite s viaCan idx sub v = plainWrite s idx sub v := by
  simp only [List.mem_cons, List.not_mem_nil, or_false] at page
  unfold applyWrite
  rcases page with page | page | page | page
  all_goals
    simp only [page]
    rfl

theorem plainWrite_sets {idx sub : Nat} {e : EntryRow} (row : entryRow idx sub = some e) (volatile : e.persist = false) (v : Nat) :
    plainWrite s idx sub v = (0, { s with
      m := cfgSet s.m idx sub v }) := by
  rw [plainWrite, setEntry, row, if_neg (by simp [volatile])]
  rfl

theorem serveCompat_writes {e : EntryRow} {q : Compat} (x : poolOnly s.m b) (op : q.op = 2) (status : q.status = 0)
    (page : q.index / 256 ∈ [0x23, 0x24, 0x28, 0x32]) (found : entryInfo q.index q.sub = some e) (volatile : e.persist = false) (small : e.size ≤ 4)
    (access : checkWrite s.m (nodeReq node) q.index q.sub e.size = 0) (fits : q.data < 2 ^ (8 * e.size))
    (range : inRange s.m q.index q.sub q.data = true) : serveCompat { s with
      m := b } node q = ((0, 0), { s with
      m := cfgSet b q.index q.sub q.data }) := by
  have index : q.index / 256 ≠ 0x70 ∧ q.index / 256 ≠ 0x50 := by
    simp only [List.mem_cons, List.not_mem_nil, or_false] at page
    omega
  have access' : checkWrite b { cls := clsNet, who := node, origin := node } q.index q.sub e.size = 0 := (checkWrite_of_pool x ..).trans access
  have range' := (inRange_of_pool x index.2 q.sub q.data).trans range
  have value : leNat (leBytes e.size q.data) = q.data := by
    rw [leNat_leBytes, Nat.mod_eq_of_lt (by rwa [show 256 = 2 ^ 8 from rfl, ← Nat.pow_mul])]
  have written : writeEntry { s with
      m := b } { cls := clsNet, who := node, origin := node } q.index q.sub (leBytes e.size q.data) = (0, { s with
      m := cfgSet b q.index q.sub q.data }) := by
    unfold writeEntry
    dsimp only
    rw [leBytes_length, access', if_neg (by simp), value, range', if_neg (by simp), applyWrite_plain page,
      plainWrite_sets (entryRow_of_write index.1 found access) volatile]
  unfold serveCompat
  dsimp only
  rw [if_neg (by simp [op, status]), if_neg (by simp [op]), entrySize_of found, access', if_neg (by simp), if_neg (by omega), if_neg (by omega), written]

theorem answers_dx4032Write {e : EntryRow} {idx sub : Nat} (asks : compatAsks s p rest node fn bs 2)
    (names : (idx, sub) = ((compatOf bs).index, (compatOf bs).sub)) (page : idx / 256 ∈ [0x23, 0x24, 0x28, 0x32])
    (found : entryInfo idx sub = some e) (volatile : e.persist = false) (small : e.size ≤ 4)
    (access : checkWrite s.m (nodeReq node) idx sub e.size = 0) (fits : (compatOf bs).data < 2 ^ (8 * e.size))
    (range : inRange s.m idx sub (compatOf bs).data = true) : answers .dx4032Write s fun t =>
      (∃ more, (t.m.pool.qs[(20 : Fin 32)]).pkts = rest ++ more) ∧ settingTaken s.m t.m idx sub (compatOf bs).data ∧
      delivered t.m 21 0x28 0x05 (canPacket (s.m.can.node * 16 + 2) (compatResponse s.m.can.node (compatOf bs) 0 0)) ∧
      settingMain s.m t.m ∧ mainOnly s t := by
  obtain ⟨rfl, rfl⟩ := Prod.mk.inj names
  let set := cfgSet (compatTaken s.m node bs) (compatOf bs).index (compatOf bs).sub (compatOf bs).data
  have index : (compatOf bs).index / 256 ≠ 0x70 := by
    simp only [List.mem_cons, List.not_mem_nil, or_false] at page
    omega
  have row := entryRow_of_write index found access
  have free : compatWaits s node bs = false := by simp [compatWaits, entryWaits, row, volatile]
  have served := serveCompat_writes (poolOnly_compatTaken s.m node bs) asks.opcode asks.status page found volatile small access fits range
  have on : ctlOn set = true := ctlOn_of_serviceUp (m := s.m) asks.service
  have runs := (serveCompatQ20_serves asks free).trans (compatFrame_serves asks.length asks.crc served on)
  have sent := poolOnly_compatSent set (compatOf bs) 0
  obtain ⟨line, out⟩ := compatSent_leaves asks (x := set) rfl rfl (compatOf bs) 0
  refine ⟨_, congrArg Host.Outcome.next runs, line, settingTaken_of_cfg ?_ (compatOf_sub bs), out, ?_, mainOnly_m _ _⟩
  · exact poolOnly_cfg_eq sent
  · have cfg := poolOnly_cfg_eq sent
    show dictMain { s.m with
      cfg := (compatSent set (compatOf bs) 0).cfg } (compatSent set (compatOf bs) 0)
    rw [cfg]
    exact dictMain_trans (b := set) rfl (dictMain_of_pool sent)

end Compat

/-- Settles O52: each message is dropped, passed on or served by the equation of its step; what stands in Q20 stays in order. -/
theorem dictService : Obligations.DictService := by
  unfold Obligations.DictService
  refine ⟨?badCrc, ?badCheck, ?down, ?routed, ?stray, ?timeout, ?gone, ?idle, ?track, ?reads, ?writes, ?native⟩
  case badCrc => exact fun s bs up port free first back whole short bad wired dev => answers_dictRead_badCrc up port free first back whole short bad wired dev
  case badCheck => exact fun s bs dchk up port free first row long short bad => answers_dictRead_badCheck ⟨up, port, free, first, row, long, short⟩ bad
  case down =>
    intro s src down input
    have still (op : Nat) : Host.Outcome.next (serveFrom s op src) = (.next s : Out) := congrArg Host.Outcome.next (serveFrom_down down input op)
    exact ⟨still 1, still 2, still 3, still 4, still 5, still 6⟩
  case routed => exact fun s bs who at_ r up back waits whole resp crc routes mine host room space =>
    answers_routedResponse up back waits whole resp crc routes mine host room space
  case stray => exact fun s bs who at_ up back waits whole resp crc none => answers_routedResponse_stray up back waits whole resp crc none
  case timeout => exact fun s i r up found due host room => answers_routeTimeout up found due host room
  case gone => exact fun s i gone => exec_of_onMain (f := fun m => routeTimeout m i) rfl (routeTimeout_gone gone)
  case idle => exact fun s i open_ => exec_of_onMain (f := fun m => if i < m.dict.transfers.length then
    count (modDict m fun d => { d with transfers := d.transfers.eraseIdx i }) 0x7010 0x08 else m) rfl (if_pos open_)
  case track => exact fun s i => rfl
  case reads => exact fun s p rest node fn bs e idx sub asks names page access found small => answers_dx4032Read asks names page access found small
  case writes => exact fun s p rest node fn bs e idx sub asks names page found volatile small access fits range =>
    answers_dx4032Write asks names page found volatile small access fits range
  case native =>
    intro s native
    have still (op : Nat) : Host.Outcome.next (serveCompatQ20 s op) = (.next s : Out) := by
      rw [serveCompatQ20, if_pos (by simp [native])]
    exact ⟨still 1, still 2⟩

end Sys2Proof.Machine

end

section
/-!
The extended Golay code of the chirp radio (R395): encoding is linear, two codewords differ in seven bits or more, and so a word with up to three bits in
error decodes to its data.
-/

namespace Sys2Proof.Machine

/-! ## Bits of a number -/

theorem bitAt_eq_testBit (v i : Nat) : bitAt v i = v.testBit i := Nat.testBit_eq_decide_div_mod_eq.symm

theorem bitAt_xor (a b i : Nat) : bitAt (a ^^^ b) i = (bitAt a i != bitAt b i) := by
  rw [bitAt_eq_testBit, bitAt_eq_testBit, bitAt_eq_testBit, Nat.testBit_xor]

/-- Bits put above others are added without a carry. -/
theorem two_pow_mul_add_eq_xor {i b : Nat} (less : b < 2 ^ i) (a : Nat) : 2 ^ i * a + b = 2 ^ i * a ^^^ b := by
  refine Nat.eq_of_testBit_eq fun j => ?_
  rw [Nat.testBit_two_pow_mul_add a less, Nat.testBit_xor, Nat.testBit_two_pow_mul]
  split
  · rw [decide_eq_false (by omega), Bool.false_and, Bool.false_xor]
  · rw [decide_eq_true (by omega), Bool.true_and, Nat.testBit_lt_two_pow (Nat.lt_of_lt_of_le less (Nat.pow_le_pow_right (by decide) (by omega))), Bool.xor_false]

/-- The number of ones among the low bits of a number. -/
def onesOf (k v : Nat) : Nat := (natBits k v).countP id

theorem onesOf_succ (k v : Nat) : onesOf (k + 1) v = onesOf k v + bitN (bitAt v k) := by
  rw [onesOf, onesOf, natBits, natBits, List.range_succ, List.map_append, List.countP_append, List.map_singleton, List.countP_singleton]
  rfl

theorem onesOf_xor_le (k a b : Nat) : onesOf k (a ^^^ b) ≤ onesOf k a + onesOf k b := by
  induction k with
  | zero => exact Nat.le_refl 0
  | succ k ih =>
    rw [onesOf_succ, onesOf_succ, onesOf_succ, bitAt_xor]
    cases bitAt a k <;> cases bitAt b k <;> simp [bitN] <;> omega

theorem onesOf_xor_parity (k a b : Nat) : onesOf k (a ^^^ b) % 2 = (onesOf k a + onesOf k b) % 2 := by
  induction k with
  | zero => rfl
  | succ k ih =>
    rw [onesOf_succ, onesOf_succ, onesOf_succ, bitAt_xor]
    cases bitAt a k <;> cases bitAt b k <;> simp [bitN] <;> omega

/-- The ones of a number are those of its low and of its high bits. -/
theorem onesOf_split (j k v : Nat) : onesOf (j + k) v = onesOf j (v % 2 ^ j) + onesOf k (v / 2 ^ j) := by
  have low : onesOf j (v % 2 ^ j) = onesOf j v := by
    refine congrArg (List.countP id) (List.map_congr_left fun i mem => ?_)
    rw [bitAt_eq_testBit, bitAt_eq_testBit, Nat.testBit_mod_two_pow, decide_eq_true (List.mem_range.mp mem), Bool.true_and]
  rw [low]
  induction k with
  | zero => rfl
  | succ k ih =>
    rw [← Nat.add_assoc, onesOf_succ, onesOf_succ, ih, bitAt_eq_testBit v, bitAt_eq_testBit, Nat.testBit_div_two_pow, Nat.add_comm k j, Nat.add_assoc]

/-- A number other than 0 is its highest one and what is below it. -/
theorem exists_highest_one {k v : Nat} (small : v < 2 ^ k) (pos : v ≠ 0) :
    ∃ i w, i < k ∧ w < 2 ^ i ∧ v = 2 ^ i + w ∧ onesOf k v = onesOf k w + 1 := by
  induction k with
  | zero => omega
  | succ k ih =>
    have high {w : Nat} (lt : w < 2 ^ k) : bitAt w k = false := by rw [bitAt_eq_testBit]; exact Nat.testBit_lt_two_pow lt
    by_cases lt : v < 2 ^ k
    · obtain ⟨i, w, below, less, sum, ones⟩ := ih lt
      have less' : w < 2 ^ k := Nat.lt_trans less (Nat.pow_lt_pow_right (by decide) below)
      exact ⟨i, w, by omega, less, sum, by rw [onesOf_succ, onesOf_succ, high lt, high less', ones]; rfl⟩
    · have sum : v = 2 ^ k + (v - 2 ^ k) := by omega
      have less : v - 2 ^ k < 2 ^ k := by rw [Nat.pow_succ] at small; omega
      refine ⟨k, v - 2 ^ k, by omega, less, sum, ?_⟩
      have top : bitAt v k = true := by
        rw [bitAt_eq_testBit, sum, Nat.testBit_two_pow_add_eq, Nat.testBit_lt_two_pow less]
        rfl
      have rest : onesOf k v = onesOf k (v - 2 ^ k) := by
        refine congrArg (List.countP id) (List.map_congr_left fun i mem => ?_)
        rw [bitAt_eq_testBit, bitAt_eq_testBit]
        conv => lhs; rw [sum]
        exact Nat.testBit_two_pow_add_gt (List.mem_range.mp mem) _
      rw [onesOf_succ, onesOf_succ, top, high less, rest]
      rfl

/-! ## Linear maps -/

/-- Two maps that respect the sum of bits and agree on each power of 2 agree. -/
theorem eq_of_linear {f g : Nat → Nat} {k : Nat} (linf : ∀ a b, a < 2 ^ k → b < 2 ^ k → f (a ^^^ b) = f a ^^^ f b)
    (ling : ∀ a b, a < 2 ^ k → b < 2 ^ k → g (a ^^^ b) = g a ^^^ g b) (base : ∀ i < k, f (2 ^ i) = g (2 ^ i)) {v : Nat} (small : v < 2 ^ k) : f v = g v := by
  have zero {h : Nat → Nat} (lin : ∀ a b, a < 2 ^ k → b < 2 ^ k → h (a ^^^ b) = h a ^^^ h b) : h 0 = 0 := by
    have sum := lin 0 0 (Nat.two_pow_pos k) (Nat.two_pow_pos k)
    rwa [Nat.xor_self, Nat.xor_self] at sum
  induction v using Nat.strong_induction_on with
  | _ v ih =>
    by_cases none : v = 0
    · rw [none, zero linf, zero ling]
    · obtain ⟨i, w, below, less, sum, -⟩ := exists_highest_one small none
      have power : 2 ^ i < 2 ^ k := Nat.pow_lt_pow_right (by decide) below
      have pos := Nat.two_pow_pos i
      have xored : 2 ^ i ^^^ w = v := by
        have parts := two_pow_mul_add_eq_xor less 1
        rw [Nat.mul_one] at parts
        rw [← parts, sum]
      rw [← xored, linf _ _ power (by omega), ling _ _ power (by omega), base i below, ih w (by omega) (by omega)]

/-- The sum of the rows that the bits of a number name. -/
def rowSum : List Nat → Nat → Nat
  | [], _ => 0
  | r :: rs, v => (if bitAt v 0 then r else 0) ^^^ rowSum rs (v / 2)

theorem rowSum_xor (rs : List Nat) (a b : Nat) : rowSum rs (a ^^^ b) = rowSum rs a ^^^ rowSum rs b := by
  induction rs generalizing a b with
  | nil => exact (Nat.xor_self 0).symm
  | cons r rs ih =>
    have half : (a ^^^ b) / 2 = a / 2 ^^^ b / 2 := Nat.xor_div_two_pow (n := 1)
    rw [rowSum, rowSum, rowSum, half, ih, bitAt_xor]
    generalize rowSum rs (a / 2) = x
    generalize rowSum rs (b / 2) = y
    have twice : r ^^^ (x ^^^ (r ^^^ y)) = x ^^^ y := by rw [Nat.xor_left_comm x r y, ← Nat.xor_assoc r r, Nat.xor_self, Nat.zero_xor]
    cases bitAt a 0 <;> cases bitAt b 0 <;> simp [Nat.xor_assoc, Nat.xor_left_comm r x y, twice]

theorem rowSum_lt {k : Nat} {rs : List Nat} (small : ∀ r ∈ rs, r < 2 ^ k) (v : Nat) : rowSum rs v < 2 ^ k := by
  induction rs generalizing v with
  | nil => exact Nat.two_pow_pos k
  | cons r rs ih =>
    refine Nat.xor_lt_two_pow ?_ (ih (fun x mem => small x (List.mem_cons_of_mem _ mem)) _)
    split
    · exact small r List.mem_cons_self
    · exact Nat.two_pow_pos k

/-! ## The check bits (R395) -/

theorem golayMod_xor (k a b : Nat) : golayMod k (a ^^^ b) = golayMod k a ^^^ golayMod k b := by
  have reduced (i g a b : Nat) : (if bitAt (a ^^^ b) i then a ^^^ b ^^^ g else a ^^^ b) =
      (if bitAt a i then a ^^^ g else a) ^^^ (if bitAt b i then b ^^^ g else b) := by
    rw [bitAt_xor]
    cases bitAt a i <;> cases bitAt b i <;> simp [Nat.xor_assoc, Nat.xor_comm b g]
  induction k generalizing a b with
  | zero => exact reduced 11 0xC75 a b
  | succ k ih =>
    rw [golayMod, golayMod, golayMod, ← ih]
    exact congrArg (golayMod k) (reduced (12 + k) _ a b)

/-- A step of the division clears the bit that it looks at. -/
theorem cleared_lt {i v g : Nat} (small : v < 2 ^ (i + 1)) (top : 2 ^ i ≤ g) (bound : g < 2 ^ (i + 1)) : (if bitAt v i then v ^^^ g else v) < 2 ^ i := by
  have bit (w : Nat) (lt : w < 2 ^ (i + 1)) : bitAt w i = decide (2 ^ i ≤ w) := by
    rw [bitAt_eq_testBit]
    by_cases high : 2 ^ i ≤ w
    · rw [decide_eq_true high]
      exact Nat.testBit_of_two_pow_le_and_two_pow_add_one_gt high lt
    · rw [decide_eq_false high]
      exact Nat.testBit_lt_two_pow (by omega)
  split
  · rename_i set
    have xored : v ^^^ g < 2 ^ (i + 1) := Nat.xor_lt_two_pow small bound
    have clear := bit _ xored
    rw [bitAt_xor, set, bit g bound, decide_eq_true top] at clear
    simpa using clear.symm
  · rename_i clear
    rw [bit v small] at clear
    simpa using clear

theorem golayMod_lt {k v : Nat} (small : v < 2 ^ (12 + k)) : golayMod k v < 2 ^ 11 := by
  induction k generalizing v with
  | zero => exact cleared_lt (i := 11) small (by decide) (by decide)
  | succ k ih =>
    have low : 2 ^ (12 + k) = 2 ^ 11 * 2 ^ (k + 1) := by rw [← Nat.pow_add, show 11 + (k + 1) = 12 + k by omega]
    have high : 2 ^ (12 + k + 1) = 2 ^ 12 * 2 ^ (k + 1) := by rw [← Nat.pow_add, Nat.add_assoc]
    refine ih (cleared_lt (by rwa [Nat.add_assoc]) ?_ ?_)
    · rw [Nat.shiftLeft_eq, low]
      exact Nat.mul_le_mul_right _ (by decide)
    · rw [Nat.shiftLeft_eq, high]
      exact Nat.mul_lt_mul_of_pos_right (by decide) (Nat.two_pow_pos _)

theorem parityOf_lt (v : Nat) : parityOf v < 2 := Nat.mod_lt _ (by decide)

theorem parityOf_xor (a b : Nat) : parityOf (a ^^^ b) = parityOf a ^^^ parityOf b := by
  have sum : parityOf (a ^^^ b) = (parityOf a + parityOf b) % 2 := (onesOf_xor_parity 24 a b).trans (Nat.add_mod ..)
  rw [sum]
  have la := parityOf_lt a
  have lb := parityOf_lt b
  interval_cases parityOf a <;> interval_cases parityOf b <;> rfl

theorem mul_two_pow_xor (i a b : Nat) : 2 ^ i * (a ^^^ b) = 2 ^ i * a ^^^ 2 ^ i * b := by
  rw [Nat.mul_comm, Nat.mul_comm _ a, Nat.mul_comm _ b, ← Nat.shiftLeft_eq, ← Nat.shiftLeft_eq, ← Nat.shiftLeft_eq, Nat.shiftLeft_xor_distrib]

/-- The remainder of the data bits. -/
def golayRest (d : Nat) : Nat := golayMod 11 (d * 2 ^ 11)

theorem golayRest_lt {d : Nat} (small : d < 2 ^ 12) : golayRest d < 2 ^ 11 := golayMod_lt (by omega)

theorem golayRest_xor (a b : Nat) : golayRest (a ^^^ b) = golayRest a ^^^ golayRest b := by
  rw [golayRest, golayRest, golayRest, ← golayMod_xor, Nat.mul_comm, mul_two_pow_xor, Nat.mul_comm _ a, Nat.mul_comm _ b]

/-- The check bits, with no carries. -/
theorem golayCheck_eq {d : Nat} (small : d < 2 ^ 12) : golayCheck d = golayRest d ^^^ 2 ^ 11 * parityOf (d ^^^ 2 ^ 12 * golayRest d) := by
  show golayRest d + 2 ^ 11 * parityOf (d + 2 ^ 12 * golayRest d) = _
  rw [Nat.add_comm (golayRest d), two_pow_mul_add_eq_xor (golayRest_lt small), Nat.add_comm d, two_pow_mul_add_eq_xor small, Nat.xor_comm _ d, Nat.xor_comm]

theorem golayCheck_xor {a b : Nat} (la : a < 2 ^ 12) (lb : b < 2 ^ 12) : golayCheck (a ^^^ b) = golayCheck a ^^^ golayCheck b := by
  rw [golayCheck_eq la, golayCheck_eq lb, golayCheck_eq (Nat.xor_lt_two_pow la lb), golayRest_xor, mul_two_pow_xor, parityOf_xor, parityOf_xor, parityOf_xor a,
    parityOf_xor b, parityOf_xor (2 ^ 12 * _)]
  rw [mul_two_pow_xor, mul_two_pow_xor, mul_two_pow_xor, mul_two_pow_xor, mul_two_pow_xor]
  ac_rfl

/-- The check bits of each data bit, and the data bit of each sum of check bits. -/
def golayRows : List Nat := [3189, 1183, 3403, 1763, 2483, 2918, 3788, 493, 986, 1972, 2845, 3642]
def golayBack : List Nat := [1183, 2366, 1763, 3526, 3859, 2745, 493, 986, 1972, 3944, 2639, 3189]

theorem golayCheck_rows {d : Nat} (small : d < 2 ^ 12) : golayCheck d = rowSum golayRows d :=
  eq_of_linear (fun _ _ => golayCheck_xor) (fun _ _ _ _ => rowSum_xor ..) (by decide) small

theorem golayCheck_lt {d : Nat} (small : d < 2 ^ 12) : golayCheck d < 2 ^ 12 := by
  rw [golayCheck_rows small]
  exact rowSum_lt (by decide) d

/-- The data bits follow from the check bits. -/
theorem golayBack_check {d : Nat} (small : d < 2 ^ 12) : rowSum golayBack (golayCheck d) = d := by
  rw [golayCheck_rows small]
  refine eq_of_linear (f := fun d => rowSum golayBack (rowSum golayRows d)) (g := id) (fun a b _ _ => ?_) (fun _ _ _ _ => rfl) (by decide) small
  rw [rowSum_xor, rowSum_xor]

/-! ## Codewords (R395) -/

theorem golayEncode_eq {d : Nat} (small : d < 2 ^ 12) : golayEncode d = d ^^^ 2 ^ 12 * golayCheck d := by
  rw [golayEncode, Nat.add_comm, two_pow_mul_add_eq_xor small, Nat.xor_comm]

theorem golayEncode_lt {d : Nat} (small : d < 2 ^ 12) : golayEncode d < 2 ^ 24 := by
  have check := golayCheck_lt small
  unfold golayEncode
  omega

/-- Every codeword has an even weight. -/
theorem parityOf_golayEncode {d : Nat} (small : d < 2 ^ 12) : parityOf (golayEncode d) = 0 := by
  have linear (a b : Nat) (la : a < 2 ^ 12) (lb : b < 2 ^ 12) : parityOf (golayEncode (a ^^^ b)) = parityOf (golayEncode a) ^^^ parityOf (golayEncode b) := by
    rw [golayEncode_eq la, golayEncode_eq lb, golayEncode_eq (Nat.xor_lt_two_pow la lb), golayCheck_xor la lb, mul_two_pow_xor, ← parityOf_xor]
    congr 1
    ac_rfl
  exact eq_of_linear (f := fun d => parityOf (golayEncode d)) (g := fun _ => 0) linear (fun _ _ _ _ => rfl) (by decide) small

/-! ## Errors (R395) -/

theorem onesOf_zero_iff {k v : Nat} (small : v < 2 ^ k) : onesOf k v = 0 → v = 0 := by
  intro ones
  by_contra pos
  obtain ⟨i, w, -, -, -, more⟩ := exists_highest_one small pos
  omega

/-- Sums of a power of 2 and a smaller number of a list. -/
theorem mem_sums {l : List Nat} {i v : Nat} (below : i < 12) (less : v < 2 ^ i) (mem : v ∈ l) :
    2 ^ i + v ∈ ((List.range 12).map fun i => 2 ^ i).flatMap fun a => (l.filter fun b => b < a).map fun b => a + b :=
  List.mem_flatMap.mpr ⟨2 ^ i, List.mem_map.mpr ⟨i, List.mem_range.mpr below, rfl⟩,
    List.mem_map.mpr ⟨v, List.mem_filter.mpr ⟨mem, decide_eq_true less⟩, rfl⟩⟩

/-- The decoder tries every error of up to three data bits. -/
theorem mem_golayErrors {e : Nat} (small : e < 2 ^ 12) (few : onesOf 12 e ≤ 3) : e ∈ golayErrors := by
  have power {i : Nat} (below : i < 12) : 2 ^ i ∈ (List.range 12).map fun i => 2 ^ i := List.mem_map.mpr ⟨i, List.mem_range.mpr below, rfl⟩
  have under {i v : Nat} (below : i < 12) (less : v < 2 ^ i) : v < 2 ^ 12 := Nat.lt_trans less (Nat.pow_lt_pow_right (by decide) below)
  have ends {i v : Nat} (below : i < 12) (less : v < 2 ^ i) (ones : onesOf 12 v = 0) : v = 0 := onesOf_zero_iff (under below less) ones
  unfold golayErrors
  dsimp only
  by_cases none : e = 0
  · rw [none]
    exact List.mem_cons_self
  obtain ⟨i, v, iLt, vLt, rfl, onesV⟩ := exists_highest_one small none
  refine List.mem_cons_of_mem _ ?_
  by_cases one : v = 0
  · rw [one]
    exact List.mem_append_left _ (List.mem_append_left _ (power iLt))
  obtain ⟨j, w, jLt, wLt, rfl, onesW⟩ := exists_highest_one (under iLt vLt) one
  by_cases two : w = 0
  · subst two
    rw [Nat.add_zero] at vLt ⊢
    exact List.mem_append_left _ (List.mem_append_right _ (mem_sums iLt vLt (power jLt)))
  obtain ⟨k, u, kLt, uLt, rfl, onesU⟩ := exists_highest_one (under jLt wLt) two
  have three := ends kLt uLt (by omega)
  subst three
  rw [Nat.add_zero] at wLt vLt ⊢
  exact List.mem_append_right _ (mem_sums iLt vLt (mem_sums jLt wLt (power kLt)))

theorem golayErrors_lt : ∀ e ∈ golayErrors, e < 2 ^ 12 := by decide +kernel

/-- Data bits of up to three ones have check bits that make up the distance, and so have check bits of up to three ones. -/
theorem golayErrors_far : ∀ e ∈ golayErrors, e = 0 ∨ 7 ≤ onesOf 12 e + onesOf 12 (rowSum golayRows e) ∧ 7 ≤ onesOf 12 e + onesOf 12 (rowSum golayBack e) := by
  decide +kernel

/-- Two codewords differ in seven bits or more. -/
theorem golay_distance {d : Nat} (small : d < 2 ^ 12) (pos : d ≠ 0) : 7 ≤ onesOf 12 d + onesOf 12 (golayCheck d) := by
  by_contra close
  by_cases few : onesOf 12 d ≤ 3
  · rcases golayErrors_far d (mem_golayErrors small few) with none | ⟨far, -⟩
    · exact pos none
    · rw [← golayCheck_rows small] at far
      omega
  · have back := golayBack_check small
    rcases golayErrors_far _ (mem_golayErrors (golayCheck_lt small) (by omega)) with none | ⟨-, far⟩
    · rw [none] at back
      exact pos (back.symm.trans (by decide))
    · rw [back] at far
      omega

/-- An error that the decoder accepts is the one that struck the data bits. -/
theorem golay_error_unique {x e f : Nat} (lx : x < 2 ^ 12) (le : e < 2 ^ 12) (accepted : onesOf 12 x + onesOf 12 (golayCheck e ^^^ f ^^^ golayCheck x) ≤ 3)
    (few : onesOf 12 e + onesOf 12 f ≤ 3) : x = e := by
  by_contra other
  have apart : x ^^^ e ≠ 0 := fun same => other (Nat.xor_eq_zero_iff.mp same)
  have far := golay_distance (Nat.xor_lt_two_pow lx le) apart
  have data := onesOf_xor_le 12 x e
  have check := onesOf_xor_le 12 (golayCheck e ^^^ f ^^^ golayCheck x) f
  have same : golayCheck e ^^^ f ^^^ golayCheck x ^^^ f = golayCheck (x ^^^ e) := by
    rw [golayCheck_xor lx le, Nat.xor_assoc, Nat.xor_comm (golayCheck x) f, Nat.xor_assoc, ← Nat.xor_assoc f f, Nat.xor_self, Nat.zero_xor, Nat.xor_comm]
  rw [same] at check
  omega

/-- A codeword with up to three bits in error decodes to its data. -/
theorem golayDecode_encode {d e : Nat} (ld : d < 2 ^ 12) (few : onesOf 24 e ≤ 3) : golayDecode (golayEncode d ^^^ e) = some d := by
  have split : onesOf 24 e = onesOf 12 (e % 2 ^ 12) + onesOf 12 (e / 2 ^ 12) := onesOf_split 12 12 e
  have lowLt : e % 2 ^ 12 < 2 ^ 12 := Nat.mod_lt _ (by decide)
  have low : (golayEncode d ^^^ e) % 2 ^ 12 = d ^^^ e % 2 ^ 12 := by
    rw [Nat.xor_mod_two_pow, golayEncode, Nat.add_mul_mod_self_left, Nat.mod_eq_of_lt ld]
  have high : (golayEncode d ^^^ e) / 2 ^ 12 = golayCheck d ^^^ e / 2 ^ 12 := by
    rw [Nat.xor_div_two_pow, golayEncode, Nat.add_mul_div_left _ _ (by decide), Nat.div_eq_of_lt ld, Nat.zero_add]
  have syndrome : golayCheck (d ^^^ e % 2 ^ 12) ^^^ (golayCheck d ^^^ e / 2 ^ 12) = golayCheck (e % 2 ^ 12) ^^^ e / 2 ^ 12 := by
    rw [golayCheck_xor ld lowLt, Nat.xor_assoc, ← Nat.xor_assoc _ (golayCheck d), Nat.xor_comm _ (golayCheck d), Nat.xor_assoc, ← Nat.xor_assoc, Nat.xor_self,
      Nat.zero_xor]
  have accepts : onesOf 12 (e % 2 ^ 12) + onesOf 12 (golayCheck (e % 2 ^ 12) ^^^ e / 2 ^ 12 ^^^ golayCheck (e % 2 ^ 12)) ≤ 3 := by
    rw [Nat.xor_assoc, Nat.xor_comm (e / 2 ^ 12), ← Nat.xor_assoc, Nat.xor_self, Nat.zero_xor]
    omega
  have listed : e % 2 ^ 12 ∈ golayErrors := mem_golayErrors lowLt (by omega)
  obtain ⟨x, found⟩ := Option.isSome_iff_exists.mp (List.find?_isSome
    (p := fun x => decide (onesOf 12 x + onesOf 12 (golayCheck (e % 2 ^ 12) ^^^ e / 2 ^ 12 ^^^ golayCheck x) ≤ 3)).mpr ⟨_, listed, decide_eq_true accepts⟩)
  have accepted := List.find?_some found
  rw [decide_eq_true_eq] at accepted
  have struck : x = e % 2 ^ 12 := golay_error_unique (golayErrors_lt x (List.mem_of_find?_eq_some found)) lowLt accepted (by omega)
  unfold golayDecode
  dsimp only
  rw [low, high, syndrome]
  show (golayErrors.find? fun x => decide (onesOf 12 x + onesOf 12 (golayCheck (e % 2 ^ 12) ^^^ e / 2 ^ 12 ^^^ golayCheck x) ≤ 3)).map
    (d ^^^ e % 2 ^ 12 ^^^ ·) = some d
  rw [found, struck, Option.map_some, Nat.xor_assoc, Nat.xor_self, Nat.xor_zero]

end Sys2Proof.Machine

end

section
/-!
Proofs of the statement on the coding of the chirp radio (R390, R393–R396): the receiver undoes the Gray code, the whitening, the codewords and the blocks.
-/

namespace Sys2Proof.Machine

/-! ## The Gray code of a symbol (R390) -/

/-- A number and the same number moved down. -/
def foldDown (k v : Nat) : Nat := v ^^^ v >>> k

theorem foldDown_twice (k v : Nat) : foldDown k (foldDown k v) = foldDown (k + k) v := by
  rw [foldDown, foldDown, foldDown, Nat.shiftRight_xor_distrib, Nat.xor_assoc, ← Nat.xor_assoc (v >>> k), Nat.xor_self, Nat.zero_xor, ← Nat.shiftRight_add]

theorem grayInv_grayOf {v : Nat} (small : v < 2 ^ 16) : grayInv (grayOf v) = v := by
  have gray : grayOf v = foldDown 1 v := by rw [grayOf, foldDown, Nat.shiftRight_eq_div_pow]
  have undone : grayInv (grayOf v) = foldDown 16 v := by
    rw [gray]
    show foldDown 8 (foldDown 4 (foldDown 2 (foldDown 1 (foldDown 1 v)))) = _
    rw [foldDown_twice, foldDown_twice, foldDown_twice, foldDown_twice]
  rw [undone, foldDown, Nat.shiftRight_eq_div_pow, Nat.div_eq_of_lt small, Nat.xor_zero]

theorem symbolValue_near {n v k : Nat} (top : n ≤ 14) (small : v < 2 ^ (n - 2)) (near : k < 4) : symbolValue n (4 * grayOf v + k) = v := by
  have gray : grayOf v < 2 ^ (n - 2) := Nat.xor_lt_two_pow small (Nat.lt_of_le_of_lt (Nat.div_le_self v 2) small)
  have low : v < 2 ^ 16 := Nat.lt_of_lt_of_le small (Nat.pow_le_pow_right (by decide) (by omega))
  rw [symbolValue, show (4 * grayOf v + k) / 4 = grayOf v by omega, Nat.mod_eq_of_lt gray, grayInv_grayOf low]

/-! ## Bits of numbers and bytes (R393) -/

theorem natBits_succ (k v : Nat) : natBits (k + 1) v = bitAt v 0 :: natBits k (v / 2) := by
  rw [natBits, natBits, List.range_succ_eq_map, List.map_cons, List.map_map]
  refine congrArg _ (List.map_congr_left fun i _ => ?_)
  show bitAt v (i + 1) = bitAt (v / 2) i
  rw [bitAt_eq_testBit, bitAt_eq_testBit, Nat.testBit_succ]

theorem natBits_length (k v : Nat) : (natBits k v).length = k := by rw [natBits, List.length_map, List.length_range]

theorem bitsNat_cons (b : Bool) (bs : List Bool) : bitsNat (b :: bs) = bitN b + 2 * bitsNat bs := rfl

theorem bitsNat_natBits (k v : Nat) : bitsNat (natBits k v) = v % 2 ^ k := by
  induction k generalizing v with
  | zero => rw [Nat.pow_zero, Nat.mod_one]; rfl
  | succ k ih =>
    have low : bitN (bitAt v 0) = v % 2 := by
      rw [bitAt, Nat.pow_zero, Nat.div_one]
      rcases Nat.mod_two_eq_zero_or_one v with h | h <;> rw [h] <;> rfl
    rw [natBits_succ, bitsNat_cons, ih, low, Nat.pow_succ', Nat.mod_mul]

theorem bitsNat_lt (bs : List Bool) : bitsNat bs < 2 ^ bs.length := by
  induction bs with
  | nil => decide
  | cons b bs ih =>
    rw [bitsNat_cons, List.length_cons, Nat.pow_succ']
    have bit : bitN b ≤ 1 := by cases b <;> decide
    omega

theorem natBits_bitsNat (bs : List Bool) : natBits bs.length (bitsNat bs) = bs := by
  induction bs with
  | nil => rfl
  | cons b bs ih =>
    have low : bitAt (bitN b + 2 * bitsNat bs) 0 = b := by
      rw [bitAt, Nat.pow_zero, Nat.div_one]
      cases b <;> simp [bitN]
    have half : (bitN b + 2 * bitsNat bs) / 2 = bitsNat bs := by
      have bit : bitN b ≤ 1 := by cases b <;> decide
      omega
    rw [List.length_cons, natBits_succ, bitsNat_cons, low, half, ih]

theorem bitAt_bitsNat {bs : List Bool} {i : Nat} (inside : i < bs.length) : bitAt (bitsNat bs) i = bs[i] := by
  have read : (natBits bs.length (bitsNat bs))[i]'(by rwa [natBits_length]) = bs[i] := by simp only [natBits_bitsNat]
  rw [← read]
  simp only [natBits, List.getElem_map, List.getElem_range]

theorem bitsNat_append (as bs : List Bool) : bitsNat (as ++ bs) = bitsNat as + 2 ^ as.length * bitsNat bs := by
  induction as with
  | nil => rw [List.nil_append, List.length_nil, Nat.pow_zero, Nat.one_mul]; exact (Nat.zero_add _).symm
  | cons a as ih => rw [List.cons_append, bitsNat_cons, bitsNat_cons, ih, List.length_cons, Nat.pow_succ', Nat.mul_assoc, Nat.mul_add, Nat.add_assoc]

theorem byteBits_length (bs : List Byte) : (byteBits bs).length = 8 * bs.length := by
  simp [byteBits, natBits_length, Nat.mul_comm]

theorem byteBits_append (as bs : List Byte) : byteBits (as ++ bs) = byteBits as ++ byteBits bs := List.flatMap_append

/-- Bytes come back from their bits. -/
theorem leBytes_byteBits (bs : List Byte) : leBytes bs.length (bitsNat (byteBits bs)) = bs := by
  induction bs with
  | nil => rfl
  | cons b bs ih =>
    have bound := b.isLt
    have value : bitsNat (byteBits (b :: bs)) = b.toNat + 256 * bitsNat (byteBits bs) := by
      rw [byteBits, List.flatMap_cons, bitsNat_append, bitsNat_natBits, natBits_length, Nat.mod_eq_of_lt bound]
      rfl
    have low : byte (bitsNat (byteBits (b :: bs))) = b := by
      refine BitVec.eq_of_toNat_eq ?_
      rw [value, byte, BitVec.toNat_ofNat]
      omega
    rw [List.length_cons, leBytes_succ, low, show bitsNat (byteBits (b :: bs)) / 256 = bitsNat (byteBits bs) by rw [value]; omega, ih]

/-! ## Whitening (R393) -/

theorem whitening_length (k r : Nat) : (whitening k r).length = k := by
  induction k generalizing r with
  | zero => rfl
  | succ k ih => rw [whitening, List.length_cons, ih]

theorem whitening_take (j k r : Nat) : (whitening k r).take j = whitening (min j k) r := by
  induction k generalizing j r with
  | zero => rw [Nat.min_zero]; exact List.take_nil
  | succ k ih =>
    cases j with
    | zero => rw [Nat.zero_min]; rfl
    | succ j => rw [whitening, List.take_succ_cons, ih, Nat.succ_min_succ, whitening]

theorem whiten_length (bs : List Bool) : (whiten bs).length = bs.length := by
  rw [whiten, List.length_map, List.length_zip, whitening_length, Nat.min_self]

/-- What the first bits whiten to does not rest on those that follow. -/
theorem whiten_take (j : Nat) (bs : List Bool) : whiten (bs.take j) = (whiten bs).take j := by
  rw [whiten, whiten, ← List.map_take, List.length_take, ← whitening_take]
  exact congrArg _ (List.take_zipWith ..).symm

theorem whiten_whiten (bs : List Bool) : whiten (whiten bs) = bs := by
  have twice : ∀ bs w : List Bool, bs.length = w.length → (((bs.zip w).map fun x => x.1 != x.2).zip w).map (fun x => x.1 != x.2) = bs := by
    intro bs
    induction bs with
    | nil => exact fun w _ => rfl
    | cons b bs ih =>
      intro w len
      cases w with
      | nil => exact absurd len (by simp)
      | cons x w =>
        have back : ((b != x) != x) = b := by cases b <;> cases x <;> rfl
        simp only [List.zip_cons_cons, List.map_cons, back]
        rw [ih w (Nat.succ.inj len)]
  have length := whiten_length bs
  conv => lhs; rw [whiten, length]
  exact twice bs _ (whitening_length _ _).symm

/-! ## Groups and blocks (R396) -/

theorem groupsOf_flatten {α : Type} (m : Nat) {k : Nat} {l : List α} (pos : 0 < m) (whole : l.length = m * k) :
    (groupsOf m k l).flatten = l ∧ (groupsOf m k l).length = k ∧ ∀ g ∈ groupsOf m k l, g.length = m := by
  induction k generalizing l with
  | zero => exact ⟨(List.eq_nil_of_length_eq_zero whole).symm, rfl, fun _ mem => absurd mem List.not_mem_nil⟩
  | succ k ih =>
    have long : m ≤ l.length := by rw [whole]; exact Nat.le_mul_of_pos_right m (Nat.succ_pos k)
    have some : l.isEmpty = false := by
      cases l with
      | nil => simp at long; omega
      | cons => rfl
    obtain ⟨flat, length, each⟩ := ih (l := l.drop m) (by rw [List.length_drop, whole, Nat.mul_succ, Nat.add_sub_cancel])
    rw [groupsOf, some, if_neg Bool.false_ne_true]
    refine ⟨by rw [List.flatten_cons, flat, List.take_append_drop], by rw [List.length_cons, length], fun g mem => ?_⟩
    rcases List.mem_cons.mp mem with rfl | rest
    · rw [List.length_take, Nat.min_eq_left long]
    · exact each g rest

/-- Groups of one size come back from what they hold. -/
theorem groupsOf_of_flatten {α : Type} {m k : Nat} {gs : List (List α)} (pos : 0 < m) (each : ∀ g ∈ gs, g.length = m) (enough : gs.length ≤ k) :
    groupsOf m k gs.flatten = gs := by
  induction gs generalizing k with
  | nil => cases k <;> rfl
  | cons g gs ih =>
    cases k with
    | zero => exact absurd enough (by simp)
    | succ k =>
      have size := each g List.mem_cons_self
      have some : (g ++ gs.flatten).isEmpty = false := by
        cases g with
        | nil => simp at size; omega
        | cons => rfl
      rw [List.flatten_cons, groupsOf, some, if_neg Bool.false_ne_true, List.take_left' size, List.drop_left' size,
        ih (fun x mem => each x (List.mem_cons_of_mem _ mem)) (Nat.le_of_succ_le_succ enough)]

theorem blockValues_length (cs : List Nat) : (blockValues cs).length = 24 := by rw [blockValues, List.length_map, List.length_range]

theorem blockValues_lt {cs : List Nat} {v : Nat} (mem : v ∈ blockValues cs) : v < 2 ^ cs.length := by
  obtain ⟨j, -, rfl⟩ := List.mem_map.mp mem
  have bound := bitsNat_lt (cs.map fun c => bitAt c j)
  rwa [List.length_map] at bound

/-- A block gives back its codewords. -/
theorem blockWords_blockValues {cs : List Nat} (words : ∀ c ∈ cs, c < 2 ^ 24) : blockWords cs.length (blockValues cs) = cs := by
  refine List.ext_getElem (by rw [blockWords, List.length_map, List.length_range]) fun i _ inside => ?_
  have bits : (blockValues cs).map (fun v => bitAt v i) = natBits 24 cs[i] := by
    rw [blockValues, List.map_map]
    refine List.map_congr_left fun j _ => ?_
    show bitAt (bitsNat (cs.map fun c => bitAt c j)) i = bitAt cs[i] j
    rw [bitAt_bitsNat (by rwa [List.length_map]), List.getElem_map]
  simp only [blockWords, List.getElem_map, List.getElem_range, bits]
  rw [bitsNat_natBits, Nat.mod_eq_of_lt (words _ (List.getElem_mem inside))]

/-! ## A frame (R392–R394, R396) -/

/-- The bits of a frame's header, payload and check. -/
def frameBits (power : Int) (precomp : Bool) (payload : List Byte) : List Bool :=
  byteBits (radioHeader payload.length power precomp ++ payload ++ leBytes 2 (CrcKind.ccitt.of payload))

/-- The bits of a frame, filled up to whole blocks. -/
def frameFilled (n : Nat) (power : Int) (precomp : Bool) (payload : List Byte) : List Bool :=
  frameBits power precomp payload ++
    List.replicate (12 * (n - 2) * radioBlocks n payload.length - (frameBits power precomp payload).length) false

/-- The groups of 12 data bits of a frame. -/
def frameGroups (n : Nat) (power : Int) (precomp : Bool) (payload : List Byte) : List (List Bool) :=
  groupsOf 12 ((n - 2) * radioBlocks n payload.length) (whiten (frameFilled n power precomp payload))

/-- The codeword of a group of 12 data bits. -/
def groupWord (g : List Bool) : Nat := golayEncode (bitsNat g)

/-- The blocks of codewords of a frame. -/
def frameBlocks (n : Nat) (power : Int) (precomp : Bool) (payload : List Byte) : List (List Nat) :=
  groupsOf (n - 2) (radioBlocks n payload.length) ((frameGroups n power precomp payload).map groupWord)

/-- The shifts of a block. -/
def blockShifts (cs : List Nat) : List Nat := (blockValues cs).map shiftOf

theorem radioSymbols_data (n network : Nat) (power : Int) (precomp : Bool) (payload : List Byte) :
    (radioSymbols n network power precomp payload).drop 2 = (frameBlocks n power precomp payload).flatMap blockShifts := by
  show ((frameBlocks n power precomp payload).flatMap blockValues).map shiftOf = _
  rw [List.map_flatMap]
  rfl

theorem blockShifts_length (cs : List Nat) : (blockShifts cs).length = 24 := by rw [blockShifts, List.length_map, blockValues_length]

theorem flatMap_blockShifts_length (gs : List (List Nat)) : (gs.flatMap blockShifts).length = 24 * gs.length := by
  simp [List.length_flatMap, blockShifts_length, Nat.mul_comm]

/-- The symbols of whole blocks give back their codewords. -/
theorem heardWords_blocks {n : Nat} {gs : List (List Nat)} (top : n ≤ 14) (each : ∀ g ∈ gs, g.length = n - 2) (words : ∀ g ∈ gs, ∀ c ∈ g, c < 2 ^ 24) :
    heardWords n (gs.flatMap blockShifts) = gs.flatten := by
  have blocks : groupsOf 24 (gs.flatMap blockShifts).length (gs.flatMap blockShifts) = gs.map blockShifts :=
    groupsOf_of_flatten (gs := gs.map blockShifts) (by decide) (by simp [blockShifts_length]) (by rw [flatMap_blockShifts_length, List.length_map]; omega)
  have back : ∀ g ∈ gs, blockWords (n - 2) ((blockShifts g).map (symbolValue n)) = g := by
    intro g mem
    have values : (blockShifts g).map (symbolValue n) = blockValues g := by
      rw [blockShifts, List.map_map]
      refine (List.map_congr_left fun v inside => ?_).trans (List.map_id _)
      exact symbolValue_near (k := 2) top (by rw [← each g mem]; exact blockValues_lt inside) (by decide)
    rw [values, ← each g mem]
    exact blockWords_blockValues (words g mem)
  rw [heardWords, blocks, List.flatMap_map, List.flatten_eq_flatMap]
  exact List.flatMap_congr fun g mem => back g mem

theorem bitsNat_group {g : List Bool} (size : g.length = 12) : bitsNat g < 2 ^ 12 := by
  rw [← size]
  exact bitsNat_lt g

/-- Codewords without an error give back their data bits. -/
theorem heardBits_words {gs : List (List Bool)} (each : ∀ g ∈ gs, g.length = 12) : heardBits (gs.map groupWord) = gs.flatten := by
  have back : ∀ g ∈ gs, natBits 12 ((golayDecode (groupWord g)).getD (groupWord g % 2 ^ 12)) = g := by
    intro g mem
    have decoded := golayDecode_encode (bitsNat_group (each g mem)) (e := 0) (by decide)
    rw [Nat.xor_zero] at decoded
    rw [groupWord, decoded, Option.getD_some]
    conv => lhs; rw [← each g mem]
    exact natBits_bitsNat g
  rw [heardBits, List.flatMap_map, List.flatten_eq_flatMap]
  exact List.flatMap_congr fun g mem => back g mem

theorem radioHeader_length (L : Nat) (power : Int) (precomp : Bool) : (radioHeader L power precomp).length = 3 := rfl

theorem frameBits_length (power : Int) (precomp : Bool) (payload : List Byte) : (frameBits power precomp payload).length = 24 + 8 * (payload.length + 2) := by
  rw [frameBits, byteBits_length, List.length_append, List.length_append, leBytes_length, radioHeader_length]
  omega

/-- The blocks of a frame hold its bits. -/
theorem frame_fits {n : Nat} (low : 3 ≤ n) (L : Nat) : 24 + 8 * (L + 2) ≤ 12 * (n - 2) * radioBlocks n L := by
  have pos : 0 < 12 * (n - 2) := by omega
  have floor := Nat.div_add_mod (24 + 8 * (L + 2) + 12 * (n - 2) - 1) (12 * (n - 2))
  have rest := Nat.mod_lt (24 + 8 * (L + 2) + 12 * (n - 2) - 1) pos
  rw [radioBlocks]
  omega

section Frame

/-- The payload of a frame and its check. -/
def checkedPayload (payload : List Byte) : List Byte := payload ++ leBytes 2 (CrcKind.ccitt.of payload)

variable {n : Nat} {power : Int} {precomp : Bool} {payload : List Byte}

theorem frameFilled_length (low : 3 ≤ n) : (frameFilled n power precomp payload).length = 12 * ((n - 2) * radioBlocks n payload.length) := by
  have fits := frame_fits low payload.length
  rw [frameFilled, List.length_append, List.length_replicate, frameBits_length, ← Nat.mul_assoc]
  omega

/-- The groups of a frame are its whitened bits. -/
theorem frameGroups_flatten (low : 3 ≤ n) : (frameGroups n power precomp payload).flatten = whiten (frameFilled n power precomp payload) ∧
    (frameGroups n power precomp payload).length = (n - 2) * radioBlocks n payload.length ∧ ∀ g ∈ frameGroups n power precomp payload, g.length = 12 :=
  groupsOf_flatten 12 (by decide) ((whiten_length _).trans (frameFilled_length low))

theorem frameBlocks_flatten (low : 3 ≤ n) : (frameBlocks n power precomp payload).flatten = (frameGroups n power precomp payload).map groupWord ∧
    (frameBlocks n power precomp payload).length = radioBlocks n payload.length ∧ ∀ g ∈ frameBlocks n power precomp payload, g.length = n - 2 :=
  groupsOf_flatten (n - 2) (by omega) ((List.length_map ..).trans (frameGroups_flatten low).2.1)

theorem frameBlocks_words (low : 3 ≤ n) : ∀ g ∈ frameBlocks n power precomp payload, ∀ c ∈ g, c < 2 ^ 24 := by
  intro g mem c inside
  obtain ⟨flat, -, -⟩ := frameBlocks_flatten (power := power) (precomp := precomp) (payload := payload) low
  have word : c ∈ (frameBlocks n power precomp payload).flatten := List.mem_flatten.mpr ⟨g, mem, inside⟩
  rw [flat] at word
  obtain ⟨bits, group, rfl⟩ := List.mem_map.mp word
  exact golayEncode_lt (bitsNat_group ((frameGroups_flatten low).2.2 bits group))

theorem heardBits_length (ws : List Nat) : (heardBits ws).length = 12 * ws.length := by
  simp [heardBits, List.length_flatMap, natBits_length, Nat.mul_comm]

/-- The bits that the receiver hears in the symbols of a frame. -/
theorem heard_frame (low : 8 ≤ n) (top : n ≤ 14) (some : 1 ≤ payload.length) {data : List Nat}
    (sent : data = (frameBlocks n power precomp payload).flatMap blockShifts) :
    heardBits (heardWords n (data.take 24)) ++ heardBits (heardWords n (data.drop 24)) = whiten (frameFilled n power precomp payload) ∧
    24 ≤ (heardBits (heardWords n (data.take 24))).length := by
  have three : 3 ≤ n := by omega
  obtain ⟨flat, count, each⟩ := frameBlocks_flatten (power := power) (precomp := precomp) (payload := payload) three
  obtain ⟨bits, -, groups⟩ := frameGroups_flatten (power := power) (precomp := precomp) (payload := payload) three
  have words := frameBlocks_words (power := power) (precomp := precomp) (payload := payload) three
  have fits := frame_fits three payload.length
  generalize frameBlocks n power precomp payload = blocks at *
  cases blocks with
  | nil =>
    rw [← count, List.length_nil, Nat.mul_zero] at fits
    omega
  | cons g gs =>
    have size := blockShifts_length g
    have head : heardWords n (blockShifts g) = g := by
      have one := heardWords_blocks (gs := [g]) top (fun x mem => each x (List.mem_cons.mpr (.inl (List.mem_singleton.mp mem))))
        (fun x mem => words x (List.mem_cons.mpr (.inl (List.mem_singleton.mp mem))))
      rwa [List.flatMap_singleton, List.flatten_singleton] at one
    have tail : heardWords n (gs.flatMap blockShifts) = gs.flatten :=
      heardWords_blocks top (fun x mem => each x (List.mem_cons_of_mem _ mem)) fun x mem => words x (List.mem_cons_of_mem _ mem)
    rw [sent, List.flatMap_cons, List.take_left' size, List.drop_left' size, head, tail]
    refine ⟨?_, by rw [heardBits_length, each g List.mem_cons_self]; omega⟩
    have joined : heardBits g ++ heardBits gs.flatten = heardBits (g ++ gs.flatten) := List.flatMap_append.symm
    rw [joined, ← List.flatten_cons, flat, heardBits_words groups, bits]

/-- A frame is its header, its payload with the check, and what fills it up. -/
theorem frameFilled_parts : ∃ fill, frameFilled n power precomp payload =
    byteBits (radioHeader payload.length power precomp) ++ (byteBits (checkedPayload payload) ++ fill) := by
  refine ⟨List.replicate (12 * (n - 2) * radioBlocks n payload.length - (frameBits power precomp payload).length) false, ?_⟩
  conv => lhs; rw [frameFilled]
  conv => lhs; lhs; rw [frameBits, List.append_assoc, byteBits_append]
  rw [List.append_assoc, checkedPayload]

/-- The header is heard in the first block of a frame. -/
theorem header_heard {first rest : List Bool} (heard : first ++ rest = whiten (frameFilled n power precomp payload)) (long : 24 ≤ first.length) :
    leBytes 3 (bitsNat ((whiten first).take 24)) = radioHeader payload.length power precomp := by
  have bits : (whiten first).take 24 = byteBits (radioHeader payload.length power precomp) := by
    have begun : first.take 24 = (whiten (frameFilled n power precomp payload)).take 24 := by rw [← heard, List.take_append_of_le_length long]
    obtain ⟨fill, parts⟩ := frameFilled_parts (n := n) (power := power) (precomp := precomp) (payload := payload)
    rw [← whiten_take, begun, whiten_take, whiten_whiten, parts]
    exact List.take_left' (byteBits_length _)
  rw [bits]
  exact leBytes_byteBits (radioHeader payload.length power precomp)

/-- The payload is heard in all the bits of a frame, and its check is good. -/
theorem payload_heard {first : List Bool} {symbols : List Nat}
    (heard : first ++ heardBits (heardWords n symbols) = whiten (frameFilled n power precomp payload)) :
    heardPayload { order := n, length := payload.length, bits := first } symbols = (payload, true) := by
  have size : (checkedPayload payload).length = payload.length + 2 := by rw [checkedPayload, List.length_append, leBytes_length]
  obtain ⟨fill, parts⟩ := frameFilled_parts (n := n) (power := power) (precomp := precomp) (payload := payload)
  have header : (byteBits (radioHeader payload.length power precomp)).length = 24 := byteBits_length _
  have bits : ((frameFilled n power precomp payload).drop 24).take (8 * (payload.length + 2)) = byteBits (checkedPayload payload) := by
    rw [parts, List.drop_left' header]
    exact List.take_left' ((byteBits_length _).trans (by rw [size]))
  have bytes : leBytes (payload.length + 2) (bitsNat (byteBits (checkedPayload payload))) = checkedPayload payload := by
    rw [← size]
    exact leBytes_byteBits (checkedPayload payload)
  unfold heardPayload
  dsimp only
  rw [heard, whiten_whiten, bits, bytes, checkedPayload, List.take_left' rfl, List.drop_left' rfl, BEq.rfl]

end Frame

/-- Settles O49: each part of the receiver undoes the part of the sender that stands beside it; the code corrects three errors because two codewords
differ in seven bits or more. -/
theorem radioCoding : Obligations.RadioCoding := by
  unfold Obligations.RadioCoding
  refine ⟨fun n v k _ top small near => symbolValue_near top small near, whiten_whiten, fun d small => ?code, fun d e ld _ few => golayDecode_encode ld few,
    fun cs words => blockWords_blockValues words, ?frame⟩
  case code =>
    have data : golayEncode d % 4096 = d := by
      rw [golayEncode]
      omega
    exact ⟨data, golayEncode_lt small, parityOf_golayEncode small⟩
  case frame =>
    rintro n network power precomp payload data first low top - - some - sent rfl
    rw [radioSymbols_data] at sent
    obtain ⟨heard, long⟩ := heard_frame low top some sent
    refine ⟨?_, header_heard heard long, payload_heard heard⟩
    rw [sent, flatMap_blockShifts_length, (frameBlocks_flatten (by omega)).2.1]

end Sys2Proof.Machine

end
